-- ==== Sys2Proof/Machine/Kv.lean ====
section
/-!
DEFINITION. Sys2Proof/Machine/Kv.lean: keyed collections as association lists in one canonical form, keys strictly rising.
Every table, store and session list of State is one of these, and the register file too.
-/
namespace Sys2Proof.Machine

/-- A keyed collection. -/
abbrev Kv (α : Type) := List (Nat × α)

/-- The value under a key. -/
def Kv.get? {α : Type} (k : Nat) : Kv α → Option α
  | [] => none
  | (j, v) :: t => if k = j then some v else if k < j then none else Kv.get? k t

/-- The value under a key, or a default. -/
def Kv.getD {α : Type} (m : Kv α) (k : Nat) (d : α) : α := (Kv.get? k m).getD d

/-- The collection with `v` under `k`. -/
def Kv.put {α : Type} (k : Nat) (v : α) : Kv α → Kv α
  | [] => [(k, v)]
  | (j, w) :: t => if k < j then (k, v) :: (j, w) :: t else if k = j then (k, v) :: t else (j, w) :: Kv.put k v t

/-- The collection without `k`. -/
def Kv.del {α : Type} (k : Nat) : Kv α → Kv α
  | [] => []
  | (j, w) :: t => if k < j then (j, w) :: t else if k = j then t else (j, w) :: Kv.del k t

/-- Put, but remove the entry when `v` is the value an absent key reads as. -/
def Kv.putOr {α : Type} [DecidableEq α] (d : α) (k : Nat) (v : α) (m : Kv α) : Kv α :=
  if v = d then Kv.del k m else Kv.put k v m

/-- Change the value under `k`, starting from `d` when there is none. -/
def Kv.upd {α : Type} (k : Nat) (d : α) (f : α → α) (m : Kv α) : Kv α := Kv.put k (f (m.getD k d)) m

/-- Are the keys strictly rising, all above `lo`? -/
def Kv.sortedFrom {α : Type} (lo : Nat) : Kv α → Bool
  | [] => true
  | (k, _) :: t => decide (lo ≤ k) && Kv.sortedFrom (k + 1) t

/-- The canonical form: keys strictly rising. -/
def Kv.wf {α : Type} (m : Kv α) : Bool := Kv.sortedFrom 0 m

end Sys2Proof.Machine
end

