-- ==== Sys2Proof/Word.lean ====
section
/-!
DEFINITION. Sys2Proof/Word.lean: the word types of the block. Set-up registers are 32 bits (R10); titles and times are 64.
-/
namespace Sys2Proof

/-- One byte of a frame, a record or a host buffer. -/
abbrev Byte := BitVec 8
/-- A set-up register word (R10). -/
abbrev W32 := BitVec 32
/-- A 64-bit quantity: a system title, a sequence number, a time in the RX_TIME format (R103, R324). -/
abbrev W64 := BitVec 64
/-- A key as SEC holds it (R408): 128 bits. Keys are compared, never computed with (log entry 3). -/
abbrev Key := BitVec 128
/-- A table key-encryption key (R68): 256 bits. -/
abbrev Kek := BitVec 256
/-- A 256-byte meter record image (R48). -/
abbrev RecImg := BitVec 2048

end Sys2Proof
end

