-- ==== Sys2Proof/Machine/Types.lean ====
section
/-!
DEFINITION. Sys2Proof/Machine/Types.lean: the data the block works on, as plain data: operands of the commands (frames, entries,
records, command bodies) and the parts of the state, chapter by chapter.
-/
namespace Sys2Proof.Machine

/-! ## Operands -/

/-- One element of a decode template (R520): DLMS tag, TARGET and SCALER. -/
structure TemplateElem where
  tag : Nat
  target : Nat
  scaler : Int
  deriving DecidableEq, Repr

/-- A decode template (0x0401 of R520). -/
structure Template where
  id : Nat
  notification : Bool
  name : BitVec 48
  elems : List TemplateElem
  deriving DecidableEq, Repr

/-- A poll entry (0x0402 of R520); an attribute is class, OBIS name and attribute number. -/
structure PollEntry where
  entry : Nat
  template : Nat
  periodMin : Nat
  offsetS : Nat
  attrs : List (BitVec 16 × BitVec 48 × Byte)
  deriving DecidableEq, Repr

/-- A NAND profile (0x0F01 of R520). -/
structure NandProfile where
  onfiId : W64
  peLimit : Nat
  /-- Read-retry levels, 1 to 32. -/
  levels : Nat
  ageBounds : List Nat
  peBounds : List Nat
  grid : List Nat
  /-- The lowest paired page of each page. -/
  paired : List Nat
  deriving DecidableEq, Repr

/-- Ethernet addresses of one port (0x0A01 of R520). -/
structure EthAddrs where
  port : Bool
  ipv4 : BitVec 32
  ipv6 : BitVec 128
  relayIpv4 : BitVec 32
  relayIpv6 : BitVec 128
  sharedMac : BitVec 48
  deriving DecidableEq, Repr

/-- A Jihus bundle as the unit reads it (R519, R520). `sigOk`: MAGIC, FORMAT, owner key digest, signature and BODY_DIGEST;
`formOk`: sections, items and lengths; `unwrapOk`: every wrapped key passes its integrity check (log entry 3). -/
structure Bundle where
  sigOk : Bool
  /-- SHA-384 of OWNER_KEY, as twelve words. -/
  owner : List W32
  /-- LENGTH: body bytes. -/
  length : Nat
  formOk : Bool
  unwrapOk : Bool
  role : Nat
  profile : Nat
  lock : Bool
  pos : Bool
  service : BitVec 12
  serial : W64
  slots : List (Nat × BitVec 16 × Key)
  tkek : List (Nat × Kek)
  relayKeys : List (Nat × Key)
  pairKey : Option Key
  bootKey : Option Key
  salt : Option (BitVec 128)
  templates : List Template
  polls : List PollEntry
  tamperCodes : List (BitVec 16)
  neutralCodes : List (BitVec 16)
  /-- Rule program images of R131, as bytes. -/
  rules : List (List Byte)
  /-- Campaign signer keys: INDEX, CURVE and public key. -/
  campSigners : List (Nat × Nat × BitVec 768)
  unitTitle : Option W64
  addrs : List EthAddrs
  utcOffset : Option (BitVec 16)
  nand : List NandProfile
  subsystem : BitVec 32
  /-- Settings in list order: section, OFFSET, MASK, VALUE (R521). -/
  settings : List (Nat × Nat × W32 × W32)
  deriving DecidableEq, Repr

/-- An image as the unit reads it (R518). `ok`: MAGIC, FORMAT, signature and payload digest. -/
structure Image where
  ok : Bool
  /-- SHA-384 of SIGNER_KEY, as twelve words. -/
  signer : List W32
  /-- LENGTH: payload bytes. -/
  length : Nat
  jver : Nat
  jverMin : Nat
  version : W32
  maskSets : List Byte
  deriving DecidableEq, Repr

/-- The object staged for an install (R522), as the unit reads it from the staging window (log entry 8). -/
inductive Staged where
  | image (i : Image)
  | bundle (b : Bundle)
  | none
  deriving DecidableEq, Repr, Inhabited

/-- A module identity memory as read over I²C (R461 to R463, R467): does it acknowledge, and its 256 bytes. -/
structure ModRecord where
  answered : Bool
  bytes : List Byte
  deriving DecidableEq, Repr

/-- An archive target as its ONFI parameter page shows it (R421): channel, target, identity, page size in KiB, spare bytes per
4 KiB, pages per block, blocks and factory-bad blocks. -/
structure NandTarget where
  channel : Nat
  target : Nat
  onfiId : W64
  pageKib : Nat
  spare : Nat
  pages : Nat
  blocks : Nat
  bad : List Nat
  deriving DecidableEq, Repr

/-- How a page decodes (R432): the levels at which hard decode succeeds, whether soft decode does, and the corrected bits as
a percentage of the hard-decode capability. A page not named decodes at every level with none (log entry 21). -/
structure Media where
  block : Nat
  page : Nat
  hard : List Nat
  soft : Bool
  pct : Nat
  deriving DecidableEq, Repr

/-- What a mount finds after a power loss (R438): sectors with two copies, and pages torn while they were programmed. -/
structure MountScan where
  dup : Nat
  torn : List (Nat × Nat)
  deriving DecidableEq, Repr

/-- What a blank unit is fitted with: its OTP words and the four slots of its boot flash (log entry 64). -/
structure Fitted where
  otp : Kv W32
  imageA : Option Image
  imageB : Option Image
  bundleA : Option Bundle
  bundleB : Option Bundle
  deriving DecidableEq, Repr

/-- What the board and the outside show the unit while it starts (R508): the strap code converted first (R511), clocks
locked at release, self-test results, fitted DRAM, the archive targets' ONFI identities, and the module bay. `preset` is taken
only while the OTP is blank (log entry 64). -/
structure StartEnv where
  preset : Option Fitted
  strap : BitVec 6
  unlocked : List Nat
  secSelfTest : Bool
  dramMib : Nat
  dramChannels : BitVec 2
  nandTargets : List NandTarget
  bist : BitVec 21
  modules : List (Nat × ModRecord)
  /-- The level of TEST_EN, which a board ties low (R553). -/
  testEn : Bool
  deriving DecidableEq, Repr

/-- Where a command comes from: a submission ring with the BUFFER ring its descriptor names (R395), or a management
datagram on an Ethernet port (R413). -/
inductive Origin where
  | ring (sq : Nat) (rx : Option Nat)
  | eth (port : Bool)
  /-- The sender is out of reach: the command was accepted by the partner, or its rings were reset (R416). -/
  | gone
  deriving DecidableEq, Repr

/-- The trailer of an authenticated command (R405). `key` is the authority key K whose MAC key made the CMAC: the tag
verifies when it is the key the slot holds (log entry 3). -/
structure Auth where
  slot : BitVec 8
  counter : W64
  key : Key
  deriving DecidableEq, Repr

/-- The header of a command body (R405). `formOk`: length and reserved fields are right. -/
structure Hdr where
  origin : Origin
  formOk : Bool
  version : Byte
  tag : W32
  pos : BitVec 2
  service : BitVec 12
  auth : Option Auth
  deriving DecidableEq, Repr

/-- What wraps a key (R68, R408): the wrap key of an authority slot, or a TKEK. -/
inductive WrapKey where
  | authority (k : Key)
  | table (k : Kek)
  deriving DecidableEq, Repr

/-- A wrapped key (R68, R408): it unwraps when the key it was wrapped under is the key held and the 24 bytes are intact (log
entry 3). -/
structure Wrapped where
  under : WrapKey
  val : Key
  intact : Bool
  deriving DecidableEq, Repr

/-- A path to the registers (R538); each has its own latches (R539). -/
inductive Path where
  | bar0 | cmd | firmware
  deriving DecidableEq, Repr

/-- A submission entry as the unit reads it from host memory (R395). `ok`: DTYPE matches the ring and reserved fields are zero. -/
structure BufDesc where
  ok : Bool
  bufId : W32
  len : Nat
  deriving DecidableEq, Repr

/-- The wrapped keys of a record (R48, R68, R69): current and pending, and the KEY_GEN staged with the pending ones. -/
structure RecKeys where
  ek : Wrapped
  ak : Wrapped
  pendEk : Wrapped
  pendAk : Wrapped
  pendGen : Byte
  deriving DecidableEq, Repr

/-- A COSEM date-time (R101, R104, R105): hundredths 0xFF when it carries none; deviation as 16 bits, 0x8000 not specified. -/
structure CosemTime where
  year : Nat
  month : Nat
  day : Nat
  hour : Nat
  minute : Nat
  second : Nat
  hundredths : Nat
  deviation : BitVec 16
  status : Byte
  deriving DecidableEq, Repr

/-- A DLMS value with its data-type tag: a number, a date-time, or data of another kind. -/
inductive Dv where
  | num (tag : Nat) (v : Int)
  | time (tag : Nat) (t : CosemTime)
  | other (tag : Nat)
  deriving DecidableEq, Repr

/-- Inner service of an APDU (R90). -/
inductive Svc where
  | notification | getNormal | getList | getBlock | event | other
  deriving DecidableEq, Repr

/-- A ciphered APDU as received (R90, R91). `ek` and `ak` are the keys its tag was made with, `intact` that nothing changed on
the way (log entry 3); `inner` is the ciphered APDU's tag, which differs from `outer` inside general-signing; `length` is L of R83. -/
structure Apdu where
  outer : Nat
  inner : Nat
  /-- Signature suite and the public key that verifies it (R94). -/
  sign : Option (Nat × BitVec 768)
  title : Option W64
  sc : Byte
  ic : W32
  ek : Key
  ak : Key
  intact : Bool
  headerOk : Bool
  length : Nat
  svc : Svc
  name : BitVec 48
  rows : List (List Dv)
  clock : Option CosemTime
  eventValue : Option Dv
  /-- The association a response answers, as its link session tells it apart: a session slot of the unit (R92, R101). -/
  assoc : Nat
  deriving DecidableEq, Repr

/-- One reading as an intake queue holds it (R83): source link 0 to 7, receive time-stamp, title (R84) and, for a relayed
reading, the fields of the relay entry (R311). -/
structure RItem where
  src : Nat
  title : Option W64
  rxTime : W64
  tsValid : Bool
  relayed : Bool
  orig : Nat
  sender : BitVec 12
  reqTime : W64
  polled : Bool
  /-- The session slot of the association it answers (R92). -/
  assoc : Nat
  ded : Bool
  session : Wrapped
  /-- TKEK version of the wrapped session key (R311). -/
  kekVer : Nat
  template : Nat
  fieldOutcome : Nat
  apdu : Apdu
  /-- The unit's own mark of the relay entry it came in; 0 for none. -/
  ref : Nat
  deriving DecidableEq, Repr

/-- Pair states (R355), with their codes 0 to 6 in this order. -/
inductive PairSt where
  | lone | seeking | copying | standby | active | activeAlone | fenced
  deriving DecidableEq, Repr

/-- A heartbeat as received or sent (R364). `key` made its tag (log entry 3); TX_TIME and the echo times are local times in
units of 2^-16 ns. -/
structure Heartbeat where
  version : Byte
  st : PairSt
  service : BitVec 12
  claim : W32
  seq : W32
  ready : Bool
  handoff : Bool
  proofFailed : Bool
  pos : Bool
  grade : BitVec 2
  proving : Bool
  jver : Nat
  jverMin : Nat
  timeState : Byte
  role : BitVec 2
  txTime : Nat
  echoTime : Nat
  echoRx : Nat
  saltFp : W32
  epoch : W32
  key : Key
  deriving DecidableEq, Repr

/-- What an Announce says of the grandmaster behind it (R336). -/
structure GmData where
  id : W64
  prio1 : Nat
  prio2 : Nat
  clockClass : Nat
  accuracy : Nat
  deriving DecidableEq, Repr

/-- A PTP message as received (R335). Times are in tenths of a nanosecond; receive times are taken at the MAC, before the
corrections of R338. -/
inductive PtpBody where
  /-- A Sync, with its Follow_Up when two-step: origin time with corrections, receive time. -/
  | sync (t1 t2 : Int)
  /-- A completed Pdelay exchange: request sent and received, response sent and received. -/
  | pdelay (t1 t2 t3 t4 : Int)
  /-- A completed Delay exchange: Sync sent and received, Delay_Req sent and received. -/
  | delay (t1 t2 t3 t4 : Int)
  | pdelayReq
  /-- An Announce, with what the best master clock algorithm of IEEE 1588 makes of it (log entry 23): `slave`, the port is in SLAVE;
  `best`, it is the port that algorithm chooses. -/
  | announce (gm : GmData) (slave best : Bool) (utc : Int) (utcValid leap59 leap61 : Bool)
  deriving DecidableEq, Repr

structure PtpMsg where
  domain : Byte
  versionOk : Bool
  typeOk : Bool
  /-- 0 Ethernet, 1 UDP over IPv4, 2 UDP over IPv6. -/
  transport : Nat
  /-- logSyncInterval or logAnnounceInterval of a Sync or an Announce. -/
  logInterval : Int
  /-- Rate of the port's link in Mb/s, as the USXGMII control word reports it. -/
  rate : Nat
  body : PtpBody
  deriving DecidableEq, Repr

/-- Messages a port sends (R336). -/
inductive PtpSend where
  | sync | announce | pdelayReq | delayReq
  deriving DecidableEq, Repr

/-- A node record of the topology tree (R152). -/
structure Node where
  id : Nat
  parent : Nat
  type : Nat
  flags : Byte
  refType : Nat
  refHead : Byte
  refId : W32
  noLoad : Nat
  loadLoss : Nat
  rated : Nat
  lossUnc : Nat
  shift : Nat
  reserved : BitVec 48
  note : BitVec 256
  deriving DecidableEq, Repr

/-- A campaign manifest (R208). `signedBy` is the public key whose signature it carries: it verifies when that is the key SIGNER
names (log entry 3). -/
structure Manifest where
  version : Byte
  kind : Byte
  sigAlg : Nat
  campId : W32
  imageLen : Nat
  tableSegs : Nat
  targetClass : BitVec 16
  imageVersion : W32
  signer : Nat
  reservedOk : Bool
  expiry : W64
  imageDigest : BitVec 256
  tableDigest : BitVec 256
  /-- r ‖ s, left-aligned; `signedBy` is the key it verifies under. -/
  signature : BitVec 768
  signedBy : BitVec 768
  deriving DecidableEq, Repr

/-- An activation or rollback record (R209). -/
structure ActRec where
  action : Nat
  sigAlg : Nat
  signer : Nat
  campId : W32
  actTime : W64
  utcOffset : BitVec 16
  lateS : Nat
  reservedOk : Bool
  signature : BitVec 768
  signedBy : BitVec 768
  deriving DecidableEq, Repr

/-- A member record (R213), with the meter's title, by which a FIELD unit finds its endpoint (log entry 26). -/
structure Member where
  slot : Nat
  st : Nat
  rank : Nat
  low : Nat
  map : W64
  title : W64
  deriving DecidableEq, Repr

/-- A progress frame (R210). -/
structure Progress where
  st : Nat
  low : Nat
  campId : W32
  rank : Nat
  layout : Nat
  map : W64
  deriving DecidableEq, Repr

/-- A campaign frame on an access link (R206 to R210). -/
inductive CampFrame where
  | block (layout gen : Nat) (campId : W32) (seed : Nat) (payload : List Byte)
  | manifest (m : Manifest)
  | act (r : ActRec)
  | progress (p : Progress)
  | request (campId : W32)
  /-- Unknown TYPE, or the wrong length for its TYPE. -/
  | bad
  deriving DecidableEq, Repr

/-- A campaign control entry (CAMP_CTL of R310). -/
inductive CampCtl where
  | manifest (m : Manifest)
  | state (code : Nat)
  | act (r : ActRec)
  | remove (slots : List Nat)
  deriving DecidableEq, Repr

/-- A minute record of a feeder head (R456). -/
structure MinuteRec where
  head : Nat
  qflags : Byte
  missing : Nat
  calId : W32
  start : W64
  imp : List Nat
  exp : List Nat
  net : Int
  deriving DecidableEq, Repr

/-- One second of a head's deviations (R459). -/
structure RmsRec where
  head : Nat
  qflags : Byte
  second : W64
  dev : List Int
  deriving DecidableEq, Repr

/-- A zero-crossing report (R247). -/
structure ZcReport where
  title : W64
  refPhase : Nat
  inst : Nat
  offset : Nat
  periodNs : Nat
  time : W64
  deriving DecidableEq, Repr

/-- A fingerprint report (R249). -/
structure FpReport where
  title : W64
  fcc : Bool
  inst : Nat
  frames : Nat
  snr : List Nat
  deriving DecidableEq, Repr

/-- A relay entry (R310). -/
inductive Entry where
  | reading (r : RItem)
  | joinReport (title : W64) (link : Byte) (short : BitVec 16) (eui t : W64)
  | fetch (title : W64)
  | record (img : RecImg) (keys : RecKeys)
  | release (title : W64)
  | fetchNak (title : W64)
  | unknown (title : W64) (source : Byte) (t : W64)
  | zc (r : ZcReport)
  | fp (r : FpReport)
  | meaInterval (m : MinuteRec)
  | meaRms (m : RmsRec)
  | member (campId : W32) (m : Member)
  | segReq (campId : W32) (seg : Nat)
  | segPiece (campId : W32) (seg piece : Nat) (data : List Byte)
  | campCtl (campId : W32) (c : CampCtl)
  /-- Another ETYPE, or a LEN that differs from the table. -/
  | bad
  deriving DecidableEq, Repr

/-- An entry as a frame carries it (R307, R312): whole, or a piece; the last piece stands for what the pieces spell together. -/
inductive FrameEnt where
  | whole (e : Entry)
  /-- A piece: the bytes it takes in the frame. -/
  | first (n : Nat)
  | middle (n : Nat)
  | last (n : Nat) (e : Entry)
  deriving DecidableEq, Repr

/-- What a relay frame carries (R306). -/
inductive RelayBody where
  | batch (l : List FrameEnt)
  | ack (ackedSeq : W32) (results : List Nat)
  | pause (holdMs : Nat)
  | resume
  deriving DecidableEq, Repr

/-- A relay frame (R306). `formOk`: the checks of R307; `key`: the key that made the tag (log entry 3); `toPair`: addressed to
the pair's shared MAC and relay address. A `receiver` of none is the head pair's service ID, which no unit holds as state. -/
structure RelayFrame where
  version : Nat
  ftype : Nat
  nEntries : Nat
  /-- Every reserved field of the header is zero. -/
  reservedZero : Bool
  /-- Entries, padding and tag exactly fill the datagram. -/
  fits : Bool
  sender : BitVec 12
  receiver : Option (BitVec 12)
  session : W32
  seq : W32
  claim : W32
  keyVer : Nat
  txTime : W64
  key : Key
  toPair : Bool
  body : RelayBody
  deriving DecidableEq, Repr

/-- Where a relay frame came from: an Ethernet port, or a radio neighbour, by its short address (R317). -/
inductive RelaySrc where
  | port (p : Bool)
  | child (rf : Bool) (short : Nat)
  deriving DecidableEq, Repr

/-- What an accepted Ethernet frame carries (R300, R302). -/
inductive EthPay where
  | macControl
  /-- An LLDPDU: the transmit wake time its EEE TLV asks for, if it has one, and its TTL in seconds. -/
  | lldp (eeeTlv : Option Nat) (ttl : Nat)
  /-- A PTP message; it acts by PTP_MESSAGE_RX. -/
  | ptp
  /-- ARP, neighbour discovery or echo request; to the unit's own addresses. -/
  | arp
  | nd
  | echo
  /-- A UDP datagram: its port, and whether its address and port are ones the unit accepts for it (R300). It acts by the row of
  what it carries (RELAY_FRAME_RX, MGMT_DATAGRAM_RX, PTP_MESSAGE_RX, HEARTBEAT_RX). -/
  | udp (port : Nat) (toPair toOwn fragment : Bool)
  | otherIp
  | other
  deriving DecidableEq, Repr

/-- A frame received by a port (R297). -/
structure EthFrame where
  /-- Blocks with PCS code errors in it. -/
  codeErrs : Nat
  length : Nat
  fcsOk : Bool
  dest : BitVec 48
  vlan : Option (BitVec 12)
  /-- The receive buffer runs out of space during the frame (R299). -/
  noRoom : Bool
  pay : EthPay
  deriving DecidableEq, Repr

/-- Modulation levels of R240, from the fastest down. -/
inductive PlcMod where
  | d8psk | dqpsk | dbpsk | robo | superRobo
  deriving DecidableEq, Repr

/-- What a UDP datagram on an access link carries (R231, R264). -/
inductive UdpPay where
  | dlms (a : Apdu)
  | camp (f : CampFrame)
  /-- A relay frame of a backhaul child (R317); it acts by RELAY_FRAME_RX. -/
  | relay
  | otherPort
  deriving DecidableEq, Repr

/-- What a PLC frame carries. -/
inductive PlcBody where
  | datagram (u : UdpPay)
  /-- A 6LoWPAN fragment of datagram `tag`; the last one stands for the whole. -/
  | fragment (tag : Nat) (first : Bool) (last : Option UdpPay)
  /-- MAC acknowledgement of the frame sent to this neighbour. -/
  | ack
  | tmapRequest
  | tmapResponse (groups : List Bool) (level : PlcMod)
  /-- LOADng: a route request, its reply with the cost so far, a route error, a link cost request and its reply. -/
  | rreq (orig dest seq cost hops : Nat)
  | rrep (orig dest cost : Nat)
  | rerr (dest : Nat)
  | rlcRequest
  | rlcReply (cost : Nat)
  | beaconRequest
  /-- The end of an EAP-PSK bootstrap: identity length, title, EUI-64, and the bootstrap key its pre-shared key came from. -/
  | bootstrap (idLen : Nat) (title eui : W64) (bootKey : Key)
  | otherAdapt
  deriving DecidableEq, Repr

/-- A PLC frame as received (R242, R246). Times in ns of the raw counter; `snr` per carrier in 0.25 dB. -/
structure PlcFrame where
  fchOk : Bool
  /-- Peak magnitude of each data symbol, in 0.5 dB. -/
  peaks : List Int
  fcsOk : Bool
  /-- MAC security (log entry 3): the key and the frame counter. -/
  key : Key
  counter : W32
  secOk : Bool
  unsupported : Bool
  /-- The neighbour that sent the frame, and, by the mesh header, its originator and final destination; 0 is the unit. -/
  src : Nat
  orig : Nat
  final : Nat
  unicast : Bool
  /-- The tone map request bit. -/
  ask : Bool
  /-- Start of the frame control header, and the time since the sender's last zero crossing. -/
  start : Nat
  tPeer : Nat
  snr : List Int
  rxTime : W64
  body : PlcBody
  deriving DecidableEq, Repr

/-- The full Timeslot IE (R269, R274), in µs. -/
structure TimeslotIe where
  id : Nat
  ccaOffset : Nat
  cca : Nat
  txOffset : Nat
  rxOffset : Nat
  rxWait : Nat
  txAckDelay : Nat
  rxAckDelay : Nat
  ackWait : Nat
  rxTx : Nat
  maxTx : Nat
  maxAck : Nat
  length : Nat
  deriving DecidableEq, Repr

/-- An enhanced beacon (R274): ASN and join metric, slotframe 0 with its links (slot, offset, shared), the hopping sequence written out, and
the timeslot template. -/
structure Beacon where
  asn : Nat
  metric : Nat
  frameLen : Nat
  links : List (Nat × Nat × Bool)
  hopping : List Nat
  timeslot : TimeslotIe
  deriving DecidableEq, Repr

/-- A frame the unit sends on an access link. -/
inductive AccessPay where
  /-- A GET in an association, which carries its dedicated key to the meter (R92): the attributes, and the clock with POLL_CLOCK. -/
  | get (title : W64) (attrs : List (BitVec 16 × BitVec 48 × Byte)) (withClock : Bool) (assoc : Nat) (ded : Key)
  | camp (f : CampFrame)
  | kick
  /-- Key-index switching: the new key and its index, under the old key. -/
  | newKey (idx : Nat) (key : Key)
  /-- A relay frame to a unit neighbour (R264). -/
  | relay (f : RelayFrame)
  /-- 6LoWPAN fragment `i` of `k` of a datagram that does not fit a frame (R264). -/
  | frag (tag i k : Nat) (pay : AccessPay)
  | tmap (groups : List Bool) (level : PlcMod)
  | rreq (orig dest seq cost hops : Nat)
  | rrep (orig dest cost : Nat)
  | rlcReply (cost : Nat)
  /-- A beacon of the PAN. -/
  | beacon (pan : Nat)
  /-- A datagram for another node, carried on (mesh addressing). -/
  | forward (orig final : Nat) (body : PlcBody)
  /-- End of a bootstrap: success with short address, radio uplink cells and the keys with their indices, in the EAP-PSK protected
  channel, or EAP failure. -/
  | joined (short : Nat) (cells : List Nat) (keys : List (Nat × Key))
  | eapFailure
  | keepAlive
  | eb (b : Beacon)
  deriving DecidableEq, Repr

/-- What a radio frame carries (R272 to R276). -/
inductive RfBody where
  | datagram (u : UdpPay)
  | fragment (tag : Nat) (first : Bool) (last : Option UdpPay)
  | ack
  | keepAlive
  /-- An enhanced beacon: PAN ID, ASN, join metric. -/
  | eb (pan asn metric : Nat)
  /-- The end of an LBP join: identity length, title, EUI-64, bootstrap key, sleepy, a unit neighbour, key to load. -/
  | join (idLen : Nat) (title eui : W64) (bootKey : Key) (sleepy unit : Bool)
  | otherAdapt
  deriving DecidableEq, Repr

/-- Security of a radio frame: none, or key index, key and frame counter. -/
structure RfSec where
  idx : Nat
  key : Key
  counter : W32
  deriving DecidableEq, Repr

/-- A radio frame as received (R275, R276). `offset` is o of R275 in µs. -/
structure RfFrame where
  fcsOk : Bool
  length : Nat
  unsupported : Bool
  /-- Destination PAN and address pass the filter. -/
  destOk : Bool
  sec : Option RfSec
  src : Nat
  /-- The lane that heard it, and the raw time of its end. -/
  lane : Nat
  endAt : Nat
  unicast : Bool
  /-- It requests an acknowledgement. -/
  ackReq : Bool
  offset : Int
  rxTime : W64
  body : RfBody
  deriving DecidableEq, Repr

/-- A network heard in a scan (R282), with the key LBP gives for it. -/
structure ScanHit where
  pan : Nat
  metric : Nat
  strength : Int
  asn : Nat
  key : Key
  keyIdx : Nat
  /-- Uplink cells that the coordinator assigns (R272). -/
  cells : List Nat
  deriving DecidableEq, Repr

/-- A command body: its opcode with the parameters of R407, R444 and R499. `reserved`: any other opcode. -/
inductive Cmd where
  | regRead (off count : Nat)
  | regWriteAu (off : Nat) (mask value : W32)
  | keyLoad (slot : Byte) (perms : BitVec 16) (key : Wrapped)
  | keyClear (slot : Byte)
  | keyRead (slot : Byte)
  | secZeroise (level : Nat)
  | tblRead (slot : Nat)
  | tblFind (title : W64)
  | tblDump (first count : Nat)
  | tblWrite (slot : Nat) (expect : W32) (mask : BitVec 256) (image : RecImg)
  | tblProvision (title : W64) (gen window : Byte) (ruleSet : BitVec 16) (service : BitVec 12) (ek ak : Wrapped)
  | tblKeyStage (slot : Nat) (gen : Byte) (ek ak : Wrapped)
  | tblRetire (slot : Nat)
  | tblSet (slot : Nat) (expect : W32) (mask : BitVec 256) (image : RecImg)
  | keySignerLoad (slot curve : Nat) (key : BitVec 768)
  | ruleLoad (image : List Byte)
  | ruleActivate (sets : List Nat)
  | ruleRemove (sets : List Nat)
  | ruleRead (set : Nat)
  | topoLoad (nodes : List Node)
  | topoActivate
  | topoRead (bank first count : Nat)
  | balNodeRead (node : Nat)
  | balMeterRead (slot : Nat)
  | balResetScores (kind : Nat) (ids : List Nat)
  | campCreate (m : Manifest)
  | campData (slot off : Nat) (data : List Byte)
  | campSeal (slot : Nat)
  | campAddMembers (slot : Nat) (slots : List Nat)
  | campRemoveMembers (slot : Nat) (slots : List Nat)
  | campStart (slot : Nat)
  | campPause (slot : Nat)
  | campCancel (slot : Nat)
  | campClose (slot : Nat)
  | campActivate (slot : Nat) (r : ActRec)
  | campRollback (slot : Nat) (r : ActRec)
  | campRead (slot : Nat)
  | campMemberRead (slot first count : Nat)
  | plcGmkRotate (inst : Nat)
  | plcKick (inst short : Nat)
  | rfKeyRotate (rf : Nat)
  | timStep (mode : Nat) (sec ns : Nat)
  | pairRead
  | pairSwap
  | pairClear
  | archInfo
  | archRead (first : W64) (count : Nat) (media : List Media)
  | archFindTime (t : W64)
  | archTrim (upto : W64)
  | archOvfRead (count : Nat)
  | archOvfRelease (upto : W64)
  | archHostWrite (sector : Nat) (data : List (List Byte))
  | archHostRead (sector count : Nat) (media : List Media)
  | archFormat (confirm : W32)
  | evtRead (from_ : W64) (count : Nat)
  | evtClear
  | monRead (first n : Nat)
  | monReset (lo hi : W32)
  | qRead (first n : Nat)
  | reserved (opcode : BitVec 16)
  deriving DecidableEq, Repr

/-- A command as a descriptor carries it (R395). `ok`: DTYPE matches and reserved fields are zero. -/
structure CmdDesc where
  ok : Bool
  fence : Bool
  rx : Option Nat
  hdr : Hdr
  cmd : Cmd
  deriving DecidableEq, Repr

/-- Where a memory error shows (R19): an island's own memory, central SRAM with the island that made the access, or DRAM; with
the offset of the 8-byte word, or its address divided by 8. -/
inductive EccAt where
  | own (isl off : Nat)
  | sram (off by_ : Nat)
  | dram (word : Nat)
  deriving DecidableEq, Repr

/-! ## Parts of the state -/

/-! ### Meter table (chapter 02) -/

structure IdxEntry where
  title : W64
  valid : Bool
  tomb : Bool
  slot : Nat
  deriving DecidableEq, Repr

/-- A table slot: its image, with the wrapped fields held apart as keys (log entry 3), and the instant of retirement. -/
structure Slot where
  img : RecImg
  keys : RecKeys
  retiredAt : Nat
  deriving DecidableEq, Repr

/-- A title of the unknown list (R60), with the raw time of its last notice. -/
structure Unknown where
  title : W64
  noticed : Option Nat
  deriving DecidableEq, Repr

/-- An outstanding fetch (R59): title, attempts made, and how the endpoint was heard (LINK byte, short address, EUI-64). -/
structure Fetch where
  title : W64
  attempts : Nat
  link : Byte
  short : BitVec 16
  eui : W64
  deriving DecidableEq, Repr

/-- A move or a provisioned take-over waiting for the journal (R61, R62): slot, old unit, new unit, batch number, and whether the
record goes out before the release. -/
structure Move where
  slot : Nat
  oldUnit : BitVec 12
  newUnit : BitVec 12
  batch : Nat
  recordFirst : Bool
  /-- The meter record goes to the new unit; where a JOIN_REPORT made the move, the unit has it. -/
  record : Bool
  deriving DecidableEq, Repr

/-- What the unit itself writes into a record outside a commit: SUSPICION and PHASE with PHASE_CONF, or a bit of CAMPAIGNS. -/
inductive OwnWrite where
  | balance (susp : Option Nat) (phase : Option (Nat × Nat))
  | campaign (bit : Nat) (on : Bool)
  deriving DecidableEq, Repr

/-- Such a write that waits behind readings of its meter (R78): slot and the title it is for. -/
structure LateWrite where
  slot : Nat
  title : W64
  what : OwnWrite
  deriving DecidableEq, Repr

structure Table where
  slots : Kv Slot
  index : Kv IdxEntry
  salt : BitVec 128
  /-- Most recently heard first, at most 4,096. -/
  unknown : List Unknown
  fetches : List Fetch
  moves : List Move
  /-- The unit's own record writes that wait for readings, oldest first. -/
  late : List LateWrite
  deriving DecidableEq, Repr

/-! ### Reading pipeline (chapter 03) -/

/-- How far a reading has come (R95). -/
inductive Stage where
  | dispatched | verified | committed
  deriving DecidableEq, Repr

/-- A reading in flight: it holds one token from dispatch to posting (R88). -/
structure Flight where
  id : Nat
  cluster : Nat
  bucket : Nat
  item : RItem
  slot : Option Nat
  stage : Stage
  outcome : Option Nat
  promoted : Bool
  sigOk : Bool
  suspended : Bool
  /-- The record was retired or released while the reading was in flight: the reading still commits (R78). -/
  kept : Bool
  /-- The session key that stage 3 took for it (R93). -/
  sesKey : Option Key
  /-- Reading records of the rows with their outcomes, once committed. -/
  records : List (Nat × List Byte)
  recSeq : W32
  /-- Posting sequence numbers of the postings, once committed (R362). -/
  posts : List Nat
  /-- The journal batch that holds the commit. -/
  batch : Nat
  deriving DecidableEq, Repr

/-- An association of the poller (R92): meter slot, dedicated key, poll entry, when it opened and when its GET left. -/
structure Session where
  slot : Nat
  key : Key
  entry : Nat
  openedAt : Nat
  reqTime : W64
  deriving DecidableEq, Repr

structure Pipe where
  /-- Intake queues 0 to 7, oldest packet first; their counts stand in the queue states 0 to 7. -/
  iq : Kv (List RItem)
  free : Nat
  returning : Nat
  flight : List Flight
  /-- Committed readings whose cluster failed: they hold no token, and CTL posts them (R26, R120). -/
  orphans : List Flight
  nextId : Nat
  /-- The dispatcher's next queue (R85). -/
  turn : Nat
  sessions : Kv Session
  deriving DecidableEq, Repr

/-! ### Rule programs (chapter 04) -/

/-- A rule program as a bank holds it (R131): the whole image and what the checks read from it. -/
structure RuleProg where
  setId : Nat
  override_ : Nat
  version : W32
  consts : List Int
  code : List W32
  image : List Byte
  wcc : Nat
  deriving DecidableEq, Repr

/-- Rows run, flagged, held and faulted since activation (R146). -/
structure RuleCounts where
  runs : W32
  flagged : W32
  held : W32
  faulted : W32
  deriving DecidableEq, Repr

/-- A rule set: its two banks, the counts of the active one, and those of the bank that an activation in progress brings in, run in
clusters its mark has passed. -/
structure RuleSet where
  act : Option RuleProg
  shd : Option RuleProg
  cnt : RuleCounts
  fresh : RuleCounts
  deriving DecidableEq, Repr

/-- An activation or removal in progress (R144): the sets, the first reading dispatched after the mark, the clusters that the mark
has still to pass and those it has passed. -/
structure RuleMark where
  sets : List Nat
  remove : Bool
  markId : Nat
  waiting : List Nat
  passed : List Nat
  hdr : Hdr
  deriving DecidableEq, Repr

structure RuleStore where
  sets : Kv RuleSet
  marks : List RuleMark
  deriving DecidableEq, Repr

/-! ### Postings (chapters 11 and 12) -/

/-- Body of a completion entry (R398). -/
inductive CqBody where
  | cmdDone (resultLen items : Nat) (result : List Byte)
  | rxData (bufId : W32) (len index : Nat) (first last truncated : Bool)
  | reading (recSeq : W32) (record : List Byte)
  | balNode (record : List Byte)
  | balNotice (record : List Byte)
  | balSummary (record : List Byte)
  | unknownMeter (title : W64) (service : BitVec 12) (time : W64)
  | pairNotice (kind : Nat) (prevClaim : W32) (splitStart splitEnd : W64)
  | event (record : List Byte)
  deriving DecidableEq, Repr

/-- A posting that the journal carries (R362): the bucket that maps a READING to its ring, and the body. -/
structure Posting where
  bucket : Nat
  body : CqBody
  deriving DecidableEq, Repr

/-! ### Energy balance (chapter 05) -/

/-- A sample point (R162): capture in ms, registers in mWh, ALIGN_ERR in ms, and how many runs had started when it committed. -/
structure SamplePt where
  cap : Int
  imp : Int
  exp : Int
  err : Nat
  runs : Nat
  deriving DecidableEq, Repr

/-- A method's latest result (R172 to R174): the phase or transformer it votes for, its confidence and when it was made. -/
structure Vote where
  pick : Nat
  conf : Nat
  at_ : Nat
  deriving DecidableEq, Repr

/-- Localisation accumulators (R170). -/
structure LocAcc where
  n : Int
  x : Int
  y : Int
  xx : Int
  yy : Int
  xy : Int
  deriving DecidableEq, Repr

/-- An event row for the indicators (R177): capture in ms, whether its code is a neutral or a tamper code, and how many runs had started
when it committed. -/
structure EventPt where
  cap : Int
  neutral : Bool
  tamper : Bool
  runs : Nat
  deriving DecidableEq, Repr

/-- The balance work area of a meter. -/
structure MeterWork where
  pts : List SamplePt
  score : Nat
  /-- Samples of the voltage window: meter voltage and the three reference values (R172). -/
  volts : List (Int × List Int)
  /-- Offsets counted in the zero-crossing window: phases 1 to 3 and ambiguous (R173). -/
  zc : List Nat
  vVote : Option Vote
  zVote : Option Vote
  fVote : Option Vote
  tVote : Option Vote
  /-- Method results made, and how many of them the last evaluation had before it (R175). -/
  results : Nat
  judged : Nat
  byp : LocAcc
  bypRuns : Nat
  /-- Last coverage: 0 none yet, 1 covered, 2 estimated, 3 excluded. -/
  cover : Nat
  /-- Event rows not yet balanced. -/
  events : List EventPt
  /-- Last TRANSFORMER_MISMATCH and TRANSFORMER_FOUND notice: transformer and time (R176). -/
  txMismatch : Option (Nat × Nat)
  txFound : Option (Nat × Nat)
  /-- Latest fingerprint: unit and instance, per-carrier values (R174). -/
  fp : Option (Nat × List Int)
  /-- TIME of the latest zero-crossing report (R310). -/
  zcAt : W64
  /-- Moves in the hour in progress (R64). -/
  moves : Nat
  deriving DecidableEq, Repr

/-- The work area of a node: accumulators, runs counted, branch score and last result record (R170, R179). -/
structure NodeWork where
  acc : LocAcc
  runs : Nat
  score : Nat
  result : List Byte
  deriving DecidableEq, Repr

/-- What a run changes in a meter's work area. -/
structure MeterDelta where
  slot : Nat
  /-- The title the run balanced. -/
  title : W64
  score : Nat
  byp : LocAcc
  bypRuns : Nat
  cover : Nat
  /-- Results judged, when the run evaluated the votes. -/
  judged : Option Nat
  txMismatch : Option (Nat × Nat)
  txFound : Option (Nat × Nat)
  /-- Record fields to write: SUSPICION, and PHASE with PHASE_CONF. -/
  susp : Option Nat
  phase : Option (Nat × Nat)
  deriving DecidableEq, Repr

/-- A minute record of a feeder head (R456, R458): service ID and head, start second, VALID and NET. -/
structure MeaMinute where
  head : Nat
  start : Int
  valid : Bool
  net : Int
  deriving DecidableEq, Repr

/-- A balance run (R158 to R161): interval start and length in local seconds, when its interval closed and when it started (raw ns),
the settings in force, the minute records of the interval as the run found them (R168), and once computed its changes and reports, the
reports with their posting numbers, and the journal batch that holds them. -/
structure BalRun where
  start : Int
  len : Nat
  closedAt : Nat
  startedAt : Nat
  index : Nat
  late : Bool
  treeChanged : Bool
  skipped : Bool
  cfg : List W32
  refs : List MeaMinute
  computed : Bool
  batch : Nat
  meters : List MeterDelta
  nodes : Kv NodeWork
  /-- Reports in the order of R182. -/
  reports : List (Nat × Posting)
  noticeCount : Nat
  excluded : Nat
  saturated : Nat
  deriving DecidableEq, Repr

/-- One second of a head's deviation series (R459). -/
structure MeaRms where
  head : Nat
  second : Int
  clean : Bool
  dev : List Int
  deriving DecidableEq, Repr

structure BalState where
  active : Kv Node
  shadow : Kv Node
  /-- A tree bank is active. -/
  haveTree : Bool
  /-- The shadow holds a copy of the active bank or later loads (R155). -/
  copied : Bool
  /-- TOPO_ACTIVATE that waits for the next run start. -/
  waiting : Option Hdr
  treeChanged : Bool
  meters : Kv MeterWork
  nodes : Kv NodeWork
  minutes : List MeaMinute
  rms : List MeaRms
  runSeq : W32
  /-- Runs started since reset. -/
  started : Nat
  /-- End, in ms, of the latest interval whose run has started (R165). -/
  startedEnd : Option Int
  run : Option BalRun
  /-- Intervals closed that wait for their run: start, time of the close (raw), the close met TIM in RUN. -/
  due : List (Int × Nat × Bool)
  /-- UTC second of the last close. -/
  lastClose : Option Int
  /-- TIM has been out of RUN since the last close (R161). -/
  timOut : Bool
  lateLast : Bool
  deriving DecidableEq, Repr

/-! ### Push campaigns (chapter 06) -/

/-- Campaign states (R200), with codes 0 to 7 in this order. -/
inductive CampSt where
  | draft | ready | running | paused | activating | activated | rollingBack | reverted
  deriving DecidableEq, Repr

structure Camp where
  st : CampSt
  manifest : Manifest
  /-- Image bytes written, by offset; a byte not written is zero (log entry 5). -/
  image : Kv Byte
  /-- The activation or rollback record in force. -/
  act : Option ActRec
  /-- Member records by head slot. -/
  members : Kv Member
  /-- Unit times of the last broadcast pass and repair round, by link 0 to 5. -/
  passAt : Kv Nat
  roundAt : Kv Nat
  /-- Members heard since the last pass or round, by head slot. -/
  heard : List Nat
  /-- The event of R221 has been recorded. -/
  rolledEvent : Bool
  deriving DecidableEq, Repr

/-- What a cursor sends next: a progress request, the manifest, the activation or rollback record, or a coded block. -/
inductive CampWhat where
  | request | manifest | record
  | block (gen : Nat) (seed : Option Nat)
  deriving DecidableEq, Repr

/-- A frame a cursor has still to send: to all, or to one member's title. -/
structure CampSend where
  to_ : Option W64
  what : CampWhat
  deriving DecidableEq, Repr

/-- The schedule of R219 on one link for one campaign: the next step of the first pass, or repair rounds. -/
structure Cursor where
  gen : Nat
  /-- Frames of generation `gen` sent in the first pass. -/
  sent : Nat
  rounds : Bool
  /-- The generation the repair round looks at next; none: no round runs. -/
  rgen : Option Nat
  /-- Frames of the round under way. -/
  todo : List CampSend
  /-- Members, by head slot, that have been sent the manifest by unicast. -/
  told : List Nat
  /-- The next block has been counted in CTL_CAMP_THROTTLED. -/
  deferred : Bool
  deriving DecidableEq, Repr

/-- A source segment of the FIELD store: pieces 0 to 7 of 1,024 bytes. -/
structure Segment where
  pieces : Kv (List Byte)
  deriving DecidableEq, Repr

structure CampState where
  /-- Campaigns by slot 0 to 63. -/
  camps : Kv Camp
  /-- Segments by slot × 65,536 + segment number. -/
  store : Kv Segment
  /-- Segment fetches outstanding, by the same key. -/
  fetching : List Nat
  /-- Cursors by link × 64 + slot. -/
  cursors : Kv Cursor
  /-- The slot that sent last on each link. -/
  turn : Kv Nat
  /-- Coded blocks formed in the second in progress, in half blocks of 256 bytes, and that second. -/
  formed : Nat
  formedSec : Nat
  /-- Campaign frames sent on each link, with the second they are counted in. -/
  frames : Kv (Nat × Nat)
  /-- The archive's checkpoint of all campaigns (R225). -/
  ckpt : Option (Kv Camp)
  deriving DecidableEq, Repr

/-! ### Power-line access (chapter 07) -/

/-- An endpoint of a PAN, under its short address (R234, R235, R248). -/
structure PlcEnd where
  title : W64
  eui : W64
  /-- Local clock when it was last heard. -/
  heard : Nat
  zc : Option ZcReport
  zcSent : Option Nat
  deriving DecidableEq, Repr

/-- A fingerprint's accumulators and frame count, and when it was last reported (R248, R249). -/
structure FpAcc where
  acc : List Nat
  frames : Nat
  sent : Option Nat
  deriving DecidableEq, Repr

/-- A neighbour (R238, R239): its tone map, when it was made, and the level a downgrade left in force (R240). Times are local clock. -/
structure Neigh where
  heard : Nat
  groups : List Bool
  level : PlcMod
  mapAt : Option Nat
  down : Option PlcMod
  /-- The tone map the unit computed from the neighbour's frames. -/
  rxGroups : List Bool
  rxLevel : PlcMod
  deriving DecidableEq, Repr

structure Route where
  next : Nat
  /-- Local clock when it was last used. -/
  used : Nat
  cost : Nat
  deriving DecidableEq, Repr

/-- A route discovery under way (R237): not yet sent while four requests have gone in this second. -/
structure Discovery where
  id : Nat
  dest : Nat
  sent : Bool
  deriving DecidableEq, Repr

/-- A unicast frame that waits for its acknowledgement, or for a route (R237, R240). -/
structure PlcTx where
  id : Nat
  dest : Nat
  /-- To the neighbour itself, not by a route. -/
  direct : Bool
  tries : Nat
  level : PlcMod
  /-- A tone map response has come since it was last sent (R252). -/
  fresh : Bool
  pay : AccessPay
  deriving DecidableEq, Repr

structure PlcState where
  ends : Kv PlcEnd
  neigh : Kv Neigh
  routes : Kv Route
  gmk : Option Key
  gmkIdx : Nat
  /-- The key before the last rotation, still held while key indices switch. -/
  gmkOld : Option Key
  /-- Highest frame counter accepted from each neighbour, by address. -/
  rxCtr : Kv W32
  outCtr : Nat
  outEnd : Nat
  awaiting : List PlcTx
  queued : List PlcTx
  nextTx : Nat
  /-- Reassembly buffers: sender and tag. -/
  reasm : List (Nat × Nat)
  /-- Refusals since the last join-limit event (R236). -/
  refused : Nat
  /-- Route requests sent in the second in progress, and that second. -/
  rreqs : Nat
  rreqSec : Nat
  discover : List Discovery
  /-- Route requests seen, by originator: number and least cost. -/
  seen : Kv (Nat × Nat)
  /-- Neighbours on the blacklist, with the local clock when they came on it. -/
  black : Kv Nat
  /-- Fingerprint accumulators by title (R248). -/
  fps : Kv FpAcc
  /-- BAND as the instance started with it: FCC (R232). -/
  fcc : Bool
  /-- Running estimate of the noise floor, in 0.5 dB (R242). -/
  noise : Int
  ldPin : Bool
  /-- The 1 s waits after a driver fault (R233) and after a module came back (R464). -/
  ldWait : Bool
  modWait : Bool
  /-- Raw times at which they began. -/
  ldAt : Nat
  modAt : Nat
  zcLost : Bool
  /-- Rising edges of PLCn_ZC, the newest first. -/
  zcEdges : List Nat
  /-- Measured period in ns and consecutive periods in range. -/
  period : Nat
  inRange : Nat
  deriving DecidableEq, Repr

/-! ### Radio (chapter 08) -/

/-- State of a neighbour (R280). -/
inductive NbSt where
  | sync | desync | lost
  deriving DecidableEq, Repr

/-- A neighbour under its short address: an endpoint, or a unit (R272, R275, R278, R280). -/
structure RfEnd where
  title : W64
  eui : W64
  unit : Bool
  sleepy : Bool
  heard : Nat
  /-- Uplink cell numbers. -/
  cells : List Nat
  /-- Highest frame counter accepted, by key index. -/
  ctrs : Kv W32
  /-- D in 0.01 ppm, and when the neighbour was last corrected (local clock, ns). -/
  drift : Option Int
  corrAt : Nat
  st : NbSt
  failed : Nat
  kaTries : Nat
  /-- An acknowledgement with Frame Pending went out: its downlink slot may be used (R273). -/
  polled : Bool
  deriving DecidableEq, Repr

/-- A frame that waits for a cell; `dest` none is a broadcast. -/
structure RfTx where
  id : Nat
  dest : Option Nat
  tries : Nat
  /-- Raw time when it was queued. -/
  since : Nat
  /-- TSCH CSMA-CA (R262): backoff exponent, and shared cells still to let pass. -/
  be : Nat
  wait : Nat
  pay : AccessPay
  deriving DecidableEq, Repr

/-- An acknowledgement due (R266, R275): neighbour, lane, Time Correction where the unit is the neighbour's time source, Frame Pending, and
the raw time of the end of the frame it answers. -/
structure RfAck where
  src : Nat
  lane : Nat
  corr : Option Int
  pend : Bool
  at_ : Nat
  deriving DecidableEq, Repr

structure RfState where
  /-- Raw time before which a module put back keeps it from transmitting (R464). -/
  modUntil : Nat
  ends : Kv RfEnd
  key : Option Key
  keyIdx : Nat
  keyOld : Option Key
  keyOldIdx : Nat
  outCtr : Nat
  outEnd : Nat
  queue : List RfTx
  nextTx : Nat
  /-- The unicast sent in the slot in progress, not acknowledged, and whether in a shared cell. -/
  inAir : Option (Nat × Bool)
  /-- The lane of the transmit cell of the slot in progress; none in a receiving slot (R266). -/
  sending : Option Nat
  /-- Acknowledgements due. -/
  acks : List RfAck
  /-- RFx_LNA_EN in the slot in progress (R265). -/
  lna : Bool
  /-- Slot length in ms, fixed at start-up (R270). -/
  slotMs : Nat
  /-- A child's uplink cells at its time parent. -/
  myCells : List Nat
  /-- Neighbours whose capped cell runs in the slot in progress and has heard nothing. -/
  listening : List Nat
  reasm : List (Nat × Nat)
  /-- ASN of the slot in progress; a child's is counted from its time parent. -/
  asn : Nat
  sync : Bool
  misses : Nat
  /-- RF_STATUS.PARENT. -/
  parent : Nat
  parentPan : Nat
  parentMetric : Nat
  secondary : Option Nat
  /-- Raw time of the secondary's last EB. -/
  secHeard : Option Nat
  /-- An EB cell of the time parent, or of the active, is running and no EB has come. -/
  ebDue : Bool
  deriving DecidableEq, Repr

/-! ### Ethernet and relay (chapter 09) -/

/-- A batch not acknowledged (R313): the SEQs it went out under, its port and how often it was resent. -/
structure Batch where
  id : Nat
  to_ : BitVec 12
  port : Bool
  seqs : List W32
  resends : Nat
  ents : List FrameEnt
  /-- Raw time at which it was last sent. -/
  sentAt : Nat
  /-- The entry whose pieces the batch belongs to (R312). -/
  pieceOf : Option Entry
  deriving DecidableEq, Repr

/-- What a receiver keeps for a sender (R309, R312): `partial_` is the SEQ of the last piece of each path (0, 1; 2 a child's). -/
structure RxSession where
  session : W32
  high : W32
  map : W64
  claim : W32
  partial_ : Kv W32
  port : Bool
  /-- Raw time of the last batch delivered on each port. -/
  last : Kv Nat
  deriving DecidableEq, Repr

/-- A batch accepted and not yet acknowledged (R313); entry k has reference `base` + k. -/
structure RxBatch where
  sender : BitVec 12
  src : RelaySrc
  seq : W32
  base : Nat
  results : List (Option Nat)
  deriving DecidableEq, Repr

structure RelayState where
  session : W32
  /-- A new session is to be drawn before the next frame: at the first frame of a start, or when a SEQ has run out (R306, R308). -/
  needSession : Bool
  /-- Next SEQ to each receiver. -/
  nextSeq : Kv Nat
  /-- Entries not yet in a batch with the raw times they came at, by receiver × 2 + port. -/
  open_ : Kv (List (Nat × Entry))
  /-- Pieces sent of the first open entry, by receiver × 2 + port (R312). -/
  pieces : Kv Nat
  unacked : List Batch
  nextBatch : Nat
  /-- Consecutive resends outstanding, by receiver × 2 + port (R315). -/
  fails : Kv Nat
  /-- Ports on which the head has paused this unit, and the raw times at which HOLD_MS is over (R314). -/
  paused : Kv Nat
  rx : Kv RxSession
  accepted : List RxBatch
  nextRef : Nat
  /-- Senders the head has paused: port and sender. -/
  pausedTo : List (Bool × BitVec 12)
  spooling : Bool
  spool : List Entry
  /-- Backhaul children (R317): service IDs with the transceiver they were heard on and their short address there. -/
  children : List (BitVec 12 × Bool × Nat)
  /-- A standby's copy of the active's hold area. -/
  copy : List (BitVec 12 × Entry)
  deriving DecidableEq, Repr

/-! ### Host rings, commands and keys (chapter 12) -/

/-- A completion entry: header (R397) and body. `back`: the BUFFER ring whose oldest buffer passes back when the entry is written
(R392); `done`: the COMMAND ring whose command ends with it. -/
structure Cqe where
  status : Byte
  sq : Byte
  takeover : Bool
  claim : W32
  seq : W64
  body : CqBody
  back : Option Nat
  done : Option Nat
  deriving DecidableEq, Repr

/-- A submission ring's own state; its set-up stands in the registers (R387 to R394). -/
structure SqState where
  /-- SQ_CONS: one past the last entry returned to the host. -/
  cons : BitVec 16
  /-- The doorbell word as last read. -/
  prod : BitVec 16
  /-- BUFFER ring: buffers fetched and free, in ring order. -/
  bufs : List BufDesc
  /-- Commands started and not completed. -/
  inFlight : Nat
  /-- The ring runs: enabled, and not stopped by a ring fault (R389, R393). -/
  run : Bool
  deriving DecidableEq, Repr

/-- A completion ring's own state. -/
structure CqState where
  tail : BitVec 16
  head : BitVec 16
  /-- Entries written since the ring's last message (R404). -/
  sinceMsg : Nat
  /-- Raw time of the first of them. -/
  firstAt : Nat
  /-- Entries that wait for room, oldest first (R416). -/
  waiting : List Cqe
  deriving DecidableEq, Repr

/-- A result frame on a BUFFER ring (R401, R402), waiting or in progress. -/
structure HeldFrame where
  /-- Bytes still to write. -/
  rest : List Byte
  /-- The last buffer written, whose completion is held back: buffer, bytes, index. -/
  last : Option (BufDesc × Nat × Nat)
  written : Nat
  itemLen : List Nat
  hdr : Hdr
  opcode : Nat
  status : Byte
  result : List Byte
  /-- The frame waits for a buffer, since this raw time: HOLD_US runs. -/
  holding : Option Nat
  deriving DecidableEq, Repr

structure HostState where
  sq : Kv SqState
  cq : Kv CqState
  /-- Frames of each BUFFER ring, the one being written first. -/
  frames : Kv (List HeldFrame)
  /-- Commands fetched that wait for a FENCE (R396), in ring order. -/
  fenced : Kv (List (Bool × Hdr × Cmd))
  /-- PCI_STATUS.POLL_FAST, and the raw time of the last change seen in the doorbell block (R391). -/
  pollFast : Bool
  changedAt : Nat
  /-- The doorbell block as last read (R391). -/
  db : List (BitVec 16)
  link : Bool
  bme : Bool
  /-- Configuration requests are answered (R509). -/
  crsDone : Bool
  width : Nat
  speed : Nat
  /-- MSI-X: masked vectors and pending bits (R404). -/
  masked : BitVec 64
  msixPending : BitVec 64
  deriving DecidableEq, Repr

/-- An authority key slot (R408). -/
structure AuthSlot where
  key : Key
  perms : BitVec 16
  deriving DecidableEq, Repr

/-- A signer key of the head's store (R94) or a campaign signer (R222): curve 1 P-256, 2 P-384. -/
structure PubKey where
  curve : Nat
  key : BitVec 768
  deriving DecidableEq, Repr

structure SecState where
  slots : Kv AuthSlot
  /-- Last accepted counter of each slot, as the boot flash counter area holds it (R411). -/
  counters : Kv W64
  /-- TKEK versions, relay key versions (R68, R308). -/
  tkek : Kv Kek
  relayKeys : Kv Key
  pairKey : Option Key
  bootKey : Option Key
  campSigners : Kv PubKey
  signers : Kv PubKey
  zeroised : Bool
  deriving DecidableEq, Repr

/-! ### Pair (chapter 11) -/

/-- Why a swap runs and how far it is (R371). -/
structure Swap where
  /-- Started by the scheduled timer, by a fail-over request, by PAIR_SWAP or as the swap back of a failed proof. -/
  scheduled : Bool
  /-- Host commands that wait unanswered. -/
  queued : List (Hdr × Cmd)
  /-- Raw time at which it began. -/
  at_ : Nat
  deriving DecidableEq, Repr

/-- What a unit without the grant has heard on each path since ACT_IN went quiet, and the path is not lost (R366): does the last
heartbeat report a state with the grant, and does it report HANDOFF? -/
structure Heard where
  p1 : Option (Bool × Bool)
  p2 : Option (Bool × Bool)
  deriving DecidableEq, Repr

/-- One heartbeat path as a receiver keeps it (R364, R365), with the sender's own numbering. -/
structure HbPath where
  lost : Bool
  last : Option Heartbeat
  /-- Raw time of arrival, ns. -/
  at_ : Nat
  /-- Local time of arrival, for ECHO_RX. -/
  rx : Nat
  ownSeq : W32
  /-- Where HB_SEQ started under the epoch in force. -/
  ownStart : W32
  /-- Raw time at which the unit last sent on the path. -/
  sentAt : Nat
  deriving DecidableEq, Repr

structure PairState where
  st : PairSt
  /-- Raw time at which `st` was entered. -/
  stAt : Nat
  /-- The state held before ACT_OUT last started (R354). -/
  before : PairSt
  /-- ACT_OUT toggles (R351). -/
  actOut : Bool
  /-- Raw time at which ACT_OUT last started (R354). -/
  startAt : Option Nat
  actInLive : Bool
  /-- Raw time of the last edge of ACT_IN (R351). -/
  edgeAt : Nat
  heard : Heard
  prlSignal : Bool
  hb1 : HbPath
  hb2 : HbPath
  epoch : W32
  claim : W32
  claimFlash : W32
  partnerClaim : W32
  /-- PREV_CLAIM of the pair notices: the largest claim known before the grant was last taken. -/
  prevClaim : W32
  /-- The claim in force has not reached the boot flash: relay frames, pair notices and postings wait (R358). -/
  flashPending : Bool
  interlockFault : Bool
  proofFailed : Bool
  proving : Bool
  notReady : Bool
  fault : Nat
  copyPct : Nat
  /-- Copy under way: the next item of R363 (1 to 5), for the joiner and for the giver. -/
  copyItem : Nat
  copyGiving : Bool
  lastBatchAt : Nat
  /-- SEEKING followed the loss of the PRL path: the unit rejoins when both paths are back (R375). -/
  parted : Bool
  swap : Option Swap
  /-- Time since the last good swap or the first ACTIVE, in ns of the raw counter; none before the pair first reached ACTIVE (R372). -/
  swapTimer : Option Nat
  swapRetryEvent : Bool
  /-- Raw time of the last attempt at a scheduled swap (R372). -/
  swapTriedAt : Option Nat
  /-- ACCEPTED readings committed within the proof, and the raw time of its start (R373). -/
  proofReadings : Nat
  proofSince : Nat
  /-- Local time at which the partner was last lost on every path. -/
  lostAt : W64
  /-- A SPLIT notice that waits for the grant: claim, start and end of the split (R376). -/
  splitNote : Option (W32 × W64 × W64)
  /-- The partner took the grant by an orderly swap and holds this unit's state: it joins without a copy (R371). -/
  inStep : Bool
  /-- The unit has handed the grant over, and its heartbeats say HANDOFF until the partner's ACT_OUT is heard (R371). -/
  handoff : Bool
  deriving DecidableEq, Repr


/-- A journal entry (R359): whole new values, so that applying one twice changes nothing. -/
inductive JEntry where
  /-- A record image, with its index entry where that changed (R71). -/
  | slot (n : Nat) (v : Slot) (i : Option (Nat × IdxEntry))
  /-- An index position, for the copy (R73). -/
  | index (p : Nat) (e : IdxEntry)
  | ruleSet (n : Nat) (v : RuleSet)
  | keySlot (n : Nat) (v : Option AuthSlot)
  | counter (n : Nat) (v : W64)
  | signer (n : Nat) (v : Option PubKey)
  | topoLoad (l : List Node)
  | topoWait (h : Hdr)
  | topoSwitch
  | meterWork (n : Nat) (w : MeterWork)
  | balRun (r : BalRun)
  | balApply
  | scores (kind : Nat) (ids : List Nat)
  | camp (n : Nat) (c : Option Camp)
  | cursor (k : Nat) (v : Option Cursor)
  | plc (n : Nat) (st : PlcState)
  | rf (n : Nat) (st : RfState)
  | hold (to_ : BitVec 12) (e : Entry)
  | unhold (to_ : BitVec 12) (es : List Entry)
  | session (from_ : BitVec 12) (v : RxSession)
  | spool (l : List Entry)
  | append (n : Nat) (rec : List Byte)
  | trim (upto : Nat)
  | posting (n : Nat) (p : Posting)
  | swapTimer (h : Option Nat)
  /-- The topology banks and balance work areas whole, for the copy (R363). -/
  | balance (v : BalState)
  | minute (m : MeaMinute)
  | rmsSecond (m : MeaRms)
  /-- An AU write to a balance setting (R188's coincidence table). -/
  | balReg (off : Nat) (v : W32)
  deriving DecidableEq, Repr

/-- Host and store status codes (R400), in code order from 0x00; `later`: the command has not completed yet. -/
inductive Status where
  | ok | truncated | media | notActive | bad | stale | busy | later
  deriving DecidableEq, Repr

/-- What a command answers: status, inline RESULT and the items of its frame (R398, R574). -/
structure Reply where
  status : Status
  result : List Byte
  items : List (List Byte)
  deriving DecidableEq, Repr

/-- A reply that waits for its journal batch. -/
structure HeldReply where
  batch : Nat
  hdr : Hdr
  opcode : Nat
  reply : Reply
  deriving DecidableEq, Repr

/-- The journal (R360 to R362): at the active the open batch, the batches sent and not acknowledged (number, resent) and the
posted mark; at the standby the next number to apply, the batches held out of order with their marks, and the postings above
the mark. -/
structure Journal where
  open_ : List JEntry
  nextNum : Nat
  unacked : List (Nat × Bool × List JEntry)
  /-- Raw times at which the unacknowledged batches were last sent. -/
  sentAt : Kv Nat
  nextApply : Nat
  held : Kv (Nat × List JEntry)
  /-- Every posting up to this number is posted or skipped. -/
  mark : Nat
  nextPosting : Nat
  /-- Postings above the mark that are posted. -/
  done : List Nat
  /-- The postings above the mark that are not posted yet: this unit's own, and a standby's copy of them. -/
  posts : Kv Posting
  /-- Postings that wait for the claim to reach the boot flash; true: re-posted with TAKEOVER (R358, R362). -/
  delayed : List (Nat × Bool × Posting)
  /-- Replies that wait for their batch (R71). -/
  replies : List HeldReply
  /-- Record images that were not later than the one held (R72). -/
  dups : W32
  deriving DecidableEq, Repr

/-! ### What the unit sends -/

/-- Everything the unit emits, kept in the state as a log, newest first. -/
inductive Out where
  | relay (port : Bool) (f : RelayFrame)
  /-- A PLC frame: neighbour and final destination, level, frame counter, tone map request, attenuation, carriers driven. -/
  | plc (n : Nat) (hop dest : Option Nat) (level : PlcMod) (ctr : Nat) (ask : Bool) (atten : Nat) (carriers : List Nat) (pay : AccessPay)
  | plcAck (n src : Nat)
  /-- A radio frame: channel, frame counter, dB below +14 dBm, RFx_PA_EN. -/
  | rf (n : Nat) (dest : Option Nat) (chan ctr atten : Nat) (pa : Bool) (pay : AccessPay)
  /-- Acknowledgements in one transmission (R266). -/
  | rfAck (n : Nat) (acks : List RfAck) (atten : Nat) (pa : Bool)
  /-- A response datagram (R413): port, opcode, STATUS, index and LAST, TAG, CLAIM, slot and counter of the CMAC, DATA. -/
  | response (port : Bool) (opcode status frag : Nat) (last : Bool) (tag claim : W32) (auth : Option (Nat × W64)) (data : List Byte)
  /-- A completion entry written to a ring, at an index, with its phase (R397). -/
  | completion (ring index : Nat) (phase : Bool) (e : Cqe)
  | buffer (bufId : W32) (data : List Byte)
  | sqCons (n : Nat) (v : BitVec 16)
  | cqTail (n : Nat) (v : BitVec 16)
  | msix (vector : Nat)
  | configRetry
  /-- A configuration request is answered: vendor, device, subsystem vendor and subsystem ID, class code (R384). -/
  | configReply (vendor device subVendor subId classCode : Nat)
  | heartbeat (path : Nat) (hb : Heartbeat)
  | journalBatch (num mark : Nat) (ents : List JEntry)
  | journalAck (num : Nat)
  | swapPrep
  | copyItem (item : Nat) (ents : List JEntry)
  /-- An LLDPDU (R302): port ID, Chassis ID, the EEE TLV's receive wake time and echo, TTL. -/
  | lldp (port : Bool) (chassis : BitVec 48) (eee : Option (Nat × Nat)) (ttl : Nat)
  /-- A PTP message: port, kind, one-step, and for a Sync its time with the egress correction, in tenths of ns. -/
  | ptp (port : Bool) (kind : PtpSend) (oneStep : Bool) (t : Int)
  /-- An Announce of this unit: grandmaster behind it or its own data set, clockClass, UTC offset. -/
  | announce (port : Bool) (gm : Option GmData) (prio1 prio2 clockClass accuracy : Nat) (utc : Int)
  | pdelayResp (port : Bool)
  /-- Gratuitous ARP and unsolicited neighbour advertisement for the relay addresses (R369). -/
  | advertise (port : Bool)
  /-- Answers to ARP, neighbour discovery and echo requests (R300). -/
  | netReply (port : Bool)
  /-- The time word of R340: local time in 2^-16 ns, rate in ppb, to the islands in RUN. -/
  | timeWord (clk : Nat) (rate : Int)
  /-- The word a register read by itself returns to its path: offset and value. -/
  | regRead (p : Path) (off : Nat) (v : W32)
  /-- A frame on a port's wire, with its VLAN tag (R296). -/
  | ethFrame (port : Bool) (vlan : Option (BitVec 12)) (o : Out)
  deriving DecidableEq, Repr

/-! ### Ethernet ports (chapter 09) -/

/-- A frame in a port's transmit buffer: priority 1 to 5 (R301), bytes, and address kind 0 unicast, 1 multicast, 2 broadcast. -/
structure EthTx where
  prio : Nat
  bytes : Nat
  kind : Nat
  out : Out
  /-- Raw time at which it was given to the port. -/
  since : Nat
  deriving DecidableEq, Repr

structure EthState where
  /-- Mode in force since the island started (R294). -/
  mode : Nat
  link : Bool
  /-- ETH_STATUS.SPEED. -/
  speed : Nat
  eee : Bool
  lpi : Bool
  /-- The partner's EEE TLV: the transmit wake time it asks for, µs. -/
  tlv : Option Nat
  /-- Raw times: the TTL of that TLV ends, the last LLDPDU left for the buffer, the buffer became empty, LPI was entered, and the
  transmit wake time is over (R302, R303). -/
  tlvUntil : Nat
  lldpAt : Nat
  idleAt : Nat
  lpiAt : Nat
  wakeAt : Nat
  tx : List EthTx
  /-- Frames that wait for buffer space. -/
  wait : List EthTx
  deriving DecidableEq, Repr


/-! ### Archive store (chapter 13) -/

/-- Block states (R436). -/
inductive BlkSt where
  | free | open_ | data | stale | spare | metaBlk | retired | bad
  deriving DecidableEq, Repr

/-- Store states (FLS_STATUS.STATE), with their codes 0 to 5 in this order. -/
inductive ArchSt where
  | off | mounting | ready | keepFull | readOnly | failed
  deriving DecidableEq, Repr

/-- Data of one sector. -/
inductive SecData where
  /-- The block write record, in the first sector of a block (R423, R431). -/
  | writeRec
  /-- Reading records with their ARCHIVE_SEQ; padding records are not listed (R427). -/
  | readings (l : List (Nat × List Byte))
  /-- A HOST sector. -/
  | host (b : List Byte)
  | padding
  deriving DecidableEq, Repr

/-- A sector with its header (R423); `mapped`: the map names this copy. -/
structure Sector where
  zone : Nat
  lsn : Nat
  pseq : Nat
  mapped : Bool
  data : SecData
  deriving DecidableEq, Repr

/-- The block write record (R431): thermal age, local seconds, temperature in 0.01 °C and PE count. -/
structure WriteRec where
  age : Nat
  sec : Nat
  temp : Int
  pe : Nat
  deriving DecidableEq, Repr

structure Block where
  st : BlkSt
  zone : Nat
  pe : Nat
  reads : Nat
  hint : Option Nat
  wr : WriteRec
  /-- Pages programmed, in page order. -/
  pages : List (List Sector)
  deriving DecidableEq, Repr

/-- The layout a format stored in the META zone (R424, R449): zone sizes in blocks and the settings it used. -/
structure Layout where
  spares : Nat
  readings : Nat
  campaign : Nat
  spool : Nat
  host : Nat
  gcReserve : Nat
  sparePct : Nat
  hostGib : Nat
  spoolGib : Nat
  deriving DecidableEq, Repr

structure Archive where
  st : ArchSt
  /-- The store was READ_ONLY when FLS or the unit last stopped; only a format ends that (R440). -/
  ro : Bool
  /-- The unit has reset since the last mount: what was not durable then is gone (R429). -/
  cut : Bool
  /-- Targets in use, all of one geometry (R421), and the profile that matches them (R422). -/
  targets : List NandTarget
  prof : Option NandProfile
  layout : Option Layout
  blocks : Kv Block
  pseq : Nat
  /-- Map-journal records since the last checkpoint, the checkpoint area in use and the thermal age it holds (R437, R430). -/
  jrecs : Nat
  area : Bool
  ageCkpt : Nat
  age : Nat
  next : Nat
  /-- End of the last number reservation written (R427). -/
  resEnd : Nat
  durable : Nat
  /-- Log sector number of the next READINGS sector (R423). -/
  logSec : Nat
  /-- Raw times: the sector now being filled took its first record, and the thermal age was last raised (R427, R430). -/
  fillAt : Nat
  ageAt : Nat
  /-- The write queue: records with their numbers, or padding. -/
  wq : List (Option (Nat × List Byte))
  /-- Pages programmed and not yet durable: block, page, one past the last number in it (R428). -/
  notDurable : List (Nat × Nat × Nat)
  /-- The open READINGS block of each target, and the target that takes the next page. -/
  openR : Kv Nat
  turn : Nat
  ovf : List (Nat × List Byte)
  /-- KEEP_FULL has ended and the ring waits to be written back (R441). -/
  writeback : Bool
  ovfLostSince : Nat
  /-- Missing ranges, both ends inclusive, oldest first (R444). -/
  missing : List (Nat × Nat)
  /-- Raw time of the last uncorrectable read (R443). -/
  uncorrAt : Option Nat
  formatting : Option Hdr
  /-- Staging window in central SRAM, in RECOVERY (R522). -/
  staging : Kv (List Byte)
  deriving DecidableEq, Repr

/-! ### Measurement and modules (chapter 14) -/

/-- A sag, swell or interruption in progress on a phase: kind 3, 4 or 5, raw time of its start, extreme value in 0.01 V. -/
structure PqCond where
  kind : Nat
  start : Nat
  extreme : Nat
  deriving DecidableEq, Repr

structure MeaHead where
  /-- The sensor record in use, and the one that applies from the next second (R467). -/
  rec_ : Option (List Byte)
  next : Option (List Byte)
  /-- Import and export accumulators of L1 to L3 in 2^-16 mWh, 96 bits (R455). -/
  imp : List Nat
  exp : List Nat
  missing : Nat
  /-- QFLAGS of the minute in progress but for VALID. -/
  flags : Byte
  /-- Start of the minute in progress, whole seconds of local time. -/
  start : Nat
  /-- The PQ block of the last second (R469). -/
  pq : List W32
  cond : Kv PqCond
  /-- Phases that have been interrupted and not yet returned to the sag threshold. -/
  noSag : List Nat
  deriving DecidableEq, Repr

/-- A module slot (R461 to R465): code, presence input, debounce, record accepted, SERIAL known since the last start. -/
structure ModSlot where
  code : Nat
  presHigh : Bool
  debounce : Bool
  /-- Raw time at which the presence input fell (R464). -/
  lowAt : Nat
  rec_ : List Byte
  serial : Option W64
  deriving DecidableEq, Repr

structure MeaState where
  heads : Kv MeaHead
  slots : Kv ModSlot
  /-- CRCs kept in the module words of the BKP retention area; 0: none known (R465). -/
  kept : Kv W32
  deriving DecidableEq, Repr

/-! ### Queues, monitors, events (chapter 15) -/

/-- A queue (R471 to R480): its fill and lost counts. Every packet is written and read whole within one step, so the two views
equal the fill (log entry 32); the items of the intake queues stand in the pipeline state. -/
structure QState where
  items : Nat
  packets : Nat
  /-- An idle item is stored (R477). -/
  idle : Bool
  af : Bool
  lostItems : W32
  lostPkts : W32
  flushes : W32
  deriving DecidableEq, Repr

/-- Results of a monitor channel (R484). -/
structure MonState where
  min : Int
  max : Int
  last : Int
  count : W32
  bins : List W32
  armed : Bool
  /-- Raw counter at the last sample (R487, PERIOD). -/
  at_ : Option Nat
  deriving DecidableEq, Repr

/-- An event raised and not yet accepted by EVT (R491). -/
structure Raised where
  isl : Nat
  code : Nat
  critical : Bool
  data : W32
  conts : List (List Byte)
  deriving DecidableEq, Repr

/-- A record of the recorder (R488, R489): a head record, or continuation `part` of the event before it. -/
structure EvRec where
  seq : W64
  part : Nat
  time : W64
  rawTime : Bool
  restarted : Bool
  critical : Bool
  opSeconds : W32
  cycles : BitVec 16
  code : BitVec 16
  parts : Nat
  suppressed : BitVec 16
  data : W32
  contData : List Byte
  deriving DecidableEq, Repr

structure EvtState where
  raised : List Raised
  /-- On-chip ring, oldest first, at most 512 records, survival class P (R493). -/
  ring : List EvRec
  /-- EVENTS zone: the half not in use and the half in use, each oldest first. -/
  zoneOld : List EvRec
  zoneCur : List EvRec
  /-- First SEQ not yet written to the zone. -/
  archNext : W64
  /-- Last SEQ assigned, as BKP keeps it; none when no value is held (R492). -/
  lastSeq : Option W64
  /-- OLDEST after a clear (R497): nothing below it is returned. -/
  floor : W64
  /-- SEQ starts at 0 and the next record carries SEQ_RESTARTED. -/
  restart : Bool
  buckets : Kv Nat
  suppressed : Kv Nat
  /-- Non-critical records of the current second (R494). -/
  secRecords : Nat
  /-- The second of the unit's time for which CODE_RATE tokens were last added (R494). -/
  refillAt : Nat
  /-- EVT_CLEAR commands that wait for the EVT_READs in progress (R497). -/
  clears : List Hdr
  deriving DecidableEq, Repr

/-! ### Islands, start-up, power (chapters 01 and 16) -/

/-- State of an island (R20). -/
inductive IslState where
  | off | reset | pending | run | gated | trimInvalid | failed
  deriving DecidableEq, Repr

structure Island where
  st : IslState
  failCode : Byte
  /-- The clock has lost lock and the 1 ms of R21 runs. -/
  lockLost : Bool
  deriving DecidableEq, Repr

/-- Start-up modes (R513). -/
inductive Mode where
  | normal | recovery | test | provision
  deriving DecidableEq, Repr

/-- Power states and targets (R525). -/
inductive Power where
  | run | doze | hold | backup
  deriving DecidableEq, Repr

/-- How far the start-up sequence has run (R508). -/
inductive Phase where
  /-- In reset: RST_N is driven low. -/
  | inReset
  /-- After a guard code; this many reads have been made (R512). -/
  | strapWait (reads : Nat)
  /-- CTL_TRIM: neither trim copy checks (R515). -/
  | trimHold
  | started
  deriving DecidableEq, Repr

/-- A boot control entry in force (R517): slots are false A, true B. -/
structure BootCtl where
  seq : W32
  image : Bool
  bundle : Bool
  /-- Trial image, trial bundle, TRIAL_STARTED. -/
  trial : Option (Bool × Bool × Bool)
  deriving DecidableEq, Repr

structure Boot where
  phase : Phase
  env : Option StartEnv
  mode : Mode
  strapCode : BitVec 6
  strapValid : Bool
  strapChoice : BitVec 4
  strapRole : BitVec 2
  bundleRole : BitVec 2
  role : BitVec 2
  /-- NEXT_MODE as it stood when the reset began applies to this start only (R533). -/
  imageA : Option Image
  imageB : Option Image
  bundleA : Option Bundle
  bundleB : Option Bundle
  ctl : BootCtl
  /-- No image could be started: the built-in loader runs (R517). -/
  loader : Bool
  runImage : Bool
  runBundle : Bool
  fallback : Bool
  trialRun : Bool
  jver : Nat
  jverMin : Nat
  /-- The bundle in force. -/
  bundle : Option Bundle
  /-- Install under way: object and slot (R522); and the last result code. -/
  install : Option (Staged × Bool)
  installCode : Nat
  otp : Kv W32
  otpFail : Bool
  /-- CTL's checked copies of the trim sets (R515): islands whose set checks. -/
  trims : List Nat
  /-- Reason per island: 1 CRC failed, 2 missing, 3 out of order (RST_TRIM_STATUS). -/
  trimReason : Kv Nat
  power : Power
  target : Power
  mainSupply : Bool
  wakeLow : Bool
  pwrEn : Bool
  /-- The unit watchdog has firmware to refresh it; it is held stopped while no cluster runs (R43). -/
  wdtStopped : Bool
  dramMib : Nat
  dramChannels : BitVec 2
  archiveFitted : Bool
  /-- TEST_EN is high: boundary scan, and no service (R553). -/
  testEn : Bool
  deriving DecidableEq, Repr

/-- Cluster binding and profile (R25 to R27, R35 to R40). -/
structure Clusters where
  /-- Bucket to cluster 0 to 3, as runs are dealt out; absent: not bound. -/
  buckets : Kv Nat
  /-- Buckets that move, with their new cluster (R27). -/
  moving : Kv Nat
  /-- Clusters that returned to RUN since the buckets were last given out. -/
  returned : List Nat
  /-- Clusters still to switch to the requested profile, the first one paused (R38). -/
  toSwitch : List Nat
  changing : Bool
  cur : BitVec 2
  req : BitVec 2
  /-- The profile each cluster's clock and engines are set for. -/
  clusterProf : Kv (BitVec 2)
  secLanes : Nat
  deriving DecidableEq, Repr

/-! ### Register file, latches and rate windows (chapters 00, 17) -/

/-- The latches of R540, one copy for each path (R539). -/
structure Latch where
  nowLo : W32
  nowHi : W32
  nowFrac : W32
  flsHi : W32
  lastHi : W32
  oldestHi : W32
  /-- The five queue registers (R480). -/
  queue : List W32
  /-- The monitor window: MIN, MAX, LAST, COUNT and 32 bins (R486). -/
  mon : List W32
  /-- The PQ blocks of heads 0 and 1 (R469). -/
  pq0 : List W32
  pq1 : List W32
  deriving DecidableEq, Repr

/-- What has happened in the rate-limit windows in progress (R572): each list names happenings by kind and key. -/
structure Windows where
  sec : List (Nat × Nat)
  min : List (Nat × Nat)
  hour : List (Nat × Nat)
  /-- Management commands accepted this second (R413). -/
  mgmt : Nat
  /-- The second of the unit's time in which the windows in progress were last opened (R572). -/
  at_ : Nat
  deriving DecidableEq, Repr

/-! ### Network time (chapter 10) -/

/-- One PTP port: in SLAVE or not; grandmaster behind it; measured delay in tenths of a nanosecond. -/
structure PtpPort where
  slave : Bool
  gm : Option GmData
  delay : Int
  deriving DecidableEq, Repr

structure TimState where
  /-- Local clock in units of 2^-16 ns (R323). -/
  clk : Nat
  /-- The raw counter since the last reset, in ns, not wrapped (R327). -/
  raw : Nat
  /-- STATE: 0 FREE, 1 LOCKED, 2 SLEWING, 3 HOLDOVER. -/
  st : Nat
  source : Nat
  valid : Bool
  jumpRefused : Bool
  utc : Int
  fromPtp : Bool
  /-- The offset in force before the last change of `utc`, and the local second of that change. -/
  utcPrev : Option (Int × Int)
  /-- Announced leap second: +1 or -1, and the UTC second at which the day named would end without it (R325). -/
  leap : Option (Int × Int)
  offset : Int
  rate : Int
  /-- Last offset measured: source, offset, raw time. -/
  lastOff : Option (Nat × Int × Nat)
  /-- The first step after the last reset of TIM has been made by a source or by MODE 1 (R331). -/
  stepped : Bool
  /-- A source has been used since the first step (R336). -/
  used : Bool
  good : Nat
  /-- Source of the refusal episode in progress (R332). -/
  refused : Option Nat
  /-- Raw time of the last offset the servo used (R334). -/
  lastGood : Nat
  /-- Sources available (R328), by code. -/
  avail : List Nat
  /-- The port the best master clock algorithm chooses when both are SLAVE: true ETH1. -/
  bestPort : Bool
  ports : Kv PtpPort
  /-- Islands whose time-stamps are marked invalid for want of time words (R340). -/
  lost : List Nat
  deriving DecidableEq, Repr

end Sys2Proof.Machine
end

