-- ==== Sys2Proof/Syntax.lean ====
section
/-!
DEFINITION. Sys2Proof/Syntax.lean: the commands of the block, one constructor per row of spec/opcode_table.json, in its order. An
operand the table leaves to the outside world (a frame, a body, a sampled value) is an argument of the command.
-/
namespace Sys2Proof

open Machine

/-- A command: an operation on the block, or an event at it. -/
inductive Instr where
  /-- REG_READ (R407): Management command that reads 1 to 256 consecutive set-up register words. -/
  | regRead (h : Hdr) (off count : Nat)
  /-- REG_WRITE_AU (R414): Authenticated command that writes VALUE under MASK to the AU fields of one register. -/
  | regWriteAu (h : Hdr) (off : Nat) (mask value : W32)
  /-- KEY_LOAD (R409): Authenticated command that unwraps a key and loads it, with PERMS, into an authority key slot. -/
  | keyLoad (h : Hdr) (slot : Byte) (perms : BitVec 16) (key : Wrapped)
  /-- KEY_CLEAR (R409): Authenticated command that empties an authority key slot. -/
  | keyClear (h : Hdr) (slot : Byte)
  /-- KEY_READ (R409): Command that returns a slot's loaded flag, PERMS, last counter and check value. -/
  | keyRead (h : Hdr) (slot : Byte)
  /-- SEC_ZEROISE (R415): Authenticated command that zeroises every key SEC holds, at level 1 or level 2. -/
  | secZeroise (h : Hdr) (level : Nat)
  /-- TBL_READ (R74): Command that returns one meter record by slot number. -/
  | tblRead (h : Hdr) (slot : Nat)
  /-- TBL_FIND (R74): Command that returns one meter record by system title. -/
  | tblFind (h : Hdr) (title : W64)
  /-- TBL_DUMP (R74): Command that returns the records of a slot range in slot order. -/
  | tblDump (h : Hdr) (first count : Nat)
  /-- TBL_WRITE (R76): Command that writes the W fields of one record under BYTE_MASK and an expected RECORD_SEQ. -/
  | tblWrite (h : Hdr) (slot : Nat) (expect : W32) (mask : BitVec 256) (image : RecImg)
  /-- TBL_PROVISION (R77): Authenticated command that creates a new meter record in the lowest FREE slot. -/
  | tblProvision (h : Hdr) (title : W64) (gen window : Byte) (ruleSet : BitVec 16) (service : BitVec 12) (ek ak : Wrapped)
  /-- TBL_KEY_STAGE (R69): Authenticated command that stages pending keys and rewraps the current keys under the newest TKEK. -/
  | tblKeyStage (h : Hdr) (slot : Nat) (gen : Byte) (ek ak : Wrapped)
  /-- TBL_RETIRE (R65): Authenticated command that retires a meter, deletes its index entry and starts RETIRE_HOLD. -/
  | tblRetire (h : Hdr) (slot : Nat)
  /-- TBL_SET (R57): Authenticated command that writes the A fields of one record, including the allowed STATE changes. -/
  | tblSet (h : Hdr) (slot : Nat) (expect : W32) (mask : BitVec 256) (image : RecImg)
  /-- KEY_SIGNER_LOAD (R94): Authenticated command that loads or clears a meter's public key in the signer store. -/
  | keySignerLoad (h : Hdr) (slot curve : Nat) (key : BitVec 768)
  /-- RULE_LOAD (R143): Authenticated command that checks a rule program image and writes it to the shadow bank of its set. -/
  | ruleLoad (h : Hdr) (image : List Byte)
  /-- RULE_ACTIVATE (R144): Authenticated command that swaps the shadow and active banks of up to 16 sets through activation marks. -/
  | ruleActivate (h : Hdr) (sets : List Nat)
  /-- RULE_REMOVE (R144): Authenticated command that clears the active banks of up to 16 sets through removal marks. -/
  | ruleRemove (h : Hdr) (sets : List Nat)
  /-- RULE_READ (R146): Command that returns both images of a rule set with its version, WCC and row counts. -/
  | ruleRead (h : Hdr) (set : Nat)
  /-- ACTIVATION_MARK_PASS (R144): An activation or removal mark passes stage 7 in a cluster once every earlier row has finished stage 7, and the cluster's banks are swapped. -/
  | activationMarkPass (cluster : Nat)
  /-- TOPO_LOAD (R155): Authenticated command that checks node records and writes them into the shadow tree bank. -/
  | topoLoad (h : Hdr) (nodes : List Node)
  /-- TOPO_ACTIVATE (R155): Authenticated command that checks the whole shadow tree and makes it active at the next balance run start. -/
  | topoActivate (h : Hdr)
  /-- TOPO_READ (R155): Command that returns node records from either tree bank. -/
  | topoRead (h : Hdr) (bank first count : Nat)
  /-- BAL_NODE_READ (R186): Command that returns a node's last result record and its accumulators. -/
  | balNodeRead (h : Hdr) (node : Nat)
  /-- BAL_METER_READ (R186): Command that returns a meter's exact score, method results and coverage. -/
  | balMeterRead (h : Hdr) (slot : Nat)
  /-- BAL_RESET_SCORES (R181): Authenticated command that zeroes the scores of a list of slots or nodes. -/
  | balResetScores (h : Hdr) (kind : Nat) (ids : List Nat)
  /-- CAMP_CREATE (R223): Authenticated command that takes the lowest free campaign slot with a checked manifest, in state DRAFT. -/
  | campCreate (h : Hdr) (m : Manifest)
  /-- CAMP_DATA (R223): Command that writes a range of a DRAFT campaign's image. -/
  | campData (h : Hdr) (slot off : Nat) (data : List Byte)
  /-- CAMP_SEAL (R223): Authenticated command that builds the segment table, checks both digests and moves the campaign to READY. -/
  | campSeal (h : Hdr) (slot : Nat)
  /-- CAMP_ADD_MEMBERS (R216): Authenticated command that adds slots to a campaign as PENDING members and sets their CAMPAIGNS bits. -/
  | campAddMembers (h : Hdr) (slot : Nat) (slots : List Nat)
  /-- CAMP_REMOVE_MEMBERS (R216): Authenticated command that deletes members' records and clears their CAMPAIGNS bits. -/
  | campRemoveMembers (h : Hdr) (slot : Nat) (slots : List Nat)
  /-- CAMP_START (R200): Authenticated command that moves a READY or PAUSED campaign to RUNNING. -/
  | campStart (h : Hdr) (slot : Nat)
  /-- CAMP_PAUSE (R200): Authenticated command that moves a RUNNING campaign to PAUSED. -/
  | campPause (h : Hdr) (slot : Nat)
  /-- CAMP_CANCEL (R201): Authenticated command that frees a DRAFT to PAUSED campaign slot and deletes its image and members. -/
  | campCancel (h : Hdr) (slot : Nat)
  /-- CAMP_CLOSE (R201): Authenticated command that frees an ACTIVATED or REVERTED campaign slot. -/
  | campClose (h : Hdr) (slot : Nat)
  /-- CAMP_ACTIVATE (R220): Authenticated command that checks a signed activation record and moves the campaign to ACTIVATING. -/
  | campActivate (h : Hdr) (slot : Nat) (r : ActRec)
  /-- CAMP_ROLLBACK (R221): Authenticated command that checks a signed rollback record and moves the campaign to ROLLING_BACK. -/
  | campRollback (h : Hdr) (slot : Nat) (r : ActRec)
  /-- CAMP_READ (R223): Command that returns a campaign's state, manifest, member counts and pass times. -/
  | campRead (h : Hdr) (slot : Nat)
  /-- CAMP_MEMBER_READ (R223): Command that returns the member records of a slot range. -/
  | campMemberRead (h : Hdr) (slot first count : Nat)
  /-- PLC_GMK_ROTATE (R234): Authenticated command that replaces a PAN's group master key by key-index switching. -/
  | plcGmkRotate (h : Hdr) (inst : Nat)
  /-- PLC_KICK (R235): Authenticated command that sends an LBP kick and frees the endpoint's short address. -/
  | plcKick (h : Hdr) (inst short : Nat)
  /-- RF_KEY_ROTATE (R272): Authenticated command that replaces a transceiver's network MAC key by key-index switching. -/
  | rfKeyRotate (h : Hdr) (rf : Nat)
  /-- TIM_STEP (R333): Authenticated command that steps the local clock by the last offset (MODE 0) or to a given time (MODE 1). -/
  | timStep (h : Hdr) (mode sec ns : Nat)
  /-- PAIR_READ (R383): Command that returns PRL_STATUS, both claims and the partner's last heartbeat on each path. -/
  | pairRead (h : Hdr)
  /-- PAIR_SWAP (R372): Authenticated command that starts an orderly swap to a READY standby. -/
  | pairSwap (h : Hdr)
  /-- PAIR_CLEAR (R383): Authenticated command that clears PROOF_FAILED and INTERLOCK_FAULT. -/
  | pairClear (h : Hdr)
  /-- ARCH_INFO (R444): Command that returns store status, block counts, sequence numbers, thermal age and missing ranges. -/
  | archInfo (h : Hdr)
  /-- ARCH_READ (R444): Command that returns archived reading records in ARCHIVE_SEQ order. -/
  | archRead (h : Hdr) (first : W64) (count : Nat) (media : List Media)
  /-- ARCH_FIND_TIME (R444): Command that returns the first ARCHIVE_SEQ of the earliest block whose first record is at or after a time. -/
  | archFindTime (h : Hdr) (t : W64)
  /-- ARCH_TRIM (R442): Authenticated command that frees whole READINGS blocks whose records all lie below UPTO_SEQ. -/
  | archTrim (h : Hdr) (upto : W64)
  /-- ARCH_OVF_READ (R441): Command that returns records from the oldest end of the overflow ring. -/
  | archOvfRead (h : Hdr) (count : Nat)
  /-- ARCH_OVF_RELEASE (R441): Command that frees overflow ring records below UPTO_SEQ. -/
  | archOvfRelease (h : Hdr) (upto : W64)
  /-- ARCH_HOST_WRITE (R444): Command that writes one to three HOST sectors, or staging window sectors. -/
  | archHostWrite (h : Hdr) (sector : Nat) (data : List (List Byte))
  /-- ARCH_HOST_READ (R444): Command that returns HOST or staging window sectors. -/
  | archHostRead (h : Hdr) (sector count : Nat) (media : List Media)
  /-- ARCH_FORMAT (R444): Authenticated command that erases every good block, lays out the zones and restarts ARCHIVE_SEQ at 0. -/
  | archFormat (h : Hdr) (confirm : W32)
  /-- EVT_READ (R496): Command that returns a snapshot of event records from FROM_SEQ up to HIGH. -/
  | evtRead (h : Hdr) (from_ : W64) (count : Nat)
  /-- EVT_CLEAR (R497): Authenticated command that empties the on-chip event ring and writes EVT_CLEARED as the first record. -/
  | evtClear (h : Hdr)
  /-- MON_READ (R499): Command that latches and returns the configuration and results of a range of monitor channels. -/
  | monRead (h : Hdr) (first n : Nat)
  /-- MON_RESET (R499): Command that clears the results of the monitor channels named by a mask. -/
  | monReset (h : Hdr) (lo hi : W32)
  /-- Q_READ (R499): Command that returns the latched registers of a range of queues. -/
  | qRead (h : Hdr) (first n : Nat)
  /-- MGMT_DATAGRAM_RX (R413): A UDP command body arrives at MGMT_PORT, is rate-limited, checked and answered with response datagrams. -/
  | mgmtDatagramRx (port : Bool) (h : Hdr) (c : Cmd)
  /-- REGISTER_WRITE (R13): A plain write to a register with no behaviour of its own stores RW fields, and discards locked LK and AU fields with counting and an event. -/
  | registerWrite (off : Nat) (v : W32) (whole : Bool)
  /-- W1C_WRITE (R12): A write of 1 to a W1C bit clears that bit. -/
  | w1cWrite (off : Nat) (v : W32)
  /-- TIM_NOW_NS_READ (R326): A read of TIM_NOW_NS latches the seconds and fraction registers at the same instant. -/
  | timNowNsRead (p : Path)
  /-- SEQ_PAIR_LO_READ (R540): A read of FLS_DURABLE_SEQ_LO, EVT_LAST_SEQ_LO or EVT_OLDEST_SEQ_LO latches the matching high word. -/
  | seqPairLoRead (p : Path) (off : Nat)
  /-- MEA_PQ_SECOND_READ (R469): A read of MEA_PQ_SECOND latches the head's whole PQ register block for one second. -/
  | meaPqSecondRead (p : Path) (head : Nat)
  /-- CTL_Q_SEL_WRITE (R480): A write of CTL_Q_SEL latches the five queue registers for the queue named. -/
  | ctlQSelWrite (v : W32)
  /-- MON_SNAP_WRITE (R486): A write of MON_SNAP latches a channel's results into the window and clears them if CLEAR is 1. -/
  | monSnapWrite (v : W32)
  /-- SETUP_LOCK_SET (R541): A BAR0 write of 1 to CTL_SETUP_LOCK makes every LK field read-only until a unit reset. -/
  | setupLockSet
  /-- NOTICE_ENABLE_WRITE (R543): A write of CTL_NOTICE_EN that enables a pending bit raises vector 32. -/
  | noticeEnableWrite (v : W32)
  /-- PROFILE_REQUEST (R38): A write of CTL_PROFILE.REQ starts a profile change that runs cluster by cluster without stopping service. -/
  | profileRequest (h : Hdr) (mask value : W32)
  /-- PROFILE_CLUSTER_SWITCH (R38): Once a paused cluster holds no token, its clock and engine count are set, and dispatch resumes after relock. -/
  | profileClusterSwitch (cluster : Nat)
  /-- BUCKET_REDISTRIBUTE (R27): Once the old cluster holds no token for a moving bucket, the bucket is bound to its new cluster and dispatch resumes. -/
  | bucketRedistribute (bucket : Nat)
  /-- SW_BLOCK_RESET (R524): A write of 1 to an RST_SW_RESET bit puts the block into reset, flushes its queues and gives up its tokens and buckets. -/
  | swBlockReset (h : Hdr) (mask : W32)
  /-- SW_BLOCK_RELEASE (R524): A write of 0 to an RST_SW_RESET bit reloads the block's trim, releases it and applies its bundle settings. -/
  | swBlockRelease (h : Hdr) (mask : W32)
  /-- UNIT_RESET_COMMAND (R533): A write of 0x5253 to RST_UNIT.UNIT resets the unit with cause COMMAND. -/
  | unitResetCommand (h : Hdr) (mask value : W32)
  /-- BOOT_INSTALL_GO (R522): A write of RST_BOOT_INSTALL.GO checks the staged object and programs it into the named slot. -/
  | bootInstallGo (h : Hdr) (mask value : W32) (obj : Staged)
  /-- INSTALL_COMPLETE (R522): The erase, program and read-back of an install end, and RST_BOOT_STATUS.INSTALL shows the result. -/
  | installComplete (ok : Bool)
  /-- BOOT_SEL_TRIAL (R523): A write of RST_BOOT_SEL with TRIAL 1 writes a boot control entry naming trial slots. -/
  | bootSelTrial (h : Hdr) (mask value : W32)
  /-- BOOT_SEL_CONFIRMED (R523): A write of RST_BOOT_SEL with TRIAL 0 and CONFIRM 0 writes the slots as confirmed. -/
  | bootSelConfirmed (h : Hdr) (mask value : W32)
  /-- BOOT_SEL_CONFIRM (R523): A write of RST_BOOT_SEL.CONFIRM confirms the running trial slots. -/
  | bootSelConfirm (h : Hdr) (mask value : W32)
  /-- AUTO_CONFIRM_EXPIRY (R523): A lone unit confirms its trial after AUTO_CONFIRM_H hours in RUN with a role taken. -/
  | autoConfirmExpiry
  /-- OTP_PROGRAM (R534): A write of RST_OTP_CMD.GO in PROVISION mode programs one OTP word. -/
  | otpProgram (v : W32)
  /-- POWER_TARGET_RUN (R525): A write of RST_POWER.TARGET to RUN returns the unit to RUN. -/
  | powerTargetRun (h : Hdr) (mask : W32)
  /-- POWER_TARGET_DOZE (R525): A write of RST_POWER.TARGET to DOZE lets idle islands go GATED. -/
  | powerTargetDoze (h : Hdr) (mask : W32)
  /-- POWER_TARGET_HOLD (R526): A write of RST_POWER.TARGET to HOLD gates all but BKP, CTL, TIM and wake ports, or completes BUSY on an active unit. -/
  | powerTargetHold (h : Hdr) (mask : W32)
  /-- POWER_TARGET_BACKUP (R526): A write of RST_POWER.TARGET to BACKUP stops dispatch, drains the write queue, writes the claim and drives PWR_EN low. -/
  | powerTargetBackup (h : Hdr) (mask : W32)
  /-- DOZE_IDLE_GATE (R525): An island idle for DOZE_IDLE_US with empty queues goes GATED in DOZE, and restarts on its next item. -/
  | dozeIdleGate (isl : Nat)
  /-- PCI_ENABLE_WRITE (R391): A write of PCI_CTL.EN starts or stops doorbell polling and postings. -/
  | pciEnableWrite (v : W32)
  /-- RING_ENABLE (R389): Setting a ring's EN starts the ring with its own index at 0 and completion phase 1. -/
  | ringEnable (cq : Bool) (n : Nat) (v : W32)
  /-- RING_DISABLE (R390): Clearing a ring's EN stops the ring at once and gives back unconsumed submission entries. -/
  | ringDisable (cq : Bool) (n : Nat) (v : W32)
  /-- DOORBELL_POLL (R391): Every POLL_US or POLL_IDLE_US the unit reads the doorbell block and acts on each changed word. -/
  | doorbellPoll (words : List (BitVec 16)) (cmds : Kv (List CmdDesc)) (bufs : Kv (List BufDesc))
  /-- DMA_ERROR (R393): A DMA access that ends in an error completion stops its ring and counts in PCI_DMA_ERR. -/
  | dmaError (cq : Bool) (n : Nat)
  /-- RX_BUFFER_HOLD_EXPIRY (R402): No buffer arrives within HOLD_US, so the frame ends TRUNCATED and the command completes TRUNCATED. -/
  | rxBufferHoldExpiry (n : Nat)
  /-- MSIX_COALESCE_EXPIRY (R404): COAL_US passes after the first waiting completion entry, and the ring's vector is raised. -/
  | msixCoalesceExpiry (n : Nat)
  /-- MSIX_UNMASK (R404): Unmasking a vector with its pending bit set sends the message. -/
  | msixUnmask (vector : Nat)
  /-- PCIE_CONFIG_REQUEST (R509): A configuration request is answered with Retry Status until PCI's bundle settings are applied. -/
  | pcieConfigRequest (bme : Option Bool)
  /-- PCIE_LINK_RESET (R417): A PCIe hot reset or link-down resets the PCI block, and postings stop. -/
  | pcieLinkReset
  /-- POWER_ON_RESET (R502): Main supplies rise and stay valid for 1 ms, which starts a unit reset with cause POWER_ON. -/
  | powerOnReset
  /-- BROWN_OUT (R554): A main supply falls below its threshold for 1 µs, which resets the unit with cause BROWN_OUT. -/
  | brownOut (supply : Nat)
  /-- EXTERNAL_RESET (R502): The board holds RST_N low for at least 1 µs, which resets the unit with cause EXTERNAL. -/
  | externalReset
  /-- WATCHDOG_EXPIRY (R502): The unit watchdog is not refreshed for WDT_MS, which resets the unit with cause WATCHDOG. -/
  | watchdogExpiry
  /-- THERMAL_RESET (R560): TJ_MAX reads above 135 °C, which holds the unit in reset until it falls below 115 °C. -/
  | thermalReset
  /-- CLOCK_LOSS (R502): No edge arrives on the 25 MHz reference for 10 µs, which resets the unit with cause CLOCK_LOSS. -/
  | clockLoss
  /-- RESET_RELEASE (R508): After RST_N rises, CTL runs the start-up sequence of releases, strap read, OTP load, image and bundle choice, and lock. -/
  | resetRelease (env : StartEnv)
  /-- STRAP_RETRY (R512): After a guard code the strap is read again, 1 ms apart, up to eight times. -/
  | strapRetry (code : BitVec 6)
  /-- ISLAND_CLOCK_STABLE (R510): A PENDING island reaches 64 consecutive locked cycles and enters RUN. -/
  | islandClockStable (isl : Nat)
  /-- ISLAND_LOCK_LOSS (R21): An island clock loses lock, so the island stops its clock and resumes after 64 locked cycles if lock returns within 1 ms. -/
  | islandLockLoss (isl : Nat)
  /-- LOCK_LOSS_TIMEOUT (R21): Lock is not regained within 1 ms, and the island is marked FAILED with FAIL_CODE 0x01. -/
  | lockLossTimeout (isl : Nat)
  /-- HANDSHAKE_TIMEOUT (R21): An island does not answer a CTL handshake within 10 ms, and it is marked FAILED with FAIL_CODE 0x02. -/
  | handshakeTimeout (isl : Nat)
  /-- ECC_UNCORRECTABLE (R19): An uncorrectable memory error fails the island's own memory, or fails only the access in central SRAM. -/
  | eccUncorrectable (at_ : EccAt)
  /-- ECC_CORRECTED (R19): A single-bit error is corrected, counted and recorded. -/
  | eccCorrected (at_ : EccAt)
  /-- IDLE_ITEM_WRITE (R477): A producer writes an idle item after 2 µs without writing mid-packet, or when it has no more work. -/
  | idleItemWrite (queue : Nat)
  /-- READING_DISPATCH (R85): The dispatcher takes one whole packet from a non-empty intake queue, takes a token, walks the index and sends the reading to its cluster. -/
  | readingDispatch
  /-- READING_VERIFY (R95): A cluster runs parse and lookup, key unwrap, and verify and decrypt, with the pending-key retry and the head signature check. -/
  | readingVerify (id : Nat)
  /-- COUNTER_CHECK (R99): Once the meter's previous reading is done, stage 5 applies the replay rules, then decode, rules and alignment run. -/
  | counterCheck (id : Nat)
  /-- READING_POSTING (R108): Once the standby acknowledges the journal batch, the posting is queued to a host ring or relay, and the token is returned. -/
  | readingPosting (id : Nat)
  /-- TOKEN_RETURN (R88): A RETURNING token is added back to the pool as FREE. -/
  | tokenReturn
  /-- SESSION_EXPIRY (R92): A dedicated-key association ends at the end of its poll or 60 s after it opened. -/
  | sessionExpiry (k : Nat)
  /-- POLL_ISSUE (R520): A poll entry's period comes round, and the poller issues its GET to each ACTIVE meter, spread over the period. -/
  | pollIssue (entry slot : Nat)
  /-- FETCH_RETRY (R59): An outstanding fetch is repeated every 500 ms, up to four attempts, then the title is treated as unknown. -/
  | fetchRetry (title : W64)
  /-- MOVE_RELEASE_QUEUE (R61): After the journal acknowledges a move, the head queues a release to the old unit and the record to the new unit. -/
  | moveReleaseQueue
  /-- RETIRE_HOLD_EXPIRY (R65): RETIRE_HOLD ends and no token holds the slot, so the slot becomes FREE and its signer entry is cleared. -/
  | retireHoldExpiry (slot : Nat)
  /-- AGE_CHECK (R67): Once an hour a FIELD unit retires ACTIVE records not heard for AGE_LIMIT hours. -/
  | ageCheck
  /-- STANDBY_TABLE_COPY (R363): The active copies rule store, keys, table, trees, campaigns, PAN and radio state and hold area to a joining standby. -/
  | standbyTableCopy (item : Nat) (ents : List JEntry)
  /-- COPY_COMPLETE (R363): The last copy item is done, the joiner enters STANDBY and records its archive gap. -/
  | copyComplete
  /-- BALANCE_INTERVAL_CLOSE (R158): A balance interval closes, which starts the run for interval j − LAG or skips it. -/
  | balanceIntervalClose
  /-- BALANCE_RUN (R159): A run computes meter energy, loss, residuals, localisation walks, phases and scores, and journals the changes. -/
  | balanceRun
  /-- BALANCE_REPORT_POST (R182): After the standby acknowledges the run, node results, notices and the summary are posted and RUN_SEQ advances. -/
  | balanceReportPost
  /-- CAMPAIGN_FRAME_SEND (R218): At the pace of PLC_BPS or RF_BPS a link sends the next manifest, coded block, progress request or activation record. -/
  | campaignFrameSend (link : Nat)
  /-- REPAIR_ROUND (R219): After ROUND_WAIT the unit requests progress and broadcasts or unicasts repair blocks per generation. -/
  | repairRound (link slot : Nat)
  /-- ACTIVATION_BROADCAST (R220): Every 60 s until ACT_TIME + LATE_S, the activation or rollback record is broadcast on each instance. -/
  | activationBroadcast (link slot : Nat)
  /-- ACT_TIME_LATE_EXPIRY (R200): ACT_TIME + LATE_S passes, so the campaign becomes ACTIVATED or REVERTED and laggard members become MISSED. -/
  | actTimeLateExpiry (slot : Nat)
  /-- CAMPAIGN_CHECKPOINT (R225): Every CKPT_S seconds a HEAD unit writes all campaign and member state to the archive. -/
  | campaignCheckpoint
  /-- PLC_FRAME_RX (R242): A PLC frame is received with impulsive-noise erasure and is discarded or delivered and acknowledged. -/
  | plcFrameRx (inst : Nat) (f : PlcFrame)
  /-- PLC_ACK_TIMEOUT (R240): A unicast gets no acknowledgement and is retried one modulation level lower, or ends in transmit failure. -/
  | plcAckTimeout (inst id : Nat)
  /-- ROUTE_TTL_EXPIRY (R237): A route unused for ROUTE_TTL_MIN minutes is dropped. -/
  | routeTtlExpiry (inst dest : Nat)
  /-- ROUTE_WAIT_EXPIRY (R237): A frame queued 10 s for a destination without a route ends in transmit failure. -/
  | routeWaitExpiry (inst id : Nat)
  /-- REASSEMBLY_TIMEOUT (R244): A 6LoWPAN datagram not complete within 20 s is discarded and counted. -/
  | reassemblyTimeout (link src tag : Nat)
  /-- SHORT_HOLD_EXPIRY (R235): A short address whose endpoint is unheard for SHORT_HOLD hours and not ACTIVE is freed. -/
  | shortHoldExpiry (link short : Nat)
  /-- ZC_REPORT_SEND (R247): Once per ZC_REPORT_S an endpoint's latest zero-crossing offset is relayed to the head. -/
  | zcReportSend (inst short : Nat)
  /-- FP_REPORT_SEND (R249): Once per FP_REPORT_H an endpoint's fingerprint is relayed to the head. -/
  | fpReportSend (inst short : Nat)
  /-- ZC_EDGE (R245): A rising edge of PLCn_ZC is time-stamped and updates the measured mains period. -/
  | zcEdge (inst t : Nat)
  /-- ZC_LOST (R245): No zero-crossing edge arrives for 100 ms, or the period leaves range, so ZC_LOST is set. -/
  | zcLost (inst : Nat)
  /-- LD_FAULT_FALL (R233): PLCn_LD_FAULT_N falls, so transmission stops and LD_FAULT is set. -/
  | ldFaultFall (inst : Nat)
  /-- LD_FAULT_RESUME (R233): 1 s after the fault pin returns high, the instance resumes transmitting. -/
  | ldFaultResume (inst : Nat)
  /-- RF_TIMESLOT (R266): At each slot start a transceiver transmits in one cell or runs each lane's receive cell. -/
  | rfTimeslot (rf : Nat)
  /-- RF_FRAME_RX (R276): A radio frame is filtered, security-checked and acknowledged or delivered, and drift is updated. -/
  | rfFrameRx (rf : Nat) (f : RfFrame)
  /-- RF_SCAN (R282): A backhaul child scans for EBs, 5 s per lane group, and joins the chosen network. -/
  | rfScan (rf : Nat) (hits : List ScanHit)
  /-- SLEEPY_QUEUE_EXPIRY (R273): A downlink frame queued 600 s for a sleepy endpoint ends in transmit failure. -/
  | sleepyQueueExpiry (rf id : Nat)
  /-- ETH_FRAME_RX (R297): A frame is checked for code errors, length, FCS, address and VLAN, and is buffered or dropped. -/
  | ethFrameRx (port : Bool) (f : EthFrame)
  /-- ETH_LINK_UP (R295): A port's link comes up full duplex, and an LLDPDU is sent at once. -/
  | ethLinkUp (port : Bool) (speed : Nat) (half eee : Bool)
  /-- ETH_LINK_DOWN (R301): A port's link goes down, the transmit buffer is discarded and the path is down. -/
  | ethLinkDown (port : Bool)
  /-- TX_BUFFER_WAIT_EXPIRY (R301): A frame that waits 10 ms for transmit buffer space is discarded. -/
  | txBufferWaitExpiry (port : Bool)
  /-- LLDP_SEND (R302): Every LLDP_S seconds the port sends an LLDPDU. -/
  | lldpSend (port : Bool)
  /-- LPI_IDLE_ENTRY (R303): The transmit buffer is empty for LPI_IDLE_US, and the port enters LPI. -/
  | lpiIdleEntry (port : Bool)
  /-- RELAY_FRAME_RX (R309): A relay frame is format-checked, authenticated and judged for freshness, then accepted or discarded. -/
  | relayFrameRx (src : RelaySrc) (f : RelayFrame)
  /-- RELAY_PAUSE_HOLD_EXPIRY (R314): HOLD_MS passes after a PAUSE, and the sender may send again. -/
  | relayPauseHoldExpiry (port : Bool)
  /-- RELAY_BATCH_CLOSE (R313): A batch closes when full, at 255 entries, or BATCH_US after its first entry, and is sent. -/
  | relayBatchClose (to_ : BitVec 12) (port : Bool)
  /-- RELAY_ACK_TIMEOUT (R313): A batch unacknowledged after ACK_MS is resent with a new SEQ, and the path goes down after RETRIES. -/
  | relayAckTimeout (id : Nat) (port : Bool)
  /-- RELAY_BATCH_ACK (R313): Once every entry of a batch has its result, the receiver sends the ACK. -/
  | relayBatchAck (sender : BitVec 12) (seq : W32)
  /-- SPOOL_DRAIN (R316): When the uplink is up again, the spool is sent in order before newer entries. -/
  | spoolDrain
  /-- PTP_MESSAGE_RX (R335): A PTP message is received, and offsets, delay and Announce data are taken from it. -/
  | ptpMessageRx (port : Bool) (m : PtpMsg)
  /-- PTP_MESSAGE_SEND (R336): A MASTER port sends Sync, Announce and other messages at the profile's intervals. -/
  | ptpMessageSend (port : Bool) (kind : PtpSend)
  /-- SOURCE_TIMEOUT (R329): A source gives no valid offset for three intervals, so it stops being available and the next source or holdover takes over. -/
  | sourceTimeout (code : Nat)
  /-- TIME_WORD (R340): Every millisecond TIM sends each island the local time and rate. -/
  | timeWord
  /-- TIME_WORD_LOSS (R340): An island missing three time words marks its time-stamps invalid and counts in TIM_DIST_LOST. -/
  | timeWordLoss (isl : Nat)
  /-- RTC_WRITE (R331): Once per second after the first step, TIM writes the local seconds into the BKP real-time counter. -/
  | rtcWrite
  /-- LEAP_SECOND (R325): At the end of the announced UTC day the UTC offset changes by one second. -/
  | leapSecond
  /-- HEARTBEAT_SEND (R364): Every HB_PRL_US on PRL and every HB_ETH_MS on Ethernet a heartbeat is sent. -/
  | heartbeatSend (path : Nat)
  /-- HEARTBEAT_RX (R365): A heartbeat is accepted or discarded, and may decide a takeover, a fence or the end of a split. -/
  | heartbeatRx (path : Nat) (hb : Heartbeat)
  /-- HEARTBEAT_PATH_LOST (R364): HB_MISS intervals pass without a valid heartbeat, and the path is lost. -/
  | heartbeatPathLost (path : Nat)
  /-- PRL_LOSS_OF_SIGNAL (R366): The pair link loses signal, which may lead to a takeover or standby loss. -/
  | prlLossOfSignal
  /-- ACT_IN_QUIET (R351): ACT_QUIET passes without an ACT_IN edge, and a unit without the grant decides a takeover. -/
  | actInQuiet
  /-- ACT_IN_EDGE (R351): An edge on ACT_IN makes it live, and may settle a simultaneous start. -/
  | actInEdge
  /-- CLAIM_FLASH_WRITTEN (R358): The claim reaches the boot flash, after which relay frames, notices and postings may be sent. -/
  | claimFlashWritten
  /-- PAIR_WATCHDOG_EXPIRY (R353): The pair watchdog is not refreshed for 20 ms, so ACT_OUT stops and the unit enters FENCED. -/
  | pairWatchdogExpiry
  /-- SEEK_WAIT_EXPIRY (R357): No partner heartbeat is heard for WAIT_S, and the unit takes the grant as ACTIVE_ALONE. -/
  | seekWaitExpiry
  /-- FENCED_EXPIRY (R355): A FENCED unit returns to SEEKING after 1 s. -/
  | fencedExpiry
  /-- JOURNAL_BATCH_CLOSE (R360): A journal batch closes JOURNAL_US after its first entry or at 64 KiB and is sent over PRL. -/
  | journalBatchClose
  /-- JOURNAL_BATCH_RX (R360): The standby applies journal batches in order and acknowledges each one. -/
  | journalBatchRx (num mark : Nat) (formOk : Bool) (ents : List JEntry)
  /-- JOURNAL_ACK_RX (R360): The active receives a journal acknowledgement, which releases the waiting commits and postings. -/
  | journalAckRx (num : Nat)
  /-- JACK_TIMEOUT (R360): A batch unacknowledged within JACK_MS is resent once, and the standby is lost after a second timeout. -/
  | jackTimeout (num : Nat)
  /-- SWAP_HANDOVER (R371): The drain ends and the journal is acknowledged, so the active sends HANDOFF, stops ACT_OUT and enters STANDBY. -/
  | swapHandover
  /-- SWAP_DRAIN_EXPIRY (R371): DRAIN_MS passes before the drain is done, and the swap is aborted. -/
  | swapDrainExpiry
  /-- SCHEDULED_SWAP_DUE (R372): SWAP_H hours pass since the last good swap, and a swap starts or is retried hourly. -/
  | scheduledSwapDue
  /-- PROOF_EXPIRY (R373): PROVE_S or PROVE_MAX_S ends, and the swap counts good or unproven. -/
  | proofExpiry (last : Bool)
  /-- MEA_SECOND_END (R459): At each second's end, MEA adds energy to the accumulators, computes RMS deviations and power-quality values. -/
  | meaSecondEnd (x0 x1 : List (List Int))
  /-- MEA_MINUTE_END (R455): At each whole minute, MEA emits the minute record and carries the fractions. -/
  | meaMinuteEnd
  /-- MEA_HALF_CYCLE_RMS (R459): Each half cycle the one-cycle RMS is refreshed, and a sag, swell or interruption starts or ends with an event. -/
  | meaHalfCycleRms (head phase : Nat) (codes : List Int)
  /-- MODULE_PRESENCE_HIGH (R464): A module's presence pin goes high, so the block stops measuring or transmitting. -/
  | modulePresenceHigh (slot : Nat)
  /-- MODULE_PRESENCE_DEBOUNCE (R464): 50 ms after a presence pin goes low, the identity record is read and checked. -/
  | modulePresenceDebounce (slot : Nat) (m : ModRecord)
  /-- EVENT_ACCEPT (R491): EVT accepts a raised event, applies the rate limits, stamps and numbers it, stores and posts it. -/
  | eventAccept
  /-- EVENT_ARCHIVE_WRITE (R493): An event record is written to the EVENTS zone, rotating its halves. -/
  | eventArchiveWrite
  /-- EVT_BUCKET_REFILL (R494): At each whole second CODE_RATE tokens are added to each code's bucket, up to BURST. -/
  | evtBucketRefill
  /-- RATE_WINDOW_BOUNDARY (R572): A second, minute or hour boundary of the unit's time, or a step, starts new rate-limit windows. -/
  | rateWindowBoundary (level : Nat)
  /-- MON_SAMPLE (R484): A monitor channel takes a sample, updates its results and bins, and may trip an alarm. -/
  | monSample (ch : Nat) (v : Int)
  /-- ARCHIVE_FLUSH_EXPIRY (R427): A sector not filled within FLUSH_S is written padded. -/
  | archiveFlushExpiry
  /-- PAGE_PROGRAM_COMPLETE (R428): A page program and verify ends, and records become durable when their paired pages are written. -/
  | pageProgramComplete
  /-- PROGRAM_ERASE_FAIL (R434): A program or erase fails, so the block is retired and a spare takes its place. -/
  | programEraseFail (block : Nat) (erase : Bool)
  /-- BLOCK_COLLECTION (R437): FLS copies a block's valid sectors, commits the remap and erases the source. -/
  | blockCollection
  /-- WEAR_LEVEL_MOVE (R435): At most once per minute the least-worn DATA block is moved when the PE spread exceeds WL_SPREAD. -/
  | wearLevelMove
  /-- THERMAL_AGE_TICK (R430): Once per minute FLS adds the temperature-weighted increment to the thermal-age counter. -/
  | thermalAgeTick
  /-- RETENTION_SCAN (R433): Once per day every block is scanned and refreshed if its equivalent age exceeds REFRESH_AGE_W. -/
  | retentionScan
  /-- ARCHIVE_MOUNT (R438): FLS loads the newer checkpoint, replays the journal and scans OPEN and STALE blocks. -/
  | archiveMount (scan : MountScan)
  /-- OVERFLOW_WRITEBACK (R441): When the store leaves KEEP_FULL, unreleased overflow records are written back to READINGS. -/
  | overflowWriteback
  /-- TAMPER_FALL (R415): A falling edge of TAMPER_N zeroises SEC when TAMPER_ACTION is not 0, or is latched in BKP. -/
  | tamperFall
  /-- WAKE_PIN_FALL (R525): WAKE_N held low wakes the unit from HOLD or BACKUP. -/
  | wakePinFall
  /-- BKP_ALARM (R525): The real-time counter matches BKP_ALARM, and the unit wakes from BACKUP. -/
  | bkpAlarm
  /-- MAIN_SUPPLY_LOSS (R525): Main supplies fall while VBAT holds, bringing the unit to BACKUP. -/
  | mainSupplyLoss
  /-- VBAT_LOW (R531): VBAT falls below 2.0 V, setting VBAT_LOW and recording an event. -/
  | vbatLow (mv : Nat)
  /-- BKP_SECOND_TICK (R527): Each second BKP advances its real-time counter and, with main supplies present, the operating-seconds counter. -/
  | bkpSecondTick
  /-- BKP_POWER_LOSS (R14): VBAT falls below 1.8 V while main supplies are absent, so BKP loses power and every class-B value returns to its default. -/
  | bkpPowerLoss
  /-- BUS_MASTER_ENABLE_CLEAR (R416): The host clears Bus Master Enable, so DMA and postings stop and a frame being written ends as on EN 0 with its completions unwritten. -/
  | busMasterEnableClear
  /-- PCIE_LINK_UP (R386): The PCIe link trains and comes up, so PCI_STATUS.LINK is set and postings to enabled rings may be made again. -/
  | pcieLinkUp (width speed : Nat)
  /-- LD_FAULT_PIN_RISE (R233): PLCn_LD_FAULT_N returns high, which starts the 1 s wait before the instance may transmit again. -/
  | ldFaultPinRise (inst : Nat)
  /-- MODULE_PRESENCE_LOW (R464): A module's presence pin falls low, which starts the 50 ms debounce before its identity record is read. -/
  | modulePresenceLow (slot : Nat)
  /-- ARCH_FORMAT_COMPLETE (R448): The erase of every good block and the zone layout end, so queued appends are released to the new store with ARCHIVE_SEQ from 0. -/
  | archFormatComplete
  /-- PARTNER_EEE_TLV_EXPIRY (R303): The TTL of the partner's last EEE TLV runs out, so the port no longer holds a valid partner TLV and may not enter LPI. -/
  | partnerEeeTlvExpiry (port : Bool)
  deriving DecidableEq, Repr

end Sys2Proof
end

