-- ==== Sys2Proof/WellFormed.lean ====
section
/-!
DEFINITION. Sys2Proof/WellFormed.lean: which operands a command can carry: the widths of R395, R405 and R407 for the management
commands, and the numbers of islands, ports, links and slots that exist for the rest. The meanings are total all the same.
-/
namespace Sys2Proof

/-- Bytes of PARAMS that a body of 16,384 bytes leaves (R395, R405). -/
def maxParams : Nat := 16384 - 16

/-- An aligned word of the 1 MiB set-up space (R535). -/
def onWord (off : Nat) : Bool := decide (off < 2 ^ 20) && decide (off % 4 = 0)

/-- Islands 0 to 20 (R16). -/
def isIsland (n : Nat) : Bool := decide (n < 21)

/-- Can the command be put in front of the block? -/
def Instr.wf (i : Instr) : Bool :=
  match i with
  | .regRead _ off count => decide (off < 2 ^ 32) && decide (count < 2 ^ 16)
  | .regWriteAu _ off _ _ => decide (off < 2 ^ 32)
  | .secZeroise _ level => decide (level < 2 ^ 8)
  | .tblRead _ slot => decide (slot < 2 ^ 32)
  | .tblDump _ first count => decide (first < 2 ^ 32) && decide (count < 2 ^ 32)
  | .tblWrite _ slot _ _ _ => decide (slot < 2 ^ 32)
  | .tblKeyStage _ slot _ _ _ => decide (slot < 2 ^ 32)
  | .tblRetire _ slot => decide (slot < 2 ^ 32)
  | .tblSet _ slot _ _ _ => decide (slot < 2 ^ 32)
  | .keySignerLoad _ slot curve _ => decide (slot < 2 ^ 32) && decide (curve < 2 ^ 8)
  | .ruleLoad _ image => decide (image.length ≤ maxParams)
  | .ruleActivate _ sets => decide (sets.length < 2 ^ 8) && sets.all (· < 2 ^ 16)
  | .ruleRemove _ sets => decide (sets.length < 2 ^ 8) && sets.all (· < 2 ^ 16)
  | .ruleRead _ set => decide (set < 2 ^ 16)
  | .activationMarkPass cluster => decide (cluster < 4)
  | .topoLoad _ nodes => decide (4 + 64 * nodes.length ≤ maxParams)
  | .topoRead _ bank first count => decide (bank < 2 ^ 8) && decide (first < 2 ^ 16) && decide (count < 2 ^ 32)
  | .balNodeRead _ node => decide (node < 2 ^ 16)
  | .balMeterRead _ slot => decide (slot < 2 ^ 32)
  | .balResetScores _ kind ids => decide (kind < 2 ^ 8) && decide (4 + 4 * ids.length ≤ maxParams) && ids.all (· < 2 ^ 32)
  | .campData _ slot off data => decide (slot < 2 ^ 8) && decide (off < 2 ^ 32) && decide (8 + data.length ≤ maxParams)
  | .campSeal _ slot => decide (slot < 2 ^ 8)
  | .campAddMembers _ slot slots => decide (slot < 2 ^ 8) && decide (4 + 4 * slots.length ≤ maxParams) && slots.all (· < 2 ^ 32)
  | .campRemoveMembers _ slot slots => decide (slot < 2 ^ 8) && decide (4 + 4 * slots.length ≤ maxParams) && slots.all (· < 2 ^ 32)
  | .campStart _ slot => decide (slot < 2 ^ 8)
  | .campPause _ slot => decide (slot < 2 ^ 8)
  | .campCancel _ slot => decide (slot < 2 ^ 8)
  | .campClose _ slot => decide (slot < 2 ^ 8)
  | .campActivate _ slot _ => decide (slot < 2 ^ 8)
  | .campRollback _ slot _ => decide (slot < 2 ^ 8)
  | .campRead _ slot => decide (slot < 2 ^ 8)
  | .campMemberRead _ slot first count => decide (slot < 2 ^ 8) && decide (first < 2 ^ 32) && decide (count < 2 ^ 32)
  | .plcGmkRotate _ inst => decide (inst < 2 ^ 8)
  | .plcKick _ inst short => decide (inst < 2 ^ 8) && decide (short < 2 ^ 16)
  | .rfKeyRotate _ rf => decide (rf < 2 ^ 8)
  | .timStep _ mode sec ns => decide (mode < 2 ^ 8) && decide (sec < 2 ^ 48) && decide (ns < 2 ^ 32)
  | .archRead _ _ count _ => decide (count < 2 ^ 32)
  | .archOvfRead _ count => decide (count < 2 ^ 32)
  | .archHostWrite _ sector data => decide (sector < 2 ^ 32) && decide (8 + 4096 * data.length ≤ maxParams) && data.all (·.length == 4096)
  | .archHostRead _ sector count _ => decide (sector < 2 ^ 32) && decide (count < 2 ^ 32)
  | .evtRead _ _ count => decide (count < 2 ^ 32)
  | .monRead _ first n => decide (first < 2 ^ 8) && decide (n < 2 ^ 8)
  | .qRead _ first n => decide (first < 2 ^ 8) && decide (n < 2 ^ 8)
  | .registerWrite off _ _ => onWord off
  | .w1cWrite off _ => onWord off
  | .seqPairLoRead _ off => decide (off = 0x4018) || decide (off = 0x16008) || decide (off = 0x16010)
  | .meaPqSecondRead _ head => decide (head < 2)
  | .profileClusterSwitch cluster => decide (cluster < 4)
  | .bucketRedistribute bucket => decide (bucket < 4096)
  | .dozeIdleGate isl => isIsland isl
  | .ringEnable _ n _ => decide (n < 32)
  | .ringDisable _ n _ => decide (n < 32)
  | .doorbellPoll words _ _ => decide (words.length = 64)
  | .dmaError _ n => decide (n < 32)
  | .rxBufferHoldExpiry n => decide (n < 32)
  | .msixCoalesceExpiry n => decide (n < 32)
  | .msixUnmask vector => decide (vector < 64)
  | .brownOut supply => decide (supply < 9)
  | .islandClockStable isl => isIsland isl
  | .islandLockLoss isl => isIsland isl
  | .lockLossTimeout isl => isIsland isl
  | .handshakeTimeout isl => isIsland isl
  | .idleItemWrite queue => decide (queue < 256)
  | .sessionExpiry k => decide (k < 256)
  | .pollIssue _ slot => decide (slot < 2 ^ 22)
  | .retireHoldExpiry slot => decide (slot < 2 ^ 22)
  | .standbyTableCopy item _ => decide (item < 16)
  | .campaignFrameSend link => decide (link < 6)
  | .repairRound link slot => decide (link < 6) && decide (slot < 64)
  | .activationBroadcast link slot => decide (link < 6) && decide (slot < 64)
  | .actTimeLateExpiry slot => decide (slot < 64)
  | .plcFrameRx inst _ => decide (inst < 4)
  | .plcAckTimeout inst _ => decide (inst < 4)
  | .routeTtlExpiry inst dest => decide (inst < 4) && decide (dest < 2 ^ 16)
  | .routeWaitExpiry inst _ => decide (inst < 4)
  | .reassemblyTimeout link src tag => decide (link < 6) && decide (src < 2 ^ 16) && decide (tag < 2 ^ 16)
  | .shortHoldExpiry link short => decide (link < 6) && decide (short < 2 ^ 16)
  | .zcReportSend inst short => decide (inst < 4) && decide (short < 2 ^ 16)
  | .fpReportSend inst short => decide (inst < 4) && decide (short < 2 ^ 16)
  | .zcEdge inst _ => decide (inst < 4)
  | .zcLost inst => decide (inst < 4)
  | .ldFaultFall inst => decide (inst < 4)
  | .ldFaultResume inst => decide (inst < 4)
  | .rfTimeslot rf => decide (rf < 2)
  | .rfFrameRx rf _ => decide (rf < 2)
  | .rfScan rf _ => decide (rf < 2)
  | .sleepyQueueExpiry rf _ => decide (rf < 2)
  | .ethLinkUp _ speed _ _ => decide (speed < 3)
  | .timeWordLoss isl => isIsland isl
  | .heartbeatSend path => decide (path = 1) || decide (path = 2)
  | .heartbeatRx path _ => decide (path = 1) || decide (path = 2)
  | .heartbeatPathLost path => decide (path = 1) || decide (path = 2)
  | .meaHalfCycleRms head phase _ => decide (head < 2) && decide (phase < 3)
  | .modulePresenceHigh slot => decide (slot < 8)
  | .modulePresenceDebounce slot _ => decide (slot < 8)
  | .rateWindowBoundary level => decide (level < 4)
  | .monSample ch _ => decide (ch < 64)
  | .vbatLow mv => decide (mv < 2000)
  | .pcieLinkUp width speed => (decide (width = 1) || decide (width = 2) || decide (width = 4)) && (decide (1 ≤ speed) && decide (speed ≤ 3))
  | .ldFaultPinRise inst => decide (inst < 4)
  | .modulePresenceLow slot => decide (slot < 8)
  | .keyLoad .. | .keyClear .. | .keyRead .. | .tblFind .. | .tblProvision .. | .topoActivate .. | .campCreate .. | .pairRead ..
  | .pairSwap .. | .pairClear .. | .archInfo .. | .archFindTime .. | .archTrim .. | .archOvfRelease .. | .archFormat .. | .evtClear ..
  | .monReset .. | .mgmtDatagramRx .. | .timNowNsRead .. | .ctlQSelWrite .. | .monSnapWrite .. | .setupLockSet | .noticeEnableWrite ..
  | .profileRequest .. | .swBlockReset .. | .swBlockRelease .. | .unitResetCommand .. | .bootInstallGo .. | .installComplete ..
  | .bootSelTrial .. | .bootSelConfirmed .. | .bootSelConfirm .. | .autoConfirmExpiry | .otpProgram .. | .powerTargetRun ..
  | .powerTargetDoze .. | .powerTargetHold .. | .powerTargetBackup .. | .pciEnableWrite .. | .pcieConfigRequest .. | .pcieLinkReset
  | .powerOnReset | .externalReset | .watchdogExpiry | .thermalReset | .clockLoss | .resetRelease .. | .strapRetry ..
  | .eccUncorrectable .. | .eccCorrected .. | .readingDispatch | .readingVerify .. | .counterCheck .. | .readingPosting .. | .tokenReturn
  | .fetchRetry .. | .moveReleaseQueue | .ageCheck | .copyComplete | .balanceIntervalClose | .balanceRun | .balanceReportPost
  | .campaignCheckpoint | .ethFrameRx .. | .ethLinkDown .. | .txBufferWaitExpiry .. | .lldpSend .. | .lpiIdleEntry .. | .relayFrameRx ..
  | .relayPauseHoldExpiry .. | .relayBatchClose .. | .relayAckTimeout .. | .relayBatchAck .. | .spoolDrain | .ptpMessageRx ..
  | .ptpMessageSend .. | .sourceTimeout .. | .timeWord | .rtcWrite | .leapSecond | .prlLossOfSignal | .actInQuiet | .actInEdge
  | .claimFlashWritten | .pairWatchdogExpiry | .seekWaitExpiry | .fencedExpiry | .journalBatchClose | .journalBatchRx ..
  | .journalAckRx .. | .jackTimeout .. | .swapHandover | .swapDrainExpiry | .scheduledSwapDue | .proofExpiry .. | .meaSecondEnd ..
  | .meaMinuteEnd | .eventAccept | .eventArchiveWrite | .evtBucketRefill | .archiveFlushExpiry | .pageProgramComplete
  | .programEraseFail .. | .blockCollection | .wearLevelMove | .thermalAgeTick | .retentionScan | .archiveMount .. | .overflowWriteback
  | .tamperFall | .wakePinFall | .bkpAlarm | .mainSupplyLoss | .bkpSecondTick | .bkpPowerLoss | .busMasterEnableClear
  | .archFormatComplete | .partnerEeeTlvExpiry .. => true

end Sys2Proof
end

