-- ==== Sys2Proof/Decode.lean ====
section
/-!
DEFINITION. Sys2Proof/Decode.lean: the commands that words spell by the bits of spec/opcode_table.json. No row of the table gives any
bits, so no word spells a command.
-/
namespace Sys2Proof

/-- The command a word of the table spells: none. -/
def decodeTableWord (_nbits _w : Nat) : Option Instr := none

end Sys2Proof
end

