-- ==== Sys2Proof/Config.lean ====
section
/-!
DEFINITION. Sys2Proof/Config.lean: the free values, constants without a body that stand for what the spec leaves open. No
proof can see a value of them, so a statement about one holds for every value (log entry 2).
-/
namespace Sys2Proof.Config

/-- Random draws (session numbers, heartbeat epochs, broadcast seeds), fresh at each use: applied to the model's counter. -/
opaque freeDraw : Nat → BitVec 64
/-- Queue directory beyond queue 15, fixed for a mask set and not stated (R479): producer and consumer island. -/
opaque queueProducer : Nat → BitVec 5
opaque queueConsumer : Nat → BitVec 5
/-- Depth, item size, notice mode and critical flag of the queues the spec does not describe (R479). -/
opaque queueDepth : Nat → BitVec 15
opaque queueItemMax : Nat → BitVec 4
opaque queueNotice : Nat → BitVec 2
opaque queueCrit : Nat → Bool
/-- The noise-floor estimate after a frame (R242): from the one before and the peaks of the symbols not erased. -/
opaque noiseFloor : Int → List Int → Int
/-- A value the spec states no result for: applied to a number that names the case and to the operands. -/
opaque unstated : Nat → Nat → BitVec 64

end Sys2Proof.Config
end

