-- ==== Sys2Proof/Machine/Bits.lean ====
section
/-!
DEFINITION. Sys2Proof/Machine/Bits.lean: bit fields, byte strings (big-endian, R10), saturating counts and signed arithmetic.
-/
namespace Sys2Proof.Machine

/-- Bits [hi:lo] of a word, as a number. -/
def bits (w : W32) (hi lo : Nat) : Nat := (w.toNat >>> lo) % 2 ^ (hi - lo + 1)

/-- One bit of a word. -/
def bit (w : W32) (i : Nat) : Bool := w.getLsbD i

/-- The word with bits [hi:lo] set to `v`. -/
def setBits (w : W32) (hi lo v : Nat) : W32 :=
  let m := BitVec.ofNat 32 ((2 ^ (hi - lo + 1) - 1) <<< lo)
  (w &&& ~~~m) ||| (BitVec.ofNat 32 ((v % 2 ^ (hi - lo + 1)) <<< lo))

/-- A Bool as a bit. -/
def b2n (b : Bool) : Nat := if b then 1 else 0

/-- Saturating 32-bit increment by `n`. -/
def satAdd (w : W32) (n : Nat) : W32 :=
  if w.toNat + n ≥ 2 ^ 32 then BitVec.ofNat 32 (2 ^ 32 - 1) else BitVec.ofNat 32 (w.toNat + n)

/-- The nearer limit of a range. -/
def clampN (lo hi v : Nat) : Nat := if v < lo then lo else if hi < v then hi else v

/-- The nearer limit of a signed range. -/
def clampI (lo hi v : Int) : Int := if v < lo then lo else if hi < v then hi else v

/-- `n` bytes of `v`, big-endian (R10). -/
def be : Nat → Nat → List Byte
  | 0, _ => []
  | n + 1, v => BitVec.ofNat 8 (v / 2 ^ (8 * n)) :: be n v

/-- The number a big-endian byte string spells. -/
def beVal (l : List Byte) : Nat := l.foldl (fun a b => a * 256 + b.toNat) 0

/-- Bytes padded with zeros, or cut, to a length. -/
def padTo (n : Nat) (l : List Byte) : List Byte := (l ++ List.replicate (n - l.length) 0#8).take n

/-- `n` bytes of a signed value, two's complement. -/
def beI (n : Nat) (v : Int) : List Byte := be n ((v % (2 ^ (8 * n) : Nat)).toNat)

/-- A signed number from `n` bits of two's complement. -/
def sext (n v : Nat) : Int := if v % 2 ^ n ≥ 2 ^ (n - 1) then (v % 2 ^ n : Int) - 2 ^ n else (v % 2 ^ n : Int)

/-- A signed number as a 32-bit word. -/
def wordI (v : Int) : W32 := BitVec.ofInt 32 v

/-- Signed value saturated to 32 bits. -/
def satI32 (v : Int) : Int := clampI (-2147483648) 2147483647 v

/-- The field of `len` bytes at byte `off` of a record image, byte 0 first (R48, R10). -/
def fld (r : RecImg) (off len : Nat) : Nat := (r.toNat >>> (8 * (256 - off - len))) % 2 ^ (8 * len)

/-- The record image with the field of `len` bytes at byte `off` set. -/
def setFld (r : RecImg) (off len v : Nat) : RecImg :=
  let sh := 8 * (256 - off - len)
  let m : RecImg := BitVec.ofNat 2048 ((2 ^ (8 * len) - 1) <<< sh)
  (r &&& ~~~m) ||| BitVec.ofNat 2048 ((v % 2 ^ (8 * len)) <<< sh)

/-- The 256 bytes of a record image. -/
def recBytes (r : RecImg) : List Byte := be 256 r.toNat

end Sys2Proof.Machine
end

