-- ==== Sys2Proof/Machine/RegMap.lean ====
section
/-!
DEFINITION. Sys2Proof/Machine/RegMap.lean: the set-up register map. Every register of the spec's field maps with its reset
word, its fields, their access classes (R12), their range rules and its survival class (R14, R547, R548). The tables
follow the field maps of the chapters (00 to 17); the lookup at the end places them in the 1 MiB space (R535).
-/
namespace Sys2Proof.Machine

/-- Access classes of R12. -/
inductive Acc where
  | rw | ro | w1c | wo | lk | au
  deriving DecidableEq, Repr

/-- Survival classes of R14. -/
inductive Surv where
  | b | p | s | v
  deriving DecidableEq, Repr

/-- What the unit stores for a written value: the range rules the field maps state. -/
inductive RangeRule where
  /-- The full field: every value is stored as written. -/
  | full
  /-- Out-of-range values are stored as the nearer limit. -/
  | clamp (lo hi : Nat)
  /-- Codes above `top` are stored as `dflt`. -/
  | code (top dflt : Nat)
  /-- Writing `v` leaves the field unchanged and records an event. -/
  | keep (v : Nat)
  /-- A written 0 is stored as `d`. -/
  | zeroTo (d : Nat)
  /-- CTL_BAL_CONFIG.INTERVAL_MIN: the largest divisor of 1,440 at or below the value, 0 as 1 (R189). -/
  | divisor
  /-- A completion ring number, or 0xFF: 32 to 254 are stored as 0xFF (R417). -/
  | ring
  /-- The range depends on another field of the unit; `fixDependents` applies it after the write (R571). -/
  | dep
  deriving DecidableEq, Repr

/-- One field of a register. -/
structure Fld where
  hi : Nat
  lo : Nat
  acc : Acc
  rule : RangeRule
  deriving DecidableEq, Repr

/-- One register: offset within its block, reset word, survival class and fields. Bits no field covers are reserved. -/
structure RegDef where
  off : Nat
  reset : Nat
  surv : Surv
  flds : List Fld
  deriving DecidableEq, Repr

/-- A counter register: COUNT [31:0], RW, reset 0 (R544). -/
def cntReg (sv : Surv) (off : Nat) : RegDef := ⟨off, 0, sv, [⟨31, 0, .rw, .full⟩]⟩

/-- A read-only word, reset 0. -/
def roReg (off : Nat) : RegDef := ⟨off, 0, .v, [⟨31, 0, .ro, .full⟩]⟩

/-- Registers of the CTL block, by their field maps (part 1). -/
def ctlRegs1 : List RegDef := [
  -- CTL_DEVICE_ID
  ⟨0x000, 0x8620B200, .v, [⟨31, 16, .ro, .full⟩, ⟨15, 8, .ro, .full⟩]⟩,
  -- CTL_SETUP_LOCK
  ⟨0x010, 0x00000000, .s, [⟨0, 0, .lk, .full⟩]⟩,
  -- CTL_SERVICE
  ⟨0x040, 0x00020000, .v, [⟨23, 20, .ro, .full⟩, ⟨17, 16, .ro, .full⟩, ⟨5, 4, .ro, .full⟩, ⟨3, 2, .ro, .full⟩, ⟨1, 0, .ro, .full⟩]⟩,
  -- CTL_PROFILE
  ⟨0x044, 0x00000000, .v, [⟨31, 31, .ro, .full⟩, ⟨17, 16, .ro, .full⟩, ⟨9, 8, .au, .keep 3⟩]⟩,
  -- CTL_ABSENT_ACCESS
  ⟨0x048, 0x00000000, .v, [⟨31, 0, .rw, .full⟩]⟩,
  -- CTL_RAW_NS
  ⟨0x080, 0x00000000, .v, [⟨31, 0, .ro, .full⟩]⟩,
  -- CTL_TBL_CONFIG
  ⟨0x200, 0x000E0604, .v, [⟨23, 16, .ro, .full⟩, ⟨11, 8, .lk, .full⟩, ⟨2, 2, .lk, .full⟩, ⟨1, 1, .ro, .full⟩]⟩,
  -- CTL_TBL_AGE
  ⟨0x204, 0x00A81818, .v, [⟨31, 16, .lk, .full⟩, ⟨15, 8, .lk, .full⟩, ⟨7, 0, .lk, .full⟩]⟩,
  -- CTL_TBL_USED
  ⟨0x208, 0x00000000, .v, [⟨21, 0, .ro, .full⟩]⟩,
  -- CTL_TBL_SALT_FP
  ⟨0x20C, 0x00000000, .v, [⟨31, 0, .ro, .full⟩]⟩,
  -- CTL_PIPE_CONFIG
  ⟨0x300, 0x00A83C04, .v, [⟨31, 16, .lk, .full⟩, ⟨15, 8, .lk, .clamp 1 255⟩, ⟨2, 2, .lk, .full⟩, ⟨1, 1, .lk, .full⟩, ⟨0, 0, .lk, .full⟩]⟩,
  -- CTL_PIPE_ALIGN
  ⟨0x304, 0x13880000, .v, [⟨31, 16, .lk, .clamp 1 65535⟩]⟩]

/-- Registers of the CTL block, by their field maps (part 2). -/
def ctlRegs2 : List RegDef := [
  -- CTL_PIPE_FLOW
  ⟨0x308, 0x03000200, .v, [⟨25, 16, .lk, .clamp 64 1000⟩, ⟨9, 0, .lk, .dep⟩]⟩,
  -- CTL_PIPE_SIG
  ⟨0x30C, 0x00000200, .v, [⟨12, 0, .lk, .clamp 16 4096⟩]⟩,
  -- CTL_PIPE_TOKENS
  ⟨0x310, 0x00001000, .v, [⟨28, 16, .ro, .full⟩, ⟨12, 0, .ro, .full⟩]⟩,
  -- CTL_PIPE_IQ_STATUS
  ⟨0x314, 0x00000000, .v, [⟨15, 8, .ro, .full⟩, ⟨7, 0, .ro, .full⟩]⟩,
  -- CTL_RULE_CONFIG
  ⟨0x400, 0x00000001, .v, [⟨3, 2, .lk, .code 2 0⟩, ⟨0, 0, .lk, .full⟩]⟩,
  -- CTL_RULE_LOAD_STATUS
  ⟨0x404, 0x00000000, .v, [⟨31, 24, .ro, .full⟩, ⟨21, 16, .ro, .full⟩, ⟨7, 0, .ro, .full⟩]⟩,
  -- CTL_RULE_ACTIVE
  ⟨0x408, 0x00000000, .v, [⟨8, 0, .ro, .full⟩]⟩,
  -- CTL_BAL_CONFIG
  ⟨0x500, 0x2001000F, .v, [⟨31, 31, .lk, .full⟩, ⟨30, 29, .au, .full⟩, ⟨23, 16, .lk, .full⟩, ⟨10, 0, .lk, .divisor⟩]⟩,
  -- CTL_BAL_ALIGN
  ⟨0x504, 0x27100514, .v, [⟨31, 16, .au, .clamp 10 65534⟩, ⟨15, 8, .au, .clamp 0 100⟩, ⟨7, 0, .au, .clamp 0 100⟩]⟩,
  -- CTL_BAL_UNC_REF
  ⟨0x508, 0x07D01388, .v, [⟨31, 16, .au, .full⟩, ⟨15, 0, .au, .full⟩]⟩,
  -- CTL_BAL_UNC_METER
  ⟨0x50C, 0x138803E8, .v, [⟨31, 16, .au, .full⟩, ⟨15, 0, .au, .full⟩]⟩,
  -- CTL_BAL_LOC
  ⟨0x510, 0x32066000, .v, [⟨31, 24, .au, .clamp 1 100⟩, ⟨19, 16, .au, .clamp 3 10⟩, ⟨15, 12, .au, .clamp 2 12⟩]⟩]

/-- Registers of the CTL block, by their field maps (part 3). -/
def ctlRegs3 : List RegDef := [
  -- CTL_BAL_CORR_A
  ⟨0x514, 0x59994CCD, .v, [⟨31, 16, .au, .clamp 0 32767⟩, ⟨15, 0, .au, .clamp 0 32767⟩]⟩,
  -- CTL_BAL_CORR_B
  ⟨0x518, 0x40006666, .v, [⟨31, 16, .au, .clamp 0 32767⟩, ⟨15, 0, .au, .clamp 0 32767⟩]⟩,
  -- CTL_BAL_PHASE
  ⟨0x51C, 0x18148000, .v, [⟨31, 22, .au, .clamp 16 1023⟩, ⟨21, 16, .au, .clamp 1 59⟩, ⟨15, 8, .au, .full⟩]⟩,
  -- CTL_BAL_WEIGHT
  ⟨0x520, 0x80604030, .v, [⟨31, 24, .au, .full⟩, ⟨23, 16, .au, .full⟩, ⟨15, 8, .au, .full⟩, ⟨7, 0, .au, .full⟩]⟩,
  -- CTL_BAL_SCORE
  ⟨0x524, 0x40100000, .v, [⟨31, 24, .au, .full⟩, ⟨23, 16, .au, .full⟩]⟩,
  -- CTL_BAL_NOTIFY
  ⟨0x528, 0x04000400, .v, [⟨31, 16, .au, .full⟩, ⟨15, 0, .au, .full⟩]⟩,
  -- CTL_BAL_STATUS
  ⟨0x530, 0x00000000, .v, [⟨31, 31, .ro, .full⟩, ⟨30, 30, .ro, .full⟩, ⟨29, 29, .ro, .full⟩, ⟨15, 0, .ro, .full⟩]⟩,
  -- CTL_BAL_RUN_SEQ
  ⟨0x534, 0x00000000, .v, [⟨31, 0, .ro, .full⟩]⟩,
  -- CTL_BAL_TOPO_STATUS
  ⟨0x538, 0x00000000, .v, [⟨31, 24, .ro, .full⟩, ⟨15, 0, .ro, .full⟩]⟩,
  -- CTL_CAMP_CONFIG
  ⟨0x600, 0x0821012C, .v, [⟨31, 24, .lk, .clamp 0 64⟩, ⟨23, 20, .lk, .full⟩, ⟨19, 12, .lk, .clamp 1 255⟩, ⟨11, 0, .lk, .clamp 60 4095⟩]⟩,
  -- CTL_CAMP_PACE
  ⟨0x604, 0x04080800, .v, [⟨31, 24, .au, .full⟩, ⟨23, 16, .au, .full⟩, ⟨15, 8, .au, .clamp 1 255⟩]⟩,
  -- CTL_CAMP_TIMING
  ⟨0x608, 0x0078003C, .v, [⟨31, 16, .lk, .clamp 10 65535⟩, ⟨15, 0, .lk, .clamp 10 3600⟩]⟩]

/-- Registers of the CTL block, by their field maps (part 4). -/
def ctlRegs4 : List RegDef := [
  -- CTL_CAMP_STATUS
  ⟨0x610, 0x00000000, .v, [⟨31, 9, .ro, .full⟩, ⟨6, 0, .ro, .full⟩]⟩,
  -- CTL_CAMP_STORE
  ⟨0x614, 0x00000000, .v, [⟨31, 16, .ro, .full⟩, ⟨15, 0, .ro, .full⟩]⟩,
  -- CTL_RELAY_CONFIG
  ⟨0x700, 0x12710010, .v, [⟨31, 16, .lk, .zeroTo 4721⟩, ⟨15, 14, .lk, .code 2 0⟩, ⟨13, 13, .lk, .full⟩, ⟨7, 0, .lk, .clamp 1 64⟩]⟩,
  -- CTL_RELAY_TIMING
  ⟨0x704, 0x12C33202, .v, [⟨31, 20, .lk, .clamp 20 4095⟩, ⟨19, 16, .lk, .clamp 1 15⟩, ⟨15, 8, .lk, .clamp 1 255⟩, ⟨7, 0, .lk, .clamp 1 255⟩]⟩,
  -- CTL_RELAY_STATUS
  ⟨0x708, 0x00000000, .v, [⟨31, 31, .ro, .full⟩, ⟨30, 29, .ro, .full⟩, ⟨28, 27, .ro, .full⟩, ⟨26, 26, .ro, .full⟩, ⟨12, 0, .ro, .full⟩]⟩,
  -- CTL_RELAY_HOLD
  ⟨0x70C, 0x00000000, .v, [⟨31, 16, .ro, .full⟩, ⟨15, 0, .ro, .full⟩]⟩,
  -- CTL_MGMT_CONFIG
  ⟨0x800, 0x127407D0, .v, [⟨31, 16, .lk, .zeroTo 4724⟩, ⟨15, 15, .lk, .full⟩, ⟨11, 0, .lk, .clamp 1 4095⟩]⟩,
  -- CTL_MGMT_RX
  ⟨0x810, 0x00000000, .v, [⟨31, 0, .rw, .full⟩]⟩,
  -- CTL_MGMT_RATE_DROP
  ⟨0x814, 0x00000000, .v, [⟨31, 0, .rw, .full⟩]⟩,
  -- CTL_MGMT_BAD
  ⟨0x818, 0x00000000, .v, [⟨31, 0, .rw, .full⟩]⟩,
  -- CTL_Q_SEL
  ⟨0x900, 0x00000000, .v, [⟨7, 0, .rw, .full⟩]⟩,
  -- CTL_Q_INFO
  ⟨0x904, 0x00000000, .v, [⟨31, 27, .ro, .full⟩, ⟨26, 22, .ro, .full⟩, ⟨21, 21, .ro, .full⟩, ⟨20, 19, .ro, .full⟩, ⟨18, 15, .ro, .full⟩, ⟨14, 0, .ro, .full⟩]⟩]

/-- Registers of the CTL block, by their field maps (part 5). -/
def ctlRegs5 : List RegDef := [
  -- CTL_Q_FILL
  ⟨0x908, 0x00000000, .v, [⟨31, 31, .ro, .full⟩, ⟨29, 15, .ro, .full⟩, ⟨14, 0, .ro, .full⟩]⟩,
  -- CTL_Q_LOST_ITEMS
  ⟨0x90C, 0x00000000, .v, [⟨31, 0, .ro, .full⟩]⟩,
  -- CTL_Q_LOST_PKTS
  ⟨0x910, 0x00000000, .v, [⟨31, 0, .ro, .full⟩]⟩,
  -- CTL_Q_FLUSHES
  ⟨0x914, 0x00000000, .v, [⟨31, 0, .ro, .full⟩]⟩]

/-- Registers of the CTL block, by their field maps. -/
def ctlRegs : List RegDef := ctlRegs1 ++ ctlRegs2 ++ ctlRegs3 ++ ctlRegs4 ++ ctlRegs5

/-- Registers of the PLC block, by their field maps. -/
def plcRegs : List RegDef := [
  -- PLC_CONFIG
  ⟨0x000, 0x00000000, .v, [⟨31, 31, .lk, .full⟩, ⟨30, 29, .lk, .code 1 0⟩, ⟨15, 0, .lk, .keep 65535⟩]⟩,
  -- PLC_TX
  ⟨0x004, 0x00000005, .v, [⟨12, 8, .lk, .full⟩, ⟨2, 0, .lk, .full⟩]⟩,
  -- PLC_ADAPT
  ⟨0x008, 0x4028143C, .v, [⟨31, 24, .lk, .full⟩, ⟨23, 16, .lk, .full⟩, ⟨15, 8, .lk, .full⟩, ⟨7, 0, .lk, .clamp 1 255⟩]⟩,
  -- PLC_IMP
  ⟨0x00C, 0x18320000, .v, [⟨31, 24, .lk, .clamp 12 255⟩, ⟨23, 16, .lk, .clamp 1 100⟩]⟩,
  -- PLC_ZC_CFG
  ⟨0x010, 0x012C0000, .v, [⟨31, 16, .lk, .clamp 10 65535⟩, ⟨1, 0, .lk, .full⟩]⟩,
  -- PLC_ZC_STATUS
  ⟨0x014, 0x80000000, .v, [⟨31, 31, .ro, .full⟩, ⟨15, 0, .ro, .full⟩]⟩,
  -- PLC_ROUTE
  ⟨0x018, 0x01680008, .v, [⟨31, 16, .lk, .clamp 1 65535⟩, ⟨3, 0, .lk, .clamp 1 14⟩]⟩,
  -- PLC_FP
  ⟨0x01C, 0x40100018, .v, [⟨31, 28, .lk, .clamp 1 8⟩, ⟨23, 16, .lk, .clamp 1 255⟩, ⟨15, 0, .lk, .clamp 1 65535⟩]⟩,
  -- PLC_NET
  ⟨0x020, 0x00180800, .v, [⟨31, 16, .lk, .full⟩, ⟨11, 0, .lk, .clamp 1 2048⟩]⟩,
  -- PLC_STATUS
  ⟨0x030, 0x00000000, .v, [⟨31, 31, .ro, .full⟩, ⟨27, 16, .ro, .full⟩, ⟨11, 0, .ro, .full⟩]⟩]

/-- Registers of the RF block, by their field maps. -/
def rfRegs : List RegDef := [
  -- RF_CONFIG
  ⟨0x000, 0x04000000, .v, [⟨31, 31, .lk, .full⟩, ⟨30, 29, .lk, .code 1 0⟩, ⟨28, 27, .lk, .code 2 0⟩, ⟨26, 25, .lk, .clamp 1 3⟩, ⟨15, 0, .lk, .keep 65535⟩]⟩,
  -- RF_FRAME
  ⟨0x004, 0x01900003, .v, [⟨26, 16, .lk, .clamp 127 2047⟩, ⟨12, 8, .lk, .full⟩, ⟨3, 3, .lk, .full⟩, ⟨2, 0, .lk, .full⟩]⟩,
  -- RF_SLOTFRAME
  ⟨0x008, 0x6555707F, .v, [⟨31, 24, .lk, .clamp 17 255⟩, ⟨23, 12, .lk, .clamp 16 4095⟩, ⟨11, 0, .lk, .clamp 16 4095⟩]⟩,
  -- RF_CELLS
  ⟨0x00C, 0x71201000, .v, [⟨31, 28, .lk, .clamp 1 15⟩, ⟨27, 24, .lk, .clamp 1 15⟩, ⟨23, 16, .lk, .clamp 1 255⟩, ⟨12, 0, .lk, .clamp 1 4096⟩]⟩,
  -- RF_SYNC
  ⟨0x010, 0x03E88018, .v, [⟨31, 16, .lk, .clamp 500 1000⟩, ⟨15, 12, .lk, .clamp 1 15⟩, ⟨7, 0, .lk, .full⟩]⟩,
  -- RF_PARENT
  ⟨0x014, 0xFFFFFFFF, .v, [⟨31, 16, .lk, .full⟩, ⟨15, 0, .lk, .full⟩]⟩,
  -- RF_STATUS
  ⟨0x018, 0x00000000, .v, [⟨31, 31, .ro, .full⟩, ⟨30, 28, .ro, .full⟩, ⟨27, 24, .ro, .full⟩, ⟨23, 22, .ro, .full⟩, ⟨21, 13, .ro, .full⟩, ⟨12, 0, .ro, .full⟩]⟩,
  -- RF_TIMING
  ⟨0x01C, 0x00000000, .v, [⟨24, 16, .ro, .full⟩, ⟨7, 0, .ro, .full⟩]⟩]

/-- Registers of the ETH block, by their field maps. -/
def ethRegs : List RegDef := [
  -- ETH_CONFIG
  ⟨0x000, 0x005F2000, .v, [⟨31, 31, .lk, .full⟩, ⟨30, 28, .lk, .code 2 0⟩, ⟨25, 12, .lk, .clamp 1518 9022⟩, ⟨11, 0, .lk, .keep 4095⟩]⟩,
  -- ETH_FILTER_CTL
  ⟨0x004, 0x00000001, .v, [⟨0, 0, .lk, .full⟩]⟩,
  -- ETH_EEE
  ⟨0x008, 0x801E6400, .v, [⟨31, 31, .lk, .full⟩, ⟨23, 16, .lk, .clamp 5 255⟩, ⟨15, 8, .lk, .clamp 1 255⟩, ⟨7, 0, .lk, .full⟩]⟩,
  -- ETH_STATUS
  ⟨0x00C, 0x00000000, .v, [⟨31, 31, .ro, .full⟩, ⟨30, 28, .ro, .full⟩, ⟨27, 27, .ro, .full⟩, ⟨26, 26, .ro, .full⟩, ⟨15, 0, .ro, .full⟩]⟩,
  -- ETH_STAT_HALF0
  ⟨0x010, 0x00000000, .v, [⟨31, 0, .w1c, .full⟩]⟩,
  -- ETH_STAT_HALF1
  ⟨0x014, 0x00000000, .v, [⟨15, 0, .w1c, .full⟩]⟩,
  -- ETH_STAT_IE0
  ⟨0x018, 0xFFFFFFFF, .v, [⟨31, 0, .rw, .full⟩]⟩,
  -- ETH_STAT_IE1
  ⟨0x01C, 0x0000FFFF, .v, [⟨15, 0, .rw, .full⟩]⟩]

/-- Registers of the TIM block, by their field maps (part 1). -/
def timRegs1 : List RegDef := [
  -- TIM_CONFIG
  ⟨0x000, 0x07008080, .v, [⟨31, 30, .lk, .code 1 0⟩, ⟨29, 28, .lk, .code 2 0⟩, ⟨27, 27, .lk, .full⟩, ⟨26, 26, .lk, .full⟩, ⟨25, 24, .lk, .full⟩, ⟨23, 16, .lk, .full⟩, ⟨15, 8, .lk, .full⟩, ⟨7, 0, .lk, .full⟩]⟩,
  -- TIM_STEP_THRESH
  ⟨0x004, 0x000F4240, .v, [⟨31, 0, .lk, .clamp 1000 1000000000⟩]⟩,
  -- TIM_SERVO
  ⟨0x008, 0x03E81000, .v, [⟨31, 16, .lk, .clamp 10 65535⟩, ⟨15, 8, .lk, .clamp 1 255⟩]⟩,
  -- TIM_HOLD
  ⟨0x00C, 0x00640000, .v, [⟨31, 16, .lk, .full⟩]⟩,
  -- TIM_UTC
  ⟨0x010, 0x00000000, .v, [⟨31, 31, .ro, .full⟩, ⟨15, 0, .ro, .full⟩]⟩,
  -- TIM_STATUS
  ⟨0x014, 0x00000000, .v, [⟨31, 28, .ro, .full⟩, ⟨27, 25, .ro, .full⟩, ⟨24, 24, .ro, .full⟩, ⟨23, 23, .ro, .full⟩]⟩,
  -- TIM_OFFSET
  ⟨0x018, 0x00000000, .v, [⟨31, 0, .ro, .full⟩]⟩,
  -- TIM_RATE
  ⟨0x01C, 0x00000000, .v, [⟨31, 0, .ro, .full⟩]⟩,
  -- TIM_NOW_NS
  ⟨0x020, 0x00000000, .v, [⟨29, 0, .ro, .full⟩]⟩,
  -- TIM_NOW_S_LO
  ⟨0x024, 0x00000000, .v, [⟨31, 0, .ro, .full⟩]⟩,
  -- TIM_NOW_S_HI
  ⟨0x028, 0x00000000, .v, [⟨15, 0, .ro, .full⟩]⟩,
  -- TIM_NOW_FRAC
  ⟨0x02C, 0x00000000, .v, [⟨15, 0, .ro, .full⟩]⟩]

/-- Registers of the TIM block, by their field maps (part 2). -/
def timRegs2 : List RegDef := [
  -- TIM_PHY_CORR_0
  ⟨0x030, 0x00000000, .v, [⟨31, 16, .lk, .full⟩, ⟨15, 0, .lk, .full⟩]⟩,
  -- TIM_PHY_CORR_1
  ⟨0x034, 0x00000000, .v, [⟨31, 16, .lk, .full⟩, ⟨15, 0, .lk, .full⟩]⟩,
  -- TIM_HOLD_ERR
  ⟨0x038, 0x00000000, .v, [⟨31, 0, .ro, .full⟩]⟩]

/-- Registers of the TIM block, by their field maps. -/
def timRegs : List RegDef := timRegs1 ++ timRegs2

/-- Registers of the PRL block, by their field maps. -/
def prlRegs : List RegDef := [
  -- PRL_CONFIG
  ⟨0x000, 0x00000308, .v, [⟨31, 31, .lk, .full⟩, ⟨30, 30, .ro, .full⟩, ⟨27, 16, .ro, .full⟩, ⟨15, 8, .lk, .clamp 1 255⟩, ⟨7, 0, .lk, .clamp 1 64⟩]⟩,
  -- PRL_HB
  ⟨0x004, 0x3E830A0A, .v, [⟨31, 20, .lk, .clamp 100 4095⟩, ⟨19, 16, .lk, .clamp 2 15⟩, ⟨15, 8, .lk, .clamp 1 255⟩, ⟨7, 0, .lk, .clamp 5 255⟩]⟩,
  -- PRL_TIMEOUT
  ⟨0x008, 0x05140000, .v, [⟨31, 24, .lk, .clamp 1 255⟩, ⟨23, 16, .lk, .clamp 1 255⟩]⟩,
  -- PRL_SWAP
  ⟨0x00C, 0x00A8012C, .v, [⟨31, 16, .au, .full⟩, ⟨15, 0, .au, .clamp 10 65535⟩]⟩,
  -- PRL_PROVE
  ⟨0x010, 0x00640E10, .v, [⟨31, 16, .au, .full⟩, ⟨15, 0, .au, .dep⟩]⟩,
  -- PRL_STATUS
  ⟨0x014, 0x10000000, .v, [⟨31, 28, .ro, .full⟩, ⟨27, 27, .ro, .full⟩, ⟨26, 26, .ro, .full⟩, ⟨25, 25, .ro, .full⟩, ⟨24, 24, .ro, .full⟩, ⟨23, 23, .ro, .full⟩, ⟨22, 22, .ro, .full⟩, ⟨21, 21, .ro, .full⟩, ⟨20, 20, .ro, .full⟩, ⟨19, 19, .ro, .full⟩, ⟨15, 12, .ro, .full⟩, ⟨11, 8, .ro, .full⟩, ⟨7, 0, .ro, .full⟩]⟩,
  -- PRL_CLAIM
  ⟨0x018, 0x00000000, .v, [⟨31, 0, .ro, .full⟩]⟩,
  -- PRL_PARTNER_CLAIM
  ⟨0x01C, 0x00000000, .v, [⟨31, 0, .ro, .full⟩]⟩]

/-- Registers of the PCI block, by their field maps. -/
def pciRegs : List RegDef := [
  -- PCI_CTL
  ⟨0x000, 0x00000000, .v, [⟨31, 31, .rw, .full⟩]⟩,
  -- PCI_STATUS
  ⟨0x004, 0x00000000, .v, [⟨31, 31, .ro, .full⟩, ⟨30, 30, .ro, .full⟩, ⟨29, 29, .ro, .full⟩, ⟨23, 20, .ro, .full⟩, ⟨19, 16, .ro, .full⟩]⟩,
  -- PCI_DB_ADDR_LO
  ⟨0x008, 0x00000000, .v, [⟨31, 8, .rw, .full⟩]⟩,
  -- PCI_DB_ADDR_HI
  ⟨0x00C, 0x00000000, .v, [⟨31, 0, .rw, .full⟩]⟩,
  -- PCI_ST_ADDR_LO
  ⟨0x010, 0x00000000, .v, [⟨31, 8, .rw, .full⟩]⟩,
  -- PCI_ST_ADDR_HI
  ⟨0x014, 0x00000000, .v, [⟨31, 0, .rw, .full⟩]⟩,
  -- PCI_POLL
  ⟨0x018, 0x021403E8, .v, [⟨31, 24, .rw, .clamp 1 255⟩, ⟨23, 16, .rw, .dep⟩, ⟨15, 0, .rw, .clamp 1 65535⟩]⟩,
  -- PCI_HOLD
  ⟨0x01C, 0x00000064, .v, [⟨15, 0, .rw, .clamp 10 65535⟩]⟩,
  -- PCI_READ_RINGS
  ⟨0x020, 0x00000000, .v, [⟨31, 0, .rw, .full⟩]⟩,
  -- PCI_NOTICE_RINGS
  ⟨0x024, 0xFFFFFFFF, .v, [⟨31, 24, .rw, .ring⟩, ⟨23, 16, .rw, .ring⟩, ⟨15, 8, .rw, .ring⟩, ⟨7, 0, .rw, .ring⟩]⟩]

/-- Registers of the SEC block, by their field maps. -/
def secRegs : List RegDef := [
  -- SEC_TAMPER_CFG
  ⟨0x000, 0x00000000, .v, [⟨1, 0, .lk, .code 2 2⟩]⟩,
  -- SEC_STATUS
  ⟨0x004, 0x00000000, .v, [⟨31, 31, .ro, .full⟩, ⟨30, 30, .ro, .full⟩, ⟨29, 29, .ro, .full⟩, ⟨6, 0, .ro, .full⟩]⟩,
  -- SEC_CMD_AUTH_FAIL
  ⟨0x040, 0x00000000, .v, [⟨31, 0, .rw, .full⟩]⟩,
  -- SEC_CMD_STALE
  ⟨0x044, 0x00000000, .v, [⟨31, 0, .rw, .full⟩]⟩,
  -- SEC_ZEROISE_COUNT
  ⟨0x048, 0x00000000, .v, [⟨31, 0, .rw, .full⟩]⟩]

/-- Registers of the FLS block, by their field maps. -/
def flsRegs : List RegDef := [
  -- FLS_CONFIG
  ⟨0x000, 0x01040100, .v, [⟨31, 31, .lk, .full⟩, ⟨30, 30, .lk, .full⟩, ⟨27, 24, .lk, .clamp 1 15⟩, ⟨23, 16, .lk, .clamp 1 20⟩, ⟨15, 0, .lk, .clamp 32 65535⟩]⟩,
  -- FLS_ZONES
  ⟨0x004, 0x00100400, .v, [⟨31, 16, .lk, .clamp 0 1024⟩, ⟨15, 8, .lk, .clamp 0 64⟩]⟩,
  -- FLS_REFRESH
  ⟨0x008, 0x4B00641A, .v, [⟨31, 24, .lk, .clamp 25 95⟩, ⟨23, 8, .lk, .clamp 1 65535⟩, ⟨7, 0, .lk, .clamp 1 255⟩]⟩,
  -- FLS_WEAR
  ⟨0x00C, 0x00C80000, .v, [⟨31, 16, .lk, .clamp 16 65535⟩, ⟨15, 0, .ro, .full⟩]⟩,
  -- FLS_STATUS
  ⟨0x010, 0x00000000, .v, [⟨31, 28, .ro, .full⟩, ⟨27, 26, .ro, .full⟩, ⟨15, 8, .ro, .full⟩, ⟨7, 0, .ro, .full⟩]⟩,
  -- FLS_OVF_USED
  ⟨0x014, 0x00000000, .v, [⟨20, 0, .ro, .full⟩]⟩,
  -- FLS_DURABLE_SEQ_LO
  ⟨0x018, 0x00000000, .v, [⟨31, 0, .ro, .full⟩]⟩,
  -- FLS_DURABLE_SEQ_HI
  ⟨0x01C, 0x00000000, .v, [⟨31, 0, .ro, .full⟩]⟩]

/-- Registers of the MEA block, by their field maps. -/
def meaRegs : List RegDef := [
  -- MEA_CONFIG
  ⟨0x000, 0x005A6E05, .v, [⟨31, 31, .lk, .full⟩, ⟨30, 29, .lk, .full⟩, ⟨28, 28, .lk, .full⟩, ⟨23, 16, .lk, .clamp 10 99⟩, ⟨15, 8, .lk, .clamp 101 200⟩, ⟨7, 0, .lk, .dep⟩]⟩,
  -- MEA_MOD_STATUS
  ⟨0x004, 0x00000000, .v, [⟨31, 0, .ro, .full⟩]⟩]

/-- Registers of the EVT block, by their field maps. -/
def evtRegs : List RegDef := [
  -- EVT_CONFIG
  ⟨0x000, 0x03E80810, .v, [⟨31, 31, .lk, .full⟩, ⟨27, 16, .lk, .clamp 64 4095⟩, ⟨15, 8, .lk, .clamp 1 255⟩, ⟨7, 0, .lk, .clamp 1 255⟩]⟩,
  -- EVT_STATUS
  ⟨0x004, 0x00000000, .v, [⟨31, 31, .ro, .full⟩, ⟨9, 0, .ro, .full⟩]⟩,
  -- EVT_LAST_SEQ_LO
  ⟨0x008, 0x00000000, .v, [⟨31, 0, .ro, .full⟩]⟩,
  -- EVT_LAST_SEQ_HI
  ⟨0x00C, 0x00000000, .v, [⟨31, 0, .ro, .full⟩]⟩,
  -- EVT_OLDEST_SEQ_LO
  ⟨0x010, 0x00000000, .v, [⟨31, 0, .ro, .full⟩]⟩,
  -- EVT_OLDEST_SEQ_HI
  ⟨0x014, 0x00000000, .v, [⟨31, 0, .ro, .full⟩]⟩]

/-- Registers of the BKP block, by their field maps. -/
def bkpRegs : List RegDef := [
  -- BKP_STATUS
  ⟨0x000, 0x00000000, .b, [⟨31, 31, .ro, .full⟩, ⟨30, 30, .ro, .full⟩, ⟨29, 29, .ro, .full⟩, ⟨28, 28, .ro, .full⟩]⟩,
  -- BKP_LAST_CAUSE
  ⟨0x004, 0x00020001, .b, [⟨17, 17, .ro, .full⟩, ⟨16, 16, .ro, .full⟩, ⟨15, 8, .ro, .full⟩, ⟨7, 0, .ro, .full⟩]⟩,
  -- BKP_RTC_LO
  ⟨0x008, 0x00000000, .b, [⟨31, 0, .ro, .full⟩]⟩,
  -- BKP_RTC_HI
  ⟨0x00C, 0x00000000, .b, [⟨15, 0, .ro, .full⟩]⟩,
  -- BKP_OP_SECONDS
  ⟨0x010, 0x00000000, .b, [⟨31, 0, .ro, .full⟩]⟩,
  -- BKP_POWER_CYCLES
  ⟨0x014, 0x00000000, .b, [⟨31, 0, .ro, .full⟩]⟩,
  -- BKP_WAKE
  ⟨0x018, 0x00000002, .b, [⟨1, 1, .au, .full⟩, ⟨0, 0, .au, .full⟩]⟩,
  -- BKP_ALARM
  ⟨0x01C, 0x00000000, .b, [⟨31, 0, .au, .full⟩]⟩]

/-- Registers of the RST block, by their field maps (part 1). -/
def rstRegs1 : List RegDef := [
  -- RST_STRAP
  ⟨0x000, 0x00000000, .v, [⟨31, 31, .ro, .full⟩, ⟨13, 8, .ro, .full⟩, ⟨7, 4, .ro, .full⟩, ⟨3, 2, .ro, .full⟩]⟩,
  -- RST_UNIT
  ⟨0x004, 0x00000000, .v, [⟨17, 16, .au, .code 1 0⟩, ⟨15, 0, .au, .full⟩]⟩,
  -- RST_SW_RESET
  ⟨0x008, 0x00000000, .s, (List.range 22).map fun i => ⟨i + 2, i + 2, .au, .full⟩⟩,
  -- RST_WDT
  ⟨0x00C, 0x03E81800, .v, [⟨31, 16, .lk, .clamp 100 65535⟩, ⟨15, 8, .lk, .full⟩]⟩,
  -- RST_TRIM_STATUS0
  ⟨0x010, 0x00000000, .v, [⟨31, 0, .ro, .full⟩]⟩,
  -- RST_TRIM_STATUS1
  ⟨0x014, 0x00000000, .v, [⟨9, 0, .ro, .full⟩]⟩,
  -- RST_BIST
  ⟨0x018, 0x00000000, .v, [⟨20, 0, .ro, .full⟩]⟩,
  -- RST_BOOT_STATUS
  ⟨0x020, 0x00000000, .v, [⟨31, 31, .ro, .full⟩, ⟨30, 30, .ro, .full⟩, ⟨29, 29, .ro, .full⟩, ⟨28, 28, .ro, .full⟩, ⟨27, 24, .ro, .full⟩]⟩,
  -- RST_BOOT_SEL
  ⟨0x024, 0x00000000, .v, [⟨3, 3, .au, .full⟩, ⟨2, 2, .au, .full⟩, ⟨1, 1, .au, .full⟩, ⟨0, 0, .au, .full⟩]⟩,
  -- RST_BOOT_INSTALL
  ⟨0x028, 0x00000000, .v, [⟨2, 2, .au, .full⟩, ⟨1, 1, .au, .full⟩, ⟨0, 0, .au, .full⟩]⟩,
  -- RST_POWER
  ⟨0x02C, 0x0C000032, .v, [⟨31, 30, .ro, .full⟩, ⟨29, 28, .au, .full⟩, ⟨27, 26, .lk, .full⟩, ⟨15, 0, .lk, .clamp 5 65535⟩]⟩,
  -- RST_OTP_ADDR
  ⟨0x040, 0x00000000, .v, [⟨7, 0, .rw, .full⟩]⟩]

/-- Registers of the RST block, by their field maps (part 2). -/
def rstRegs2 : List RegDef := [
  -- RST_OTP_DATA
  ⟨0x044, 0x00000000, .v, [⟨31, 0, .rw, .full⟩]⟩,
  -- RST_OTP_CMD
  ⟨0x048, 0x00000000, .v, [⟨1, 1, .ro, .full⟩, ⟨0, 0, .wo, .full⟩]⟩]

/-- Registers of the RST block, by their field maps. -/
def rstRegs : List RegDef := rstRegs1 ++ rstRegs2

/-- Registers of the MEM block, by their field maps. -/
def memRegs : List RegDef := [
  -- MEM_STATUS
  ⟨0x000, 0x00000000, .v, [⟨31, 31, .ro, .full⟩, ⟨30, 29, .ro, .full⟩, ⟨15, 0, .ro, .full⟩]⟩]

/-- Registers of the ENG block, by their field maps. -/
def engRegs : List RegDef := [
  -- ENG_STATUS
  ⟨0x000, 0x00000000, .v, [⟨27, 24, .ro, .full⟩, ⟨12, 0, .ro, .full⟩]⟩]

/-- Lookup by offset in one block's list. -/
def findReg (l : List RegDef) (off : Nat) : Option RegDef := l.find? (fun r => r.off == off)

/-- Is `off` the offset of one of the words `a, a+4, …, b`? -/
def inWords (a b off : Nat) : Bool := a ≤ off && off ≤ b && off % 4 == 0

/-- Counters of a block between two offsets, else the block's list. -/
def withCounters (sv : Surv) (a b : Nat) (l : List RegDef) (off : Nat) : Option RegDef :=
  if inWords a b off then some (cntReg sv off) else findReg l off

/-- The notice registers of R543: seven bits, W1C or RW. -/
def noticeReg (off : Nat) (a : Acc) : RegDef :=
  ⟨off, 0, .v, (List.range 7).reverse.map fun i => ⟨i, i, a, .full⟩⟩

/-- CTL block, offsets within the block. CTL_ISL_STATE_n is R20; the counter ranges are R544, R82, R126, R150, R197, R229, R420. -/
def ctlDef (off : Nat) : Option RegDef :=
  if off == 0x20 then some (noticeReg 0x20 .w1c)
  else if off == 0x24 then some (noticeReg 0x24 .rw)
  else if inWords 0x100 0x150 off then some ⟨off, 1, .v, [⟨15, 8, .ro, .full⟩, ⟨3, 0, .ro, .full⟩]⟩
  else if inWords 0x48 0x54 off || inWords 0x210 0x220 off || inWords 0x320 0x358 off || inWords 0x410 0x41C off
    || inWords 0x540 0x55C off || inWords 0x620 0x638 off || inWords 0x810 0x818 off then some (cntReg .v off)
  else findReg ctlRegs off

/-- BKP block (R531): BKP_RET_n is RO for n below 32 and RW from 32, survival B. -/
def bkpDef (off : Nat) : Option RegDef :=
  if inWords 0x100 0x17C off then some ⟨off, 0, .b, [⟨31, 0, .ro, .full⟩]⟩
  else if inWords 0x180 0x1FC off then some ⟨off, 0, .b, [⟨31, 0, .rw, .full⟩]⟩
  else findReg bkpRegs off

/-- FLS block: block counts (R450) and counters (R451). -/
def flsDef (off : Nat) : Option RegDef :=
  if inWords 0x20 0x40 off then some (roReg off)
  else withCounters .v 0x60 0x94 flsRegs off

/-- RF block: channel masks (R292) and counters (R293). -/
def rfDef (off : Nat) : Option RegDef :=
  if inWords 0x20 0x30 off then some ⟨off, 0xFFFFFFFF, .v, [⟨31, 0, .lk, .full⟩]⟩
  else withCounters .v 0x40 0x9C rfRegs off

/-- PLC block: tone masks (R259, reset values of R548) and counters (R261). -/
def plcDef (off : Nat) : Option RegDef :=
  if inWords 0x24 0x28 off then some ⟨off, 0xFFFFFFFF, .v, [⟨31, 0, .lk, .full⟩]⟩
  else if off == 0x2C then some ⟨off, 0xFF, .v, [⟨31, 0, .lk, .full⟩]⟩
  else withCounters .v 0x40 0x8C plcRegs off

/-- ETH block: match entries (R321) and statistics counters (R304). -/
def ethDef (off : Nat) : Option RegDef :=
  if inWords 0x40 0xBC off then
    let a : Acc := if (off - 0x40) / 8 < 6 then .ro else .lk
    if (off - 0x40) % 8 == 0 then some ⟨off, 0, .v, [⟨31, 0, a, .full⟩]⟩
    else some ⟨off, 0, .v, [⟨31, 31, a, .full⟩, ⟨15, 0, a, .full⟩]⟩
  else if inWords 0x100 0x1BC off then some (roReg off)
  else findReg ethRegs off

/-- PCI block: ring registers (R418) and counters (R419). -/
def pciDef (off : Nat) : Option RegDef :=
  if inWords 0x100 0x2F8 off then
    match off % 16 with
    | 0 => some ⟨off, 0, .v, [⟨31, 12, .rw, .full⟩]⟩
    | 4 => some ⟨off, 0, .v, [⟨31, 0, .rw, .full⟩]⟩
    | 8 => some ⟨off, 0x06000000, .v, [⟨31, 31, .rw, .full⟩, ⟨30, 30, .rw, .full⟩, ⟨27, 24, .rw, .clamp 6 12⟩,
        ⟨20, 16, .rw, .full⟩, ⟨1, 1, .w1c, .full⟩]⟩
    | _ => none
  else if inWords 0x300 0x4F8 off then
    match off % 16 with
    | 0 => some ⟨off, 0, .v, [⟨31, 12, .rw, .full⟩]⟩
    | 4 => some ⟨off, 0, .v, [⟨31, 0, .rw, .full⟩]⟩
    | 8 => some ⟨off, 0x06000100, .v, [⟨31, 31, .rw, .full⟩, ⟨30, 30, .rw, .full⟩, ⟨27, 24, .rw, .clamp 6 12⟩,
        ⟨23, 16, .rw, .full⟩, ⟨15, 8, .rw, .clamp 1 255⟩, ⟨1, 1, .w1c, .full⟩]⟩
    | _ => none
  else withCounters .v 0x40 0x54 pciRegs off

/-- MEA block: counters (R470) and the two PQ blocks (R469). -/
def meaDef (off : Nat) : Option RegDef :=
  if inWords 0x100 0x158 off || inWords 0x180 0x1D8 off then some (roReg off)
  else withCounters .v 0x40 0x64 meaRegs off

/-- MON block (R487). -/
def monDef (off : Nat) : Option RegDef :=
  if off == 0 then some ⟨0, 0, .v, [⟨6, 6, .wo, .full⟩, ⟨5, 0, .rw, .full⟩]⟩
  else if off == 8 || off == 0xC then some ⟨off, 0, .v, [⟨31, 0, .w1c, .full⟩]⟩
  else if inWords 0x100 0x4FC off then
    match off % 16 with
    | 0 => if off == 0x100 then some ⟨off, 0x80970000, .v, [⟨31, 31, .ro, .full⟩, ⟨30, 24, .ro, .full⟩, ⟨23, 20, .ro, .full⟩, ⟨19, 16, .ro, .full⟩]⟩
      else some ⟨off, 0x00040000, .v, [⟨31, 31, .rw, .full⟩, ⟨30, 24, .rw, .full⟩, ⟨23, 20, .rw, .full⟩, ⟨19, 16, .rw, .clamp 0 7⟩]⟩
    | 4 => some ⟨off, if off == 0x104 then 0xFFFFF060 else 0, .v, [⟨31, 0, .rw, .full⟩]⟩
    | 8 => some ⟨off, 0x7FFFFFFF, .v, [⟨31, 0, .rw, .full⟩]⟩
    | _ => some ⟨off, 0x80000000, .v, [⟨31, 0, .rw, .full⟩]⟩
  else if inWords 0x800 0x88C off then some (roReg off)
  else none

/-- The register at a full offset of the set-up space (R535); none: an unmapped word (R536). -/
def regDef (off : Nat) : Option RegDef :=
  let o := off % 0x1000
  match off / 0x1000 with
  | 0x0 => ctlDef o
  | 0x1 => bkpDef o
  | 0x2 => withCounters .v 0x40 0x48 secRegs o
  | 0x3 => withCounters .v 0x40 0x44 memRegs o
  | 0x4 => flsDef o
  | 0x5 | 0x6 | 0x7 | 0x8 => plcDef o
  | 0x9 | 0xA => rfDef o
  | 0xB | 0xC => ethDef o
  | 0xD => withCounters .v 0x40 0x74 prlRegs o
  | 0xE => pciDef o
  | 0xF => meaDef o
  | 0x10 => withCounters .v 0x40 0x54 timRegs o
  | 0x11 | 0x12 | 0x13 | 0x14 => withCounters .v 0x40 0x40 engRegs o
  | 0x15 => monDef o
  | 0x16 => withCounters .v 0x40 0x4C evtRegs o
  | 0x17 => withCounters .p 0x60 0x68 rstRegs o
  | _ => none

/-- The reset word of the register at a full offset; 0 where no register stands. -/
def regReset (off : Nat) : BitVec 32 := match regDef off with | some r => BitVec.ofNat 32 r.reset | none => 0

/-- The island that owns the block at a full offset (R535, R16); none above 0x1_7FFF. -/
def blockIsland (off : Nat) : Option Nat :=
  let k := off / 0x1000
  if k = 0 then some 1 else if k = 1 then some 0 else if k ≤ 0xF then some k
  else if k ≤ 0x14 then some k else if k ≤ 0x17 then some 1 else none

end Sys2Proof.Machine
end

