-- ==== Sys2Proof/Machine/State.lean ====
section
/-!
DEFINITION. Sys2Proof/Machine/State.lean: the state of the block, every piece the spec gives it, with the queue of commands that
wait, and the state right after reset.
-/
namespace Sys2Proof.Machine

/-- The whole state. Registers are kept by their full offset (R535), each at its reset word when absent; what a register only shows
of other state is computed when it is read. -/
structure State where
  /-- Commands that wait, first in first out. -/
  pending : List Instr
  /-- Commands held by a swap that was aborted (R371); they run when the block next idles. -/
  deferred : List (Hdr × Cmd)
  /-- Accepted commands that wait behind readings of their meter, oldest first (R78). -/
  stalled : List (Hdr × Cmd)
  regs : Kv W32
  /-- Latches of the three paths (R539, R540): BAR0 0, commands 1, firmware 2. -/
  lat : Kv Latch
  win : Windows
  isl : Kv Island
  boot : Boot
  clusters : Clusters
  table : Table
  pipe : Pipe
  rules : RuleStore
  bal : BalState
  camp : CampState
  plc : Kv PlcState
  rf : Kv RfState
  /-- Ports 0 and 1. -/
  eth : Kv EthState
  relay : RelayState
  tim : TimState
  pair : PairState
  jr : Journal
  host : HostState
  sec : SecState
  arch : Archive
  mea : MeaState
  queues : Kv QState
  mon : Kv MonState
  evt : EvtState
  /-- Everything sent, newest first. -/
  out : List Out
  /-- The model's own: draws made from the free random values so far (log entry 2). -/
  draws : Nat
  deriving DecidableEq, Repr

/-- Reasons to stop. No meaning of this model raises one: the spec gives every command an effect. -/
inductive Fault where
  /-- Raised by nobody; kept so that the type is not empty. Safe. -/
  | undefinedBehaviour
  deriving DecidableEq, Repr

/-- Refusals. -/
inductive Refusal where
  /-- An arm of Dispatch.lean that has no meaning yet, by its mnemonic. Safe: the command does nothing that a proof could use. -/
  | notModelled (mnemonic : String)
  deriving DecidableEq, Repr

/-! ## The state right after reset: a POWER_ON reset whose source is gone, RST_N about to rise (R502, R508) -/

def latchReset : Latch := ⟨0, 0, 0, 0, 0, 0, [], [], [], []⟩
def bootCtlReset : BootCtl := ⟨0, false, false, none⟩
def bootReset : Boot :=
  { phase := .inReset, env := none, mode := .normal, strapCode := 0, strapValid := false, strapChoice := 0,
    strapRole := 0, bundleRole := 0, role := 0, imageA := none, imageB := none, bundleA := none, bundleB := none,
    ctl := bootCtlReset, loader := false, runImage := false, runBundle := false, fallback := false, trialRun := false, jver := 0, jverMin := 0,
    bundle := none, install := none, installCode := 0, otp := [], otpFail := false, trims := [], trimReason := [],
    power := .run, target := .run, mainSupply := true, wakeLow := false, pwrEn := true, wdtStopped := true,
    dramMib := 0, dramChannels := 0, archiveFitted := false, testEn := false }
def clustersReset : Clusters :=
  { buckets := [], moving := [], returned := [], toSwitch := [], changing := false, cur := 0, req := 0, clusterProf := [], secLanes := 0 }
def tableReset : Table := ⟨[], [], 0, [], [], [], []⟩
/-- The pool of 4,096 tokens is full (R88). -/
def pipeReset : Pipe := { iq := [], free := 4096, returning := 0, flight := [], orphans := [], nextId := 1, turn := 0, sessions := [] }
def balReset : BalState :=
  { active := [], shadow := [], haveTree := false, copied := false, waiting := none, treeChanged := false, meters := [], nodes := [],
    minutes := [], rms := [], runSeq := 0, started := 0, startedEnd := none, run := none, due := [], lastClose := none, timOut := false, lateLast := false }
def campReset : CampState :=
  { camps := [], store := [], fetching := [], cursors := [], turn := [], formed := 0, formedSec := 0, frames := [], ckpt := none }
def relayReset : RelayState :=
  { session := 0, needSession := true, nextSeq := [], open_ := [], pieces := [], unacked := [], nextBatch := 1, fails := [],
    paused := [], rx := [], accepted := [], nextRef := 1, pausedTo := [], spooling := false, spool := [], children := [], copy := [] }
def timReset : TimState :=
  { clk := 0, raw := 0, st := 0, source := 0, valid := false, jumpRefused := false, utc := 0, fromPtp := false, utcPrev := none, leap := none,
    offset := 0, rate := 0, lastOff := none, stepped := false, used := false, good := 0, refused := none, lastGood := 0, avail := [],
    bestPort := false, ports := [], lost := [] }
def heardReset : Heard := ⟨none, none⟩
def hbPathReset : HbPath := ⟨true, none, 0, 0, 0, 0, 0⟩
/-- PRL_STATUS.STATE resets to SEEKING (R381). -/
def pairReset : PairState :=
  { st := .seeking, stAt := 0, before := .seeking, actOut := false, startAt := none, actInLive := false, edgeAt := 0, heard := heardReset, prlSignal := false,
    hb1 := hbPathReset, hb2 := hbPathReset, epoch := 0, claim := 0, claimFlash := 0, partnerClaim := 0, prevClaim := 0,
    flashPending := false, interlockFault := false, proofFailed := false, proving := false, notReady := false, fault := 0,
    copyPct := 0, copyItem := 0, copyGiving := false, lastBatchAt := 0, parted := false, swap := none, swapTimer := none,
    swapRetryEvent := false, swapTriedAt := none, proofReadings := 0, proofSince := 0, lostAt := 0, splitNote := none, inStep := false, handoff := false }
def journalReset : Journal := ⟨[], 1, [], [], 1, [], 0, 1, [], [], [], [], 0⟩
/-- Every MSI-X vector is masked (PRESUMED, log entry 7). -/
def hostReset : HostState :=
  { sq := [], cq := [], frames := [], fenced := [], pollFast := false, changedAt := 0, db := [], link := false, bme := false, crsDone := false, width := 0,
    speed := 0, masked := 0xFFFFFFFFFFFFFFFF#64, msixPending := 0 }
def secReset : SecState := ⟨[], [], [], [], none, none, [], [], false⟩
def archReset : Archive :=
  { st := .off, ro := false, cut := true, targets := [], prof := none, layout := none, blocks := [], pseq := 0, jrecs := 0, area := false, ageCkpt := 0, age := 0,
    next := 0, resEnd := 0, durable := 0, wq := [], notDurable := [], openR := [], turn := 0, ovf := [], writeback := false,
    ovfLostSince := 0, missing := [], uncorrAt := none, formatting := none, staging := [], logSec := 0, fillAt := 0, ageAt := 0 }
def meaReset : MeaState := ⟨[], [], []⟩
/-- EVT holds no record and no last SEQ: the first record restarts SEQ at 0 (R492). -/
def evtReset : EvtState :=
  { raised := [], ring := [], zoneOld := [], zoneCur := [], archNext := 0, lastSeq := none, floor := 0, restart := true,
    buckets := [], suppressed := [], secRecords := 0, refillAt := 0, clears := [] }

/-- The machine right after reset. -/
def State.reset : State :=
  { pending := [], deferred := [], stalled := [], regs := [], lat := [], win := ⟨[], [], [], 0, 0⟩, isl := [], boot := bootReset,
    clusters := clustersReset, table := tableReset, pipe := pipeReset, rules := ⟨[], []⟩, bal := balReset, camp := campReset,
    plc := [], rf := [], eth := [], relay := relayReset, tim := timReset, pair := pairReset, jr := journalReset, host := hostReset,
    sec := secReset, arch := archReset, mea := meaReset, queues := [], mon := [], evt := evtReset, out := [], draws := 0 }

end Sys2Proof.Machine
end

