-- ==== Sys2Proof/Machine/Ops.lean ====
section
/-!
DEFINITION. Sys2Proof/Machine/Ops.lean: the operations everything else shares: registers and counters, islands, the role, the
grant and reading service, time, free draws, what the unit emits, and the journal's entry point.
-/
namespace Sys2Proof.Machine

/-! ## Registers -/

/-- The stored word of a register; its reset word when it was never changed. -/
def reg (s : State) (off : Nat) : W32 := s.regs.getD off (regReset off)

/-- Store a register word. -/
def setReg (off : Nat) (v : W32) (s : State) : State := { s with regs := Kv.putOr (regReset off) off v s.regs }

/-- Bits [hi:lo] of a register. -/
def fieldOf (s : State) (off hi lo : Nat) : Nat := bits (reg s off) hi lo

/-- Set bits [hi:lo] of a register. -/
def setField (off hi lo v : Nat) (s : State) : State := setReg off (setBits (reg s off) hi lo v) s

/-- Add to a saturating counter (R544). -/
def countBy (off n : Nat) (s : State) : State := setReg off (satAdd (reg s off) n) s

/-- Count one. -/
def count (off : Nat) (s : State) : State := countBy off 1 s

/-! ## Free values and what is sent -/

/-- A fresh random value (log entry 2). -/
def draw (s : State) : W64 × State := (Config.freeDraw s.draws, { s with draws := s.draws + 1 })

/-- Send something: it joins the log of what the unit emitted. -/
def emit (o : Out) (s : State) : State := { s with out := o :: s.out }

/-! ## Islands (R20) -/

def islandReset : Island := ⟨.reset, 0, false⟩

def islOf (s : State) (n : Nat) : Island := s.isl.getD n islandReset

def setIsl (n : Nat) (v : Island) (s : State) : State := { s with isl := Kv.putOr islandReset n v s.isl }

/-- Is an island in service? BKP always is (R41); an island that DOZE has gated restarts for its next item (R525), so it counts as in RUN
for service, for bindings and for a profile change (log entry 117). -/
def islInRun (s : State) (n : Nat) : Bool :=
  n == 0 || (islOf s n).st == .run || ((islOf s n).st == .gated && s.boot.power == .doze)

/-- Does an island do its work? One whose clock has lost its lock stands still (R21), while its state stays RUN. -/
def islRun (s : State) (n : Nat) : Bool := islInRun s n && !(islOf s n).lockLost

/-- Is the meter table in DRAM (R45)? CTL_TBL_CONFIG shows its size. -/
def dramTable (s : State) : Bool := 18 ≤ fieldOf s 0x200 23 16

/-- The next item of a gated island restarts it (R525). -/
def wake (n : Nat) (s : State) : State :=
  if (islOf s n).st == .gated && s.boot.power == .doze then setIsl n { islOf s n with st := .run } s else s

/-! ## Role, grant and service (R4, R41, R42, R352, R415) -/

/-- CTL_SERVICE.ROLE: none after a zeroisation (R415). -/
def roleOf (s : State) : BitVec 2 := if s.sec.zeroised then 0#2 else s.boot.role

def isHead (s : State) : Bool := roleOf s == 2#2
def isField (s : State) : Bool := roleOf s == 1#2

/-- A lone unit (R6, R355). -/
def isLone (s : State) : Bool := s.pair.st == .lone

/-- A unit of a pair without the grant in its state. -/
def isStandby (s : State) : Bool := !(s.pair.st == .lone || s.pair.st == .active || s.pair.st == .activeAlone)

/-- What reading service needs of the islands (R41, R42); with TEST_EN high there is none (R553). -/
def readingService (s : State) : Bool :=
  !s.boot.testEn && islInRun s 1 && islInRun s 2 && (List.range 4).any (fun c => islInRun s (17 + c)) && (islInRun s 11 || islInRun s 12 || islInRun s 14)
    && (isField s || (isHead s && islInRun s 3))

/-- The grant (R352): ACT_OUT toggles and ACT_IN is quiet; a lone unit holds it while it serves (R355). -/
def granted (s : State) : Bool := s.pair.actOut && !s.pair.actInLive && (!isLone s || readingService s)

/-- Does the unit serve readings? -/
def serving (s : State) : Bool := readingService s && granted s

/-- The unit's service ID, from its bundle (R379). -/
def ownService (s : State) : BitVec 12 := (s.boot.bundle.map (·.service)).getD 0

/-- The cluster a bucket is bound to. -/
def clusterOf (s : State) (b : Nat) : Option Nat := Kv.get? b s.clusters.buckets

/-- The lowest cluster that runs, by island number; ENG0 when none does. -/
def lowestEng (s : State) : Nat := (((List.range 4).map (17 + ·)).find? fun n => islInRun s n).getD 17

/-! ## Time (R323 to R327, R572) -/

/-- TIM is in RUN and TIME_VALID is 1. -/
def timeValid (s : State) : Bool := islInRun s 16 && s.tim.valid

/-- Whole seconds of a clock in units of 2^-16 ns. -/
def clkSec (c : Nat) : Nat := c / 65536000000000
/-- Nanoseconds within the second. -/
def clkNs (c : Nat) : Nat := c / 65536 % 1000000000
/-- The 64-bit form of R324. -/
def clkTime (c : Nat) : W64 := BitVec.ofNat 64 (clkSec c * 65536 + clkNs c * 65536 / 1000000000)

/-- A time-stamp taken now: the local clock, or CTL_RAW_NS while TIM is not in RUN (R327). -/
def rxTime (s : State) : W64 := if islInRun s 16 then clkTime s.tim.clk else BitVec.ofNat 64 (s.tim.raw % 2 ^ 32)

/-- Local time in whole seconds. -/
def localSec (s : State) : Nat := clkSec s.tim.clk

/-- Seconds of the unit's time (R572): the local clock while it is valid, else the raw counter. -/
def unitSec (s : State) : Nat := if timeValid s then localSec s else s.tim.raw / 1000000000

/-- Local-clock time minus UTC (R325). -/
def utcOffset (s : State) : Int := s.tim.utc

/-- The UTC offset in force at a UTC second (R325). -/
def utcOffsetAt (u : Int) (s : State) : Int :=
  match s.tim.utcPrev with
  | some (old, at_) => if u + old < at_ then old else s.tim.utc
  | none => s.tim.utc

/-! ## The journal's entry point (R359, R360) -/

/-- Does the unit journal: as ACTIVE, while its partner receives the copy (R363, R369), and after an orderly swap, to a partner that is
already in step (R371)? -/
def journals (s : State) : Bool := s.pair.st == .active || s.pair.copyGiving || (s.pair.actOut && s.pair.inStep)

/-- Put a change into the open batch. -/
def journal (e : JEntry) (s : State) : State :=
  if journals s then { s with jr := { s.jr with open_ := s.jr.open_ ++ [e] } } else s

/-- The batch that holds everything journalled so far. -/
def journalMark (s : State) : Nat := if s.jr.open_.isEmpty then s.jr.nextNum - 1 else s.jr.nextNum

/-- Has the standby acknowledged everything up to a batch (R108)? Without a standby nothing waits (R367). -/
def journalAcked (n : Nat) (s : State) : Bool :=
  s.pair.st != .active || (s.jr.unacked.all (fun b => n < b.1) && (s.jr.open_.isEmpty || n < s.jr.nextNum))

/-! ## Balance work areas (R157, R359) -/

def locZero : LocAcc := ⟨0, 0, 0, 0, 0, 0⟩
def workEmpty : MeterWork := ⟨[], 0, [], [0, 0, 0, 0], none, none, none, none, 0, 0, locZero, 0, 0, [], none, none, none, 0, 0⟩
def workOf (s : State) (n : Nat) : MeterWork := s.bal.meters.getD n workEmpty
def setBal (f : BalState → BalState) (s : State) : State := { s with bal := f s.bal }
/-- Store a meter's work area, journalled to the standby (R157). -/
def putWork (n : Nat) (v : MeterWork) (s : State) : State :=
  journal (.meterWork n v) (setBal (fun b => { b with meters := Kv.put n v b.meters }) s)

end Sys2Proof.Machine
end

