-- ==== Sys2Proof/Machine/Flags.lean ====
section
/-!
DEFINITION. Sys2Proof/Machine/Flags.lean: flags that happenings set: MSI-X and notices (R404, R543), events and their rate limits
(R490, R572), queue flags and lost counts (R115, R471 to R480), and the Ethernet statistics with their half flags (R304, R305).
-/
namespace Sys2Proof.Machine

/-! ## MSI-X and notices -/

/-- Raise a vector (R404): a masked one becomes pending; a message needs the link and Bus Master Enable (R385). -/
def msix (v : Nat) (s : State) : State :=
  if !islInRun s 14 || 64 ≤ v then s
  else if s.host.masked.getLsbD v then
    { s with host := { s.host with msixPending := s.host.msixPending ||| (1#64 <<< v) } }
  else if s.host.link && s.host.bme then emit (.msix v) s
  else s

/-- A happening of the notice fabric (R543): its pending bit sets, and raises vector 32 when it is enabled. -/
def notice (b : Nat) (s : State) : State :=
  let was := bit (reg s 0x20) b
  let s := setField 0x20 b b 1 s
  if !was && bit (reg s 0x24) b then msix 32 s else s

/-! ## Events -/

/-- The critical event codes of R490. -/
def criticalCode (isl code : Nat) : Bool :=
  match isl with
  | 0 => code == 0x02
  | 1 => code == 0x00 || code == 0x01 || code == 0x04 || code == 0x06 || code == 0x08 || code == 0x20
  | 2 => code == 0x02
  | 3 => code == 0x02
  | 4 => code == 0x03 || code == 0x06
  | 13 => code == 0x02 || code == 0x03 || code == 0x04 || code == 0x08 || code == 0x0B
  | _ => false

/-- An event is raised: island, code, DATA and the data of its continuations (R490, R573). EVT accepts it at EVENT_ACCEPT. -/
def event (isl code data : Nat) (conts : List (List Byte)) (s : State) : State :=
  { s with evt := { s.evt with raised := s.evt.raised ++
    [⟨isl, code, criticalCode isl code, BitVec.ofNat 32 data, conts.map (padTo 20)⟩] } }

/-- Do something at most once in the second in progress, for a kind and key (R572). -/
def secEvent (kind key : Nat) (f : State → State) (s : State) : State :=
  if s.win.sec.contains (kind, key) then s
  else f { s with win := { s.win with sec := s.win.sec ++ [(kind, key)] } }

/-- At most once in the minute in progress. -/
def minuteEvent (kind key : Nat) (f : State → State) (s : State) : State :=
  if s.win.min.contains (kind, key) then s
  else f { s with win := { s.win with min := s.win.min ++ [(kind, key)] } }

/-- At most once in the hour in progress. -/
def hourEvent (kind key : Nat) (f : State → State) (s : State) : State :=
  if s.win.hour.contains (kind, key) then s
  else f { s with win := { s.win with hour := s.win.hour ++ [(kind, key)] } }

/-- Every window in progress ends: a step of the clock, or another time base (R572). -/
def endWindows (s : State) : State :=
  { s with win := ⟨[], [], [], 0, unitSec s⟩, evt := { s.evt with secRecords := 0 }
           bal := { s.bal with meters := s.bal.meters.map fun p => (p.1, { p.2 with moves := 0 }) }
           plc := s.plc.map fun p => (p.1, { p.2 with rreqs := 0 })
           camp := { s.camp with formed := 0, frames := [] } }

/-! ## Queues -/

def qEmpty : QState := ⟨0, 0, false, false, 0, 0, 0⟩
def qState (s : State) (q : Nat) : QState := s.queues.getD q qEmpty
def setQ (q : Nat) (v : QState) (s : State) : State := { s with queues := Kv.putOr qEmpty q v s.queues }

/-- Items a reading takes (R83). -/
def itemCount (i : RItem) : Nat := 1 + (i.apdu.length + 127) / 128

/-- DEPTH of a queue: 1,024 items for the intake queues (R83); the directory's for the others (R479). -/
def queueDepth (q : Nat) : Nat := if q < 8 then 1024 else (Config.queueDepth q).toNat

/-- A full queue discards its oldest whole packet (R474): the lost counts, CTL_PIPE_LOST for an intake queue (R480) and, a critical
queue being overwritten, QUEUE_OVERWRITE once a second (R475). -/
def queueOverwrite (q : Nat) (s : State) : State :=
  match s.pipe.iq.getD q [] with
  | [] => s
  | i :: rest =>
    let n := itemCount i
    let v := qState s q
    let s := setQ q { v with items := v.items - n, packets := v.packets - 1, lostItems := satAdd v.lostItems n,
                             lostPkts := satAdd v.lostPkts 1 } s
    let s := { s with pipe := { s.pipe with iq := Kv.putOr [] q rest s.pipe.iq } }
    secEvent 1 q (event 1 0x08 q []) (countBy 0x348 n s)

/-- Make room for `n` items in an intake queue. -/
def queueRoom (q n : Nat) : Nat → State → State
  | 0, s => s
  | fuel + 1, s => if (qState s q).items + n ≤ queueDepth q then s else queueRoom q n fuel (queueOverwrite q s)

/-- AF_LEVEL and RESUME_LEVEL (R123). -/
def afLevel (s : State) : Nat := fieldOf s 0x308 25 16
def resumeLevel (s : State) : Nat := fieldOf s 0x308 9 0

/-- A packet of `n` items is written: the fill, and the almost-full flag with its count (R115). -/
def queueWrite (q n : Nat) (s : State) : State :=
  let v := qState s q
  let up := v.items + n ≥ afLevel s && !v.af
  let s := setQ q { v with items := v.items + n, packets := v.packets + 1, idle := false, af := v.af || up } s
  if up && q < 8 then count 0x34C s else s

/-- A packet of `n` items is read; the flag falls at RESUME_LEVEL (R115). -/
def queueRead (q n : Nat) (s : State) : State :=
  let v := qState s q
  setQ q { v with items := v.items - n, packets := v.packets - 1, af := v.af && decide (resumeLevel s < v.items - n) } s

/-- A flush (R476): the queue empties and its content counts as lost. -/
def flushQueue (q : Nat) (s : State) : State :=
  let v := qState s q
  { setQ q { v with items := 0, packets := 0, idle := false, af := false, lostItems := satAdd v.lostItems v.items,
                    lostPkts := satAdd v.lostPkts v.packets, flushes := satAdd v.flushes 1 } s with
    pipe := { s.pipe with iq := Kv.del q s.pipe.iq } }

/-- Does a queue push back: its flag is up, or a swap drains and the role uses the queue (R83, R116, R371)? -/
def iqPaused (q : Nat) (s : State) : Bool := (qState s q).af || (s.pair.swap.isSome && (if isHead s then 6 ≤ q else isField s && q < 6))

/-! ## Ethernet statistics -/

/-- Add to statistics counter i of a port, modulo 2^32 (R304); a crossing of half range sets its flag and may raise the port's
statistics notice (R305). -/
def ethCount (p : Bool) (i n : Nat) (s : State) : State :=
  if 48 ≤ i then s else
  let base := 0xB000 + 0x1000 * b2n p
  let off := base + 0x100 + 4 * i
  let old := reg s off
  let new := old + BitVec.ofNat 32 n
  let s := setReg off new s
  if !bit old 31 && bit new 31 then
    let h := base + 0x10 + 4 * (i / 32)
    let s := setField h (i % 32) (i % 32) 1 s
    if bit (reg s (base + 0x18 + 4 * (i / 32))) (i % 32) then msix (33 + b2n p) s else s
  else s

end Sys2Proof.Machine
end

