-- ==== Sys2Proof/Machine/Operands.lean ====
section
/-!
DEFINITION. Sys2Proof/Machine/Operands.lean: what the operands of commands carry: opcodes and their classes (R407, R413, R444, R499),
reply codes (R400), and the lengths of relay entries (R310, R311).
-/
namespace Sys2Proof.Machine

/-! ## Commands -/

/-- OPCODE of a command (R407, R444, R499). -/
def cmdOpcode : Cmd → Nat
  | .regRead .. => 0x0001 | .regWriteAu .. => 0x0002
  | .keyLoad .. => 0x0101 | .keyClear .. => 0x0102 | .keyRead .. => 0x0103 | .secZeroise .. => 0x0104
  | .tblRead .. => 0x0201 | .tblFind .. => 0x0202 | .tblDump .. => 0x0203 | .tblWrite .. => 0x0204 | .tblProvision .. => 0x0205
  | .tblKeyStage .. => 0x0206 | .tblRetire .. => 0x0207 | .tblSet .. => 0x0208 | .keySignerLoad .. => 0x0209
  | .ruleLoad .. => 0x0301 | .ruleActivate .. => 0x0302 | .ruleRemove .. => 0x0303 | .ruleRead .. => 0x0304
  | .topoLoad .. => 0x0401 | .topoActivate => 0x0402 | .topoRead .. => 0x0403 | .balNodeRead .. => 0x0404 | .balMeterRead .. => 0x0405
  | .balResetScores .. => 0x0406
  | .campCreate .. => 0x0501 | .campData .. => 0x0502 | .campSeal .. => 0x0503 | .campAddMembers .. => 0x0504
  | .campRemoveMembers .. => 0x0505 | .campStart .. => 0x0506 | .campPause .. => 0x0507 | .campCancel .. => 0x0508
  | .campClose .. => 0x0509 | .campActivate .. => 0x050A | .campRollback .. => 0x050B | .campRead .. => 0x050C
  | .campMemberRead .. => 0x050D
  | .plcGmkRotate .. => 0x0601 | .plcKick .. => 0x0602 | .rfKeyRotate .. => 0x0603
  | .timStep .. => 0x0701 | .pairRead => 0x0801 | .pairSwap => 0x0802 | .pairClear => 0x0803
  | .archInfo => 0x0901 | .archRead .. => 0x0902 | .archFindTime .. => 0x0903 | .archTrim .. => 0x0904 | .archOvfRead .. => 0x0905
  | .archOvfRelease .. => 0x0906 | .archHostWrite .. => 0x0907 | .archHostRead .. => 0x0908 | .archFormat .. => 0x0909
  | .evtRead .. => 0x0A01 | .evtClear => 0x0A02 | .monRead .. => 0x0A03 | .monReset .. => 0x0A04 | .qRead .. => 0x0A05
  | .reserved op => op.toNat

/-- Is the opcode a reserved one (R407)? -/
def cmdReserved : Cmd → Bool
  | .reserved _ => true
  | _ => false

/-- Commands that must carry the trailer (R407, R444, R499). -/
def authOpcode (op : Nat) : Bool :=
  [0x0002, 0x0101, 0x0102, 0x0104, 0x0205, 0x0206, 0x0207, 0x0208, 0x0209, 0x0301, 0x0302, 0x0303, 0x0401, 0x0402, 0x0406,
   0x0501, 0x0503, 0x0504, 0x0505, 0x0506, 0x0507, 0x0508, 0x0509, 0x050A, 0x050B, 0x0601, 0x0602, 0x0603, 0x0701, 0x0802, 0x0803,
   0x0904, 0x0909, 0x0A02].contains op

/-- Ordinary commands that write something (R413, R444, R499). -/
def writeOpcode (op : Nat) : Bool := [0x0204, 0x0502, 0x0906, 0x0907, 0x0A04].contains op

/-- Commands that need the grant (R77, R147, R157, R186, R223, R383, R444); the access-link commands act on links only the active
drives (DEDUCED, log entry 33). -/
def grantOpcode (op : Nat) : Bool :=
  [0x0204, 0x0205, 0x0206, 0x0207, 0x0208, 0x0209, 0x0301, 0x0302, 0x0303, 0x0401, 0x0402, 0x0406, 0x0501, 0x0502, 0x0503, 0x0504,
   0x0505, 0x0506, 0x0507, 0x0508, 0x0509, 0x050A, 0x050B, 0x0601, 0x0602, 0x0603, 0x0802, 0x0904, 0x0909].contains op

/-- Value of a status code (R400). -/
def statusCode : Status → Nat
  | .ok => 0 | .truncated => 1 | .media => 2 | .notActive => 3 | .bad => 4 | .stale => 5 | .busy => 6 | .later => 6

def Reply.done : Reply := ⟨.ok, [], []⟩
def Reply.bad : Reply := ⟨.bad, [], []⟩
def Reply.busy : Reply := ⟨.busy, [], []⟩
def Reply.media : Reply := ⟨.media, [], []⟩
def Reply.notActive : Reply := ⟨.notActive, [], []⟩
def Reply.stale : Reply := ⟨.stale, [], []⟩
/-- The command completes later. -/
def Reply.later : Reply := ⟨.later, [], []⟩

/-! ## Relay entries -/

/-- Bytes of an ECDSA signature by SIG_ALG (R208). -/
def sigLen (alg : Nat) : Nat := if alg = 2 then 96 else 64

/-- Bytes of a manifest frame before its signature (R208). -/
def manifestBytes (m : Manifest) : List Byte :=
  [0x02, m.version, m.kind] ++ be 1 m.sigAlg ++ be 4 m.campId.toNat ++ be 4 m.imageLen ++ be 2 m.tableSegs ++ be 2 m.targetClass.toNat
    ++ be 4 m.imageVersion.toNat ++ be 1 m.signer ++ be 3 0 ++ be 8 m.expiry.toNat ++ be 32 m.imageDigest.toNat ++ be 32 m.tableDigest.toNat

/-- The manifest frame, with its signature (R208). -/
def manifestFrame (m : Manifest) : List Byte := manifestBytes m ++ (be 96 m.signature.toNat).take (sigLen m.sigAlg)

/-- The activation record, with its signature (R209). -/
def actFrame (r : ActRec) : List Byte :=
  [0x03] ++ be 1 r.action ++ be 1 r.sigAlg ++ be 1 r.signer ++ be 4 r.campId.toNat ++ be 8 r.actTime.toNat ++ be 2 r.utcOffset.toNat
    ++ be 2 r.lateS ++ be 4 0 ++ (be 96 r.signature.toNat).take (sigLen r.sigAlg)

/-- Bytes of a member record (R213). -/
def memberBytes (m : Member) : List Byte := be 4 m.slot ++ be 1 m.st ++ be 1 m.rank ++ be 2 m.low ++ be 8 m.map.toNat

/-- Body of a zero-crossing report (R247). -/
def zcBytes (r : ZcReport) : List Byte :=
  be 8 r.title.toNat ++ be 1 (r.refPhase * 64 + r.inst) ++ be 1 0 ++ be 2 r.offset ++ be 4 r.periodNs ++ be 8 r.time.toNat

/-- Body of a fingerprint report (R249). -/
def fpBytes (r : FpReport) : List Byte :=
  be 8 r.title.toNat ++ be 1 (b2n r.fcc * 128 + r.inst) ++ be 1 (if r.fcc then 72 else 36) ++ be 2 r.frames ++ be 4 0
    ++ padTo 72 (r.snr.map fun x => BitVec.ofNat 8 x)

/-- The minute record (R456). -/
def minuteBytes (m : MinuteRec) : List Byte :=
  be 1 m.head ++ [m.qflags] ++ be 2 m.missing ++ be 4 m.calId.toNat ++ be 8 m.start.toNat ++ (List.range 3).flatMap (fun i => be 8 (m.imp.getD i 0))
    ++ (List.range 3).flatMap (fun i => be 8 (m.exp.getD i 0)) ++ beI 8 m.net ++ be 8 0

/-- The body of a MEA_RMS entry (R459). -/
def rmsBytes (m : RmsRec) : List Byte :=
  be 1 m.head ++ [m.qflags] ++ be 2 0 ++ be 8 m.second.toNat ++ (List.range 6).flatMap fun i => beI 2 (m.dev.getD i 0)

/-- The READING body up to its APDU (R311); the wrapped session key's bytes are SEC's. -/
def readingHead (r : RItem) : List Byte :=
  be 8 ((r.title.map (·.toNat)).getD 0) ++ be 1 r.orig ++ be 1 r.fieldOutcome ++ be 2 (b2n r.ded * 2 ^ 15 + b2n r.tsValid * 2 ^ 14 + b2n r.polled * 2 ^ 13)
    ++ be 8 r.rxTime.toNat ++ be 8 (if r.polled then r.reqTime.toNat else 0)
    ++ be 1 r.kekVer ++ be 1 0 ++ be 2 r.apdu.length
    ++ be 24 (if r.ded then (Config.unstated 311 r.session.val.toNat).toNat else 0)

/-- Body of a relay entry (R310, R311), of a READING without its APDU. -/
def entryBytes : Entry → List Byte
  | .reading r => readingHead r
  | .joinReport title link short eui t => be 8 title.toNat ++ [link] ++ be 1 0 ++ be 2 short.toNat ++ be 8 eui.toNat ++ be 8 t.toNat
  | .fetch title | .release title | .fetchNak title => be 8 title.toNat
  | .record img _ => (List.range 256).map fun i => BitVec.ofNat 8 (fld img i 1)
  | .unknown title source t => be 8 title.toNat ++ [source] ++ be 3 0 ++ be 8 t.toNat
  | .zc r => zcBytes r
  | .fp r => fpBytes r
  | .meaInterval m => minuteBytes m
  | .meaRms m => rmsBytes m
  | .member id m => be 4 id.toNat ++ be 4 0 ++ memberBytes m
  | .segReq id seg => be 4 id.toNat ++ be 2 seg ++ be 2 0
  | .segPiece id seg piece data => be 4 id.toNat ++ be 2 seg ++ be 1 piece ++ be 1 0 ++ padTo 1024 data
  | .campCtl id c =>
    let (kind, st, data) : Nat × Nat × List Byte := match c with
      | .manifest m => (1, 0, manifestFrame m)
      | .state k => (2, k, [])
      | .act r => (3, 0, actFrame r)
      | .remove l => (4, 0, l.flatMap (be 4))
    be 4 id.toNat ++ be 1 kind ++ be 1 st ++ be 2 data.length ++ data
  | .bad => []

/-- Body bytes of a relay entry (R310, R311). -/
def entryBody (e : Entry) : Nat :=
  (entryBytes e).length + match e with | .reading r => r.apdu.length | _ => 0

end Sys2Proof.Machine
end

