-- ==== Sys2Proof/Machine/Command.lean ====
section
/-!
DEFINITION. Sys2Proof/Machine/Command.lean: how the unit answers: transmit buffers (R301), completion rings and postings (R386 to
R402), response datagrams (R413), and the checks every management command passes (R405, R406, R410 to R413).
-/
namespace Sys2Proof.Machine

/-! ## Ethernet ports as senders (R301) -/

def ethEmpty : EthState :=
  { mode := 0, link := false, speed := 0, eee := false, lpi := false, tlv := none, tlvUntil := 0, lldpAt := 0, idleAt := 0, lpiAt := 0,
    wakeAt := 0, tx := [], wait := [] }
def ethOf (s : State) (p : Bool) : EthState := s.eth.getD (b2n p) ethEmpty
def setEth (p : Bool) (v : EthState) (s : State) : State := { s with eth := Kv.putOr ethEmpty (b2n p) v s.eth }
def ethBase (p : Bool) : Nat := 0xB000 + 0x1000 * b2n p

/-- ETH_STATUS.LINK. -/
def ethLink (s : State) (p : Bool) : Bool := islInRun s (11 + b2n p) && (ethOf s p).link

/-- Bytes in a port's transmit buffer. -/
def txUsed (v : EthState) : Nat := v.tx.foldl (fun a x => a + x.bytes) 0

/-- VLAN_ID in force: 0 none (R296). -/
def vlanId (s : State) (p : Bool) : Nat := fieldOf s (ethBase p) 11 0

/-- IEEE 802.3 default wake time of a resolved rate, µs: the spec names it and states no number, so it is a free value (log entry 49). -/
def defaultWake (speed : Nat) : Nat := (Config.unstated 0x303 speed).toNat % 65536

/-- EEE is in use: USXGMII, EEE_EN, resolved. -/
def eeeOn (s : State) (p : Bool) : Bool :=
  (ethOf s p).mode = 0 && fieldOf s (ethBase p + 8) 31 31 = 1 && (ethOf s p).eee && ethLink s p

/-- ETH_STATUS.TW_TX_US: the larger of the default and the partner's wish. -/
def txWake (s : State) (p : Bool) : Nat :=
  if eeeOn s p then max (defaultWake (ethOf s p).speed) ((ethOf s p).tlv.getD 0) % 65536 else 0

/-- The port leaves LPI: its time there is counted, and the transmit wake time runs (R303, R304). -/
def leaveLpi (p : Bool) (s : State) : State :=
  let v := ethOf s p
  if !v.lpi then s
  else ethCount p 39 ((s.tim.raw - v.lpiAt) / 1000) (setEth p { v with lpi := false, wakeAt := s.tim.raw + txWake s p * 1000 } s)

/-- A frame, with its VLAN tag, goes to the 64 KiB transmit buffer, or waits for space in it; it ends LPI (R296, R301, R303). -/
def ethSend (p : Bool) (prio bytes kind : Nat) (o : Out) (s : State) : State :=
  if !islInRun s (11 + b2n p) then s
  else if !ethLink s p then ethCount p 31 1 s
  else
    let s := leaveLpi p s
    let v := ethOf s p
    let x : EthTx := ⟨prio, bytes + (if vlanId s p = 0 then 0 else 4), kind, o, s.tim.raw⟩
    if v.wait.isEmpty && txUsed v + x.bytes ≤ 65536 then setEth p { v with tx := v.tx ++ [x] } s
    else setEth p { v with wait := v.wait ++ [x] } s

/-- The addresses of a port (0x0A01 of R520). -/
def ethAddrs (s : State) (p : Bool) : Option EthAddrs := (s.boot.bundle.map (·.addrs)).bind fun l => l.find? fun a => a.port == p

/-- Relay frames travel over IPv4 when the bundle sets IPv4 relay addresses only (R306). -/
def usesIpv6 (s : State) (p : Bool) : Bool :=
  match ethAddrs s p with
  | some a => a.relayIpv6 != 0 || a.relayIpv4 == 0
  | none => true

/-- Path MTU of a port (R312). -/
def pathMtu (s : State) (p : Bool) : Nat :=
  let maxF := fieldOf s (ethBase p) 25 12
  if 1522 < maxF then maxF - 22 else 1500 - (if vlanId s p = 0 then 0 else 4)

/-- A monitor channel with no result. -/
def monEmpty : MonState := ⟨0, 0, 0, 0, List.replicate 32 0, true, none⟩

/-- May FLS write zones of the archive: mounted, and not READ_ONLY (R440)? -/
def archiveWritable (s : State) : Bool := islInRun s 4 && (s.arch.st == .ready || s.arch.st == .keepFull)

/-- A trial is confirmed (R523): the slots that run are written as confirmed, with no trial. -/
def confirmTrial (s : State) : State :=
  if !s.boot.trialRun then s
  else { s with boot := { s.boot with ctl := ⟨s.boot.ctl.seq + 1, s.boot.runImage, s.boot.runBundle, none⟩, trialRun := false } }

def setPair (f : PairState → PairState) (s : State) : State := { s with pair := f s.pair }

/-- The scheduled swap timer restarts, and is journalled (R372). -/
def restartSwapTimer (s : State) : State :=
  journal (.swapTimer (some 0)) (setPair (fun p => { p with swapTimer := some 0, swapRetryEvent := false, swapTriedAt := none }) s)

/-- Has the proof gone on for PROVE_S, with PROVE_MIN readings ACCEPTED (R373)? -/
def proofDue (s : State) : Bool :=
  s.pair.proving && decide (fieldOf s 0xD010 31 16 ≤ s.pair.proofReadings)
    && decide (s.pair.proofSince + fieldOf s 0xD00C 15 0 * 1000000000 ≤ s.tim.raw)

/-- The swap counts good once its proof is done: the timer restarts, and a trial is confirmed (R372, R373, R523). -/
def proofGood (s : State) : State :=
  if !proofDue s then s
  else confirmTrial (restartSwapTimer (setPair (fun p => { p with proving := false }) (count 0xD05C s)))

/-- Readings of a proof are committed (R373). -/
def proofCount (n : Nat) (s : State) : State :=
  if s.pair.proving then proofGood (setPair (fun p => { p with proofReadings := p.proofReadings + n }) s) else s

/-! ## Completion rings -/

def sqCfg (n : Nat) : Nat := 0xE108 + 16 * n
def cqCfg (n : Nat) : Nat := 0xE308 + 16 * n
def sqEmpty : SqState := ⟨0, 0, [], 0, false⟩
def sqOf (s : State) (n : Nat) : SqState := s.host.sq.getD n sqEmpty
def setHost (f : HostState → HostState) (s : State) : State := { s with host := f s.host }
def setSq (n : Nat) (v : SqState) (s : State) : State := setHost (fun h => { h with sq := Kv.putOr sqEmpty n v h.sq }) s
def setCq (n : Nat) (v : CqState) (s : State) : State := setHost (fun h => { h with cq := Kv.put n v h.cq }) s

/-- Entries of a ring (R387). -/
def ringSize (cfg : W32) : Nat := 2 ^ bits cfg 27 24

/-- Does the unit issue DMA (R385)? -/
def pciUp (s : State) : Bool := islInRun s 14 && s.host.link && s.host.bme && fieldOf s 0xE000 31 31 = 1

/-- A completion ring that is enabled and reachable (R386). -/
def cqOpen (s : State) (n : Nat) : Option CqState := if pciUp s && n < 32 then Kv.get? n s.host.cq else none

/-- Does a ring run as a BUFFER ring? -/
def bufferRing (s : State) (n : Nat) : Bool := (sqOf s n).run && fieldOf s (sqCfg n) 30 30 = 1

/-- Extension slots of an entry (R398). -/
def cqExt : CqBody → Nat
  | .reading .. | .balNode _ | .balNotice _ | .balSummary _ => 1
  | _ => 0

/-- Is it a posting with a posting sequence number (R397)? -/
def cqPosting : CqBody → Bool
  | .cmdDone .. | .rxData .. | .event _ => false
  | _ => true

/-- Free slots of a completion ring. -/
def cqFree (s : State) (n : Nat) (c : CqState) : Nat := ringSize (reg s (cqCfg n)) - (c.tail - c.head).toNat

/-- A posting has been made or skipped; the mark is the highest number up to which all are (R362). -/
def markPosted (n : Nat) (s : State) : State :=
  let done := s.jr.done ++ [n]
  let rec up : Nat → Nat → Nat
    | 0, m => m
    | k + 1, m => if done.contains (m + 1) then up k (m + 1) else m
  let m := up done.length s.jr.mark
  { s with jr := { s.jr with mark := m, done := done.filter (fun x => m < x), posts := Kv.del n s.jr.posts } }

/-- What follows once an entry is written or discarded: a command is complete. -/
def entryDone (e : Cqe) (s : State) : State :=
  match e.done with
  | some q => setSq q { sqOf s q with inFlight := (sqOf s q).inFlight - 1 } s
  | none => s

/-- Raise a ring's vector when its entries are enough (R404). -/
def cqCoalesce (n : Nat) (s : State) : State :=
  match Kv.get? n s.host.cq with
  | none => s
  | some c =>
    let cfg := reg s (cqCfg n)
    if bit cfg 30 && (bits cfg 23 16 = 0 || bits cfg 15 8 ≤ c.sinceMsg) && c.sinceMsg ≠ 0 then msix n (setCq n { c with sinceMsg := 0 } s)
    else s

/-- Write an entry: extension slots, header with its phase, then the index; a buffer passes back with it (R392, R397). -/
def cqWrite (n : Nat) (c : CqState) (e : Cqe) (s : State) : State :=
  let t := c.tail.toNat
  let phase := t / ringSize (reg s (cqCfg n)) % 2 == 0
  let t' : BitVec 16 := BitVec.ofNat 16 (t + 1 + cqExt e.body)
  let s := emit (.cqTail n t') (emit (.completion n (t % ringSize (reg s (cqCfg n))) phase e) (setCq n { c with tail := t', sinceMsg := c.sinceMsg + 1, firstAt := if c.sinceMsg = 0 then s.tim.raw else c.firstAt } s))
  let s := match e.back with
    | some b =>
      let v := sqOf s b
      emit (.sqCons b (v.cons + 1)) (setSq b { v with cons := v.cons + 1 } s)
    | none => s
  let s := entryDone e s
  cqCoalesce n (if cqPosting e.body then markPosted e.seq.toNat s else s)

/-- An entry for a ring: skipped when the ring is not enabled or not reachable, held back while it is full (R386, R416). -/
def cqPush (n : Nat) (e : Cqe) (s : State) : State :=
  match cqOpen s n with
  | none =>
    let s := if cqPosting e.body then markPosted e.seq.toNat (count 0xE040 s) else s
    entryDone e (match e.body with | .event _ => count 0xE040 s | _ => s)
  | some c =>
    if !c.waiting.isEmpty || cqFree s n c < 1 + cqExt e.body then setCq n { c with waiting := c.waiting ++ [e] } s
    else cqWrite n c e s

/-- Entries that waited are written, as far as there is room. -/
def cqDrain (n : Nat) : Nat → State → State
  | 0, s => s
  | fuel + 1, s =>
    match cqOpen s n with
    | some c =>
      match c.waiting with
      | e :: rest =>
        if cqFree s n c < 1 + cqExt e.body then s
        else cqDrain n fuel (cqWrite n { c with waiting := rest } e s)
      | [] => s
    | none => s

/-! ## Postings (R362, R399) -/

/-- Set bits of a mask, in ascending order. -/
def setBitsOf (w : W32) : List Nat := (List.range 32).filter fun i => bit w i

/-- The ring a posting maps to (R399). -/
def postingRing (s : State) (p : Posting) : Option Nat :=
  let notice (hi lo : Nat) : Option Nat := let n := fieldOf s 0xE024 hi lo; if n = 0xFF then none else some n
  match p.body with
  | .reading .. =>
    let l := setBitsOf (reg s 0xE020)
    if l.isEmpty then none else l[p.bucket % l.length]?
  | .balNode _ | .balNotice _ | .balSummary _ => notice 31 24
  | .event _ => notice 23 16
  | .pairNotice .. => notice 15 8
  | .unknownMeter .. => notice 7 0
  | _ => none

/-- STATUS of a posting: a READING's outcome code. -/
def postingStatus : CqBody → Byte
  | .reading _ r => (r.drop 8).headD 0
  | _ => 0

/-- A posting goes to its ring, under its number. -/
def doPost (n : Nat) (takeover : Bool) (p : Posting) (s : State) : State :=
  let e : Cqe := { status := postingStatus p.body, sq := 0xFF, takeover := takeover, claim := s.pair.claim, seq := BitVec.ofNat 64 n,
                   body := p.body, back := none, done := none }
  match postingRing s p with
  | some r => cqPush r e s
  | none => markPosted n (count 0xE040 s)

/-- Take the next posting number; the posting is journalled under it. -/
def reservePost (p : Posting) (s : State) : Nat × State :=
  let n := s.jr.nextPosting
  (n, journal (.posting n p) { s with jr := { s.jr with nextPosting := n + 1, posts := Kv.put n p s.jr.posts } })

/-- Does a re-posted entry still wait for room in its ring? New postings wait behind it (R362; log entry 87). -/
def repostWaits (s : State) : Bool := s.host.cq.any fun p => p.2.waiting.any (·.takeover)

/-- Make a posting that has its number; it waits for the claim to reach the boot flash (R358), and behind re-postings (R362). -/
def makePost (n : Nat) (takeover : Bool) (p : Posting) (s : State) : State :=
  if s.pair.flashPending || (!takeover && (repostWaits s || !s.jr.delayed.isEmpty)) then { s with jr := { s.jr with delayed := s.jr.delayed ++ [(n, takeover, p)] } }
  else doPost n takeover p s

/-- The pair notice of a taking names the state the unit has reached when it is posted (R369, R377; log entry 85). -/
def noticeNow (s : State) (p : Posting) : Posting :=
  match p.body with
  | .pairNotice k prev a b => { p with body := .pairNotice (if k = 2 && s.pair.st == .active then 1 else k) prev a b }
  | _ => p

/-- New postings that waited behind re-postings are made. -/
def drainDelayed (s : State) : State :=
  if s.jr.delayed.isEmpty || s.pair.flashPending || repostWaits s then s
  else s.jr.delayed.foldl (fun t p => doPost p.1 p.2.1 (noticeNow t p.2.2) t) { s with jr := { s.jr with delayed := [] } }

/-- Post something that waits for nothing: a balance report, an unknown meter, a pair notice. Without the grant none is made (R352). -/
def postNow (b : CqBody) (s : State) : State :=
  if !granted s then s
  else
    let p : Posting := ⟨0, b⟩
    let (n, s) := reservePost p s
    makePost n false p s

/-- Do READING postings of a bucket wait: the ring is full (R120), the claim is not in the boot flash, or the grant is away? -/
def readingBlocked (bucket : Nat) (s : State) : Bool :=
  s.pair.flashPending || !granted s || repostWaits s || !s.jr.delayed.isEmpty ||
  match postingRing s ⟨bucket, .reading 0 []⟩ with
  | some r => (match cqOpen s r with | some c => !c.waiting.isEmpty || cqFree s r c < 2 | none => false)
  | none => false

/-! ## Frames on BUFFER rings (R401, R402) -/

def framesOf (s : State) (b : Nat) : List HeldFrame := s.host.frames.getD b []
def setFrames (b : Nat) (l : List HeldFrame) (s : State) : State := setHost (fun h => { h with frames := Kv.putOr [] b l h.frames }) s

/-- The completion ring bound to a submission ring. -/
def boundCq (s : State) (n : Nat) : Nat := fieldOf s (sqCfg n) 20 16

/-- CMD_DONE of a command. -/
def cmdDone (h : Hdr) (st : Byte) (len items : Nat) (result : List Byte) (s : State) : State :=
  match h.origin with
  | .ring sq _ =>
    cqPush (boundCq s sq) ⟨st, BitVec.ofNat 8 sq, false, s.pair.claim, BitVec.zeroExtend 64 h.tag,
      .cmdDone len items (padTo 40 result), none, some sq⟩ s
  | _ => s

/-- RX_DATA of a buffer. -/
def rxData (b : Nat) (tag : W32) (st : Status) (d : BufDesc) (len index : Nat) (last trunc : Bool) (s : State) : State :=
  cqPush (boundCq s b) ⟨BitVec.ofNat 8 (statusCode st), BitVec.ofNat 8 b, false, s.pair.claim, BitVec.zeroExtend 64 tag,
    .rxData d.bufId len index (index == 0) last trunc, some b, none⟩ s

/-- Buffers whose descriptors do not fit the ring complete with BAD_AUTH, empty, when a frame passes them over, with the TAG of its
command (R395; DEDUCED, log entry 84). -/
def rxBad (b : Nat) (tag : W32) (l : List BufDesc) (s : State) : State :=
  l.foldl (fun t d => cqPush (boundCq t b) ⟨BitVec.ofNat 8 (statusCode .bad), BitVec.ofNat 8 b, false, t.pair.claim, BitVec.zeroExtend 64 tag,
    .rxData d.bufId 0 0 false false false, some b, none⟩ t) s

/-- Whole items among `n` bytes of a frame. -/
def wholeItems : Nat → List Nat → Nat
  | _, [] => 0
  | n, l :: t => if l ≤ n then 1 + wholeItems (n - l) t else 0

/-- The buffer before is complete, as not the last. -/
def flushLast (b : Nat) (f : HeldFrame) (s : State) : State :=
  match f.last with
  | some (d, n, i) => rxData b f.hdr.tag .ok d n i false false s
  | none => s

/-- Write the frames of a ring, one at a time, in its buffers in ring order (R401). -/
def runFrames (b : Nat) : Nat → State → State
  | 0, s => s
  | fuel + 1, s =>
    let v := sqOf s b
    match framesOf s b with
    | [] => s
    | f :: rest =>
      if f.rest.isEmpty then
        let s := match f.last with | some (d, n, i) => rxData b f.hdr.tag .ok d n i true false s | none => s
        runFrames b fuel (cmdDone f.hdr f.status f.written f.itemLen.length f.result (setFrames b rest s))
      else
        match v.bufs.dropWhile fun d => !d.ok with
        | [] => setFrames b ({ f with holding := f.holding.or (some s.tim.raw) } :: rest) s
        | d :: more =>
          let bad := v.bufs.takeWhile fun d => !d.ok
          let n := min d.len f.rest.length
          let index := match f.last with | some (_, _, i) => i + 1 | none => 0
          let s := rxBad b f.hdr.tag bad (flushLast b f (setSq b { v with bufs := more } s))
          let s := emit (.buffer d.bufId (f.rest.take n)) s
          runFrames b fuel (setFrames b ({ f with rest := f.rest.drop n, last := some (d, n, index), written := f.written + n,
                                                  holding := none } :: rest) s)

/-- Fuel for the frames of a ring: their buffers and themselves. -/
def frameFuel (s : State) (b : Nat) : Nat := (sqOf s b).bufs.length + (framesOf s b).length + 1

/-- A frame ends for want of a buffer (R402). -/
def endFrame (b : Nat) (f : HeldFrame) (s : State) : State :=
  let s := match f.last with | some (d, n, i) => rxData b f.hdr.tag .truncated d n i true true s | none => s
  let s := cmdDone f.hdr 1 f.written (wholeItems f.written f.itemLen) f.result s
  event 14 0x02 f.hdr.tag.toNat [] (count 0xE044 s)

/-! ## Response datagrams (R413) -/

/-- Cut bytes into datagrams: the first holds `first` bytes, the others `room`; at most `n`. -/
def cutData : Nat → Nat → Nat → List Byte → List (List Byte)
  | 0, _, _, _ => []
  | n + 1, first, room, l =>
    if l.length ≤ first then [l] else l.take first :: cutData n room room (l.drop first)

/-- A result without a RESULT of its own that fits the 40 inline bytes is returned inline (R401); ITEMS still counts its items. -/
def inlined (r : Reply) : Bool := r.result.isEmpty && decide (r.items.flatten.length ≤ 40)

/-- Answer over Ethernet: at most 128 datagrams that fit the path MTU, each with a CMAC when the command was authenticated. -/
def respond (p : Bool) (h : Hdr) (opcode : Nat) (r : Reply) (s : State) : State :=
  let v6 := match ethAddrs s p with | some a => a.ipv6 != 0 | none => true
  let room := pathMtu s p - (if v6 then 40 else 20) - 8 - 16 - (if h.auth.isSome then 16 else 0)
  let bytes := r.items.flatten
  let cap := room - 48 + 127 * room
  let cut := decide (cap < bytes.length)
  let sent := if inlined r then [] else bytes.take cap
  let items := if inlined r then r.items.length else wholeItems sent.length (r.items.map (·.length))
  let st := if cut then Status.truncated else r.status
  let head := be 4 sent.length ++ be 4 items ++ padTo 40 (if inlined r then bytes else r.result)
  let parts := cutData 128 (room - 48) room sent
  let auth := h.auth.map fun a => (a.slot.toNat, a.counter)
  (parts.zipIdx).foldl (fun t x =>
    let data := if x.2 = 0 then head ++ x.1 else x.1
    ethSend p 5 (data.length + 16 + (if h.auth.isSome then 16 else 0) + (if v6 then 48 else 28) + 18) 0
      (.response p opcode (statusCode st) x.2 (x.2 + 1 == parts.length) h.tag t.pair.claim auth data) t) s

/-- Complete a command: its frame and CMD_DONE (R401), or its response datagrams (R413). -/
def complete (h : Hdr) (opcode : Nat) (r : Reply) (s : State) : State :=
  match h.origin with
  | .gone => s
  | .eth p => respond p h opcode r s
  | .ring _ rx =>
    let bytes := r.items.flatten
    if inlined r then cmdDone h (BitVec.ofNat 8 (statusCode r.status)) 0 r.items.length bytes s
    else if bytes.isEmpty then cmdDone h (BitVec.ofNat 8 (statusCode r.status)) 0 r.items.length r.result s
    else
      match rx with
      | none => cmdDone h 4 0 0 [] s
      | some b =>
        if !bufferRing s b || !pciUp s then cmdDone h 4 0 0 [] s
        else
          let f : HeldFrame := { rest := bytes, last := none, written := 0, itemLen := r.items.map (·.length), hdr := h, opcode := opcode,
                                 status := BitVec.ofNat 8 (statusCode r.status), result := r.result, holding := none }
          let s := setFrames b (framesOf s b ++ [f]) s
          if (framesOf s b).length = 1 then runFrames b (frameFuel s b) s else s

/-- Answer a command that waited for something else; what it journalled is acknowledged first (R71). -/
def answer (h : Hdr) (opcode : Nat) (r : Reply) (s : State) : State :=
  if journalAcked (journalMark s) s then complete h opcode r s
  else { s with jr := { s.jr with replies := s.jr.replies ++ [⟨journalMark s, h, opcode, r⟩] } }

/-- Replies whose batch has been acknowledged, or whose standby is lost, go out. -/
def releaseReplies (s : State) : State :=
  let go := s.jr.replies.filter fun r => journalAcked r.batch s
  let s := { s with jr := { s.jr with replies := s.jr.replies.filter fun r => !journalAcked r.batch s } }
  go.foldl (fun t r => complete r.hdr r.opcode r.reply t) s

/-! ## The checks of every command -/

/-- Outcome of the checks of R410: refused with a status, or accepted. -/
inductive Checked where
  | refuse (r : Reply) (s : State)
  | accept (s : State)

/-- An authentication failure (R410): the count, and an event once per slot and second. -/
def authFail (opcode check slot : Nat) (s : State) : Checked :=
  .refuse .bad (secEvent 2 slot (event 2 0x01 (opcode * 65536 + check * 256 + slot) []) (count 0x2040 s))

/-- POS of TARGET (R406). -/
def posOk (s : State) (pos : BitVec 2) : Bool :=
  isLone s || pos == 0#2 || pos == (if (s.boot.bundle.map (·.pos)).getD false then 2#2 else 1#2)

/-- The key checks of R410: slot, CMAC, permission and counter. -/
def checkAuth (op : Nat) (a : Auth) (s : State) : Checked :=
  let n := a.slot.toNat
  match Kv.get? n s.sec.slots with
  | none => authFail op 2 n s
  | some k =>
    if a.key != k.key then authFail op 3 n s
    else if !k.perms.getLsbD (op / 256) then authFail op 4 n s
    else if a.counter ≤ s.sec.counters.getD n 0 then .refuse .stale (count 0x2044 s)
    else if grantOpcode op && isStandby s then .refuse .notActive s
    else .accept { s with sec := { s.sec with counters := Kv.put n a.counter s.sec.counters } }

/-- The checks of R410 in their order; an accepted counter is stored (R411). -/
def checkCommand (h : Hdr) (c : Cmd) (s : State) : Checked :=
  let op := cmdOpcode c
  if !h.formOk || h.version != 1 || cmdReserved c || h.service != ownService s || !posOk s h.pos then .refuse .bad (count 0x818 s)
  else match h.auth with
    | none =>
      if authOpcode op then authFail op 1 0xFF s
      else if grantOpcode op && isStandby s then .refuse .notActive s
      else .accept s
    | some a => checkAuth op a s

/-- Does an ENG cluster run (R43)? -/
def engRuns (s : State) : Bool := (List.range 4).any fun c => islInRun s (17 + c)

/-- RST_POWER is written in HOLD. -/
def toPower : Cmd → Bool
  | .regWriteAu off _ _ => off == 0x1702C
  | _ => false

/-- What the state of the unit lets through of an accepted command: HOLD (R525), the responder of R43, role none, which serves reads and
leaves RULE_LOAD to name the role as its failed check (R4, R143, R415), a HEAD unit whose table has gone with MEM (R42), a zeroised unit
(R415), and an ordinary write over Ethernet (R413). -/
def entryCheck (h : Hdr) (c : Cmd) (s : State) : Option Reply :=
  let op := cmdOpcode c
  let group := op / 256
  if s.boot.power == .hold then
    if toPower c || [0x0001, 0x0A01, 0x0801, 0x0103, 0x0A03, 0x0A05].contains op then none else some .busy
  else if !engRuns s then
    if [0x0001, 0x0002, 0x0A01, 0x0801].contains op then none else some .busy
  else if (match h.origin with | .eth _ => true | _ => false) && writeOpcode op && fieldOf s 0x800 15 15 = 0 then some .bad
  else if s.sec.zeroised && (writeOpcode op || authOpcode op) then some .bad
  else if roleOf s == 0#2 && 2 ≤ group && group ≤ 6 && op != 0x0301 && (writeOpcode op || authOpcode op) then some .bad
  else if isHead s && !islInRun s 3 && (group = 2 || (4 ≤ group && group ≤ 6)) then some .bad
  else none

/-- Does the unit serve management at all: started, in a mode that does, with SEC, and TEST_EN low (R42, R513, R553)? -/
def managed (s : State) : Bool :=
  !s.boot.testEn && s.boot.phase == .started && (s.boot.mode == .normal || s.boot.mode == .recovery) && (islInRun s 2 || (islOf s 2).st == .gated)

/-- Submission ring a command came from. -/
def ringOf (h : Hdr) : Option Nat := match h.origin with | .ring q _ => some q | _ => none

/-- Commands that may act on a meter (opcode groups 2, 4, 5 and 6). -/
def meterGroup (op : Nat) : Bool := let g := op / 256; g = 2 || (4 ≤ g && g ≤ 6)

/-- Does an earlier reply of the same ring still wait? Commands of one ring on one meter complete in ring order (R396); the model
keeps that order for all commands of the groups that act on meters. -/
def behindReply (h : Hdr) (op : Nat) (s : State) : Bool :=
  meterGroup op && (ringOf h).isSome && s.jr.replies.any fun r => ringOf r.hdr == ringOf h && meterGroup r.opcode

/-- The reply waits with the last of them. -/
def holdReply (h : Hdr) (op : Nat) (r : Reply) (s : State) : State :=
  { s with jr := { s.jr with replies := s.jr.replies ++ [⟨max (journalMark s) ((s.jr.replies.getLast?.map (·.batch)).getD 0), h, op, r⟩] } }

/-- The meters a host command is for (R78): slots, or a title. -/
def cmdMeters : Cmd → List (Nat ⊕ W64)
  | .tblRead n | .tblWrite n .. | .tblKeyStage n .. | .tblRetire n | .tblSet n .. | .keySignerLoad n .. | .balMeterRead n => [.inl n]
  | .tblFind t => [.inr t]
  | .balResetScores kind ids => if kind = 0 then ids.map .inl else []
  | .campAddMembers _ l | .campRemoveMembers _ l => l.map .inl
  | _ => []

/-- Does a command wait behind readings of its meters that have not committed, or behind an earlier command that does (R78)? -/
def meterBusy (c : Cmd) (s : State) : Bool :=
  (cmdMeters c).any fun m =>
    s.pipe.flight.any (fun f => f.stage != .committed && (match m with | .inl n => f.slot == some n | .inr t => f.item.title == some t))
      || s.stalled.any fun x => (cmdMeters x.2).contains m

/-- A reply to a command whose body ran: it waits for the journal when the body journalled something (R71). -/
def replyAfter (before : State) (h : Hdr) (op : Nat) (r : Reply) (s : State) : State :=
  if r.status == .later then s
  else if behindReply h op s then holdReply h op r s
  else if s.jr.open_.length == before.jr.open_.length && s.jr.nextNum == before.jr.nextNum then complete h op r s
  else answer h op r s

/-- The counter travels with what an authenticated command journals (R412). -/
def journalCounter (before : State) (h : Hdr) (s : State) : State :=
  match h.auth with
  | some a => if s.jr.open_.length == before.jr.open_.length then s else journal (.counter a.slot.toNat a.counter) s
  | none => s

/-- A command is the next item of the gated islands that serve it (R525): SEC, the cluster that runs its firmware, FLS for group 9. -/
def wakeFor (op : Nat) (s : State) : State :=
  let s := wake (lowestEng s) (wake 2 s)
  if op / 256 = 9 then wake 4 s else s

/-- A command with its checks done. -/
def runChecked (h : Hdr) (c : Cmd) (body : State → State × Reply) (s : State) : State :=
  let op := cmdOpcode c
  match checkCommand h c (wakeFor op s) with
  | .refuse r s => complete h op r s
  | .accept s =>
    match entryCheck h c s with
    | some r => complete h op r s
    | none =>
      if meterBusy c s then { s with stalled := s.stalled ++ [(h, c)] }
      else
      let x := body s
      replyAfter s h op x.2 (journalCounter s h x.1)

/-- Over Ethernet: the port must be up, and MGMT_RATE commands are accepted in a second (R413). -/
def ethAdmit (h : Hdr) (s : State) : Option State :=
  match h.origin with
  | .eth p =>
    if !ethLink s p then none
    else if fieldOf s 0x800 11 0 ≤ s.win.mgmt then none
    else some (count 0x810 { s with win := { s.win with mgmt := s.win.mgmt + 1 } })
  | _ => some s

/-- A command fetched from a ring is in flight until its CMD_DONE is written (R394). -/
def startInFlight (h : Hdr) (s : State) : State :=
  match h.origin with
  | .ring sq _ => setSq sq { sqOf s sq with inFlight := (sqOf s sq).inFlight + 1 } s
  | _ => s

/-- A management command: the queue of a swap (R371), which holds all but a second PAIR_SWAP (R372; log entry 88), the rate over Ethernet, the checks, then its own chapter. -/
def command (h : Hdr) (c : Cmd) (body : State → State × Reply) (s : State) : State :=
  if !managed s then s
  else match (if c == .pairSwap then none else s.pair.swap) with
    | some w => { s with pair := { s.pair with swap := some { w with queued := w.queued ++ [(h, c)] } } }
    | none =>
      match ethAdmit h s with
      | none => (match h.origin with | .eth p => if ethLink s p then count 0x814 s else s | _ => s)
      | some s => runChecked h c body (startInFlight h s)

end Sys2Proof.Machine
end

