-- ==== Sys2Proof/Machine/ArchiveOps.lean ====
section
/-!
DEFINITION. Sys2Proof/Machine/ArchiveOps.lean: the archive's operations (chapter 13): block states, opening and programming
blocks, collection, retirement, page reads, appends, the overflow ring and the health grade (R421 to R446).
-/
namespace Sys2Proof.Machine

/-! ## Geometry and counts -/

/-- The first target in use decides the geometry (R421). -/
def geom (s : State) : Option NandTarget := s.arch.targets.head?
/-- Sectors of a page (R423). -/
def secPerPage (s : State) : Nat := ((geom s).map (·.pageKib / 4)).getD 1
/-- Pages of a block. -/
def pagesPerBlock (s : State) : Nat := ((geom s).map (·.pages)).getD 1
/-- Data bytes of a block in KiB. -/
def blockKib (s : State) : Nat := ((geom s).map (fun t => t.pages * t.pageKib)).getD 1
/-- Blocks of one target. -/
def blocksPerTarget (s : State) : Nat := ((geom s).map (·.blocks)).getD 1
/-- Target of a block. -/
def targetOf (s : State) (b : Nat) : Nat := b / blocksPerTarget s

def noWriteRec : WriteRec := ⟨0, 0, 0, 0⟩
def blockEmpty : Block := ⟨.free, 0, 0, 0, none, noWriteRec, []⟩
def blockOf (s : State) (b : Nat) : Block := s.arch.blocks.getD b blockEmpty
def setArch (f : Archive → Archive) (s : State) : State := { s with arch := f s.arch }
def putBlock (b : Nat) (v : Block) (s : State) : State := setArch (fun a => { a with blocks := Kv.put b v a.blocks }) s

/-- Blocks in a state (R436, R450). -/
def blkCount (s : State) (st : BlkSt) : Nat := (s.arch.blocks.filter fun p => p.2.st == st).length
/-- FLS_BLK_TOTAL: every block of the store. -/
def blkTotal (s : State) : Nat := s.arch.blocks.length

/-- Junction temperature in 0.01 °C: the last sample of monitor channel 0 (R430, R482). -/
def junction (s : State) : Int := (s.mon.getD 0 monEmpty).last

/-- Is the store there to take writes and reads? -/
def storeUp (s : State) : Bool := islInRun s 4 && (s.arch.st == .ready || s.arch.st == .keepFull || s.arch.st == .readOnly)

/-- One map-journal record; every 4,096 a new checkpoint is written to the other area, with the thermal age (R437, R430). -/
def mapJournal (s : State) : State :=
  setArch (fun a => if a.jrecs + 1 < 4096 then { a with jrecs := a.jrecs + 1 }
    else { a with jrecs := 0, area := !a.area, ageCkpt := a.age }) s

/-! ## READ_ONLY and the free pool -/

/-- The store enters READ_ONLY when SPARE is 0 and FREE is below GC_RESERVE (R440). -/
def checkReadOnly (s : State) : State :=
  let res := (s.arch.layout.map (·.gcReserve)).getD 0
  if (s.arch.st == .ready || s.arch.st == .keepFull) && blkCount s .spare == 0 && decide (blkCount s .free < res) then
    setArch (fun a => { a with st := .readOnly }) s
  else s

/-- The FREE block with the lowest PE count, lowest number first (R435); with `worn`, the most-worn one. -/
def pickFree (worn : Bool) : Kv Block → Option (Nat × Nat)
  | [] => none
  | (b, v) :: t =>
    if v.st != .free then pickFree worn t
    else match pickFree worn t with
      | some (c, pe) => if (worn && decide (v.pe < pe)) || (!worn && decide (pe < v.pe)) then some (c, pe) else some (b, v.pe)
      | none => some (b, v.pe)

/-- The write record of a block opened now (R431). -/
def writeRecNow (s : State) (pe : Nat) : WriteRec := ⟨s.arch.age, localSec s, junction s, pe⟩

/-- Open a FREE block for a zone. -/
def openBlock (zone : Nat) (worn : Bool) (s : State) : Option (Nat × State) :=
  match pickFree worn s.arch.blocks with
  | none => none
  | some (b, pe) => some (b, mapJournal (putBlock b ⟨.open_, zone, pe, 0, none, writeRecNow s pe, []⟩ s))

/-- Program one page of a block; the last page fills it (R423, R436). `secs` are zone, LSN, mapped and data of each sector. -/
def programPage (b : Nat) (secs : List (Nat × Nat × Bool × SecData)) (s : State) : State :=
  let v := blockOf s b
  let seq := s.arch.pseq + 1
  let page := secs.map fun (z, l, m, d) => (⟨z, l, seq, m, d⟩ : Sector)
  let v := { v with pages := v.pages ++ [page] }
  let v := if pagesPerBlock s ≤ v.pages.length then { v with st := .data } else v
  count 0x4060 (putBlock b v (setArch (fun a => { a with pseq := seq }) s))

/-- Take a spare into service for a retired block (R434); with none, READINGS shrinks by one block (R448). -/
def replaceBlock (st : BlkSt) (zone : Nat) (s : State) : State :=
  match s.arch.blocks.find? (fun p => p.2.st == .spare) with
  | some (c, w) => checkReadOnly (putBlock c { w with st := st, zone := zone } s)
  | none => checkReadOnly (setArch (fun a => { a with layout := a.layout.map fun l => { l with readings := l.readings - 1 } }) s)

/-- Erase a block: one PE cycle more; at PE_LIMIT it is retired instead of FREE (R434, R437). -/
def eraseBlock (b : Nat) (s : State) : State :=
  let v := blockOf s b
  let pe := v.pe + 1
  let lim := ((s.arch.prof.map (·.peLimit)).getD 0)
  let st : BlkSt := if lim != 0 && lim ≤ pe then .retired else .free
  let s := putBlock b { blockEmpty with st := st, pe := pe } s
  if st == .retired then replaceBlock .free 0 s else s

/-- The OPEN block of a per-sector zone. -/
def openOf (s : State) (zone : Nat) : Option Nat :=
  (s.arch.blocks.find? fun p => p.2.st == .open_ && p.2.zone == zone).map (·.1)

/-- Program sectors of a per-sector zone, page by page; the first sector of a block is its write record (R423). -/
def programSectors (zone : Nat) (fuel : Nat) (l : List (Nat × SecData)) (s : State) : Option State :=
  match fuel with
  | 0 => some s
  | fuel + 1 =>
    if l.isEmpty then some s
    else
      let target : Option (Nat × State) := match openOf s zone with
        | some b => some (b, s)
        | none => openBlock zone false s
      match target with
      | none => none
      | some (b, s) =>
        let first := (blockOf s b).pages.isEmpty
        let k := secPerPage s - b2n first
        let head : List (Nat × Nat × Bool × SecData) := if first then [(zone, 0, false, .writeRec)] else []
        let secs := head ++ (l.take k).map fun (n, d) => (zone, n, true, d)
        let secs := secs ++ List.replicate (secPerPage s - secs.length) (zone, 0, false, SecData.padding)
        programSectors zone fuel (if k = 0 then l else l.drop k) (programPage b secs s)

/-- Unmap a logical sector of a zone, wherever it stands. -/
def unmapLsn (zone lsn : Nat) (s : State) : State :=
  setArch (fun a => { a with blocks := a.blocks.map fun (b, v) =>
    (b, if v.zone = zone then { v with pages := v.pages.map fun p => p.map fun x =>
      if x.zone = zone && x.lsn = lsn then { x with mapped := false } else x } else v) }) s

/-! ## READINGS -/

/-- Records of a sector. -/
def secRecords : SecData → List (Nat × List Byte)
  | .readings l => l
  | _ => []

/-- Records a block holds in mapped sectors, in order. -/
def blockRecords (v : Block) : List (Nat × List Byte) :=
  v.pages.flatMap fun p => p.flatMap fun x => if x.mapped then secRecords x.data else []

/-- The READINGS blocks with a record, each with its first number. -/
def readingBlocks (s : State) : List (Nat × Nat) :=
  s.arch.blocks.filterMap fun (b, v) =>
    if v.zone = 5 && (v.st == .data || v.st == .open_) then (blockRecords v).head?.map fun r => (b, r.1) else none

/-- The least of a list of numbers with a default. -/
def minD (d : Nat) (l : List Nat) : Nat := match l with | [] => d | x :: t => t.foldl min x

/-- Oldest ARCHIVE_SEQ held, or the next to be given (R574). -/
def oldestSeq (s : State) : Nat :=
  minD s.arch.next ((readingBlocks s).map (·.2) ++ (s.arch.wq.filterMap id).map (·.1) ++ s.arch.ovf.map (·.1))

/-- READINGS blocks in use. -/
def readingsUsed (s : State) : Nat :=
  (s.arch.blocks.filter fun p => p.2.zone == 5 && (p.2.st == .open_ || p.2.st == .data || p.2.st == .stale)).length

/-- Add a missing range, joined to the last one when it follows on (R444). -/
def addMissing (lo hi : Nat) (s : State) : State :=
  if hi < lo then s
  else setArch (fun a => { a with missing :=
    match a.missing.getLast? with
    | some (x, y) => if y + 1 = lo then a.missing.dropLast ++ [(x, hi)] else a.missing ++ [(lo, hi)]
    | none => [(lo, hi)] }) s

/-- Erase a STALE READINGS block, or with RETAIN 0 free the oldest one, its records counting as wrapped (R437, R439, R440).
None: nothing can be freed. -/
def freeReadings (s : State) : Option State :=
  match s.arch.blocks.find? (fun p => p.2.zone == 5 && p.2.st == .stale) with
  | some (b, _) => some (count 0x4078 (eraseBlock b s))
  | none =>
    if fieldOf s 0x4000 30 30 = 1 then none
    else match (readingBlocks s).filter (fun p => (blockOf s p.1).st == .data) with
      | [] => none
      | x :: t =>
        let (b, _) := t.foldl (fun (m : Nat × Nat) p => if p.2 < m.2 then p else m) x
        some (count 0x4078 (eraseBlock b (countBy 0x4088 (blockRecords (blockOf s b)).length s)))

/-- The open READINGS block that takes the next page: of the target whose turn it is, a fresh one when it has none; none:
READINGS is full. -/
def readingsTarget (s : State) : Option (Nat × State) :=
  let n := max 1 s.arch.targets.length
  let t := s.arch.turn % n
  match Kv.get? t s.arch.openR with
  | some b => some (b, s)
  | none =>
    let quota := (s.arch.layout.map (·.readings)).getD 0
    let s? := if readingsUsed s < quota then some s else freeReadings s
    match s? with
    | none => none
    | some s => match openBlock 5 false s with
      | none => none
      | some (b, s) => some (b, setArch (fun a => { a with openR := Kv.put t b a.openR }) s)

/-- Are all pages that the paired-page map pairs with page `p` programmed in block `b` (R428)? -/
def pairedDone (s : State) (b p : Nat) : Bool :=
  let pm := (s.arch.prof.map (·.paired)).getD []
  let low := pm.getD p p
  let done := (blockOf s b).pages.length
  (List.range pm.length).all fun q => pm.getD q q != low || decide (q < done)

/-- Advance the durable mark over the pages whose pairs are written, in log order (R428). -/
def settle (s : State) : List (Nat × Nat × Nat) → State
  | [] => setArch (fun a => { a with notDurable := [] }) s
  | (b, p, e) :: t =>
    if pairedDone s b p then settle (setArch (fun a => { a with durable := max a.durable e }) s) t
    else setArch (fun a => { a with notDurable := (b, p, e) :: t }) s

/-- Split a page's records into sectors of 64. -/
def toSectors : Nat → List (Option (Nat × List Byte)) → List SecData
  | 0, _ => []
  | n + 1, l => .readings ((l.take 64).filterMap id) :: toSectors n (l.drop 64)

/-- Records in a page of the block that is next. -/
def pageRecords (s : State) (b : Nat) : Nat := 64 * (secPerPage s - b2n (blockOf s b).pages.isEmpty)

/-- Program the next READINGS page from the write queue, if it holds one (R427). -/
def programReadings (s : State) : State :=
  if !(islRun s 4) || s.arch.st != .ready || s.arch.writeback then s
  else match readingsTarget s with
    | none =>
      if (pickFree false s.arch.blocks).isNone && readingsUsed s < (s.arch.layout.map (·.readings)).getD 0 then
        setArch (fun a => { a with st := .readOnly }) s
      else setArch (fun a => { a with st := .keepFull }) s
    | some (b, s') =>
      let n := pageRecords s' b
      if s'.arch.wq.length < n then s
      else
        let recs := s'.arch.wq.take n
        let first := (blockOf s' b).pages.isEmpty
        let secs := toSectors (n / 64) recs
        let lsn := s'.arch.logSec
        let page := (if first then [((5 : Nat), lsn % 2 ^ 32, true, SecData.writeRec)] else []) ++ secs.zipIdx.map fun d => (5, (lsn + d.2) % 2 ^ 32, true, d.1)
        let pg := (blockOf s' b).pages.length
        let top := (recs.filterMap id).foldl (fun m r => max m (r.1 + 1)) 0
        let s := programPage b page (setArch (fun a => { a with wq := a.wq.drop n, logSec := lsn + secs.length }) s')
        let s := if (blockOf s b).st == .data then setArch (fun a => { a with openR := a.openR.filter (fun p => p.2 != b) }) s else s
        let s := setArch (fun a => { a with turn := a.turn + 1, notDurable := a.notDurable ++ [(b, pg, top)] }) s
        settle s s.arch.notDurable

/-- Pad the sector being filled, and its page (ARCHIVE_FLUSH_EXPIRY, R427). -/
def padQueue (s : State) : State :=
  match readingsTarget s with
  | none => s
  | some (b, s') =>
    let n := pageRecords s' b
    let k := s.arch.wq.length % n
    if k = 0 then s else setArch (fun a => { a with wq := a.wq ++ List.replicate (n - k) none }) s

/-- Program pages until the queue holds no whole one. -/
def drainQueue : Nat → State → State
  | 0, s => s
  | n + 1, s => drainQueue n (programReadings s)

/-! ## Numbers and appends -/

/-- Give the next ARCHIVE_SEQ; the first number past the reservation reserves 65,536 more (R427). -/
def takeSeq (s : State) : Nat × State :=
  let n := s.arch.next
  let s := setArch (fun a => { a with next := n + 1 }) s
  if s.arch.resEnd ≤ n then (n, mapJournal (setArch (fun a => { a with resEnd := n + 65536 }) s)) else (n, s)

/-- Has the unit an overflow ring (R441)? -/
def hasRing (s : State) : Bool := !isField s || dramTable s

/-- Records the write queue holds at most: 64 MiB, or 1 MiB in a FIELD unit without DRAM (R427). -/
def wqMax (s : State) : Nat := if hasRing s then 1048576 else 16384

/-- A dropped append: its number is missing (R441). -/
def appendLost (n : Nat) (s : State) : State :=
  let s := count 0x4090 (addMissing n n s)
  let s := setArch (fun a => { a with ovfLostSince := a.ovfLostSince + 1 }) s
  minuteEvent 7 0 (fun s => setArch (fun a => { a with ovfLostSince := 0 }) (event 4 0x07 (min s.arch.ovfLostSince 0xFFFFFFFF) [] s)) s

/-- An append to the overflow ring (R441). -/
def appendOverflow (n : Nat) (rec : List Byte) (s : State) : State :=
  if !hasRing s || 1048576 ≤ s.arch.ovf.length then appendLost n s
  else count 0x408C (setArch (fun a => { a with ovf := a.ovf ++ [(n, rec)] }) s)

/-- A numbered append (R427, R440): to the write queue while the store is MOUNTING or READY and there is room, else to the ring. -/
def appendAt (n : Nat) (rec : List Byte) (s : State) : State :=
  let s := wake 4 s
  if islInRun s 4 && (s.arch.st == .mounting || s.arch.st == .ready) && s.arch.wq.length < wqMax s then
    setArch (fun a => { a with wq := a.wq ++ [some (n, rec)], fillAt := if a.wq.length % 64 = 0 then s.tim.raw else a.fillAt }) s
  else appendOverflow n rec s

/-- A campaign, spool or checkpoint write that READ_ONLY turns away (R440): counted, with an event once per hour. -/
def writeRefused (s : State) : State :=
  if islInRun s 4 && s.arch.st == .readOnly then hourEvent 4 0 (event 4 0x06 0 []) (count 0x4094 s) else s

/-- Append an archived reading record (R427), journalled to the standby with its number (R360). -/
def archiveReading (rec : List Byte) (s : State) : State :=
  let (n, s) := takeSeq s
  journal (.append n rec) (appendAt n rec s)

/-! ## Reading pages, refresh, retirement -/

/-- The class of a value among rising bounds: the first bound at or above it, the last class past them all. -/
def boundIndex (v : Nat) (bs : List Nat) : Nat := min ((bs.takeWhile (· < v)).length) (bs.length - 1)

/-- Level L of R432 step 1. -/
def readLevel (s : State) (v : Block) : Nat :=
  match v.hint with
  | some h => h
  | none => match s.arch.prof with
    | none => 0
    | some p =>
      let l := p.grid.getD (boundIndex (s.arch.age - v.wr.age) p.ageBounds * p.peBounds.length + boundIndex v.pe p.peBounds) 0
      (clampI 0 (p.levels - 1 : Nat) ((l : Int) + Int.tdiv (junction s - v.wr.temp) 1000)).toNat

/-- The other levels, nearest to L first (R432 step 3). -/
def otherLevels (levels l : Nat) : List Nat :=
  (List.range levels).flatMap fun d => (if d + 1 ≤ l then [l - (d + 1)] else []) ++ (if l + d + 1 < levels then [l + d + 1] else [])

/-- Move a block's valid content to a new block, commit the remap and erase the source (R437); `skip` pages cannot be read
and are left out (R434); `worn` sends the content to the most-worn FREE block (R435). -/
def collectTo (b : Nat) (skip : List Nat) (worn retired : Bool) (s : State) : State :=
  let v := blockOf s b
  let keep := v.pages.zipIdx.map fun (p, i) => if skip.contains i then p.map (fun x => { x with mapped := false }) else p
  let lost := v.pages.zipIdx.flatMap fun (p, i) => if skip.contains i then p.flatMap (fun x => if x.mapped then secRecords x.data else []) else []
  let s := lost.foldl (fun t r => addMissing r.1 r.1 t) s
  let moved : Option State :=
    if v.zone = 5 || worn then
      if v.pages.all (fun p => p.all fun x => !x.mapped) || v.st == .free || (v.zone = 5 && (blockRecords { v with pages := keep }).isEmpty) then some s
      else match openBlock v.zone worn s with
        | none => none
        | some (d, s) =>
          let s := keep.foldl (fun t p => programPage d (p.map fun x => (x.zone, x.lsn, x.mapped, x.data)) t) s
          let s := if v.st != .open_ then putBlock d { blockOf s d with st := .data } s
            else setArch (fun a => { a with openR := a.openR.map fun p => if p.2 = b then (p.1, d) else p }) s
          some (setArch (fun a => { a with notDurable := a.notDurable.map fun p => if p.1 = b then (d, p.2) else p }) s)
    else
      let secs := keep.flatMap fun p => p.filterMap fun x => if x.mapped then some (x.lsn, x.data) else none
      let s := putBlock b { v with st := .stale } s
      programSectors v.zone (secs.length + 2) secs s
  match moved with
  | none => setArch (fun a => { a with st := .readOnly }) (putBlock b v s)
  | some s =>
    let s := mapJournal s
    if retired then
      let s := putBlock b { v with st := .retired, pages := keep.map fun p => p.map fun x => { x with mapped := false } } s
      if v.st == .metaBlk then replaceBlock .metaBlk v.zone s else replaceBlock .free 0 s
    else eraseBlock b (count 0x4078 s)

/-- Refresh a block (R433). -/
def refresh (b : Nat) (s : State) : State :=
  if (blockOf s b).st == .data then count 0x4074 (collectTo b [] false false s) else s

/-- Retire a block whose page `p` cannot be read, programmed or erased (R434). -/
def retireBlock (b : Nat) (skip : List Nat) (s : State) : State := collectTo b skip false true s

/-- Read one page (R432): did it decode, and the state after. The counts, the hint, the refresh of R433 and the retirement of
R434 happen here. -/
def pageRead (ms : List Media) (b p : Nat) (s : State) : Bool × State :=
  let v := blockOf s b
  let s := count 0x4064 s
  let v := { v with reads := v.reads + 1 }
  let l := readLevel s v
  let lim := decide (fieldOf s 0x4008 23 8 * 1000 ≤ v.reads)
  match ms.find? (fun m => m.block = b && m.page = p) with
  | none => let s := putBlock b v s; (true, if lim then refresh b s else s)
  | some m =>
    if m.hard.contains l then
      let s := putBlock b v s
      (true, if lim || decide (fieldOf s 0x4008 31 24 ≤ m.pct) then refresh b s else s)
    else
      let s := count 0x4068 s
      if m.soft then (true, refresh b (putBlock b { v with hint := some l } s))
      else
        let others := otherLevels ((s.arch.prof.map (·.levels)).getD 1) l
        let tries := (others.takeWhile fun x => !m.hard.contains x).length
        match others.find? m.hard.contains with
        | some x => (true, refresh b (putBlock b { v with hint := some x } (countBy 0x406C (tries + 1) s)))
        | none =>
          let s := count 0x4070 (countBy 0x406C tries (putBlock b v s))
          let s := setArch (fun a => { a with uncorrAt := some s.tim.raw }) s
          (false, retireBlock b [p] (event 4 0x05 (p % 4096 * 2 ^ 20 + b % 2 ^ 20) [] s))

/-- Where a record stands in the store: block and page. -/
def findRecord (s : State) (n : Nat) : Option (Nat × Nat × List Byte) :=
  s.arch.blocks.findSome? fun (b, v) =>
    if v.zone != 5 || !(v.st == .data || v.st == .open_) then none
    else v.pages.zipIdx.findSome? fun (p, i) => p.findSome? fun x =>
      if x.mapped then ((secRecords x.data).find? (fun r => r.1 = n)).map fun r => (b, i, r.2) else none

/-- Read `k` records from number `n` on (R444): queue first, records not yet durable too (R428), then the store, each page once, then the ring; the delivered
records, whether a record could not be delivered, and the state. -/
def readRecords (ms : List Media) : Nat → Nat → Option (Nat × Nat) → State → List (List Byte) × Bool × State
  | 0, _, _, s => ([], false, s)
  | k + 1, n, last, s =>
    if s.arch.next ≤ n then ([], false, s)
    else
      let item (r : List Byte) := be 8 n ++ r
      match (s.arch.wq.filterMap id ++ s.arch.ovf).find? (fun r => r.1 = n) with
      | some (_, r) =>
        let (l, t, s) := readRecords ms k (n + 1) last s
        (item r :: l, t, s)
      | none => match findRecord s n with
        | none => ([], true, s)
        | some (b, p, r) =>
          let (ok, s) := if last = some (b, p) || s.arch.durable ≤ n then (true, s) else pageRead ms b p s
          if !ok then ([], true, s)
          else
            let (l, t, s) := readRecords ms k (n + 1) (some (b, p)) s
            (item r :: l, t, s)

/-! ## Health (R443) -/

/-- Highest and lowest PE count among blocks of some states. -/
def peMax (s : State) : Nat := s.arch.blocks.foldl (fun m p => if p.2.st == .data || p.2.st == .free then max m p.2.pe else m) 0

/-- FLS_STATUS.REASON. -/
def archReason (s : State) : Nat :=
  let a := s.arch
  let lim := (a.prof.map (·.peLimit)).getD 0
  b2n (a.st == .readOnly) * 128
    + b2n (a.st == .failed || (isHead s && (!islInRun s 4 || a.st == .off))) * 64
    + b2n (decide (1048576 ≤ a.ovf.length)) * 32 + b2n (!a.ovf.isEmpty) * 16 + b2n (a.st == .keepFull) * 8
    + b2n (match a.layout with | some l => decide (blkCount s .spare * 4 < l.spares) | none => false) * 4
    + b2n (lim != 0 && decide (lim * 9 ≤ peMax s * 10)) * 2
    + b2n (match a.uncorrAt with | some t => decide (s.tim.raw < t + 86400000000000) | none => false)

/-- The archive health grade: 0 green, 1 amber, 2 crimson. -/
def archGrade (s : State) : Nat := let r := archReason s; if 32 ≤ r then 2 else if r = 0 then 0 else 1

/-- Code of a store state. -/
def archCode : ArchSt → Nat
  | .off => 0 | .mounting => 1 | .ready => 2 | .keepFull => 3 | .readOnly => 4 | .failed => 5

/-- LIFE_PCT: the mean PE count of DATA and FREE blocks as a percentage of PE_LIMIT. -/
def lifePct (s : State) : Nat :=
  let l := s.arch.blocks.filter fun p => p.2.st == .data || p.2.st == .free
  let lim := (s.arch.prof.map (·.peLimit)).getD 0
  if l.isEmpty || lim = 0 then 0 else min 255 ((l.foldl (fun m p => m + p.2.pe) 0) * 100 / (l.length * lim))

/-- FLS_STATUS (R449). -/
def flsStatus (s : State) : W32 :=
  BitVec.ofNat 32 (archCode s.arch.st * 2 ^ 28 + archGrade s * 2 ^ 26 + archReason s * 256 + lifePct s)

/-- Run a change and raise the ARCHIVE notice when the grade changed (CTL_NOTICE of R543). -/
def withGrade (f : State → State) (s : State) : State :=
  let t := f s
  if archGrade t = archGrade s then t else notice 4 t

end Sys2Proof.Machine
end

