-- ==== Sys2Proof/Machine/RelayOps.lean ====
section
/-!
DEFINITION. Sys2Proof/Machine/RelayOps.lean: the sending side of the relay (chapter 09): paths, the hold area, batches, windows,
the spool, and the PAUSE and RESUME that the intake queues 6 and 7 cause (R306, R308, R312 to R316).
-/
namespace Sys2Proof.Machine

/-- The head pair as a receiver: a FIELD unit sends to its relay address and holds no service ID of it. -/
def headUnit : BitVec 12 := 0xFFF#12

def setRelay (f : RelayState → RelayState) (s : State) : State := { s with relay := f s.relay }

/-! ## Paths (R315) -/

/-- Ports as numbers. -/
def portNo (p : Bool) : Nat := b2n p
/-- Key of a receiver and port. -/
def pathKey (to_ : BitVec 12) (p : Bool) : Nat := to_.toNat * 2 + b2n p

/-- CTL_RELAY_TIMING.RETRIES. -/
def relayRetries (s : State) : Nat := fieldOf s 0x704 19 16

/-- The transceiver over which a backhaul child reaches its time parent (R317): ROLE child, joined. -/
def radioUplink (s : State) : Option Bool :=
  if !isField s then none
  else [false, true].find? fun r => islInRun s (9 + b2n r) && fieldOf s (0x9000 + 0x1000 * b2n r) 30 29 = 1
    && (match Kv.get? (b2n r) s.rf with | some v => v.sync && v.key.isSome | none => false)

/-- A backhaul child without LINK on ETH0 sends over radio in its place (log entry 48). -/
def overRadioPath (s : State) (p : Bool) : Option Bool := if p || ethLink s false then none else radioUplink s

/-- Is a path to a receiver up: LINK, and fewer than RETRIES consecutive resends outstanding (R315)? -/
def pathUp (s : State) (to_ : BitVec 12) (p : Bool) : Bool :=
  (ethLink s p || (overRadioPath s p).isSome) && decide (s.relay.fails.getD (pathKey to_ p) 0 < relayRetries s)

/-- Is a FIELD unit's uplink up: at least one path up (R316)? -/
def uplinkUp (s : State) : Bool := pathUp s headUnit false || pathUp s headUnit true

/-- Bytes of an entry in a frame: header, body, padding to 4 (R307). -/
def entryLen (e : Entry) : Nat := let n := (entryBody e); 4 + (n + 3) / 4 * 4

/-- Bytes in the hold area (R313). -/
def holdUsed (s : State) : Nat :=
  let es (l : List Entry) : Nat := l.foldl (fun a e => a + entryLen e) 0
  s.relay.open_.foldl (fun a p => a + es (p.2.map (·.2))) 0
    + (s.relay.unacked.foldl (fun (a : Nat × List Nat) b => if a.2.contains b.id then a
        else (a.1 + es (b.ents.filterMap fun x => match x with | .whole e => some e | _ => none), b.id :: a.2)) (0, [])).1

/-- Size of the hold area in units of 16 KiB (R313, R322). -/
def holdCap (s : State) : Nat := if isHead s then 4096 else if dramTable s then 2048 else 64

/-- Is there an archive to spool to: fitted, with FLS in service (R42, R316)? -/
def archiveUp (s : State) : Bool := s.boot.archiveFitted && islInRun s 4 && s.arch.st != .failed

/-- Can the uplink take relay entries: up, room in the hold area, and nothing in a spool within reach before them (R42, R109, R316)? -/
def uplinkTakes (s : State) : Bool := uplinkUp s && !(s.relay.spooling && archiveUp s) && decide (holdUsed s < holdCap s * 16384)

/-- Postings of a FIELD unit without an archive that takes writes wait while its uplink takes nothing (R42, R316, R440). -/
def relayBlocked (s : State) : Bool := !(archiveUp s && archiveWritable s) && !uplinkTakes s

/-- The title an entry is about. -/
def entryTitle : Entry → Option W64
  | .reading r => r.title
  | .joinReport t .. | .fetch t | .release t | .fetchNak t | .unknown t .. => some t
  | .record img _ => some (BitVec.ofNat 64 (fld img 0 8))
  | .zc r => some r.title
  | .fp r => some r.title
  | .member _ m => some m.title
  | _ => none

/-- The port for an entry (R315): a head uses the port on which the pair last delivered; a FIELD unit decides by PATH_MODE. -/
def entryPort (s : State) (to_ : BitVec 12) (e : Entry) : Bool :=
  if isHead s then ((Kv.get? to_.toNat s.relay.rx).map (·.port)).getD false
  else
    let prim := fieldOf s 0x700 13 13 = 1
    let want := match fieldOf s 0x700 15 14, entryTitle e with
      | 1, some t => t.getLsbD 0
      | _, _ => prim
    if pathUp s to_ want || !pathUp s to_ (!want) then want else !want

/-- Put an entry into the hold area; a pair journals it (R319). -/
def holdEntry (to_ : BitVec 12) (e : Entry) (s : State) : State :=
  let k := pathKey to_ (entryPort s to_ e)
  journal (.hold to_ e) (setRelay (fun r => { r with open_ := Kv.put k (r.open_.getD k [] ++ [(s.tim.raw, e)]) r.open_ }) s)

/-- Send a relay entry (R313, R316): to the hold area, or behind the spool while a FIELD unit's uplink takes nothing and an
archive is there. A spool write that READ_ONLY turns away (R440) leaves the entry in the hold area (DESIGN CHOICE, log entry 136). -/
def sendEntry (to_ : BitVec 12) (e : Entry) (s : State) : State :=
  if isField s && !uplinkTakes s && archiveUp s then
    if !archiveWritable s then holdEntry to_ e (writeRefused s) else
    journal (.spool (s.relay.spool ++ [e])) (setRelay (fun r => { r with spool := r.spool ++ [e], spooling := true }) s)
  else holdEntry to_ e s

/-! ## Frames (R306, R308) -/

/-- The newest relay key: its version and the key. -/
def newestRelayKey (s : State) : Option (Nat × Key) := s.sec.relayKeys.getLast?

/-- Draw a new session for every receiver (R306, R308). -/
def newSession (s : State) : State :=
  let (d, s) := draw s
  setRelay (fun r => { r with session := BitVec.ofNat 32 d.toNat, nextSeq := [], needSession := false }) s

/-- May the unit send relay frames: it serves, its claim has reached the boot flash (R300, R358), and where a SEQ has run out its
time is valid (R308)? The first session of a start is drawn without a valid time: R330 gives such frames a TX_TIME of zero
(DEDUCED, log entry 80). -/
def relayMaySend (s : State) : Bool :=
  serving s && !s.pair.flashPending && (newestRelayKey s).isSome && (!s.relay.needSession || s.relay.nextSeq.isEmpty || timeValid s)

/-- FTYPE of a body (R306). -/
def relayFtype : RelayBody → Nat
  | .batch _ => 1
  | .ack .. => 2
  | .pause _ => 3
  | .resume => 4

/-- N_ENTRIES of a body. -/
def relayCountOf : RelayBody → Nat
  | .batch l => l.length
  | _ => 0

/-- The format checks of R307. -/
def RelayFrame.formOk (f : RelayFrame) : Bool :=
  f.version = 1 && f.ftype = relayFtype f.body && f.nEntries = relayCountOf f.body && (f.ftype != 1 || f.nEntries != 0) && f.nEntries ≤ 255
    && f.reservedZero && f.fits

/-- Bytes of a frame body. -/
def relayBytes : RelayBody → Nat
  | .batch l => l.foldl (fun a x => a + match x with | .whole e => entryLen e | .first n | .middle n | .last n _ => n) 0
  | .ack _ rs => 8 + (rs.length + 3) / 4 * 4
  | .pause _ => 4
  | .resume => 0

/-! ## Radio queues (R264, R266): relay frames of backhaul links wait in them like any frame -/

def rfBase (n : Nat) : Nat := 0x9000 + 0x1000 * n
def rfEmpty : RfState :=
  { modUntil := 0, ends := [], key := none, keyIdx := 0, keyOld := none, keyOldIdx := 0, outCtr := 0, outEnd := 0, queue := [], nextTx := 1, inAir := none,
    sending := none, acks := [], lna := false, slotMs := 0, myCells := [], listening := [], reasm := [], asn := 0, sync := false, misses := 0,
    parent := 0, parentPan := 0xFFFF, parentMetric := 0, secondary := none, secHeard := none, ebDue := false }
def rfOf (s : State) (n : Nat) : RfState := s.rf.getD n rfEmpty
def setRf (n : Nat) (f : RfState → RfState) (s : State) : State := { s with rf := Kv.put n (f (rfOf s n)) s.rf }

/-- Is the transceiver a backhaul child (R282)? -/
def rfChild (s : State) (n : Nat) : Bool := fieldOf s (rfBase n) 30 29 = 1

/-- Bytes of a campaign frame (R207 to R210) on a radio link. -/
def campBytes : CampFrame → Nat
  | .block .. => 268
  | .manifest m => 96 + sigLen m.sigAlg
  | .act r => 24 + sigLen r.sigAlg
  | .progress _ => 20
  | .request _ => 8
  | .bad => 0

/-- Bytes of a datagram; a GET's are not stated. -/
def accessBytes : AccessPay → Nat
  | .camp f => campBytes f
  | .relay f => relayBytes f.body + 48
  | .get _ attrs .. => 1 + (Config.unstated 92 attrs.length).toNat % 1280
  | _ => 0

/-- Frames a datagram needs (R264): what the headers and the FCS take of MAX_FRAME is the standards', at most 63 bytes here (log entry 134). -/
def rfFrames (s : State) (n : Nat) (pay : AccessPay) : Nat :=
  let room := fieldOf s (rfBase n + 4) 26 16 - (Config.unstated 264 0).toNat % 64
  max 1 ((accessBytes pay + room - 1) / max 1 room)

/-- Queue a frame for a cell; a datagram larger than a frame goes in fragments, in order. -/
def rfQueue (n : Nat) (dest : Option Nat) (pay : AccessPay) (s : State) : State :=
  let k := rfFrames s n pay
  let tag := (rfOf s n).nextTx
  (List.range k).foldl (fun t i => setRf n (fun r => { r with
    nextTx := r.nextTx + 1, queue := r.queue ++ [⟨r.nextTx, dest, 0, s.tim.raw, 1, 0, if k = 1 then pay else .frag tag i k pay⟩] }) t) s

/-- Send one frame; its SEQ comes back. A SEQ used up needs a new session (R308). -/
def sendFrame (to_ : BitVec 12) (src : RelaySrc) (body : RelayBody) (s : State) : W32 × State :=
  let s := if s.relay.needSession then newSession s else s
  let n := s.relay.nextSeq.getD to_.toNat 1
  let (ver, key) := (newestRelayKey s).getD (0, 0)
  let f : RelayFrame := { version := 1, ftype := relayFtype body, nEntries := relayCountOf body, reservedZero := true, fits := true, sender := ownService s, receiver := if to_ = headUnit then none else some to_,
                          session := s.relay.session, seq := BitVec.ofNat 32 n, claim := s.pair.claim, keyVer := ver,
                          txTime := if timeValid s then rxTime s else 0, key := key, toPair := true, body := body }
  let s := setRelay (fun r => { r with nextSeq := Kv.put to_.toNat (n + 1) r.nextSeq, needSession := decide (n = 0xFFFFFFFF) }) s
  let s := match src with
    | .port p =>
      let prio := match body with | .batch _ => 4 | _ => 3
      match overRadioPath s p with
      | some rf => rfQueue (b2n rf) (some 0) (.relay f) s
      | none => ethCount p 44 1 (ethSend p prio (relayBytes body + 110) 0 (.relay p f) s)
    | .child rf short => rfQueue (b2n rf) (some short) (.relay f) s
  (BitVec.ofNat 32 n, if s.relay.needSession && timeValid s then newSession s else s)

/-- Bytes for entries in a datagram toward a path (R312): the MTU less headers and tag. -/
def datagramRoom (s : State) (p : Bool) : Nat :=
  (if (overRadioPath s p).isSome then 1280 else pathMtu s p) - (if usesIpv6 s p then 40 else 20) - 8 - 32 - 16

/-- As many entries as fit a datagram, at most 255 (R313). -/
def takeFit : Nat → Nat → List (Nat × Entry) → List Entry
  | 0, _, _ => []
  | _, _, [] => []
  | n + 1, room, e :: t => if entryLen e.2 ≤ room then e.2 :: takeFit n (room - entryLen e.2) t else []

/-- Has the head paused the unit on a port (R314): a PAUSE whose HOLD_MS has not passed? -/
def isPaused (s : State) (p : Bool) : Bool := (Kv.get? (b2n p) s.relay.paused).isSome

/-- Unacknowledged batches of a path. -/
def windowUsed (s : State) (to_ : BitVec 12) (p : Bool) : Nat := (s.relay.unacked.filter fun b => b.to_ == to_ && b.port == p).length

/-- Ports a batch goes out on: both that are up in duplicate mode, else the one asked for. -/
def batchPorts (s : State) (to_ : BitVec 12) (p : Bool) : List Bool :=
  if isField s && fieldOf s 0x700 15 14 = 2 then [false, true].filter (pathUp s to_) else [p]

/-- Record and send a batch on one port. -/
def sendBatch (to_ : BitVec 12) (id : Nat) (ents : List FrameEnt) (piece : Option Entry) (p : Bool) (s : State) : State :=
  let (n, s) := sendFrame to_ (.port p) (.batch ents) s
  setRelay (fun r => { r with unacked := r.unacked ++ [⟨id, to_, p, [n], 0, ents, s.tim.raw, piece⟩] }) s

/-- Pieces of an entry already sent on a path, by the batches that hold them. -/
def piecesSent (s : State) (to_ : BitVec 12) (p : Bool) : Nat := s.relay.pieces.getD (pathKey to_ p) 0

/-- Send from the open entries of a path (R313): whole entries that fit, or the next piece of one that does not (R312). It
waits for the window, for a pause to end (R314), and for a path that is up; in duplicate mode on both (R315). -/
def sendOpen (to_ : BitVec 12) (p : Bool) (s : State) : State :=
  let k := pathKey to_ p
  match s.relay.open_.getD k [] with
  | [] => s
  | (at_, e) :: rest =>
    let ports := batchPorts s to_ p
    if !relayMaySend s || !pathUp s to_ p || ports.any (fun q => isPaused s q || decide (fieldOf s 0x700 7 0 ≤ windowUsed s to_ q)) then s
    else
      let room := datagramRoom s p
      let id := s.relay.nextBatch
      let s := setRelay (fun r => { r with nextBatch := id + 1 }) s
      let out (ents : List FrameEnt) (piece : Option Entry) (s : State) : State :=
        ports.foldl (fun t q => sendBatch to_ id ents piece q t) s
      if room < entryLen e then
        let per := (room - 4) / 4 * 4
        let n := (entryLen e - 4 + (per - 1)) / per
        let j := piecesSent s to_ p
        let x : FrameEnt := if j = 0 then .first (4 + per) else if j + 1 < n then .middle (4 + per) else .last (entryLen e - per * (n - 1)) e
        let last := n ≤ j + 1
        let s := setRelay (fun r => { r with pieces := Kv.putOr 0 k (if last then 0 else j + 1) r.pieces,
                                              open_ := if last then Kv.putOr [] k rest r.open_ else r.open_ }) s
        out [x] (some e) s
      else
        let ents := takeFit 255 room ((at_, e) :: rest)
        out (ents.map .whole) none
          (setRelay (fun r => { r with open_ := Kv.putOr [] k (((at_, e) :: rest).drop ents.length) r.open_ }) s)

/-- Is the open batch of a path to be closed (R313): full, or BATCH_US (in units of 10 µs) after its first entry? -/
def batchDue (s : State) (to_ : BitVec 12) (p : Bool) : Bool :=
  match s.relay.open_.getD (pathKey to_ p) [] with
  | [] => false
  | (at_, e) :: rest =>
    decide (at_ + fieldOf s 0x704 15 8 * 10000 ≤ s.tim.raw) || decide (255 ≤ rest.length + 1)
      || decide ((takeFit 255 (datagramRoom s p) ((at_, e) :: rest)).length < rest.length + 1)

/-- RELAY_BATCH_CLOSE (R313). -/
def closeBatch (to_ : BitVec 12) (p : Bool) (s : State) : State := if batchDue s to_ p then sendOpen to_ p s else s

/-- Entries of whole batches. -/
def wholeEntries (b : Batch) : List Entry := b.ents.filterMap fun x => match x with | .whole e => some e | _ => none

/-- A batch that can be acknowledged wherever it arrives: not a later piece (R312). -/
def probeBatch (b : Batch) : Bool := b.ents.all fun x => match x with | .middle _ | .last .. => false | _ => true

/-- A path is down for a receiver (R315): its batches are resent on the surviving path before newer entries, an entry in pieces
from its first piece on (R319), and its open entries move there. One batch goes on being resent on the path, so that an
acknowledgement can show it good again (log entry 28). -/
def pathFail (to_ : BitVec 12) (p : Bool) (s : State) : State :=
  let q := !p
  if isHead s || !pathUp s to_ q then s
  else
    let mine := s.relay.unacked.filter fun b => b.to_ == to_ && b.port == p
    let kept := s.relay.unacked.filter fun b => !(b.to_ == to_ && b.port == p)
    let dup (b : Batch) : Bool := kept.any fun c => c.id == b.id
    let pieced := (mine.filterMap (·.pieceOf)) ++ (if piecesSent s to_ p = 0 then [] else ((s.relay.open_.getD (pathKey to_ p) []).take 1).map (·.2))
    let opn := s.relay.open_.getD (pathKey to_ p) []
    let opn := if piecesSent s to_ p = 0 then opn else opn.drop 1
    let s := setRelay (fun r => { r with unacked := kept ++ (mine.find? probeBatch).toList, pieces := Kv.del (pathKey to_ p) r.pieces,
                                         open_ := Kv.putOr [] (pathKey to_ q) (pieced.eraseDups.map (s.tim.raw, ·) ++ opn ++ r.open_.getD (pathKey to_ q) []) (Kv.del (pathKey to_ p) r.open_) }) s
    mine.foldl (fun t b => if b.pieceOf.isSome || dup b then t else
      ethCount q 45 1 (sendBatch to_ b.id b.ents none q t)) s

/-- A head's batches to a pair follow it to the port on which it now delivers (R315): what is open, and what is sent again; an entry in
pieces starts again. -/
def headMoves (u : BitVec 12) (from_ now : Bool) (s : State) : State :=
  if !isHead s || from_ == now then s
  else
    let mine (b : Batch) : Bool := b.to_ == u && b.port == from_
    let a := pathKey u from_
    let opn := s.relay.open_.getD a []
    let pieced := (s.relay.unacked.filter mine).filterMap (·.pieceOf)
    let opn := (pieced.filter fun e => opn.all fun x => x.2 != e).eraseDups.map (s.tim.raw, ·) ++ opn
    setRelay (fun r => { r with
      unacked := (r.unacked.filter fun b => !(mine b && b.pieceOf.isSome)).map fun b => if mine b then { b with port := now } else b
      pieces := Kv.del a r.pieces
      open_ := Kv.putOr [] (pathKey u now) (opn ++ r.open_.getD (pathKey u now) []) (Kv.del a r.open_) }) s

/-- RELAY_ACK_TIMEOUT (R313, R315): after ACK_MS the batch goes out again with a new SEQ; RETRIES resends take the path down. -/
def ackTimeout (id : Nat) (p : Bool) (s : State) : State :=
  match s.relay.unacked.find? (fun b => b.id == id && b.port == p) with
  | none => s
  | some b =>
    if !relayMaySend s || s.tim.raw < b.sentAt + fieldOf s 0x704 31 20 * 1000000 || isPaused s p || !(ethLink s p || (overRadioPath s p).isSome) then s
    else
      let (n, s) := sendFrame b.to_ (.port p) (.batch b.ents) (ethCount p 45 1 s)
      let k := pathKey b.to_ p
      let fails := max (s.relay.fails.getD k 0) (b.resends + 1)
      let s := setRelay (fun r => { r with fails := Kv.put k fails r.fails, unacked := r.unacked.map fun x =>
        if x.id == id && x.port == p then { x with seqs := n :: x.seqs, resends := x.resends + 1, sentAt := s.tim.raw } else x }) s
      if relayRetries s ≤ fails then pathFail b.to_ p s else s

/-- An ACK (R313): the batch, on whichever path, leaves the hold area, and the path it names is good again. -/
def ackReceived (from_ : BitVec 12) (seq : W32) (s : State) : State :=
  let to_ := if isField s then headUnit else from_
  match s.relay.unacked.find? (fun b => b.to_ == to_ && b.seqs.contains seq) with
  | none => s
  | some b =>
    let s := journal (.unhold to_ (wholeEntries b ++ (match b.ents with | [.last _ e] => [e] | _ => []))) s
    let probe (x : Batch) : Bool := x.port != b.port && decide (relayRetries s ≤ s.relay.fails.getD (pathKey to_ x.port) 0)
    setRelay (fun r => { r with unacked := r.unacked.filter (fun x => x.id != b.id || x.to_ != to_ || probe x),
                                fails := Kv.del (pathKey to_ b.port) r.fails }) s

/-- SPOOL_DRAIN (R316): with the uplink up, the spool's oldest entry goes to the hold area; SPOOLING clears when it is empty. -/
def spoolDrain (s : State) : State :=
  if !isField s || !s.relay.spooling || !uplinkUp s || !archiveUp s || holdCap s * 16384 ≤ holdUsed s then s
  else match s.relay.spool with
    | [] => setRelay (fun r => { r with spooling := false }) s
    | e :: t => holdEntry headUnit e (journal (.spool t) (setRelay (fun r => { r with spool := t, spooling := !t.isEmpty }) s))

/-! ## Pausing (R314) -/

/-- Does intake queue 6 (ETH0) or 7 (ETH1) push back? -/
def portPaused (s : State) (p : Bool) : Bool := isHead s && iqPaused (6 + portNo p) s

/-- PAUSE one sender: HOLD_MS is 100. -/
def pauseSender (p : Bool) (u : BitVec 12) (s : State) : State :=
  let s := setRelay (fun r => { r with pausedTo := if r.pausedTo.contains (p, u) then r.pausedTo else r.pausedTo ++ [(p, u)] }) s
  if relayMaySend s then (sendFrame u (.port p) (.pause 100) s).2 else s

/-- The queue of a port begins to push back: every sender that delivered a batch there in the last second is paused. -/
def pauseAll (p : Bool) (s : State) : State :=
  s.relay.rx.foldl (fun t r =>
    match Kv.get? (portNo p) r.2.last with
    | some x => if s.tim.raw < x + 1000000000 then pauseSender p (BitVec.ofNat 12 r.1) t else t
    | none => t) s

/-- The queue falls to RESUME_LEVEL: the same senders are resumed. -/
def resumeAll (p : Bool) (s : State) : State :=
  let l := s.relay.pausedTo.filter fun x => x.1 == p
  l.foldl (fun t x => if relayMaySend t then (sendFrame x.2 (.port p) .resume t).2 else t)
    (setRelay (fun r => { r with pausedTo := r.pausedTo.filter fun x => x.1 != p }) s)

/-- A write to an intake queue, with what its almost-full flag causes at the relay (R115, R314). -/
def intakeWrite (q n : Nat) (s : State) : State :=
  let s' := queueWrite q n s
  if isHead s && (q = 6 || q = 7) && !(qState s q).af && (qState s' q).af then pauseAll (q = 7) s' else s'

/-- A packet leaves an intake queue. -/
def intakeRead (q n : Nat) (s : State) : State :=
  let s' := queueRead q n s
  if isHead s && (q = 6 || q = 7) && (qState s q).af && !(qState s' q).af then resumeAll (q = 7) s' else s'

/-! ## Results of a batch (R313) -/

/-- A relayed reading has its result. -/
def relayResult (ref oc : Nat) (s : State) : State :=
  if ref = 0 then s
  else setRelay (fun r => { r with accepted := r.accepted.map fun b =>
    if b.base ≤ ref && ref < b.base + b.results.length then { b with results := b.results.set (ref - b.base) (some oc) } else b }) s

/-- RELAY_BATCH_ACK (R313, R314): once every entry has its result, the ACK leaves on the port the batch came in on. -/
def batchAck (sender : BitVec 12) (seq : W32) (s : State) : State :=
  match s.relay.accepted.find? (fun b => b.sender == sender && b.seq == seq) with
  | none => s
  | some b =>
    if b.results.any (·.isNone) || !relayMaySend s then s
    else
      let s := setRelay (fun r => { r with accepted := r.accepted.filter fun x => !(x.sender == sender && x.seq == seq) }) s
      (sendFrame sender b.src (.ack seq (b.results.map (·.getD 4))) s).2

end Sys2Proof.Machine
end

