-- ==== Sys2Proof/Machine/Modules.lean ====
section
/-!
DEFINITION. Sys2Proof/Machine/Modules.lean: attached modules and their identity records (R461 to R465): the CRC, the checks in order,
the codes, and what a changed module causes.
-/
namespace Sys2Proof.Machine

/-! ## CRC-32/ISO-HDLC (R462) -/

/-- Eight bits of the reflected polynomial. -/
def crcBits : Nat → BitVec 32 → BitVec 32
  | 0, c => c
  | n + 1, c => crcBits n (if c.getLsbD 0 then (c >>> 1) ^^^ 0xEDB88320#32 else c >>> 1)

def crc32 (l : List Byte) : W32 := ~~~(l.foldl (fun c b => crcBits 8 (c ^^^ BitVec.zeroExtend 32 b)) 0xFFFFFFFF#32)

/-! ## Slots -/

def slotNone : ModSlot := ⟨0, true, false, 0, [], none⟩
def modSlot (s : State) (k : Nat) : ModSlot := s.mea.slots.getD k slotNone
def setMea (f : MeaState → MeaState) (s : State) : State := { s with mea := f s.mea }
def putModSlot (k : Nat) (v : ModSlot) (s : State) : State := setMea (fun m => { m with slots := Kv.put k v m.slots }) s
/-- Did the slot's record pass every check, with the module present? -/
def modOk (s : State) (k : Nat) : Bool := (modSlot s k).code == 1

def plcEmpty : PlcState :=
  { ends := [], neigh := [], routes := [], gmk := none, gmkIdx := 0, gmkOld := none, rxCtr := [], outCtr := 0, outEnd := 0, awaiting := [],
    queued := [], nextTx := 1, reasm := [], refused := 0, rreqs := 0, rreqSec := 0, discover := [], seen := [], black := [], fps := [],
    fcc := false, noise := 0, ldPin := true, ldWait := false, modWait := false, ldAt := 0, modAt := 0, zcLost := true, zcEdges := [], period := 0, inRange := 0 }
def plcOf (s : State) (n : Nat) : PlcState := s.plc.getD n plcEmpty

/-- The FCC band is the instance's: set at its start and kept while it runs (R232). -/
def plcFcc (s : State) (n : Nat) : Bool := if islRun s (5 + n) then (plcOf s n).fcc else fieldOf s (0x5000 + 0x1000 * n) 30 29 = 1

/-- A field of a record. -/
def recFld (r : List Byte) (off len : Nat) : Nat := beVal ((r.drop off).take len)
/-- Are bytes zero from `off` up to, not including, `hi`? -/
def zeroFrom (r : List Byte) (off hi : Nat) : Bool := ((r.drop off).take (hi - off)).all (· == 0#8)

def meaHeadEmpty : MeaHead := ⟨none, none, [0, 0, 0], [0, 0, 0], 0, 0, 0, List.replicate 23 0, [], []⟩
def meaHead (s : State) (h : Nat) : MeaHead := s.mea.heads.getD h meaHeadEmpty
def setHead (h : Nat) (f : MeaHead → MeaHead) (s : State) : State := setMea (fun m => { m with heads := Kv.put h (f (m.heads.getD h meaHeadEmpty)) m.heads }) s
/-- Does MEA run the head (R468)? -/
def headOn (s : State) (h : Nat) : Bool := islRun s 15 && fieldOf s 0xF000 31 31 = 1 && fieldOf s 0xF000 30 29 / 2 ^ h % 2 = 1

/-- Kind of module a slot takes (R461). -/
def slotKind (k : Nat) : Nat := if k < 2 then 1 else if k < 6 then 2 else 3
/-- Does the role use the slot? -/
def slotUsed (s : State) (k : Nat) : Bool := k < 2 || (k < 8 && isField s)
/-- Is the slot's block enabled? -/
def slotEnabled (s : State) (k : Nat) : Bool :=
  if k < 2 then fieldOf s 0xF000 31 31 = 1 && fieldOf s 0xF000 30 29 / 2 ^ k % 2 = 1
  else if k < 6 then fieldOf s (0x5000 + 0x1000 * (k - 2)) 31 31 = 1
  else fieldOf s (0x9000 + 0x1000 * (k - 6)) 31 31 = 1

/-- Reserved bytes of a record (R462). -/
def reservedZero (r : List Byte) : Bool :=
  zeroFrom r 6 8 && zeroFrom r 224 252 &&
  match recFld r 5 1 with
  | 1 => (List.range 8).all (fun c => zeroFrom r (32 + 16 * c + 12) (32 + 16 * c + 16)) && recFld r 169 1 < 2 && zeroFrom r 170 224
  | 2 => recFld r 32 1 < 4 && zeroFrom r 36 224
  | 3 => recFld r 32 1 < 8 && zeroFrom r 36 224
  | _ => true

/-- The checks of R463, from the top. -/
def recordCode (s : State) (k : Nat) (m : ModRecord) : Nat :=
  let r := m.bytes
  if !m.answered || r.length ≠ 256 then 2
  else if recFld r 0 4 ≠ 0x4D4C4D49 || recFld r 4 1 ≠ 1 || recFld r 252 4 ≠ (crc32 (r.take 252)).toNat || !reservedZero r then 3
  else if recFld r 5 1 ≠ slotKind k then 4
  else
    let mismatch :=
      if k < 2 then false
      else if k < 6 then recFld r 32 1 / 2 ^ b2n (plcFcc s (k - 2)) % 2 = 0
      else
        let b := 0x9000 + 0x1000 * (k - 6)
        recFld r 32 1 / 2 ^ fieldOf s b 28 27 % 2 = 0 || recFld r 34 1 ≠ fieldOf s (b + 4) 3 3
    if mismatch then 5
    else if k < 2 && ((List.range 8).any (fun c => recFld r (32 + 16 * c) 4 = 0) || recFld r 160 4 = 0 || recFld r 164 4 = 0
      || recFld r 168 1 = 0 || 4 < recFld r 168 1) then 6
    else 1

/-- A record accepted: the kept CRC, and the change it may show (R465). -/
def acceptRecord (k : Nat) (r : List Byte) (s : State) : State :=
  let crc : W32 := BitVec.ofNat 32 (recFld r 252 4)
  let kept := s.mea.kept.getD k 0
  let serial : W64 := BitVec.ofNat 64 (recFld r 8 8)
  let old := (modSlot s k).serial
  let s := if kept != 0 && kept != crc then
      let s := event 15 0x02 (b2n (old == some serial) * 16 + k) [be 8 ((old.map (·.toNat)).getD 0) ++ be 8 serial.toNat] (count 0xF058 s)
      if k < 2 then setHead k (fun h => { h with flags := h.flags ||| 0x20#8 }) s else s
    else s
  let s := setMea (fun m => { m with kept := Kv.put k crc m.kept }) s
  let s := putModSlot k { modSlot s k with code := 1, rec_ := r, serial := some serial } s
  if k < 2 then setHead k (fun h => { h with next := some r }) s
  else if k < 6 then
    let zc := fieldOf s (0x5000 + 0x1000 * (k - 2) + 0x10) 1 0
    if recFld r 35 1 ≠ 0 && recFld r 35 1 ≠ zc then event (5 + (k - 2)) 0x06 (recFld r 35 1 % 16 * 16 + zc) [] s else s
  else s

/-- A slot is read (R463, R464). -/
def readModule (k : Nat) (m : ModRecord) (s : State) : State :=
  let c := recordCode s k m
  let s := count 0xF050 (putModSlot k { modSlot s k with presHigh := false, debounce := false, code := c } s)
  if c = 1 then acceptRecord k m.bytes s
  else if slotEnabled s k then event 15 0x01 (k * 16 + c) [] (count 0xF054 s) else s

/-- MODULE_PRESENCE_HIGH (R464): the slot is ABSENT, from the sample after the edge. -/
def presenceHigh (k : Nat) (s : State) : State :=
  if 8 ≤ k then s
  else
    let s := putModSlot k { modSlot s k with presHigh := true, debounce := false, code := 0 } s
    if k < 2 then setHead k (fun h => { h with rec_ := none, next := none, flags := h.flags ||| 0x40#8 }) s else s

/-- MODULE_PRESENCE_LOW (R464): the debounce of 50 ms begins. -/
def presenceLow (k : Nat) (s : State) : State :=
  if 8 ≤ k then s else putModSlot k { modSlot s k with presHigh := false, debounce := true, lowAt := s.tim.raw } s

/-- MODULE_PRESENCE_DEBOUNCE (R464): 50 ms after the fall the record is read. PLC instances and transceivers resume 1 s after an OK. -/
def presenceDebounce (k : Nat) (m : ModRecord) (s : State) : State :=
  if 8 ≤ k || !slotUsed s k || (modSlot s k).presHigh || !(modSlot s k).debounce || s.tim.raw < (modSlot s k).lowAt + 50000000 then s
  else
    let s := readModule k m s
    if 2 ≤ k && k < 6 && modOk s k then
      { s with plc := s.plc.map fun p => if p.1 = k - 2 then (p.1, { p.2 with modWait := true, modAt := s.tim.raw }) else p }
    else if 6 ≤ k && modOk s k then setRf (k - 6) (fun r => { r with modUntil := s.tim.raw + 1000000000 }) s
    else s

/-- MEA_MOD_STATUS. -/
def modStatus (s : State) : W32 := BitVec.ofNat 32 ((List.range 8).foldl (fun a k => a + (modSlot s k).code % 16 * 16 ^ k) 0)

/-- Attenuation in force on PLC instance n and transceiver n (R233, R265, R464). -/
def plcAtten (s : State) (n : Nat) : Nat :=
  let b := 0x5000 + 0x1000 * n
  max (fieldOf s (b + 4) 12 8) (recFld (modSlot s (2 + n)).rec_ (if plcFcc s n then 34 else 33) 1)
def rfAtten (s : State) (n : Nat) : Nat :=
  max (fieldOf s (0x9000 + 0x1000 * n + 4) 12 8) (recFld (modSlot s (6 + n)).rec_ 33 1)

end Sys2Proof.Machine
end

