-- ==== Sys2Proof/Machine/RuleVm.lean ====
section
/-!
DEFINITION. Sys2Proof/Machine/RuleVm.lean: the rule-program machine (chapter 04): image checks (R131, R143), the 24 opcodes
(R132 to R135), the worst-case count (R138) and the run of one row (R129, R137, R142).
-/
namespace Sys2Proof.Machine

/-! ## Fields of an instruction word (R132) -/
def opOf (w : W32) : Nat := bits w 31 26
def xdOf (w : W32) : Nat := bits w 25 22
def xaOf (w : W32) : Nat := bits w 21 18
def xbOf (w : W32) : Nat := bits w 17 14
def condOf (w : W32) : Nat := bits w 25 23
def tgtOf (w : W32) : Nat := bits w 5 0

/-- Saturation to 64 bits (R135). -/
def sat64 (v : Int) : Int := clampI (-9223372036854775808) 9223372036854775807 v

/-- Cycles of an opcode (R133). -/
def cyclesOf (op : Nat) : Nat :=
  if op ≤ 2 then 2 else if op = 3 then 4 else if op = 9 then 3 else if op = 0x0A then 20 else if op = 0x0B then 24
  else if 0x13 ≤ op then 2 else 1

/-- Is a FIELD selector listed (R136)? -/
def fieldOk (f : Nat) : Bool := f ≤ 0x0B || (0x10 ≤ f && f ≤ 0x18) || (0x20 ≤ f && f ≤ 0x26) || (0x30 ≤ f && f ≤ 0x3B)

/-- Are the reserved bits of an instruction zero (R132)? -/
def reservedOk (w : W32) : Bool :=
  let op := opOf w
  if op = 0 then bits w 25 0 = 0
  else if op ≤ 2 then bits w 25 8 = 0
  else if op = 3 then bits w 21 6 = 0
  else if op = 4 then bits w 21 4 = 0
  else if op = 5 then bits w 21 16 = 0
  else if op = 6 || op = 0x0E then bits w 17 0 = 0
  else if op ≤ 0x10 then bits w 13 0 = 0
  else if op ≤ 0x12 then bits w 17 6 = 0
  else if op = 0x13 then bits w 25 6 = 0
  else if op = 0x14 then bits w 22 22 = 0 && bits w 13 6 = 0
  else if op = 0x15 then bits w 22 22 = 0 && bits w 7 6 = 0
  else if op = 0x16 then bits w 25 14 = 0 && bits w 7 6 = 0
  else bits w 25 22 = 0 && bits w 17 14 = 0 && bits w 7 6 = 0

/-- The checks of one instruction in the order of R143: 0 when all pass. -/
def checkInstr (nConst n i : Nat) (w : W32) : Nat :=
  let op := opOf w
  if 0x17 < op then 0x04
  else if !reservedOk w then 0x05
  else if 0x13 ≤ op && (tgtOf w ≤ i || n - 1 < tgtOf w) then 0x06
  else if (op = 3 && !fieldOk (tgtOf w)) || (op = 0x16 && !fieldOk (bits w 13 8)) then 0x08
  else if op = 4 && nConst ≤ bits w 3 0 then 0x09
  else if (op = 0x14 || op = 0x15) && 6 ≤ condOf w then 0x0A
  else if (op = 1 || op = 2) && (bits w 7 0 = 0 || 0xF0 ≤ bits w 7 0) then 0x0B
  else 0

/-- The first instruction that fails, with its code. -/
def checkCode (nConst n : Nat) : Nat → List W32 → Option (Nat × Nat)
  | _, [] => none
  | i, w :: t => match checkInstr nConst n i w with
    | 0 => checkCode nConst n (i + 1) t
    | c => some (c, i)

/-- Split bytes into 32-bit words. -/
def words4 : List Byte → List W32
  | a :: b :: c :: d :: t => BitVec.ofNat 32 (beVal [a, b, c, d]) :: words4 t
  | _ => []

/-- Split bytes into signed 64-bit values. -/
def ints8 : Nat → List Byte → List Int
  | 0, _ => []
  | n + 1, l => sext 64 (beVal (l.take 8)) :: ints8 n (l.drop 8)

/-- Worst-case count from each instruction on, last first (R138): the list holds the counts of instructions i, i + 1, … -/
def wccFrom : Nat → List W32 → List Nat
  | _, [] => []
  | i, w :: t =>
    let later := wccFrom (i + 1) t
    let next := later.headD 0
    let target := later.getD (tgtOf w - i - 1) 0
    let op := opOf w
    (cyclesOf op + (if op ≤ 2 then 0 else if op = 0x13 then target else if 0x14 ≤ op then max next target else next)) :: later

/-- Worst-case count of a program, entry included (R138). -/
def wccOf (code : List W32) : Nat := 32 + (wccFrom 0 code).headD 0

/-- Checks 0x01 to 0x0B of R143 on an image: the code and the failing instruction, or the program. -/
def checkImage (img : List Byte) : (Nat × Nat) ⊕ RuleProg :=
  let at_ (o n : Nat) : Nat := beVal ((img.drop o).take n)
  let setId := at_ 0 2
  let nI := at_ 3 1
  let nK := at_ 4 1
  if setId = 0 || 255 < setId then .inl (0x01, 0)
  else if at_ 2 1 ≠ 1 then .inl (0x02, 0)
  else if nI = 0 || 64 < nI || 16 < nK || img.length ≠ 32 + 8 * nK + 4 * nI then .inl (0x03, 0)
  else if at_ 5 1 / 4 ≠ 0 || at_ 6 2 ≠ 0 || at_ 12 4 ≠ 0 then .inl (0x05, 0)
  else
    let code := words4 (img.drop (32 + 8 * nK))
    match checkCode nK nI 0 code with
    | some e => .inl e
    | none =>
      if 2 < opOf (code.getLastD 0) then .inl (0x07, nI - 1)
      else .inr ⟨setId, at_ 5 1 % 4, BitVec.ofNat 32 (at_ 8 4), ints8 nK (img.drop 32), code, img, wccOf code⟩

/-! ## Running a row -/

/-- Verdict of a program run (R140, R142). -/
inductive Verdict where
  | pass
  | flag (code : Nat)
  | hold (code : Nat)
  | fault (index : Nat)
  deriving DecidableEq, Repr

/-- A signed comparison (R134). -/
def condHolds (c : Nat) (a b : Int) : Bool :=
  match c with
  | 0 => a == b | 1 => a != b | 2 => decide (a < b) | 3 => decide (a ≤ b) | 4 => decide (b < a) | _ => decide (b ≤ a)

/-- The working registers. -/
abbrev Regs16 := List Int

def rx (r : Regs16) (i : Nat) : Int := r.getD i 0

/-- An input: its value and whether it is absent; an absent one loads zero (R136, R137). -/
abbrev Inputs := Nat → Option Int

/-- The value a register instruction gives XD; none: a zero divisor (R133, R135). -/
def aluOf (w : W32) (consts : List Int) (inp : Inputs) (r : Regs16) : Option Int :=
  let a := rx r (xaOf w)
  let b := rx r (xbOf w)
  match opOf w with
  | 0x03 => some ((inp (tgtOf w)).getD 0)
  | 0x04 => some (consts.getD (bits w 3 0) 0)
  | 0x05 => some (sext 16 (bits w 15 0))
  | 0x06 => some a
  | 0x07 => some (sat64 (a + b))
  | 0x08 => some (sat64 (a - b))
  | 0x09 => some (sat64 (a * b))
  | 0x0A => if b = 0 then none else some (sat64 (Int.tdiv a b))
  | 0x0B => if b = 0 then none else some (sat64 (Int.tdiv (rx r (xdOf w) * a) b))
  | 0x0C => some (min a b)
  | 0x0D => some (max a b)
  | 0x0E => some (sat64 (if a < 0 then -a else a))
  | 0x0F => some (BitVec.ofInt 64 a &&& BitVec.ofInt 64 b).toInt
  | 0x10 => some (BitVec.ofInt 64 a ||| BitVec.ofInt 64 b).toInt
  | 0x11 => some (BitVec.ofInt 64 a <<< tgtOf w).toInt
  | 0x12 => some ((BitVec.ofInt 64 a).sshiftRight (tgtOf w)).toInt
  | _ => some 0

/-- Is the branch taken? -/
def taken (w : W32) (inp : Inputs) (r : Regs16) : Bool :=
  let a := rx r (xaOf w)
  match opOf w with
  | 0x13 => true
  | 0x14 => condHolds (condOf w) a (rx r (xbOf w))
  | 0x15 => condHolds (condOf w) a (sext 10 (bits w 17 8))
  | 0x16 => (inp (bits w 13 8)).isNone
  | _ => (BitVec.ofInt 64 a).getLsbD (bits w 13 8)

/-- Run from instruction `i`, the code from there on as the list, `skip` instructions to pass over before the next runs; the
cycles spent come with the verdict. Every branch goes forward, so one pass over the list is a whole run (R143). -/
def runFrom (consts : List Int) (inp : Inputs) : List W32 → Nat → Nat → Regs16 → Nat → Verdict × Nat
  | [], _, _, _, c => (.pass, c)
  | w :: t, i, skip, r, c =>
    match skip with
    | k + 1 => runFrom consts inp t (i + 1) k r c
    | 0 =>
      let op := opOf w
      let c := c + cyclesOf op
      if op = 0 then (.pass, c)
      else if op = 1 then (.flag (bits w 7 0), c)
      else if op = 2 then (.hold (bits w 7 0), c)
      else if 0x13 ≤ op then
        if taken w inp r then runFrom consts inp t (i + 1) (tgtOf w - i - 1) r c else runFrom consts inp t (i + 1) 0 r c
      else match aluOf w consts inp r with
        | none => (.fault i, c)
        | some v => runFrom consts inp t (i + 1) 0 (r.set (xdOf w) v) c

/-- One row through a program: sixteen zero registers, 32 cycles of entry (R131, R138). -/
def runProg (p : RuleProg) (inp : Inputs) : Verdict × Nat := runFrom p.consts inp p.code 0 0 (List.replicate 16 0) 32

end Sys2Proof.Machine
end

