-- ==== Sys2Proof/Machine/Sha.lean ====
section
/-!
DEFINITION. Sys2Proof/Machine/Sha.lean: SHA-256, which R202 and R208 use for the segment table and the digests (FIPS 180-4; PRESUMED,
log entry 30), and the fountain code of R204.
-/
namespace Sys2Proof.Machine

/-! ## Constants: the first 32 bits of the fractions of roots of primes -/

/-- Is a number prime? -/
def isPrime (n : Nat) : Bool := 2 ≤ n && (List.range n).all fun d => d < 2 || n % d != 0

/-- The largest number whose `k`-th power is at most `x`, built bit by bit from bit `i - 1` down. -/
def rootBits (k x : Nat) : Nat → Nat → Nat
  | 0, acc => acc
  | i + 1, acc => rootBits k x i (if (acc + 2 ^ i) ^ k ≤ x then acc + 2 ^ i else acc)

/-- 32 bits of the fraction of the `k`-th root of each prime below a bound. -/
def rootWords (k below : Nat) : List W32 :=
  ((List.range below).filter isPrime).map fun p => BitVec.ofNat 32 (rootBits k (p * 2 ^ (32 * k)) 40 0)

/-- The 64 constants of the rounds: cube roots of the primes up to 311. -/
def roundWords : List W32 := rootWords 3 312

/-- The hash value before the first block: square roots of the primes up to 19. -/
def firstHash : List W32 := rootWords 2 20

/-! ## Compression -/

/-- A word rotated right by each distance of a list, combined by exclusive or. -/
def spinXor (ds : List Nat) (x : W32) : W32 := ds.foldl (fun acc d => acc ^^^ x.rotateRight d) 0

/-- One round; `m` is the round's constant plus its message word. -/
def shaRound (v : List W32) (m : W32) : List W32 :=
  match v with
  | [a, b, c, d, e, f, g, h] =>
    let t := m + h + spinXor [6, 11, 25] e + (g ^^^ (e &&& (f ^^^ g)))
    [t + spinXor [2, 13, 22] a + ((a &&& (b ||| c)) ||| (b &&& c)), a, b, c, t + d, e, f, g]
  | _ => v

/-- The word that follows a window of sixteen message words. -/
def nextWord (w : List W32) : W32 :=
  let x := w.getD 1 0
  let y := w.getD 14 0
  w.headD 0 + (spinXor [7, 18] x ^^^ (x >>> 3)) + w.getD 9 0 + (spinXor [17, 19] y ^^^ (y >>> 10))

/-- The rounds of one block: the window of message words moves on by one word a round. -/
def shaRounds : List W32 → List W32 → List W32 → List W32
  | [], _, v => v
  | k :: ks, w, v => shaRounds ks (w.tail ++ [nextWord w]) (shaRound v (k + w.headD 0))

/-- The hash value after `n` blocks of sixteen words. -/
def shaBlocks : Nat → List W32 → List W32 → List W32
  | 0, _, v => v
  | n + 1, ws, v => shaBlocks n (ws.drop 16) (List.zipWith (· + ·) v (shaRounds roundWords (ws.take 16) v))

/-- Bytes as 32-bit words, big-endian. -/
def beWords : List Byte → List W32
  | a :: b :: c :: d :: t => BitVec.ofNat 32 (beVal [a, b, c, d]) :: beWords t
  | _ => []

/-- SHA-256 of a byte string: its words, closed by a one bit, zeros and the length in bits, fill whole blocks. -/
def sha256 (l : List Byte) : BitVec 256 :=
  let blocks := (l.length + 72) / 64
  let zeros := 64 * blocks - 9 - l.length
  let words := beWords (l ++ 0x80#8 :: List.replicate zeros 0#8 ++ be 8 (8 * l.length))
  (shaBlocks blocks words firstHash).foldl (fun acc w => (acc <<< 32) ||| w.zeroExtend 256) 0

/-! ## The fountain code (R204) -/

/-- One step of the coefficient generator. -/
def seedStep (x : W32) : W32 :=
  let x := x ^^^ (x <<< 13)
  let x := x ^^^ (x >>> 17)
  x ^^^ (x <<< 5)

def seedSteps : Nat → W32 → W32
  | 0, x => x
  | n + 1, x => seedSteps n (seedStep x)

/-- `n` coefficients from a state. -/
def seedDraw : Nat → W32 → List Byte
  | 0, _ => []
  | n + 1, x => let y := seedStep x; BitVec.ofNat 8 (bits y 31 24) :: seedDraw n y

/-- The 64 coefficients of a seed. -/
def coefficients (seed : Nat) : List Byte :=
  if seed < 64 then (List.range 64).map fun i => if i = seed then 1#8 else 0#8
  else
    let c := seedDraw 64 (seedSteps 8 (BitVec.ofNat 32 seed))
    if c.all (· == 0#8) then 1#8 :: List.replicate 63 0#8 else c

/-- Multiplication in GF(2^8) with the polynomial 0x11D. -/
def gfMulN : Nat → Nat → Nat → Nat
  | 0, _, _ => 0
  | n + 1, a, b =>
    let r := gfMulN n ((if 128 ≤ a then (a * 2) ^^^ 0x11D else a * 2) % 256) (b / 2)
    if b % 2 = 1 then r ^^^ a else r

def gfMul (a b : Byte) : Byte := BitVec.ofNat 8 (gfMulN 8 a.toNat b.toNat)

/-- Exclusive-or of byte strings. -/
def xorBytes : List Byte → List Byte → List Byte
  | a :: s, b :: t => (a ^^^ b) :: xorBytes s t
  | [], t => t
  | s, [] => s

/-- The coded payload of block size `b` from the 64 source blocks of a generation. -/
def codedFrom (b : Nat) : List Byte → List Byte → List Byte → List Byte
  | [], _, acc => acc
  | c :: cs, src, acc => codedFrom b cs (src.drop b) (xorBytes acc ((src.take b).map (gfMul c)))

def codedPayload (b : Nat) (src : List Byte) (seed : Nat) : List Byte := codedFrom b (coefficients seed) src (List.replicate b 0#8)

end Sys2Proof.Machine
end

