-- ==== Sys2Proof/Machine/CampOps.lean ====
section
/-!
DEFINITION. Sys2Proof/Machine/CampOps.lean: campaigns as objects (chapter 06): slots, members and their records, the coded object,
and what a retirement or a move does to memberships (R198 to R203, R213 to R216).
-/
namespace Sys2Proof.Machine

def setCampState (f : CampState → CampState) (s : State) : State := { s with camp := f s.camp }

/-- A campaign changes, is made or goes; a pair journals it (R224). -/
def putCamp (n : Nat) (c : Option Camp) (s : State) : State :=
  journal (.camp n c) (setCampState (fun st => { st with camps := match c with | some v => Kv.put n v st.camps | none => Kv.del n st.camps }) s)

def campOf (s : State) (n : Nat) : Option Camp := Kv.get? n s.camp.camps

/-- The slot of a CAMP_ID. -/
def campSlot (s : State) (id : W32) : Option Nat := (s.camp.camps.find? fun p => p.2.manifest.campId == id).map (·.1)

/-- Memberships held (CTL_CAMP_STATUS.MEMBERSHIPS). -/
def memberships (s : State) : Nat := s.camp.camps.foldl (fun a p => a + p.2.members.length) 0

/-- Members of a campaign in a state; the nine counts add up to its members at every instant (R215). -/
def memberCount (c : Camp) (st : Nat) : Nat := (c.members.filter fun p => p.2.st == st).length

/-- Code of a campaign state. -/
def campCode : CampSt → Nat
  | .draft => 0 | .ready => 1 | .running => 2 | .paused => 3 | .activating => 4 | .activated => 5 | .rollingBack => 6 | .reverted => 7

def campOfCode : Nat → Option CampSt
  | 0 => some .draft | 1 => some .ready | 2 => some .running | 3 => some .paused | 4 => some .activating | 5 => some .activated
  | 6 => some .rollingBack | 7 => some .reverted | _ => none

/-! ## The coded object (R202, R203) -/

/-- Rounded-up quotient. -/
def ceilQ (a b : Nat) : Nat := (a + b - 1) / b

/-- Image segments and table segments of an image length. -/
def imageSegs (len : Nat) : Nat := ceilQ len 8192
def tableSegsOf (len : Nat) : Nat := ceilQ (16 * imageSegs len) 8192

/-- Segments of the coded object (N_SEG). -/
def nSeg (m : Manifest) : Nat := m.tableSegs + imageSegs m.imageLen

/-- `n` bytes from position `pos` on of a sparse image, zero where nothing was written. -/
def fillBytes : Nat → Nat → Kv Byte → List Byte
  | 0, _, _ => []
  | n + 1, pos, [] => 0#8 :: fillBytes n (pos + 1) []
  | n + 1, pos, (k, v) :: t => if k = pos then v :: fillBytes n (pos + 1) t else 0#8 :: fillBytes n (pos + 1) ((k, v) :: t)

/-- The image of a campaign. -/
def imageBytes (c : Camp) : List Byte := fillBytes c.manifest.imageLen 0 c.image

/-- Image segment `i`, padded. -/
def imageSeg (c : Camp) (i : Nat) : List Byte :=
  fillBytes 8192 (i * 8192) (c.image.filter fun p => decide (i * 8192 ≤ p.1) && decide (p.1 < c.manifest.imageLen))

/-- The padded segment table. -/
def segTable (c : Camp) : List Byte :=
  padTo (c.manifest.tableSegs * 8192)
    ((List.range (imageSegs c.manifest.imageLen)).flatMap fun i => be 16 ((sha256 (imageSeg c i)).toNat / 2 ^ 128))

/-- Segment `i` of the coded object. -/
def objectSeg (c : Camp) (i : Nat) : List Byte :=
  if i < c.manifest.tableSegs then ((segTable c).drop (i * 8192)).take 8192 else imageSeg c (i - c.manifest.tableSegs)

/-! ## Members -/

/-- The member records of a meter, with their CAMP_IDs. -/
def membersOf (s : State) (slot : Nat) : List (W32 × Member) :=
  s.camp.camps.filterMap fun p => (Kv.get? slot p.2.members).map fun m => (p.2.manifest.campId, m)

/-- What a unit must hold of a campaign before its members (R217): the manifest, the state, and any record in force. -/
def tellCamp (u : BitVec 12) (c : Camp) (s : State) : State :=
  let id := c.manifest.campId
  let s := sendEntry u (.campCtl id (.state (campCode c.st))) (sendEntry u (.campCtl id (.manifest c.manifest)) s)
  match c.act with | some r => sendEntry u (.campCtl id (.act r)) s | none => s

/-- A meter that goes to a unit takes its member records along, each behind its campaign (R216, R217, R226). -/
def sendMembers (u : BitVec 12) (slot : Nat) (s : State) : State :=
  s.camp.camps.foldl (fun t p => match Kv.get? slot p.2.members with
    | some m => sendEntry u (.member p.2.manifest.campId m) (tellCamp u p.2 t)
    | none => t) s

/-- A release, with the removal of its memberships at the old unit (R63, R216). -/
def sendRelease (u : BitVec 12) (slot : Nat) (title : W64) (s : State) : State :=
  sendEntry u (.release title) ((membersOf s slot).foldl (fun t p => sendEntry u (.campCtl p.1 (.remove [slot])) t) s)

/-- A move or a retirement discards the endpoint's fingerprint accumulators (R249), and the standby hears of it (R250). -/
def dropFingerprint (title : W64) (s : State) : State :=
  s.plc.foldl (fun t p =>
    if (Kv.get? title.toNat p.2.fps).isNone then t
    else
      let v := { p.2 with fps := Kv.del title.toNat p.2.fps }
      journal (.plc p.1 v) { t with plc := Kv.put p.1 v t.plc }) s

/-- A retired meter leaves every campaign (R216). -/
def dropMemberships (title : W64) (s : State) : State :=
  s.camp.camps.foldl (fun t p =>
    if p.2.members.any (fun m => m.2.title == title) then
      putCamp p.1 (some { p.2 with members := p.2.members.filter fun m => m.2.title != title }) t
    else t) s

end Sys2Proof.Machine
end

