-- ==== Sys2Proof/Machine/Table.lean ====
section
/-!
DEFINITION. Sys2Proof/Machine/Table.lean: the meter table (chapter 02): title index, record writes, slot states, unknown list,
moves, retirement, and the table commands (R45 to R82).
-/
namespace Sys2Proof.Machine

/-! ## The title index -/

/-- One SipHash round (the SipHash reference; PRESUMED, log entry 4). -/
def sipRound (v : W64 × W64 × W64 × W64) : W64 × W64 × W64 × W64 :=
  let (v0, v1, v2, v3) := v
  let v0 := v0 + v1
  let v1 := v1.rotateLeft 13 ^^^ v0
  let v0 := v0.rotateLeft 32
  let v2 := v2 + v3
  let v3 := v3.rotateLeft 16 ^^^ v2
  let v0 := v0 + v3
  let v3 := v3.rotateLeft 21 ^^^ v0
  let v2 := v2 + v1
  let v1 := v1.rotateLeft 17 ^^^ v2
  let v2 := v2.rotateLeft 32
  (v0, v1, v2, v3)

/-- The bytes of a 64-bit word in the other order (the little-endian readings of R54). -/
def swap64 (w : W64) : W64 :=
  let b (i : Nat) : W64 := ((w >>> (8 * i)) &&& 0xFF#64) <<< (56 - 8 * i)
  b 0 ||| b 1 ||| b 2 ||| b 3 ||| b 4 ||| b 5 ||| b 6 ||| b 7

/-- SipHash-2-4 of the eight title bytes under the table salt (R54). -/
def sipHash (salt : BitVec 128) (title : W64) : W64 :=
  let k0 := swap64 (BitVec.ofNat 64 (salt.toNat >>> 64))
  let k1 := swap64 (BitVec.ofNat 64 salt.toNat)
  let m := swap64 title
  let b : W64 := 0x0800000000000000#64
  let v : W64 × W64 × W64 × W64 :=
    (k0 ^^^ 0x736f6d6570736575#64, k1 ^^^ 0x646f72616e646f6d#64, k0 ^^^ 0x6c7967656e657261#64, k1 ^^^ 0x7465646279746573#64)
  let absorb (v : W64 × W64 × W64 × W64) (m : W64) : W64 × W64 × W64 × W64 :=
    let (a, b, c, d) := v
    let (a, b, c, d) := sipRound (sipRound (a, b, c, d ^^^ m))
    (a ^^^ m, b, c, d)
  let (a, b', c, d) := absorb (absorb v m) b
  let (a, b', c, d) := sipRound (sipRound (sipRound (sipRound (a, b', c ^^^ 0xFF#64, d))))
  a ^^^ b' ^^^ c ^^^ d

/-- log2 of the slot count (CTL_TBL_CONFIG.SIZE_LOG2, R45). -/
def tblLog2 (s : State) : Nat := fieldOf s 0x200 23 16

/-- Slots of the table (R45). -/
def tblSize (s : State) : Nat := 2 ^ tblLog2 s

/-- Index lines: half the slot count, so that the entries are twice the slots (R53, R54). -/
def idxLines (s : State) : Nat := 2 ^ (tblLog2 s - 1)

/-- The 32 index positions of a title's path: the home line and seven following lines, wrapping (R54). -/
def idxPath (s : State) (title : W64) : List Nat :=
  let home := (sipHash s.table.salt title).toNat % idxLines s
  (List.range 32).map fun i => (home * 4 + i) % (4 * idxLines s)

/-- The empty index entry. -/
def idxEmpty : IdxEntry := ⟨0, false, false, 0⟩

/-- The slot a title's VALID entry names; the walk stops at the first entry neither VALID nor TOMBSTONE (R54). -/
def idxWalk (m : Kv IdxEntry) (title : W64) : List Nat → Option Nat
  | [] => none
  | p :: t =>
    let e := m.getD p idxEmpty
    if !e.valid && !e.tomb then none
    else if e.valid && e.title == title then some e.slot
    else idxWalk m title t

/-- The slot of a title, by the index. -/
def idxFind (s : State) (title : W64) : Option Nat := idxWalk s.table.index title (idxPath s title)

/-- The first position on a path that holds no VALID entry. -/
def idxRoom (m : Kv IdxEntry) : List Nat → Option Nat
  | [] => none
  | p :: t => if (m.getD p idxEmpty).valid then idxRoom m t else some p

/-- The change that inserts a title on its path, or none when all 32 entries are VALID (R54). -/
def idxInsertion (s : State) (title : W64) (slot : Nat) : Option (Nat × IdxEntry) :=
  (idxRoom s.table.index (idxPath s title)).map fun p => (p, ⟨title, true, false, slot⟩)

/-- Write one index position. -/
def putIdx (c : Nat × IdxEntry) (s : State) : State := { s with table := { s.table with index := Kv.put c.1 c.2 s.table.index } }

/-- The position of a title's VALID entry. -/
def idxPos (m : Kv IdxEntry) (title : W64) : List Nat → Option Nat
  | [] => none
  | p :: t =>
    let e := m.getD p idxEmpty
    if !e.valid && !e.tomb then none
    else if e.valid && e.title == title then some p
    else idxPos m title t

/-- The change that deletes a title: TOMBSTONE set, VALID cleared (R54). -/
def idxDeletion (s : State) (title : W64) : Option (Nat × IdxEntry) :=
  (idxPos s.table.index title (idxPath s title)).map fun p => (p, { s.table.index.getD p idxEmpty with valid := false, tomb := true })

/-! ## Records -/

/-- No keys. -/
def noWrap : Wrapped := ⟨.table 0, 0, false⟩
def noKeys : RecKeys := ⟨noWrap, noWrap, noWrap, noWrap, 0⟩
/-- A slot not written since the table was built (R48). -/
def slotEmpty : Slot := ⟨0, noKeys, 0⟩

/-- A table slot. -/
def slotOf (s : State) (n : Nat) : Slot := s.table.slots.getD n slotEmpty
/-- The image of a slot. -/
def imgOf (s : State) (n : Nat) : RecImg := (slotOf s n).img

/-- STATE of a record image (R57): 0 FREE, 1 PROVISIONED, 2 ACTIVE, 3 SUSPENDED, 4 RETIRED. -/
def recState (r : RecImg) : Nat := fld r 8 1
def recTitle (r : RecImg) : W64 := BitVec.ofNat 64 (fld r 0 8)
def recSeq (r : RecImg) : W32 := BitVec.ofNat 32 (fld r 12 4)
def recService (r : RecImg) : BitVec 12 := BitVec.ofNat 12 (fld r 16 2)
/-- A bit of FLAGS: 15 TOPO_SET, 14 FLAPPING, 13 KEY_FAULT, 12 COUNTER_EXHAUSTED, 11 TAMPER_SEEN. -/
def recFlag (r : RecImg) (i : Nat) : Bool := (fld r 10 2 / 2 ^ i) % 2 == 1
/-- Set a bit of FLAGS. -/
def setFlag (r : RecImg) (i : Nat) (b : Bool) : RecImg :=
  let f := fld r 10 2
  setFld r 10 2 (f - (f / 2 ^ i % 2) * 2 ^ i + b2n b * 2 ^ i)

/-- Add to a saturating field of a record. -/
def satFld (r : RecImg) (off len n : Nat) : RecImg := setFld r off len (min (2 ^ (8 * len) - 1) (fld r off len + n))

/-- One record write (R49) with the change of its index entry: the new image takes RECORD_SEQ + 1, both are stored, and the write is
journalled (R71). -/
def writeSlotIdx (n : Nat) (v : Slot) (c : Option (Nat × IdxEntry)) (s : State) : State :=
  let img := setFld v.img 12 4 ((recSeq (imgOf s n)).toNat + 1)
  let v' : Slot := { v with img := img }
  let s := match c with | some x => putIdx x s | none => s
  journal (.slot n v' c) { s with table := { s.table with slots := Kv.put n v' s.table.slots } }

/-- One record write that leaves the index as it is. -/
def writeSlot (n : Nat) (v : Slot) (s : State) : State := writeSlotIdx n v none s

/-- One record write that changes the image only. -/
def writeRec (n : Nat) (f : RecImg → RecImg) (s : State) : State :=
  writeSlot n { slotOf s n with img := f (imgOf s n) } s

/-! ## The unit's own record writes (R49, R78) -/

/-- Such a write on a record image: a phase that the host has fixed stays (R48), and a bit of CAMPAIGNS is set or cleared (R198). -/
def ownImage (w : OwnWrite) (r : RecImg) : RecImg :=
  match w with
  | .balance susp phase =>
    let r := match susp with | some v => setFld r 148 2 v | none => r
    match phase with
    | some (p, c) => if fld r 146 1 / 32 % 2 = 1 then r else setFld (setFld r 146 1 (fld r 146 1 % 64 + p * 64)) 147 1 c
    | none => r
  | .campaign b on =>
    let v := fld r 152 8
    setFld r 152 8 (if on then v ||| 2 ^ b else v - (if v / 2 ^ b % 2 = 1 then 2 ^ b else 0))

/-- Make the write, if the record still is in service for the title it was decided for. -/
def ownWriteNow (w : LateWrite) (s : State) : State :=
  let r := imgOf s w.slot
  if recState r = 0 || recState r = 4 || recTitle r != w.title || ownImage w.what r = r then s
  else writeRec w.slot (ownImage w.what) s

/-- Is a reading of the slot in flight and not committed? -/
def slotReading (n : Nat) (s : State) : Bool := s.pipe.flight.any fun f => f.slot == some n && f.stage != .committed

/-- A write of the unit's own: it waits behind the meter's readings in flight, and behind a write of its own that does (R78). -/
def ownWrite (w : LateWrite) (s : State) : State :=
  if slotReading w.slot s || s.table.late.any (fun x => x.slot == w.slot) then
    { s with table := { s.table with late := s.table.late ++ [w] } }
  else ownWriteNow w s

/-- Writes whose readings have committed are made, in order. -/
def runLate (s : State) : State := s.table.late.foldl (fun t w => ownWrite w t) { s with table := { s.table with late := [] } }

/-! ## What the host reads -/

/-- The image as the host reads it (R48, R74): dash fields zero, LINK 0xC0 in HEAD, PHASE_CONF 255 when FROM_HOST is 1; a
FREE slot shows RECORD_SEQ alone. -/
def hostImg (s : State) (r : RecImg) : RecImg :=
  if recState r = 0 then setFld 0 12 4 (fld r 12 4)
  else
    let r := setFld (setFld (setFld r 85 11 0) 150 2 0) 172 4 0
    let r := setFld (setFld r 32 48 0) 176 48 0
    let r := if isHead s then setFld r 9 1 0xC0 else r
    if fld r 146 1 / 32 % 2 = 1 then setFld r 147 1 255 else r

/-- RESULT of TBL_READ, TBL_FIND and TBL_DUMP (R574). -/
def tblResult (slot st seq : Nat) : List Byte := padTo 40 (be 4 slot ++ be 1 st ++ be 3 0 ++ be 4 seq)

/-- The lowest FREE slot (R55): the first number below the size whose slot is FREE. -/
def freeSlotFrom (size : Nat) : Nat → Kv Slot → Option Nat
  | n, [] => if n < size then some n else none
  | n, (k, v) :: t =>
    if n < k then (if n < size then some n else none)
    else if recState v.img = 0 then (if k < size then some k else none)
    else freeSlotFrom size (k + 1) t

/-- The lowest-numbered FREE slot, if any. -/
def freeSlot (s : State) : Option Nat := freeSlotFrom (tblSize s) 0 s.table.slots

/-- Slots not FREE (CTL_TBL_USED). -/
def tblUsed (s : State) : Nat := (s.table.slots.filter fun p => recState p.2.img != 0).length

/-- Table insert refused: CTL_TBL_JOIN_REFUSED and CTL event 0x10 (R54, R58, R77, R573). -/
def insertRefused (reason : Nat) (slot : Option Nat) (title : W64) (s : State) : State :=
  event 1 0x10 (reason * 2 ^ 30 + slot.getD 0x3FFFFF) [be 8 title.toNat] (count 0x210 s)

/-- The write that makes a slot FREE (R65): a record write that keeps only RECORD_SEQ; its signer entry is cleared (R94). An eviction
deletes the index entry with it (R66). -/
def freeTheSlot (n : Nat) (c : Option (Nat × IdxEntry)) (s : State) : State :=
  let s := writeSlotIdx n ⟨setFld 0 12 4 (fld (imgOf s n) 12 4), noKeys, 0⟩ c s
  { s with sec := { s.sec with signers := Kv.del n s.sec.signers } }

/-- Does any token hold the slot? -/
def slotHeld (n : Nat) (s : State) : Bool := s.pipe.flight.any fun r => r.slot == some n

/-- Readings of the slot that have been dispatched still commit (R78). -/
def keepReadings (n : Nat) (s : State) : State :=
  { s with pipe := { s.pipe with flight := s.pipe.flight.map fun f => if f.slot == some n then { f with kept := true } else f } }

/-- Retirement (R65): the index entry goes, STATE is RETIRED with the instant of retirement; a HEAD unit sends the release
when asked to; a hold of 0 frees the slot as soon as no token holds it. -/
def retire (n : Nat) (release : Bool) (s : State) : State :=
  let r := imgOf s n
  let s := writeSlotIdx n { slotOf s n with img := setFld (setFld r 8 1 4) 152 8 0, retiredAt := s.tim.clk } (idxDeletion s (recTitle r)) (keepReadings n s)
  let s := if release && recService r != 0xFFF#12 then sendRelease (recService r) n (recTitle r) s else s
  let s := dropFingerprint (recTitle r) (dropMemberships (recTitle r) s)
  if fieldOf s 0x204 15 8 = 0 && !slotHeld n s then freeTheSlot n none s else s

/-- Set IC_LAST in a record image; reaching 0xFFFF_FFFF sets COUNTER_EXHAUSTED (R52). -/
def setIc (r : RecImg) (ic : Nat) : RecImg :=
  let r := setFld r 80 4 ic
  if ic % 2 ^ 32 = 0xFFFFFFFF then setFlag r 12 true else r

/-- The event of R52, when a write has just exhausted the counter. -/
def icEvent (n : Nat) (before after : RecImg) (s : State) : State :=
  if recFlag after 12 && !recFlag before 12 then event 1 0x12 n [be 8 (recTitle after).toNat] s else s

/-! ## Unknown titles -/


/-- UNKNOWN_HOLD (R81): an hour of the raw counter, in ns, which no step of the clock shifts. -/
def unknownHold : Nat := 3600000000000

/-- A title heard and not held (R60): it moves to the head of the unknown list, new titles count in CTL_TBL_UNKNOWN, a HEAD
unit posts a notice at most once per UNKNOWN_HOLD and title, and a FIELD unit forwards the title to the head. R60 does not say how
often it forwards the same title: the model does when the title is new in its list (DESIGN CHOICE, log entry 121). -/
def noteUnknown (title : W64) (source : Byte) (from_ : BitVec 12) (s : State) : State :=
  let old := s.table.unknown.find? (fun u => u.title == title)
  let s := if old.isNone then count 0x214 s else s
  let due := match old.bind (·.noticed) with | none => true | some t => t + unknownHold ≤ s.tim.raw
  let stamp := if isHead s && due then some s.tim.raw else old.bind (·.noticed)
  let s := { s with table := { s.table with
    unknown := (⟨title, stamp⟩ :: s.table.unknown.filter (fun u => u.title != title)).take 4096 } }
  if isHead s then
    if due then postNow (.unknownMeter title from_ (rxTime s)) s else s
  else if isField s && old.isNone then sendEntry headUnit (.unknown title source (rxTime s)) s
  else s

/-! ## Joins -/

/-- The oldest ACTIVE record by LAST_RX_TIME among slots that no token holds (log entry 122): slot and that time. -/
def oldestActive (held : Nat → Bool) : Kv Slot → Option (Nat × Nat)
  | [] => none
  | (n, v) :: t =>
    let rest := oldestActive held t
    if recState v.img = 2 && !held n then
      match rest with
      | some (m, x) => if fld v.img 96 8 ≤ x then some (n, fld v.img 96 8) else some (m, x)
      | none => some (n, fld v.img 96 8)
    else rest

/-- An hour in the format of R324. -/
def hourTime : Nat := 3600 * 65536

/-- Eviction (R66): with EVICT set in a FIELD unit, the ACTIVE record last heard longest ago, if more than EVICT_MIN_AGE ago,
goes straight to FREE. -/
def evict (s : State) : State :=
  if !isField s || fieldOf s 0x200 2 2 = 0 then s
  else match oldestActive (fun n => slotHeld n s) s.table.slots with
    | none => s
    | some (n, x) =>
      if x + fieldOf s 0x204 7 0 * hourTime < (clkTime s.tim.clk).toNat || (fieldOf s 0x204 7 0 = 0) then
        count 0x21C (freeTheSlot n (idxDeletion s (recTitle (imgOf s n))) s)
      else s

/-- The write of a join or re-join (R58): JOIN_TIME, JOIN_COUNT, LINK, SHORT_ADDR and EUI64. -/
def joinWrite (link : Byte) (short : BitVec 16) (eui : W64) (t : W64) (r : RecImg) : RecImg :=
  let r := setFld (setFld (setFld r 9 1 link.toNat) 18 2 short.toNat) 20 8 eui.toNat
  satFld (setFld r 160 8 t.toNat) 168 2 1

/-- An endpoint completes link join at a FIELD unit (R58): re-join, fetch, or refusal at table level. -/
def linkJoin (title : W64) (link : Byte) (short : BitVec 16) (eui : W64) (s : State) : State :=
  if !isField s then s else
  match idxFind s title with
  | some n =>
    let s := writeRec n (joinWrite link short eui (rxTime s)) s
    sendEntry headUnit (.joinReport title link short eui (rxTime s)) s
  | none =>
    let s := if (freeSlot s).isNone then evict s else s
    match freeSlot s with
    | none => insertRefused 1 none title s
    | some _ =>
      let rest := s.table.fetches.filter (fun f => f.title != title)
      sendEntry headUnit (.fetch title)
        { s with table := { s.table with fetches := rest ++ [⟨title, 1, link, short, eui⟩] } }

/-- A RECORD entry at a FIELD unit (R50, R58): every field of the head record but LINK, SHORT_ADDR and EUI64, installed ACTIVE
in the lowest FREE slot or over the copy held; an answered fetch of a join also writes the join. -/
def recordEntry (img : RecImg) (keys : RecKeys) (s : State) : State :=
  if !isField s then s else
  let title := recTitle img
  let f := s.table.fetches.find? (fun f => f.title == title)
  let s := { s with table := { s.table with fetches := s.table.fetches.filter (fun f => f.title != title),
                                            unknown := s.table.unknown.filter (fun u => u.title != title) } }
  let place : State × Option (Nat × Option (Nat × IdxEntry)) :=
    match idxFind s title with
    | some n => (s, some (n, none))
    | none =>
      let s := if (freeSlot s).isNone then evict s else s
      match freeSlot s with
      | none => (insertRefused 1 none title s, none)
      | some n => match idxInsertion s title n with
        | none => (insertRefused 0 (some n) title s, none)
        | some c => (s, some (n, some c))
  match place with
  | (s, none) => s
  | (s, some (n, c)) =>
    let old := imgOf s n
    let own := recState old != 0
    let new := setFld img 8 1 2
    let new := if own then setFld (setFld (setFld new 9 1 (fld old 9 1)) 18 2 (fld old 18 2)) 20 8 (fld old 20 8) else
      setFld (setFld (setFld new 9 1 0xC0) 18 2 0xFFFF) 20 8 0
    match f with
    | some f =>
      let s := writeSlotIdx n ⟨joinWrite f.link f.short f.eui (rxTime s) new, keys, 0⟩ c s
      sendEntry headUnit (.joinReport title f.link f.short f.eui (rxTime s)) s
    | none => writeSlotIdx n ⟨new, keys, 0⟩ c s

/-- A RELEASE entry at a FIELD unit (R63). -/
def releaseEntry (title : W64) (s : State) : State :=
  if !isField s then s else
  match idxFind s title with
  | some n => retire n false s
  | none => count 0x218 s

/-- A FETCH_NAK entry: the title enters the unknown list and no slot is used (R58). -/
def fetchNakEntry (title : W64) (s : State) : State :=
  if !isField s then s else
  noteUnknown title 0 0xFFF#12
    { s with table := { s.table with fetches := s.table.fetches.filter (fun f => f.title != title) } }

/-- One move of a meter, with whatever else the one record write changes (`also`): MOVE_COUNT, CTL_TBL_MOVES, the moves of the hour in
the meter's work area and, past FLAP_LIMIT, FLAPPING with its event once (R61, R62, R64). -/
def moveMeter (n : Nat) (to_ : BitVec 12) (also : RecImg → RecImg) (s : State) : State :=
  let k := (workOf s n).moves + 1
  let s := putWork n { workOf s n with moves := k } s
  let lim := fieldOf s 0x200 11 8
  let flap := lim != 0 && lim < k && !recFlag (imgOf s n) 14
  let s := writeRec n (fun r =>
    let r := also (satFld (setFld r 16 2 to_.toNat) 170 2 1)
    if flap then setFlag r 14 true else r) (count 0x218 s)
  if flap then event 1 0x11 n [be 8 (recTitle (imgOf s n)).toNat] s else s

/-- The head's answer to a FETCH from unit `u` (R61, R62). An ACTIVE slot that names no unit (SERVICE_ID 0xFFF) is in no row of R62's
table: the model counts the move and sends no release (DESIGN CHOICE, log entry 121). -/
def fetchEntry (title : W64) (u : BitVec 12) (s : State) : State :=
  if !isHead s then s else
  match idxFind s title with
  | none => noteUnknown title 0 u (sendEntry u (.fetchNak title) s)
  | some n =>
    let r := imgOf s n
    let record (s : State) : State := sendMembers u n (sendEntry u (.record (imgOf s n) (slotOf s n).keys) s)
    if recState r = 3 then sendEntry u (.fetchNak title) s
    else if recService r = u then record s
    else if recState r = 1 && recService r = 0xFFF#12 then record (writeRec n (fun r => setFld r 16 2 u.toNat) s)
    else
      let s := moveMeter n u id s
      { s with table := { s.table with moves := s.table.moves ++ [⟨n, recService r, u, journalMark s, recState r == 1, true⟩] } }

/-- A JOIN_REPORT entry (R62, R310): applied if its JOIN_TIME is later than the record's; a PROVISIONED slot becomes ACTIVE. For a title
that is SUSPENDED or has no VALID entry it does nothing: R60 names no notice for it, and R62 sends nothing back (DESIGN CHOICE, log entry
121). -/
def joinReportEntry (title : W64) (t : W64) (eui : W64) (u : BitVec 12) (s : State) : State :=
  if !isHead s then s else
  match idxFind s title with
  | none => s
  | some n =>
    let r := imgOf s n
    if recState r = 3 || t.toNat ≤ fld r 160 8 then s
    else
      let other := recService r != u && recService r != 0xFFF#12
      let join (r : RecImg) : RecImg := satFld (setFld (setFld (setFld (setFld r 8 1 2) 16 2 u.toNat) 20 8 eui.toNat) 160 8 t.toNat) 168 2 1
      let s1 := if other then moveMeter n u join s else writeRec n join s
      if other then { s1 with table := { s1.table with moves := s1.table.moves ++ [⟨n, recService r, u, journalMark s1, false, false⟩] } } else s1

/-! ## Table commands -/

/-- The fields TBL_WRITE may write (R48, class W): offset and length. -/
def wFields : List (Nat × Nat) :=
  [(10, 2), (84, 1), (128, 4), (132, 2), (134, 2), (136, 2), (138, 2), (140, 2), (142, 2), (144, 2), (146, 1), (224, 32)]
/-- The fields TBL_SET may write (class A). -/
def aFields : List (Nat × Nat) := [(8, 1), (16, 2), (80, 4)]

/-- Does BYTE_MASK cover image byte `k`? Its most significant bit stands for byte 0 (R76). -/
def maskByte (m : BitVec 256) (k : Nat) : Bool := m.getLsbD (255 - k)
/-- Does the mask cover the whole field? -/
def covers (m : BitVec 256) (f : Nat × Nat) : Bool := (List.range f.2).all fun j => maskByte m (f.1 + j)
/-- Is every masked byte inside a wholly covered field of the list? -/
def maskOk (fs : List (Nat × Nat)) (m : BitVec 256) : Bool :=
  (List.range 256).all fun k => !maskByte m k || fs.any fun f => f.1 ≤ k && k < f.1 + f.2 && covers m f

/-- The value of a field after the host writes it (R48): FLAGS, WINDOW and PHASE have rules of their own. -/
def hostWrite (f : Nat × Nat) (r image : RecImg) : RecImg :=
  let v := fld image f.1 f.2
  if f.1 = 10 then
    let r := setFlag r 15 (v / 2 ^ 15 % 2 = 1)
    let r := setFlag r 14 (recFlag r 14 && v / 2 ^ 14 % 2 = 1)
    setFlag r 11 (recFlag r 11 && v / 2 ^ 11 % 2 = 1)
  else if f.1 = 84 then setFld r 84 1 (min 64 v)
  else if f.1 = 146 then setFld r 146 1 (v / 32 * 32)
  else if f.1 = 16 then setFld r 16 2 (v % 4096)
  else if f.1 = 80 then setIc r v
  else setFld r f.1 f.2 v

/-- Apply the covered fields of a list. -/
def hostWrites (fs : List (Nat × Nat)) (m : BitVec 256) (image r : RecImg) : RecImg :=
  fs.foldl (fun r f => if covers m f then hostWrite f r image else r) r

/-- TBL_READ (R74, R574). -/
def tblRead (slot : Nat) (s : State) : State × Reply :=
  if slot ≥ tblSize s then (s, .bad)
  else
    let r := imgOf s slot
    (s, ⟨.ok, tblResult slot (recState r) (recSeq r).toNat, [recBytes (hostImg s r)]⟩)

/-- TBL_FIND (R74, R574). -/
def tblFind (title : W64) (s : State) : State × Reply :=
  match idxFind s title with
  | none => (s, ⟨.ok, tblResult 0x3FFFFF 0 0, []⟩)
  | some n => let r := imgOf s n; (s, ⟨.ok, tblResult n (recState r) (recSeq r).toNat, [recBytes (hostImg s r)]⟩)

/-- TBL_DUMP (R74, R75). The spec gives no SLOT for a dump that returns nothing: the model returns FIRST modulo 2^22 (DESIGN CHOICE, log
entry 121). -/
def tblDump (first cnt : Nat) (s : State) : State × Reply :=
  let n := min cnt (tblSize s - first)
  (s, ⟨.ok, tblResult (if n = 0 then first % 2 ^ 22 else first) 0 0,
    (List.range n).map fun i => recBytes (hostImg s (imgOf s (first + i)))⟩)

/-- Would a write of FLAGS change a flag that the host may not change so (R48)? Reserved bits are left as they are. -/
def flagsRefused (m : BitVec 256) (image r : RecImg) : Bool :=
  covers m (10, 2) &&
    (recFlag image 13 != recFlag r 13 || recFlag image 12 != recFlag r 12
      || (recFlag image 14 && !recFlag r 14) || (recFlag image 11 && !recFlag r 11))

/-- TBL_WRITE (R74, R76). A FLAGS value that changes a flag the host may not change so is refused (DEDUCED, log entry 83). -/
def tblWrite (slot : Nat) (expect : W32) (m : BitVec 256) (image : RecImg) (s : State) : State × Reply :=
  if slot ≥ tblSize s then (s, .bad)
  else
    let r := imgOf s slot
    if expect != 0 && expect != recSeq r then (s, .busy)
    else if m = 0 then (s, .done)
    else if recState r = 0 || recState r = 4 || !maskOk wFields m || flagsRefused m image r then (s, .bad)
    else (writeRec slot (hostWrites wFields m image) s, .done)

/-- May the host change STATE from `a` to `b` (R57)? -/
def stateChange (a b : Nat) : Bool :=
  a == b || ((a == 1 || a == 2) && b == 3) || (a == 3 && b == 2) || ((a == 1 || a == 2 || a == 3) && b == 4)

/-- TBL_SET (R57, R74, R76): the A fields; a write of RETIRED is a retirement and may change no other field. A FIELD unit takes SUSPENDED
too, although R57's row of that state names the HEAD (DESIGN CHOICE, log entry 121). -/
def tblSet (slot : Nat) (expect : W32) (m : BitVec 256) (image : RecImg) (s : State) : State × Reply :=
  if slot ≥ tblSize s then (s, .bad)
  else
    let r := imgOf s slot
    let wantsState := covers m (8, 1)
    let st := fld image 8 1
    if expect != 0 && expect != recSeq r then (s, .busy)
    else if m = 0 then (s, .done)
    else if recState r = 0 || recState r = 4 || !maskOk aFields m then (s, .bad)
    else if wantsState && !stateChange (recState r) st then (s, .bad)
    else if wantsState && st = 4 then
      if covers m (16, 2) || covers m (80, 4) then (s, .bad) else (retire slot (isHead s) s, .done)
    else
      let new := hostWrites aFields m image r
      (icEvent slot r new (writeRec slot (fun _ => new) s), .done)

/-- The newest TKEK version held (R69): the highest version. A unit that holds none has not loaded a bundle; version 0 and key 0 stand
for it (DESIGN CHOICE, log entry 121). -/
def newestTkek (s : State) : Nat × Kek := s.sec.tkek.getLast?.getD (0, 0)

/-- Rewrap a key under the newest TKEK (R69). -/
def rewrap (s : State) (k : Key) : Wrapped := ⟨.table (newestTkek s).2, k, true⟩

/-- A wrapped key of a command unwraps under the wrap key of the command's own slot (R408). -/
def unwrapCmd (h : Hdr) (s : State) (w : Wrapped) : Option Key :=
  match h.auth.bind (fun a => Kv.get? a.slot.toNat s.sec.slots) with
  | some k => if w.intact && w.under = .authority k.key then some w.val else none
  | none => none

/-- TBL_PROVISION (R55, R69, R77). -/
def tblProvision (h : Hdr) (title : W64) (gen window : Byte) (ruleSet : BitVec 16) (service : BitVec 12) (ek ak : Wrapped)
    (s : State) : State × Reply :=
  if !isHead s || (idxFind s title).isSome then (s, .bad)
  else match unwrapCmd h s ek, unwrapCmd h s ak with
    | some e, some a =>
      match freeSlot s with
      | none => (insertRefused 2 none title s, .busy)
      | some n =>
        match idxInsertion s title n with
        | none => (insertRefused 0 (some n) title s, .busy)
        | some c =>
          let r : RecImg := setFld 0 0 8 title.toNat
          let r := setFld (setFld (setFld r 8 1 1) 9 1 0xC0) 16 2 service.toNat
          let r := setFld (setFld r 18 2 0xFFFF) 28 4 ((newestTkek s).1 * 2 ^ 24 + gen.toNat * 2 ^ 8)
          let r := setFld (setFld r 84 1 (min 64 window.toNat)) 142 2 ruleSet.toNat
          (writeSlotIdx n ⟨r, ⟨rewrap s e, rewrap s a, noWrap, noWrap, 0⟩, 0⟩ (some c) s, ⟨.ok, padTo 40 (be 4 n), []⟩)
    | _, _ => (s, .bad)

/-- Can the unit unwrap a key of a record whose KEY_SET names version `ver` (R68)? -/
def unwrapRec (s : State) (ver : Nat) (w : Wrapped) : Option Key :=
  match Kv.get? ver s.sec.tkek with
  | some k => if w.intact && w.under = .table k then some w.val else none
  | none => none

/-- KEK_VER of a record image. -/
def kekVer (r : RecImg) : Nat := fld r 28 1

/-- TBL_KEY_STAGE (R69): one record write with the pending keys, PEND_VALID, the current keys rewrapped and KEK_VER. -/
def tblKeyStage (h : Hdr) (slot : Nat) (gen : Byte) (ek ak : Wrapped) (s : State) : State × Reply :=
  let v := slotOf s slot
  if slot ≥ tblSize s || recState v.img = 0 || recState v.img = 4 then (s, .bad)
  else match unwrapCmd h s ek, unwrapCmd h s ak with
    | some e, some a =>
      let cur (w : Wrapped) : Wrapped := match unwrapRec s (kekVer v.img) w with | some k => rewrap s k | none => w
      let keep := (unwrapRec s (kekVer v.img) v.keys.ek).isSome && (unwrapRec s (kekVer v.img) v.keys.ak).isSome
      let img := setFld (setFld v.img 28 1 (newestTkek s).1) 31 1 0x80
      (writeSlot slot ⟨img, ⟨if keep then cur v.keys.ek else v.keys.ek, if keep then cur v.keys.ak else v.keys.ak,
        rewrap s e, rewrap s a, gen⟩, v.retiredAt⟩ s, .done)
    | _, _ => (s, .bad)

/-- TBL_RETIRE (R65). -/
def tblRetire (slot : Nat) (s : State) : State × Reply :=
  let st := recState (imgOf s slot)
  if slot ≥ tblSize s || st = 0 || st = 4 then (s, .bad) else (retire slot (isHead s) s, .done)

/-! ## Timers of the table -/

/-- FETCH_RETRY (R59): the next attempt of an outstanding fetch, up to four; then the title is treated as unknown. -/
def fetchRetry (title : W64) (s : State) : State :=
  match s.table.fetches.find? (fun f => f.title == title) with
  | none => s
  | some f =>
    let rest := s.table.fetches.filter (fun f => f.title != title)
    if f.attempts < 4 then
      sendEntry headUnit (.fetch title) { s with table := { s.table with fetches := rest ++ [{ f with attempts := f.attempts + 1 }] } }
    else noteUnknown title 0 0xFFF#12 { s with table := { s.table with fetches := rest } }

/-- MOVE_RELEASE_QUEUE (R61, R62): the oldest move whose journal batch is acknowledged queues its release and then its record; for a
PROVISIONED slot the record goes first. -/
def moveRelease (s : State) : State :=
  match s.table.moves with
  | [] => s
  | m :: t =>
    if !journalAcked m.batch s then s
    else
      let s := { s with table := { s.table with moves := t } }
      let release (s : State) : State :=
        if m.oldUnit = 0xFFF#12 then s else sendRelease m.oldUnit m.slot (recTitle (imgOf s m.slot)) s
      let record (s : State) : State :=
        if m.newUnit = 0xFFF#12 then s
        else sendMembers m.newUnit m.slot (if m.record then sendEntry m.newUnit (.record (imgOf s m.slot) (slotOf s m.slot).keys) s else s)
      if m.recordFirst then release (record s) else record (release s)

/-- An hour of the local clock, in its units of 2^-16 ns. -/
def hourClk : Nat := 3600 * 1000000000 * 65536

/-- RETIRE_HOLD_EXPIRY (R65): a RETIRED slot whose hold is over and that no token holds becomes FREE; a standby follows the journal. -/
def retireHoldExpiry (n : Nat) (s : State) : State :=
  if recState (imgOf s n) = 4 && !slotHeld n s && !isStandby s
    && decide ((slotOf s n).retiredAt + fieldOf s 0x204 15 8 * hourClk ≤ s.tim.clk) then freeTheSlot n none s else s

/-- AGE_CHECK (R67): a FIELD unit retires every ACTIVE record not heard for AGE_LIMIT hours; no release is sent, and a standby follows the
journal. -/
def ageCheck (s : State) : State :=
  let lim := fieldOf s 0x204 31 16
  if !isField s || isStandby s || lim = 0 then s
  else s.table.slots.foldl (fun t p =>
    if recState p.2.img = 2 && fld p.2.img 96 8 + lim * hourTime ≤ (clkTime s.tim.clk).toNat then retire p.1 false t else t) s

end Sys2Proof.Machine
end

