-- ==== Sys2Proof/Machine/Rules.lean ====
section
/-!
DEFINITION. Sys2Proof/Machine/Rules.lean: the rule store (chapter 04): loading, activation marks, removal and reading (R143 to R147).
-/
namespace Sys2Proof.Machine

def ruleCountsZero : RuleCounts := ⟨0, 0, 0, 0⟩
def ruleSetEmpty : RuleSet := ⟨none, none, ruleCountsZero, ruleCountsZero⟩

/-- A rule set of the store in central SRAM. -/
def ruleSet (s : State) (n : Nat) : RuleSet := s.rules.sets.getD n ruleSetEmpty

/-- Store a rule set, journalled (R145). -/
def putRuleSet (n : Nat) (v : RuleSet) (s : State) : State :=
  journal (.ruleSet n v) { s with rules := { s.rules with sets := Kv.putOr ruleSetEmpty n v s.rules.sets } }

/-- Is an activation or removal of the set in progress? -/
def ruleBusy (s : State) (n : Nat) : Bool := s.rules.marks.any fun m => m.sets.contains n

/-- CTL_RULE_LOAD_STATUS (R143, R149). -/
def ruleStatus (check index set : Nat) (s : State) : State :=
  setReg 0x404 (BitVec.ofNat 32 (check * 2 ^ 24 + index % 64 * 2 ^ 16 + (if set = 0 || 255 < set then 0 else set))) s

/-- RULE_LOAD (R143): every check in order, then the shadow bank. -/
def ruleLoad (img : List Byte) (s : State) : State × Reply :=
  let set := beVal (img.take 2)
  if !isHead s then (ruleStatus 0x0C 0 set s, .bad)
  else match checkImage img with
    | .inl (c, i) => (ruleStatus c i set s, .bad)
    | .inr p =>
      let v := ruleSet s p.setId
      let newer (b : Option RuleProg) : Bool := match b with | some q => decide (q.version.toNat < p.version.toNat) | none => true
      if !newer v.act || !newer v.shd then (ruleStatus 0x0D 0 set s, .bad)
      else if ruleBusy s p.setId then (ruleStatus 0x0E 0 set s, .busy)
      else (putRuleSet p.setId { v with shd := some p } (ruleStatus 0 0 set s), .done)

/-- The clusters in RUN, by number 0 to 3. -/
def runClusters (s : State) : List Nat := (List.range 4).filter fun c => islInRun s (17 + c)

/-- The change the mark makes in a set (R144): the banks swap, or the active bank is cleared. The counts since activation are those of
rows that clusters past the mark have run on the new bank (R146). -/
def markSet (remove : Bool) (v : RuleSet) : RuleSet :=
  ⟨if remove then none else v.shd, if remove then v.shd else v.act, v.fresh, ruleCountsZero⟩

/-- Do two of the sets coincide? -/
def hasDup : List Nat → Bool
  | [] => false
  | a :: t => t.contains a || hasDup t

/-- RULE_ACTIVATE and RULE_REMOVE (R144): refused, or one mark goes into the dispatch stream of every cluster in RUN; the
command completes when the last cluster has passed it. -/
def ruleMark (h : Hdr) (sets : List Nat) (remove : Bool) (s : State) : State × Reply :=
  let ready (n : Nat) : Bool := if remove then (ruleSet s n).act.isSome else (ruleSet s n).shd.isSome
  if !isHead s || sets.length = 0 || 16 < sets.length || hasDup sets then (s, .bad)
  else if sets.any (ruleBusy s) then (s, .busy)
  else if sets.any (fun n => n = 0 || 255 < n || !ready n) then (s, .bad)
  else ({ s with rules := { s.rules with marks := s.rules.marks ++ [⟨sets, remove, s.pipe.nextId, runClusters s, [], h⟩] } }, .later)

/-- Has every reading that cluster `c` took before the mark finished stage 7? A reading has once it is committed (log entry 20). -/
def markMayPass (s : State) (c markId : Nat) : Bool :=
  s.pipe.flight.all fun f => f.cluster != c || markId ≤ f.id || f.stage == .committed

/-- Finish every mark that all its clusters have passed: swap in central SRAM and complete the command (R144). -/
def finishMarks (s : State) : State :=
  s.rules.marks.foldl (fun t m =>
    if !m.waiting.isEmpty then t
    else
      let t := { t with rules := { t.rules with marks := t.rules.marks.filter (fun x => x.markId != m.markId || x.sets != m.sets) } }
      let t := m.sets.foldl (fun t n => putRuleSet n (markSet m.remove (ruleSet t n)) t) t
      answer m.hdr (if m.remove then 0x0303 else 0x0302) .done t) s

/-- ACTIVATION_MARK_PASS (R144): the oldest mark of cluster `c` passes when its earlier readings are past stage 7. -/
def markPass (c : Nat) (s : State) : State :=
  match s.rules.marks.find? (fun m => m.waiting.contains c) with
  | none => s
  | some m =>
    if !markMayPass s c m.markId then s
    else finishMarks { s with rules := { s.rules with marks := s.rules.marks.map fun x =>
      if x.markId = m.markId && x.sets = m.sets then { x with waiting := x.waiting.filter (· != c), passed := x.passed ++ [c] } else x } }

/-- The marks are void in a cluster that fails; when it returns it takes its copy from central SRAM (R145, R147). -/
def voidMarks (c : Nat) (s : State) : State :=
  { s with rules := { s.rules with marks := s.rules.marks.map fun x =>
    { x with waiting := x.waiting.filter (· != c), passed := x.passed.filter (· != c) } } }

/-- Must a reading that reaches stage 7 wait there for a mark (R144)? -/
def markHolds (s : State) (f : Flight) : Bool := s.rules.marks.any fun m => m.markId ≤ f.id && m.waiting.contains f.cluster

/-- Has the reading's cluster passed a mark of the set, so that its copy has swapped (R144)? The mark, if so. -/
def markPassed (s : State) (f : Flight) (n : Nat) : Option RuleMark :=
  s.rules.marks.find? fun m => m.sets.contains n && decide (m.markId ≤ f.id) && m.passed.contains f.cluster

/-- The bank a reading runs (R144): its cluster's copy has swapped once the mark passed there. -/
def activeProg (s : State) (f : Flight) (n : Nat) : Option RuleProg :=
  match markPassed s f n with
  | some m => (markSet m.remove (ruleSet s n)).act
  | none => (ruleSet s n).act

/-- Count a row on the bank it ran on (R146). -/
def countRule (f : Flight) (n : Nat) (g : RuleCounts → RuleCounts) (s : State) : State :=
  let new := (markPassed s f n).isSome
  { s with rules := { s.rules with sets := Kv.upd n ruleSetEmpty (fun v =>
    if new then { v with fresh := g v.fresh } else { v with cnt := g v.cnt }) s.rules.sets } }

/-- Sets with an active bank (CTL_RULE_ACTIVE, R149). -/
def rulesActive (s : State) : Nat := (s.rules.sets.filter fun p => p.2.act.isSome).length

/-- RULE_READ (R146, R574). -/
def ruleRead (n : Nat) (s : State) : State × Reply :=
  if n = 0 || 255 < n then (s, .bad)
  else
    let v := ruleSet s n
    let img (b : Option RuleProg) : List (List Byte) := match b with
      | some p => [p.image ++ List.replicate ((4 - p.image.length % 4) % 4) 0]
      | none => []
    let g (f : RuleProg → Nat) (b : Option RuleProg) : Nat := (b.map f).getD 0
    (s, ⟨.ok, padTo 40 (be 2 n ++ be 1 (b2n v.act.isSome * 2 + b2n v.shd.isSome) ++ be 1 0
      ++ be 4 (g (·.version.toNat) v.act) ++ be 4 (g (·.version.toNat) v.shd)
      ++ be 2 (g (·.wcc) v.act) ++ be 2 (g (·.wcc) v.shd)
      ++ be 2 (g (·.image.length) v.act) ++ be 2 (g (·.image.length) v.shd)
      ++ be 4 v.cnt.runs.toNat ++ be 4 v.cnt.flagged.toNat ++ be 4 v.cnt.held.toNat ++ be 4 v.cnt.faulted.toNat),
      img v.act ++ img v.shd⟩)

end Sys2Proof.Machine
end

