-- ==== Sys2Proof/Machine/AccessOps.lean ====
section
/-!
DEFINITION. Sys2Proof/Machine/AccessOps.lean: the access links as senders: power-line unicasts and broadcasts (R233, R237 to R241,
R250), radio queues (R266 to R273, R285), and what both give the campaign engine and the poller.
-/
namespace Sys2Proof.Machine

/-! ## Power line -/

def plcBase (n : Nat) : Nat := 0x5000 + 0x1000 * n
def setPlc (n : Nat) (f : PlcState → PlcState) (s : State) : State := { s with plc := Kv.put n (f (plcOf s n)) s.plc }
/-- PAN state goes to the standby (R250). -/
def plcJournal (n : Nat) (s : State) : State := journal (.plc n (plcOf s n)) s
/-- Add to a counter of the instance; there are four. -/
def plcCountBy (n off k : Nat) (s : State) : State := if n < 4 then countBy (plcBase n + off) k s else s
def plcCount (n off : Nat) (s : State) : State := plcCountBy n off 1 s

/-- May the instance transmit: it runs, the unit serves, the line driver is sound and no wait runs (R233, R250, R464)? -/
def plcReady (s : State) (n : Nat) : Bool :=
  islRun s (5 + n) && serving s && (plcOf s n).ldPin && !(plcOf s n).ldWait && !(plcOf s n).modWait && modOk s (2 + n)

/-- Carriers of the band, and whether the mask leaves one (R232). -/
def plcCarriers (s : State) (n : Nat) : Nat := if plcFcc s n then 72 else 36
def plcUnmasked (s : State) (n c : Nat) : Bool := bit (reg s (plcBase n + 0x24 + 4 * (c / 32))) (c % 32)
/-- Carriers in a group of the tone map (R230). -/
def plcGroup (s : State) (n : Nat) : Nat := if plcFcc s n then 3 else 6

/-- The level below (R240). -/
def plcDown : PlcMod → PlcMod
  | .d8psk => .dqpsk | .dqpsk => .dbpsk | .dbpsk => .robo | .robo => .superRobo | .superRobo => .superRobo

/-- Steps of a level below D8PSK. -/
def plcRank : PlcMod → Nat
  | .d8psk => 0 | .dqpsk => 1 | .dbpsk => 2 | .robo => 3 | .superRobo => 4

/-- The next hop to an address, by its route (R237). -/
def plcHop (p : PlcState) (dest : Nat) : Option Nat := (Kv.get? dest p.routes).map (·.next)

/-- The neighbour a frame goes to. -/
def plcTxHop (p : PlcState) (t : PlcTx) : Option Nat := if t.direct then some t.dest else plcHop p t.dest

/-- The level in force toward a hop; a hop not entered is reached with ROBO (R238, R240). -/
def plcLevel (p : PlcState) (hop : Nat) : PlcMod :=
  match Kv.get? hop p.neigh with
  | some x => x.down.getD x.level
  | none => .robo

/-- The carriers a frame is sent on: of those the mask leaves, at a level above ROBO the groups of the hop's map. That ROBO uses them all is
the model's (log entry 133). -/
def plcTxCarriers (s : State) (n : Nat) (hop : Option Nat) (level : PlcMod) : List Nat :=
  let groups := ((hop.bind fun h => Kv.get? h (plcOf s n).neigh).map (·.groups)).getD []
  (List.range (plcCarriers s n)).filter fun c => plcUnmasked s n c && (3 ≤ plcRank level || groups.getD (c / plcGroup s n) true)

/-- A second of the local clock, in its units. -/
def secClk : Nat := 1000000000 * 65536

/-- One transmission: the frame counter, reserved 4,096 ahead and journalled (R250), and the count; a frame that is due while the
driver faults is not sent (R233). A unicast asks for a tone map when the neighbour's is too old (R239). -/
def plcEmit (n : Nat) (hop dest : Option Nat) (level : PlcMod) (pay : AccessPay) (s : State) : State :=
  if !plcReady s n then s
  else
    let p := plcOf s n
    let s := if p.outEnd ≤ p.outCtr then plcJournal n (setPlc n (fun p => { p with outEnd := p.outCtr + 4096 }) s) else s
    let ask := match hop.bind fun h => Kv.get? h p.neigh with
      | some x => (match x.mapAt with | some t => decide (t + fieldOf s (plcBase n + 8) 7 0 * secClk < s.tim.clk) | none => true)
      | none => false
    emit (.plc n hop dest level p.outCtr ask (plcAtten s n) (plcTxCarriers s n hop level) pay)
      (plcCount n 0x64 (setPlc n (fun p => { p with outCtr := p.outCtr + 1 }) s))

/-- Route requests sent in this second. -/
def plcRreqs (s : State) (n : Nat) : Nat := if (plcOf s n).rreqSec = unitSec s then (plcOf s n).rreqs else 0

/-- May a route request go now: at most four in a second (R237)? -/
def plcRreqMay (s : State) (n : Nat) : Bool := plcReady s n && decide (plcRreqs s n < 4)

/-- Send a route request: it counts, and takes one of the four of its second. -/
def plcRreqSend (n : Nat) (pay : AccessPay) (s : State) : State :=
  plcEmit n none none .robo pay (plcCount n 0x84 (setPlc n (fun p => { p with rreqs := plcRreqs s n + 1, rreqSec := unitSec s }) s))

/-- Send the route requests that wait (R237). -/
def plcDiscoverRun (n : Nat) (s : State) : State :=
  (plcOf s n).discover.foldl (fun t d =>
    if d.sent || !plcRreqMay t n then t
    else plcRreqSend n (.rreq 0 d.dest d.id 0 (fieldOf t (plcBase n + 0x18) 3 0))
      (setPlc n (fun p => { p with discover := p.discover.map fun x => if x.id = d.id then { x with sent := true } else x }) t)) s

/-- Seek a route: one discovery per destination (R237). -/
def plcDiscover (n dest : Nat) (s : State) : State :=
  let p := plcOf s n
  if p.discover.any (fun d => d.dest = dest) then s
  else plcDiscoverRun n (setPlc n (fun p => { p with discover := p.discover ++ [⟨p.nextTx, dest, false⟩], nextTx := p.nextTx + 1 }) s)

/-- A unicast to a neighbour itself, acknowledged and retried like any (R240). -/
def plcDirect (n hop : Nat) (pay : AccessPay) (s : State) : State :=
  let p := plcOf s n
  let l := plcLevel p hop
  plcEmit n (some hop) (some hop) l pay
    (setPlc n (fun p => { p with nextTx := p.nextTx + 1, awaiting := p.awaiting ++ [⟨p.nextTx, hop, true, 0, l, false, pay⟩] }) s)

/-- A unicast to a short address: sent by its route at the hop's level, or queued while a route is sought (R237). -/
def plcUnicast (n dest : Nat) (pay : AccessPay) (s : State) : State :=
  let p := plcOf s n
  let id := p.nextTx
  let s := setPlc n (fun p => { p with nextTx := id + 1 }) s
  match plcHop p dest with
  | none => plcDiscover n dest (setPlc n (fun p => { p with queued := p.queued ++ [⟨id, dest, false, 0, .robo, false, pay⟩] }) s)
  | some h =>
    let l := plcLevel p h
    let s := setPlc n (fun p => { p with awaiting := p.awaiting ++ [⟨id, dest, false, 0, l, false, pay⟩],
                                         routes := p.routes.map fun r => if r.1 = dest then (r.1, { r.2 with used := s.tim.clk }) else r }) s
    plcEmit n (some h) (some dest) l pay s

/-- A frame ends in transmit failure: it counts, its route goes, and a discovery starts (R237, R240). A neighbour that did not acknowledge
a route reply goes on the blacklist (R230; log entry 133). -/
def plcFail (n : Nat) (x : PlcTx) (s : State) : State :=
  let lone := match x.pay with | .rrep .. => true | _ => false
  plcDiscover n x.dest (plcCount n 0x70 (setPlc n (fun p => { p with routes := Kv.del x.dest p.routes,
                                                                     black := if lone then Kv.put x.dest s.tim.clk p.black else p.black }) s))

/-- The short address of a title on an instance. -/
def plcShort (p : PlcState) (title : W64) : Option Nat := (p.ends.find? fun e => e.2.title == title).map (·.1)

/-! ## Radio -/

/-- Network state goes to the standby (R285). -/
def rfJournal (n : Nat) (s : State) : State := journal (.rf n (rfOf s n)) s
/-- Add to a counter of the transceiver; there are two. -/
def rfCountBy (n off k : Nat) (s : State) : State := if n < 2 then countBy (rfBase n + off) k s else s
def rfCount (n off : Nat) (s : State) : State := rfCountBy n off 1 s

/-- Channels of the band (R263); the count for 870 to 876 MHz is the standard's, which the spec does not repeat (log entry 31). -/
def rfBandChannels (s : State) (n : Nat) : Nat :=
  match fieldOf s (rfBase n) 28 27, fieldOf s (rfBase n) 26 25 with
  | 0, _ => 34
  | 1, _ => (Config.unstated 20 0).toNat % 161
  | _, 1 => 129
  | _, _ => 64

/-- Channel spacing in kHz. -/
def rfSpacing (s : State) (n : Nat) : Nat := if fieldOf s (rfBase n) 28 27 = 2 && fieldOf s (rfBase n) 26 25 != 1 then 400 else 200

/-- Bit rate in b/s. -/
def rfRate (s : State) (n : Nat) : Nat :=
  match fieldOf s (rfBase n) 28 27, fieldOf s (rfBase n) 26 25 with
  | _, 1 => 50000
  | 2, 2 => 150000
  | 2, _ => 200000
  | _, _ => 100000

/-- Allowed channels in ascending order (R267). -/
def rfAllowed (s : State) (n : Nat) : List Nat :=
  (List.range (min 160 (rfBandChannels s n))).filter fun c => bit (reg s (rfBase n + 0x20 + 4 * (c / 32))) (c % 32)

/-- Does stride P serve m lanes of N channels with separation S? -/
def strideOk (m p n sep : Nat) : Bool :=
  Nat.gcd p n == 1 && (List.range (m - 1)).all fun i => let x := (i + 1) * p % n; decide (sep ≤ x) && decide (x ≤ n - sep)

/-- Lane count m and stride P (R267): the largest m, with the smallest stride. -/
def rfLanes (s : State) (n : Nat) : Nat × Nat :=
  let c := (rfAllowed s n).length
  let sep := (1000 + rfSpacing s n - 1) / rfSpacing s n
  let try_ (m : Nat) : Option Nat := ((List.range (c + 1)).map (· + sep)).find? fun p => strideOk m p c sep
  match try_ 4, try_ 3, try_ 2 with
  | some p, _, _ => (4, p)
  | none, some p, _ => (3, p)
  | none, none, some p => (2, p)
  | none, none, none => (1, 1)

/-- TsMaxTx and TsMaxAck in µs, rounded up to whole ones in the Timeslot IE (R269). -/
def rfMaxTx (s : State) (n : Nat) : Nat := ((12 + fieldOf s (rfBase n + 4) 26 16) * 8000000 + rfRate s n - 1) / rfRate s n
def rfMaxAck (s : State) (n : Nat) : Nat := (44 * 8000000 + rfRate s n - 1) / rfRate s n

/-- The slot length that the settings give, in ms (R270): 6,500 µs and the longest frame and acknowledgement, rounded up. -/
def rfSlotLen (s : State) (n : Nat) : Nat :=
  let r := rfRate s n
  (6500 * r + (56 + fieldOf s (rfBase n + 4) 26 16) * 8 * 1000000 + 1000 * r - 1) / (1000 * r)

/-- The slot length in force. -/
def rfSlotMs (s : State) (n : Nat) : Nat := (rfOf s n).slotMs

/-- ASN of a coordinator's slot now, from its local clock (R268). -/
def rfAsn (s : State) (n : Nat) : Nat := s.tim.clk / (65536 * 1000000 * rfSlotMs s n) % 2 ^ 40

/-- Does the transceiver run a network it may send in: coordinating and serving, or a child in a network? -/
def rfReady (s : State) (n : Nat) : Bool :=
  islRun s (9 + n) && serving s && modOk s (6 + n) && (rfOf s n).modUntil ≤ s.tim.raw && (if rfChild s n then (rfOf s n).parent != 0 else true)

/-- The short address of a title. -/
def rfShort (r : RfState) (title : W64) : Option Nat := (r.ends.find? fun e => e.2.title == title).map (·.1)

/-! ## Both, by link 0 to 5 -/

/-- The link of an endpoint: LINK of its record, when it is heard directly (R48). -/
def linkOfTitle (s : State) (title : W64) : Option Nat :=
  match idxFind s title with
  | some k => let l := fld (imgOf s k) 9 1; if l < 128 then some (l % 8) else none
  | none => none

/-- The link of a campaign member. -/
def memberLink (s : State) (m : Member) : Option Nat := linkOfTitle s m.title

/-- Is a frame campaign traffic? -/
def isCampPay : AccessPay → Bool
  | .camp _ => true
  | _ => false

/-- Does the link's transmit queue hold anything but campaign frames (R218)? -/
def accessBusy (s : State) (link : Nat) : Bool :=
  if link < 4 then (plcOf s link).awaiting.any (fun t => !isCampPay t.pay) || (plcOf s link).queued.any (fun t => !isCampPay t.pay)
  else (rfOf s (link - 4)).queue.any fun t => !isCampPay t.pay

/-- May the link send now? -/
def accessReady (s : State) (link : Nat) : Bool := if link < 4 then plcReady s link else rfReady s (link - 4) && !rfChild s (link - 4)

/-- A broadcast: in ROBO on PLC (R241), in the shared cells on radio (R271). -/
def accessBroadcast (link : Nat) (pay : AccessPay) (s : State) : State :=
  if link < 4 then plcEmit link none none .robo pay s else rfQueue (link - 4) none pay s

/-- Has the endpoint of a title a short address on the link? -/
def accessKnown (s : State) (link : Nat) (title : W64) : Bool :=
  if link < 4 then (plcShort (plcOf s link) title).isSome else (rfShort (rfOf s (link - 4)) title).isSome

/-- A unicast to an endpoint by its title. -/
def accessUnicast (link : Nat) (title : W64) (pay : AccessPay) (s : State) : State :=
  if link < 4 then
    match plcShort (plcOf s link) title with
    | some k => plcUnicast link k pay s
    | none => s
  else
    match rfShort (rfOf s (link - 4)) title with
    | some k => rfQueue (link - 4) (some k) pay s
    | none => s

/-! ## What arrives -/

/-- Are the receive time-stamps of an island valid (R340)? -/
def stampOk (s : State) (isl : Nat) : Bool := timeValid s && !s.tim.lost.contains isl

/-- Service-specific ciphered APDUs, whose title is the one bound to the sender's link address (R84, R90). -/
def serviceCiphered (a : Apdu) : Bool :=
  (a.outer == a.inner || a.outer == 0xDF) && (a.inner == 0xCC || a.inner == 0xCA || a.inner == 0xD4 || a.inner == 0xD2)

/-- An APDU heard on an access link as an item (R83, R84, R92): the open association of the meter that it answers makes it polled, and
names its template (R101). -/
def accessItem (link : Nat) (bound : Option W64) (rx : W64) (a : Apdu) (s : State) : RItem :=
  let title := match a.title with | some t => some t | none => if serviceCiphered a then bound else none
  let sess := (Kv.get? a.assoc s.pipe.sessions).filter fun x => (title.bind (idxFind s)) == some x.slot
  let entry := sess.bind fun x => ((s.boot.bundle.map (·.polls)).getD []).find? fun e => e.entry == x.entry
  let isGet := a.svc == .getNormal || a.svc == .getList
  { src := link, title := title, rxTime := rx, tsValid := stampOk s (5 + link), relayed := false, orig := 15,
    sender := 0xFFF#12, reqTime := (sess.map (·.reqTime)).getD 0, polled := isGet && sess.isSome, assoc := a.assoc, ded := false, session := noWrap, kekVer := 0,
    template := (entry.map (·.template)).getD 0xFFFF, fieldOutcome := 0, apdu := a, ref := 0 }

end Sys2Proof.Machine
end

