-- ==== Sys2Proof/Machine/CampRun.lean ====
section
/-!
DEFINITION. Sys2Proof/Machine/CampRun.lean: campaigns in progress (chapter 06): progress frames, the segment store of a FIELD unit,
the schedule of R219 and what a relay entry changes (R205, R210, R214, R217 to R221).
-/
namespace Sys2Proof.Machine

/-! ## Members and progress (R213 to R215, R221) -/

/-- Members on a link. -/
def membersOn (s : State) (c : Camp) (link : Nat) : List Member := (c.members.filter fun p => memberLink s p.2 == some link).map (·.2)

/-- The event of a campaign with more than 16 members ROLLED_BACK, once (R221). -/
def rolledBackEvent (n : Nat) (s : State) : State :=
  match campOf s n with
  | none => s
  | some c =>
    if c.rolledEvent || memberCount c 5 ≤ 16 then s
    else event (lowestEng s) 0x04 n [be 4 c.manifest.campId.toNat] (putCamp n (some { c with rolledEvent := true }) s)

/-- Replace a member record and its counts in one step; entering FAILED counts, a record that comes with it does not (R215, R229). -/
def setMember (n : Nat) (m : Member) (s : State) : State :=
  match campOf s n with
  | none => s
  | some c =>
    let old := Kv.get? m.slot c.members
    let failed := m.st = 7 && (match old with | some o => o.st != 7 | none => false)
    let s := putCamp n (some { c with members := Kv.put m.slot m c.members }) s
    rolledBackEvent n (if failed then count 0x638 s else s)

/-- The state a report leaves: a MISSED member stays so unless it reports ARMED or ACTIVATED (R214). -/
def reportedState (old new : Nat) : Nat := if old = 8 && new != 3 && new != 4 then 8 else new

/-- Local-clock time now, in the format of EXPIRY. -/
def campNow (s : State) : Nat := (rxTime s).toNat

/-- ACT_TIME + LATE_S. -/
def actEnd (r : ActRec) : Nat := r.actTime.toNat + r.lateS * 65536

/-- A cursor that has not run yet: the first pass only where every member is PENDING (R226). -/
def cursorOf (s : State) (c : Camp) (link n : Nat) : Cursor :=
  (Kv.get? (link * 64 + n) s.camp.cursors).getD ⟨0, 0, (membersOn s c link).any (fun m => m.st != 0), none, [], [], false⟩

/-- Store a cursor; a pair journals it (R224). -/
def putCursor (link n : Nat) (v : Cursor) (s : State) : State :=
  journal (.cursor (link * 64 + n) (some v)) (setCampState (fun st => { st with cursors := Kv.put (link * 64 + n) v st.cursors }) s)

/-- The record in force waits on a link, for one member or for all, before anything else of its campaign (R220). -/
def queueRecord (link n : Nat) (c : Camp) (who : Option W64) (s : State) : State :=
  let cur := cursorOf s c link n
  if cur.todo.contains ⟨who, .record⟩ then s else putCursor link n { cur with todo := ⟨who, .record⟩ :: cur.todo } s

/-- A progress frame from an endpoint at a FIELD unit (R210, R214). -/
def progressRx (title : W64) (p : Progress) (s : State) : State :=
  match campSlot s p.campId with
  | none => count 0x62C s
  | some n => match campOf s n with
    | none => count 0x62C s
    | some c => match c.members.find? (fun m => m.2.title == title) with
      | none => count 0x62C s
      | some (k, m) =>
        if 7 < p.st then count 0x62C s
        else
          let m' : Member := { m with st := reportedState m.st p.st, rank := p.rank, low := p.low, map := p.map }
          let s := putCamp n (some { c with heard := if c.heard.contains k then c.heard else c.heard ++ [k] }) s
          let s := count 0x628 (setMember n m' s)
          let s := match memberLink s m' with
            | some l => if c.st == .activating && m'.st = 2 && m.st != 2 then queueRecord l n c (some title) s else s
            | none => s
          if m' = m then s else sendEntry headUnit (.member p.campId m') s

/-- A campaign frame arrives from an endpoint (R206): only progress frames travel to the unit. -/
def campFrameRx (title : W64) (f : CampFrame) (s : State) : State :=
  match f with
  | .progress p => progressRx title p s
  | _ => count 0x62C s

/-! ## Relay entries of campaigns (R310) -/

/-- The least campaign slot not in use. -/
def freeCampSlot (s : State) : Option Nat := (List.range 64).find? fun n => (campOf s n).isNone

/-- A MEMBER entry: the head applies it by the rule of R214; a FIELD unit takes the record, up to 65,536. The result is 0x04 where
it is refused, so also for a STATE that R213 does not name. -/
def memberEntry (id : W32) (m : Member) (s : State) : Nat × State :=
  match campSlot s id with
  | none => (4, s)
  | some n => match campOf s n with
    | none => (4, s)
    | some c =>
      if 8 < m.st then (4, s)
      else if isHead s then
        match Kv.get? m.slot c.members with
        | none => (4, s)
        | some old => (0, setMember n { old with st := reportedState old.st m.st, rank := m.rank, low := m.low, map := m.map } s)
      else if (Kv.get? m.slot c.members).isNone && 65536 ≤ memberships s then (4, s)
      else (0, setMember n m s)

/-- Free a campaign slot at a unit: image, members, segments and cursors go (R201, R227). -/
def forgetCamp (n : Nat) (s : State) : State :=
  let s := (s.camp.cursors.filter fun p => p.1 % 64 = n).foldl (fun t p =>
    journal (.cursor p.1 none) (setCampState (fun st => { st with cursors := Kv.del p.1 st.cursors }) t)) s
  setCampState (fun st => { st with store := st.store.filter (fun p => p.1 / 65536 != n), fetching := st.fetching.filter (fun k => k / 65536 != n) })
    (putCamp n none s)

/-- A CAMP_CTL entry at a FIELD unit. -/
def campCtlEntry (id : W32) (c : CampCtl) (s : State) : Nat × State :=
  if !isField s then (4, s) else
  match c, campSlot s id with
  | .manifest m, some n => match campOf s n with
    | some v => (0, putCamp n (some { v with manifest := m }) s)
    | none => (4, s)
  | .manifest m, none => match freeCampSlot s with
    | some n => (0, putCamp n (some ⟨.ready, m, [], none, [], [], [], [], false⟩) s)
    | none => (4, s)
  | .state k, some n => match campOf s n, campOfCode k with
    | some v, some st => (0, putCamp n (some { v with st := st }) s)
    | some _, none => (0, forgetCamp n s)
    | none, _ => (4, s)
  | .act r, some n => match campOf s n with
    | some v => (0, putCamp n (some { v with act := some r }) s)
    | none => (4, s)
  | .remove l, some n => match campOf s n with
    | some v => (0, putCamp n (some { v with members := v.members.filter fun m => !l.contains m.1 }) s)
    | none => (4, s)
  | _, none => (4, s)

/-- A SEG_REQ at the head (R217): the eight pieces of the segment go to the unit that asks. -/
def segReqEntry (id : W32) (seg : Nat) (u : BitVec 12) (s : State) : Nat × State :=
  if !isHead s then (4, s) else
  match campSlot s id with
  | none => (4, s)
  | some n => match campOf s n with
    | none => (4, s)
    | some c =>
      if c.st == .draft || nSeg c.manifest ≤ seg then (4, s)
      else
        let d := objectSeg c seg
        (0, (List.range 8).foldl (fun t i => sendEntry u (.segPiece id seg i ((d.drop (i * 1024)).take 1024)) t) s)

/-! ## The segment store of a FIELD unit (R199, R217) -/

/-- SEG_CAP: 8,192 with a DRAM table; without, 32 for each cluster in RUN; 0 in a HEAD unit. -/
def segCap (s : State) : Nat :=
  if !isField s then 0 else if dramTable s then 8192 else 32 * (runClusters s).length

/-- How far a segment lies behind every cursor of its campaign; a segment no cursor needs is furthest. -/
def behind (s : State) (key : Nat) : Int :=
  let n := key / 65536
  let seg : Int := (key % 65536 : Nat)
  let ds := (s.camp.cursors.filter fun p => p.1 % 64 = n).flatMap fun p =>
    (p.2.gen :: (p.2.rgen.toList ++ p.2.todo.filterMap blockGen)).map fun g => ((if p.1 / 64 < 4 then g else 2 * g : Nat) : Int) - seg
  match ds with | [] => 1000000 | x :: t => t.foldl min x
where
  /-- The generation of a coded block still to send. -/
  blockGen (x : CampSend) : Option Nat := match x.what with | .block g _ => some g | _ => none

/-- Make room for one more segment. -/
def evictSeg (s : State) : State :=
  if s.camp.store.length < segCap s then s
  else match s.camp.store.map (fun p => (p.1, behind s p.1)) with
    | [] => s
    | x :: t =>
      let v := t.foldl (fun (m : Nat × Int) p => if m.2 < p.2 then p else m) x
      setCampState (fun st => { st with store := Kv.del v.1 st.store, fetching := st.fetching.filter (· != v.1) }) s

/-- A SEG_PIECE entry at a FIELD unit. -/
def segPieceEntry (id : W32) (seg piece : Nat) (data : List Byte) (s : State) : Nat × State :=
  match campSlot s id with
  | none => (4, s)
  | some n =>
    let key := n * 65536 + seg
    if !isField s || 8 ≤ piece || (!s.camp.fetching.contains key && (Kv.get? key s.camp.store).isNone) then (4, s)
    else
      let s := if (Kv.get? key s.camp.store).isNone then evictSeg s else s
      let v := s.camp.store.getD key ⟨[]⟩
      let v : Segment := ⟨Kv.put piece (padTo 1024 data) v.pieces⟩
      (0, setCampState (fun st => { st with store := if segCap s = 0 then st.store else Kv.put key v st.store,
                                            fetching := if v.pieces.length = 8 then st.fetching.filter (· != key) else st.fetching }) s)

/-- The bytes of a whole segment held. -/
def heldSeg (s : State) (n seg : Nat) : Option (List Byte) :=
  match Kv.get? (n * 65536 + seg) s.camp.store with
  | some v => if v.pieces.length = 8 then some (v.pieces.flatMap (·.2)) else none
  | none => none

/-- Fetch a segment from the active head (R217). -/
def fetchSeg (n : Nat) (c : Camp) (seg : Nat) (s : State) : State :=
  let key := n * 65536 + seg
  if s.camp.fetching.contains key then s
  else sendEntry headUnit (.segReq c.manifest.campId seg) (count 0x630 (setCampState (fun st => { st with fetching := st.fetching ++ [key] }) s))

/-- The fetches outstanding go to the new active head (R227). -/
def refetch (s : State) : State :=
  s.camp.fetching.foldl (fun t k => match campOf t (k / 65536) with
    | some c => sendEntry headUnit (.segReq c.manifest.campId (k % 65536)) (count 0x630 t)
    | none => t) s

/-! ## The schedule (R219) -/

/-- Generations of a campaign on a link (R203): PLC links 0 to 3, radio 4 and 5. -/
def generations (c : Camp) (link : Nat) : Nat := if link < 4 then nSeg c.manifest else (nSeg c.manifest + 1) / 2

/-- Members that lack generation `g`: S of R219, with the blocks each needs. -/
def needs (s : State) (c : Camp) (link g : Nat) : List (Member × Nat) :=
  let margin := fieldOf s 0x600 23 20
  (membersOn s c link).filterMap fun m =>
    if m.st ≠ 0 && m.st ≠ 1 then none
    else if g = m.low then some (m, 64 - m.rank + margin)
    else if m.low < g && g ≤ m.low + 64 && !m.map.getLsbD (g - m.low - 1) then some (m, 64 + margin)
    else none

/-- The repair frames of generation `g`: a broadcast for REBC_MIN members or more, else unicasts in slot order; a PENDING member gets the
manifest by unicast before its first repair block, whichever way that goes. -/
def repairs (s : State) (c : Camp) (link : Nat) (told : List Nat) (g : Nat) : List CampSend :=
  let l := needs s c link g
  let manifest (m : Member) : List CampSend := if m.st = 0 && !told.contains m.slot then [⟨some m.title, .manifest⟩] else []
  if l.isEmpty then []
  else if fieldOf s 0x604 15 8 ≤ l.length then
    l.flatMap (fun p => manifest p.1) ++ List.replicate (l.foldl (fun a p => max a p.2) 0) ⟨none, .block g none⟩
  else l.flatMap fun p => manifest p.1 ++ List.replicate p.2 ⟨some p.1.title, .block g none⟩

/-- Go on in the round to the next generation with repairs to send; without one the round is over. -/
def roundOn (s : State) (c : Camp) (link : Nat) (cur : Cursor) : Nat → Nat → Cursor
  | 0, _ => { cur with rgen := none }
  | fuel + 1, g => match repairs s c link cur.told g with
    | [] => roundOn s c link cur fuel (g + 1)
    | l => { cur with rgen := some (g + 1), todo := l,
                      told := cur.told ++ ((needs s c link g).filter fun p => p.1.st = 0 && !cur.told.contains p.1.slot).map (·.1.slot) }

/-- The cursor with what is still to send: frames for endpoints that are no longer members on the link go, and in ROLLING_BACK all but
the record (R221, R227); a round goes on to its next repairs, or ends. -/
def trimmed (s : State) (c : Camp) (link : Nat) (cur : Cursor) : Cursor :=
  let keep (x : CampSend) : Bool := (c.st != .rollingBack || x.what == .record) &&
    (match x.to_ with | none => true | some t => (membersOn s c link).any (fun m => m.title == t) && accessKnown s link t)
  let cur := { cur with todo := cur.todo.filter keep }
  if !cur.todo.isEmpty then cur
  else match cur.rgen with
    | none => cur
    | some g => if c.st == .rollingBack then { cur with rgen := none } else
      let cur := roundOn s c link cur (generations c link - g) g
      { cur with todo := cur.todo.filter keep }

/-- The next frame of a trimmed cursor, with the cursor after it. -/
def nextFrame (s : State) (c : Camp) (link : Nat) (cur : Cursor) : Option (CampSend × Cursor) :=
  match cur.todo with
  | x :: t => some (x, { cur with todo := t })
  | [] =>
    if c.st == .rollingBack then none
    else if !cur.rounds then
      let due := cur.gen = 0 || cur.gen % fieldOf s 0x600 19 12 = 0
      let j := cur.sent - b2n due
      let total := b2n due + 64 + fieldOf s 0x600 31 24
      let nxt : Cursor :=
        if cur.sent + 1 < total then { cur with sent := cur.sent + 1 }
        else if cur.gen + 1 < generations c link then { cur with gen := cur.gen + 1, sent := 0 }
        else { cur with gen := cur.gen + 1, sent := 0, rounds := true }
      if due && cur.sent = 0 then some (⟨none, .manifest⟩, nxt)
      else some (⟨none, .block cur.gen (if j < 64 then some j else none)⟩, nxt)
    else none

/-- Store a cursor that has gone on: the end of a pass or of a round starts a new time in which members are heard (R219), and the end of
the first pass has its time. -/
def settleCursor (link n : Nat) (c : Camp) (old new : Cursor) (s : State) : State :=
  let first := !old.rounds && new.rounds
  let s := if first || (old.rgen.isSome && new.rgen.isNone) then
      let on := (membersOn s c link).map (·.slot)
      putCamp n ((campOf s n).map fun c => { c with heard := c.heard.filter (fun k => !on.contains k),
                                                    passAt := if first then Kv.put link (unitSec s) c.passAt else c.passAt }) s
    else s
  if new = old then s else putCursor link n new s

/-- Coded blocks the profile lets a unit form per second, in halves of a 256-byte block (R218). -/
def formCap (s : State) : Nat := match s.clusters.cur.toNat with | 0 => 40000 | 1 => 160000 | _ => 480000

/-- A random seed: draws below 64 are discarded (R205). After 64 discards in a row the next draw is taken as one of the range. -/
def drawSeed : Nat → State → Nat × State
  | 0, s => let (d, s) := draw s; (64 + d.toNat % (2 ^ 32 - 64), s)
  | n + 1, s =>
    let (d, s) := draw s
    let x := d.toNat % 2 ^ 32
    if x < 64 then drawSeed n s else (x, s)

/-- Source bytes of a generation, or the segments to fetch first. -/
def genSource (s : State) (n : Nat) (c : Camp) (link g : Nat) : List Byte ⊕ List Nat :=
  let segs := if link < 4 then [g] else [2 * g, 2 * g + 1]
  let real := segs.filter (· < nSeg c.manifest)
  match real.filter (fun i => (heldSeg s n i).isNone) with
  | [] => .inl (padTo (segs.length * 8192) (real.flatMap fun i => (heldSeg s n i).getD []))
  | l => .inr l

/-- What becomes of a frame that is due: it goes; its segments must come first; or the profile's cap defers it. -/
inductive Sent where
  | gone (s : State)
  | waits (s : State)
  | capped

/-- Frames of campaigns a link may send in a second (R218). -/
def campPace (s : State) (link : Nat) : Nat := if link < 4 then fieldOf s 0x604 31 24 else fieldOf s 0x604 23 16

/-- Frames of campaigns sent on a link in this second. -/
def campSentNow (s : State) (link : Nat) : Nat :=
  match Kv.get? link s.camp.frames with | some (sec, k) => if sec = unitSec s then k else 0 | none => 0

/-- May a campaign frame go on a link now: the link is the unit's, may transmit and carries nothing else, and its pace allows it (R218)? -/
def campMay (s : State) (link : Nat) : Bool :=
  isField s && serving s && decide (link ≤ 5) && decide (campSentNow s link < campPace s link) && !accessBusy s link && accessReady s link

/-- Send a campaign frame; every one counts against the pace. -/
def campGo (link : Nat) (who : Option W64) (f : CampFrame) (s : State) : State :=
  let s := setCampState (fun st => { st with frames := Kv.put link (unitSec s, campSentNow s link + 1) st.frames }) s
  match who with
  | none => accessBroadcast link (.camp f) s
  | some t => accessUnicast link t (.camp f) s

/-- Send one frame of a campaign (R217, R218). -/
def sendCampFrame (link n : Nat) (c : Camp) (x : CampSend) (s : State) : Sent :=
  match x.what with
  | .request => .gone (campGo link x.to_ (.request c.manifest.campId) s)
  | .manifest => .gone (campGo link x.to_ (.manifest c.manifest) s)
  | .record => match c.act with
    | some r => .gone (campGo link x.to_ (.act r) s)
    | none => .gone s
  | .block g seed =>
    match genSource s n c link g with
    | .inr l => .waits (l.foldl (fun t i => fetchSeg n c i t) s)
    | .inl src =>
      let need := if link < 4 then 1 else 2
      let used := if s.camp.formedSec = unitSec s then s.camp.formed else 0
      if formCap s < used + need then .capped
      else
        let s := setCampState (fun st => { st with formed := used + need, formedSec := unitSec s }) s
        let (k, s) := match seed with | some k => (k, s) | none => drawSeed 64 s
        let b := if link < 4 then 128 else 256
        .gone (campGo link x.to_ (.block (if link < 4 then 1 else 2) g c.manifest.campId k (codedPayload b src k))
          (count (if x.to_.isNone then 0x620 else 0x624) s))

/-- Does the unit transmit frames of a campaign in this state (R200)? -/
def campSends (c : Camp) : Bool := c.st == .running || c.st == .activating || c.st == .rollingBack

/-- The first campaign, from the one after the link's last, that has a frame to send; one that waits for segments or that the cap defers
leaves the turn to the next. -/
def campTurn (link : Nat) (s : State) : List Nat → State
  | [] => s
  | n :: t => match campOf s n with
    | none => campTurn link s t
    | some c =>
      if !campSends c || (membersOn s c link).isEmpty then campTurn link s t
      else
        let old := cursorOf s c link n
        let cur := trimmed s c link old
        match nextFrame s c link cur with
        | none => campTurn link (settleCursor link n c old cur s) t
        | some (x, nxt) => match sendCampFrame link n c x s with
          | .waits s => campTurn link (settleCursor link n c old cur s) t
          | .capped => campTurn link (settleCursor link n c old { cur with deferred := true } (if old.deferred then s else count 0x634 s)) t
          | .gone s =>
            let s := setCampState (fun st => { st with turn := Kv.put link n st.turn }) s
            settleCursor link n c old (trimmed s c link { nxt with deferred := false }) s

/-- CAMPAIGN_FRAME_SEND (R218, R219): one frame on a link. -/
def campaignFrameSend (link : Nat) (s : State) : State :=
  if !campMay s link then s
  else
    let last := s.camp.turn.getD link 63
    campTurn link s ((List.range 64).map fun i => (last + 1 + i) % 64)

/-- REPAIR_ROUND (R219, R220): ROUND_WAIT has passed. The record goes again to those it concerns, whatever else the link has to send; a
repair round begins after the first pass, when none runs and a member is not past RECEIVING: progress requests first, then repairs. -/
def repairRound (link n : Nat) (s : State) : State :=
  match campOf s n with
  | none => s
  | some c =>
    if !isField s || !serving s || !campSends c then s
    else
      let ms := membersOn s c link
      let concerned : List Member := if c.st == .activating then ms.filter (·.st = 2)
        else if c.st == .rollingBack then ms.filter fun m => m.st = 3 || m.st = 4 else []
      let s := concerned.reverse.foldl (fun t m => queueRecord link n c (some m.title) t) s
      let old := cursorOf s c link n
      let cur := trimmed s c link old
      let s := settleCursor link n c old cur s
      if c.st == .rollingBack || !cur.rounds || cur.rgen.isSome || !ms.any (fun m => m.st ≤ 1) then s
      else
        let c := (campOf s n).getD c
        let requests : List CampSend := (ms.filter fun m => !c.heard.contains m.slot).map fun m => ⟨some m.title, .request⟩
        putCursor link n { cur with todo := cur.todo ++ requests, rgen := some 0 }
          (putCamp n (some { c with roundAt := Kv.put link (unitSec s) c.roundAt }) s)

/-- ACTIVATION_BROADCAST (R220, R221): the record in force, on one link, until ACT_TIME + LATE_S; where the link may not send a campaign
frame now (R218), it waits there before all else of its campaign. -/
def activationBroadcast (link n : Nat) (s : State) : State :=
  match campOf s n with
  | none => s
  | some c => match c.act with
    | none => s
    | some r =>
      if !isField s || !serving s || !(c.st == .activating || c.st == .rollingBack) || actEnd r ≤ campNow s || (membersOn s c link).isEmpty then s
      else if campMay s link then campGo link none (.act r) s
      else queueRecord link n c none s

/-- ACT_TIME + LATE_S of the record in force has passed (R200, R216, R225). -/
def lateExpiry (n : Nat) (s : State) : State :=
  match campOf s n with
  | none => s
  | some c => match c.act with
    | none => s
    | some r =>
      if campNow s < actEnd r then s
      else if c.st == .activating then
        putCamp n (some { c with st := .activated, members := c.members.map fun p =>
          (p.1, if p.2.st = 3 || p.2.st = 4 then p.2 else { p.2 with st := 8 }) }) s
      else if c.st == .rollingBack then putCamp n (some { c with st := .reverted }) s
      else s

end Sys2Proof.Machine
end

