-- ==== Sys2Proof/Machine/Campaign.lean ====
section
/-!
DEFINITION. Sys2Proof/Machine/Campaign.lean: the campaign commands (R223) and the checkpoint with its restore (R225).
-/
namespace Sys2Proof.Machine

/-- Does a signature verify under a signer key of the store (R222; log entry 3)? -/
def campSigOk (s : State) (signer alg : Nat) (key : BitVec 768) : Bool :=
  match Kv.get? signer s.sec.campSigners with
  | some p => signer < 4 && p.curve = alg && p.key = key
  | none => false

/-- Tell every unit that serves members of a campaign (R217). -/
def tellUnits (n : Nat) (c : CampCtl) (s : State) : State :=
  match campOf s n with
  | none => s
  | some v =>
    let us := ((v.members.filter fun m => recState (imgOf s m.1) != 0).map fun m => recService (imgOf s m.1)).eraseDups.filter fun u => u != 0xFFF#12
    us.foldl (fun t u => sendEntry u (.campCtl v.manifest.campId c) t) s

/-- A command on a campaign in slot `n`; in a FIELD unit, or for a slot not in use, BAD_AUTH (R223). -/
def withCamp (n : Nat) (s : State) (f : Camp → State × Reply) : State × Reply :=
  if !isHead s then (s, .bad) else match campOf s n with
    | none => (s, .bad)
    | some c => f c

/-- CAMP_CREATE. -/
def campCreate (m : Manifest) (s : State) : State × Reply :=
  if !isHead s then (s, .bad)
  else if m.version != 1#8 || m.campId = 0 || !m.reservedOk || m.imageLen = 0 || 16777216 < m.imageLen || m.tableSegs != tableSegsOf m.imageLen
    || !campSigOk s m.signer m.sigAlg m.signedBy || (campSlot s m.campId).isSome then (s, .bad)
  else match freeCampSlot s with
    | none => (s, .busy)
    | some n => (putCamp n (some ⟨.draft, m, [], none, [], [], [], [], false⟩) s, ⟨.ok, padTo 40 (be 1 n), []⟩)

/-- CAMP_DATA: a range of a DRAFT image. -/
def campData (n off : Nat) (data : List Byte) (s : State) : State × Reply :=
  withCamp n s fun c =>
    if c.st != .draft || c.manifest.imageLen < off + data.length then (s, .bad)
    else (putCamp n (some { c with image := data.zipIdx.foldl (fun m p => Kv.putOr 0#8 (off + p.2) p.1 m) c.image }) s, .done)

/-- Are both digests of a campaign right (R202, R208)? -/
def digestsOk (c : Camp) : Bool := sha256 (imageBytes c) == c.manifest.imageDigest && sha256 (segTable c) == c.manifest.tableDigest

/-- CAMP_SEAL. -/
def campSeal (n : Nat) (s : State) : State × Reply :=
  withCamp n s fun c =>
    if c.st != .draft || !digestsOk c then (s, .bad) else (putCamp n (some { c with st := .ready }) s, .done)

/-- A slot a campaign command may name: ACTIVE or PROVISIONED. -/
def campSlotOk (s : State) (k : Nat) : Bool := decide (k < tblSize s) && (recState (imgOf s k) == 1 || recState (imgOf s k) == 2)

/-- Write a slot's bit of CAMPAIGNS, behind the meter's readings in flight (R198, R78). -/
def campBit (n k : Nat) (on : Bool) (s : State) : State := ownWrite ⟨k, recTitle (imgOf s k), .campaign n on⟩ s

/-- CAMP_ADD_MEMBERS (R216): new members are PENDING; their units get manifest, state, any record and the member records. -/
def campAddMembers (n : Nat) (slots : List Nat) (s : State) : State × Reply :=
  withCamp n s fun c =>
    if !(c.st == .ready || c.st == .running || c.st == .paused || c.st == .activating) || !slots.all (campSlotOk s) then (s, .bad)
    else
      let new := slots.eraseDups.filter fun k => (Kv.get? k c.members).isNone
      if 4194304 < memberships s + new.length then (s, .busy)
      else
        let c' := { c with members := new.foldl (fun m k => Kv.put k ⟨k, 0, 0, 0, 0, recTitle (imgOf s k)⟩ m) c.members }
        let s := putCamp n (some c') s
        let s := new.foldl (fun t k => campBit n k true t) s
        let us := (new.map fun k => recService (imgOf s k)).eraseDups.filter fun u => u != 0xFFF#12
        let id := c.manifest.campId
        let s := us.foldl (fun t u => tellCamp u c t) s
        (new.foldl (fun t k => let u := recService (imgOf t k)
          if u = 0xFFF#12 then t else sendEntry u (.member id ⟨k, 0, 0, 0, 0, recTitle (imgOf t k)⟩) t) s, .done)

/-- CAMP_REMOVE_MEMBERS (R216). -/
def campRemoveMembers (n : Nat) (slots : List Nat) (s : State) : State × Reply :=
  withCamp n s fun c =>
    if !slots.all (campSlotOk s) then (s, .bad)
    else
      let gone := slots.eraseDups.filter fun k => (Kv.get? k c.members).isSome
      let s := gone.foldl (fun t k => let u := recService (imgOf t k)
        if u = 0xFFF#12 then t else sendEntry u (.campCtl c.manifest.campId (.remove [k])) t) s
      let s := putCamp n (some { c with members := c.members.filter fun m => !gone.contains m.1 }) s
      (gone.foldl (fun t k => campBit n k false t) s, .done)

/-- A state change, told to the units. -/
def campMove (n : Nat) (from_ : List CampSt) (to_ : CampSt) (s : State) : State × Reply :=
  withCamp n s fun c =>
    if !from_.contains c.st then (s, .bad)
    else (tellUnits n (.state (campCode to_)) (putCamp n (some { c with st := to_ }) s), .done)

/-- CAMP_START and CAMP_PAUSE (R200). -/
def campStart (n : Nat) (s : State) : State × Reply := campMove n [.ready, .paused] .running s
def campPause (n : Nat) (s : State) : State × Reply := campMove n [.running] .paused s

/-- Free the slot (R201): every member's bit clears, image and members go, and the units hear of it (state code 0xFF, log entry 26). -/
def campFree (n : Nat) (from_ : List CampSt) (s : State) : State × Reply :=
  withCamp n s fun c =>
    if !from_.contains c.st then (s, .bad)
    else
      let s := tellUnits n (.state 0xFF) s
      let s := forgetCamp n s
      (c.members.foldl (fun t m => campBit n m.1 false t) s, .done)

def campCancel (n : Nat) (s : State) : State × Reply := campFree n [.draft, .ready, .running, .paused] s
def campClose (n : Nat) (s : State) : State × Reply := campFree n [.activated, .reverted] s

/-- A record passes the checks common to R220 and R221. -/
def actOk (s : State) (c : Camp) (r : ActRec) (action : Nat) : Bool :=
  r.action = action && r.reservedOk && r.campId = c.manifest.campId && campSigOk s r.signer r.sigAlg r.signedBy

/-- CAMP_ACTIVATE (R220). -/
def campActivate (n : Nat) (r : ActRec) (s : State) : State × Reply :=
  withCamp n s fun c =>
    if c.st != .running || !actOk s c r 1 || r.actTime.toNat < campNow s + fieldOf s 0x600 11 0 * 65536 then (s, .bad)
    else
      let s := putCamp n (some { c with st := .activating, act := some r }) s
      (tellUnits n (.state (campCode .activating)) (tellUnits n (.act r) s), .done)

/-- CAMP_ROLLBACK (R221). -/
def campRollback (n : Nat) (r : ActRec) (s : State) : State × Reply :=
  withCamp n s fun c =>
    if !(c.st == .activating || c.st == .activated) || !actOk s c r 2 || r.actTime.toNat ≤ campNow s then (s, .bad)
    else
      let s := putCamp n (some { c with st := .rollingBack, act := some r }) s
      (tellUnits n (.state (campCode .rollingBack)) (tellUnits n (.act r) s), .done)

/-- CAMP_READ: state, manifest, the nine counts and the times per link (layout: log entry 25). No entry of R310 brings the head the times
of its units' passes and rounds, and the spec states no other way: each is a free value (log entry 132). -/
def campRead (n : Nat) (s : State) : State × Reply :=
  withCamp n s fun c =>
    (s, ⟨.ok, padTo 40 (be 1 (campCode c.st) ++ be 3 0 ++ (List.range 9).flatMap fun k => be 4 (memberCount c k)),
      [manifestFrame c.manifest, (List.range 12).flatMap fun l => be 4 ((Config.unstated 223 ((s.tim.raw * 64 + n) * 12 + l)).toNat % 2 ^ 32)]⟩)

/-- CAMP_MEMBER_READ: member records of a slot range. -/
def campMemberRead (n first cnt : Nat) (s : State) : State × Reply :=
  withCamp n s fun c =>
    (s, ⟨.ok, [], (c.members.filter fun m => decide (first ≤ m.1) && decide (m.1 < first + cnt)).map fun m => memberBytes m.2⟩)

/-- CAMPAIGN_CHECKPOINT (R225, R440): a HEAD unit writes all campaign state to the archive. -/
def campaignCheckpoint (s : State) : State :=
  if !isHead s then s
  else if !archiveWritable s then writeRefused s
  else setCampState (fun st => { st with ckpt := some st.camps }) s

/-- What start-up makes of a checkpointed campaign (R225). A DRAFT comes back without its image: the archive holds those of READY and
later campaigns. -/
def restoreCamp (n : Nat) (c : Camp) (s : State) : State :=
  if c.st == .draft then putCamp n (some { c with image := [] }) s
  else if sha256 (imageBytes c) == c.manifest.imageDigest then
    let s := lateExpiry n (putCamp n (some c) s)
    match campOf s n with
    | some c => match c.st, c.act with
      | .rollingBack, some r => tellUnits n (.state (campCode .rollingBack)) (tellUnits n (.act r) s)
      | _, _ => s
    | none => s
  else
    event (lowestEng s) 0x03 n [be 4 c.manifest.campId.toNat]
      (tellUnits n (.state (campCode .paused)) (putCamp n (some { c with st := .paused }) s))

/-- The restore at start-up (R225). -/
def campaignRestore (s : State) : State :=
  if !isHead s then s
  else match s.camp.ckpt with
    | none => s
    | some l => l.foldl (fun t p => restoreCamp p.1 p.2 t) s

end Sys2Proof.Machine
end

