-- ==== Sys2Proof/Machine/Archive.lean ====
section
/-!
DEFINITION. Sys2Proof/Machine/Archive.lean: the archive commands and events (chapter 13): mount, format, reads and writes,
trimming, the overflow ring, collection, wear, thermal age and the retention scan (R421 to R448).
-/
namespace Sys2Proof.Machine

/-- Rounded-up division. -/
def ceilDiv (a b : Nat) : Nat := (a + b - 1) / b

/-- Zone sizes in blocks: META, EVENTS and the layout, with the READINGS count that R425 gives (R424 to R426). -/
def zones (s : State) : Nat × Nat × Layout × Int :=
  let bs := blockKib s
  let total := s.arch.targets.length * blocksPerTarget s
  let bad := s.arch.targets.foldl (fun m t => m + t.bad.length) 0
  let retired := blkCount s .retired
  let good := total - bad - retired
  let hostGib := fieldOf s 0x4004 31 16
  let spoolGib := fieldOf s 0x4004 15 8
  let campMib := if isHead s then 1088 else 0
  let spoolMib := if isField s then spoolGib * 1024 else 0
  let mapBytes := 4 * total + (campMib + spoolMib + hostGib * 1024) * 1024
  let metaN := max 64 (2 * ceilDiv mapBytes (bs * 1024) + 32)
  let events := 2 * (ceilDiv 32768 bs + 2)
  let camp := ceilDiv (campMib * 1024) bs
  let spool := ceilDiv (spoolMib * 1024) bs
  let host := ceilDiv (hostGib * 1048576) bs
  let gc := fieldOf s 0x4000 15 0
  let pct := fieldOf s 0x4000 23 16
  let spares := good * pct / 100
  let readings : Int := (good : Int) - spares - metaN - events - gc - (ceilDiv (5 * (camp + spool + host)) 4 : Nat)
  (metaN, events, ⟨spares, readings.toNat, camp, spool, host, gc, pct, hostGib, spoolGib⟩, readings)

/-- Lay out every good block (R424): META and EVENTS blocks first, then the spares, the rest FREE; RETIRED and BAD blocks keep
their state (R445). The lowest-numbered blocks serve META, EVENTS and the spares (log entry 22). -/
def layBlocks (s : State) (metaN events spares : Nat) : Kv Block :=
  let n := blocksPerTarget s
  let numbers := (s.arch.targets.zipIdx.flatMap fun (t, i) => (List.range n).map fun k => (i * n + k, t.bad.contains k))
  let step (acc : Kv Block × Nat) (x : Nat × Bool) : Kv Block × Nat :=
    let old := Kv.get? x.1 s.arch.blocks
    let pe := match old with | some v => v.pe + 1 | none => 0
    if x.2 then (acc.1 ++ [(x.1, { blockEmpty with st := .bad })], acc.2)
    else match old with
      | some v => if v.st == .retired then (acc.1 ++ [(x.1, v)], acc.2) else
          let st : BlkSt × Nat := if acc.2 < metaN then (.metaBlk, 0) else if acc.2 < metaN + events then (.metaBlk, 1)
            else if acc.2 < metaN + events + spares then (.spare, 0) else (.free, 0)
          (acc.1 ++ [(x.1, { blockEmpty with st := st.1, zone := st.2, pe := pe })], acc.2 + 1)
      | none =>
          let st : BlkSt × Nat := if acc.2 < metaN then (.metaBlk, 0) else if acc.2 < metaN + events then (.metaBlk, 1)
            else if acc.2 < metaN + events + spares then (.spare, 0) else (.free, 0)
          (acc.1 ++ [(x.1, { blockEmpty with st := st.1, zone := st.2, pe := pe })], acc.2 + 1)
  (numbers.foldl step ([], 0)).1

/-- Give queued appends numbers from `n` on. -/
def renumber : Nat → List (Option (Nat × List Byte)) → List (Option (Nat × List Byte))
  | _, [] => []
  | n, none :: t => none :: renumber n t
  | n, some (_, r) :: t => some (n, r) :: renumber (n + 1) t

/-- Lay out the zones and restart the store (R424, R425, R444, R430); a READINGS zone below 64 blocks fails the format. -/
def formatStore (s : State) : Bool × State :=
  let (m, e, l, readings) := zones s
  if readings < 64 then
    (false, event 4 0x03 (if readings < 0 then 0 else readings.toNat) [] (setArch (fun a => { a with st := .off, layout := none }) s))
  else
    let blocks := layBlocks s m e l.spares
    let s := { s with evt := { s.evt with zoneOld := [], zoneCur := [] }, camp := { s.camp with ckpt := none }, relay := { s.relay with spool := [] } }
    (true, setArch (fun a =>
      let wq := renumber 0 a.wq
      let n := (wq.filterMap id).length
      { a with st := .ready, ro := false, cut := false, layout := some l, blocks := blocks, age := 0, ageCkpt := 0, jrecs := 0, next := n, resEnd := (n + 65535) / 65536 * 65536, durable := 0,
               wq := wq, notDurable := [], openR := [], turn := 0, logSec := 0, missing := [], writeback := false, uncorrAt := none }) s)

/-- The targets in scanning order: channel 0 to 3, target 0 to 7 (R421). -/
def scanTargets (l : List NandTarget) : List NandTarget :=
  (List.range 32).filterMap fun i => l.find? fun t => t.channel == i / 8 && t.target == i % 8

/-- The geometry that the store supports (R7, R421): of one target, and blocks and raw capacity of all together, in KiB. -/
def geometryOk (l : List NandTarget) : Bool :=
  let blocks := l.foldl (fun a t => a + t.blocks) 0
  let kib : Nat := l.foldl (fun a t => a + t.blocks * t.pages * t.pageKib) 0
  l.all (fun t => (t.pageKib = 8 || t.pageKib = 16) && 224 ≤ t.spare && t.spare ≤ 1040 && 64 ≤ t.pages && t.pages ≤ 4096)
    && decide (1024 ≤ blocks) && decide (blocks ≤ 1048576) && decide (kib ≤ 4 * 2 ^ 30)

/-- The store at start-up (R421, R422, R508 step 11): the targets of the first one's geometry, their profile, and MOUNTING. A store outside
the supported geometry is not mounted (DESIGN CHOICE, log entry 129). -/
def archStart (fitted : List NandTarget) (s : State) : State :=
  let found := scanTargets fitted
  if fieldOf s 0x4000 31 31 = 0 || !islRun s 4 then s
  else match found with
    | [] => s
    | f :: _ =>
      let same (t : NandTarget) : Bool := t.pageKib = f.pageKib && t.spare = f.spare && t.pages = f.pages && t.blocks = f.blocks
      let s := found.foldl (fun s t => if same t then s else event 4 0x01 (t.channel * 256 + t.target) [] s) s
      match ((s.boot.bundle.map (·.nand)).getD []).find? (fun p => p.onfiId == f.onfiId) with
      | none => event 4 0x02 0 [be 8 f.onfiId.toNat] s
      | some p =>
        let used := found.filter same
        if !geometryOk used then s else
        setArch (fun a => { a with st := .mounting, targets := used, prof := some p, next := if a.cut then a.resEnd else a.next,
                                   age := if a.cut then a.ageCkpt else a.age }) s

/-- ARCHIVE_MOUNT (R438, R429): checkpoint and journal are in the blocks; after a reset of the unit the scan's findings are applied,
records not durable are lost, and a lone unit names the lost range; after a reset of FLS alone nothing is (R505). A HEAD unit that no
copy fills takes its campaigns back (R225). A store without a layout is formatted (log entry 22). -/
def archiveMount (scan : MountScan) (s : State) : State :=
  if s.arch.st != .mounting || s.arch.formatting.isSome then s
  else match s.arch.layout with
    | none => (formatStore s).2
    | some _ =>
      let a := s.arch
      let bad := if a.cut then scan.torn ++ a.notDurable.map (fun p => (p.1, p.2.1)) else []
      let unmap (b : Nat) (x : List Sector × Nat) : List Sector :=
        if bad.contains (b, x.2) then x.1.map (fun y => { y with mapped := false }) else x.1
      let clean (b : Nat) (v : Block) : Block := { v with pages := v.pages.zipIdx.map (unmap b) }
      let opens := a.blocks.foldl (fun m p => if p.2.st == .open_ && p.2.zone == 5 then Kv.put (targetOf s p.1) p.1 m else m) []
      let lost := if a.cut then a.resEnd - a.durable else 0
      let s := countBy 0x4084 scan.dup (setArch (fun a =>
        { a with blocks := a.blocks.map (fun p => (p.1, clean p.1 p.2)), notDurable := if a.cut then [] else a.notDurable, st := if a.ro then .readOnly else .ready, cut := false,
                 openR := opens }) s)
      let s := if lost = 0 then s else addMissing a.durable (a.resEnd - 1) s
      let s := if lost != 0 && isLone s then
          event 4 0x04 (min lost 0xFFFFFFFF) [be 8 a.durable ++ be 8 (a.resEnd - 1)] s else s
      let joins := s.pair.st == .copying || s.pair.st == .standby
      checkReadOnly (if a.cut && !joins && s.camp.camps.isEmpty then campaignRestore s else s)

/-! ## Commands (R444) -/

/-- Is the store busy: MOUNTING, or formatting (log entry 22); in RECOVERY only the staging window serves (R522). -/
def archBusy (s : State) : Bool := s.arch.st == .mounting || s.boot.mode == .recovery

/-- ARCH_INFO (R574). -/
def archInfo (s : State) : State × Reply :=
  let a := s.arch
  let quiet := a.st == .mounting || a.st == .off
  let oldest := oldestSeq s
  let ranges := (a.missing.filter fun r => oldest ≤ r.2).map fun r => (max r.1 oldest, r.2)
  let shown := if quiet then [] else ranges.take 16
  let c (st : BlkSt) : List Byte := be 4 (blkCount s st)
  let item := if quiet then List.replicate 48 0#8 else
    be 8 a.age ++ c .free ++ c .open_ ++ c .data ++ c .stale ++ be 4 (blkTotal s) ++ c .spare ++ c .metaBlk ++ c .retired ++ c .bad ++ be 4 0
  (s, ⟨.ok, padTo 40 (be 4 (flsStatus s).toNat ++ (if quiet then [] else
      be 1 shown.length ++ be 1 (b2n (decide (16 < ranges.length))) ++ be 2 0 ++ be 8 a.durable ++ be 8 oldest ++ be 8 a.next)),
    item :: shown.map fun r => be 8 r.1 ++ be 8 r.2⟩)

/-- Is the store gone for reads (R440)? -/
def archGone (s : State) : Bool := !storeUp s

/-- ARCH_READ (R444): TRUNCATED at the first record it cannot deliver. -/
def archRead (first : W64) (cnt : Nat) (ms : List Media) (s : State) : State × Reply :=
  if archBusy s then (s, .busy)
  else if cnt = 0 || 1048576 < cnt then (s, .bad)
  else if archGone s then (s, .media)
  else
    let (l, cut, s) := readRecords ms cnt first.toNat none s
    (s, ⟨if cut then .truncated else .ok, [], l⟩)

/-- ARCH_FIND_TIME (R444): the block with the lowest first number whose first record has RX_TIME at or after the time; the
spec gives no result when there is none (log entry 2). -/
def archFindTime (t : W64) (s : State) : State × Reply :=
  if archBusy s then (s, .busy)
  else if archGone s then (s, .media)
  else
    let rxOf (b : Nat) : Nat := match (blockRecords (blockOf s b)).head? with | some r => beVal ((r.2.drop 28).take 8) | none => 0
    let fits := (readingBlocks s).filter fun p => decide (t.toNat ≤ rxOf p.1)
    let v := match fits with | [] => (Config.unstated 13 t.toNat).toNat | x :: r => minD x.2 (r.map (·.2) ++ [x.2])
    (s, ⟨.ok, padTo 40 (be 8 v), []⟩)

/-- The trim itself (R442), at the unit and, from the journal, at its standby (R446); leaving KEEP_FULL starts the write-back. -/
def trimTo (upto : Nat) (s : State) : State :=
  let gone (v : Block) : Bool := v.zone == 5 && v.st == .data && (blockRecords v).all fun r => r.1 < upto
  let any := s.arch.blocks.any fun p => gone p.2
  setArch (fun a => { a with
    blocks := a.blocks.map fun (b, v) => (b, if gone v then
      { v with st := .stale, pages := v.pages.map fun p => p.map fun x => { x with mapped := false } } else v),
                      st := if any && a.st == .keepFull then .ready else a.st,
                      writeback := a.writeback || (any && a.st == .keepFull && !a.ovf.isEmpty) }) s

/-- ARCH_TRIM (R442). -/
def archTrim (upto : W64) (s : State) : State × Reply :=
  if archBusy s then (s, .busy)
  else if archGone s then (s, .media)
  else (journal (.trim upto.toNat) (trimTo upto.toNat s), .done)

/-- ARCH_OVF_READ (R441): records from the ring's oldest. -/
def archOvfRead (cnt : Nat) (s : State) : State × Reply :=
  if archBusy s then (s, .busy)
  else (s, ⟨.ok, [], (s.arch.ovf.take cnt).map fun r => be 8 r.1 ++ r.2⟩)

/-- ARCH_OVF_RELEASE (R441). -/
def archOvfRelease (upto : W64) (s : State) : State × Reply :=
  if archBusy s then (s, .busy)
  else (setArch (fun a => { a with ovf := a.ovf.filter fun r => upto.toNat ≤ r.1 }) s, .done)

/-- HOST sectors of the layout in force. -/
def hostSectors (s : State) : Nat := (s.arch.layout.map (·.hostGib)).getD 0 * 262144

/-- A HOST sector; one never written reads as zero bytes (log entry 5). -/
def hostSector (s : State) (n : Nat) : Option (Nat × Nat × List Byte) :=
  s.arch.blocks.findSome? fun (b, v) =>
    if v.zone != 4 then none
    else v.pages.zipIdx.findSome? fun (p, i) => p.findSome? fun x =>
      match x.data with
      | .host d => if x.mapped && x.lsn = n then some (b, i, d) else none
      | _ => none

/-- ARCH_HOST_WRITE (R444, R440, R522): one to three sectors; in RECOVERY the window is central SRAM. -/
def archHostWrite (sector : Nat) (data : List (List Byte)) (s : State) : State × Reply :=
  let n := data.length
  if s.arch.st == .mounting && s.boot.mode != .recovery then (s, .busy)
  else if n = 0 || 3 < n || data.any (fun d => d.length != 4096) then (s, .bad)
  else if s.boot.mode == .recovery then
    if 1536 < sector + n then (s, .bad)
    else (setArch (fun a => { a with staging := data.zipIdx.foldl (fun m p => Kv.put (sector + p.2) p.1 m) a.staging }) s, .done)
  else if !storeUp s || s.arch.st == .readOnly || hostSectors s = 0 then (s, .media)
  else if hostSectors s < sector + n then (s, .bad)
  else
    let s1 := (List.range n).foldl (fun t i => unmapLsn 4 (sector + i) t) s
    match programSectors 4 (n + 2) (data.zipIdx.map fun p => (sector + p.2, .host p.1)) s1 with
    | some s2 => (mapJournal s2, .done)
    | none => (setArch (fun a => { a with st := .readOnly }) s, .media)

/-- Read `k` HOST sectors from `n` on. -/
def readHost (ms : List Media) : Nat → Nat → State → List (List Byte) × Bool × State
  | 0, _, s => ([], false, s)
  | k + 1, n, s =>
    match hostSector s n with
    | none => let (l, t, s) := readHost ms k (n + 1) s; (List.replicate 4096 0 :: l, t, s)
    | some (b, p, d) =>
      let (ok, s) := pageRead ms b p s
      if !ok then ([], true, s)
      else let (l, t, s) := readHost ms k (n + 1) s; (d :: l, t, s)

/-- ARCH_HOST_READ (R444, R522). -/
def archHostRead (sector cnt : Nat) (ms : List Media) (s : State) : State × Reply :=
  if s.arch.st == .mounting && s.boot.mode != .recovery then (s, .busy)
  else if cnt = 0 then (s, .bad)
  else if s.boot.mode == .recovery then
    if 1536 < sector + cnt then (s, .bad)
    else (s, ⟨.ok, [], (List.range cnt).map fun i => s.arch.staging.getD (sector + i) (List.replicate 4096 0)⟩)
  else if !storeUp s then (s, .media)
  else if hostSectors s < sector + cnt then (s, .bad)
  else
    let (l, cut, s) := readHost ms cnt sector s
    (s, ⟨if cut then .truncated else .ok, [], l⟩)

/-- ARCH_FORMAT (R444): the format starts; its answer comes with ARCH_FORMAT_COMPLETE, and appends queue meanwhile (R448). -/
def archFormat (h : Hdr) (confirm : W32) (s : State) : State × Reply :=
  if archBusy s then (s, .busy)
  else if confirm != 0x464D5421#32 then (s, .bad)
  else if s.arch.targets.isEmpty || !islInRun s 4 then (s, .media)
  else (setArch (fun a => { a with st := .mounting, formatting := some h }) s, .later)

/-- ARCH_FORMAT_COMPLETE (R444, R448). -/
def formatComplete (s : State) : State :=
  match s.arch.formatting with
  | none => s
  | some h =>
    let (ok, s) := formatStore (setArch (fun a => { a with formatting := none }) s)
    answer h 0x0909 (if ok then .done else .media) s

/-! ## Background work -/

/-- OVERFLOW_WRITEBACK (R441): the ring's unreleased records join the queue in ARCHIVE_SEQ order, ahead of newer appends. -/
def overflowWriteback (s : State) : State :=
  if !s.arch.writeback then s
  else setArch (fun a =>
    let lo := minD 0 (a.ovf.map (·.1))
    let before := a.wq.filter fun x => match x with | some r => decide (r.1 < lo) | none => true
    let after := a.wq.filter fun x => match x with | some r => decide (lo ≤ r.1) | none => false
    { a with writeback := false, ovf := [], wq := before ++ a.ovf.map some ++ after }) s

/-- Valid sectors of a block. -/
def validSectors (v : Block) : Nat := v.pages.foldl (fun m p => m + (p.filter (·.mapped)).length) 0

/-- The block of the least measure. -/
def leastBlock (f : Block → Nat) : Kv Block → Option (Nat × Nat)
  | [] => none
  | (b, v) :: t => match leastBlock f t with
    | some (c, m) => if m < f v then some (c, m) else some (b, f v)
    | none => some (b, f v)

/-- BLOCK_COLLECTION (R437): a freed READINGS block is erased; else the per-sector DATA block with the fewest valid sectors. -/
def blockCollection (s : State) : State :=
  if !storeUp s then s
  else match s.arch.blocks.find? (fun p => p.2.zone == 5 && p.2.st == .stale) with
    | some (b, _) => eraseBlock b (count 0x4078 s)
    | none => match leastBlock validSectors (s.arch.blocks.filter fun p => p.2.st == .data && p.2.zone != 5) with
      | some (b, _) => collectTo b [] false false s
      | none => s

/-- WEAR_LEVEL_MOVE (R435): at most one block per minute (R572). -/
def wearLevelMove (s : State) : State :=
  let pool := s.arch.blocks.filter fun p => p.2.st == .data || p.2.st == .free
  let lo := minD 0 (pool.map (·.2.pe))
  if !storeUp s || peMax s ≤ lo + fieldOf s 0x400C 31 16 then s
  else match leastBlock (·.pe) (s.arch.blocks.filter fun p => p.2.st == .data) with
    | some (b, _) => minuteEvent 8 0 (collectTo b [] true false) s
    | none => s

/-- The largest m with m^1000 at most 2^e, by bits. -/
def root1000 (e : Nat) : Nat :=
  ((List.range 24).map (23 - ·)).foldl (fun m i => if (m + 2 ^ i) ^ 1000 ≤ 2 ^ e then m + 2 ^ i else m) 0

/-- round(1,024 × 2^((T − 40) / 10)) for T in 0.01 °C (R430): exact, since twice the value is the 1,000th root of 2^(11,000 + x). -/
def ageIncrement (t : Int) : Nat :=
  let e := 11000 + (t - 4000)
  if e < 0 then 0 else (root1000 e.toNat + 1) / 2

/-- THERMAL_AGE_TICK (R430): once per minute. -/
def thermalAgeTick (s : State) : State :=
  if !storeUp s || s.tim.raw < s.arch.ageAt + 60000000000 then s else setArch (fun a => { a with ageAt := s.tim.raw, age := (a.age + ageIncrement (junction s)) % 2 ^ 64 }) s

/-- RETENTION_SCAN (R433): every DATA block older than REFRESH_AGE_W weeks at 40 °C is refreshed. -/
def retentionScan (s : State) : State :=
  if !storeUp s then s
  else
    let lim := fieldOf s 0x4008 7 0 * 7 * 24 * 60 * 1024
    s.arch.blocks.foldl (fun t p => if p.2.st == .data && decide (lim < s.arch.age - p.2.wr.age) then refresh p.1 t else t) s

/-- PROGRAM_ERASE_FAIL (R434): the block is retired and a spare takes its place. -/
def programEraseFail (b : Nat) (erase : Bool) (s : State) : State :=
  let v := blockOf s b
  if !storeUp s || v.st == .retired || v.st == .bad || (Kv.get? b s.arch.blocks).isNone then s
  else retireBlock b [] (count (if erase then 0x4080 else 0x407C) s)

/-- ARCHIVE_FLUSH_EXPIRY (R427): the sector being filled has waited FLUSH_S. -/
def archiveFlush (s : State) : State :=
  if s.tim.raw < s.arch.fillAt + fieldOf s 0x4000 27 24 * 1000000000 then s else programReadings (padQueue s)

/-! ## The rows -/

/-- PAGE_PROGRAM_COMPLETE (R428, R423, R431). -/
def runPageProgram (s : State) : State := withGrade programReadings s

end Sys2Proof.Machine
end

