-- ==== Sys2Proof/Machine/BalanceOps.lean ====
section
/-!
DEFINITION. Sys2Proof/Machine/BalanceOps.lean: what readings and relay entries give the balance (chapter 05): sample points,
indicator events, voltage, zero-crossing and fingerprint votes, minute records and voltage series (R162, R172 to R174, R456 to R459).
-/
namespace Sys2Proof.Machine

def nodeWorkEmpty : NodeWork := ⟨locZero, 0, 0, []⟩

/-! ## Integer square roots and correlations -/

/-- `r` with the bits below 2^k that keep its square at most n. -/
def isqrtFrom (n : Nat) : Nat → Nat → Nat
  | 0, r => r
  | k + 1, r => if (r + 2 ^ k) * (r + 2 ^ k) ≤ n then isqrtFrom n k (r + 2 ^ k) else isqrtFrom n k r

/-- The largest r with r² at most n, which lies below 2^320. -/
def isqrt (n : Nat) : Nat := isqrtFrom n 160 0

/-- num / √(dx × dy) in Q15, rounded toward zero; zero for a zero denominator (R170). -/
def q15 (num dx dy : Int) : Int :=
  if dx ≤ 0 || dy ≤ 0 then 0
  else
    let m : Int := isqrt ((num * num * 2 ^ 30).toNat / (dx * dy).toNat)
    clampI (-32768) 32767 (if num < 0 then -m else m)

/-- Correlation of two series of equal length in Q15; also the cosine of their mean-removed vectors. -/
def pearson (l : List (Int × Int)) : Int :=
  let n : Int := l.length
  let sx := l.foldl (fun a p => a + p.1) 0
  let sy := l.foldl (fun a p => a + p.2) 0
  let sxx := l.foldl (fun a p => a + p.1 * p.1) 0
  let syy := l.foldl (fun a p => a + p.2 * p.2) 0
  let sxy := l.foldl (fun a p => a + p.1 * p.2) 0
  q15 (n * sxy - sx * sy) (n * sxx - sx * sx) (n * syy - sy * sy)

/-- First differences. -/
def diffs : List Int → List Int
  | a :: b :: t => (b - a) :: diffs (b :: t)
  | _ => []

/-- Largest and second largest of scored picks, ties to the lower number; the picks come in rising order. -/
def bestTwo (l : List (Nat × Int)) : Option (Nat × Int × Int) :=
  match l with
  | [] => none
  | x :: t =>
    let b := t.foldl (fun (m : Nat × Int) p => if m.2 < p.2 then p else m) x
    let rest := l.filter fun p => p.1 != b.1
    some (b.1, b.2, match rest with | [] => 0 | y :: u => u.foldl (fun m p => max m p.2) y.2)

/-! ## Tree walks -/

/-- TYPE 0xFF makes a node absent. -/
def present (tree : Kv Node) (n : Nat) : Bool := match Kv.get? n tree with | some v => v.type != 0xFF | none => false

/-- A node's path to its root, itself first, at most `fuel` nodes. -/
def treePath (tree : Kv Node) : Nat → Nat → List Node
  | 0, _ => []
  | fuel + 1, n => match Kv.get? n tree with
    | none => []
    | some v => if v.type = 0xFF then [] else v :: (if v.parent = 0xFFFF then [] else treePath tree fuel v.parent)

/-- Is the node, or an ancestor, excluded (R152)? -/
def excludedNode (tree : Kv Node) (n : Nat) : Bool := (treePath tree 33 n).any fun v => v.flags.getLsbD 6

/-- Head key of a root: service ID and head. -/
def headKey (v : Node) : Nat := (v.refId.toNat % 4096) * 2 + v.refHead.toNat % 2

/-- Heads whose series are kept: those of the first 256 roots of the active tree (R459). -/
def keptHeads (s : State) : List Nat := ((s.bal.active.filter fun p => p.2.type = 0).take 256).map fun p => headKey p.2

/-- A field of a CTL_BAL register as the balance uses it: while a run is in progress, the value it started with (R187). -/
def balField (s : State) (off hi lo : Nat) : Nat :=
  match s.bal.run with
  | some r => bits (r.cfg.getD ((off - 0x500) / 4) 0) hi lo
  | none => fieldOf s off hi lo

/-- One more method result (R175). -/
def newResult (w : MeterWork) : MeterWork := { w with results := w.results + 1 }

/-! ## Voltage correlation (R172) -/

/-- Index into the six deviation series for candidate phase k (1 to 3) and shift s: 0 to 2 V(L1..3), 3 to 5 the line pairs
L1–L2, L2–L3, L3–L1. -/
def refSeries (s k : Nat) : Nat :=
  let ph (i : Nat) : Nat := (i - 1) % 3
  let pair (a b : Nat) : Nat := let x := ph a; let y := ph b; if (x + 1) % 3 = y then 3 + x else 3 + y
  match s with
  | 0 => ph k
  | 1 => pair k (k + 2)
  | 2 => ph (k + 2)
  | 3 => pair (k + 1) (k + 2)
  | 4 => ph (k + 1)
  | _ => pair k (k + 1)

/-- Close a full voltage window: three coefficients and the vote (R172). -/
def voltVote (s : State) (w : MeterWork) : MeterWork :=
  if w.volts.length < balField s 0x51C 31 22 then w
  else
    let xs := diffs (w.volts.map (·.1))
    let r (k : Nat) : Int := pearson (xs.zip (diffs (w.volts.map fun p => p.2.getD k 0)))
    match bestTwo [(1, r 0), (2, r 1), (3, r 2)] with
    | none => w
    | some (p, a, b) =>
      let c := if a < (balField s 0x518 31 16 : Int) then 0 else min 255 ((a - b) * 510 / 32768).toNat
      newResult { w with volts := [], vVote := some ⟨p, c, unitSec s⟩ }

/-- A voltage sample of a meter at a capture time (RX_TIME format). -/
def voltSample (n : Nat) (cap : W64) (v : Int) (s : State) : State :=
  let r := imgOf s n
  let path := treePath s.bal.active 33 (fld r 144 2)
  match path.getLast? with
  | none => s
  | some root =>
    let sec : Int := cap.toNat / 65536
    if !recFlag r 15 || (localSec s : Int) - sec > 172800 then s
    else match s.bal.rms.find? (fun x => x.head = headKey root && x.second = sec) with
      | none => s
      | some x =>
        if !x.clean then s
        else
          let sh := (path.foldl (fun a v => if v.type = 1 then a + v.shift else a) 0) % 6
          let w := workOf s n
          let refs := [1, 2, 3].map fun k => x.dev.getD (refSeries sh k) 0
          putWork n (voltVote s { w with volts := w.volts ++ [(v, refs)] }) s

/-! ## Readings -/

/-- Insert a sample point in capture order and keep the four latest (R162). -/
def insertPt (p : SamplePt) (l : List SamplePt) : List SamplePt :=
  let m := l.filter (fun q => q.cap ≤ p.cap) ++ p :: l.filter (fun q => p.cap < q.cap)
  m.drop (m.length - 4)

/-- Milliseconds of a time in the RX_TIME format (R136). -/
def msTime (t : W64) : Int := (t.toNat / 65536) * 1000 + (t.toNat % 65536) * 1000 / 65536

/-- Has the run for the interval of a capture time already started (R165)? -/
def lateForRun (s : State) (cap : W64) : Bool :=
  match s.bal.startedEnd with | some e => decide (msTime cap < e) | none => false

/-- What an ACCEPTED row gives the balance (R162, R165, R172, R177). -/
def balanceReading (n : Nat) (cap : W64) (imp exp v1 : Option Int) (ev : Option Int) (err : Nat) (s : State) : State :=
  let ms := msTime cap
  let w := workOf s n
  let s := match imp, exp with
    | some i, some x =>
      if err ≤ balField s 0x504 31 16 then putWork n { w with pts := insertPt ⟨ms, i, x, err, s.bal.started⟩ w.pts } s else s
    | _, _ => s
  let s := match ev with
    | some e =>
      let has (l : List (BitVec 16)) : Bool := l.contains (BitVec.ofInt 16 e)
      let neu := has ((s.boot.bundle.map (·.neutralCodes)).getD [])
      let tam := has ((s.boot.bundle.map (·.tamperCodes)).getD [])
      if neu || tam then putWork n { workOf s n with events := (workOf s n).events ++ [⟨ms, neu, tam, s.bal.started⟩] } s else s
    | none => s
  match v1 with
  | some v => if err ≤ balField s 0x504 31 16 then voltSample n cap v s else s
  | none => s

/-! ## Votes from relay entries -/

/-- A zero-crossing offset in tenths of a degree against a reference phase (R173): one vote, and the method's result when
PHASE_WINDOW offsets are gathered. -/
def zcVote (n : Nat) (offset : Nat) (refPhase : Nat) (s : State) : State :=
  let w := workOf s n
  let tol := balField s 0x51C 21 16 * 10
  let near (c : Nat) : Bool := let d := (offset % 3600 + 3600 - c) % 3600; d ≤ tol || 3600 - d ≤ tol
  let ph (k : Nat) : Nat := (refPhase - 1 + k) % 3
  let i := if refPhase = 0 then 3 else if near 0 then ph 0 else if near 1200 then ph 1 else if near 2400 then ph 2 else 3
  let zc := w.zc.set i (w.zc.getD i 0 + 1)
  let total := zc.foldl (· + ·) 0
  if total < balField s 0x51C 31 22 then putWork n { w with zc := zc } s
  else match bestTwo [(1, (zc.getD 0 0 : Int)), (2, zc.getD 1 0), (3, zc.getD 2 0)] with
    | none => s
    | some (p, a, b) =>
      let c := if total < 8 then 0 else (255 * (a - b) / total).toNat
      putWork n (newResult { w with zc := [0, 0, 0, 0], zVote := some ⟨p, c, unitSec s⟩ }) s

/-- Sum of vectors, element by element. -/
def addVec : List Int → List Int → List Int
  | a :: s, b :: t => (a + b) :: addVec s t
  | [], t => t
  | s, [] => s

/-- The TRANSFORMER ancestor of a node, or the node itself. -/
def transformerOf (tree : Kv Node) (n : Nat) : Option Nat := ((treePath tree 33 n).find? fun v => v.type = 1).map (·.id)

/-- The mean fingerprint, as a sum, of the meters under transformer `t` on a PLC instance whose PHASE_CONF is at least
PHASE_CONF_MIN; with a phase, of that phase only (R174). -/
def fpMean (s : State) (inst t : Nat) (phase : Option Nat) : List Int :=
  s.bal.meters.foldl (fun acc p =>
    match p.2.fp with
    | some (i, v) =>
      let r := imgOf s p.1
      if i = inst && recFlag r 15 && transformerOf s.bal.active (fld r 144 2) = some t && balField s 0x51C 15 8 ≤ fld r 147 1
        && (match phase with | some k => fld r 146 1 / 64 = k | none => true) then addVec acc v else acc
    | none => acc) []

/-- Confidence of a fingerprint vote (R174). -/
def fpConf (s : State) (best second : Int) : Nat :=
  if best < (balField s 0x518 15 0 : Int) then 0 else min 255 ((best - second) * 1020 / 32768).toNat

/-- A fingerprint arrives (R174): the meter's vector, then the transformer vote and the phase vote within it. -/
def fpVote (n inst : Nat) (v : List Int) (s : State) : State :=
  let s := putWork n { workOf s n with fp := some (inst, v) } s
  let cands := (s.bal.active.filter fun p => p.2.type = 1).filterMap fun p =>
    match fpMean s inst p.1 none with | [] => none | m => some (p.1, pearson (v.zip m))
  match bestTwo cands with
  | none => s
  | some (t, a, b) =>
    let phs := [1, 2, 3].filterMap fun k => match fpMean s inst t (some k) with | [] => none | m => some (k, pearson (v.zip m))
    let w := workOf s n
    let f := match bestTwo phs with | some (k, x, y) => some (⟨k, fpConf s x y, unitSec s⟩ : Vote) | none => w.fVote
    putWork n (newResult { w with tVote := some ⟨t, fpConf s a b, unitSec s⟩, fVote := f }) s

/-! ## Head measurements (R456 to R459) -/

/-- Store a minute record by head and START (R458). -/
def storeMinute (m : MeaMinute) (s : State) : State :=
  journal (.minute m) <| setBal (fun b => { b with minutes := b.minutes.filter (fun x => x.head != m.head || x.start != m.start) ++ [m] }) s

/-- Store a second of a head's series: 48 hours, for the heads kept (R459). -/
def storeRms (m : MeaRms) (s : State) : State :=
  if !(keptHeads s).contains m.head then s
  else
    let keep (x : MeaRms) : Bool := (x.head != m.head || x.second != m.second) && decide ((localSec s : Int) - x.second ≤ 172800)
    journal (.rmsSecond m) <| setBal (fun b => { b with rms := b.rms.filter keep ++ [m] }) s

end Sys2Proof.Machine
end

