-- ==== Sys2Proof/Machine/Pipeline.lean ====
section
/-!
DEFINITION. Sys2Proof/Machine/Pipeline.lean: the reading validation pipeline (chapter 03): intake, dispatch, tokens, the nine
stages, replay rules, decoding, time alignment, commit and posting (R83 to R120).
-/
namespace Sys2Proof.Machine

/-! ## Outcome codes (R110) -/
def ocAccepted : Nat := 0
def ocDuplicate : Nat := 1
def ocReplayed : Nat := 2
def ocAuthFail : Nat := 3
def ocMalformed : Nat := 4
def ocUnknown : Nat := 5
def ocImplausible : Nat := 6
def ocLate : Nat := 7
def ocHeld : Nat := 8

/-- Does an outcome advance the counter (R111)? `stage6`: MALFORMED was decided at stage 6. -/
def advances (oc : Nat) (stage6 : Bool) : Bool :=
  oc == ocAccepted || oc == ocImplausible || oc == ocLate || oc == ocHeld || (oc == ocMalformed && stage6)

/-- Is an outcome archived (R111)? -/
def archived (oc : Nat) : Bool := oc == 0 || oc == 2 || oc == 3 || oc == 6 || oc == 7 || oc == 8

/-- Is an outcome posted, by role and the settings of CTL_PIPE_CONFIG (R111)? -/
def posted (s : State) (oc : Nat) : Bool :=
  if oc = ocDuplicate then isHead s && fieldOf s 0x300 1 1 = 1
  else if oc = ocAuthFail || oc = ocMalformed then isHead s || fieldOf s 0x300 0 0 = 1
  else oc != ocUnknown

/-- The record counter of an outcome (R111): offset and length. -/
def recCounter (oc : Nat) : Option (Nat × Nat) :=
  match oc with
  | 0 => some (128, 4) | 1 => some (136, 2) | 2 => some (134, 2) | 3 => some (132, 2) | 4 => some (140, 2)
  | 6 => some (138, 2) | _ => none

/-! ## Tokens (R88) -/

/-- Tokens HELD: one for each reading in flight. -/
def heldTokens (s : State) : Nat := s.pipe.flight.length

/-- End a reading in flight: its token is RETURNING. -/
def endFlight (id : Nat) (s : State) : State :=
  if s.pipe.flight.any (fun f => f.id == id) then
    { s with pipe := { s.pipe with flight := s.pipe.flight.filter (fun f => f.id != id), returning := s.pipe.returning +
      (s.pipe.flight.filter (fun f => f.id == id)).length } }
  else s

/-- A reading that ends without an outcome (R89): the token goes back and CTL_PIPE_DROPPED counts. -/
def dropFlight (id : Nat) (s : State) : State := count 0x344 (endFlight id s)

/-- The readings of a cluster that fails (R26, R89, R120): those not committed end without an outcome, the committed ones stay for CTL to
post; every token goes back. -/
def loseReadings (c : Nat) (s : State) : State :=
  let mine := s.pipe.flight.filter fun f => f.cluster == c
  let s := mine.foldl (fun t f => if f.stage == .committed then endFlight f.id t else dropFlight f.id t) s
  { s with pipe := { s.pipe with orphans := s.pipe.orphans ++ mine.filter fun f => f.stage == .committed } }

/-- A reading whose posting is queued leaves the pipeline, with its token if it holds one. -/
def finishFlight (id : Nat) (s : State) : State :=
  endFlight id { s with pipe := { s.pipe with orphans := s.pipe.orphans.filter fun f => f.id != id } }

/-- TOKEN_RETURN (R88): CTL adds a RETURNING token back to the pool. -/
def tokenReturn (s : State) : State :=
  if s.pipe.returning = 0 then s
  else { s with pipe := { s.pipe with returning := s.pipe.returning - 1, free := s.pipe.free + 1 } }

/-! ## Dispatch (R85) -/

/-- Is a reading signed (R94)? -/
def signed (i : RItem) : Bool := i.apdu.outer == 0xDF

/-- The cluster of a bucket, where dispatch to it is open: not moving, its cluster in RUN and not paused (R25, R27, R38). -/
def openCluster (s : State) (b : Nat) : Option Nat :=
  if s.clusters.moving.head?.map (·.1) == some b then none
  else match clusterOf s b with
    | some c => if islRun s (17 + c) && !(s.clusters.changing && s.clusters.toSwitch.head? == some c) then some c else none
    | none => none

/-- Bucket and slot for an item: by the index, else by the home line (R85). R85 names no bucket for an item without a title, which ends
MALFORMED at stage 2: the model takes bucket 0 (DESIGN CHOICE, log entry 124). -/
def routeItem (s : State) (i : RItem) : Nat × Option Nat :=
  match i.title with
  | none => (0, none)
  | some t => match idxFind s t with
    | some n => (n % 4096, some n)
    | none => ((sipHash s.table.salt t).toNat % idxLines s % 4096, none)

/-- Take the front packet of queue `q`: token, lookup, cluster. None: it must wait. -/
def dispatchFrom (q : Nat) (s : State) : Option State :=
  match s.pipe.iq.getD q [] with
  | [] => none
  | i :: rest =>
    if s.pipe.free = 0 then none
    else if signed i && fieldOf s 0x30C 12 0 ≤ (s.pipe.flight.filter (fun f => signed f.item)).length then none
    else
      let (b, n) := routeItem s i
      match openCluster s b with
      | none => none
      | some c =>
        let f : Flight := ⟨s.pipe.nextId, c, b, i, n, .dispatched, none, false, false, false, false, none, [], 0, [], 0⟩
        let s := { s with pipe := { s.pipe with iq := Kv.putOr [] q rest s.pipe.iq, free := s.pipe.free - 1,
                                                flight := s.pipe.flight ++ [f], nextId := s.pipe.nextId + 1, turn := (q + 1) % 8 } }
        some (wake (17 + c) (wake 3 (intakeRead q (itemCount i) s)))

/-- The first queue, from the dispatcher's turn on, whose front packet can go. -/
def dispatchTurn (s : State) : List Nat → State
  | [] => s
  | q :: t => match dispatchFrom q s with
    | some s' => s'
    | none => dispatchTurn s t

/-- READING_DISPATCH (R85, R86, R352): a unit without the grant dispatches nothing. -/
def readingDispatch (s : State) : State :=
  if !serving s then s
  else dispatchTurn s ((List.range 8).map fun i => (s.pipe.turn + i) % 8)

/-! ## Stages 2 to 4 -/

/-- Tags the pipeline accepts (R90). -/
def tagOk (i : RItem) : Bool :=
  let t := i.apdu.inner
  let c := t == 0xDB || t == 0xDC || t == 0xCC || t == 0xCA || t == 0xD4 || t == 0xD2
  if i.apdu.outer == 0xDF then c else i.apdu.outer == t && c

/-- Is the ciphering by a dedicated key? -/
def dedTag (t : Nat) : Bool := t == 0xDC || t == 0xD4 || t == 0xD2

/-- Do the inner service and the tag match (R90)? -/
def svcOk (t : Nat) (v : Svc) : Bool :=
  match t with
  | 0xDB => v == .notification || v == .getNormal || v == .getList || v == .event
  | 0xDC | 0xCC | 0xD4 => v == .getNormal || v == .getList
  | 0xCA | 0xD2 => v == .event
  | _ => false

/-- The security control byte and signature rules of R91: an outcome, or none to go on. -/
def scCheck (i : RItem) : Option Nat :=
  let sc := i.apdu.sc
  let suite := sc.toNat % 16
  if sc.getLsbD 7 then some ocMalformed
  else if !sc.getLsbD 4 then some ocAuthFail
  else if sc.getLsbD 6 then some ocAuthFail
  else if 2 ≤ suite then some ocAuthFail
  else if i.apdu.outer == 0xDF then
    match i.apdu.sign with
    | some (k, _) => if suite = 0 || (k != 1 && k != 2) then some ocAuthFail else none
    | none => some ocAuthFail
  else none

/-- Stage 2 (R84, R90, R91, R96): the slot found, and an outcome when one is decided. -/
def stage2 (s : State) (f : Flight) : Option Nat × Option Nat × Bool :=
  match f.item.title with
  | none => (none, some ocMalformed, false)
  | some t =>
    match f.slot with
    | none => (none, some ocUnknown, false)
    | some n =>
      let r := imgOf s n
      if recTitle r != t || recState r = 0 || (recState r = 4 && !f.kept) then (none, some ocUnknown, false)
      else if recState r = 3 then (some n, some ocUnknown, true)
      else if !tagOk f.item || !f.item.apdu.headerOk || !svcOk f.item.apdu.inner f.item.apdu.svc then (some n, some ocMalformed, false)
      else (some n, scCheck f.item, false)

/-- The session key for a ded-ciphered reading (R92, R93): the field unit's association, or the wrapped key of the entry. -/
def sessionKey (s : State) (n : Nat) (i : RItem) : Option Key :=
  if i.relayed then
    if !i.polled || !i.tsValid || i.rxTime.toNat < i.reqTime.toNat || i.reqTime.toNat + 60 * 65536 < i.rxTime.toNat then none
    else match s.sec.tkek.find? (fun p => WrapKey.table p.2 == i.session.under) with
      | some _ => if i.session.intact then some i.session.val else none
      | none => none
  else (Kv.get? i.assoc s.pipe.sessions).bind fun x => if x.slot = n then some x.key else none

/-- Does the APDU's tag verify under a pair of keys (R91; log entry 3)? -/
def verifies (a : Apdu) (ek ak : Key) : Bool := a.intact && a.ek == ek && a.ak == ak

/-- Stages 3 and 4 on the keys (R68, R70): pass under the current keys, pass under the pending ones, or fail; and whether the
current keys could not be unwrapped. -/
def keyCheck (s : State) (n : Nat) (i : RItem) : Option Bool × Bool :=
  let v := slotOf s n
  let ver := kekVer v.img
  let pend := fld v.img 31 1 / 128 = 1
  let try_ (e a : Wrapped) : Option Bool :=
    match unwrapRec s ver e, unwrapRec s ver a with
    | some ek, some ak =>
      if dedTag i.apdu.inner then
        match sessionKey s n i with
        | some k => some (verifies i.apdu k ak)
        | none => some false
      else some (verifies i.apdu ek ak)
    | _, _ => none
  match try_ v.keys.ek v.keys.ak with
  | some true => (some false, false)
  | cur =>
    let p := if pend then try_ v.keys.pendEk v.keys.pendAk == some true else false
    (if p then some true else none, cur.isNone)

/-- The signature check of a HEAD unit (R94): true when the reading may pass. -/
def sigCheck (s : State) (n : Nat) (i : RItem) : Bool :=
  match i.apdu.sign with
  | none => true
  | some (suite, key) => match Kv.get? n s.sec.signers with
    | some p => p.curve == suite && p.key == key
    | none => false

/-- KEY_FAULT, once per record (R68): the flag, CTL_TBL_KEY_FAULTS and the event. -/
def keyFault (n : Nat) (s : State) : State :=
  if recFlag (imgOf s n) 13 then s
  else
    let s := writeRec n (fun r => setFlag r 13 true) s
    event 1 0x13 (kekVer (imgOf s n) * 2 ^ 24 + n) [be 8 (recTitle (imgOf s n)).toNat] (count 0x220 s)

/-- Replace a reading in flight. -/
def putFlight (f : Flight) (s : State) : State :=
  { s with pipe := { s.pipe with flight := s.pipe.flight.map fun g => if g.id == f.id then f else g } }

/-- The unit counter of an outcome, once per row (R113); there are nine outcomes. -/
def countOutcome (oc rows : Nat) (s : State) : State := if oc < 9 then countBy (0x320 + 4 * oc) rows s else s

/-- READING_VERIFY (R95, R96, R68, R70, R94): stages 2 to 4 of one reading. -/
def readingVerify (id : Nat) (s : State) : State :=
  match s.pipe.flight.find? (fun f => f.id == id) with
  | none => s
  | some f =>
    if f.stage != .dispatched || !islRun s (17 + f.cluster) || !islRun s 2 then s
    else
      let s := wake 2 s
      let (n, oc, susp) := stage2 s f
      match oc, n with
      | some 5, none =>
        let s := countOutcome ocUnknown 1 s
        let s := match f.item.title with
          | some t => if (idxFind s t).isNone then noteUnknown t (BitVec.ofNat 8 (240 + f.item.src)) f.item.sender s else s
          | none => s
        endFlight id (relayResult f.item.ref ocUnknown s)
      | some o, n => putFlight { f with slot := n, stage := .verified, outcome := some o, suspended := susp } s
      | none, none => s
      | none, some n =>
        let (k, faulted) := keyCheck s n f.item
        let s := if faulted then keyFault n s else s
        let f := { f with sesKey := if dedTag f.item.apdu.inner then sessionKey s n f.item else none }
        match k with
        | none => putFlight { f with stage := .verified, outcome := some ocAuthFail } s
        | some prom =>
          if isHead s && !sigCheck s n f.item then putFlight { f with stage := .verified, outcome := some ocAuthFail } s
          else
            let sig := isHead s && f.item.apdu.sign.isSome
            putFlight { f with stage := .verified, outcome := none, promoted := prom, sigOk := sig } (if sig then count 0x358 s else s)

/-! ## Stage 5: replay (R99) -/

/-- Result of the replay rules: an outcome, or pass with the new IC_LAST, the new map and WINDOWED. -/
inductive Replay where
  | stop (oc : Nat)
  | pass (last : Nat) (map : Nat) (windowed : Bool)
  deriving DecidableEq, Repr

/-- The replay rules of R99 on a counter, IC_LAST, WINDOW (0 for a strict reading) and WINDOW_MAP. COUNTER_EXHAUSTED itself stops nothing:
R52 lets no further reading be accepted, while R99 still passes a windowed counter below an IC_LAST of 0xFFFF_FFFF, and any counter above
one the host has lowered; the model follows R99 (DESIGN CHOICE, log entry 125). -/
def replay (ic last w map : Nat) : Replay :=
  if w = 0 then
    if last < ic then .pass ic map false
    else if ic = last then .stop ocDuplicate
    else .stop ocReplayed
  else if last < ic then
    let d := ic - last
    if 65 ≤ d then .pass ic 0 false
    else .pass ic ((map * 2 ^ d + 2 ^ (d - 1)) % 2 ^ 64) false
  else if ic = last then .stop ocDuplicate
  else if last ≤ ic + w then
    let n := last - ic - 1
    if map / 2 ^ n % 2 = 1 then .stop ocDuplicate else .pass last (map + 2 ^ n) true
  else .stop ocReplayed

/-- Did the reading come over radio (R99)? -/
def overRadio (i : RItem) : Bool := if i.relayed then i.orig == 4 || i.orig == 5 else i.src == 4 || i.src == 5

/-! ## Stage 6: decode (R101 to R104) -/

/-- Days from 1970-01-01 to a civil date. -/
def civilDays (y m d : Nat) : Int :=
  let y' : Int := if m ≤ 2 then (y : Int) - 1 else y
  let era := y' / 400
  let yoe := y' - era * 400
  let mp : Int := ((m : Int) + 9) % 12
  let doy := (153 * mp + 2) / 5 + d - 1
  let doe := yoe * 365 + yoe / 4 - yoe / 100 + doy
  era * 146097 + doe - 719468

/-- Is a date-time complete and in range? -/
def timeOk (t : CosemTime) : Bool :=
  1 ≤ t.month && t.month ≤ 12 && 1 ≤ t.day && t.day ≤ 31 && t.hour < 24 && t.minute < 60 && t.second < 60 &&
  (t.hundredths < 100 || t.hundredths == 0xFF) && 1970 ≤ t.year && t.year < 0xFFFF

/-- Local-clock time of a date-time in units of 2^-16 s: its deviation and the UTC offset are applied (R104). -/
def cosemLocal (s : State) (t : CosemTime) : Int :=
  let sec : Int := civilDays t.year t.month t.day * 86400 + t.hour * 3600 + t.minute * 60 + t.second
  let dev : Int := if t.deviation = 0x8000#16 then 0 else t.deviation.toInt * 60
  (sec - dev + utcOffsetAt (sec - dev) s) * 65536 + (if t.hundredths = 0xFF then 0 else (t.hundredths * 65536 / 100 : Nat))

/-- v × 10^e, division toward zero (R104). -/
def scale10 (v : Int) (e : Int) : Int :=
  if 0 ≤ e then v * 10 ^ e.toNat else Int.tdiv v (10 ^ (-e).toNat)

/-- The fields stage 6 draws from a row. -/
structure RowData where
  imp : Option Int
  exp : Option Int
  impP : Option Int
  expP : Option Int
  v1 : Option Int
  v2 : Option Int
  v3 : Option Int
  time : Option CosemTime
  ev : Option Int
  deriving DecidableEq, Repr

/-- An energy register whose value is the absent one of R103 reads as absent. -/
def present64 (y : Int) : Option Int := if y = 2 ^ 64 - 1 then none else some y

/-- One element into its target (R104, R520); none: MALFORMED. -/
def putElem (e : TemplateElem) (v : Dv) (r : RowData) : Option RowData :=
  match e.target, v with
  | 0, _ => some r
  | 1, .num _ x => let y := scale10 x (e.scaler + 3); if 0 ≤ x && y < 2 ^ 64 then some { r with imp := present64 y } else none
  | 2, .num _ x => let y := scale10 x (e.scaler + 3); if 0 ≤ x && y < 2 ^ 64 then some { r with exp := present64 y } else none
  | 3, .num _ x => some { r with impP := some (scale10 x e.scaler) }
  | 4, .num _ x => some { r with expP := some (scale10 x e.scaler) }
  | 5, .num _ x => let y := scale10 x (e.scaler + 2); if 0 ≤ y && y < 2 ^ 16 then some { r with v1 := some y } else none
  | 6, .num _ x => let y := scale10 x (e.scaler + 2); if 0 ≤ y && y < 2 ^ 16 then some { r with v2 := some y } else none
  | 7, .num _ x => let y := scale10 x (e.scaler + 2); if 0 ≤ y && y < 2 ^ 16 then some { r with v3 := some y } else none
  | 8, .time _ t => if timeOk t then some { r with time := some t } else none
  | 9, .num _ x => if 0 ≤ x && x < 2 ^ 16 then some { r with ev := some x } else none
  | _, _ => none

def rowEmpty : RowData := ⟨none, none, none, none, none, none, none, none, none⟩

/-- A whole row through a template. -/
def rowData : List TemplateElem → List Dv → RowData → Option RowData
  | [], [], r => some r
  | e :: es, v :: vs, r => (putElem e v r).bind (rowData es vs)
  | _, _, _ => none

/-- The data-type tag of a value. -/
def dvTag : Dv → Nat
  | .num t _ => t
  | .time t _ => t
  | .other t => t

/-- Does a row's tag sequence match the template's (R101)? A capture clock matches 0x09 or 0x19. -/
def tagsMatch : List TemplateElem → List Dv → Bool
  | [], [] => true
  | e :: es, v :: vs => (dvTag v == e.tag || (e.target == 8 && (dvTag v == 0x09 || dvTag v == 0x19) && (e.tag == 0x09 || e.tag == 0x19))) && tagsMatch es vs
  | _, _ => false

/-- The decode template of a reading (R101). -/
def templateFor (s : State) (i : RItem) : Option Template :=
  let ts := (s.boot.bundle.map (·.templates)).getD []
  match i.apdu.svc with
  | .notification => ts.find? fun t => t.notification && t.name == i.apdu.name &&
      (match i.apdu.rows with | r :: _ => tagsMatch t.elems r | [] => false)
  | .getNormal | .getList => ts.find? fun t => !t.notification && t.id == i.template
  | _ => none

/-- Decode all rows; none: MALFORMED at stage 6 (R101, R102, R104). An event's value has the DLMS type unsigned or long-unsigned
(DEDUCED, log entry 82). -/
def decodeRows (s : State) (i : RItem) : Option (List RowData) :=
  if i.apdu.svc = .event then
    match i.apdu.eventValue with
    | some (.num tag x) => if (tag = 0x11 || tag = 0x12) && 0 ≤ x && x < 2 ^ 16 then some [{ rowEmpty with ev := some x }] else none
    | _ => none
  else match templateFor s i with
    | none => none
    | some t =>
      if i.apdu.rows.length = 0 || 32 < i.apdu.rows.length then none
      else (i.apdu.rows.mapM fun r => if tagsMatch t.elems r then rowData t.elems r rowEmpty else none)

/-- DEMAND (R103): import minus export power, or none; `false` when it does not fit. -/
def demandOf (r : RowData) : Option Int × Bool :=
  match r.impP, r.expP with
  | none, none => (none, true)
  | a, b => let d := a.getD 0 - b.getD 0; (some d, decide (-(2 ^ 31) < d ∧ d < 2 ^ 31))

/-- VOLTAGE of a row (R103): the one element supplied, or that of the record's phase, L1 when unknown. -/
def voltageOf (phase : Nat) (r : RowData) : Option Int :=
  match r.v1, r.v2, r.v3 with
  | some v, none, none => some v
  | none, some v, none => some v
  | none, none, some v => some v
  | a, b, c => if phase = 2 then b else if phase = 3 then c else a

/-! ## Stage 8: time alignment (R105 to R107) -/

/-- What stage 8 decides for a row. -/
structure Aligned where
  capture : W64
  capFromRx : Bool
  suspect : Bool
  err : Nat
  late : Bool
  deriving DecidableEq, Repr

/-- ALIGN_ERR in ms from d and D, both in 1/65,536,000 s, and r in ms: rounded up, saturating at 0xFFFE (R106). -/
def alignErr (d dmax : Int) (r : Nat) : Nat :=
  let m := max d.natAbs (dmax - d).natAbs
  min 0xFFFE ((m + 65535) / 65536 + r)

/-- Is the reading pushed by the meter (R105)? -/
def pushed (i : RItem) : Bool := i.apdu.svc == .notification || i.apdu.svc == .event

/-- The capture time that stage 6 decodes for a row; zero for none. -/
def capTime (s : State) (row : RowData) : W64 := BitVec.ofInt 64 ((row.time.map (cosemLocal s)).getD 0)

/-- A deviation of 0x8000 in a time of the row or in the clock element sets CLOCK_SUSPECT at stage 6 (R104), on rows for which R105's
table makes a check; on the others R106 lets only the clock status byte set it (DEDUCED, log entry 126). -/
def devSuspect (i : RItem) (row : RowData) : Bool :=
  i.tsValid && (pushed i || i.apdu.clock.isSome)
    && ((row.time.map (fun t => t.deviation == 0x8000#16)).getD false || (i.apdu.clock.map (fun t => t.deviation == 0x8000#16)).getD false)

/-- Stage 8 on one row. -/
def align (s : State) (i : RItem) (row : RowData) : Aligned :=
  let trx : Int := i.rxTime.toNat
  let cap : Option Int := row.time.map (cosemLocal s)
  let status := (row.time.map (fun t => t.status.toNat)).getD 0
  let devOpen := devSuspect i row
  let badStatus := status % 4 != 0
  let res (t : CosemTime) : Nat := if t.hundredths = 0xFF then 1000 else 10
  let word (x : Int) : W64 := BitVec.ofInt 64 x
  if !i.tsValid then ⟨capTime s row, false, badStatus, 0xFFFF, false⟩
  else
    let fromRx := cap.isNone
    let tcap := cap.getD trx
    let push := pushed i
    let check : Option (Int × Int × Nat) :=
      if push then
        some ((trx - tcap) * 1000, (fieldOf s 0x304 31 16 : Int) * 65536, if fromRx then 0 else (row.time.map res).getD 0)
      else match i.apdu.clock with
        | some t => if fromRx then some (0, (trx - i.reqTime.toNat) * 1000, 0)
            else some ((trx - cosemLocal s t) * 1000, (trx - i.reqTime.toNat) * 1000, res t)
        | none => none
    let err := match check with | some (d, dm, r) => alignErr d dm r | none => 0xFFFF
    let bad := match check with | some (d, dm, _) => !decide (0 ≤ d ∧ d ≤ dm) | none => false
    let lim := fieldOf s 0x300 31 16
    let late := (lim != 0 && decide (tcap < trx - lim * 3600 * 65536)) || decide (trx + fieldOf s 0x300 15 8 * 65536 < tcap)
    ⟨word tcap, fromRx, bad || badStatus || devOpen, err, late⟩

/-! ## Reading records (R103) -/

/-- SOURCE byte. -/
def sourceByte (i : RItem) : Nat := (if i.relayed then i.orig % 16 else 15) * 16 + i.src % 16

/-- The 64-byte reading record. -/
def readingRecord (i : RItem) (oc slot row flags : Nat) (a : Aligned) (d : RowData) (phase ruleCode : Nat) : List Byte :=
  let title := (i.title.getD 0).toNat
  let dem := match (demandOf d).1 with | some x => beI 4 x | none => be 4 0x80000000
  be 8 title ++ be 1 oc ++ be 1 (sourceByte i) ++ be 2 (flags + row) ++ be 4 slot ++ be 4 i.apdu.ic.toNat
    ++ be 8 a.capture.toNat ++ be 8 (if i.tsValid then i.rxTime.toNat else 0)
    ++ be 8 ((d.imp.map Int.toNat).getD 0xFFFFFFFFFFFFFFFF) ++ be 8 ((d.exp.map Int.toNat).getD 0xFFFFFFFFFFFFFFFF)
    ++ dem ++ be 2 ((voltageOf phase d).map Int.toNat |>.getD 0xFFFF) ++ be 1 ruleCode
    ++ be 1 ((d.time.map (fun t => t.status.toNat)).getD 0xFF) ++ be 2 ((d.ev.map Int.toNat).getD 0) ++ be 2 a.err

/-- FLAGS of the reading record but for EVENT and ROW, which the decoded row decides (R103). -/
def recordFlags (i : RItem) (a : Aligned) (windowed sig prom : Bool) : Nat :=
  b2n i.tsValid * 2 ^ 15 + b2n a.capFromRx * 2 ^ 14 + b2n a.suspect * 2 ^ 13 + b2n windowed * 2 ^ 12 + b2n sig * 2 ^ 11
    + b2n prom * 2 ^ 10 + b2n (dedTag i.apdu.inner) * 2 ^ 9 + b2n (i.apdu.sc.getLsbD 5) * 2 ^ 8 + b2n i.polled * 2 ^ 7
    + b2n i.relayed * 2 ^ 5

/-- Alignment of a reading without data. -/
def alignNone : Aligned := ⟨0, false, false, 0xFFFF, false⟩

end Sys2Proof.Machine
end

