-- ==== Sys2Proof/Machine/Commit.lean ====
section
/-!
DEFINITION. Sys2Proof/Machine/Commit.lean: stages 5 to 9 of a reading: rule inputs and verdicts (R136, R142), the counter check,
the commit and the posting (R98 to R113), and the poller's associations (R92).
-/
namespace Sys2Proof.Machine

/-- Local-clock ms of a 64-bit time (R136). -/
def msOf (t : W64) : Int := (t.toNat / 65536) * 1000 + (t.toNat % 65536) * 1000 / 65536

/-- Unsigned sources above 2^63 - 1 load as 2^63 - 1 (R136). -/
def capI (v : Nat) : Int := if 2 ^ 63 ≤ v then 9223372036854775807 else v

/-- An energy register as an input (R136). -/
def energyIn (v : Option Int) : Option Int := v.map fun x => capI x.toNat

/-- A capture time as an input: zero is absent (R136). -/
def captureIn (t : W64) : Option Int := if t = 0 then none else some (msOf t)

/-- What stage 7 knows of one row. -/
structure RowCtx where
  item : RItem
  data : RowData
  /-- Decoded capture time; zero for none. -/
  cap : W64
  flags : Nat
  row : Nat
  record : RecImg
  phase : Nat
  /-- The latest earlier row whose verdict was PASS: import, export, capture (R137). -/
  prev : Option (Option Int × Option Int × Option Int)

/-- The inputs of a program (R136, R137). -/
def ruleInput (s : State) (x : RowCtx) : Inputs := fun sel =>
  let r := x.record
  let heard := fld r 96 8 != 0
  let last (off : Nat) : Option Int := if heard && fld r off 8 != 2 ^ 64 - 1 then some (capI (fld r off 8)) else none
  let imp := energyIn x.data.imp
  let exp := energyIn x.data.exp
  let cap := captureIn x.cap
  let lastCap : Option Int := if heard then some (msOf (BitVec.ofNat 64 (fld r 104 8))) else none
  let pImp := match x.prev with | some (a, _, _) => a | none => last 112
  let pExp := match x.prev with | some (_, a, _) => a | none => last 120
  let pCap := match x.prev with | some (_, _, a) => a | none => lastCap
  let diff (a b : Option Int) : Option Int := match a, b with | some u, some v => some (sat64 (u - v)) | _, _ => none
  match sel with
  | 0x00 => imp
  | 0x01 => exp
  | 0x02 => (demandOf x.data).1
  | 0x03 => (voltageOf x.phase x.data).bind fun v => if v = 0xFFFF then none else some v
  | 0x04 => cap
  | 0x05 => if x.item.tsValid then some (msOf x.item.rxTime) else none
  | 0x06 => some x.item.apdu.ic.toNat
  | 0x07 => some ((x.flags + x.row : Nat) : Int)
  | 0x08 => x.data.ev
  | 0x09 => x.data.time.bind fun t => if t.status = 0xFF#8 then none else some (t.status.toNat : Int)
  | 0x0A => some x.row
  | 0x0B => some (sourceByte x.item)
  | 0x10 => last 112
  | 0x11 => last 120
  | 0x12 => lastCap
  | 0x13 => if heard then some (msOf (BitVec.ofNat 64 (fld r 96 8))) else none
  | 0x14 => some (fld r 10 2)
  | 0x15 => some (fld r 146 1 / 64 : Nat)
  | 0x16 => some (fld r 148 2)
  | 0x17 => if recFlag r 15 then some (fld r 144 2) else none
  | 0x18 => some (fld r 128 4)
  | 0x20 => pImp
  | 0x21 => pExp
  | 0x22 => pCap
  | 0x23 => diff imp pImp
  | 0x24 => diff exp pExp
  | 0x25 => diff cap pCap
  | 0x26 => if islInRun s 16 then some (msOf (rxTime s)) else none
  | n => if 0x30 ≤ n && n ≤ 0x33 then some (sext 64 (fld r (224 + 8 * (n - 0x30)) 8))
    else if 0x34 ≤ n && n ≤ 0x3B then some (sext 32 (fld r (224 + 4 * (n - 0x34)) 4)) else none

/-- What stage 7 decides for a row: the outcome, if it stops here, RULE_CODE, and whether a program's verdict was PASS. -/
structure Ruling where
  oc : Option Nat
  code : Nat
  pass : Bool

/-- Stage 7 on one row (R127 to R130, R140, R142), with the counts. -/
def stage7 (f : Flight) (x : RowCtx) (s : State) : Ruling × State :=
  let n := fld x.record 142 2
  if !isHead s || n = 0 then (⟨none, 0, false⟩, s)
  else match (if 255 < n then none else activeProg s f n) with
    | none =>
      let s := hourEvent 2 n (event (17 + f.cluster) 0x02 n []) (count 0x418 s)
      (⟨if fieldOf s 0x400 0 0 = 1 then some ocHeld else none, 0xFE, false⟩, s)
    | some p =>
      let (v, c) := runProg p (ruleInput s x)
      let s := count 0x410 s
      let s := if (reg s 0x41C).toNat < c then setReg 0x41C (BitVec.ofNat 32 c) s else s
      let upd (g : RuleCounts → RuleCounts) (s : State) : State := countRule f n (fun r => g { r with runs := satAdd r.runs 1 }) s
      match v with
      | .pass => (⟨none, 0, true⟩, upd id s)
      | .flag k => (⟨some ocImplausible, k, false⟩, upd (fun r => { r with flagged := satAdd r.flagged 1 }) s)
      | .hold k => (⟨some ocHeld, k, false⟩, upd (fun r => { r with held := satAdd r.held 1 }) s)
      | .fault i =>
        let s := count 0x414 (upd (fun r => { r with faulted := satAdd r.faulted 1 }) s)
        let s := hourEvent 1 n (event (17 + f.cluster) 0x01 (n * 256 + i) []) s
        let act := if p.override_ = 0 then fieldOf s 0x400 3 2 else p.override_ - 1
        (⟨if act = 0 then some ocHeld else if act = 1 then some ocImplausible else none, 0xFF, false⟩, s)

/-- One committed row: outcome, record bytes, capture and data. -/
structure RowOut where
  oc : Nat
  bytes : List Byte
  capture : W64
  data : RowData
  suspect : Bool
  err : Nat

/-- Alignment of a row that stage 8 has not seen: only stage 6 has touched CLOCK_SUSPECT. -/
def unaligned (i : RItem) (d : RowData) : Aligned := { alignNone with suspect := devSuspect i d }

/-- Stages 7 and 8 on the rows, in row order (R102, R129). A row that stage 7 stops does not reach stage 8 (R95). -/
def runRows (f : Flight) (n : Nat) (flagsBase : Aligned → Nat) (r : RecImg) :
    List RowData → Nat → Option (Option Int × Option Int × Option Int) → State → List RowOut × State
  | [], _, _, s => ([], s)
  | d :: t, k, prev, s =>
    let phase := fld r 146 1 / 64
    let ev := b2n d.ev.isSome * 2 ^ 6
    let cap := capTime s d
    let (v, s) := stage7 f ⟨f.item, d, cap, flagsBase (unaligned f.item d) + ev, k, r, phase, prev⟩ s
    let a := if v.oc.isSome then unaligned f.item d else align s f.item d
    let oc := match v.oc with | some o => o | none => if a.late then ocLate else ocAccepted
    let prev' := if v.pass then some (energyIn d.imp, energyIn d.exp, captureIn cap) else prev
    let (rest, s) := runRows f n flagsBase r t (k + 1) prev' s
    (⟨oc, readingRecord f.item oc n k (flagsBase a + ev) a d phase v.code, a.capture, d, a.suspect, a.err⟩ :: rest, s)

/-- Distinct outcomes among rows. -/
def outcomesOf (l : List RowOut) : List Nat := (List.range 9).filter fun o => l.any (fun r => r.oc == o)

/-- Promote the pending keys in a slot (R70). -/
def promote (v : Slot) : Slot :=
  let img := setFld (setFld v.img 30 1 v.keys.pendGen.toNat) 31 1 0
  let img := setFlag (setFlag img 13 false) 12 false
  { v with img := setFld img 88 8 0, keys := ⟨v.keys.pendEk, v.keys.pendAk, noWrap, noWrap, 0⟩ }

/-- Does the unit append archived outcomes now (R109)? A HEAD unit does; a FIELD unit while its uplink takes no relay entries. -/
def archives (s : State) : Bool := isHead s || (isField s && !uplinkTakes s)

/-- The postings of a committed reading are journalled with it, under their numbers (R108, R362); a FIELD unit relays instead. -/
def readingPosts (bucket : Nat) (seq : W32) : List (Nat × List Byte) → State → List Nat × State
  | [], s => ([], s)
  | r :: t, s =>
    if !isHead s || !posted s r.1 then readingPosts bucket seq t s
    else
      let (n, s) := reservePost ⟨bucket, .reading seq r.2⟩ s
      let (l, s) := readingPosts bucket seq t s
      (n :: l, s)

/-- The commit (R108, R111, R113, R141): the record write, journal, archive; the reading then waits for its posting. -/
def commit (f : Flight) (n : Nat) (rows : List RowOut) (adv : Option (Nat × Nat)) (windowed : Bool) (s : State) : State :=
  let v := slotOf s n
  let v := if f.promoted && adv.isSome then promote v else v
  let r0 := v.img
  let r := match adv with | some (last, map) => setFld (setIc r0 last) 88 8 map | none => r0
  let acc := (rows.filter (fun x => x.oc == ocAccepted)).getLast?
  let r := match acc with
    | some x => if windowed then r else
        let r := setFld (setFld r 96 8 (if f.item.tsValid then f.item.rxTime.toNat else 0)) 104 8 x.capture.toNat
        setFld (setFld r 112 8 ((x.data.imp.map Int.toNat).getD (2 ^ 64 - 1))) 120 8 ((x.data.exp.map Int.toNat).getD (2 ^ 64 - 1))
    | none => r
  let r := if acc.isSome && recState r = 1 then setFld r 8 1 2 else r
  let codes := (s.boot.bundle.map (·.tamperCodes)).getD []
  let r := if rows.any (fun x => x.oc != ocMalformed && (match x.data.ev with | some e => codes.contains (BitVec.ofInt 16 e) | none => false))
    then setFlag r 11 true else r
  let r := (outcomesOf rows).foldl (fun r o => match recCounter o with | some (off, len) => satFld r off len 1 | none => r) r
  let s := icEvent n v.img r (writeSlot n { v with img := r } s)
  let s := rows.foldl (fun t x => countOutcome x.oc 1 (if x.suspect then count 0x354 t else t)) s
  let s := if windowed then countBy 0x350 (rows.filter (fun x => x.oc == ocAccepted)).length s else s
  let s := rows.foldl (fun t x => if archived x.oc && archives t then archiveReading x.bytes t else t) s
  let s := if isHead s && rows.any (fun x => x.oc == ocAccepted && lateForRun s x.capture) then count 0x54C s else s
  let s := rows.foldl (fun t x => if x.oc = ocAccepted && isHead t then balanceReading n x.capture x.data.imp x.data.exp (voltageOf (fld r 146 1 / 64) x.data) x.data.ev x.err t else t) s
  let s := if acc.isSome then proofCount (rows.filter (fun x => x.oc == ocAccepted)).length s else s
  let (posts, s) := readingPosts f.bucket (recSeq (imgOf s n)) (rows.map fun x => (x.oc, x.bytes)) s
  putFlight { f with stage := .committed, slot := some n, outcome := some ((rows.head?.map (·.oc)).getD 0), posts := posts,
                     records := rows.map (fun x => (x.oc, x.bytes)), recSeq := recSeq (imgOf s n), batch := journalMark s } s

/-- A row without data, for an outcome decided before stage 7: AUTH_FAIL, MALFORMED, DUPLICATE, REPLAYED (R103, R111). -/
def plainRow (f : Flight) (n : Option Nat) (oc : Nat) (windowed : Bool) (k : Nat) : RowOut :=
  ⟨oc, readingRecord f.item oc (n.getD 0x3FFFFF) k (recordFlags f.item alignNone windowed f.sigOk f.promoted) alignNone rowEmpty 0 0, 0, rowEmpty, false, 0xFFFF⟩

/-- Rows that the unit knows of a reading that ends before stage 7: those of an APDU that stage 4 has passed, as far as ROW can number
them; one of an APDU it could not read (R102, R113; DEDUCED, log entry 82). -/
def knownRows (f : Flight) : Nat := if f.outcome.isSome then 1 else max 1 (min 32 f.item.apdu.rows.length)

/-- The records of a reading that ends before stage 7, one per row. -/
def plainRows (f : Flight) (n : Option Nat) (oc : Nat) (windowed : Bool) : List RowOut :=
  (List.range (knownRows f)).map (plainRow f n oc windowed)

/-- Is the record's second key set still pending (R70)? -/
def pendValid (r : RecImg) : Bool := fld r 31 1 / 128 = 1

/-- TIM has failed when a reading reaches stage 8: TS_VALID is 0 (R120). -/
def stampAt8 (s : State) (f : Flight) : Flight := if islInRun s 16 then f else { f with item := { f.item with tsValid := false } }

/-- A SUSPENDED slot's reading (R96): CNT_MALFORMED and RECORD_SEQ, journalled; nothing archived or posted. -/
def commitSuspended (f : Flight) (n : Nat) (s : State) : State :=
  let s := countOutcome ocUnknown 1 (writeRec n (fun r => satFld r 140 2 1) s)
  putFlight { f with stage := .committed, records := [], batch := journalMark s } s

/-- COUNTER_CHECK (R98, R99): once no earlier reading of the meter is in flight uncommitted, stages 5 to 9 run. A reading whose keys an
earlier reading has promoted since stage 4 is checked against that reading's counter (R120); one that reaches stage 7 waits there for a
mark (R144). -/
def counterCheck (id : Nat) (s : State) : State :=
  match s.pipe.flight.find? (fun f => f.id == id) with
  | none => s
  | some f =>
    if f.stage != .verified || s.pipe.flight.any (fun g => g.id < id && g.slot == f.slot && g.slot.isSome && g.stage != .committed)
      || !islRun s (17 + f.cluster) then s
    else match f.outcome, f.slot with
      | some oc, none =>
        let rows := plainRows f none oc false
        let s := rows.foldl (fun t x => countOutcome x.oc 1 (if archived x.oc && archives t then archiveReading x.bytes t else t)) s
        let (posts, s) := readingPosts f.bucket 0 (rows.map fun x => (x.oc, x.bytes)) s
        putFlight { f with stage := .committed, records := rows.map (fun x => (x.oc, x.bytes)), posts := posts, batch := journalMark s } s
      | some oc, some n => if f.suspended then commitSuspended f n s else commit f n (plainRows f (some n) oc false) none false s
      | none, some n =>
        let r := imgOf s n
        let f := { f with promoted := f.promoted && pendValid r }
        let w := if overRadio f.item && 1 ≤ fld r 84 1 && fld r 84 1 ≤ 64 then fld r 84 1 else 0
        let res := if f.promoted then Replay.pass f.item.apdu.ic.toNat 0 false
          else replay f.item.apdu.ic.toNat (fld r 80 4) w (fld r 88 8)
        match res with
        | .stop oc => commit f n (plainRows f (some n) oc false) none false s
        | .pass last map windowed =>
          let bad (s : State) : State := commit f n (plainRows f (some n) ocMalformed windowed) (some (last, map)) windowed s
          match decodeRows s f.item with
          | none => bad s
          | some ds =>
            if ds.any (fun d => !(demandOf d).2) then bad s
            else if markHolds s f then s
            else
              let f := stampAt8 s f
              let fb (a : Aligned) : Nat := recordFlags f.item a windowed f.sigOk f.promoted
              let (rows, s) := runRows f n fb r ds 0 none s
              commit f n rows (some (last, map)) windowed s
      | none, none => s

/-- The READING entry of a flight (R93, R311): the session key that stage 3 took travels under the newest TKEK, as zeros where its
association had ended. -/
def relayItem (s : State) (f : Flight) : RItem :=
  let i := f.item
  let ded := dedTag i.apdu.inner
  let wrap : Wrapped := match f.sesKey with | some k => rewrap s k | none => noWrap
  { i with relayed := true, orig := i.src, sender := ownService s, reqTime := if i.polled then i.reqTime else 0, ded := ded,
           session := wrap, kekVer := if f.sesKey.isSome then (newestTkek s).1 else 0, fieldOutcome := f.outcome.getD ocUnknown, ref := 0 }

/-- Readings that have not been posted: in flight, or kept for CTL to post. -/
def unposted (s : State) : List Flight := s.pipe.flight ++ s.pipe.orphans

/-- Has an earlier reading of the meter been committed and not yet posted (R114)? -/
def postsBefore (s : State) (f : Flight) : Bool :=
  f.slot.isSome && (unposted s).any fun g => g.slot == f.slot && decide (g.id < f.id) && g.stage == .committed

/-- READING_POSTING (R108, R114): once the standby has acknowledged the journal batch and the meter's earlier readings are posted, the
posting is queued and the token returns. -/
def readingPosting (id : Nat) (s : State) : State :=
  match (unposted s).find? (fun f => f.id == id) with
  | none => s
  | some f =>
    if f.stage != .committed || !journalAcked f.batch s || postsBefore s f then s
    else
      let out := f.records.filter fun p => posted s p.1
      if !out.isEmpty && ((isField s && relayBlocked s) || (isHead s && readingBlocked f.bucket s)) then s
      else
        let s := relayResult f.item.ref (f.outcome.getD ocUnknown) s
        if isHead s then finishFlight id ((out.zip f.posts).foldl (fun t p => makePost p.2 false ⟨f.bucket, .reading f.recSeq p.1.2⟩ t) s)
        else finishFlight id (if out.isEmpty then s else sendEntry headUnit (.reading (relayItem s f)) s)

/-! ## Intake -/

/-- A reading arrives at intake queue `q` (R83 to R87, R115): a unit without dispatch as a standby discards it; it takes
1 + ceil(L / 128) items. -/
def intake (q : Nat) (i : RItem) (s : State) : State :=
  if 2048 < i.apdu.length then s
  else if isStandby s then count 0x344 s
  else
    let s := queueRoom q (itemCount i) 1024 s
    intakeWrite q (itemCount i) { s with pipe := { s.pipe with iq := Kv.put q (s.pipe.iq.getD q [] ++ [i]) s.pipe.iq } }

/-! ## The poller -/

/-- SESSION_EXPIRY (R92): an association ends. -/
def sessionExpiry (k : Nat) (s : State) : State := { s with pipe := { s.pipe with sessions := Kv.del k s.pipe.sessions } }

/-- The lowest free session slot of the 256. -/
def freeSession (s : State) : Option Nat := (List.range 256).find? fun k => (Kv.get? k s.pipe.sessions).isNone

/-- POLL_ISSUE (R92, R121, R520): the GET of a poll entry to one ACTIVE meter that the FIELD unit serves; none while the
meter's intake queue pushes back (R116). With POLL_CLOCK the GET adds the meter clock. -/
def pollIssue (entry slot : Nat) (s : State) : State :=
  let r := imgOf s slot
  match ((s.boot.bundle.map (·.polls)).getD []).find? (fun p => p.entry == entry) with
  | none => s
  | some p =>
    let link := fld r 9 1
    let q := link % 8
    if !isField s || !serving s || recState r != 2 || 128 ≤ link || iqPaused q s then s
    else match freeSession s with
      | none => s
      | some k =>
        let (d, s) := draw s
        let (d2, s) := draw s
        let key : Key := BitVec.ofNat 128 (d.toNat * 2 ^ 64 + d2.toNat)
        accessUnicast q (recTitle r) (.get (recTitle r) p.attrs (fieldOf s 0x300 2 2 = 1) k key)
          { s with pipe := { s.pipe with sessions := Kv.put k ⟨slot, key, entry, s.tim.raw, rxTime s⟩ s.pipe.sessions } }

/-- KEY_SIGNER_LOAD (R94): for a slot in service; CURVE 0 clears, 1 is P-256 and 2 is P-384. -/
def keySignerLoad (slot curve : Nat) (key : BitVec 768) (s : State) : State × Reply :=
  let st := recState (imgOf s slot)
  if slot ≥ tblSize s || st = 0 || st = 4 || 2 < curve || !isHead s then (s, .bad)
  else
    let m := if curve = 0 then Kv.del slot s.sec.signers else Kv.put slot ⟨curve, key⟩ s.sec.signers
    (journal (.signer slot (Kv.get? slot m)) { s with sec := { s.sec with signers := m } }, .done)

end Sys2Proof.Machine
end

