-- ==== Sys2Proof/Machine/Plc.lean ====
section
/-!
DEFINITION. Sys2Proof/Machine/Plc.lean: the power-line instances (chapter 07): received frames, joins, routes, retries, zero crossing,
fingerprints and the line driver (R230 to R252).
-/
namespace Sys2Proof.Machine

/-! ## Carriers and tone maps (R230, R232, R239) -/

/-- Carriers of the band that the mask leaves. -/
def plcMaskCount (s : State) (n : Nat) : Nat := ((List.range (plcCarriers s n)).filter (plcUnmasked s n)).length

/-- SNR of each carrier as stored: 0 to 255 in 0.25 dB, 0 where masked (R232, R248). -/
def plcSnr (s : State) (n : Nat) (l : List Int) : List Nat :=
  (List.range (plcCarriers s n)).map fun c => if plcUnmasked s n c then (clampI 0 255 (l.getD c 0)).toNat else 0

/-- The tone map that an SNR gives, in 0.25 dB (R239): groups used by the mean of their unmasked carriers, and the level by the lowest SNR
among used carriers. -/
def plcToneMap (s : State) (n : Nat) (snr : List Int) : List Bool × PlcMod :=
  let per := plcGroup s n
  let db := fieldOf s (plcBase n + 8) 15 8
  let dq := max db (fieldOf s (plcBase n + 8) 23 16)
  let d8 := max dq (fieldOf s (plcBase n + 8) 31 24)
  let group (g : Nat) : List Nat := ((List.range per).map (g * per + ·)).filter (plcUnmasked s n)
  let used (g : Nat) : Bool :=
    let cs := group g
    !cs.isEmpty && decide ((db * cs.length : Nat) ≤ cs.foldl (fun a c => a + snr.getD c 0) (0 : Int))
  let groups := (List.range (plcCarriers s n / per)).map used
  let vals := ((List.range (plcCarriers s n / per)).filter used).flatMap fun g => (group g).map fun c => snr.getD c 0
  match vals with
  | [] => (groups, .robo)
  | v :: t =>
    let m := t.foldl min v
    (groups, if d8 ≤ m then .d8psk else if dq ≤ m then .dqpsk else if db ≤ m then .dbpsk else .robo)

/-- The neighbour longest unheard that is the next hop of no route (R238). -/
def plcVictim (p : PlcState) : Option Nat :=
  (p.neigh.foldl (fun (m : Option (Nat × Nat)) x =>
    if p.routes.any (fun r => r.2.next = x.1) then m
    else match m with
      | some (_, h) => if x.2.heard < h then some (x.1, x.2.heard) else m
      | none => some (x.1, x.2.heard)) none).map (·.1)

/-- A frame that passes makes its sender a neighbour heard now (R238); a clean one gives its tone map (R239, R242). -/
def plcNeighbour (n src : Nat) (snr : Option (List Int)) (s : State) : State :=
  let map := snr.map (plcToneMap s n)
  setPlc n (fun p =>
    let old := Kv.get? src p.neigh
    let room := old.isSome || p.neigh.length < 256
    let nb := if room then some p.neigh else (plcVictim p).map fun v => Kv.del v p.neigh
    match nb with
    | none => p
    | some m =>
      let x := old.getD ⟨0, [], .robo, none, none, [], .robo⟩
      let x := match map with | some (g, l) => { x with rxGroups := g, rxLevel := l } | none => x
      { p with neigh := Kv.put src { x with heard := s.tim.clk } m }) s

/-- A clean frame updates its sender's fingerprint (R248). -/
def plcFingerprint (n src : Nat) (snr : List Nat) (s : State) : State :=
  match Kv.get? src (plcOf s n).ends with
  | none => s
  | some e =>
    let sh := fieldOf s (plcBase n + 0x1C) 31 28
    let f := ((plcOf s n).fps).getD e.title.toNat ⟨[], 0, none⟩
    let step (p : Nat × Nat) : Nat :=
      ((p.1 : Int) + Int.tdiv ((p.2 * 256 : Nat) - (p.1 : Int)) (2 ^ sh : Nat)).toNat
    let acc := if f.frames = 0 || f.acc.length != snr.length then snr.map (· * 256) else (f.acc.zip snr).map step
    plcCount n 0x8C (setPlc n (fun p => { p with fps := Kv.put e.title.toNat { f with acc := acc, frames := min 65535 (f.frames + 1) } p.fps }) s)

/-- The zero-crossing offset of a clean data frame, from the last edge before it, rounded to 0.1° (R246). -/
def plcOffset (n : Nat) (f : PlcFrame) (s : State) : State :=
  let p := plcOf s n
  let ph := fieldOf s (plcBase n + 0x10) 1 0
  match p.zcEdges.find? (· ≤ f.start), Kv.get? f.src p.ends with
  | some e, some x =>
    if p.zcLost || ph = 0 || p.period = 0 then s
    else
      let num : Int := ((f.start : Int) - e - f.tPeer) * 3600
      let q := ((2 * num + p.period) / (2 * (p.period : Int))) % 3600
      setPlc n (fun p => { p with ends := Kv.put f.src { x with zc := some ⟨x.title, ph, n, q.toNat, p.period, f.rxTime⟩ } p.ends }) s
  | _, _ => s

/-! ## Joins (R234 to R236) -/

/-- The GMK, drawn when the PAN has none. -/
def plcGmk (n : Nat) (s : State) : State :=
  if (plcOf s n).gmk.isSome then s
  else
    let (a, s) := draw s
    let (b, s) := draw s
    setPlc n (fun p => { p with gmk := some (BitVec.ofNat 128 (a.toNat * 2 ^ 64 + b.toNat)) }) s

/-- The lowest free short address. -/
def freeShort {α : Type} (m : Kv α) : Option Nat := (List.range 0x7FFF).map (· + 1) |>.find? fun k => (Kv.get? k m).isNone

/-- The group master keys an endpoint is given, with their indices: while a rotation goes on both (R252). -/
def plcKeys (p : PlcState) : List (Nat × Key) :=
  (p.gmk.map fun k => (p.gmkIdx, k)).toList ++ (p.gmkOld.map fun k => (1 - p.gmkIdx, k)).toList

/-- The end of a bootstrap that came through neighbour `hop` (R234 to R236). -/
def plcBootstrap (n hop idLen : Nat) (title eui : W64) (k : Key) (s : State) : State :=
  if idLen != 8 || s.sec.bootKey != some k then plcDirect n hop .eapFailure (plcCount n 0x7C s)
  else
    let p := plcOf s n
    let own := plcShort p title
    if own.isNone && min 2048 (fieldOf s (plcBase n + 0x20) 11 0) ≤ p.ends.length then
      let s := plcCount n 0x80 (setPlc n (fun p => { p with refused := p.refused + 1 }) s)
      let s := hourEvent 3 n (fun t => setPlc n (fun p => { p with refused := 0 }) (event (5 + n) 0x03 (min (plcOf t n).refused 0xFFFFFFFF) [] t)) s
      plcDirect n hop .eapFailure s
    else match (match own with | some k => some k | none => freeShort p.ends) with
      | none => s
      | some k =>
        let s := plcGmk n s
        let old := Kv.get? k p.ends
        let e : PlcEnd := match old with
          | some e => { e with eui := eui, heard := s.tim.clk }
          | none => ⟨title, eui, s.tim.clk, none, none⟩
        let s := setPlc n (fun p => { p with ends := Kv.put k e p.ends }) s
        let s := plcDirect n hop (.joined k [] (plcKeys (plcOf s n))) (plcCount n 0x78 s)
        linkJoin title (BitVec.ofNat 8 n) (BitVec.ofNat 16 k) eui s

/-! ## Routes (R230, R237; what G.9903 leaves to LOADng is log entry 133) -/

/-- The cost of a link to a neighbour: G.9903's defaults, which the spec does not repeat, are a free value of the level in force. -/
def plcLinkCost (p : PlcState) (hop : Nat) : Nat := (Config.unstated 237 (plcRank (plcLevel p hop))).toNat % 256

/-- Is a neighbour on the blacklist, for ten minutes after it came on it? -/
def plcBlack (s : State) (n hop : Nat) : Bool :=
  match Kv.get? hop (plcOf s n).black with | some t => decide (s.tim.clk < t + 600 * secClk) | none => false

/-- Enter a route; a full table gives up the route that has gone longest unused (R237). -/
def plcRoute (n dest next cost : Nat) (s : State) : State :=
  setPlc n (fun p =>
    let full := 2048 ≤ p.routes.length && (Kv.get? dest p.routes).isNone
    let old := p.routes.foldl (fun (m : Option (Nat × Nat)) r => match m with
      | some (_, u) => if r.2.used < u then some (r.1, r.2.used) else m | none => some (r.1, r.2.used)) none
    let rs := if full then (match old with | some (k, _) => Kv.del k p.routes | none => p.routes) else p.routes
    { p with routes := Kv.put dest ⟨next, s.tim.clk, cost⟩ rs }) s

/-- A route request from neighbour `hop`: it gives a route to its originator; the unit answers one for itself, and sends others on. -/
def plcRreq (n hop orig dest seq cost hops : Nat) (s : State) : State :=
  let p := plcOf s n
  let c := cost + plcLinkCost p hop
  let known := match Kv.get? orig p.seen with | some (q, k) => q = seq && k ≤ c | none => false
  if orig = 0 || plcBlack s n hop || known then s
  else
    let s := setPlc n (fun p => { p with seen := Kv.put orig (seq, c) p.seen }) s
    let s := match Kv.get? orig p.routes with
      | some r => if r.cost < c then s else plcRoute n orig hop c s
      | none => plcRoute n orig hop c s
    if dest = 0 then plcDirect n hop (.rrep orig 0 0) s
    else if 1 < hops && plcRreqMay s n then plcRreqSend n (.rreq orig dest seq c (hops - 1)) s
    else s

/-- A route reply from neighbour `hop`: it gives a route to `dest`, ends the discovery the unit made, and is sent on to another's originator;
frames queued for the destination go. A later reply counts only if its route costs less. -/
def plcRrep (n hop orig dest cost : Nat) (s : State) : State :=
  let p := plcOf s n
  let c := cost + plcLinkCost p hop
  let worse := match Kv.get? dest p.routes with | some r => decide (r.cost ≤ c) | none => false
  if worse then s
  else
    let s := plcRoute n dest hop c s
    if orig != 0 then plcUnicast n orig (.rrep orig dest c) s
    else
      let s := setPlc n (fun p => { p with discover := p.discover.filter fun d => d.dest != dest }) s
      let go := (plcOf s n).queued.filter (·.dest = dest)
      let s := setPlc n (fun p => { p with queued := p.queued.filter (·.dest != dest) }) s
      go.foldl (fun t x => plcUnicast n dest x.pay t) s

/-! ## Received frames (R242) -/

/-- A UDP datagram from an endpoint (R231). A unit that does not serve takes no campaign frame, and its intake discards the reading. -/
def plcUdp (n : Nat) (f : PlcFrame) (u : UdpPay) (s : State) : State :=
  let e := Kv.get? f.orig (plcOf s n).ends
  match u with
  | .dlms a => intake n (accessItem n (e.map (·.title)) f.rxTime a s) s
  | .camp c => if !serving s then s else match e with
    | some e => campFrameRx e.title c s
    | none => count 0x62C s
  | .relay | .otherPort => plcCount n 0x5C s

/-- Is the frame data for the unit, which push-back withholds (R243)? -/
def plcIsData : PlcBody → Bool
  | .datagram _ | .fragment .. => true
  | _ => false

/-- A datagram or a fragment of one (R244). -/
def plcData (n : Nat) (f : PlcFrame) (s : State) : State :=
  match f.body with
  | .datagram u => plcUdp n f u s
  | .fragment tag first last =>
    let key := (f.orig, tag)
    let p := plcOf s n
    let s := if p.reasm.contains key then s
      else if first then
        if p.reasm.length < 32 then setPlc n (fun p => { p with reasm := p.reasm ++ [key] }) s else plcCount n 0x60 s
      else s
    match last with
    | some u => if (plcOf s n).reasm.contains key then plcUdp n f u (setPlc n (fun p => { p with reasm := p.reasm.filter (· != key) }) s) else s
    | none => s
  | _ => s

/-- The tone map computed from a neighbour's frames goes to it (R239). -/
def plcAnswerMap (n hop : Nat) (s : State) : State :=
  match Kv.get? hop (plcOf s n).neigh with
  | some x => plcDirect n hop (.tmap x.rxGroups x.rxLevel) s
  | none => s

/-- The body of an accepted frame at a unit that serves. -/
def plcBody (n : Nat) (f : PlcFrame) (s : State) : State :=
  match f.body with
  | .datagram _ | .fragment .. => if f.final != 0 then plcUnicast n f.final (.forward f.orig f.final f.body) s else plcData n f s
  | .ack =>
    match (plcOf s n).awaiting.find? (fun t => plcTxHop (plcOf s n) t == some f.src) with
    | some t => setPlc n (fun p => { p with awaiting := p.awaiting.filter fun x => x.id != t.id }) s
    | none => s
  | .tmapRequest => plcAnswerMap n f.src s
  | .tmapResponse g l =>
    setPlc n (fun p => { p with
      awaiting := p.awaiting.map (fun t => if plcTxHop p t == some f.src then { t with fresh := true } else t),
      neigh := match Kv.get? f.src p.neigh with
        | some x => Kv.put f.src { x with groups := g, level := l, mapAt := some s.tim.clk, down := none } p.neigh
        | none => p.neigh }) s
  | .rreq orig dest seq cost hops => plcRreq n f.src orig dest seq cost hops s
  | .rrep orig dest cost => plcRrep n f.src orig dest cost s
  | .rerr dest => plcDiscover n dest (setPlc n (fun p => { p with routes := Kv.del dest p.routes }) s)
  | .rlcRequest => plcDirect n f.src (.rlcReply (plcLinkCost (plcOf s n) f.src)) s
  | .beaconRequest => plcEmit n none none .robo (.beacon (fieldOf s (plcBase n) 15 0)) s
  | .bootstrap l t e k => plcBootstrap n f.src l t e k s
  | .rlcReply _ | .otherAdapt => s

/-- Symbols erased: the peak exceeds the noise floor by IMP_THRESH (R242). -/
def plcErased (s : State) (n : Nat) (f : PlcFrame) : List Int :=
  f.peaks.filter fun x => decide ((plcOf s n).noise + fieldOf s (plcBase n + 0xC) 31 24 ≤ x)

/-- What a frame without an erased symbol gives: tone map, fingerprint and offset of its sender (R239, R242, R246, R248). -/
def plcClean (n : Nat) (f : PlcFrame) (s : State) : State :=
  let s := plcNeighbour n f.src (some ((List.range (plcCarriers s n)).map fun c => f.snr.getD c 0)) s
  let s := match f.body with | .ack => s | _ => plcFingerprint n f.src (plcSnr s n f.snr) s
  if plcIsData f.body then plcOffset n f s else s

/-- PLC_FRAME_RX (R242, R243): the first row that matches decides. A unit that does not serve counts the frame and its intake
discards the reading (R86, R250). -/
def plcFrameRx (n : Nat) (f : PlcFrame) (s : State) : State :=
  if !islRun s (5 + n) then s
  else if !f.fchOk then plcCount n 0x48 s
  else
    let erased := (plcErased s n f).length
    let thresh := (plcOf s n).noise + fieldOf s (plcBase n + 0xC) 31 24
    let s := setPlc n (fun p => { p with noise := Config.noiseFloor p.noise (f.peaks.filter (· < thresh)) }) s
    let s := if erased = 0 then s else plcCountBy n 0x50 erased s
    let lbp := match f.body with | .bootstrap .. | .beaconRequest => true | _ => false
    let p := plcOf s n
    let keyOk := (p.gmk == some f.key || p.gmkOld == some f.key) && f.secOk &&
      (match Kv.get? f.src p.rxCtr with | some c => decide (c.toNat < f.counter.toNat) | none => true)
    if f.peaks.length * fieldOf s (plcBase n + 0xC) 23 16 < erased * 100 || !f.fcsOk then plcCount n 0x44 s
    else if f.unsupported then plcCount n 0x58 s
    else if !lbp && !keyOk then plcCount n 0x54 s
    else
      let clean := erased = 0 && !lbp
      if plcIsData f.body && f.final = 0 && f.unicast && serving s && iqPaused n s then
        plcCount n 0x74 (if clean then plcJournal n (plcClean n f s) else s)
      else
        let s := plcCount n 0x40 (if erased = 0 then s else plcCount n 0x4C s)
        if !serving s then (if f.final = 0 then plcData n f s else s)
        else
          let heard (k : Nat) (m : Kv PlcEnd) : Kv PlcEnd := match Kv.get? k m with | some e => Kv.put k { e with heard := s.tim.clk } m | none => m
          let s := setPlc n (fun p => { p with rxCtr := if lbp then p.rxCtr else Kv.put f.src f.counter p.rxCtr,
                                               ends := heard f.orig (heard f.src p.ends) }) s
          let s := if lbp then s else if clean then plcClean n f s else plcNeighbour n f.src none s
          let ack := match f.body with | .ack => true | _ => false
          let s := if f.unicast && !ack && plcReady s n then emit (.plcAck n f.src) s else s
          let s := if f.ask && f.unicast then plcAnswerMap n f.src s else s
          plcJournal n (plcBody n f s)

/-! ## Timers and pins -/

/-- PLC_ACK_TIMEOUT (R240, R252): a retry one level down, never above the level in force, or with the map that has come since; else
transmit failure. -/
def plcAckTimeout (n id : Nat) (s : State) : State :=
  match (plcOf s n).awaiting.find? (fun t => t.id == id) with
  | none => s
  | some t =>
    let s := plcCount n 0x68 s
    let p := plcOf s n
    if t.tries < fieldOf s (plcBase n + 4) 2 0 then
      let hop := (plcTxHop p t).getD t.dest
      let nb := Kv.get? hop p.neigh
      let low := plcDown t.level
      let l := if t.fresh then plcLevel p hop else match nb.bind (·.down) with
        | some d => if plcRank low < plcRank d then d else low
        | none => low
      let s := if !t.fresh && l != t.level then plcCount n 0x6C s else s
      let s := setPlc n (fun p => { p with
        awaiting := p.awaiting.map fun x => if x.id == id then { x with tries := x.tries + 1, level := l, fresh := false } else x,
        neigh := match nb with | some x => Kv.put hop (if t.fresh then x else { x with down := some l }) p.neigh | none => p.neigh }) s
      plcJournal n (plcEmit n (some hop) (some t.dest) l t.pay s)
    else plcJournal n (plcFail n t (setPlc n (fun p => { p with awaiting := p.awaiting.filter fun x => x.id != id }) s))

/-- ROUTE_TTL_EXPIRY (R237): a route unused for ROUTE_TTL_MIN minutes goes. -/
def routeTtlExpiry (n dest : Nat) (s : State) : State :=
  match Kv.get? dest (plcOf s n).routes with
  | none => s
  | some r =>
    if s.tim.clk < r.used + fieldOf s (plcBase n + 0x18) 31 16 * 60 * secClk then s
    else plcJournal n (setPlc n (fun p => { p with routes := Kv.del dest p.routes }) s)

/-- A discovery ends without a reply (R237). -/
def plcNoReply (n dest : Nat) (s : State) : State :=
  let d := (plcOf s n).discover.find? fun d => d.dest = dest
  let s := setPlc n (fun p => { p with discover := p.discover.filter fun d => d.dest != dest }) s
  match d with
  | some x => if x.sent then plcCount n 0x88 s else s
  | none => s

/-- ROUTE_WAIT_EXPIRY (R237): the queued frame ends in transmit failure, and its discovery without a reply; a discovery that no frame waits
for ends by its own number. -/
def routeWaitExpiry (n id : Nat) (s : State) : State :=
  match (plcOf s n).queued.find? (fun t => t.id == id) with
  | some t =>
    plcJournal n (plcFail n t (plcNoReply n t.dest (setPlc n (fun p => { p with queued := p.queued.filter (fun x => x.id != id) }) s)))
  | none => match (plcOf s n).discover.find? (fun d => d.id == id) with
    | some d => plcNoReply n d.dest s
    | none => s

/-- Is the short address of an endpoint still needed: its record is ACTIVE in the table (R235)? -/
def recordActive (s : State) (title : W64) : Bool := match idxFind s title with | some k => recState (imgOf s k) = 2 | none => false

/-- SHORT_HOLD_EXPIRY on PLC (R235): unheard for SHORT_HOLD hours, and its record not ACTIVE. -/
def plcShortExpiry (n short : Nat) (s : State) : State :=
  match Kv.get? short (plcOf s n).ends with
  | none => s
  | some e =>
    if recordActive s e.title || s.tim.clk < e.heard + fieldOf s (plcBase n + 0x20) 31 16 * 3600 * secClk then s
    else plcJournal n (setPlc n (fun p => { p with ends := Kv.del short p.ends }) s)

/-- ZC_REPORT_SEND (R247, R252): at most one in ZC_REPORT_S seconds, and none while ZC_LOST is set. -/
def zcReportSend (n short : Nat) (s : State) : State :=
  match Kv.get? short (plcOf s n).ends with
  | none => s
  | some e => match e.zc with
    | none => s
    | some r =>
      let early := match e.zcSent with | some t => decide (unitSec s < t + fieldOf s (plcBase n + 0x10) 31 16) | none => false
      if !isField s || !serving s || (plcOf s n).zcLost || early then s
      else sendEntry headUnit (.zc r) (setPlc n (fun p => { p with ends := Kv.put short { e with zcSent := some (unitSec s) } p.ends }) s)

/-- FP_REPORT_SEND (R249): once FP_MIN_FRAMES frames have been counted, at most one in FP_REPORT_H hours. -/
def fpReportSend (n short : Nat) (s : State) : State :=
  match Kv.get? short (plcOf s n).ends with
  | none => s
  | some e =>
    let f := ((plcOf s n).fps).getD e.title.toNat ⟨[], 0, none⟩
    let early := match f.sent with | some t => decide (unitSec s < t + fieldOf s (plcBase n + 0x1C) 15 0 * 3600) | none => false
    if !isField s || !serving s || f.frames < fieldOf s (plcBase n + 0x1C) 23 16 || early then s
    else sendEntry headUnit (.fp ⟨e.title, plcFcc s n, n, f.frames, f.acc.map (· / 256)⟩)
      (setPlc n (fun p => { p with fps := Kv.put e.title.toNat { f with sent := some (unitSec s) } p.fps }) s)

/-- Set ZC_LOST, with its event at each setting (R245). -/
def setZcLost (n : Nat) (s : State) : State :=
  if (plcOf s n).zcLost then setPlc n (fun p => { p with inRange := 0 }) s
  else event (5 + n) 0x04 ((plcOf s n).period / 1000 % 65536) [] (setPlc n (fun p => { p with zcLost := true, inRange := 0 }) s)

/-- ZC_EDGE at raw time `t` (R245): the last 128 edges are kept, more than a frame lasts; the period, ZC_LOST when it leaves range, and its end after 16 periods in range. -/
def zcEdge (n t : Nat) (s : State) : State :=
  if !islRun s (5 + n) then s
  else match (plcOf s n).zcEdges with
    | [] => setPlc n (fun p => { p with zcEdges := [t] }) s
    | e :: l =>
      let per := t - e
      let s := setPlc n (fun p => { p with zcEdges := t :: e :: (l.take 126), period := per }) s
      if per < 15385000 || 22222000 < per then setZcLost n s
      else
        let k := (plcOf s n).inRange + 1
        setPlc n (fun p => { p with inRange := min 16 k, zcLost := p.zcLost && decide (k < 16) }) s

/-- ZC_LOST (R245): no edge for 100 ms. -/
def zcLostTimer (n : Nat) (s : State) : State := if islRun s (5 + n) then setZcLost n (setPlc n (fun p => { p with zcEdges := [] }) s) else s

/-- LD_FAULT_FALL (R233). -/
def ldFaultFall (n : Nat) (s : State) : State :=
  let s := setPlc n (fun p => { p with ldPin := false, ldWait := false }) s
  if islRun s (5 + n) then event (5 + n) 0x02 0 [] s else s

/-- LD_FAULT_PIN_RISE (R233): the 1 s wait begins. -/
def ldFaultRise (n : Nat) (s : State) : State :=
  if (plcOf s n).ldPin then s else setPlc n (fun p => { p with ldPin := true, ldWait := true, ldAt := s.tim.raw }) s

/-- LD_FAULT_RESUME (R233): 1 s is over, after a driver fault or after a module came back (R464). -/
def ldFaultResume (n : Nat) (s : State) : State :=
  let past (t : Nat) : Bool := decide (t + 1000000000 ≤ s.tim.raw)
  setPlc n (fun p => { p with ldWait := p.ldWait && !(p.ldPin && past p.ldAt), modWait := p.modWait && !past p.modAt }) s

/-! ## Commands (R234, R235) -/

/-- PLC_GMK_ROTATE: a new GMK, by key-index switching; both are held while endpoints switch. -/
def plcGmkRotate (n : Nat) (s : State) : State × Reply :=
  if 3 < n || !islInRun s (5 + n) then (s, .bad)
  else
    let (a, s) := draw s
    let (b, s) := draw s
    let s := setPlc n (fun p => { p with gmkOld := p.gmk, gmk := some (BitVec.ofNat 128 (a.toNat * 2 ^ 64 + b.toNat)), gmkIdx := 1 - p.gmkIdx }) s
    let s := match plcKeys (plcOf s n) with
      | k :: _ => (plcOf s n).ends.foldl (fun t e => plcUnicast n e.1 (.newKey k.1 k.2) t) s
      | [] => s
    (plcJournal n s, .done)

/-- PLC_KICK: the LBP kick, and the short address is free. -/
def plcKick (n short : Nat) (s : State) : State × Reply :=
  if 3 < n || !islInRun s (5 + n) || (Kv.get? short (plcOf s n).ends).isNone then (s, .bad)
  else
    let s := plcUnicast n short .kick s
    (plcJournal n (setPlc n (fun p => { p with ends := Kv.del short p.ends }) s), .done)

end Sys2Proof.Machine
end

