-- ==== Sys2Proof/Machine/Balance.lean ====
section
/-!
DEFINITION. Sys2Proof/Machine/Balance.lean: energy balance (chapter 05): the tree commands, interval closes, the run and its reports
(R151 to R187).
-/
namespace Sys2Proof.Machine

/-! ## The tree commands -/

/-- Bytes of a node record (R152). -/
def nodeBytes (v : Node) : List Byte :=
  be 2 v.id ++ be 2 v.parent ++ be 1 v.type ++ be 1 v.flags.toNat ++ be 1 v.refType ++ be 1 v.refHead.toNat ++ be 4 v.refId.toNat
    ++ be 4 v.noLoad ++ be 4 v.loadLoss ++ be 4 v.rated ++ be 1 v.lossUnc ++ be 1 v.shift ++ be 6 v.reserved.toNat ++ be 32 v.note.toNat

/-- The record of an absent node. -/
def absentNode (n : Nat) : Node := ⟨n, 0, 0xFF, 0, 0, 0, 0, 0, 0, 0, 0, 0, 0, 0⟩

/-- The check of one record alone (R155): 0 when it passes. -/
def nodeCheck (s : State) (v : Node) : Nat :=
  if !(v.type ≤ 3 || v.type = 0xFF) || 2 < v.refType then 0x01
  else if v.flags.toNat % 64 ≠ 0 || v.refHead.toNat / 2 ≠ 0 || v.reserved ≠ 0 || (v.refType = 0 && v.refId ≠ 0)
    || (v.refType = 1 && v.refId.toNat / 4096 ≠ 0) || (v.refType = 2 && v.refId.toNat / 2 ^ 22 ≠ 0) then 0x02
  else if (v.refType = 1 && v.refId = 0xFFF#32) || (v.refType = 2 && tblSize s ≤ v.refId.toNat) then 0x03
  else if v.loadLoss ≠ 0 && v.rated = 0 then 0x04
  else if (100 < v.lossUnc && v.lossUnc ≠ 0xFF) || 11 < v.shift || (v.shift ≠ 0 && v.type ≠ 1) then 0x05
  else 0

/-- CTL_BAL_TOPO_STATUS. -/
def topoStatus (code node : Nat) (s : State) : State := setReg 0x538 (BitVec.ofNat 32 (code * 2 ^ 24 + node % 65536)) s

/-- Write records into the shadow bank; the first load after an activation copies the active bank first (R155). -/
def loadNodes (l : List Node) (s : State) : State :=
  setBal (fun b =>
    let base := if b.copied then b.shadow else b.active
    { b with copied := true, shadow := l.foldl (fun m v => if v.type = 0xFF then Kv.del v.id m else Kv.put v.id v m) base }) s

/-- TOPO_LOAD (R7, R155, R157): node numbers are 0 to 65,535; while an activation waits the command is BUSY. -/
def topoLoad (l : List Node) (s : State) : State × Reply :=
  if l.isEmpty || 255 < l.length || l.any (fun v => decide (65535 < v.id)) then (s, .bad)
  else if !isHead s then (topoStatus 0x06 0 s, .bad)
  else match l.find? (fun v => nodeCheck s v ≠ 0) with
    | some v => (topoStatus (nodeCheck s v) v.id s, .bad)
    | none =>
      if s.bal.waiting.isSome then (topoStatus 0x14 0 s, .busy) else
      (journal (.topoLoad l) (loadNodes l (topoStatus 0 0 s)), .done)

/-- The checks of the whole shadow tree (R153, R155): code and node, or none. -/
def treeCheck (tree : Kv Node) : Option (Nat × Nat) :=
  match tree.find? (fun p => p.2.parent ≠ 0xFFFF && !present tree p.2.parent) with
  | some p => some (0x10, p.1)
  | none => match tree.find? (fun p => match (treePath tree 32 p.1).getLast? with | some v => v.parent ≠ 0xFFFF | none => true) with
    | some p => some (0x11, p.1)
    | none => match tree.find? (fun p => (p.2.parent = 0xFFFF && (p.2.type ≠ 0 || p.2.refType ≠ 1)) || (p.2.parent ≠ 0xFFFF && p.2.type = 0)) with
      | some p => some (0x12, p.1)
      | none => match tree.find? (fun p => p.2.refType = 2 && tree.any fun q => q.1 < p.1 && q.2.refType = 2 && q.2.refId = p.2.refId) with
        | some p => some (0x13, p.1)
        | none => none

/-- The tree TOPO_ACTIVATE checks: the shadow bank, or a copy of the active one when nothing was loaded. -/
def topoActivate (h : Hdr) (s : State) : State × Reply :=
  if !isHead s then (topoStatus 0x06 0 s, .bad)
  else match treeCheck s.bal.shadow with
    | some (c, n) => (topoStatus c n s, .bad)
    | none =>
      if s.bal.waiting.isSome then (topoStatus 0x14 0 s, .busy)
      else (journal (.topoWait h) (setBal (fun b => { b with waiting := some h }) (topoStatus 0 0 s)), .later)

/-- TOPO_READ (R155): every number of the range, an absent one with TYPE 0xFF. -/
def topoRead (bank first cnt : Nat) (s : State) : State × Reply :=
  if 1 < bank || 65535 < first then (s, .bad)
  else
    let m := if bank = 0 then s.bal.active else s.bal.shadow
    let n := min cnt (65536 - first)
    (s, ⟨.ok, [], (List.range n).map fun i => nodeBytes ((Kv.get? (first + i) m).getD (absentNode (first + i)))⟩)

/-- Nearest measured ancestor of a node, not itself. -/
def measuredAbove (tree : Kv Node) (v : Node) : Option Nat :=
  if v.parent = 0xFFFF then none else ((treePath tree 33 v.parent).find? fun a => a.refType ≠ 0).map (·.id)

/-- Switch the banks (R155) and reset the accumulators that R156 names. -/
def switchTree (b : BalState) (topo : State) : BalState :=
  let old := b.active
  let new := b.shadow
  let changed (n : Nat) : Bool := match Kv.get? n old, Kv.get? n new with
    | some a, some c => a.parent ≠ c.parent || a.refType ≠ c.refType || a.refId ≠ c.refId || a.refHead ≠ c.refHead
        || measuredAbove old a ≠ measuredAbove new c
    | none, none => false
    | _, _ => true
  { b with active := new, shadow := old, copied := false, haveTree := true, waiting := none, treeChanged := true,
           nodes := b.nodes.map fun p => (p.1, if changed p.1 then { p.2 with acc := locZero, runs := 0 } else p.2),
           meters := b.meters.map fun p => (p.1, if changed (fld (imgOf topo p.1) 144 2) then { p.2 with byp := locZero, bypRuns := 0 } else p.2) }

/-! ## Intervals -/

/-- Interval length in seconds. -/
def balLen (s : State) : Nat := fieldOf s 0x500 10 0 * 60

/-- The settings of the balance, 0x500 to 0x528, as a run takes them at its start (R187). -/
def balCfg (s : State) : List W32 := (List.range 11).map fun i => reg s (0x500 + 4 * i)

/-- A field of the settings in force for a run. -/
def cfgOf (cfg : List W32) (off hi lo : Nat) : Nat := bits (cfg.getD ((off - 0x500) / 4) 0) hi lo

/-- Start the run of the oldest closed interval: activation first (R155), then the run or its skip (R161). A run that does not
start at its close starts late (R36); one that is skipped starts nothing late. -/
def startRun (onTime : Bool) (s : State) : State :=
  match s.bal.run, s.bal.due with
  | none, (start, closed, timOk) :: rest =>
    if !(isHead s && serving s) then s
    else
      let len := balLen s
      let s := match s.bal.waiting with
        | some h => answer h 0x0402 .done (journal .topoSwitch (setBal (fun b => switchTree b s) s))
        | none => s
      let skip := !timOk || !s.bal.haveTree
      let late := !onTime && !skip
      let s := if late then count 0x544 s else s
      let s := if skip then event 17 0x05 (b2n (!s.bal.haveTree) * 2 + b2n (!timOk)) [] (count 0x548 s) else s
      setBal (fun b => { b with due := rest, started := b.started + 1, startedEnd := some ((start + len) * 1000), lateLast := late,
                                run := some { start := start, len := len, closedAt := closed, startedAt := s.tim.raw, index := b.started + 1, late := late,
                                              treeChanged := b.treeChanged, skipped := skip, cfg := balCfg s,
                                              refs := s.bal.minutes.filter fun m => decide (start ≤ m.start) && decide (m.start < start + len),
                                              computed := false, batch := 0, meters := [],
                                              nodes := [], reports := [], noticeCount := 0, excluded := 0, saturated := 0 },
                                treeChanged := false }) s
  | _, _ => s

/-- Boundaries after `last` up to `b`, one interval apart; `fuel` bounds a forward step. -/
def closesFrom (len : Nat) (b : Int) : Nat → Int → List Int
  | 0, _ => []
  | fuel + 1, x => if b < x then [] else x :: closesFrom len b fuel (x + len)

/-- The boundaries that a close event closes, in UTC seconds, each with whether TIM was in RUN at it (R158, R161, R343). With TIM in RUN,
every one passed since the last close, counted in whole intervals from 00:00:00 UTC; while TIM is out of RUN there is no clock, and the
event itself says that the next one has come (DESIGN CHOICE, log entry 130). -/
def closesNow (s : State) : List (Int × Bool) :=
  let len := balLen s
  if islInRun s 16 then
    let now : Int := localSec s
    let b := (now - utcOffset s) / len * len
    let closes := match s.bal.lastClose with
      | some c => closesFrom len b ((b - c) / len).toNat (c + len)
      | none => [b]
    closes.map fun c => (c, c == b || !s.bal.timOut)
  else match s.bal.lastClose with
    | some c => [(c + len, false)]
    | none => []

/-- BALANCE_INTERVAL_CLOSE (R158, R161, R343): each boundary passed closes its interval; the run is for the interval LAG before it. A
boundary already closed is not closed again. -/
def intervalClose (s : State) : State :=
  let len := balLen s
  if fieldOf s 0x500 31 31 = 0 || !isHead s || len = 0 then s
  else
    let closes := closesNow s
    let lag := fieldOf s 0x500 23 16
    let dueOf (c : Int × Bool) : Int × Nat × Bool := (c.1 + utcOffsetAt c.1 s - (len * (1 + lag) : Nat), s.tim.raw, c.2)
    startRun true (setBal (fun st => { st with lastClose := (closes.getLast?.map (·.1)).or st.lastClose, timOut := false,
                                               due := st.due ++ closes.map dueOf }) s)

/-! ## Meter energy (R163, R164) -/

/-- Value and uncertainty of a series at boundary `t`, and the distance between its two points; none without them. -/
def atBoundary (pts : List SamplePt) (t : Int) (v : SamplePt → Int) : Option (Int × Int × Int) :=
  match pts.find? (fun p => p.cap = t) with
  | some p => some (v p, 0, 0)
  | none => match (pts.filter fun p => p.cap < t).getLast?, pts.find? (fun p => t < p.cap) with
    | some a, some b => some (v a + Int.tdiv ((v b - v a) * (t - a.cap)) (b.cap - a.cap),
        Int.tdiv ((v b - v a).natAbs * (max a.err b.err : Nat)) (b.cap - a.cap), b.cap - a.cap)
    | _, _ => none

/-- A meter's interval energy: coverage 1 covered, 2 estimated, 3 excluded; net energy; alignment uncertainty; estimate. -/
structure Energy where
  cover : Nat
  net : Int
  align : Int
  est : Int

/-- R164, from the top. One sample point with no later one gives no energy: excluded (log entry 24). -/
def meterEnergy (pts : List SamplePt) (t0 t1 : Int) : Energy :=
  let no : Energy := ⟨3, 0, 0, 0⟩
  let len := t1 - t0
  let v := (atBoundary pts t0 (·.imp), atBoundary pts t1 (·.imp), atBoundary pts t0 (·.exp), atBoundary pts t1 (·.exp))
  let bad := match v with
    | (some a, some b, some c, some d) =>
      decide (b.1 < a.1 ∨ d.1 < c.1 ∨ 2 ^ 40 < b.1 - a.1 ∨ 2 ^ 40 < d.1 - c.1)
    | _ => false
  if bad then no
  else if !pts.any (fun p => p.cap ≤ t0) then no
  else if !pts.any (fun p => t1 ≤ p.cap) then
    match pts.reverse with
    | b :: a :: _ =>
      let e := Int.tdiv (((b.imp - a.imp) - (b.exp - a.exp)) * len) (b.cap - a.cap)
      ⟨2, e, 0, e.natAbs⟩
    | _ => no
  else match v with
    | (some a, some b, some c, some d) =>
      let e := (b.1 - a.1) - (d.1 - c.1)
      if 2 * len < a.2.2 || 2 * len < b.2.2 then ⟨2, e, 0, e.natAbs⟩ else ⟨1, e, a.2.1 + b.2.1 + c.2.1 + d.2.1, 0⟩
    | _ => no

/-! ## Node sums (R166 to R169) -/

/-- A sum saturated at 64 bits, with the mark that it was (R169). -/
def satSum (a : Int × Nat) (b : Int) : Int × Nat :=
  let c := a.1 + b
  if c < -9223372036854775808 then (-9223372036854775808, a.2 + 1)
  else if 9223372036854775807 < c then (9223372036854775807, a.2 + 1) else (c, a.2)

/-- What a subtree adds up to. -/
structure Sub where
  m : Int
  mAbs : Int
  loss : Int
  align : Int
  est : Int
  lossUnc : Int
  covered : Nat
  estimated : Nat
  excluded : Nat
  /-- A sum in the subtree saturated; sums that did. -/
  sat : Bool
  sats : Nat

def subZero : Sub := ⟨0, 0, 0, 0, 0, 0, 0, 0, 0, false, 0⟩

/-- Add two subtrees, each sum saturating. -/
def addSub (a b : Sub) : Sub :=
  let z (x : Int) : Int × Nat := (x, 0)
  let m := satSum (z a.m) b.m; let k := satSum (z a.mAbs) b.mAbs; let l := satSum (z a.loss) b.loss
  let g := satSum (z a.align) b.align; let e := satSum (z a.est) b.est; let u := satSum (z a.lossUnc) b.lossUnc
  let n := m.2 + k.2 + l.2 + g.2 + e.2 + u.2
  ⟨m.1, k.1, l.1, g.1, e.1, u.1, a.covered + b.covered, a.estimated + b.estimated, a.excluded + b.excluded,
   a.sat || b.sat || n != 0, a.sats + b.sats + n⟩

/-- One meter as a subtree. -/
def meterSub (e : Energy) : Sub :=
  if e.cover = 3 then { subZero with excluded := 1 }
  else { subZero with m := e.net, mAbs := e.net.natAbs, align := e.align, est := e.est, covered := b2n (e.cover == 1), estimated := b2n (e.cover == 2) }

/-- Technical loss of a node (R166): downstream energy D in mWh, interval length in s. -/
def techLoss (v : Node) (d : Int) (t : Nat) : Int :=
  if v.rated = 0 then (v.noLoad * t * 5 / 18 : Nat)
  else
    let p := d.natAbs * 18 / (5 * t)
    ((v.noLoad * (v.rated * v.rated) + v.loadLoss * (p * p)) * t * 5 / (v.rated * v.rated * 18) : Nat)

/-- The subtree of a node, leaves first: `direct` gives the meters attached to a node. -/
def evalNode (tree : Kv Node) (cfg : List W32) (t : Nat) (direct : Nat → Sub) : Nat → Node → Sub
  | 0, _ => subZero
  | fuel + 1, v =>
    let kids := (tree.filter fun p => p.2.parent = v.id && p.2.type ≠ 0xFF && !p.2.flags.getLsbD 6 && p.1 ≠ v.id).map (·.2)
    let below := kids.foldl (fun a k => addSub a (evalNode tree cfg t direct fuel k)) (direct v.id)
    let d := satSum (below.m, 0) below.loss
    let l := techLoss v d.1 t
    let pct := if v.lossUnc = 0xFF then cfgOf cfg 0x504 7 0 else v.lossUnc
    addSub { below with sat := below.sat || d.2 != 0, sats := below.sats + d.2 } { subZero with loss := l, lossUnc := Int.tdiv (l * pct) 100 }

/-- Result of a node in a run (R168). -/
inductive NRes where
  | unmeasured | noRef | saturated | incomplete | loss | gain | balanced
  deriving DecidableEq, Repr

/-- A node with what the run found; `sats` counts the sums of its own that saturated: E_ref, R and U (R169). -/
structure NodeRun where
  node : Node
  sub : Sub
  eref : Int
  r : Int
  u : Int
  f : Int
  res : NRes
  sats : Nat

/-- A sum of several terms, saturated at each step; whether it did. -/
def satTotal (l : List Int) : Int × Nat := let x := l.foldl satSum (0, 0); (x.1, b2n (x.2 != 0))

/-- The reference energy of a measured node and the terms of its uncertainty (R167); none: the reference was missing when the run started
(R168, R457). -/
def refEnergy (s : State) (run : BalRun) (v : Node) : Option ((Int × Nat) × List Int) :=
  let part (e : Int) (ppm : Nat) : Int := Int.tdiv (e.natAbs * ppm) 1000000
  if v.refType = 1 then
    let ms := run.refs.filter fun m => m.head = headKey v
    if ms.length * 60 ≠ run.len || ms.any (fun m => !m.valid) then none
    else
      let e := satTotal (ms.map (·.net))
      some (e, [part e.1 (cfgOf run.cfg 0x508 31 16)])
  else
    let pts := (workOf s v.refId.toNat).pts.filter fun p => p.runs < run.index
    let e := meterEnergy pts (run.start * 1000) ((run.start + run.len) * 1000)
    if e.cover = 1 then some ((e.net, 0), [part e.net (cfgOf run.cfg 0x508 15 0), e.align]) else none

/-- R167 to R169 for one node. -/
def nodeRun (s : State) (run : BalRun) (v : Node) (sub : Sub) : NodeRun :=
  let cfg := run.cfg
  if v.refType = 0 then ⟨v, sub, 0, 0, 0, 0, .unmeasured, 0⟩
  else match refEnergy s run v with
    | none => ⟨v, sub, 0, 0, 0, 0, .noRef, 0⟩
    | some (er, ru) =>
      let e := er.1
      let rs := satTotal [e, -sub.m, -sub.loss]
      let us := satTotal (ru ++ [Int.tdiv (sub.mAbs * (cfgOf cfg 0x50C 31 16 : Nat)) 1000000, sub.align, sub.est, sub.lossUnc])
      let r := rs.1
      let u := us.1
      let own := er.2 + rs.2 + us.2
      let f := Int.tdiv (e.natAbs * (cfgOf cfg 0x50C 15 0 : Nat)) 1000000
      let lim : Nat := cfgOf cfg 0x504 15 8
      let meters := sub.covered + sub.estimated + sub.excluded
      let res : NRes :=
        if sub.sat || own != 0 then .saturated
        else if decide (sub.mAbs * lim < sub.est * 100) || decide (lim * meters < sub.excluded * 100) then .incomplete
        else if u + f < r then .loss else if r < -(u + f) then .gain else .balanced
      ⟨v, sub, e, r, u, f, res, own⟩

/-! ## Accumulators and walks (R170, R171) -/

/-- One more run in the accumulators. -/
def accStep (sh : Nat) (a : LocAcc) (x y : Int) : LocAcc :=
  let k (v t : Int) : Int := v - v / 2 ^ sh + t
  ⟨k a.n 1, k a.x x, k a.y y, k a.xx (x * x), k a.yy (y * y), k a.xy (x * y)⟩

/-- r in Q15, and β as numerator and denominator. -/
def accNum (a : LocAcc) : Int := a.n * a.xy - a.x * a.y
def accDx (a : LocAcc) : Int := a.n * a.xx - a.x * a.x
def accR (a : LocAcc) : Int := q15 (accNum a) (accDx a) (a.n * a.yy - a.y * a.y)

/-- A measured result that explains residuals. -/
def explains (r : NRes) : Bool := r == .loss || r == .gain || r == .balanced

/-- One step of the walk: the child that explains most, at or above EXPLAIN_PCT; shares as fractions with positive denominators. -/
def walkStep (runs : List NodeRun) (works : Nat → NodeWork) (cfg : List W32) (loc m : NodeRun) : Option NodeRun :=
  let pct : Int := cfgOf cfg 0x510 31 24
  let share (c : NodeRun) : Option (Int × Int) :=
    if c.res == .loss then some (c.r, m.r)
    else if (c.res == .unmeasured || c.res == .noRef) && !c.sub.sat then
      let w := works c.node.id
      if 2 ^ cfgOf cfg 0x510 19 16 ≤ w.runs && decide ((cfgOf cfg 0x514 31 16 : Int) ≤ accR w.acc) && decide (0 < accDx w.acc) then
        some (accNum w.acc * c.sub.m, accDx w.acc * m.r)
      else none
    else none
  let kids := runs.filter fun c => c.node.parent = loc.node.id && c.node.id ≠ loc.node.id
  let best := kids.foldl (fun (b : Option (NodeRun × Int × Int)) c =>
    match share c with
    | some (n, d) =>
      if decide (d ≤ 0) || decide (n * 100 < pct * d) then b
      else match b with
        | some (_, bn, bd) => if bn * d < n * bd then some (c, n, d) else b
        | none => some (c, n, d)
    | none => b) none
  best.map (·.1)

/-- The walk of R171 from a root: where it ends and its last measured node. -/
def walk (runs : List NodeRun) (works : Nat → NodeWork) (cfg : List W32) : Nat → NodeRun → NodeRun → NodeRun × NodeRun
  | 0, loc, m => (loc, m)
  | fuel + 1, loc, m => match walkStep runs works cfg loc m with
    | none => (loc, m)
    | some c => walk runs works cfg fuel c (if c.res == .loss then c else m)

/-! ## Phases (R175, R176) -/

/-- Seven days. -/
def voteAlive (now : Nat) (v : Option Vote) : Option Vote := v.bind fun x => if now ≤ x.at_ + 604800 then some x else none

/-- Combine the methods' votes: best phase and confidence C. -/
def combine (now : Nat) (w : MeterWork) : Nat × Nat :=
  let sc (p : Nat) : Int := ([w.vVote, w.zVote, w.fVote].map fun v =>
    match voteAlive now v with | some x => if x.pick = p then (x.conf : Int) else 0 | none => 0).foldl (· + ·) 0
  match bestTwo [(1, sc 1), (2, sc 2), (3, sc 3)] with
  | some (p, a, b) => (p, min 255 (a - b).toNat)
  | none => (0, 0)

/-- NODE_FOUND: the transformer voted, 0xFFFF when none. -/
def txVoted (now : Nat) (w : MeterWork) : Nat := ((voteAlive now w.tVote).map (·.pick)).getD 0xFFFF

/-- Confidence of a vote, for the notice. -/
def confOf (now : Nat) (v : Option Vote) : Nat := ((voteAlive now v).map (·.conf)).getD 0

/-- A notice record (R185). -/
def noticeRec (s : State) (now type node slot : Nat) (title : Nat) (score phase conf found ind : Nat) (w : MeterWork) : List Byte :=
  padTo 64 (be 1 type ++ be 1 0 ++ be 2 node ++ be 4 slot ++ be 8 title ++ be 4 s.bal.runSeq.toNat ++ be 2 score
    ++ be 1 (phase * 64) ++ be 1 conf ++ be 2 found ++ be 1 (confOf now w.vVote) ++ be 1 (confOf now w.zVote)
    ++ be 1 (confOf now w.fVote) ++ be 1 (confOf now w.tVote) ++ be 2 ind)

/-! ## The run (R159) -/

/-- Score after one run (R178, R179). -/
def decayed (sh s : Nat) : Nat := s - s / 2 ^ sh

/-- Percentile edge of the scores: the upper edge of the 256-wide bin (R183). -/
def percentile (l : List Nat) (p : Nat) : Nat :=
  if l.isEmpty then 0
  else
    let bin := ((List.range 256).find? fun b => decide (p * l.length ≤ (l.filter fun x => x / 256 ≤ b).length * 100)).getD 255
    min 65535 ((bin + 1) * 256)

/-- What a run finds for one meter: its transformer or feeder node, the growth of its score, the indicators, the changes and notices. -/
structure MeterRun where
  slot : Nat
  node : Nat
  inc : Nat
  ind : Nat
  delta : MeterDelta
  notices : List (List Byte)

/-- What a run finds for the phase of one meter (R175, R176). -/
structure PhaseRun where
  slot : Nat
  phase : Option (Nat × Nat)
  notices : List (List Byte)
  txMismatch : Option (Nat × Nat)
  txFound : Option (Nat × Nat)

/-- What a run finds for one node. -/
structure NodeReport where
  node : Nat
  work : NodeWork
  recs : List (List Byte)
  notices : List (List Byte)

/-- Score, indicators and SUSPICION of one meter (R177, R178, R181). -/
def meterRun (s : State) (run : BalRun) (now : Nat) (measured : Option NodeRun) (localised : Bool) (n node : Nat) (e : Energy) : MeterRun :=
  let cfg := run.cfg
  let sh := cfgOf cfg 0x510 19 16
  let sn := cfgOf cfg 0x528 31 16
  let w := workOf s n
  let r := imgOf s n
  let byp := match measured with
    | some a => if explains a.res && e.cover != 3 then
        (accStep sh w.byp (Int.tdiv e.net 1000) (Int.tdiv a.r 1000), min 65535 (w.bypRuns + 1)) else (w.byp, w.bypRuns)
    | none => (w.byp, w.bypRuns)
  let gen := match Kv.get? node s.bal.active with | some v => v.flags.getLsbD 7 | none => false
  let evs := w.events.filter fun v => decide (run.start * 1000 ≤ v.cap) && decide (v.cap < (run.start + run.len) * 1000) && decide (v.runs < run.index)
  let iRev := e.cover != 3 && decide (e.net < 0) && !gen
  let iNeu := evs.any (·.neutral)
  let iTam := evs.any (·.tamper)
  let iByp := decide (2 ^ sh ≤ byp.2) && decide (accR byp.1 ≤ -(cfgOf cfg 0x514 15 0 : Int))
  let inc := b2n iRev * cfgOf cfg 0x520 15 8 + b2n iNeu * cfgOf cfg 0x520 23 16 + b2n iTam * cfgOf cfg 0x520 31 24
    + b2n iByp * cfgOf cfg 0x520 7 0 + b2n localised * cfgOf cfg 0x524 23 16
  let score := min 65535 (decayed (cfgOf cfg 0x510 15 12) w.score + inc)
  let ind := b2n iRev + 2 * b2n iNeu + 4 * b2n iTam + 8 * b2n iByp + 16 * b2n localised
  let old := fld r 148 2
  let crossed := decide (w.score < sn) != decide (score < sn)
  let susp := if crossed || 256 ≤ (if old ≤ score then score - old else old - score) then some score else none
  let notice := if w.score < sn && sn ≤ score then [noticeRec s now 0x01 node n (recTitle r).toNat score (combine now w).1 (combine now w).2 (txVoted now w) ind w] else []
  ⟨n, node, inc, ind, ⟨n, recTitle r, score, byp.1, byp.2, e.cover, none, w.txMismatch, w.txFound, susp, none⟩, notice⟩

/-- Phase and transformer of one meter with a new method result (R175, R176). -/
def phaseRun (s : State) (run : BalRun) (now : Nat) (meters : List MeterRun) (n : Nat) (w : MeterWork) : PhaseRun :=
  let pcm := cfgOf run.cfg 0x51C 15 8
  let r := imgOf s n
  let node := if recFlag r 15 then fld r 144 2 else 0xFFFF
  let (p, c) := combine now w
  let host := fld r 146 1 / 32 % 2 = 1
  let write := !host && decide (pcm ≤ c) && p != 0
  let differs := fld r 146 1 / 64 != p
  let m := meters.find? fun m => m.slot == n
  let score := (m.map (·.delta.score)).getD w.score
  let ind := (m.map (·.ind)).getD 0
  let n1 := if decide (pcm ≤ c) && differs then
      [noticeRec s now (if host then 0x04 else 0x03) node n (recTitle r).toNat score p c (txVoted now w) ind w] else []
  let own := if recFlag r 15 then transformerOf s.bal.active (fld r 144 2) else none
  let placed := recFlag r 15
  let due (t : Nat) : Bool := match (if placed then w.txMismatch else w.txFound) with
    | some (a, b) => a != t || decide (b + 604800 ≤ now)
    | none => true
  let ph := if write then some (p, c) else none
  match voteAlive now w.tVote with
  | some v =>
    if pcm ≤ v.conf && own != some v.pick && due v.pick then
      let rec_ := noticeRec s now (if placed then 0x05 else 0x06) node n (recTitle r).toNat score p c v.pick ind w
      ⟨n, ph, n1 ++ [rec_], if placed then some (v.pick, now) else w.txMismatch, if placed then w.txFound else some (v.pick, now)⟩
    else ⟨n, ph, n1, w.txMismatch, w.txFound⟩
  | none => ⟨n, ph, n1, w.txMismatch, w.txFound⟩

/-- Branch score and result record of one node (R179, R184): `wl` is where the walk from the root ended when it ended here. -/
def nodeReport (s : State) (run : BalRun) (now : Nat) (meters : List MeterRun) (x : NodeRun) (w : NodeWork)
    (wl : Option (NodeRun × NodeRun × NodeRun)) : NodeReport :=
  let cfg := run.cfg
  let bn := cfgOf cfg 0x528 15 0
  let wres := cfgOf cfg 0x524 31 24
  let inc : Nat := match wl with
    | some (_, _, m) => (min (4 * wres : Int) (Int.tdiv (wres * (m.r - m.u)) (max 1 m.f))).toNat
    | none => 0
  let direct := (meters.filter fun m => m.node == x.node.id).foldl (fun a m => a + m.inc) 0
  let score := min 65535 (decayed (cfgOf cfg 0x510 15 12) w.score + inc + direct / 8)
  let measd := x.res != .unmeasured && x.res != .noRef
  let res := b2n measd * 128 + b2n (x.res == .loss) * 64 + b2n (x.res == .gain) * 32
    + b2n (x.res == .incomplete) * 16 + b2n wl.isSome * 8 + b2n (x.sub.sat || x.sats != 0) * 4 + b2n (x.res == .noRef) * 2
  let bytes := padTo 64 (be 2 x.node.id ++ be 1 x.node.type ++ be 1 res ++ be 4 s.bal.runSeq.toNat ++ beI 8 (if measd then x.eref else 0)
    ++ beI 8 x.sub.m ++ beI 8 x.sub.loss ++ beI 8 (if measd then x.r else 0) ++ beI 8 x.u ++ be 4 x.sub.covered ++ be 4 x.sub.estimated
    ++ be 2 score ++ be 2 (match wl with | some (r, _) => r.node.id | none => 0xFFFF)
    ++ (if w.runs < 2 ^ cfgOf cfg 0x510 19 16 then be 2 0x8000 else beI 2 (accR w.acc)))
  let post := match cfgOf cfg 0x500 30 29 with
    | 0 => false
    | 1 => res % 128 != 0
    | 2 => x.node.refType != 0
    | _ => true
  let notice := if w.score < bn && bn ≤ score then [noticeRec s now 0x02 x.node.id 0x3FFFFF 0 score 0 0 0xFFFF 0 workEmpty] else []
  ⟨x.node.id, { w with score := score, result := bytes }, if post then [bytes] else [], notice⟩

/-- A path's first measured node, from the meter up. -/
def measuredOn (runs : List NodeRun) (path : List Node) : Option NodeRun :=
  path.findSome? fun v => match runs.find? fun x => x.node.id = v.id with
    | some x => if x.res == .unmeasured || x.res == .noRef then none else some x
    | none => none

/-- A node's accumulators after the run (R170). -/
def nodeAcc (s : State) (cfg : List W32) (runs : List NodeRun) (x : NodeRun) : NodeWork :=
  let w := s.bal.nodes.getD x.node.id nodeWorkEmpty
  match if x.node.parent = 0xFFFF then none else measuredOn runs (treePath s.bal.active 33 x.node.parent) with
  | some a =>
    if explains a.res then
      { w with acc := accStep (cfgOf cfg 0x510 19 16) w.acc (Int.tdiv x.sub.m 1000) (Int.tdiv a.r 1000), runs := min 65535 (w.runs + 1) }
    else w
  | none => w

/-- The changes a run makes to the meters: score and phase of those balanced, phase alone of the others. -/
def meterDeltas (s : State) (meters : List MeterRun) (phases : List PhaseRun) : List MeterDelta :=
  let one (m : MeterRun) : MeterDelta := match phases.find? (fun p => p.slot == m.slot) with
    | some p => { m.delta with phase := p.phase, judged := some (workOf s m.slot).results, txMismatch := p.txMismatch, txFound := p.txFound }
    | none => m.delta
  let rest (p : PhaseRun) : MeterDelta :=
    let w := workOf s p.slot
    ⟨p.slot, recTitle (imgOf s p.slot), w.score, w.byp, w.bypRuns, w.cover, some w.results, p.txMismatch, p.txFound, none, p.phase⟩
  meters.map one ++ (phases.filter fun p => !meters.any fun m => m.slot == p.slot).map rest

/-- Meters of a run: slot, node and energy of every ACTIVE, placed meter that is no check meter (R163). -/
def runMeters (s : State) (run : BalRun) : List (Nat × Nat × Energy) :=
  let tree := s.bal.active
  let checks := (tree.filter fun p => p.2.refType = 2).map fun p => p.2.refId.toNat
  let part := s.table.slots.filter fun p => recState p.2.img = 2 && recFlag p.2.img 15 && present tree (fld p.2.img 144 2)
    && !excludedNode tree (fld p.2.img 144 2) && !checks.contains p.1
  part.map fun p => (p.1, fld p.2.img 144 2,
    meterEnergy ((workOf s p.1).pts.filter fun q => q.runs < run.index) (run.start * 1000) ((run.start + run.len) * 1000))

/-- Slots in use that are not retired. -/
def liveSlots (s : State) : List Nat := (s.table.slots.filter fun p => recState p.2.img != 0 && recState p.2.img != 4).map (·.1)

/-- The exact score of every meter after the run (R183). -/
def allScores (s : State) (meters : List MeterRun) : List Nat :=
  (liveSlots s).map fun n => match meters.find? (fun m => m.slot == n) with | some m => m.delta.score | none => (workOf s n).score

/-- The summary record (R183). -/
def summaryRec (s : State) (run : BalRun) (energies : List (Nat × Nat × Energy)) (runs : List NodeRun) (scores : List Nat)
    (satN : Nat) : List Byte :=
  let cnt (f : NRes → Bool) : Nat := (runs.filter fun x => f x.res).length
  let cov (k : Nat) : Nat := (energies.filter fun e => e.2.2.cover = k).length
  let delay := if run.late then (run.startedAt - run.closedAt) / 1000000 else 0
  padTo 64 (be 8 (run.start.toNat * 65536) ++ be 4 run.len ++ be 4 s.bal.runSeq.toNat
    ++ be 4 ((s.tim.raw - run.startedAt) / 1000000) ++ be 4 delay ++ be 4 (cov 1) ++ be 4 (cov 2)
    ++ be 4 (cov 3 + ((liveSlots s).length - energies.length))
    ++ be 2 (cnt (· == .loss)) ++ be 2 (cnt (· == .gain)) ++ be 2 (cnt fun r => r == .incomplete || r == .noRef)
    ++ be 2 (b2n run.late * 2 ^ 15 + b2n (decide (0 < satN)) * 2 ^ 13 + b2n run.treeChanged * 2 ^ 12)
    ++ be 2 (percentile scores 50) ++ be 2 (percentile scores 90) ++ be 2 (percentile scores 99)
    ++ be 2 (scores.foldl max 0) ++ be 4 (scores.filter fun x => cfgOf run.cfg 0x528 31 16 ≤ x).length)

/-- The whole computation of a run: its changes and, in the order of R182, its reports. -/
def computeRun (s : State) (run : BalRun) : BalRun × List CqBody :=
  let cfg := run.cfg
  let tree := s.bal.active
  let now := unitSec s
  let energies := runMeters s run
  let direct (n : Nat) : Sub := energies.foldl (fun a e => if e.2.1 = n then addSub a (meterSub e.2.2) else a) subZero
  let nodes := (tree.filter fun p => p.2.type != 0xFF && !excludedNode tree p.1).map (·.2)
  let runs := nodes.map fun v => nodeRun s run v (evalNode tree cfg run.len direct 33 v)
  let works := runs.map fun x => (x, nodeAcc s cfg runs x)
  let workN (n : Nat) : NodeWork := ((works.find? fun p => p.1.node.id == n).map (·.2)).getD nodeWorkEmpty
  let walks := (runs.filter fun x => x.node.parent = 0xFFFF && x.res == .loss).map fun x => (x, walk runs workN cfg 33 x x)
  let localised (path : List Node) : Bool := path.any fun v => walks.any fun w => w.2.1.node.id == v.id
  let meters := energies.map fun m =>
    meterRun s run now (measuredOn runs (treePath tree 33 m.2.1)) (localised (treePath tree 33 m.2.1)) m.1 m.2.1 m.2.2
  let votes := s.bal.meters.filter fun p => p.2.judged < p.2.results && recState (imgOf s p.1) != 0 && recState (imgOf s p.1) != 4
  let phases := votes.map fun p => phaseRun s run now meters p.1 p.2
  let reports := works.map fun x => nodeReport s run now meters x.1 x.2 (walks.find? fun y => y.2.1.node.id == x.1.node.id)
  let satN := runs.foldl (fun a x => a + (if x.node.parent = 0xFFFF then x.sub.sats else 0) + x.sats) 0
  let excl := (energies.filter fun e => e.2.2.cover = 3).length
  let notices := meters.flatMap (·.notices) ++ reports.flatMap (·.notices) ++ phases.flatMap (·.notices)
  ({ run with computed := true, meters := meterDeltas s meters phases, nodes := reports.map fun x => (x.node, x.work),
              noticeCount := notices.length, excluded := excl, saturated := satN },
   (reports.flatMap (·.recs)).map .balNode ++ notices.map .balNotice ++ [.balSummary (summaryRec s run energies runs (allScores s meters) satN)])

/-- The summary of a skipped run (R161). -/
def skippedSummary (s : State) (run : BalRun) : List Byte :=
  padTo 64 (be 8 (run.start.toNat * 65536) ++ be 4 run.len ++ be 4 s.bal.runSeq.toNat ++ be 8 0 ++ be 8 0 ++ be 4 0 ++ be 4 0 ++ be 2 0
    ++ be 2 (2 ^ 14 + b2n run.treeChanged * 2 ^ 12))

/-- Take posting numbers for the reports of a run: they are journalled with it (R160, R362). -/
def reserveReports : List CqBody → State → List (Nat × Posting) × State
  | [], s => ([], s)
  | b :: t, s =>
    let p : Posting := ⟨0, b⟩
    let (n, s) := reservePost p s
    let (l, s) := reserveReports t s
    ((n, p) :: l, s)

/-- BALANCE_RUN (R159, R160): the run is computed and journalled with its reports; nothing is written or posted yet. The computation is one
step, so a cluster fails before it, and the run then starts on those left, or after it (R187; log entry 131). -/
def balanceRun (s : State) : State :=
  match s.bal.run with
  | none => startRun false s
  | some run =>
    if run.computed || !(isHead s && serving s) || !(List.range 4).any (fun c => islRun s (17 + c)) then s
    else
      let (r, out) := if run.skipped then ({ run with computed := true }, [.balSummary (skippedSummary s run)]) else computeRun s run
      let (posts, s) := reserveReports out s
      let r := { r with reports := posts }
      let s := journal (.balRun r) s
      setBal (fun b => { b with run := some { r with batch := journalMark s } }) s

/-- Apply a run's changes (R175, R178 to R180): works, and the records through the unit's own record writes. -/
def applyRun (run : BalRun) (quiet : Bool) (s : State) : State :=
  let s := setBal (fun b => { b with
    nodes := run.nodes.foldl (fun m p => Kv.put p.1 p.2 m) b.nodes,
                              meters := run.meters.foldl (fun m d =>
                                let w := m.getD d.slot workEmpty
                                Kv.put d.slot { w with score := d.score, byp := d.byp, bypRuns := d.bypRuns, cover := d.cover,
                                                       judged := d.judged.getD w.judged, txMismatch := d.txMismatch, txFound := d.txFound,
                                                       events := w.events.filter fun e => (run.start + run.len) * 1000 ≤ e.cap } m) b.meters,
                              minutes := b.minutes.filter fun m => run.start + run.len ≤ m.start,
                              runSeq := b.runSeq + 1, run := none }) s
  if quiet then s
  else run.meters.foldl (fun t d =>
    if d.susp.isNone && d.phase.isNone then t else ownWrite ⟨d.slot, d.title, .balance d.susp d.phase⟩ t) s

/-- RUN_SEQ of a waiting node result (R184). -/
def waitingNode (e : Cqe) : Option (List Byte) := match e.body with | .balNode r => some ((r.drop 4).take 4) | _ => none

/-- Drop the node results of older runs that still wait for room in the balance ring (R182): those runs' summaries say so, and the
postings count as skipped. -/
def dropOldReports (s : State) : State :=
  let n := fieldOf s 0xE024 31 24
  match Kv.get? n s.host.cq with
  | none => s
  | some q =>
    let seqs := (q.waiting.filterMap waitingNode).eraseDups
    if seqs.isEmpty then s
    else
      let w := q.waiting.filter fun e => (waitingNode e).isNone
      let mark (e : Cqe) : Cqe := match e.body with
        | .balSummary r => if seqs.contains ((r.drop 12).take 4) then { e with body := .balSummary (r.set 42 (r.getD 42 0 ||| 0x08#8)) } else e
        | _ => e
      let s := countBy 0x55C seqs.length { s with host := { s.host with cq := Kv.put n { q with waiting := w.map mark } s.host.cq } }
      (q.waiting.filter fun e => (waitingNode e).isSome).foldl (fun t e => markPosted e.seq.toNat t) s

/-- BALANCE_REPORT_POST (R160, R182): once the batch is acknowledged, the changes are made and the reports posted in order. -/
def balanceReport (s : State) : State :=
  match s.bal.run with
  | none => s
  | some run =>
    if !run.computed || !journalAcked run.batch s || !(isHead s && serving s) then s
    else
      let s := countBy 0x554 run.saturated (countBy 0x550 run.excluded (dropOldReports s))
      let s := journal .balApply (applyRun run false s)
      let s := countBy 0x558 run.noticeCount (run.reports.foldl (fun t p => makePost p.1 false p.2 t) s)
      startRun false (if run.skipped then s else count 0x540 s)

/-- Is a run in progress here (R196)? -/
def balRunning (s : State) : Bool := isHead s && serving s && (match s.bal.run with | some r => !r.skipped | none => false)

/-! ## Balance commands (R181, R186) -/

/-- Set scores to zero, at the unit and from the journal at its standby. -/
def resetScores (kind : Nat) (ids : List Nat) (s : State) : State :=
  if kind = 0 then
    let s := setBal (fun b => { b with meters := ids.foldl (fun m n => Kv.put n { m.getD n workEmpty with score := 0 } m) b.meters }) s
    ids.foldl (fun t n => if recState (imgOf t n) = 0 then t else writeRec n (fun r => setFld r 148 2 0) t) s
  else setBal (fun b => { b with nodes := ids.foldl (fun m n => Kv.put n { m.getD n nodeWorkEmpty with score := 0 } m) b.nodes }) s

/-- BAL_RESET_SCORES. -/
def balResetScores (kind : Nat) (ids : List Nat) (s : State) : State × Reply :=
  if 1 < kind || !isHead s || ids.any (fun n => if kind = 0 then decide (tblSize s ≤ n) else decide (65536 ≤ n)) then (s, .bad)
  else (journal (.scores kind ids) (resetScores kind ids s), .done)

/-- BAL_NODE_READ: result record, then the accumulators, runs counted and branch score (layout: log entry 25). -/
def balNodeRead (n : Nat) (s : State) : State × Reply :=
  let w := s.bal.nodes.getD n nodeWorkEmpty
  let a := w.acc
  (s, ⟨.ok, [], [padTo 64 w.result, beI 16 a.n ++ beI 16 a.x ++ beI 16 a.y ++ beI 16 a.xx ++ beI 16 a.yy ++ beI 16 a.xy
    ++ be 2 w.runs ++ be 2 w.score]⟩)

/-- BAL_METER_READ: exact score, coverage, and each method's result, confidence and age in seconds (layout: log entry 25). -/
def balMeterRead (n : Nat) (s : State) : State × Reply :=
  if tblSize s ≤ n then (s, .bad)
  else
    let w := workOf s n
    let v (x : Option Vote) : List Byte := match x with
      | some y => be 2 y.pick ++ be 1 y.conf ++ be 4 (min (unitSec s - y.at_) 0xFFFFFFFF)
      | none => be 2 0xFFFF ++ be 1 0 ++ be 4 0xFFFFFFFF
    (s, ⟨.ok, padTo 40 (be 2 w.score ++ be 1 w.cover ++ v w.vVote ++ v w.zVote ++ v w.fVote ++ v w.tVote), []⟩)

end Sys2Proof.Machine
end

