-- ==== Sys2Proof/Machine/Mea.lean ====
section
/-!
DEFINITION. Sys2Proof/Machine/Mea.lean: feeder measurement (chapter 14): calibration, energy, the minute record, the RMS series, power
quality and the one-cycle conditions (R452 to R459, R466, R467).
-/
namespace Sys2Proof.Machine

/-! ## Calibration (R454) -/

/-- Denominator of a calibrated sample. -/
def calD : Int := 8388608000000

/-- A calibrated sample as a numerator over calD: 0.01 V or mA. -/
def calNum (r : List Byte) (ch : Nat) (code : Int) : Int :=
  let o := 32 + 16 * ch
  (code - sext 32 (recFld r (o + 8) 4)) * (recFld r o 4 : Nat) * (1000000 + sext 16 (recFld r (o + 4) 2))

/-- All eight channels of a sample, currents inverted when DIRECTION says so. -/
def calSample (r : List Byte) (x : List Int) : List Int :=
  (List.range 8).map fun c =>
    let v := calNum r c (x.getD c 0)
    if 4 ≤ c && recFld r 169 1 % 2 = 1 then -v else v

/-- Is a current channel delayed (R454)? The filter's result is not stated (log entry 2). -/
def phased (r : List Byte) (p : Nat) : Bool := recFld r (32 + 16 * (4 + p) + 6) 2 != 0

/-- A clipped code. -/
def clipped (c : Int) : Bool := decide (c ≤ -8388608) || decide (8388607 ≤ c)

/-! ## Values with rounding the spec leaves open -/

/-- A quotient of whole numbers, rounded either way: the spec states no rounding (log entry 2). -/
def roundFree (num den : Int) (s : State) : Int × State :=
  let q := num / den
  if num % den = 0 then (q, s) else let (d, s) := draw s; (q + (d.toNat % 2 : Nat), s)

/-- √(num / den), rounded either way. -/
def sqrtFree (num den : Nat) (s : State) : Nat × State :=
  let q := isqrt (num / den)
  if q * q * den = num then (q, s) else let (d, s) := draw s; (q + d.toNat % 2, s)

/-- A free value of 32 bits. -/
def freeWord (s : State) : W32 × State := let (d, s) := draw s; (BitVec.ofNat 32 d.toNat, s)

/-- Energy of one phase over the second in 2^-16 mWh: Σ v × i × 125 µs; free when the current is delayed. -/
def phaseEnergy (r : List Byte) (xs : List (List Int)) (p : Nat) (s : State) : Int × State :=
  if phased r p then let (d, s) := draw s; (d.toInt, s)
  else
    let sum := xs.foldl (fun a x => a + x.getD p 0 * x.getD (4 + p) 0) 0
    roundFree (sum * 8192) (360000000 * calD * calD) s

/-- Deviation of an RMS from nominal in 0.01 %, toward zero and saturating: `sq` the sum of squares over n samples, nominal
squared `nom2` (R459). -/
def deviation (sq : Int) (n nom2 : Nat) : Int :=
  let den := (calD * calD).toNat * n * nom2
  let num := sq.toNat * 100000000
  let f := isqrt (num / den)
  let exact := f * f * den = num
  clampI (-32768) 32767 (if 10000 ≤ f || exact then (f : Int) - 10000 else (f : Int) + 1 - 10000)

/-- Differences that form the six voltages: L1, L2, L3 and the three line pairs. -/
def sixVolts (x : List Int) : List Int :=
  let a := x.getD 0 0; let b := x.getD 1 0; let c := x.getD 2 0
  [a, b, c, a - b, b - c, c - a]

/-- Sum of squares of one derived channel. -/
def sumSq (f : List Int → Int) (xs : List (List Int)) : Int := xs.foldl (fun a x => a + f x * f x) 0

/-! ## The second (R455, R459) -/

/-- Is MEA timed: TIM in RUN, and its time words arriving (R453)? -/
def meaTimed (s : State) : Bool := islInRun s 16 && !s.tim.lost.contains 15

/-- Values for the PQ block, one after another. -/
def pqWords (r : List Byte) (xs : List (List Int)) (sec : Nat) (s : State) : List W32 × State :=
  let n := max 1 xs.length
  let d2 := (calD * calD).toNat
  let freq := freeWord s
  let rms (acc : List W32 × State) (f : List Int → Int) : List W32 × State :=
    let v := sqrtFree (sumSq f xs).toNat (d2 * n) acc.2
    (acc.1 ++ [BitVec.ofNat 32 v.1], v.2)
  let chans : List (List Int → Int) :=
    [fun x => x.getD 0 0, fun x => x.getD 1 0, fun x => x.getD 2 0, fun x => x.getD 3 0,
     fun x => x.getD 0 0 - x.getD 1 0, fun x => x.getD 1 0 - x.getD 2 0, fun x => x.getD 2 0 - x.getD 0 0,
     fun x => x.getD 4 0, fun x => x.getD 5 0, fun x => x.getD 6 0, fun x => x.getD 7 0]
  let vi := chans.foldl rms (([] : List W32), freq.2)
  let ps := (List.range 3).foldl (fun (acc : List W32 × State) p =>
    if phased r p then (acc.1 ++ [(freeWord acc.2).1], (freeWord acc.2).2)
    else
      let v := roundFree (xs.foldl (fun a x => a + x.getD p 0 * x.getD (4 + p) 0) 0) (n * 100000 * calD * calD) acc.2
      (acc.1 ++ [wordI v.1], v.2)) (([] : List W32), vi.2)
  let rest := (List.range 7).foldl (fun (acc : List W32 × State) i =>
    let w := freeWord acc.2
    (acc.1 ++ [if i = 6 then w.1 &&& 0xFFFF#32 else w.1], w.2)) (([] : List W32), ps.2)
  ([BitVec.ofNat 32 sec, freq.1] ++ vi.1 ++ ps.1 ++ rest.1, rest.2)

/-- A second's deviations go to the balance, or to the head pair, from a unit that serves (R459, R466). -/
def giveRms (r : RmsRec) (sec : Nat) (s : State) : State :=
  if !serving s then s
  else if isHead s then storeRms ⟨(ownService s).toNat * 2 + r.head, sec, r.qflags == 0x80#8, r.dev⟩ s
  else sendEntry headUnit (.meaRms r) s

/-- A second of a head without a calibrated module (R464): it is missing, and its series entry, without samples, carries MODULE_MISSING
and six free deviations (R459). -/
def headless (h sec : Nat) (s : State) : State :=
  let dev := (List.range 6).foldl (fun (acc : List Int × State) _ => let (d, t) := draw acc.2; (acc.1 ++ [((d.toNat % 65536 : Nat) : Int) - 32768], t))
    (([] : List Int), s)
  giveRms ⟨h, 0x40#8, BitVec.ofNat 64 (sec * 65536), dev.1⟩ sec
    (setHead h (fun x => { x with rec_ := x.next, flags := x.flags ||| 0x40#8, missing := x.missing + 1 }) dev.2)

/-- Second `sec` of head `h` ends: energy, deviations and power quality. -/
def headSecond (h sec : Nat) (raw : List (List Int)) (s : State) : State :=
  if !headOn s h then s
  else if !modOk s h || (meaHead s h).rec_.isNone then headless h sec s
  else match (meaHead s h).rec_ with
    | none => s
    | some r =>
      let clips := raw.foldl (fun a x => a + (x.filter clipped).length) 0
      let s := if clips = 0 then s else setHead h (fun x => { x with flags := x.flags ||| 0x10#8 }) (countBy 0xF048 clips s)
      let xs := raw.map (calSample r)
      let short := raw.length < 8000
      let s := if short then setHead h (fun x => { x with missing := x.missing + 1 }) s else s
      let s := (List.range 3).foldl (fun t p =>
        let (e, t) := phaseEnergy r xs p t
        setHead h (fun x => if 0 ≤ e then { x with imp := x.imp.set p ((x.imp.getD p 0 + e.toNat) % 2 ^ 96) }
          else { x with exp := x.exp.set p ((x.exp.getD p 0 + (-e).toNat) % 2 ^ 96) }) t) s
      let nom := recFld r 160 4
      let dev := (List.range 6).map fun i =>
        deviation (sumSq (fun x => (sixVolts x).getD i 0) xs) (max 1 xs.length) (if i < 3 then nom * nom else 3 * nom * nom)
      let bad := short || clips != 0
      let q : Byte := (if bad then 0#8 else 0x80#8) ||| (if clips != 0 then 0x10#8 else 0#8)
      let rmsRec : RmsRec := ⟨h, q, BitVec.ofNat 64 (sec * 65536), dev⟩
      let s := if xs.isEmpty then s else giveRms rmsRec sec s
      let (pq, s) := if xs.isEmpty then ((meaHead s h).pq, s) else pqWords r xs sec s
      setHead h (fun x => { x with pq := pq, rec_ := match x.next with | some n => some n | none => x.rec_ }) s

/-- MEA_SECOND_END (R453, R455, R459): an untimed second is counted, and missing in its minute; else the samples of the second just ended, eight codes each, for heads 0 and 1. -/
def meaSecondEnd (x0 x1 : List (List Int)) (s : State) : State :=
  if !islRun s 15 || fieldOf s 0xF000 31 31 = 0 then s
  else if !meaTimed s then
    [0, 1].foldl (fun t h => if headOn t h then setHead h (fun x => { x with missing := x.missing + 1 }) t else t) (count 0xF04C s)
  else
    let sec := localSec s - 1
    headSecond 1 sec x1 (headSecond 0 sec x0 s)

/-! ## The minute (R455, R456, R467) -/

/-- The minute record of a head. -/
def minuteRec (s : State) (h : Nat) : MinuteRec :=
  let x := meaHead s h
  let imp := x.imp.map (· / 65536)
  let exp := x.exp.map (· / 65536)
  let sum (l : List Nat) : Int := (l.foldl (· + ·) 0 : Nat)
  let crc := match x.rec_ with | some r => recFld r 252 4 | none => 0
  let q : Byte := if x.flags = 0 && x.missing = 0 then 0x80#8 else x.flags
  ⟨h, q, min 60 x.missing, BitVec.ofNat 32 crc, BitVec.ofNat 64 (x.start * 65536), imp, exp, sum imp - sum exp⟩

/-- End a head's minute: the record goes to the balance, or to the head pair from a serving FIELD unit (R456, R458, R466);
fractions are carried, and the next minute starts at `start` with `flags`. -/
def headMinute (h start : Nat) (flags : Byte) (s : State) : State :=
  if !headOn s h then s
  else
    let m := minuteRec s h
    let ok := m.qflags == 0x80#8
    let s := count 0xF040 s
    let s := if ok then s else count 0xF044 s
    let s := setHead h (fun x => { x with imp := x.imp.map (· % 65536), exp := x.exp.map (· % 65536), missing := 0, start := start,
                                          flags := flags ||| (if modOk s h then 0#8 else 0x40#8) }) s
    if !serving s then s
    else if isHead s then storeMinute ⟨(ownService s).toNat * 2 + h, (m.start.toNat / 65536 : Nat), ok, m.net⟩ s
    else sendEntry headUnit (.meaInterval m) s

/-- A head's minute ends at the whole minute `now`: not one whose record starts at `now` or later (R467); the minute is the one before
`now`, also after minutes without a record (R453). -/
def minuteOf (h now : Nat) (s : State) : State :=
  if !headOn s h || now ≤ (meaHead s h).start then s else headMinute h now 0 (setHead h (fun x => { x with start := now - 60 }) s)

/-- MEA_MINUTE_END (R455): at a whole minute of local time, unless MEA is untimed (R453). -/
def meaMinuteEnd (s : State) : State :=
  if !islRun s 15 || fieldOf s 0xF000 31 31 = 0 || !meaTimed s then s
  else
    let now := localSec s / 60 * 60
    minuteOf 1 now (minuteOf 0 now s)

/-- The local clock has been stepped (R467): the minute ends with STEPPED, and so does the next one. -/
def meaStep (s : State) : State :=
  if !islRun s 15 || fieldOf s 0xF000 31 31 = 0 then s
  else
    let start := (localSec s + 59) / 60 * 60
    let one (h : Nat) (s : State) : State := headMinute h start 0x08#8 (setHead h (fun x => { x with flags := x.flags ||| 0x08#8 }) s)
    one 1 (one 0 s)

/-! ## Sags, swells and interruptions -/

/-- Event code and counter of a condition. -/
def condCount (k : Nat) : Nat := if k = 3 then 0xF05C else if k = 4 then 0xF060 else 0xF064

/-- End a condition: one event, with the phase, the duration and the extreme value. -/
def condEnd (h p : Nat) (c : PqCond) (s : State) : State :=
  let ms := min (2 ^ 28 - 1) ((s.tim.raw - c.start) / 1000000)
  event 15 c.kind (h * 2 ^ 31 + (p + 1) * 2 ^ 28 + ms) [be 4 c.extreme] (count (condCount c.kind) (setHead h (fun x => { x with cond := Kv.del p x.cond }) s))

/-- MEA_HALF_CYCLE_RMS (R459): the codes of one cycle of phase `p` (0 to 2) of a head refresh its one-cycle RMS. -/
def halfCycle (h p : Nat) (codes : List Int) (s : State) : State :=
  if 2 ≤ h || 3 ≤ p || !headOn s h || !modOk s h || codes.isEmpty then s
  else match (meaHead s h).rec_ with
    | none => s
    | some r =>
      let nom := recFld r 160 4
      let sq := (codes.foldl (fun a c => a + calNum r p c * calNum r p c) 0).toNat
      let den := (calD * calD).toNat * codes.length
      let below (pct : Nat) : Bool := decide (sq * 10000 < pct * pct * nom * nom * den)
      let above (pct : Nat) : Bool := decide (pct * pct * nom * nom * den < sq * 10000)
      let sag := fieldOf s 0xF000 23 16
      let swell := fieldOf s 0xF000 15 8
      let intr := fieldOf s 0xF000 7 0
      let root := sqrtFree sq den s
      let v := root.1
      let s := root.2
      let put (c : PqCond) (s : State) : State := setHead h (fun x => { x with cond := Kv.put p c x.cond }) s
      let s := if below sag then s else setHead h (fun x => { x with noSag := x.noSag.filter (· != p) }) s
      match Kv.get? p (meaHead s h).cond with
      | none =>
        if below intr then put ⟨5, s.tim.raw, v⟩ s
        else if below sag && !(meaHead s h).noSag.contains p then put ⟨3, s.tim.raw, v⟩ s
        else if above swell then put ⟨4, s.tim.raw, v⟩ s
        else s
      | some c =>
        let c' := { c with extreme := if c.kind = 4 then max c.extreme v else min c.extreme v }
        if c.kind = 3 then
          if below intr then put ⟨5, s.tim.raw, v⟩ s
          else if below (sag + 2) then put c' s else condEnd h p c' s
        else if c.kind = 4 then
          if above (swell - 2) then put c' s else condEnd h p c' s
        else if below (intr + 2) then put c' s
        else
          let s := condEnd h p c' s
          if below sag then setHead h (fun x => { x with noSag := x.noSag ++ [p] }) s else s

/-! ## Entries of field units at the head (R458, R459) -/

/-- Keys of relayed records: service ID and head. -/
def meaEntry (u : BitVec 12) (m : MinuteRec) (s : State) : State :=
  let k := u.toNat * 2 + m.head % 2
  let at_ : Int := (m.start.toNat / 65536 : Nat)
  if s.bal.minutes.any (fun x => x.head = k && x.start = at_) then s
  else storeMinute ⟨k, at_, m.qflags == 0x80#8, m.net⟩ s

def rmsEntry (u : BitVec 12) (m : RmsRec) (s : State) : State :=
  storeRms ⟨u.toNat * 2 + m.head % 2, (m.second.toNat / 65536 : Nat), m.qflags.toNat % 128 = 0, m.dev⟩ s

end Sys2Proof.Machine
end

