-- ==== Sys2Proof/Machine/Time.lean ====
section
/-!
DEFINITION. Sys2Proof/Machine/Time.lean: network time (chapter 10): sources, steps and the servo, PTP, the time words, the real-time
counter and leap seconds.
-/
namespace Sys2Proof.Machine

def setTim (f : TimState → TimState) (s : State) : State := { s with tim := f s.tim }

/-- TIM_STATUS.STATE: a change shows in the notice fabric (R543). -/
def putTimSt (st : Nat) (s : State) : State :=
  if s.tim.st = st then s else notice 5 (setTim (fun t => { t with st := st }) s)

/-- Entry to HOLDOVER (R328, R332): counted; LOCK_COUNT starts again. -/
def enterHoldover (s : State) : State :=
  if s.tim.st = 3 then s else putTimSt 3 (count 0x1004C (setTim (fun t => { t with good := 0 }) s))

/-! ## Sources (R328, R329) -/

/-- The first available source of the table. -/
def pickSource (t : TimState) : Nat :=
  match t.avail.contains 1, t.avail.contains 2 with
  | true, true => if t.bestPort then 2 else 1
  | true, false => 1
  | false, true => 2
  | false, false => if t.avail.contains 3 then 3 else if t.avail.contains 4 then 4 else 0

/-- The source in use follows the table; SOURCE 5 stands until a source becomes available (R333). A change counts, ends a refusal
episode, and the loss of the last source enters HOLDOVER. -/
def updateSource (s : State) : State :=
  let new := pickSource s.tim
  if new = s.tim.source || (new = 0 && s.tim.source = 5) then s
  else
    let s := count 0x10048 (setTim (fun t => { t with source := new, refused := none }) s)
    if new = 0 && s.tim.valid then enterHoldover s else s

/-- A source becomes available. -/
def sourceUp (code : Nat) (s : State) : State :=
  updateSource (setTim (fun t => { t with avail := if t.avail.contains code then t.avail else t.avail ++ [code] }) s)

/-- A source stops being available. -/
def sourceDown (code : Nat) (s : State) : State :=
  updateSource (setTim (fun t => { t with avail := t.avail.filter (· != code) }) s)

/-! ## Steps and the servo (R331 to R333) -/

/-- Move the clock by some ns; the steps' consequences: rate-limit windows start anew (R572), MEA's minute ends (R467), and balance
intervals crossed close (R343). -/
def moveClock (ns : Int) (s : State) : State :=
  let s := setTim (fun t => { t with clk := ((t.clk : Int) + ns * 65536).toNat }) s
  intervalClose (meaStep (endWindows s))

/-- The first step (R331). -/
def firstStep (src : Nat) (ns : Int) (s : State) : State :=
  let s := count 0x10040 (event 16 0x01 src [beI 8 ns] (setTim (fun t => { t with valid := true, stepped := true, lastGood := t.raw }) s))
  moveClock ns (putTimSt 2 s)

/-- The servo on an offset within STEP_THRESH (R332). -/
def servo (off : Int) (s : State) : State :=
  let lockNs : Int := fieldOf s 0x10008 31 16
  let s := setTim (fun t => { t with used := true, lastGood := t.raw }) s
  if lockNs < off.natAbs then putTimSt 2 (setTim (fun t => { t with good := 0, rate := clampI (-500000) 500000 (-off) }) s)
  else
    let (d, s) := draw s
    let good := s.tim.good + 1
    let s := setTim (fun t => { t with good := good, rate := (d.toNat % 1000001 : Nat) - 500000 }) s
    if fieldOf s 0x10008 15 8 ≤ good then putTimSt 1 s else if s.tim.st = 3 then putTimSt 2 s else s

/-- A new offset of a source, in ns (R329, R331, R332). The first one steps the clock whatever its source; after it only the source in
use is judged. -/
def newOffset (code : Nat) (off : Int) (s : State) : State :=
  if !islRun s 16 then s else
  let s := sourceUp code s
  if s.tim.source ≠ code && s.tim.stepped then s
  else
    let s := setTim (fun t => { t with offset := off, lastOff := some (code, off, t.raw) }) s
    if !s.tim.stepped then firstStep code (-off) (setTim (fun t => { t with used := true }) s)
    else if (reg s 0x10004).toNat < off.natAbs then
      let again := s.tim.refused == some code
      let s := enterHoldover (count 0x10044 (setTim (fun t => { t with jumpRefused := true, refused := some code, good := 0 }) s))
      if again then s else event 16 0x03 (wordI (satI32 off)).toNat [] s
    else servo off (setTim (fun t => { t with refused := if t.refused = some code then none else t.refused }) s)

/-- TIM_STEP (R333). -/
def timStep (mode sec ns : Nat) (s : State) : State × Reply :=
  let cur := (s.tim.clk / 65536 : Nat)
  let step : Option Int :=
    if mode = 0 then match s.tim.lastOff with
      | some (c, off, at_) => if c = s.tim.source && s.tim.raw ≤ at_ + 3000000000 then some (-off) else none
      | none => none
    else some ((sec % 2 ^ 48 * 1000000000 + ns : Nat) - (cur : Int))
  if !islInRun s 16 || 1 < mode || 1000000000 ≤ ns || (mode = 0 && (sec ≠ 0 || ns ≠ 0)) then (s, .bad)
  else match step with
    | none => (s, .bad)
    | some d =>
      if !s.tim.valid then
        let s := setTim (fun t => { t with source := if t.source = 0 then 5 else t.source, jumpRefused := false }) s
        (firstStep 5 d s, .done)
      else
        let s := count 0x10040 (event 16 0x02 mode [beI 8 d] (setTim (fun t => { t with jumpRefused := false, good := 0 }) s))
        (moveClock d (putTimSt 2 s), .done)

/-! ## PTP (R335, R336, R338) -/

def ptpPortOf (s : State) (p : Bool) : PtpPort := s.tim.ports.getD (b2n p) ⟨false, none, 0⟩
def setPtpPort (p : Bool) (v : PtpPort) (s : State) : State := setTim (fun t => { t with ports := Kv.put (b2n p) v t.ports }) s

/-- Does TIM run PTP on a port (TIM_CONFIG.PORTS)? -/
def ptpOn (s : State) (p : Bool) : Bool := islRun s 16 && fieldOf s 0x10000 25 24 / 2 ^ b2n p % 2 = 1

/-- PROFILE 0 is the power utility profile. -/
def powerProfile (s : State) : Bool := fieldOf s 0x10000 31 30 = 0

/-- Ingress and egress correction of a port, in tenths of a nanosecond (R338), with the board's PHY latency in USXGMII mode. -/
def stampCorr (s : State) (p : Bool) (rate : Nat) : Int × Int :=
  let phy := 0x10030 + 4 * b2n p
  match (ethOf s p).mode with
  | 1 => (480, 384)
  | 2 => (2240, 1360)
  | _ =>
    let c : Int × Int := match rate with
      | 10000 => (416, 352) | 5000 => (832, 704) | 2500 => (1664, 1408) | 1000 => (4160, 3520) | _ => (0, 0)
    (c.1 + 10 * fieldOf s phy 31 16, c.2 + 10 * fieldOf s phy 15 0)

/-- A new UTC offset; the one before stays known for the instants before the change (R325). -/
def setUtc (utc : Int) (s : State) (t : TimState) : TimState :=
  if utc = t.utc then t else { t with utc := utc, utcPrev := some (t.utc, localSec s) }

/-- Are transport and interval ones R335 accepts? In PROFILE 0 the interval is the profile's own, which the spec does not state. -/
def ptpFits (s : State) (m : PtpMsg) : Bool :=
  m.transport = (if powerProfile s then 0 else fieldOf s 0x10000 29 28)
    && (powerProfile s || match m.body with
      | .sync .. => decide (-4 ≤ m.logInterval && m.logInterval ≤ 1)
      | .announce .. => decide (0 ≤ m.logInterval && m.logInterval ≤ 3)
      | .pdelay .. | .delay .. | .pdelayReq => true)

/-- An Announce (R325, R328): the port's state, the grandmaster behind it, and the UTC offset of the source in use. -/
def announceRx (p : Bool) (gm : GmData) (slave best : Bool) (utc : Int) (utcValid leap59 leap61 : Bool) (s : State) : State :=
  let code := 1 + b2n p
  let v := ptpPortOf s p
  let was := s.tim.source
  let s := setTim (fun t => { t with bestPort := p == best }) (setPtpPort p { v with slave := slave, gm := some gm } s)
  let s := if slave then sourceUp code s else sourceDown code s
  if s.tim.source ≠ code then s
  else
    let s := if was = code && v.gm.isSome && v.gm.map (·.id) != some gm.id then count 0x10048 s else s
    let s := if utcValid then setTim (fun t => { setUtc utc s t with fromPtp := true }) s else s
    let dayEnd := ((localSec s : Int) - s.tim.utc) / 86400 * 86400 + 86400
    let keep (d : Int) : Option (Int × Int) := match s.tim.leap with | some (e, u) => if e = d then some (e, u) else some (d, dayEnd) | none => some (d, dayEnd)
    setTim (fun t => { t with leap := if leap61 then keep 1 else if leap59 then keep (-1) else none }) s

/-- PTP_MESSAGE_RX (R335, R329). -/
def ptpMessageRx (p : Bool) (m : PtpMsg) (s : State) : State :=
  if !ptpOn s p || !ethLink s p then s
  else if m.domain.toNat ≠ fieldOf s 0x10000 23 16 || !m.versionOk || !m.typeOk || !ptpFits s m then count 0x10050 s
  else
    let v := ptpPortOf s p
    let (rx, tx) := stampCorr s p m.rate
    match m.body with
    | .announce gm slave best utc uv l59 l61 => announceRx p gm slave best utc uv l59 l61 s
    | .sync t1 t2 => if v.slave then newOffset (1 + b2n p) (Int.tdiv (t2 - rx - t1 - v.delay) 10) s else s
    | .pdelay t1 t2 t3 t4 =>
      if powerProfile s then setPtpPort p { v with delay := Int.tdiv ((t4 - rx) - (t1 + tx) - (t3 - t2)) 2 } s else count 0x10050 s
    | .delay t1 t2 t3 t4 =>
      if powerProfile s then count 0x10050 s
      else setPtpPort p { v with delay := Int.tdiv ((t2 - rx - t1) + (t4 - (t3 + tx))) 2 } s
    | .pdelayReq => ethSend p 1 72 1 (.pdelayResp p) s

/-- Is a port MASTER: a boundary clock's port that is not SLAVE (log entry 23)? -/
def ptpMaster (s : State) (p : Bool) : Bool := fieldOf s 0x10000 26 26 = 1 && !(ptpPortOf s p).slave

/-- clockClass of the unit's own data set (R336). -/
def clockClass (s : State) : Nat := if s.tim.stepped && s.tim.used && s.tim.st = 3 then 187 else 248

/-- PTP_MESSAGE_SEND (R336): Sync and Announce by a MASTER, delay requests by the profile's mechanism. -/
def ptpMessageSend (p : Bool) (k : PtpSend) (s : State) : State :=
  if !ptpOn s p || !ethLink s p then s
  else match k with
    | .sync =>
      if !ptpMaster s p then s
      else
        let one := fieldOf s 0x10000 27 27 = 1 && (powerProfile s || fieldOf s 0x10000 29 28 = 0)
        let rate := match (ethOf s p).speed with | 1 => 1000 | 2 => 2500 | 3 => 5000 | 4 => 10000 | _ => 0
        ethSend p 1 64 1 (.ptp p .sync one ((s.tim.clk * 10 / 65536 : Nat) + (stampCorr s p rate).2)) s
    | .announce =>
      if !ptpMaster s p then s
      else
        let gm := if s.tim.source = 1 || s.tim.source = 2 then (ptpPortOf s (s.tim.source == 2)).gm else none
        ethSend p 1 82 1 (.announce p gm (fieldOf s 0x10000 15 8) (fieldOf s 0x10000 7 0) (clockClass s) 0xFE s.tim.utc) s
    | .pdelayReq => if powerProfile s then ethSend p 1 72 1 (.ptp p .pdelayReq false 0) s else s
    | .delayReq => if !powerProfile s && (ptpPortOf s p).slave then ethSend p 1 64 1 (.ptp p .delayReq false 0) s else s

/-- SOURCE_TIMEOUT (R329): three intervals without an offset, or the Announce receipt timeout of a port. -/
def sourceTimeout (code : Nat) (s : State) : State :=
  if !islRun s 16 then s
  else
    let s := if code = 1 || code = 2 then
        let p := code == 2
        setPtpPort p { ptpPortOf s p with slave := false } s
      else s
    sourceDown code s

/-! ## Distribution, real-time counter, leap seconds -/

/-- TIME_WORD (R340): every island takes the word's value; stamps marked invalid for want of words are good again. -/
def timeWord (s : State) : State :=
  if !islRun s 16 then s else emit (.timeWord s.tim.clk s.tim.rate) (setTim (fun t => { t with lost := [] }) s)

/-- TIME_WORD_LOSS (R340): an island misses three words. -/
def timeWordLoss (isl : Nat) (s : State) : State :=
  if 20 < isl || s.tim.lost.contains isl then s else count 0x10054 (setTim (fun t => { t with lost := t.lost ++ [isl] }) s)

/-- RTC_WRITE (R331): the local seconds into BKP's real-time counter, which is then valid. -/
def rtcWrite (s : State) : State :=
  if !islRun s 16 || !s.tim.stepped then s
  else
    let n := localSec s
    setField 0x1000 30 30 1 (setReg 0x100C (BitVec.ofNat 32 (n / 2 ^ 32 % 65536)) (setReg 0x1008 (BitVec.ofNat 32 n) s))

/-- LEAP_SECOND (R325): at the end of the UTC day named, only the offset changes. -/
def leapSecond (s : State) : State :=
  match s.tim.leap with
  | some (d, u) =>
    if (localSec s : Int) - s.tim.utc < u + d then s
    else setTim (fun t => { setUtc (t.utc + d) s t with leap := none }) s
  | none => s

/-- Signed value of a 16-bit UTC offset. -/
def bundleUtc (s : State) : Int := match (s.boot.bundle.bind (·.utcOffset)) with | some v => v.toInt | none => 0

/-- TIM starts (R330): the clock is seeded from BKP, or with zero; TIME_VALID 0, STATE FREE, UTC offset from the bundle. -/
def timStart (s : State) : State :=
  let seed := if fieldOf s 0x1000 30 30 = 1 then fieldOf s 0x100C 15 0 * 2 ^ 32 + (reg s 0x1008).toNat else 0
  let st := s.tim.st
  let s := setTim (fun t => { timReset with clk := seed * 65536000000000, raw := t.raw, utc := bundleUtc s }) s
  if st = 0 then s else notice 5 s

/-- TIM_HOLD_ERR (R334). -/
def holdErr (s : State) : W32 :=
  if s.tim.st = 3 then BitVec.ofNat 32 (min 0xFFFFFFFF (fieldOf s 0x1000C 31 16 * (s.tim.raw - s.tim.lastGood) / 1000000000)) else 0

end Sys2Proof.Machine
end

