-- ==== Sys2Proof/Machine/Radio.lean ====
section
/-!
DEFINITION. Sys2Proof/Machine/Radio.lean: the transceivers (chapter 08): timeslots, received frames, joins and cells, drift,
desynchronised neighbours, missed beacons and scans (R262 to R287).
-/
namespace Sys2Proof.Machine

/-! ## Cells (R271, R272) -/

/-- Uplink cells of a transceiver: (m − 1) × SF1_LEN, or SF1_LEN with one lane. -/
def rfCellCount (s : State) (n : Nat) : Nat :=
  let m := (rfLanes s n).1
  (if m = 1 then 1 else m - 1) * fieldOf s (rfBase n + 8) 23 12

/-- Slot of an uplink cell: cells are numbered by slot, then by offset. -/
def cellSlot (s : State) (n c : Nat) : Nat := let m := (rfLanes s n).1; c / (if m = 1 then 1 else m - 1)

/-- Cells in use. -/
def cellsUsed (r : RfState) : List Nat := r.ends.flatMap fun e => e.2.cells

/-- The lowest `k` free uplink cells, or none. -/
def freeCells (s : State) (n k : Nat) : Option (List Nat) :=
  let used := cellsUsed (rfOf s n)
  let l := ((List.range (rfCellCount s n)).filter fun c => !used.contains c).take k
  if l.length = k then some l else none

/-- Radio endpoints of the unit. -/
def rfEndpoints (r : RfState) : Nat := (r.ends.filter fun e => !e.2.unit && e.2.st != .lost).length
def rfUnits (r : RfState) : Nat := (r.ends.filter fun e => e.2.unit && e.2.st != .lost).length

/-! ## Drift and windows (R278, R279) -/

/-- The local clock in ns. -/
def clkNow (s : State) : Nat := s.tim.clk / 65536

/-- Predicted offset p in µs at time `t`. -/
def rfPredict (e : RfEnd) (t : Nat) : Int := match e.drift with | some d => Int.tdiv (d * (t - e.corrAt : Nat)) 100000000000 | none => 0

/-- G of R269. -/
def rfGuard (s : State) (n : Nat) : Nat := fieldOf s (rfBase n + 0x10) 31 16

/-- h of R279. -/
def rfWindow (s : State) (n : Nat) (e : RfEnd) : Nat :=
  let g := rfGuard s n
  min (2 * g) (max g ((rfPredict e (clkNow s)).natAbs + 200))

/-- Is the cell capped (R279)? -/
def rfCapped (s : State) (n : Nat) (e : RfEnd) : Bool := decide (2 * rfGuard s n < (rfPredict e (clkNow s)).natAbs + 200)

/-- The drift estimate after a frame with offset `o` at time `t` (R278); it needs time since the neighbour was last corrected. -/
def rfDrift (e : RfEnd) (o : Int) (t : Nat) : RfEnd :=
  let dt := t - e.corrAt
  if dt = 0 then e
  else
    let raw := Int.tdiv (o * 100000000000) dt
    let d := match e.drift with | none => raw | some d => d + Int.tdiv (raw - d) 4
    { e with drift := some (clampI (-32768) 32767 d) }

/-! ## Sending (R266, R274, R285) -/

/-- The PAN of the network a transceiver is in. -/
def rfPan (s : State) (n : Nat) : Nat := if rfChild s n then (rfOf s n).parentPan else fieldOf s (rfBase n) 15 0

/-- Channel of a cell (R267). -/
def rfChannel (s : State) (n asn off : Nat) : Nat :=
  let l := rfAllowed s n
  l.getD (((asn + off) * (rfLanes s n).2 + rfPan s n) % max 1 l.length) 0

/-- Is the external front end used (R265)? -/
def rfExtPa (s : State) (n : Nat) : Bool := fieldOf s (rfBase n + 4) 3 3 = 1

/-- One transmission: frame counter, count, frame, with RFx_PA_EN about it (R265). -/
def rfEmit (n : Nat) (dest : Option Nat) (chan : Nat) (pay : AccessPay) (s : State) : State :=
  if !modOk s (6 + n) || s.tim.raw < (rfOf s n).modUntil then s else
  let r := rfOf s n
  let s := if r.outEnd ≤ r.outCtr then rfJournal n (setRf n (fun r => { r with outEnd := r.outCtr + 4096 }) s) else s
  emit (.rf n dest chan r.outCtr (rfAtten s n) (rfExtPa s n) pay) (rfCount n 0x68 (setRf n (fun r => { r with outCtr := r.outCtr + 1 }) s))

/-- The join metric (R274): 0 with an Ethernet uplink in RUN, else the time parent's plus 1; none above 6. -/
def rfMetric (s : State) : Option Nat :=
  if (ethLink s false && islRun s 11) || (ethLink s true && islRun s 12) then some 0
  else
    let ps := (List.range 2).filterMap fun n => if rfChild s n && (rfOf s n).parent != 0 then some (rfOf s n).parentMetric else none
    match ps with
    | [] => none
    | p :: _ => if p + 1 ≤ 6 then some (p + 1) else none

/-- The enhanced beacon (R269, R271, R274). -/
def rfBeacon (s : State) (n asn metric : Nat) : Beacon :=
  let l := rfAllowed s n
  let g := rfGuard s n
  { asn := asn, metric := metric, frameLen := fieldOf s (rfBase n + 8) 31 24,
    links := (0, 0, false) :: (List.range (fieldOf s (rfBase n + 0xC) 31 28)).map fun i => (i + 1, 0, true),
    hopping := (List.range l.length).map fun i => l.getD ((i * (rfLanes s n).2 + rfPan s n) % max 1 l.length) 0,
    timeslot := { id := 1, ccaOffset := 1800, cca := 128, txOffset := 3000, rxOffset := 3000 - g, rxWait := 2 * g, txAckDelay := 1000,
                  rxAckDelay := 800, ackWait := 400, rxTx := 192, maxTx := rfMaxTx s n, maxAck := rfMaxAck s n, length := rfSlotMs s n * 1000 } }

/-! ## Acknowledgements (R266, R273, R275) -/

/-- dB that n carriers of one transmission are reduced by: 10 log10 n, rounded up; there are four lanes. -/
def rfAckDrop (n : Nat) : Nat := if n ≤ 1 then 0 else if n = 2 then 4 else if n = 3 then 5 else 7

/-- Send what is due, the earliest first: acknowledgements that overlap in time go together. -/
def rfSendAcks : Nat → Nat → State → State
  | 0, _, s => s
  | fuel + 1, n, s => match (rfOf s n).acks with
    | [] => s
    | a :: t =>
      let first := t.foldl (fun m x => min m x.at_) a.at_
      let now (x : RfAck) : Bool := decide (x.at_ < first + rfMaxAck s n * 1000)
      let go := (a :: t).filter now
      rfSendAcks fuel n (emit (.rfAck n go (rfAtten s n + rfAckDrop go.length) (rfExtPa s n))
        (setRf n (fun r => { r with acks := r.acks.filter fun x => !now x }) s))

/-- Acknowledgements go TsTxAckDelay after the end of their frames (R269, R275). -/
def rfAcksDue (n : Nat) (s : State) : State :=
  if (rfOf s n).acks.any (fun a => a.at_ + 1000000 ≤ s.tim.raw) then rfSendAcks (rfOf s n).acks.length n s else s

/-- Acknowledge a frame: a coordinator corrects the time of a neighbour of its network, and tells a sleepy one that frames wait for it. -/
def rfAckFrame (n : Nat) (f : RfFrame) (s : State) : State :=
  let r := rfOf s n
  let child := rfChild s n
  let e := Kv.get? f.src r.ends
  let pend := match e with | some e => e.sleepy && r.queue.any (fun t => t.dest = some f.src) | none => false
  setRf n (fun r => { r with
    acks := r.acks ++ [⟨f.src, f.lane, if child then none else some (-f.offset), pend, f.endAt⟩],
    ends := match e with
      | some e => if child then r.ends else Kv.put f.src { e with corrAt := clkNow s, polled := e.polled || pend } r.ends
      | none => r.ends }) s

/-! ## What the last slot left (R277, R280, R283) -/

/-- RF_ACK_TIMEOUT (R277): the attempt of the last slot got no acknowledgement. After one in a shared cell the backoff of TSCH CSMA-CA
lets cells pass: a random number below 2^BE, with the exponent from 1 up to 7 (R262; PRESUMED, log entry 134). -/
def rfAckTimeout (n : Nat) (s : State) : State :=
  match (rfOf s n).inAir with
  | none => s
  | some (id, shared) =>
    let s := rfCount n 0x6C (setRf n (fun r => { r with inAir := none }) s)
    match (rfOf s n).queue.find? (fun t => t.id == id) with
    | none => s
    | some t =>
      if t.tries < fieldOf s (rfBase n + 4) 2 0 then
        let (d, s) := if shared then draw s else (0, s)
        setRf n (fun r => { r with queue := r.queue.map fun x => if x.id != id then x else
          if shared then { x with tries := x.tries + 1, be := min 7 (x.be + 1), wait := d.toNat % 2 ^ min 7 (x.be + 1) }
          else { x with tries := x.tries + 1 } }) s
      else rfCount n 0x70 (setRf n (fun r => { r with queue := r.queue.filter fun x => x.id != id }) s)

/-- RF_FAILED_SLOT (R280): a capped cell without a valid frame; three in a row mark the neighbour DESYNC. -/
def rfFailedSlots (n : Nat) (s : State) : State :=
  let l := (rfOf s n).listening
  let s := l.foldl (fun t k => match Kv.get? k (rfOf t n).ends with
    | none => t
    | some e =>
      let e := { e with failed := e.failed + 1 }
      if 3 ≤ e.failed && e.st == .sync then
        rfCount n 0x7C (setRf n (fun r => { r with ends := Kv.put k { e with st := .desync, kaTries := 0 } r.ends }) t)
      else setRf n (fun r => { r with ends := Kv.put k e r.ends }) t) s
  setRf n (fun r => { r with listening := [] }) s

/-- A child leaves its networks (R283). -/
def rfLeave (n : Nat) (s : State) : State :=
  let pan := (rfOf s n).parentPan
  let s := setRf n (fun r =>
    { r with ends := [], key := none, keyOld := none, sync := false, misses := 8, parent := 0, parentPan := 0xFFFF, secondary := none,
             secHeard := none, ebDue := false, myCells := [] }) s
  event (9 + n) 0x04 pan [] (rfCount n 0x90 (sourceDown 4 s))

/-- EB_MISS (R283, R284): the EB cell passed without a valid EB. -/
def rfEbMiss (n : Nat) (s : State) : State :=
  let s := rfCount n 0x88 (setRf n (fun r => { r with misses := min 8 (r.misses + 1), ebDue := false }) s)
  let r := rfOf s n
  if r.misses = 3 then
    let s := setRf n (fun r => { r with sync := false }) s
    let s := if rfChild s n then sourceDown 4 s else s
    match r.secondary, r.secHeard with
    | some pan, some t =>
      if rfChild s n && decide (s.tim.raw ≤ t + 60000000000) then
        event (9 + n) 0x03 pan [] (rfCount n 0x8C (setRf n (fun r => { r with parent := 2, parentPan := pan }) s))
      else s
    | _, _ => s
  else if r.misses = 8 && rfChild s n then rfLeave n s
  else s

/-! ## Timeslots (R266, R271) -/

/-- Is slot `asn` the EB slot of the network (R271)? -/
def rfEbSlot (s : State) (n asn : Nat) : Bool :=
  let len := fieldOf s (rfBase n + 8) 31 24
  asn % len = 0 && asn / len % fieldOf s (rfBase n + 0xC) 27 24 = 0

/-- Is slot `asn` a shared cell of slotframe 0 (R271)? -/
def rfSharedSlot (s : State) (n asn : Nat) : Bool :=
  let slot := asn % fieldOf s (rfBase n + 8) 31 24
  1 ≤ slot && slot ≤ fieldOf s (rfBase n + 0xC) 31 28

/-- May a frame go in a shared cell (R271): a broadcast, a frame of a join, downlink to a unit neighbour, or a retry? -/
def rfMayShared (r : RfState) (t : RfTx) : Bool :=
  match t.pay, t.dest with
  | .joined .., _ | .eapFailure, _ | _, none => true
  | _, some k => match Kv.get? k r.ends with
    | some e => e.unit || (t.tries != 0 && (!e.sleepy || e.polled))
    | none => true

/-- The DESYNC neighbour that the next keep-alive goes to: the one with the fewest so far. -/
def rfDesync (r : RfState) : Option Nat :=
  ((r.ends.filter fun e => e.2.st == .desync).foldl (fun (b : Option (Nat × Nat)) e => match b with
    | some (_, k) => if e.2.kaTries < k then some (e.1, e.2.kaTries) else b
    | none => some (e.1, e.2.kaTries)) none).map (·.1)

/-- The frame a coordinator sends in slot `asn`, if any, and whether in a shared cell: EB, shared cell, then downlink by the lowest handle. -/
def rfPick (s : State) (n asn : Nat) : Option (Option RfTx × Nat × AccessPay × Bool) :=
  let r := rfOf s n
  let shared := rfSharedSlot s n asn
  let sf2 := fieldOf s (rfBase n + 8) 11 0
  let ka := if asn % fieldOf s (rfBase n + 8) 31 24 = 1 then rfDesync r else none
  if rfEbSlot s n asn then
    match rfMetric s with
    | some m => some (none, 0, .eb (rfBeacon s n asn m), false)
    | none => none
  else match ka with
    | some k => some (none, k, .keepAlive, true)
    | none =>
      let mayDown (t : RfTx) : Bool := match t.dest with
        | none => false
        | some k => (match Kv.get? k r.ends with
          | some e => !e.unit && (!e.sleepy || e.polled) && e.cells.any (fun c => c % sf2 = asn % sf2)
          | none => false)
      match (if shared then r.queue.find? (fun t => rfMayShared r t && t.wait = 0) else none) with
      | some t => some (some t, t.dest.getD 0xFFFF, t.pay, true)
      | none => match r.queue.find? mayDown with
        | some t => some (some t, t.dest.getD 0xFFFF, t.pay, false)
        | none => none

/-- Uplink cells that fall in slot `asn`: neighbour and offset. -/
def rfUplinks (s : State) (n asn : Nat) : List (Nat × Nat) :=
  let m := (rfLanes s n).1
  let sl := asn % fieldOf s (rfBase n + 8) 23 12
  (rfOf s n).ends.flatMap fun e => (e.2.cells.filter fun c => cellSlot s n c = sl).map fun c => (e.1, if m = 1 then 0 else c % (m - 1) + 1)

/-- A shared cell passes for the frames that back off. -/
def rfBackoff (s : State) (n asn : Nat) : State :=
  if !rfSharedSlot s n asn then s
  else setRf n (fun r => { r with queue := r.queue.map fun t => if rfMayShared r t then { t with wait := t.wait - 1 } else t }) s

/-- A KEEPALIVE_SEND (R280): KA_TRIES keep-alives without success make the neighbour LOST. -/
def rfKeepAlive (n k : Nat) (s : State) : State :=
  match Kv.get? k (rfOf s n).ends with
  | none => s
  | some e =>
    if fieldOf s (rfBase n + 0x10) 15 12 ≤ e.kaTries then
      rfCount n 0x84 (setRf n (fun r => { r with ends := Kv.put k { e with st := .lost, cells := [] } r.ends }) s)
    else
      rfEmit n (some k) (rfChannel s n (rfAsn s n) 0) .keepAlive
        (rfCount n 0x80 (setRf n (fun r => { r with ends := Kv.put k { e with kaTries := e.kaTries + 1 } r.ends }) s))

/-- A coordinator's slot: one frame in a transmit cell, all of them on offset 0, or each lane's receive cell. -/
def rfCoordSlot (n : Nat) (s : State) : State :=
  let asn := rfAsn s n
  let s := setRf n (fun r => { r with asn := asn }) s
  let ups := rfUplinks s n asn
  let lna (on : Bool) (s : State) : State := setRf n (fun r => { r with lna := on && rfExtPa s n }) s
  match rfPick s n asn with
  | some (t, k, pay, shared) =>
    let skipped := (ups.filter fun u => u.2 != 0).length
    let s := rfBackoff (setRf n (fun r => { r with sending := some 0 }) (if skipped = 0 then s else rfCountBy n 0x74 skipped s)) n asn
    match t, pay with
    | none, .keepAlive => rfKeepAlive n k (lna true s)
    | none, _ => rfEmit n none (rfChannel s n asn 0) pay (lna false s)
    | some t, _ =>
      let s := rfEmit n t.dest (rfChannel s n asn 0) pay (lna t.dest.isSome s)
      setRf n (fun r => match t.dest with
        | none => { r with queue := r.queue.filter fun x => x.id != t.id }
        | some k => { r with inAir := some (t.id, shared),
                             ends := match Kv.get? k r.ends with | some e => Kv.put k { e with polled := false } r.ends | none => r.ends }) s
  | none =>
    let capped := (ups.filter fun u => match Kv.get? u.1 (rfOf s n).ends with | some e => rfCapped s n e | none => false).map (·.1)
    setRf n (fun r => { r with listening := capped }) (lna (rfSharedSlot s n asn || !ups.isEmpty) (rfBackoff s n asn))

/-- A child's slot: its oldest frame in an uplink cell of its own, at the offset of the cell; the EB cell of its parent is watched. -/
def rfChildSlot (n : Nat) (s : State) : State :=
  let s := setRf n (fun r => { r with asn := (r.asn + 1) % 2 ^ 40, lna := rfExtPa s n }) s
  let r := rfOf s n
  let m := (rfLanes s n).1
  if r.parent = 0 then s
  else if rfEbSlot s n r.asn then setRf n (fun r => { r with ebDue := true }) s
  else match r.queue, r.myCells.find? (fun c => cellSlot s n c = r.asn % fieldOf s (rfBase n + 8) 23 12) with
    | t :: _, some c =>
      let off := if m = 1 then 0 else c % (m - 1) + 1
      setRf n (fun r => { r with inAir := some (t.id, false), sending := some off }) (rfEmit n t.dest (rfChannel s n r.asn off) t.pay s)
    | _, _ => s

/-- RF_TIMESLOT (R266): what the last slot left, then this one; a standby listens to the active's EBs only (R284). -/
def rfTimeslot (n : Nat) (s : State) : State :=
  if !islRun s (9 + n) then s
  else
    let s := rfFailedSlots n (rfAckTimeout n (rfSendAcks (rfOf s n).acks.length n s))
    let s := setRf n (fun r => { r with sending := none, lna := false }) s
    let s := if (rfOf s n).ebDue then rfEbMiss n s else s
    let s := if rfChild s n then (if serving s then rfChildSlot n s else s)
      else if serving s then rfCoordSlot n s
      else if isStandby s && rfEbSlot s n (rfAsn s n) then setRf n (fun r => { r with ebDue := true }) s
      else s
    rfJournal n s

/-! ## Received frames (R275, R276) -/

/-- The network key, drawn when there is none (R272). -/
def rfDrawKey (n : Nat) (s : State) : State :=
  let (a, s) := draw s
  let (b, s) := draw s
  setRf n (fun r => { r with keyOld := r.key, keyOldIdx := r.keyIdx, key := some (BitVec.ofNat 128 (a.toNat * 2 ^ 64 + b.toNat)) }) s

/-- The network keys a neighbour is given, with their indices: while a rotation goes on both (R287). -/
def rfKeys (r : RfState) : List (Nat × Key) :=
  (r.key.map fun k => (r.keyIdx, k)).toList ++ (r.keyOld.map fun k => (r.keyOldIdx, k)).toList

/-- A join at the bootstrap server, from source address `src` (R272). -/
def rfJoin (n src idLen : Nat) (title eui : W64) (k : Key) (sleepy unit : Bool) (s : State) : State :=
  let r := rfOf s n
  let own := rfShort r title
  let old := own.bind fun a => Kv.get? a r.ends
  let have_ := match old with | some e => if e.st == .lost then [] else e.cells | none => []
  let want := if unit then fieldOf s (rfBase n + 0xC) 23 16 else 1
  let total := (List.range 2).foldl (fun a i => a + rfEndpoints (rfOf s i)) 0
  let full := !unit && have_.isEmpty && (fieldOf s (rfBase n + 0xC) 12 0 ≤ rfEndpoints r || 4096 ≤ total)
  if idLen != 8 || s.sec.bootKey != some k then rfQueue n (some src) .eapFailure (rfCount n 0x98 s)
  else match (if have_.isEmpty then freeCells s n want else some have_), (match own with | some a => some a | none => freeShort r.ends) with
    | some cells, some a =>
      if full then rfQueue n (some src) .eapFailure (rfCount n 0x9C s)
      else
        let s := if r.key.isNone then rfDrawKey n s else s
        let e : RfEnd := match old with
          | some e => { e with eui := eui, unit := unit, sleepy := sleepy, heard := s.tim.clk, cells := cells, st := .sync, failed := 0, kaTries := 0 }
          | none => ⟨title, eui, unit, sleepy, s.tim.clk, cells, [], none, clkNow s, .sync, 0, 0, false⟩
        let s := setRf n (fun r => { r with ends := Kv.put a e r.ends }) s
        let s := rfQueue n (some a) (.joined a cells (rfKeys (rfOf s n))) (rfCount n 0x94 s)
        if unit then s else linkJoin title (BitVec.ofNat 8 (68 + n)) (BitVec.ofNat 16 a) eui s
    | _, _ => rfQueue n (some src) .eapFailure (rfCount n 0x9C s)

/-- A UDP datagram (R264). A unit that does not serve takes no campaign frame, and its intake discards the reading (R86). -/
def rfUdp (n : Nat) (f : RfFrame) (u : UdpPay) (s : State) : State :=
  let e := Kv.get? f.src (rfOf s n).ends
  match u with
  | .dlms a => intake (4 + n) (accessItem (4 + n) (e.map (·.title)) f.rxTime a s) s
  | .camp c => if !serving s then s else match e with
    | some e => campFrameRx e.title c s
    | none => count 0x62C s
  | .relay => if (e.map (·.unit)).getD false then s else rfCount n 0x60 s
  | .otherPort => rfCount n 0x60 s

/-- An EB at a child or a standby (R282 to R284). -/
def rfEb (n pan asn metric : Nat) (offset : Int) (s : State) : State :=
  let r := rfOf s n
  if rfChild s n then
    let s := if r.secondary = some pan then setRf n (fun r => { r with secHeard := some s.tim.raw }) s else s
    if r.parent != 0 && r.parentPan = pan then
      setRf n (fun r => { r with misses := 0, sync := true, ebDue := false, asn := asn, parentMetric := metric }) s
    else s
  else if isStandby s && pan = fieldOf s (rfBase n) 15 0 then
    let s := setRf n (fun r => { r with misses := 0, sync := true, ebDue := false }) s
    if (rfGuard s n : Int) < offset.natAbs then event (9 + n) 0x05 (BitVec.ofInt 32 offset).toNat [] s else s
  else s

/-- Is the body data for intake, which push-back withholds? -/
def rfIsData : RfBody → Bool
  | .datagram (.dlms _) | .fragment .. => true
  | _ => false

/-- A delivered frame updates its neighbour: counter, drift, SYNC (R276, R278, R280). -/
def rfNeighbour (n : Nat) (f : RfFrame) (s : State) : State :=
  match Kv.get? f.src (rfOf s n).ends with
  | none => s
  | some e =>
    let s := if rfGuard s n < rfWindow s n e then rfCount n 0x78 s else s
    let back := e.st == .desync
    let e := rfDrift e f.offset (clkNow s)
    let e := if back then { e with st := .sync, corrAt := clkNow s, kaTries := 0 } else e
    let e := { e with heard := s.tim.clk, failed := 0, ctrs := match f.sec with | some x => Kv.put x.idx x.counter e.ctrs | none => e.ctrs }
    setRf n (fun r => { r with ends := Kv.put f.src e r.ends, listening := r.listening.filter (· != f.src) }) s

/-- A datagram or a fragment of one (R264). -/
def rfData (n : Nat) (f : RfFrame) (s : State) : State :=
  match f.body with
  | .datagram u => rfUdp n f u s
  | .fragment tag first last =>
    let key := (f.src, tag)
    let r := rfOf s n
    let s := if r.reasm.contains key then s
      else if first then
        if r.reasm.length < 32 then setRf n (fun r => { r with reasm := r.reasm ++ [key] }) s else rfCount n 0x64 s
      else s
    match last with
    | some u => if (rfOf s n).reasm.contains key then rfUdp n f u (setRf n (fun r => { r with reasm := r.reasm.filter (· != key) }) s) else s
    | none => s
  | _ => s

/-- The body of a delivered frame. -/
def rfBody (n : Nat) (f : RfFrame) (s : State) : State :=
  match f.body with
  | .datagram _ | .fragment .. => rfData n f s
  | .ack =>
    -- the time parent's acknowledgement measures an offset (R329)
    let s := if rfChild s n && (rfOf s n).sync then newOffset 4 (f.offset * 1000) s else s
    match (rfOf s n).inAir with
    | some (id, _) => setRf n (fun r => { r with inAir := none, queue := r.queue.filter fun t => t.id != id }) s
    | none => s
  | .eb pan asn metric => rfEb n pan asn metric f.offset s
  | .join l t e k sl u => rfJoin n f.src l t e k sl u s
  | .keepAlive | .otherAdapt => s

/-- Half the receive window in µs for a source (R279, R283): a child's grows with the EBs it misses. -/
def rfHalf (s : State) (n src : Nat) : Nat :=
  let g := rfGuard s n
  if rfChild s n then g * (2 + min 2 (rfOf s n).misses) / 2
  else match Kv.get? src (rfOf s n).ends with | some e => rfWindow s n e | none => g

/-- Does the transceiver hear a frame (R266, R279, R282, R284)? In a transmitting slot only the acknowledgement, on the lane that sends; else
on a lane whose receive cell runs in the slot, inside the window. A child without a network scans on every lane; one with a secondary
hears each network on its own lanes. A standby listens to EBs on lane 0. -/
def rfHears (s : State) (n : Nat) (f : RfFrame) : Bool :=
  let r := rfOf s n
  let isAck := match f.body with | .ack => true | _ => false
  match r.sending with
  | some k => isAck && f.lane = k
  | none =>
    if rfChild s n then
      let second := match f.body with | .eb pan .. => r.secondary == some pan | _ => false
      r.parent = 0 || ((r.secondary.isNone || decide (2 ≤ f.lane) == second) && (second || f.offset.natAbs ≤ rfHalf s n f.src))
    else if !serving s then
      match f.body with | .eb .. => f.lane = 0 | _ => !isStandby s
    else
      let ups := rfUplinks s n r.asn
      ((f.lane = 0 && rfSharedSlot s n r.asn) || ups.any (fun u => u.2 = f.lane)) && f.offset.natAbs ≤ rfHalf s n f.src

/-- RF_FRAME_RX (R276): of a frame that is heard, the first row that matches decides. -/
def rfFrameRx (n : Nat) (f : RfFrame) (s : State) : State :=
  if !islRun s (9 + n) || !rfHears s n f then s
  else
    let r := rfOf s n
    let lbp := match f.body with | .join .. => f.lane = 0 && rfSharedSlot s n r.asn && !(Kv.get? f.src r.ends).isSome | _ => false
    let known (x : RfSec) : Bool := (rfKeys r).contains (x.idx, x.key)
    let high := (Kv.get? f.src r.ends).bind fun e => f.sec.bind fun x => Kv.get? x.idx e.ctrs
    let ctr := (f.sec.map (·.counter.toNat)).getD 0
    let mayAck := serving s && f.unicast && (match f.body with | .eb .. | .ack => false | _ => true)
    if !f.fcsOk then rfCount n 0x44 s
    else if f.unsupported || fieldOf s (rfBase n + 4) 26 16 < f.length then rfCount n 0x5C s
    else if !f.destOk then rfCount n 0x48 s
    else if (match f.sec with | none => !lbp && (match f.body with | .eb .. => false | _ => true) | some x => !known x) then rfCount n 0x4C s
    else if (match high with | some h => decide (ctr < h.toNat) | none => false) then rfCount n 0x50 s
    else if rfIsData f.body && f.unicast && serving s && iqPaused (4 + n) s then rfCount n 0x58 s
    else if (match high with | some h => decide (ctr = h.toNat) | none => false) then
      let s := rfCount n 0x54 s
      if mayAck then rfAckFrame n f s else s
    else
      let s := rfCount n 0x40 s
      if !serving s then
        match f.body with
        | .eb pan asn m => rfEb n pan asn m f.offset s
        | _ => rfData n f s
      else
        let s := rfNeighbour n f s
        rfJournal n (rfBody n f (if mayAck && f.ackReq then rfAckFrame n f s else s))

/-! ## Scans, timers and keys -/

/-- The network a child joins among those heard (R282): the primary, or the lowest metric, then the strongest. -/
def scanChoice (pan : Nat) (l : List ScanHit) : Option ScanHit :=
  if pan != 0xFFFF then l.find? fun h => h.pan = pan
  else l.foldl (fun (b : Option ScanHit) h => match b with
    | none => some h
    | some x => if h.metric < x.metric || (h.metric = x.metric && decide (x.strength < h.strength)) then some h else b) none

/-- RF_SCAN (R282, R284): a child joins the network chosen, and its secondary when it hears it; a standby looks for the active's PAN. -/
def rfScan (n : Nat) (l : List ScanHit) (s : State) : State :=
  if !islRun s (9 + n) then s
  else if rfChild s n then
    if (rfOf s n).parent != 0 || !serving s then s
    else
      let prim := fieldOf s (rfBase n + 0x14) 31 16
      let sec := fieldOf s (rfBase n + 0x14) 15 0
      match scanChoice prim l with
      | none => s
      | some h =>
        let second := if sec != 0xFFFF && sec != h.pan then l.find? (fun x => x.pan = sec) else none
        setRf n (fun r => { r with parent := if prim = 0xFFFF then 3 else 1, parentPan := h.pan, parentMetric := h.metric, asn := h.asn,
                                   key := some h.key, keyIdx := h.keyIdx, myCells := h.cells, sync := true, misses := 0, secondary := second.map (·.pan),
                                   secHeard := second.map fun _ => s.tim.raw }) s
  else if isStandby s && l.any (fun h => h.pan = fieldOf s (rfBase n) 15 0) then
    setRf n (fun r => { r with sync := true, misses := 0 }) s
  else s

/-- SLEEPY_QUEUE_EXPIRY (R273): a frame queued for more than 600 s for a sleepy endpoint. -/
def sleepyExpiry (n id : Nat) (s : State) : State :=
  let r := rfOf s n
  let old (t : RfTx) : Bool := t.id == id && decide (t.since + 600000000000 < s.tim.raw)
    && (match t.dest.bind (Kv.get? · r.ends) with | some e => e.sleepy | none => false)
  if r.queue.any old then
    rfCount n 0x70 (setRf n (fun r => { r with queue := r.queue.filter fun t => t.id != id }) s)
  else s

/-- SHORT_HOLD_EXPIRY on radio (R235, R272): unheard for SHORT_HOLD_H hours, and its record not ACTIVE; the address and its cells are free. -/
def rfShortExpiry (n short : Nat) (s : State) : State :=
  match Kv.get? short (rfOf s n).ends with
  | none => s
  | some e =>
    if recordActive s e.title || s.tim.clk < e.heard + fieldOf s (rfBase n + 0x10) 7 0 * 3600 * secClk then s
    else rfJournal n (setRf n (fun r => { r with ends := Kv.del short r.ends }) s)

/-- SHORT_HOLD_EXPIRY by link. -/
def shortHoldExpiry (link short : Nat) (s : State) : State :=
  if !isField s || !serving s then s else if link < 4 then plcShortExpiry link short s else rfShortExpiry (link - 4) short s

/-- REASSEMBLY_TIMEOUT by link (R244, R264). -/
def reassemblyTimeout (link src tag : Nat) (s : State) : State :=
  if link < 4 then
    if (plcOf s link).reasm.contains (src, tag) then
      plcCount link 0x60 (setPlc link (fun p => { p with reasm := p.reasm.filter (· != (src, tag)) }) s)
    else s
  else
    let n := link - 4
    if (rfOf s n).reasm.contains (src, tag) then
      rfCount n 0x64 (setRf n (fun r => { r with reasm := r.reasm.filter (· != (src, tag)) }) s)
    else s

/-- RF_KEY_ROTATE (R272). -/
def rfKeyRotate (n : Nat) (s : State) : State × Reply :=
  if 1 < n || !islInRun s (9 + n) then (s, .bad)
  else
    let s := rfDrawKey n s
    let s := setRf n (fun r => { r with keyIdx := r.keyIdx % 255 + 1 }) s
    let s := match rfKeys (rfOf s n) with
      | k :: _ => (rfOf s n).ends.foldl (fun t e => rfQueue n (some e.1) (.newKey k.1 k.2) t) s
      | [] => s
    (rfJournal n s, .done)

end Sys2Proof.Machine
end

