-- ==== Sys2Proof/Machine/Journal.lean ====
section
/-!
DEFINITION. Sys2Proof/Machine/Journal.lean: the journal of a pair (R359 to R363): batches at the active, their application at the
standby, and the items of the copy.
-/
namespace Sys2Proof.Machine

def setJr (f : Journal → Journal) (s : State) : State := { s with jr := f s.jr }

/-- PRL_STATUS.STATE: a change shows in the notice fabric (R543). -/
def setSt (st : PairSt) (s : State) : State :=
  if s.pair.st = st then s else notice 3 (setPair (fun p => { p with st := st, stAt := s.tim.raw }) s)

/-! ## Applying entries (R72, R360) -/

/-- Is a number later than another, compared modulo 2^32 as in RFC 1982? -/
def seqAfter (a b : W32) : Bool := let d := (a - b).toNat; 0 < d && d < 2147483648

/-- A record image (R71, R72): applied with its index entry when its RECORD_SEQ is later; a FREE slot's signer entry is cleared. -/
def applySlot (n : Nat) (v : Slot) (c : Option (Nat × IdxEntry)) (s : State) : State :=
  if (match Kv.get? n s.table.slots with | some o => !seqAfter (recSeq v.img) (recSeq o.img) | none => false) then
    setJr (fun j => { j with dups := satAdd j.dups 1 }) s
  else
    let s := match c with | some x => putIdx x s | none => s
    let s := { s with table := { s.table with slots := Kv.put n v s.table.slots } }
    if recState v.img = 0 then { s with sec := { s.sec with signers := Kv.del n s.sec.signers } } else s

/-- A position of the copied index (R73): what the journal has written there since is newer, and stays. -/
def applyIndex (p : Nat) (e : IdxEntry) (s : State) : State :=
  if (Kv.get? p s.table.index).isSome then s else putIdx (p, e) s

/-- Remove the first copy of an entry held for a unit. -/
def dropHeld (to_ : BitVec 12) (e : Entry) : List (BitVec 12 × Entry) → List (BitVec 12 × Entry)
  | [] => []
  | x :: t => if x.1 == to_ && x.2 == e then t else x :: dropHeld to_ e t

/-- Set or clear a value in a keyed store. -/
def putOpt {α : Type} (n : Nat) (v : Option α) (m : Kv α) : Kv α := match v with | some x => Kv.put n x m | none => Kv.del n m

/-- Apply one journal entry to the standby's own memory (R359, R360). -/
def applyEntry (e : JEntry) (s : State) : State :=
  match e with
  | .slot n v c => applySlot n v c s
  | .index p e => applyIndex p e s
  | .ruleSet n v => { s with rules := { s.rules with sets := Kv.put n v s.rules.sets } }
  | .keySlot n v => { s with sec := { s.sec with slots := putOpt n v s.sec.slots } }
  | .counter n v => { s with sec := { s.sec with counters := Kv.put n (if s.sec.counters.getD n 0 < v then v else s.sec.counters.getD n 0) s.sec.counters } }
  | .signer n v => { s with sec := { s.sec with signers := putOpt n v s.sec.signers } }
  | .topoLoad l => loadNodes l s
  | .topoWait h => setBal (fun b => { b with waiting := some { h with origin := .gone } }) s
  | .topoSwitch => setBal (fun b => switchTree b s) s
  | .meterWork n w => setBal (fun b => { b with meters := Kv.put n w b.meters }) s
  | .balRun r => setBal (fun b => { b with run := some r, started := r.index, startedEnd := some ((r.start + r.len) * 1000),
                                            due := b.due.filter fun d => r.start < d.1 }) s
  | .balApply => match s.bal.run with | some r => applyRun r true s | none => s
  | .scores kind ids =>
    if kind = 0 then setBal (fun b => { b with meters := ids.foldl (fun m n => Kv.put n { m.getD n workEmpty with score := 0 } m) b.meters }) s
    else setBal (fun b => { b with nodes := ids.foldl (fun m n => Kv.put n { m.getD n nodeWorkEmpty with score := 0 } m) b.nodes }) s
  | .balance v => setBal (fun _ => v) s
  | .minute m => setBal (fun b => { b with minutes := b.minutes.filter (fun x => x.head != m.head || x.start != m.start) ++ [m] }) s
  | .rmsSecond m => setBal (fun b => { b with rms := b.rms.filter (fun x => x.head != m.head || x.second != m.second) ++ [m] }) s
  | .balReg off v => setReg off v s
  | .camp n c => setCampState (fun st => { st with camps := putOpt n c st.camps }) s
  | .cursor k v => setCampState (fun st => { st with cursors := putOpt k v st.cursors }) s
  | .plc n st => setPlc n (fun p => { p with
      ends := st.ends, neigh := st.neigh, routes := st.routes, gmk := st.gmk, gmkIdx := st.gmkIdx, gmkOld := st.gmkOld, rxCtr := st.rxCtr,
      outEnd := st.outEnd, fps := st.fps }) s
  | .rf n st => setRf n (fun r => { r with
      ends := st.ends, key := st.key, keyIdx := st.keyIdx, keyOld := st.keyOld, keyOldIdx := st.keyOldIdx, outEnd := st.outEnd }) s
  | .hold to_ e => setRelay (fun r => { r with copy := r.copy ++ [(to_, e)] }) s
  | .unhold to_ es => setRelay (fun r => { r with copy := es.foldl (fun l e => dropHeld to_ e l) r.copy }) s
  | .session u v => setRelay (fun r => { r with rx := Kv.put u.toNat v r.rx }) s
  | .spool l => setRelay (fun r => { r with spool := l, spooling := !l.isEmpty }) s
  | .append n rec =>
    let s := if s.arch.next < n then addMissing s.arch.next (n - 1) s else s
    setArch (fun a => { a with next := max a.next (n + 1) }) (appendAt n rec s)
  | .trim upto => trimTo upto s
  | .posting n p => setJr (fun j => { j with posts := Kv.put n p j.posts, nextPosting := max j.nextPosting (n + 1) }) s
  | .swapTimer h => setPair (fun p => { p with swapTimer := h }) s

/-- Apply a batch and take its posted mark: postings up to it need no second posting (R362). -/
def applyBatch (mark : Nat) (ents : List JEntry) (s : State) : State :=
  let s := ents.foldl (fun t e => applyEntry e t) s
  let m := max s.jr.mark mark
  setJr (fun j => { j with mark := m, posts := j.posts.filter fun p => m < p.1 }) (setPair (fun p => { p with lastBatchAt := t16 s }) s)
where
  /-- The time now, in the RX_TIME format. -/
  t16 (s : State) : Nat := (rxTime s).toNat

/-- Send an acknowledgement over PRL (R360). -/
def ackBatch (n : Nat) (s : State) : State := emit (.journalAck n) s

/-- Apply what is held, in order, as far as it goes on (R360). -/
def applyHeldBatches : Nat → State → State
  | 0, s => s
  | fuel + 1, s =>
    match Kv.get? s.jr.nextApply s.jr.held with
    | none => s
    | some (mark, ents) =>
      let n := s.jr.nextApply
      applyHeldBatches fuel (ackBatch n (setJr (fun j => { j with nextApply := n + 1, held := Kv.del n j.held }) (applyBatch mark ents s)))

/-! ## The active's side (R360) -/

/-- JOURNAL_BATCH_CLOSE: the open batch goes out over PRL with its number and the posted mark. -/
def journalBatchClose (s : State) : State :=
  if s.jr.open_.isEmpty || !journals s || !islRun s 13 then s
  else
    let n := s.jr.nextNum
    emit (.journalBatch n s.jr.mark s.jr.open_)
      (setJr (fun j => { j with open_ := [], nextNum := n + 1, unacked := j.unacked ++ [(n, false, j.open_)], sentAt := Kv.put n s.tim.raw j.sentAt }) s)

/-- JOURNAL_ACK_RX: the batch counts in PRL_JOURNAL_BATCHES, and replies that waited for it go out. -/
def journalAckRx (n : Nat) (s : State) : State :=
  if !journals s || !s.jr.unacked.any (fun b => b.1 == n) then s
  else releaseReplies (count 0xD040 (setJr (fun j => { j with unacked := j.unacked.filter (fun b => b.1 != n), sentAt := Kv.del n j.sentAt }) s))

/-! ## The copy (R363) -/

/-- The hold area as entries for their receivers, oldest first. -/
def holdEntries (s : State) : List (BitVec 12 × Entry) :=
  let sent := s.relay.unacked.foldl (fun (acc : List Nat × List (BitVec 12 × Entry)) b =>
    if acc.1.contains b.id then acc
    else (acc.1 ++ [b.id], acc.2 ++ (wholeEntries b).map (b.to_, ·) ++ (b.ents.filterMap fun x => match x with | .last _ e => some (b.to_, e) | _ => none)))
    ([], [])
  sent.2 ++ s.relay.open_.flatMap fun p => p.2.map fun x => (BitVec.ofNat 12 (p.1 / 2), x.2)

/-- The entries of item 1 to 5 of the copy. -/
def copyEntries (item : Nat) (s : State) : List JEntry :=
  match item with
  | 1 => s.rules.sets.map (fun p => .ruleSet p.1 p.2) ++ (List.range 64).map (fun k => .keySlot k (Kv.get? k s.sec.slots))
      ++ s.sec.counters.map fun p => .counter p.1 p.2
  | 2 => s.table.slots.map (fun p => .slot p.1 p.2 none) ++ s.table.index.map (fun p => .index p.1 p.2) ++ s.sec.signers.map (fun p => .signer p.1 (some p.2)) ++ [.balance s.bal]
  | 3 => s.camp.camps.map (fun p => .camp p.1 (some p.2)) ++ s.camp.cursors.map fun p => .cursor p.1 (some p.2)
  | 4 => s.plc.map (fun p => .plc p.1 p.2) ++ s.rf.map fun p => .rf p.1 p.2
  | _ => (holdEntries s).map (fun p => .hold p.1 p.2) ++ s.relay.rx.map (fun p => .session (BitVec.ofNat 12 p.1) p.2)
      ++ [.spool s.relay.spool, .swapTimer s.pair.swapTimer] ++ s.jr.posts.map fun p => .posting p.1 p.2

/-- A joiner starts from nothing: what a copy will replace is cleared (R361, R363, R376). -/
def clearForCopy (s : State) : State :=
  let s := { s with rules := ⟨[], []⟩, table := { tableReset with salt := s.table.salt }, bal := balReset,
                    camp := { campReset with ckpt := s.camp.ckpt } }
  let s := setRelay (fun r => { r with copy := [], rx := [], accepted := [], spool := [], spooling := false, open_ := [], pieces := [], unacked := [] }) s
  { s with sec := { s.sec with signers := [] } }

end Sys2Proof.Machine
end

