-- ==== Sys2Proof/Machine/Pair.lean ====
section
/-!
DEFINITION. Sys2Proof/Machine/Pair.lean: the pair logic (chapter 11): claims, the way in and out of every pair state, heartbeats, the
decisions of R357, R366 to R368 and R375, orderly swaps and their proof.
-/
namespace Sys2Proof.Machine

/-! ## What a unit says of itself -/

/-- Position B (R354). -/
def posB (s : State) : Bool := (s.boot.bundle.map (·.pos)).getD false

/-- CTL_TBL_SALT_FP (R56, R81): the first 32 bits of SHA-256 of the table salt. -/
def saltFp (s : State) : W32 := BitVec.ofNat 32 ((sha256 (be 16 s.table.salt.toNat)).toNat / 2 ^ 224)

/-- Is an island one the role uses: not held OFF, and not an access-link island of a HEAD unit (R20, R31)? -/
def islUsed (s : State) (n : Nat) : Bool := ((islOf s n).st != .off || n == 0) && !(isHead s && 5 ≤ n && n ≤ 10)

/-- The island grade of R44: 0 green, 1 amber, 2 crimson. An island in RESET or PENDING is neither row's; it shows amber (log entry 44). -/
def islandGrade (s : State) : Nat :=
  if roleOf s = 0 || !readingService s then 2
  else if (List.range 21).all fun n => !islUsed s n || islInRun s n || (islOf s n).st == .gated then 0 else 1

/-- READY (R355). -/
def pairReady (s : State) : Bool := s.pair.st == .standby && readingService s && (!isHead s || islInRun s 3)

/-- A local time in units of 2^-16 ns in the 96-bit form the heartbeat carries is the model's own count (R364). -/
def localTime (s : State) : Nat := if islInRun s 16 then s.tim.clk else 0

/-- The body of the next heartbeat on a path (R364); `q` is its number. -/
def heartbeatOf (s : State) (p : HbPath) (q : W32) : Heartbeat :=
  { version := 1, st := s.pair.st, service := ownService s, claim := s.pair.claim, seq := q, ready := pairReady s,
    handoff := s.pair.handoff, proofFailed := s.pair.proofFailed, pos := posB s, grade := BitVec.ofNat 2 (islandGrade s),
    proving := s.pair.proving, jver := s.boot.jver, jverMin := s.boot.jverMin,
    timeState := BitVec.ofNat 8 (s.tim.st * 16 + s.tim.source % 8 * 2 + b2n s.tim.valid), role := roleOf s, txTime := localTime s,
    echoTime := (p.last.map (·.txTime)).getD 0, echoRx := p.rx, saltFp := saltFp s, epoch := s.pair.epoch,
    key := s.sec.pairKey.getD 0 }

def pathOf (s : State) (path : Nat) : HbPath := if path = 1 then s.pair.hb1 else s.pair.hb2
def setPath (path : Nat) (v : HbPath) (s : State) : State :=
  setPair (fun p => if path = 1 then { p with hb1 := v } else { p with hb2 := v }) s

/-- Does the pair logic run: the unit is paired, with its key? -/
def pairOn (s : State) : Bool := s.boot.phase == .started && !isLone s && s.sec.pairKey.isSome

/-- Send a heartbeat (R364): path 1 over PRL, path 2 on every port with LINK. A path's HB_SEQ back at its start draws a new epoch. -/
def heartbeatNow (path : Nat) (s : State) : State :=
  if !pairOn s || (path = 1 && !islRun s 13) then s
  else
    let v := pathOf s path
    let n := v.ownSeq
    let next := n + 1
    let hb := heartbeatOf s v n
    let s := if path = 1 then emit (.heartbeat 1 hb) s
      else [false, true].foldl (fun t p => if ethLink t p then ethSend p 2 126 0 (.heartbeat 2 hb) t else t) s
    let s := setPath path { v with ownSeq := next, sentAt := s.tim.raw } s
    if next = v.ownStart then
      let (d, s) := draw s
      setPair (fun p => { p with epoch := BitVec.ofNat 32 d.toNat }) s
    else s

/-- Interval of a path in ns: HB_PRL_US or HB_ETH_MS (R364, R379). -/
def hbInterval (path : Nat) (s : State) : Nat := if path = 1 then fieldOf s 0xD004 31 20 * 1000 else fieldOf s 0xD004 15 8 * 1000000

/-- HEARTBEAT_SEND (R364): an interval after the last one. -/
def heartbeatSend (path : Nat) (s : State) : State :=
  if s.tim.raw < (pathOf s path).sentAt + hbInterval path s then s else heartbeatNow path s

/-! ## Notices (R377, R398) -/

/-- A pair notice: KIND 1 ACTIVE, 2 ACTIVE_ALONE, 3 SPLIT. -/
def pairNotice (kind : Nat) (prev : W32) (a b : W64) (s : State) : State := postNow (.pairNotice kind prev a b) s

/-- A SPLIT notice that waits is posted by the unit that holds the grant again (R352, R376). -/
def splitNotice (s : State) : State :=
  match s.pair.splitNote with
  | some (c, a, b) => pairNotice 3 c a b (setPair (fun p => { p with splitNote := none }) s)
  | none => s

/-! ## Losing the grant -/

/-- Queued host commands of a swap are answered NOT_ACTIVE (R371). -/
def dropQueued (s : State) : State :=
  match s.pair.swap with
  | none => s
  | some w => w.queued.foldl (fun t x => complete x.1 (cmdOpcode x.2) .notActive (startInFlight x.1 t)) (setPair (fun p => { p with swap := none }) s)

/-- ACT_OUT stops (R352): what the unit held for the relay is kept as a standby keeps it, postings that waited for room in a ring are
not made any more, and a proof ends uncounted (R378). -/
def stopActOut (s : State) : State :=
  let held := holdEntries s
  let s := setHost (fun h => { h with cq := h.cq.map fun p => (p.1, { p.2 with waiting := p.2.waiting.filter fun e => !cqPosting e.body }) }) s
  let s := setRelay (fun r => { r with copy := r.copy ++ held, open_ := [], pieces := [], unacked := [], accepted := [], pausedTo := [] }) s
  setPair (fun p => { p with actOut := false, startAt := none, flashPending := false, proving := false, copyGiving := false,
                             inStep := p.handoff }) s

/-- The grant is gone: unicasts that wait on the access links are abandoned (R252, R287); readings in flight that have not committed end without an outcome (R89), committed ones are not posted (R120), and
the journal, the activation marks and what waits on them are dropped. Items that stand in the intake queues stay there, and are dispatched
when the grant is taken again: R86 speaks of items that reach the queues of a standby (DESIGN CHOICE, log entry 127). -/
def abandonWork (s : State) : State :=
  let s := s.pipe.flight.foldl (fun t f => if f.stage == .committed then endFlight f.id t else dropFlight f.id t) s
  let s : State := { s with
    pipe := { s.pipe with orphans := [] }
    table := { s.table with late := [] }
    plc := s.plc.map fun p => (p.1, { p.2 with awaiting := [], queued := [], discover := [] })
    rf := s.rf.map fun p => (p.1, { p.2 with queue := [], inAir := none, acks := [] }) }
  let go := s.jr.replies ++ s.rules.marks.map fun m => ⟨0, m.hdr, if m.remove then 0x0303 else 0x0302, .notActive⟩
  let s := { s with rules := { s.rules with marks := [] } }
  let s := setJr (fun j => { j with open_ := [], unacked := [], replies := [], delayed := [] }) s
  go.foldl (fun t r => complete r.hdr r.opcode .notActive t) s

/-- FENCED (R353, R368): cause 0 watchdog, 1 a heartbeat with a higher claim, 2 a relay frame with one. A claim's defeat ends a
split, whose notice waits for the grant (R376). -/
def fence (cause : Nat) (s : State) : State :=
  let s := if cause = 0 || isLone s then s
    else setPair (fun p => { p with splitNote := some (p.claim, p.lostAt, rxTime s) }) s
  let s := dropQueued (abandonWork (stopActOut s))
  setSt .fenced (event 13 0x02 cause [] (count 0xD06C s))

/-- The standby is lost (R367): cause 0 batch, 1 path or signal, 2 its own report, 3 PRL FAILED. The unacknowledged journal goes and
everything that waited for it is released; a swap aborts (R378). -/
def abortSwap (cause : Nat) (s : State) : State :=
  match s.pair.swap with
  | none => s
  | some w =>
    let s := setPair (fun p => { p with swap := none }) s
    let s := { s with deferred := s.deferred ++ w.queued }
    event 13 0x05 cause [] (count 0xD068 (resumeAll true (resumeAll false s)))

def standbyLost (cause : Nat) (s : State) : State :=
  let was := s.pair.st
  if !journals s then s
  else
    let s := setPair (fun p => { p with copyGiving := false, inStep := false }) s
    let s := setJr (fun j => { j with open_ := [], unacked := [] }) s
    if was != .active then releaseReplies s
    else
      let s := releaseReplies (setSt .activeAlone (abortSwap 1 s))
      pairNotice 2 s.pair.claim 0 0 (event 13 0x03 cause [] s)

/-! ## Taking the grant (R358, R369) -/

/-- The claim of the BKP pair word: 0 when its complement does not check (R358, R527). -/
def bkpClaim (s : State) : W32 := if reg s 0x110C = ~~~(reg s 0x1108) then reg s 0x1108 else 0

def maxW (a b : W32) : W32 := if a < b then b else a

/-- The largest claim known. -/
def knownClaim (s : State) : W32 := maxW (bkpClaim s) (maxW s.pair.claimFlash s.pair.partnerClaim)

/-- How a grant is taken: out of SEEKING or by a lone unit, as a fail-over, or as an orderly swap (R357, R366). -/
inductive Taking where
  | start | failover | swap
  deriving DecidableEq, Repr

/-- Gratuitous ARP and neighbour advertisement for the relay addresses, on each port with LINK (R369). -/
def advertise (s : State) : State :=
  [false, true].foldl (fun t p => if ethLink t p then ethSend p 5 86 2 (.advertise p) t else t) s

/-- A new relay session (R306, R369); the coordinators go on at their journalled counter ends (R250, R285). -/
def takeRoles (s : State) : State :=
  let s := newSession s
  { s with plc := s.plc.map (fun p => (p.1, { p.2 with outCtr := p.2.outEnd })), rf := s.rf.map fun p => (p.1, { p.2 with outCtr := p.2.outEnd }) }

/-- The proof that follows an orderly swap begins (R373), and the paused relay senders are resumed (R371). -/
def startProof (s : State) : State :=
  let s := setPair (fun p => { p with proving := true, proofReadings := 0, proofSince := s.tim.raw }) (count 0xD058 s)
  let known := s.relay.rx.map fun r => BitVec.ofNat 12 r.1
  setRelay (fun r => { r with pausedTo := known.flatMap fun u => [(((Kv.get? u.toNat r.rx).map (·.port)).getD false, u)] }) s

/-- Take the grant (R358, R369): a role is needed (R4), and ACT_IN is quiet. A computed balance run that the journal brought is
applied here, and its reports are among the journalled postings; one that did not come runs again (R160). -/
def takeGrant (k : Taking) (s : State) : State :=
  if roleOf s = 0 || s.pair.actInLive || s.pair.actOut then s
  else
    let prev := knownClaim s
    let claim := prev + 1
    let was := s.pair.st
    let lone := isLone s
    let unready := k != .start && !pairReady s
    let s := if unready then event 13 0x08 (pairCode was) [] s else s
    let s := setReg 0x110C (~~~claim) (setReg 0x1108 claim s)
    let s := setPair (fun p => { p with before := was, claim := claim, prevClaim := prev, flashPending := true, actOut := true,
                                        startAt := some s.tim.raw, notReady := p.notReady || unready, handoff := false, inStep := k == .swap,
                                        copyItem := 0, copyPct := if was = .copying then 0 else p.copyPct, heard := heardReset }) s
    let s := if lone then s else setSt .activeAlone s
    let s := setJr repostAll s
    let s := setBal (fun b => { b with run := b.run.map fun r => { r with reports := [] } }) s
    let s := sourceDown 3 (takeRoles (advertise s))
    let s := match k with
      | .start => s
      | .failover => event 13 0x0B claim.toNat [] (count 0xD054 s)
      | .swap => startProof (event 13 0x0B claim.toNat [] s)
    if lone then s else splitNotice (pairNotice 2 prev 0 0 s)
where
  /-- The journalled postings above the mark wait, with TAKEOVER; numbers the unit never saw are skipped (R362). -/
  repostAll (j : Journal) : Journal :=
    let open_ := j.posts.filter fun p => j.mark < p.1
    let m := max j.mark ((match open_ with | p :: _ => p.1 | [] => j.nextPosting) - 1)
    let gone := ((List.range (j.nextPosting - 1 - m)).map (m + 1 + ·)).filter fun n => !open_.any fun p => p.1 == n
    { j with nextNum := 1, unacked := [], open_ := [], held := [], mark := m, done := gone, posts := open_,
             delayed := open_.map fun p => (p.1, true, p.2) }
  /-- Code of a pair state (R355). -/
  pairCode : PairSt → Nat
    | .lone => 0 | .seeking => 1 | .copying => 2 | .standby => 3 | .active => 4 | .activeAlone => 5 | .fenced => 6

/-- CLAIM_FLASH_WRITTEN (R358, R362, R369): the claim is safe; journalled postings above the mark are re-posted with TAKEOVER before
new ones, and the hold area is resent. -/
def claimFlashWritten (s : State) : State :=
  if !s.pair.flashPending then s
  else
    let s := setPair (fun p => { p with flashPending := false, claimFlash := p.claim }) s
    let again := s.jr.delayed.filter (·.2.1)
    let copy := s.relay.copy
    let s := setRelay (fun r => { r with copy := [] }) (setJr (fun j => { j with delayed := j.delayed.filter (!·.2.1) }) s)
    let s := drainDelayed (again.foldl (fun t p => doPost p.1 true p.2.2 t) s)
    let s := copy.foldl (fun t p => holdEntry p.1 p.2 t) s
    if s.pair.proving then resumeAll true (resumeAll false s) else s

/-! ## Ways out of SEEKING, COPYING and STANDBY -/

/-- COPYING begins (R357, R363), with the event of the archive gap: from the last journal batch applied to now. -/
def startCopying (s : State) : State :=
  let s := clearForCopy s
  let s := setJr (fun j => { j with nextApply := 1, held := [], posts := [] }) s
  let s := event 13 0x07 0 [be 8 s.pair.lastBatchAt ++ be 8 (rxTime s).toNat] s
  setSt .copying (setPair (fun p => { p with copyItem := 1, copyPct := 0, parted := false }) s)

/-- Do the partner's heartbeats pass the checks of R356? -/
def partnerOk (s : State) : Bool := s.pair.fault == 0

/-- The last heartbeat of a path that is not lost; path 1 first. -/
def partnerHb (s : State) : Option Heartbeat :=
  let one := if s.pair.hb1.lost then none else s.pair.hb1.last
  let two := if s.pair.hb2.lost then none else s.pair.hb2.last
  match one, two with
  | some a, some b => some (if s.pair.hb1.at_ < s.pair.hb2.at_ then b else a)
  | some a, none => some a
  | none, b => b

/-- The way out of SEEKING (R357); `waited`: WAIT_S has passed without a heartbeat. The copy needs the PRL path, and after a partition
both paths (R375; log entry 86). -/
def seekDecide (waited : Bool) (s : State) : State :=
  if s.pair.st != .seeking || s.boot.power == .hold then s
  else if s.pair.actInLive then
    match partnerHb s with
    | some _ => if partnerOk s && !s.pair.hb1.lost && s.pair.prlSignal && !(s.pair.parted && s.pair.hb2.lost) then startCopying s else s
    | none => s
  else match partnerHb s with
    | none => if waited || s.pair.fault = 4 then takeGrant .start s else s
    | some hb =>
      if !partnerOk s then takeGrant .start s
      else match hb.st with
        | .seeking => if hb.claim < s.pair.claim || (hb.claim == s.pair.claim && !posB s) then takeGrant .start s else s
        | .fenced | .copying | .standby => takeGrant .start s
        | _ => s

/-- SEEKING begins (R357). -/
def seek (s : State) : State :=
  setSt .seeking (setPair (fun p => { p with handoff := false, inStep := false, copyItem := 0 }) s)

/-- SEEKING after the loss of the PRL path (R367, R375). -/
def part (s : State) : State := setPair (fun p => { p with parted := true }) (seek s)

/-- Does a unit without the grant take it (R366)? A unit that has just handed over leaves it to its partner while it hears it (R371). -/
def takeDecide (s : State) : State :=
  if (s.pair.st != .standby && s.pair.st != .copying) || s.pair.actInLive then s
  else
    let h := s.pair.heard
    let has (f : Bool × Bool → Bool) : Bool := (match h.p1 with | some x => f x | none => false) || (match h.p2 with | some x => f x | none => false)
    let ethGone := s.pair.hb2.lost || (match h.p2 with | some x => !x.1 | none => false)
    if has (·.1) then
      if s.pair.interlockFault then s
      else event 13 0x04 s.pair.partnerClaim.toNat [] (count 0xD074 (setPair (fun p => { p with interlockFault := true }) s))
    else if has (·.2) then takeGrant .swap s
    else if !s.pair.prlSignal then takeGrant .failover s
    else if s.pair.hb1.lost then (if ethGone && (!s.pair.handoff || s.pair.hb2.lost) then takeGrant .failover s else s)
    else match h.p1 with
      | some (false, false) => if s.pair.handoff then s else takeGrant .failover s
      | _ => s

/-- Decide again after anything a unit without the grant waits for. -/
def decide_ (s : State) : State := takeDecide (seekDecide false s)

/-! ## The interlock (R351, R354) -/

/-- An edge of ACT_IN (R351, R354): ACT_IN is live; within 20 µs of a start, position B gives way and position A keeps the grant. -/
def actInEdge (s : State) : State :=
  let s := setPair (fun p => { p with actInLive := true, edgeAt := s.tim.raw, heard := heardReset, handoff := false }) s
  match s.pair.startAt with
  | some t =>
    if s.pair.actOut && s.tim.raw ≤ t + 20000 then
      if posB s then
        let back := s.pair.before
        let s := dropQueued (abandonWork (stopActOut s))
        let s := setSt back s
        seekDecide false s
      else s
    else s
  | none => decide_ s

/-- ACT_IN_QUIET (R351): ACT_QUIET, in units of 10 µs, has passed without an edge. -/
def actInQuiet (s : State) : State :=
  if !s.pair.actInLive then decide_ s
  else if s.tim.raw < s.pair.edgeAt + fieldOf s 0xD004 7 0 * 10000 then s
  else decide_ (setPair (fun p => { p with actInLive := false, heard := heardReset }) s)

/-! ## Heartbeats received (R356, R365 to R368, R376) -/

/-- Does a path accept a heartbeat (R365)? The first one has no epoch to be compared with (log entry 45). -/
def hbFresh (s : State) (v : HbPath) (hb : Heartbeat) : Bool :=
  match v.last with
  | none => true
  | some l =>
    (hb.epoch == l.epoch && seqAfter hb.seq l.seq)
      || ((hb.epoch != l.epoch || seqAfter l.seq hb.seq) && decide (((hb.txTime : Int) - localTime s).natAbs ≤ 65536000000000))

/-- The first check of R356 that a heartbeat fails; 0 when all pass. -/
def pairFault (s : State) (hb : Heartbeat) : Nat :=
  if roleOf s = 0 || hb.role = 0 || hb.role != roleOf s then 1
  else if hb.service != ownService s then 2
  else if hb.saltFp != saltFp s then 3
  else if hb.jver < s.boot.jverMin || s.boot.jver < hb.jverMin then 5
  else if hb.pos == posB s then 6
  else 0

/-- PAIR_FAULT changes: an event for a new failure, with the salt event of R56. -/
def setFault (code : Nat) (fp : W32) (s : State) : State :=
  if s.pair.fault = code then s
  else
    let s := setPair (fun p => { p with fault := code }) s
    let s := if code = 0 then s else event 13 0x01 code [] s
    if code = 3 then event 1 0x14 fp.toNat [] s else s

/-- The pair link as a time source (R328, R329): PRL heartbeats of a partner locked to PTP, with their four times. -/
def linkTime (hb : Heartbeat) (rx : Nat) (s : State) : State :=
  let src := hb.timeState.toNat / 2 % 8
  if hb.timeState.toNat / 16 = 1 && (src = 1 || src = 2) && hb.echoTime ≠ 0 then
    newOffset 3 (Int.tdiv (((rx : Int) - hb.txTime) - ((hb.echoRx : Int) - hb.echoTime)) (2 * 65536)) s
  else sourceDown 3 s

/-- What a unit with the grant does on a heartbeat (R368, R369, R371, R376). -/
def holderHb (hb : Heartbeat) (s : State) : State :=
  if (hb.st == .active || hb.st == .activeAlone) && s.pair.claim < hb.claim then fence 1 s
  else if s.pair.st == .active && (hb.st == .seeking || hb.st == .fenced) then standbyLost 2 s
  else if !partnerOk s then s
  else if s.pair.st == .activeAlone && hb.st == .copying && !s.pair.copyGiving && !s.pair.hb1.lost then
    setPair (fun p => { p with copyGiving := true, copyItem := 1, inStep := false }) (setJr (fun j => { j with nextNum := 1, unacked := [], open_ := [] }) s)
  else if s.pair.st == .activeAlone && hb.st == .standby && !s.pair.hb1.lost && (s.pair.copyGiving || s.pair.inStep) then
    let s := setSt .active (setPair (fun p => { p with copyGiving := false, inStep := false, copyItem := 0 }) s)
    let s := if s.pair.swapTimer.isNone then restartSwapTimer s else s
    if s.jr.delayed.any (fun p => match p.2.2.body with | .pairNotice .. => true | _ => false) then s else pairNotice 1 s.pair.prevClaim 0 0 s
  else if s.pair.st == .activeAlone && s.pair.inStep && hb.st != .standby then
    setPair (fun p => { p with inStep := false }) (setJr (fun j => { j with unacked := [], open_ := [] }) s)
  else match s.pair.swap with
    | some _ => if hb.ready then s else abortSwap 2 s
    | none => s

/-- What a unit without it does: a standby the active has lost seeks a new copy (R367), and one it now serves is no longer in step. -/
def standbyHb (hb : Heartbeat) (s : State) : State :=
  if s.pair.st == .standby && hb.st == .activeAlone && s.pair.actInLive && (s.pair.hb1.lost || !s.pair.inStep) then seekDecide false (part s)
  else if hb.st == .active then decide_ (setPair (fun p => { p with inStep := false }) s)
  else decide_ s

/-- HEARTBEAT_RX (R364, R365): a tag that fails is counted; an accepted heartbeat updates the path and may decide something. -/
def heartbeatRx (path : Nat) (hb : Heartbeat) (s : State) : State :=
  if !pairOn s || 2 < path || path = 0 || (path = 1 && !islRun s 13) then s
  else if s.sec.pairKey != some hb.key then
    let s := count 0xD048 s
    if s.pair.hb1.last.isNone && s.pair.hb2.last.isNone then decide_ (setFault 4 0 s) else s
  else
    let s := if path = 1 then setPair (fun p => { p with prlSignal := true }) s else s
    let v := pathOf s path
    if hb.version != 1 || !hbFresh s v hb then s
    else
      let rx := localTime s
      let s := if path = 1 && v.lost && s.pair.st == .copying && s.pair.actInLive then startCopying s else s
      let s := setPath path { v with lost := false, last := some hb, at_ := s.tim.raw, rx := rx } s
      let grant := hb.st == .active || hb.st == .activeAlone
      let mark (h : Heard) : Heard := if path = 1 then { h with p1 := some (grant, hb.handoff) } else { h with p2 := some (grant, hb.handoff) }
      let s := setPair (fun p => { p with partnerClaim := hb.claim, heard := if p.actInLive then p.heard else mark p.heard }) s
      let s := setFault (pairFault s hb) hb.saltFp s
      let s := if path = 1 then linkTime hb rx s else s
      if s.pair.actOut then holderHb hb s else standbyHb hb s

/-- Both paths are lost: the time is kept for a split's notice (R376). -/
def noteLost (s : State) : State :=
  if s.pair.hb1.lost && s.pair.hb2.lost then setPair (fun p => { p with lostAt := rxTime s }) s else s

/-- A standby that has lost the PRL path seeks (R367, R375); while the active may only be hung, R366 and R370 keep it STANDBY until the
Ethernet path is lost too or the active reports ACTIVE_ALONE (log entry 46). -/
def pathGone (s : State) : State :=
  if (s.pair.st == .standby || s.pair.st == .copying) && s.pair.actInLive && s.pair.hb1.lost && s.pair.hb2.lost then seekDecide false (part s)
  else decide_ s

/-- HEARTBEAT_PATH_LOST (R364, R366, R367): HB_MISS intervals without a valid heartbeat. -/
def heartbeatPathLost (path : Nat) (s : State) : State :=
  if !pairOn s || 2 < path || path = 0 || (pathOf s path).lost || s.tim.raw < (pathOf s path).at_ + fieldOf s 0xD004 19 16 * hbInterval path s then s
  else
    let s := setPath path { pathOf s path with lost := true } (count (if path = 1 then 0xD04C else 0xD050) s)
    let s := noteLost (setPair (fun p => { p with heard := if path = 1 then { p.heard with p1 := none } else { p.heard with p2 := none } }) s)
    if path = 2 then pathGone s
    else
      let s := sourceDown 3 s
      if journals s then standbyLost 1 s else pathGone s

/-- PRL_LOSS_OF_SIGNAL (R366, R367). -/
def prlLossOfSignal (s : State) : State :=
  if !pairOn s then s
  else
    let s := setPair (fun p => { p with prlSignal := false }) s
    if journals s then standbyLost 1 s else takeDecide s

/-- SEEK_WAIT_EXPIRY (R357): the partner has not been heard for WAIT_S. -/
def seekWaitExpiry (s : State) : State :=
  let since := max s.pair.stAt (max s.pair.hb1.at_ s.pair.hb2.at_)
  if !pairOn s || s.tim.raw < since + fieldOf s 0xD000 15 8 * 1000000000 then s else seekDecide true s

/-- FENCED_EXPIRY (R355): after 1 s to SEEKING; a lone unit serves again (log entry 47). -/
def fencedExpiry (s : State) : State :=
  if s.pair.st != .fenced || s.tim.raw < s.pair.stAt + 1000000000 then s
  else if (islOf s 13).st == .off then takeGrant .start (setSt .lone s)
  else seekDecide false (seek s)

/-! ## The journal's failures (R360, R361) -/

/-- A batch that the standby cannot apply (R361): it seeks a new copy. -/
def cannotApply (num : Nat) (s : State) : State := seekDecide false (seek (event 13 0x09 (num % 2 ^ 32) [] s))

/-- JOURNAL_BATCH_RX: in order, once, and at most 256 held. -/
def journalBatchRx (num mark : Nat) (formOk : Bool) (ents : List JEntry) (s : State) : State :=
  if (s.pair.st != .copying && s.pair.st != .standby) || !islRun s 13 then s
  else
    if !formOk then cannotApply num s
    else if num < s.jr.nextApply then ackBatch num s
    else if num = s.jr.nextApply then
      let s := ackBatch num (setJr (fun j => { j with nextApply := num + 1 }) (applyBatch mark ents s))
      applyHeldBatches s.jr.held.length s
    else if (Kv.get? num s.jr.held).isSome then s
    else if 256 ≤ s.jr.held.length then cannotApply num s
    else setJr (fun j => { j with held := Kv.put num (mark, ents) j.held }) s

/-- JACK_TIMEOUT (R360), JACK_MS after the batch was sent: one resend, then the standby is lost. -/
def jackTimeout (n : Nat) (s : State) : State :=
  match (if journals s then s.jr.unacked.find? (fun b => b.1 == n) else none) with
  | none => s
  | some (_, again, ents) =>
    if s.tim.raw < s.jr.sentAt.getD n 0 + fieldOf s 0xD008 31 24 * 1000000 then s
    else if again then standbyLost 0 s
    else
      emit (.journalBatch n s.jr.mark ents) (count 0xD044 (setJr (fun j => { j with sentAt := Kv.put n s.tim.raw j.sentAt, unacked := j.unacked.map fun b =>
        if b.1 == n then (b.1, true, b.2.2) else b }) s))

/-- STANDBY_TABLE_COPY (R73, R363): the giver sends the next item; the joiner applies the item that comes. -/
def standbyTableCopy (item : Nat) (ents : List JEntry) (s : State) : State :=
  if !islRun s 13 then s
  else if s.pair.copyGiving then
    if s.pair.copyItem = 0 || 5 < s.pair.copyItem then s
    else emit (.copyItem s.pair.copyItem (copyEntries s.pair.copyItem s)) (setPair (fun p => { p with copyItem := p.copyItem + 1 }) s)
  else if s.pair.st == .copying && item = s.pair.copyItem && item ≤ 5 then
    setPair (fun p => { p with copyItem := item + 1, copyPct := 20 * item }) (ents.foldl (fun t e => applyEntry e t) s)
  else s

/-- COPY_COMPLETE (R363): STANDBY. -/
def copyComplete (s : State) : State :=
  if s.pair.st != .copying || s.pair.copyItem ≤ 5 then s
  else
    setSt .standby (setPair (fun p => { p with copyPct := 100, copyItem := 0, inStep := true }) (count 0xD070 s))

/-- PAIR_WATCHDOG_EXPIRY (R353): a proof fails first, at 10 ms (R373); ACT_OUT stops. -/
def proofFailed (cause : Nat) (s : State) : State :=
  event 13 0x06 cause [] (count 0xD060 (setPair (fun p => { p with proving := false, proofFailed := true }) s))

def pairWatchdog (s : State) : State :=
  if !s.pair.actOut then s else fence 0 (if s.pair.proving then proofFailed 2 s else s)

/-! ## Orderly swaps (R371 to R373) -/

/-- What the last heartbeat says of a standby that may take over; `green` for a fail-over request and a scheduled swap. -/
def swapPartner (s : State) (green : Bool) : Bool :=
  s.pair.st == .active && match partnerHb s with
    | some hb => hb.ready && !hb.proofFailed && (!green || hb.grade == 0)
    | none => false

/-- A swap begins (R371 step 1). -/
def startSwap (scheduled : Bool) (s : State) : State :=
  let s := emit .swapPrep (setPair (fun p => { p with swap := some ⟨scheduled, [], s.tim.raw⟩ }) s)
  pauseAll true (pauseAll false s)

/-- PAIR_SWAP (R372, R383). -/
def pairSwap (s : State) : State × Reply :=
  if isLone s || s.pair.swap.isSome || s.pair.copyGiving || !swapPartner s false then (s, .busy) else (startSwap false s, .done)

/-- SWAP_HANDOVER (R371 steps 2 and 4): the intake queues are empty, no token is HELD and the journal is acknowledged. -/
def swapHandover (s : State) : State :=
  if s.pair.swap.isNone || !s.pair.actOut || (List.range 8).any (fun q => !(s.pipe.iq.getD q []).isEmpty) || !s.pipe.flight.isEmpty
    || !s.jr.open_.isEmpty || !s.jr.unacked.isEmpty then s
  else
    let s := setPair (fun p => { p with handoff := true, inStep := true, heard := heardReset }) s
    let s := heartbeatNow 1 s
    let s := setSt .standby (stopActOut s)
    dropQueued (setJr (fun j => { j with nextApply := 1, held := [], delayed := [] }) s)

/-- SWAP_DRAIN_EXPIRY (R371 step 3): DRAIN_MS, in units of 10 ms, has passed. -/
def swapDrainExpiry (s : State) : State :=
  match s.pair.swap with
  | some w => if s.pair.actOut && w.at_ + fieldOf s 0xD008 23 16 * 10000000 ≤ s.tim.raw then abortSwap 0 s else s
  | none => s

/-- SCHEDULED_SWAP_DUE (R372): the swap starts, or is retried every hour with one event recorded. -/
def scheduledSwapDue (s : State) : State :=
  let h := fieldOf s 0xD00C 31 16
  if h = 0 || !s.pair.actOut || isLone s || s.pair.swap.isSome || s.pair.proving then s
  else match s.pair.swapTimer with
    | none => s
    | some n =>
      let early := match s.pair.swapTriedAt with | some t => decide (s.tim.raw < t + 3600000000000) | none => false
      if n < h * 3600000000000 || early then s
      else
      let s := setPair (fun p => { p with swapTriedAt := some s.tim.raw }) s
      if swapPartner s true && !s.pair.copyGiving then startSwap true (setPair (fun p => { p with swapRetryEvent := false }) s)
      else if s.pair.swapRetryEvent then s
      else event 13 0x0A 0x1FF [] (setPair (fun p => { p with swapRetryEvent := true }) s)

/-- A fail-over request of a failed island on the active (R22, R372, R378). -/
def failoverRequest (isl : Nat) (s : State) : State :=
  if !s.pair.actOut || isLone s then s
  else match s.pair.swap with
    | some _ => if swapPartner s false then s else event 13 0x0A isl [] (abortSwap 2 s)
    | none => if swapPartner s true && !s.pair.copyGiving then startSwap false s else event 13 0x0A isl [] s

/-- A proof fails (R373): cause 0 island, 1 memory, 2 watchdog. A swap back follows when the partner is READY. -/
def proofFail (cause : Nat) (s : State) : State :=
  if !s.pair.proving then s
  else
    let s := proofFailed cause s
    if s.pair.swap.isNone && s.pair.st == .active && (match partnerHb s with | some hb => hb.ready | none => false) then startSwap false s else s

/-- PROOF_EXPIRY (R373): PROVE_S or, `last`, PROVE_MAX_S has passed. -/
def proofExpiry (last : Bool) (s : State) : State :=
  if !s.pair.proving then s
  else
    let s := proofGood s
    if last && s.pair.proving && s.pair.proofReadings < fieldOf s 0xD010 31 16 && s.pair.proofSince + fieldOf s 0xD010 15 0 * 1000000000 ≤ s.tim.raw then
      count 0xD064 (setPair (fun p => { p with proving := false }) s)
    else s

/-! ## Status and commands (R381, R383) -/

/-- PRL_STATUS. -/
def prlStatus (s : State) : W32 :=
  let p := s.pair
  let b (k : Nat) (x : Bool) : Nat := b2n x * 2 ^ k
  let partner := match (if p.hb1.at_ < p.hb2.at_ then p.hb2.last.or (p.hb1.last) else p.hb1.last.or (p.hb2.last)) with
    | some hb => takeGrant.pairCode hb.st
    | none => 0
  BitVec.ofNat 32 (takeGrant.pairCode p.st * 2 ^ 28 + b 27 (pairReady s) + b 26 p.actInLive + b 25 (granted s) + b 24 (!p.hb1.lost)
    + b 23 (!p.hb2.lost) + b 22 p.interlockFault + b 21 p.proofFailed + b 20 p.proving + b 19 p.notReady + p.fault % 16 * 4096
    + partner * 256 + min 100 p.copyPct)

/-- Bytes of a heartbeat as PAIR_READ returns it; the TAG is a free value (log entry 3). -/
def hbBytes (hb : Heartbeat) : List Byte :=
  let time (t : Nat) : List Byte := be 6 (clkSec t) ++ be 4 (clkNs t) ++ be 2 (t % 65536)
  let flags := b2n hb.ready * 128 + b2n hb.handoff * 64 + b2n hb.proofFailed * 32 + b2n hb.pos * 16 + hb.grade.toNat * 4 + b2n hb.proving * 2
  let tag := Config.unstated 0x364 (hb.epoch.toNat * 2 ^ 32 + hb.seq.toNat)
  [hb.version] ++ be 1 (takeGrant.pairCode hb.st * 16) ++ be 2 hb.service.toNat ++ be 4 hb.claim.toNat ++ be 4 hb.seq.toNat ++ be 1 flags
    ++ be 1 hb.jver ++ be 1 hb.jverMin ++ [hb.timeState] ++ time hb.txTime ++ time hb.echoTime ++ time hb.echoRx ++ be 4 hb.saltFp.toNat
    ++ be 4 hb.epoch.toNat ++ be 4 0 ++ be 8 tag.toNat ++ be 8 (Config.unstated 0x365 tag.toNat).toNat

/-- One item of PAIR_READ (R574). -/
def hbItem (s : State) (v : HbPath) : List Byte :=
  match v.last with
  | none => be 4 0xFFFFFFFF ++ be 4 0 ++ List.replicate 80 0#8
  | some hb => be 4 (min 0xFFFFFFFF ((s.tim.raw - v.at_) / 1000000)) ++ be 4 0 ++ hbBytes hb

/-- PAIR_READ (R383, R574). -/
def pairRead (s : State) : State × Reply :=
  (s, ⟨.ok, padTo 40 (be 4 (prlStatus s).toNat ++ be 4 s.pair.claim.toNat ++ be 4 s.pair.partnerClaim.toNat),
    [hbItem s s.pair.hb1, hbItem s s.pair.hb2]⟩)

/-- PAIR_CLEAR (R383). -/
def pairClear (s : State) : State × Reply := (setPair (fun p => { p with proofFailed := false, interlockFault := false }) s, .done)

/-- The pair logic starts (R357, R358, R364): LONE with EN 0, else SEEKING; epoch and numbers are drawn, claims read. -/
def pairStart (s : State) : State :=
  let (e, s) := draw s
  let (a, s) := draw s
  let (b, s) := draw s
  let q1 : W32 := BitVec.ofNat 32 a.toNat
  let q2 : W32 := BitVec.ofNat 32 b.toNat
  let stored := maxW (bkpClaim s) s.pair.claimFlash
  let s := { s with pair := { pairReset with epoch := BitVec.ofNat 32 e.toNat, hb1 := { hbPathReset with ownSeq := q1, ownStart := q1 },
                                             hb2 := { hbPathReset with ownSeq := q2, ownStart := q2 }, claim := stored,
                                             claimFlash := s.pair.claimFlash, actInLive := s.pair.actInLive,
                                             prlSignal := s.pair.prlSignal } }
  if fieldOf s 0xD000 31 31 = 0 then takeGrant .start (setSt .lone s) else s

end Sys2Proof.Machine
end

