-- ==== Sys2Proof/Machine/Relay.lean ====
section
/-!
DEFINITION. Sys2Proof/Machine/Relay.lean: the receiving side of the relay (R306 to R317): checks, sessions, pieces, entries, pauses and
the frames of backhaul children.
-/
namespace Sys2Proof.Machine

/-- Count at the port a relay frame came in on. -/
def relayCount (src : RelaySrc) (i : Nat) (s : State) : State :=
  match src with
  | .port p => ethCount p i 1 s
  | .child .. => s

/-! ## Entries (R310) -/

/-- Does the unit hold the pair's addresses on its ports (R298, R300, R352)? -/
def pairAddr (s : State) : Bool := roleOf s != 0 && (isLone s || granted s)

/-- A zero-crossing report at the head (R173): the latest TIME stands, so a repeat changes nothing. -/
def zcEntry (r : ZcReport) (s : State) : Nat × State :=
  match idxFind s r.title with
  | none => (4, s)
  | some n =>
    let w := workOf s n
    if r.time ≤ w.zcAt then (0, s)
    else (0, zcVote n r.offset r.refPhase (putWork n { w with zcAt := r.time } s))

/-- A fingerprint report at the head (R174); an instance is one unit's. -/
def fpEntry (u : BitVec 12) (r : FpReport) (s : State) : Nat × State :=
  match idxFind s r.title with
  | none => (4, s)
  | some n =>
    let v : List Int := r.snr.map Int.ofNat
    if (workOf s n).fp = some (u.toNat * 4 + r.inst % 4, v) then (0, s) else (0, fpVote n (u.toNat * 4 + r.inst % 4) v s)

/-- An entry the receiver's role does not take, or of an unknown type (R310). -/
def badEntry (src : RelaySrc) (s : State) : Option Nat × State := (some 4, relayCount src 43 s)

/-- Apply a whole entry from unit `u`, under the reference `ref`: its result, none while a reading has no outcome yet. -/
def applyWhole (u : BitVec 12) (src : RelaySrc) (ref : Nat) (e : Entry) (s : State) : Option Nat × State :=
  let ok (s : State) : Option Nat × State := (some 0, s)
  let opt (x : Nat × State) : Option Nat × State := (some x.1, x.2)
  if isHead s then
    match e with
    | .reading r =>
      if r.apdu.length = 0 || 2048 < r.apdu.length then badEntry src s
      else
        let q := match src with | .port p => 6 + b2n p | .child .. => 6
        (none, intake q { r with src := q, relayed := true, sender := u, ref := ref } s)
    | .joinReport title _ _ eui t => ok (joinReportEntry title t eui u s)
    | .fetch title => ok (fetchEntry title u s)
    | .unknown title from_ _ => ok (if (idxFind s title).isNone then noteUnknown title from_ u s else s)
    | .zc r => opt (zcEntry r s)
    | .fp r => opt (fpEntry u r s)
    | .meaInterval m => ok (meaEntry u m s)
    | .meaRms m => ok (rmsEntry u m s)
    | .member id m => opt (memberEntry id m s)
    | .segReq id seg => opt (segReqEntry id seg u s)
    | .record .. | .release _ | .fetchNak _ | .segPiece .. | .campCtl .. | .bad => badEntry src s
  else
    match e with
    | .record img keys => ok (recordEntry img keys s)
    | .release title => ok (releaseEntry title s)
    | .fetchNak title => ok (fetchNakEntry title s)
    | .member id m => opt (memberEntry id m s)
    | .segPiece id seg piece data => opt (segPieceEntry id seg piece data s)
    | .campCtl id c => opt (campCtlEntry id c s)
    | .reading _ | .joinReport .. | .fetch _ | .unknown .. | .zc _ | .fp _ | .meaInterval _ | .meaRms _ | .segReq .. | .bad => badEntry src s

def rxOf (s : State) (u : BitVec 12) : RxSession := s.relay.rx.getD u.toNat ⟨0, 0, 0, 0, [], false, []⟩

/-- Store a session; a pair journals it (R319). -/
def putRx (u : BitVec 12) (v : RxSession) (s : State) : State :=
  journal (.session u v) (setRelay (fun r => { r with rx := Kv.put u.toNat v r.rx }) s)

/-- Path of a partial entry (R312). -/
def pieceKey : RelaySrc → Nat
  | .port p => b2n p
  | .child .. => 2

/-- Take one entry or piece of a frame: its result, none while a reading still runs. A piece that is discarded is counted and has
result 0x04, as R310 gives an entry it skips (DEDUCED, log entry 81). -/
def takeEnt (u : BitVec 12) (src : RelaySrc) (seq : W32) (ref : Nat) (x : FrameEnt) (s : State) : Option Nat × State :=
  let k := pieceKey src
  let v := rxOf s u
  let follows := match Kv.get? k v.partial_ with | some q => seq == q + 1 | none => false
  match x with
  | .whole e => applyWhole u src ref e s
  | .first _ => (some 0, putRx u { v with partial_ := Kv.put k seq v.partial_ } s)
  | .middle _ =>
    if follows then (some 0, putRx u { v with partial_ := Kv.put k seq v.partial_ } s)
    else (some 4, relayCount src 43 (putRx u { v with partial_ := Kv.del k v.partial_ } s))
  | .last _ e =>
    let s := putRx u { v with partial_ := Kv.del k v.partial_ } s
    if follows then applyWhole u src ref e s else (some 4, relayCount src 43 s)

/-- The entries of a batch in order: their results. -/
def takeEnts (u : BitVec 12) (src : RelaySrc) (seq : W32) : Nat → List FrameEnt → State → List (Option Nat) × State
  | _, [], s => ([], s)
  | ref, x :: t, s =>
    let (r, s) := takeEnt u src seq ref x s
    let (rs, s) := takeEnts u src seq (ref + 1) t s
    (r :: rs, s)

/-- A batch from a sender (R313): its entries are applied, and it waits for its ACK. -/
def batchRx (f : RelayFrame) (src : RelaySrc) (l : List FrameEnt) (s : State) : State :=
  let base := s.relay.nextRef
  let v := rxOf s f.sender
  let port := match src with | .port p => p | .child .. => false
  let s := headMoves f.sender v.port port s
  let v := { v with port := port, last := Kv.put (b2n port) s.tim.raw v.last }
  let s := setRelay (fun r => { r with nextRef := base + l.length, rx := Kv.put f.sender.toNat v r.rx }) s
  let s := setRelay (fun r => { r with accepted := r.accepted ++ [⟨f.sender, src, f.seq, base, l.map fun _ => none⟩] }) s
  let (rs, s) := takeEnts f.sender src f.seq base l s
  let merge (b : RxBatch) : RxBatch := if b.base = base then { b with results := (b.results.zip rs).map fun x => x.1.or x.2 } else b
  setRelay (fun r => { r with accepted := r.accepted.map merge }) s

/-! ## Freshness (R309) -/

/-- Verdict on a frame's freshness: stale, stale for want of capacity, or accepted with the new session. -/
inductive Fresh where
  | stale
  | full
  | ok (v : RxSession)
  deriving DecidableEq, Repr

/-- Claim, session, window and capacity of R309, in that order. -/
def freshness (s : State) (f : RelayFrame) : Fresh :=
  let held := Kv.get? f.sender.toNat s.relay.rx
  let skew : Int := (f.txTime.toNat : Int) - (rxTime s).toNat
  let timely := f.txTime != 0 && islInRun s 16 && decide (skew.natAbs ≤ fieldOf s 0x704 7 0 * 65536)
  match held with
  | none =>
    if !timely then .stale
    else if isHead s && 4094 ≤ s.relay.rx.length then .full
    else .ok ⟨f.session, f.seq, 0, f.claim, [], false, []⟩
  | some v =>
    if f.claim < v.claim then .stale
    else if f.session != v.session then (if timely then .ok ⟨f.session, f.seq, 0, f.claim, [], v.port, v.last⟩ else .stale)
    else if v.high < f.seq then
      let d := (f.seq - v.high).toNat
      .ok { v with high := f.seq, map := if 64 < d then 0 else (v.map <<< d) ||| (1#64 <<< (d - 1)), claim := f.claim }
    else
      let d := (v.high - f.seq).toNat
      if d = 0 || 64 ≤ d || v.map.getLsbD (d - 1) then .stale else .ok { v with map := v.map ||| (1#64 <<< (d - 1)), claim := f.claim }

/-! ## Frames -/

/-- The checks of R307 and the first two of R309. -/
def frameAuthentic (s : State) (f : RelayFrame) : Bool := Kv.get? f.keyVer s.sec.relayKeys == some f.key

/-- What an accepted frame does. -/
def relayBody (src : RelaySrc) (f : RelayFrame) (s : State) : State :=
  let port := match src with | .port p => p | .child .. => false
  match f.body with
  | .batch l =>
    if portPaused s port then pauseSender port f.sender (relayCount src 46 s) else batchRx f src l s
  | .ack seq _ => ackReceived f.sender seq s
  | .pause ms => if isField s then setRelay (fun r => { r with paused := Kv.put (b2n port) (s.tim.raw + ms * 1000000) r.paused }) s else s
  | .resume => setRelay (fun r => { r with paused := Kv.del (b2n port) r.paused }) s

/-- A frame for this unit, past the MAC and UDP filters (R307, R309, R368, R376). A higher CLAIM of the head pair is a new active: segment
fetches still open are repeated to it (R227). -/
def relayAccept (src : RelaySrc) (f : RelayFrame) (s : State) : State :=
  match freshness s f with
  | .stale => relayCount src 42 s
  | .full => (match src with | .port p => event (11 + b2n p) 0x03 f.sender.toNat [] (relayCount src 42 s) | .child .. => s)
  | .ok v =>
    let risen := f.sender == headUnit && isField s && (match Kv.get? f.sender.toNat s.relay.rx with | some o => decide (o.claim < f.claim) | none => false)
    let s := putRx f.sender v (relayCount src 40 s)
    let s := if risen then refetch s else s
    if f.sender == ownService s && !isLone s then
      let s := setPair (fun p => { p with partnerClaim := maxW p.partnerClaim f.claim }) s
      if s.pair.claim < f.claim then fence 2 s else s
    else relayBody src f s

/-- A record that passes to a backhaul child is kept in the backhaul cache (R47, R317). -/
def cacheRecord (rf : Bool) (img : RecImg) (keys : RecKeys) (s : State) : State :=
  if !dramTable s then s
  else
    let title := recTitle img
    let new := setFld (setFld (setFld (setFld img 8 1 2) 9 1 (0x84 + b2n rf)) 18 2 0xFFFF) 20 8 0
    match idxFind s title with
    | some n => writeSlot n ⟨new, keys, 0⟩ s
    | none =>
      let s := if (freeSlot s).isNone then evict s else s
      match freeSlot s with
      | none => insertRefused 1 none title s
      | some n => match idxInsertion s title n with
        | none => insertRefused 0 (some n) title s
        | some c => writeSlotIdx n ⟨new, keys, 0⟩ (some c) s

/-- A head's frame for a backhaul child goes on over radio, unchanged, in the shared cells (R271, R317). -/
def toChild (rf : Bool) (short : Nat) (f : RelayFrame) (s : State) : State :=
  let s := rfQueue (b2n rf) (some short) (.relay f) s
  match f.body with
  | .batch l => l.foldl (fun t x => match x with
      | .whole (.record img keys) | .last _ (.record img keys) => cacheRecord rf img keys t
      | _ => t) s
  | _ => s

/-- A child's frame goes on to the head pair, unchanged, while the uplink is up (R317). -/
def fromChild (rf : Bool) (short : Nat) (f : RelayFrame) (s : State) : State :=
  if !f.formOk || !frameAuthentic s f then s
  else
    let others := s.relay.children.filter fun c => c.1 != f.sender
    let s := if 64 ≤ others.length then s else setRelay (fun r => { r with children := others ++ [(f.sender, rf, short)] }) s
    let prim := fieldOf s 0x700 13 13 = 1
    let p := if pathUp s headUnit prim then prim else !prim
    if !pathUp s headUnit p then s
    else
      let prio := match f.body with | .batch _ => 4 | _ => 3
      match overRadioPath s p with
      | some r => rfQueue (b2n r) (some 0) (.relay f) s
      | none => ethCount p 44 1 (ethSend p prio (relayBytes f.body + 110) 0 (.relay p f) s)

/-- Past the filters: format, key and tag (R307, R309); then a child's frames, or the unit's own. -/
def relayChecked (src : RelaySrc) (f : RelayFrame) (s : State) : State :=
  if !f.formOk then relayCount src 43 s
  else if !frameAuthentic s f then relayCount src 41 s
  else match (if isField s then f.receiver.bind fun u => s.relay.children.find? (fun c => c.1 == u) else none) with
    | some c => toChild c.2.1 c.2.2 f s
    | none => relayAccept src f s

/-- RELAY_FRAME_RX (R264, R298, R300, R307, R309, R317): a unit without the grant holds no pair address, and over radio only a unit
neighbour may send one. -/
def relayFrameRx (src : RelaySrc) (f : RelayFrame) (s : State) : State :=
  match src with
  | .port p =>
    if !ethLink s p then s
    else if !pairAddr s then ethCount p (if f.toPair then 10 else 47) 1 s
    else if !f.toPair then ethCount p 47 1 s
    else relayChecked src f s
  | .child rf short =>
    if !isField s || !islRun s (9 + b2n rf) || !serving s then s
    else if rfChild s (b2n rf) then relayChecked src f s
    else if (match Kv.get? short (rfOf s (b2n rf)).ends with | some e => e.unit | none => false) then fromChild rf short f s
    else rfCount (b2n rf) 0x60 s

/-- RELAY_PAUSE_HOLD_EXPIRY (R314): HOLD_MS has passed. -/
def pauseHoldExpiry (p : Bool) (s : State) : State :=
  match Kv.get? (b2n p) s.relay.paused with
  | some u => if s.tim.raw < u then s else setRelay (fun r => { r with paused := Kv.del (b2n p) r.paused }) s
  | none => s

end Sys2Proof.Machine
end

