-- ==== Sys2Proof/Machine/Ethernet.lean ====
section
/-!
DEFINITION. Sys2Proof/Machine/Ethernet.lean: the Ethernet ports (chapter 09): match entries, received frames, links, transmit buffers,
LLDP and Energy-Efficient Ethernet.
-/
namespace Sys2Proof.Machine

/-! ## Perfect-match entries (R298, R321) -/

/-- The OTP base MAC address, plus 1 for ETH1 (R298, R514). -/
def ownMac (s : State) (p : Bool) : BitVec 48 :=
  BitVec.ofNat 48 ((s.boot.otp.getD 132 0).toNat * 65536 + (s.boot.otp.getD 133 0).toNat / 65536 + b2n p)

/-- IPv6 solicited-node multicast address. -/
def solicited (a : BitVec 128) : BitVec 48 := BitVec.ofNat 48 (0x3333FF000000 + a.toNat % 16777216)

/-- The PTP multicast address for TIM_CONFIG.TRANSPORT; the Ethernet address with PROFILE 0. -/
def ptpMac (s : State) : BitVec 48 :=
  if powerProfile s then 0x011B19000000#48
  else match fieldOf s 0x10000 29 28 with
    | 1 => 0x01005E000181#48
    | 2 => 0x333300000181#48
    | _ => 0x011B19000000#48

/-- A match entry: VALID and address. -/
def matchEntry (s : State) (p : Bool) (n : Nat) : Bool × BitVec 48 :=
  let a := ethAddrs s p
  let ip := (a.map (·.ipv6)).getD 0
  let relay := (a.map (·.relayIpv6)).getD 0
  match n with
  | 0 => (true, ownMac s p)
  | 1 => (pairAddr s, (a.map (·.sharedMac)).getD 0)
  | 2 => (true, 0x0180C200000E#48)
  | 3 => (ptpOn s p, ptpMac s)
  | 4 => (ip != 0, solicited ip)
  | 5 => (pairAddr s && relay != 0, solicited relay)
  | _ =>
    let hi := ethBase p + 0x44 + 8 * n
    (fieldOf s hi 31 31 = 1, BitVec.ofNat 48 (fieldOf s hi 15 0 * 2 ^ 32 + (reg s (ethBase p + 0x40 + 8 * n)).toNat))

/-- Does the port accept a destination address? -/
def ethAccepts (s : State) (p : Bool) (d : BitVec 48) : Bool :=
  (d == 0xFFFFFFFFFFFF#48 && fieldOf s (ethBase p + 4) 0 0 = 1) || (List.range 16).any fun n => let e := matchEntry s p n; e.1 && e.2 == d

/-! ## Received frames (R296 to R300) -/

/-- Address kind: 0 unicast, 1 multicast, 2 broadcast. -/
def macKind (d : BitVec 48) : Nat := if d == 0xFFFFFFFFFFFF#48 then 2 else if d.getLsbD 40 then 1 else 0

/-- Statistics counter of a length (R304). -/
def lengthBin (n : Nat) : Nat :=
  if n ≤ 64 then 17 else if n ≤ 127 then 18 else if n ≤ 255 then 19 else if n ≤ 511 then 20 else if n ≤ 1023 then 21 else if n ≤ 1518 then 22 else 23

/-- The tag rule of R296. -/
def vlanOk (s : State) (p : Bool) (v : Option (BitVec 12)) : Bool :=
  let id := vlanId s p
  match v with
  | none => id == 0
  | some t => id != 0 && t.toNat == id

/-- Is a UDP datagram one the unit accepts (R300)? -/
def udpAccepted (s : State) (p : Bool) (port : Nat) (toPair toOwn : Bool) : Bool :=
  (port == fieldOf s 0x700 31 16 && toPair && pairAddr s) || (port == fieldOf s 0x800 31 16 && toOwn)
    || (port == 4723 && toOwn && !isLone s)
    || ((port == 319 || port == 320) && ptpOn s p && !powerProfile s && fieldOf s 0x10000 29 28 != 0)

/-- What an accepted frame does at the port itself. -/
def ethPay (p : Bool) (x : EthPay) (s : State) : State :=
  match x with
  | .macControl => ethCount p 14 1 s
  | .lldp tlv ttl =>
    let s := ethCount p 15 1 s
    match tlv with
    | some w => setEth p { ethOf s p with tlv := if ttl = 0 then none else some w, tlvUntil := s.tim.raw + ttl * 1000000000 } s
    | none => s
  | .ptp => ethCount p 16 1 s
  | .arp => ethSend p 5 64 0 (.netReply p) s
  | .nd => ethSend p 5 90 0 (.netReply p) s
  | .echo => ethSend p 5 102 0 (.netReply p) s
  | .udp port toPair toOwn fragment => if fragment || !udpAccepted s p port toPair toOwn then ethCount p 47 1 s else s
  | .otherIp => ethCount p 47 1 s
  | .other => s

/-- ETH_FRAME_RX (R297). -/
def ethFrameRx (p : Bool) (f : EthFrame) (s : State) : State :=
  let maxF := fieldOf s (ethBase p) 25 12
  if !ethLink s p then s
  else if f.codeErrs != 0 then ethCount p 34 f.codeErrs (ethCount p 6 1 s)
  else if f.length < 64 then ethCount p 7 1 s
  else if maxF < f.length then ethCount p (if f.fcsOk then 8 else 9) 1 s
  else if !f.fcsOk then ethCount p 5 1 s
  else if !ethAccepts s p f.dest then ethCount p 10 1 s
  else if !vlanOk s p f.vlan then ethCount p 11 1 s
  else if f.noRoom then ethCount p 13 f.length (ethCount p 12 1 s)
  else
    ethPay p f.pay (ethCount p (lengthBin f.length) 1 (ethCount p (2 + macKind f.dest) 1 (ethCount p 1 f.length (ethCount p 0 1 s))))

/-! ## Transmit buffer (R301) -/

/-- The statistics of a frame sent: frames, bytes, address kind, and PTP or LLDP (R304). -/
def txCount (p : Bool) (x : EthTx) (s : State) : State :=
  let s := ethCount p (26 + min 2 x.kind) 1 (ethCount p 25 x.bytes (ethCount p 24 1 s))
  match x.out with
  | .ptp .. | .announce .. | .pdelayResp _ => ethCount p 29 1 s
  | .lldp .. => ethCount p 30 1 s
  | _ => s

/-- Frames that wait move in while there is space. -/
def txAdmit (p : Bool) : Nat → State → State
  | 0, s => s
  | n + 1, s =>
    let v := ethOf s p
    match v.wait with
    | [] => s
    | x :: t => if txUsed v + x.bytes ≤ 65536 then txAdmit p n (setEth p { v with tx := v.tx ++ [x], wait := t } s) else s

/-- The port sends the next frame by strict priority, the oldest of its class first, once the transmit wake time is over (R301, R303). -/
def txNext (p : Bool) (s : State) : State :=
  let v := ethOf s p
  if !ethLink s p || s.tim.raw < v.wakeAt then s
  else match [1, 2, 3, 4, 5].findSome? (fun k => v.tx.find? fun x => x.prio == k) with
    | none => s
    | some x =>
      let s := setEth p { v with tx := v.tx.erase x, idleAt := s.tim.raw } s
      let s := emit (.ethFrame p (if vlanId s p = 0 then none else some (BitVec.ofNat 12 (vlanId s p))) x.out) (txCount p x s)
      txAdmit p (ethOf s p).wait.length s

/-- TX_BUFFER_WAIT_EXPIRY (R301): the frame that has waited longest is discarded once that is 10 ms. -/
def txWaitExpiry (p : Bool) (s : State) : State :=
  match (ethOf s p).wait with
  | [] => s
  | x :: t => if s.tim.raw < x.since + 10000000 then s else ethCount p 32 1 (setEth p { ethOf s p with wait := t } s)

/-! ## Links, LLDP and EEE (R295, R301 to R303) -/

/-- ETH_STATUS. -/
def ethStatus (s : State) (p : Bool) : W32 :=
  let v := ethOf s p
  BitVec.ofNat 32 (b2n (ethLink s p) * 2 ^ 31 + (if ethLink s p then v.speed % 8 else 0) * 2 ^ 28 + b2n (eeeOn s p && v.tlv.isSome) * 2 ^ 27
    + b2n ((matchEntry s p 1).1 && (matchEntry s p 5).1) * 2 ^ 26 + txWake s p)

/-- An LLDPDU (R302): the EEE TLV, in USXGMII mode, asks for the receive wake time and echoes the partner's. -/
def lldpNow (p : Bool) (s : State) : State :=
  if !ethLink s p then s
  else
    let v := ethOf s p
    let usx := v.mode = 0
    let s := setEth p { v with lldpAt := s.tim.raw } s
    let tlv := if usx then some (defaultWake v.speed + fieldOf s (ethBase p + 8) 7 0, v.tlv.getD 0) else none
    ethSend p 5 (if usx then 78 else 64) 1 (.lldp p (ownMac s p) tlv (4 * fieldOf s (ethBase p + 8) 23 16)) s

/-- LLDP_SEND (R302): LLDP_S seconds after the last one. -/
def lldpSend (p : Bool) (s : State) : State :=
  if s.tim.raw < (ethOf s p).lldpAt + fieldOf s (ethBase p + 8) 23 16 * 1000000000 then s else lldpNow p s

/-- Speeds of a mode, as ETH_STATUS.SPEED shows them (R294, R320). -/
def modeSpeeds : Nat → List Nat
  | 1 => [4]
  | 2 => [1]
  | _ => [1, 2, 3, 4]

/-- ETH_LINK_UP (R294, R295, R302): a rate the mode does not have and half duplex are no link. -/
def linkUp (p : Bool) (speed : Nat) (half eee : Bool) (s : State) : State :=
  if !islRun s (11 + b2n p) || fieldOf s (ethBase p) 31 31 = 0 || (ethOf s p).link || !(modeSpeeds (ethOf s p).mode).contains speed then s
  else if half then event (11 + b2n p) 0x01 0 [] s
  else lldpNow p (setEth p { ethEmpty with mode := (ethOf s p).mode, link := true, speed := speed, eee := eee, idleAt := s.tim.raw } s)

/-- ETH_LINK_DOWN (R301): the buffer's frames are discarded and counted, and the path is down. -/
def linkDown (p : Bool) (s : State) : State :=
  if !ethLink s p then s
  else
    let s := leaveLpi p s
    let v := ethOf s p
    let s := ethCount p 33 1 (ethCount p 31 (v.tx.length + v.wait.length) (setEth p { ethEmpty with mode := v.mode } s))
    let tos := (s.relay.unacked.map (·.to_) ++ s.relay.open_.map fun x => BitVec.ofNat 12 (x.1 / 2)).eraseDups
    tos.foldl (fun t u => pathFail u p t) s

/-- LPI_IDLE_ENTRY (R303): the buffer has been empty for LPI_IDLE_US. -/
def lpiEntry (p : Bool) (s : State) : State :=
  let v := ethOf s p
  if !eeeOn s p || v.tlv.isNone || !v.tx.isEmpty || v.lpi || s.tim.raw < v.idleAt + fieldOf s (ethBase p + 8) 15 8 * 1000 then s
  else ethCount p 37 1 (setEth p { v with lpi := true, lpiAt := s.tim.raw } s)

/-- PARTNER_EEE_TLV_EXPIRY (R303): the TTL is over. -/
def tlvExpiry (p : Bool) (s : State) : State :=
  if s.tim.raw < (ethOf s p).tlvUntil then s else setEth p { ethOf s p with tlv := none } s

end Sys2Proof.Machine
end

