-- ==== Sys2Proof/Machine/Events.lean ====
section
/-!
DEFINITION. Sys2Proof/Machine/Events.lean: queues as they are shown (R477 to R480), monitors (R482 to R487), the event recorder
(R488 to R500) and the rate-limit windows (R572).
-/
namespace Sys2Proof.Machine

/-! ## Queues -/

/-- CTL_Q_INFO (R479, R480): queues 0 to 7 are the intake queues of R83, 8 to 15 go from CTL to the clusters; the rest of the
directory is the mask set's (log entry 32). -/
def queueInfo (q : Nat) : W32 :=
  let producer := if q < 8 then 5 + q else if q < 16 then 1 else (Config.queueProducer q).toNat
  let consumer := if q < 8 then 1 else if q < 16 then 17 + (q - 8) / 2 else (Config.queueConsumer q).toNat
  let crit := q < 8 || Config.queueCrit q
  let itemMax := if q < 8 then 15 else (Config.queueItemMax q).toNat
  BitVec.ofNat 32 (producer * 2 ^ 27 + consumer * 2 ^ 22 + b2n crit * 2 ^ 21 + (Config.queueNotice q).toNat * 2 ^ 19 + itemMax * 2 ^ 15
    + queueDepth q)

/-- The five registers of a queue at one instant (R480); all zero where there is no queue. -/
def queueWords (s : State) (q : Nat) : List W32 :=
  if 256 ≤ q || queueDepth q = 0 then [0, 0, 0, 0, 0]
  else
    let v := qState s q
    [queueInfo q, BitVec.ofNat 32 (b2n v.af * 2 ^ 31 + v.packets % 2 ^ 15 * 2 ^ 15 + v.items % 2 ^ 15), v.lostItems, v.lostPkts, v.flushes]

def latchOf (s : State) (p : Path) : Latch := s.lat.getD (match p with | .bar0 => 0 | .cmd => 1 | .firmware => 2) latchReset
def setLatch (p : Path) (f : Latch → Latch) (s : State) : State :=
  let k := match p with | .bar0 => 0 | .cmd => 1 | .firmware => 2
  { s with lat := Kv.putOr latchReset k (f (latchOf s p)) s.lat }

/-- A write of CTL_Q_SEL latches the queue's registers for its path (R480, R539). -/
def latchQueue (p : Path) (q : Nat) (s : State) : State := setLatch p (fun l => { l with queue := queueWords s q }) s

/-- Q_READ (R499): N queues from FIRST. -/
def qRead (first n : Nat) (s : State) : State × Reply :=
  if n = 0 || 256 < first + n then (s, .bad)
  else (s, ⟨.ok, [], (List.range n).map fun k => (queueWords s (first + k)).flatMap fun w => be 4 w.toNat⟩)

/-- IDLE_ITEM_WRITE (R477): stored only while the queue is empty; the batchers read it and close their batches. -/
def idleItem (q : Nat) (s : State) : State :=
  let v := qState s q
  if 256 ≤ q || queueDepth q = 0 || v.items ≠ 0 then s
  else
    let consumer := (Config.queueConsumer q).toNat
    if q < 16 then setQ q { v with idle := true } s
    else if consumer = 13 then journalBatchClose s
    else if consumer = 11 || consumer = 12 then
      let p := consumer == 12
      (s.relay.open_.map (·.1)).foldl (fun t k => if (k % 2 == 1) == p then sendOpen (BitVec.ofNat 12 (k / 2)) p t else t) s
    else setQ q { v with idle := true } s

/-! ## Monitors -/

def monOf (s : State) (n : Nat) : MonState := s.mon.getD n monEmpty
def monCfg (s : State) (n : Nat) : W32 := reg s (0x15100 + 16 * n)

/-- Is MON out of its own block reset (R524)? -/
def monUp (s : State) : Bool := islRun s 1 && !bit (reg s 0x17008) 22

/-- The island a source belongs to; none for a code of no source (R483). -/
def monIsland (src : Nat) : Option Nat :=
  if src ≤ 1 || (0x10 ≤ src && src ≤ 0x18) || (0x20 ≤ src && src ≤ 0x24) || src = 0x27 then some 1
  else if src = 0x25 then some 13 else if src = 0x26 then some 4 else if src = 0x30 || src = 0x31 then some 16 else none

/-- What a source shows: the state's own figures where it holds them, else the value sampled outside (R483). -/
def monValue (s : State) (src : Nat) (v : Int) : Int :=
  match src with
  | 0x20 => s.pipe.free
  | 0x21 => heldTokens s
  | 0x24 => ((List.range 8).foldl (fun m q => max m (qState s q).items) 0 : Nat)
  | 0x26 => (s.arch.wq.length * 64 / 1024 : Nat)
  | 0x27 => (holdUsed s / 1024 : Nat)
  | 0x30 => s.tim.offset
  | 0x31 => s.tim.rate
  | _ => v

/-- The bin of a sample (R484). -/
def monBin (lo v : Int) (shift : Nat) : Nat :=
  if v < lo then 0 else if lo + 30 * 2 ^ shift ≤ v then 31 else ((v - lo) / 2 ^ shift).toNat + 1

/-- Nanoseconds of PERIOD (R487); 0 is each update. -/
def monPeriod (cfg : W32) : Nat := if bits cfg 19 16 = 0 then 0 else 10 ^ (bits cfg 19 16 + 2)

/-- Has a channel's period passed since its last sample? -/
def monDue (s : State) (n : Nat) : Bool :=
  match (monOf s n).at_ with | some t => decide (t + monPeriod (monCfg s n) ≤ s.tim.raw) | none => true

/-- MON_SAMPLE (R484, R485, R487): results and bins, once a PERIOD; an alarm once per crossing. -/
def monSample (n : Nat) (x : Int) (s : State) : State :=
  let cfg := monCfg s n
  if 64 ≤ n || !monUp s || !bit cfg 31 || !monDue s n then s
  else match monIsland (bits cfg 30 24) with
    | none => s
    | some i =>
      if (islOf s i).st != .run then s
      else
        let v := satI32 (monValue s (bits cfg 30 24) x)
        let m := monOf s n
        let b := monBin (reg s (0x15104 + 16 * n)).toInt v (bits cfg 23 20)
        let hi := (reg s (0x15108 + 16 * n)).toInt
        let lo := (reg s (0x1510C + 16 * n)).toInt
        let out := decide (hi < v) || decide (v < lo)
        let m' : MonState := { min := if m.count = 0 then v else min m.min v, max := if m.count = 0 then v else max m.max v, last := v,
                               count := satAdd m.count 1, bins := m.bins.modify b (satAdd · 1), armed := !out, at_ := some s.tim.raw }
        let s := { s with mon := Kv.put n m' s.mon }
        if out && m.armed then
          event 1 0x21 (b2n (decide (hi < v)) * 256 + n) [be 4 (wordI v).toNat]
            (notice 0 (setField (0x15008 + 4 * (n / 32)) (n % 32) (n % 32) 1 s))
        else s

/-- MIN, MAX, LAST, COUNT and the bins of a channel. -/
def monResults (m : MonState) : List W32 := [wordI m.min, wordI m.max, wordI m.last, m.count] ++ m.bins

/-- Clear a channel's results; its alarm stays armed or not (R486, R499). -/
def monClear (n : Nat) (s : State) : State := { s with mon := Kv.put n { monEmpty with armed := (monOf s n).armed, at_ := (monOf s n).at_ } s.mon }

/-- A write of MON_SNAP (R486) latches the window of its path, and clears if CLEAR is 1. -/
def monSnap (p : Path) (v : W32) (s : State) : State :=
  let n := bits v 5 0
  let s := setLatch p (fun l => { l with mon := monResults (monOf s n) }) s
  if bit v 6 then monClear n s else s

/-- MON_READ (R499). -/
def monRead (first n : Nat) (s : State) : State × Reply :=
  if n = 0 || 64 < n || 64 < first + n then (s, .bad)
  else (s, ⟨.ok, [], (List.range n).map fun k =>
    let c := first + k
    ([monCfg s c, reg s (0x15104 + 16 * c), reg s (0x15108 + 16 * c), reg s (0x1510C + 16 * c)] ++ monResults (monOf s c)).flatMap
      fun w => be 4 w.toNat⟩)

/-- MON_RESET (R499). -/
def monReset (lo hi : W32) (s : State) : State × Reply :=
  ((List.range 64).foldl (fun t n => if bit (if n < 32 then lo else hi) (n % 32) then monClear n t else t) s, .done)

/-! ## The event recorder -/

def setEvt (f : EvtState → EvtState) (s : State) : State := { s with evt := f s.evt }

/-- Is EVT out of its own block reset (R524)? -/
def evtUp (s : State) : Bool := !bit (reg s 0x17008) 23

/-- The next SEQ (R492). -/
def evtNext (s : State) : Nat := match s.evt.lastSeq with | some q => q.toNat + 1 | none => 0

/-- Is an archive mounted, so that its EVENTS zone can be read (R493)? -/
def evtMounted (s : State) : Bool := islInRun s 4 && (s.arch.st == .ready || s.arch.st == .keepFull || s.arch.st == .readOnly)

/-- Records of the EVENTS zone, oldest first. -/
def evtZone (s : State) : List EvRec := if evtMounted s then s.evt.zoneOld ++ s.evt.zoneCur else []

/-- First SEQ of a list of records. -/
def firstSeq : List EvRec → Option Nat
  | r :: _ => some r.seq.toNat
  | [] => none

/-- OLDEST (R496, R497). -/
def evtOldest (s : State) : Nat :=
  let l := (firstSeq (evtZone s)).toList ++ (firstSeq s.evt.ring).toList
  match l with
  | [] => max (evtNext s) s.evt.floor.toNat
  | a :: t => max (t.foldl min a) s.evt.floor.toNat

/-- The 32 bytes of a record (R488, R489). -/
def evtBytes (r : EvRec) : List Byte :=
  if r.part ≠ 0 then be 8 r.seq.toNat ++ be 2 0x00FF ++ be 1 r.part ++ [0] ++ padTo 20 r.contData
  else
    let flags := b2n r.critical * 128 + b2n r.rawTime * 64 + b2n r.restarted * 32 + r.parts % 4 * 4
    be 8 r.seq.toNat ++ be 8 r.time.toNat ++ be 4 r.opSeconds.toNat ++ be 2 r.cycles.toNat ++ be 2 r.code.toNat ++ be 1 flags ++ [0]
      ++ be 2 r.suppressed.toNat ++ be 4 r.data.toNat

/-- The records of the oldest event and what is left (R489). -/
def splitEvent : List EvRec → List EvRec × List EvRec
  | [] => ([], [])
  | r :: t => (r :: t.takeWhile (fun x => x.part ≠ 0), t.dropWhile (fun x => x.part ≠ 0))

/-- Overwrite whole events until the ring holds at most 512 records; those not in the zone count while FLS_CONFIG.EN is 1 (R493). -/
def trimRing : Nat → State → State
  | 0, s => s
  | fuel + 1, s =>
    if s.evt.ring.length ≤ 512 then s
    else
      let (ev, rest) := splitEvent s.evt.ring
      let lost := if fieldOf s 0x4000 31 31 = 1 then (ev.filter fun r => s.evt.archNext.toNat ≤ r.seq.toNat).length else 0
      trimRing fuel (countBy 0x16048 lost (setEvt (fun e => { e with ring := rest }) s))

/-- The continuation records of an event. -/
def contRecs (base : EvRec) : Nat → List (List Byte) → List EvRec
  | _, [] => []
  | k, d :: t => { base with seq := base.seq + BitVec.ofNat 64 k, part := k, contData := d } :: contRecs base (k + 1) t

/-- Stamp an event (R491). -/
def headRec (e : Raised) (s : State) : EvRec :=
  { seq := BitVec.ofNat 64 (evtNext s), part := 0, time := if timeValid s then clkTime s.tim.clk else BitVec.ofNat 64 (s.tim.raw % 2 ^ 32),
    rawTime := !timeValid s, restarted := s.evt.restart, critical := e.critical, opSeconds := reg s 0x1010,
    cycles := BitVec.ofNat 16 (min 65535 (reg s 0x1014).toNat), code := BitVec.ofNat 16 (e.isl * 256 + e.code), parts := min 3 e.conts.length,
    suppressed := BitVec.ofNat 16 (s.evt.suppressed.getD (e.isl * 256 + e.code) 0), data := e.data, contData := [] }

/-- Post a record as an EVENT completion (R495, R399). -/
def postEvent (s : State) (r : EvRec) : State :=
  let b : CqBody := .event (evtBytes r)
  match postingRing s ⟨0, b⟩ with
  | some q => cqPush q ⟨0, 0xFF, false, s.pair.claim, r.seq, b, none, none⟩ s
  | none => count 0xE040 s

/-- Store an accepted event: numbered, in the ring, its SEQ kept in BKP, noticed when critical, posted (R491 to R495). -/
def storeEvent (e : Raised) (s : State) : State :=
  let r := headRec e s
  let recs := r :: contRecs r 1 (e.conts.take 3)
  let n := recs.length
  let last := r.seq + BitVec.ofNat 64 (n - 1)
  let s := setEvt (fun v => { v with ring := v.ring ++ recs, lastSeq := some last, restart := false,
                                     suppressed := Kv.del (e.isl * 256 + e.code) v.suppressed }) s
  let s := trimRing 5 (countBy 0x16040 n s)
  let s := setReg 0x1104 (BitVec.ofNat 32 last.toNat) (setReg 0x1100 (BitVec.ofNat 32 (last.toNat / 2 ^ 32)) s)
  let s := if e.critical then notice 1 s else s
  if e.critical || fieldOf s 0x16000 31 31 = 0 then recs.foldl postEvent s else s

/-- EVENT_ACCEPT (R491, R494): the oldest raised event; a non-critical one passes its code's bucket and TOTAL_RATE. -/
def eventAccept (s : State) : State :=
  match s.evt.raised with
  | [] => s
  | e :: rest =>
    if s.boot.phase == .inReset || s.boot.phase == .trimHold || !evtUp s then s
    else
      let s := setEvt (fun v => { v with raised := rest }) s
      let key := e.isl * 256 + e.code
      let burst := fieldOf s 0x16000 7 0
      let tokens := min burst (s.evt.buckets.getD key burst)
      let n := 1 + min 3 e.conts.length
      if e.critical then storeEvent e s
      else if tokens = 0 || fieldOf s 0x16000 27 16 < s.evt.secRecords + n then
        count 0x16044 (setEvt (fun v => { v with suppressed := Kv.put key (min 65535 (v.suppressed.getD key 0 + 1)) v.suppressed }) s)
      else storeEvent e (setEvt (fun v => { v with buckets := Kv.put key (tokens - 1) v.buckets, secRecords := v.secRecords + n }) s)

/-- EVT_BUCKET_REFILL (R494): once at the start of each whole second of the unit's time (R572). -/
def evtRefill (s : State) : State :=
  let burst := fieldOf s 0x16000 7 0
  let rate := fieldOf s 0x16000 15 8
  if unitSec s = s.evt.refillAt then s
  else setEvt (fun v => { v with refillAt := unitSec s, buckets := v.buckets.map fun p => (p.1, min burst (p.2 + rate)) }) s

/-- Records a half of the EVENTS zone takes: at least 1,048,576, at most what its blocks hold; a free value between (R493, R424). -/
def evtHalf (s : State) : Nat :=
  let most := (ceilDiv 32768 (blockKib s) + 2) * blockKib s * 32
  1048576 + (Config.unstated 0x493 (blockKib s)).toNat % (most - 1048576 + 1)

/-- EVENT_ARCHIVE_WRITE (R493): the oldest event of the ring that the zone lacks; a full half gives way to the other, erased. -/
def eventArchiveWrite (s : State) : State :=
  if !archiveWritable s || !evtUp s then s
  else
    let l := s.evt.ring.dropWhile fun r => r.seq.toNat < s.evt.archNext.toNat || r.part ≠ 0
    match splitEvent l with
    | ([], _) => s
    | (r :: t, _) =>
      let recs := r :: t
      let next := r.seq + BitVec.ofNat 64 recs.length
      setEvt (fun v =>
        let v := if evtHalf s < v.zoneCur.length + recs.length then { v with zoneOld := v.zoneCur, zoneCur := [] } else v
        { v with zoneCur := v.zoneCur ++ recs, archNext := next }) s

/-! ## Reading and clearing -/

/-- Everything the recorder holds, oldest first: the zone below the ring, then the ring. -/
def evtHeld (s : State) : List EvRec :=
  match firstSeq s.evt.ring with
  | some q => (evtZone s).filter (fun r => r.seq.toNat < q) ++ s.evt.ring
  | none => evtZone s

/-- Group records into events. -/
def eventsOf : Nat → List EvRec → List (List EvRec)
  | 0, _ => []
  | _, [] => []
  | fuel + 1, l => let (e, t) := splitEvent l; e :: eventsOf fuel t

/-- Take whole events up to a number of records; the first is always taken (R496). -/
def takeEvents (room : Nat) (first : Bool) : List (List EvRec) → List EvRec
  | [] => []
  | e :: t => if first || e.length ≤ room then e ++ takeEvents (room - e.length) false t else []

/-- EVT_READ (R496, R43): a snapshot; while no cluster runs, from the on-chip ring only. -/
def evtRead (from_ : W64) (n : Nat) (s : State) : State × Reply :=
  if n = 0 || 1048576 < n then (s, .bad)
  else
    let oldest := evtOldest s
    let start := max from_.toNat oldest
    let ringOnly := !engRuns s
    let held := (if ringOnly then s.evt.ring else evtHeld s).filter fun r => s.evt.floor.toNat ≤ r.seq.toNat
    let evs := (eventsOf held.length held).filter fun e => match e.getLast? with | some r => decide (start ≤ r.seq.toNat) | none => false
    let short := ringOnly && decide (start < (firstSeq s.evt.ring).getD (evtNext s))
    (s, ⟨if short then .truncated else .ok, padTo 40 (be 8 oldest ++ be 8 (evtNext s - 1)), (takeEvents n true evs).map evtBytes⟩)

/-- Is an EVT_READ in progress: does its frame still go out (R497)? -/
def evtReading (s : State) : Bool := s.host.frames.any fun p => p.2.any fun f => f.opcode == 0x0A01

/-- The clear as one step (R497). -/
def clearEvents (h : Hdr) (s : State) : State :=
  let slot := (h.auth.map (·.slot.toNat)).getD 0
  let ctr := (h.auth.map (·.counter.toNat)).getD 0
  let cont := be 8 (evtOldest s) ++ be 8 (evtNext s - 1) ++ be 4 (ctr % 2 ^ 32)
  let s := setEvt (fun v => { v with ring := [], floor := BitVec.ofNat 64 (evtNext s) }) s
  count 0x1604C (storeEvent ⟨1, 0x20, true, BitVec.ofNat 32 (slot * 2 ^ 24), [padTo 20 cont]⟩ s)

/-- EVT_CLEAR (R497): at once, or after the reads in progress. -/
def evtClear (h : Hdr) (s : State) : State × Reply :=
  if evtReading s then (setEvt (fun v => { v with clears := v.clears ++ [h] }) s, .later)
  else (clearEvents h s, .done)

/-- Clears whose reads have completed run (R497). -/
def settleClears (s : State) : State :=
  if evtReading s then s
  else s.evt.clears.foldl (fun t h => complete h 0x0A02 .done (clearEvents h t)) (setEvt (fun v => { v with clears := [] }) s)

/-- EVT continues after a reset: one above the larger of the BKP word and the zone's highest SEQ (R492); the oldest record returned
stays where the last clear put it (R497). -/
def evtStart (s : State) : State :=
  let zone := s.evt.zoneOld ++ s.evt.zoneCur
  let top := zone.getLast?.map (·.seq)
  let last := match s.evt.lastSeq, top with
    | some a, some b => some (if a.toNat < b.toNat then b else a)
    | some a, none => some a
    | none, b => b
  let floor := if s.evt.ring.isEmpty then ((zone.filter fun r => r.code == 0x0120#16 && r.part = 0).getLast?.map (·.seq)).getD 0 else s.evt.floor
  setEvt (fun v => { v with lastSeq := last, restart := last.isNone, floor := floor, buckets := [], suppressed := [], secRecords := 0, refillAt := unitSec s, clears := [] }) s

/-! ## Rate-limit windows (R572) -/

/-- Has a boundary of `len` seconds of the unit's time been passed since the windows were last opened? -/
def windowOver (len : Nat) (s : State) : Bool := unitSec s / len != s.win.at_ / len

/-- RATE_WINDOW_BOUNDARY: 0 a second, 1 a minute, 2 an hour, 3 a step or a change of time base, which ends every window. At a
boundary of time end the windows whose boundary the unit's time has passed. -/
def rateWindow (level : Nat) (s : State) : State :=
  if 3 ≤ level || windowOver 3600 s then endWindows s
  else if windowOver 1 s then
    setEvt (fun e => { e with secRecords := 0 })
      { s with win := { s.win with sec := [], min := if windowOver 60 s then [] else s.win.min, mgmt := 0, at_ := unitSec s } }
  else s

end Sys2Proof.Machine
end

