-- ==== Sys2Proof/Machine/HostOps.lean ====
section
/-!
DEFINITION. Sys2Proof/Machine/HostOps.lean: rings starting and stopping (R389, R390, R393), Bus Master Enable (R416), MSI-X (R404) and
the reset of the PCI block (R417).
-/
namespace Sys2Proof.Machine

/-! ## Rings -/

/-- Every frame of a BUFFER ring ends as under R402, with no hold time (R390). -/
def endFrames (b : Nat) (s : State) : State := (framesOf s b).foldl (fun t f => endFrame b f t) (setFrames b [] s)

/-- A submission ring stops (R390): its frames end, and every entry between SQ_CONS and SQ_PROD is given back. -/
def sqStop (n : Nat) (s : State) : State :=
  let s := setSq n { sqOf s n with run := false } s
  let s := endFrames n s
  let v := sqOf s n
  let s := setHost (fun h => { h with cq := h.cq.map fun p =>
    (p.1, { p.2 with waiting := p.2.waiting.map fun e => if e.back = some n then { e with back := none } else e }) }) s
  let s' := setSq n { v with cons := v.prod, bufs := [] } s
  if v.cons == v.prod then s' else emit (.sqCons n v.prod) s'

/-- A completion ring stops (R390): nothing more is written to it; what waits for room is discarded, postings as skipped (R386). -/
def cqStop (n : Nat) (s : State) : State :=
  match Kv.get? n s.host.cq with
  | none => s
  | some c => c.waiting.foldl (fun t e => cqPush n e t) (setHost (fun h => { h with cq := Kv.del n h.cq }) s)

def ringStop (cq : Bool) (n : Nat) (s : State) : State := if cq then cqStop n s else sqStop n s

/-- A ring starts with the unit's own index at 0 and PHASE 1 (R389). -/
def ringStart (cq : Bool) (n : Nat) (s : State) : State :=
  if cq then setCq n ⟨0, 0, 0, 0, []⟩ s else setSq n { sqEmpty with run := true, inFlight := (sqOf s n).inFlight } s

/-- A ring fault, or a DMA error on a ring (R393): the ring stops, ERR sets, counts, event and vector 35. -/
def ringFault (cq : Bool) (n : Nat) (dma : Bool) (s : State) : State :=
  if 32 ≤ n then s else
  let s := setField (if cq then cqCfg n else sqCfg n) 1 1 1 (ringStop cq n s)
  let s := count 0xE04C (if dma then count 0xE048 s else s)
  msix 35 (event 14 0x01 (b2n dma * 256 + b2n cq * 32 + n % 32) [] s)

/-- Does the unit use the ring? -/
def ringRuns (cq : Bool) (n : Nat) (s : State) : Bool := if cq then (Kv.get? n s.host.cq).isSome else (sqOf s n).run

/-- DMA_ERROR (R393): an access to a ring, buffer or body ends in an error completion. -/
def dmaFail (cq : Bool) (n : Nat) (s : State) : State :=
  if 32 ≤ n || !pciUp s || !ringRuns cq n s then s else ringFault cq n true s

/-! ## PCIe -/

/-- Bus Master Enable falls (R416): frames being written end as on EN 0, without their completions, and their rings stop until the
host sets them up again. -/
def bmeClear (s : State) : State :=
  if !s.host.bme then s
  else
    let s := setHost (fun h => { h with bme := false }) s
    (s.host.frames.map (·.1)).foldl (fun t b => setSq b { sqOf t b with run := false, bufs := [] } (endFrames b t)) s

/-- A command's answer has no way back any more (R416). -/
def goneHdr (h : Hdr) : Hdr := { h with origin := match h.origin with | .ring .. => .gone | o => o }

/-- Commands in flight complete nowhere: every ring they came from is forgotten. -/
def forgetRings (s : State) : State :=
  let g := goneHdr
  { s with
    deferred := s.deferred.map (fun x => (g x.1, x.2)) ++ s.host.fenced.flatMap fun p => p.2.map fun x => (g x.2.1, x.2.2)
    stalled := s.stalled.map fun x => (g x.1, x.2)
    rules := { s.rules with marks := s.rules.marks.map fun m => { m with hdr := g m.hdr } }
    bal := { s.bal with waiting := s.bal.waiting.map g }
    jr := { s.jr with replies := s.jr.replies.map fun r => { r with hdr := g r.hdr } }
    arch := { s.arch with formatting := s.arch.formatting.map g }
    evt := { s.evt with clears := s.evt.clears.map g }
    pair := { s.pair with swap := s.pair.swap.map fun w => { w with queued := w.queued.map fun x => (g x.1, x.2) } }
    host := { s.host with frames := [], fenced := [] } }

/-- Registers of one block back to reset, but for those a filter keeps. -/
def clearRegs (keep : Nat → Bool) (s : State) : State := { s with regs := s.regs.filter fun p => keep p.1 }

/-- A reset of the PCI block (R416, R417): the link is down, nothing more is posted, registers and rings return to reset. -/
def pciReset (s : State) : State :=
  let s := setHost (fun h => { h with link := false, bme := false }) s
  let s := (s.host.cq.map (·.1)).foldl (fun t n => cqStop n t) (forgetRings s)
  clearRegs (fun o => o / 0x1000 != 0xE) { s with host := { hostReset with crsDone := s.host.crsDone } }

/-- PCIE_LINK_RESET (R417). -/
def linkReset (s : State) : State := if islInRun s 14 || (islOf s 14).st == .gated then pciReset s else s

/-- PCIE_LINK_UP (R384, R386). -/
def pcieUp (width speed : Nat) (s : State) : State :=
  if !islRun s 14 || !(width = 1 || width = 2 || width = 4) || speed = 0 || 3 < speed then s
  else setHost (fun h => { h with link := true, width := width, speed := speed }) s

/-- What the configuration space names (R384, R514). -/
def configIdentity (s : State) : Out :=
  let sub : W32 := (s.boot.bundle.map (·.subsystem)).getD 0
  .configReply ((s.boot.otp.getD 130 0).toNat / 65536) 0x8620 (sub.toNat / 65536) (sub.toNat % 65536) 0x0B4000

/-- PCIE_CONFIG_REQUEST (R509): Retry Status until PCI's settings are applied; a write may set or clear Bus Master Enable. -/
def configRequest (bme : Option Bool) (s : State) : State :=
  if !(islInRun s 14 || (islOf s 14).st == .gated) || !s.host.link then s
  else if !s.host.crsDone then emit .configRetry s
  else
    let s := match bme with
      | some true => setHost (fun h => { h with bme := true }) s
      | some false => bmeClear s
      | none => s
    emit (configIdentity s) s

/-- MSIX_UNMASK (R404): a pending message goes out. -/
def msixUnmask (v : Nat) (s : State) : State :=
  if 64 ≤ v then s
  else
    let m : W64 := ~~~(1#64 <<< v)
    let was := s.host.msixPending.getLsbD v
    let s := setHost (fun h => { h with masked := h.masked &&& m }) s
    if was && s.host.link && s.host.bme then emit (.msix v) (setHost (fun h => { h with msixPending := h.msixPending &&& m }) s) else s

/-- MSIX_COALESCE_EXPIRY (R404): COAL_US since the first entry that waits for a message. -/
def coalesceExpiry (n : Nat) (s : State) : State :=
  match cqOpen s n with
  | none => s
  | some c => if bit (reg s (cqCfg n)) 30 && c.sinceMsg ≠ 0 && c.firstAt + bits (reg s (cqCfg n)) 23 16 * 1000 ≤ s.tim.raw then msix n (setCq n { c with sinceMsg := 0 } s) else s

/-- RX_BUFFER_HOLD_EXPIRY (R402): no buffer came within HOLD_US; the next frame of the ring begins. -/
def holdExpiry (b : Nat) (s : State) : State :=
  match framesOf s b with
  | [] => s
  | f :: rest =>
    if 32 ≤ b || (match f.holding with | some t => decide (s.tim.raw < t + fieldOf s 0xE01C 15 0 * 1000) | none => true) then s
    else
      let s := endFrame b f (setFrames b rest s)
      runFrames b (frameFuel s b) s

end Sys2Proof.Machine
end

