-- ==== Sys2Proof/Machine/RegOps.lean ====
section
/-!
DEFINITION. Sys2Proof/Machine/RegOps.lean: what a write stores in a register: the access classes (R12), the range rules of the field maps,
ranges that depend on another field (R571), and fields that cannot be written for the time being (R389, R399).
-/
namespace Sys2Proof.Machine

/-! ## One field, one word -/

/-- What the unit stores for a value written to a field that holds `old`. -/
def storeField (r : RangeRule) (old v : Nat) : Nat :=
  match r with
  | .full | .dep => v
  | .clamp lo hi => clampN lo hi v
  | .code top d => if top < v then d else v
  | .keep k => if v = k then old else v
  | .zeroTo d => if v = 0 then d else v
  | .divisor => ((List.range (min v 1440 + 1)).filter fun d => d ≠ 0 && 1440 % d = 0).getLastD 1
  | .ring => if 32 ≤ v && v < 255 then 255 else v

/-- The bits of a field. -/
def fieldMask (f : Fld) : W32 := BitVec.ofNat 32 ((2 ^ (f.hi - f.lo + 1) - 1) <<< f.lo)

/-- A value merged into a word under a mask. -/
def merged (mask v old : W32) : W32 := (old &&& ~~~mask) ||| (v &&& mask)

/-- A write to one field (R12): only the classes `can` names take it. -/
def storeOne (can : Acc → Bool) (mask v w : W32) (f : Fld) : W32 :=
  let fm := fieldMask f
  if fm &&& mask = 0 || !can f.acc then w
  else match f.acc with
  | .ro | .wo => w
  | .w1c => w &&& ~~~(v &&& mask &&& fm)
  | _ => setBits w f.hi f.lo (storeField f.rule (bits w f.hi f.lo) (bits (merged mask v w) f.hi f.lo))

/-- A write of `v` under `mask` to a register that holds `old`. Reserved bits take nothing (R11). -/
def storeWord (can : Acc → Bool) (d : RegDef) (mask v old : W32) : W32 := d.flds.foldl (storeOne can mask v) old

/-- Was a value written that its field refuses and records (R37, R254, R289, R320)? -/
def refusedValue (can : Acc → Bool) (d : RegDef) (mask v old : W32) : Bool :=
  d.flds.any fun f => can f.acc && fieldMask f &&& mask != 0 &&
    (match f.rule with | .keep k => bits (merged mask v old) f.hi f.lo == k | _ => false)

/-- The event of such a value (R573). -/
def keepEvent (off : Nat) (s : State) : State :=
  let k := off / 0x1000
  if k = 0 then event 1 0x07 0 [] s
  else if k ≤ 8 then event k 0x05 0 [] s
  else if k ≤ 10 then event k 0x07 0 [] s
  else event k 0x02 0 [] s

/-- Fields whose range depends on another field are stored again under it (R571). -/
def fixWord (off : Nat) (s : State) (w : W32) : W32 :=
  if off = 0x308 then setBits w 9 0 (min (bits w 9 0) (bits w 25 16 - 64))
  else if off = 0xE018 then setBits w 23 16 (max (bits w 23 16) (bits w 31 24))
  else if off = 0xF000 then setBits w 7 0 (clampN 1 (bits w 23 16 - 1) (bits w 7 0))
  else if off = 0xD010 then setBits w 15 0 (max (bits w 15 0) (fieldOf s 0xD00C 15 0))
  else w

/-- Fields that act and read 0: RST_UNIT.UNIT, RST_BOOT_SEL.CONFIRM, RST_BOOT_INSTALL.GO (R532, R533). -/
def clearActs (off : Nat) (w : W32) : W32 :=
  if off = 0x17004 then setBits w 15 0 0
  else if off = 0x17024 then setBits w 3 3 0
  else if off = 0x17028 then setBits w 2 2 0
  else w

/-- Store a register's word; a field of another register that depends on it follows (R571). -/
def putWord (off : Nat) (w : W32) (s : State) : State :=
  let s := setReg off (clearActs off w) s
  if off = 0xD00C then setReg 0xD010 (fixWord 0xD010 s (reg s 0xD010)) s else s

/-- The word a write starts from: CTL_PROFILE.REQ and RST_POWER.TARGET stand in the profile and power states. -/
def heldWord (s : State) (off : Nat) : W32 :=
  if off = 0x44 then setBits (reg s off) 9 8 s.clusters.req.toNat
  else if off = 0x1702C then setBits (reg s off) 29 28 (match s.boot.target with | .run => 0 | .doze => 1 | .hold => 2 | .backup => 3)
  else reg s off

/-- The word after a write. -/
def newWord (can : Acc → Bool) (d : RegDef) (off : Nat) (mask v : W32) (s : State) : W32 :=
  fixWord off s (storeWord can d mask v (heldWord s off))

/-! ## Writers -/

/-- CTL_SETUP_LOCK.LOCK (R541). -/
def locked (s : State) : Bool := bit (reg s 0x10) 0

/-- Classes a plain write reaches (R12, R538). -/
def plainCan (s : State) (a : Acc) : Bool :=
  match a with | .rw | .w1c | .wo => true | .lk => !locked s | _ => false

/-- Classes a bundle setting reaches (R521). -/
def bundleCan (a : Acc) : Bool := a != .ro

/-- Classes REG_WRITE_AU reaches (R414). -/
def auCan (a : Acc) : Bool := a == .au

/-- Would a plain write change a field of a class it may not change (R13)? -/
def wouldChange (c : Acc) (d : RegDef) (off : Nat) (v : W32) (s : State) : Bool :=
  let old := heldWord s off
  let wish := newWord (fun a => a == .lk || a == .au) d off (BitVec.allOnes 32) v s
  d.flds.any fun f => f.acc == c && bits wish f.hi f.lo != bits old f.hi f.lo

/-- R13: one count, one event and the notice for a write that would have changed AU fields, or LK fields after lock. -/
def lockedWrite (d : RegDef) (off : Nat) (v : W32) (s : State) : State :=
  let au := wouldChange .au d off v s
  if au || (locked s && wouldChange .lk d off v s) then
    notice 6 (event 1 0x05 (b2n au * 2 ^ 31 + off % 2 ^ 20) [] (count 0x4C s))
  else s

/-! ## Ring registers while their ring is enabled (R389, R399) -/

/-- Bits of a PCI register that cannot be written now. -/
def frozenMask (s : State) (off : Nat) : W32 :=
  let o := off - 0xE000
  if off / 0x1000 ≠ 0xE then 0
  else if o = 0x20 || o = 0x24 then (if fieldOf s 0xE000 31 31 = 1 then BitVec.allOnes 32 else 0)
  else if 0x100 ≤ o && o < 0x500 then
    let cfg := off - off % 16 + 8
    if fieldOf s cfg 31 31 = 0 then 0
    else if off % 16 = 8 then (if o < 0x300 then 0x4F1F0000#32 else 0x0F000000#32)
    else BitVec.allOnes 32
  else 0

/-- Does the refusal count: a write to a frozen register, or one that would change a frozen field? -/
def refusesWrite (s : State) (off : Nat) (v : W32) : Bool :=
  let m := frozenMask s off
  m == BitVec.allOnes 32 || (v ^^^ reg s off) &&& m != 0

/-! ## Bundle settings (R521) -/

/-- Blocks a section's settings reach (R520), as the high digits of the offset; CTL registers by chapter. -/
def sectionReaches (sec off : Nat) : Bool :=
  let k := off / 0x1000
  let o := off / 0x100
  match sec with
  | 0x01 => k == 2
  | 0x03 => o == 2
  | 0x04 => o == 3
  | 0x05 => o == 4
  | 0x06 => o == 5
  | 0x07 => o == 6
  | 0x08 => 5 ≤ k && k ≤ 8
  | 0x09 => k == 9 || k == 0xA
  | 0x0A => k == 0xB || k == 0xC
  | 0x0B => o == 7
  | 0x0C => k == 0xD
  | 0x0D => k == 0x10
  | 0x0E => k == 0xF
  | 0x0F => k == 4
  | 0x10 => k == 0x16
  | 0x11 => o == 8
  | 0x12 => k == 0xE
  | 0x13 => k == 0x17 || k == 0x15
  | _ => false

/-- May a bundle hold this setting (R521)? The mask covers no RO field and no bit outside a field. -/
def settingOk (x : Nat × Nat × W32 × W32) : Bool :=
  let (sec, off, mask, _) := x
  sectionReaches sec off && off != 0x10 &&
  match regDef off with
  | none => false
  | some d => mask &&& ~~~(d.flds.foldl (fun a f => if f.acc == .ro then a else a ||| fieldMask f) 0#32) == 0

/-- Apply one setting with the field's own range rules; fields that act are stored and do not act. -/
def applySetting (x : Nat × Nat × W32 × W32) (s : State) : State :=
  let (_, off, mask, v) := x
  match regDef off with
  | none => s
  | some d =>
    let s := if refusedValue bundleCan d mask v (heldWord s off) then keepEvent off s else s
    putWord off (newWord bundleCan d off mask v s) s

/-- Apply the settings of the blocks a filter names, in list order (R521). -/
def applySettings (here : Nat → Bool) (s : State) : State :=
  match s.boot.bundle with
  | none => s
  | some b => (b.settings.filter fun x => here x.2.1).foldl (fun t x => applySetting x t) s

/-- The word the settings of a bundle leave in a register that starts at its reset word (R575). -/
def settledWord (b : Bundle) (off : Nat) : W32 :=
  match regDef off with
  | none => 0
  | some d => b.settings.foldl (fun w x => if x.2.1 = off then storeWord bundleCan d x.2.2.1 x.2.2.2 w else w) (BitVec.ofNat 32 d.reset)

end Sys2Proof.Machine
end

