-- ==== Sys2Proof/Machine/Islands.lean ====
section
/-!
DEFINITION. Sys2Proof/Machine/Islands.lean: clusters, buckets and profiles (R25 to R27, R35 to R40), islands going down and coming up
(R20 to R23, R42, R510), memory errors (R19), and software block resets (R505, R524).
-/
namespace Sys2Proof.Machine

def setCl (f : Clusters → Clusters) (s : State) : State := { s with clusters := f s.clusters }
def setBoot (f : Boot → Boot) (s : State) : State := { s with boot := f s.boot }

/-! ## Buckets and profiles -/

/-- Buckets dealt to clusters in turn by bucket number (R25). -/
def dealBuckets (run : List Nat) : Kv Nat := if run.isEmpty then [] else (List.range 4096).map fun b => (b, run.getD (b % run.length) 0)

/-- The unit gives the buckets to the clusters in RUN (R25). -/
def giveBuckets (s : State) : State := setCl (fun c => { c with buckets := dealBuckets (runClusters s), moving := [], returned := [] }) s

/-- Buckets a cluster holds. -/
def bucketsHeld (s : State) (c : Nat) : Nat := (s.clusters.buckets.filter fun p => p.2 == c).length

/-- A failed cluster's buckets go to its heirs in turn by bucket number; with no heir they are not bound (R26). -/
def spread (heirs : List Nat) (c : Nat) : Nat → Kv Nat → Kv Nat
  | _, [] => []
  | i, (b, k) :: t =>
    if k = c then
      match heirs[i % heirs.length]? with
      | some h => (b, h) :: spread heirs c (i + 1) t
      | none => spread heirs c i t
    else (b, k) :: spread heirs c i t

/-- Engines powered per cluster, which is also the number of SEC lanes (R35). -/
def enginesOf (p : BitVec 2) : Nat := match p.toNat with | 0 => 2 | 1 => 4 | _ => 8

/-- Buckets whose place under R25 is another cluster (R27). -/
def misplaced (s : State) : Kv Nat :=
  let run := runClusters s
  s.clusters.buckets.filterMap fun p =>
    match run[p.1 % run.length]? with
    | some k => if k = p.2 then none else some (p.1, k)
    | none => none

/-- The buckets one redistribution moves: at most 1,024 (R27), the lowest numbers first (log entry 118). -/
def moves (s : State) : Kv Nat := (misplaced s).take 1024

/-- Buckets that no cluster holds get their place under R25. -/
def bindLoose (s : State) : State :=
  if s.clusters.buckets.length = 4096 then s
  else setCl (fun c => { c with buckets := (dealBuckets (runClusters s)).map fun p => (p.1, c.buckets.getD p.1 p.2) }) s

/-- A change ends (R38); clusters that a redistribution at its limit has left short wait for the next one (log entry 118). -/
def changeEnds (s : State) : State :=
  setCl (fun c => { c with changing := false, returned := if (misplaced s).isEmpty then [] else c.returned }) s

/-- A profile change goes on (R38): clusters not in RUN are skipped; after the last one CUR is REQ and the buckets are given out again
where a cluster has returned; then the change ends. -/
def profileNext (s : State) : State :=
  let s := setCl (fun c => { c with toSwitch := c.toSwitch.dropWhile fun k => !islInRun s (17 + k) }) s
  let c := s.clusters
  if !c.changing || !c.toSwitch.isEmpty || !c.moving.isEmpty then s
  else if c.cur != c.req then
    let s := setCl (fun c => { c with cur := c.req, secLanes := enginesOf c.req, clusterProf := [] }) s
    if c.returned.any fun k => islInRun s (17 + k) then
      let s := bindLoose s
      if (moves s).isEmpty then changeEnds s else setCl (fun c => { c with moving := moves s }) s
    else setCl (fun c => { c with changing := false, returned := [] }) s
  else changeEnds s

/-- A change to CTL_PROFILE.REQ (R38); REQ equal to CUR changes nothing (DEDUCED, log entry 60). -/
def startProfile (req : BitVec 2) (s : State) : State :=
  let s := setCl (fun c => { c with req := req }) s
  if req = s.clusters.cur then s
  else profileNext (setCl (fun c => { c with changing := true, toSwitch := runClusters s, clusterProf := [] }) s)

/-- PROFILE_CLUSTER_SWITCH (R38): the paused cluster holds no token. -/
def clusterSwitch (k : Nat) (s : State) : State :=
  if !s.clusters.changing || s.clusters.toSwitch.head? != some k || s.pipe.flight.any (fun f => f.cluster == k) then s
  else profileNext (setCl (fun c => { c with clusterProf := Kv.put k c.req c.clusterProf, toSwitch := c.toSwitch.tail }) s)

/-- BUCKET_REDISTRIBUTE (R27): the bucket whose turn it is, once no token is held for it. -/
def bucketMove (b : Nat) (s : State) : State :=
  match s.clusters.moving with
  | (b', k) :: rest =>
    if b' ≠ b || s.pipe.flight.any (fun f => f.bucket == b) then s
    else profileNext (setCl (fun c => { c with buckets := Kv.put b k c.buckets, moving := rest }) s)
  | [] => s

/-- ENG_STATUS.ENGINES (R546). -/
def clusterEngines (s : State) (k : Nat) : Nat := enginesOf (s.clusters.clusterProf.getD k s.clusters.cur)

/-- Is a cluster in RUN? A GATED one is not (R20). -/
def engInRun (s : State) : Bool := (List.range 4).any fun c => (islOf s (17 + c)).st == .run

/-- The unit watchdog is held stopped while no cluster is in RUN (R43). -/
def fixWdt (s : State) : State := setBoot (fun b => { b with wdtStopped := !engInRun s }) s

/-! ## What a failed or reset cluster loses (R26, R213) -/

/-- Evict segments until the store holds at most SEG_CAP. -/
def fitStore : Nat → State → State
  | 0, s => s
  | n + 1, s => if s.camp.store.length ≤ segCap s then s else fitStore n (evictSeg s)

/-- In a FIELD unit without a DRAM table the cluster's share of member records and segments is lost, and the records are fetched
again. Which segments stand in which cluster is open: a free value (log entry 61). -/
def clusterCamp (k : Nat) (before : Kv Nat) (s : State) : State :=
  if !isField s || dramTable s then s
  else
    let gone (m : Member) : Bool := match idxFind s m.title with | some n => Kv.get? (n % 4096) before == some k | none => false
    let titles := (s.camp.camps.flatMap fun p => (p.2.members.filter fun m => gone m.2).map (·.2.title)).eraseDups
    let s := setCampState (fun c => { c with
      camps := c.camps.map fun p => (p.1, { p.2 with members := p.2.members.filter fun m => !gone m.2 })
      store := c.store.filter fun p => (Config.unstated 0x213 p.1).toNat % 4 != k
      fetching := c.fetching.filter fun p => (Config.unstated 0x213 p).toNat % 4 != k }) s
    titles.foldl (fun t x => sendEntry headUnit (.fetch x) t) (fitStore s.camp.store.length s)

/-- A cluster goes down (R26, R89): every token it holds goes back, its readings that have not committed are dropped, its buckets go to the clusters still in RUN that
hold buckets, its marks are void (R144), and a profile change skips it (R38). -/
def clusterDown (k : Nat) (s : State) : State :=
  let s := voidMarks k (loseReadings k s)
  let before := s.clusters.buckets
  let heirs := (runClusters s).filter fun h => before.any fun p => p.2 == h
  let bound := spread heirs k 0 before
  let s := setCl (fun c => { c with buckets := bound, returned := c.returned.filter (· != k),
                                    moving := c.moving.filter (fun p => p.2 != k && Kv.get? p.1 bound != some p.2),
                                    clusterProf := Kv.del k c.clusterProf }) s
  profileNext (finishMarks (clusterCamp k before s))

/-- A cluster comes up: it gets no buckets until they are given out again (R27), unless no cluster that runs holds any (log entry 62). -/
def clusterUp (k : Nat) (s : State) : State :=
  if s.clusters.buckets.any fun p => islInRun s (17 + p.2) then setCl (fun c => { c with returned := (c.returned.filter (· != k)) ++ [k] }) s
  else giveBuckets s

/-! ## Memory (R42, R46) -/

/-- MEM goes down: everything in DRAM is gone. A FIELD unit builds an empty table in central SRAM (R46). -/
def memDown (s : State) : State :=
  if !dramTable s then s
  else
    let lostQ := s.arch.wq.filterMap fun x => x.map (·.1)
    let s := setArch (fun a => { a with wq := [], ovf := [] }) s
    let s := lostQ.foldl (fun t n => addMissing n n t) s
    let s := setRelay (fun r => { r with open_ := [], pieces := [], unacked := [], copy := [] }) s
    if isField s then
      let s := setReg 0x200 (setBits (setBits (reg s 0x200) 23 16 14) 1 1 0) s
      { s with
        table := { s.table with slots := [], index := [], moves := [] }
        pipe := { s.pipe with sessions := [], flight := s.pipe.flight.map fun f =>
          if f.stage == .committed then f else { f with slot := none, stage := .dispatched, outcome := none, suspended := false } }
        camp := { s.camp with camps := s.camp.camps.map (fun p => (p.1, { p.2 with members := [] })), store := [], fetching := [] } }
    else
      let s := (s.pipe.flight.filter fun f => f.stage != .committed).foldl (fun t f => dropFlight f.id t) s
      { s with
        table := { tableReset with salt := s.table.salt }
        pipe := { s.pipe with sessions := [] }
        sec := { s.sec with signers := [] }
        bal := { balReset with runSeq := s.bal.runSeq }
        camp := { campReset with ckpt := s.camp.ckpt } }

/-! ## The other islands -/

/-- FLS goes down: the store is FAILED or, reset, OFF; a format and an install under way end (R440, R522). -/
def flsDown (failed : Bool) (s : State) : State :=
  let fmt := s.arch.formatting
  let s := withGrade (setArch fun a => { a with st := if a.st == .off && !isHead s then .off else if failed then .failed else .off,
                                                ro := a.ro || a.st == .readOnly, formatting := none }) s
  let s := match fmt with | some h => answer h 0x0909 .media s | none => s
  match s.boot.install with
  | some (o, slot) => setBoot (fun b => { spoil o slot b with install := none, installCode := 5 }) s
  | none => s
where
  /-- The slot being written does not pass its checks any more (R529). -/
  spoil (o : Staged) (slot : Bool) (b : Boot) : Boot :=
    match o with
    | .image _ => if slot then { b with imageB := none } else { b with imageA := none }
    | .bundle _ => if slot then { b with bundleB := none } else { b with bundleA := none }
    | .none => b

/-- A PLC instance goes down: its PAN is lost (R42); the fault pin is the board's. -/
def plcGone (n : Nat) (s : State) : State := { s with plc := Kv.put n { plcEmpty with ldPin := (plcOf s n).ldPin } s.plc }

def rfGone (n : Nat) (s : State) : State := { s with rf := Kv.put n rfEmpty s.rf }

/-- TIM goes down: the local clock stops being one; the raw counter of CTL goes on (R327, R332). -/
def timGone (s : State) : State :=
  let st := s.tim.st
  let s := setBal (fun b => { b with timOut := true }) (endWindows (setTim (fun t => { timReset with raw := t.raw }) s))
  if st = 0 then s else notice 5 s

/-- PRL goes down (R367, R375): cause 3 when it failed, 1 when it was reset. -/
def prlGone (cause : Nat) (s : State) : State :=
  let s := setPath 1 { s.pair.hb1 with lost := true, last := none } s
  let s := setPair (fun p => { p with prlSignal := false, heard := { p.heard with p1 := none } }) s
  if !pairOn s then s
  else
    let s := sourceDown 3 (noteLost s)
    if journals s then standbyLost cause s else pathGone s

/-! ## Queues of an island (R22, R476) -/

/-- Does a queue from 16 on go to or from the island (R479)? -/
def queueOfIsland (n q : Nat) : Bool :=
  queueDepth q != 0 && ((Config.queueProducer q).toNat == n || (Config.queueConsumer q).toNat == n)

/-- Flush every queue to and from an island. -/
def flushIsland (n : Nat) (s : State) : State :=
  let s := if 5 ≤ n && n ≤ 12 then flushQueue (n - 5) s else s
  let s := if 17 ≤ n then flushQueue (9 + 2 * (n - 17)) (flushQueue (8 + 2 * (n - 17)) s) else s
  { s with queues := ((List.range 240).map (· + 16)).foldl (fun m q =>
      if queueOfIsland n q then Kv.upd q qEmpty (fun v => { v with idle := false, flushes := satAdd v.flushes 1 }) m else m) s.queues }

/-! ## An island stops -/

/-- What must be done while the island still answers: a port's link goes down with its island. -/
def islandLeave (n : Nat) (s : State) : State := if n = 11 || n = 12 then linkDown (n == 12) s else s

/-- What an island takes with it. -/
def islandGone (n : Nat) (failed : Bool) (s : State) : State :=
  match n with
  | 3 => memDown s
  | 4 => flsDown failed s
  | 5 | 6 | 7 | 8 => plcGone (n - 5) s
  | 9 | 10 => rfGone (n - 9) s
  | 11 | 12 => setEth (n == 12) ethEmpty s
  | 14 => pciReset s
  | 15 => setMea (fun m => { m with heads := [] }) s
  | 16 => timGone s
  | 17 | 18 | 19 | 20 => clusterDown (n - 17) s
  | _ => s

/-- Is the island in RUN or GATED (R21)? -/
def islUp (s : State) (n : Nat) : Bool := (islOf s n).st == .run || (islOf s n).st == .gated

/-- An island stops with a new state: held in reset or with its clock stopped, queues flushed, tokens returned. -/
def islandStop (n : Nat) (st : IslState) (code : Byte) (s : State) : State :=
  if !islUp s n then flushIsland n (setIsl n ⟨st, code, false⟩ s)
  else fixWdt (islandGone n (st == .failed) (flushIsland n (setIsl n ⟨st, code, false⟩ (islandLeave n s))))

/-- An island is marked FAILED (R21, R22): in the order of R22; BKP and CTL never are. A proof fails with it (R373). -/
def failIsland (n : Nat) (code : Byte) (s : State) : State :=
  if n < 2 || 20 < n || !islUp s n then s
  else
    let s := event 1 0x01 (n * 256 + code.toNat) [] (notice 2 (islandStop n .failed code s))
    let s := if n = 13 then prlGone 3 s else s
    proofFail 0 (failoverRequest n s)

/-- ISLAND_LOCK_LOSS (R21): the island stops its clock; its state stays RUN. -/
def lockLoss (n : Nat) (s : State) : State :=
  if n < 2 || 20 < n || !islUp s n then s else setIsl n { islOf s n with lockLost := true } s

/-- LOCK_LOSS_TIMEOUT and HANDSHAKE_TIMEOUT (R21). -/
def lockLossTimeout (n : Nat) (s : State) : State := if (islOf s n).lockLost then failIsland n 1 s else s
def handshakeTimeout (n : Nat) (s : State) : State := failIsland n 2 s

/-- The block that made a failed access handles the error: a standby that cannot apply a batch seeks (R361); no chapter states a
handling for another block (log entry 119). -/
def accessFailed (n : Nat) (s : State) : State :=
  if n = 13 && (s.pair.st == .standby || s.pair.st == .copying) then cannotApply s.jr.nextApply s else s

/-- ECC_UNCORRECTABLE (R19, R21, R373): an island's own memory fails the island; central SRAM and DRAM fail only the access. -/
def eccUncorrectable (a : EccAt) (s : State) : State :=
  match a with
  | .own n _ => failIsland n 3 s
  | .sram off n => if islRun s 1 then accessFailed n (proofFail 1 (event 1 0x04 (off % 2 ^ 24) [be 1 n] s)) else s
  | .dram w => if islRun s 3 then proofFail 1 (event 3 0x02 w [] (count 0x3044 s)) else s

/-- ECC_CORRECTED (R19, R544 to R546). -/
def eccCorrected (a : EccAt) (s : State) : State :=
  match a with
  | .own n off =>
    if n < 2 || 20 < n || !islRun s n then s
    else event 1 0x03 (n * 2 ^ 24 + off % 2 ^ 24) [] (if 17 ≤ n then count (0x1000 * n + 0x40) s else s)
  | .sram off _ => if islRun s 1 then event 1 0x03 (2 ^ 24 + off % 2 ^ 24) [] (count 0x54 s) else s
  | .dram w => if islRun s 3 then event 3 0x01 w [] (count 0x3040 s) else s

/-! ## An island comes up (R510) -/

/-- Start checks of a PLC instance (R232) and a transceiver (R267, R288): true when it stays OFF. -/
def plcRefused (k : Nat) (s : State) : Bool := decide (plcMaskCount s k < 6)
def samePan (s : State) : Bool :=
  fieldOf s 0x9000 31 31 = 1 && fieldOf s 0xA000 31 31 = 1 && !rfChild s 0 && !rfChild s 1 && fieldOf s 0x9000 15 0 = fieldOf s 0xA000 15 0

/-- A PLC instance starts with the band of its register (R232), or stays OFF: without an OK module (R464, log entry 65), or with too small a mask. -/
def plcStart (k : Nat) (s : State) : State :=
  let s := setPlc k (fun p => { p with fcc := fieldOf s (plcBase k) 30 29 = 1 }) s
  if !modOk s (2 + k) then setIsl (5 + k) ⟨.off, 0, false⟩ s
  else if plcRefused k s then setIsl (5 + k) ⟨.off, 0, false⟩ (event (5 + k) 0x01 (plcMaskCount s k) [] s) else s

/-- A transceiver starts, and its slot length is fixed (R270), or it stays OFF. -/
def rfStart (k : Nat) (s : State) : State :=
  let s := setRf k (fun r => { r with slotMs := rfSlotLen s k }) s
  if !modOk s (6 + k) then setIsl (9 + k) ⟨.off, 0, false⟩ s
  else if k = 1 && (islOf s 9).st == .run && samePan s then setIsl 10 ⟨.off, 0, false⟩ (event 10 0x06 (fieldOf s 0xA000 15 0) [] s)
  else
    let n := (rfAllowed s k).length
    let (m, p) := rfLanes s k
    if n < 4 then setIsl (9 + k) ⟨.off, 0, false⟩ (event (9 + k) 0x02 n [] s)
    else if m < 4 then event (9 + k) 0x01 (p * 256 + m) [] s
    else s

/-- Zeroisation (R415): level 1 or 2; cause 1 SEC_ZEROISE, 2 TAMPER_N, 3 a latched tamper. The pair logic stops refreshing its
watchdog, so a unit with the grant is fenced when it expires. Level 2 burns the WRAP_KEY_DISABLED fuse. -/
def zeroise (level cause : Nat) (s : State) : State :=
  let s := { s with
    sec := { s.sec with slots := [], tkek := [], relayKeys := [], pairKey := none, bootKey := none, zeroised := true }
    pipe := { s.pipe with sessions := [] }
    plc := s.plc.map fun p => (p.1, { p.2 with gmk := none, gmkOld := none })
    rf := s.rf.map fun p => (p.1, { p.2 with key := none, keyOld := none }) }
  let s := if level = 2 then setBoot (fun b => { b with otp := Kv.putOr 0 167 (b.otp.getD 167 0 ||| 4#32) b.otp }) s else s
  event 2 0x02 (level * 256 + cause) [] (count 0x2048 s)

/-- SEC starts with its settings (R415, R509): a tamper latched in BKP is acted on, shown by SEC, and the latch is taken up. -/
def tamperLatched (s : State) : State :=
  if fieldOf s 0x1000 29 29 = 0 then s
  else
    let s := event 0 0x02 0 [] (setField 0x2004 29 29 1 (setField 0x1000 29 29 0 s))
    let a := fieldOf s 0x2000 1 0
    if a = 0 then s else zeroise a 3 s

/-- What an island does first in RUN; in TEST mode every island runs with its reset values (R513). -/
def islandStart (n : Nat) (s : State) : State :=
  if s.boot.mode == .test then s
  else match n with
  | 2 => tamperLatched s
  | 4 => (match s.boot.env with | some e => if s.boot.mode == .normal then archStart e.nandTargets s else s | none => s)
  | 5 | 6 | 7 | 8 => plcStart (n - 5) s
  | 9 | 10 => rfStart (n - 9) s
  | 11 | 12 => setEth (n == 12) { ethOf s (n == 12) with mode := fieldOf s (ethBase (n == 12)) 30 28 } s
  | 15 => [0, 1].foldl (fun t k => if modOk t k then setHead k (fun h => { h with next := some (modSlot s k).rec_ }) t else t)
      ([0, 1].foldl (fun t k => setHead k (fun h => { h with start := localSec s / 60 * 60, missing := localSec s % 60 }) t) s)
  | 16 => timStart s
  | 17 | 18 | 19 | 20 => clusterUp (n - 17) s
  | _ => s

/-- ISLAND_CLOCK_STABLE (R510, R21): a PENDING island enters RUN; one whose lock was lost resumes, with the event. -/
def clockStable (n : Nat) (s : State) : State :=
  let i := islOf s n
  if n < 2 || 20 < n then s
  else if i.lockLost && islUp s n then event 1 0x02 n [] (setIsl n { i with lockLost := false } s)
  else if i.st == .pending && s.boot.power != .hold then fixWdt (islandStart n (setIsl n ⟨.run, 0, false⟩ s))
  else s

/-! ## Which islands the unit releases (R31, R33, R513) -/

/-- Does the DRAM fitted meet the role's minimum (R31, R33)? -/
def dramFits (s : State) : Bool := if isHead s then 4096 ≤ s.boot.dramMib else 1024 ≤ s.boot.dramMib

/-- EN of the island's block. -/
def blockEn (s : State) (n : Nat) : Bool := fieldOf s (0x1000 * n) 31 31 = 1

/-- Is the island released in this mode and role, with these settings? The others are OFF; role none releases only ETH and TIM beyond
what every start releases (log entry 63). -/
def wanted (s : State) (n : Nat) : Bool :=
  if n = 14 then true
  else if s.boot.mode == .provision then false
  else if n = 2 || s.boot.mode == .test then true
  else if n = 4 || 17 ≤ n then true
  else if s.boot.mode == .recovery && (n = 3 || n = 13 || n = 15 || n = 16) then false
  else if n = 16 then true
  else if n = 11 || n = 12 then blockEn s n
  else if roleOf s = 0 then false
  else if n = 3 then dramFits s
  else if n = 13 || n = 15 then blockEn s n
  else isField s && blockEn s n

/-- The sequencer releases an island whose settings are in place (R510): its trim set must check. -/
def releaseBare (n : Nat) (s : State) : State :=
  if !s.boot.trims.contains n then proofFail 0 (notice 2 (setIsl n ⟨.trimInvalid, 0, false⟩ s))
  else setIsl n ⟨if wanted s n then .pending else .off, 0, false⟩ s

/-- A released island gets its bundle settings first (R521). -/
def releaseIsland (n : Nat) (s : State) : State :=
  releaseBare n (if s.boot.mode == .test then s else applySettings (fun o => o / 0x1000 == n) s)

/-! ## Software block resets (R505, R524, R532) -/

/-- Registers of a block return to reset; latches of what it shows go with them. -/
def clearBlock (n : Nat) (s : State) : State :=
  let s := clearRegs (fun o => o / 0x1000 != n) s
  let wipe (l : Latch) : Latch := match n with
    | 4 => { l with flsHi := 0 }
    | 15 => { l with pq0 := [], pq1 := [] }
    | 16 => { l with nowLo := 0, nowHi := 0, nowFrac := 0 }
    | 0x15 => { l with mon := [] }
    | 0x16 => { l with lastHi := 0, oldestHi := 0 }
    | _ => l
  [Path.bar0, .cmd, .firmware].foldl (fun t p => setLatch p wipe t) s

/-- SW_BLOCK_RESET of an island (R524): RESET, queues flushed, tokens and buckets given up, memories and settings lost. -/
def resetIsland (n : Nat) (s : State) : State :=
  let up := islUp s n
  let s := islandStop n .reset 0 s
  let s := if n = 13 && up then prlGone 1 s else s
  let s := clearBlock n s
  if n = 16 then event 16 0x04 0 [] s else s

/-- A reset of RST: its V fields return, its settings are applied again, and its bit clears itself; S and P fields stay (R505, R547). -/
def resetRst (s : State) : State :=
  let sw := reg s 0x17008
  let mode := bits (reg s 0x17004) 17 16
  let s := clearRegs (fun o => o / 0x1000 != 0x17 || (0x17060 ≤ o && o ≤ 0x17068)) s
  let s := setField 0x17004 17 16 mode (setReg 0x17008 (setBits sw 21 21 0) s)
  applySettings (fun o => o / 0x1000 == 0x17) (setBoot (fun b => { b with target := if b.power == .doze then .run else b.target,
                                                                          power := if b.power == .doze then .run else b.power }) s)

/-- A block of RST_SW_RESET goes into reset: islands 2 to 20, 21 RST, 22 MON, 23 EVT. -/
def blockReset (n : Nat) (s : State) : State :=
  let s := count 0x17068 s
  if n ≤ 20 then resetIsland n s
  else if n = 21 then resetRst s
  else if n = 22 then clearBlock 0x15 { s with mon := [] }
  else clearBlock 0x16 (setEvt (fun v => { v with buckets := [], suppressed := [], secRecords := 0 }) s)

/-- A block is released (R524). -/
def blockRelease (n : Nat) (s : State) : State :=
  if n ≤ 20 then (if (islOf s n).st == .reset then releaseIsland n s else s)
  else if n = 22 then applySettings (fun o => o / 0x1000 == 0x15) s
  else if n = 23 then applySettings (fun o => o / 0x1000 == 0x16) s
  else s

/-- A write of RST_SW_RESET: the bits that rise reset their blocks, the bits that fall release them. -/
def swReset (old new : W32) (s : State) : State :=
  ((List.range 22).map (· + 2)).foldl (fun t n =>
    if !bit old n && bit new n then blockReset n t
    else if bit old n && !bit new n then blockRelease n t
    else t) s

end Sys2Proof.Machine
end

