-- ==== Sys2Proof/Machine/Startup.lean ====
section
/-!
DEFINITION. Sys2Proof/Machine/Startup.lean: reset sources and what survives them (R502 to R506, R14, R15), the OTP load (R514, R515), the
strap (R511, R512), image and bundle (R517 to R520, R575), and the start-up sequence in its modes (R508 to R513).
-/
namespace Sys2Proof.Machine

/-! ## What survives (R505) -/

/-- What a reset loses: a unit reset, main supplies lost, BKP without power too. -/
inductive Loss where
  | unit | main | all
  deriving DecidableEq, Repr

/-- Is a register kept (R14)? -/
def keepsReg (l : Loss) (off : Nat) : Bool :=
  match regDef off with
  | some d => (match d.surv with | .b => l != .all | .p => l == .unit | .s | .v => false)
  | none => false

/-- Registers after a loss; of RST_UNIT only NEXT_MODE is of class P (R533, R547). -/
def keptRegs (l : Loss) (s : State) : Kv W32 :=
  let m := s.regs.filter fun p => keepsReg l p.1
  if l == .unit then Kv.putOr 0#32 0x17004 (setBits 0#32 17 16 (fieldOf s 0x17004 17 16)) m else m

/-- What the boot flash, the OTP and the pins keep; a slot that an install was writing does not check any more (R529). -/
def keptBoot (s : State) : Boot :=
  let b := match s.boot.install with | some (o, slot) => flsDown.spoil o slot s.boot | none => s.boot
  { bootReset with imageA := b.imageA, imageB := b.imageB, bundleA := b.bundleA, bundleB := b.bundleB, ctl := b.ctl, otp := b.otp,
                   mainSupply := b.mainSupply, wakeLow := b.wakeLow, pwrEn := b.pwrEn }

/-- What the NAND archive keeps: its blocks, map journal and checkpoint (R429, R437). -/
def keptArch (a : Archive) : Archive :=
  { archReset with ro := a.ro || a.st == .readOnly, layout := a.layout, blocks := a.blocks, pseq := a.pseq, logSec := a.logSec, jrecs := a.jrecs, area := a.area, ageCkpt := a.ageCkpt,
                   resEnd := a.resEnd, durable := a.durable, missing := a.missing, notDurable := a.notDurable }

/-- The event recorder: the zone is in the archive, the last SEQ in BKP, the ring of class P (R492, R493). -/
def keptEvt (l : Loss) (v : EvtState) : EvtState :=
  { evtReset with zoneOld := v.zoneOld, zoneCur := v.zoneCur, archNext := v.archNext, ring := if l == .unit then v.ring else [],
                  floor := v.floor, lastSeq := if l == .all then none else v.lastSeq }

/-- The state a reset leaves. -/
def wipe (l : Loss) (s : State) : State :=
  { State.reset with
    pending := s.pending, out := s.out, draws := s.draws
    regs := keptRegs l s
    boot := keptBoot s
    arch := keptArch s.arch
    evt := keptEvt l s.evt
    camp := { campReset with ckpt := s.camp.ckpt }
    relay := { relayReset with spool := s.relay.spool, spooling := !s.relay.spool.isEmpty }
    sec := { secReset with counters := s.sec.counters }
    pair := { pairReset with claimFlash := s.pair.claimFlash, actInLive := s.pair.actInLive, prlSignal := s.pair.prlSignal }
    plc := s.plc.map fun p => (p.1, { plcEmpty with ldPin := p.2.ldPin })
    mea := { meaReset with kept := if l == .all then [] else s.mea.kept } }

/-! ## Reset sources (R502, R503) -/

/-- Priority of a cause, the highest first. -/
def causeRank (c : Nat) : Nat := match c with | 1 => 0 | 2 => 1 | 7 => 2 | 6 => 3 | 8 => 4 | 4 => 5 | 5 => 6 | _ => 7

/-- A reset begins, or joins the one in progress; one held by CTL_TRIM starts again only by a power-on, its supplies or RST_N. -/
def beginReset (cause detail : Nat) (l : Loss) (s : State) : State :=
  let held := s.boot.phase == .trimHold && !(cause = 1 || cause = 2 || cause = 3)
  let within := s.boot.phase == .inReset || held
  let old := fieldOf s 0x1004 7 0
  let fromBackup := b2n (cause = 1 && s.boot.power == .backup)
  let t := setBoot (fun b => { b with phase := if held then .trimHold else .inReset }) (wipe l s)
  if within && causeRank old < causeRank cause && fromBackup = 0 then t
  else setReg 0x1004 (BitVec.ofNat 32 ((1 - fieldOf t 0x1000 31 31) * 2 ^ 17 + fromBackup * 2 ^ 16 + detail % 256 * 256 + cause)) t

/-- POWER_ON_RESET (R502, R527): main supplies are back and the power-cycle count rises. -/
def powerOnReset (s : State) : State :=
  let s := beginReset 1 0 .main s
  count 0x1014 (setBoot (fun b => { b with mainSupply := true, pwrEn := true }) s)

/-- BROWN_OUT (R502, R554): while the unit runs. -/
def brownOut (supply : Nat) (s : State) : State := if !s.boot.mainSupply || 8 < supply then s else beginReset 2 supply .main s

/-- EXTERNAL_RESET: the pin is an input only while the unit does not drive it (R504); after CTL_TRIM it starts again (R502). -/
def externalReset (s : State) : State := if !s.boot.mainSupply || s.boot.phase == .inReset then s else beginReset 3 0 .unit s

/-- WATCHDOG_EXPIRY (R502, R43): the watchdog is held stopped while no cluster runs. -/
def watchdogExpiry (s : State) : State := if s.boot.phase != .started || s.boot.wdtStopped || !engInRun s then s else beginReset 4 0 .unit s

/-- THERMAL_RESET (R502, R560): while channel 0 of MON reads above 135 °C. CLOCK_LOSS (R502). -/
def thermalReset (s : State) : State :=
  if !s.boot.mainSupply || !(decide (13500 < junction s)) then s else beginReset 6 0 .unit s
def clockLoss (s : State) : State := if !s.boot.mainSupply then s else beginReset 7 0 .unit s

/-! ## OTP (R514, R515) -/

def crc16Bits : Nat → BitVec 16 → BitVec 16
  | 0, c => c
  | n + 1, c => crc16Bits n (if c.getLsbD 15 then (c <<< 1) ^^^ 0x1021#16 else c <<< 1)

/-- CRC-16/CCITT-FALSE. -/
def crc16 (l : List Byte) : BitVec 16 := l.foldl (fun c b => crc16Bits 8 (c ^^^ (BitVec.zeroExtend 16 b <<< 8))) 0xFFFF#16

/-- The trim sets, one after another: island and whether the CRC checks. A blank header ends them. -/
def trimSets (otp : Kv W32) : Nat → Nat → List (Nat × Bool)
  | 0, _ => []
  | fuel + 1, p =>
    let h := otp.getD p 0
    if 128 ≤ p || h = 0 then []
    else
      let n := bits h 23 16
      let data := (List.range n).map fun k => otp.getD (p + 1 + k) 0
      (bits h 31 24, decide (p + 1 + n ≤ 128) && (crc16 (data.flatMap fun w => be 4 w.toNat)).toNat == bits h 15 0)
        :: trimSets otp fuel (p + 1 + n)

/-- RST_TRIM_STATUS of an island: 2 its set is missing, 3 it stands after a set of a later island, 1 its CRC fails (log entry 66). -/
def trimReasonOf (sets : List (Nat × Bool)) (n : Nat) : Nat :=
  match sets.dropWhile fun x => x.1 != n with
  | [] => 2
  | x :: _ => if (sets.takeWhile fun y => y.1 != n).any (fun y => n < y.1) then 3 else if x.2 then 0 else 1

/-- Does a CTL trim copy check? -/
def ctlTrimOk (s : State) : Bool := ((trimSets s.boot.otp 128 0).take 2).contains (1, true)

/-- The load: CTL keeps the sets that check. -/
def otpLoad (s : State) : State :=
  let sets := (trimSets s.boot.otp 128 0).drop 2
  let isl := (List.range 19).map (· + 2)
  setBoot (fun b => { b with trims := isl.filter fun n => trimReasonOf sets n = 0
                             trimReason := isl.filterMap fun n => let r := trimReasonOf sets n; if r = 0 then none else some (n, r) }) s

/-- A word of the OTP. -/
def otpWord (s : State) (n : Nat) : W32 := s.boot.otp.getD n 0

/-- Fuse WRAP_KEY_DISABLED. -/
def wrapDisabled (s : State) : Bool := bit (otpWord s 167) 2

/-! ## Image and bundle (R517 to R520, R575) -/

/-- SHA-384 digest of Miluad's signing key (R514). -/
def signerDigest (s : State) : List W32 := (List.range 12).map fun k => otpWord s (134 + k)

/-- SHA-384 digest of the owner's signing key: all ones until provisioned (R514, log entry 69). -/
def ownerDigest (s : State) : List W32 :=
  let l := (List.range 12).map fun k => otpWord s (146 + k)
  if l.all (· == 0) then List.replicate 12 (BitVec.allOnes 32) else l

/-- The checks of an image (R518). -/
def imageOk (s : State) (i : Image) : Bool :=
  i.ok && i.signer == signerDigest s && i.maskSets.contains 0xB2#8 && decide (272 + i.length ≤ 6 * 2 ^ 20)

/-- Are the keys of a list distinct? -/
def distinct (l : List Nat) : Bool := !hasDup l

/-- Does a bundle enable a block, or a transceiver as a backhaul child? -/
def bundleEn (b : Bundle) (off : Nat) : Bool := bit (settledWord b off) 31
def bundleChild (b : Bundle) (off : Nat) : Bool := bundleEn b off && bits (settledWord b off) 30 29 = 1

/-- The items that must be present, and the rule programs (R575). -/
def itemsOk (b : Bundle) : Bool :=
  let progs := b.rules.map checkImage
  b.slots.any (·.1 == 0)
    && !b.tkek.isEmpty && decide (b.tkek.length ≤ 2) && distinct (b.tkek.map (·.1))
    && !b.relayKeys.isEmpty && decide (b.relayKeys.length ≤ 2) && distinct (b.relayKeys.map (·.1))
    && b.salt.isSome
    && (b.pairKey.isSome || !bundleEn b 0xD000)
    && (b.bootKey.isSome || !([0x5000, 0x6000, 0x7000, 0x8000, 0x9000, 0xA000].any (bundleEn b)))
    && (b.unitTitle.isSome || !(bundleChild b 0x9000 || bundleChild b 0xA000))
    && progs.all (fun p => p.isRight)
    && distinct (progs.filterMap fun p => match p with | .inr q => some q.setId | .inl _ => none)

/-- The checks of a bundle (R519, R520, R521); a staged image need not match a serial, a bundle must. -/
def bundleOk (s : State) (b : Bundle) : Bool :=
  b.sigOk && b.owner == ownerDigest s && decide (272 + b.length ≤ 2 ^ 20) && b.serial == BitVec.ofNat 64 ((otpWord s 128).toNat * 2 ^ 32 + (otpWord s 129).toNat)
    && (b.role = 1 || b.role = 2) && decide (b.profile ≤ 2) && b.formOk && b.settings.all settingOk && itemsOk b
    && b.unwrapOk && !wrapDisabled s

/-- The chosen slot, or the other when it does not check; true: it fell back. -/
def pickSlot {α : Type} (get : Bool → Option α) (slot : Bool) : Option (Bool × α) × Bool :=
  match get slot with
  | some x => (some (slot, x), false)
  | none => match get !slot with
    | some x => (some (!slot, x), true)
    | none => (none, true)

/-- Image and bundle are chosen and checked (R517); SEC makes the checks. With no image the built-in loader starts RECOVERY. -/
def chooseBoot (s : State) : State :=
  let c := s.boot.ctl
  let secUp := islInRun s 2
  let image (k : Bool) : Option Image := (if k then s.boot.imageB else s.boot.imageA).filter fun i => secUp && imageOk s i
  let bundle (k : Bool) : Option Bundle := (if k then s.boot.bundleB else s.boot.bundleA).filter fun b => secUp && bundleOk s b
  let (im, bu, fell, c', trying) : Bool × Bool × Bool × BootCtl × Bool := match c.trial with
    | some (i, u, false) => (i, u, false, { c with seq := c.seq + 1, trial := some (i, u, true) }, true)
    | some (_, _, true) => (c.image, c.bundle, true, { c with seq := c.seq + 1, trial := none }, false)
    | none => (c.image, c.bundle, false, c, false)
  let (i, fi) := pickSlot image im
  let (u, fu) := pickSlot bundle bu
  let fallback := fell || fi || fu
  let s := setBoot (fun b => { b with
    ctl := c', fallback := fallback, trialRun := trying && !fi && !fu
    mode := if i.isNone then .recovery else b.mode
    loader := i.isNone, runImage := (i.map (·.1)).getD false, jver := (i.map (·.2.jver)).getD 0, jverMin := (i.map (·.2.jverMin)).getD 0
    runBundle := (u.map (·.1)).getD false, bundle := u.map (·.2) }) s
  if fallback then count 0x17064 s else s

/-- A list of numbered items as a collection. -/
def toKv {α : Type} (l : List (Nat × α)) : Kv α := l.foldl (fun m x => Kv.put x.1 x.2 m) []

/-- What the bundle in force gives beside its settings: keys, salt, profile and, in a HEAD unit, rule programs (R520, R40, R145). -/
def applyBundle (s : State) : State :=
  match s.boot.bundle with
  | none => s
  | some b =>
    let progs := b.rules.filterMap fun i => match checkImage i with | .inr p => some p | .inl _ => none
    { s with
      sec := { s.sec with
        slots := toKv (b.slots.map fun x => (x.1, ⟨x.2.2, x.2.1⟩)), tkek := toKv b.tkek, relayKeys := toKv b.relayKeys, pairKey := b.pairKey
        bootKey := b.bootKey, campSigners := toKv (b.campSigners.map fun x => (x.1, ⟨x.2.1, x.2.2⟩)) }
      table := { s.table with salt := b.salt.getD 0 }
      rules := { s.rules with sets := if b.role = 2 then toKv (progs.map fun p => (p.setId, { ruleSetEmpty with act := some p })) else [] }
      clusters := { s.clusters with cur := BitVec.ofNat 2 b.profile, req := BitVec.ofNat 2 b.profile, secLanes := enginesOf (BitVec.ofNat 2 b.profile) }
      boot := { s.boot with bundleRole := BitVec.ofNat 2 b.role } }

/-! ## The strap (R511, R512) -/

/-- Guard codes. -/
def guardCode (c : BitVec 6) : Bool := c.toNat % 4 = 0 || c.toNat % 4 = 3

/-- The mode of a strap choice. -/
def strapMode (choice : Nat) : Mode := match choice / 2 % 4 with | 0 => .normal | 1 => .recovery | 2 => .test | _ => .provision

/-- The strap as read; after eight guard codes STRAP_ROLE is none and the mode NORMAL. NEXT_MODE applies to this start only (R533). -/
def takeStrap (c : BitVec 6) (s : State) : State :=
  let ok := !guardCode c
  let n := c.toNat / 4
  let next := fieldOf s 0x17004 17 16
  setField 0x17004 17 16 0 (setBoot (fun b => { b with
    strapCode := c, strapValid := ok, strapChoice := if ok then BitVec.ofNat 4 n else 0
    strapRole := if !ok then 0#2 else if n < 8 then 1#2 else 2#2
    mode := if next = 1 then .recovery else if ok then strapMode n else .normal }) s)

/-! ## The sequence (R508, R513) -/

/-- An island released by the sequence with its settings in place; it waits for its clock when that has not locked yet. -/
def startIsland (env : StartEnv) (n : Nat) (s : State) : State :=
  let s := releaseBare n s
  if env.unlocked.contains n then s else clockStable n s

/-- An island the sequence waits for, or one whose first work comes later: PCI, SEC, FLS and the clusters. -/
def startQuiet (n : Nat) (s : State) : State :=
  let s := releaseBare n s
  if (islOf s n).st == .pending then setIsl n ⟨.run, 0, false⟩ s else s

/-- The end of a start: BKP has been through one. -/
def startDone (s : State) : State := fixWdt (setField 0x1000 31 31 1 (setBoot (fun b => { b with phase := .started }) s))

/-- Configuration requests are answered from now on (R509). -/
def crsEnd (s : State) : State := setHost (fun h => { h with crsDone := true }) s

/-- Step 5: SEC and its self-test; it fails with a code the spec does not state (log entry 67). -/
def startSec (env : StartEnv) (s : State) : State :=
  let s := startQuiet 2 s
  if env.secSelfTest || !islRun s 2 then s else failIsland 2 (BitVec.ofNat 8 (Config.unstated 0x508 2).toNat) s

/-- TEST (R513): every island with its reset values; the results of the self-tests. -/
def startTest (env : StartEnv) (s : State) : State :=
  let s := ((List.range 18).map (· + 3)).foldl (fun t n => if n = 14 then t else startIsland env n t) s
  let pass := (List.range 21).foldl (fun a n => if env.bist.getLsbD n && islRun s n then a + 2 ^ n else a) 0
  startDone (crsEnd (setReg 0x17018 (BitVec.ofNat 32 pass) s))

/-- CTL_TBL_CONFIG as R45 gives it. -/
def fixTable (s : State) : State :=
  let dram := islRun s 3
  let size := if isHead s then 21 else if dram then 18 else 14
  setField 0x200 1 1 (b2n (isHead s || dram)) (setField 0x200 23 16 size s)

/-- Step 8: the role (R4), the settings of CTL, RST, MON and EVT, and the islands the role uses; the table's place follows (R45). -/
def startRole (env : StartEnv) (s : State) : State :=
  let sr := s.boot.strapRole
  let br := s.boot.bundleRole
  let s := setBoot (fun b => { b with role := if b.mode == .normal && sr = br then sr else 0#2, dramMib := min 16384 env.dramMib,
                                      dramChannels := env.dramChannels, archiveFitted := !env.nandTargets.isEmpty }) s
  let s := if sr = br then s else event 1 0x06 (sr.toNat * 4 + br.toNat) [] s
  let s := applySettings (fun o => let k := o / 0x1000; k == 0 || k == 0x15 || k == 0x16 || k == 0x17) s
  let isl := if s.boot.mode == .normal then [16, 3, 13, 11, 12] else [11, 12]
  let s := isl.foldl (fun t n => startIsland env n (applySettings (fun o => o / 0x1000 == n) t)) s
  fixTable s

/-- Steps 9 and 10: modules are read, then MEA, PLC and RF are released. -/
def startAccess (env : StartEnv) (s : State) : State :=
  let isl := [15, 5, 6, 7, 8, 9, 10]
  let s := applySettings (fun o => isl.contains (o / 0x1000)) s
  let s := (env.modules.filter fun m => slotUsed s m.1).foldl (fun t m => readModule m.1 m.2 t) s
  isl.foldl (fun t n => startIsland env n t) s

/-- Step 11: the lock, the pair logic, the archive. -/
def startService (env : StartEnv) (s : State) : State :=
  let s := if (s.boot.bundle.map (·.lock)).getD false then setField 0x10 0 0 1 s else s
  archStart env.nandTargets (pairStart (startDone s))

/-- Steps 6 and 7: FLS, image and bundle, the settings of PCI, SEC and FLS, a latched tamper, the clusters and their buckets. -/
def startBoot (s : State) : State :=
  let s := applyBundle (chooseBoot (startQuiet 4 s))
  let s := crsEnd (applySettings (fun o => let k := o / 0x1000; k == 2 || k == 4 || k == 0xE) s)
  let s := if islRun s 2 then tamperLatched s else s
  let s := [17, 18, 19, 20].foldl (fun t n => startQuiet n t) (applySettings (fun o => let k := o / 0x1000; 0x11 ≤ k && k ≤ 0x14) s)
  giveBuckets s

/-- The sequence from the strap on. -/
def runStart (env : StartEnv) (code : BitVec 6) (s : State) : State :=
  let s := startQuiet 14 (takeStrap code s)
  if s.boot.mode == .provision then startDone (crsEnd s)
  else
    let s := startSec env s
    if s.boot.mode == .test then startTest env s
    else
      let s := startRole env (startBoot s)
      if s.boot.mode == .normal then startService env (startAccess env s) else startDone s

/-- A blank unit takes what it is fitted with (log entry 64). -/
def takeFitted (env : StartEnv) (b : Boot) : Boot :=
  match env.preset with
  | some f => if b.otp.isEmpty then { b with otp := f.otp, imageA := f.imageA, imageB := f.imageB, bundleA := f.bundleA, bundleB := f.bundleB } else b
  | none => b

/-- RESET_RELEASE (R508): RST_N has risen. BKP and CTL run, the first event is recorded, and the strap is read. -/
def resetRelease (env : StartEnv) (s : State) : State :=
  if s.boot.phase != .inReset || !s.boot.mainSupply then s
  else
    let s := setBoot (fun b => { takeFitted env b with env := some env, testEn := env.testEn, power := .run, target := .run }) s
    if !ctlTrimOk s then
      setReg 0x1004 (BitVec.ofNat 32 ((1 - fieldOf s 0x1000 31 31) * 2 ^ 17 + 8)) (setBoot (fun b => { b with phase := .trimHold }) s)
    else
      let s := otpLoad (setIsl 1 ⟨.run, 0, false⟩ (setIsl 0 ⟨.run, 0, false⟩ s))
      let s := event 1 0x00 (reg s 0x1004).toNat [] (evtStart s)
      if guardCode env.strap then setBoot (fun b => { b with phase := .strapWait 0, strapCode := env.strap }) s
      else runStart env env.strap s

/-- STRAP_RETRY (R512): up to eight more reads. -/
def strapRetry (code : BitVec 6) (s : State) : State :=
  match s.boot.phase, s.boot.env with
  | .strapWait k, some env =>
    if guardCode code && k + 1 < 8 then setBoot (fun b => { b with phase := .strapWait (k + 1), strapCode := code }) s
    else runStart env code s
  | _, _ => s

/-- AUTO_CONFIRM_EXPIRY (R523): AUTO_CONFIRM_H hours since the start. -/
def autoConfirm (s : State) : State :=
  let h := fieldOf s 0x1700C 15 8
  if isLone s && s.boot.phase == .started && s.boot.power == .run && roleOf s != 0 && h ≠ 0 && h * 3600000000000 ≤ s.tim.raw then
    confirmTrial s
  else s

end Sys2Proof.Machine
end

