-- ==== Sys2Proof/Machine/Power.lean ====
section
/-!
DEFINITION. Sys2Proof/Machine/Power.lean: power states (R525, R526), BKP (R14, R527, R531), the tamper input (R415), OTP programming
(R534), installs (R522) and the boot control record (R523).
-/
namespace Sys2Proof.Machine

/-! ## Power states (R525, R526) -/

/-- Islands that keep their clocks in HOLD: BKP, CTL, TIM and the ports named by WAKE_PATH. -/
def holdKeeps (s : State) (n : Nat) : Bool :=
  n = 0 || n = 1 || n = 16 || ((n = 11 || n = 12) && fieldOf s 0x1702C 26 26 = 1) || (n = 14 && fieldOf s 0x1702C 27 27 = 1)

/-- Every GATED island runs again. -/
def ungate (s : State) : State := { s with isl := s.isl.map fun p => (p.1, if p.2.st == .gated then { p.2 with st := .run } else p.2) }

/-- HOLD gates every other island that runs. -/
def gateForHold (s : State) : State :=
  { s with isl := s.isl.map fun p => (p.1, if p.2.st == .run && !holdKeeps s p.1 then { p.2 with st := .gated } else p.2) }

def setPower (p t : Power) (s : State) : State := setBoot (fun b => { b with power := p, target := t }) s

/-- Back to RUN, from DOZE or HOLD. -/
def powerRun (s : State) : State := ungate (setPower .run .run s)

/-- DOZE: idle islands go GATED at DOZE_IDLE_GATE. -/
def powerDoze (s : State) : State := setPower .doze .doze s

/-- HOLD: a standby leaves the pair (R526). -/
def powerHold (s : State) : State :=
  let s := if s.pair.st == .standby || s.pair.st == .copying then seek s else s
  gateForHold (setPower .hold .hold s)

/-- The write queue is drained: padded, programmed, and its last pages made durable (R428, R526). -/
def drainForBackup : Nat → State → State
  | 0, s => s
  | k + 1, s =>
    if s.arch.wq.isEmpty && s.arch.notDurable.isEmpty then s
    else
      let s := if s.arch.wq.isEmpty then
          (match readingsTarget s with
           | some (b, s') => setArch (fun a => { a with wq := List.replicate (pageRecords s' b) none }) s
           | none => s)
        else padQueue s
      drainForBackup k (programReadings s)

/-- Main supplies are gone while BKP holds (R15, R525): BACKUP. -/
def toBackup (s : State) : State := setBoot (fun b => { b with mainSupply := false, power := .backup, target := .backup }) (wipe .main s)

/-- Commanded BACKUP (R526, R529): not entered while WAKE_N is low; the low level is then spent (log entry 68). -/
def powerBackup (s : State) : State :=
  if s.boot.wakeLow then setBoot (fun b => { b with target := .run, wakeLow := false }) s
  else
    let s := drainForBackup (s.arch.wq.length + 4096) s
    let s := setPair (fun p => { p with claimFlash := p.claim, flashPending := false }) s
    setBoot (fun b => { b with pwrEn := false }) (toBackup s)

/-- A write of RST_POWER.TARGET; HOLD is left only to RUN (R525). -/
def powerTo (v : Nat) (s : State) : State :=
  match v with
  | 0 => powerRun s
  | 1 => if s.boot.power == .hold then s else powerDoze s
  | 2 => if s.boot.power == .hold then s else powerHold (powerRun s)
  | _ => if s.boot.power == .hold then s else powerBackup s

/-- Must a write of TARGET be refused (R526)? -/
def powerRefused (v : Nat) (s : State) : Bool := (v = 2 || v = 3) && (s.pair.st == .active || s.pair.st == .activeAlone)

/-- Is an island's queue empty and its work done (R525)? -/
def islandIdle (n : Nat) (s : State) : Bool :=
  match n with
  | 2 => !s.pipe.flight.any fun f => f.stage == .dispatched
  | 3 => s.pipe.flight.isEmpty
  | 4 => s.arch.wq.isEmpty
  | 17 | 18 | 19 | 20 => !s.pipe.flight.any fun f => f.cluster == n - 17
  | _ => false

/-- DOZE_IDLE_GATE (R525). -/
def dozeGate (n : Nat) (s : State) : State :=
  if s.boot.power == .doze && (islOf s n).st == .run && islandIdle n s then setIsl n { islOf s n with st := .gated } s else s

/-! ## BKP (R14, R415, R525, R527, R531) -/

/-- WAKE_PIN_FALL: leaves HOLD, or drives PWR_EN high in BACKUP. -/
def wakePinFall (s : State) : State :=
  let s := setBoot (fun b => { b with wakeLow := true }) s
  if fieldOf s 0x1018 1 1 = 0 then s
  else if s.boot.power == .hold then powerRun s
  else if s.boot.power == .backup then setBoot (fun b => { b with pwrEn := true }) s
  else s

/-- BKP_ALARM: the counter matches while ALARM_EN is 1; in BACKUP PWR_EN goes high. -/
def bkpAlarm (s : State) : State :=
  if s.boot.power == .backup && fieldOf s 0x1018 0 0 = 1 && reg s 0x1008 == reg s 0x101C then setBoot (fun b => { b with pwrEn := true }) s else s

/-- MAIN_SUPPLY_LOSS: BACKUP, whatever the state. -/
def mainSupplyLoss (s : State) : State := if s.boot.mainSupply then toBackup s else s

/-- VBAT_LOW (R531): the bit shows whether VBAT is below 2.0 V. -/
def vbatLow (mv : Nat) (s : State) : State :=
  if 2000 ≤ mv then setField 0x1000 28 28 0 s
  else
    let s := setField 0x1000 28 28 1 s
    if islRun s 1 then event 0 0x01 (mv % 65536) [] s else s

/-- BKP_POWER_LOSS (R14): every class-B value returns to its default; PWR_EN is not driven. -/
def bkpPowerLoss (s : State) : State :=
  if s.boot.mainSupply then s else setBoot (fun b => { b with pwrEn := true, wakeLow := false }) (wipe .all s)

/-- BKP_SECOND_TICK (R527). -/
def bkpSecond (s : State) : State :=
  let t := (fieldOf s 0x100C 15 0 * 2 ^ 32 + (reg s 0x1008).toNat + 1) % 2 ^ 48
  let s := setField 0x100C 15 0 (t / 2 ^ 32) (setReg 0x1008 (BitVec.ofNat 32 t) s)
  if s.boot.mainSupply then count 0x1010 s else s

/-- Does SEC hold its settings, so that a tamper acts at once (R415, R509)? -/
def secTamper (s : State) : Bool := s.boot.phase == .started && ((islOf s 2).st == .run || (islOf s 2).st == .gated)

/-- TAMPER_FALL (R415): acted on, or latched in BKP. -/
def tamperFall (s : State) : State :=
  if !secTamper s then setField 0x1000 29 29 1 s
  else
    let a := fieldOf s 0x2000 1 0
    if a = 0 then s else zeroise a 2 s

/-! ## OTP programming (R534) -/

/-- Have the words of a range been written? A word counts as written when it is not 0 (log entry 69). -/
def otpWritten (s : State) (lo n : Nat) : Bool := (List.range n).all fun k => otpWord s (lo + k) != 0

/-- The bits of DATA that a word takes now. -/
def otpTakes (s : State) (w : Nat) (v : W32) : W32 :=
  let fuse := otpWord s 167
  if 146 ≤ w && w ≤ 157 then (if bit fuse 0 then 0 else v)
  else if 158 ≤ w && w ≤ 166 then (if bit fuse 1 then 0 else v)
  else if w = 167 then
    v &&& ((if otpWritten s 146 12 then 1#32 else 0) ||| (if otpWritten s 158 9 then 6#32 else 0))
  else if 168 ≤ w then 0 else v

/-- A write of RST_OTP_CMD in PROVISION mode: GO programs WORD with DATA; programming never clears a bit, and FAIL shows a bit refused. -/
def otpGo (v : W32) (s : State) : State :=
  if !bit v 0 then s
  else
    let w := fieldOf s 0x17040 7 0
    let d := reg s 0x17044
    let take := otpTakes s w d
    setField 0x17048 1 1 (b2n (take != d)) (setBoot (fun b => { b with otp := Kv.putOr 0 w (b.otp.getD w 0 ||| take) b.otp }) s)

/-- RST_OTP_DATA as read: zero for words 158 to 165; the owner digest reads all ones until provisioned (R514, log entry 69). -/
def otpRead (s : State) : W32 :=
  let w := fieldOf s 0x17040 7 0
  if 158 ≤ w && w ≤ 165 then 0
  else if 146 ≤ w && w ≤ 157 then (ownerDigest s).getD (w - 146) 0
  else otpWord s w

/-! ## Installs and the boot control record (R522, R523) -/

/-- Is there a staging window? -/
def window (s : State) : Bool :=
  s.boot.mode == .recovery || (s.boot.mode == .normal && evtMounted s && (s.arch.layout.map (·.hostGib)).getD 0 != 0)

/-- Does the unit run the slot an install names? -/
def slotRuns (kind slot : Bool) (s : State) : Bool :=
  if kind then s.boot.bundle.isSome && s.boot.runBundle == slot else !s.boot.loader && s.boot.runImage == slot

/-- RST_BOOT_INSTALL.GO: the result of what can be refused at once, or the start of the install; while one runs it starts none
(log entry 137). -/
def installGo (kind slot : Bool) (obj : Staged) (s : State) : State :=
  let fails (c : Nat) : State := setBoot (fun b => { b with installCode := c }) s
  if s.boot.install.isSome then s
  else if !window s then fails 6
  else if slotRuns kind slot s then fails 4
  else
    let ok := match obj with
      | .image i => !kind && imageOk s i
      | .bundle b => kind && bundleOk s b
      | .none => false
    if !ok then fails 3
    else if !islInRun s 4 then fails 5
    else setBoot (fun b => { b with installCode := 1, install := some (obj, slot) }) s

/-- INSTALL_COMPLETE: the slot is written and read back, or the flash failed. -/
def installComplete (ok : Bool) (s : State) : State :=
  match s.boot.install with
  | none => s
  | some (o, slot) =>
    if !ok then setBoot (fun b => { flsDown.spoil o slot b with install := none, installCode := 5 }) s
    else
      let put (b : Boot) : Boot := match o with
        | .image i => if slot then { b with imageB := some i } else { b with imageA := some i }
        | .bundle x => if slot then { b with bundleB := some x } else { b with bundleA := some x }
        | .none => b
      count 0x17060 (setBoot (fun b => { put b with install := none, installCode := 2 }) s)

/-- A write of RST_BOOT_SEL (R523): CONFIRM confirms the running trial; else a boot control entry is written. -/
def bootSel (v : W32) (s : State) : State :=
  let image := bit v 0
  let bundle := bit v 1
  if bit v 3 then confirmTrial s
  else if bit v 2 then
    setBoot (fun b => { b with ctl := { b.ctl with seq := b.ctl.seq + 1, trial := some (image, bundle, false) } }) s
  else
    setBoot (fun b => { b with ctl := ⟨b.ctl.seq + 1, image, bundle, none⟩,
                               trialRun := b.trialRun && !(image == b.runImage && bundle == b.runBundle) }) s

end Sys2Proof.Machine
end

