-- ==== Sys2Proof/Machine/Regs.lean ====
section
/-!
DEFINITION. Sys2Proof/Machine/Regs.lean: register accesses (R10 to R13, R24, R535 to R542): what a register shows of the rest of the
state, reads with their latches (R326, R469, R486, R540), plain writes over BAR0, and REG_WRITE_AU (R414).
-/
namespace Sys2Proof.Machine

/-- A register word from fields placed by their lowest bit. -/
def fields (l : List (Nat × Nat)) : W32 := BitVec.ofNat 32 (l.foldl (fun a x => a + x.2 * 2 ^ x.1) 0)

/-- Code of an island state (R20). -/
def islCode : IslState → Nat
  | .off => 0 | .reset => 1 | .pending => 2 | .run => 3 | .gated => 4 | .trimInvalid => 5 | .failed => 6

/-- Unit health (R44). In a HEAD unit an archive that is not fitted counts as a failed one: R33, R42 and R443 make it crimson, where R44
takes the island grade alone for a unit with no archive fitted (DEDUCED, log entry 120). -/
def health (s : State) : Nat := if isHead s || s.boot.archiveFitted then max (archGrade s) (islandGrade s) else islandGrade s

def sumBits (n : Nat) (f : Nat → Bool) : Nat := (List.range n).foldl (fun a i => if f i then a + 2 ^ i else a) 0

/-! ## What registers show of other state -/

/-- CTL block (R30, R37, R20, R81, R125, R149, R196, R228, R322, R327). -/
def ctlShown (o : Nat) (s : State) : Option W32 :=
  match o with
  | 0x40 => some (fields [(20, sumBits 4 fun c => (islOf s (17 + c)).st == .run && decide (0 < bucketsHeld s c)), (16, health s), (4, s.boot.bundleRole.toNat),
      (2, s.boot.strapRole.toNat), (0, (roleOf s).toNat)])
  | 0x44 => some (fields [(31, b2n s.clusters.changing), (16, s.clusters.cur.toNat), (8, s.clusters.req.toNat)])
  | 0x80 => some (BitVec.ofNat 32 s.tim.raw)
  | 0x208 => some (BitVec.ofNat 32 (tblUsed s))
  | 0x20C => some (saltFp s)
  | 0x310 => some (fields [(16, heldTokens s), (0, s.pipe.free)])
  | 0x314 => some (fields [(8, sumBits 8 fun q => iqPaused q s), (0, sumBits 8 fun q => decide (0 < (qState s q).items) || (qState s q).idle)])
  | 0x408 => some (BitVec.ofNat 32 (rulesActive s))
  | 0x530 => some (fields [(31, b2n (balRunning s)), (30, b2n s.bal.lateLast), (29, b2n s.bal.waiting.isSome),
      (0, min 0xFFFF (s.bal.active.filter fun p => p.2.parent = 0xFFFF && p.2.type ≠ 0xFF).length)])
  | 0x534 => some s.bal.runSeq
  | 0x610 => some (fields [(9, memberships s), (0, s.camp.camps.length)])
  | 0x614 => some (fields [(16, segCap s), (0, s.camp.store.length)])
  | 0x708 => some (fields [(31, b2n (isField s && uplinkUp s)), (30, b2n (isField s && pathUp s headUnit true)), (29, b2n (isField s && pathUp s headUnit false)),
      (28, b2n (isPaused s true)), (27, b2n (isPaused s false)), (26, b2n s.relay.spooling),
      (0, if isHead s then s.relay.rx.length else 0)])
  | 0x70C => some (fields [(16, holdCap s), (0, (holdUsed s + 16383) / 16384)])
  | _ =>
    if 0x100 ≤ o && o ≤ 0x150 then
      let n := (o - 0x100) / 4
      if n < 2 then some 3 else some (fields [(8, (islOf s n).failCode.toNat), (0, islCode (islOf s n).st)])
    else none

/-- FLS block (R449, R450): a formatted store shows the settings it was formatted with. -/
def flsShown (o : Nat) (s : State) : Option W32 :=
  let blk (st : BlkSt) : Option W32 := some (BitVec.ofNat 32 (blkCount s st))
  match o with
  | 0x0 => (if evtMounted s then s.arch.layout.map fun l => setBits (setBits (reg s 0x4000) 23 16 l.sparePct) 15 0 l.gcReserve else none)
  | 0x4 => (if evtMounted s then s.arch.layout.map fun l => setBits (setBits (reg s 0x4004) 31 16 l.hostGib) 15 8 l.spoolGib else none)
  | 0xC => some (setBits (reg s 0x400C) 15 0 ((s.arch.prof.map (·.peLimit)).getD 0))
  | 0x10 => some (flsStatus s)
  | 0x14 => some (BitVec.ofNat 32 s.arch.ovf.length)
  | 0x18 => some (BitVec.ofNat 32 s.arch.durable)
  | 0x20 => blk .free | 0x24 => blk .open_ | 0x28 => blk .data | 0x2C => blk .stale
  | 0x30 => some (BitVec.ofNat 32 (blkTotal s))
  | 0x34 => blk .spare | 0x38 => blk .metaBlk | 0x3C => blk .retired | 0x40 => blk .bad
  | _ => none

/-- PLC instance n (R257, R260). -/
def plcShown (n o : Nat) (s : State) : Option W32 :=
  let p := plcOf s n
  match o with
  | 0x14 => some (fields [(31, b2n p.zcLost), (0, min 65535 (p.period / 1000))])
  | 0x30 => some (fields [(31, b2n (!p.ldPin || p.ldWait)), (16, p.ends.length), (0, p.routes.length)])
  | _ => none

/-- Transceiver n (R292). -/
def rfShown (n o : Nat) (s : State) : Option W32 :=
  let r := rfOf s n
  match o with
  | 0x18 => some (fields [(31, b2n r.sync), (28, if islRun s (9 + n) then (rfLanes s n).1 else 0), (24, min 15 r.misses), (22, r.parent % 4),
      (13, rfUnits r), (0, rfEndpoints r)])
  | 0x1C => some (fields [(16, if islRun s (9 + n) then rfSlotMs s n else 0), (0, (rfLanes s n).2)])
  | _ => none

/-- Port p (R320, R321). -/
def ethShown (p : Bool) (o : Nat) (s : State) : Option W32 :=
  if o = 0xC then some (ethStatus s p)
  else if 0x40 ≤ o && o < 0x70 then
    let (ok, mac) := matchEntry s p ((o - 0x40) / 8)
    let mac := if ok then mac.toNat else 0
    if o % 8 = 0 then some (BitVec.ofNat 32 mac) else some (fields [(31, b2n ok), (0, mac / 2 ^ 32)])
  else none

/-- TIM (R346, R347); the words that TIM_NOW_NS latches stand in the latch. -/
def timShown (l : Latch) (o : Nat) (s : State) : Option W32 :=
  let t := s.tim
  match o with
  | 0x10 => some (fields [(31, b2n t.fromPtp), (0, (t.utc % 65536).toNat)])
  | 0x14 => some (fields [(28, t.st), (25, t.source), (24, b2n t.valid), (23, b2n t.jumpRefused)])
  | 0x18 => some (wordI (satI32 t.offset))
  | 0x1C => some (wordI t.rate)
  | 0x20 => some (BitVec.ofNat 32 (clkNs t.clk))
  | 0x24 => some l.nowLo
  | 0x28 => some l.nowHi
  | 0x2C => some l.nowFrac
  | 0x38 => some (holdErr s)
  | _ => none

/-- EVT (R501). -/
def evtShown (l : Latch) (o : Nat) (s : State) : Option W32 :=
  match o with
  | 0x4 => some (fields [(31, b2n (archiveWritable s)), (0, s.evt.ring.length)])
  | 0x8 => some (BitVec.ofNat 32 (evtNext s - 1))
  | 0xC => some l.lastHi
  | 0x10 => some (BitVec.ofNat 32 (evtOldest s))
  | 0x14 => some l.oldestHi
  | _ => none

/-- RST (R532, R534); the OTP registers read zero outside PROVISION mode. -/
def rstShown (o : Nat) (s : State) : Option W32 :=
  let b := s.boot
  let reasons (lo n : Nat) : W32 := fields ((List.range n).map fun k => (2 * k, b.trimReason.getD (lo + k) 0))
  match o with
  | 0x0 => some (fields [(31, b2n b.strapValid), (8, b.strapCode.toNat), (4, b.strapChoice.toNat), (2, if b.strapValid then b.strapChoice.toNat / 2 % 4 else 0)])
  | 0x10 => some (reasons 0 16)
  | 0x14 => some (reasons 16 5)
  | 0x20 => some (fields [(31, b2n b.fallback), (30, b2n b.trialRun), (29, b2n b.runImage), (28, b2n b.runBundle), (24, b.installCode)])
  | 0x2C => some (setBits (heldWord s 0x1702C) 31 30 (match b.power with | .doze => 1 | .hold => 2 | _ => 0))
  | 0x40 | 0x48 => if b.mode == .provision then none else some 0
  | 0x44 => some (if b.mode == .provision then otpRead s else 0)
  | _ => none

/-- What a register shows of other state; none: its stored word. -/
def shown (l : Latch) (off : Nat) (s : State) : Option W32 :=
  let o := off % 0x1000
  match off / 0x1000 with
  | 0x0 => if 0x904 ≤ o && o ≤ 0x914 then some (l.queue.getD ((o - 0x904) / 4) 0) else ctlShown o s
  | 0x1 => if 0x110 ≤ o && o ≤ 0x12C then some (s.mea.kept.getD ((o - 0x110) / 4) 0) else none
  | 0x2 => if o = 4 then some (fields [(31, b2n s.sec.zeroised), (30, b2n (wrapDisabled s)), (29, fieldOf s 0x2004 29 29), (0, s.sec.slots.length)]) else none
  | 0x3 => if o = 0 then some (fields [(31, b2n (s.boot.dramChannels != 0)), (29, s.boot.dramChannels.toNat), (0, s.boot.dramMib)]) else none
  | 0x4 => if o = 0x1C then some l.flsHi else flsShown o s
  | 0x5 | 0x6 | 0x7 | 0x8 => plcShown (off / 0x1000 - 5) o s
  | 0x9 | 0xA => rfShown (off / 0x1000 - 9) o s
  | 0xB => ethShown false o s
  | 0xC => ethShown true o s
  | 0xD => (match o with
    | 0x0 => some (setBits (setBits (reg s 0xD000) 30 30 (b2n (posB s))) 27 16 (ownService s).toNat)
    | 0x14 => some (prlStatus s)
    | 0x18 => some s.pair.claim
    | 0x1C => some s.pair.partnerClaim
    | _ => none)
  | 0xE => if o = 4 then some (fields [(31, b2n s.host.link), (30, b2n s.host.bme), (29, b2n s.host.pollFast), (20, s.host.width), (16, s.host.speed)]) else none
  | 0xF =>
    if o = 4 then some (modStatus s)
    else if 0x100 ≤ o && o ≤ 0x158 then some (l.pq0.getD ((o - 0x100) / 4) 0)
    else if 0x180 ≤ o && o ≤ 0x1D8 then some (l.pq1.getD ((o - 0x180) / 4) 0)
    else none
  | 0x10 => timShown l o s
  | 0x11 | 0x12 | 0x13 | 0x14 =>
    let k := off / 0x1000 - 0x11
    if o = 0 then some (fields [(24, clusterEngines s k), (0, bucketsHeld s k)]) else none
  | 0x15 => if 0x800 ≤ o && o ≤ 0x88C then some (l.mon.getD ((o - 0x800) / 4) 0) else none
  | 0x16 => evtShown l o s
  | 0x17 => rstShown o s
  | _ => none

/-! ## Absent and unmapped words (R24, R536) -/

/-- Does the block of an offset not answer (R24)? EVT and MON have resets of their own. -/
def blockDown (off : Nat) (s : State) : Bool :=
  match blockIsland off with
  | none => false
  | some n => (n != 0 && !islUp s n) || (off / 0x1000 == 0x15 && bit (reg s 0x17008) 22) || (off / 0x1000 == 0x16 && !evtUp s)

/-- The latches a read takes (R540). -/
def readLatch (p : Path) (off : Nat) (s : State) : State :=
  let hi (n : Nat) : W32 := BitVec.ofNat 32 (n / 2 ^ 32)
  if off = 0x10020 then
    let c := s.tim.clk
    setLatch p (fun l => { l with nowLo := BitVec.ofNat 32 (clkSec c), nowHi := BitVec.ofNat 32 (clkSec c / 2 ^ 32 % 65536), nowFrac := BitVec.ofNat 32 (c % 65536) }) s
  else if off = 0x4018 then setLatch p (fun l => { l with flsHi := hi s.arch.durable }) s
  else if off = 0x16008 then setLatch p (fun l => { l with lastHi := hi (evtNext s - 1) }) s
  else if off = 0x16010 then setLatch p (fun l => { l with oldestHi := hi (evtOldest s) }) s
  else if off = 0xF100 then setLatch p (fun l => { l with pq0 := (meaHead s 0).pq }) s
  else if off = 0xF180 then setLatch p (fun l => { l with pq1 := (meaHead s 1).pq }) s
  else s

/-- Read one word over a path. -/
def readReg (p : Path) (off : Nat) (s : State) : W32 × State :=
  if blockDown off s then (0, count 0x48 s)
  else match regDef off with
    | none => (0, count 0x50 s)
    | some _ =>
      let s := readLatch p off s
      ((shown (latchOf s p) off s).getD (reg s off), s)

/-- REG_READ (R407, R539): 1 to 256 words in ascending order. -/
def readWords (off : Nat) : Nat → State → List (List Byte) × State
  | 0, s => ([], s)
  | n + 1, s =>
    let (w, s) := readReg .cmd off s
    let (t, s) := readWords (off + 4) n s
    (be 4 w.toNat :: t, s)

def regRead (off cnt : Nat) (s : State) : State × Reply :=
  if cnt = 0 || 256 < cnt then (s, .bad)
  else
    let (l, s) := readWords off cnt s
    (s, ⟨.ok, [], l⟩)

/-! ## Effects of writes -/

/-- PRL stops because its EN is 0: the unit is LONE (R379). -/
def prlOff (s : State) : State :=
  let s := setSt .lone (prlGone 1 (islandStop 13 .off 0 s))
  if s.pair.actOut then s else takeGrant .start s

/-- EN of a block falls over BAR0: its island is OFF (R253, R288, R320, log entry 70). -/
def enFall (n : Nat) (s : State) : State := if n = 13 then prlOff s else islandStop n .off 0 s

/-- Islands with an EN that a register write can clear. -/
def enIsland (off : Nat) : Option Nat :=
  let n := off / 0x1000
  if off % 0x1000 = 0 && ((5 ≤ n && n ≤ 13) || n = 15) then some n else none

/-- FLS_CONFIG.EN: 1 mounts the archive (R449). -/
def flsEn (old new : W32) (s : State) : State :=
  if !bit old 31 && bit new 31 then
    (match s.boot.env with | some e => if s.arch.st == .off && s.boot.mode == .normal then archStart e.nandTargets s else s | none => s)
  else if bit old 31 && !bit new 31 then withGrade (setArch fun a => { a with st := .off }) s
  else s

/-- PCI_CTL.EN starts or stops polling and postings (R391). -/
def pciEn (old new : W32) (s : State) : State :=
  if !bit old 31 && bit new 31 then setHost (fun h => { h with pollFast := true, changedAt := s.tim.raw }) s
  else if bit old 31 && !bit new 31 then
    let s := setHost (fun h => { h with pollFast := false }) s
    (s.host.frames.map (·.1)).foldl (fun t b => setSq b { sqOf t b with run := false, bufs := [] } (endFrames b t)) s
  else s

/-- EN of a ring (R389, R390). -/
def ringEn (cq : Bool) (n : Nat) (old new : W32) (s : State) : State :=
  if !bit old 31 && bit new 31 then ringStart cq n s
  else if bit old 31 && !bit new 31 then ringStop cq n s
  else s

/-- What a plain write does beside storing (R540, R543). -/
def afterWrite (off : Nat) (old new v : W32) (s : State) : State :=
  if off = 0x24 then (if v &&& reg s 0x20 &&& 0x7F#32 != 0 then msix 32 s else s)
  else if off = 0x900 then latchQueue .bar0 (bits new 7 0) s
  else if off = 0x15000 then monSnap .bar0 v s
  else if off = 0x4000 then flsEn old new s
  else if off = 0xE000 then pciEn old new s
  else if 0xE100 ≤ off && off < 0xE300 && off % 16 = 8 then ringEn false ((off - 0xE100) / 16) old new s
  else if 0xE300 ≤ off && off < 0xE500 && off % 16 = 8 then ringEn true ((off - 0xE300) / 16) old new s
  else match enIsland off with
    | some n => if bit old 31 && !bit new 31 then enFall n s else s
    | none => s

/-! ## Plain writes (R11 to R13, R537, R541, R571) -/

/-- Do BAR0 accesses reach the registers: PCI answers, the link is up and the host has enumerated it (R509)? -/
def barOpen (s : State) : Bool := islUp s 14 && s.host.link && s.host.crsDone

/-- The OTP registers (R534). -/
def otpReg (off : Nat) : Bool := off = 0x17040 || off = 0x17044 || off = 0x17048

/-- A write to a register that answers. -/
def plainWrite (d : RegDef) (off : Nat) (v : W32) (s : State) : State :=
  let s := if refusesWrite s off v then count 0xE050 s else s
  let fm := frozenMask s off
  let v := (v &&& ~~~fm) ||| (reg s off &&& fm)
  let s := lockedWrite d off v s
  let can := plainCan s
  let s := if refusedValue can d (BitVec.allOnes 32) v (heldWord s off) then keepEvent off s else s
  let old := heldWord s off
  let new := newWord can d off (BitVec.allOnes 32) v s
  afterWrite off old new v (putWord off new s)

/-- A write of one word over BAR0; `whole` false: its byte enables do not cover the word (R537). TEST takes reads only, PROVISION only
the OTP registers (R513, R534). -/
def barWrite (off : Nat) (v : W32) (whole : Bool) (s : State) : State :=
  if !barOpen s then s
  else if !whole then count 0x50 s
  else if s.boot.mode == .test then s
  else if s.boot.mode == .provision then
    (if off = 0x17048 then otpGo v s
     else if otpReg off then (match regDef off with | some d => putWord off (newWord (plainCan s) d off (BitVec.allOnes 32) v s) s | none => s)
     else s)
  else if otpReg off then s
  else if blockDown off s then count 0x48 s
  else match regDef off with
    | none => count 0x50 s
    | some d => plainWrite d off v s

/-- A read of one word by itself: over BAR0 it needs the path; the word goes back on it. -/
def readAlone (p : Path) (off : Nat) (s : State) : State :=
  if p == .bar0 && !barOpen s then s
  else
    let (w, s) := readReg p off s
    emit (.regRead p off w) s

/-! ## REG_WRITE_AU (R414) -/

/-- Does MASK cover whole AU fields and nothing else? -/
def auMaskOk (d : RegDef) (mask : W32) : Bool :=
  let au := d.flds.filter fun f => f.acc == .au
  mask != 0 && mask &&& ~~~(au.foldl (fun a f => a ||| fieldMask f) 0#32) == 0
    && au.all fun f => fieldMask f &&& mask == 0 || fieldMask f &&& mask == fieldMask f

/-- AU fields that are only stored; the balance settings reach the standby (R187). -/
def auStore (d : RegDef) (off : Nat) (mask v : W32) (s : State) : State :=
  let new := newWord auCan d off mask v s
  let s := putWord off new s
  if 0x500 ≤ off && off < 0x530 then journal (.balReg off new) s else s

/-- CTL_PROFILE.REQ (R37, R38, R40). -/
def auProfile (v : W32) (s : State) : State × Reply :=
  let req := bits v 9 8
  if s.clusters.changing then (s, .busy)
  else if req = 3 then (event 1 0x07 0 [] s, .done)
  else (startProfile (BitVec.ofNat 2 req) s, .done)

/-- RST_UNIT (R533): a reset command gets no answer (log entry 71). -/
def auUnit (d : RegDef) (mask v : W32) (s : State) : State × Reply :=
  if mask &&& 0xFFFF#32 = 0 then (auStore d 0x17004 mask v s, .done)
  else if bits v 15 0 ≠ 0x5253 then (s, .bad)
  else (beginReset 5 0 .unit (auStore d 0x17004 mask v s), .later)

/-- RST_POWER.TARGET (R525, R526): a BACKUP that is entered gets no answer (log entry 71). -/
def auPower (v : W32) (s : State) : State × Reply :=
  let t := bits v 29 28
  if powerRefused t s then (s, .busy)
  else
    let s := powerTo t s
    (s, if s.boot.power == .backup then .later else .done)

/-- RST_BOOT_INSTALL (R522): a GO while an install runs is BUSY. -/
def auInstall (d : RegDef) (mask v : W32) (obj : Staged) (s : State) : State × Reply :=
  let go := bit (mask &&& v) 2
  if go && s.boot.install.isSome then (s, .busy)
  else
    let s := auStore d 0x17028 mask v s
    if go then (installGo (bit (reg s 0x17028) 1) (bit (reg s 0x17028) 0) obj s, .done) else (s, .done)

/-- RST_BOOT_SEL (R523): the word as it stands after the write acts; without FLS nothing can be written (log entry 72). -/
def auBootSel (d : RegDef) (mask v : W32) (s : State) : State × Reply :=
  if !islInRun s 4 then (s, .media)
  else
    let new := newWord auCan d 0x17024 mask v s
    (bootSel new (auStore d 0x17024 mask v s), .done)

/-- REG_WRITE_AU; `obj`: what an install finds in the staging window (log entry 8). -/
def auWrite (obj : Staged) (off : Nat) (mask v : W32) (s : State) : State × Reply :=
  match regDef off with
  | none => (s, .bad)
  | some d =>
    if !auMaskOk d mask then (s, .bad)
    else if blockDown off s then (count 0x48 s, .done)
    else if off = 0x44 then auProfile v s
    else if off = 0x17004 then auUnit d mask v s
    else if off = 0x17008 then
      let old := reg s off
      let new := newWord auCan d off mask v s
      (swReset old new (putWord off new s), .done)
    else if off = 0x17024 then auBootSel d mask v s
    else if off = 0x17028 then auInstall d mask v obj s
    else if off = 0x1702C then auPower v s
    else (auStore d off mask v s, .done)

end Sys2Proof.Machine
end

