-- ==== Sys2Proof/Machine/Commands.lean ====
section
/-!
DEFINITION. Sys2Proof/Machine/Commands.lean: the authority keys (R408, R409), every management command with its own chapter's meaning,
the commands that wait for a fence or for readings of their meter (R78, R396), and doorbell polling (R391 to R395).
-/

/-- What an install that REG_WRITE_AU starts finds in the staging window: a free value (log entries 2, 8). -/
opaque Sys2Proof.Config.freeStaged : Nat → Sys2Proof.Machine.Staged

namespace Sys2Proof.Machine

/-! ## Authority keys (R408, R409, R415) -/

/-- The slot an accepted command was authenticated under. -/
def ownSlot (h : Hdr) (s : State) : Option (Nat × AuthSlot) :=
  h.auth.bind fun a => (Kv.get? a.slot.toNat s.sec.slots).map fun k => (a.slot.toNat, k)

/-- The first conditions of R409: SLOT 0, the commanding slot, or no slot at all. -/
def slotRefused (h : Hdr) (slot : Nat) (s : State) : Bool :=
  slot = 0 || 64 ≤ slot || match ownSlot h s with | some (n, _) => n == slot | none => true

/-- Does the commanding slot lack a bit of PERMS? -/
def permsLacking (h : Hdr) (perms : BitVec 16) (s : State) : Bool :=
  match ownSlot h s with | some (_, k) => perms &&& ~~~k.perms != 0 | none => true

/-- A slot changes, and the change is journalled (R408). -/
def putKeySlot (n : Nat) (v : Option AuthSlot) (s : State) : State :=
  journal (.keySlot n v) { s with sec := { s.sec with slots := putOpt n v s.sec.slots } }

def keyLoad (h : Hdr) (slot : Byte) (perms : BitVec 16) (key : Wrapped) (s : State) : State × Reply :=
  if slotRefused h slot.toNat s || permsLacking h perms s then (s, .bad)
  else match unwrapCmd h s key with
    | none => (s, .bad)
    | some k => (putKeySlot slot.toNat (some ⟨k, perms⟩) s, .done)

/-- KEY_CLEAR (R409): refused when the slot to clear holds a permission the commanding slot lacks. -/
def keyClear (h : Hdr) (slot : Byte) (s : State) : State × Reply :=
  let held : BitVec 16 := match Kv.get? slot.toNat s.sec.slots with | some k => k.perms | none => 0
  if slotRefused h slot.toNat s || permsLacking h held s then (s, .bad)
  else (putKeySlot slot.toNat none s, .done)

/-- The check value of a key: a free function of it (log entry 3). -/
def checkValue (k : Key) : Nat := (Config.unstated 0x409 k.toNat).toNat % 2 ^ 32

/-- KEY_READ (R409, R574). -/
def keyRead (slot : Byte) (s : State) : State × Reply :=
  let n := slot.toNat
  if 64 ≤ n then (s, .bad)
  else
    let (loaded, perms, check) := match Kv.get? n s.sec.slots with
      | some k => (1, k.perms.toNat, checkValue k.key)
      | none => (0, 0, 0)
    (s, ⟨.ok, padTo 40 (be 1 n ++ be 1 loaded ++ be 2 perms ++ be 8 (s.sec.counters.getD n 0).toNat ++ be 4 check), []⟩)

def secZeroise (level : Nat) (s : State) : State × Reply :=
  if level = 1 || level = 2 then (zeroise level 1 s, .done) else (s, .bad)

/-- REG_WRITE_AU as a command of its own: only an install looks at the staging window. -/
def regWriteAu (off : Nat) (mask v : W32) (s : State) : State × Reply :=
  if off = 0x17028 then auWrite (Config.freeStaged s.draws) off mask v { s with draws := s.draws + 1 } else auWrite .none off mask v s

/-! ## Every command -/

/-- What a command does once its checks are done. -/
def cmdBody (h : Hdr) (c : Cmd) (s : State) : State × Reply :=
  match c with
  | .regRead off n => regRead off n s
  | .regWriteAu off mask v => regWriteAu off mask v s
  | .keyLoad slot perms key => keyLoad h slot perms key s
  | .keyClear slot => keyClear h slot s
  | .keyRead slot => keyRead slot s
  | .secZeroise level => secZeroise level s
  | .tblRead slot => tblRead slot s
  | .tblFind title => tblFind title s
  | .tblDump first n => tblDump first n s
  | .tblWrite slot expect mask image => tblWrite slot expect mask image s
  | .tblProvision title gen window rules service ek ak => tblProvision h title gen window rules service ek ak s
  | .tblKeyStage slot gen ek ak => tblKeyStage h slot gen ek ak s
  | .tblRetire slot => tblRetire slot s
  | .tblSet slot expect mask image => tblSet slot expect mask image s
  | .keySignerLoad slot curve key => keySignerLoad slot curve key s
  | .ruleLoad image => ruleLoad image s
  | .ruleActivate sets => ruleMark h sets false s
  | .ruleRemove sets => ruleMark h sets true s
  | .ruleRead n => ruleRead n s
  | .topoLoad nodes => topoLoad nodes s
  | .topoActivate => topoActivate h s
  | .topoRead bank first n => topoRead bank first n s
  | .balNodeRead node => balNodeRead node s
  | .balMeterRead slot => balMeterRead slot s
  | .balResetScores kind ids => balResetScores kind ids s
  | .campCreate m => campCreate m s
  | .campData slot off data => campData slot off data s
  | .campSeal slot => campSeal slot s
  | .campAddMembers slot slots => campAddMembers slot slots s
  | .campRemoveMembers slot slots => campRemoveMembers slot slots s
  | .campStart slot => campStart slot s
  | .campPause slot => campPause slot s
  | .campCancel slot => campCancel slot s
  | .campClose slot => campClose slot s
  | .campActivate slot r => campActivate slot r s
  | .campRollback slot r => campRollback slot r s
  | .campRead slot => campRead slot s
  | .campMemberRead slot first n => campMemberRead slot first n s
  | .plcGmkRotate inst => plcGmkRotate inst s
  | .plcKick inst short => plcKick inst short s
  | .rfKeyRotate rf => rfKeyRotate rf s
  | .timStep mode sec ns => timStep mode sec ns s
  | .pairRead => pairRead s
  | .pairSwap => pairSwap s
  | .pairClear => pairClear s
  | .archInfo => archInfo s
  | .archRead first n media => archRead first n media s
  | .archFindTime t => archFindTime t s
  | .archTrim upto => archTrim upto s
  | .archOvfRead n => archOvfRead n s
  | .archOvfRelease upto => archOvfRelease upto s
  | .archHostWrite sector data => archHostWrite sector data s
  | .archHostRead sector n media => archHostRead sector n media s
  | .archFormat confirm => archFormat h confirm s
  | .evtRead from_ n => evtRead from_ n s
  | .evtClear => evtClear h s
  | .monRead first n => monRead first n s
  | .monReset lo hi => monReset lo hi s
  | .qRead first n => qRead first n s
  | .reserved _ => (s, .bad)

/-- A command that reached the unit by a ring, a datagram, or the end of a wait. -/
def runCmd (h : Hdr) (c : Cmd) (s : State) : State := command h c (cmdBody h c) s

/-! ## Commands that wait (R78, R396) -/

/-- Commands of a ring that have been fetched and have not completed, beside those in flight: held by a swap, or after one. -/
def heldOfRing (n : Nat) (s : State) : Nat :=
  let own := fun (x : Hdr × Cmd) => ringOf x.1 == some n
  (s.deferred.filter own).length + match s.pair.swap with | some w => (w.queued.filter own).length | none => 0

/-- Has every command that started on a ring completed (R396)? -/
def ringClear (n : Nat) (s : State) : Bool := (sqOf s n).inFlight = 0 && heldOfRing n s = 0

/-- Commands of a ring that wait behind a FENCE start, as far as they may. -/
def runFencedOf (n : Nat) : Nat → State → State
  | 0, s => s
  | fuel + 1, s =>
    match s.host.fenced.getD n [] with
    | [] => s
    | (fence, h, c) :: rest =>
      if fence && !ringClear n s then s
      else runFencedOf n fuel (runCmd h c (setHost (fun x => { x with fenced := Kv.putOr [] n rest x.fenced }) s))

def runFenced (s : State) : State :=
  s.host.fenced.foldl (fun t p => runFencedOf p.1 p.2.length t) s

/-- Commands behind readings of their meter run once those have committed, in order (R78); one that needs the grant on a unit that
lost it completes NOT_ACTIVE. -/
def runStalled (s : State) : State :=
  s.stalled.foldl (fun t x =>
    let op := cmdOpcode x.2
    if meterBusy x.2 t then { t with stalled := t.stalled ++ [x] }
    else if grantOpcode op && isStandby t then complete x.1 op .notActive t
    else
      let y := cmdBody x.1 x.2 t
      replyAfter t x.1 op y.2 (journalCounter t x.1 y.1)) { s with stalled := [] }

/-- Route requests that waited for the next second go (R237). -/
def discoverAll (s : State) : State := [0, 1, 2, 3].foldl (fun t n => plcDiscoverRun n t) s

/-- Radio acknowledgements go when they are due (R275). -/
def acksAll (s : State) : State := rfAcksDue 1 (rfAcksDue 0 s)

/-- Whatever waited and may go on goes on. -/
def settleAll (s : State) : State := acksAll (discoverAll (settleClears (runFenced (runStalled (runLate (drainDelayed s))))))

/-! ## Doorbell polling (R391 to R395) -/

/-- Commands fetched that have not completed (R394). -/
def fetchedOpen (s : State) : Nat :=
  s.host.sq.foldl (fun a p => a + p.2.inFlight + heldOfRing p.1 s) 0 + s.host.fenced.foldl (fun a p => a + p.2.length) 0

/-- May a command be fetched from a ring now: it is a COMMAND ring with work, fewer than 256 are open, and its completion ring has two
free slots; one that is not enabled holds nothing back (R390, R394)? -/
def mayFetch (n : Nat) (s : State) : Bool :=
  pciUp s && managed s && (sqOf s n).run && !bufferRing s n && (sqOf s n).prod != (sqOf s n).cons && decide (fetchedOpen s < 256)
    && match cqOpen s (boundCq s n) with
       | some c => decide (2 ≤ cqFree s (boundCq s n) c)
       | none => true

/-- One descriptor of a COMMAND ring: its entry passes back once it is copied (R392), and the command starts in ring order. -/
def fetchCmd (n : Nat) (d : CmdDesc) (s : State) : State :=
  let v := sqOf s n
  let s := count 0xE054 (emit (.sqCons n (v.cons + 1)) (setSq n { v with cons := v.cons + 1 } s))
  if !d.ok then
    let h : Hdr := { d.hdr with origin := .ring n none, tag := BitVec.ofNat 32 (Config.unstated 0x395 v.cons.toNat).toNat }
    cmdDone h 4 0 0 [] (startInFlight h s)
  else
    let h : Hdr := { d.hdr with origin := .ring n d.rx }
    let waits := s.host.fenced.getD n []
    if !waits.isEmpty || (d.fence && !ringClear n s) then
      setHost (fun x => { x with fenced := Kv.putOr [] n (waits ++ [(d.fence, h, d.cmd)]) x.fenced }) s
    else runCmd h d.cmd s

def fetchCmds (n : Nat) : List CmdDesc → State → State
  | [], s => s
  | d :: l, s => if mayFetch n s then fetchCmds n l (fetchCmd n d s) else s

/-- New buffers of a BUFFER ring; a frame that waits for one goes on. -/
def fetchBufs (n : Nat) (w : BitVec 16) (l : List BufDesc) (s : State) : State :=
  let v := sqOf s n
  let new := l.take ((w - v.cons).toNat - (v.prod - v.cons).toNat)
  let s := setSq n { v with bufs := v.bufs ++ new, prod := v.prod + BitVec.ofNat 16 new.length } s
  if (framesOf s n).isEmpty then s else runFrames n (frameFuel s n) s

/-- SQ_PROD of a ring as read (R393). -/
def pollSq (n : Nat) (w : BitVec 16) (s : State) : State :=
  let v := sqOf s n
  if !v.run then s
  else if ringSize (reg s (sqCfg n)) < (w - v.cons).toNat then ringFault false n false s
  else if bufferRing s n then s
  else setSq n { v with prod := w } s

/-- CQ_HEAD of a ring as read: entries that waited are written (R392, R393, R416). -/
def pollCq (n : Nat) (w : BitVec 16) (s : State) : State :=
  match Kv.get? n s.host.cq with
  | none => s
  | some c =>
    if ringSize (reg s (cqCfg n)) < (c.tail - w).toNat then ringFault true n false s
    else cqDrain n c.waiting.length (setCq n { c with head := w } s)

/-- New entries of a submission ring. -/
def pollFetch (n : Nat) (w : BitVec 16) (cmds : List CmdDesc) (bufs : List BufDesc) (s : State) : State :=
  if !(sqOf s n).run || !pciUp s then s
  else if bufferRing s n then fetchBufs n w bufs s
  else fetchCmds n cmds s

/-- POLL_FAST (R391): a change returns to it, IDLE_US without one leaves it. -/
def pollRate (words : List (BitVec 16)) (s : State) : State :=
  if words != s.host.db then setHost (fun h => { h with pollFast := true, changedAt := s.tim.raw, db := words }) s
  else if s.host.changedAt + 1000 * fieldOf s 0xE018 15 0 ≤ s.tim.raw then setHost (fun h => { h with pollFast := false }) s
  else s

/-- DOORBELL_POLL: the 64 words of the block, then the descriptors they point to, by ring from SQ_CONS on. -/
def doorbellPoll (words : List (BitVec 16)) (cmds : Kv (List CmdDesc)) (bufs : Kv (List BufDesc)) (s : State) : State :=
  if !pciUp s then s
  else
    let s := pollRate words s
    let s := (List.range 32).foldl (fun t n => pollSq n (words.getD n 0) t) s
    let s := (List.range 32).foldl (fun t n => pollCq n (words.getD (32 + n) 0) t) s
    let s := (List.range 32).foldl (fun t n => pollFetch n (words.getD n 0) (cmds.getD n []) (bufs.getD n []) t) s
    settleAll s

/-! ## Management over Ethernet (R413) -/

/-- MGMT_DATAGRAM_RX: a command body that arrived at MGMT_PORT. -/
def mgmtDatagram (port : Bool) (h : Hdr) (c : Cmd) (s : State) : State := runCmd { h with origin := .eth port } c s

/-! ## Idle time -/

/-- A command held by an aborted swap starts (R371). -/
def runDeferred (s : State) : State :=
  match s.deferred with
  | [] => s
  | (h, c) :: rest => runCmd h c { s with deferred := rest }

/-- Time passes: the raw counter, and the local clock while TIM runs, at the rate of its servo in ppb (R322, R332); and the timer
of the scheduled swap, which both units of a pair run once it is journalled (R372). -/
def advance (ns : Nat) (s : State) : State :=
  let step : Int := ns * 65536 + ns * 65536 * s.tim.rate / 1000000000
  let clk := if islRun s 16 then ((s.tim.clk : Int) + step).toNat else s.tim.clk
  setPair (fun p => { p with swapTimer := p.swapTimer.map (· + ns) }) (setTim (fun t => { t with raw := t.raw + ns, clk := clk }) s)

/-- A cycle of the 25 MHz reference with no command: 40 ns pass, and each port may send a frame (log entry 1). Without main supplies, and
in reset, nothing happens. -/
def tick (s : State) : State :=
  if !s.boot.mainSupply || s.boot.phase == .inReset then s else txNext true (txNext false (advance 40 s))

/-- What the block does when no command waits: a deferred command, or whatever may go on, and a cycle passes. -/
def idle (s : State) : State := tick (settleAll (runDeferred s))

end Sys2Proof.Machine
end

