-- ==== Sys2Proof/Machine/LinkRows.lean ====
section
/-!
DEFINITION. Sys2Proof/Machine/LinkRows.lean: the meaning of each command of its family: power line, radio, Ethernet, relay, network time and the pair (chapters 07 to 11).
-/
namespace Sys2Proof.Machine

/-- STANDBY_TABLE_COPY (R363): The active copies rule store, keys, table, trees, campaigns, PAN and radio state and hold area to a joining standby. -/
def execStandbyTableCopy (item : Nat) (ents : List JEntry) (s : State) : Host.Outcome State Fault Refusal :=
  .next (standbyTableCopy item ents s)

/-- COPY_COMPLETE (R363): The last copy item is done, the joiner enters STANDBY and records its archive gap. -/
def execCopyComplete (s : State) : Host.Outcome State Fault Refusal :=
  .next (copyComplete s)

/-- PLC_FRAME_RX (R242): A PLC frame is received with impulsive-noise erasure and is discarded or delivered and acknowledged. -/
def execPlcFrameRx (inst : Nat) (f : PlcFrame) (s : State) : Host.Outcome State Fault Refusal :=
  .next (plcFrameRx inst f s)

/-- PLC_ACK_TIMEOUT (R240): A unicast gets no acknowledgement and is retried one modulation level lower, or ends in transmit failure. -/
def execPlcAckTimeout (inst id : Nat) (s : State) : Host.Outcome State Fault Refusal :=
  .next (plcAckTimeout inst id s)

/-- ROUTE_TTL_EXPIRY (R237): A route unused for ROUTE_TTL_MIN minutes is dropped. -/
def execRouteTtlExpiry (inst dest : Nat) (s : State) : Host.Outcome State Fault Refusal :=
  .next (routeTtlExpiry inst dest s)

/-- ROUTE_WAIT_EXPIRY (R237): A frame queued 10 s for a destination without a route ends in transmit failure. -/
def execRouteWaitExpiry (inst id : Nat) (s : State) : Host.Outcome State Fault Refusal :=
  .next (routeWaitExpiry inst id s)

/-- REASSEMBLY_TIMEOUT (R244): A 6LoWPAN datagram not complete within 20 s is discarded and counted. -/
def execReassemblyTimeout (link src tag : Nat) (s : State) : Host.Outcome State Fault Refusal :=
  .next (reassemblyTimeout link src tag s)

/-- SHORT_HOLD_EXPIRY (R235): A short address whose endpoint is unheard for SHORT_HOLD hours and not ACTIVE is freed. -/
def execShortHoldExpiry (link short : Nat) (s : State) : Host.Outcome State Fault Refusal :=
  .next (shortHoldExpiry link short s)

/-- ZC_REPORT_SEND (R247): Once per ZC_REPORT_S an endpoint's latest zero-crossing offset is relayed to the head. -/
def execZcReportSend (inst short : Nat) (s : State) : Host.Outcome State Fault Refusal :=
  .next (zcReportSend inst short s)

/-- FP_REPORT_SEND (R249): Once per FP_REPORT_H an endpoint's fingerprint is relayed to the head. -/
def execFpReportSend (inst short : Nat) (s : State) : Host.Outcome State Fault Refusal :=
  .next (fpReportSend inst short s)

/-- ZC_EDGE (R245): A rising edge of PLCn_ZC is time-stamped and updates the measured mains period. -/
def execZcEdge (inst t : Nat) (s : State) : Host.Outcome State Fault Refusal :=
  .next (zcEdge inst t s)

/-- ZC_LOST (R245): No zero-crossing edge arrives for 100 ms, or the period leaves range, so ZC_LOST is set. -/
def execZcLost (inst : Nat) (s : State) : Host.Outcome State Fault Refusal :=
  .next (zcLostTimer inst s)

/-- LD_FAULT_FALL (R233): PLCn_LD_FAULT_N falls, so transmission stops and LD_FAULT is set. -/
def execLdFaultFall (inst : Nat) (s : State) : Host.Outcome State Fault Refusal :=
  .next (ldFaultFall inst s)

/-- LD_FAULT_RESUME (R233): 1 s after the fault pin returns high, the instance resumes transmitting. -/
def execLdFaultResume (inst : Nat) (s : State) : Host.Outcome State Fault Refusal :=
  .next (ldFaultResume inst s)

/-- RF_TIMESLOT (R266): At each slot start a transceiver transmits in one cell or runs each lane's receive cell. -/
def execRfTimeslot (rf : Nat) (s : State) : Host.Outcome State Fault Refusal :=
  .next (rfTimeslot rf s)

/-- RF_FRAME_RX (R276): A radio frame is filtered, security-checked and acknowledged or delivered, and drift is updated. -/
def execRfFrameRx (rf : Nat) (f : RfFrame) (s : State) : Host.Outcome State Fault Refusal :=
  .next (rfFrameRx rf f s)

/-- RF_SCAN (R282): A backhaul child scans for EBs, 5 s per lane group, and joins the chosen network. -/
def execRfScan (rf : Nat) (hits : List ScanHit) (s : State) : Host.Outcome State Fault Refusal :=
  .next (rfScan rf hits s)

/-- SLEEPY_QUEUE_EXPIRY (R273): A downlink frame queued 600 s for a sleepy endpoint ends in transmit failure. -/
def execSleepyQueueExpiry (rf id : Nat) (s : State) : Host.Outcome State Fault Refusal :=
  .next (sleepyExpiry rf id s)

/-- ETH_FRAME_RX (R297): A frame is checked for code errors, length, FCS, address and VLAN, and is buffered or dropped. -/
def execEthFrameRx (port : Bool) (f : EthFrame) (s : State) : Host.Outcome State Fault Refusal :=
  .next (ethFrameRx port f s)

/-- ETH_LINK_UP (R295): A port's link comes up full duplex, and an LLDPDU is sent at once. -/
def execEthLinkUp (port : Bool) (speed : Nat) (half eee : Bool) (s : State) : Host.Outcome State Fault Refusal :=
  .next (linkUp port speed half eee s)

/-- ETH_LINK_DOWN (R301): A port's link goes down, the transmit buffer is discarded and the path is down. -/
def execEthLinkDown (port : Bool) (s : State) : Host.Outcome State Fault Refusal :=
  .next (linkDown port s)

/-- TX_BUFFER_WAIT_EXPIRY (R301): A frame that waits 10 ms for transmit buffer space is discarded. -/
def execTxBufferWaitExpiry (port : Bool) (s : State) : Host.Outcome State Fault Refusal :=
  .next (txWaitExpiry port s)

/-- LLDP_SEND (R302): Every LLDP_S seconds the port sends an LLDPDU. -/
def execLldpSend (port : Bool) (s : State) : Host.Outcome State Fault Refusal :=
  .next (lldpSend port s)

/-- LPI_IDLE_ENTRY (R303): The transmit buffer is empty for LPI_IDLE_US, and the port enters LPI. -/
def execLpiIdleEntry (port : Bool) (s : State) : Host.Outcome State Fault Refusal :=
  .next (lpiEntry port s)

/-- RELAY_FRAME_RX (R309): A relay frame is format-checked, authenticated and judged for freshness, then accepted or discarded. -/
def execRelayFrameRx (src : RelaySrc) (f : RelayFrame) (s : State) : Host.Outcome State Fault Refusal :=
  .next (relayFrameRx src f s)

/-- RELAY_PAUSE_HOLD_EXPIRY (R314): HOLD_MS passes after a PAUSE, and the sender may send again. -/
def execRelayPauseHoldExpiry (port : Bool) (s : State) : Host.Outcome State Fault Refusal :=
  .next (pauseHoldExpiry port s)

/-- RELAY_BATCH_CLOSE (R313): A batch closes when full, at 255 entries, or BATCH_US after its first entry, and is sent. -/
def execRelayBatchClose (to_ : BitVec 12) (port : Bool) (s : State) : Host.Outcome State Fault Refusal :=
  .next (closeBatch to_ port s)

/-- RELAY_ACK_TIMEOUT (R313): A batch unacknowledged after ACK_MS is resent with a new SEQ, and the path goes down after RETRIES. -/
def execRelayAckTimeout (id : Nat) (port : Bool) (s : State) : Host.Outcome State Fault Refusal :=
  .next (ackTimeout id port s)

/-- RELAY_BATCH_ACK (R313): Once every entry of a batch has its result, the receiver sends the ACK. -/
def execRelayBatchAck (sender : BitVec 12) (seq : W32) (s : State) : Host.Outcome State Fault Refusal :=
  .next (batchAck sender seq s)

/-- SPOOL_DRAIN (R316): When the uplink is up again, the spool is sent in order before newer entries. -/
def execSpoolDrain (s : State) : Host.Outcome State Fault Refusal :=
  .next (spoolDrain s)

/-- PTP_MESSAGE_RX (R335): A PTP message is received, and offsets, delay and Announce data are taken from it. -/
def execPtpMessageRx (port : Bool) (m : PtpMsg) (s : State) : Host.Outcome State Fault Refusal :=
  .next (ptpMessageRx port m s)

/-- PTP_MESSAGE_SEND (R336): A MASTER port sends Sync, Announce and other messages at the profile's intervals. -/
def execPtpMessageSend (port : Bool) (kind : PtpSend) (s : State) : Host.Outcome State Fault Refusal :=
  .next (ptpMessageSend port kind s)

/-- SOURCE_TIMEOUT (R329): A source gives no valid offset for three intervals, so it stops being available and the next source or holdover takes over. -/
def execSourceTimeout (code : Nat) (s : State) : Host.Outcome State Fault Refusal :=
  .next (sourceTimeout code s)

/-- TIME_WORD (R340): Every millisecond TIM sends each island the local time and rate. -/
def execTimeWord (s : State) : Host.Outcome State Fault Refusal :=
  .next (timeWord s)

/-- TIME_WORD_LOSS (R340): An island missing three time words marks its time-stamps invalid and counts in TIM_DIST_LOST. -/
def execTimeWordLoss (isl : Nat) (s : State) : Host.Outcome State Fault Refusal :=
  .next (timeWordLoss isl s)

/-- RTC_WRITE (R331): Once per second after the first step, TIM writes the local seconds into the BKP real-time counter. -/
def execRtcWrite (s : State) : Host.Outcome State Fault Refusal :=
  .next (rtcWrite s)

/-- LEAP_SECOND (R325): At the end of the announced UTC day the UTC offset changes by one second. -/
def execLeapSecond (s : State) : Host.Outcome State Fault Refusal :=
  .next (leapSecond s)

/-- HEARTBEAT_SEND (R364): Every HB_PRL_US on PRL and every HB_ETH_MS on Ethernet a heartbeat is sent. -/
def execHeartbeatSend (path : Nat) (s : State) : Host.Outcome State Fault Refusal :=
  .next (heartbeatSend path s)

/-- HEARTBEAT_RX (R365): A heartbeat is accepted or discarded, and may decide a takeover, a fence or the end of a split. -/
def execHeartbeatRx (path : Nat) (hb : Heartbeat) (s : State) : Host.Outcome State Fault Refusal :=
  .next (settleAll (heartbeatRx path hb s))

/-- HEARTBEAT_PATH_LOST (R364): HB_MISS intervals pass without a valid heartbeat, and the path is lost. -/
def execHeartbeatPathLost (path : Nat) (s : State) : Host.Outcome State Fault Refusal :=
  .next (settleAll (heartbeatPathLost path s))

/-- PRL_LOSS_OF_SIGNAL (R366): The pair link loses signal, which may lead to a takeover or standby loss. -/
def execPrlLossOfSignal (s : State) : Host.Outcome State Fault Refusal :=
  .next (settleAll (prlLossOfSignal s))

/-- ACT_IN_QUIET (R351): ACT_QUIET passes without an ACT_IN edge, and a unit without the grant decides a takeover. -/
def execActInQuiet (s : State) : Host.Outcome State Fault Refusal :=
  .next (actInQuiet s)

/-- ACT_IN_EDGE (R351): An edge on ACT_IN makes it live, and may settle a simultaneous start. -/
def execActInEdge (s : State) : Host.Outcome State Fault Refusal :=
  .next (actInEdge s)

/-- CLAIM_FLASH_WRITTEN (R358): The claim reaches the boot flash, after which relay frames, notices and postings may be sent. -/
def execClaimFlashWritten (s : State) : Host.Outcome State Fault Refusal :=
  .next (claimFlashWritten s)

/-- PAIR_WATCHDOG_EXPIRY (R353): The pair watchdog is not refreshed for 20 ms, so ACT_OUT stops and the unit enters FENCED. -/
def execPairWatchdogExpiry (s : State) : Host.Outcome State Fault Refusal :=
  .next (pairWatchdog s)

/-- SEEK_WAIT_EXPIRY (R357): No partner heartbeat is heard for WAIT_S, and the unit takes the grant as ACTIVE_ALONE. -/
def execSeekWaitExpiry (s : State) : Host.Outcome State Fault Refusal :=
  .next (seekWaitExpiry s)

/-- FENCED_EXPIRY (R355): A FENCED unit returns to SEEKING after 1 s. -/
def execFencedExpiry (s : State) : Host.Outcome State Fault Refusal :=
  .next (fencedExpiry s)

/-- JOURNAL_BATCH_CLOSE (R360): A journal batch closes JOURNAL_US after its first entry or at 64 KiB and is sent over PRL. -/
def execJournalBatchClose (s : State) : Host.Outcome State Fault Refusal :=
  .next (journalBatchClose s)

/-- JOURNAL_BATCH_RX (R360): The standby applies journal batches in order and acknowledges each one. -/
def execJournalBatchRx (num mark : Nat) (formOk : Bool) (ents : List JEntry) (s : State) : Host.Outcome State Fault Refusal :=
  .next (journalBatchRx num mark formOk ents s)

/-- JOURNAL_ACK_RX (R360): The active receives a journal acknowledgement, which releases the waiting commits and postings. -/
def execJournalAckRx (num : Nat) (s : State) : Host.Outcome State Fault Refusal :=
  .next (settleAll (journalAckRx num s))

/-- JACK_TIMEOUT (R360): A batch unacknowledged within JACK_MS is resent once, and the standby is lost after a second timeout. -/
def execJackTimeout (num : Nat) (s : State) : Host.Outcome State Fault Refusal :=
  .next (settleAll (jackTimeout num s))

/-- SWAP_HANDOVER (R371): The drain ends and the journal is acknowledged, so the active sends HANDOFF, stops ACT_OUT and enters STANDBY. -/
def execSwapHandover (s : State) : Host.Outcome State Fault Refusal :=
  .next (swapHandover s)

/-- SWAP_DRAIN_EXPIRY (R371): DRAIN_MS passes before the drain is done, and the swap is aborted. -/
def execSwapDrainExpiry (s : State) : Host.Outcome State Fault Refusal :=
  .next (swapDrainExpiry s)

/-- SCHEDULED_SWAP_DUE (R372): SWAP_H hours pass since the last good swap, and a swap starts or is retried hourly. -/
def execScheduledSwapDue (s : State) : Host.Outcome State Fault Refusal :=
  .next (scheduledSwapDue s)

/-- PROOF_EXPIRY (R373): PROVE_S or PROVE_MAX_S ends, and the swap counts good or unproven. -/
def execProofExpiry (last : Bool) (s : State) : Host.Outcome State Fault Refusal :=
  .next (proofExpiry last s)

/-- LD_FAULT_PIN_RISE (R233): PLCn_LD_FAULT_N returns high, which starts the 1 s wait before the instance may transmit again. -/
def execLdFaultPinRise (inst : Nat) (s : State) : Host.Outcome State Fault Refusal :=
  .next (ldFaultRise inst s)

/-- PARTNER_EEE_TLV_EXPIRY (R303): The TTL of the partner's last EEE TLV runs out, so the port no longer holds a valid partner TLV and may not enter LPI. -/
def execPartnerEeeTlvExpiry (port : Bool) (s : State) : Host.Outcome State Fault Refusal :=
  .next (tlvExpiry port s)

end Sys2Proof.Machine
end

