-- ==== Sys2Proof/Machine/ManagementRows.lean ====
section
/-!
DEFINITION. Sys2Proof/Machine/ManagementRows.lean: the meaning of each command of its family: the management commands (R407, R444, R499): each passes the checks of R410 to R413 and then does what its chapter says.
-/
namespace Sys2Proof.Machine

/-- REG_READ (R407): Management command that reads 1 to 256 consecutive set-up register words. -/
def execRegRead (h : Hdr) (off count : Nat) (s : State) : Host.Outcome State Fault Refusal :=
  .next (command h (.regRead off count) (regRead off count) s)

/-- REG_WRITE_AU (R414): Authenticated command that writes VALUE under MASK to the AU fields of one register. -/
def execRegWriteAu (h : Hdr) (off : Nat) (mask value : W32) (s : State) : Host.Outcome State Fault Refusal :=
  .next (command h (.regWriteAu off mask value) (regWriteAu off mask value) s)

/-- KEY_LOAD (R409): Authenticated command that unwraps a key and loads it, with PERMS, into an authority key slot. -/
def execKeyLoad (h : Hdr) (slot : Byte) (perms : BitVec 16) (key : Wrapped) (s : State) : Host.Outcome State Fault Refusal :=
  .next (command h (.keyLoad slot perms key) (keyLoad h slot perms key) s)

/-- KEY_CLEAR (R409): Authenticated command that empties an authority key slot. -/
def execKeyClear (h : Hdr) (slot : Byte) (s : State) : Host.Outcome State Fault Refusal :=
  .next (command h (.keyClear slot) (keyClear h slot) s)

/-- KEY_READ (R409): Command that returns a slot's loaded flag, PERMS, last counter and check value. -/
def execKeyRead (h : Hdr) (slot : Byte) (s : State) : Host.Outcome State Fault Refusal :=
  .next (command h (.keyRead slot) (keyRead slot) s)

/-- SEC_ZEROISE (R415): Authenticated command that zeroises every key SEC holds, at level 1 or level 2. -/
def execSecZeroise (h : Hdr) (level : Nat) (s : State) : Host.Outcome State Fault Refusal :=
  .next (command h (.secZeroise level) (secZeroise level) s)

/-- TBL_READ (R74): Command that returns one meter record by slot number. -/
def execTblRead (h : Hdr) (slot : Nat) (s : State) : Host.Outcome State Fault Refusal :=
  .next (command h (.tblRead slot) (tblRead slot) s)

/-- TBL_FIND (R74): Command that returns one meter record by system title. -/
def execTblFind (h : Hdr) (title : W64) (s : State) : Host.Outcome State Fault Refusal :=
  .next (command h (.tblFind title) (tblFind title) s)

/-- TBL_DUMP (R74): Command that returns the records of a slot range in slot order. -/
def execTblDump (h : Hdr) (first count : Nat) (s : State) : Host.Outcome State Fault Refusal :=
  .next (command h (.tblDump first count) (tblDump first count) s)

/-- TBL_WRITE (R76): Command that writes the W fields of one record under BYTE_MASK and an expected RECORD_SEQ. -/
def execTblWrite (h : Hdr) (slot : Nat) (expect : W32) (mask : BitVec 256) (image : RecImg) (s : State) : Host.Outcome State Fault Refusal :=
  .next (command h (.tblWrite slot expect mask image) (tblWrite slot expect mask image) s)

/-- TBL_PROVISION (R77): Authenticated command that creates a new meter record in the lowest FREE slot. -/
def execTblProvision (h : Hdr) (title : W64) (gen window : Byte) (ruleSet : BitVec 16) (service : BitVec 12) (ek ak : Wrapped) (s : State) : Host.Outcome State Fault Refusal :=
  .next (command h (.tblProvision title gen window ruleSet service ek ak) (tblProvision h title gen window ruleSet service ek ak) s)

/-- TBL_KEY_STAGE (R69): Authenticated command that stages pending keys and rewraps the current keys under the newest TKEK. -/
def execTblKeyStage (h : Hdr) (slot : Nat) (gen : Byte) (ek ak : Wrapped) (s : State) : Host.Outcome State Fault Refusal :=
  .next (command h (.tblKeyStage slot gen ek ak) (tblKeyStage h slot gen ek ak) s)

/-- TBL_RETIRE (R65): Authenticated command that retires a meter, deletes its index entry and starts RETIRE_HOLD. -/
def execTblRetire (h : Hdr) (slot : Nat) (s : State) : Host.Outcome State Fault Refusal :=
  .next (command h (.tblRetire slot) (tblRetire slot) s)

/-- TBL_SET (R57): Authenticated command that writes the A fields of one record, including the allowed STATE changes. -/
def execTblSet (h : Hdr) (slot : Nat) (expect : W32) (mask : BitVec 256) (image : RecImg) (s : State) : Host.Outcome State Fault Refusal :=
  .next (command h (.tblSet slot expect mask image) (tblSet slot expect mask image) s)

/-- KEY_SIGNER_LOAD (R94): Authenticated command that loads or clears a meter's public key in the signer store. -/
def execKeySignerLoad (h : Hdr) (slot curve : Nat) (key : BitVec 768) (s : State) : Host.Outcome State Fault Refusal :=
  .next (command h (.keySignerLoad slot curve key) (keySignerLoad slot curve key) s)

/-- RULE_LOAD (R143): Authenticated command that checks a rule program image and writes it to the shadow bank of its set. -/
def execRuleLoad (h : Hdr) (image : List Byte) (s : State) : Host.Outcome State Fault Refusal :=
  .next (command h (.ruleLoad image) (ruleLoad image) s)

/-- RULE_ACTIVATE (R144): Authenticated command that swaps the shadow and active banks of up to 16 sets through activation marks. -/
def execRuleActivate (h : Hdr) (sets : List Nat) (s : State) : Host.Outcome State Fault Refusal :=
  .next (command h (.ruleActivate sets) (ruleMark h sets false) s)

/-- RULE_REMOVE (R144): Authenticated command that clears the active banks of up to 16 sets through removal marks. -/
def execRuleRemove (h : Hdr) (sets : List Nat) (s : State) : Host.Outcome State Fault Refusal :=
  .next (command h (.ruleRemove sets) (ruleMark h sets true) s)

/-- RULE_READ (R146): Command that returns both images of a rule set with its version, WCC and row counts. -/
def execRuleRead (h : Hdr) (set : Nat) (s : State) : Host.Outcome State Fault Refusal :=
  .next (command h (.ruleRead set) (ruleRead set) s)

/-- TOPO_LOAD (R155): Authenticated command that checks node records and writes them into the shadow tree bank. -/
def execTopoLoad (h : Hdr) (nodes : List Node) (s : State) : Host.Outcome State Fault Refusal :=
  .next (command h (.topoLoad nodes) (topoLoad nodes) s)

/-- TOPO_ACTIVATE (R155): Authenticated command that checks the whole shadow tree and makes it active at the next balance run start. -/
def execTopoActivate (h : Hdr) (s : State) : Host.Outcome State Fault Refusal :=
  .next (command h .topoActivate (topoActivate h) s)

/-- TOPO_READ (R155): Command that returns node records from either tree bank. -/
def execTopoRead (h : Hdr) (bank first count : Nat) (s : State) : Host.Outcome State Fault Refusal :=
  .next (command h (.topoRead bank first count) (topoRead bank first count) s)

/-- BAL_NODE_READ (R186): Command that returns a node's last result record and its accumulators. -/
def execBalNodeRead (h : Hdr) (node : Nat) (s : State) : Host.Outcome State Fault Refusal :=
  .next (command h (.balNodeRead node) (balNodeRead node) s)

/-- BAL_METER_READ (R186): Command that returns a meter's exact score, method results and coverage. -/
def execBalMeterRead (h : Hdr) (slot : Nat) (s : State) : Host.Outcome State Fault Refusal :=
  .next (command h (.balMeterRead slot) (balMeterRead slot) s)

/-- BAL_RESET_SCORES (R181): Authenticated command that zeroes the scores of a list of slots or nodes. -/
def execBalResetScores (h : Hdr) (kind : Nat) (ids : List Nat) (s : State) : Host.Outcome State Fault Refusal :=
  .next (command h (.balResetScores kind ids) (balResetScores kind ids) s)

/-- CAMP_CREATE (R223): Authenticated command that takes the lowest free campaign slot with a checked manifest, in state DRAFT. -/
def execCampCreate (h : Hdr) (m : Manifest) (s : State) : Host.Outcome State Fault Refusal :=
  .next (command h (.campCreate m) (campCreate m) s)

/-- CAMP_DATA (R223): Command that writes a range of a DRAFT campaign's image. -/
def execCampData (h : Hdr) (slot off : Nat) (data : List Byte) (s : State) : Host.Outcome State Fault Refusal :=
  .next (command h (.campData slot off data) (campData slot off data) s)

/-- CAMP_SEAL (R223): Authenticated command that builds the segment table, checks both digests and moves the campaign to READY. -/
def execCampSeal (h : Hdr) (slot : Nat) (s : State) : Host.Outcome State Fault Refusal :=
  .next (command h (.campSeal slot) (campSeal slot) s)

/-- CAMP_ADD_MEMBERS (R216): Authenticated command that adds slots to a campaign as PENDING members and sets their CAMPAIGNS bits. -/
def execCampAddMembers (h : Hdr) (slot : Nat) (slots : List Nat) (s : State) : Host.Outcome State Fault Refusal :=
  .next (command h (.campAddMembers slot slots) (campAddMembers slot slots) s)

/-- CAMP_REMOVE_MEMBERS (R216): Authenticated command that deletes members' records and clears their CAMPAIGNS bits. -/
def execCampRemoveMembers (h : Hdr) (slot : Nat) (slots : List Nat) (s : State) : Host.Outcome State Fault Refusal :=
  .next (command h (.campRemoveMembers slot slots) (campRemoveMembers slot slots) s)

/-- CAMP_START (R200): Authenticated command that moves a READY or PAUSED campaign to RUNNING. -/
def execCampStart (h : Hdr) (slot : Nat) (s : State) : Host.Outcome State Fault Refusal :=
  .next (command h (.campStart slot) (campStart slot) s)

/-- CAMP_PAUSE (R200): Authenticated command that moves a RUNNING campaign to PAUSED. -/
def execCampPause (h : Hdr) (slot : Nat) (s : State) : Host.Outcome State Fault Refusal :=
  .next (command h (.campPause slot) (campPause slot) s)

/-- CAMP_CANCEL (R201): Authenticated command that frees a DRAFT to PAUSED campaign slot and deletes its image and members. -/
def execCampCancel (h : Hdr) (slot : Nat) (s : State) : Host.Outcome State Fault Refusal :=
  .next (command h (.campCancel slot) (campCancel slot) s)

/-- CAMP_CLOSE (R201): Authenticated command that frees an ACTIVATED or REVERTED campaign slot. -/
def execCampClose (h : Hdr) (slot : Nat) (s : State) : Host.Outcome State Fault Refusal :=
  .next (command h (.campClose slot) (campClose slot) s)

/-- CAMP_ACTIVATE (R220): Authenticated command that checks a signed activation record and moves the campaign to ACTIVATING. -/
def execCampActivate (h : Hdr) (slot : Nat) (r : ActRec) (s : State) : Host.Outcome State Fault Refusal :=
  .next (command h (.campActivate slot r) (campActivate slot r) s)

/-- CAMP_ROLLBACK (R221): Authenticated command that checks a signed rollback record and moves the campaign to ROLLING_BACK. -/
def execCampRollback (h : Hdr) (slot : Nat) (r : ActRec) (s : State) : Host.Outcome State Fault Refusal :=
  .next (command h (.campRollback slot r) (campRollback slot r) s)

/-- CAMP_READ (R223): Command that returns a campaign's state, manifest, member counts and pass times. -/
def execCampRead (h : Hdr) (slot : Nat) (s : State) : Host.Outcome State Fault Refusal :=
  .next (command h (.campRead slot) (campRead slot) s)

/-- CAMP_MEMBER_READ (R223): Command that returns the member records of a slot range. -/
def execCampMemberRead (h : Hdr) (slot first count : Nat) (s : State) : Host.Outcome State Fault Refusal :=
  .next (command h (.campMemberRead slot first count) (campMemberRead slot first count) s)

/-- PLC_GMK_ROTATE (R234): Authenticated command that replaces a PAN's group master key by key-index switching. -/
def execPlcGmkRotate (h : Hdr) (inst : Nat) (s : State) : Host.Outcome State Fault Refusal :=
  .next (command h (.plcGmkRotate inst) (plcGmkRotate inst) s)

/-- PLC_KICK (R235): Authenticated command that sends an LBP kick and frees the endpoint's short address. -/
def execPlcKick (h : Hdr) (inst short : Nat) (s : State) : Host.Outcome State Fault Refusal :=
  .next (command h (.plcKick inst short) (plcKick inst short) s)

/-- RF_KEY_ROTATE (R272): Authenticated command that replaces a transceiver's network MAC key by key-index switching. -/
def execRfKeyRotate (h : Hdr) (rf : Nat) (s : State) : Host.Outcome State Fault Refusal :=
  .next (command h (.rfKeyRotate rf) (rfKeyRotate rf) s)

/-- TIM_STEP (R333): Authenticated command that steps the local clock by the last offset (MODE 0) or to a given time (MODE 1). -/
def execTimStep (h : Hdr) (mode sec ns : Nat) (s : State) : Host.Outcome State Fault Refusal :=
  .next (command h (.timStep mode sec ns) (timStep mode sec ns) s)

/-- PAIR_READ (R383): Command that returns PRL_STATUS, both claims and the partner's last heartbeat on each path. -/
def execPairRead (h : Hdr) (s : State) : Host.Outcome State Fault Refusal :=
  .next (command h .pairRead pairRead s)

/-- PAIR_SWAP (R372): Authenticated command that starts an orderly swap to a READY standby. -/
def execPairSwap (h : Hdr) (s : State) : Host.Outcome State Fault Refusal :=
  .next (command h .pairSwap pairSwap s)

/-- PAIR_CLEAR (R383): Authenticated command that clears PROOF_FAILED and INTERLOCK_FAULT. -/
def execPairClear (h : Hdr) (s : State) : Host.Outcome State Fault Refusal :=
  .next (command h .pairClear pairClear s)

/-- ARCH_INFO (R444): Command that returns store status, block counts, sequence numbers, thermal age and missing ranges. -/
def execArchInfo (h : Hdr) (s : State) : Host.Outcome State Fault Refusal :=
  .next (command h .archInfo archInfo s)

/-- ARCH_READ (R444): Command that returns archived reading records in ARCHIVE_SEQ order. -/
def execArchRead (h : Hdr) (first : W64) (count : Nat) (media : List Media) (s : State) : Host.Outcome State Fault Refusal :=
  .next (command h (.archRead first count media) (archRead first count media) s)

/-- ARCH_FIND_TIME (R444): Command that returns the first ARCHIVE_SEQ of the earliest block whose first record is at or after a time. -/
def execArchFindTime (h : Hdr) (t : W64) (s : State) : Host.Outcome State Fault Refusal :=
  .next (command h (.archFindTime t) (archFindTime t) s)

/-- ARCH_TRIM (R442): Authenticated command that frees whole READINGS blocks whose records all lie below UPTO_SEQ. -/
def execArchTrim (h : Hdr) (upto : W64) (s : State) : Host.Outcome State Fault Refusal :=
  .next (command h (.archTrim upto) (archTrim upto) s)

/-- ARCH_OVF_READ (R441): Command that returns records from the oldest end of the overflow ring. -/
def execArchOvfRead (h : Hdr) (count : Nat) (s : State) : Host.Outcome State Fault Refusal :=
  .next (command h (.archOvfRead count) (archOvfRead count) s)

/-- ARCH_OVF_RELEASE (R441): Command that frees overflow ring records below UPTO_SEQ. -/
def execArchOvfRelease (h : Hdr) (upto : W64) (s : State) : Host.Outcome State Fault Refusal :=
  .next (command h (.archOvfRelease upto) (archOvfRelease upto) s)

/-- ARCH_HOST_WRITE (R444): Command that writes one to three HOST sectors, or staging window sectors. -/
def execArchHostWrite (h : Hdr) (sector : Nat) (data : List (List Byte)) (s : State) : Host.Outcome State Fault Refusal :=
  .next (command h (.archHostWrite sector data) (archHostWrite sector data) s)

/-- ARCH_HOST_READ (R444): Command that returns HOST or staging window sectors. -/
def execArchHostRead (h : Hdr) (sector count : Nat) (media : List Media) (s : State) : Host.Outcome State Fault Refusal :=
  .next (command h (.archHostRead sector count media) (archHostRead sector count media) s)

/-- ARCH_FORMAT (R444): Authenticated command that erases every good block, lays out the zones and restarts ARCHIVE_SEQ at 0. -/
def execArchFormat (h : Hdr) (confirm : W32) (s : State) : Host.Outcome State Fault Refusal :=
  .next (command h (.archFormat confirm) (archFormat h confirm) s)

/-- EVT_READ (R496): Command that returns a snapshot of event records from FROM_SEQ up to HIGH. -/
def execEvtRead (h : Hdr) (from_ : W64) (count : Nat) (s : State) : Host.Outcome State Fault Refusal :=
  .next (command h (.evtRead from_ count) (evtRead from_ count) s)

/-- EVT_CLEAR (R497): Authenticated command that empties the on-chip event ring and writes EVT_CLEARED as the first record. -/
def execEvtClear (h : Hdr) (s : State) : Host.Outcome State Fault Refusal :=
  .next (command h .evtClear (evtClear h) s)

/-- MON_READ (R499): Command that latches and returns the configuration and results of a range of monitor channels. -/
def execMonRead (h : Hdr) (first n : Nat) (s : State) : Host.Outcome State Fault Refusal :=
  .next (command h (.monRead first n) (monRead first n) s)

/-- MON_RESET (R499): Command that clears the results of the monitor channels named by a mask. -/
def execMonReset (h : Hdr) (lo hi : W32) (s : State) : Host.Outcome State Fault Refusal :=
  .next (command h (.monReset lo hi) (monReset lo hi) s)

/-- Q_READ (R499): Command that returns the latched registers of a range of queues. -/
def execQRead (h : Hdr) (first n : Nat) (s : State) : Host.Outcome State Fault Refusal :=
  .next (command h (.qRead first n) (qRead first n) s)

/-- MGMT_DATAGRAM_RX (R413): A UDP command body arrives at MGMT_PORT, is rate-limited, checked and answered with response datagrams. -/
def execMgmtDatagramRx (port : Bool) (h : Hdr) (c : Cmd) (s : State) : Host.Outcome State Fault Refusal :=
  .next (mgmtDatagram port h c s)

end Sys2Proof.Machine
end

