-- ==== Sys2Proof/Machine/PipelineRows.lean ====
section
/-!
DEFINITION. Sys2Proof/Machine/PipelineRows.lean: the meaning of each command of its family: the reading pipeline, the meter table, rules, balance and campaigns (chapters 02 to 06).
-/
namespace Sys2Proof.Machine

/-- ACTIVATION_MARK_PASS (R144): An activation or removal mark passes stage 7 in a cluster once every earlier row has finished stage 7, and the cluster's banks are swapped. -/
def execActivationMarkPass (cluster : Nat) (s : State) : Host.Outcome State Fault Refusal :=
  .next (markPass cluster s)

/-- IDLE_ITEM_WRITE (R477): A producer writes an idle item after 2 µs without writing mid-packet, or when it has no more work. -/
def execIdleItemWrite (queue : Nat) (s : State) : Host.Outcome State Fault Refusal :=
  .next (idleItem queue s)

/-- READING_DISPATCH (R85): The dispatcher takes one whole packet from a non-empty intake queue, takes a token, walks the index and sends the reading to its cluster. -/
def execReadingDispatch (s : State) : Host.Outcome State Fault Refusal :=
  .next (readingDispatch s)

/-- READING_VERIFY (R95): A cluster runs parse and lookup, key unwrap, and verify and decrypt, with the pending-key retry and the head signature check. -/
def execReadingVerify (id : Nat) (s : State) : Host.Outcome State Fault Refusal :=
  .next (readingVerify id s)

/-- COUNTER_CHECK (R99): Once the meter's previous reading is done, stage 5 applies the replay rules, then decode, rules and alignment run. -/
def execCounterCheck (id : Nat) (s : State) : Host.Outcome State Fault Refusal :=
  .next (settleAll (counterCheck id s))

/-- READING_POSTING (R108): Once the standby acknowledges the journal batch, the posting is queued to a host ring or relay, and the token is returned. -/
def execReadingPosting (id : Nat) (s : State) : Host.Outcome State Fault Refusal :=
  .next (readingPosting id s)

/-- TOKEN_RETURN (R88): A RETURNING token is added back to the pool as FREE. -/
def execTokenReturn (s : State) : Host.Outcome State Fault Refusal :=
  .next (tokenReturn s)

/-- SESSION_EXPIRY (R92): A dedicated-key association ends at the end of its poll or 60 s after it opened. -/
def execSessionExpiry (k : Nat) (s : State) : Host.Outcome State Fault Refusal :=
  .next (sessionExpiry k s)

/-- POLL_ISSUE (R520): A poll entry's period comes round, and the poller issues its GET to each ACTIVE meter, spread over the period. -/
def execPollIssue (entry slot : Nat) (s : State) : Host.Outcome State Fault Refusal :=
  .next (pollIssue entry slot s)

/-- FETCH_RETRY (R59): An outstanding fetch is repeated every 500 ms, up to four attempts, then the title is treated as unknown. -/
def execFetchRetry (title : W64) (s : State) : Host.Outcome State Fault Refusal :=
  .next (fetchRetry title s)

/-- MOVE_RELEASE_QUEUE (R61): After the journal acknowledges a move, the head queues a release to the old unit and the record to the new unit. -/
def execMoveReleaseQueue (s : State) : Host.Outcome State Fault Refusal :=
  .next (moveRelease s)

/-- RETIRE_HOLD_EXPIRY (R65): RETIRE_HOLD ends and no token holds the slot, so the slot becomes FREE and its signer entry is cleared. -/
def execRetireHoldExpiry (slot : Nat) (s : State) : Host.Outcome State Fault Refusal :=
  .next (retireHoldExpiry slot s)

/-- AGE_CHECK (R67): Once an hour a FIELD unit retires ACTIVE records not heard for AGE_LIMIT hours. -/
def execAgeCheck (s : State) : Host.Outcome State Fault Refusal :=
  .next (ageCheck s)

/-- BALANCE_INTERVAL_CLOSE (R158): A balance interval closes, which starts the run for interval j − LAG or skips it. -/
def execBalanceIntervalClose (s : State) : Host.Outcome State Fault Refusal :=
  .next (intervalClose s)

/-- BALANCE_RUN (R159): A run computes meter energy, loss, residuals, localisation walks, phases and scores, and journals the changes. -/
def execBalanceRun (s : State) : Host.Outcome State Fault Refusal :=
  .next (balanceRun s)

/-- BALANCE_REPORT_POST (R182): After the standby acknowledges the run, node results, notices and the summary are posted and RUN_SEQ advances. -/
def execBalanceReportPost (s : State) : Host.Outcome State Fault Refusal :=
  .next (balanceReport s)

/-- CAMPAIGN_FRAME_SEND (R218): At the pace of PLC_BPS or RF_BPS a link sends the next manifest, coded block, progress request or activation record. -/
def execCampaignFrameSend (link : Nat) (s : State) : Host.Outcome State Fault Refusal :=
  .next (campaignFrameSend link s)

/-- REPAIR_ROUND (R219): After ROUND_WAIT the unit requests progress and broadcasts or unicasts repair blocks per generation. -/
def execRepairRound (link slot : Nat) (s : State) : Host.Outcome State Fault Refusal :=
  .next (repairRound link slot s)

/-- ACTIVATION_BROADCAST (R220): Every 60 s until ACT_TIME + LATE_S, the activation or rollback record is broadcast on each instance. -/
def execActivationBroadcast (link slot : Nat) (s : State) : Host.Outcome State Fault Refusal :=
  .next (activationBroadcast link slot s)

/-- ACT_TIME_LATE_EXPIRY (R200): ACT_TIME + LATE_S passes, so the campaign becomes ACTIVATED or REVERTED and laggard members become MISSED. -/
def execActTimeLateExpiry (slot : Nat) (s : State) : Host.Outcome State Fault Refusal :=
  .next (lateExpiry slot s)

/-- CAMPAIGN_CHECKPOINT (R225): Every CKPT_S seconds a HEAD unit writes all campaign and member state to the archive. -/
def execCampaignCheckpoint (s : State) : Host.Outcome State Fault Refusal :=
  .next (campaignCheckpoint s)

end Sys2Proof.Machine
end

