-- ==== Sys2Proof/Machine/RegisterRows.lean ====
section
/-!
DEFINITION. Sys2Proof/Machine/RegisterRows.lean: the meaning of each command of its family: plain register accesses, AU writes that start something, rings and PCIe (chapters 12, 16, 17).
-/
namespace Sys2Proof.Machine

/-- REGISTER_WRITE (R13): A plain write to a register with no behaviour of its own stores RW fields, and discards locked LK and AU fields with counting and an event. -/
def execRegisterWrite (off : Nat) (v : W32) (whole : Bool) (s : State) : Host.Outcome State Fault Refusal :=
  .next (settleAll (barWrite off v whole s))

/-- W1C_WRITE (R12): A write of 1 to a W1C bit clears that bit. -/
def execW1cWrite (off : Nat) (v : W32) (s : State) : Host.Outcome State Fault Refusal :=
  .next (barWrite off v true s)

/-- TIM_NOW_NS_READ (R326): A read of TIM_NOW_NS latches the seconds and fraction registers at the same instant. -/
def execTimNowNsRead (p : Path) (s : State) : Host.Outcome State Fault Refusal :=
  .next (readAlone p 0x10020 s)

/-- SEQ_PAIR_LO_READ (R540): A read of FLS_DURABLE_SEQ_LO, EVT_LAST_SEQ_LO or EVT_OLDEST_SEQ_LO latches the matching high word. -/
def execSeqPairLoRead (p : Path) (off : Nat) (s : State) : Host.Outcome State Fault Refusal :=
  .next (if off = 0x4018 || off = 0x16008 || off = 0x16010 then readAlone p off s else s)

/-- MEA_PQ_SECOND_READ (R469): A read of MEA_PQ_SECOND latches the head's whole PQ register block for one second. -/
def execMeaPqSecondRead (p : Path) (head : Nat) (s : State) : Host.Outcome State Fault Refusal :=
  .next (if head < 2 then readAlone p (0xF100 + 0x80 * head) s else s)

/-- CTL_Q_SEL_WRITE (R480): A write of CTL_Q_SEL latches the five queue registers for the queue named. -/
def execCtlQSelWrite (v : W32) (s : State) : Host.Outcome State Fault Refusal :=
  .next (barWrite 0x900 v true s)

/-- MON_SNAP_WRITE (R486): A write of MON_SNAP latches a channel's results into the window and clears them if CLEAR is 1. -/
def execMonSnapWrite (v : W32) (s : State) : Host.Outcome State Fault Refusal :=
  .next (barWrite 0x15000 v true s)

/-- SETUP_LOCK_SET (R541): A BAR0 write of 1 to CTL_SETUP_LOCK makes every LK field read-only until a unit reset. -/
def execSetupLockSet (s : State) : Host.Outcome State Fault Refusal :=
  .next (barWrite 0x10 1 true s)

/-- NOTICE_ENABLE_WRITE (R543): A write of CTL_NOTICE_EN that enables a pending bit raises vector 32. -/
def execNoticeEnableWrite (v : W32) (s : State) : Host.Outcome State Fault Refusal :=
  .next (barWrite 0x24 v true s)

/-- PROFILE_REQUEST (R38): A write of CTL_PROFILE.REQ starts a profile change that runs cluster by cluster without stopping service. -/
def execProfileRequest (h : Hdr) (mask value : W32) (s : State) : Host.Outcome State Fault Refusal :=
  .next (command h (.regWriteAu 0x44 mask value) (auWrite .none 0x44 mask value) s)

/-- SW_BLOCK_RESET (R524): A write of 1 to an RST_SW_RESET bit puts the block into reset, flushes its queues and gives up its tokens and buckets. -/
def execSwBlockReset (h : Hdr) (mask : W32) (s : State) : Host.Outcome State Fault Refusal :=
  .next (command h (.regWriteAu 0x17008 mask (BitVec.allOnes 32)) (auWrite .none 0x17008 mask (BitVec.allOnes 32)) s)

/-- SW_BLOCK_RELEASE (R524): A write of 0 to an RST_SW_RESET bit reloads the block's trim, releases it and applies its bundle settings. -/
def execSwBlockRelease (h : Hdr) (mask : W32) (s : State) : Host.Outcome State Fault Refusal :=
  .next (command h (.regWriteAu 0x17008 mask 0) (auWrite .none 0x17008 mask 0) s)

/-- UNIT_RESET_COMMAND (R533): A write of 0x5253 to RST_UNIT.UNIT resets the unit with cause COMMAND. -/
def execUnitResetCommand (h : Hdr) (mask value : W32) (s : State) : Host.Outcome State Fault Refusal :=
  .next (command h (.regWriteAu 0x17004 mask (setBits value 15 0 0x5253)) (auWrite .none 0x17004 mask (setBits value 15 0 0x5253)) s)

/-- BOOT_INSTALL_GO (R522): A write of RST_BOOT_INSTALL.GO checks the staged object and programs it into the named slot. -/
def execBootInstallGo (h : Hdr) (mask value : W32) (obj : Staged) (s : State) : Host.Outcome State Fault Refusal :=
  .next (command h (.regWriteAu 0x17028 mask (setBits value 2 2 1)) (auWrite obj 0x17028 mask (setBits value 2 2 1)) s)

/-- BOOT_SEL_TRIAL (R523): A write of RST_BOOT_SEL with TRIAL 1 writes a boot control entry naming trial slots. -/
def execBootSelTrial (h : Hdr) (mask value : W32) (s : State) : Host.Outcome State Fault Refusal :=
  .next (command h (.regWriteAu 0x17024 mask (setBits value 3 2 1)) (auWrite .none 0x17024 mask (setBits value 3 2 1)) s)

/-- BOOT_SEL_CONFIRMED (R523): A write of RST_BOOT_SEL with TRIAL 0 and CONFIRM 0 writes the slots as confirmed. -/
def execBootSelConfirmed (h : Hdr) (mask value : W32) (s : State) : Host.Outcome State Fault Refusal :=
  .next (command h (.regWriteAu 0x17024 mask (setBits value 3 2 0)) (auWrite .none 0x17024 mask (setBits value 3 2 0)) s)

/-- BOOT_SEL_CONFIRM (R523): A write of RST_BOOT_SEL.CONFIRM confirms the running trial slots. -/
def execBootSelConfirm (h : Hdr) (mask value : W32) (s : State) : Host.Outcome State Fault Refusal :=
  .next (command h (.regWriteAu 0x17024 mask (setBits value 3 3 1)) (auWrite .none 0x17024 mask (setBits value 3 3 1)) s)

/-- OTP_PROGRAM (R534): A write of RST_OTP_CMD.GO in PROVISION mode programs one OTP word. -/
def execOtpProgram (v : W32) (s : State) : Host.Outcome State Fault Refusal :=
  .next (barWrite 0x17048 v true s)

/-- POWER_TARGET_RUN (R525): A write of RST_POWER.TARGET to RUN returns the unit to RUN. -/
def execPowerTargetRun (h : Hdr) (mask : W32) (s : State) : Host.Outcome State Fault Refusal :=
  .next (command h (.regWriteAu 0x1702C mask (setBits 0 29 28 0)) (auWrite .none 0x1702C mask (setBits 0 29 28 0)) s)

/-- POWER_TARGET_DOZE (R525): A write of RST_POWER.TARGET to DOZE lets idle islands go GATED. -/
def execPowerTargetDoze (h : Hdr) (mask : W32) (s : State) : Host.Outcome State Fault Refusal :=
  .next (command h (.regWriteAu 0x1702C mask (setBits 0 29 28 1)) (auWrite .none 0x1702C mask (setBits 0 29 28 1)) s)

/-- POWER_TARGET_HOLD (R526): A write of RST_POWER.TARGET to HOLD gates all but BKP, CTL, TIM and wake ports, or completes BUSY on an active unit. -/
def execPowerTargetHold (h : Hdr) (mask : W32) (s : State) : Host.Outcome State Fault Refusal :=
  .next (command h (.regWriteAu 0x1702C mask (setBits 0 29 28 2)) (auWrite .none 0x1702C mask (setBits 0 29 28 2)) s)

/-- POWER_TARGET_BACKUP (R526): A write of RST_POWER.TARGET to BACKUP stops dispatch, drains the write queue, writes the claim and drives PWR_EN low. -/
def execPowerTargetBackup (h : Hdr) (mask : W32) (s : State) : Host.Outcome State Fault Refusal :=
  .next (command h (.regWriteAu 0x1702C mask (setBits 0 29 28 3)) (auWrite .none 0x1702C mask (setBits 0 29 28 3)) s)

/-- PCI_ENABLE_WRITE (R391): A write of PCI_CTL.EN starts or stops doorbell polling and postings. -/
def execPciEnableWrite (v : W32) (s : State) : Host.Outcome State Fault Refusal :=
  .next (settleAll (barWrite 0xE000 v true s))

/-- RING_ENABLE (R389): Setting a ring's EN starts the ring with its own index at 0 and completion phase 1. -/
def execRingEnable (cq : Bool) (n : Nat) (v : W32) (s : State) : Host.Outcome State Fault Refusal :=
  .next (if n < 32 then barWrite (if cq then cqCfg n else sqCfg n) (setBits v 31 31 1) true s else s)

/-- RING_DISABLE (R390): Clearing a ring's EN stops the ring at once and gives back unconsumed submission entries. -/
def execRingDisable (cq : Bool) (n : Nat) (v : W32) (s : State) : Host.Outcome State Fault Refusal :=
  .next (if n < 32 then settleAll (barWrite (if cq then cqCfg n else sqCfg n) (setBits v 31 31 0) true s) else s)

/-- DOORBELL_POLL (R391): Every POLL_US or POLL_IDLE_US the unit reads the doorbell block and acts on each changed word. -/
def execDoorbellPoll (words : List (BitVec 16)) (cmds : Kv (List CmdDesc)) (bufs : Kv (List BufDesc)) (s : State) : Host.Outcome State Fault Refusal :=
  .next (doorbellPoll words cmds bufs s)

/-- DMA_ERROR (R393): A DMA access that ends in an error completion stops its ring and counts in PCI_DMA_ERR. -/
def execDmaError (cq : Bool) (n : Nat) (s : State) : Host.Outcome State Fault Refusal :=
  .next (settleAll (dmaFail cq n s))

/-- RX_BUFFER_HOLD_EXPIRY (R402): No buffer arrives within HOLD_US, so the frame ends TRUNCATED and the command completes TRUNCATED. -/
def execRxBufferHoldExpiry (n : Nat) (s : State) : Host.Outcome State Fault Refusal :=
  .next (settleAll (holdExpiry n s))

/-- MSIX_COALESCE_EXPIRY (R404): COAL_US passes after the first waiting completion entry, and the ring's vector is raised. -/
def execMsixCoalesceExpiry (n : Nat) (s : State) : Host.Outcome State Fault Refusal :=
  .next (coalesceExpiry n s)

/-- MSIX_UNMASK (R404): Unmasking a vector with its pending bit set sends the message. -/
def execMsixUnmask (vector : Nat) (s : State) : Host.Outcome State Fault Refusal :=
  .next (msixUnmask vector s)

/-- PCIE_CONFIG_REQUEST (R509): A configuration request is answered with Retry Status until PCI's bundle settings are applied. -/
def execPcieConfigRequest (bme : Option Bool) (s : State) : Host.Outcome State Fault Refusal :=
  .next (settleAll (configRequest bme s))

/-- PCIE_LINK_RESET (R417): A PCIe hot reset or link-down resets the PCI block, and postings stop. -/
def execPcieLinkReset (s : State) : Host.Outcome State Fault Refusal :=
  .next (settleAll (linkReset s))

/-- BUS_MASTER_ENABLE_CLEAR (R416): The host clears Bus Master Enable, so DMA and postings stop and a frame being written ends as on EN 0 with its completions unwritten. -/
def execBusMasterEnableClear (s : State) : Host.Outcome State Fault Refusal :=
  .next (settleAll (bmeClear s))

/-- PCIE_LINK_UP (R386): The PCIe link trains and comes up, so PCI_STATUS.LINK is set and postings to enabled rings may be made again. -/
def execPcieLinkUp (width speed : Nat) (s : State) : Host.Outcome State Fault Refusal :=
  .next (pcieUp width speed s)

end Sys2Proof.Machine
end

