-- ==== Sys2Proof/Machine/StoreRows.lean ====
section
/-!
DEFINITION. Sys2Proof/Machine/StoreRows.lean: the meaning of each command of its family: measurement, events, monitors and the archive (chapters 13 to 15).
-/
namespace Sys2Proof.Machine

/-- MEA_SECOND_END (R459): At each second's end, MEA adds energy to the accumulators, computes RMS deviations and power-quality values. -/
def execMeaSecondEnd (x0 x1 : List (List Int)) (s : State) : Host.Outcome State Fault Refusal :=
  .next (meaSecondEnd x0 x1 s)

/-- MEA_MINUTE_END (R455): At each whole minute, MEA emits the minute record and carries the fractions. -/
def execMeaMinuteEnd (s : State) : Host.Outcome State Fault Refusal :=
  .next (meaMinuteEnd s)

/-- MEA_HALF_CYCLE_RMS (R459): Each half cycle the one-cycle RMS is refreshed, and a sag, swell or interruption starts or ends with an event. -/
def execMeaHalfCycleRms (head phase : Nat) (codes : List Int) (s : State) : Host.Outcome State Fault Refusal :=
  .next (halfCycle head phase codes s)

/-- EVENT_ACCEPT (R491): EVT accepts a raised event, applies the rate limits, stamps and numbers it, stores and posts it. -/
def execEventAccept (s : State) : Host.Outcome State Fault Refusal :=
  .next (eventAccept s)

/-- EVENT_ARCHIVE_WRITE (R493): An event record is written to the EVENTS zone, rotating its halves. -/
def execEventArchiveWrite (s : State) : Host.Outcome State Fault Refusal :=
  .next (eventArchiveWrite s)

/-- EVT_BUCKET_REFILL (R494): At each whole second CODE_RATE tokens are added to each code's bucket, up to BURST. -/
def execEvtBucketRefill (s : State) : Host.Outcome State Fault Refusal :=
  .next (evtRefill s)

/-- RATE_WINDOW_BOUNDARY (R572): A second, minute or hour boundary of the unit's time, or a step, starts new rate-limit windows. -/
def execRateWindowBoundary (level : Nat) (s : State) : Host.Outcome State Fault Refusal :=
  .next (rateWindow level s)

/-- MON_SAMPLE (R484): A monitor channel takes a sample, updates its results and bins, and may trip an alarm. -/
def execMonSample (ch : Nat) (v : Int) (s : State) : Host.Outcome State Fault Refusal :=
  .next (monSample ch v s)

/-- ARCHIVE_FLUSH_EXPIRY (R427): A sector not filled within FLUSH_S is written padded. -/
def execArchiveFlushExpiry (s : State) : Host.Outcome State Fault Refusal :=
  .next (archiveFlush s)

/-- PAGE_PROGRAM_COMPLETE (R428): A page program and verify ends, and records become durable when their paired pages are written. -/
def execPageProgramComplete (s : State) : Host.Outcome State Fault Refusal :=
  .next (runPageProgram s)

/-- PROGRAM_ERASE_FAIL (R434): A program or erase fails, so the block is retired and a spare takes its place. -/
def execProgramEraseFail (block : Nat) (erase : Bool) (s : State) : Host.Outcome State Fault Refusal :=
  .next (programEraseFail block erase s)

/-- BLOCK_COLLECTION (R437): FLS copies a block's valid sectors, commits the remap and erases the source. -/
def execBlockCollection (s : State) : Host.Outcome State Fault Refusal :=
  .next (blockCollection s)

/-- WEAR_LEVEL_MOVE (R435): At most once per minute the least-worn DATA block is moved when the PE spread exceeds WL_SPREAD. -/
def execWearLevelMove (s : State) : Host.Outcome State Fault Refusal :=
  .next (wearLevelMove s)

/-- THERMAL_AGE_TICK (R430): Once per minute FLS adds the temperature-weighted increment to the thermal-age counter. -/
def execThermalAgeTick (s : State) : Host.Outcome State Fault Refusal :=
  .next (thermalAgeTick s)

/-- RETENTION_SCAN (R433): Once per day every block is scanned and refreshed if its equivalent age exceeds REFRESH_AGE_W. -/
def execRetentionScan (s : State) : Host.Outcome State Fault Refusal :=
  .next (retentionScan s)

/-- ARCHIVE_MOUNT (R438): FLS loads the newer checkpoint, replays the journal and scans OPEN and STALE blocks. -/
def execArchiveMount (scan : MountScan) (s : State) : Host.Outcome State Fault Refusal :=
  .next (archiveMount scan s)

/-- OVERFLOW_WRITEBACK (R441): When the store leaves KEEP_FULL, unreleased overflow records are written back to READINGS. -/
def execOverflowWriteback (s : State) : Host.Outcome State Fault Refusal :=
  .next (overflowWriteback s)

/-- ARCH_FORMAT_COMPLETE (R448): The erase of every good block and the zone layout end, so queued appends are released to the new store with ARCHIVE_SEQ from 0. -/
def execArchFormatComplete (s : State) : Host.Outcome State Fault Refusal :=
  .next (formatComplete s)

end Sys2Proof.Machine
end

