-- ==== Sys2Proof/Machine/UnitRows.lean ====
section
/-!
DEFINITION. Sys2Proof/Machine/UnitRows.lean: the meaning of each command of its family: resets, start-up, islands, power states, BKP and modules (chapters 00, 01, 14, 16).
-/
namespace Sys2Proof.Machine

/-- PROFILE_CLUSTER_SWITCH (R38): Once a paused cluster holds no token, its clock and engine count are set, and dispatch resumes after relock. -/
def execProfileClusterSwitch (cluster : Nat) (s : State) : Host.Outcome State Fault Refusal :=
  .next (clusterSwitch cluster s)

/-- BUCKET_REDISTRIBUTE (R27): Once the old cluster holds no token for a moving bucket, the bucket is bound to its new cluster and dispatch resumes. -/
def execBucketRedistribute (bucket : Nat) (s : State) : Host.Outcome State Fault Refusal :=
  .next (bucketMove bucket s)

/-- INSTALL_COMPLETE (R522): The erase, program and read-back of an install end, and RST_BOOT_STATUS.INSTALL shows the result. -/
def execInstallComplete (ok : Bool) (s : State) : Host.Outcome State Fault Refusal :=
  .next (installComplete ok s)

/-- AUTO_CONFIRM_EXPIRY (R523): A lone unit confirms its trial after AUTO_CONFIRM_H hours in RUN with a role taken. -/
def execAutoConfirmExpiry (s : State) : Host.Outcome State Fault Refusal :=
  .next (autoConfirm s)

/-- DOZE_IDLE_GATE (R525): An island idle for DOZE_IDLE_US with empty queues goes GATED in DOZE, and restarts on its next item. -/
def execDozeIdleGate (isl : Nat) (s : State) : Host.Outcome State Fault Refusal :=
  .next (dozeGate isl s)

/-- POWER_ON_RESET (R502): Main supplies rise and stay valid for 1 ms, which starts a unit reset with cause POWER_ON. -/
def execPowerOnReset (s : State) : Host.Outcome State Fault Refusal :=
  .next (powerOnReset s)

/-- BROWN_OUT (R554): A main supply falls below its threshold for 1 µs, which resets the unit with cause BROWN_OUT. -/
def execBrownOut (supply : Nat) (s : State) : Host.Outcome State Fault Refusal :=
  .next (brownOut supply s)

/-- EXTERNAL_RESET (R502): The board holds RST_N low for at least 1 µs, which resets the unit with cause EXTERNAL. -/
def execExternalReset (s : State) : Host.Outcome State Fault Refusal :=
  .next (externalReset s)

/-- WATCHDOG_EXPIRY (R502): The unit watchdog is not refreshed for WDT_MS, which resets the unit with cause WATCHDOG. -/
def execWatchdogExpiry (s : State) : Host.Outcome State Fault Refusal :=
  .next (watchdogExpiry s)

/-- THERMAL_RESET (R560): TJ_MAX reads above 135 °C, which holds the unit in reset until it falls below 115 °C. -/
def execThermalReset (s : State) : Host.Outcome State Fault Refusal :=
  .next (thermalReset s)

/-- CLOCK_LOSS (R502): No edge arrives on the 25 MHz reference for 10 µs, which resets the unit with cause CLOCK_LOSS. -/
def execClockLoss (s : State) : Host.Outcome State Fault Refusal :=
  .next (clockLoss s)

/-- RESET_RELEASE (R508): After RST_N rises, CTL runs the start-up sequence of releases, strap read, OTP load, image and bundle choice, and lock. -/
def execResetRelease (env : StartEnv) (s : State) : Host.Outcome State Fault Refusal :=
  .next (resetRelease env s)

/-- STRAP_RETRY (R512): After a guard code the strap is read again, 1 ms apart, up to eight times. -/
def execStrapRetry (code : BitVec 6) (s : State) : Host.Outcome State Fault Refusal :=
  .next (strapRetry code s)

/-- ISLAND_CLOCK_STABLE (R510): A PENDING island reaches 64 consecutive locked cycles and enters RUN. -/
def execIslandClockStable (isl : Nat) (s : State) : Host.Outcome State Fault Refusal :=
  .next (clockStable isl s)

/-- ISLAND_LOCK_LOSS (R21): An island clock loses lock, so the island stops its clock and resumes after 64 locked cycles if lock returns within 1 ms. -/
def execIslandLockLoss (isl : Nat) (s : State) : Host.Outcome State Fault Refusal :=
  .next (lockLoss isl s)

/-- LOCK_LOSS_TIMEOUT (R21): Lock is not regained within 1 ms, and the island is marked FAILED with FAIL_CODE 0x01. -/
def execLockLossTimeout (isl : Nat) (s : State) : Host.Outcome State Fault Refusal :=
  .next (lockLossTimeout isl s)

/-- HANDSHAKE_TIMEOUT (R21): An island does not answer a CTL handshake within 10 ms, and it is marked FAILED with FAIL_CODE 0x02. -/
def execHandshakeTimeout (isl : Nat) (s : State) : Host.Outcome State Fault Refusal :=
  .next (handshakeTimeout isl s)

/-- ECC_UNCORRECTABLE (R19): An uncorrectable memory error fails the island's own memory, or fails only the access in central SRAM. -/
def execEccUncorrectable (at_ : EccAt) (s : State) : Host.Outcome State Fault Refusal :=
  .next (eccUncorrectable at_ s)

/-- ECC_CORRECTED (R19): A single-bit error is corrected, counted and recorded. -/
def execEccCorrected (at_ : EccAt) (s : State) : Host.Outcome State Fault Refusal :=
  .next (eccCorrected at_ s)

/-- TAMPER_FALL (R415): A falling edge of TAMPER_N zeroises SEC when TAMPER_ACTION is not 0, or is latched in BKP. -/
def execTamperFall (s : State) : Host.Outcome State Fault Refusal :=
  .next (tamperFall s)

/-- WAKE_PIN_FALL (R525): WAKE_N held low wakes the unit from HOLD or BACKUP. -/
def execWakePinFall (s : State) : Host.Outcome State Fault Refusal :=
  .next (wakePinFall s)

/-- BKP_ALARM (R525): The real-time counter matches BKP_ALARM, and the unit wakes from BACKUP. -/
def execBkpAlarm (s : State) : Host.Outcome State Fault Refusal :=
  .next (bkpAlarm s)

/-- MAIN_SUPPLY_LOSS (R525): Main supplies fall while VBAT holds, bringing the unit to BACKUP. -/
def execMainSupplyLoss (s : State) : Host.Outcome State Fault Refusal :=
  .next (mainSupplyLoss s)

/-- VBAT_LOW (R531): VBAT falls below 2.0 V, setting VBAT_LOW and recording an event. -/
def execVbatLow (mv : Nat) (s : State) : Host.Outcome State Fault Refusal :=
  .next (vbatLow mv s)

/-- BKP_SECOND_TICK (R527): Each second BKP advances its real-time counter and, with main supplies present, the operating-seconds counter. -/
def execBkpSecondTick (s : State) : Host.Outcome State Fault Refusal :=
  .next (bkpSecond s)

/-- BKP_POWER_LOSS (R14): VBAT falls below 1.8 V while main supplies are absent, so BKP loses power and every class-B value returns to its default. -/
def execBkpPowerLoss (s : State) : Host.Outcome State Fault Refusal :=
  .next (bkpPowerLoss s)

/-- MODULE_PRESENCE_HIGH (R464): A module's presence pin goes high, so the block stops measuring or transmitting. -/
def execModulePresenceHigh (slot : Nat) (s : State) : Host.Outcome State Fault Refusal :=
  .next (presenceHigh slot s)

/-- MODULE_PRESENCE_LOW (R464): A module's presence pin falls low, which starts the 50 ms debounce before its identity record is read. -/
def execModulePresenceLow (slot : Nat) (s : State) : Host.Outcome State Fault Refusal :=
  .next (presenceLow slot s)

/-- MODULE_PRESENCE_DEBOUNCE (R464): 50 ms after a presence pin goes low, the identity record is read and checked. -/
def execModulePresenceDebounce (slot : Nat) (m : ModRecord) (s : State) : Host.Outcome State Fault Refusal :=
  .next (presenceDebounce slot m s)

end Sys2Proof.Machine
end

