-- ==== Sys2Proof/Machine/Dispatch.lean ====
section
/-!
DEFINITION. Sys2Proof/Machine/Dispatch.lean: one arm per command, each one call of its meaning.
-/
namespace Sys2Proof.Machine

/-- The effect of a command on everything but the queue. -/
def exec (i : Instr) (s : State) : Host.Outcome State Fault Refusal :=
  match i with
  | .regRead h off count => Sys2Proof.Machine.execRegRead h off count s
  | .regWriteAu h off mask value => Sys2Proof.Machine.execRegWriteAu h off mask value s
  | .keyLoad h slot perms key => Sys2Proof.Machine.execKeyLoad h slot perms key s
  | .keyClear h slot => Sys2Proof.Machine.execKeyClear h slot s
  | .keyRead h slot => Sys2Proof.Machine.execKeyRead h slot s
  | .secZeroise h level => Sys2Proof.Machine.execSecZeroise h level s
  | .tblRead h slot => Sys2Proof.Machine.execTblRead h slot s
  | .tblFind h title => Sys2Proof.Machine.execTblFind h title s
  | .tblDump h first count => Sys2Proof.Machine.execTblDump h first count s
  | .tblWrite h slot expect mask image => Sys2Proof.Machine.execTblWrite h slot expect mask image s
  | .tblProvision h title gen window ruleSet service ek ak => Sys2Proof.Machine.execTblProvision h title gen window ruleSet service ek ak s
  | .tblKeyStage h slot gen ek ak => Sys2Proof.Machine.execTblKeyStage h slot gen ek ak s
  | .tblRetire h slot => Sys2Proof.Machine.execTblRetire h slot s
  | .tblSet h slot expect mask image => Sys2Proof.Machine.execTblSet h slot expect mask image s
  | .keySignerLoad h slot curve key => Sys2Proof.Machine.execKeySignerLoad h slot curve key s
  | .ruleLoad h image => Sys2Proof.Machine.execRuleLoad h image s
  | .ruleActivate h sets => Sys2Proof.Machine.execRuleActivate h sets s
  | .ruleRemove h sets => Sys2Proof.Machine.execRuleRemove h sets s
  | .ruleRead h set => Sys2Proof.Machine.execRuleRead h set s
  | .activationMarkPass cluster => Sys2Proof.Machine.execActivationMarkPass cluster s
  | .topoLoad h nodes => Sys2Proof.Machine.execTopoLoad h nodes s
  | .topoActivate h => Sys2Proof.Machine.execTopoActivate h s
  | .topoRead h bank first count => Sys2Proof.Machine.execTopoRead h bank first count s
  | .balNodeRead h node => Sys2Proof.Machine.execBalNodeRead h node s
  | .balMeterRead h slot => Sys2Proof.Machine.execBalMeterRead h slot s
  | .balResetScores h kind ids => Sys2Proof.Machine.execBalResetScores h kind ids s
  | .campCreate h m => Sys2Proof.Machine.execCampCreate h m s
  | .campData h slot off data => Sys2Proof.Machine.execCampData h slot off data s
  | .campSeal h slot => Sys2Proof.Machine.execCampSeal h slot s
  | .campAddMembers h slot slots => Sys2Proof.Machine.execCampAddMembers h slot slots s
  | .campRemoveMembers h slot slots => Sys2Proof.Machine.execCampRemoveMembers h slot slots s
  | .campStart h slot => Sys2Proof.Machine.execCampStart h slot s
  | .campPause h slot => Sys2Proof.Machine.execCampPause h slot s
  | .campCancel h slot => Sys2Proof.Machine.execCampCancel h slot s
  | .campClose h slot => Sys2Proof.Machine.execCampClose h slot s
  | .campActivate h slot r => Sys2Proof.Machine.execCampActivate h slot r s
  | .campRollback h slot r => Sys2Proof.Machine.execCampRollback h slot r s
  | .campRead h slot => Sys2Proof.Machine.execCampRead h slot s
  | .campMemberRead h slot first count => Sys2Proof.Machine.execCampMemberRead h slot first count s
  | .plcGmkRotate h inst => Sys2Proof.Machine.execPlcGmkRotate h inst s
  | .plcKick h inst short => Sys2Proof.Machine.execPlcKick h inst short s
  | .rfKeyRotate h rf => Sys2Proof.Machine.execRfKeyRotate h rf s
  | .timStep h mode sec ns => Sys2Proof.Machine.execTimStep h mode sec ns s
  | .pairRead h => Sys2Proof.Machine.execPairRead h s
  | .pairSwap h => Sys2Proof.Machine.execPairSwap h s
  | .pairClear h => Sys2Proof.Machine.execPairClear h s
  | .archInfo h => Sys2Proof.Machine.execArchInfo h s
  | .archRead h first count media => Sys2Proof.Machine.execArchRead h first count media s
  | .archFindTime h t => Sys2Proof.Machine.execArchFindTime h t s
  | .archTrim h upto => Sys2Proof.Machine.execArchTrim h upto s
  | .archOvfRead h count => Sys2Proof.Machine.execArchOvfRead h count s
  | .archOvfRelease h upto => Sys2Proof.Machine.execArchOvfRelease h upto s
  | .archHostWrite h sector data => Sys2Proof.Machine.execArchHostWrite h sector data s
  | .archHostRead h sector count media => Sys2Proof.Machine.execArchHostRead h sector count media s
  | .archFormat h confirm => Sys2Proof.Machine.execArchFormat h confirm s
  | .evtRead h from_ count => Sys2Proof.Machine.execEvtRead h from_ count s
  | .evtClear h => Sys2Proof.Machine.execEvtClear h s
  | .monRead h first n => Sys2Proof.Machine.execMonRead h first n s
  | .monReset h lo hi => Sys2Proof.Machine.execMonReset h lo hi s
  | .qRead h first n => Sys2Proof.Machine.execQRead h first n s
  | .mgmtDatagramRx port h c => Sys2Proof.Machine.execMgmtDatagramRx port h c s
  | .registerWrite off v whole => Sys2Proof.Machine.execRegisterWrite off v whole s
  | .w1cWrite off v => Sys2Proof.Machine.execW1cWrite off v s
  | .timNowNsRead p => Sys2Proof.Machine.execTimNowNsRead p s
  | .seqPairLoRead p off => Sys2Proof.Machine.execSeqPairLoRead p off s
  | .meaPqSecondRead p head => Sys2Proof.Machine.execMeaPqSecondRead p head s
  | .ctlQSelWrite v => Sys2Proof.Machine.execCtlQSelWrite v s
  | .monSnapWrite v => Sys2Proof.Machine.execMonSnapWrite v s
  | .setupLockSet => Sys2Proof.Machine.execSetupLockSet s
  | .noticeEnableWrite v => Sys2Proof.Machine.execNoticeEnableWrite v s
  | .profileRequest h mask value => Sys2Proof.Machine.execProfileRequest h mask value s
  | .profileClusterSwitch cluster => Sys2Proof.Machine.execProfileClusterSwitch cluster s
  | .bucketRedistribute bucket => Sys2Proof.Machine.execBucketRedistribute bucket s
  | .swBlockReset h mask => Sys2Proof.Machine.execSwBlockReset h mask s
  | .swBlockRelease h mask => Sys2Proof.Machine.execSwBlockRelease h mask s
  | .unitResetCommand h mask value => Sys2Proof.Machine.execUnitResetCommand h mask value s
  | .bootInstallGo h mask value obj => Sys2Proof.Machine.execBootInstallGo h mask value obj s
  | .installComplete ok => Sys2Proof.Machine.execInstallComplete ok s
  | .bootSelTrial h mask value => Sys2Proof.Machine.execBootSelTrial h mask value s
  | .bootSelConfirmed h mask value => Sys2Proof.Machine.execBootSelConfirmed h mask value s
  | .bootSelConfirm h mask value => Sys2Proof.Machine.execBootSelConfirm h mask value s
  | .autoConfirmExpiry => Sys2Proof.Machine.execAutoConfirmExpiry s
  | .otpProgram v => Sys2Proof.Machine.execOtpProgram v s
  | .powerTargetRun h mask => Sys2Proof.Machine.execPowerTargetRun h mask s
  | .powerTargetDoze h mask => Sys2Proof.Machine.execPowerTargetDoze h mask s
  | .powerTargetHold h mask => Sys2Proof.Machine.execPowerTargetHold h mask s
  | .powerTargetBackup h mask => Sys2Proof.Machine.execPowerTargetBackup h mask s
  | .dozeIdleGate isl => Sys2Proof.Machine.execDozeIdleGate isl s
  | .pciEnableWrite v => Sys2Proof.Machine.execPciEnableWrite v s
  | .ringEnable cq n v => Sys2Proof.Machine.execRingEnable cq n v s
  | .ringDisable cq n v => Sys2Proof.Machine.execRingDisable cq n v s
  | .doorbellPoll words cmds bufs => Sys2Proof.Machine.execDoorbellPoll words cmds bufs s
  | .dmaError cq n => Sys2Proof.Machine.execDmaError cq n s
  | .rxBufferHoldExpiry n => Sys2Proof.Machine.execRxBufferHoldExpiry n s
  | .msixCoalesceExpiry n => Sys2Proof.Machine.execMsixCoalesceExpiry n s
  | .msixUnmask vector => Sys2Proof.Machine.execMsixUnmask vector s
  | .pcieConfigRequest bme => Sys2Proof.Machine.execPcieConfigRequest bme s
  | .pcieLinkReset => Sys2Proof.Machine.execPcieLinkReset s
  | .powerOnReset => Sys2Proof.Machine.execPowerOnReset s
  | .brownOut supply => Sys2Proof.Machine.execBrownOut supply s
  | .externalReset => Sys2Proof.Machine.execExternalReset s
  | .watchdogExpiry => Sys2Proof.Machine.execWatchdogExpiry s
  | .thermalReset => Sys2Proof.Machine.execThermalReset s
  | .clockLoss => Sys2Proof.Machine.execClockLoss s
  | .resetRelease env => Sys2Proof.Machine.execResetRelease env s
  | .strapRetry code => Sys2Proof.Machine.execStrapRetry code s
  | .islandClockStable isl => Sys2Proof.Machine.execIslandClockStable isl s
  | .islandLockLoss isl => Sys2Proof.Machine.execIslandLockLoss isl s
  | .lockLossTimeout isl => Sys2Proof.Machine.execLockLossTimeout isl s
  | .handshakeTimeout isl => Sys2Proof.Machine.execHandshakeTimeout isl s
  | .eccUncorrectable at_ => Sys2Proof.Machine.execEccUncorrectable at_ s
  | .eccCorrected at_ => Sys2Proof.Machine.execEccCorrected at_ s
  | .idleItemWrite queue => Sys2Proof.Machine.execIdleItemWrite queue s
  | .readingDispatch => Sys2Proof.Machine.execReadingDispatch s
  | .readingVerify id => Sys2Proof.Machine.execReadingVerify id s
  | .counterCheck id => Sys2Proof.Machine.execCounterCheck id s
  | .readingPosting id => Sys2Proof.Machine.execReadingPosting id s
  | .tokenReturn => Sys2Proof.Machine.execTokenReturn s
  | .sessionExpiry k => Sys2Proof.Machine.execSessionExpiry k s
  | .pollIssue entry slot => Sys2Proof.Machine.execPollIssue entry slot s
  | .fetchRetry title => Sys2Proof.Machine.execFetchRetry title s
  | .moveReleaseQueue => Sys2Proof.Machine.execMoveReleaseQueue s
  | .retireHoldExpiry slot => Sys2Proof.Machine.execRetireHoldExpiry slot s
  | .ageCheck => Sys2Proof.Machine.execAgeCheck s
  | .standbyTableCopy item ents => Sys2Proof.Machine.execStandbyTableCopy item ents s
  | .copyComplete => Sys2Proof.Machine.execCopyComplete s
  | .balanceIntervalClose => Sys2Proof.Machine.execBalanceIntervalClose s
  | .balanceRun => Sys2Proof.Machine.execBalanceRun s
  | .balanceReportPost => Sys2Proof.Machine.execBalanceReportPost s
  | .campaignFrameSend link => Sys2Proof.Machine.execCampaignFrameSend link s
  | .repairRound link slot => Sys2Proof.Machine.execRepairRound link slot s
  | .activationBroadcast link slot => Sys2Proof.Machine.execActivationBroadcast link slot s
  | .actTimeLateExpiry slot => Sys2Proof.Machine.execActTimeLateExpiry slot s
  | .campaignCheckpoint => Sys2Proof.Machine.execCampaignCheckpoint s
  | .plcFrameRx inst f => Sys2Proof.Machine.execPlcFrameRx inst f s
  | .plcAckTimeout inst id => Sys2Proof.Machine.execPlcAckTimeout inst id s
  | .routeTtlExpiry inst dest => Sys2Proof.Machine.execRouteTtlExpiry inst dest s
  | .routeWaitExpiry inst id => Sys2Proof.Machine.execRouteWaitExpiry inst id s
  | .reassemblyTimeout link src tag => Sys2Proof.Machine.execReassemblyTimeout link src tag s
  | .shortHoldExpiry link short => Sys2Proof.Machine.execShortHoldExpiry link short s
  | .zcReportSend inst short => Sys2Proof.Machine.execZcReportSend inst short s
  | .fpReportSend inst short => Sys2Proof.Machine.execFpReportSend inst short s
  | .zcEdge inst t => Sys2Proof.Machine.execZcEdge inst t s
  | .zcLost inst => Sys2Proof.Machine.execZcLost inst s
  | .ldFaultFall inst => Sys2Proof.Machine.execLdFaultFall inst s
  | .ldFaultResume inst => Sys2Proof.Machine.execLdFaultResume inst s
  | .rfTimeslot rf => Sys2Proof.Machine.execRfTimeslot rf s
  | .rfFrameRx rf f => Sys2Proof.Machine.execRfFrameRx rf f s
  | .rfScan rf hits => Sys2Proof.Machine.execRfScan rf hits s
  | .sleepyQueueExpiry rf id => Sys2Proof.Machine.execSleepyQueueExpiry rf id s
  | .ethFrameRx port f => Sys2Proof.Machine.execEthFrameRx port f s
  | .ethLinkUp port speed half eee => Sys2Proof.Machine.execEthLinkUp port speed half eee s
  | .ethLinkDown port => Sys2Proof.Machine.execEthLinkDown port s
  | .txBufferWaitExpiry port => Sys2Proof.Machine.execTxBufferWaitExpiry port s
  | .lldpSend port => Sys2Proof.Machine.execLldpSend port s
  | .lpiIdleEntry port => Sys2Proof.Machine.execLpiIdleEntry port s
  | .relayFrameRx src f => Sys2Proof.Machine.execRelayFrameRx src f s
  | .relayPauseHoldExpiry port => Sys2Proof.Machine.execRelayPauseHoldExpiry port s
  | .relayBatchClose to_ port => Sys2Proof.Machine.execRelayBatchClose to_ port s
  | .relayAckTimeout id port => Sys2Proof.Machine.execRelayAckTimeout id port s
  | .relayBatchAck sender seq => Sys2Proof.Machine.execRelayBatchAck sender seq s
  | .spoolDrain => Sys2Proof.Machine.execSpoolDrain s
  | .ptpMessageRx port m => Sys2Proof.Machine.execPtpMessageRx port m s
  | .ptpMessageSend port kind => Sys2Proof.Machine.execPtpMessageSend port kind s
  | .sourceTimeout code => Sys2Proof.Machine.execSourceTimeout code s
  | .timeWord => Sys2Proof.Machine.execTimeWord s
  | .timeWordLoss isl => Sys2Proof.Machine.execTimeWordLoss isl s
  | .rtcWrite => Sys2Proof.Machine.execRtcWrite s
  | .leapSecond => Sys2Proof.Machine.execLeapSecond s
  | .heartbeatSend path => Sys2Proof.Machine.execHeartbeatSend path s
  | .heartbeatRx path hb => Sys2Proof.Machine.execHeartbeatRx path hb s
  | .heartbeatPathLost path => Sys2Proof.Machine.execHeartbeatPathLost path s
  | .prlLossOfSignal => Sys2Proof.Machine.execPrlLossOfSignal s
  | .actInQuiet => Sys2Proof.Machine.execActInQuiet s
  | .actInEdge => Sys2Proof.Machine.execActInEdge s
  | .claimFlashWritten => Sys2Proof.Machine.execClaimFlashWritten s
  | .pairWatchdogExpiry => Sys2Proof.Machine.execPairWatchdogExpiry s
  | .seekWaitExpiry => Sys2Proof.Machine.execSeekWaitExpiry s
  | .fencedExpiry => Sys2Proof.Machine.execFencedExpiry s
  | .journalBatchClose => Sys2Proof.Machine.execJournalBatchClose s
  | .journalBatchRx num mark formOk ents => Sys2Proof.Machine.execJournalBatchRx num mark formOk ents s
  | .journalAckRx num => Sys2Proof.Machine.execJournalAckRx num s
  | .jackTimeout num => Sys2Proof.Machine.execJackTimeout num s
  | .swapHandover => Sys2Proof.Machine.execSwapHandover s
  | .swapDrainExpiry => Sys2Proof.Machine.execSwapDrainExpiry s
  | .scheduledSwapDue => Sys2Proof.Machine.execScheduledSwapDue s
  | .proofExpiry last => Sys2Proof.Machine.execProofExpiry last s
  | .meaSecondEnd x0 x1 => Sys2Proof.Machine.execMeaSecondEnd x0 x1 s
  | .meaMinuteEnd => Sys2Proof.Machine.execMeaMinuteEnd s
  | .meaHalfCycleRms head phase codes => Sys2Proof.Machine.execMeaHalfCycleRms head phase codes s
  | .modulePresenceHigh slot => Sys2Proof.Machine.execModulePresenceHigh slot s
  | .modulePresenceDebounce slot m => Sys2Proof.Machine.execModulePresenceDebounce slot m s
  | .eventAccept => Sys2Proof.Machine.execEventAccept s
  | .eventArchiveWrite => Sys2Proof.Machine.execEventArchiveWrite s
  | .evtBucketRefill => Sys2Proof.Machine.execEvtBucketRefill s
  | .rateWindowBoundary level => Sys2Proof.Machine.execRateWindowBoundary level s
  | .monSample ch v => Sys2Proof.Machine.execMonSample ch v s
  | .archiveFlushExpiry => Sys2Proof.Machine.execArchiveFlushExpiry s
  | .pageProgramComplete => Sys2Proof.Machine.execPageProgramComplete s
  | .programEraseFail block erase => Sys2Proof.Machine.execProgramEraseFail block erase s
  | .blockCollection => Sys2Proof.Machine.execBlockCollection s
  | .wearLevelMove => Sys2Proof.Machine.execWearLevelMove s
  | .thermalAgeTick => Sys2Proof.Machine.execThermalAgeTick s
  | .retentionScan => Sys2Proof.Machine.execRetentionScan s
  | .archiveMount scan => Sys2Proof.Machine.execArchiveMount scan s
  | .overflowWriteback => Sys2Proof.Machine.execOverflowWriteback s
  | .tamperFall => Sys2Proof.Machine.execTamperFall s
  | .wakePinFall => Sys2Proof.Machine.execWakePinFall s
  | .bkpAlarm => Sys2Proof.Machine.execBkpAlarm s
  | .mainSupplyLoss => Sys2Proof.Machine.execMainSupplyLoss s
  | .vbatLow mv => Sys2Proof.Machine.execVbatLow mv s
  | .bkpSecondTick => Sys2Proof.Machine.execBkpSecondTick s
  | .bkpPowerLoss => Sys2Proof.Machine.execBkpPowerLoss s
  | .busMasterEnableClear => Sys2Proof.Machine.execBusMasterEnableClear s
  | .pcieLinkUp width speed => Sys2Proof.Machine.execPcieLinkUp width speed s
  | .ldFaultPinRise inst => Sys2Proof.Machine.execLdFaultPinRise inst s
  | .modulePresenceLow slot => Sys2Proof.Machine.execModulePresenceLow slot s
  | .archFormatComplete => Sys2Proof.Machine.execArchFormatComplete s
  | .partnerEeeTlvExpiry port => Sys2Proof.Machine.execPartnerEeeTlvExpiry port s

end Sys2Proof.Machine
end

