-- ==== Sys2Proof/Safety.lean ====
section
/-!
DEFINITION. Sys2Proof/Safety.lean: what a sound state of the block is, and what it means that a command leaves parts of the state as
they were, in the terms the claims use.
-/
namespace Sys2Proof.Machine

/-- The tokens of the pool: free, on their way back, and held by readings in flight (R88). -/
def State.tokens (s : State) : Nat := s.pipe.free + s.pipe.returning + s.pipe.flight.length

/-- No token is lost or made: the pool has 4,096 (R88). -/
def State.PoolOk (s : State) : Prop := s.tokens = 4096

/-- The register file is in its one form: offsets rising, and no word listed that equals its register's reset word. -/
def State.RegsOk (s : State) : Prop := Kv.wf s.regs = true ∧ ∀ p ∈ s.regs, p.2 ≠ regReset p.1

/-- Latches, islands, ports, queues and key slots are in their one form: keys rising. -/
def State.MapsOk (s : State) : Prop :=
  Kv.wf s.lat = true ∧ Kv.wf s.isl = true ∧ Kv.wf s.eth = true ∧ Kv.wf s.queues = true ∧ Kv.wf s.sec.slots = true

/-- A sound state. -/
def State.Sound (s : State) : Prop := s.PoolOk ∧ s.RegsOk ∧ s.MapsOk

/-- Does a register hold settings: a field of class LK or AU (R12, R538, R541)? -/
def isSetup (off : Nat) : Bool :=
  match regDef off with
  | some d => d.flds.any fun f => f.acc == .lk || f.acc == .au
  | none => false

/-- The parts of the state: one for each field of State, and `setup`, the registers of the file that hold settings. -/
inductive Part where
  | pending | deferred | stalled | regs | setup | lat | win | isl | boot | clusters | table | pipe | rules | bal | camp | plc | rf | eth | relay
  | tim | pair | jr | host | sec | arch | mea | queues | mon | evt | out | draws
  deriving DecidableEq, Repr

/-- A part holds in `t` what it held in `s`. Settings are read through the register file, whose one form they presume. -/
def Part.same (s t : State) : Part → Prop
  | .pending => t.pending = s.pending
  | .deferred => t.deferred = s.deferred
  | .stalled => t.stalled = s.stalled
  | .regs => t.regs = s.regs
  | .setup => s.RegsOk → ∀ off, isSetup off = true → reg t off = reg s off
  | .lat => t.lat = s.lat
  | .win => t.win = s.win
  | .isl => t.isl = s.isl
  | .boot => t.boot = s.boot
  | .clusters => t.clusters = s.clusters
  | .table => t.table = s.table
  | .pipe => t.pipe = s.pipe
  | .rules => t.rules = s.rules
  | .bal => t.bal = s.bal
  | .camp => t.camp = s.camp
  | .plc => t.plc = s.plc
  | .rf => t.rf = s.rf
  | .eth => t.eth = s.eth
  | .relay => t.relay = s.relay
  | .tim => t.tim = s.tim
  | .pair => t.pair = s.pair
  | .jr => t.jr = s.jr
  | .host => t.host = s.host
  | .sec => t.sec = s.sec
  | .arch => t.arch = s.arch
  | .mea => t.mea = s.mea
  | .queues => t.queues = s.queues
  | .mon => t.mon = s.mon
  | .evt => t.evt = s.evt
  | .out => t.out = s.out
  | .draws => t.draws = s.draws

/-- Every part of the state but those listed is as it was. -/
def State.SameBut (W : List Part) (s t : State) : Prop := ∀ p, p ∉ W → Part.same s t p

/-- The state in which a management command starts its own work: the unit is managed, no swap holds it (R371), Ethernet admits it
(R413), the checks of R410 accept it, the state of the unit lets it through (R4, R43, R413, R415, R525) and no reading of its meter is
in flight (R78). None where one of these ends or delays it. -/
def State.entered (h : Hdr) (c : Cmd) (s : State) : Option State :=
  if !managed s || (c != .pairSwap && s.pair.swap.isSome) then none
  else match ethAdmit h s with
    | none => none
    | some s =>
      match checkCommand h c (wakeFor (cmdOpcode c) (startInFlight h s)) with
      | .refuse _ _ => none
      | .accept s => if (entryCheck h c s).isSome || meterBusy c s then none else some s

/-- What a command leaves in `v`, once its answer `r` has gone to its sender or waits for the journal (R71, R400, R401, R412, R413);
`u` is the state in which its own work started. -/
def State.answered (h : Hdr) (c : Cmd) (r : Reply) (u v : State) : State := replyAfter u h (cmdOpcode c) r (journalCounter u h v)

/-- BAR0 reaches the register at an offset: PCI answers and has been enumerated, the unit takes plain writes (R513), the word is none
of the OTP registers, and its block answers (R24). -/
def State.barReaches (off : Nat) (s : State) : Prop :=
  barOpen s = true ∧ (s.boot.mode = .normal ∨ s.boot.mode = .recovery) ∧ otpReg off = false ∧ blockDown off s = false

/-- Nothing waits for something else that may have happened: no command, no posting, no clear of the event ring, no late write of a
record, no route request for its second and no radio acknowledgement for its due time. -/
def State.quiet (s : State) : Prop :=
  s.stalled = [] ∧ s.host.fenced = [] ∧ s.jr.delayed = [] ∧ s.evt.clears = [] ∧ s.table.late = [] ∧
    (∀ n < 4, ∀ d ∈ (plcOf s n).discover, d.sent = true) ∧ ∀ n < 2, ∀ a ∈ (rfOf s n).acks, s.tim.raw < a.at_ + 1000000

/-- A write of the unit's own on the record of a slot need not wait (R78): no reading of the slot is in flight short of its commit, and no
earlier write of that record waits. -/
def State.recordFree (k : Nat) (s : State) : Prop := slotReading k s = false ∧ ∀ w ∈ s.table.late, w.slot ≠ k

/-- What a reset with a cause leaves (R14, R502, R503, R505): the unit is in reset, BKP holds the cause and its detail, every register
that the loss does not spare is at its reset word and the others stand, keys, table, readings and the grant are gone, and what the boot
flash, the OTP and the archive hold stays. -/
def State.ResetBy (cause detail : Nat) (l : Loss) (s t : State) : Prop :=
  t.boot.phase = .inReset ∧ bits (reg t 0x1004) 7 0 = cause ∧ bits (reg t 0x1004) 15 8 = detail ∧
    (∀ o, o ∉ [0x1004, 0x1014, 0x17004] → reg t o = if keepsReg l o then reg s o else regReset o) ∧
    t.sec.slots = [] ∧ t.table = tableReset ∧ t.pipe = pipeReset ∧ t.pair.st = .seeking ∧ t.pair.actOut = false ∧
    t.boot.otp = s.boot.otp ∧ t.boot.ctl = s.boot.ctl ∧ t.arch.blocks = s.arch.blocks ∧ t.evt.zoneCur = s.evt.zoneCur ∧
    t.evt.ring = if l = .unit then s.evt.ring else []

/-- The instruction a management command is, sent with a header. -/
def instrOf (h : Hdr) : Cmd → Option Instr
  | .regRead off n => some (.regRead h off n)
  | .regWriteAu off mask v => some (.regWriteAu h off mask v)
  | .keyLoad slot perms key => some (.keyLoad h slot perms key)
  | .keyClear slot => some (.keyClear h slot)
  | .keyRead slot => some (.keyRead h slot)
  | .secZeroise level => some (.secZeroise h level)
  | .tblRead slot => some (.tblRead h slot)
  | .tblFind title => some (.tblFind h title)
  | .tblDump first n => some (.tblDump h first n)
  | .tblWrite slot expect mask image => some (.tblWrite h slot expect mask image)
  | .tblProvision title gen window rules service ek ak => some (.tblProvision h title gen window rules service ek ak)
  | .tblKeyStage slot gen ek ak => some (.tblKeyStage h slot gen ek ak)
  | .tblRetire slot => some (.tblRetire h slot)
  | .tblSet slot expect mask image => some (.tblSet h slot expect mask image)
  | .keySignerLoad slot curve key => some (.keySignerLoad h slot curve key)
  | .ruleLoad image => some (.ruleLoad h image)
  | .ruleActivate sets => some (.ruleActivate h sets)
  | .ruleRemove sets => some (.ruleRemove h sets)
  | .ruleRead n => some (.ruleRead h n)
  | .topoLoad nodes => some (.topoLoad h nodes)
  | .topoActivate => some (.topoActivate h)
  | .topoRead bank first n => some (.topoRead h bank first n)
  | .balNodeRead node => some (.balNodeRead h node)
  | .balMeterRead slot => some (.balMeterRead h slot)
  | .balResetScores kind ids => some (.balResetScores h kind ids)
  | .campCreate m => some (.campCreate h m)
  | .campData slot off data => some (.campData h slot off data)
  | .campSeal slot => some (.campSeal h slot)
  | .campAddMembers slot slots => some (.campAddMembers h slot slots)
  | .campRemoveMembers slot slots => some (.campRemoveMembers h slot slots)
  | .campStart slot => some (.campStart h slot)
  | .campPause slot => some (.campPause h slot)
  | .campCancel slot => some (.campCancel h slot)
  | .campClose slot => some (.campClose h slot)
  | .campActivate slot r => some (.campActivate h slot r)
  | .campRollback slot r => some (.campRollback h slot r)
  | .campRead slot => some (.campRead h slot)
  | .campMemberRead slot first n => some (.campMemberRead h slot first n)
  | .plcGmkRotate inst => some (.plcGmkRotate h inst)
  | .plcKick inst short => some (.plcKick h inst short)
  | .rfKeyRotate rf => some (.rfKeyRotate h rf)
  | .timStep mode sec ns => some (.timStep h mode sec ns)
  | .pairRead => some (.pairRead h)
  | .pairSwap => some (.pairSwap h)
  | .pairClear => some (.pairClear h)
  | .archInfo => some (.archInfo h)
  | .archRead first n media => some (.archRead h first n media)
  | .archFindTime t => some (.archFindTime h t)
  | .archTrim upto => some (.archTrim h upto)
  | .archOvfRead n => some (.archOvfRead h n)
  | .archOvfRelease upto => some (.archOvfRelease h upto)
  | .archHostWrite sector data => some (.archHostWrite h sector data)
  | .archHostRead sector n media => some (.archHostRead h sector n media)
  | .archFormat confirm => some (.archFormat h confirm)
  | .evtRead seq n => some (.evtRead h seq n)
  | .evtClear => some (.evtClear h)
  | .monRead first n => some (.monRead h first n)
  | .monReset lo hi => some (.monReset h lo hi)
  | .qRead first n => some (.qRead h first n)
  | .reserved _ => none

/-- The commands after which a register that holds settings may read otherwise: writes of registers, commands and datagrams that carry
one, resets, start-up, power, failures that end in a reset, what a standby applies of the active's journal and copy, and rows
after which a command that waited is carried out (R12 to R14, R71, R78, R360, R502). -/
def mayWriteSettings : Instr → Bool
  | .regWriteAu .. => true
  | .mgmtDatagramRx .. => true
  | .registerWrite .. => true
  | .w1cWrite .. => true
  | .ctlQSelWrite .. => true
  | .monSnapWrite .. => true
  | .setupLockSet => true
  | .noticeEnableWrite .. => true
  | .profileRequest .. => true
  | .swBlockReset .. => true
  | .swBlockRelease .. => true
  | .unitResetCommand .. => true
  | .bootInstallGo .. => true
  | .bootSelTrial .. => true
  | .bootSelConfirmed .. => true
  | .bootSelConfirm .. => true
  | .otpProgram .. => true
  | .powerTargetRun .. => true
  | .powerTargetDoze .. => true
  | .powerTargetHold .. => true
  | .powerTargetBackup .. => true
  | .pciEnableWrite .. => true
  | .ringEnable .. => true
  | .ringDisable .. => true
  | .doorbellPoll .. => true
  | .dmaError .. => true
  | .rxBufferHoldExpiry .. => true
  | .pcieConfigRequest .. => true
  | .pcieLinkReset => true
  | .powerOnReset => true
  | .brownOut .. => true
  | .externalReset => true
  | .watchdogExpiry => true
  | .thermalReset => true
  | .clockLoss => true
  | .resetRelease .. => true
  | .strapRetry .. => true
  | .lockLossTimeout .. => true
  | .handshakeTimeout .. => true
  | .eccUncorrectable .. => true
  | .counterCheck .. => true
  | .standbyTableCopy .. => true
  | .heartbeatRx .. => true
  | .heartbeatPathLost .. => true
  | .prlLossOfSignal => true
  | .journalBatchRx .. => true
  | .journalAckRx .. => true
  | .jackTimeout .. => true
  | .mainSupplyLoss => true
  | .bkpPowerLoss => true
  | .busMasterEnableClear => true
  | _ => false

end Sys2Proof.Machine
end

