-- ==== Sys2Proof/Certificates/Slice0/Obligations.lean ====
section
/-!
DEFINITION. Sys2Proof/Certificates/Slice0/Obligations.lean: the statements about the block. A state t is what exec or step answers;
State.entered is the state in which a management command that passed its checks starts its own work, State.answered what the answer
leaves, State.SameBut the parts that stay.
-/
open Sys2Proof Sys2Proof.Machine

/-- A step carries out the command at the front of the queue on the state with the queue's rest; with an empty queue a cycle of idle
time passes (log entry 1). No row of the table gives bits, so no word spells a command. No command stops the block. -/
def Obligations.StepRunsTheFront : Prop :=
  (∀ (c : Instr) (rest : List Instr) (s : State), s.pending = c :: rest → step s = exec c { s with pending := rest }) ∧
  (∀ s : State, s.pending = [] → step s = .next (idle s)) ∧
  (∀ (nbits w : Nat) (s : State), decodeTableWord nbits w = none ∧ s.withFetchWord nbits w = s) ∧
  ∀ (c : Instr) (s : State), ∃ t, exec c s = .next t

/-- What reset leaves where the spec gives it: the register words, the pool (R88, R125), the pair logic in SEEKING (R381), a unit in reset
(R502), with no key, no reading, no record and nothing sent. -/
def Obligations.ResetState : Prop :=
  (∀ off, reg State.reset off = regReset off) ∧
  [regReset 0x00, regReset 0x40, regReset 0x200, regReset 0x300, regReset 0x310, regReset 0x500, regReset 0x600, regReset 0x800] =
    [0x8620B200, 0x00020000, 0x000E0604, 0x00A83C04, 0x00001000, 0x2001000F, 0x0821012C, 0x127407D0].map (BitVec.ofNat 32) ∧
  State.reset.boot.phase = .inReset ∧ State.reset.pipe.free = 4096 ∧ State.reset.pipe.returning = 0 ∧ State.reset.pipe.flight = [] ∧
  State.reset.pair.st = .seeking ∧ State.reset.pair.actOut = false ∧ State.reset.sec.slots = [] ∧ State.reset.evt.ring = [] ∧
  State.reset.pending = [] ∧ State.reset.out = [] ∧ (∀ n, (imgOf State.reset n) = 0)

/-- The state after reset is sound: the pool has its 4,096 tokens, and register file and maps are in their one form. -/
def Obligations.ResetIsSound : Prop := State.reset.Sound

/-- Every step keeps a state sound, whatever the command: no token of the pool is lost or made (R88), the register file lists no word equal
to its reset word and no offset twice, and the maps of latches, islands, ports, queues and key slots keep their one form. -/
def Obligations.StepKeepsSound : Prop := ∀ s t : State, s.Sound → step s = .next t → t.Sound

/-- No command touches the queue of commands, takes back anything the block has sent, or draws a free value twice. -/
def Obligations.NothingTakenBack : Prop :=
  (∀ (c : Instr) (s t : State), exec c s = .next t → t.pending = s.pending ∧ (∃ l, t.out = l ++ s.out) ∧ s.draws ≤ t.draws) ∧
  ∀ s t : State, step s = .next t → t.pending = s.pending.tail ∧ (∃ l, t.out = l ++ s.out) ∧ s.draws ≤ t.draws

/-- Only writes, resets, start-up, power, what a standby applies and commands that waited change a register that holds settings (R12 to
R14); every other command leaves each of them as it was. -/
def Obligations.SettingsStand : Prop :=
  ∀ (c : Instr) (s t : State), s.RegsOk → mayWriteSettings c = false → exec c s = .next t → ∀ off, isSetup off = true → reg t off = reg s off

/-- R326: a read of TIM_NOW_NS latches the other three words of the local clock at the same instant, and reads of those three, over the same
path, return the latched values until the next read of TIM_NOW_NS: no other read changes them. -/
def Obligations.ClockReads : Prop :=
  (∀ (p : Path) (s : State), s.Sound → (p = .bar0 → barOpen s = true) → blockDown 0x10020 s = false →
    ∃ t, exec (.timNowNsRead p) s = .next t ∧ t.out = .regRead p 0x10020 (BitVec.ofNat 32 (clkNs s.tim.clk)) :: s.out ∧ t.tim = s.tim ∧
      ∀ u, latchOf u p = latchOf t p → blockDown 0x10020 u = false →
        readReg p 0x10024 u = (BitVec.ofNat 32 (clkSec s.tim.clk), u) ∧ readReg p 0x10028 u = (BitVec.ofNat 32 (clkSec s.tim.clk / 2 ^ 32 % 65536), u) ∧
        readReg p 0x1002C u = (BitVec.ofNat 32 (s.tim.clk % 65536), u)) ∧
  ∀ (p : Path) (off : Nat) (s : State), s.MapsOk → off ≠ 0x10020 → (latchOf (readReg p off s).2 p).nowLo = (latchOf s p).nowLo ∧
    (latchOf (readReg p off s).2 p).nowHi = (latchOf s p).nowHi ∧ (latchOf (readReg p off s).2 p).nowFrac = (latchOf s p).nowFrac

/-- R297: the checks of a received frame, in their order; the first that fails decides the counter, and the frame is discarded. -/
def Obligations.FrameChecks : Prop :=
  (∀ (p : Bool) (f : EthFrame) (s : State), ethLink s p = true →
    (f.codeErrs ≠ 0 → exec (.ethFrameRx p f) s = .next (ethCount p 34 f.codeErrs (ethCount p 6 1 s))) ∧
    (f.codeErrs = 0 → f.length < 64 → exec (.ethFrameRx p f) s = .next (ethCount p 7 1 s)) ∧
    (f.codeErrs = 0 → 64 ≤ f.length → fieldOf s (ethBase p) 25 12 < f.length →
      exec (.ethFrameRx p f) s = .next (ethCount p (if f.fcsOk then 8 else 9) 1 s)) ∧
    (f.codeErrs = 0 → 64 ≤ f.length → f.length ≤ fieldOf s (ethBase p) 25 12 → f.fcsOk = false →
      exec (.ethFrameRx p f) s = .next (ethCount p 5 1 s)) ∧
    (f.codeErrs = 0 → 64 ≤ f.length → f.length ≤ fieldOf s (ethBase p) 25 12 → f.fcsOk = true → ethAccepts s p f.dest = false →
      exec (.ethFrameRx p f) s = .next (ethCount p 10 1 s)) ∧
    (f.codeErrs = 0 → 64 ≤ f.length → f.length ≤ fieldOf s (ethBase p) 25 12 → f.fcsOk = true → ethAccepts s p f.dest = true →
      vlanOk s p f.vlan = false → exec (.ethFrameRx p f) s = .next (ethCount p 11 1 s))) ∧
  ∀ (p : Bool) (i n : Nat) (s : State), s.RegsOk → i < 48 → reg (ethCount p i n s) (ethBase p + 0x100 + 4 * i) = reg s (ethBase p + 0x100 + 4 * i) + BitVec.ofNat 32 n ∧
    State.SameBut [.regs, .host, .out] s (ethCount p i n s)

/-- KEY_LOAD, KEY_CLEAR and KEY_READ (R408, R409, R574). -/
def Obligations.KeySlots : Prop :=
  (∀ (h : Hdr) (slot : Byte) (perms : BitVec 16) (key : Wrapped) (s u : State) (own : AuthSlot) (k : Key) (a : Auth),
    State.entered h (.keyLoad slot perms key) s = some u → h.auth = some a → Kv.get? a.slot.toNat u.sec.slots = some own →
    slot.toNat ≠ 0 → slot.toNat < 64 → a.slot ≠ slot → perms &&& ~~~own.perms = 0 → unwrapCmd h u key = some k →
    ∃ t, exec (.keyLoad h slot perms key) s = .next t ∧ Kv.get? slot.toNat t.sec.slots = some ⟨k, perms⟩ ∧
      ∀ n, n ≠ slot.toNat → Kv.get? n t.sec.slots = Kv.get? n u.sec.slots) ∧
  (∀ (h : Hdr) (slot : Byte) (perms : BitVec 16) (key : Wrapped) (s u : State),
    State.entered h (.keyLoad slot perms key) s = some u →
    (slot.toNat = 0 ∨ 64 ≤ slot.toNat ∨ (∃ a, h.auth = some a ∧ (a.slot = slot ∨
      ∃ own, Kv.get? a.slot.toNat u.sec.slots = some own ∧ perms &&& ~~~own.perms ≠ 0)) ∨ unwrapCmd h u key = none) →
    exec (.keyLoad h slot perms key) s = .next (State.answered h (.keyLoad slot perms key) .bad u u)) ∧
  (∀ (h : Hdr) (slot : Byte) (s u : State) (own : AuthSlot) (a : Auth),
    State.entered h (.keyClear slot) s = some u → Kv.wf u.sec.slots = true → h.auth = some a →
    Kv.get? a.slot.toNat u.sec.slots = some own → slot.toNat ≠ 0 → slot.toNat < 64 → a.slot ≠ slot →
    (∀ k, Kv.get? slot.toNat u.sec.slots = some k → k.perms &&& ~~~own.perms = 0) →
    ∃ t, exec (.keyClear h slot) s = .next t ∧ Kv.get? slot.toNat t.sec.slots = none ∧
      ∀ n, n ≠ slot.toNat → Kv.get? n t.sec.slots = Kv.get? n u.sec.slots) ∧
  (∀ (h : Hdr) (slot : Byte) (s u : State), State.entered h (.keyClear slot) s = some u →
    (slot.toNat = 0 ∨ 64 ≤ slot.toNat ∨ (∃ a, h.auth = some a ∧ (a.slot = slot ∨
      ∃ own k, Kv.get? a.slot.toNat u.sec.slots = some own ∧ Kv.get? slot.toNat u.sec.slots = some k ∧ k.perms &&& ~~~own.perms ≠ 0))) →
    exec (.keyClear h slot) s = .next (State.answered h (.keyClear slot) .bad u u)) ∧
  (∀ (h : Hdr) (slot : Byte) (s u : State), State.entered h (.keyRead slot) s = some u → slot.toNat < 64 →
    exec (.keyRead h slot) s = .next (State.answered h (.keyRead slot) ⟨.ok, padTo 40 (match Kv.get? slot.toNat u.sec.slots with
      | some k => be 1 slot.toNat ++ be 1 1 ++ be 2 k.perms.toNat ++ be 8 (u.sec.counters.getD slot.toNat 0).toNat ++ be 4 (checkValue k.key)
      | none => be 1 slot.toNat ++ be 1 0 ++ be 2 0 ++ be 8 (u.sec.counters.getD slot.toNat 0).toNat ++ be 4 0), []⟩ u u))

/-- R11, R12: what a write under a mask leaves in a register, field by field. -/
def Obligations.AccessClasses : Prop :=
  ∀ (off : Nat) (d : RegDef), regDef off = some d → ∀ (can : Acc → Bool) (mask v old : W32),
    (∀ f ∈ d.flds, bits (storeWord can d mask v old) f.hi f.lo =
      if fieldMask f &&& mask = 0 ∨ can f.acc = false ∨ f.acc = .ro ∨ f.acc = .wo then bits old f.hi f.lo
      else if f.acc = .w1c then bits (old &&& ~~~(v &&& mask)) f.hi f.lo
      else storeField f.rule (bits old f.hi f.lo) (bits (merged mask v old) f.hi f.lo)) ∧
    ∀ i, (∀ f ∈ d.flds, i < f.lo ∨ f.hi < i) → bit (storeWord can d mask v old) i = bit old i

/-- A plain write over BAR0 to a register that acts on nothing else, and one that would change an AU field, or an LK field after
lock (R11 to R13, R538, R571). -/
def Obligations.PlainWrites : Prop :=
  (∀ (off : Nat) (v : W32) (s : State) (d : RegDef), s.RegsOk → s.barReaches off → s.quiet → regDef off = some d → frozenMask s off = 0 →
    enIsland off = none → off ∉ [0x24, 0x900, 0x4000, 0x15000, 0xE000] → (∀ n < 32, off ≠ sqCfg n ∧ off ≠ cqCfg n) →
    ∃ t, exec (.registerWrite off v true) s = .next t ∧ reg t off = clearActs off (newWord (plainCan s) d off (BitVec.allOnes 32) v s) ∧
      ∀ o, o ∉ [off, 0xD010, 0x20, 0x4C] → reg t o = reg s o) ∧
  ∀ (off : Nat) (v : W32) (s : State) (d : RegDef), s.RegsOk → s.barReaches off → s.quiet → regDef off = some d → frozenMask s off = 0 →
    enIsland off = none → off ∉ [0x24, 0x900, 0x4000, 0x15000, 0xE000] → (∀ n < 32, off ≠ sqCfg n ∧ off ≠ cqCfg n) →
    (wouldChange .au d off v s = true ∨ locked s = true ∧ wouldChange .lk d off v s = true) →
    ∃ t l, exec (.registerWrite off v true) s = .next t ∧ reg t 0x4C = satAdd (reg s 0x4C) 1 ∧ bit (reg t 0x20) 6 = true ∧
      t.evt.raised = s.evt.raised ++ ⟨1, 0x05, false, BitVec.ofNat 32 (b2n (wouldChange .au d off v s) * 2 ^ 31 + off % 2 ^ 20), []⟩ :: l

/-- Registers whose writes do one thing (R12, R480, R486, R540, R541, R543). -/
def Obligations.ActingWrites : Prop :=
  (∀ (off : Nat) (v : W32) (s : State), s.RegsOk → s.barReaches off → off ∈ [0x20, 0xB010, 0xB014, 0xC010, 0xC014, 0x15008, 0x1500C] →
    ∃ t, exec (.w1cWrite off v) s = .next t ∧ State.SameBut [.regs] s t ∧ (∀ o, o ≠ off → reg t o = reg s o) ∧
      ∀ i, bit (reg t off) i = (bit (reg s off) i && !(bit v i && decide (i < if off = 0x20 then 7 else if off = 0xB014 ∨ off = 0xC014 then 16 else 32)))) ∧
  (∀ s, s.RegsOk → s.barReaches 0x10 → ∃ t, exec .setupLockSet s = .next t ∧ State.SameBut [.regs, .setup] s t ∧
    (∀ o, o ≠ 0x10 → reg t o = reg s o) ∧ locked t = true) ∧
  (∀ (v : W32) (s : State), s.RegsOk → s.barReaches 0x24 → ∃ t u,
    exec (.noticeEnableWrite v) s = .next t ∧ t = (if v &&& reg s 0x20 &&& 0x7F = 0 then u else msix 32 u) ∧ State.SameBut [.regs] s u ∧
    (∀ o, o ≠ 0x24 → reg u o = reg s o) ∧ ∀ i, bit (reg u 0x24) i = if i < 7 then bit v i else bit (reg s 0x24) i) ∧
  (∀ (v : W32) (s : State), s.Sound → s.barReaches 0x900 → ∃ t, exec (.ctlQSelWrite v) s = .next t ∧ State.SameBut [.regs, .lat] s t ∧
    (latchOf t .bar0).queue = queueWords s (bits v 7 0) ∧ latchOf t .cmd = latchOf s .cmd ∧ latchOf t .firmware = latchOf s .firmware) ∧
  (∀ (v : W32) (s : State), s.Sound → s.barReaches 0x15000 → ∃ t, exec (.monSnapWrite v) s = .next t ∧ State.SameBut [.regs, .lat, .mon] s t ∧
    (latchOf t .bar0).mon = monResults (monOf s (bits v 5 0)) ∧ latchOf t .cmd = latchOf s .cmd ∧ latchOf t .firmware = latchOf s .firmware ∧
    monOf t (bits v 5 0) = (if bit v 6 then { monEmpty with armed := (monOf s (bits v 5 0)).armed, at_ := (monOf s (bits v 5 0)).at_ } else monOf s (bits v 5 0)) ∧
    ∀ n, n ≠ bits v 5 0 → monOf t n = monOf s n)

/-- Reads that latch (R24, R326, R469, R539, R540), over a path that is open. -/
def Obligations.LatchingReads : Prop :=
  (∀ (p : Path) (s : State), s.Sound → (p = .bar0 → barOpen s = true) → blockDown 0x10020 s = false →
    ∃ t, exec (.timNowNsRead p) s = .next t ∧ State.SameBut [.lat, .out] s t ∧ t.out = .regRead p 0x10020 (BitVec.ofNat 32 (clkNs s.tim.clk)) :: s.out ∧
      (latchOf t p).nowLo = BitVec.ofNat 32 (clkSec s.tim.clk) ∧ (latchOf t p).nowHi = BitVec.ofNat 32 (clkSec s.tim.clk / 2 ^ 32 % 65536) ∧
      (latchOf t p).nowFrac = BitVec.ofNat 32 (s.tim.clk % 65536) ∧ ∀ q, q ≠ p → latchOf t q = latchOf s q) ∧
  (∀ (p : Path) (s : State), s.Sound → (p = .bar0 → barOpen s = true) → blockDown 0x4018 s = false →
    ∃ t, exec (.seqPairLoRead p 0x4018) s = .next t ∧ State.SameBut [.lat, .out] s t ∧ t.out = .regRead p 0x4018 (BitVec.ofNat 32 s.arch.durable) :: s.out ∧
      (latchOf t p).flsHi = BitVec.ofNat 32 (s.arch.durable / 2 ^ 32) ∧ ∀ q, q ≠ p → latchOf t q = latchOf s q) ∧
  (∀ (p : Path) (s : State), s.Sound → (p = .bar0 → barOpen s = true) → blockDown 0x16008 s = false →
    ∃ t, exec (.seqPairLoRead p 0x16008) s = .next t ∧ State.SameBut [.lat, .out] s t ∧ t.out = .regRead p 0x16008 (BitVec.ofNat 32 (evtNext s - 1)) :: s.out ∧
      (latchOf t p).lastHi = BitVec.ofNat 32 ((evtNext s - 1) / 2 ^ 32) ∧ ∀ q, q ≠ p → latchOf t q = latchOf s q) ∧
  (∀ (p : Path) (s : State), s.Sound → (p = .bar0 → barOpen s = true) → blockDown 0x16010 s = false →
    ∃ t, exec (.seqPairLoRead p 0x16010) s = .next t ∧ State.SameBut [.lat, .out] s t ∧ t.out = .regRead p 0x16010 (BitVec.ofNat 32 (evtOldest s)) :: s.out ∧
      (latchOf t p).oldestHi = BitVec.ofNat 32 (evtOldest s / 2 ^ 32) ∧ ∀ q, q ≠ p → latchOf t q = latchOf s q) ∧
  (∀ (p : Path) (s : State), s.Sound → (p = .bar0 → barOpen s = true) → blockDown 0xF100 s = false →
    ∃ t, exec (.meaPqSecondRead p 0) s = .next t ∧ State.SameBut [.lat, .out] s t ∧ t.out = .regRead p 0xF100 ((meaHead s 0).pq.getD 0 0) :: s.out ∧
      (latchOf t p).pq0 = (meaHead s 0).pq ∧ ∀ q, q ≠ p → latchOf t q = latchOf s q) ∧
  (∀ (p : Path) (s : State), s.Sound → (p = .bar0 → barOpen s = true) → blockDown 0xF180 s = false →
    ∃ t, exec (.meaPqSecondRead p 1) s = .next t ∧ State.SameBut [.lat, .out] s t ∧ t.out = .regRead p 0xF180 ((meaHead s 1).pq.getD 0 0) :: s.out ∧
      (latchOf t p).pq1 = (meaHead s 1).pq ∧ ∀ q, q ≠ p → latchOf t q = latchOf s q) ∧
  ∀ (p : Path) (off : Nat) (i : Instr) (s : State), (p = .bar0 → barOpen s = true) → blockDown off s = true →
    ((i, off) = (.timNowNsRead p, 0x10020) ∨ (off ∈ [0x4018, 0x16008, 0x16010] ∧ i = .seqPairLoRead p off) ∨
      (i, off) = (.meaPqSecondRead p 0, 0xF100) ∨ (i, off) = (.meaPqSecondRead p 1, 0xF180)) →
    exec i s = .next (emit (.regRead p off 0) (count 0x48 s))

/-- REG_READ and REG_WRITE_AU (R24, R407, R414, R536, R539). -/
def Obligations.RegisterCommands : Prop :=
  (∀ (h : Hdr) (off n : Nat) (s u : State), State.entered h (.regRead off n) s = some u → 1 ≤ n → n ≤ 256 →
    (∀ i < n, blockDown (off + 4 * i) u = false ∧ (regDef (off + 4 * i)).isSome ∧ readLatch .cmd (off + 4 * i) u = u) →
    exec (.regRead h off n) s = .next (State.answered h (.regRead off n) ⟨.ok, [], (List.range n).map fun i =>
      be 4 ((shown (latchOf u .cmd) (off + 4 * i) u).getD (reg u (off + 4 * i))).toNat⟩ u u)) ∧
  (∀ (h : Hdr) (off : Nat) (s u : State), State.entered h (.regRead off 1) s = some u →
    (blockDown off u = true ∨ regDef off = none) → exec (.regRead h off 1) s = .next (State.answered h (.regRead off 1)
      ⟨.ok, [], [be 4 0]⟩ u (count (if blockDown off u then 0x48 else 0x50) u))) ∧
  (∀ (h : Hdr) (off n : Nat) (s u : State), State.entered h (.regRead off n) s = some u → (n = 0 ∨ 256 < n) →
    exec (.regRead h off n) s = .next (State.answered h (.regRead off n) .bad u u)) ∧
  (∀ (h : Hdr) (off : Nat) (mask v : W32) (s u : State) (d : RegDef), s.RegsOk → State.entered h (.regWriteAu off mask v) s = some u →
    regDef off = some d → auMaskOk d mask = true → blockDown off u = false → off ∉ [0x44, 0x17004, 0x17008, 0x17024, 0x17028, 0x1702C] →
    ∃ t, exec (.regWriteAu h off mask v) s = .next t ∧ reg t off = newWord auCan d off mask v u ∧
      ∀ o, isSetup o = true → o ≠ off → o ≠ 0xD010 → reg t o = reg u o) ∧
  (∀ (h : Hdr) (off : Nat) (mask v : W32) (s u : State), State.entered h (.regWriteAu off mask v) s = some u → off ≠ 0x17028 →
    (∀ d, regDef off = some d → auMaskOk d mask = false) →
    exec (.regWriteAu h off mask v) s = .next (State.answered h (.regWriteAu off mask v) .bad u u)) ∧
  (∀ (h : Hdr) (off : Nat) (mask v : W32) (s u : State) (d : RegDef), State.entered h (.regWriteAu off mask v) s = some u → off ≠ 0x17028 →
    regDef off = some d → auMaskOk d mask = true → blockDown off u = true →
    exec (.regWriteAu h off mask v) s = .next (State.answered h (.regWriteAu off mask v) .done u (count 0x48 u)))

/-- PROFILE_REQUEST, and the power targets (R37, R38, R525, R526, R529). -/
def Obligations.ProfileAndPower : Prop :=
  (∀ (h : Hdr) (v : W32) (s u : State) (q : Nat), State.entered h (.regWriteAu 0x44 0x300 v) s = some u → blockDown 0x44 u = false →
    u.clusters.changing = false → bits v 9 8 = q → q < 3 → q ≠ u.clusters.cur.toNat → runClusters u ≠ [] →
    ∃ t, exec (.profileRequest h 0x300 v) s = .next t ∧
      t.clusters = { u.clusters with req := BitVec.ofNat 2 q, changing := true, toSwitch := runClusters u, clusterProf := [] }) ∧
  (∀ (h : Hdr) (v : W32) (s u : State), State.entered h (.regWriteAu 0x44 0x300 v) s = some u → blockDown 0x44 u = false →
    u.clusters.changing = false → bits v 9 8 = 3 →
    exec (.profileRequest h 0x300 v) s = .next (State.answered h (.regWriteAu 0x44 0x300 v) .done u (event 1 0x07 0 [] u))) ∧
  (∀ (h : Hdr) (v : W32) (s u : State), State.entered h (.regWriteAu 0x44 0x300 v) s = some u → blockDown 0x44 u = false →
    u.clusters.changing = true →
    exec (.profileRequest h 0x300 v) s = .next (State.answered h (.regWriteAu 0x44 0x300 v) .busy u u)) ∧
  (∀ (h : Hdr) (s u : State), s.MapsOk → State.entered h (.regWriteAu 0x1702C 0x30000000 0) s = some u → blockDown 0x1702C u = false →
    ∃ t, exec (.powerTargetRun h 0x30000000) s = .next t ∧ t.boot = { u.boot with power := .run, target := .run } ∧
      ∀ n, islOf t n = if (islOf u n).st = .gated then { islOf u n with st := .run } else islOf u n) ∧
  (∀ (h : Hdr) (s u : State), State.entered h (.regWriteAu 0x1702C 0x30000000 0x10000000) s = some u → blockDown 0x1702C u = false →
    u.boot.power ≠ .hold →
    ∃ t, exec (.powerTargetDoze h 0x30000000) s = .next t ∧ t.boot = { u.boot with power := .doze, target := .doze } ∧ t.isl = u.isl) ∧
  (∀ (h : Hdr) (s u : State), s.MapsOk → State.entered h (.regWriteAu 0x1702C 0x30000000 0x20000000) s = some u → blockDown 0x1702C u = false →
    u.boot.power = .run → u.pair.st ∉ [.active, .activeAlone, .standby, .copying] → 
    ∃ t, exec (.powerTargetHold h 0x30000000) s = .next t ∧ t.boot = { u.boot with power := .hold, target := .hold } ∧
      ∀ n, (islOf u n).st ≠ .gated → islOf t n = if (islOf u n).st = .run ∧ holdKeeps u n = false then { islOf u n with st := .gated } else islOf u n) ∧
  (∀ (h : Hdr) (s u : State), State.entered h (.regWriteAu 0x1702C 0x30000000 0x20000000) s = some u → blockDown 0x1702C u = false →
    (u.pair.st = .active ∨ u.pair.st = .activeAlone) →
    exec (.powerTargetHold h 0x30000000) s = .next (State.answered h (.regWriteAu 0x1702C 0x30000000 0x20000000) .busy u u)) ∧
  (∀ (h : Hdr) (s u : State), State.entered h (.regWriteAu 0x1702C 0x30000000 0x30000000) s = some u → blockDown 0x1702C u = false →
    (u.boot.power = .run ∨ u.boot.power = .doze) → u.pair.st ≠ .active → u.pair.st ≠ .activeAlone → u.boot.wakeLow = false →
    ∃ t, exec (.powerTargetBackup h 0x30000000) s = .next t ∧ t.boot.power = .backup ∧ t.boot.pwrEn = false ∧ t.boot.mainSupply = false ∧
      t.pair.claimFlash = u.pair.claim ∧ t.pair.actOut = false) ∧
  (∀ (h : Hdr) (s u : State), State.entered h (.regWriteAu 0x1702C 0x30000000 0x30000000) s = some u → blockDown 0x1702C u = false →
    (u.boot.power = .run ∨ u.boot.power = .doze) → u.pair.st ≠ .active → u.pair.st ≠ .activeAlone → u.boot.wakeLow = true →
    exec (.powerTargetBackup h 0x30000000) s = .next (State.answered h (.regWriteAu 0x1702C 0x30000000 0x30000000) .done u
      { u with boot := { u.boot with target := .run, wakeLow := false } })) ∧
  (∀ (h : Hdr) (s u : State), State.entered h (.regWriteAu 0x1702C 0x30000000 0x30000000) s = some u → blockDown 0x1702C u = false →
    (u.pair.st = .active ∨ u.pair.st = .activeAlone) →
    exec (.powerTargetBackup h 0x30000000) s = .next (State.answered h (.regWriteAu 0x1702C 0x30000000 0x30000000) .busy u u))

/-- The reset sources (R502, R503, R505, R533, R554, R560). -/
def Obligations.ResetSources : Prop :=
  (∀ s, s.RegsOk → ∃ t, exec .powerOnReset s = .next t ∧ State.ResetBy 1 0 .main s t ∧ t.boot.mainSupply = true ∧
    reg t 0x1014 = satAdd (reg s 0x1014) 1) ∧
  (∀ (supply : Nat) (s : State), s.RegsOk → s.boot.mainSupply = true → s.boot.phase = .started → supply ≤ 8 →
    ∃ t, exec (.brownOut supply) s = .next t ∧ State.ResetBy 2 supply .main s t) ∧
  (∀ s, s.RegsOk → s.boot.mainSupply = true → s.boot.phase = .started →
    ∃ t, exec .externalReset s = .next t ∧ State.ResetBy 3 0 .unit s t) ∧
  (∀ s, s.RegsOk → s.boot.wdtStopped = false → engInRun s = true → s.boot.phase = .started →
    ∃ t, exec .watchdogExpiry s = .next t ∧ State.ResetBy 4 0 .unit s t) ∧
  (∀ s, s.boot.wdtStopped = true ∨ engInRun s = false → exec .watchdogExpiry s = .next s) ∧
  (∀ s, s.RegsOk → s.boot.mainSupply = true → s.boot.phase = .started → 13500 < junction s →
    ∃ t, exec .thermalReset s = .next t ∧ State.ResetBy 6 0 .unit s t) ∧
  (∀ s, s.RegsOk → s.boot.mainSupply = true → s.boot.phase = .started →
    ∃ t, exec .clockLoss s = .next t ∧ State.ResetBy 7 0 .unit s t) ∧
  ∀ (h : Hdr) (v : W32) (s u : State), s.RegsOk → State.entered h (.regWriteAu 0x17004 0xFFFF (setBits v 15 0 0x5253)) s = some u →
    blockDown 0x17004 u = false → u.boot.phase = .started →
    ∃ t, exec (.unitResetCommand h 0xFFFF v) s = .next t ∧ State.ResetBy 5 0 .unit u t

/-- SW_BLOCK_RESET and SW_BLOCK_RELEASE (R505, R510, R524): every block that a mask names, and what one island goes through. -/
def Obligations.BlockResets : Prop :=
  (∀ (h : Hdr) (mask : W32) (s u : State), State.entered h (.regWriteAu 0x17008 mask (BitVec.allOnes 32)) s = some u → blockDown 0x17008 u = false →
    mask ≠ 0 → mask &&& ~~~0xFFFFFC = 0 → exec (.swBlockReset h mask) s = .next (State.answered h (.regWriteAu 0x17008 mask (BitVec.allOnes 32)) .done u
      (swReset (reg u 0x17008) (reg u 0x17008 ||| mask) (setReg 0x17008 (reg u 0x17008 ||| mask) u)))) ∧
  (∀ (h : Hdr) (mask : W32) (s u : State), State.entered h (.regWriteAu 0x17008 mask 0) s = some u → blockDown 0x17008 u = false →
    mask ≠ 0 → mask &&& ~~~0xFFFFFC = 0 → exec (.swBlockRelease h mask) s = .next (State.answered h (.regWriteAu 0x17008 mask 0) .done u
      (swReset (reg u 0x17008) (reg u 0x17008 &&& ~~~mask) (setReg 0x17008 (reg u 0x17008 &&& ~~~mask) u)))) ∧
  (∀ (h : Hdr) (n : Nat) (s u : State), s.Sound → 2 ≤ n → n ≤ 20 →
    State.entered h (.regWriteAu 0x17008 (1#32 <<< n) (BitVec.allOnes 32)) s = some u → blockDown 0x17008 u = false → bit (reg u 0x17008) n = false →
    ∃ t, exec (.swBlockReset h (1#32 <<< n)) s = .next t ∧ islOf t n = ⟨.reset, 0, false⟩ ∧ (∀ m, m ≠ n → islOf t m = islOf u m) ∧
      ∀ o, isSetup o = true → o / 0x1000 = n → reg t o = regReset o) ∧
  ∀ (h : Hdr) (n : Nat) (s u : State), s.Sound → 2 ≤ n → n ≤ 20 → State.entered h (.regWriteAu 0x17008 (1#32 <<< n) 0) s = some u →
    blockDown 0x17008 u = false → bit (reg u 0x17008) n = true → (islOf u n).st = .reset →
    ∃ t w, exec (.swBlockRelease h (1#32 <<< n)) s = .next t ∧ w = setReg 0x17008 (reg u 0x17008 &&& ~~~(1#32 <<< n)) u ∧
      islOf t n = ⟨if u.boot.trims.contains n = false then .trimInvalid
        else if wanted (if u.boot.mode == .test then w else applySettings (fun o => o / 0x1000 == n) w) n then .pending else .off, 0, false⟩ ∧
      ∀ m, m ≠ n → islOf t m = islOf u m

/-- TBL_READ, TBL_FIND and TBL_DUMP (R74, R75, R574): what each answers; nothing changes. -/
def Obligations.TableReads : Prop :=
  (∀ (h : Hdr) (slot : Nat) (s u : State), State.entered h (.tblRead slot) s = some u → slot < 2 ^ bits (reg u 0x200) 23 16 →
    exec (.tblRead h slot) s = .next (State.answered h (.tblRead slot) ⟨.ok, padTo 40 (be 4 slot ++ be 1 (fld (imgOf u slot) 8 1) ++ be 3 0 ++
      be 4 (fld (imgOf u slot) 12 4)), [be 256 (hostImg u (imgOf u slot)).toNat]⟩ u u)) ∧
  (∀ (h : Hdr) (slot : Nat) (s u : State), State.entered h (.tblRead slot) s = some u → 2 ^ bits (reg u 0x200) 23 16 ≤ slot →
    exec (.tblRead h slot) s = .next (State.answered h (.tblRead slot) .bad u u)) ∧
  (∀ (h : Hdr) (title : W64) (n : Nat) (s u : State), State.entered h (.tblFind title) s = some u → idxFind u title = some n →
    exec (.tblFind h title) s = .next (State.answered h (.tblFind title) ⟨.ok, padTo 40 (be 4 n ++ be 1 (fld (imgOf u n) 8 1) ++ be 3 0 ++
      be 4 (fld (imgOf u n) 12 4)), [be 256 (hostImg u (imgOf u n)).toNat]⟩ u u)) ∧
  (∀ (h : Hdr) (title : W64) (s u : State), State.entered h (.tblFind title) s = some u → idxFind u title = none →
    exec (.tblFind h title) s = .next (State.answered h (.tblFind title) ⟨.ok, padTo 40 (be 4 0x3FFFFF ++ be 1 0 ++ be 3 0 ++ be 4 0), []⟩ u u)) ∧
  (∀ (h : Hdr) (first count : Nat) (s u : State), State.entered h (.tblDump first count) s = some u → first < 2 ^ bits (reg u 0x200) 23 16 → 0 < count →
    exec (.tblDump h first count) s = .next (State.answered h (.tblDump first count) ⟨.ok, padTo 40 (be 4 first ++ be 1 0 ++ be 3 0 ++ be 4 0),
      (List.range (min count (2 ^ bits (reg u 0x200) 23 16 - first))).map fun i => be 256 (hostImg u (imgOf u (first + i))).toNat⟩ u u)) ∧
  (∀ (h : Hdr) (first count : Nat) (s u : State), State.entered h (.tblDump first count) s = some u → 2 ^ bits (reg u 0x200) 23 16 ≤ first →
    exec (.tblDump h first count) s = .next (State.answered h (.tblDump first count) ⟨.ok, padTo 40 (be 4 (first % 2 ^ 22) ++ be 1 0 ++ be 3 0 ++ be 4 0), []⟩ u u)) ∧
  (∀ (s : State) (r : RecImg), fld r 8 1 = 0 → (∀ o l, o + l ≤ 12 ∨ 16 ≤ o ∧ o + l ≤ 256 → fld (hostImg s r) o l = 0) ∧ fld (hostImg s r) 12 4 = fld r 12 4) ∧
  ∀ (s : State) (r : RecImg), fld r 8 1 ≠ 0 → ∀ f ∈ [(32, 48), (176, 48), (85, 11), (150, 2), (172, 4)], fld (hostImg s r) f.1 f.2 = 0

/-- TBL_WRITE and TBL_SET (R48, R49, R57, R76). -/
def Obligations.RecordWrites : Prop :=
  (∀ (h : Hdr) (slot : Nat) (expect : W32) (mask : BitVec 256) (image : RecImg) (s u : State), State.entered h (.tblWrite slot expect mask image) s = some u →
    slot < 2 ^ bits (reg u 0x200) 23 16 → expect = 0 ∨ expect = recSeq (imgOf u slot) → mask ≠ 0 → fld (imgOf u slot) 8 1 ∉ [0, 4] → maskOk wFields mask = true →
    flagsRefused mask image (imgOf u slot) = false →
    ∃ t, exec (.tblWrite h slot expect mask image) s = .next t ∧ recSeq (imgOf t slot) = recSeq (imgOf u slot) + 1 ∧
      (∀ k, k < 256 → k / 4 ≠ 3 → maskByte mask k = false → fld (imgOf t slot) k 1 = fld (imgOf u slot) k 1) ∧
      (∀ f ∈ wFields, covers mask f = true → f.1 ∉ [10, 84, 146] → fld (imgOf t slot) f.1 f.2 = fld image f.1 f.2) ∧
      (covers mask (84, 1) = true → fld (imgOf t slot) 84 1 = min 64 (fld image 84 1)) ∧
      (slotOf t slot).keys = (slotOf u slot).keys ∧ ∀ n, n ≠ slot → slotOf t n = slotOf u n) ∧
  (∀ (h : Hdr) (slot : Nat) (expect : W32) (mask : BitVec 256) (image : RecImg) (s u : State), State.entered h (.tblWrite slot expect mask image) s = some u →
    slot < 2 ^ bits (reg u 0x200) 23 16 → expect ≠ 0 → expect ≠ recSeq (imgOf u slot) →
    exec (.tblWrite h slot expect mask image) s = .next (State.answered h (.tblWrite slot expect mask image) .busy u u)) ∧
  (∀ (h : Hdr) (slot : Nat) (mask : BitVec 256) (image : RecImg) (s u : State), State.entered h (.tblWrite slot 0 mask image) s = some u →
    2 ^ bits (reg u 0x200) 23 16 ≤ slot ∨ mask ≠ 0 ∧ (fld (imgOf u slot) 8 1 = 0 ∨ fld (imgOf u slot) 8 1 = 4 ∨ maskOk wFields mask = false) →
    exec (.tblWrite h slot 0 mask image) s = .next (State.answered h (.tblWrite slot 0 mask image) .bad u u)) ∧
  (∀ (h : Hdr) (slot : Nat) (image : RecImg) (s u : State), slot < 2 ^ bits (reg u 0x200) 23 16 → (State.entered h (.tblWrite slot 0 0 image) s = some u →
      exec (.tblWrite h slot 0 0 image) s = .next (State.answered h (.tblWrite slot 0 0 image) .done u u)) ∧
    (State.entered h (.tblSet slot 0 0 image) s = some u → exec (.tblSet h slot 0 0 image) s = .next (State.answered h (.tblSet slot 0 0 image) .done u u))) ∧
  (∀ (h : Hdr) (slot : Nat) (expect : W32) (mask : BitVec 256) (image : RecImg) (s u : State), State.entered h (.tblSet slot expect mask image) s = some u →
    slot < 2 ^ bits (reg u 0x200) 23 16 → expect = 0 ∨ expect = recSeq (imgOf u slot) → covers mask (8, 1) = true → maskOk aFields mask = true →
    (fld (imgOf u slot) 8 1, fld image 8 1) ∈ [(1, 1), (2, 2), (3, 3), (1, 3), (2, 3), (3, 2)] →
    ∃ t, exec (.tblSet h slot expect mask image) s = .next t ∧ fld (imgOf t slot) 8 1 = fld image 8 1 ∧ recSeq (imgOf t slot) = recSeq (imgOf u slot) + 1 ∧
      (covers mask (16, 2) = true → recService (imgOf t slot) = BitVec.ofNat 12 (fld image 16 2)) ∧ (covers mask (80, 4) = true → fld (imgOf t slot) 80 4 = fld image 80 4) ∧
      (∀ k, k < 256 → k / 4 ≠ 3 → k ≠ 10 → k ≠ 11 → maskByte mask k = false → fld (imgOf t slot) k 1 = fld (imgOf u slot) k 1) ∧
      (slotOf t slot).keys = (slotOf u slot).keys ∧ ∀ n, n ≠ slot → slotOf t n = slotOf u n) ∧
  ∀ (h : Hdr) (slot : Nat) (mask : BitVec 256) (image : RecImg) (s u : State), State.entered h (.tblSet slot 0 mask image) s = some u →
    slot < 2 ^ bits (reg u 0x200) 23 16 → covers mask (8, 1) = true →
    fld (imgOf u slot) 8 1 ≤ 4 → (fld (imgOf u slot) 8 1, fld image 8 1) ∉ [(1, 1), (2, 2), (3, 3), (1, 3), (2, 3), (3, 2), (1, 4), (2, 4), (3, 4)] →
    exec (.tblSet h slot 0 mask image) s = .next (State.answered h (.tblSet slot 0 mask image) .bad u u)

/-- TBL_PROVISION, TBL_KEY_STAGE, TBL_RETIRE, the TBL_SET that retires, and KEY_SIGNER_LOAD (R54, R55, R57, R65, R69, R77, R94). -/
def Obligations.MeterLifecycle : Prop :=
  (∀ (h : Hdr) (title : W64) (gen window : Byte) (rules : BitVec 16) (service : BitVec 12) (ek ak : Wrapped) (e a : Key) (n : Nat) (c : Nat × IdxEntry) (s u : State),
    State.entered h (.tblProvision title gen window rules service ek ak) s = some u → isHead u = true → idxFind u title = none → unwrapCmd h u ek = some e →
    unwrapCmd h u ak = some a → freeSlot u = some n → idxInsertion u title n = some c →
    ∃ t, exec (.tblProvision h title gen window rules service ek ak) s = .next t ∧ t.table.index = Kv.put c.1 c.2 u.table.index ∧ recTitle (imgOf t n) = title ∧
      fld (imgOf t n) 8 1 = 1 ∧ fld (imgOf t n) 9 1 = 0xC0 ∧ recService (imgOf t n) = service ∧ fld (imgOf t n) 18 2 = 0xFFFF ∧
      fld (imgOf t n) 28 1 = (newestTkek u).1 % 256 ∧ fld (imgOf t n) 84 1 = min 64 window.toNat ∧ fld (imgOf t n) 142 2 = rules.toNat ∧
      recSeq (imgOf t n) = recSeq (imgOf u n) + 1 ∧ (slotOf t n).keys.ek = ⟨.table (newestTkek u).2, e, true⟩ ∧ (slotOf t n).keys.ak = ⟨.table (newestTkek u).2, a, true⟩ ∧
      ∀ m, m ≠ n → slotOf t m = slotOf u m) ∧
  (∀ (h : Hdr) (title : W64) (gen window : Byte) (rules : BitVec 16) (service : BitVec 12) (ek ak : Wrapped) (s u : State),
    State.entered h (.tblProvision title gen window rules service ek ak) s = some u →
    ((isHead u = false ∨ (idxFind u title).isSome = true ∨ unwrapCmd h u ek = none ∨ unwrapCmd h u ak = none) →
      exec (.tblProvision h title gen window rules service ek ak) s = .next (State.answered h (.tblProvision title gen window rules service ek ak) .bad u u)) ∧
    (isHead u = true → idxFind u title = none → (unwrapCmd h u ek).isSome = true → (unwrapCmd h u ak).isSome = true → freeSlot u = none → u.RegsOk →
      ∃ v, exec (.tblProvision h title gen window rules service ek ak) s = .next (State.answered h (.tblProvision title gen window rules service ek ak) .busy u v) ∧
        v.table = u.table ∧ (reg v 0x210).toNat = min 0xFFFFFFFF ((reg u 0x210).toNat + 1))) ∧
  (∀ (h : Hdr) (slot : Nat) (gen : Byte) (ek ak : Wrapped) (e a : Key) (s u : State), State.entered h (.tblKeyStage slot gen ek ak) s = some u →
    slot < 2 ^ bits (reg u 0x200) 23 16 → fld (imgOf u slot) 8 1 ∉ [0, 4] → unwrapCmd h u ek = some e → unwrapCmd h u ak = some a →
    ∃ t, exec (.tblKeyStage h slot gen ek ak) s = .next t ∧ fld (imgOf t slot) 28 1 = (newestTkek u).1 % 256 ∧ fld (imgOf t slot) 31 1 = 0x80 ∧
      recSeq (imgOf t slot) = recSeq (imgOf u slot) + 1 ∧ (∀ k, k < 256 → k / 4 ≠ 3 → k ≠ 28 → k ≠ 31 → fld (imgOf t slot) k 1 = fld (imgOf u slot) k 1) ∧
      (slotOf t slot).keys.pendEk = ⟨.table (newestTkek u).2, e, true⟩ ∧ (slotOf t slot).keys.pendAk = ⟨.table (newestTkek u).2, a, true⟩ ∧ (slotOf t slot).keys.pendGen = gen ∧
      (match unwrapRec u (kekVer (imgOf u slot)) (slotOf u slot).keys.ek, unwrapRec u (kekVer (imgOf u slot)) (slotOf u slot).keys.ak with
       | some x, some y => (slotOf t slot).keys.ek = ⟨.table (newestTkek u).2, x, true⟩ ∧ (slotOf t slot).keys.ak = ⟨.table (newestTkek u).2, y, true⟩
       | _, _ => (slotOf t slot).keys.ek = (slotOf u slot).keys.ek ∧ (slotOf t slot).keys.ak = (slotOf u slot).keys.ak) ∧
      ∀ n, n ≠ slot → slotOf t n = slotOf u n) ∧
  (∀ (h : Hdr) (slot : Nat) (s u : State), s.RegsOk → State.entered h (.tblRetire slot) s = some u → slot < 2 ^ bits (reg u 0x200) 23 16 → fld (imgOf u slot) 8 1 ∉ [0, 4] →
    ∃ t, exec (.tblRetire h slot) s = .next t ∧ t.table.index = (match idxDeletion u (recTitle (imgOf u slot)) with | some c => Kv.put c.1 c.2 u.table.index | none => u.table.index) ∧
      (bits (reg u 0x204) 15 8 ≠ 0 ∨ slotHeld slot u = true → fld (imgOf t slot) 8 1 = 4 ∧ (slotOf t slot).retiredAt = u.tim.clk ∧
        recSeq (imgOf t slot) = recSeq (imgOf u slot) + 1 ∧ (slotOf t slot).keys = (slotOf u slot).keys) ∧
      (bits (reg u 0x204) 15 8 = 0 → slotHeld slot u = false → fld (imgOf t slot) 8 1 = 0 ∧ (slotOf t slot).keys = noKeys ∧ recSeq (imgOf t slot) = recSeq (imgOf u slot) + 2) ∧
      (isHead u = true → recService (imgOf u slot) ≠ 0xFFF#12 → ∃ k l, Kv.get? k t.relay.open_ = some (l ++ [(u.tim.raw, .release (recTitle (imgOf u slot)))])) ∧
      ∀ n, n ≠ slot → slotOf t n = slotOf u n) ∧
  (∀ (h : Hdr) (slot : Nat) (mask : BitVec 256) (image : RecImg) (s u v : State), State.entered h (.tblSet slot 0 mask image) s = some u →
    State.entered h (.tblRetire slot) v = some u → slot < 2 ^ bits (reg u 0x200) 23 16 → fld (imgOf u slot) 8 1 ∈ [1, 2, 3] → covers mask (8, 1) = true →
    fld image 8 1 = 4 → maskOk aFields mask = true → covers mask (16, 2) = false → covers mask (80, 4) = false →
    ∃ w, exec (.tblSet h slot 0 mask image) s = .next (State.answered h (.tblSet slot 0 mask image) .done u w) ∧
      exec (.tblRetire h slot) v = .next (State.answered h (.tblRetire slot) .done u w)) ∧
  (∀ (h : Hdr) (slot curve : Nat) (key : BitVec 768) (s u : State), State.entered h (.keySignerLoad slot curve key) s = some u → isHead u = true →
    slot < 2 ^ bits (reg u 0x200) 23 16 → fld (imgOf u slot) 8 1 ∉ [0, 4] → curve ≤ 2 → Kv.wf u.sec.signers = true →
    ∃ t, exec (.keySignerLoad h slot curve key) s = .next t ∧ Kv.get? slot t.sec.signers = (if curve = 0 then none else some ⟨curve, key⟩) ∧
      ∀ n, n ≠ slot → Kv.get? n t.sec.signers = Kv.get? n u.sec.signers)

/-- RULE_LOAD, RULE_ACTIVATE, RULE_REMOVE, RULE_READ and ACTIVATION_MARK_PASS (R143 to R146, R574). -/
def Obligations.RuleBanks : Prop :=
  (∀ (h : Hdr) (image : List Byte) (p : RuleProg) (s u : State), State.entered h (.ruleLoad image) s = some u → u.RegsOk → Kv.wf u.rules.sets = true → isHead u = true →
    checkImage image = .inr p → (∀ q, (ruleSet u p.setId).act = some q ∨ (ruleSet u p.setId).shd = some q → q.version.toNat < p.version.toNat) →
    (∀ m ∈ u.rules.marks, p.setId ∉ m.sets) →
    ∃ v, exec (.ruleLoad h image) s = .next (State.answered h (.ruleLoad image) .done u v) ∧ ruleSet v p.setId = { ruleSet u p.setId with shd := some p } ∧
      (∀ n, n ≠ p.setId → ruleSet v n = ruleSet u n) ∧ v.rules.marks = u.rules.marks ∧ bits (reg v 0x404) 31 24 = 0) ∧
  (∀ (h : Hdr) (image : List Byte) (code index : Nat) (s u : State), State.entered h (.ruleLoad image) s = some u → u.RegsOk → isHead u = true →
    checkImage image = .inl (code, index) → code < 256 →
    ∃ v, exec (.ruleLoad h image) s = .next (State.answered h (.ruleLoad image) .bad u v) ∧ v.rules = u.rules ∧ bits (reg v 0x404) 31 24 = code ∧
      bits (reg v 0x404) 21 16 = index % 64) ∧
  (∀ (h : Hdr) (image : List Byte) (p q : RuleProg) (s u : State), State.entered h (.ruleLoad image) s = some u → u.RegsOk → isHead u = true →
    checkImage image = .inr p → (ruleSet u p.setId).act = some q ∨ (ruleSet u p.setId).shd = some q → p.version.toNat ≤ q.version.toNat →
    ∃ v, exec (.ruleLoad h image) s = .next (State.answered h (.ruleLoad image) .bad u v) ∧ v.rules = u.rules ∧ bits (reg v 0x404) 31 24 = 0x0D) ∧
  (∀ (h : Hdr) (sets : List Nat) (s u : State), State.entered h (.ruleActivate sets) s = some u → isHead u = true → sets ≠ [] → sets.length ≤ 16 → sets.Nodup →
    (∀ n ∈ sets, 1 ≤ n ∧ n ≤ 255 ∧ (ruleSet u n).shd ≠ none ∧ ∀ m ∈ u.rules.marks, n ∉ m.sets) →
    ∃ t, exec (.ruleActivate h sets) s = .next t ∧ t.rules.sets = u.rules.sets ∧ t.rules.marks = u.rules.marks ++ [⟨sets, false, u.pipe.nextId, runClusters u, [], h⟩]) ∧
  (∀ (h : Hdr) (sets : List Nat) (s u : State), State.entered h (.ruleRemove sets) s = some u → isHead u = true → sets ≠ [] → sets.length ≤ 16 → sets.Nodup →
    (∀ n ∈ sets, 1 ≤ n ∧ n ≤ 255 ∧ (ruleSet u n).act ≠ none ∧ ∀ m ∈ u.rules.marks, n ∉ m.sets) →
    ∃ t, exec (.ruleRemove h sets) s = .next t ∧ t.rules.sets = u.rules.sets ∧ t.rules.marks = u.rules.marks ++ [⟨sets, true, u.pipe.nextId, runClusters u, [], h⟩]) ∧
  (∀ (h : Hdr) (sets : List Nat) (s u : State), State.entered h (.ruleActivate sets) s = some u →
    (isHead u = false ∨ sets = [] ∨ 16 < sets.length ∨ ¬ sets.Nodup) → exec (.ruleActivate h sets) s = .next (State.answered h (.ruleActivate sets) .bad u u)) ∧
  (∀ (h : Hdr) (n : Nat) (s u : State), State.entered h (.ruleRead n) s = some u → 1 ≤ n → n ≤ 255 →
    ∃ r l, exec (.ruleRead h n) s = .next (State.answered h (.ruleRead n) ⟨.ok, r, l⟩ u u) ∧
      r.take 4 = be 2 n ++ be 1 ((if (ruleSet u n).act.isSome then 2 else 0) + if (ruleSet u n).shd.isSome then 1 else 0) ++ be 1 0 ∧
      l.length = (if (ruleSet u n).act.isSome then 1 else 0) + (if (ruleSet u n).shd.isSome then 1 else 0)) ∧
  (∀ (c : Nat) (m : RuleMark) (s : State), s.rules.marks = [m] → m.waiting = [c] → m.sets.Nodup → Kv.wf s.rules.sets = true → markMayPass s c m.markId = true →
    ∃ t, exec (.activationMarkPass c) s = .next t ∧ t.rules.marks = [] ∧ (∀ n ∈ m.sets, ruleSet t n = if m.remove then ⟨none, (ruleSet s n).shd, (ruleSet s n).fresh, ruleCountsZero⟩ else
      ⟨(ruleSet s n).shd, (ruleSet s n).act, (ruleSet s n).fresh, ruleCountsZero⟩) ∧ ∀ n, n ∉ m.sets → ruleSet t n = ruleSet s n) ∧
  (∀ (c d : Nat) (m : RuleMark) (s : State), s.rules.marks = [m] → m.waiting = [c, d] → c ≠ d → markMayPass s c m.markId = true →
    ∃ t, exec (.activationMarkPass c) s = .next t ∧ t.rules.marks = [{ m with waiting := [d], passed := m.passed ++ [c] }] ∧ t.rules.sets = s.rules.sets)

/-- TOPO_LOAD, TOPO_ACTIVATE and TOPO_READ (R153, R155). -/
def Obligations.TreeBanks : Prop :=
  (∀ (h : Hdr) (nodes : List Node) (s u : State), State.entered h (.topoLoad nodes) s = some u → isHead u = true → nodes ≠ [] → nodes.length ≤ 255 →
    (∀ v ∈ nodes, v.id ≤ 65535 ∧ nodeCheck u v = 0) → u.bal.waiting = none → (nodes.map (·.id)).Nodup → Kv.wf u.bal.active = true → Kv.wf u.bal.shadow = true →
    ∃ t, exec (.topoLoad h nodes) s = .next t ∧ t.bal.active = u.bal.active ∧
      (∀ v ∈ nodes, Kv.get? v.id t.bal.shadow = if v.type = 0xFF then none else some v) ∧ t.bal.copied = true ∧
      ∀ n, n ∉ nodes.map (·.id) → Kv.get? n t.bal.shadow = Kv.get? n (if u.bal.copied then u.bal.shadow else u.bal.active)) ∧
  (∀ (h : Hdr) (nodes : List Node) (s u : State), State.entered h (.topoLoad nodes) s = some u → isHead u = true → nodes ≠ [] → nodes.length ≤ 255 → u.RegsOk →
    (∀ v ∈ nodes, v.id ≤ 65535) → (∃ v ∈ nodes, nodeCheck u v ≠ 0) →
    ∃ v w, exec (.topoLoad h nodes) s = .next (State.answered h (.topoLoad nodes) .bad u w) ∧ v ∈ nodes ∧ nodeCheck u v ≠ 0 ∧ w.bal = u.bal ∧
      reg w 0x538 = BitVec.ofNat 32 (nodeCheck u v * 2 ^ 24 + v.id % 65536)) ∧
  (∀ (h : Hdr) (nodes : List Node) (s u : State), State.entered h (.topoLoad nodes) s = some u → isHead u = true → nodes ≠ [] → nodes.length ≤ 255 → u.RegsOk →
    (∀ v ∈ nodes, v.id ≤ 65535 ∧ nodeCheck u v = 0) → u.bal.waiting.isSome = true →
    ∃ w, exec (.topoLoad h nodes) s = .next (State.answered h (.topoLoad nodes) .busy u w) ∧ w.bal = u.bal ∧ reg w 0x538 = BitVec.ofNat 32 (0x14 * 2 ^ 24)) ∧
  (∀ (h : Hdr) (nodes : List Node) (s u : State), State.entered h (.topoLoad nodes) s = some u → isHead u = false → nodes ≠ [] → nodes.length ≤ 255 → u.RegsOk →
    (∀ v ∈ nodes, v.id ≤ 65535) →
    ∃ w, exec (.topoLoad h nodes) s = .next (State.answered h (.topoLoad nodes) .bad u w) ∧ w.bal = u.bal ∧ reg w 0x538 = BitVec.ofNat 32 (0x06 * 2 ^ 24)) ∧
  (∀ (h : Hdr) (s u : State), State.entered h .topoActivate s = some u → isHead u = true → treeCheck u.bal.shadow = none → u.bal.waiting = none →
    ∃ t, exec (.topoActivate h) s = .next t ∧ t.bal = { u.bal with waiting := some h }) ∧
  (∀ (h : Hdr) (code node : Nat) (s u : State), State.entered h .topoActivate s = some u → isHead u = true → treeCheck u.bal.shadow = some (code, node) → u.RegsOk →
    ∃ w, exec (.topoActivate h) s = .next (State.answered h .topoActivate .bad u w) ∧ w.bal = u.bal ∧ reg w 0x538 = BitVec.ofNat 32 (code * 2 ^ 24 + node % 65536)) ∧
  (∀ (h : Hdr) (s u : State), State.entered h .topoActivate s = some u → isHead u = true → treeCheck u.bal.shadow = none → u.bal.waiting.isSome = true → u.RegsOk →
    ∃ w, exec (.topoActivate h) s = .next (State.answered h .topoActivate .busy u w) ∧ w.bal = u.bal ∧ reg w 0x538 = BitVec.ofNat 32 (0x14 * 2 ^ 24)) ∧
  (∀ (h : Hdr) (s u : State), State.entered h .topoActivate s = some u → isHead u = false → u.RegsOk →
    ∃ w, exec (.topoActivate h) s = .next (State.answered h .topoActivate .bad u w) ∧ w.bal = u.bal ∧ reg w 0x538 = BitVec.ofNat 32 (0x06 * 2 ^ 24)) ∧
  (∀ (h : Hdr) (s : State), isHead s = true → serving s = true → fieldOf s 0x500 31 31 = 1 → balLen s ≠ 0 → s.bal.run = none → s.bal.waiting = some h →
    (s.bal.due ≠ [] ∨ closesNow s ≠ []) →
    ∃ t, exec .balanceIntervalClose s = .next t ∧ t.bal.active = s.bal.shadow ∧ t.bal.shadow = s.bal.active ∧ t.bal.waiting = none ∧ t.bal.copied = false ∧
      t.bal.run.isSome = true) ∧
  (∀ tree : Kv Node, treeCheck tree = none → ∀ p ∈ tree, (p.2.parent ≠ 0xFFFF → present tree p.2.parent = true) ∧ (p.2.parent = 0xFFFF → p.2.type = 0 ∧ p.2.refType = 1) ∧
    (p.2.type = 0 → p.2.parent = 0xFFFF)) ∧
  (∀ (h : Hdr) (bank first count : Nat) (s u : State), State.entered h (.topoRead bank first count) s = some u → bank ≤ 1 → first ≤ 65535 →
    exec (.topoRead h bank first count) s = .next (State.answered h (.topoRead bank first count) ⟨.ok, [], (List.range (min count (65536 - first))).map fun i =>
      nodeBytes ((Kv.get? (first + i) (if bank = 0 then u.bal.active else u.bal.shadow)).getD ⟨first + i, 0, 0xFF, 0, 0, 0, 0, 0, 0, 0, 0, 0, 0, 0⟩)⟩ u u))

/-- BAL_NODE_READ, BAL_METER_READ and BAL_RESET_SCORES (R181, R186; the layouts of the two reads are log entry 25's). -/
def Obligations.BalanceScores : Prop :=
  (∀ (h : Hdr) (node : Nat) (s u : State), State.entered h (.balNodeRead node) s = some u →
    ∃ rec_ more, exec (.balNodeRead h node) s = .next (State.answered h (.balNodeRead node) ⟨.ok, [], [rec_, more]⟩ u u) ∧
      rec_ = padTo 64 (u.bal.nodes.getD node nodeWorkEmpty).result ∧ more.length = 100 ∧ more.drop 98 = be 2 (u.bal.nodes.getD node nodeWorkEmpty).score) ∧
  (∀ (h : Hdr) (slot : Nat) (s u : State), State.entered h (.balMeterRead slot) s = some u → slot < 2 ^ bits (reg u 0x200) 23 16 →
    ∃ r, exec (.balMeterRead h slot) s = .next (State.answered h (.balMeterRead slot) ⟨.ok, r, []⟩ u u) ∧
      r.take 3 = be 2 (workOf u slot).score ++ be 1 (workOf u slot).cover) ∧
  (∀ (h : Hdr) (slot : Nat) (s u : State), State.entered h (.balMeterRead slot) s = some u → 2 ^ bits (reg u 0x200) 23 16 ≤ slot →
    exec (.balMeterRead h slot) s = .next (State.answered h (.balMeterRead slot) .bad u u)) ∧
  (∀ (h : Hdr) (ids : List Nat) (s u : State), State.entered h (.balResetScores 0 ids) s = some u → isHead u = true → (∀ n ∈ ids, n < 2 ^ bits (reg u 0x200) 23 16) →
    ∃ t, exec (.balResetScores h 0 ids) s = .next t ∧ (∀ n ∈ ids, (workOf t n).score = 0) ∧ (∀ n, n ∉ ids → workOf t n = workOf u n ∧ slotOf t n = slotOf u n) ∧
      ∀ n ∈ ids, fld (imgOf u n) 8 1 ≠ 0 → fld (imgOf t n) 148 2 = 0) ∧
  (∀ (h : Hdr) (ids : List Nat) (s u : State), State.entered h (.balResetScores 1 ids) s = some u → isHead u = true → (∀ n ∈ ids, n < 65536) →
    ∃ t, exec (.balResetScores h 1 ids) s = .next t ∧ t.table = u.table ∧ (∀ n ∈ ids, (t.bal.nodes.getD n nodeWorkEmpty).score = 0) ∧
      ∀ n, n ∉ ids → t.bal.nodes.getD n nodeWorkEmpty = u.bal.nodes.getD n nodeWorkEmpty)

/-- CAMP_CREATE, CAMP_DATA and CAMP_SEAL, and the two reads (R199, R202, R208, R215, R223). -/
def Obligations.CampaignImages : Prop :=
  (∀ (h : Hdr) (m : Manifest) (k : Nat) (s u : State), State.entered h (.campCreate m) s = some u → isHead u = true → m.version = 1 → m.campId ≠ 0 → m.reservedOk = true →
    0 < m.imageLen → m.imageLen ≤ 16777216 → m.tableSegs = tableSegsOf m.imageLen → campSigOk u m.signer m.sigAlg m.signedBy = true → campSlot u m.campId = none →
    freeCampSlot u = some k → ∃ t, exec (.campCreate h m) s = .next t ∧ campOf t k = some ⟨.draft, m, [], none, [], [], [], [], false⟩ ∧
      ∀ n, n ≠ k → campOf t n = campOf u n) ∧
  (∀ (h : Hdr) (m : Manifest) (s u : State), State.entered h (.campCreate m) s = some u →
    (isHead u = false ∨ m.version ≠ 1 ∨ m.campId = 0 ∨ m.reservedOk = false ∨ m.imageLen = 0 ∨ 16777216 < m.imageLen ∨ m.tableSegs ≠ tableSegsOf m.imageLen ∨ campSigOk u m.signer m.sigAlg m.signedBy = false ∨
      (campSlot u m.campId).isSome = true) → exec (.campCreate h m) s = .next (State.answered h (.campCreate m) .bad u u)) ∧
  (∀ (h : Hdr) (n off : Nat) (data : List Byte) (c : Camp) (s u : State), State.entered h (.campData n off data) s = some u → isHead u = true → campOf u n = some c →
    c.st = .draft → off + data.length ≤ c.manifest.imageLen → Kv.wf c.image = true →
    ∃ t c', exec (.campData h n off data) s = .next t ∧ campOf t n = some c' ∧ c' = { c with image := c'.image } ∧
      (∀ i, c'.image.getD i 0 = if off ≤ i ∧ i < off + data.length then data.getD (i - off) 0 else c.image.getD i 0) ∧ ∀ m, m ≠ n → campOf t m = campOf u m) ∧
  (∀ (h : Hdr) (n off : Nat) (data : List Byte) (c : Camp) (s u : State), State.entered h (.campData n off data) s = some u → campOf u n = some c →
    c.st ≠ .draft ∨ c.manifest.imageLen < off + data.length → exec (.campData h n off data) s = .next (State.answered h (.campData n off data) .bad u u)) ∧
  (∀ (h : Hdr) (n : Nat) (c : Camp) (s u : State), State.entered h (.campSeal n) s = some u → isHead u = true → campOf u n = some c → c.st = .draft →
    sha256 (imageBytes c) = c.manifest.imageDigest → sha256 (segTable c) = c.manifest.tableDigest →
    ∃ t, exec (.campSeal h n) s = .next t ∧ campOf t n = some { c with st := .ready } ∧ ∀ m, m ≠ n → campOf t m = campOf u m) ∧
  (∀ (h : Hdr) (n : Nat) (c : Camp) (s u : State), State.entered h (.campSeal n) s = some u → campOf u n = some c →
    c.st ≠ .draft ∨ sha256 (imageBytes c) ≠ c.manifest.imageDigest ∨ sha256 (segTable c) ≠ c.manifest.tableDigest →
    exec (.campSeal h n) s = .next (State.answered h (.campSeal n) .bad u u)) ∧
  (∀ (h : Hdr) (n : Nat) (c : Camp) (s u : State), State.entered h (.campRead n) s = some u → isHead u = true → campOf u n = some c →
    ∃ r l, exec (.campRead h n) s = .next (State.answered h (.campRead n) ⟨.ok, r, manifestFrame c.manifest :: l⟩ u u) ∧ r.head? = some (BitVec.ofNat 8 (campCode c.st)) ∧
      ∀ k, k < 9 → (r.drop (4 + 4 * k)).take 4 = be 4 (c.members.filter fun p => p.2.st == k).length) ∧
  (∀ (h : Hdr) (n first count : Nat) (c : Camp) (s u : State), State.entered h (.campMemberRead n first count) s = some u → isHead u = true → campOf u n = some c →
    exec (.campMemberRead h n first count) s = .next (State.answered h (.campMemberRead n first count) ⟨.ok, [], (c.members.filter fun p =>
      decide (first ≤ p.1) && decide (p.1 < first + count)).map fun p => be 4 p.2.slot ++ be 1 p.2.st ++ be 1 p.2.rank ++ be 2 p.2.low ++ be 8 p.2.map.toNat⟩ u u))

/-- CAMP_START, CAMP_PAUSE, CAMP_CANCEL, CAMP_CLOSE, CAMP_ACTIVATE, CAMP_ROLLBACK and the two member commands (R200, R201, R216, R220, R221). -/
def Obligations.CampaignStates : Prop :=
  (∀ (h : Hdr) (n : Nat) (c : Camp) (s u : State), State.entered h (.campStart n) s = some u → isHead u = true → campOf u n = some c →
    (c.st = .ready ∨ c.st = .paused → ∃ t, exec (.campStart h n) s = .next t ∧ campOf t n = some { c with st := .running } ∧ t.table = u.table ∧
      ∀ m, m ≠ n → campOf t m = campOf u m) ∧
    (c.st ≠ .ready → c.st ≠ .paused → exec (.campStart h n) s = .next (State.answered h (.campStart n) .bad u u))) ∧
  (∀ (h : Hdr) (n : Nat) (c : Camp) (s u : State), State.entered h (.campPause n) s = some u → isHead u = true → campOf u n = some c →
    (c.st = .running → ∃ t, exec (.campPause h n) s = .next t ∧ campOf t n = some { c with st := .paused } ∧ t.table = u.table ∧
      ∀ m, m ≠ n → campOf t m = campOf u m) ∧
    (c.st ≠ .running → exec (.campPause h n) s = .next (State.answered h (.campPause n) .bad u u))) ∧
  (∀ (h : Hdr) (n : Nat) (c : Camp) (s u : State), State.entered h (.campCancel n) s = some u → isHead u = true → campOf u n = some c → Kv.wf u.camp.camps = true →
    (c.st ∈ [.draft, .ready, .running, .paused] → ∃ t, exec (.campCancel h n) s = .next t ∧ campOf t n = none ∧ (∀ p ∈ c.members, fld (imgOf u p.1) 8 1 ∉ [0, 4] →
        (u.recordFree p.1 → (fld (imgOf t p.1) 152 8).testBit n = false) ∧ (¬ u.recordFree p.1 → ⟨p.1, recTitle (imgOf u p.1), .campaign n false⟩ ∈ t.table.late)) ∧
      ∀ m, m ≠ n → campOf t m = campOf u m) ∧
    (c.st ∉ [.draft, .ready, .running, .paused] → exec (.campCancel h n) s = .next (State.answered h (.campCancel n) .bad u u))) ∧
  (∀ (h : Hdr) (n : Nat) (c : Camp) (s u : State), State.entered h (.campClose n) s = some u → isHead u = true → campOf u n = some c → Kv.wf u.camp.camps = true →
    (c.st ∈ [.activated, .reverted] → ∃ t, exec (.campClose h n) s = .next t ∧ campOf t n = none ∧ (∀ p ∈ c.members, fld (imgOf u p.1) 8 1 ∉ [0, 4] →
        (u.recordFree p.1 → (fld (imgOf t p.1) 152 8).testBit n = false) ∧ (¬ u.recordFree p.1 → ⟨p.1, recTitle (imgOf u p.1), .campaign n false⟩ ∈ t.table.late)) ∧
      ∀ m, m ≠ n → campOf t m = campOf u m) ∧
    (c.st ∉ [.activated, .reverted] → exec (.campClose h n) s = .next (State.answered h (.campClose n) .bad u u))) ∧
  (∀ (h : Hdr) (n : Nat) (r : ActRec) (c : Camp) (s u : State), State.entered h (.campActivate n r) s = some u → isHead u = true → campOf u n = some c →
    (c.st = .running → r.action = 1 → r.reservedOk = true → r.campId = c.manifest.campId → campSigOk u r.signer r.sigAlg r.signedBy = true →
      campNow u + bits (reg u 0x600) 11 0 * 65536 ≤ r.actTime.toNat →
      ∃ t, exec (.campActivate h n r) s = .next t ∧ campOf t n = some { c with st := .activating, act := some r } ∧ t.table = u.table ∧ ∀ m, m ≠ n → campOf t m = campOf u m) ∧
    ((c.st ≠ .running ∨ r.action ≠ 1 ∨ r.campId ≠ c.manifest.campId ∨ campSigOk u r.signer r.sigAlg r.signedBy = false ∨
      r.actTime.toNat < campNow u + bits (reg u 0x600) 11 0 * 65536) → exec (.campActivate h n r) s = .next (State.answered h (.campActivate n r) .bad u u))) ∧
  (∀ (h : Hdr) (n : Nat) (r : ActRec) (c : Camp) (s u : State), State.entered h (.campRollback n r) s = some u → isHead u = true → campOf u n = some c →
    (c.st = .activating ∨ c.st = .activated → r.action = 2 → r.reservedOk = true → r.campId = c.manifest.campId → campSigOk u r.signer r.sigAlg r.signedBy = true →
      campNow u < r.actTime.toNat →
      ∃ t, exec (.campRollback h n r) s = .next t ∧ campOf t n = some { c with st := .rollingBack, act := some r } ∧ t.table = u.table ∧ ∀ m, m ≠ n → campOf t m = campOf u m) ∧
    ((c.st ≠ .activating ∧ c.st ≠ .activated) ∨ r.action ≠ 2 ∨ r.campId ≠ c.manifest.campId ∨ campSigOk u r.signer r.sigAlg r.signedBy = false ∨ r.actTime.toNat ≤ campNow u →
      exec (.campRollback h n r) s = .next (State.answered h (.campRollback n r) .bad u u))) ∧
  (∀ (h : Hdr) (n : Nat) (slots : List Nat) (c : Camp) (s u : State), State.entered h (.campAddMembers n slots) s = some u → isHead u = true → campOf u n = some c → n < 64 →
    c.st ∈ [.ready, .running, .paused, .activating] → (∀ k ∈ slots, k < 2 ^ bits (reg u 0x200) 23 16 ∧ fld (imgOf u k) 8 1 ∈ [1, 2]) → memberships u + slots.length ≤ 4194304 →
    ∃ t c', exec (.campAddMembers h n slots) s = .next t ∧ campOf t n = some c' ∧ c' = { c with members := c'.members } ∧
      (∀ k ∈ slots, Kv.get? k c.members = none → Kv.get? k c'.members = some ⟨k, 0, 0, 0, 0, recTitle (imgOf u k)⟩ ∧
        (u.recordFree k → (fld (imgOf t k) 152 8).testBit n = true) ∧ (¬ u.recordFree k → ⟨k, recTitle (imgOf u k), .campaign n true⟩ ∈ t.table.late)) ∧
      (∀ k, k ∉ slots ∨ Kv.get? k c.members ≠ none → Kv.get? k c'.members = Kv.get? k c.members ∧ slotOf t k = slotOf u k)) ∧
  (∀ (h : Hdr) (n : Nat) (slots : List Nat) (c : Camp) (s u : State), State.entered h (.campRemoveMembers n slots) s = some u → isHead u = true → campOf u n = some c → Kv.wf c.members = true →
    (∀ k ∈ slots, k < 2 ^ bits (reg u 0x200) 23 16 ∧ fld (imgOf u k) 8 1 ∈ [1, 2]) →
    ∃ t c', exec (.campRemoveMembers h n slots) s = .next t ∧ campOf t n = some c' ∧ c' = { c with members := c'.members } ∧
      (∀ k ∈ slots, Kv.get? k c'.members = none ∧ (Kv.get? k c.members ≠ none →
        (u.recordFree k → (fld (imgOf t k) 152 8).testBit n = false) ∧ (¬ u.recordFree k → ⟨k, recTitle (imgOf u k), .campaign n false⟩ ∈ t.table.late))) ∧
      (∀ k, k ∉ slots → Kv.get? k c'.members = Kv.get? k c.members ∧ slotOf t k = slotOf u k))

/-- PLC_GMK_ROTATE, PLC_KICK and RF_KEY_ROTATE (R234, R235, R272); a new key is two free draws (log entries 2, 3). -/
def Obligations.NetworkKeys : Prop :=
  (∀ (h : Hdr) (n : Nat) (s u : State), State.entered h (.plcGmkRotate n) s = some u → n ≤ 3 → islInRun u (5 + n) = true →
    ∃ t, exec (.plcGmkRotate h n) s = .next t ∧ (plcOf t n).gmkOld = (plcOf u n).gmk ∧ (plcOf t n).gmkIdx = 1 - (plcOf u n).gmkIdx ∧ (plcOf t n).ends = (plcOf u n).ends ∧
      (plcOf t n).gmk = some (BitVec.ofNat 128 ((Config.freeDraw u.draws).toNat * 2 ^ 64 + (Config.freeDraw (u.draws + 1)).toNat)) ∧ ∀ m, m ≠ n → plcOf t m = plcOf u m) ∧
  (∀ (h : Hdr) (n short : Nat) (e : PlcEnd) (s u : State), State.entered h (.plcKick n short) s = some u → n ≤ 3 → islInRun u (5 + n) = true → Kv.wf (plcOf u n).ends = true →
    Kv.get? short (plcOf u n).ends = some e →
    ∃ t, exec (.plcKick h n short) s = .next t ∧ Kv.get? short (plcOf t n).ends = none ∧ (∀ k, k ≠ short → Kv.get? k (plcOf t n).ends = Kv.get? k (plcOf u n).ends) ∧
      (plcOf t n).gmk = (plcOf u n).gmk ∧ ∀ m, m ≠ n → plcOf t m = plcOf u m) ∧
  (∀ (h : Hdr) (n : Nat) (s u : State), State.entered h (.rfKeyRotate n) s = some u → n ≤ 1 → islInRun u (9 + n) = true →
    ∃ t, exec (.rfKeyRotate h n) s = .next t ∧ (rfOf t n).keyOld = (rfOf u n).key ∧ (rfOf t n).keyIdx = (rfOf u n).keyIdx % 255 + 1 ∧ (rfOf t n).ends = (rfOf u n).ends ∧
      (rfOf t n).key = some (BitVec.ofNat 128 ((Config.freeDraw u.draws).toNat * 2 ^ 64 + (Config.freeDraw (u.draws + 1)).toNat)) ∧ ∀ m, m ≠ n → rfOf t m = rfOf u m) ∧
  (∀ (h : Hdr) (n short : Nat) (s u : State), (State.entered h (.plcGmkRotate n) s = some u → 3 < n ∨ islInRun u (5 + n) = false →
      exec (.plcGmkRotate h n) s = .next (State.answered h (.plcGmkRotate n) .bad u u)) ∧
    (State.entered h (.plcKick n short) s = some u → 3 < n ∨ islInRun u (5 + n) = false ∨ Kv.get? short (plcOf u n).ends = none →
      exec (.plcKick h n short) s = .next (State.answered h (.plcKick n short) .bad u u)) ∧
    (State.entered h (.rfKeyRotate n) s = some u → 1 < n ∨ islInRun u (9 + n) = false → exec (.rfKeyRotate h n) s = .next (State.answered h (.rfKeyRotate n) .bad u u)))

/-- SEC_ZEROISE (R415). -/
def Obligations.Zeroise : Prop :=
  (∀ (h : Hdr) (level : Nat) (s u : State), State.entered h (.secZeroise level) s = some u → level = 1 ∨ level = 2 →
    ∃ t, exec (.secZeroise h level) s = .next t ∧ t.sec.zeroised = true ∧ t.sec.slots = [] ∧ t.sec.tkek = [] ∧ t.sec.relayKeys = [] ∧ t.sec.pairKey = none ∧
      t.sec.bootKey = none ∧ t.sec.signers = u.sec.signers ∧ t.pipe.sessions = [] ∧ (∀ n, (plcOf t n).gmk = none ∧ (plcOf t n).gmkOld = none) ∧
      (∀ n, (rfOf t n).key = none ∧ (rfOf t n).keyOld = none) ∧ (level = 1 → t.boot.otp = u.boot.otp) ∧
      (level = 2 → Kv.wf u.boot.otp = true → t.boot.otp.getD 167 0 = u.boot.otp.getD 167 0 ||| 4#32 ∧ ∀ n, n ≠ 167 → t.boot.otp.getD n 0 = u.boot.otp.getD n 0)) ∧
  (∀ (h : Hdr) (level : Nat) (s u : State), State.entered h (.secZeroise level) s = some u → level ≠ 1 → level ≠ 2 →
    exec (.secZeroise h level) s = .next (State.answered h (.secZeroise level) .bad u u))

/-- TIM_STEP (R333). -/
def Obligations.TimeStep : Prop :=
  (∀ (h : Hdr) (sec ns : Nat) (s u : State), State.entered h (.timStep 1 sec ns) s = some u → islInRun u 16 = true → ns < 1000000000 → u.tim.valid = true →
    ∃ t, exec (.timStep h 1 sec ns) s = .next t ∧ t.tim.clk = (sec % 2 ^ 48 * 1000000000 + ns) * 65536 + u.tim.clk % 65536 ∧ t.tim.st = 2 ∧ t.tim.valid = true ∧
      t.tim.good = 0 ∧ t.tim.jumpRefused = false) ∧
  (∀ (h : Hdr) (off : Int) (at_ : Nat) (s u : State), State.entered h (.timStep 0 0 0) s = some u → islInRun u 16 = true → u.tim.valid = true →
    u.tim.lastOff = some (u.tim.source, off, at_) → u.tim.raw ≤ at_ + 3000000000 → off * 65536 ≤ u.tim.clk →
    ∃ t, exec (.timStep h 0 0 0) s = .next t ∧ (t.tim.clk : Int) = u.tim.clk - off * 65536 ∧ t.tim.st = 2 ∧ t.tim.jumpRefused = false) ∧
  (∀ (h : Hdr) (sec ns : Nat) (s u : State), State.entered h (.timStep 1 sec ns) s = some u → islInRun u 16 = true → ns < 1000000000 → u.tim.valid = false →
    ∃ t, exec (.timStep h 1 sec ns) s = .next t ∧ t.tim.clk = (sec % 2 ^ 48 * 1000000000 + ns) * 65536 + u.tim.clk % 65536 ∧ t.tim.st = 2 ∧ t.tim.valid = true ∧
      t.tim.source = if u.tim.source = 0 then 5 else u.tim.source) ∧
  (∀ (h : Hdr) (mode sec ns : Nat) (s u : State), State.entered h (.timStep mode sec ns) s = some u →
    islInRun u 16 = false ∨ 2 ≤ mode ∨ 1000000000 ≤ ns ∨ (mode = 0 ∧ (sec ≠ 0 ∨ ns ≠ 0 ∨ u.tim.lastOff = none)) →
    exec (.timStep h mode sec ns) s = .next (State.answered h (.timStep mode sec ns) .bad u u))

/-- PAIR_READ, PAIR_SWAP and PAIR_CLEAR (R372, R383). -/
def Obligations.PairCommands : Prop :=
  (∀ (h : Hdr) (s u : State), State.entered h .pairRead s = some u →
    ∃ r a b, exec (.pairRead h) s = .next (State.answered h .pairRead ⟨.ok, r, [a, b]⟩ u u) ∧ r.take 12 = be 4 (prlStatus u).toNat ++ be 4 u.pair.claim.toNat ++ be 4 u.pair.partnerClaim.toNat ∧
      a = hbItem u u.pair.hb1 ∧ b = hbItem u u.pair.hb2) ∧
  (∀ (h : Hdr) (s u : State), State.entered h .pairSwap s = some u → u.pair.st ≠ .lone → u.pair.swap = none → u.pair.copyGiving = false → swapPartner u false = true →
    ∃ t, exec (.pairSwap h) s = .next t ∧ t.pair = { u.pair with swap := some ⟨false, [], u.tim.raw⟩ }) ∧
  (∀ (h : Hdr) (s u : State), State.entered h .pairSwap s = some u → u.pair.st = .lone ∨ u.pair.swap ≠ none ∨ u.pair.copyGiving = true ∨ swapPartner u false = false →
    exec (.pairSwap h) s = .next (State.answered h .pairSwap .busy u u)) ∧
  (∀ (h : Hdr) (s u : State), State.entered h .pairClear s = some u →
    ∃ t, exec (.pairClear h) s = .next t ∧ t.pair = { u.pair with proofFailed := false, interlockFault := false })

/-- ARCH_INFO, ARCH_READ, ARCH_FIND_TIME, ARCH_TRIM, ARCH_OVF_READ, ARCH_OVF_RELEASE and ARCH_FORMAT (R441, R442, R444). -/
def Obligations.ArchiveCommands : Prop :=
  (∀ (h : Hdr) (s u : State), State.entered h .archInfo s = some u →
    ∃ r l, exec (.archInfo h) s = .next (State.answered h .archInfo ⟨.ok, r, l⟩ u u) ∧ r.take 4 = be 4 (flsStatus u).toNat ∧
      (u.arch.st ≠ .mounting → u.arch.st ≠ .off → (r.drop 8).take 24 = be 8 u.arch.durable ++ be 8 (oldestSeq u) ++ be 8 u.arch.next)) ∧
  (∀ (h : Hdr) (first : W64) (count : Nat) (media : List Media) (s u : State), State.entered h (.archRead first count media) s = some u → 1 ≤ count → count ≤ 1048576 →
    archBusy u = false → storeUp u = true →
    ∃ l cut v, exec (.archRead h first count media) s = .next (State.answered h (.archRead first count media) ⟨if cut then .truncated else .ok, [], l⟩ u v) ∧
      l.length ≤ count ∧ (∀ i r, l[i]? = some r → r.take 8 = be 8 (first.toNat + i)) ∧ (u.arch.next ≤ first.toNat → l = [] ∧ cut = false ∧ v = u)) ∧
  (∀ (h : Hdr) (t : W64) (s u : State), State.entered h (.archFindTime t) s = some u → archBusy u = false → storeUp u = true →
    (∃ b ∈ readingBlocks u, t.toNat ≤ beVal (((((blockRecords (blockOf u b.1)).head?.map (·.2)).getD []).drop 28).take 8)) →
    ∃ v, exec (.archFindTime h t) s = .next (State.answered h (.archFindTime t) ⟨.ok, padTo 40 (be 8 v), []⟩ u u) ∧
      (∀ b ∈ readingBlocks u, t.toNat ≤ beVal (((((blockRecords (blockOf u b.1)).head?.map (·.2)).getD []).drop 28).take 8) → v ≤ b.2) ∧
      ∃ b ∈ readingBlocks u, b.2 = v ∧ t.toNat ≤ beVal (((((blockRecords (blockOf u b.1)).head?.map (·.2)).getD []).drop 28).take 8)) ∧
  (∀ (h : Hdr) (upto : W64) (s u : State), State.entered h (.archTrim upto) s = some u → archBusy u = false → storeUp u = true →
    ∃ t, exec (.archTrim h upto) s = .next t ∧ t.arch.blocks.map (·.1) = u.arch.blocks.map (·.1) ∧ ∀ p ∈ u.arch.blocks.zip t.arch.blocks,
      (p.1.2.zone = 5 → p.1.2.st = .data → (∀ r ∈ blockRecords p.1.2, r.1 < upto.toNat) → p.2.2.st = .stale ∧ blockRecords p.2.2 = [] ∧ p.2.2.pages.length = p.1.2.pages.length) ∧
      ((p.1.2.zone ≠ 5 ∨ p.1.2.st ≠ .data ∨ ∃ r ∈ blockRecords p.1.2, upto.toNat ≤ r.1) → p.2 = p.1)) ∧
  (∀ (h : Hdr) (count : Nat) (s u : State), State.entered h (.archOvfRead count) s = some u → archBusy u = false →
    exec (.archOvfRead h count) s = .next (State.answered h (.archOvfRead count) ⟨.ok, [], (u.arch.ovf.take count).map fun r => be 8 r.1 ++ r.2⟩ u u)) ∧
  (∀ (h : Hdr) (upto : W64) (s u : State), State.entered h (.archOvfRelease upto) s = some u → archBusy u = false →
    ∃ t, exec (.archOvfRelease h upto) s = .next t ∧ t.arch = { u.arch with ovf := u.arch.ovf.filter fun r => upto.toNat ≤ r.1 }) ∧
  (∀ (h : Hdr) (s u : State), State.entered h (.archFormat 0x464D5421) s = some u → archBusy u = false → u.arch.targets ≠ [] → islInRun u 4 = true →
    ∃ t, exec (.archFormat h 0x464D5421) s = .next t ∧ t.arch = { u.arch with st := .mounting, formatting := some h }) ∧
  (∀ (h : Hdr) (confirm : W32) (s u : State), State.entered h (.archFormat confirm) s = some u → archBusy u = false → confirm ≠ 0x464D5421 →
    exec (.archFormat h confirm) s = .next (State.answered h (.archFormat confirm) .bad u u)) ∧
  (∀ (h : Hdr) (first t upto : W64) (count : Nat) (media : List Media) (s u : State), u.arch.st = .mounting → 1 ≤ count → count ≤ 1048576 →
    (State.entered h (.archRead first count media) s = some u → exec (.archRead h first count media) s = .next (State.answered h (.archRead first count media) .busy u u)) ∧
    (State.entered h (.archFindTime t) s = some u → exec (.archFindTime h t) s = .next (State.answered h (.archFindTime t) .busy u u)) ∧
    (State.entered h (.archTrim upto) s = some u → exec (.archTrim h upto) s = .next (State.answered h (.archTrim upto) .busy u u)) ∧
    (State.entered h (.archOvfRead count) s = some u → exec (.archOvfRead h count) s = .next (State.answered h (.archOvfRead count) .busy u u)) ∧
    (State.entered h (.archOvfRelease upto) s = some u → exec (.archOvfRelease h upto) s = .next (State.answered h (.archOvfRelease upto) .busy u u)) ∧
    (State.entered h (.archFormat 0x464D5421) s = some u → exec (.archFormat h 0x464D5421) s = .next (State.answered h (.archFormat 0x464D5421) .busy u u))) ∧
  (∀ (h : Hdr) (first t upto : W64) (count : Nat) (media : List Media) (s u : State), archBusy u = false → storeUp u = false → 1 ≤ count → count ≤ 1048576 →
    (State.entered h (.archRead first count media) s = some u → exec (.archRead h first count media) s = .next (State.answered h (.archRead first count media) .media u u)) ∧
    (State.entered h (.archFindTime t) s = some u → exec (.archFindTime h t) s = .next (State.answered h (.archFindTime t) .media u u)) ∧
    (State.entered h (.archTrim upto) s = some u → exec (.archTrim h upto) s = .next (State.answered h (.archTrim upto) .media u u)))

/-- ARCH_HOST_WRITE and ARCH_HOST_READ (R444, R522). -/
def Obligations.HostSectors : Prop :=
  (∀ (h : Hdr) (sector : Nat) (data : List (List Byte)) (s u : State), State.entered h (.archHostWrite sector data) s = some u → u.boot.mode = .recovery →
    1 ≤ data.length → data.length ≤ 3 → (∀ d ∈ data, d.length = 4096) → sector + data.length ≤ 1536 →
    ∃ t, exec (.archHostWrite h sector data) s = .next t ∧ (∀ i, Kv.get? (sector + i) t.arch.staging = if i < data.length then data[i]? else Kv.get? (sector + i) u.arch.staging) ∧
      (∀ n, n < sector → Kv.get? n t.arch.staging = Kv.get? n u.arch.staging) ∧ t.arch.blocks = u.arch.blocks) ∧
  (∀ (h : Hdr) (sector count : Nat) (media : List Media) (s u : State), State.entered h (.archHostRead sector count media) s = some u → u.boot.mode = .recovery →
    1 ≤ count → sector + count ≤ 1536 → exec (.archHostRead h sector count media) s = .next (State.answered h (.archHostRead sector count media)
      ⟨.ok, [], (List.range count).map fun i => u.arch.staging.getD (sector + i) (List.replicate 4096 0)⟩ u u)) ∧
  (∀ (h : Hdr) (sector count : Nat) (media : List Media) (s u : State), State.entered h (.archHostRead sector count media) s = some u → u.boot.mode ≠ .recovery →
    1 ≤ count → storeUp u = true → sector + count ≤ hostSectors u → (∀ i, i < count → hostSector u (sector + i) = none) →
    exec (.archHostRead h sector count media) s = .next (State.answered h (.archHostRead sector count media) ⟨.ok, [], List.replicate count (List.replicate 4096 0)⟩ u u)) ∧
  (∀ (h : Hdr) (sector n : Nat) (data : List (List Byte)) (media : List Media) (s u : State),
    (State.entered h (.archHostWrite sector data) s = some u → u.arch.st ≠ .mounting ∨ u.boot.mode = .recovery → data = [] ∨ 3 < data.length ∨ (∃ d ∈ data, d.length ≠ 4096) →
      exec (.archHostWrite h sector data) s = .next (State.answered h (.archHostWrite sector data) .bad u u)) ∧
    (State.entered h (.archHostWrite sector data) s = some u → 1 ≤ data.length → data.length ≤ 3 → (∀ d ∈ data, d.length = 4096) → u.boot.mode ≠ .recovery →
      u.arch.st = .readOnly → exec (.archHostWrite h sector data) s = .next (State.answered h (.archHostWrite sector data) .media u u)) ∧
    (State.entered h (.archHostRead sector n media) s = some u → 1 ≤ n → u.boot.mode ≠ .recovery → u.arch.st ≠ .mounting → storeUp u = false →
      exec (.archHostRead h sector n media) s = .next (State.answered h (.archHostRead sector n media) .media u u)))

/-- EVT_READ, EVT_CLEAR, MON_READ, MON_RESET and Q_READ (R486, R496, R497, R499). -/
def Obligations.EventAndMonitorCommands : Prop :=
  (∀ (h : Hdr) (seq : W64) (n : Nat) (s u : State), State.entered h (.evtRead seq n) s = some u → 1 ≤ n → n ≤ 1048576 →
    ∃ st l, exec (.evtRead h seq n) s = .next (State.answered h (.evtRead seq n) ⟨st, padTo 40 (be 8 (evtOldest u) ++ be 8 (evtNext u - 1)), l⟩ u u) ∧
      (st = .ok ∨ st = .truncated) ∧ (st = .truncated → engRuns u = false) ∧ ∀ b ∈ l, ∃ r, (r ∈ evtHeld u ∨ r ∈ u.evt.ring) ∧ b = evtBytes r ∧ u.evt.floor.toNat ≤ r.seq.toNat) ∧
  (∀ (h : Hdr) (seq : W64) (n : Nat) (s u : State), State.entered h (.evtRead seq n) s = some u → n = 0 ∨ 1048576 < n →
    exec (.evtRead h seq n) s = .next (State.answered h (.evtRead seq n) .bad u u)) ∧
  (∀ (h : Hdr) (s u : State), State.entered h .evtClear s = some u → evtReading u = false →
    ∃ t r c, exec (.evtClear h) s = .next t ∧ t.evt.ring = [r, c] ∧ r.seq = BitVec.ofNat 64 (evtNext u) ∧ r.code = 0x0120 ∧ r.critical = true ∧ r.parts = 1 ∧
      c.contData = padTo 20 (be 8 (evtOldest u) ++ be 8 (evtNext u - 1) ++ be 4 ((h.auth.map (·.counter.toNat)).getD 0 % 2 ^ 32)) ∧
      t.evt.floor = BitVec.ofNat 64 (evtNext u) ∧ t.evt.zoneCur = u.evt.zoneCur ∧ t.evt.raised = u.evt.raised) ∧
  (∀ (h : Hdr) (s u : State), State.entered h .evtClear s = some u → evtReading u = true →
    ∃ t, exec (.evtClear h) s = .next t ∧ t.evt = { u.evt with clears := u.evt.clears ++ [h] }) ∧
  (∀ (h : Hdr) (first n : Nat) (s u : State), State.entered h (.monRead first n) s = some u → 1 ≤ n → first + n ≤ 64 →
    exec (.monRead h first n) s = .next (State.answered h (.monRead first n) ⟨.ok, [], (List.range n).map fun k =>
      ([reg u (0x15100 + 16 * (first + k)), reg u (0x15104 + 16 * (first + k)), reg u (0x15108 + 16 * (first + k)), reg u (0x1510C + 16 * (first + k))] ++
        monResults (monOf u (first + k))).flatMap fun w => be 4 w.toNat⟩ u u)) ∧
  (∀ (h : Hdr) (lo hi : W32) (s u : State), State.entered h (.monReset lo hi) s = some u →
    ∃ t, exec (.monReset h lo hi) s = .next t ∧ ∀ n, n < 64 → monOf t n = if (if n < 32 then lo.getLsbD n else hi.getLsbD (n - 32)) then
      ⟨0, 0, 0, 0, List.replicate 32 0, (monOf u n).armed, (monOf u n).at_⟩ else monOf u n) ∧
  (∀ (h : Hdr) (first n : Nat) (s u : State), State.entered h (.qRead first n) s = some u → 1 ≤ n → first + n ≤ 256 →
    exec (.qRead h first n) s = .next (State.answered h (.qRead first n) ⟨.ok, [], (List.range n).map fun k =>
      (queueWords u (first + k)).flatMap fun w => be 4 w.toNat⟩ u u)) ∧
  (∀ (h : Hdr) (first n : Nat) (s u : State), (State.entered h (.monRead first n) s = some u → n = 0 ∨ 64 < first + n →
      exec (.monRead h first n) s = .next (State.answered h (.monRead first n) .bad u u)) ∧
    (State.entered h (.qRead first n) s = some u → n = 0 ∨ 256 < first + n → exec (.qRead h first n) s = .next (State.answered h (.qRead first n) .bad u u)))

/-- MGMT_DATAGRAM_RX (R413): a command body that arrives at MGMT_PORT, and which datagrams are dropped. -/
def Obligations.ManagementDatagrams : Prop :=
  (∀ (port : Bool) (h : Hdr) (c : Cmd) (i : Instr) (s : State), instrOf { h with origin := .eth port } c = some i → exec (.mgmtDatagramRx port h c) s = exec i s) ∧
  (∀ (port : Bool) (h : Hdr) (s u : State), State.entered { h with origin := .eth port } .pairClear s = some u →
    ∃ t, exec (.mgmtDatagramRx port h .pairClear) s = .next t ∧ t.pair = { u.pair with proofFailed := false, interlockFault := false }) ∧
  (∀ (port : Bool) (h : Hdr) (c : Cmd) (s : State), managed s = true → s.pair.swap = none → ethLink s port = true → bits (reg s 0x800) 11 0 ≤ s.win.mgmt → s.RegsOk →
    ∃ t, exec (.mgmtDatagramRx port h c) s = .next t ∧ State.SameBut [.regs] s t ∧ (reg t 0x814).toNat = min 0xFFFFFFFF ((reg s 0x814).toNat + 1) ∧
      ∀ o, o ≠ 0x814 → reg t o = reg s o)

/-- PROFILE_CLUSTER_SWITCH and BUCKET_REDISTRIBUTE (R27, R35, R38): one cluster, then one bucket, at a time. -/
def Obligations.ClusterMoves : Prop :=
  (∀ (k k' : Nat) (l : List Nat) (s : State), s.clusters.changing = true → s.clusters.toSwitch = k :: k' :: l → islInRun s (17 + k') = true →
    (∀ f ∈ s.pipe.flight, f.cluster ≠ k) →
    exec (.profileClusterSwitch k) s = .next { s with clusters := { s.clusters with
      clusterProf := Kv.put k s.clusters.req s.clusters.clusterProf, toSwitch := k' :: l } }) ∧
  (∀ (k : Nat) (s : State), s.clusters.changing = true → s.clusters.toSwitch = [k] → s.clusters.moving = [] → s.clusters.returned = [] →
    s.clusters.cur ≠ s.clusters.req → (∀ f ∈ s.pipe.flight, f.cluster ≠ k) →
    exec (.profileClusterSwitch k) s = .next { s with clusters := { s.clusters with
      cur := s.clusters.req, secLanes := enginesOf s.clusters.req, clusterProf := [], toSwitch := [], changing := false } }) ∧
  (∀ (k : Nat) (s : State), (∃ f ∈ s.pipe.flight, f.cluster = k) → exec (.profileClusterSwitch k) s = .next s) ∧
  (∀ (b k : Nat) (rest : Kv Nat) (s : State), s.clusters.moving = (b, k) :: rest → rest ≠ [] → s.clusters.toSwitch = [] →
    (∀ f ∈ s.pipe.flight, f.bucket ≠ b) →
    exec (.bucketRedistribute b) s = .next { s with clusters := { s.clusters with buckets := Kv.put b k s.clusters.buckets, moving := rest } }) ∧
  (∀ (b k : Nat) (s : State), s.clusters.moving = [(b, k)] → s.clusters.changing = true → s.clusters.toSwitch = [] →
    s.clusters.cur = s.clusters.req → (∀ f ∈ s.pipe.flight, f.bucket ≠ b) →
    exec (.bucketRedistribute b) s = .next { s with clusters := { s.clusters with
      buckets := Kv.put b k s.clusters.buckets, moving := [], changing := false, returned := if (misplaced { s with clusters := { s.clusters with
        buckets := Kv.put b k s.clusters.buckets } }).isEmpty then [] else s.clusters.returned } }) ∧
  ∀ (b : Nat) (s : State), (∃ f ∈ s.pipe.flight, f.bucket = b) → exec (.bucketRedistribute b) s = .next s

/-- How islands come up and go down (R19, R21, R22, R510, R525). -/
def Obligations.IslandStates : Prop :=
  (∀ (n : Nat) (s : State), s.Sound → n ∈ [2, 3, 4, 11, 12, 13, 14, 15, 16, 17, 18, 19, 20] → s.boot.power ≠ .hold → (islOf s n).st = .pending →
    ∃ t, exec (.islandClockStable n) s = .next t ∧ islOf t n = ⟨.run, 0, false⟩ ∧ ∀ m, m ≠ n → islOf t m = islOf s m) ∧
  (∀ (k : Nat) (s : State), s.Sound → k < 4 → s.boot.power ≠ .hold → s.boot.mode ≠ .test → (islOf s (5 + k)).st = .pending →
    ∃ t, exec (.islandClockStable (5 + k)) s = .next t ∧
      islOf t (5 + k) = ⟨if modOk s (2 + k) = true ∧ 6 ≤ plcMaskCount s k then .run else .off, 0, false⟩ ∧
      ∀ m, m ≠ 5 + k → islOf t m = islOf s m) ∧
  (∀ (n : Nat) (s : State), s.Sound → 2 ≤ n → n ≤ 20 → islUp s n = true →
    ∃ t, exec (.islandLockLoss n) s = .next t ∧ islOf t n = { islOf s n with lockLost := true } ∧ State.SameBut [.isl] s t ∧
      ∀ m, m ≠ n → islOf t m = islOf s m) ∧
  (∀ (n : Nat) (s : State), s.Sound → 2 ≤ n → n ≤ 20 → islUp s n = true → (islOf s n).lockLost = true →
    ∃ t, exec (.islandClockStable n) s = .next t ∧ islOf t n = { islOf s n with lockLost := false } ∧ State.SameBut [.isl, .evt] s t ∧
      ∀ m, m ≠ n → islOf t m = islOf s m) ∧
  (∀ (n : Nat) (s : State), s.Sound → 2 ≤ n → n ≤ 20 → islUp s n = true → (islOf s n).lockLost = true →
    ∃ t, exec (.lockLossTimeout n) s = .next t ∧ islOf t n = ⟨.failed, 1, false⟩ ∧ ∀ m, m ≠ n → islOf t m = islOf s m) ∧
  (∀ (n : Nat) (s : State), s.Sound → 2 ≤ n → n ≤ 20 → islUp s n = true →
    ∃ t, exec (.handshakeTimeout n) s = .next t ∧ islOf t n = ⟨.failed, 2, false⟩ ∧ ∀ m, m ≠ n → islOf t m = islOf s m) ∧
  (∀ (n off : Nat) (s : State), s.Sound → 2 ≤ n → n ≤ 20 → islUp s n = true →
    ∃ t, exec (.eccUncorrectable (.own n off)) s = .next t ∧ islOf t n = ⟨.failed, 3, false⟩ ∧ ∀ m, m ≠ n → islOf t m = islOf s m) ∧
  (∀ (off c : Nat) (s : State), s.RegsOk → islRun s 1 = true →
    ∃ t, exec (.eccCorrected (.sram off c)) s = .next t ∧ reg t 0x54 = satAdd (reg s 0x54) 1 ∧ State.SameBut [.regs, .evt] s t) ∧
  (∀ (n off : Nat) (s : State), s.RegsOk → 17 ≤ n → n ≤ 20 → islRun s n = true →
    ∃ t, exec (.eccCorrected (.own n off)) s = .next t ∧ reg t (0x1000 * n + 0x40) = satAdd (reg s (0x1000 * n + 0x40)) 1 ∧
      State.SameBut [.regs, .evt] s t) ∧
  (∀ (w : Nat) (s : State), s.RegsOk → islRun s 3 = true →
    ∃ t, exec (.eccCorrected (.dram w)) s = .next t ∧ reg t 0x3040 = satAdd (reg s 0x3040) 1 ∧ State.SameBut [.regs, .evt] s t) ∧
  (∀ (w : Nat) (s : State), islRun s 3 = true → ∃ t, exec (.eccUncorrectable (.dram w)) s = .next t ∧ t.isl = s.isl ∧ t.table = s.table) ∧
  ∀ (n : Nat) (s : State), s.Sound → s.boot.power = .doze → (islOf s n).st = .run → islandIdle n s = true →
    ∃ t, exec (.dozeIdleGate n) s = .next t ∧ (islOf t n).st = .gated ∧ State.SameBut [.isl] s t ∧ ∀ m, m ≠ n → islOf t m = islOf s m

/-- RESET_RELEASE and STRAP_RETRY (R502, R508, R511, R512, R513). -/
def Obligations.StartUp : Prop :=
  (∀ (env : StartEnv) (s : State), s.RegsOk → s.boot.phase = .inReset → s.boot.mainSupply = true → env.preset = none → ctlTrimOk s = false →
    ∃ t, exec (.resetRelease env) s = .next t ∧ t.boot.phase = .trimHold ∧ bits (reg t 0x1004) 7 0 = 8) ∧
  (∀ (env : StartEnv) (s : State), s.Sound → s.boot.phase = .inReset → s.boot.mainSupply = true → env.preset = none → ctlTrimOk s = true →
    guardCode env.strap = true →
    ∃ t, exec (.resetRelease env) s = .next t ∧ t.boot.phase = .strapWait 0 ∧ t.boot.env = some env ∧ t.boot.strapCode = env.strap ∧
      t.boot.power = .run ∧ islOf t 0 = ⟨.run, 0, false⟩ ∧ islOf t 1 = ⟨.run, 0, false⟩ ∧ ∀ n, 1 < n → islOf t n = islOf s n) ∧
  (∀ (env : StartEnv) (s : State), s.boot.phase = .inReset → s.boot.mainSupply = true → env.preset = none → ctlTrimOk s = true →
    guardCode env.strap = false → ∃ t, exec (.resetRelease env) s = .next t ∧ t.boot.phase = .started) ∧
  (∀ (env : StartEnv) (s : State), s.boot.phase ≠ .inReset → exec (.resetRelease env) s = .next s) ∧
  (∀ (code : BitVec 6) (k : Nat) (s : State), s.boot.phase = .strapWait k → s.boot.env ≠ none → guardCode code = true → k + 1 < 8 →
    exec (.strapRetry code) s = .next { s with boot := { s.boot with phase := .strapWait (k + 1), strapCode := code } }) ∧
  (∀ (code : BitVec 6) (k : Nat) (s : State), s.boot.phase = .strapWait k → s.boot.env ≠ none → (guardCode code = false ∨ 8 ≤ k + 1) →
    ∃ t, exec (.strapRetry code) s = .next t ∧ t.boot.phase = .started) ∧
  ∀ (code : BitVec 6) (k : Nat) (s : State), s.boot.phase = .strapWait k → s.boot.env ≠ none → guardCode code = false →
    strapMode (code.toNat / 4) = .provision → fieldOf s 0x17004 17 16 ≠ 1 →
    ∃ t, exec (.strapRetry code) s = .next t ∧ t.boot.phase = .started ∧ t.boot.mode = .provision ∧ t.boot.strapCode = code ∧
      t.boot.strapValid = true ∧ t.host.crsDone = true

/-- Installs, the boot control record and OTP programming (R522, R523, R529, R534). -/
def Obligations.BootControl : Prop :=
  (∀ (h : Hdr) (v : W32) (obj : Staged) (s u : State), State.entered h (.regWriteAu 0x17028 7 (setBits v 2 2 1)) s = some u → u.RegsOk →
    blockDown 0x17028 u = false → u.boot.install = none → window u = true → slotRuns (bit v 1) (bit v 0) u = false → islInRun u 4 = true →
    (match obj with | .image i => bit v 1 = false ∧ imageOk u i = true | .bundle b => bit v 1 = true ∧ bundleOk u b = true | .none => False) →
    ∃ t, exec (.bootInstallGo h 7 v obj) s = .next t ∧ t.boot = { u.boot with installCode := 1, install := some (obj, bit v 0) }) ∧
  (∀ (h : Hdr) (v : W32) (obj : Staged) (s u : State), State.entered h (.regWriteAu 0x17028 7 (setBits v 2 2 1)) s = some u → u.RegsOk →
    blockDown 0x17028 u = false → u.boot.install = none → window u = false →
    ∃ t, exec (.bootInstallGo h 7 v obj) s = .next t ∧ t.boot = { u.boot with installCode := 6 }) ∧
  (∀ (h : Hdr) (v : W32) (s u : State), State.entered h (.regWriteAu 0x17024 0xF (setBits v 3 2 1)) s = some u → blockDown 0x17024 u = false →
    islInRun u 4 = true → ∃ t, exec (.bootSelTrial h 0xF v) s = .next t ∧
      t.boot = { u.boot with ctl := { u.boot.ctl with seq := u.boot.ctl.seq + 1, trial := some (bit v 0, bit v 1, false) } }) ∧
  (∀ (h : Hdr) (v : W32) (s u : State), State.entered h (.regWriteAu 0x17024 0xF (setBits v 3 2 0)) s = some u → blockDown 0x17024 u = false →
    islInRun u 4 = true → ∃ t, exec (.bootSelConfirmed h 0xF v) s = .next t ∧ t.boot.ctl = ⟨u.boot.ctl.seq + 1, bit v 0, bit v 1, none⟩) ∧
  (∀ (h : Hdr) (v : W32) (s u : State), State.entered h (.regWriteAu 0x17024 0xF (setBits v 3 3 1)) s = some u → blockDown 0x17024 u = false →
    islInRun u 4 = true → u.boot.trialRun = true → ∃ t, exec (.bootSelConfirm h 0xF v) s = .next t ∧
      t.boot = { u.boot with ctl := ⟨u.boot.ctl.seq + 1, u.boot.runImage, u.boot.runBundle, none⟩, trialRun := false }) ∧
  (∀ (h : Hdr) (v : W32) (s u : State), State.entered h (.regWriteAu 0x17024 0xF (setBits v 3 2 1)) s = some u → blockDown 0x17024 u = false →
    islInRun u 4 = false →
    exec (.bootSelTrial h 0xF v) s = .next (State.answered h (.regWriteAu 0x17024 0xF (setBits v 3 2 1)) .media u u)) ∧
  (∀ (i : Image) (slot : Bool) (s : State), s.RegsOk → s.boot.install = some (.image i, slot) →
    ∃ t, exec (.installComplete true) s = .next t ∧ t.boot.install = none ∧ t.boot.installCode = 2 ∧
      (if slot then t.boot.imageB else t.boot.imageA) = some i ∧ reg t 0x17060 = satAdd (reg s 0x17060) 1) ∧
  (∀ (b : Bundle) (slot : Bool) (s : State), s.boot.install = some (.bundle b, slot) →
    ∃ t, exec (.installComplete false) s = .next t ∧ t.boot.install = none ∧ t.boot.installCode = 5 ∧
      (if slot then t.boot.bundleB else t.boot.bundleA) = none) ∧
  (∀ s, isLone s = true → s.boot.phase = .started → s.boot.power = .run → roleOf s ≠ 0 → fieldOf s 0x1700C 15 8 ≠ 0 →
    fieldOf s 0x1700C 15 8 * 3600000000000 ≤ s.tim.raw → s.boot.trialRun = true →
    exec .autoConfirmExpiry s = .next { s with boot := { s.boot with
      ctl := ⟨s.boot.ctl.seq + 1, s.boot.runImage, s.boot.runBundle, none⟩, trialRun := false } }) ∧
  ∀ (v : W32) (s : State), s.RegsOk → barOpen s = true → s.boot.mode = .provision → bit v 0 = true → s.boot.otp.wf = true →
    ∃ t w, exec (.otpProgram v) s = .next t ∧ w = fieldOf s 0x17040 7 0 ∧
      otpWord t w = otpWord s w ||| otpTakes s w (reg s 0x17044) ∧ (∀ n, n ≠ w → otpWord t n = otpWord s n) ∧
      (bit (reg t 0x17048) 1 = true ↔ otpTakes s w (reg s 0x17044) ≠ reg s 0x17044)

/-- The backup domain: tamper, wake sources, the loss of supplies and the counters (R14, R15, R415, R525, R527, R531). -/
def Obligations.BackupDomain : Prop :=
  (∀ s, s.RegsOk → secTamper s = false → ∃ t, exec .tamperFall s = .next t ∧ bits (reg t 0x1000) 29 29 = 1 ∧ State.SameBut [.regs] s t ∧
    ∀ o, o ≠ 0x1000 → reg t o = reg s o) ∧
  (∀ s, secTamper s = true → fieldOf s 0x2000 1 0 = 0 → exec .tamperFall s = .next s) ∧
  (∀ s, secTamper s = true → fieldOf s 0x2000 1 0 ≠ 0 → ∃ t, exec .tamperFall s = .next t ∧ t.sec.zeroised = true ∧ t.sec.slots = [] ∧
    t.sec.tkek = [] ∧ t.sec.relayKeys = [] ∧ t.sec.pairKey = none ∧ t.table = s.table) ∧
  (∀ s, fieldOf s 0x1018 1 1 = 1 → s.boot.power = .hold → ∃ t, exec .wakePinFall s = .next t ∧ t.boot.power = .run ∧ t.boot.target = .run ∧
    t.boot.wakeLow = true ∧ ∀ n, (islOf t n).st = if (islOf s n).st = .gated then .run else (islOf s n).st) ∧
  (∀ s, fieldOf s 0x1018 1 1 = 1 → s.boot.power = .backup →
    exec .wakePinFall s = .next { s with boot := { s.boot with wakeLow := true, pwrEn := true } }) ∧
  (∀ s, fieldOf s 0x1018 1 1 = 0 → exec .wakePinFall s = .next { s with boot := { s.boot with wakeLow := true } }) ∧
  (∀ s, s.boot.power = .backup → fieldOf s 0x1018 0 0 = 1 → reg s 0x1008 = reg s 0x101C →
    exec .bkpAlarm s = .next { s with boot := { s.boot with pwrEn := true } }) ∧
  (∀ s, (s.boot.power ≠ .backup ∨ fieldOf s 0x1018 0 0 = 0 ∨ reg s 0x1008 ≠ reg s 0x101C) → exec .bkpAlarm s = .next s) ∧
  (∀ s, s.RegsOk → s.boot.mainSupply = true → ∃ t, exec .mainSupplyLoss s = .next t ∧ t.boot.power = .backup ∧ t.boot.mainSupply = false ∧
    (∀ o, o ≠ 0x17004 → reg t o = if keepsReg .main o then reg s o else regReset o) ∧ t.table = tableReset ∧ t.sec.slots = [] ∧
    t.mea.kept = s.mea.kept ∧ t.evt.lastSeq = s.evt.lastSeq) ∧
  (∀ (mv : Nat) (s : State), s.RegsOk → mv < 2000 → ∃ t, exec (.vbatLow mv) s = .next t ∧ bits (reg t 0x1000) 28 28 = 1 ∧
    State.SameBut [.regs, .evt] s t ∧ ∀ o, o ≠ 0x1000 → reg t o = reg s o) ∧
  (∀ s, s.RegsOk → ∃ t, exec .bkpSecondTick s = .next t ∧ reg t 0x1008 = reg s 0x1008 + 1 ∧
    bits (reg t 0x100C) 15 0 = (if reg s 0x1008 = 0xFFFFFFFF then bits (reg s 0x100C) 15 0 + 1 else bits (reg s 0x100C) 15 0) % 65536 ∧
    reg t 0x1010 = (if s.boot.mainSupply then satAdd (reg s 0x1010) 1 else reg s 0x1010) ∧ State.SameBut [.regs] s t) ∧
  ∀ s, s.boot.mainSupply = false → ∃ t, exec .bkpPowerLoss s = .next t ∧ (∀ o, reg t o = regReset o) ∧ t.mea.kept = [] ∧ t.evt.lastSeq = none ∧
    t.boot.pwrEn = true ∧ t.boot.otp = s.boot.otp ∧ t.boot.ctl = s.boot.ctl ∧ t.arch.blocks = s.arch.blocks

/-- Attached modules come and go (R461 to R465). -/
def Obligations.ModulePresence : Prop :=
  (∀ (k : Nat) (s : State), k < 8 → ∃ t, exec (.modulePresenceHigh k) s = .next t ∧
    modSlot t k = { modSlot s k with presHigh := true, debounce := false, code := 0 } ∧ (∀ j, j ≠ k → modSlot t j = modSlot s j) ∧
    (k < 2 → (meaHead t k).rec_ = none ∧ (meaHead t k).next = none) ∧ State.SameBut [.mea] s t) ∧
  (∀ (k : Nat) (s : State), k < 8 → ∃ t, exec (.modulePresenceLow k) s = .next t ∧
    modSlot t k = { modSlot s k with presHigh := false, debounce := true, lowAt := s.tim.raw } ∧ (∀ j, j ≠ k → modSlot t j = modSlot s j) ∧
    t.mea.heads = s.mea.heads ∧ State.SameBut [.mea] s t) ∧
  (∀ (k : Nat) (m : ModRecord) (s : State), s.RegsOk → k < 8 → slotUsed s k = true → (modSlot s k).presHigh = false → (modSlot s k).debounce = true →
    (modSlot s k).lowAt + 50000000 ≤ s.tim.raw →
    ∃ t, exec (.modulePresenceDebounce k m) s = .next t ∧ (modSlot t k).code = recordCode s k m ∧ (modSlot t k).debounce = false ∧
      (recordCode s k m = 1 → (modSlot t k).rec_ = m.bytes ∧ t.mea.kept.getD k 0 = BitVec.ofNat 32 (recFld m.bytes 252 4)) ∧
      reg t 0xF050 = satAdd (reg s 0xF050) 1 ∧ State.SameBut [.regs, .plc, .rf, .mea, .evt] s t) ∧
  (∀ (k : Nat) (m : ModRecord) (s : State), ((modSlot s k).presHigh = true ∨ (modSlot s k).debounce = false ∨ s.tim.raw < (modSlot s k).lowAt + 50000000) →
    exec (.modulePresenceDebounce k m) s = .next s) ∧
  ∀ (k : Nat) (m : ModRecord) (s : State), 8 ≤ k → exec (.modulePresenceHigh k) s = .next s ∧ exec (.modulePresenceLow k) s = .next s ∧
    exec (.modulePresenceDebounce k m) s = .next s

/-- The PCIe link and Bus Master Enable (R384, R385, R386, R404, R416, R417, R509). -/
def Obligations.PcieLink : Prop :=
  (∀ (width speed : Nat) (s : State), islRun s 14 = true → width ∈ [1, 2, 4] → 1 ≤ speed → speed ≤ 3 →
    exec (.pcieLinkUp width speed) s = .next { s with host := { s.host with link := true, width := width, speed := speed } }) ∧
  (∀ (bme : Option Bool) (s : State), s.quiet → islUp s 14 = true → s.host.link = true → s.host.crsDone = false →
    exec (.pcieConfigRequest bme) s = .next (emit .configRetry s)) ∧
  (∀ s, s.quiet → islUp s 14 = true → s.host.link = true → s.host.crsDone = true →
    exec (.pcieConfigRequest none) s = .next (emit (configIdentity s) s) ∧
    exec (.pcieConfigRequest (some true)) s = .next (emit (configIdentity s) { s with host := { s.host with bme := true } })) ∧
  (∀ (a : Bool) (s : State), s.quiet → islUp s 14 = true → s.host.link = true → s.host.crsDone = true → s.host.bme = a →
    ∃ t, exec (.pcieConfigRequest (some false)) s = .next t ∧ t.host.bme = false ∧ t.out.head? = some (configIdentity s)) ∧
  (∀ (s : State), configIdentity s = .configReply ((s.boot.otp.getD 130 0).toNat / 65536) 0x8620 (((s.boot.bundle.map Bundle.subsystem).getD 0).toNat / 65536)
    (((s.boot.bundle.map Bundle.subsystem).getD 0).toNat % 65536) 0x0B4000) ∧
  (∀ s, s.quiet → s.host.bme = true → s.host.frames = [] →
    exec .busMasterEnableClear s = .next { s with host := { s.host with bme := false } }) ∧
  (∀ s, s.quiet → s.host.bme = true → ∃ t, exec .busMasterEnableClear s = .next t ∧ t.host.bme = false ∧ t.host.link = s.host.link ∧
    t.isl = s.isl ∧ t.boot = s.boot) ∧
  (∀ s, s.quiet → s.deferred = [] → s.Sound → islUp s 14 = true → ∃ t, exec .pcieLinkReset s = .next t ∧
    t.host = { hostReset with crsDone := s.host.crsDone } ∧ (∀ o, o / 0x1000 = 0xE → reg t o = regReset o) ∧ islOf t 14 = islOf s 14 ∧
    t.table = s.table) ∧
  (∀ s, s.quiet → s.host.bme = false → exec .busMasterEnableClear s = .next s) ∧
  ∀ (v : Nat) (s : State), v < 64 → ∃ t, exec (.msixUnmask v) s = .next t ∧ t.host.masked.getLsbD v = false ∧
    (∀ w, w ≠ v → t.host.masked.getLsbD w = s.host.masked.getLsbD w) ∧
    t.out = (if s.host.msixPending.getLsbD v = true ∧ s.host.link = true ∧ s.host.bme = true then [.msix v] else []) ++ s.out ∧
    (s.host.msixPending.getLsbD v = true → s.host.link = true → s.host.bme = true → t.host.msixPending.getLsbD v = false)

/-- Doorbell polling, rings starting and stopping, and their errors (R386, R389, R390, R391, R393, R402, R404). -/
def Obligations.HostRings : Prop :=
  (∀ (v : W32) (s : State), s.RegsOk → s.barReaches 0xE000 → s.quiet → bit (reg s 0xE000) 31 = false → bit v 31 = true →
    ∃ t, exec (.pciEnableWrite v) s = .next t ∧ bit (reg t 0xE000) 31 = true ∧
      t.host = { s.host with pollFast := true, changedAt := s.tim.raw } ∧ State.SameBut [.regs, .host] s t) ∧
  (∀ (v : W32) (s : State), s.RegsOk → s.barReaches 0xE000 → s.quiet → bit (reg s 0xE000) 31 = true → bit v 31 = false →
    ∃ t, exec (.pciEnableWrite v) s = .next t ∧ bit (reg t 0xE000) 31 = false ∧ t.host.link = s.host.link ∧ t.host.bme = s.host.bme ∧
      (s.host.frames = [] → t.host = { s.host with pollFast := false })) ∧
  (∀ (n : Nat) (v : W32) (s : State), s.RegsOk → Kv.wf s.host.sq = true → n < 32 → s.barReaches (sqCfg n) → bit (reg s (sqCfg n)) 31 = false →
    ∃ t, exec (.ringEnable false n v) s = .next t ∧ bit (reg t (sqCfg n)) 31 = true ∧
      sqOf t n = { sqEmpty with run := true, inFlight := (sqOf s n).inFlight } ∧ (∀ m, m ≠ n → sqOf t m = sqOf s m) ∧
      State.SameBut [.regs, .host] s t) ∧
  (∀ (n : Nat) (v : W32) (s : State), s.RegsOk → n < 32 → s.barReaches (cqCfg n) → bit (reg s (cqCfg n)) 31 = false →
    ∃ t, exec (.ringEnable true n v) s = .next t ∧ bit (reg t (cqCfg n)) 31 = true ∧ Kv.get? n t.host.cq = some ⟨0, 0, 0, 0, []⟩ ∧
      (∀ m, m ≠ n → Kv.get? m t.host.cq = Kv.get? m s.host.cq) ∧ State.SameBut [.regs, .host] s t) ∧
  (∀ (n : Nat) (v : W32) (s : State), s.RegsOk → s.quiet → Kv.wf s.host.sq = true → n < 32 → s.barReaches (sqCfg n) →
    bit (reg s (sqCfg n)) 31 = true → s.host.frames = [] →
    ∃ t, exec (.ringDisable false n v) s = .next t ∧ bit (reg t (sqCfg n)) 31 = false ∧
      sqOf t n = { sqOf s n with run := false, cons := (sqOf s n).prod, bufs := [] } ∧ (∀ m, m ≠ n → sqOf t m = sqOf s m) ∧
      t.out = if (sqOf s n).cons = (sqOf s n).prod then s.out else .sqCons n (sqOf s n).prod :: s.out) ∧
  (∀ (n : Nat) (v : W32) (c : CqState) (s : State), s.RegsOk → s.quiet → n < 32 → s.barReaches (cqCfg n) → bit (reg s (cqCfg n)) 31 = true →
    Kv.wf s.host.cq = true → Kv.get? n s.host.cq = some c → c.waiting = [] →
    ∃ t, exec (.ringDisable true n v) s = .next t ∧ bit (reg t (cqCfg n)) 31 = false ∧ t.host = { s.host with cq := Kv.del n s.host.cq } ∧
      t.out = s.out) ∧
  (∀ (words : List (BitVec 16)) (cmds : Kv (List CmdDesc)) (bufs : Kv (List BufDesc)) (s : State), pciUp s = false →
    exec (.doorbellPoll words cmds bufs) s = .next s) ∧
  (∀ (words : List (BitVec 16)) (cmds : Kv (List CmdDesc)) (bufs : Kv (List BufDesc)) (s : State), s.quiet → pciUp s = true →
    s.host.sq = [] → s.host.cq = [] → words ≠ s.host.db →
    exec (.doorbellPoll words cmds bufs) s = .next { s with host := { s.host with pollFast := true, changedAt := s.tim.raw, db := words } }) ∧
  (∀ (n : Nat) (q : SqState) (words : List (BitVec 16)) (cmds : Kv (List CmdDesc)) (bufs : Kv (List BufDesc)) (s : State), s.quiet →
    pciUp s = true → n < 32 → s.host.sq = [(n, q)] → s.host.cq = [] → q.run = true → fieldOf s (sqCfg n) 30 30 = 0 →
    (words.getD n 0 - q.cons).toNat ≤ ringSize (reg s (sqCfg n)) → Kv.get? n cmds = none →
    ∃ t, exec (.doorbellPoll words cmds bufs) s = .next t ∧ sqOf t n = { q with prod := words.getD n 0 } ∧ t.regs = s.regs ∧ t.out = s.out) ∧
  (∀ (n : Nat) (s : State), s.RegsOk → s.quiet → n < 32 → pciUp s = true → (sqOf s n).run = true → Kv.wf s.host.sq = true → s.host.frames = [] →
    ∃ t, exec (.dmaError false n) s = .next t ∧ (sqOf t n).run = false ∧ bits (reg t (sqCfg n)) 1 1 = 1 ∧
      reg t 0xE048 = satAdd (reg s 0xE048) 1 ∧ reg t 0xE04C = satAdd (reg s 0xE04C) 1) ∧
  (∀ (cq : Bool) (n : Nat) (s : State), s.quiet → ringRuns cq n s = false → exec (.dmaError cq n) s = .next s) ∧
  (∀ (n at_ : Nat) (f : HeldFrame) (s : State), s.RegsOk → s.quiet → n < 32 → s.host.frames = [(n, [f])] → f.holding = some at_ →
    at_ + fieldOf s 0xE01C 15 0 * 1000 ≤ s.tim.raw →
    ∃ t, exec (.rxBufferHoldExpiry n) s = .next t ∧ t.host.frames = [] ∧ reg t 0xE044 = satAdd (reg s 0xE044) 1) ∧
  (∀ (n : Nat) (c : CqState) (s : State), cqOpen s n = some c → bit (reg s (cqCfg n)) 30 = true → c.sinceMsg ≠ 0 →
    c.firstAt + bits (reg s (cqCfg n)) 23 16 * 1000 ≤ s.tim.raw → s.host.masked.getLsbD n = false → ∃ t, exec (.msixCoalesceExpiry n) s = .next t ∧
      Kv.get? n t.host.cq = some { c with sinceMsg := 0 } ∧ t.out = .msix n :: s.out) ∧
  ∀ (n : Nat) (s : State), cqOpen s n = none → exec (.msixCoalesceExpiry n) s = .next s

/-- READING_DISPATCH, TOKEN_RETURN, SESSION_EXPIRY, POLL_ISSUE and IDLE_ITEM_WRITE (R25, R85, R88, R92, R116, R352, R477). -/
def Obligations.IntakeAndTokens : Prop :=
  (∀ (q c : Nat) (i : RItem) (rest : List RItem) (s : State), serving s = true → s.pipe.turn = q → q < 8 →
    Kv.wf s.pipe.iq = true → s.pipe.iq.getD q [] = i :: rest → s.pipe.free ≠ 0 → signed i = false → openCluster s (routeItem s i).1 = some c →
    ∃ t, exec .readingDispatch s = .next t ∧ t.pipe.free = s.pipe.free - 1 ∧ t.pipe.nextId = s.pipe.nextId + 1 ∧ t.pipe.turn = (q + 1) % 8 ∧
      t.pipe.flight = s.pipe.flight ++ [⟨s.pipe.nextId, c, (routeItem s i).1, i, (routeItem s i).2, .dispatched, none, false, false, false, false, none, [], 0, [], 0⟩] ∧
      t.pipe.iq.getD q [] = rest ∧ (∀ k, k ≠ q → t.pipe.iq.getD k [] = s.pipe.iq.getD k []) ∧ t.table = s.table) ∧
  (∀ s, serving s = false → exec .readingDispatch s = .next s) ∧
  (∀ s, s.pipe.free = 0 → exec .readingDispatch s = .next s) ∧
  (∀ s, s.pipe.returning ≠ 0 →
    exec .tokenReturn s = .next { s with pipe := { s.pipe with returning := s.pipe.returning - 1, free := s.pipe.free + 1 } }) ∧
  (∀ s, s.pipe.returning = 0 → exec .tokenReturn s = .next s) ∧
  (∀ (k : Nat) (s : State), exec (.sessionExpiry k) s = .next { s with pipe := { s.pipe with sessions := Kv.del k s.pipe.sessions } }) ∧
  (∀ (slot k : Nat) (p : PollEntry) (b : Bundle) (s : State), s.boot.bundle = some b → (b.polls.find? fun e => e.entry == p.entry) = some p →
    isField s = true → serving s = true → recState (imgOf s slot) = 2 → fld (imgOf s slot) 9 1 < 128 →
    iqPaused (fld (imgOf s slot) 9 1 % 8) s = false → freeSession s = some k →
    ∃ t x, exec (.pollIssue p.entry slot) s = .next t ∧ t.pipe.sessions = Kv.put k ⟨slot, x, p.entry, s.tim.raw, rxTime s⟩ s.pipe.sessions ∧
      t.draws = s.draws + 2 ∧ t.pipe.flight = s.pipe.flight ∧ t.table = s.table) ∧
  (∀ (entry slot : Nat) (s : State), (isField s = false ∨ serving s = false ∨ recState (imgOf s slot) ≠ 2) →
    exec (.pollIssue entry slot) s = .next s) ∧
  (∀ (q : Nat) (s : State), s.MapsOk → q < 16 → queueDepth q ≠ 0 → (qState s q).items = 0 →
    ∃ t, exec (.idleItemWrite q) s = .next t ∧ qState t q = { qState s q with idle := true } ∧ (∀ r, r ≠ q → qState t r = qState s r) ∧
      State.SameBut [.queues] s t) ∧
  ∀ (q : Nat) (s : State), (256 ≤ q ∨ queueDepth q = 0 ∨ (qState s q).items ≠ 0) → exec (.idleItemWrite q) s = .next s

/-- READING_VERIFY (R68, R70, R94, R95, R96, R110). -/
def Obligations.ReadingVerified : Prop :=
  (∀ (f : Flight) (o : Nat) (b : Bool) (n : Option Nat) (s : State), s.pipe.flight.find? (fun g => g.id == f.id) = some f → f.stage = .dispatched →
    islRun s (17 + f.cluster) = true → islRun s 2 = true →
    (islOf s 2).st ≠ .gated → stage2 s f = (n, some o, b) → (n = none → o ≠ ocUnknown) →
    exec (.readingVerify f.id) s = .next (putFlight { f with slot := n, stage := .verified, outcome := some o, suspended := b } s)) ∧
  (∀ (f : Flight) (t : W64) (s : State), s.pipe.flight.find? (fun g => g.id == f.id) = some f → f.stage = .dispatched →
    islRun s (17 + f.cluster) = true → islRun s 2 = true → f.item.title = some t →
    f.slot = none → ∃ u, exec (.readingVerify f.id) s = .next u ∧ u.pipe.flight = s.pipe.flight.filter (fun g => g.id != f.id) ∧
      u.pipe.returning = s.pipe.returning + (s.pipe.flight.filter (fun g => g.id == f.id)).length ∧ u.pipe.free = s.pipe.free) ∧
  (∀ (f : Flight) (n : Nat) (p : Bool) (s : State), s.pipe.flight.find? (fun g => g.id == f.id) = some f → f.stage = .dispatched →
    islRun s (17 + f.cluster) = true → islRun s 2 = true →
    (islOf s 2).st ≠ .gated → stage2 s f = (some n, none, false) → keyCheck s n f.item = (some p, false) → isHead s = false →
    exec (.readingVerify f.id) s = .next (putFlight { f with stage := .verified, sesKey := if dedTag f.item.apdu.inner then sessionKey s n f.item else none, outcome := none, promoted := p, sigOk := false } s)) ∧
  (∀ (f : Flight) (n : Nat) (p : Bool) (s : State), s.pipe.flight.find? (fun g => g.id == f.id) = some f → f.stage = .dispatched →
    islRun s (17 + f.cluster) = true → islRun s 2 = true →
    (islOf s 2).st ≠ .gated → stage2 s f = (some n, none, false) → keyCheck s n f.item = (some p, false) → isHead s = true →
    exec (.readingVerify f.id) s = .next (if sigCheck s n f.item then
      putFlight { f with stage := .verified, sesKey := if dedTag f.item.apdu.inner then sessionKey s n f.item else none, outcome := none, promoted := p, sigOk := f.item.apdu.sign.isSome } (if f.item.apdu.sign.isSome then count 0x358 s else s)
      else putFlight { f with stage := .verified, sesKey := if dedTag f.item.apdu.inner then sessionKey s n f.item else none, outcome := some ocAuthFail } s)) ∧
  (∀ (f : Flight) (n : Nat) (s : State), s.pipe.flight.find? (fun g => g.id == f.id) = some f → f.stage = .dispatched →
    islRun s (17 + f.cluster) = true → islRun s 2 = true →
    (islOf s 2).st ≠ .gated → stage2 s f = (some n, none, false) → keyCheck s n f.item = (none, false) →
    exec (.readingVerify f.id) s = .next (putFlight { f with stage := .verified, sesKey := if dedTag f.item.apdu.inner then sessionKey s n f.item else none, outcome := some ocAuthFail } s)) ∧
  (∀ (f : Flight) (s : State), s.pipe.flight.find? (fun g => g.id == f.id) = some f → (islRun s (17 + f.cluster) = false ∨ islRun s 2 = false) →
    exec (.readingVerify f.id) s = .next s) ∧
  ∀ (id : Nat) (s : State), (∀ f, s.pipe.flight.find? (fun g => g.id == id) = some f → f.stage ≠ .dispatched) → exec (.readingVerify id) s = .next s

/-- COUNTER_CHECK and READING_POSTING (R88, R96, R98, R99, R102, R108, R111). -/
def Obligations.ReadingCommitted : Prop :=
  (∀ (f : Flight) (s : State), s.quiet → s.pipe.flight.find? (fun g => g.id == f.id) = some f →
    (f.stage ≠ .verified ∨ (∃ g ∈ s.pipe.flight, g.id < f.id ∧ g.slot = f.slot ∧ g.slot.isSome ∧ g.stage ≠ .committed) ∨ islRun s (17 + f.cluster) = false) →
    exec (.counterCheck f.id) s = .next s) ∧
  (∀ (f : Flight) (n oc off len : Nat) (s : State), s.pipe.flight.find? (fun g => g.id == f.id) = some f → f.stage = .verified →
    (∀ g ∈ s.pipe.flight, g.id < f.id → g.slot = f.slot → g.stage = .committed) → islRun s (17 + f.cluster) = true →
    f.outcome = some oc → oc ≠ ocAccepted → f.slot = some n → f.suspended = false → recCounter oc = some (off, len) →
    ∃ t, exec (.counterCheck f.id) s = .next (settleAll t) ∧
      imgOf t n = setFld (satFld (imgOf s n) off len 1) 12 4 ((recSeq (imgOf s n)).toNat + 1) ∧
      ∃ g ∈ t.pipe.flight, g.id = f.id ∧ g.stage = .committed ∧ g.outcome = some oc) ∧
  (∀ (f : Flight) (n : Nat) (s : State), s.pipe.flight.find? (fun g => g.id == f.id) = some f → f.stage = .verified →
    (∀ g ∈ s.pipe.flight, g.id < f.id → g.slot = f.slot → g.stage = .committed) → islRun s (17 + f.cluster) = true →
    f.outcome = none → f.slot = some n → f.promoted = false → overRadio f.item = false →
    f.item.apdu.ic.toNat ≤ fld (imgOf s n) 80 4 →
    ∃ t, exec (.counterCheck f.id) s = .next (settleAll t) ∧ imgOf t n =
      setFld (satFld (imgOf s n) (if f.item.apdu.ic.toNat = fld (imgOf s n) 80 4 then 136 else 134) 2 1) 12 4 ((recSeq (imgOf s n)).toNat + 1) ∧
      ∃ g ∈ t.pipe.flight, g.id = f.id ∧ g.stage = .committed ∧
        g.outcome = some (if f.item.apdu.ic.toNat = fld (imgOf s n) 80 4 then ocDuplicate else ocReplayed)) ∧
  (∀ (f : Flight) (n : Nat) (s : State), s.pipe.flight.find? (fun g => g.id == f.id) = some f → f.stage = .verified →
    (∀ g ∈ s.pipe.flight, g.id < f.id → g.slot = f.slot → g.stage = .committed) → islRun s (17 + f.cluster) = true →
    f.outcome = none → f.slot = some n → f.promoted = false → overRadio f.item = false →
    fld (imgOf s n) 80 4 < f.item.apdu.ic.toNat → (markHolds s f = false ∨ decodeRows s f.item = none) →
    ∃ t, exec (.counterCheck f.id) s = .next (settleAll t) ∧ fld (imgOf t n) 80 4 = f.item.apdu.ic.toNat ∧
      fld (imgOf t n) 88 8 = fld (imgOf s n) 88 8 ∧ fld (imgOf t n) 12 4 = (fld (imgOf s n) 12 4 + 1) % 2 ^ 32 ∧
      (decodeRows s f.item = none → imgOf t n = setFld (satFld (setFld (setIc (imgOf s n) f.item.apdu.ic.toNat) 88 8 (fld (imgOf s n) 88 8)) 140 2 1)
        12 4 ((recSeq (imgOf s n)).toNat + 1)) ∧
      ∃ g ∈ t.pipe.flight, g.id = f.id ∧ g.stage = .committed) ∧
  (∀ (f : Flight) (n : Nat) (ds : List RowData) (s : State), s.quiet → s.pipe.flight.find? (fun g => g.id == f.id) = some f → f.stage = .verified →
    (∀ g ∈ s.pipe.flight, g.id < f.id → g.slot = f.slot → g.stage = .committed) → islRun s (17 + f.cluster) = true →
    f.outcome = none → f.slot = some n → f.promoted = false → overRadio f.item = false →
    fld (imgOf s n) 80 4 < f.item.apdu.ic.toNat → decodeRows s f.item = some ds → ds.all (fun d => (demandOf d).2) = true →
    markHolds s f = true → exec (.counterCheck f.id) s = .next s) ∧
  (∀ (f : Flight) (n oc : Nat) (s : State), s.pipe.flight.find? (fun g => g.id == f.id) = some f → f.stage = .verified →
    (∀ g ∈ s.pipe.flight, g.id < f.id → g.slot = f.slot → g.stage = .committed) → islRun s (17 + f.cluster) = true →
    f.outcome = some oc → f.slot = some n → f.suspended = true →
    ∃ t, exec (.counterCheck f.id) s = .next (settleAll t) ∧
      imgOf t n = setFld (satFld (imgOf s n) 140 2 1) 12 4 ((recSeq (imgOf s n)).toNat + 1) ∧ t.arch = s.arch ∧
      ∃ g ∈ t.pipe.flight, g.id = f.id ∧ g.stage = .committed ∧ g.records = []) ∧
  (∀ (f : Flight) (s : State), (unposted s).find? (fun g => g.id == f.id) = some f → f.stage = .committed → journalAcked f.batch s = true →
    postsBefore s f = false →
    (isField s = true → relayBlocked s = false) → (isHead s = true → readingBlocked f.bucket s = false) →
    ∃ t, exec (.readingPosting f.id) s = .next t ∧ t.pipe.flight = s.pipe.flight.filter (fun g => g.id != f.id) ∧
      t.pipe.orphans = s.pipe.orphans.filter (fun g => g.id != f.id) ∧
      t.pipe.returning = s.pipe.returning + (s.pipe.flight.filter (fun g => g.id == f.id)).length ∧ t.pipe.free = s.pipe.free ∧ t.table = s.table) ∧
  ∀ (f : Flight) (s : State), (unposted s).find? (fun g => g.id == f.id) = some f →
    (f.stage ≠ .committed ∨ journalAcked f.batch s = false ∨ postsBefore s f = true) → exec (.readingPosting f.id) s = .next s

/-- FETCH_RETRY, MOVE_RELEASE_QUEUE, RETIRE_HOLD_EXPIRY and AGE_CHECK (R58, R59, R60, R61, R65, R67). -/
def Obligations.RecordUpkeep : Prop :=
  (∀ (f : Fetch) (s : State), s.table.fetches.find? (fun g => g.title == f.title) = some f → f.attempts < 4 →
    ∃ t, exec (.fetchRetry f.title) s = .next t ∧ t.table = { s.table with
      fetches := s.table.fetches.filter (fun g => g.title != f.title) ++ [{ f with attempts := f.attempts + 1 }] } ∧ State.SameBut [.regs, .win, .table, .relay, .jr, .evt] s t) ∧
  (∀ (f : Fetch) (s : State), s.table.fetches.find? (fun g => g.title == f.title) = some f → 4 ≤ f.attempts →
    ∃ t, exec (.fetchRetry f.title) s = .next t ∧ t.table.fetches = s.table.fetches.filter (fun g => g.title != f.title) ∧
      t.table.slots = s.table.slots ∧ t.table.index = s.table.index ∧ ∃ u ∈ t.table.unknown, u.title = f.title) ∧
  (∀ (title : W64) (s : State), s.table.fetches.find? (fun g => g.title == title) = none → exec (.fetchRetry title) s = .next s) ∧
  (∀ (m : Move) (rest : List Move) (s : State), s.table.moves = m :: rest → journalAcked m.batch s = true →
    ∃ t, exec .moveReleaseQueue s = .next t ∧ t.table = { s.table with moves := rest } ∧ State.SameBut [.regs, .win, .table, .relay, .jr, .evt] s t) ∧
  (∀ s, (∀ m, s.table.moves.head? = some m → journalAcked m.batch s = false) → exec .moveReleaseQueue s = .next s) ∧
  (∀ (n : Nat) (s : State), recState (imgOf s n) = 4 → (∀ f ∈ s.pipe.flight, f.slot ≠ some n) → isStandby s = false →
    (slotOf s n).retiredAt + fieldOf s 0x204 15 8 * (3600 * 1000000000 * 65536) ≤ s.tim.clk →
    ∃ t, exec (.retireHoldExpiry n) s = .next t ∧ recState (imgOf t n) = 0 ∧ recSeq (imgOf t n) = recSeq (imgOf s n) + 1 ∧
      (∀ m, m ≠ n → slotOf t m = slotOf s m) ∧ t.sec = { s.sec with signers := Kv.del n s.sec.signers } ∧ State.SameBut [.table, .jr, .sec] s t) ∧
  (∀ (n : Nat) (s : State), (recState (imgOf s n) ≠ 4 ∨ isStandby s = true ∨ s.tim.clk < (slotOf s n).retiredAt + fieldOf s 0x204 15 8 * (3600 * 1000000000 * 65536) ∨
    ∃ f ∈ s.pipe.flight, f.slot = some n) → exec (.retireHoldExpiry n) s = .next s) ∧
  (∀ s, s.RegsOk → isField s = true → isStandby s = false → fieldOf s 0x204 31 16 ≠ 0 → Kv.wf s.table.slots = true → ∃ t, exec .ageCheck s = .next t ∧
    (∀ n v, (n, v) ∈ s.table.slots → recState v.img = 2 → fld v.img 96 8 + fieldOf s 0x204 31 16 * (3600 * 65536) ≤ (clkTime s.tim.clk).toNat →
      recState (imgOf t n) = 0 ∨ recState (imgOf t n) = 4) ∧
    (∀ n v, (n, v) ∈ s.table.slots → (recState v.img ≠ 2 ∨ (clkTime s.tim.clk).toNat < fld v.img 96 8 + fieldOf s 0x204 31 16 * (3600 * 65536)) → slotOf t n = v)) ∧
  ∀ s, (isField s = false ∨ isStandby s = true ∨ fieldOf s 0x204 31 16 = 0) → exec .ageCheck s = .next s

/-- CAMPAIGN_FRAME_SEND, REPAIR_ROUND, ACTIVATION_BROADCAST, ACT_TIME_LATE_EXPIRY and CAMPAIGN_CHECKPOINT (R200, R216 to R221, R225, R252). -/
def Obligations.CampaignRuns : Prop :=
  (∀ (link : Nat) (f : CampFrame) (s : State), campGo link none f s = accessBroadcast link (.camp f)
    { s with camp := { s.camp with frames := Kv.put link (unitSec s, campSentNow s link + 1) s.camp.frames } }) ∧
  (∀ (link n : Nat) (c : Camp) (s : State), isField s = true → serving s = true → link ≤ 5 →
    campSentNow s link < (if link < 4 then fieldOf s 0x604 31 24 else fieldOf s 0x604 23 16) → accessBusy s link = false → accessReady s link = true →
    (s.camp.turn.getD link 63 + 1) % 64 = n → campOf s n = some c → c.st = .running → membersOn s c link ≠ [] →
    (cursorOf s c link n = ⟨0, 0, false, none, [], [], false⟩ →
      ∃ t, exec (.campaignFrameSend link) s = .next t ∧ t.out = (campGo link none (.manifest c.manifest) s).out ∧
        t.plc = (campGo link none (.manifest c.manifest) s).plc ∧ t.rf = (campGo link none (.manifest c.manifest) s).rf ∧
        Kv.get? (link * 64 + n) t.camp.cursors = some ⟨0, 1, false, none, [], [], false⟩ ∧ Kv.get? link t.camp.turn = some n ∧
        Kv.get? link t.camp.frames = some (unitSec s, campSentNow s link + 1)) ∧
    (∀ (g k : Nat), link < 4 → cursorOf s c link n = ⟨g, k, false, none, [], [], false⟩ → 0 < k → g < nSeg c.manifest → heldSeg s n g = none →
      s.camp.fetching.contains (n * 65536 + g) = false → (∀ m, m ≠ n → campOf s m = none) → ∃ t, exec (.campaignFrameSend link) s = .next t ∧
        t.camp = { s.camp with fetching := s.camp.fetching ++ [n * 65536 + g] } ∧ State.SameBut [.regs, .win, .camp, .relay, .jr, .evt] s t)) ∧
  (∀ link s, (isField s = false ∨ serving s = false ∨ 5 < link ∨
    (if link < 4 then fieldOf s 0x604 31 24 else fieldOf s 0x604 23 16) ≤ campSentNow s link ∨
    accessBusy s link = true ∨ accessReady s link = false) → exec (.campaignFrameSend link) s = .next s) ∧
  (∀ (link n : Nat) (c : Camp) (v : Cursor) (s : State), campOf s n = some c → isField s = true → serving s = true → cursorOf s c link n = v →
    v.rounds = true → v.rgen = none → v.todo = [] → c.st = .running → (∃ m ∈ membersOn s c link, m.st ≤ 1) →
    ∃ t, exec (.repairRound link n) s = .next t ∧ campOf t n = some { c with roundAt := Kv.put link (unitSec s) c.roundAt } ∧
      Kv.get? (link * 64 + n) t.camp.cursors = some
        { v with todo := ((membersOn s c link).filter fun m => !c.heard.contains m.slot).map (fun m => ⟨some m.title, .request⟩), rgen := some 0 } ∧
      State.SameBut [.camp, .jr] s t) ∧
  (∀ (link n : Nat) (c : Camp) (m : Member) (s : State), campOf s n = some c → isField s = true → serving s = true → m ∈ membersOn s c link →
    accessKnown s link m.title = true → ((c.st = .activating ∧ m.st = 2) ∨ (c.st = .rollingBack ∧ (m.st = 3 ∨ m.st = 4))) →
    ∃ t v, exec (.repairRound link n) s = .next t ∧ Kv.get? (link * 64 + n) t.camp.cursors = some v ∧ ⟨some m.title, .record⟩ ∈ v.todo ∧
      State.SameBut [.camp, .jr] s t) ∧
  (∀ (link n : Nat) (c : Camp) (r : ActRec) (s : State), campOf s n = some c → c.act = some r → isField s = true → serving s = true →
    (c.st = .activating ∨ c.st = .rollingBack) → membersOn s c link ≠ [] → (rxTime s).toNat < r.actTime.toNat + r.lateS * 65536 →
    (campMay s link = true → exec (.activationBroadcast link n) s = .next (campGo link none (.act r) s)) ∧
    (campMay s link = false → ∃ t v, exec (.activationBroadcast link n) s = .next t ∧ State.SameBut [.camp, .jr] s t ∧
      cursorOf t c link n = v ∧ ⟨none, .record⟩ ∈ v.todo)) ∧
  (∀ (link n : Nat) (c : Camp) (r : ActRec) (s : State), campOf s n = some c → c.act = some r → r.actTime.toNat + r.lateS * 65536 ≤ (rxTime s).toNat →
    exec (.activationBroadcast link n) s = .next s) ∧
  (∀ (n : Nat) (c : Camp) (r : ActRec) (s : State), campOf s n = some c → c.act = some r → r.actTime.toNat + r.lateS * 65536 ≤ (rxTime s).toNat →
    ∃ t, exec (.actTimeLateExpiry n) s = .next t ∧ State.SameBut [.camp, .jr] s t ∧ (∀ m, m ≠ n → campOf t m = campOf s m) ∧
      (c.st = .activating → campOf t n = some { c with st := .activated, members := c.members.map fun p =>
        (p.1, if p.2.st = 3 || p.2.st = 4 then p.2 else { p.2 with st := 8 }) }) ∧
      (c.st = .rollingBack → campOf t n = some { c with st := .reverted }) ∧
      (c.st ≠ .activating → c.st ≠ .rollingBack → t = s)) ∧
  (∀ (n : Nat) (c : Camp) (r : ActRec) (s : State), campOf s n = some c → c.act = some r → (rxTime s).toNat < r.actTime.toNat + r.lateS * 65536 →
    exec (.actTimeLateExpiry n) s = .next s) ∧
  ∀ s, exec .campaignCheckpoint s = .next (if isHead s = false then s else if archiveWritable s = false then writeRefused s else
    { s with camp := { s.camp with ckpt := some s.camp.camps } })

/-- BALANCE_INTERVAL_CLOSE, BALANCE_RUN and BALANCE_REPORT_POST (R158 to R161, R178, R182, R187). -/
def Obligations.BalanceRuns : Prop :=
  (∀ (s : State) (c : Int) (r : BalRun), isHead s = true → fieldOf s 0x500 31 31 ≠ 0 → balLen s ≠ 0 → s.bal.run = some r → islInRun s 16 = true →
    s.bal.lastClose = some c → c % balLen s = 0 → c + balLen s ≤ localSec s - utcOffset s → localSec s - utcOffset s < c + 2 * balLen s →
    exec .balanceIntervalClose s = .next { s with bal := { s.bal with lastClose := some (c + balLen s), timOut := false, due := s.bal.due ++ [(c + balLen s + utcOffsetAt (c + balLen s) s - (balLen s * (1 + fieldOf s 0x500 23 16) : Nat), s.tim.raw, true)] } }) ∧
  (∀ (s : State) (c : Int) (r : BalRun), isHead s = true → fieldOf s 0x500 31 31 ≠ 0 → balLen s ≠ 0 → s.bal.run = some r → islInRun s 16 = true →
    s.bal.lastClose = some c → c % balLen s = 0 → localSec s - utcOffset s < c + balLen s →
    exec .balanceIntervalClose s = .next { s with bal := { s.bal with timOut := false } }) ∧
  (∀ (s : State) (c : Int) (r : BalRun), isHead s = true → fieldOf s 0x500 31 31 ≠ 0 → balLen s ≠ 0 → s.bal.run = some r → islInRun s 16 = false →
    s.bal.lastClose = some c →
    exec .balanceIntervalClose s = .next { s with bal := { s.bal with lastClose := some (c + balLen s), timOut := false, due := s.bal.due ++ [(c + balLen s + utcOffsetAt (c + balLen s) s - (balLen s * (1 + fieldOf s 0x500 23 16) : Nat), s.tim.raw, false)] } }) ∧
  (∀ s, (isHead s = false ∨ fieldOf s 0x500 31 31 = 0 ∨ balLen s = 0) → exec .balanceIntervalClose s = .next s) ∧
  (∀ (s : State) (start : Int) (closed : Nat) (ok : Bool) (rest : List (Int × Nat × Bool)), s.RegsOk → isHead s = true → serving s = true → s.bal.run = none →
    s.bal.due = (start, closed, ok) :: rest → s.bal.waiting = none → ∃ t r, exec .balanceRun s = .next t ∧ t.bal.run = some r ∧ r.start = start ∧
      r.len = balLen s ∧ r.cfg = balCfg s ∧ r.late = !r.skipped ∧ r.computed = false ∧
      r.refs = s.bal.minutes.filter (fun m => decide (start ≤ m.start) && decide (m.start < start + balLen s)) ∧ (r.skipped = true ↔ ok = false ∨ s.bal.haveTree = false) ∧
      t.bal.due = rest ∧ t.bal.started = s.bal.started + 1 ∧ t.bal.treeChanged = false ∧ t.bal.meters = s.bal.meters ∧ t.bal.nodes = s.bal.nodes ∧
      State.SameBut [.regs, .bal, .eth, .jr, .host, .evt, .out] s t) ∧
  (∀ (s : State) (run : BalRun), isHead s = true → serving s = true → (∃ n ∈ [17, 18, 19, 20], islRun s n = true) → s.bal.run = some run →
    run.computed = false → ∃ t r, exec .balanceRun s = .next t ∧ t.bal = { s.bal with run := some r } ∧ r.computed = true ∧ r.start = run.start ∧ r.len = run.len ∧
      r.cfg = run.cfg ∧ (run.skipped = true → r.meters = run.meters ∧ r.nodes = run.nodes ∧ r.reports.map (·.2) = [⟨0, .balSummary (skippedSummary s run)⟩]) ∧
      r.batch = journalMark t ∧ State.SameBut [.bal, .jr] s t) ∧
  (∀ (s : State) (run : BalRun), s.bal.run = some run → (run.computed = true ∨ isHead s = false ∨ serving s = false) → exec .balanceRun s = .next s) ∧
  (∀ (s : State) (run : BalRun), isHead s = true → serving s = true → s.bal.run = some run → run.computed = true → journalAcked run.batch s = true →
    s.bal.due = [] → (run.meters.map (·.slot)).Nodup → ∃ t, exec .balanceReportPost s = .next t ∧ t.bal.run = none ∧ t.bal.runSeq = s.bal.runSeq + 1 ∧
      (∀ d ∈ run.meters, ∃ w, Kv.get? d.slot t.bal.meters = some w ∧ w.score = d.score ∧ w.cover = d.cover ∧ w.byp = d.byp) ∧
      (∀ n, n ∉ run.meters.map (·.slot) → Kv.get? n t.bal.meters = Kv.get? n s.bal.meters) ∧
      State.SameBut [.regs, .table, .bal, .eth, .jr, .host, .evt, .out] s t) ∧
  ∀ (s : State) (run : BalRun), s.bal.run = some run → (run.computed = false ∨ journalAcked run.batch s = false ∨ isHead s = false ∨ serving s = false) →
    exec .balanceReportPost s = .next s

/-- ZC_EDGE, ZC_LOST, LD_FAULT_FALL, LD_FAULT_PIN_RISE, LD_FAULT_RESUME, ROUTE_TTL_EXPIRY, REASSEMBLY_TIMEOUT and SHORT_HOLD_EXPIRY (R233, R235, R237, R244, R245, R264). -/
def Obligations.PlcPinsAndTimers : Prop :=
  (∀ (n t0 : Nat) (s : State), islRun s (5 + n) = true → ∃ t, exec (.zcEdge n t0) s = .next t ∧ (∀ m, m ≠ n → plcOf t m = plcOf s m) ∧
    ((plcOf s n).zcEdges = [] → plcOf t n = { plcOf s n with zcEdges := [t0] }) ∧
    (∀ e l, (plcOf s n).zcEdges = e :: l → 15385000 ≤ t0 - e → t0 - e ≤ 22222000 → plcOf t n = { plcOf s n with
      zcEdges := t0 :: e :: l.take 126, period := t0 - e, inRange := min 16 ((plcOf s n).inRange + 1), zcLost := (plcOf s n).zcLost && decide ((plcOf s n).inRange + 1 < 16) }) ∧
    (∀ e l, (plcOf s n).zcEdges = e :: l → (t0 - e < 15385000 ∨ 22222000 < t0 - e) →
      plcOf t n = { plcOf s n with zcEdges := t0 :: e :: l.take 126, period := t0 - e, inRange := 0, zcLost := true })) ∧
  (∀ (n : Nat) (s : State), islRun s (5 + n) = true → ∃ t, exec (.zcLost n) s = .next t ∧ (∀ m, m ≠ n → plcOf t m = plcOf s m) ∧
    plcOf t n = { plcOf s n with zcEdges := [], inRange := 0, zcLost := true }) ∧
  (∀ (n t0 : Nat) (s : State), islRun s (5 + n) = false → exec (.zcEdge n t0) s = .next s ∧ exec (.zcLost n) s = .next s) ∧
  (∀ (n : Nat) (s : State), ∃ t, exec (.ldFaultFall n) s = .next t ∧ plcOf t n = { plcOf s n with ldPin := false, ldWait := false } ∧
    (∀ m, m ≠ n → plcOf t m = plcOf s m) ∧ (∀ hop dest level pay, plcEmit n hop dest level pay t = t)) ∧
  (∀ (n : Nat) (s : State), (plcOf s n).ldPin = false → ∃ t, exec (.ldFaultPinRise n) s = .next t ∧ State.SameBut [.plc] s t ∧
    plcOf t n = { plcOf s n with ldPin := true, ldWait := true, ldAt := s.tim.raw } ∧ (∀ m, m ≠ n → plcOf t m = plcOf s m) ∧ (∀ hop dest level pay, plcEmit n hop dest level pay t = t)) ∧
  (∀ (n : Nat) (s : State), (plcOf s n).ldPin = true → exec (.ldFaultPinRise n) s = .next s) ∧
  (∀ (n : Nat) (s : State), ∃ t, exec (.ldFaultResume n) s = .next t ∧ State.SameBut [.plc] s t ∧ (∀ m, m ≠ n → plcOf t m = plcOf s m) ∧ plcOf t n =
    { plcOf s n with ldWait := (plcOf s n).ldWait && !((plcOf s n).ldPin && decide ((plcOf s n).ldAt + 1000000000 ≤ s.tim.raw)), modWait := (plcOf s n).modWait && !decide ((plcOf s n).modAt + 1000000000 ≤ s.tim.raw) }) ∧
  (∀ (n dest : Nat) (e : Route) (s : State), Kv.get? dest (plcOf s n).routes = some e →
    (s.tim.clk < e.used + fieldOf s (plcBase n + 0x18) 31 16 * 60 * (1000000000 * 65536) → exec (.routeTtlExpiry n dest) s = .next s) ∧
    (e.used + fieldOf s (plcBase n + 0x18) 31 16 * 60 * (1000000000 * 65536) ≤ s.tim.clk → ∃ t, exec (.routeTtlExpiry n dest) s = .next t ∧ State.SameBut [.plc, .jr] s t ∧
    plcOf t n = { plcOf s n with routes := Kv.del dest (plcOf s n).routes } ∧ (∀ m, m ≠ n → plcOf t m = plcOf s m))) ∧
  (∀ (n src tag : Nat) (s : State), s.RegsOk → n < 4 → (src, tag) ∈ (plcOf s n).reasm → ∃ t, exec (.reassemblyTimeout n src tag) s = .next t ∧
    State.SameBut [.regs, .plc, .rf] s t ∧ t.rf = s.rf ∧ plcOf t n = { plcOf s n with reasm := (plcOf s n).reasm.filter (· != (src, tag)) } ∧
    reg t (plcBase n + 0x60) = satAdd (reg s (plcBase n + 0x60)) 1) ∧
  (∀ (n src tag : Nat) (s : State), s.RegsOk → n < 2 → (src, tag) ∈ (rfOf s n).reasm → ∃ t, exec (.reassemblyTimeout (4 + n) src tag) s = .next t ∧
    State.SameBut [.regs, .plc, .rf] s t ∧ t.plc = s.plc ∧ rfOf t n = { rfOf s n with reasm := (rfOf s n).reasm.filter (· != (src, tag)) } ∧
    reg t (rfBase n + 0x64) = satAdd (reg s (rfBase n + 0x64)) 1) ∧
  (∀ (n k : Nat) (e : PlcEnd) (s : State), n < 4 → isField s = true → serving s = true → Kv.get? k (plcOf s n).ends = some e →
    (recordActive s e.title = true ∨ s.tim.clk < e.heard + fieldOf s (plcBase n + 0x20) 31 16 * 3600 * (1000000000 * 65536) →
      exec (.shortHoldExpiry n k) s = .next s) ∧
    (recordActive s e.title = false → e.heard + fieldOf s (plcBase n + 0x20) 31 16 * 3600 * (1000000000 * 65536) ≤ s.tim.clk → ∃ t, exec (.shortHoldExpiry n k) s = .next t ∧ State.SameBut [.plc, .jr] s t ∧
      plcOf t n = { plcOf s n with ends := Kv.del k (plcOf s n).ends })) ∧
  ∀ (n k : Nat) (e : RfEnd) (s : State), isField s = true → serving s = true → Kv.get? k (rfOf s n).ends = some e →
    (recordActive s e.title = true ∨ s.tim.clk < e.heard + fieldOf s (rfBase n + 0x10) 7 0 * 3600 * (1000000000 * 65536) →
      exec (.shortHoldExpiry (4 + n) k) s = .next s) ∧
    (recordActive s e.title = false → e.heard + fieldOf s (rfBase n + 0x10) 7 0 * 3600 * (1000000000 * 65536) ≤ s.tim.clk → ∃ t, exec (.shortHoldExpiry (4 + n) k) s = .next t ∧ State.SameBut [.rf, .jr] s t ∧
      rfOf t n = { rfOf s n with ends := Kv.del k (rfOf s n).ends })

/-- PLC_FRAME_RX, PLC_ACK_TIMEOUT, ROUTE_WAIT_EXPIRY, ZC_REPORT_SEND and FP_REPORT_SEND (R237, R240, R242, R243, R247, R249, R252). -/
def Obligations.PlcFrames : Prop :=
  (∀ (n : Nat) (f : PlcFrame) (s : State), islRun s (5 + n) = false → exec (.plcFrameRx n f) s = .next s) ∧
  (∀ (n : Nat) (f : PlcFrame) (s : State), n < 4 → islRun s (5 + n) = true → f.fchOk = false →
    exec (.plcFrameRx n f) s = .next (count (plcBase n + 0x48) s)) ∧
  (∀ (n : Nat) (f : PlcFrame) (s w : State), n < 4 → islRun s (5 + n) = true → f.fchOk = true →
    w = setPlc n (fun p => { p with noise := Config.noiseFloor p.noise (f.peaks.filter (· < p.noise + fieldOf s (plcBase n + 0xC) 31 24)) }) s →
    (∀ x ∈ f.peaks, x < (plcOf s n).noise + fieldOf s (plcBase n + 0xC) 31 24) →
    (f.fcsOk = false → exec (.plcFrameRx n f) s = .next (count (plcBase n + 0x44) w)) ∧
    (f.fcsOk = true → f.unsupported = true → exec (.plcFrameRx n f) s = .next (count (plcBase n + 0x58) w)) ∧
    (f.fcsOk = true → f.unsupported = false → (f.secOk = false ∨ (plcOf s n).gmk ≠ some f.key ∧ (plcOf s n).gmkOld ≠ some f.key ∨
        ∃ c, Kv.get? f.src (plcOf s n).rxCtr = some c ∧ f.counter.toNat ≤ c.toNat) →
      (∀ a b c d, f.body ≠ .bootstrap a b c d) → f.body ≠ .beaconRequest → exec (.plcFrameRx n f) s = .next (count (plcBase n + 0x54) w))) ∧
  (∀ (n : Nat) (f : PlcFrame) (s : State), s.RegsOk → n < 4 → islRun s (5 + n) = true → serving s = true → f.fchOk = true → f.fcsOk = true →
    (f.peaks.filter fun x => decide ((plcOf s n).noise + fieldOf s (plcBase n + 0xC) 31 24 ≤ x)).length * 100 ≤ f.peaks.length * fieldOf s (plcBase n + 0xC) 23 16 →
    f.unsupported = false → f.secOk = true → (plcOf s n).gmk = some f.key →
    (∀ c, Kv.get? f.src (plcOf s n).rxCtr = some c → c.toNat < f.counter.toNat) → f.ask = false → f.body = .otherAdapt →
    ∃ t, exec (.plcFrameRx n f) s = .next t ∧ t.out = (if f.unicast = true ∧ plcReady s n = true then [.plcAck n f.src] else []) ++ s.out ∧
      (plcOf t n).rxCtr = Kv.put f.src f.counter (plcOf s n).rxCtr ∧ (plcOf t n).awaiting = (plcOf s n).awaiting ∧
      (plcOf t n).routes = (plcOf s n).routes ∧ State.SameBut [.regs, .plc, .jr, .out] s t) ∧
  (∀ (n id : Nat) (x : PlcTx) (s : State), (plcOf s n).awaiting.find? (fun t => t.id == id) = some x → x.tries < fieldOf s (plcBase n + 4) 2 0 →
    x.fresh = false → (∀ y, Kv.get? ((plcTxHop (plcOf s n) x).getD x.dest) (plcOf s n).neigh = some y → y.down = none) → s.RegsOk →
    ∃ t, exec (.plcAckTimeout n id) s = .next t ∧ (plcOf t n).awaiting = (plcOf s n).awaiting.map (fun y =>
      if y.id == id then { y with tries := y.tries + 1, level := plcDown x.level, fresh := false } else y) ∧
      (plcOf t n).routes = (plcOf s n).routes ∧ State.SameBut [.regs, .plc, .jr, .out] s t) ∧
  (∀ (n id : Nat) (x : PlcTx) (s : State), (plcOf s n).awaiting.find? (fun t => t.id == id) = some x → fieldOf s (plcBase n + 4) 2 0 ≤ x.tries → s.RegsOk →
    ∃ t, exec (.plcAckTimeout n id) s = .next t ∧ (plcOf t n).awaiting = (plcOf s n).awaiting.filter (fun y => y.id != id) ∧
      (plcOf t n).routes = Kv.del x.dest (plcOf s n).routes ∧ State.SameBut [.regs, .plc, .jr, .out] s t) ∧
  (∀ (n id : Nat) (x : PlcTx) (s : State), (plcOf s n).queued.find? (fun t => t.id == id) = some x →
    ∃ t, exec (.routeWaitExpiry n id) s = .next t ∧ (plcOf t n).queued = (plcOf s n).queued.filter (fun y => y.id != id) ∧
      (plcOf t n).routes = Kv.del x.dest (plcOf s n).routes ∧ State.SameBut [.regs, .plc, .jr, .out] s t) ∧
  (∀ (n k : Nat) (e : PlcEnd) (r : ZcReport) (s : State), isField s = true → serving s = true → Kv.get? k (plcOf s n).ends = some e → e.zc = some r →
    (((plcOf s n).zcLost = true ∨ ∃ x, e.zcSent = some x ∧ unitSec s < x + fieldOf s (plcBase n + 0x10) 31 16) → exec (.zcReportSend n k) s = .next s) ∧
    ((plcOf s n).zcLost = false → (∀ x, e.zcSent = some x → x + fieldOf s (plcBase n + 0x10) 31 16 ≤ unitSec s) → exec (.zcReportSend n k) s = .next (sendEntry headUnit (.zc r)
      (setPlc n (fun p => { p with ends := Kv.put k { e with zcSent := some (unitSec s) } p.ends }) s)))) ∧
  ∀ (n k : Nat) (e : PlcEnd) (f : FpAcc) (s : State), isField s = true → serving s = true → Kv.get? k (plcOf s n).ends = some e →
    Kv.get? e.title.toNat (plcOf s n).fps = some f →
    ((f.frames < fieldOf s (plcBase n + 0x1C) 23 16 ∨ ∃ x, f.sent = some x ∧ unitSec s < x + fieldOf s (plcBase n + 0x1C) 15 0 * 3600) →
      exec (.fpReportSend n k) s = .next s) ∧
    (fieldOf s (plcBase n + 0x1C) 23 16 ≤ f.frames → (∀ x, f.sent = some x → x + fieldOf s (plcBase n + 0x1C) 15 0 * 3600 ≤ unitSec s) →
      exec (.fpReportSend n k) s = .next (sendEntry headUnit (.fp ⟨e.title, plcFcc s n, n, f.frames, f.acc.map (· / 256)⟩)
        (setPlc n (fun p => { p with fps := Kv.put e.title.toNat { f with sent := some (unitSec s) } p.fps }) s)))

/-- RF_TIMESLOT, RF_FRAME_RX, RF_SCAN and SLEEPY_QUEUE_EXPIRY (R266, R271, R273, R276 to R280, R282). -/
def Obligations.RadioSlots : Prop :=
  (∀ (n : Nat) (s : State), islRun s (9 + n) = false → exec (.rfTimeslot n) s = .next s) ∧
  (∀ (n : Nat) (s : State), islRun s (9 + n) = true → rfChild s n = false → serving s = true → (rfOf s n).inAir = none → (rfOf s n).listening = [] →
    (rfOf s n).ebDue = false → (rfOf s n).acks = [] →
    (rfPick s n (rfAsn s n) = none → ∃ t, exec (.rfTimeslot n) s = .next t ∧ State.SameBut [.rf, .jr] s t ∧ rfOf t n = { rfOf s n with
      asn := rfAsn s n, sending := none, lna := (rfSharedSlot s n (rfAsn s n) || !(rfUplinks s n (rfAsn s n)).isEmpty) && rfExtPa s n,
      queue := if rfSharedSlot s n (rfAsn s n) then (rfOf s n).queue.map fun x => if rfMayShared (rfOf s n) x then { x with wait := x.wait - 1 } else x
        else (rfOf s n).queue,
      listening := ((rfUplinks s n (rfAsn s n)).filter fun u => match Kv.get? u.1 (rfOf s n).ends with | some e => rfCapped s n e | none => false).map (·.1) }) ∧
    (∀ m, rfEbSlot s n (rfAsn s n) = true → rfMetric s = some m → modOk s (6 + n) = true → (rfOf s n).modUntil ≤ s.tim.raw → (rfOf s n).outCtr < (rfOf s n).outEnd →
      rfUplinks s n (rfAsn s n) = [] →
      ∃ t, exec (.rfTimeslot n) s = .next t ∧ State.SameBut [.regs, .rf, .jr, .out] s t ∧
        t.out = .rf n none (rfChannel s n (rfAsn s n) 0) (rfOf s n).outCtr (rfAtten s n) (rfExtPa s n) (.eb (rfBeacon s n (rfAsn s n) m)) :: s.out ∧
        rfOf t n = { rfOf s n with asn := rfAsn s n, sending := some 0, lna := false, outCtr := (rfOf s n).outCtr + 1 })) ∧
  (∀ (n : Nat) (a : RfAck) (s : State), islRun s (9 + n) = true → rfChild s n = false → serving s = false → isStandby s = false → (rfOf s n).ebDue = false →
    (rfOf s n).listening = [] → (rfOf s n).inAir = none → (rfOf s n).acks = [a] →
    ∃ t, exec (.rfTimeslot n) s = .next t ∧ State.SameBut [.rf, .jr, .out] s t ∧ (rfOf t n).acks = [] ∧
      t.out = .rfAck n [a] (rfAtten s n) (rfExtPa s n) :: s.out) ∧
  (∀ (n id : Nat) (sh : Bool) (x : RfTx) (s : State), n < 2 → islRun s (9 + n) = true → rfChild s n = false → serving s = false → isStandby s = false →
    (rfOf s n).ebDue = false → (rfOf s n).listening = [] → (rfOf s n).acks = [] → (rfOf s n).inAir = some (id, sh) →
    (rfOf s n).queue.find? (fun t => t.id == id) = some x → s.RegsOk →
    ∃ t d, exec (.rfTimeslot n) s = .next t ∧ (rfOf t n).inAir = none ∧ (rfOf t n).queue = (if x.tries < fieldOf s (rfBase n + 4) 2 0 then
      (rfOf s n).queue.map (fun y => if y.id ≠ id then y else
        if sh then { y with tries := y.tries + 1, be := min 7 (y.be + 1), wait := d % 2 ^ min 7 (y.be + 1) } else { y with tries := y.tries + 1 })
      else (rfOf s n).queue.filter (fun y => y.id != id)) ∧
      reg t (rfBase n + 0x6C) = satAdd (reg s (rfBase n + 0x6C)) 1 ∧
      reg t (rfBase n + 0x70) = (if x.tries < fieldOf s (rfBase n + 4) 2 0 then reg s (rfBase n + 0x70) else satAdd (reg s (rfBase n + 0x70)) 1)) ∧
  (∀ (n k : Nat) (e : RfEnd) (s : State), n < 2 → islRun s (9 + n) = true → rfChild s n = false → serving s = false → isStandby s = false → (rfOf s n).ebDue = false →
    (rfOf s n).listening = [k] → (rfOf s n).acks = [] → (rfOf s n).inAir = none → Kv.get? k (rfOf s n).ends = some e → e.st = .sync → s.RegsOk →
    ∃ t, exec (.rfTimeslot n) s = .next t ∧ Kv.get? k (rfOf t n).ends = some (if 2 ≤ e.failed then { e with failed := e.failed + 1, st := .desync, kaTries := 0 }
      else { e with failed := e.failed + 1 }) ∧ (rfOf t n).listening = []) ∧
  (∀ (n : Nat) (f : RfFrame) (s : State), n < 2 → islRun s (9 + n) = true → rfHears s n f = true →
    (f.fcsOk = false → exec (.rfFrameRx n f) s = .next (count (rfBase n + 0x44) s)) ∧
    (f.fcsOk = true → (f.unsupported = true ∨ fieldOf s (rfBase n + 4) 26 16 < f.length) → exec (.rfFrameRx n f) s = .next (count (rfBase n + 0x5C) s)) ∧
    (f.fcsOk = true → f.unsupported = false → f.length ≤ fieldOf s (rfBase n + 4) 26 16 →
      (f.destOk = false → exec (.rfFrameRx n f) s = .next (count (rfBase n + 0x48) s)) ∧
      (f.destOk = true → ∀ x, f.sec = some x → (x.idx, x.key) ∉ rfKeys (rfOf s n) → exec (.rfFrameRx n f) s = .next (count (rfBase n + 0x4C) s)) ∧
      (f.destOk = true → ∀ x e h, f.sec = some x → (x.idx, x.key) ∈ rfKeys (rfOf s n) → Kv.get? f.src (rfOf s n).ends = some e →
        Kv.get? x.idx e.ctrs = some h → x.counter.toNat < h.toNat → exec (.rfFrameRx n f) s = .next (count (rfBase n + 0x50) s)) ∧
      (f.destOk = true → ∀ x e, f.sec = some x → (x.idx, x.key) ∈ rfKeys (rfOf s n) → Kv.get? f.src (rfOf s n).ends = some e →
        (∀ h, Kv.get? x.idx e.ctrs = some h → h.toNat < x.counter.toNat) → f.body = .keepAlive → f.unicast = true → f.ackReq = true → serving s = true →
        rfChild s n = false → s.RegsOk → ∃ t v, exec (.rfFrameRx n f) s = .next t ∧
          (rfOf t n).acks = (rfOf s n).acks ++ [⟨f.src, f.lane, some (-f.offset), e.sleepy && (rfOf s n).queue.any (fun q => q.dest = some f.src), f.endAt⟩] ∧
          Kv.get? f.src (rfOf t n).ends = some v ∧ v.ctrs = Kv.put x.idx x.counter e.ctrs ∧ v.failed = 0 ∧ v.heard = s.tim.clk ∧
          v.st = (if e.st = .desync then .sync else e.st) ∧ v.corrAt = clkNow s))) ∧
  (∀ (n : Nat) (f : RfFrame) (s : State), rfHears s n f = false → exec (.rfFrameRx n f) s = .next s) ∧
  (∀ (n : Nat) (f : RfFrame) (l : List ScanHit) (s : State), islRun s (9 + n) = false → exec (.rfFrameRx n f) s = .next s ∧ exec (.rfScan n l) s = .next s) ∧
  (∀ (n : Nat) (l : List ScanHit) (h : ScanHit) (s : State), islRun s (9 + n) = true → rfChild s n = true → (rfOf s n).parent = 0 → serving s = true →
    scanChoice (fieldOf s (rfBase n + 0x14) 31 16) l = some h → ∃ t, exec (.rfScan n l) s = .next t ∧ State.SameBut [.rf] s t ∧
      (rfOf t n).parent = (if fieldOf s (rfBase n + 0x14) 31 16 = 0xFFFF then 3 else 1) ∧ (rfOf t n).parentPan = h.pan ∧ (rfOf t n).parentMetric = h.metric ∧
      (rfOf t n).asn = h.asn ∧ (rfOf t n).key = some h.key ∧ (rfOf t n).keyIdx = h.keyIdx ∧ (rfOf t n).myCells = h.cells ∧ (rfOf t n).sync = true ∧
      (rfOf t n).misses = 0 ∧ (∀ m, m ≠ n → rfOf t m = rfOf s m)) ∧
  (∀ (n : Nat) (l : List ScanHit) (s : State), rfChild s n = true → ((rfOf s n).parent ≠ 0 ∨ scanChoice (fieldOf s (rfBase n + 0x14) 31 16) l = none) →
    exec (.rfScan n l) s = .next s) ∧
  (∀ (n id : Nat) (s : State), n < 2 → (∃ x ∈ (rfOf s n).queue, x.id = id ∧ x.since + 600000000000 < s.tim.raw ∧
      ∃ k e, x.dest = some k ∧ Kv.get? k (rfOf s n).ends = some e ∧ e.sleepy = true) →
    ∃ t, exec (.sleepyQueueExpiry n id) s = .next t ∧ State.SameBut [.regs, .rf] s t ∧
      rfOf t n = { rfOf s n with queue := (rfOf s n).queue.filter fun y => y.id != id }) ∧
  ∀ (n id : Nat) (s : State), (∀ x ∈ (rfOf s n).queue, x.id = id → s.tim.raw ≤ x.since + 600000000000) → exec (.sleepyQueueExpiry n id) s = .next s

/-- ETH_FRAME_RX, ETH_LINK_UP, ETH_LINK_DOWN, TX_BUFFER_WAIT_EXPIRY, LLDP_SEND, LPI_IDLE_ENTRY and PARTNER_EEE_TLV_EXPIRY (R295 to R304). -/
def Obligations.EthernetPorts : Prop :=
  (∀ (p : Bool) (f : EthFrame) (s : State), ethLink s p = true → ∃ t, exec (.ethFrameRx p f) s = .next t ∧
    (f.codeErrs = 0 → 64 ≤ f.length → f.length ≤ fieldOf s (ethBase p) 25 12 →
      (f.fcsOk = true → ethAccepts s p f.dest = true → vlanOk s p f.vlan = true → f.noRoom = true → t = ethCount p 13 f.length (ethCount p 12 1 s)) ∧
      (f.fcsOk = true → ethAccepts s p f.dest = true → vlanOk s p f.vlan = true → f.noRoom = false →
        (f.pay = .other → t = ethCount p (lengthBin f.length) 1 (ethCount p (2 + macKind f.dest) 1 (ethCount p 1 f.length (ethCount p 0 1 s)))) ∧
        (∀ w ttl, s.MapsOk → f.pay = .lldp (some w) ttl → ethOf t p = { ethOf s p with
          tlv := if ttl = 0 then none else some w, tlvUntil := s.tim.raw + ttl * 1000000000 })))) ∧
  (∀ (p : Bool) (f : EthFrame) (s : State), ethLink s p = false → exec (.ethFrameRx p f) s = .next s ∧ exec (.ethLinkDown p) s = .next s ∧
    exec (.lldpSend p) s = .next s ∧ exec (.lpiIdleEntry p) s = .next s) ∧
  (∀ (p : Bool) (speed : Nat) (eee : Bool) (s : State), s.MapsOk → islRun s (11 + b2n p) = true → fieldOf s (ethBase p) 31 31 = 1 → (ethOf s p).link = false →
    speed ∈ modeSpeeds (ethOf s p).mode →
    (∃ t, exec (.ethLinkUp p speed true eee) s = .next t ∧ t.eth = s.eth ∧ State.SameBut [.evt] s t) ∧
    ∃ t tlv, exec (.ethLinkUp p speed false eee) s = .next t ∧ ethLink t p = true ∧ (ethOf t p).speed = speed ∧ (ethOf t p).eee = eee ∧
      (ethOf t p).mode = (ethOf s p).mode ∧ (ethOf t p).tlv = none ∧ (ethOf t p).lldpAt = s.tim.raw ∧ (ethOf t p).idleAt = s.tim.raw ∧
      (ethOf t p).tx.map (·.out) = [.lldp p (ownMac s p) tlv (4 * fieldOf s (ethBase p + 8) 23 16)] ∧ ethOf t (!p) = ethOf s (!p)) ∧
  (∀ (p : Bool) (speed : Nat) (half eee : Bool) (s : State), (islRun s (11 + b2n p) = false ∨ fieldOf s (ethBase p) 31 31 = 0 ∨ (ethOf s p).link = true ∨
      speed ∉ modeSpeeds (ethOf s p).mode) →
    exec (.ethLinkUp p speed half eee) s = .next s) ∧
  (∀ (p : Bool) (s : State), s.MapsOk → ethLink s p = true → s.relay.unacked = [] → s.relay.open_ = [] → ∃ t, exec (.ethLinkDown p) s = .next t ∧
    ethOf t p = { ethEmpty with mode := (ethOf s p).mode } ∧ ethLink t p = false ∧ ethOf t (!p) = ethOf s (!p) ∧
    t = ethCount p 33 1 (ethCount p 31 ((ethOf s p).tx.length + (ethOf s p).wait.length) (setEth p { ethEmpty with mode := (ethOf s p).mode } (leaveLpi p s)))) ∧
  (∀ (p : Bool) (s : State), s.MapsOk → (leaveLpi p s = if (ethOf s p).lpi then ethCount p 39 ((s.tim.raw - (ethOf s p).lpiAt) / 1000)
    (setEth p { ethOf s p with lpi := false, wakeAt := s.tim.raw + txWake s p * 1000 } s) else s)) ∧
  (∀ (p : Bool) (x : EthTx) (rest : List EthTx) (s : State), s.MapsOk → (ethOf s p).wait = x :: rest → x.since + 10000000 ≤ s.tim.raw → ∃ t, exec (.txBufferWaitExpiry p) s = .next t ∧
    ethOf t p = { ethOf s p with wait := rest } ∧ t = ethCount p 32 1 (setEth p { ethOf s p with wait := rest } s)) ∧
  (∀ (p : Bool) (s : State), (∀ x rest, (ethOf s p).wait = x :: rest → s.tim.raw < x.since + 10000000) → exec (.txBufferWaitExpiry p) s = .next s) ∧
  (∀ (p : Bool) (s : State), s.tim.raw < (ethOf s p).lldpAt + fieldOf s (ethBase p + 8) 23 16 * 1000000000 → exec (.lldpSend p) s = .next s) ∧
  (∀ (p : Bool) (s : State), s.MapsOk → ethLink s p = true → (ethOf s p).lldpAt + fieldOf s (ethBase p + 8) 23 16 * 1000000000 ≤ s.tim.raw →
    (ethOf s p).wait = [] → txUsed (ethOf s p) + 82 ≤ 65536 → ∃ t x, exec (.lldpSend p) s = .next t ∧
    ethOf t p = { ethOf s p with
      tx := (ethOf s p).tx ++ [x], lpi := false, lldpAt := s.tim.raw
      wakeAt := if (ethOf s p).lpi then s.tim.raw + txWake s p * 1000 else (ethOf s p).wakeAt } ∧ State.SameBut [.regs, .eth, .host, .out] s t ∧
    x.out = .lldp p (ownMac s p) (if (ethOf s p).mode = 0 then some (defaultWake (ethOf s p).speed + fieldOf s (ethBase p + 8) 7 0, (ethOf s p).tlv.getD 0) else none)
      (4 * fieldOf s (ethBase p + 8) 23 16)) ∧
  (∀ (p : Bool) (s : State), s.MapsOk → eeeOn s p = true → (ethOf s p).tlv ≠ none → (ethOf s p).tx = [] → (ethOf s p).lpi = false →
    (ethOf s p).idleAt + fieldOf s (ethBase p + 8) 15 8 * 1000 ≤ s.tim.raw →
    ∃ t, exec (.lpiIdleEntry p) s = .next t ∧ ethOf t p = { ethOf s p with lpi := true, lpiAt := s.tim.raw } ∧
      t = ethCount p 37 1 (setEth p { ethOf s p with lpi := true, lpiAt := s.tim.raw } s)) ∧
  (∀ (p : Bool) (s : State), (eeeOn s p = false ∨ (ethOf s p).tlv = none ∨ (ethOf s p).tx ≠ [] ∨ (ethOf s p).lpi = true ∨
    s.tim.raw < (ethOf s p).idleAt + fieldOf s (ethBase p + 8) 15 8 * 1000) → exec (.lpiIdleEntry p) s = .next s) ∧
  (∀ (p : Bool) (s : State), s.tim.raw < (ethOf s p).tlvUntil → exec (.partnerEeeTlvExpiry p) s = .next s) ∧
  ∀ (p : Bool) (s : State), s.MapsOk → (ethOf s p).tlvUntil ≤ s.tim.raw → ∃ t, exec (.partnerEeeTlvExpiry p) s = .next t ∧
    ethOf t p = { ethOf s p with tlv := none } ∧ ethOf t (!p) = ethOf s (!p) ∧ State.SameBut [.eth] s t ∧ exec (.lpiIdleEntry p) t = .next t

/-- RELAY_FRAME_RX, RELAY_PAUSE_HOLD_EXPIRY, RELAY_BATCH_CLOSE, RELAY_ACK_TIMEOUT, RELAY_BATCH_ACK and SPOOL_DRAIN (R298, R300, R307, R309, R312 to R316). -/
def Obligations.RelayFrames : Prop :=
  (∀ (p : Bool) (f : RelayFrame) (s : State), ethLink s p = false → exec (.relayFrameRx (.port p) f) s = .next s) ∧
  (∀ (p : Bool) (f : RelayFrame) (s : State), ethLink s p = true →
    (pairAddr s = false → exec (.relayFrameRx (.port p) f) s = .next (ethCount p (if f.toPair then 10 else 47) 1 s)) ∧
    (pairAddr s = true → f.toPair = false → exec (.relayFrameRx (.port p) f) s = .next (ethCount p 47 1 s)) ∧
    (pairAddr s = true → f.toPair = true → f.formOk = false → exec (.relayFrameRx (.port p) f) s = .next (ethCount p 43 1 s)) ∧
    (pairAddr s = true → f.toPair = true → f.formOk = true → Kv.get? f.keyVer s.sec.relayKeys ≠ some f.key →
      exec (.relayFrameRx (.port p) f) s = .next (ethCount p 41 1 s)) ∧
    (pairAddr s = true → f.toPair = true → f.formOk = true → Kv.get? f.keyVer s.sec.relayKeys = some f.key → isField s = false →
      (freshness s f = .stale → exec (.relayFrameRx (.port p) f) s = .next (ethCount p 42 1 s)) ∧
      (∀ v, freshness s f = .ok v → f.sender ≠ ownService s → f.body = .resume → ∃ t, exec (.relayFrameRx (.port p) f) s = .next t ∧
        t.relay = { s.relay with rx := Kv.put f.sender.toNat v s.relay.rx, paused := Kv.del (b2n p) s.relay.paused } ∧
        State.SameBut [.regs, .relay, .jr, .host, .out] s t))) ∧
  (∀ (s t : State) (f : RelayFrame) (v : RxSession), freshness s f = .ok v → Kv.get? f.sender.toNat t.relay.rx = some v → freshness t f = .stale ∧ v.claim = f.claim) ∧
  (∀ (s : State) (f : RelayFrame) (v : RxSession), Kv.get? f.sender.toNat s.relay.rx = some v → f.claim < v.claim → freshness s f = .stale) ∧
  (∀ (p : Bool) (s : State), (∀ u, Kv.get? (b2n p) s.relay.paused = some u → u ≤ s.tim.raw → ∃ t, exec (.relayPauseHoldExpiry p) s = .next t ∧
      State.SameBut [.relay] s t ∧ t.relay = { s.relay with paused := Kv.del (b2n p) s.relay.paused }) ∧
    ((∀ u, Kv.get? (b2n p) s.relay.paused = some u → s.tim.raw < u) → exec (.relayPauseHoldExpiry p) s = .next s)) ∧
  (∀ (to_ : BitVec 12) (p : Bool) (at_ : Nat) (e : Entry) (rest : List (Nat × Entry)) (s : State), s.relay.open_.getD (pathKey to_ p) [] = (at_, e) :: rest →
    (at_ + fieldOf s 0x704 15 8 * 10000 ≤ s.tim.raw ∨ 255 ≤ rest.length + 1 ∨ (takeFit 255 (datagramRoom s p) ((at_, e) :: rest)).length < rest.length + 1) →
    relayMaySend s = true → pathUp s to_ p = true → isPaused s p = false → windowUsed s to_ p < fieldOf s 0x700 7 0 → batchPorts s to_ p = [p] →
    entryLen e ≤ datagramRoom s p → s.relay.needSession = false → s.relay.nextSeq.getD to_.toNat 1 < 0xFFFFFFFF →
    ∃ t ents, exec (.relayBatchClose to_ p) s = .next t ∧ ents = takeFit 255 (datagramRoom s p) ((at_, e) :: rest) ∧ t.relay = { s.relay with
      nextBatch := s.relay.nextBatch + 1, open_ := Kv.putOr [] (pathKey to_ p) (((at_, e) :: rest).drop ents.length) s.relay.open_,
      nextSeq := Kv.put to_.toNat (s.relay.nextSeq.getD to_.toNat 1 + 1) s.relay.nextSeq,
      unacked := s.relay.unacked ++ [⟨s.relay.nextBatch, to_, p, [BitVec.ofNat 32 (s.relay.nextSeq.getD to_.toNat 1)], 0, ents.map .whole, s.tim.raw, none⟩] }) ∧
  (∀ (to_ : BitVec 12) (p : Bool) (s : State), (s.relay.open_.getD (pathKey to_ p) [] = [] ∨ relayMaySend s = false ∨ pathUp s to_ p = false ∨
    (∃ q ∈ batchPorts s to_ p, isPaused s q = true ∨ fieldOf s 0x700 7 0 ≤ windowUsed s to_ q) ∨
    (∀ at_ e rest, s.relay.open_.getD (pathKey to_ p) [] = (at_, e) :: rest → s.tim.raw < at_ + fieldOf s 0x704 15 8 * 10000 ∧ rest.length + 1 < 255 ∧
      rest.length + 1 ≤ (takeFit 255 (datagramRoom s p) ((at_, e) :: rest)).length)) → exec (.relayBatchClose to_ p) s = .next s) ∧
  (∀ (id : Nat) (p : Bool) (b : Batch) (s : State), s.relay.unacked.find? (fun b => b.id == id && b.port == p) = some b → relayMaySend s = true → isPaused s p = false →
    b.sentAt + fieldOf s 0x704 31 20 * 1000000 ≤ s.tim.raw →
    ethLink s p = true → s.relay.needSession = false → s.relay.nextSeq.getD b.to_.toNat 1 < 0xFFFFFFFF →
    max (s.relay.fails.getD (pathKey b.to_ p) 0) (b.resends + 1) < relayRetries s → s.RegsOk → ∃ t, exec (.relayAckTimeout id p) s = .next t ∧ t.relay = { s.relay with
      nextSeq := Kv.put b.to_.toNat (s.relay.nextSeq.getD b.to_.toNat 1 + 1) s.relay.nextSeq,
      fails := Kv.put (pathKey b.to_ p) (max (s.relay.fails.getD (pathKey b.to_ p) 0) (b.resends + 1)) s.relay.fails,
      unacked := s.relay.unacked.map fun x => if x.id == id && x.port == p then
        { x with seqs := BitVec.ofNat 32 (s.relay.nextSeq.getD b.to_.toNat 1) :: x.seqs, resends := x.resends + 1, sentAt := s.tim.raw } else x }) ∧
  (∀ (id : Nat) (p : Bool) (s : State), (∀ b, s.relay.unacked.find? (fun b => b.id == id && b.port == p) = some b →
    s.tim.raw < b.sentAt + fieldOf s 0x704 31 20 * 1000000) → exec (.relayAckTimeout id p) s = .next s) ∧
  (∀ (u : BitVec 12) (seq : W32) (b : RxBatch) (s : State), s.relay.accepted.find? (fun b => b.sender == u && b.seq == seq) = some b →
    ((b.results.any (·.isNone) = true ∨ relayMaySend s = false) → exec (.relayBatchAck u seq) s = .next s) ∧
    (b.results.any (·.isNone) = false → relayMaySend s = true → s.relay.needSession = false → s.relay.nextSeq.getD u.toNat 1 < 0xFFFFFFFF →
      ∃ t, exec (.relayBatchAck u seq) s = .next t ∧ t.relay = { s.relay with accepted := s.relay.accepted.filter (fun x => !(x.sender == u && x.seq == seq)), nextSeq := Kv.put u.toNat (s.relay.nextSeq.getD u.toNat 1 + 1) s.relay.nextSeq } ∧
      (∀ rf short, b.src = .child rf short → ∃ f, t.rf = (rfQueue (b2n rf) (some short) (.relay f) s).rf ∧ f.body = .ack seq (b.results.map (·.getD 4)) ∧ f.sender = ownService s ∧
        f.seq = BitVec.ofNat 32 (s.relay.nextSeq.getD u.toNat 1) ∧ f.session = s.relay.session ∧ f.claim = s.pair.claim))) ∧
  (∀ s, isField s = true → s.relay.spooling = true → uplinkUp s = true → archiveUp s = true →
    holdUsed s < holdCap s * 16384 → ∃ t, exec .spoolDrain s = .next t ∧
    (s.relay.spool = [] → t = { s with relay := { s.relay with spooling := false } }) ∧
    (∀ e rest, s.relay.spool = e :: rest → t.relay.spool = rest ∧ t.relay.spooling = !rest.isEmpty ∧ State.SameBut [.relay, .jr] s t)) ∧
  ∀ s, (isField s = false ∨ s.relay.spooling = false ∨ uplinkUp s = false ∨ archiveUp s = false ∨ holdCap s * 16384 ≤ holdUsed s) → exec .spoolDrain s = .next s

/-- PTP_MESSAGE_RX, PTP_MESSAGE_SEND, SOURCE_TIMEOUT, TIME_WORD, TIME_WORD_LOSS, RTC_WRITE and LEAP_SECOND (R325, R328, R329, R331, R332, R335, R336, R340). -/
def Obligations.TimeEvents : Prop :=
  (∀ (p : Bool) (m : PtpMsg) (k : PtpSend) (s : State), (ptpOn s p = false ∨ ethLink s p = false) →
    exec (.ptpMessageRx p m) s = .next s ∧ exec (.ptpMessageSend p k) s = .next s) ∧
  (∀ (p : Bool) (m : PtpMsg) (s : State), ptpOn s p = true → ethLink s p = true →
    ((m.domain.toNat ≠ fieldOf s 0x10000 23 16 ∨ m.versionOk = false ∨ m.typeOk = false ∨ ptpFits s m = false) → exec (.ptpMessageRx p m) s = .next (count 0x10050 s)) ∧
    (m.domain.toNat = fieldOf s 0x10000 23 16 → m.versionOk = true → m.typeOk = true → ptpFits s m = true →
      (m.body = .pdelayReq → exec (.ptpMessageRx p m) s = .next (ethSend p 1 72 1 (.pdelayResp p) s)) ∧
      (∀ t1 t2 t3 t4, m.body = .pdelay t1 t2 t3 t4 → ∃ t, exec (.ptpMessageRx p m) s = .next t ∧
        (powerProfile s = true → State.SameBut [.tim] s t ∧ ptpPortOf t p = { ptpPortOf s p with
          delay := Int.tdiv ((t4 - (stampCorr s p m.rate).1) - (t1 + (stampCorr s p m.rate).2) - (t3 - t2)) 2 }) ∧
        (powerProfile s = false → t = count 0x10050 s)) ∧
      (∀ t1 t2 off, m.body = .sync t1 t2 → off = Int.tdiv (t2 - (stampCorr s p m.rate).1 - t1 - (ptpPortOf s p).delay) 10 →
        ((ptpPortOf s p).slave = false → exec (.ptpMessageRx p m) s = .next s) ∧
        ((ptpPortOf s p).slave = true → s.tim.source = 1 + b2n p → (1 + b2n p) ∈ s.tim.avail → pickSource s.tim = s.tim.source → s.tim.stepped = true →
          (off.natAbs ≤ (reg s 0x10004).toNat → (fieldOf s 0x10008 31 16 : Int) < off.natAbs → ∃ t, exec (.ptpMessageRx p m) s = .next t ∧ t.tim.st = 2 ∧ t.tim.good = 0 ∧
            t.tim.rate = clampI (-500000) 500000 (-off) ∧ t.tim.offset = off ∧ t.tim.lastGood = s.tim.raw ∧ t.tim.clk = s.tim.clk) ∧
          ((reg s 0x10004).toNat < off.natAbs → ∃ t, exec (.ptpMessageRx p m) s = .next t ∧ t.tim.st = 3 ∧ t.tim.jumpRefused = true ∧ t.tim.good = 0 ∧
            t.tim.offset = off ∧ t.tim.clk = s.tim.clk ∧ t.tim.lastGood = s.tim.lastGood))))) ∧
  (∀ (p : Bool) (s : State), ptpOn s p = true → ethLink s p = true →
    (ptpMaster s p = false → exec (.ptpMessageSend p .sync) s = .next s ∧ exec (.ptpMessageSend p .announce) s = .next s) ∧
    (ptpMaster s p = true → exec (.ptpMessageSend p .announce) s = .next (ethSend p 1 82 1 (.announce p
      (if s.tim.source = 1 ∨ s.tim.source = 2 then (ptpPortOf s (s.tim.source == 2)).gm else none) (fieldOf s 0x10000 15 8) (fieldOf s 0x10000 7 0)
      (if s.tim.stepped ∧ s.tim.used ∧ s.tim.st = 3 then 187 else 248) 0xFE s.tim.utc) s)) ∧
    exec (.ptpMessageSend p .pdelayReq) s = .next (if powerProfile s then ethSend p 1 72 1 (.ptp p .pdelayReq false 0) s else s) ∧
    exec (.ptpMessageSend p .delayReq) s = .next (if powerProfile s then s else if (ptpPortOf s p).slave then ethSend p 1 64 1 (.ptp p .delayReq false 0) s else s)) ∧
  (∀ (code : Nat) (s : State), islRun s 16 = true → s.tim.source = code → (s.tim.avail.filter (· != code)) = [] → code ≠ 0 → code ≠ 5 →
    ∃ t, exec (.sourceTimeout code) s = .next t ∧ t.tim.avail = [] ∧ t.tim.source = 0 ∧ t.tim.st = (if s.tim.valid then 3 else s.tim.st) ∧ t.tim.clk = s.tim.clk ∧
      t.tim.valid = s.tim.valid ∧ State.SameBut [.regs, .tim, .host, .out] s t) ∧
  (∀ (code : Nat) (s : State), islRun s 16 = false → exec (.sourceTimeout code) s = .next s ∧ exec .timeWord s = .next s ∧ exec .rtcWrite s = .next s) ∧
  (∀ s, islRun s 16 = true → ∃ t, exec .timeWord s = .next t ∧ t.out = .timeWord s.tim.clk s.tim.rate :: s.out ∧ t.tim = { s.tim with lost := [] } ∧
    State.SameBut [.tim, .out] s t) ∧
  (∀ (isl : Nat) (s : State), s.RegsOk → isl ≤ 20 → isl ∉ s.tim.lost → ∃ t, exec (.timeWordLoss isl) s = .next t ∧ t.tim = { s.tim with lost := s.tim.lost ++ [isl] } ∧
    reg t 0x10054 = satAdd (reg s 0x10054) 1 ∧ State.SameBut [.regs, .tim] s t) ∧
  (∀ (isl : Nat) (s : State), (20 < isl ∨ isl ∈ s.tim.lost) → exec (.timeWordLoss isl) s = .next s) ∧
  (∀ s, s.RegsOk → islRun s 16 = true → s.tim.stepped = true → ∃ t, exec .rtcWrite s = .next t ∧ reg t 0x1008 = BitVec.ofNat 32 (localSec s) ∧
    reg t 0x100C = BitVec.ofNat 32 (localSec s / 2 ^ 32 % 65536) ∧ fieldOf t 0x1000 30 30 = 1 ∧ State.SameBut [.regs] s t) ∧
  (∀ s, s.tim.stepped = false → exec .rtcWrite s = .next s) ∧
  (∀ s, s.tim.leap = none → exec .leapSecond s = .next s) ∧
  ∀ (d u : Int) (s : State), s.tim.leap = some (d, u) →
    ((localSec s : Int) - s.tim.utc < u + d → exec .leapSecond s = .next s) ∧
    (u + d ≤ (localSec s : Int) - s.tim.utc → exec .leapSecond s = .next { s with tim := { s.tim with
      utc := s.tim.utc + d, utcPrev := if d = 0 then s.tim.utcPrev else some (s.tim.utc, localSec s), leap := none } })

/-- SEEK_WAIT_EXPIRY, ACT_IN_QUIET, ACT_IN_EDGE, PAIR_WATCHDOG_EXPIRY, FENCED_EXPIRY, CLAIM_FLASH_WRITTEN, STANDBY_TABLE_COPY, COPY_COMPLETE and HEARTBEAT_SEND (R351 to R358, R363, R364). -/
def Obligations.GrantMoves : Prop :=
  (∀ s, pairOn s = true → s.pair.st = .seeking → s.boot.power ≠ .hold → s.pair.actInLive = false → s.pair.actOut = false → partnerHb s = none → roleOf s ≠ 0 →
    max s.pair.stAt (max s.pair.hb1.at_ s.pair.hb2.at_) + fieldOf s 0xD000 15 8 * 1000000000 ≤ s.tim.raw →
    ∃ t, exec .seekWaitExpiry s = .next t ∧ t.pair.st = .activeAlone ∧ t.pair.actOut = true ∧ t.pair.flashPending = true ∧ t.pair.claim = knownClaim s + 1 ∧
      t.pair.prevClaim = knownClaim s) ∧
  (∀ s, (pairOn s = false ∨ s.pair.st ≠ .seeking ∨ s.tim.raw < max s.pair.stAt (max s.pair.hb1.at_ s.pair.hb2.at_) + fieldOf s 0xD000 15 8 * 1000000000) →
    exec .seekWaitExpiry s = .next s) ∧
  (∀ s, (s.pair.st = .standby ∨ s.pair.st = .copying) → s.pair.actInLive = true → s.pair.actOut = false → s.pair.prlSignal = false → roleOf s ≠ 0 →
    s.pair.edgeAt + fieldOf s 0xD004 7 0 * 10000 ≤ s.tim.raw →
    ∃ t, exec .actInQuiet s = .next t ∧ t.pair.st = .activeAlone ∧ t.pair.actOut = true ∧ t.pair.actInLive = false ∧ t.pair.claim = knownClaim s + 1) ∧
  (∀ s, (s.pair.st = .active ∨ s.pair.st = .activeAlone ∨ s.pair.st = .lone ∨ s.pair.st = .fenced) → s.pair.actInLive = true →
    s.pair.edgeAt + fieldOf s 0xD004 7 0 * 10000 ≤ s.tim.raw →
    ∃ t, exec .actInQuiet s = .next t ∧ t.pair = { s.pair with actInLive := false, heard := heardReset } ∧ State.SameBut [.pair] s t) ∧
  (∀ s, (s.pair.st = .active ∨ s.pair.st = .activeAlone ∨ s.pair.st = .lone) → (posB s = false ∨ ∀ t, s.pair.startAt = some t → t + 20000 < s.tim.raw) →
    ∃ t, exec .actInEdge s = .next t ∧ t.pair = { s.pair with actInLive := true, edgeAt := s.tim.raw, heard := heardReset, handoff := false } ∧ State.SameBut [.pair] s t ∧ granted t = false) ∧
  (∀ (s : State) (t0 : Nat), posB s = true → s.pair.startAt = some t0 → s.pair.actOut = true → s.tim.raw ≤ t0 + 20000 → s.pair.before = .standby →
    ∃ t, exec .actInEdge s = .next t ∧ t.pair.st = .standby ∧ t.pair.actOut = false ∧ t.pair.actInLive = true ∧ t.pair.flashPending = false) ∧
  (∀ s, s.pair.actOut = true → ∃ t, exec .pairWatchdogExpiry s = .next t ∧ t.pair.st = .fenced ∧ t.pair.actOut = false ∧ granted t = false ∧
    t.pair.claim = s.pair.claim ∧ (s.jr.replies = [] → s.rules.marks = [] → s.pair.swap = none → t.jr.unacked = [] ∧ t.jr.open_ = [])) ∧
  (∀ s, s.pair.actOut = false → exec .pairWatchdogExpiry s = .next s) ∧
  (∀ s, s.pair.st = .fenced → (islOf s 13).st ≠ .off → s.pair.actInLive = true → partnerHb s = none → s.pair.stAt + 1000000000 ≤ s.tim.raw → ∃ t, exec .fencedExpiry s = .next t ∧ t.pair.st = .seeking ∧
    t.pair.handoff = false ∧ t.pair.claim = s.pair.claim) ∧
  (∀ s, (s.pair.st ≠ .fenced ∨ s.tim.raw < s.pair.stAt + 1000000000) → exec .fencedExpiry s = .next s) ∧
  (∀ s, s.pair.actInLive = true → s.tim.raw < s.pair.edgeAt + fieldOf s 0xD004 7 0 * 10000 → exec .actInQuiet s = .next s) ∧
  (∀ s, s.pair.flashPending = true → ∃ t, exec .claimFlashWritten s = .next t ∧ t.pair.flashPending = false ∧ t.pair.claimFlash = s.pair.claim ∧
    t.pair.claim = s.pair.claim ∧ (s.pair.proving = false → t.relay.copy = [])) ∧
  (∀ s, s.pair.flashPending = false → exec .claimFlashWritten s = .next s) ∧
  (∀ (item : Nat) (ents : List JEntry) (s : State), islRun s 13 = true → s.pair.copyGiving = true → 1 ≤ s.pair.copyItem → s.pair.copyItem ≤ 5 →
    ∃ t, exec (.standbyTableCopy item ents) s = .next t ∧ t.out = .copyItem s.pair.copyItem (copyEntries s.pair.copyItem s) :: s.out ∧
      t.pair = { s.pair with copyItem := s.pair.copyItem + 1 } ∧ State.SameBut [.pair, .out] s t) ∧
  (∀ (item : Nat) (ents : List JEntry) (s : State), islRun s 13 = true → s.pair.copyGiving = false → s.pair.st = .copying → s.pair.copyItem = item → item ≤ 5 →
    exec (.standbyTableCopy item ents) s = .next (setPair (fun p => { p with copyItem := item + 1, copyPct := 20 * item }) (ents.foldl (fun t e => applyEntry e t) s))) ∧
  (∀ (item : Nat) (ents : List JEntry) (s : State), (islRun s 13 = false ∨ (s.pair.copyGiving = false ∧ (s.pair.st ≠ .copying ∨ item ≠ s.pair.copyItem))) →
    exec (.standbyTableCopy item ents) s = .next s) ∧
  (∀ s, s.pair.st = .copying → 5 < s.pair.copyItem → ∃ t, exec .copyComplete s = .next t ∧ t.pair.st = .standby ∧ t.pair.copyPct = 100 ∧ t.pair.inStep = true ∧
    State.SameBut [.regs, .pair, .host, .out] s t) ∧
  (∀ s, (s.pair.st ≠ .copying ∨ s.pair.copyItem ≤ 5) → exec .copyComplete s = .next s) ∧
  (∀ s, pairOn s = true → islRun s 13 = true → s.pair.hb1.ownSeq + 1 ≠ s.pair.hb1.ownStart →
    s.pair.hb1.sentAt + fieldOf s 0xD004 31 20 * 1000 ≤ s.tim.raw → ∃ t, exec (.heartbeatSend 1) s = .next t ∧
    t.out = .heartbeat 1 (heartbeatOf s s.pair.hb1 s.pair.hb1.ownSeq) :: s.out ∧ t.pair = { s.pair with hb1 := { s.pair.hb1 with ownSeq := s.pair.hb1.ownSeq + 1, sentAt := s.tim.raw } } ∧
    State.SameBut [.pair, .out] s t) ∧
  ∀ (path : Nat) (s : State), (pairOn s = false ∨ s.tim.raw < (pathOf s path).sentAt + hbInterval path s) → exec (.heartbeatSend path) s = .next s

/-- HEARTBEAT_RX, HEARTBEAT_PATH_LOST, PRL_LOSS_OF_SIGNAL, JOURNAL_BATCH_CLOSE, JOURNAL_BATCH_RX, JOURNAL_ACK_RX, JACK_TIMEOUT, SWAP_HANDOVER,
SWAP_DRAIN_EXPIRY, SCHEDULED_SWAP_DUE and PROOF_EXPIRY (R360, R361, R364 to R368, R371 to R373, R378). -/
def Obligations.SwapAndJournal : Prop :=
  (∀ (path : Nat) (hb : Heartbeat) (l : Heartbeat) (s : State), pairOn s = true → (path = 2 ∨ path = 1 ∧ islRun s 13 = true) → s.sec.pairKey ≠ some hb.key →
    s.pair.hb1.last = some l → exec (.heartbeatRx path hb) s = .next (settleAll (count 0xD048 s))) ∧
  (∀ (hb : Heartbeat) (s : State), pairOn s = true → s.sec.pairKey = some hb.key → hb.version = 1 → hbFresh s s.pair.hb2 hb = true → s.pair.fault = 0 →
    pairFault s hb = 0 → s.pair.actOut = true → s.pair.actInLive = false → s.pair.st = .activeAlone → s.pair.inStep = false → s.pair.swap = none → hb.st = .seeking →
    ∃ t, exec (.heartbeatRx 2 hb) s = .next (settleAll t) ∧ State.SameBut [.pair] s t ∧ t.pair = { s.pair with
      hb2 := { s.pair.hb2 with lost := false, last := some hb, at_ := s.tim.raw, rx := localTime s }, partnerClaim := hb.claim,
      heard := { s.pair.heard with p2 := some (false, hb.handoff) } }) ∧
  (∀ (hb : Heartbeat) (s : State), pairOn s = true → s.sec.pairKey = some hb.key → hb.version = 1 → hbFresh s s.pair.hb2 hb = true →
    s.pair.actOut = true → hb.st = .active → s.pair.claim < hb.claim →
    ∃ t, exec (.heartbeatRx 2 hb) s = .next (settleAll t) ∧ t.pair.st = .fenced ∧ t.pair.actOut = false) ∧
  (∀ (path : Nat) (hb : Heartbeat) (s : State), (pairOn s = false ∨ path = 0 ∨ 2 < path) → exec (.heartbeatRx path hb) s = .next (settleAll s)) ∧
  (∀ s, s.RegsOk → pairOn s = true → s.pair.st = .active → s.pair.hb1.lost = false → s.pair.hb2.lost = false →
    s.pair.hb2.at_ + fieldOf s 0xD004 19 16 * hbInterval 2 s ≤ s.tim.raw →
    ∃ t, exec (.heartbeatPathLost 2) s = .next (settleAll t) ∧ State.SameBut [.regs, .pair] s t ∧ reg t 0xD050 = satAdd (reg s 0xD050) 1 ∧
      t.pair = { s.pair with hb2 := { s.pair.hb2 with lost := true }, heard := { s.pair.heard with p2 := none } }) ∧
  (∀ s, pairOn s = true → s.pair.st = .active → s.pair.hb1.lost = false → s.pair.swap = none →
    s.pair.hb1.at_ + fieldOf s 0xD004 19 16 * hbInterval 1 s ≤ s.tim.raw →
    ∃ t, exec (.heartbeatPathLost 1) s = .next (settleAll t) ∧ t.pair.st = .activeAlone ∧ t.pair.hb1.lost = true ∧ t.pair.inStep = false) ∧
  (∀ (path : Nat) (s : State), (pairOn s = false ∨ path = 0 ∨ 2 < path ∨ (pathOf s path).lost = true ∨
    s.tim.raw < (pathOf s path).at_ + fieldOf s 0xD004 19 16 * hbInterval path s) → exec (.heartbeatPathLost path) s = .next (settleAll s)) ∧
  (∀ s, pairOn s = true → s.pair.st = .active → s.pair.swap = none →
    ∃ t, exec .prlLossOfSignal s = .next (settleAll t) ∧ t.pair.st = .activeAlone ∧ t.pair.prlSignal = false ∧ t.pair.inStep = false) ∧
  (∀ s, pairOn s = false → exec .prlLossOfSignal s = .next (settleAll s)) ∧
  (∀ s, s.jr.open_ ≠ [] → journals s = true → islRun s 13 = true → ∃ t, exec .journalBatchClose s = .next t ∧ State.SameBut [.jr, .out] s t ∧
    t.out = .journalBatch s.jr.nextNum s.jr.mark s.jr.open_ :: s.out ∧
    t.jr = { s.jr with
      open_ := [], nextNum := s.jr.nextNum + 1, unacked := s.jr.unacked ++ [(s.jr.nextNum, false, s.jr.open_)]
      sentAt := Kv.put s.jr.nextNum s.tim.raw s.jr.sentAt }) ∧
  (∀ s, (s.jr.open_ = [] ∨ journals s = false ∨ islRun s 13 = false) → exec .journalBatchClose s = .next s) ∧
  (∀ (num mark : Nat) (ents : List JEntry) (s : State), (s.pair.st = .standby ∨ s.pair.st = .copying) → islRun s 13 = true →
    (num < s.jr.nextApply → exec (.journalBatchRx num mark true ents) s = .next (emit (.journalAck num) s)) ∧
    (num = s.jr.nextApply → s.jr.held = [] → (applyBatch mark ents s).jr.held = [] →
      exec (.journalBatchRx num mark true ents) s = .next (emit (.journalAck num) (setJr (fun j => { j with nextApply := num + 1 }) (applyBatch mark ents s)))) ∧
    (s.jr.nextApply < num → Kv.get? num s.jr.held = none → s.jr.held.length < 256 →
      exec (.journalBatchRx num mark true ents) s = .next { s with jr := { s.jr with held := Kv.put num (mark, ents) s.jr.held } }) ∧
    (s.pair.actInLive = true → partnerHb s = none → ∃ t, exec (.journalBatchRx num mark false ents) s = .next t ∧ t.pair.st = .seeking ∧ t.jr = s.jr)) ∧
  (∀ (num mark : Nat) (formOk : Bool) (ents : List JEntry) (s : State), (islRun s 13 = false ∨ (s.pair.st ≠ .standby ∧ s.pair.st ≠ .copying)) →
    exec (.journalBatchRx num mark formOk ents) s = .next s) ∧
  (∀ (n : Nat) (s : State), journals s = true → (∃ b ∈ s.jr.unacked, b.1 = n) → s.jr.replies = [] →
    exec (.journalAckRx n) s = .next (settleAll (count 0xD040 { s with jr := { s.jr with unacked := s.jr.unacked.filter (fun b => b.1 != n), sentAt := Kv.del n s.jr.sentAt } }))) ∧
  (∀ (n : Nat) (s : State), (journals s = false ∨ ∀ b ∈ s.jr.unacked, b.1 ≠ n) →
    exec (.journalAckRx n) s = .next (settleAll s) ∧ exec (.jackTimeout n) s = .next (settleAll s)) ∧
  (∀ (n : Nat) (ents : List JEntry) (s : State), journals s = true → s.jr.unacked = [(n, false, ents)] →
    s.jr.sentAt.getD n 0 + fieldOf s 0xD008 31 24 * 1000000 ≤ s.tim.raw →
    exec (.jackTimeout n) s = .next (settleAll (emit (.journalBatch n s.jr.mark ents) (count 0xD044 { s with jr := { s.jr with unacked := [(n, true, ents)], sentAt := Kv.put n s.tim.raw s.jr.sentAt } })))) ∧
  (∀ (n : Nat) (s : State), s.tim.raw < s.jr.sentAt.getD n 0 + fieldOf s 0xD008 31 24 * 1000000 → exec (.jackTimeout n) s = .next (settleAll s)) ∧
  (∀ (n : Nat) (ents : List JEntry) (s : State), s.pair.st = .active → s.pair.swap = none → s.jr.unacked = [(n, true, ents)] →
    s.jr.sentAt.getD n 0 + fieldOf s 0xD008 31 24 * 1000000 ≤ s.tim.raw →
    ∃ t, exec (.jackTimeout n) s = .next (settleAll t) ∧ t.pair.st = .activeAlone ∧ t.pair.inStep = false) ∧
  (∀ (b : Bool) (at_ : Nat) (s : State), s.pair.swap = some ⟨b, [], at_⟩ → s.pair.actOut = true → (∀ q < 8, s.pipe.iq.getD q [] = []) → s.pipe.flight = [] → s.jr.open_ = [] →
    s.jr.unacked = [] → pairOn s = true → islRun s 13 = true → s.pair.hb1.ownSeq + 1 ≠ s.pair.hb1.ownStart →
    ∃ t, exec .swapHandover s = .next t ∧ t.pair.st = .standby ∧ t.pair.actOut = false ∧ t.pair.handoff = true ∧ t.pair.swap = none ∧ granted t = false) ∧
  (∀ s, (s.pair.swap = none ∨ s.pair.actOut = false ∨ s.pipe.flight ≠ [] ∨ s.jr.open_ ≠ [] ∨ s.jr.unacked ≠ []) → exec .swapHandover s = .next s) ∧
  (∀ (w : Swap) (s : State), s.pair.swap = some w → s.pair.actOut = true →
    w.at_ + fieldOf s 0xD008 23 16 * 10000000 ≤ s.tim.raw → ∃ t, exec .swapDrainExpiry s = .next t ∧ t.pair = { s.pair with swap := none } ∧
    t.deferred = s.deferred ++ w.queued ∧ t.jr = s.jr) ∧
  (∀ s, (s.pair.swap = none ∨ s.pair.actOut = false ∨ ∀ w, s.pair.swap = some w → s.tim.raw < w.at_ + fieldOf s 0xD008 23 16 * 10000000) → exec .swapDrainExpiry s = .next s) ∧
  (∀ (n : Nat) (s : State), fieldOf s 0xD00C 31 16 ≠ 0 → s.pair.actOut = true → s.pair.swap = none → s.pair.proving = false → s.pair.swapTimer = some n →
    fieldOf s 0xD00C 31 16 * 3600000000000 ≤ n → s.pair.st = .active →
    (∀ t, s.pair.swapTriedAt = some t → t + 3600000000000 ≤ s.tim.raw) →
    (swapPartner s true = true → s.pair.copyGiving = false → ∃ t, exec .scheduledSwapDue s = .next t ∧ t.pair = { s.pair with swap := some ⟨true, [], s.tim.raw⟩, swapTriedAt := some s.tim.raw, swapRetryEvent := false }) ∧
    (swapPartner s true = false → s.pair.swapRetryEvent = true → exec .scheduledSwapDue s = .next { s with pair := { s.pair with swapTriedAt := some s.tim.raw } }) ∧
    (swapPartner s true = false → s.pair.swapRetryEvent = false → ∃ t, exec .scheduledSwapDue s = .next t ∧ t.pair = { s.pair with swapTriedAt := some s.tim.raw, swapRetryEvent := true } ∧
      State.SameBut [.pair, .evt] s t)) ∧
  (∀ (s : State), (fieldOf s 0xD00C 31 16 = 0 ∨ s.pair.actOut = false ∨ s.pair.swapTimer = none ∨
    (∀ n, s.pair.swapTimer = some n → n < fieldOf s 0xD00C 31 16 * 3600000000000) ∨ ∃ t, s.pair.swapTriedAt = some t ∧ s.tim.raw < t + 3600000000000) →
    exec .scheduledSwapDue s = .next s) ∧
  (∀ (last : Bool) (s : State), s.pair.proving = false → exec (.proofExpiry last) s = .next s) ∧
  (∀ s, s.RegsOk → s.pair.proving = true → proofDue s = false → s.pair.proofReadings < fieldOf s 0xD010 31 16 →
    s.pair.proofSince + fieldOf s 0xD010 15 0 * 1000000000 ≤ s.tim.raw → ∃ t, exec (.proofExpiry true) s = .next t ∧
    t.pair = { s.pair with proving := false } ∧ reg t 0xD064 = satAdd (reg s 0xD064) 1 ∧ State.SameBut [.regs, .pair] s t) ∧
  ∀ (last : Bool) (s : State), s.pair.proving = true → proofDue s = true → ∃ t, exec (.proofExpiry last) s = .next t ∧
    t.pair = { s.pair with proving := false, swapTimer := some 0, swapRetryEvent := false, swapTriedAt := none }

/-- EVENT_ACCEPT, EVENT_ARCHIVE_WRITE, EVT_BUCKET_REFILL, RATE_WINDOW_BOUNDARY, MON_SAMPLE, MEA_SECOND_END, MEA_MINUTE_END and
MEA_HALF_CYCLE_RMS (R453, R455, R456, R459, R484, R485, R491 to R494, R572). -/
def Obligations.RecorderAndMeasurement : Prop :=
  (∀ s, (s.evt.raised = [] ∨ s.boot.phase = .inReset ∨ s.boot.phase = .trimHold ∨ evtUp s = false) → exec .eventAccept s = .next s) ∧
  (∀ (e : Raised) (rest : List Raised) (s : State), s.evt.raised = e :: rest → s.boot.phase ≠ .inReset → s.boot.phase ≠ .trimHold → evtUp s = true →
    ∀ key burst tokens n : Nat, key = e.isl * 256 + e.code → burst = fieldOf s 0x16000 7 0 → tokens = min burst (s.evt.buckets.getD key burst) →
    n = min 3 e.conts.length →
    ((e.critical = true ∨ (0 < tokens ∧ s.evt.secRecords + (1 + n) ≤ fieldOf s 0x16000 27 16)) → s.evt.ring.length + (1 + n) ≤ 512 →
      ∃ t r, exec .eventAccept s = .next t ∧ State.SameBut [.regs, .jr, .host, .evt, .out] s t ∧ t.evt.raised = rest ∧
        t.evt.ring = s.evt.ring ++ r :: contRecs r 1 (e.conts.take 3) ∧ t.evt.lastSeq = some (r.seq + BitVec.ofNat 64 n) ∧ t.evt.restart = false ∧
        t.evt.suppressed = Kv.del key s.evt.suppressed ∧ t.evt.buckets = (if e.critical then s.evt.buckets else Kv.put key (tokens - 1) s.evt.buckets) ∧
        r.seq.toNat = evtNext s % 2 ^ 64 ∧ r.part = 0 ∧ r.code = BitVec.ofNat 16 key ∧ r.data = e.data ∧ r.critical = e.critical ∧
        r.restarted = s.evt.restart ∧ (timeValid s = true → r.time = clkTime s.tim.clk ∧ r.rawTime = false)) ∧
    (e.critical = false → (tokens = 0 ∨ fieldOf s 0x16000 27 16 < s.evt.secRecords + (1 + n)) →
      exec .eventAccept s = .next (count 0x16044 { s with evt := { s.evt with
        raised := rest, suppressed := Kv.put key (min 65535 (s.evt.suppressed.getD key 0 + 1)) s.evt.suppressed } }))) ∧
  (∀ s, (archiveWritable s = false ∨ evtUp s = false ∨ ∀ r ∈ s.evt.ring, r.seq.toNat < s.evt.archNext.toNat ∨ r.part ≠ 0) →
    exec .eventArchiveWrite s = .next s) ∧
  (∀ (old cont later : List EvRec) (r : EvRec) (s : State), archiveWritable s = true → evtUp s = true → s.evt.ring = old ++ r :: (cont ++ later) →
    (∀ x ∈ old, x.seq.toNat < s.evt.archNext.toNat ∨ x.part ≠ 0) → s.evt.archNext.toNat ≤ r.seq.toNat → r.part = 0 → (∀ x ∈ cont, x.part ≠ 0) →
    (∀ x ∈ later.head?, x.part = 0) → ∀ full : Bool, full = decide (evtHalf s < s.evt.zoneCur.length + (cont.length + 1)) →
    ∃ t, exec .eventArchiveWrite s = .next t ∧ State.SameBut [.evt] s t ∧ t.evt = { s.evt with
      zoneOld := if full then s.evt.zoneCur else s.evt.zoneOld, zoneCur := (if full then [] else s.evt.zoneCur) ++ r :: cont,
      archNext := r.seq + BitVec.ofNat 64 (cont.length + 1) }) ∧
  (∀ s, unitSec s ≠ s.evt.refillAt → ∃ t, exec .evtBucketRefill s = .next t ∧ State.SameBut [.evt] s t ∧ t.evt.refillAt = unitSec s ∧
    ∀ k, Kv.get? k t.evt.buckets = (Kv.get? k s.evt.buckets).map fun v => min (fieldOf s 0x16000 7 0) (v + fieldOf s 0x16000 15 8)) ∧
  (∀ s, unitSec s = s.evt.refillAt → exec .evtBucketRefill s = .next s) ∧
  (∀ (level : Nat) (s : State),
    ((3 ≤ level ∨ unitSec s / 3600 ≠ s.win.at_ / 3600) → ∃ t, exec (.rateWindowBoundary level) s = .next t ∧ State.SameBut [.win, .bal, .camp, .plc, .evt] s t ∧
      t.win = ⟨[], [], [], 0, unitSec s⟩ ∧ t.evt = { s.evt with secRecords := 0 } ∧ t.camp = { s.camp with formed := 0, frames := [] } ∧
      (∀ k, Kv.get? k t.bal.meters = (Kv.get? k s.bal.meters).map fun m => { m with moves := 0 }) ∧
      ∀ k, Kv.get? k t.plc = (Kv.get? k s.plc).map fun q => { q with rreqs := 0 }) ∧
    (level < 3 → unitSec s / 3600 = s.win.at_ / 3600 → unitSec s ≠ s.win.at_ → exec (.rateWindowBoundary level) s = .next { s with
      evt := { s.evt with secRecords := 0 },
      win := { s.win with sec := [], min := if unitSec s / 60 = s.win.at_ / 60 then s.win.min else [], mgmt := 0, at_ := unitSec s } }) ∧
    (level < 3 → unitSec s = s.win.at_ → exec (.rateWindowBoundary level) s = .next s)) ∧
  (∀ (n : Nat) (x : Int) (s : State), (64 ≤ n ∨ monUp s = false ∨ bit (monCfg s n) 31 = false ∨ monIsland (bits (monCfg s n) 30 24) = none ∨
    ∃ u, (monOf s n).at_ = some u ∧ s.tim.raw < u + monPeriod (monCfg s n)) →
    exec (.monSample n x) s = .next s) ∧
  (∀ (n i : Nat) (x : Int) (s : State), n < 64 → monUp s = true → bit (monCfg s n) 31 = true → monIsland (bits (monCfg s n) 30 24) = some i →
    (∀ u, (monOf s n).at_ = some u → u + monPeriod (monCfg s n) ≤ s.tim.raw) →
    ((islOf s i).st ≠ .run → exec (.monSample n x) s = .next s) ∧
    ((islOf s i).st = .run → ∀ (v lo hi : Int) (m : MonState), v = satI32 (monValue s (bits (monCfg s n) 30 24) x) → hi = (reg s (0x15108 + 16 * n)).toInt →
      lo = (reg s (0x1510C + 16 * n)).toInt → m = monOf s n →
      ∃ t, exec (.monSample n x) s = .next t ∧ (∀ k, k ≠ n → monOf t k = monOf s k) ∧ monOf t n =
        { min := if m.count = 0 then v else min m.min v, max := if m.count = 0 then v else max m.max v, last := v, count := satAdd m.count 1,
          bins := m.bins.modify (monBin (reg s (0x15104 + 16 * n)).toInt v (bits (monCfg s n) 23 20)) (satAdd · 1), armed := decide (lo ≤ v ∧ v ≤ hi), at_ := some s.tim.raw } ∧
        ((lo ≤ v ∧ v ≤ hi ∨ m.armed = false) → State.SameBut [.mon] s t) ∧
        ((v < lo ∨ hi < v) → m.armed = true → State.SameBut [.mon, .regs, .host, .out, .evt] s t ∧
          t.evt.raised = s.evt.raised ++ [⟨1, 0x21, criticalCode 1 0x21, BitVec.ofNat 32 (b2n (decide (hi < v)) * 256 + n), [padTo 20 (be 4 (wordI v).toNat)]⟩] ∧
          (s.RegsOk → bit (reg t (0x15008 + 4 * (n / 32))) (n % 32) = true)))) ∧
  (∀ (x0 x1 : List (List Int)) (s : State), (islRun s 15 = false ∨ fieldOf s 0xF000 31 31 = 0) →
    exec (.meaSecondEnd x0 x1) s = .next s ∧ exec .meaMinuteEnd s = .next s) ∧
  (∀ (x0 x1 : List (List Int)) (s : State), s.RegsOk → islRun s 15 = true → fieldOf s 0xF000 31 31 = 1 → meaTimed s = false →
    exec .meaMinuteEnd s = .next s ∧ ∃ t, exec (.meaSecondEnd x0 x1) s = .next t ∧ State.SameBut [.regs, .mea] s t ∧
      reg t 0xF04C = satAdd (reg s 0xF04C) 1 ∧
      ∀ h < 2, meaHead t h = { meaHead s h with missing := (meaHead s h).missing + b2n (headOn s h) }) ∧
  (∀ (x0 x1 : List (List Int)) (r : List Byte) (s : State), meaTimed s = true → headOn s 0 = true → headOn s 1 = false → modOk s 0 = true →
    (meaHead s 0).rec_ = some r → (meaHead s 0).imp.length = 3 → (meaHead s 0).exp.length = 3 → x0.length = 8000 → (∀ x ∈ x0, ∀ c ∈ x, clipped c = false) →
    (∀ p < 3, phased r p = false) → serving s = false →
    ∃ t, exec (.meaSecondEnd x0 x1) s = .next t ∧ State.SameBut [.mea, .draws] s t ∧ (meaHead t 0).flags = (meaHead s 0).flags ∧
      (meaHead t 0).missing = (meaHead s 0).missing ∧ (meaHead t 0).cond = (meaHead s 0).cond ∧ ∀ p < 3, ∃ q e : Int,
        q = (x0.map (calSample r)).foldl (fun a x => a + x.getD p 0 * x.getD (4 + p) 0) 0 * 8192 / (360000000 * calD * calD) ∧ (e = q ∨ e = q + 1) ∧
        (0 ≤ e → (meaHead t 0).imp.getD p 0 = ((meaHead s 0).imp.getD p 0 + e.toNat) % 2 ^ 96 ∧ (meaHead t 0).exp.getD p 0 = (meaHead s 0).exp.getD p 0) ∧
        (e < 0 → (meaHead t 0).exp.getD p 0 = ((meaHead s 0).exp.getD p 0 + (-e).toNat) % 2 ^ 96 ∧ (meaHead t 0).imp.getD p 0 = (meaHead s 0).imp.getD p 0)) ∧
  (∀ (s : State) (m : MinuteRec), s.RegsOk → islRun s 15 = true → meaTimed s = true → headOn s 0 = true → headOn s 1 = false → modOk s 0 = true →
    (meaHead s 0).start < localSec s / 60 * 60 → m = minuteRec (setHead 0 (fun x => { x with start := localSec s / 60 * 60 - 60 }) s) 0 →
    ∃ u t, exec .meaMinuteEnd s = .next t ∧ State.SameBut [.regs, .mea] s u ∧ reg u 0xF040 = satAdd (reg s 0xF040) 1 ∧
      reg u 0xF044 = (if m.qflags = 0x80#8 then reg s 0xF044 else satAdd (reg s 0xF044) 1) ∧
      meaHead u 0 = { meaHead s 0 with imp := (meaHead s 0).imp.map (· % 65536), exp := (meaHead s 0).exp.map (· % 65536), missing := 0, start := localSec s / 60 * 60, flags := 0 } ∧
      m.start = BitVec.ofNat 64 ((localSec s / 60 * 60 - 60) * 65536) ∧ m.imp = (meaHead s 0).imp.map (· / 65536) ∧ m.exp = (meaHead s 0).exp.map (· / 65536) ∧
      t = if serving s = false then u
        else if isHead s then storeMinute ⟨(ownService s).toNat * 2, (m.start.toNat / 65536 : Nat), m.qflags == 0x80#8, m.net⟩ u
        else sendEntry headUnit (.meaInterval m) u) ∧
  (∀ s, localSec s / 60 * 60 ≤ (meaHead s 0).start → localSec s / 60 * 60 ≤ (meaHead s 1).start → exec .meaMinuteEnd s = .next s) ∧
  (∀ (h p : Nat) (codes : List Int) (s : State), (2 ≤ h ∨ 3 ≤ p ∨ headOn s h = false ∨ modOk s h = false ∨ codes = [] ∨ (meaHead s h).rec_ = none) →
    exec (.meaHalfCycleRms h p codes) s = .next s) ∧
  ∀ (h p : Nat) (codes : List Int) (r : List Byte) (s : State), h < 2 → p < 3 → headOn s h = true → modOk s h = true → codes ≠ [] →
    (meaHead s h).rec_ = some r → Kv.get? p (meaHead s h).cond = none → ∀ sq den nom2 : Nat, nom2 = recFld r 160 4 * recFld r 160 4 →
    sq = (codes.foldl (fun a c => a + calNum r p c * calNum r p c) 0).toNat → den = (calD * calD).toNat * codes.length →
    ∃ (t : State) (v : Nat), exec (.meaHalfCycleRms h p codes) s = .next t ∧ State.SameBut [.mea, .draws] s t ∧ (v = isqrt (sq / den) ∨ v = isqrt (sq / den) + 1) ∧
      ∀ intr sag swell : Nat, intr = fieldOf s 0xF000 7 0 → sag = fieldOf s 0xF000 23 16 → swell = fieldOf s 0xF000 15 8 →
      (sq * 10000 < intr * intr * nom2 * den → (meaHead t h).cond = Kv.put p ⟨5, s.tim.raw, v⟩ (meaHead s h).cond) ∧
      (intr * intr * nom2 * den ≤ sq * 10000 → sq * 10000 < sag * sag * nom2 * den → p ∉ (meaHead s h).noSag →
        (meaHead t h).cond = Kv.put p ⟨3, s.tim.raw, v⟩ (meaHead s h).cond) ∧
      (intr * intr * nom2 * den ≤ sq * 10000 → sag * sag * nom2 * den ≤ sq * 10000 → swell * swell * nom2 * den < sq * 10000 →
        (meaHead t h).cond = Kv.put p ⟨4, s.tim.raw, v⟩ (meaHead s h).cond) ∧
      (intr * intr * nom2 * den ≤ sq * 10000 → sag * sag * nom2 * den ≤ sq * 10000 → sq * 10000 ≤ swell * swell * nom2 * den →
        (meaHead t h).cond = (meaHead s h).cond)

/-- ARCHIVE_FLUSH_EXPIRY, PAGE_PROGRAM_COMPLETE, PROGRAM_ERASE_FAIL, BLOCK_COLLECTION, WEAR_LEVEL_MOVE, THERMAL_AGE_TICK, RETENTION_SCAN,
ARCHIVE_MOUNT, OVERFLOW_WRITEBACK and ARCH_FORMAT_COMPLETE (R424, R427 to R430, R433 to R435, R437, R438, R440, R441, R444, R448). -/
def Obligations.StoreEvents : Prop :=
  ((∀ (b : Nat) (erase : Bool) (s : State), storeUp s = false → exec (.programEraseFail b erase) s = .next s ∧ exec .blockCollection s = .next s ∧
    exec .wearLevelMove s = .next s ∧ exec .thermalAgeTick s = .next s ∧ exec .retentionScan s = .next s) ∧
  (∀ s, s.tim.raw < s.arch.fillAt + fieldOf s 0x4000 27 24 * 1000000000 → exec .archiveFlushExpiry s = .next s) ∧
  (∀ s, (islRun s 4 = false ∨ s.arch.st ≠ .ready ∨ s.arch.writeback = true) → exec .pageProgramComplete s = .next s) ∧
  (∀ s, islRun s 4 = true → s.arch.st = .ready → s.arch.writeback = false → readingsTarget s = none →
    ∃ u, exec .pageProgramComplete s = .next (if archGrade u = archGrade s then u else notice 4 u) ∧ u = { s with arch := { s.arch with
      st := if (pickFree false s.arch.blocks).isNone ∧ readingsUsed s < (s.arch.layout.map (·.readings)).getD 0 then .readOnly else .keepFull } }) ∧
  (∀ (c : Instr) (q : List (Option (Nat × List Byte))) (b n : Nat) (s : State), islRun s 4 = true → s.arch.st = .ready → s.arch.writeback = false →
    Kv.get? (s.arch.turn % max 1 s.arch.targets.length) s.arch.openR = some b → n = pageRecords s b → 0 < n →
    (c = .pageProgramComplete ∧ q = s.arch.wq ∨ c = .archiveFlushExpiry ∧ s.arch.fillAt + fieldOf s 0x4000 27 24 * 1000000000 ≤ s.tim.raw ∧
      q = s.arch.wq ++ List.replicate ((n - s.arch.wq.length % n) % n) none) →
    (q.length < n → exec c s = .next s) ∧
    (n ≤ q.length → ∃ (u : State) (page : List Sector),
      exec c s = .next (if c = .archiveFlushExpiry ∨ archGrade u = archGrade s then u else notice 4 u) ∧ State.SameBut [.regs, .arch] s u ∧
      (s.RegsOk → reg u 0x4060 = satAdd (reg s 0x4060) 1) ∧ u.arch.wq = q.drop n ∧ (blockOf u b).pages = (blockOf s b).pages ++ [page] ∧
      (page.flatMap fun x => secRecords x.data) = (q.take n).filterMap id ∧ (∀ x ∈ page, x.zone = 5 ∧ x.mapped = true) ∧
      (blockOf u b).st = (if pagesPerBlock s ≤ (blockOf s b).pages.length + 1 then .data else (blockOf s b).st) ∧ s.arch.durable ≤ u.arch.durable ∧
      ((s.arch.prof.map (·.paired)).getD [] = [] → u.arch.notDurable = [] ∧ ∀ r ∈ (q.take n).filterMap id, r.1 < u.arch.durable))) ∧
  (∀ (b : Nat) (erase : Bool) (s : State), ((blockOf s b).st = .retired ∨ (blockOf s b).st = .bad ∨ Kv.get? b s.arch.blocks = none) →
    exec (.programEraseFail b erase) s = .next s) ∧
  (∀ (b : Nat) (erase : Bool) (v : Block) (s : State), storeUp s = true → Kv.wf s.arch.blocks = true → Kv.get? b s.arch.blocks = some v → v.pages = [] →
    v.st ≠ .retired → v.st ≠ .bad → v.st ≠ .spare →
    ∃ t, exec (.programEraseFail b erase) s = .next t ∧ State.SameBut [.regs, .arch] s t ∧
      (s.RegsOk → reg t (if erase then 0x4080 else 0x407C) = satAdd (reg s (if erase then 0x4080 else 0x407C)) 1) ∧ blockOf t b = { v with st := .retired } ∧
      (∀ (c : Nat) (w : Block), s.arch.blocks.find? (fun p => p.2.st == .spare) = some (c, w) → t.arch.layout = s.arch.layout ∧
        blockOf t c = { w with st := if v.st = .metaBlk then .metaBlk else .free, zone := if v.st = .metaBlk then v.zone else 0 } ∧
        ∀ k, k ≠ b → k ≠ c → blockOf t k = blockOf s k) ∧
      ((∀ p ∈ s.arch.blocks, p.2.st ≠ .spare) → t.arch.layout = s.arch.layout.map (fun l => { l with readings := l.readings - 1 }) ∧
        ∀ k, k ≠ b → blockOf t k = blockOf s k)) ∧
  (∀ (b : Nat) (v : Block) (s : State), storeUp s = true → s.arch.blocks.find? (fun p => p.2.zone == 5 && p.2.st == .stale) = some (b, v) →
    ((s.arch.prof.map (·.peLimit)).getD 0 = 0 ∨ (blockOf s b).pe + 1 < (s.arch.prof.map (·.peLimit)).getD 0) →
    ∃ t, exec .blockCollection s = .next t ∧ State.SameBut [.regs, .arch] s t ∧ (s.RegsOk → reg t 0x4078 = satAdd (reg s 0x4078) 1) ∧
      t.arch = { s.arch with blocks := Kv.put b { blockEmpty with st := .free, pe := (blockOf s b).pe + 1 } s.arch.blocks }) ∧
  (∀ s, (∀ p ∈ s.arch.blocks, p.2.zone = 5 ∧ p.2.st ≠ .stale ∨ p.2.zone ≠ 5 ∧ p.2.st ≠ .data) → exec .blockCollection s = .next s) ∧
  (∀ s, (peMax s ≤ minD 0 ((s.arch.blocks.filter fun p => p.2.st == .data || p.2.st == .free).map (·.2.pe)) + fieldOf s 0x400C 31 16 ∨
    s.win.min.contains (8, 0) = true) → exec .wearLevelMove s = .next s) ∧
  (∀ s, (∀ p ∈ s.arch.blocks, p.2.st = .data → s.arch.age - p.2.wr.age ≤ fieldOf s 0x4008 7 0 * 7 * 24 * 60 * 1024) → exec .retentionScan s = .next s) ∧
  (∀ (c : Instr) (b d pe : Nat) (v : Block) (s : State), storeUp s = true → Kv.wf s.arch.blocks = true → Kv.get? b s.arch.blocks = some v → v.st = .data →
    (∃ p ∈ v.pages, ∃ x ∈ p, x.mapped = true) → (v.zone = 5 → blockRecords v ≠ []) →
    ((s.arch.prof.map (·.peLimit)).getD 0 = 0 ∨ v.pe + 1 < (s.arch.prof.map (·.peLimit)).getD 0) →
    (c = .wearLevelMove ∧ minD 0 ((s.arch.blocks.filter fun p => p.2.st == .data || p.2.st == .free).map (·.2.pe)) + fieldOf s 0x400C 31 16 < peMax s ∧
        s.win.min.contains (8, 0) = false ∧ (leastBlock (·.pe) (s.arch.blocks.filter fun p => p.2.st == .data)).map (·.1) = some b ∧
        pickFree true s.arch.blocks = some (d, pe) ∨
      c = .retentionScan ∧ v.zone = 5 ∧ (∀ p ∈ s.arch.blocks, p.2.st = .data → (fieldOf s 0x4008 7 0 * 7 * 24 * 60 * 1024 < s.arch.age - p.2.wr.age ↔ p.1 = b)) ∧
        pickFree false s.arch.blocks = some (d, pe)) →
    ∃ t, exec c s = .next t ∧ State.SameBut [.regs, .win, .arch] s t ∧ blockOf t b = { blockEmpty with st := .free, pe := v.pe + 1 } ∧ (blockOf t d).st = .data ∧
      (blockOf t d).zone = v.zone ∧ (blockOf t d).pe = pe ∧ (blockOf t d).wr = writeRecNow s pe ∧
      ((blockOf t d).pages.map fun p => p.map fun x => (x.zone, x.lsn, x.mapped, x.data)) = (v.pages.map fun p => p.map fun x => (x.zone, x.lsn, x.mapped, x.data)) ∧
      d ≠ b ∧ ∀ k, k ≠ b → k ≠ d → blockOf t k = blockOf s k) ∧
  (∀ s, s.tim.raw < s.arch.ageAt + 60000000000 → exec .thermalAgeTick s = .next s) ∧
  ∀ s, storeUp s = true → s.arch.ageAt + 60000000000 ≤ s.tim.raw →
    exec .thermalAgeTick s = .next { s with arch := { s.arch with ageAt := s.tim.raw, age := (s.arch.age + ageIncrement (junction s)) % 2 ^ 64 } }) ∧
  (∀ (scan : MountScan) (s : State), (s.arch.st ≠ .mounting ∨ s.arch.formatting.isSome = true) → exec (.archiveMount scan) s = .next s) ∧
  (∀ s, s.arch.formatting = none → exec .archFormatComplete s = .next s) ∧
  (∀ (h : Hdr) (s w : State), s.arch.formatting = some h → w = { s with arch := { s.arch with formatting := none } } →
    exec .archFormatComplete s = .next (answer h 0x0909 (if (formatStore w).1 then .done else .media) (formatStore w).2)) ∧
  (∀ (scan : MountScan) (s : State), s.arch.st = .mounting → s.arch.formatting = none → s.arch.layout = none →
    exec (.archiveMount scan) s = .next (formatStore s).2) ∧
  (∀ (m e : Nat) (l : Layout) (r : Int) (s u : State) (ok : Bool), zones s = (m, e, l, r) → formatStore s = (ok, u) →
    State.SameBut [.camp, .relay, .arch, .evt] s u ∧ (ok = true ↔ 64 ≤ r) ∧
    (r < 64 → u.arch = { s.arch with st := .off, layout := none } ∧ u.evt.raised = s.evt.raised ++ [⟨4, 3, criticalCode 4 3, BitVec.ofNat 32 r.toNat, []⟩]) ∧
    (64 ≤ r → u.arch.st = .ready ∧ u.arch.layout = some l ∧ u.arch.blocks = layBlocks s m e l.spares ∧ u.arch.age = 0 ∧ u.arch.durable = 0 ∧ u.arch.missing = [] ∧
      u.arch.next = (s.arch.wq.filterMap id).length ∧ (u.arch.wq.filterMap id).map (·.1) = List.range u.arch.next ∧
      (u.arch.wq.map fun x => x.map (·.2)) = (s.arch.wq.map fun x => x.map (·.2)))) ∧
  (∀ (scan : MountScan) (l : Layout) (s : State), s.arch.st = .mounting → s.arch.formatting = none → s.arch.layout = some l → s.arch.cut = false →
    ∃ t, exec (.archiveMount scan) s = .next t ∧ State.SameBut [.regs, .arch] s t ∧ (s.RegsOk → reg t 0x4084 = satAdd (reg s 0x4084) scan.dup) ∧
      t.arch.blocks = s.arch.blocks ∧ t.arch.next = s.arch.next ∧ t.arch.wq = s.arch.wq ∧ t.arch.missing = s.arch.missing ∧ t.arch.notDurable = s.arch.notDurable ∧
      (t.arch.st = if s.arch.ro ∨ blkCount s .spare = 0 ∧ blkCount s .free < l.gcReserve then .readOnly else .ready)) ∧
  (∀ (scan : MountScan) (l : Layout) (s : State), s.arch.st = .mounting → s.arch.formatting = none → s.arch.layout = some l → s.arch.cut = true → s.camp.ckpt = none →
    (∀ r ∈ s.arch.missing.getLast?, r.2 + 1 ≠ s.arch.durable) →
    ∃ t, exec (.archiveMount scan) s = .next t ∧ State.SameBut [.regs, .arch, .evt] s t ∧ t.arch.cut = false ∧ t.arch.notDurable = [] ∧
      (∀ (b p : Nat) (page : List Sector), ((b, p) ∈ scan.torn ∨ ∃ n, (b, p, n) ∈ s.arch.notDurable) → (blockOf t b).pages[p]? = some page → ∀ x ∈ page, x.mapped = false) ∧
      (∀ (b p : Nat), (b, p) ∉ scan.torn → (∀ n, (b, p, n) ∉ s.arch.notDurable) → (blockOf t b).pages[p]? = (blockOf s b).pages[p]?) ∧
      t.arch.missing = (if s.arch.durable < s.arch.resEnd then s.arch.missing ++ [(s.arch.durable, s.arch.resEnd - 1)] else s.arch.missing) ∧
      t.evt.raised = (if s.arch.durable < s.arch.resEnd ∧ isLone s = true then s.evt.raised ++
        [⟨4, 4, criticalCode 4 4, BitVec.ofNat 32 (min (s.arch.resEnd - s.arch.durable) 0xFFFFFFFF), [padTo 20 (be 8 s.arch.durable ++ be 8 (s.arch.resEnd - 1))]⟩] else s.evt.raised)) ∧
  (∀ s, s.arch.writeback = false → exec .overflowWriteback s = .next s) ∧
  ∀ (s : State) (r : Nat × List Byte) (l : List (Nat × List Byte)), s.arch.writeback = true → s.arch.ovf = r :: l → (∀ x ∈ l, r.1 ≤ x.1) →
    exec .overflowWriteback s = .next { s with arch := { s.arch with writeback := false, ovf := [], wq := (s.arch.wq.filter fun x => x.all fun y => decide (y.1 < r.1)) ++ (r :: l).map some ++ (s.arch.wq.filter fun x => x.any fun y => decide (r.1 ≤ y.1)) } }

/-- Frames of the management commands: what each may touch, its own effect and the ways its answer takes (R71, R400, R401, R410 to R413); everything else is as it was, whether it is accepted or refused. -/
def Obligations.CommandFrames : Prop :=
  (∀ (h : Hdr) (off : Nat) (count : Nat) (s s' : State), exec (.regRead h off count) s = .next s' → State.SameBut [.stalled, .regs, .lat, .win, .isl, .eth, .pair, .jr, .host, .sec, .evt, .out] s s') ∧
  (∀ (h : Hdr) (slot : Byte) (perms : BitVec 16) (key : Wrapped) (s s' : State), exec (.keyLoad h slot perms key) s = .next s' → State.SameBut [.stalled, .regs, .win, .isl, .eth, .pair, .jr, .host, .sec, .evt, .out] s s') ∧
  (∀ (h : Hdr) (slot : Byte) (s s' : State), exec (.keyClear h slot) s = .next s' → State.SameBut [.stalled, .regs, .win, .isl, .eth, .pair, .jr, .host, .sec, .evt, .out] s s') ∧
  (∀ (h : Hdr) (slot : Byte) (s s' : State), exec (.keyRead h slot) s = .next s' → State.SameBut [.stalled, .regs, .win, .isl, .eth, .pair, .jr, .host, .sec, .evt, .out] s s') ∧
  (∀ (h : Hdr) (level : Nat) (s s' : State), exec (.secZeroise h level) s = .next s' → State.SameBut [.stalled, .regs, .win, .isl, .boot, .pipe, .plc, .rf, .eth, .pair, .jr, .host, .sec, .evt, .out] s s') ∧
  (∀ (h : Hdr) (slot : Nat) (s s' : State), exec (.tblRead h slot) s = .next s' → State.SameBut [.stalled, .regs, .win, .isl, .eth, .pair, .jr, .host, .sec, .evt, .out] s s') ∧
  (∀ (h : Hdr) (title : W64) (s s' : State), exec (.tblFind h title) s = .next s' → State.SameBut [.stalled, .regs, .win, .isl, .eth, .pair, .jr, .host, .sec, .evt, .out] s s') ∧
  (∀ (h : Hdr) (first : Nat) (count : Nat) (s s' : State), exec (.tblDump h first count) s = .next s' → State.SameBut [.stalled, .regs, .win, .isl, .eth, .pair, .jr, .host, .sec, .evt, .out] s s') ∧
  (∀ (h : Hdr) (slot : Nat) (expect : W32) (mask : BitVec 256) (image : RecImg) (s s' : State), exec (.tblWrite h slot expect mask image) s = .next s' → State.SameBut [.stalled, .regs, .win, .isl, .table, .eth, .pair, .jr, .host, .sec, .evt, .out] s s') ∧
  (∀ (h : Hdr) (title : W64) (gen : Byte) (window : Byte) (ruleSet : BitVec 16) (service : BitVec 12) (ek : Wrapped) (ak : Wrapped) (s s' : State), exec (.tblProvision h title gen window ruleSet service ek ak) s = .next s' → State.SameBut [.stalled, .regs, .win, .isl, .table, .eth, .pair, .jr, .host, .sec, .evt, .out] s s') ∧
  (∀ (h : Hdr) (slot : Nat) (gen : Byte) (ek : Wrapped) (ak : Wrapped) (s s' : State), exec (.tblKeyStage h slot gen ek ak) s = .next s' → State.SameBut [.stalled, .regs, .win, .isl, .table, .eth, .pair, .jr, .host, .sec, .evt, .out] s s') ∧
  (∀ (h : Hdr) (slot : Nat) (s s' : State), exec (.tblRetire h slot) s = .next s' → State.SameBut [.stalled, .regs, .win, .isl, .table, .pipe, .camp, .plc, .eth, .relay, .pair, .jr, .host, .sec, .evt, .out] s s') ∧
  (∀ (h : Hdr) (slot : Nat) (expect : W32) (mask : BitVec 256) (image : RecImg) (s s' : State), exec (.tblSet h slot expect mask image) s = .next s' → State.SameBut [.stalled, .regs, .win, .isl, .table, .pipe, .camp, .plc, .eth, .relay, .pair, .jr, .host, .sec, .evt, .out] s s') ∧
  (∀ (h : Hdr) (slot : Nat) (curve : Nat) (key : BitVec 768) (s s' : State), exec (.keySignerLoad h slot curve key) s = .next s' → State.SameBut [.stalled, .regs, .win, .isl, .eth, .pair, .jr, .host, .sec, .evt, .out] s s') ∧
  (∀ (h : Hdr) (image : List Byte) (s s' : State), exec (.ruleLoad h image) s = .next s' → State.SameBut [.stalled, .regs, .win, .isl, .rules, .eth, .pair, .jr, .host, .sec, .evt, .out] s s') ∧
  (∀ (h : Hdr) (sets : List Nat) (s s' : State), exec (.ruleActivate h sets) s = .next s' → State.SameBut [.stalled, .regs, .win, .isl, .rules, .eth, .pair, .jr, .host, .sec, .evt, .out] s s') ∧
  (∀ (h : Hdr) (sets : List Nat) (s s' : State), exec (.ruleRemove h sets) s = .next s' → State.SameBut [.stalled, .regs, .win, .isl, .rules, .eth, .pair, .jr, .host, .sec, .evt, .out] s s') ∧
  (∀ (h : Hdr) (set : Nat) (s s' : State), exec (.ruleRead h set) s = .next s' → State.SameBut [.stalled, .regs, .win, .isl, .eth, .pair, .jr, .host, .sec, .evt, .out] s s') ∧
  (∀ (h : Hdr) (nodes : List Node) (s s' : State), exec (.topoLoad h nodes) s = .next s' → State.SameBut [.stalled, .regs, .win, .isl, .bal, .eth, .pair, .jr, .host, .sec, .evt, .out] s s') ∧
  (∀ (h : Hdr) (s s' : State), exec (.topoActivate h) s = .next s' → State.SameBut [.stalled, .regs, .win, .isl, .bal, .eth, .pair, .jr, .host, .sec, .evt, .out] s s') ∧
  (∀ (h : Hdr) (bank : Nat) (first : Nat) (count : Nat) (s s' : State), exec (.topoRead h bank first count) s = .next s' → State.SameBut [.stalled, .regs, .win, .isl, .eth, .pair, .jr, .host, .sec, .evt, .out] s s') ∧
  (∀ (h : Hdr) (node : Nat) (s s' : State), exec (.balNodeRead h node) s = .next s' → State.SameBut [.stalled, .regs, .win, .isl, .eth, .pair, .jr, .host, .sec, .evt, .out] s s') ∧
  (∀ (h : Hdr) (slot : Nat) (s s' : State), exec (.balMeterRead h slot) s = .next s' → State.SameBut [.stalled, .regs, .win, .isl, .eth, .pair, .jr, .host, .sec, .evt, .out] s s') ∧
  (∀ (h : Hdr) (kind : Nat) (ids : List Nat) (s s' : State), exec (.balResetScores h kind ids) s = .next s' → State.SameBut [.stalled, .regs, .win, .isl, .table, .bal, .eth, .pair, .jr, .host, .sec, .evt, .out] s s') ∧
  (∀ (h : Hdr) (m : Manifest) (s s' : State), exec (.campCreate h m) s = .next s' → State.SameBut [.stalled, .regs, .win, .isl, .camp, .eth, .pair, .jr, .host, .sec, .evt, .out] s s') ∧
  (∀ (h : Hdr) (slot : Nat) (off : Nat) (data : List Byte) (s s' : State), exec (.campData h slot off data) s = .next s' → State.SameBut [.stalled, .regs, .win, .isl, .camp, .eth, .pair, .jr, .host, .sec, .evt, .out] s s') ∧
  (∀ (h : Hdr) (slot : Nat) (s s' : State), exec (.campSeal h slot) s = .next s' → State.SameBut [.stalled, .regs, .win, .isl, .camp, .eth, .pair, .jr, .host, .sec, .evt, .out] s s') ∧
  (∀ (h : Hdr) (slot : Nat) (slots : List Nat) (s s' : State), exec (.campAddMembers h slot slots) s = .next s' → State.SameBut [.stalled, .regs, .win, .isl, .table, .camp, .eth, .relay, .pair, .jr, .host, .sec, .evt, .out] s s') ∧
  (∀ (h : Hdr) (slot : Nat) (slots : List Nat) (s s' : State), exec (.campRemoveMembers h slot slots) s = .next s' → State.SameBut [.stalled, .regs, .win, .isl, .table, .camp, .eth, .relay, .pair, .jr, .host, .sec, .evt, .out] s s') ∧
  (∀ (h : Hdr) (slot : Nat) (s s' : State), exec (.campStart h slot) s = .next s' → State.SameBut [.stalled, .regs, .win, .isl, .camp, .eth, .relay, .pair, .jr, .host, .sec, .evt, .out] s s') ∧
  (∀ (h : Hdr) (slot : Nat) (s s' : State), exec (.campPause h slot) s = .next s' → State.SameBut [.stalled, .regs, .win, .isl, .camp, .eth, .relay, .pair, .jr, .host, .sec, .evt, .out] s s') ∧
  (∀ (h : Hdr) (slot : Nat) (s s' : State), exec (.campCancel h slot) s = .next s' → State.SameBut [.stalled, .regs, .win, .isl, .table, .camp, .eth, .relay, .pair, .jr, .host, .sec, .evt, .out] s s') ∧
  (∀ (h : Hdr) (slot : Nat) (s s' : State), exec (.campClose h slot) s = .next s' → State.SameBut [.stalled, .regs, .win, .isl, .table, .camp, .eth, .relay, .pair, .jr, .host, .sec, .evt, .out] s s') ∧
  (∀ (h : Hdr) (slot : Nat) (r : ActRec) (s s' : State), exec (.campActivate h slot r) s = .next s' → State.SameBut [.stalled, .regs, .win, .isl, .camp, .eth, .relay, .pair, .jr, .host, .sec, .evt, .out] s s') ∧
  (∀ (h : Hdr) (slot : Nat) (r : ActRec) (s s' : State), exec (.campRollback h slot r) s = .next s' → State.SameBut [.stalled, .regs, .win, .isl, .camp, .eth, .relay, .pair, .jr, .host, .sec, .evt, .out] s s') ∧
  (∀ (h : Hdr) (slot : Nat) (s s' : State), exec (.campRead h slot) s = .next s' → State.SameBut [.stalled, .regs, .win, .isl, .eth, .pair, .jr, .host, .sec, .evt, .out] s s') ∧
  (∀ (h : Hdr) (slot : Nat) (first : Nat) (count : Nat) (s s' : State), exec (.campMemberRead h slot first count) s = .next s' → State.SameBut [.stalled, .regs, .win, .isl, .eth, .pair, .jr, .host, .sec, .evt, .out] s s') ∧
  (∀ (h : Hdr) (inst : Nat) (s s' : State), exec (.plcGmkRotate h inst) s = .next s' → State.SameBut [.stalled, .regs, .win, .isl, .plc, .eth, .pair, .jr, .host, .sec, .evt, .out, .draws] s s') ∧
  (∀ (h : Hdr) (inst : Nat) (short : Nat) (s s' : State), exec (.plcKick h inst short) s = .next s' → State.SameBut [.stalled, .regs, .win, .isl, .plc, .eth, .pair, .jr, .host, .sec, .evt, .out] s s') ∧
  (∀ (h : Hdr) (rf : Nat) (s s' : State), exec (.rfKeyRotate h rf) s = .next s' → State.SameBut [.stalled, .regs, .win, .isl, .rf, .eth, .pair, .jr, .host, .sec, .evt, .out, .draws] s s') ∧
  (∀ (h : Hdr) (mode : Nat) (sec : Nat) (ns : Nat) (s s' : State), exec (.timStep h mode sec ns) s = .next s' → State.SameBut [.stalled, .regs, .win, .isl, .bal, .camp, .plc, .eth, .relay, .tim, .pair, .jr, .host, .sec, .mea, .evt, .out] s s') ∧
  (∀ (h : Hdr) (s s' : State), exec (.pairRead h) s = .next s' → State.SameBut [.stalled, .regs, .win, .isl, .eth, .pair, .jr, .host, .sec, .evt, .out] s s') ∧
  (∀ (h : Hdr) (s s' : State), exec (.pairSwap h) s = .next s' → State.SameBut [.stalled, .regs, .win, .isl, .rf, .eth, .relay, .pair, .jr, .host, .sec, .evt, .out, .draws] s s') ∧
  (∀ (h : Hdr) (s s' : State), exec (.pairClear h) s = .next s' → State.SameBut [.stalled, .regs, .win, .isl, .eth, .pair, .jr, .host, .sec, .evt, .out] s s') ∧
  (∀ (h : Hdr) (s s' : State), exec (.archInfo h) s = .next s' → State.SameBut [.stalled, .regs, .win, .isl, .eth, .pair, .jr, .host, .sec, .evt, .out] s s') ∧
  (∀ (h : Hdr) (first : W64) (count : Nat) (media : List Media) (s s' : State), exec (.archRead h first count media) s = .next s' → State.SameBut [.stalled, .regs, .win, .isl, .eth, .pair, .jr, .host, .sec, .arch, .evt, .out] s s') ∧
  (∀ (h : Hdr) (t : W64) (s s' : State), exec (.archFindTime h t) s = .next s' → State.SameBut [.stalled, .regs, .win, .isl, .eth, .pair, .jr, .host, .sec, .evt, .out] s s') ∧
  (∀ (h : Hdr) (upto : W64) (s s' : State), exec (.archTrim h upto) s = .next s' → State.SameBut [.stalled, .regs, .win, .isl, .eth, .pair, .jr, .host, .sec, .arch, .evt, .out] s s') ∧
  (∀ (h : Hdr) (count : Nat) (s s' : State), exec (.archOvfRead h count) s = .next s' → State.SameBut [.stalled, .regs, .win, .isl, .eth, .pair, .jr, .host, .sec, .evt, .out] s s') ∧
  (∀ (h : Hdr) (upto : W64) (s s' : State), exec (.archOvfRelease h upto) s = .next s' → State.SameBut [.stalled, .regs, .win, .isl, .eth, .pair, .jr, .host, .sec, .arch, .evt, .out] s s') ∧
  (∀ (h : Hdr) (sector : Nat) (data : List (List Byte)) (s s' : State), exec (.archHostWrite h sector data) s = .next s' → State.SameBut [.stalled, .regs, .win, .isl, .eth, .pair, .jr, .host, .sec, .arch, .evt, .out] s s') ∧
  (∀ (h : Hdr) (sector : Nat) (count : Nat) (media : List Media) (s s' : State), exec (.archHostRead h sector count media) s = .next s' → State.SameBut [.stalled, .regs, .win, .isl, .eth, .pair, .jr, .host, .sec, .arch, .evt, .out] s s') ∧
  (∀ (h : Hdr) (confirm : W32) (s s' : State), exec (.archFormat h confirm) s = .next s' → State.SameBut [.stalled, .regs, .win, .isl, .eth, .pair, .jr, .host, .sec, .arch, .evt, .out] s s') ∧
  (∀ (h : Hdr) (from_ : W64) (count : Nat) (s s' : State), exec (.evtRead h from_ count) s = .next s' → State.SameBut [.stalled, .regs, .win, .isl, .eth, .pair, .jr, .host, .sec, .evt, .out] s s') ∧
  (∀ (h : Hdr) (s s' : State), exec (.evtClear h) s = .next s' → State.SameBut [.stalled, .regs, .win, .isl, .eth, .pair, .jr, .host, .sec, .evt, .out] s s') ∧
  (∀ (h : Hdr) (first : Nat) (n : Nat) (s s' : State), exec (.monRead h first n) s = .next s' → State.SameBut [.stalled, .regs, .win, .isl, .eth, .pair, .jr, .host, .sec, .evt, .out] s s') ∧
  (∀ (h : Hdr) (lo : W32) (hi : W32) (s s' : State), exec (.monReset h lo hi) s = .next s' → State.SameBut [.stalled, .regs, .win, .isl, .eth, .pair, .jr, .host, .sec, .mon, .evt, .out] s s') ∧
  (∀ (h : Hdr) (first : Nat) (n : Nat) (s s' : State), exec (.qRead h first n) s = .next s' → State.SameBut [.stalled, .regs, .win, .isl, .eth, .pair, .jr, .host, .sec, .evt, .out] s s')

/-- Frames of the events of the readings' path, of clusters, balance runs and campaigns, and of power line, radio, Ethernet, relay and time. -/
def Obligations.EventFrames : Prop :=
  (∀ (queue : Nat) (s s' : State), exec (.idleItemWrite queue) s = .next s' → State.SameBut [.regs, .rf, .eth, .relay, .jr, .host, .queues, .out, .draws] s s') ∧
  (∀  (s s' : State), exec .readingDispatch s = .next s' → State.SameBut [.regs, .isl, .pipe, .rf, .eth, .relay, .host, .queues, .out, .draws] s s') ∧
  (∀ (id : Nat) (s s' : State), exec (.readingVerify id) s = .next s' → State.SameBut [.regs, .win, .isl, .table, .pipe, .relay, .jr, .host, .evt, .out] s s') ∧
  (∀ (id : Nat) (s s' : State), exec (.readingPosting id) s = .next s' → State.SameBut [.regs, .win, .pipe, .relay, .jr, .host, .evt, .out] s s') ∧
  (∀  (s s' : State), exec .tokenReturn s = .next s' → State.SameBut [.pipe] s s') ∧
  (∀ (k : Nat) (s s' : State), exec (.sessionExpiry k) s = .next s' → State.SameBut [.pipe] s s') ∧
  (∀ (entry : Nat) (slot : Nat) (s s' : State), exec (.pollIssue entry slot) s = .next s' → State.SameBut [.regs, .pipe, .plc, .rf, .jr, .out, .draws] s s') ∧
  (∀ (title : W64) (s s' : State), exec (.fetchRetry title) s = .next s' → State.SameBut [.regs, .win, .table, .relay, .jr, .host, .evt, .out] s s') ∧
  (∀  (s s' : State), exec .moveReleaseQueue s = .next s' → State.SameBut [.regs, .win, .table, .relay, .jr, .evt] s s') ∧
  (∀ (slot : Nat) (s s' : State), exec (.retireHoldExpiry slot) s = .next s' → State.SameBut [.table, .jr, .sec] s s') ∧
  (∀  (s s' : State), exec .ageCheck s = .next s' → State.SameBut [.regs, .win, .table, .pipe, .camp, .plc, .relay, .jr, .sec, .evt] s s') ∧
  (∀  (s s' : State), exec .balanceIntervalClose s = .next s' → State.SameBut [.regs, .bal, .eth, .jr, .host, .evt, .out] s s') ∧
  (∀  (s s' : State), exec .balanceRun s = .next s' → State.SameBut [.regs, .bal, .eth, .jr, .host, .evt, .out] s s') ∧
  (∀  (s s' : State), exec .balanceReportPost s = .next s' → State.SameBut [.regs, .table, .bal, .eth, .jr, .host, .evt, .out] s s') ∧
  (∀ (link : Nat) (s s' : State), exec (.campaignFrameSend link) s = .next s' → State.SameBut [.regs, .win, .camp, .plc, .rf, .relay, .jr, .evt, .out, .draws] s s') ∧
  (∀ (link : Nat) (slot : Nat) (s s' : State), exec (.repairRound link slot) s = .next s' → State.SameBut [.camp, .jr] s s') ∧
  (∀ (link : Nat) (slot : Nat) (s s' : State), exec (.activationBroadcast link slot) s = .next s' → State.SameBut [.regs, .camp, .plc, .rf, .jr, .out] s s') ∧
  (∀ (slot : Nat) (s s' : State), exec (.actTimeLateExpiry slot) s = .next s' → State.SameBut [.camp, .jr] s s') ∧
  (∀  (s s' : State), exec .campaignCheckpoint s = .next s' → State.SameBut [.regs, .win, .camp, .evt] s s') ∧
  (∀ (cluster : Nat) (s s' : State), exec (.activationMarkPass cluster) s = .next s' → State.SameBut [.regs, .rules, .eth, .jr, .host, .out] s s') ∧
  (∀ (cluster : Nat) (s s' : State), exec (.profileClusterSwitch cluster) s = .next s' → State.SameBut [.clusters] s s') ∧
  (∀ (bucket : Nat) (s s' : State), exec (.bucketRedistribute bucket) s = .next s' → State.SameBut [.clusters] s s') ∧
  (∀ (inst : Nat) (f : PlcFrame) (s s' : State), exec (.plcFrameRx inst f) s = .next s' → State.SameBut [.regs, .win, .table, .pipe, .camp, .plc, .rf, .eth, .relay, .jr, .host, .sec, .queues, .evt, .out, .draws] s s') ∧
  (∀ (inst : Nat) (id : Nat) (s s' : State), exec (.plcAckTimeout inst id) s = .next s' → State.SameBut [.regs, .plc, .jr, .out] s s') ∧
  (∀ (inst : Nat) (dest : Nat) (s s' : State), exec (.routeTtlExpiry inst dest) s = .next s' → State.SameBut [.plc, .jr] s s') ∧
  (∀ (inst : Nat) (id : Nat) (s s' : State), exec (.routeWaitExpiry inst id) s = .next s' → State.SameBut [.regs, .plc, .jr, .out] s s') ∧
  (∀ (link : Nat) (src : Nat) (tag : Nat) (s s' : State), exec (.reassemblyTimeout link src tag) s = .next s' → State.SameBut [.regs, .plc, .rf] s s') ∧
  (∀ (link : Nat) (short : Nat) (s s' : State), exec (.shortHoldExpiry link short) s = .next s' → State.SameBut [.plc, .rf, .jr] s s') ∧
  (∀ (inst : Nat) (short : Nat) (s s' : State), exec (.zcReportSend inst short) s = .next s' → State.SameBut [.regs, .win, .plc, .relay, .jr, .evt] s s') ∧
  (∀ (inst : Nat) (short : Nat) (s s' : State), exec (.fpReportSend inst short) s = .next s' → State.SameBut [.regs, .win, .plc, .relay, .jr, .evt] s s') ∧
  (∀ (inst : Nat) (t : Nat) (s s' : State), exec (.zcEdge inst t) s = .next s' → State.SameBut [.plc, .evt] s s') ∧
  (∀ (inst : Nat) (s s' : State), exec (.zcLost inst) s = .next s' → State.SameBut [.plc, .evt] s s') ∧
  (∀ (inst : Nat) (s s' : State), exec (.ldFaultFall inst) s = .next s' → State.SameBut [.plc, .evt] s s') ∧
  (∀ (inst : Nat) (s s' : State), exec (.ldFaultResume inst) s = .next s' → State.SameBut [.plc] s s') ∧
  (∀ (rf : Nat) (s s' : State), exec (.rfTimeslot rf) s = .next s' → State.SameBut [.regs, .rf, .tim, .jr, .host, .evt, .out, .draws] s s') ∧
  (∀ (rf : Nat) (f : RfFrame) (s s' : State), exec (.rfFrameRx rf f) s = .next s' → State.SameBut [.regs, .win, .table, .pipe, .bal, .camp, .plc, .rf, .eth, .relay, .tim, .jr, .host, .sec, .mea, .queues, .evt, .out, .draws] s s') ∧
  (∀ (rf : Nat) (hits : List ScanHit) (s s' : State), exec (.rfScan rf hits) s = .next s' → State.SameBut [.rf] s s') ∧
  (∀ (rf : Nat) (id : Nat) (s s' : State), exec (.sleepyQueueExpiry rf id) s = .next s' → State.SameBut [.regs, .rf] s s') ∧
  (∀ (port : Bool) (f : EthFrame) (s s' : State), exec (.ethFrameRx port f) s = .next s' → State.SameBut [.regs, .eth, .host, .out] s s') ∧
  (∀ (port : Bool) (speed : Nat) (half : Bool) (eee : Bool) (s s' : State), exec (.ethLinkUp port speed half eee) s = .next s' → State.SameBut [.regs, .eth, .host, .evt, .out] s s') ∧
  (∀ (port : Bool) (s s' : State), exec (.ethLinkDown port) s = .next s' → State.SameBut [.regs, .rf, .eth, .relay, .host, .out, .draws] s s') ∧
  (∀ (port : Bool) (s s' : State), exec (.txBufferWaitExpiry port) s = .next s' → State.SameBut [.regs, .eth, .host, .out] s s') ∧
  (∀ (port : Bool) (s s' : State), exec (.lldpSend port) s = .next s' → State.SameBut [.regs, .eth, .host, .out] s s') ∧
  (∀ (port : Bool) (s s' : State), exec (.lpiIdleEntry port) s = .next s' → State.SameBut [.regs, .eth, .host, .out] s s') ∧
  (∀ (src : RelaySrc) (f : RelayFrame) (s s' : State), exec (.relayFrameRx src f) s = .next s' → State.SameBut [.regs, .win, .table, .pipe, .rules, .bal, .camp, .plc, .rf, .eth, .relay, .pair, .jr, .host, .sec, .queues, .evt, .out, .draws] s s') ∧
  (∀ (port : Bool) (s s' : State), exec (.relayPauseHoldExpiry port) s = .next s' → State.SameBut [.relay] s s') ∧
  (∀ (to_ : BitVec 12) (port : Bool) (s s' : State), exec (.relayBatchClose to_ port) s = .next s' → State.SameBut [.regs, .rf, .eth, .relay, .host, .out, .draws] s s') ∧
  (∀ (id : Nat) (port : Bool) (s s' : State), exec (.relayAckTimeout id port) s = .next s' → State.SameBut [.regs, .rf, .eth, .relay, .host, .out, .draws] s s') ∧
  (∀ (sender : BitVec 12) (seq : W32) (s s' : State), exec (.relayBatchAck sender seq) s = .next s' → State.SameBut [.regs, .rf, .eth, .relay, .host, .out, .draws] s s') ∧
  (∀  (s s' : State), exec .spoolDrain s = .next s' → State.SameBut [.relay, .jr] s s') ∧
  (∀ (port : Bool) (m : PtpMsg) (s s' : State), exec (.ptpMessageRx port m) s = .next s' → State.SameBut [.regs, .win, .bal, .camp, .plc, .eth, .relay, .tim, .jr, .host, .mea, .evt, .out, .draws] s s') ∧
  (∀ (port : Bool) (kind : PtpSend) (s s' : State), exec (.ptpMessageSend port kind) s = .next s' → State.SameBut [.regs, .eth, .host, .out] s s') ∧
  (∀ (code : Nat) (s s' : State), exec (.sourceTimeout code) s = .next s' → State.SameBut [.regs, .tim, .host, .out] s s') ∧
  (∀  (s s' : State), exec .timeWord s = .next s' → State.SameBut [.tim, .out] s s') ∧
  (∀ (isl : Nat) (s s' : State), exec (.timeWordLoss isl) s = .next s' → State.SameBut [.regs, .tim] s s') ∧
  (∀  (s s' : State), exec .rtcWrite s = .next s' → State.SameBut [.regs] s s') ∧
  (∀  (s s' : State), exec .leapSecond s = .next s' → State.SameBut [.tim] s s') ∧
  (∀ (inst : Nat) (s s' : State), exec (.ldFaultPinRise inst) s = .next s' → State.SameBut [.plc] s s') ∧
  (∀ (port : Bool) (s s' : State), exec (.partnerEeeTlvExpiry port) s = .next s' → State.SameBut [.eth] s s')

/-- Frames of the register reads, the pair, the ports of the host, boot, power, modules, events, monitors and the archive. -/
def Obligations.UnitFrames : Prop :=
  (∀ (p : Path) (s s' : State), exec (.timNowNsRead p) s = .next s' → State.SameBut [.regs, .lat, .out] s s') ∧
  (∀ (p : Path) (off : Nat) (s s' : State), exec (.seqPairLoRead p off) s = .next s' → State.SameBut [.regs, .lat, .out] s s') ∧
  (∀ (p : Path) (head : Nat) (s s' : State), exec (.meaPqSecondRead p head) s = .next s' → State.SameBut [.regs, .lat, .out] s s') ∧
  (∀ (ok : Bool) (s s' : State), exec (.installComplete ok) s = .next s' → State.SameBut [.regs, .boot] s s') ∧
  (∀  (s s' : State), exec .autoConfirmExpiry s = .next s' → State.SameBut [.boot] s s') ∧
  (∀ (isl : Nat) (s s' : State), exec (.dozeIdleGate isl) s = .next s' → State.SameBut [.isl] s s') ∧
  (∀ (n : Nat) (s s' : State), exec (.msixCoalesceExpiry n) s = .next s' → State.SameBut [.host, .out] s s') ∧
  (∀ (vector : Nat) (s s' : State), exec (.msixUnmask vector) s = .next s' → State.SameBut [.host, .out] s s') ∧
  (∀ (isl : Nat) (s s' : State), exec (.islandClockStable isl) s = .next s' → State.SameBut [.regs, .isl, .boot, .clusters, .pipe, .plc, .rf, .eth, .tim, .host, .sec, .arch, .mea, .evt, .out] s s') ∧
  (∀ (isl : Nat) (s s' : State), exec (.islandLockLoss isl) s = .next s' → State.SameBut [.isl] s s') ∧
  (∀ (at_ : EccAt) (s s' : State), exec (.eccCorrected at_) s = .next s' → State.SameBut [.regs, .evt] s s') ∧
  (∀ (item : Nat) (ents : List JEntry) (s s' : State), exec (.standbyTableCopy item ents) s = .next s' → State.SameBut [.regs, .setup, .win, .isl, .table, .rules, .bal, .camp, .plc, .rf, .relay, .pair, .jr, .sec, .arch, .evt, .out] s s') ∧
  (∀  (s s' : State), exec .copyComplete s = .next s' → State.SameBut [.regs, .pair, .host, .out] s s') ∧
  (∀ (path : Nat) (s s' : State), exec (.heartbeatSend path) s = .next s' → State.SameBut [.regs, .eth, .pair, .host, .out, .draws] s s') ∧
  (∀  (s s' : State), exec .actInQuiet s = .next s' → State.SameBut [.regs, .table, .rules, .bal, .camp, .plc, .rf, .eth, .relay, .tim, .pair, .jr, .host, .sec, .evt, .out, .draws] s s') ∧
  (∀  (s s' : State), exec .actInEdge s = .next s' → State.SameBut [.regs, .table, .pipe, .rules, .bal, .camp, .plc, .rf, .eth, .relay, .tim, .pair, .jr, .host, .sec, .evt, .out, .draws] s s') ∧
  (∀  (s s' : State), exec .claimFlashWritten s = .next s' → State.SameBut [.regs, .rf, .eth, .relay, .pair, .jr, .host, .out, .draws] s s') ∧
  (∀  (s s' : State), exec .pairWatchdogExpiry s = .next s' → State.SameBut [.regs, .table, .pipe, .rules, .plc, .rf, .eth, .relay, .pair, .jr, .host, .evt, .out] s s') ∧
  (∀  (s s' : State), exec .seekWaitExpiry s = .next s' → State.SameBut [.regs, .table, .rules, .bal, .camp, .plc, .rf, .eth, .relay, .tim, .pair, .jr, .host, .sec, .evt, .out, .draws] s s') ∧
  (∀  (s s' : State), exec .fencedExpiry s = .next s' → State.SameBut [.regs, .table, .rules, .bal, .camp, .plc, .rf, .eth, .relay, .tim, .pair, .jr, .host, .sec, .evt, .out, .draws] s s') ∧
  (∀  (s s' : State), exec .journalBatchClose s = .next s' → State.SameBut [.jr, .out] s s') ∧
  (∀ (num : Nat) (mark : Nat) (formOk : Bool) (ents : List JEntry) (s s' : State), exec (.journalBatchRx num mark formOk ents) s = .next s' → State.SameBut [.regs, .setup, .win, .isl, .table, .rules, .bal, .camp, .plc, .rf, .eth, .relay, .tim, .pair, .jr, .host, .sec, .arch, .evt, .out, .draws] s s') ∧
  (∀  (s s' : State), exec .swapHandover s = .next s' → State.SameBut [.regs, .eth, .relay, .pair, .jr, .host, .out, .draws] s s') ∧
  (∀  (s s' : State), exec .swapDrainExpiry s = .next s' → State.SameBut [.deferred, .regs, .rf, .eth, .relay, .pair, .host, .evt, .out, .draws] s s') ∧
  (∀  (s s' : State), exec .scheduledSwapDue s = .next s' → State.SameBut [.regs, .rf, .eth, .relay, .pair, .host, .evt, .out, .draws] s s') ∧
  (∀ (last : Bool) (s s' : State), exec (.proofExpiry last) s = .next s' → State.SameBut [.regs, .boot, .pair, .jr] s s') ∧
  (∀ (x0 : List (List Int)) (x1 : List (List Int)) (s s' : State), exec (.meaSecondEnd x0 x1) s = .next s' → State.SameBut [.regs, .win, .bal, .relay, .jr, .mea, .evt, .draws] s s') ∧
  (∀  (s s' : State), exec .meaMinuteEnd s = .next s' → State.SameBut [.regs, .win, .bal, .relay, .jr, .mea, .evt] s s') ∧
  (∀ (head : Nat) (phase : Nat) (codes : List Int) (s s' : State), exec (.meaHalfCycleRms head phase codes) s = .next s' → State.SameBut [.regs, .mea, .evt, .draws] s s') ∧
  (∀ (slot : Nat) (s s' : State), exec (.modulePresenceHigh slot) s = .next s' → State.SameBut [.mea] s s') ∧
  (∀ (slot : Nat) (m : ModRecord) (s s' : State), exec (.modulePresenceDebounce slot m) s = .next s' → State.SameBut [.regs, .plc, .rf, .mea, .evt] s s') ∧
  (∀  (s s' : State), exec .eventAccept s = .next s' → State.SameBut [.regs, .jr, .host, .evt, .out] s s') ∧
  (∀  (s s' : State), exec .eventArchiveWrite s = .next s' → State.SameBut [.evt] s s') ∧
  (∀  (s s' : State), exec .evtBucketRefill s = .next s' → State.SameBut [.evt] s s') ∧
  (∀ (level : Nat) (s s' : State), exec (.rateWindowBoundary level) s = .next s' → State.SameBut [.win, .bal, .camp, .plc, .evt] s s') ∧
  (∀ (ch : Nat) (v : Int) (s s' : State), exec (.monSample ch v) s = .next s' → State.SameBut [.regs, .host, .mon, .evt, .out] s s') ∧
  (∀  (s s' : State), exec .archiveFlushExpiry s = .next s' → State.SameBut [.regs, .arch] s s') ∧
  (∀  (s s' : State), exec .pageProgramComplete s = .next s' → State.SameBut [.regs, .host, .arch, .out] s s') ∧
  (∀ (block : Nat) (erase : Bool) (s s' : State), exec (.programEraseFail block erase) s = .next s' → State.SameBut [.regs, .arch] s s') ∧
  (∀  (s s' : State), exec .blockCollection s = .next s' → State.SameBut [.regs, .arch] s s') ∧
  (∀  (s s' : State), exec .wearLevelMove s = .next s' → State.SameBut [.regs, .win, .arch] s s') ∧
  (∀  (s s' : State), exec .thermalAgeTick s = .next s' → State.SameBut [.arch] s s') ∧
  (∀  (s s' : State), exec .retentionScan s = .next s' → State.SameBut [.regs, .arch] s s') ∧
  (∀ (scan : MountScan) (s s' : State), exec (.archiveMount scan) s = .next s' → State.SameBut [.regs, .win, .camp, .relay, .jr, .arch, .evt] s s') ∧
  (∀  (s s' : State), exec .overflowWriteback s = .next s' → State.SameBut [.arch] s s') ∧
  (∀  (s s' : State), exec .tamperFall s = .next s' → State.SameBut [.regs, .boot, .pipe, .plc, .rf, .sec, .evt] s s') ∧
  (∀  (s s' : State), exec .wakePinFall s = .next s' → State.SameBut [.isl, .boot] s s') ∧
  (∀  (s s' : State), exec .bkpAlarm s = .next s' → State.SameBut [.boot] s s') ∧
  (∀ (mv : Nat) (s s' : State), exec (.vbatLow mv) s = .next s' → State.SameBut [.regs, .evt] s s') ∧
  (∀  (s s' : State), exec .bkpSecondTick s = .next s' → State.SameBut [.regs] s s') ∧
  (∀ (width : Nat) (speed : Nat) (s s' : State), exec (.pcieLinkUp width speed) s = .next s' → State.SameBut [.host] s s') ∧
  (∀ (slot : Nat) (s s' : State), exec (.modulePresenceLow slot) s = .next s' → State.SameBut [.mea] s s') ∧
  (∀  (s s' : State), exec .archFormatComplete s = .next s' → State.SameBut [.regs, .camp, .eth, .relay, .jr, .host, .arch, .evt, .out] s s')
end

