-- ==== Sys2Proof/Laws/Kv.lean ====
section
/-!
SUPPORT. Sys2Proof/Laws/Kv.lean: laws of keyed collections: what a read gives after a write, and that every operation keeps the one
form, keys strictly rising.
-/
namespace Sys2Proof.Machine

theorem Kv.sortedFrom_mono {α : Type} {a b : Nat} (h : a ≤ b) : ∀ {m : Kv α}, Kv.sortedFrom b m = true → Kv.sortedFrom a m = true
  | [], _ => rfl
  | (k, _) :: t, hs => by
    simp only [Kv.sortedFrom, Bool.and_eq_true, decide_eq_true_eq] at hs ⊢
    exact ⟨Nat.le_trans h hs.1, hs.2⟩

theorem Kv.sortedFrom_put {α : Type} (k : Nat) (v : α) : ∀ {m : Kv α} {lo : Nat}, lo ≤ k → Kv.sortedFrom lo m = true →
    Kv.sortedFrom lo (Kv.put k v m) = true
  | [], lo, h, _ => by simp [Kv.put, Kv.sortedFrom, h]
  | (j, w) :: t, lo, h, hs => by
    simp only [Kv.sortedFrom, Bool.and_eq_true, decide_eq_true_eq] at hs
    unfold Kv.put
    split
    · simp only [Kv.sortedFrom, Bool.and_eq_true, decide_eq_true_eq]; exact ⟨h, ‹k < j›, hs.2⟩
    · split
      · subst k; simp only [Kv.sortedFrom, Bool.and_eq_true, decide_eq_true_eq]; exact hs
      · simp only [Kv.sortedFrom, Bool.and_eq_true, decide_eq_true_eq]
        exact ⟨hs.1, Kv.sortedFrom_put k v (by omega) hs.2⟩

theorem Kv.sortedFrom_del {α : Type} (k : Nat) : ∀ {m : Kv α} {lo : Nat}, Kv.sortedFrom lo m = true → Kv.sortedFrom lo (Kv.del k m) = true
  | [], _, _ => rfl
  | (j, w) :: t, lo, hs => by
    simp only [Kv.sortedFrom, Bool.and_eq_true, decide_eq_true_eq] at hs
    unfold Kv.del
    split
    · simp only [Kv.sortedFrom, Bool.and_eq_true, decide_eq_true_eq]; exact hs
    · split
      · exact Kv.sortedFrom_mono (by omega) hs.2
      · simp only [Kv.sortedFrom, Bool.and_eq_true, decide_eq_true_eq]; exact ⟨hs.1, Kv.sortedFrom_del k hs.2⟩

theorem Kv.sortedFrom_filter {α : Type} (f : Nat × α → Bool) : ∀ {m : Kv α} {lo : Nat}, Kv.sortedFrom lo m = true →
    Kv.sortedFrom lo (m.filter f) = true
  | [], _, _ => rfl
  | (j, w) :: t, lo, hs => by
    simp only [Kv.sortedFrom, Bool.and_eq_true, decide_eq_true_eq] at hs
    have := Kv.sortedFrom_filter f hs.2
    rw [List.filter_cons]
    split
    · simp only [Kv.sortedFrom, Bool.and_eq_true, decide_eq_true_eq]; exact ⟨hs.1, this⟩
    · exact Kv.sortedFrom_mono (by omega) this

/-- Writing keeps the form. -/
theorem Kv.wf_put {α : Type} (k : Nat) (v : α) {m : Kv α} (h : Kv.wf m = true) : Kv.wf (Kv.put k v m) = true :=
  Kv.sortedFrom_put k v (Nat.zero_le k) h

/-- Deleting keeps the form. -/
theorem Kv.wf_del {α : Type} (k : Nat) {m : Kv α} (h : Kv.wf m = true) : Kv.wf (Kv.del k m) = true := Kv.sortedFrom_del k h

/-- Writing with a default keeps the form. -/
theorem Kv.wf_putOr {α : Type} [DecidableEq α] (d : α) (k : Nat) (v : α) {m : Kv α} (h : Kv.wf m = true) :
    Kv.wf (Kv.putOr d k v m) = true := by
  unfold Kv.putOr; split
  · exact Kv.wf_del k h
  · exact Kv.wf_put k v h

/-- Filtering keeps the form. -/
theorem Kv.wf_filter {α : Type} (f : Nat × α → Bool) {m : Kv α} (h : Kv.wf m = true) : Kv.wf (m.filter f) = true :=
  Kv.sortedFrom_filter f h

/-! ## Reads after writes -/

/-- A read of the key just written. -/
@[simp] theorem Kv.get?_put_same {α : Type} (k : Nat) (v : α) : ∀ m : Kv α, Kv.get? k (Kv.put k v m) = some v
  | [] => by simp [Kv.put, Kv.get?]
  | (j, w) :: t => by
    unfold Kv.put; split
    · simp [Kv.get?]
    · split
      · simp [Kv.get?]
      · simp only [Kv.get?]; rw [if_neg ‹¬k = j›, if_neg ‹¬k < j›]; exact Kv.get?_put_same k v t

/-- A read of another key. -/
theorem Kv.get?_put_ne {α : Type} {j k : Nat} (v : α) (h : j ≠ k) : ∀ {m : Kv α}, Kv.get? j (Kv.put k v m) = Kv.get? j m
  | [] => by simp only [Kv.put, Kv.get?]; split <;> simp_all
  | (i, w) :: t => by
    unfold Kv.put
    split
    · rename_i h1
      simp only [Kv.get?]
      rw [if_neg h]
      by_cases hjk : j < k
      · rw [if_pos hjk, if_neg (by omega), if_pos (by omega)]
      · rw [if_neg hjk]
    · split
      · rename_i h1 h2
        subst h2
        simp only [Kv.get?]
        rw [if_neg h, if_neg h]
      · simp only [Kv.get?]
        rw [Kv.get?_put_ne v h]

theorem Kv.get?_below {α : Type} {k : Nat} : ∀ {m : Kv α} {lo : Nat}, Kv.sortedFrom lo m = true → k < lo → Kv.get? k m = none
  | [], _, _, _ => rfl
  | (j, w) :: t, lo, hs, h => by
    simp only [Kv.sortedFrom, Bool.and_eq_true, decide_eq_true_eq] at hs
    simp only [Kv.get?]
    rw [if_neg (by omega), if_pos (by omega)]

/-- A read of the key just deleted. -/
theorem Kv.get?_del_same {α : Type} (k : Nat) : ∀ {m : Kv α} {lo : Nat}, Kv.sortedFrom lo m = true → Kv.get? k (Kv.del k m) = none
  | [], _, _ => rfl
  | (j, w) :: t, lo, hs => by
    simp only [Kv.sortedFrom, Bool.and_eq_true, decide_eq_true_eq] at hs
    unfold Kv.del
    split
    · simp only [Kv.get?]; rw [if_neg (by omega), if_pos ‹_›]
    · split
      · exact Kv.get?_below hs.2 (by omega)
      · simp only [Kv.get?]; rw [if_neg ‹_›, if_neg ‹_›]; exact Kv.get?_del_same k hs.2

theorem Kv.get?_del_ne {α : Type} {j k : Nat} (h : j ≠ k) : ∀ {m : Kv α} {lo : Nat}, Kv.sortedFrom lo m = true →
    Kv.get? j (Kv.del k m) = Kv.get? j m
  | [], _, _ => rfl
  | (i, w) :: t, lo, hs => by
    simp only [Kv.sortedFrom, Bool.and_eq_true, decide_eq_true_eq] at hs
    unfold Kv.del
    split
    · rfl
    · split
      · subst k
        simp only [Kv.get?]
        rw [if_neg h]
        by_cases hj : j < i
        · rw [if_pos hj]; exact Kv.get?_below hs.2 (by omega)
        · rw [if_neg hj]
      · simp only [Kv.get?]; rw [Kv.get?_del_ne h hs.2]

/-- A default read of the key just written with a default. -/
theorem Kv.getD_putOr_same {α : Type} [DecidableEq α] (d : α) (k : Nat) (v : α) {m : Kv α} (h : Kv.wf m = true) :
    (Kv.putOr d k v m).getD k d = v := by
  unfold Kv.putOr Kv.getD; split
  · rw [Kv.get?_del_same k h]; simp_all
  · simp

/-- A default read of another key. -/
theorem Kv.getD_putOr_ne {α : Type} [DecidableEq α] (d e : α) {j k : Nat} (v : α) {m : Kv α} (h : Kv.wf m = true) (hne : j ≠ k) :
    (Kv.putOr d k v m).getD j e = m.getD j e := by
  unfold Kv.putOr Kv.getD; split
  · rw [Kv.get?_del_ne hne h]
  · rw [Kv.get?_put_ne v hne]

/-! ## Members -/

/-- What a collection lists after a write. -/
theorem Kv.mem_put {α : Type} (k : Nat) (v : α) : ∀ {m : Kv α} {p : Nat × α}, p ∈ Kv.put k v m → p = (k, v) ∨ p ∈ m
  | [], p, h => by simp only [Kv.put, List.mem_singleton] at h; exact .inl h
  | (j, w) :: t, p, h => by
    unfold Kv.put at h
    split at h
    · simpa using h
    · split at h
      · rcases List.mem_cons.mp h with h | h
        · exact .inl h
        · exact .inr (List.mem_cons_of_mem _ h)
      · rcases List.mem_cons.mp h with h | h
        · exact .inr (by simp [h])
        · rcases Kv.mem_put k v h with h | h
          · exact .inl h
          · exact .inr (List.mem_cons_of_mem _ h)

/-- What a collection lists after a deletion. -/
theorem Kv.mem_del {α : Type} (k : Nat) : ∀ {m : Kv α} {p : Nat × α}, p ∈ Kv.del k m → p ∈ m
  | [], _, h => by simp [Kv.del] at h
  | (j, w) :: t, p, h => by
    unfold Kv.del at h
    split at h
    · exact h
    · split at h
      · exact List.mem_cons_of_mem _ h
      · rcases List.mem_cons.mp h with h | h
        · simp [h]
        · exact List.mem_cons_of_mem _ (Kv.mem_del k h)

/-! ## More operations that keep the form -/

theorem Kv.wf_putOpt {α : Type} (k : Nat) (v : Option α) {m : Kv α} (h : Kv.wf m = true) : Kv.wf (putOpt k v m) = true := by
  cases v with
  | none => exact Kv.wf_del k h
  | some x => exact Kv.wf_put k x h

theorem Kv.sortedFrom_map {α : Type} (f : Nat × α → Nat × α) (hf : ∀ p, (f p).1 = p.1) : ∀ {m : Kv α} {lo : Nat},
    Kv.sortedFrom lo m = true → Kv.sortedFrom lo (m.map f) = true
  | [], _, _ => rfl
  | (j, w) :: t, lo, hs => by
    simp only [Kv.sortedFrom, Bool.and_eq_true, decide_eq_true_eq] at hs
    have e : f (j, w) = (j, (f (j, w)).2) := Prod.ext (hf (j, w)) rfl
    rw [List.map_cons, e]
    simp only [Kv.sortedFrom, Bool.and_eq_true, decide_eq_true_eq]
    exact ⟨hs.1, Kv.sortedFrom_map f hf hs.2⟩

/-- A change of the values keeps the keys. -/
theorem Kv.wf_map {α : Type} (f : Nat × α → Nat × α) {m : Kv α} (h : Kv.wf m = true) (hf : ∀ p, (f p).1 = p.1) :
    Kv.wf (m.map f) = true := Kv.sortedFrom_map f hf h

/-- Values changed under some keys, one after another. -/
theorem Kv.wf_foldl_upd {α : Type} (c : Nat → Bool) (d : α) (f : α → α) : ∀ (l : List Nat) {m : Kv α}, Kv.wf m = true →
    Kv.wf (l.foldl (fun m q => if c q then Kv.upd q d f m else m) m) = true
  | [], _, h => h
  | q :: l, m, h => by
    rw [List.foldl_cons]
    refine Kv.wf_foldl_upd c d f l ?_
    split
    · exact Kv.wf_put _ _ h
    · exact h

theorem Kv.wf_foldl_put {α : Type} : ∀ (l : List (Nat × α)) {m : Kv α}, Kv.wf m = true →
    Kv.wf (l.foldl (fun m x => Kv.put x.1 x.2 m) m) = true
  | [], _, h => h
  | x :: l, m, h => by rw [List.foldl_cons]; exact Kv.wf_foldl_put l (Kv.wf_put _ _ h)

/-- A list of numbered items becomes a collection in its form. -/
theorem wf_toKv {α : Type} (l : List (Nat × α)) : Kv.wf (toKv l) = true := Kv.wf_foldl_put l rfl

end Sys2Proof.Machine
end

