-- ==== Sys2Proof/Laws/Changes.lean ====
section
/-!
SUPPORT. Sys2Proof/Laws/Changes.lean: the relation that says what an operation may change: all parts of the state but those listed are
as they were, the register file keeps its one form, and no token is lost or made. One lemma for each update of a field, and the
rules that put operations together.
-/
namespace Sys2Proof.Machine

/-- `t` comes from `s` by changing only the parts of `W`; the register file and the maps keep their form and the pool its tokens; what was sent stays
sent, and no free draw is made twice. -/
structure Changes (W : List Part) (s t : State) : Prop where
  same : State.SameBut W s t
  regsOk : s.RegsOk → t.RegsOk
  poolOk : s.PoolOk → t.PoolOk
  mapsOk : s.MapsOk → t.MapsOk
  sent : ∃ l, t.out = l ++ s.out
  fresh : s.draws ≤ t.draws

/-- Are all parts of `V` in `W`? -/
def Part.sub (V W : List Part) : Bool := V.all W.contains

theorem Part.mem_of_sub {V W : List Part} (h : Part.sub V W = true) {p : Part} (hp : p ∈ V) : p ∈ W := by
  simpa using (List.all_eq_true.mp h) p hp

namespace Changes

theorem refl {W : List Part} {s : State} : Changes W s s := ⟨fun p _ => by cases p <;> first | rfl | exact fun _ _ _ => rfl, id, id, id, ⟨[], rfl⟩, Nat.le_refl _⟩

theorem mono {V W : List Part} {s t : State} (h : Changes V s t) (hs : Part.sub V W = true) : Changes W s t :=
  ⟨fun p hp => h.same p fun hV => hp (Part.mem_of_sub hs hV), h.regsOk, h.poolOk, h.mapsOk, h.sent, h.fresh⟩

/-- One more operation, which changes parts of `V`. -/
theorem step {V W : List Part} {s t u : State} (h2 : Changes V t u) (h1 : Changes W s t) (hs : Part.sub V W = true) :
    Changes W s u := by
  refine ⟨fun p hp => ?_, fun h => h2.regsOk (h1.regsOk h), fun h => h2.poolOk (h1.poolOk h), fun h => h2.mapsOk (h1.mapsOk h), ?_, Nat.le_trans h1.fresh h2.fresh⟩
  case refine_2 =>
    obtain ⟨l, hl⟩ := h1.sent
    obtain ⟨m, hm⟩ := h2.sent
    exact ⟨m ++ l, by rw [hm, hl, List.append_assoc]⟩
  have a := h1.same p hp
  have b := h2.same p fun hV => hp (Part.mem_of_sub hs hV)
  cases p <;> first
    | exact Eq.trans b a
    | exact fun h off ho => (b (h1.regsOk h) off ho).trans (a h off ho)

theorem ite {W : List Part} {s a b : State} {c : Prop} [Decidable c] (h1 : Changes W s a) (h2 : Changes W s b) :
    Changes W s (if c then a else b) := by split <;> assumption

/-- A fold of operations. -/
theorem foldl {W : List Part} {s s0 : State} {α : Type} {f : State → α → State} {l : List α}
    (hf : ∀ t x, Changes W s t → Changes W s (f t x)) (h : Changes W s s0) : Changes W s (l.foldl f s0) := by
  induction l generalizing s0 with
  | nil => exact h
  | cons x l ih => exact ih (hf _ _ h)

/-- A fold of operations that carries something beside the state. -/
theorem foldl_snd {W : List Part} {s : State} {α β : Type} {f : β × State → α → β × State} {l : List α} {p : β × State}
    (hf : ∀ q x, Changes W s q.2 → Changes W s (f q x).2) (h : Changes W s p.2) : Changes W s (l.foldl f p).2 := by
  induction l generalizing p with
  | nil => exact h
  | cons x l ih => exact ih (hf _ _ h)

theorem foldl_fst {W : List Part} {s : State} {α β : Type} {f : State × β → α → State × β} {l : List α} {p : State × β}
    (hf : ∀ q x, Changes W s q.1 → Changes W s (f q x).1) (h : Changes W s p.1) : Changes W s (l.foldl f p).1 := by
  induction l generalizing p with
  | nil => exact h
  | cons x l ih => exact ih (hf _ _ h)

/-- The state of a pair that a match took apart. -/
theorem of_fst {W : List Part} {s t : State} {β : Type} {p : State × β} {x : β} (h : p = (t, x)) (h' : Changes W s p.1) :
    Changes W s t := by subst h; exact h'
theorem of_snd {W : List Part} {s t : State} {β : Type} {p : β × State} {x : β} (h : p = (x, t)) (h' : Changes W s p.2) :
    Changes W s t := by subst h; exact h'
theorem of_trd {W : List Part} {s t : State} {β γ : Type} {p : β × γ × State} {x : β} {y : γ} (h : p = (x, y, t))
    (h' : Changes W s p.2.2) : Changes W s t := by subst h; exact h'

theorem fst_ite {W : List Part} {s : State} {β : Type} {a b : State × β} {c : Prop} [Decidable c] (h1 : Changes W s a.1)
    (h2 : Changes W s b.1) : Changes W s (if c then a else b).1 := by split <;> assumption
theorem snd_ite {W : List Part} {s : State} {β : Type} {a b : β × State} {c : Prop} [Decidable c] (h1 : Changes W s a.2)
    (h2 : Changes W s b.2) : Changes W s (if c then a else b).2 := by split <;> assumption

theorem trd_ite {W : List Part} {s : State} {β γ : Type} {a b : β × γ × State} {c : Prop} [Decidable c] (h1 : Changes W s a.2.2)
    (h2 : Changes W s b.2.2) : Changes W s (if c then a else b).2.2 := by split <;> assumption

theorem getD {W : List Part} {s d : State} {o : Option State} (h : ∀ t, o = some t → Changes W s t) (hd : Changes W s d) :
    Changes W s (o.getD d) := by
  cases o with
  | none => exact hd
  | some t => exact h t rfl

/-! ## One field -/

theorem set_pending (s : State) (v) : Changes [.pending] s { s with pending := v } :=
  ⟨fun p hp => by cases p <;> first | rfl | (simp at hp; done) | exact fun _ _ _ => rfl, id, id, id, ⟨[], rfl⟩, Nat.le_refl _⟩
theorem set_deferred (s : State) (v) : Changes [.deferred] s { s with deferred := v } :=
  ⟨fun p hp => by cases p <;> first | rfl | (simp at hp; done) | exact fun _ _ _ => rfl, id, id, id, ⟨[], rfl⟩, Nat.le_refl _⟩
theorem set_stalled (s : State) (v) : Changes [.stalled] s { s with stalled := v } :=
  ⟨fun p hp => by cases p <;> first | rfl | (simp at hp; done) | exact fun _ _ _ => rfl, id, id, id, ⟨[], rfl⟩, Nat.le_refl _⟩
theorem set_lat (s : State) (v) (hv : Kv.wf s.lat = true → Kv.wf v = true) : Changes [.lat] s { s with lat := v } :=
  ⟨fun p hp => by cases p <;> first | rfl | (simp at hp; done) | exact fun _ _ _ => rfl, id, id, fun ⟨a, b, c, d, e⟩ => ⟨hv a, b, c, d, e⟩, ⟨[], rfl⟩, Nat.le_refl _⟩
theorem set_win (s : State) (v) : Changes [.win] s { s with win := v } :=
  ⟨fun p hp => by cases p <;> first | rfl | (simp at hp; done) | exact fun _ _ _ => rfl, id, id, id, ⟨[], rfl⟩, Nat.le_refl _⟩
theorem set_isl (s : State) (v) (hv : Kv.wf s.isl = true → Kv.wf v = true) : Changes [.isl] s { s with isl := v } :=
  ⟨fun p hp => by cases p <;> first | rfl | (simp at hp; done) | exact fun _ _ _ => rfl, id, id, fun ⟨a, b, c, d, e⟩ => ⟨a, hv b, c, d, e⟩, ⟨[], rfl⟩, Nat.le_refl _⟩
theorem set_boot (s : State) (v) : Changes [.boot] s { s with boot := v } :=
  ⟨fun p hp => by cases p <;> first | rfl | (simp at hp; done) | exact fun _ _ _ => rfl, id, id, id, ⟨[], rfl⟩, Nat.le_refl _⟩
theorem set_clusters (s : State) (v) : Changes [.clusters] s { s with clusters := v } :=
  ⟨fun p hp => by cases p <;> first | rfl | (simp at hp; done) | exact fun _ _ _ => rfl, id, id, id, ⟨[], rfl⟩, Nat.le_refl _⟩
theorem set_table (s : State) (v) : Changes [.table] s { s with table := v } :=
  ⟨fun p hp => by cases p <;> first | rfl | (simp at hp; done) | exact fun _ _ _ => rfl, id, id, id, ⟨[], rfl⟩, Nat.le_refl _⟩
theorem set_rules (s : State) (v) : Changes [.rules] s { s with rules := v } :=
  ⟨fun p hp => by cases p <;> first | rfl | (simp at hp; done) | exact fun _ _ _ => rfl, id, id, id, ⟨[], rfl⟩, Nat.le_refl _⟩
theorem set_bal (s : State) (v) : Changes [.bal] s { s with bal := v } :=
  ⟨fun p hp => by cases p <;> first | rfl | (simp at hp; done) | exact fun _ _ _ => rfl, id, id, id, ⟨[], rfl⟩, Nat.le_refl _⟩
theorem set_camp (s : State) (v) : Changes [.camp] s { s with camp := v } :=
  ⟨fun p hp => by cases p <;> first | rfl | (simp at hp; done) | exact fun _ _ _ => rfl, id, id, id, ⟨[], rfl⟩, Nat.le_refl _⟩
theorem set_plc (s : State) (v) : Changes [.plc] s { s with plc := v } :=
  ⟨fun p hp => by cases p <;> first | rfl | (simp at hp; done) | exact fun _ _ _ => rfl, id, id, id, ⟨[], rfl⟩, Nat.le_refl _⟩
theorem set_rf (s : State) (v) : Changes [.rf] s { s with rf := v } :=
  ⟨fun p hp => by cases p <;> first | rfl | (simp at hp; done) | exact fun _ _ _ => rfl, id, id, id, ⟨[], rfl⟩, Nat.le_refl _⟩
theorem set_eth (s : State) (v) (hv : Kv.wf s.eth = true → Kv.wf v = true) : Changes [.eth] s { s with eth := v } :=
  ⟨fun p hp => by cases p <;> first | rfl | (simp at hp; done) | exact fun _ _ _ => rfl, id, id, fun ⟨a, b, c, d, e⟩ => ⟨a, b, hv c, d, e⟩, ⟨[], rfl⟩, Nat.le_refl _⟩
theorem set_relay (s : State) (v) : Changes [.relay] s { s with relay := v } :=
  ⟨fun p hp => by cases p <;> first | rfl | (simp at hp; done) | exact fun _ _ _ => rfl, id, id, id, ⟨[], rfl⟩, Nat.le_refl _⟩
theorem set_tim (s : State) (v) : Changes [.tim] s { s with tim := v } :=
  ⟨fun p hp => by cases p <;> first | rfl | (simp at hp; done) | exact fun _ _ _ => rfl, id, id, id, ⟨[], rfl⟩, Nat.le_refl _⟩
theorem set_pair (s : State) (v) : Changes [.pair] s { s with pair := v } :=
  ⟨fun p hp => by cases p <;> first | rfl | (simp at hp; done) | exact fun _ _ _ => rfl, id, id, id, ⟨[], rfl⟩, Nat.le_refl _⟩
theorem set_jr (s : State) (v) : Changes [.jr] s { s with jr := v } :=
  ⟨fun p hp => by cases p <;> first | rfl | (simp at hp; done) | exact fun _ _ _ => rfl, id, id, id, ⟨[], rfl⟩, Nat.le_refl _⟩
theorem set_host (s : State) (v) : Changes [.host] s { s with host := v } :=
  ⟨fun p hp => by cases p <;> first | rfl | (simp at hp; done) | exact fun _ _ _ => rfl, id, id, id, ⟨[], rfl⟩, Nat.le_refl _⟩
theorem set_sec (s : State) (v) (hv : Kv.wf s.sec.slots = true → Kv.wf v.slots = true) : Changes [.sec] s { s with sec := v } :=
  ⟨fun p hp => by cases p <;> first | rfl | (simp at hp; done) | exact fun _ _ _ => rfl, id, id, fun ⟨a, b, c, d, e⟩ => ⟨a, b, c, d, hv e⟩, ⟨[], rfl⟩, Nat.le_refl _⟩
theorem set_arch (s : State) (v) : Changes [.arch] s { s with arch := v } :=
  ⟨fun p hp => by cases p <;> first | rfl | (simp at hp; done) | exact fun _ _ _ => rfl, id, id, id, ⟨[], rfl⟩, Nat.le_refl _⟩
theorem set_mea (s : State) (v) : Changes [.mea] s { s with mea := v } :=
  ⟨fun p hp => by cases p <;> first | rfl | (simp at hp; done) | exact fun _ _ _ => rfl, id, id, id, ⟨[], rfl⟩, Nat.le_refl _⟩
theorem set_queues (s : State) (v) (hv : Kv.wf s.queues = true → Kv.wf v = true) : Changes [.queues] s { s with queues := v } :=
  ⟨fun p hp => by cases p <;> first | rfl | (simp at hp; done) | exact fun _ _ _ => rfl, id, id, fun ⟨a, b, c, d, e⟩ => ⟨a, b, c, hv d, e⟩, ⟨[], rfl⟩, Nat.le_refl _⟩
theorem set_mon (s : State) (v) : Changes [.mon] s { s with mon := v } :=
  ⟨fun p hp => by cases p <;> first | rfl | (simp at hp; done) | exact fun _ _ _ => rfl, id, id, id, ⟨[], rfl⟩, Nat.le_refl _⟩
theorem set_evt (s : State) (v) : Changes [.evt] s { s with evt := v } :=
  ⟨fun p hp => by cases p <;> first | rfl | (simp at hp; done) | exact fun _ _ _ => rfl, id, id, id, ⟨[], rfl⟩, Nat.le_refl _⟩

/-! ## Several fields -/

theorem set_win_bal_camp_plc_evt (s : State) (winv) (balv) (campv) (plcv) (evtv) :
    Changes [.win, .bal, .camp, .plc, .evt] s { s with win := winv, bal := balv, camp := campv, plc := plcv, evt := evtv } :=
  ⟨fun p hp => by cases p <;> first | rfl | (simp at hp; done) | exact fun _ _ _ => rfl, id, id, id, ⟨[], rfl⟩, Nat.le_refl _⟩
theorem set_camp_relay_evt (s : State) (campv) (relayv) (evtv) :
    Changes [.camp, .relay, .evt] s { s with camp := campv, relay := relayv, evt := evtv } :=
  ⟨fun p hp => by cases p <;> first | rfl | (simp at hp; done) | exact fun _ _ _ => rfl, id, id, id, ⟨[], rfl⟩, Nat.le_refl _⟩
theorem set_table_rules_bal_camp (s : State) (tablev) (rulesv) (balv) (campv) :
    Changes [.table, .rules, .bal, .camp] s { s with table := tablev, rules := rulesv, bal := balv, camp := campv } :=
  ⟨fun p hp => by cases p <;> first | rfl | (simp at hp; done) | exact fun _ _ _ => rfl, id, id, id, ⟨[], rfl⟩, Nat.le_refl _⟩
theorem set_plc_rf (s : State) (plcv) (rfv) :
    Changes [.plc, .rf] s { s with plc := plcv, rf := rfv } :=
  ⟨fun p hp => by cases p <;> first | rfl | (simp at hp; done) | exact fun _ _ _ => rfl, id, id, id, ⟨[], rfl⟩, Nat.le_refl _⟩
theorem set_deferred_stalled_rules_bal_pair_jr_host_arch_evt (s : State) (deferredv) (stalledv) (rulesv) (balv) (pairv) (jrv) (hostv) (archv) (evtv) :
    Changes [.deferred, .stalled, .rules, .bal, .pair, .jr, .host, .arch, .evt] s { s with deferred := deferredv, stalled := stalledv, rules := rulesv, bal := balv, pair := pairv, jr := jrv, host := hostv, arch := archv, evt := evtv } :=
  ⟨fun p hp => by cases p <;> first | rfl | (simp at hp; done) | exact fun _ _ _ => rfl, id, id, id, ⟨[], rfl⟩, Nat.le_refl _⟩
theorem set_table_pipe_camp (s : State) (tablev) (campv) (v : Pipe) (h : s.pipe.free + s.pipe.returning + s.pipe.flight.length = v.free + v.returning + v.flight.length) :
    Changes [.table, .pipe, .camp] s { s with table := tablev, pipe := v, camp := campv } :=
  ⟨fun p hp => by cases p <;> first | rfl | (simp at hp; done) | exact fun _ _ _ => rfl, id, fun hp => by simp only [State.PoolOk, State.tokens] at hp ⊢; omega, id, ⟨[], rfl⟩, Nat.le_refl _⟩
theorem set_boot_clusters_table_rules_sec (s : State) (bootv) (clustersv) (tablev) (rulesv) (secv) (hv : Kv.wf s.sec.slots = true → Kv.wf secv.slots = true) :
    Changes [.boot, .clusters, .table, .rules, .sec] s { s with boot := bootv, clusters := clustersv, table := tablev, rules := rulesv, sec := secv } :=
  ⟨fun p hp => by cases p <;> first | rfl | (simp at hp; done) | exact fun _ _ _ => rfl, id, id, fun ⟨a, b, c, d, e⟩ => ⟨a, b, c, d, hv e⟩, ⟨[], rfl⟩, Nat.le_refl _⟩
theorem set_table_pipe_bal_camp_sec (s : State) (tablev) (balv) (campv) (secv) (v : Pipe) (h : s.pipe.free + s.pipe.returning + s.pipe.flight.length = v.free + v.returning + v.flight.length) (hv : Kv.wf s.sec.slots = true → Kv.wf secv.slots = true) :
    Changes [.table, .pipe, .bal, .camp, .sec] s { s with table := tablev, pipe := v, bal := balv, camp := campv, sec := secv } :=
  ⟨fun p hp => by cases p <;> first | rfl | (simp at hp; done) | exact fun _ _ _ => rfl, id, fun hp => by simp only [State.PoolOk, State.tokens] at hp ⊢; omega, fun ⟨a, b, c, d, e⟩ => ⟨a, b, c, d, hv e⟩, ⟨[], rfl⟩, Nat.le_refl _⟩
theorem set_pipe_plc_rf_sec (s : State) (plcv) (rfv) (secv) (v : Pipe) (h : s.pipe.free + s.pipe.returning + s.pipe.flight.length = v.free + v.returning + v.flight.length) (hv : Kv.wf s.sec.slots = true → Kv.wf secv.slots = true) :
    Changes [.pipe, .plc, .rf, .sec] s { s with pipe := v, plc := plcv, rf := rfv, sec := secv } :=
  ⟨fun p hp => by cases p <;> first | rfl | (simp at hp; done) | exact fun _ _ _ => rfl, id, fun hp => by simp only [State.PoolOk, State.tokens] at hp ⊢; omega, fun ⟨a, b, c, d, e⟩ => ⟨a, b, c, d, hv e⟩, ⟨[], rfl⟩, Nat.le_refl _⟩
theorem set_table_sec (s : State) (tablev) (secv) (hv : Kv.wf s.sec.slots = true → Kv.wf secv.slots = true) :
    Changes [.table, .sec] s { s with table := tablev, sec := secv } :=
  ⟨fun p hp => by cases p <;> first | rfl | (simp at hp; done) | exact fun _ _ _ => rfl, id, id, fun ⟨a, b, c, d, e⟩ => ⟨a, b, c, d, hv e⟩, ⟨[], rfl⟩, Nat.le_refl _⟩
theorem set_table_pipe_rules_plc_rf (s : State) (tablev) (rulesv) (plcv) (rfv) (v : Pipe) (h : s.pipe.free + s.pipe.returning + s.pipe.flight.length = v.free + v.returning + v.flight.length) :
    Changes [.table, .pipe, .rules, .plc, .rf] s { s with table := tablev, pipe := v, rules := rulesv, plc := plcv, rf := rfv } :=
  ⟨fun p hp => by cases p <;> first | rfl | (simp at hp; done) | exact fun _ _ _ => rfl, id, fun hp => by simp only [State.PoolOk, State.tokens] at hp ⊢; omega, id, ⟨[], rfl⟩, Nat.le_refl _⟩

/-- Something is sent. -/
theorem emitted (s : State) (o : Out) : Changes [.out] s { s with out := o :: s.out } :=
  ⟨fun p hp => by cases p <;> first | rfl | (simp at hp; done) | exact fun _ _ _ => rfl, id, id, id, ⟨[o], rfl⟩, Nat.le_refl _⟩

/-- A free draw is made. -/
theorem drawn (s : State) : Changes [.draws] s { s with draws := s.draws + 1 } :=
  ⟨fun p hp => by cases p <;> first | rfl | (simp at hp; done) | exact fun _ _ _ => rfl, id, id, id, ⟨[], rfl⟩, Nat.le_succ _⟩

theorem regsOk_put {s : State} (h : s.RegsOk) (off : Nat) (v : W32) : State.RegsOk { s with regs := Kv.putOr (regReset off) off v s.regs } := by
  refine ⟨Kv.wf_putOr _ _ _ h.1, fun p hp => ?_⟩
  simp only [Kv.putOr] at hp
  split at hp
  · exact h.2 p (Kv.mem_del _ hp)
  · rcases Kv.mem_put _ _ hp with hp | hp
    · subst hp; assumption
    · exact h.2 p hp

/-- A register word changes: the register file keeps its form. -/
theorem set_reg_setup (s : State) (off : Nat) (v : W32) :
    Changes [.regs, .setup] s { s with regs := Kv.putOr (regReset off) off v s.regs } :=
  ⟨fun p hp => by cases p <;> first | rfl | (simp at hp; done), fun h => regsOk_put h off v, id, id, ⟨[], rfl⟩, Nat.le_refl _⟩

/-- A register word that holds no settings changes. -/
theorem set_reg (s : State) (off : Nat) (v : W32) (ho : isSetup off = false) :
    Changes [.regs] s { s with regs := Kv.putOr (regReset off) off v s.regs } := by
  refine ⟨fun p hp => ?_, fun h => regsOk_put h off v, id, id, ⟨[], rfl⟩, Nat.le_refl _⟩
  cases p <;> first
    | rfl
    | (simp at hp; done)
    | exact fun h off' ho' => Kv.getD_putOr_ne _ _ _ h.1 (fun e => by rw [e, ho] at ho'; exact absurd ho' (by simp))

/-- Some register words go back to their reset words. -/
theorem filter_regs (s : State) (f : Nat × W32 → Bool) : Changes [.regs, .setup] s { s with regs := s.regs.filter f } :=
  ⟨fun p hp => by cases p <;> first | rfl | (simp at hp; done),
   fun h => ⟨Kv.wf_filter f h.1, fun p hp => h.2 p (List.mem_filter.mp hp).1⟩, id, id, ⟨[], rfl⟩, Nat.le_refl _⟩

/-- The pool changes and keeps its count of tokens. -/
theorem set_pipe (s : State) (v : Pipe) (h : s.pipe.free + s.pipe.returning + s.pipe.flight.length = v.free + v.returning + v.flight.length) :
    Changes [.pipe] s { s with pipe := v } :=
  ⟨fun p hp => by cases p <;> first | rfl | (simp at hp; done) | exact fun _ _ _ => rfl, id, fun hp => by simp only [State.PoolOk, State.tokens] at hp ⊢; omega, id, ⟨[], rfl⟩, Nat.le_refl _⟩

end Changes

end Sys2Proof.Machine
end

