-- ==== Sys2Proof/Laws/ChangesOps.lean ====
section
/-!
SUPPORT. Sys2Proof/Laws/ChangesOps.lean: what each operation may change: registers, events, completions and commands.
-/
namespace Sys2Proof.Machine

theorem ringFree {cq : Bool} {n : Nat} (h : n < 32) : isSetup (if cq then cqCfg n else sqCfg n) = false := by
  have a : ∀ n < 32, isSetup (cqCfg n) = false := by decide
  have b : ∀ n < 32, isSetup (sqCfg n) = false := by decide
  split
  · exact a n h
  · exact b n h
theorem monFree {n : Nat} (h : n < 64) : isSetup (0x15008 + 4 * (n / 32)) = false := by
  have a : ∀ n < 2, isSetup (0x15008 + 4 * n) = false := by decide
  exact a _ (by omega)
theorem engFree {n : Nat} (h : 17 ≤ n) (h' : n ≤ 20) : isSetup (0x1000 * n + 0x40) = false := by
  have a : ∀ n < 4, isSetup (0x1000 * (17 + n) + 0x40) = false := by decide
  have := a (n - 17) (by omega)
  rwa [show 17 + (n - 17) = n by omega] at this
theorem condFree (k : Nat) : isSetup (condCount k) = false := by unfold condCount; (repeat' split) <;> rfl

theorem setReg_setup (off : Nat) (v : W32) (s : State) : Changes [.regs, .setup] s (setReg off v s) := Changes.set_reg_setup s off v
theorem setReg_changes (off : Nat) (v : W32) (s : State) (ho : isSetup off = false) : Changes [.regs] s (setReg off v s) :=
  Changes.set_reg s off v ho

theorem setField_setup (off hi lo v : Nat) (s : State) : Changes [.regs, .setup] s (setField off hi lo v s) := setReg_setup ..
theorem setField_changes (off hi lo v : Nat) (s : State) (ho : isSetup off = false) : Changes [.regs] s (setField off hi lo v s) :=
  setReg_changes _ _ _ ho

theorem countBy_setup (off n : Nat) (s : State) : Changes [.regs, .setup] s (countBy off n s) := setReg_setup ..
theorem countBy_changes (off n : Nat) (s : State) (ho : isSetup off = false) : Changes [.regs] s (countBy off n s) :=
  setReg_changes _ _ _ ho

theorem count_setup (off : Nat) (s : State) : Changes [.regs, .setup] s (count off s) := countBy_setup ..
theorem count_changes (off : Nat) (s : State) (ho : isSetup off = false) : Changes [.regs] s (count off s) := countBy_changes _ _ _ ho

theorem draw_changes (s : State) : Changes [.draws] s (draw s).2 := Changes.drawn s

theorem emit_changes (o : Out) (s : State) : Changes [.out] s (emit o s) := Changes.emitted s o

theorem setIsl_changes (n : Nat) (v : Island) (s : State) : Changes [.isl] s (setIsl n v s) := by
  unfold setIsl
  try dsimp only
  refine .step (Changes.set_isl _ _ (by intro h; first | exact h | rfl | exact Kv.wf_putOr _ _ _ h | exact Kv.wf_putOpt _ _ h | exact Kv.wf_map _ h (fun _ => rfl) | exact Kv.wf_foldl_upd _ _ _ _ h | exact wf_toKv _)) ?_ rfl
  exact .refl

theorem wake_changes (n : Nat) (s : State) : Changes [.isl] s (wake n s) := by
  unfold wake
  try dsimp only
  refine .ite ?_ ?_
  · refine .step (setIsl_changes ..) ?_ rfl
    exact .refl
  · exact .refl

theorem journal_changes (e : JEntry) (s : State) : Changes [.jr] s (journal e s) := by
  unfold journal
  try dsimp only
  refine .ite ?_ ?_
  · refine .step (Changes.set_jr ..) ?_ rfl
    exact .refl
  · exact .refl

theorem setBal_changes (f : BalState → BalState) (s : State) : Changes [.bal] s (setBal f s) := by
  unfold setBal
  try dsimp only
  refine .step (Changes.set_bal ..) ?_ rfl
  exact .refl

theorem putWork_changes (n : Nat) (v : MeterWork) (s : State) : Changes [.bal, .jr] s (putWork n v s) := by
  unfold putWork
  try dsimp only
  refine .step (journal_changes ..) ?_ rfl
  refine .step (setBal_changes ..) ?_ rfl
  exact .refl

theorem msix_changes (v : Nat) (s : State) : Changes [.host, .out] s (msix v s) := by
  unfold msix
  try dsimp only
  refine .ite ?_ ?_
  · exact .refl
  · refine .ite ?_ ?_
    · refine .step (Changes.set_host ..) ?_ rfl
      exact .refl
    · refine .ite ?_ ?_
      · refine .step (emit_changes ..) ?_ rfl
        exact .refl
      · exact .refl

theorem notice_changes (b : Nat) (s : State) : Changes [.regs, .host, .out] s (notice b s) := by
  unfold notice
  try dsimp only
  refine .ite ?_ ?_
  · refine .step (msix_changes ..) ?_ rfl
    refine .step (setField_changes _ _ _ _ _ rfl) ?_ rfl
    exact .refl
  · refine .step (setField_changes _ _ _ _ _ rfl) ?_ rfl
    exact .refl

theorem event_changes (isl : Nat) (code : Nat) (data : Nat) (conts : List (List Byte)) (s : State) : Changes [.evt] s (event isl code data conts s) := by
  unfold event
  try dsimp only
  refine .step (Changes.set_evt ..) ?_ rfl
  exact .refl

theorem secEvent_changes {W : List Part} {s0 s : State} {kind key : Nat} {f : State → State} (hf : ∀ t, Changes W s0 t → Changes W s0 (f t))
    (h : Changes W s0 s) (hw : Part.sub [.win] W = true) : Changes W s0 (secEvent kind key f s) := by
  unfold secEvent
  exact .ite h (hf _ (.step (Changes.set_win ..) h hw))

theorem minuteEvent_changes {W : List Part} {s0 s : State} {kind key : Nat} {f : State → State} (hf : ∀ t, Changes W s0 t → Changes W s0 (f t))
    (h : Changes W s0 s) (hw : Part.sub [.win] W = true) : Changes W s0 (minuteEvent kind key f s) := by
  unfold minuteEvent
  exact .ite h (hf _ (.step (Changes.set_win ..) h hw))

theorem hourEvent_changes {W : List Part} {s0 s : State} {kind key : Nat} {f : State → State} (hf : ∀ t, Changes W s0 t → Changes W s0 (f t))
    (h : Changes W s0 s) (hw : Part.sub [.win] W = true) : Changes W s0 (hourEvent kind key f s) := by
  unfold hourEvent
  exact .ite h (hf _ (.step (Changes.set_win ..) h hw))

theorem endWindows_changes (s : State) : Changes [.win, .bal, .camp, .plc, .evt] s (endWindows s) := by
  unfold endWindows
  try dsimp only
  refine .step (Changes.set_win_bal_camp_plc_evt ..) ?_ rfl
  exact .refl

theorem setQ_changes (q : Nat) (v : QState) (s : State) : Changes [.queues] s (setQ q v s) := by
  unfold setQ
  try dsimp only
  refine .step (Changes.set_queues _ _ (by intro h; first | exact h | rfl | exact Kv.wf_putOr _ _ _ h | exact Kv.wf_putOpt _ _ h | exact Kv.wf_map _ h (fun _ => rfl) | exact Kv.wf_foldl_upd _ _ _ _ h | exact wf_toKv _)) ?_ rfl
  exact .refl

theorem queueOverwrite_changes (q : Nat) (s : State) : Changes [.regs, .win, .pipe, .queues, .evt] s (queueOverwrite q s) := by
  unfold queueOverwrite
  try dsimp only
  split
  · exact .refl
  · refine secEvent_changes (fun _ _ => ?_) ?_ rfl
    · refine .step (event_changes ..) ?_ rfl
      assumption
    · refine .step (countBy_changes _ _ _ rfl) ?_ rfl
      refine .step (Changes.set_pipe _ _ (by first | rfl | (simp; done) | (simp; omega))) ?_ rfl
      refine .step (setQ_changes ..) ?_ rfl
      exact .refl

theorem queueRoom_step (q n k : Nat) (s : State) (ih : ∀ (t : State), Changes [.regs, .win, .pipe, .queues, .evt] t (queueRoom q n k t)) : Changes [.regs, .win, .pipe, .queues, .evt] s (queueRoom q n (k+1) s) := by
  unfold queueRoom
  try dsimp only
  refine .ite ?_ ?_
  · exact .refl
  · refine .step (ih ..) ?_ rfl
    refine .step (queueOverwrite_changes ..) ?_ rfl
    exact .refl

theorem queueRoom_changes (q n k : Nat) (s : State) : Changes [.regs, .win, .pipe, .queues, .evt] s (queueRoom q n k s) := by
  induction k generalizing s with
  | zero => simp only [queueRoom]; exact .refl
  | succ k ih => exact queueRoom_step (ih := fun t => ih (s := t)) ..

theorem queueWrite_changes (q : Nat) (n : Nat) (s : State) : Changes [.regs, .queues] s (queueWrite q n s) := by
  unfold queueWrite
  try dsimp only
  refine .ite ?_ ?_
  · refine .step (count_changes _ _ rfl) ?_ rfl
    refine .step (setQ_changes ..) ?_ rfl
    exact .refl
  · refine .step (setQ_changes ..) ?_ rfl
    exact .refl

theorem queueRead_changes (q : Nat) (n : Nat) (s : State) : Changes [.queues] s (queueRead q n s) := by
  unfold queueRead
  try dsimp only
  refine .step (setQ_changes ..) ?_ rfl
  exact .refl

theorem flushQueue_changes (q : Nat) (s : State) : Changes [.pipe, .queues] s (flushQueue q s) := by
  unfold flushQueue
  try dsimp only
  refine .step (Changes.set_pipe _ _ (by first | rfl | (simp; done) | (simp; omega))) ?_ rfl
  refine .step (setQ_changes ..) ?_ rfl
  exact .refl

theorem ethCount_changes (p : Bool) (i n : Nat) (s : State) : Changes [.regs, .host, .out] s (ethCount p i n s) := by
  unfold ethCount
  have hoff : ∀ i < 48, isSetup (0xB000 + 0x1000 * b2n p + 0x100 + 4 * i) = false := by cases p <;> decide
  have hhalf : ∀ i < 2, isSetup (0xB000 + 0x1000 * b2n p + 0x10 + 4 * i) = false := by cases p <;> decide
  split
  · exact .refl
  · have hc : ∀ v, Changes [.regs, .host, .out] s (setReg (0xB000 + 0x1000 * b2n p + 0x100 + 4 * i) v s) :=
      fun _ => .mono (setReg_changes _ _ _ (hoff i (by omega))) rfl
    have hf : ∀ a b v, Changes [.regs, .host, .out] s (setField (0xB000 + 0x1000 * b2n p + 0x10 + 4 * (i / 32)) a b 1
        (setReg (0xB000 + 0x1000 * b2n p + 0x100 + 4 * i) v s)) :=
      fun _ _ _ => .step (setField_changes _ _ _ _ _ (hhalf (i / 32) (by omega))) (hc _) rfl
    exact .ite (.ite (.step (msix_changes ..) (hf ..) rfl) (hf ..)) (hc _)

theorem setEth_changes (p : Bool) (v : EthState) (s : State) : Changes [.eth] s (setEth p v s) := by
  unfold setEth
  try dsimp only
  refine .step (Changes.set_eth _ _ (by intro h; first | exact h | rfl | exact Kv.wf_putOr _ _ _ h | exact Kv.wf_putOpt _ _ h | exact Kv.wf_map _ h (fun _ => rfl) | exact Kv.wf_foldl_upd _ _ _ _ h | exact wf_toKv _)) ?_ rfl
  exact .refl

theorem leaveLpi_changes (p : Bool) (s : State) : Changes [.regs, .eth, .host, .out] s (leaveLpi p s) := by
  unfold leaveLpi
  try dsimp only
  refine .ite ?_ ?_
  · exact .refl
  · refine .step (ethCount_changes ..) ?_ rfl
    refine .step (setEth_changes ..) ?_ rfl
    exact .refl

theorem ethSend_changes (p : Bool) (prio : Nat) (bytes : Nat) (kind : Nat) (o : Out) (s : State) : Changes [.regs, .eth, .host, .out] s (ethSend p prio bytes kind o s) := by
  unfold ethSend
  try dsimp only
  refine .ite ?_ ?_
  · exact .refl
  · refine .ite ?_ ?_
    · refine .step (ethCount_changes ..) ?_ rfl
      exact .refl
    · refine .ite ?_ ?_
      · refine .step (setEth_changes ..) ?_ rfl
        refine .step (leaveLpi_changes ..) ?_ rfl
        exact .refl
      · refine .step (setEth_changes ..) ?_ rfl
        refine .step (leaveLpi_changes ..) ?_ rfl
        exact .refl

theorem confirmTrial_changes (s : State) : Changes [.boot] s (confirmTrial s) := by
  unfold confirmTrial
  try dsimp only
  refine .ite ?_ ?_
  · exact .refl
  · refine .step (Changes.set_boot ..) ?_ rfl
    exact .refl

theorem setPair_changes (f : PairState → PairState) (s : State) : Changes [.pair] s (setPair f s) := by
  unfold setPair
  try dsimp only
  refine .step (Changes.set_pair ..) ?_ rfl
  exact .refl

theorem restartSwapTimer_changes (s : State) : Changes [.pair, .jr] s (restartSwapTimer s) := by
  unfold restartSwapTimer
  try dsimp only
  refine .step (journal_changes ..) ?_ rfl
  refine .step (setPair_changes ..) ?_ rfl
  exact .refl

theorem proofGood_changes (s : State) : Changes [.regs, .boot, .pair, .jr] s (proofGood s) := by
  unfold proofGood
  try dsimp only
  refine .ite ?_ ?_
  · exact .refl
  · refine .step (confirmTrial_changes ..) ?_ rfl
    refine .step (restartSwapTimer_changes ..) ?_ rfl
    refine .step (setPair_changes ..) ?_ rfl
    refine .step (count_changes _ _ rfl) ?_ rfl
    exact .refl

theorem proofCount_changes (n : Nat) (s : State) : Changes [.regs, .boot, .pair, .jr] s (proofCount n s) := by
  unfold proofCount
  try dsimp only
  refine .ite ?_ ?_
  · refine .step (proofGood_changes ..) ?_ rfl
    refine .step (setPair_changes ..) ?_ rfl
    exact .refl
  · exact .refl

theorem setHost_changes (f : HostState → HostState) (s : State) : Changes [.host] s (setHost f s) := by
  unfold setHost
  try dsimp only
  refine .step (Changes.set_host ..) ?_ rfl
  exact .refl

theorem setSq_changes (n : Nat) (v : SqState) (s : State) : Changes [.host] s (setSq n v s) := by
  unfold setSq
  try dsimp only
  refine .step (setHost_changes ..) ?_ rfl
  exact .refl

theorem setCq_changes (n : Nat) (v : CqState) (s : State) : Changes [.host] s (setCq n v s) := by
  unfold setCq
  try dsimp only
  refine .step (setHost_changes ..) ?_ rfl
  exact .refl

theorem markPosted_changes (n : Nat) (s : State) : Changes [.jr] s (markPosted n s) := by
  unfold markPosted
  try dsimp only
  refine .step (Changes.set_jr ..) ?_ rfl
  exact .refl

theorem entryDone_changes (e : Cqe) (s : State) : Changes [.host] s (entryDone e s) := by
  unfold entryDone
  try dsimp only
  split
  · refine .step (setSq_changes ..) ?_ rfl
    exact .refl
  · exact .refl

theorem cqCoalesce_changes (n : Nat) (s : State) : Changes [.host, .out] s (cqCoalesce n s) := by
  unfold cqCoalesce
  try dsimp only
  split
  · exact .refl
  · refine .ite ?_ ?_
    · refine .step (msix_changes ..) ?_ rfl
      refine .step (setCq_changes ..) ?_ rfl
      exact .refl
    · exact .refl

theorem cqWrite_changes (n : Nat) (c : CqState) (e : Cqe) (s : State) : Changes [.jr, .host, .out] s (cqWrite n c e s) := by
  unfold cqWrite
  try dsimp only
  refine .step (cqCoalesce_changes ..) ?_ rfl
  refine .ite ?_ ?_
  · refine .step (markPosted_changes ..) ?_ rfl
    refine .step (entryDone_changes ..) ?_ rfl
    split
    · refine .step (emit_changes ..) ?_ rfl
      refine .step (setSq_changes ..) ?_ rfl
      refine .step (emit_changes ..) ?_ rfl
      refine .step (emit_changes ..) ?_ rfl
      refine .step (setCq_changes ..) ?_ rfl
      exact .refl
    · refine .step (emit_changes ..) ?_ rfl
      refine .step (emit_changes ..) ?_ rfl
      refine .step (setCq_changes ..) ?_ rfl
      exact .refl
  · refine .step (entryDone_changes ..) ?_ rfl
    split
    · refine .step (emit_changes ..) ?_ rfl
      refine .step (setSq_changes ..) ?_ rfl
      refine .step (emit_changes ..) ?_ rfl
      refine .step (emit_changes ..) ?_ rfl
      refine .step (setCq_changes ..) ?_ rfl
      exact .refl
    · refine .step (emit_changes ..) ?_ rfl
      refine .step (emit_changes ..) ?_ rfl
      refine .step (setCq_changes ..) ?_ rfl
      exact .refl

theorem cqPush_changes (n : Nat) (e : Cqe) (s : State) : Changes [.regs, .jr, .host, .out] s (cqPush n e s) := by
  unfold cqPush
  try dsimp only
  split
  · refine .step (entryDone_changes ..) ?_ rfl
    split
    · refine .step (count_changes _ _ rfl) ?_ rfl
      refine .ite ?_ ?_
      · refine .step (markPosted_changes ..) ?_ rfl
        refine .step (count_changes _ _ rfl) ?_ rfl
        exact .refl
      · exact .refl
    · refine .ite ?_ ?_
      · refine .step (markPosted_changes ..) ?_ rfl
        refine .step (count_changes _ _ rfl) ?_ rfl
        exact .refl
      · exact .refl
  · refine .ite ?_ ?_
    · refine .step (setCq_changes ..) ?_ rfl
      exact .refl
    · refine .step (cqWrite_changes ..) ?_ rfl
      exact .refl

theorem cqDrain_step (n k : Nat) (s : State) (ih : ∀ (t : State), Changes [.jr, .host, .out] t (cqDrain n k t)) : Changes [.jr, .host, .out] s (cqDrain n (k+1) s) := by
  unfold cqDrain
  try dsimp only
  split
  · split
    · refine .ite ?_ ?_
      · exact .refl
      · refine .step (ih ..) ?_ rfl
        refine .step (cqWrite_changes ..) ?_ rfl
        exact .refl
    · exact .refl
  · exact .refl

theorem cqDrain_changes (n k : Nat) (s : State) : Changes [.jr, .host, .out] s (cqDrain n k s) := by
  induction k generalizing s with
  | zero => simp only [cqDrain]; exact .refl
  | succ k ih => exact cqDrain_step (ih := fun t => ih (s := t)) ..

theorem doPost_changes (n : Nat) (takeover : Bool) (p : Posting) (s : State) : Changes [.regs, .jr, .host, .out] s (doPost n takeover p s) := by
  unfold doPost
  try dsimp only
  split
  · refine .step (cqPush_changes ..) ?_ rfl
    exact .refl
  · refine .step (markPosted_changes ..) ?_ rfl
    refine .step (count_changes _ _ rfl) ?_ rfl
    exact .refl

theorem reservePost_changes (p : Posting) (s : State) : Changes [.jr] s (reservePost p s).2 := by
  unfold reservePost
  try dsimp only
  refine .step (journal_changes ..) ?_ rfl
  refine .step (Changes.set_jr ..) ?_ rfl
  exact .refl

theorem makePost_changes (n : Nat) (takeover : Bool) (p : Posting) (s : State) : Changes [.regs, .jr, .host, .out] s (makePost n takeover p s) := by
  unfold makePost
  try dsimp only
  refine .ite ?_ ?_
  · refine .step (Changes.set_jr ..) ?_ rfl
    exact .refl
  · refine .step (doPost_changes ..) ?_ rfl
    exact .refl

theorem drainDelayed_changes (s : State) : Changes [.regs, .jr, .host, .out] s (drainDelayed s) := by
  unfold drainDelayed
  try dsimp only
  refine .ite ?_ ?_
  · exact .refl
  · refine .foldl (fun _ _ _ => ?_) ?_
    · refine .step (doPost_changes ..) ?_ rfl
      assumption
    · refine .step (Changes.set_jr ..) ?_ rfl
      exact .refl

theorem postNow_changes (b : CqBody) (s : State) : Changes [.regs, .jr, .host, .out] s (postNow b s) := by
  unfold postNow
  try dsimp only
  refine .ite ?_ ?_
  · exact .refl
  · refine .step (makePost_changes ..) ?_ rfl
    refine .step (reservePost_changes ..) ?_ rfl
    exact .refl

theorem setFrames_changes (b : Nat) (l : List HeldFrame) (s : State) : Changes [.host] s (setFrames b l s) := by
  unfold setFrames
  try dsimp only
  refine .step (setHost_changes ..) ?_ rfl
  exact .refl

theorem cmdDone_changes (h : Hdr) (st : Byte) (len : Nat) (items : Nat) (result : List Byte) (s : State) : Changes [.regs, .jr, .host, .out] s (cmdDone h st len items result s) := by
  unfold cmdDone
  try dsimp only
  split
  · refine .step (cqPush_changes ..) ?_ rfl
    exact .refl
  · exact .refl

theorem rxData_changes (b : Nat) (tag : W32) (st : Status) (d : BufDesc) (len : Nat) (index : Nat) (last : Bool) (trunc : Bool) (s : State) : Changes [.regs, .jr, .host, .out] s (rxData b tag st d len index last trunc s) := by
  unfold rxData
  try dsimp only
  refine .step (cqPush_changes ..) ?_ rfl
  exact .refl

theorem rxBad_changes (b : Nat) (tag : W32) (l : List BufDesc) (s : State) : Changes [.regs, .jr, .host, .out] s (rxBad b tag l s) := by
  unfold rxBad
  try dsimp only
  refine .foldl (fun _ _ _ => ?_) ?_
  · refine .step (cqPush_changes ..) ?_ rfl
    assumption
  · exact .refl

theorem flushLast_changes (b : Nat) (f : HeldFrame) (s : State) : Changes [.regs, .jr, .host, .out] s (flushLast b f s) := by
  unfold flushLast
  try dsimp only
  split
  · refine .step (rxData_changes ..) ?_ rfl
    exact .refl
  · exact .refl

theorem runFrames_step (b k : Nat) (s : State) (ih : ∀ (t : State), Changes [.regs, .jr, .host, .out] t (runFrames b k t)) : Changes [.regs, .jr, .host, .out] s (runFrames b (k+1) s) := by
  unfold runFrames
  try dsimp only
  split
  · exact .refl
  · refine .ite ?_ ?_
    · refine .step (ih ..) ?_ rfl
      refine .step (cmdDone_changes ..) ?_ rfl
      refine .step (setFrames_changes ..) ?_ rfl
      split
      · refine .step (rxData_changes ..) ?_ rfl
        exact .refl
      · exact .refl
    · split
      · refine .step (setFrames_changes ..) ?_ rfl
        exact .refl
      · refine .step (ih ..) ?_ rfl
        refine .step (setFrames_changes ..) ?_ rfl
        refine .step (emit_changes ..) ?_ rfl
        refine .step (rxBad_changes ..) ?_ rfl
        refine .step (flushLast_changes ..) ?_ rfl
        refine .step (setSq_changes ..) ?_ rfl
        exact .refl

theorem runFrames_changes (b k : Nat) (s : State) : Changes [.regs, .jr, .host, .out] s (runFrames b k s) := by
  induction k generalizing s with
  | zero => simp only [runFrames]; exact .refl
  | succ k ih => exact runFrames_step (ih := fun t => ih (s := t)) ..

theorem endFrame_changes (b : Nat) (f : HeldFrame) (s : State) : Changes [.regs, .jr, .host, .evt, .out] s (endFrame b f s) := by
  unfold endFrame
  try dsimp only
  refine .step (event_changes ..) ?_ rfl
  refine .step (count_changes _ _ rfl) ?_ rfl
  refine .step (cmdDone_changes ..) ?_ rfl
  split
  · refine .step (rxData_changes ..) ?_ rfl
    exact .refl
  · exact .refl

theorem respond_changes (p : Bool) (h : Hdr) (opcode : Nat) (r : Reply) (s : State) : Changes [.regs, .eth, .host, .out] s (respond p h opcode r s) := by
  unfold respond
  try dsimp only
  refine .foldl (fun _ _ _ => ?_) ?_
  · refine .step (ethSend_changes ..) ?_ rfl
    assumption
  · exact .refl

theorem complete_changes (h : Hdr) (opcode : Nat) (r : Reply) (s : State) : Changes [.regs, .eth, .jr, .host, .out] s (complete h opcode r s) := by
  unfold complete
  try dsimp only
  split
  · exact .refl
  · refine .step (respond_changes ..) ?_ rfl
    exact .refl
  · refine .ite ?_ ?_
    · refine .step (cmdDone_changes ..) ?_ rfl
      exact .refl
    · refine .ite ?_ ?_
      · refine .step (cmdDone_changes ..) ?_ rfl
        exact .refl
      · split
        · refine .step (cmdDone_changes ..) ?_ rfl
          exact .refl
        · refine .ite ?_ ?_
          · refine .step (cmdDone_changes ..) ?_ rfl
            exact .refl
          · refine .ite ?_ ?_
            · refine .step (runFrames_changes ..) ?_ rfl
              refine .step (setFrames_changes ..) ?_ rfl
              exact .refl
            · refine .step (setFrames_changes ..) ?_ rfl
              exact .refl

theorem answer_changes (h : Hdr) (opcode : Nat) (r : Reply) (s : State) : Changes [.regs, .eth, .jr, .host, .out] s (answer h opcode r s) := by
  unfold answer
  try dsimp only
  refine .ite ?_ ?_
  · refine .step (complete_changes ..) ?_ rfl
    exact .refl
  · refine .step (Changes.set_jr ..) ?_ rfl
    exact .refl

theorem releaseReplies_changes (s : State) : Changes [.regs, .eth, .jr, .host, .out] s (releaseReplies s) := by
  unfold releaseReplies
  try dsimp only
  refine .foldl (fun _ _ _ => ?_) ?_
  · refine .step (complete_changes ..) ?_ rfl
    assumption
  · refine .step (Changes.set_jr ..) ?_ rfl
    exact .refl

theorem holdReply_changes (h : Hdr) (op : Nat) (r : Reply) (s : State) : Changes [.jr] s (holdReply h op r s) := by
  unfold holdReply
  try dsimp only
  refine .step (Changes.set_jr ..) ?_ rfl
  exact .refl

theorem replyAfter_changes (before : State) (h : Hdr) (op : Nat) (r : Reply) (s : State) : Changes [.regs, .eth, .jr, .host, .out] s (replyAfter before h op r s) := by
  unfold replyAfter
  try dsimp only
  refine .ite ?_ ?_
  · exact .refl
  · refine .ite ?_ ?_
    · refine .step (holdReply_changes ..) ?_ rfl
      exact .refl
    · refine .ite ?_ ?_
      · refine .step (complete_changes ..) ?_ rfl
        exact .refl
      · refine .step (answer_changes ..) ?_ rfl
        exact .refl

theorem journalCounter_changes (before : State) (h : Hdr) (s : State) : Changes [.jr] s (journalCounter before h s) := by
  unfold journalCounter
  try dsimp only
  split
  · refine .ite ?_ ?_
    · exact .refl
    · refine .step (journal_changes ..) ?_ rfl
      exact .refl
  · exact .refl

theorem wakeFor_changes (op : Nat) (s : State) : Changes [.isl] s (wakeFor op s) := by
  unfold wakeFor
  try dsimp only
  refine .ite ?_ ?_
  · refine .step (wake_changes ..) ?_ rfl
    refine .step (wake_changes ..) ?_ rfl
    refine .step (wake_changes ..) ?_ rfl
    exact .refl
  · refine .step (wake_changes ..) ?_ rfl
    refine .step (wake_changes ..) ?_ rfl
    exact .refl

theorem checkAuth_changes {op : Nat} {a : Auth} {s t : State} :
    (∀ {r}, checkAuth op a s = .refuse r t → Changes [.regs, .win, .sec, .evt] s t) ∧
    (checkAuth op a s = .accept t → Changes [.regs, .win, .sec, .evt] s t) := by
  have fail : ∀ op k n, Changes [.regs, .win, .sec, .evt] s (secEvent 2 n (event 2 0x01 (op * 65536 + k * 256 + n) []) (count 0x2040 s)) :=
    fun _ _ _ => secEvent_changes (fun _ h => .step (event_changes ..) h rfl) (.step (count_changes _ _ rfl) .refl rfl) rfl
  constructor
  · intro r h
    unfold checkAuth authFail at h
    dsimp only at h
    (repeat' split at h) <;> first
      | (injection h with _ h; subst h; first | exact fail .. | exact .step (count_changes _ _ rfl) .refl rfl | exact .refl)
      | cases h
  · intro h
    unfold checkAuth authFail at h
    dsimp only at h
    (repeat' split at h) <;> first
      | (injection h with h; subst h; exact .step (Changes.set_sec _ _ (by intro h; first | exact h | rfl | exact Kv.wf_putOr _ _ _ h | exact Kv.wf_putOpt _ _ h | exact Kv.wf_map _ h (fun _ => rfl) | exact Kv.wf_foldl_upd _ _ _ _ h | exact wf_toKv _)) .refl rfl)
      | cases h
theorem checkCommand_changes {h : Hdr} {c : Cmd} {s t : State} :
    (∀ {r}, checkCommand h c s = .refuse r t → Changes [.regs, .win, .sec, .evt] s t) ∧
    (checkCommand h c s = .accept t → Changes [.regs, .win, .sec, .evt] s t) := by
  have fail : ∀ op k n, Changes [.regs, .win, .sec, .evt] s (secEvent 2 n (event 2 0x01 (op * 65536 + k * 256 + n) []) (count 0x2040 s)) :=
    fun _ _ _ => secEvent_changes (fun _ h => .step (event_changes ..) h rfl) (.step (count_changes _ _ rfl) .refl rfl) rfl
  constructor
  · intro r h
    unfold checkCommand authFail at h
    dsimp only at h
    (repeat' split at h) <;> first
      | exact checkAuth_changes.1 h
      | (injection h with _ h; subst h; first | exact fail (cmdOpcode c) 1 0xFF | exact .step (count_changes _ _ rfl) .refl rfl | exact .refl)
      | cases h
  · intro h
    unfold checkCommand authFail at h
    dsimp only at h
    (repeat' split at h) <;> first
      | exact checkAuth_changes.2 h
      | (injection h with h; subst h; exact .refl)
      | cases h
theorem runChecked_changes {W : List Part} {s0 s : State} {h : Hdr} {c : Cmd} {body : State → State × Reply}
    (hf : ∀ t, Changes W s0 t → Changes W s0 (body t).1) (h0 : Changes W s0 s)
    (hw : Part.sub [.stalled, .regs, .win, .isl, .eth, .jr, .host, .sec, .evt, .out] W = true) : Changes W s0 (runChecked h c body s) := by
  have sub : ∀ {V u v}, Changes V u v → Part.sub V [.stalled, .regs, .win, .isl, .eth, .jr, .host, .sec, .evt, .out] = true → Changes W s0 u → Changes W s0 v :=
    fun hv hs hu => (hv.mono hs).step hu hw
  have hwake : Changes W s0 (wakeFor (cmdOpcode c) s) := sub (wakeFor_changes ..) rfl h0
  unfold runChecked
  dsimp only
  split
  · exact sub (complete_changes ..) rfl (sub (checkCommand_changes.1 (by assumption)) rfl hwake)
  · have ha := sub (checkCommand_changes.2 (by assumption)) rfl hwake
    split
    · exact sub (complete_changes ..) rfl ha
    · split
      · exact sub (Changes.set_stalled ..) rfl ha
      · exact sub (replyAfter_changes ..) rfl (sub (journalCounter_changes ..) rfl (hf _ ha))

theorem ethAdmit_changes {h : Hdr} {s t : State} (e : ethAdmit h s = some t) : Changes [.regs, .win] s t := by
  unfold ethAdmit at e
  dsimp only at e
  (repeat' split at e) <;> cases e
  · refine .step (count_changes _ _ rfl) ?_ rfl
    refine .step (Changes.set_win ..) ?_ rfl
    exact .refl
  · exact .refl

theorem startInFlight_changes (h : Hdr) (s : State) : Changes [.host] s (startInFlight h s) := by
  unfold startInFlight
  try dsimp only
  split
  · refine .step (setSq_changes ..) ?_ rfl
    exact .refl
  · exact .refl

theorem command_changes {W : List Part} {s0 s : State} {h : Hdr} {c : Cmd} {body : State → State × Reply}
    (hf : ∀ t, Changes W s0 t → Changes W s0 (body t).1) (h0 : Changes W s0 s)
    (hw : Part.sub [.stalled, .regs, .win, .isl, .eth, .pair, .jr, .host, .sec, .evt, .out] W = true) : Changes W s0 (command h c body s) := by
  have sub : ∀ {V u v}, Changes V u v → Part.sub V [.stalled, .regs, .win, .isl, .eth, .pair, .jr, .host, .sec, .evt, .out] = true → Changes W s0 u → Changes W s0 v :=
    fun hv hs hu => (hv.mono hs).step hu hw
  have hw' : Part.sub [.stalled, .regs, .win, .isl, .eth, .jr, .host, .sec, .evt, .out] W = true := by
    simp only [Part.sub, List.all_cons, Bool.and_eq_true] at hw ⊢
    obtain ⟨a, b, c, d, e, f, g⟩ := hw
    exact ⟨a, b, c, d, e, g⟩
  unfold command
  split
  · exact h0
  · split
    · exact sub (Changes.set_pair ..) rfl h0
    · split
      · split
        · exact .ite (sub (count_changes _ _ rfl) rfl h0) h0
        · exact h0
      · exact runChecked_changes hf (sub (startInFlight_changes ..) rfl (sub (ethAdmit_changes (by assumption)) rfl h0)) hw'

end Sys2Proof.Machine
end

