-- ==== Sys2Proof/Laws/ChangesStore.lean ====
section
/-!
SUPPORT. Sys2Proof/Laws/ChangesStore.lean: what each operation may change: the archive store and relay entries.
-/
namespace Sys2Proof.Machine

theorem setArch_changes (f : Archive → Archive) (s : State) : Changes [.arch] s (setArch f s) := by
  unfold setArch
  try dsimp only
  refine .step (Changes.set_arch ..) ?_ rfl
  exact .refl

theorem putBlock_changes (b : Nat) (v : Block) (s : State) : Changes [.arch] s (putBlock b v s) := by
  unfold putBlock
  try dsimp only
  refine .step (setArch_changes ..) ?_ rfl
  exact .refl

theorem mapJournal_changes (s : State) : Changes [.arch] s (mapJournal s) := by
  unfold mapJournal
  try dsimp only
  refine .step (setArch_changes ..) ?_ rfl
  exact .refl

theorem checkReadOnly_changes (s : State) : Changes [.arch] s (checkReadOnly s) := by
  unfold checkReadOnly
  try dsimp only
  refine .ite ?_ ?_
  · refine .step (setArch_changes ..) ?_ rfl
    exact .refl
  · exact .refl

theorem openBlock_changes {zone : Nat} {worn : Bool} {s t : State} {b : Nat} (h : openBlock zone worn s = some (b, t)) : Changes [.arch] s t := by
  unfold openBlock at h
  split at h
  · exact absurd h (by simp)
  · obtain ⟨-, rfl⟩ := Prod.mk.inj (Option.some.inj h)
    exact .step (mapJournal_changes ..) (.step (putBlock_changes ..) .refl rfl) rfl

theorem programPage_changes (b : Nat) (secs : List (Nat × Nat × Bool × SecData)) (s : State) : Changes [.regs, .arch] s (programPage b secs s) := by
  unfold programPage
  try dsimp only
  refine .step (count_changes _ _ rfl) ?_ rfl
  refine .step (putBlock_changes ..) ?_ rfl
  refine .step (setArch_changes ..) ?_ rfl
  exact .refl

theorem replaceBlock_changes (st : BlkSt) (zone : Nat) (s : State) : Changes [.arch] s (replaceBlock st zone s) := by
  unfold replaceBlock
  try dsimp only
  split
  · refine .step (checkReadOnly_changes ..) ?_ rfl
    refine .step (putBlock_changes ..) ?_ rfl
    exact .refl
  · refine .step (checkReadOnly_changes ..) ?_ rfl
    refine .step (setArch_changes ..) ?_ rfl
    exact .refl

theorem eraseBlock_changes (b : Nat) (s : State) : Changes [.arch] s (eraseBlock b s) := by
  unfold eraseBlock
  try dsimp only
  refine .ite ?_ ?_
  · refine .step (replaceBlock_changes ..) ?_ rfl
    refine .step (putBlock_changes ..) ?_ rfl
    exact .refl
  · refine .step (putBlock_changes ..) ?_ rfl
    exact .refl

theorem programSectors_changes {zone k : Nat} {l : List (Nat × SecData)} {s t : State} (h : programSectors zone k l s = some t) :
    Changes [.regs, .arch] s t := by
  induction k generalizing l s with
  | zero => unfold programSectors at h; obtain rfl := Option.some.inj h; exact .refl
  | succ k ih =>
    unfold programSectors at h
    dsimp only at h
    split at h
    · obtain rfl := Option.some.inj h; exact .refl
    · split at h
      · exact absurd h (by simp)
      · rename_i b s' hs
        refine .step (ih h) (.step (programPage_changes ..) ?_ rfl) rfl
        split at hs
        · obtain ⟨-, rfl⟩ := Prod.mk.inj (Option.some.inj hs); exact .refl
        · exact .mono (openBlock_changes hs) rfl

theorem unmapLsn_changes (zone : Nat) (lsn : Nat) (s : State) : Changes [.arch] s (unmapLsn zone lsn s) := by
  unfold unmapLsn
  try dsimp only
  refine .step (setArch_changes ..) ?_ rfl
  exact .refl

theorem addMissing_changes (lo : Nat) (hi : Nat) (s : State) : Changes [.arch] s (addMissing lo hi s) := by
  unfold addMissing
  try dsimp only
  refine .ite ?_ ?_
  · exact .refl
  · refine .step (setArch_changes ..) ?_ rfl
    exact .refl

theorem freeReadings_changes {s t : State} (e : freeReadings s = some t) : Changes [.regs, .arch] s t := by
  unfold freeReadings at e
  dsimp only at e
  (repeat' split at e) <;> cases e
  · refine .step (count_changes _ _ rfl) ?_ rfl
    refine .step (eraseBlock_changes ..) ?_ rfl
    exact .refl
  · refine .step (count_changes _ _ rfl) ?_ rfl
    refine .step (eraseBlock_changes ..) ?_ rfl
    refine .step (countBy_changes _ _ _ rfl) ?_ rfl
    exact .refl

theorem readingsTarget_changes {s t : State} {b : Nat} (h : readingsTarget s = some (b, t)) : Changes [.regs, .arch] s t := by
  unfold readingsTarget at h
  dsimp only at h
  split at h
  · obtain ⟨-, rfl⟩ := Prod.mk.inj (Option.some.inj h); exact .refl
  · split at h
    · exact absurd h (by simp)
    · rename_i s' hs
      split at h
      · exact absurd h (by simp)
      · obtain ⟨-, rfl⟩ := Prod.mk.inj (Option.some.inj h)
        refine .step (setArch_changes ..) (.step (openBlock_changes (by assumption)) ?_ rfl) rfl
        split at hs
        · obtain rfl := Option.some.inj hs; exact .refl
        · exact freeReadings_changes hs

theorem settle_step (x : Nat × Nat × Nat) (l : List (Nat × Nat × Nat)) (s : State) (ih : ∀ (t : State), Changes [.arch] t (settle t l)) : Changes [.arch] s (settle s (x :: l)) := by
  unfold settle
  try dsimp only
  refine .ite ?_ ?_
  · refine .step (ih ..) ?_ rfl
    refine .step (setArch_changes ..) ?_ rfl
    exact .refl
  · refine .step (setArch_changes ..) ?_ rfl
    exact .refl

theorem settle_changes (l : List (Nat × Nat × Nat)) (s : State) : Changes [.arch] s (settle s l) := by
  induction l generalizing s with
  | nil => simp only [settle]; exact .step (setArch_changes ..) .refl rfl
  | cons x l ih => exact settle_step (ih := fun t => ih (s := t)) ..

theorem programReadings_changes (s : State) : Changes [.regs, .arch] s (programReadings s) := by
  unfold programReadings
  try dsimp only
  refine .ite ?_ ?_
  · exact .refl
  · split
    · refine .ite ?_ ?_
      · refine .step (setArch_changes ..) ?_ rfl
        exact .refl
      · refine .step (setArch_changes ..) ?_ rfl
        exact .refl
    · refine .ite ?_ ?_
      · exact .refl
      · refine .step (settle_changes ..) ?_ rfl
        refine .step (setArch_changes ..) ?_ rfl
        refine .ite ?_ ?_
        · refine .step (setArch_changes ..) ?_ rfl
          refine .step (programPage_changes ..) ?_ rfl
          refine .step (setArch_changes ..) ?_ rfl
          refine .step (readingsTarget_changes (by assumption)) ?_ rfl
          exact .refl
        · refine .step (programPage_changes ..) ?_ rfl
          refine .step (setArch_changes ..) ?_ rfl
          refine .step (readingsTarget_changes (by assumption)) ?_ rfl
          exact .refl

theorem padQueue_changes (s : State) : Changes [.regs, .arch] s (padQueue s) := by
  unfold padQueue
  try dsimp only
  split
  · exact .refl
  · refine .ite ?_ ?_
    · exact .refl
    · refine .step (setArch_changes ..) ?_ rfl
      exact .refl

theorem drainQueue_step (k : Nat) (s : State) (ih : ∀ (t : State), Changes [.regs, .arch] t (drainQueue k t)) : Changes [.regs, .arch] s (drainQueue (k+1) s) := by
  unfold drainQueue
  try dsimp only
  refine .step (ih ..) ?_ rfl
  refine .step (programReadings_changes ..) ?_ rfl
  exact .refl

theorem drainQueue_changes (k : Nat) (s : State) : Changes [.regs, .arch] s (drainQueue k s) := by
  induction k generalizing s with
  | zero => simp only [drainQueue]; exact .refl
  | succ k ih => exact drainQueue_step (ih := fun t => ih (s := t)) ..

theorem takeSeq_changes (s : State) : Changes [.arch] s (takeSeq s).2 := by
  unfold takeSeq
  try dsimp only
  refine .snd_ite ?_ ?_
  · dsimp only
    refine .step (mapJournal_changes ..) ?_ rfl
    refine .step (setArch_changes ..) ?_ rfl
    refine .step (setArch_changes ..) ?_ rfl
    exact .refl
  · dsimp only
    refine .step (setArch_changes ..) ?_ rfl
    exact .refl

theorem appendLost_changes (n : Nat) (s : State) : Changes [.regs, .win, .arch, .evt] s (appendLost n s) := by
  unfold appendLost
  try dsimp only
  refine minuteEvent_changes (fun _ _ => ?_) ?_ rfl
  · refine .step (setArch_changes ..) ?_ rfl
    refine .step (event_changes ..) ?_ rfl
    assumption
  · refine .step (setArch_changes ..) ?_ rfl
    refine .step (count_changes _ _ rfl) ?_ rfl
    refine .step (addMissing_changes ..) ?_ rfl
    exact .refl

theorem appendOverflow_changes (n : Nat) (rec : List Byte) (s : State) : Changes [.regs, .win, .arch, .evt] s (appendOverflow n rec s) := by
  unfold appendOverflow
  try dsimp only
  refine .ite ?_ ?_
  · refine .step (appendLost_changes ..) ?_ rfl
    exact .refl
  · refine .step (count_changes _ _ rfl) ?_ rfl
    refine .step (setArch_changes ..) ?_ rfl
    exact .refl

theorem appendAt_changes (n : Nat) (rec : List Byte) (s : State) : Changes [.regs, .win, .isl, .arch, .evt] s (appendAt n rec s) := by
  unfold appendAt
  try dsimp only
  refine .ite ?_ ?_
  · refine .step (setArch_changes ..) ?_ rfl
    refine .step (wake_changes ..) ?_ rfl
    exact .refl
  · refine .step (appendOverflow_changes ..) ?_ rfl
    refine .step (wake_changes ..) ?_ rfl
    exact .refl

theorem writeRefused_changes (s : State) : Changes [.regs, .win, .evt] s (writeRefused s) := by
  unfold writeRefused
  try dsimp only
  refine .ite ?_ ?_
  · refine hourEvent_changes (fun _ _ => ?_) ?_ rfl
    · refine .step (event_changes ..) ?_ rfl
      assumption
    · refine .step (count_changes _ _ rfl) ?_ rfl
      exact .refl
  · exact .refl

theorem archiveReading_changes (rec : List Byte) (s : State) : Changes [.regs, .win, .isl, .jr, .arch, .evt] s (archiveReading rec s) := by
  unfold archiveReading
  try dsimp only
  refine .step (journal_changes ..) ?_ rfl
  refine .step (appendAt_changes ..) ?_ rfl
  refine .step (takeSeq_changes ..) ?_ rfl
  exact .refl

theorem collectMove_changes {b : Nat} {v : Block} {worn : Bool} {keep : List (List Sector)} {c : Bool} {s t : State}
    (e : (if v.zone = 5 || worn then
      if c then some s
      else match openBlock v.zone worn s with
        | none => none
        | some (d, s) =>
          let s := keep.foldl (fun t p => programPage d (p.map fun x => (x.zone, x.lsn, x.mapped, x.data)) t) s
          let s := if v.st != .open_ then putBlock d { blockOf s d with st := .data } s
            else setArch (fun a => { a with openR := a.openR.map fun p => if p.2 = b then (p.1, d) else p }) s
          some (setArch (fun a => { a with notDurable := a.notDurable.map fun p => if p.1 = b then (d, p.2) else p }) s)
    else
      let secs := keep.flatMap fun p => p.filterMap fun x => if x.mapped then some (x.lsn, x.data) else none
      let s := putBlock b { v with st := .stale } s
      programSectors v.zone (secs.length + 2) secs s) = some t) : Changes [.regs, .arch] s t := by
  split at e
  · split at e
    · cases e; exact .refl
    · split at e
      · cases e
      · cases e
        rename_i d u hd
        have hp : Changes [.regs, .arch] s (keep.foldl (fun t p => programPage d (p.map fun x => (x.zone, x.lsn, x.mapped, x.data)) t) u) :=
          .foldl (fun _ _ h => .step (programPage_changes ..) h rfl) (.mono (openBlock_changes hd) rfl)
        refine .step (setArch_changes ..) (.ite ?_ ?_) rfl
        · exact .step (putBlock_changes ..) hp rfl
        · exact .step (setArch_changes ..) hp rfl
  · exact .step (programSectors_changes e) (.step (putBlock_changes ..) .refl rfl) rfl
theorem collectTo_changes (b : Nat) (skip : List Nat) (worn retired : Bool) (s : State) : Changes [.regs, .arch] s (collectTo b skip worn retired s) := by
  unfold collectTo
  dsimp only
  have lost : ∀ l : List (Nat × List Byte), Changes [.regs, .arch] s (l.foldl (fun t r => addMissing r.1 r.1 t) s) :=
    fun l => .foldl (fun _ _ h => .step (addMissing_changes ..) h rfl) .refl
  split
  · exact .step (setArch_changes ..) (.step (putBlock_changes ..) (lost _) rfl) rfl
  · rename_i t ht
    have hm := (collectMove_changes ht).step (lost _) rfl
    refine .ite (.ite ?_ ?_) ?_
    · exact .step (replaceBlock_changes ..) (.step (putBlock_changes ..) (.step (mapJournal_changes ..) hm rfl) rfl) rfl
    · exact .step (replaceBlock_changes ..) (.step (putBlock_changes ..) (.step (mapJournal_changes ..) hm rfl) rfl) rfl
    · exact .step (eraseBlock_changes ..) (.step (count_changes _ _ rfl) (.step (mapJournal_changes ..) hm rfl) rfl) rfl

theorem refresh_changes (b : Nat) (s : State) : Changes [.regs, .arch] s (refresh b s) := by
  unfold refresh
  try dsimp only
  refine .ite ?_ ?_
  · refine .step (count_changes _ _ rfl) ?_ rfl
    refine .step (collectTo_changes ..) ?_ rfl
    exact .refl
  · exact .refl

theorem retireBlock_changes (b : Nat) (skip : List Nat) (s : State) : Changes [.regs, .arch] s (retireBlock b skip s) := by
  unfold retireBlock
  try dsimp only
  refine .step (collectTo_changes ..) ?_ rfl
  exact .refl

theorem pageRead_changes (ms : List Media) (b : Nat) (p : Nat) (s : State) : Changes [.regs, .arch, .evt] s (pageRead ms b p s).2 := by
  unfold pageRead
  try dsimp only
  split
  · dsimp only
    refine .ite ?_ ?_
    · refine .step (refresh_changes ..) ?_ rfl
      refine .step (putBlock_changes ..) ?_ rfl
      refine .step (count_changes _ _ rfl) ?_ rfl
      exact .refl
    · refine .step (putBlock_changes ..) ?_ rfl
      refine .step (count_changes _ _ rfl) ?_ rfl
      exact .refl
  · refine .snd_ite ?_ ?_
    · dsimp only
      refine .ite ?_ ?_
      · refine .step (refresh_changes ..) ?_ rfl
        refine .step (putBlock_changes ..) ?_ rfl
        refine .step (count_changes _ _ rfl) ?_ rfl
        exact .refl
      · refine .step (putBlock_changes ..) ?_ rfl
        refine .step (count_changes _ _ rfl) ?_ rfl
        exact .refl
    · refine .snd_ite ?_ ?_
      · dsimp only
        refine .step (refresh_changes ..) ?_ rfl
        refine .step (putBlock_changes ..) ?_ rfl
        refine .step (count_changes _ _ rfl) ?_ rfl
        refine .step (count_changes _ _ rfl) ?_ rfl
        exact .refl
      · split
        · dsimp only
          refine .step (refresh_changes ..) ?_ rfl
          refine .step (putBlock_changes ..) ?_ rfl
          refine .step (countBy_changes _ _ _ rfl) ?_ rfl
          refine .step (count_changes _ _ rfl) ?_ rfl
          refine .step (count_changes _ _ rfl) ?_ rfl
          exact .refl
        · dsimp only
          refine .step (retireBlock_changes ..) ?_ rfl
          refine .step (event_changes ..) ?_ rfl
          refine .step (setArch_changes ..) ?_ rfl
          refine .step (count_changes _ _ rfl) ?_ rfl
          refine .step (countBy_changes _ _ _ rfl) ?_ rfl
          refine .step (putBlock_changes ..) ?_ rfl
          refine .step (count_changes _ _ rfl) ?_ rfl
          refine .step (count_changes _ _ rfl) ?_ rfl
          exact .refl

theorem readRecords_step (ms : List Media) (k n : Nat) (last : Option (Nat × Nat)) (s : State) (ih : ∀ (n : Nat) (last : Option (Nat × Nat)) (t : State), Changes [.regs, .arch, .evt] t ((readRecords ms k n last t).2.2)) : Changes [.regs, .arch, .evt] s ((readRecords ms (k+1) n last s).2.2) := by
  unfold readRecords
  try dsimp only
  refine .trd_ite ?_ ?_
  · dsimp only
    exact .refl
  · split
    · dsimp only
      refine .step (ih ..) ?_ rfl
      exact .refl
    · split
      · dsimp only
        exact .refl
      · refine .trd_ite ?_ ?_
        · dsimp only
          refine .snd_ite ?_ ?_
          · dsimp only
            exact .refl
          · refine .step (pageRead_changes ..) ?_ rfl
            exact .refl
        · dsimp only
          refine .step (ih ..) ?_ rfl
          refine .snd_ite ?_ ?_
          · dsimp only
            exact .refl
          · refine .step (pageRead_changes ..) ?_ rfl
            exact .refl

theorem readRecords_changes (ms : List Media) (k n : Nat) (last : Option (Nat × Nat)) (s : State) : Changes [.regs, .arch, .evt] s ((readRecords ms k n last s).2.2) := by
  induction k generalizing s n last with
  | zero => simp only [readRecords]; exact .refl
  | succ k ih => exact readRecords_step (ih := fun n last t => ih (n := n) (last := last) (s := t)) ..

theorem withGrade_changes {W : List Part} {s0 s : State} {f : State → State} (hf : ∀ t, Changes W s0 t → Changes W s0 (f t))
    (h : Changes W s0 s) (hw : Part.sub [.regs, .host, .out] W = true) : Changes W s0 (withGrade f s) := by
  unfold withGrade
  exact .ite (hf _ h) (.step (notice_changes ..) (hf _ h) hw)

theorem setRelay_changes (f : RelayState → RelayState) (s : State) : Changes [.relay] s (setRelay f s) := by
  unfold setRelay
  try dsimp only
  refine .step (Changes.set_relay ..) ?_ rfl
  exact .refl

theorem holdEntry_changes (to_ : BitVec 12) (e : Entry) (s : State) : Changes [.relay, .jr] s (holdEntry to_ e s) := by
  unfold holdEntry
  try dsimp only
  refine .step (journal_changes ..) ?_ rfl
  refine .step (setRelay_changes ..) ?_ rfl
  exact .refl

theorem sendEntry_changes (to_ : BitVec 12) (e : Entry) (s : State) : Changes [.regs, .win, .relay, .jr, .evt] s (sendEntry to_ e s) := by
  unfold sendEntry
  try dsimp only
  refine .ite ?_ ?_
  · refine .ite ?_ ?_
    · refine .step (holdEntry_changes ..) ?_ rfl
      refine .step (writeRefused_changes ..) ?_ rfl
      exact .refl
    · refine .step (journal_changes ..) ?_ rfl
      refine .step (setRelay_changes ..) ?_ rfl
      exact .refl
  · refine .step (holdEntry_changes ..) ?_ rfl
    exact .refl

theorem newSession_changes (s : State) : Changes [.relay, .draws] s (newSession s) := by
  unfold newSession
  try dsimp only
  refine .step (setRelay_changes ..) ?_ rfl
  refine .step (draw_changes ..) ?_ rfl
  exact .refl

theorem setRf_changes (n : Nat) (f : RfState → RfState) (s : State) : Changes [.rf] s (setRf n f s) := by
  unfold setRf
  try dsimp only
  refine .step (Changes.set_rf ..) ?_ rfl
  exact .refl

theorem rfQueue_changes (n : Nat) (dest : Option Nat) (pay : AccessPay) (s : State) : Changes [.rf] s (rfQueue n dest pay s) := by
  unfold rfQueue
  try dsimp only
  refine .foldl (fun _ _ _ => ?_) ?_
  · refine .step (setRf_changes ..) ?_ rfl
    assumption
  · exact .refl

theorem sendFrame_changes (to_ : BitVec 12) (src : RelaySrc) (body : RelayBody) (s : State) : Changes [.regs, .rf, .eth, .relay, .host, .out, .draws] s (sendFrame to_ src body s).2 := by
  unfold sendFrame
  try dsimp only
  refine .ite ?_ ?_
  · refine .step (newSession_changes ..) ?_ rfl
    split
    · split
      · refine .step (rfQueue_changes ..) ?_ rfl
        refine .step (setRelay_changes ..) ?_ rfl
        refine .ite ?_ ?_
        · refine .step (newSession_changes ..) ?_ rfl
          exact .refl
        · exact .refl
      · refine .step (ethCount_changes ..) ?_ rfl
        refine .step (ethSend_changes ..) ?_ rfl
        refine .step (setRelay_changes ..) ?_ rfl
        refine .ite ?_ ?_
        · refine .step (newSession_changes ..) ?_ rfl
          exact .refl
        · exact .refl
    · refine .step (rfQueue_changes ..) ?_ rfl
      refine .step (setRelay_changes ..) ?_ rfl
      refine .ite ?_ ?_
      · refine .step (newSession_changes ..) ?_ rfl
        exact .refl
      · exact .refl
  · split
    · split
      · refine .step (rfQueue_changes ..) ?_ rfl
        refine .step (setRelay_changes ..) ?_ rfl
        refine .ite ?_ ?_
        · refine .step (newSession_changes ..) ?_ rfl
          exact .refl
        · exact .refl
      · refine .step (ethCount_changes ..) ?_ rfl
        refine .step (ethSend_changes ..) ?_ rfl
        refine .step (setRelay_changes ..) ?_ rfl
        refine .ite ?_ ?_
        · refine .step (newSession_changes ..) ?_ rfl
          exact .refl
        · exact .refl
    · refine .step (rfQueue_changes ..) ?_ rfl
      refine .step (setRelay_changes ..) ?_ rfl
      refine .ite ?_ ?_
      · refine .step (newSession_changes ..) ?_ rfl
        exact .refl
      · exact .refl

theorem sendBatch_changes (to_ : BitVec 12) (id : Nat) (ents : List FrameEnt) (piece : Option Entry) (p : Bool) (s : State) : Changes [.regs, .rf, .eth, .relay, .host, .out, .draws] s (sendBatch to_ id ents piece p s) := by
  unfold sendBatch
  try dsimp only
  refine .step (setRelay_changes ..) ?_ rfl
  refine .step (sendFrame_changes ..) ?_ rfl
  exact .refl

theorem sendOpen_changes (to_ : BitVec 12) (p : Bool) (s : State) : Changes [.regs, .rf, .eth, .relay, .host, .out, .draws] s (sendOpen to_ p s) := by
  unfold sendOpen
  try dsimp only
  split
  · exact .refl
  · refine .ite ?_ ?_
    · exact .refl
    · refine .ite ?_ ?_
      · refine .foldl (fun _ _ _ => ?_) ?_
        · refine .step (sendBatch_changes ..) ?_ rfl
          assumption
        · refine .step (setRelay_changes ..) ?_ rfl
          refine .step (setRelay_changes ..) ?_ rfl
          exact .refl
      · refine .foldl (fun _ _ _ => ?_) ?_
        · refine .step (sendBatch_changes ..) ?_ rfl
          assumption
        · refine .step (setRelay_changes ..) ?_ rfl
          refine .step (setRelay_changes ..) ?_ rfl
          exact .refl

theorem closeBatch_changes (to_ : BitVec 12) (p : Bool) (s : State) : Changes [.regs, .rf, .eth, .relay, .host, .out, .draws] s (closeBatch to_ p s) := by
  unfold closeBatch
  try dsimp only
  refine .ite ?_ ?_
  · refine .step (sendOpen_changes ..) ?_ rfl
    exact .refl
  · exact .refl

theorem pathFail_changes (to_ : BitVec 12) (p : Bool) (s : State) : Changes [.regs, .rf, .eth, .relay, .host, .out, .draws] s (pathFail to_ p s) := by
  unfold pathFail
  try dsimp only
  refine .ite ?_ ?_
  · exact .refl
  · refine .foldl (fun _ _ _ => ?_) ?_
    · refine .ite ?_ ?_
      · assumption
      · refine .step (ethCount_changes ..) ?_ rfl
        refine .step (sendBatch_changes ..) ?_ rfl
        assumption
    · refine .step (setRelay_changes ..) ?_ rfl
      exact .refl

theorem headMoves_changes (u : BitVec 12) (from_ : Bool) (now : Bool) (s : State) : Changes [.relay] s (headMoves u from_ now s) := by
  unfold headMoves
  try dsimp only
  refine .ite ?_ ?_
  · exact .refl
  · refine .step (setRelay_changes ..) ?_ rfl
    exact .refl

theorem ackTimeout_changes (id : Nat) (p : Bool) (s : State) : Changes [.regs, .rf, .eth, .relay, .host, .out, .draws] s (ackTimeout id p s) := by
  unfold ackTimeout
  try dsimp only
  split
  · exact .refl
  · refine .ite ?_ ?_
    · exact .refl
    · refine .ite ?_ ?_
      · refine .step (pathFail_changes ..) ?_ rfl
        refine .step (setRelay_changes ..) ?_ rfl
        refine .step (sendFrame_changes ..) ?_ rfl
        refine .step (ethCount_changes ..) ?_ rfl
        exact .refl
      · refine .step (setRelay_changes ..) ?_ rfl
        refine .step (sendFrame_changes ..) ?_ rfl
        refine .step (ethCount_changes ..) ?_ rfl
        exact .refl

theorem ackReceived_changes (from_ : BitVec 12) (seq : W32) (s : State) : Changes [.relay, .jr] s (ackReceived from_ seq s) := by
  unfold ackReceived
  try dsimp only
  split
  · exact .refl
  · refine .step (setRelay_changes ..) ?_ rfl
    refine .step (journal_changes ..) ?_ rfl
    exact .refl

theorem spoolDrain_changes (s : State) : Changes [.relay, .jr] s (spoolDrain s) := by
  unfold spoolDrain
  try dsimp only
  refine .ite ?_ ?_
  · exact .refl
  · split
    · refine .step (setRelay_changes ..) ?_ rfl
      exact .refl
    · refine .step (holdEntry_changes ..) ?_ rfl
      refine .step (journal_changes ..) ?_ rfl
      refine .step (setRelay_changes ..) ?_ rfl
      exact .refl

theorem pauseSender_changes (p : Bool) (u : BitVec 12) (s : State) : Changes [.regs, .rf, .eth, .relay, .host, .out, .draws] s (pauseSender p u s) := by
  unfold pauseSender
  try dsimp only
  refine .ite ?_ ?_
  · refine .step (sendFrame_changes ..) ?_ rfl
    refine .step (setRelay_changes ..) ?_ rfl
    exact .refl
  · refine .step (setRelay_changes ..) ?_ rfl
    exact .refl

theorem pauseAll_changes (p : Bool) (s : State) : Changes [.regs, .rf, .eth, .relay, .host, .out, .draws] s (pauseAll p s) := by
  unfold pauseAll
  try dsimp only
  refine .foldl (fun _ _ _ => ?_) ?_
  · split
    · refine .ite ?_ ?_
      · refine .step (pauseSender_changes ..) ?_ rfl
        assumption
      · assumption
    · assumption
  · exact .refl

theorem resumeAll_changes (p : Bool) (s : State) : Changes [.regs, .rf, .eth, .relay, .host, .out, .draws] s (resumeAll p s) := by
  unfold resumeAll
  try dsimp only
  refine .foldl (fun _ _ _ => ?_) ?_
  · refine .ite ?_ ?_
    · refine .step (sendFrame_changes ..) ?_ rfl
      assumption
    · assumption
  · refine .step (setRelay_changes ..) ?_ rfl
    exact .refl

theorem intakeWrite_changes (q : Nat) (n : Nat) (s : State) : Changes [.regs, .rf, .eth, .relay, .host, .queues, .out, .draws] s (intakeWrite q n s) := by
  unfold intakeWrite
  try dsimp only
  refine .ite ?_ ?_
  · refine .step (pauseAll_changes ..) ?_ rfl
    refine .step (queueWrite_changes ..) ?_ rfl
    exact .refl
  · refine .step (queueWrite_changes ..) ?_ rfl
    exact .refl

theorem intakeRead_changes (q : Nat) (n : Nat) (s : State) : Changes [.regs, .rf, .eth, .relay, .host, .queues, .out, .draws] s (intakeRead q n s) := by
  unfold intakeRead
  try dsimp only
  refine .ite ?_ ?_
  · refine .step (resumeAll_changes ..) ?_ rfl
    refine .step (queueRead_changes ..) ?_ rfl
    exact .refl
  · refine .step (queueRead_changes ..) ?_ rfl
    exact .refl

theorem relayResult_changes (ref : Nat) (oc : Nat) (s : State) : Changes [.relay] s (relayResult ref oc s) := by
  unfold relayResult
  try dsimp only
  refine .ite ?_ ?_
  · exact .refl
  · refine .step (setRelay_changes ..) ?_ rfl
    exact .refl

theorem batchAck_changes (sender : BitVec 12) (seq : W32) (s : State) : Changes [.regs, .rf, .eth, .relay, .host, .out, .draws] s (batchAck sender seq s) := by
  unfold batchAck
  try dsimp only
  split
  · exact .refl
  · refine .ite ?_ ?_
    · exact .refl
    · refine .step (sendFrame_changes ..) ?_ rfl
      refine .step (setRelay_changes ..) ?_ rfl
      exact .refl

end Sys2Proof.Machine
end

