-- ==== Sys2Proof/Laws/ChangesTable.lean ====
section
/-!
SUPPORT. Sys2Proof/Laws/ChangesTable.lean: what each operation may change: the meter table, rule programs, modules, access links and balance trees.
-/
namespace Sys2Proof.Machine

theorem setCampState_changes (f : CampState → CampState) (s : State) : Changes [.camp] s (setCampState f s) := by
  unfold setCampState
  try dsimp only
  refine .step (Changes.set_camp ..) ?_ rfl
  exact .refl

theorem putCamp_changes (n : Nat) (c : Option Camp) (s : State) : Changes [.camp, .jr] s (putCamp n c s) := by
  unfold putCamp
  try dsimp only
  refine .step (journal_changes ..) ?_ rfl
  refine .step (setCampState_changes ..) ?_ rfl
  exact .refl

theorem tellCamp_changes (u : BitVec 12) (c : Camp) (s : State) : Changes [.regs, .win, .relay, .jr, .evt] s (tellCamp u c s) := by
  unfold tellCamp
  try dsimp only
  split
  · refine .step (sendEntry_changes ..) ?_ rfl
    refine .step (sendEntry_changes ..) ?_ rfl
    refine .step (sendEntry_changes ..) ?_ rfl
    exact .refl
  · refine .step (sendEntry_changes ..) ?_ rfl
    refine .step (sendEntry_changes ..) ?_ rfl
    exact .refl

theorem sendMembers_changes (u : BitVec 12) (slot : Nat) (s : State) : Changes [.regs, .win, .relay, .jr, .evt] s (sendMembers u slot s) := by
  unfold sendMembers
  try dsimp only
  refine .foldl (fun _ _ _ => ?_) ?_
  · split
    · refine .step (sendEntry_changes ..) ?_ rfl
      refine .step (tellCamp_changes ..) ?_ rfl
      assumption
    · assumption
  · exact .refl

theorem sendRelease_changes (u : BitVec 12) (slot : Nat) (title : W64) (s : State) : Changes [.regs, .win, .relay, .jr, .evt] s (sendRelease u slot title s) := by
  unfold sendRelease
  try dsimp only
  refine .step (sendEntry_changes ..) ?_ rfl
  refine .foldl (fun _ _ _ => ?_) ?_
  · refine .step (sendEntry_changes ..) ?_ rfl
    assumption
  · exact .refl

theorem dropFingerprint_changes (title : W64) (s : State) : Changes [.plc, .jr] s (dropFingerprint title s) := by
  unfold dropFingerprint
  try dsimp only
  refine .foldl (fun _ _ _ => ?_) ?_
  · refine .ite ?_ ?_
    · assumption
    · refine .step (journal_changes ..) ?_ rfl
      refine .step (Changes.set_plc ..) ?_ rfl
      assumption
  · exact .refl

theorem dropMemberships_changes (title : W64) (s : State) : Changes [.camp, .jr] s (dropMemberships title s) := by
  unfold dropMemberships
  try dsimp only
  refine .foldl (fun _ _ _ => ?_) ?_
  · refine .ite ?_ ?_
    · refine .step (putCamp_changes ..) ?_ rfl
      assumption
    · assumption
  · exact .refl

theorem putIdx_changes (c : Nat × IdxEntry) (s : State) : Changes [.table] s (putIdx c s) := by
  unfold putIdx
  try dsimp only
  refine .step (Changes.set_table ..) ?_ rfl
  exact .refl

theorem writeSlotIdx_changes (n : Nat) (v : Slot) (c : Option (Nat × IdxEntry)) (s : State) : Changes [.table, .jr] s (writeSlotIdx n v c s) := by
  unfold writeSlotIdx
  try dsimp only
  refine .step (journal_changes ..) ?_ rfl
  refine .step (Changes.set_table ..) ?_ rfl
  split
  · refine .step (putIdx_changes ..) ?_ rfl
    exact .refl
  · exact .refl

theorem writeSlot_changes (n : Nat) (v : Slot) (s : State) : Changes [.table, .jr] s (writeSlot n v s) := by
  unfold writeSlot
  try dsimp only
  refine .step (writeSlotIdx_changes ..) ?_ rfl
  exact .refl

theorem writeRec_changes (n : Nat) (f : RecImg → RecImg) (s : State) : Changes [.table, .jr] s (writeRec n f s) := by
  unfold writeRec
  try dsimp only
  refine .step (writeSlot_changes ..) ?_ rfl
  exact .refl

theorem ownWriteNow_changes (w : LateWrite) (s : State) : Changes [.table, .jr] s (ownWriteNow w s) := by
  unfold ownWriteNow
  try dsimp only
  refine .ite ?_ ?_
  · exact .refl
  · refine .step (writeRec_changes ..) ?_ rfl
    exact .refl

theorem ownWrite_changes (w : LateWrite) (s : State) : Changes [.table, .jr] s (ownWrite w s) := by
  unfold ownWrite
  try dsimp only
  refine .ite ?_ ?_
  · refine .step (Changes.set_table ..) ?_ rfl
    exact .refl
  · refine .step (ownWriteNow_changes ..) ?_ rfl
    exact .refl

theorem runLate_changes (s : State) : Changes [.table, .jr] s (runLate s) := by
  unfold runLate
  try dsimp only
  refine .foldl (fun _ _ _ => ?_) ?_
  · refine .step (ownWrite_changes ..) ?_ rfl
    assumption
  · refine .step (Changes.set_table ..) ?_ rfl
    exact .refl

theorem insertRefused_changes (reason : Nat) (slot : Option Nat) (title : W64) (s : State) : Changes [.regs, .evt] s (insertRefused reason slot title s) := by
  unfold insertRefused
  try dsimp only
  refine .step (event_changes ..) ?_ rfl
  refine .step (count_changes _ _ rfl) ?_ rfl
  exact .refl

theorem freeTheSlot_changes (n : Nat) (c : Option (Nat × IdxEntry)) (s : State) : Changes [.table, .jr, .sec] s (freeTheSlot n c s) := by
  unfold freeTheSlot
  try dsimp only
  refine .step (Changes.set_sec _ _ (by intro h; first | exact h | rfl | exact Kv.wf_putOr _ _ _ h | exact Kv.wf_putOpt _ _ h | exact Kv.wf_map _ h (fun _ => rfl) | exact Kv.wf_foldl_upd _ _ _ _ h | exact wf_toKv _)) ?_ rfl
  refine .step (writeSlotIdx_changes ..) ?_ rfl
  exact .refl

theorem keepReadings_changes (n : Nat) (s : State) : Changes [.pipe] s (keepReadings n s) := by
  unfold keepReadings
  try dsimp only
  refine .step (Changes.set_pipe _ _ (by first | rfl | (simp; done) | (simp; omega))) ?_ rfl
  exact .refl

theorem retire_changes (n : Nat) (release : Bool) (s : State) : Changes [.regs, .win, .table, .pipe, .camp, .plc, .relay, .jr, .sec, .evt] s (retire n release s) := by
  unfold retire
  try dsimp only
  refine .ite ?_ ?_
  · refine .step (freeTheSlot_changes ..) ?_ rfl
    refine .step (dropFingerprint_changes ..) ?_ rfl
    refine .step (dropMemberships_changes ..) ?_ rfl
    refine .ite ?_ ?_
    · refine .step (sendRelease_changes ..) ?_ rfl
      refine .step (writeSlotIdx_changes ..) ?_ rfl
      refine .step (keepReadings_changes ..) ?_ rfl
      exact .refl
    · refine .step (writeSlotIdx_changes ..) ?_ rfl
      refine .step (keepReadings_changes ..) ?_ rfl
      exact .refl
  · refine .step (dropFingerprint_changes ..) ?_ rfl
    refine .step (dropMemberships_changes ..) ?_ rfl
    refine .ite ?_ ?_
    · refine .step (sendRelease_changes ..) ?_ rfl
      refine .step (writeSlotIdx_changes ..) ?_ rfl
      refine .step (keepReadings_changes ..) ?_ rfl
      exact .refl
    · refine .step (writeSlotIdx_changes ..) ?_ rfl
      refine .step (keepReadings_changes ..) ?_ rfl
      exact .refl

theorem icEvent_changes (n : Nat) (before : RecImg) (after : RecImg) (s : State) : Changes [.evt] s (icEvent n before after s) := by
  unfold icEvent
  try dsimp only
  refine .ite ?_ ?_
  · refine .step (event_changes ..) ?_ rfl
    exact .refl
  · exact .refl

theorem noteUnknown_changes (title : W64) (source : Byte) (from_ : BitVec 12) (s : State) : Changes [.regs, .win, .table, .relay, .jr, .host, .evt, .out] s (noteUnknown title source from_ s) := by
  unfold noteUnknown
  try dsimp only
  refine .ite ?_ ?_
  · refine .ite ?_ ?_
    · refine .step (postNow_changes ..) ?_ rfl
      refine .step (Changes.set_table ..) ?_ rfl
      refine .ite ?_ ?_
      · refine .step (count_changes _ _ rfl) ?_ rfl
        exact .refl
      · exact .refl
    · refine .step (Changes.set_table ..) ?_ rfl
      refine .ite ?_ ?_
      · refine .step (count_changes _ _ rfl) ?_ rfl
        exact .refl
      · exact .refl
  · refine .ite ?_ ?_
    · refine .step (sendEntry_changes ..) ?_ rfl
      refine .step (Changes.set_table ..) ?_ rfl
      refine .ite ?_ ?_
      · refine .step (count_changes _ _ rfl) ?_ rfl
        exact .refl
      · exact .refl
    · refine .step (Changes.set_table ..) ?_ rfl
      refine .ite ?_ ?_
      · refine .step (count_changes _ _ rfl) ?_ rfl
        exact .refl
      · exact .refl

theorem evict_changes (s : State) : Changes [.regs, .table, .jr, .sec] s (evict s) := by
  unfold evict
  try dsimp only
  refine .ite ?_ ?_
  · exact .refl
  · split
    · exact .refl
    · refine .ite ?_ ?_
      · refine .step (count_changes _ _ rfl) ?_ rfl
        refine .step (freeTheSlot_changes ..) ?_ rfl
        exact .refl
      · exact .refl

theorem linkJoin_changes (title : W64) (link : Byte) (short : BitVec 16) (eui : W64) (s : State) : Changes [.regs, .win, .table, .relay, .jr, .sec, .evt] s (linkJoin title link short eui s) := by
  unfold linkJoin
  try dsimp only
  refine .ite ?_ ?_
  · exact .refl
  · split
    · refine .step (sendEntry_changes ..) ?_ rfl
      refine .step (writeRec_changes ..) ?_ rfl
      exact .refl
    · split
      · refine .step (insertRefused_changes ..) ?_ rfl
        refine .ite ?_ ?_
        · refine .step (evict_changes ..) ?_ rfl
          exact .refl
        · exact .refl
      · refine .step (sendEntry_changes ..) ?_ rfl
        refine .step (Changes.set_table ..) ?_ rfl
        refine .ite ?_ ?_
        · refine .step (evict_changes ..) ?_ rfl
          exact .refl
        · exact .refl

theorem recordEntry_changes (img : RecImg) (keys : RecKeys) (s : State) : Changes [.regs, .win, .table, .relay, .jr, .sec, .evt] s (recordEntry img keys s) := by
  unfold recordEntry
  try dsimp only
  refine .ite ?_ ?_
  · exact .refl
  · split
    · refine .of_fst (by assumption) ?_
      split
      · dsimp only
        refine .step (Changes.set_table ..) ?_ rfl
        exact .refl
      · split
        · dsimp only
          refine .step (insertRefused_changes ..) ?_ rfl
          refine .ite ?_ ?_
          · refine .step (evict_changes ..) ?_ rfl
            refine .step (Changes.set_table ..) ?_ rfl
            exact .refl
          · refine .step (Changes.set_table ..) ?_ rfl
            exact .refl
        · split
          · dsimp only
            refine .step (insertRefused_changes ..) ?_ rfl
            refine .ite ?_ ?_
            · refine .step (evict_changes ..) ?_ rfl
              refine .step (Changes.set_table ..) ?_ rfl
              exact .refl
            · refine .step (Changes.set_table ..) ?_ rfl
              exact .refl
          · dsimp only
            refine .ite ?_ ?_
            · refine .step (evict_changes ..) ?_ rfl
              refine .step (Changes.set_table ..) ?_ rfl
              exact .refl
            · refine .step (Changes.set_table ..) ?_ rfl
              exact .refl
    · split
      · refine .step (sendEntry_changes ..) ?_ rfl
        refine .step (writeSlotIdx_changes ..) ?_ rfl
        refine .of_fst (by assumption) ?_
        split
        · dsimp only
          refine .step (Changes.set_table ..) ?_ rfl
          exact .refl
        · split
          · dsimp only
            refine .step (insertRefused_changes ..) ?_ rfl
            refine .ite ?_ ?_
            · refine .step (evict_changes ..) ?_ rfl
              refine .step (Changes.set_table ..) ?_ rfl
              exact .refl
            · refine .step (Changes.set_table ..) ?_ rfl
              exact .refl
          · split
            · dsimp only
              refine .step (insertRefused_changes ..) ?_ rfl
              refine .ite ?_ ?_
              · refine .step (evict_changes ..) ?_ rfl
                refine .step (Changes.set_table ..) ?_ rfl
                exact .refl
              · refine .step (Changes.set_table ..) ?_ rfl
                exact .refl
            · dsimp only
              refine .ite ?_ ?_
              · refine .step (evict_changes ..) ?_ rfl
                refine .step (Changes.set_table ..) ?_ rfl
                exact .refl
              · refine .step (Changes.set_table ..) ?_ rfl
                exact .refl
      · refine .step (writeSlotIdx_changes ..) ?_ rfl
        refine .of_fst (by assumption) ?_
        split
        · dsimp only
          refine .step (Changes.set_table ..) ?_ rfl
          exact .refl
        · split
          · dsimp only
            refine .step (insertRefused_changes ..) ?_ rfl
            refine .ite ?_ ?_
            · refine .step (evict_changes ..) ?_ rfl
              refine .step (Changes.set_table ..) ?_ rfl
              exact .refl
            · refine .step (Changes.set_table ..) ?_ rfl
              exact .refl
          · split
            · dsimp only
              refine .step (insertRefused_changes ..) ?_ rfl
              refine .ite ?_ ?_
              · refine .step (evict_changes ..) ?_ rfl
                refine .step (Changes.set_table ..) ?_ rfl
                exact .refl
              · refine .step (Changes.set_table ..) ?_ rfl
                exact .refl
            · dsimp only
              refine .ite ?_ ?_
              · refine .step (evict_changes ..) ?_ rfl
                refine .step (Changes.set_table ..) ?_ rfl
                exact .refl
              · refine .step (Changes.set_table ..) ?_ rfl
                exact .refl

theorem releaseEntry_changes (title : W64) (s : State) : Changes [.regs, .win, .table, .pipe, .camp, .plc, .relay, .jr, .sec, .evt] s (releaseEntry title s) := by
  unfold releaseEntry
  try dsimp only
  refine .ite ?_ ?_
  · exact .refl
  · split
    · refine .step (retire_changes ..) ?_ rfl
      exact .refl
    · refine .step (count_changes _ _ rfl) ?_ rfl
      exact .refl

theorem fetchNakEntry_changes (title : W64) (s : State) : Changes [.regs, .win, .table, .relay, .jr, .host, .evt, .out] s (fetchNakEntry title s) := by
  unfold fetchNakEntry
  try dsimp only
  refine .ite ?_ ?_
  · exact .refl
  · refine .step (noteUnknown_changes ..) ?_ rfl
    refine .step (Changes.set_table ..) ?_ rfl
    exact .refl

theorem moveMeter_changes (n : Nat) (to_ : BitVec 12) (also : RecImg → RecImg) (s : State) : Changes [.regs, .table, .bal, .jr, .evt] s (moveMeter n to_ also s) := by
  unfold moveMeter
  try dsimp only
  refine .ite ?_ ?_
  · refine .step (event_changes ..) ?_ rfl
    refine .step (writeRec_changes ..) ?_ rfl
    refine .step (count_changes _ _ rfl) ?_ rfl
    refine .step (putWork_changes ..) ?_ rfl
    exact .refl
  · refine .step (writeRec_changes ..) ?_ rfl
    refine .step (count_changes _ _ rfl) ?_ rfl
    refine .step (putWork_changes ..) ?_ rfl
    exact .refl

theorem fetchEntry_changes (title : W64) (u : BitVec 12) (s : State) : Changes [.regs, .win, .table, .bal, .relay, .jr, .host, .evt, .out] s (fetchEntry title u s) := by
  unfold fetchEntry
  try dsimp only
  refine .ite ?_ ?_
  · exact .refl
  · split
    · refine .step (noteUnknown_changes ..) ?_ rfl
      refine .step (sendEntry_changes ..) ?_ rfl
      exact .refl
    · refine .ite ?_ ?_
      · refine .step (sendEntry_changes ..) ?_ rfl
        exact .refl
      · refine .ite ?_ ?_
        · refine .step (sendMembers_changes ..) ?_ rfl
          refine .step (sendEntry_changes ..) ?_ rfl
          exact .refl
        · refine .ite ?_ ?_
          · refine .step (sendMembers_changes ..) ?_ rfl
            refine .step (sendEntry_changes ..) ?_ rfl
            refine .step (writeRec_changes ..) ?_ rfl
            exact .refl
          · refine .step (Changes.set_table ..) ?_ rfl
            refine .step (moveMeter_changes ..) ?_ rfl
            exact .refl

theorem joinReportEntry_changes (title : W64) (t : W64) (eui : W64) (u : BitVec 12) (s : State) : Changes [.regs, .table, .bal, .jr, .evt] s (joinReportEntry title t eui u s) := by
  unfold joinReportEntry
  try dsimp only
  refine .ite ?_ ?_
  · exact .refl
  · split
    · exact .refl
    · refine .ite ?_ ?_
      · exact .refl
      · refine .ite ?_ ?_
        · refine .step (Changes.set_table ..) ?_ rfl
          refine .ite ?_ ?_
          · refine .step (moveMeter_changes ..) ?_ rfl
            exact .refl
          · refine .step (writeRec_changes ..) ?_ rfl
            exact .refl
        · refine .ite ?_ ?_
          · refine .step (moveMeter_changes ..) ?_ rfl
            exact .refl
          · refine .step (writeRec_changes ..) ?_ rfl
            exact .refl

theorem tblRead_changes (slot : Nat) (s : State) : Changes [] s (tblRead slot s).1 := by
  unfold tblRead
  try dsimp only
  refine .fst_ite ?_ ?_
  · dsimp only
    exact .refl
  · dsimp only
    exact .refl

theorem tblFind_changes (title : W64) (s : State) : Changes [] s (tblFind title s).1 := by
  unfold tblFind
  try dsimp only
  split
  · dsimp only
    exact .refl
  · dsimp only
    exact .refl

theorem tblDump_changes (first : Nat) (cnt : Nat) (s : State) : Changes [] s (tblDump first cnt s).1 := by
  unfold tblDump
  try dsimp only
  exact .refl

theorem tblWrite_changes (slot : Nat) (expect : W32) (m : BitVec 256) (image : RecImg) (s : State) : Changes [.table, .jr] s (tblWrite slot expect m image s).1 := by
  unfold tblWrite
  try dsimp only
  refine .fst_ite ?_ ?_
  · dsimp only
    exact .refl
  · refine .fst_ite ?_ ?_
    · dsimp only
      exact .refl
    · refine .fst_ite ?_ ?_
      · dsimp only
        exact .refl
      · refine .fst_ite ?_ ?_
        · dsimp only
          exact .refl
        · dsimp only
          refine .step (writeRec_changes ..) ?_ rfl
          exact .refl

theorem tblSet_changes (slot : Nat) (expect : W32) (m : BitVec 256) (image : RecImg) (s : State) : Changes [.regs, .win, .table, .pipe, .camp, .plc, .relay, .jr, .sec, .evt] s (tblSet slot expect m image s).1 := by
  unfold tblSet
  try dsimp only
  refine .fst_ite ?_ ?_
  · dsimp only
    exact .refl
  · refine .fst_ite ?_ ?_
    · dsimp only
      exact .refl
    · refine .fst_ite ?_ ?_
      · dsimp only
        exact .refl
      · refine .fst_ite ?_ ?_
        · dsimp only
          exact .refl
        · refine .fst_ite ?_ ?_
          · dsimp only
            exact .refl
          · refine .fst_ite ?_ ?_
            · refine .fst_ite ?_ ?_
              · dsimp only
                exact .refl
              · dsimp only
                refine .step (retire_changes ..) ?_ rfl
                exact .refl
            · dsimp only
              refine .step (icEvent_changes ..) ?_ rfl
              refine .step (writeRec_changes ..) ?_ rfl
              exact .refl

theorem tblProvision_changes (h : Hdr) (title : W64) (gen : Byte) (window : Byte) (ruleSet : BitVec 16) (service : BitVec 12) (ek : Wrapped) (ak : Wrapped) (s : State) : Changes [.regs, .table, .jr, .evt] s (tblProvision h title gen window ruleSet service ek ak s).1 := by
  unfold tblProvision
  try dsimp only
  refine .fst_ite ?_ ?_
  · dsimp only
    exact .refl
  · split
    · split
      · dsimp only
        refine .step (insertRefused_changes ..) ?_ rfl
        exact .refl
      · split
        · dsimp only
          refine .step (insertRefused_changes ..) ?_ rfl
          exact .refl
        · dsimp only
          refine .step (writeSlotIdx_changes ..) ?_ rfl
          exact .refl
    · dsimp only
      exact .refl

theorem tblKeyStage_changes (h : Hdr) (slot : Nat) (gen : Byte) (ek : Wrapped) (ak : Wrapped) (s : State) : Changes [.table, .jr] s (tblKeyStage h slot gen ek ak s).1 := by
  unfold tblKeyStage
  try dsimp only
  refine .fst_ite ?_ ?_
  · dsimp only
    exact .refl
  · split
    · dsimp only
      refine .step (writeSlot_changes ..) ?_ rfl
      exact .refl
    · dsimp only
      exact .refl

theorem tblRetire_changes (slot : Nat) (s : State) : Changes [.regs, .win, .table, .pipe, .camp, .plc, .relay, .jr, .sec, .evt] s (tblRetire slot s).1 := by
  unfold tblRetire
  try dsimp only
  refine .fst_ite ?_ ?_
  · dsimp only
    exact .refl
  · dsimp only
    refine .step (retire_changes ..) ?_ rfl
    exact .refl

theorem fetchRetry_changes (title : W64) (s : State) : Changes [.regs, .win, .table, .relay, .jr, .host, .evt, .out] s (fetchRetry title s) := by
  unfold fetchRetry
  try dsimp only
  split
  · exact .refl
  · refine .ite ?_ ?_
    · refine .step (sendEntry_changes ..) ?_ rfl
      refine .step (Changes.set_table ..) ?_ rfl
      exact .refl
    · refine .step (noteUnknown_changes ..) ?_ rfl
      refine .step (Changes.set_table ..) ?_ rfl
      exact .refl

theorem moveRelease_changes (s : State) : Changes [.regs, .win, .table, .relay, .jr, .evt] s (moveRelease s) := by
  unfold moveRelease
  try dsimp only
  split
  · exact .refl
  · refine .ite ?_ ?_
    · exact .refl
    · refine .ite ?_ ?_
      · refine .ite ?_ ?_
        · refine .ite ?_ ?_
          · refine .step (Changes.set_table ..) ?_ rfl
            exact .refl
          · refine .step (sendMembers_changes ..) ?_ rfl
            refine .ite ?_ ?_
            · refine .step (sendEntry_changes ..) ?_ rfl
              refine .step (Changes.set_table ..) ?_ rfl
              exact .refl
            · refine .step (Changes.set_table ..) ?_ rfl
              exact .refl
        · refine .step (sendRelease_changes ..) ?_ rfl
          refine .ite ?_ ?_
          · refine .step (Changes.set_table ..) ?_ rfl
            exact .refl
          · refine .step (sendMembers_changes ..) ?_ rfl
            refine .ite ?_ ?_
            · refine .step (sendEntry_changes ..) ?_ rfl
              refine .step (Changes.set_table ..) ?_ rfl
              exact .refl
            · refine .step (Changes.set_table ..) ?_ rfl
              exact .refl
      · refine .ite ?_ ?_
        · refine .ite ?_ ?_
          · refine .step (Changes.set_table ..) ?_ rfl
            exact .refl
          · refine .step (sendRelease_changes ..) ?_ rfl
            refine .step (Changes.set_table ..) ?_ rfl
            exact .refl
        · refine .step (sendMembers_changes ..) ?_ rfl
          refine .ite ?_ ?_
          · refine .step (sendEntry_changes ..) ?_ rfl
            refine .ite ?_ ?_
            · refine .step (Changes.set_table ..) ?_ rfl
              exact .refl
            · refine .step (sendRelease_changes ..) ?_ rfl
              refine .step (Changes.set_table ..) ?_ rfl
              exact .refl
          · refine .ite ?_ ?_
            · refine .step (Changes.set_table ..) ?_ rfl
              exact .refl
            · refine .step (sendRelease_changes ..) ?_ rfl
              refine .step (Changes.set_table ..) ?_ rfl
              exact .refl

theorem retireHoldExpiry_changes (n : Nat) (s : State) : Changes [.table, .jr, .sec] s (retireHoldExpiry n s) := by
  unfold retireHoldExpiry
  try dsimp only
  refine .ite ?_ ?_
  · refine .step (freeTheSlot_changes ..) ?_ rfl
    exact .refl
  · exact .refl

theorem ageCheck_changes (s : State) : Changes [.regs, .win, .table, .pipe, .camp, .plc, .relay, .jr, .sec, .evt] s (ageCheck s) := by
  unfold ageCheck
  try dsimp only
  refine .ite ?_ ?_
  · exact .refl
  · refine .foldl (fun _ _ _ => ?_) ?_
    · refine .ite ?_ ?_
      · refine .step (retire_changes ..) ?_ rfl
        assumption
      · assumption
    · exact .refl

theorem putRuleSet_changes (n : Nat) (v : RuleSet) (s : State) : Changes [.rules, .jr] s (putRuleSet n v s) := by
  unfold putRuleSet
  try dsimp only
  refine .step (journal_changes ..) ?_ rfl
  refine .step (Changes.set_rules ..) ?_ rfl
  exact .refl

theorem ruleStatus_changes (check : Nat) (index : Nat) (set : Nat) (s : State) : Changes [.regs] s (ruleStatus check index set s) := by
  unfold ruleStatus
  try dsimp only
  refine .step (setReg_changes _ _ _ rfl) ?_ rfl
  exact .refl

theorem ruleLoad_changes (img : List Byte) (s : State) : Changes [.regs, .rules, .jr] s (ruleLoad img s).1 := by
  unfold ruleLoad
  try dsimp only
  refine .fst_ite ?_ ?_
  · dsimp only
    refine .step (ruleStatus_changes ..) ?_ rfl
    exact .refl
  · split
    · dsimp only
      refine .step (ruleStatus_changes ..) ?_ rfl
      exact .refl
    · refine .fst_ite ?_ ?_
      · dsimp only
        refine .step (ruleStatus_changes ..) ?_ rfl
        exact .refl
      · refine .fst_ite ?_ ?_
        · dsimp only
          refine .step (ruleStatus_changes ..) ?_ rfl
          exact .refl
        · dsimp only
          refine .step (putRuleSet_changes ..) ?_ rfl
          refine .step (ruleStatus_changes ..) ?_ rfl
          exact .refl

theorem ruleMark_changes (h : Hdr) (sets : List Nat) (remove : Bool) (s : State) : Changes [.rules] s (ruleMark h sets remove s).1 := by
  unfold ruleMark
  try dsimp only
  refine .fst_ite ?_ ?_
  · dsimp only
    exact .refl
  · refine .fst_ite ?_ ?_
    · dsimp only
      exact .refl
    · refine .fst_ite ?_ ?_
      · dsimp only
        exact .refl
      · dsimp only
        refine .step (Changes.set_rules ..) ?_ rfl
        exact .refl

theorem finishMarks_changes (s : State) : Changes [.regs, .rules, .eth, .jr, .host, .out] s (finishMarks s) := by
  unfold finishMarks
  try dsimp only
  refine .foldl (fun _ _ _ => ?_) ?_
  · refine .ite ?_ ?_
    · assumption
    · refine .step (answer_changes ..) ?_ rfl
      refine .foldl (fun _ _ _ => ?_) ?_
      · refine .step (putRuleSet_changes ..) ?_ rfl
        assumption
      · refine .step (Changes.set_rules ..) ?_ rfl
        assumption
  · exact .refl

theorem markPass_changes (c : Nat) (s : State) : Changes [.regs, .rules, .eth, .jr, .host, .out] s (markPass c s) := by
  unfold markPass
  try dsimp only
  split
  · exact .refl
  · refine .ite ?_ ?_
    · exact .refl
    · refine .step (finishMarks_changes ..) ?_ rfl
      refine .step (Changes.set_rules ..) ?_ rfl
      exact .refl

theorem voidMarks_changes (c : Nat) (s : State) : Changes [.rules] s (voidMarks c s) := by
  unfold voidMarks
  try dsimp only
  refine .step (Changes.set_rules ..) ?_ rfl
  exact .refl

theorem countRule_changes (f : Flight) (n : Nat) (g : RuleCounts → RuleCounts) (s : State) : Changes [.rules] s (countRule f n g s) := by
  unfold countRule
  try dsimp only
  refine .step (Changes.set_rules ..) ?_ rfl
  exact .refl

theorem ruleRead_changes (n : Nat) (s : State) : Changes [] s (ruleRead n s).1 := by
  unfold ruleRead
  try dsimp only
  refine .fst_ite ?_ ?_
  · dsimp only
    exact .refl
  · dsimp only
    exact .refl

theorem setMea_changes (f : MeaState → MeaState) (s : State) : Changes [.mea] s (setMea f s) := by
  unfold setMea
  try dsimp only
  refine .step (Changes.set_mea ..) ?_ rfl
  exact .refl

theorem putModSlot_changes (k : Nat) (v : ModSlot) (s : State) : Changes [.mea] s (putModSlot k v s) := by
  unfold putModSlot
  try dsimp only
  refine .step (setMea_changes ..) ?_ rfl
  exact .refl

theorem setHead_changes (h : Nat) (f : MeaHead → MeaHead) (s : State) : Changes [.mea] s (setHead h f s) := by
  unfold setHead
  try dsimp only
  refine .step (setMea_changes ..) ?_ rfl
  exact .refl

theorem acceptRecord_changes (k : Nat) (r : List Byte) (s : State) : Changes [.regs, .mea, .evt] s (acceptRecord k r s) := by
  unfold acceptRecord
  try dsimp only
  refine .ite ?_ ?_
  · refine .step (setHead_changes ..) ?_ rfl
    refine .step (putModSlot_changes ..) ?_ rfl
    refine .step (setMea_changes ..) ?_ rfl
    refine .ite ?_ ?_
    · refine .ite ?_ ?_
      · refine .step (setHead_changes ..) ?_ rfl
        refine .step (event_changes ..) ?_ rfl
        refine .step (count_changes _ _ rfl) ?_ rfl
        exact .refl
      · refine .step (event_changes ..) ?_ rfl
        refine .step (count_changes _ _ rfl) ?_ rfl
        exact .refl
    · exact .refl
  · refine .ite ?_ ?_
    · refine .ite ?_ ?_
      · refine .step (event_changes ..) ?_ rfl
        refine .step (putModSlot_changes ..) ?_ rfl
        refine .step (setMea_changes ..) ?_ rfl
        refine .ite ?_ ?_
        · refine .ite ?_ ?_
          · refine .step (setHead_changes ..) ?_ rfl
            refine .step (event_changes ..) ?_ rfl
            refine .step (count_changes _ _ rfl) ?_ rfl
            exact .refl
          · refine .step (event_changes ..) ?_ rfl
            refine .step (count_changes _ _ rfl) ?_ rfl
            exact .refl
        · exact .refl
      · refine .step (putModSlot_changes ..) ?_ rfl
        refine .step (setMea_changes ..) ?_ rfl
        refine .ite ?_ ?_
        · refine .ite ?_ ?_
          · refine .step (setHead_changes ..) ?_ rfl
            refine .step (event_changes ..) ?_ rfl
            refine .step (count_changes _ _ rfl) ?_ rfl
            exact .refl
          · refine .step (event_changes ..) ?_ rfl
            refine .step (count_changes _ _ rfl) ?_ rfl
            exact .refl
        · exact .refl
    · refine .step (putModSlot_changes ..) ?_ rfl
      refine .step (setMea_changes ..) ?_ rfl
      refine .ite ?_ ?_
      · refine .ite ?_ ?_
        · refine .step (setHead_changes ..) ?_ rfl
          refine .step (event_changes ..) ?_ rfl
          refine .step (count_changes _ _ rfl) ?_ rfl
          exact .refl
        · refine .step (event_changes ..) ?_ rfl
          refine .step (count_changes _ _ rfl) ?_ rfl
          exact .refl
      · exact .refl

theorem readModule_changes (k : Nat) (m : ModRecord) (s : State) : Changes [.regs, .mea, .evt] s (readModule k m s) := by
  unfold readModule
  try dsimp only
  refine .ite ?_ ?_
  · refine .step (acceptRecord_changes ..) ?_ rfl
    refine .step (count_changes _ _ rfl) ?_ rfl
    refine .step (putModSlot_changes ..) ?_ rfl
    exact .refl
  · refine .ite ?_ ?_
    · refine .step (event_changes ..) ?_ rfl
      refine .step (count_changes _ _ rfl) ?_ rfl
      refine .step (count_changes _ _ rfl) ?_ rfl
      refine .step (putModSlot_changes ..) ?_ rfl
      exact .refl
    · refine .step (count_changes _ _ rfl) ?_ rfl
      refine .step (putModSlot_changes ..) ?_ rfl
      exact .refl

theorem presenceHigh_changes (k : Nat) (s : State) : Changes [.mea] s (presenceHigh k s) := by
  unfold presenceHigh
  try dsimp only
  refine .ite ?_ ?_
  · exact .refl
  · refine .ite ?_ ?_
    · refine .step (setHead_changes ..) ?_ rfl
      refine .step (putModSlot_changes ..) ?_ rfl
      exact .refl
    · refine .step (putModSlot_changes ..) ?_ rfl
      exact .refl

theorem presenceLow_changes (k : Nat) (s : State) : Changes [.mea] s (presenceLow k s) := by
  unfold presenceLow
  try dsimp only
  refine .ite ?_ ?_
  · exact .refl
  · refine .step (putModSlot_changes ..) ?_ rfl
    exact .refl

theorem presenceDebounce_changes (k : Nat) (m : ModRecord) (s : State) : Changes [.regs, .plc, .rf, .mea, .evt] s (presenceDebounce k m s) := by
  unfold presenceDebounce
  try dsimp only
  refine .ite ?_ ?_
  · exact .refl
  · refine .ite ?_ ?_
    · refine .step (Changes.set_plc ..) ?_ rfl
      refine .step (readModule_changes ..) ?_ rfl
      exact .refl
    · refine .ite ?_ ?_
      · refine .step (setRf_changes ..) ?_ rfl
        refine .step (readModule_changes ..) ?_ rfl
        exact .refl
      · refine .step (readModule_changes ..) ?_ rfl
        exact .refl

theorem setPlc_changes (n : Nat) (f : PlcState → PlcState) (s : State) : Changes [.plc] s (setPlc n f s) := by
  unfold setPlc
  try dsimp only
  refine .step (Changes.set_plc ..) ?_ rfl
  exact .refl

theorem plcJournal_changes (n : Nat) (s : State) : Changes [.jr] s (plcJournal n s) := by
  unfold plcJournal
  try dsimp only
  refine .step (journal_changes ..) ?_ rfl
  exact .refl

/-- No counter of an instance at this offset holds settings. -/
def plcFree (off : Nat) : Bool := (List.range 4).all fun k => !isSetup (plcBase k + off)
def rfFree (off : Nat) : Bool := (List.range 2).all fun k => !isSetup (rfBase k + off)
theorem plcCountBy_changes (n off k : Nat) (s : State) (ho : plcFree off = true) : Changes [.regs] s (plcCountBy n off k s) := by
  unfold plcCountBy
  split
  · have := List.all_eq_true.mp ho n (List.mem_range.mpr ‹_›)
    exact countBy_changes _ _ _ (by simpa using this)
  · exact .refl

theorem plcCount_changes (n off : Nat) (s : State) (ho : plcFree off = true) : Changes [.regs] s (plcCount n off s) := plcCountBy_changes _ _ _ _ ho

theorem plcEmit_changes (n : Nat) (hop : Option Nat) (dest : Option Nat) (level : PlcMod) (pay : AccessPay) (s : State) : Changes [.regs, .plc, .jr, .out] s (plcEmit n hop dest level pay s) := by
  unfold plcEmit
  try dsimp only
  refine .ite ?_ ?_
  · exact .refl
  · refine .step (emit_changes ..) ?_ rfl
    refine .step (plcCount_changes _ _ _ rfl) ?_ rfl
    refine .step (setPlc_changes ..) ?_ rfl
    refine .ite ?_ ?_
    · refine .step (plcJournal_changes ..) ?_ rfl
      refine .step (setPlc_changes ..) ?_ rfl
      exact .refl
    · exact .refl

theorem plcRreqSend_changes (n : Nat) (pay : AccessPay) (s : State) : Changes [.regs, .plc, .jr, .out] s (plcRreqSend n pay s) := by
  unfold plcRreqSend
  try dsimp only
  refine .step (plcEmit_changes ..) ?_ rfl
  refine .step (plcCount_changes _ _ _ rfl) ?_ rfl
  refine .step (setPlc_changes ..) ?_ rfl
  exact .refl

theorem plcDiscoverRun_changes (n : Nat) (s : State) : Changes [.regs, .plc, .jr, .out] s (plcDiscoverRun n s) := by
  unfold plcDiscoverRun
  try dsimp only
  refine .foldl (fun _ _ _ => ?_) ?_
  · refine .ite ?_ ?_
    · assumption
    · refine .step (plcRreqSend_changes ..) ?_ rfl
      refine .step (setPlc_changes ..) ?_ rfl
      assumption
  · exact .refl

theorem plcDiscover_changes (n : Nat) (dest : Nat) (s : State) : Changes [.regs, .plc, .jr, .out] s (plcDiscover n dest s) := by
  unfold plcDiscover
  try dsimp only
  refine .ite ?_ ?_
  · exact .refl
  · refine .step (plcDiscoverRun_changes ..) ?_ rfl
    refine .step (setPlc_changes ..) ?_ rfl
    exact .refl

theorem plcDirect_changes (n : Nat) (hop : Nat) (pay : AccessPay) (s : State) : Changes [.regs, .plc, .jr, .out] s (plcDirect n hop pay s) := by
  unfold plcDirect
  try dsimp only
  refine .step (plcEmit_changes ..) ?_ rfl
  refine .step (setPlc_changes ..) ?_ rfl
  exact .refl

theorem plcUnicast_changes (n : Nat) (dest : Nat) (pay : AccessPay) (s : State) : Changes [.regs, .plc, .jr, .out] s (plcUnicast n dest pay s) := by
  unfold plcUnicast
  try dsimp only
  split
  · refine .step (plcDiscover_changes ..) ?_ rfl
    refine .step (setPlc_changes ..) ?_ rfl
    refine .step (setPlc_changes ..) ?_ rfl
    exact .refl
  · refine .step (plcEmit_changes ..) ?_ rfl
    refine .step (setPlc_changes ..) ?_ rfl
    refine .step (setPlc_changes ..) ?_ rfl
    exact .refl

theorem plcFail_changes (n : Nat) (a1 : PlcTx) (s : State) : Changes [.regs, .plc, .jr, .out] s (plcFail n a1 s) := by
  unfold plcFail
  try dsimp only
  refine .step (plcDiscover_changes ..) ?_ rfl
  refine .step (plcCount_changes _ _ _ rfl) ?_ rfl
  refine .step (setPlc_changes ..) ?_ rfl
  exact .refl

theorem rfJournal_changes (n : Nat) (s : State) : Changes [.jr] s (rfJournal n s) := by
  unfold rfJournal
  try dsimp only
  refine .step (journal_changes ..) ?_ rfl
  exact .refl

theorem rfCountBy_changes (n off k : Nat) (s : State) (ho : rfFree off = true) : Changes [.regs] s (rfCountBy n off k s) := by
  unfold rfCountBy
  split
  · have := List.all_eq_true.mp ho n (List.mem_range.mpr ‹_›)
    exact countBy_changes _ _ _ (by simpa using this)
  · exact .refl

theorem rfCount_changes (n off : Nat) (s : State) (ho : rfFree off = true) : Changes [.regs] s (rfCount n off s) := rfCountBy_changes _ _ _ _ ho

theorem accessBroadcast_changes (link : Nat) (pay : AccessPay) (s : State) : Changes [.regs, .plc, .rf, .jr, .out] s (accessBroadcast link pay s) := by
  unfold accessBroadcast
  try dsimp only
  refine .ite ?_ ?_
  · refine .step (plcEmit_changes ..) ?_ rfl
    exact .refl
  · refine .step (rfQueue_changes ..) ?_ rfl
    exact .refl

theorem accessUnicast_changes (link : Nat) (title : W64) (pay : AccessPay) (s : State) : Changes [.regs, .plc, .rf, .jr, .out] s (accessUnicast link title pay s) := by
  unfold accessUnicast
  try dsimp only
  refine .ite ?_ ?_
  · split
    · refine .step (plcUnicast_changes ..) ?_ rfl
      exact .refl
    · exact .refl
  · split
    · refine .step (rfQueue_changes ..) ?_ rfl
      exact .refl
    · exact .refl

theorem voltSample_changes (n : Nat) (cap : W64) (v : Int) (s : State) : Changes [.bal, .jr] s (voltSample n cap v s) := by
  unfold voltSample
  try dsimp only
  split
  · exact .refl
  · refine .ite ?_ ?_
    · exact .refl
    · split
      · exact .refl
      · refine .ite ?_ ?_
        · exact .refl
        · refine .step (putWork_changes ..) ?_ rfl
          exact .refl

theorem balanceReading_changes (n : Nat) (cap : W64) (imp : Option Int) (exp : Option Int) (v1 : Option Int) (ev : Option Int) (err : Nat) (s : State) : Changes [.bal, .jr] s (balanceReading n cap imp exp v1 ev err s) := by
  unfold balanceReading
  try dsimp only
  split
  · refine .ite ?_ ?_
    · refine .step (voltSample_changes ..) ?_ rfl
      split
      · refine .ite ?_ ?_
        · refine .step (putWork_changes ..) ?_ rfl
          split
          · refine .ite ?_ ?_
            · refine .step (putWork_changes ..) ?_ rfl
              exact .refl
            · exact .refl
          · exact .refl
        · split
          · refine .ite ?_ ?_
            · refine .step (putWork_changes ..) ?_ rfl
              exact .refl
            · exact .refl
          · exact .refl
      · split
        · refine .ite ?_ ?_
          · refine .step (putWork_changes ..) ?_ rfl
            exact .refl
          · exact .refl
        · exact .refl
    · split
      · refine .ite ?_ ?_
        · refine .step (putWork_changes ..) ?_ rfl
          split
          · refine .ite ?_ ?_
            · refine .step (putWork_changes ..) ?_ rfl
              exact .refl
            · exact .refl
          · exact .refl
        · split
          · refine .ite ?_ ?_
            · refine .step (putWork_changes ..) ?_ rfl
              exact .refl
            · exact .refl
          · exact .refl
      · split
        · refine .ite ?_ ?_
          · refine .step (putWork_changes ..) ?_ rfl
            exact .refl
          · exact .refl
        · exact .refl
  · split
    · refine .ite ?_ ?_
      · refine .step (putWork_changes ..) ?_ rfl
        split
        · refine .ite ?_ ?_
          · refine .step (putWork_changes ..) ?_ rfl
            exact .refl
          · exact .refl
        · exact .refl
      · split
        · refine .ite ?_ ?_
          · refine .step (putWork_changes ..) ?_ rfl
            exact .refl
          · exact .refl
        · exact .refl
    · split
      · refine .ite ?_ ?_
        · refine .step (putWork_changes ..) ?_ rfl
          exact .refl
        · exact .refl
      · exact .refl

theorem zcVote_changes (n : Nat) (offset : Nat) (refPhase : Nat) (s : State) : Changes [.bal, .jr] s (zcVote n offset refPhase s) := by
  unfold zcVote
  try dsimp only
  refine .ite ?_ ?_
  · refine .step (putWork_changes ..) ?_ rfl
    exact .refl
  · split
    · exact .refl
    · refine .step (putWork_changes ..) ?_ rfl
      exact .refl

theorem fpVote_changes (n : Nat) (inst : Nat) (v : List Int) (s : State) : Changes [.bal, .jr] s (fpVote n inst v s) := by
  unfold fpVote
  try dsimp only
  split
  · refine .step (putWork_changes ..) ?_ rfl
    exact .refl
  · refine .step (putWork_changes ..) ?_ rfl
    refine .step (putWork_changes ..) ?_ rfl
    exact .refl

theorem storeMinute_changes (m : MeaMinute) (s : State) : Changes [.bal, .jr] s (storeMinute m s) := by
  unfold storeMinute
  try dsimp only
  refine .step (journal_changes ..) ?_ rfl
  refine .step (setBal_changes ..) ?_ rfl
  exact .refl

theorem storeRms_changes (m : MeaRms) (s : State) : Changes [.bal, .jr] s (storeRms m s) := by
  unfold storeRms
  try dsimp only
  refine .ite ?_ ?_
  · exact .refl
  · refine .step (journal_changes ..) ?_ rfl
    refine .step (setBal_changes ..) ?_ rfl
    exact .refl

end Sys2Proof.Machine
end

