-- ==== Sys2Proof/Laws/ChangesPipeline.lean ====
section
/-!
SUPPORT. Sys2Proof/Laws/ChangesPipeline.lean: what each operation may change: the reading pipeline and the campaigns.
-/
namespace Sys2Proof.Machine

theorem length_filter_split {α : Type} (f : α → Bool) (l : List α) :
    (l.filter fun x => !f x).length + (l.filter f).length = l.length := by
  induction l with
  | nil => rfl
  | cons x l ih => simp only [List.filter_cons]; cases f x <;> simp <;> omega
theorem endFlight_changes (id : Nat) (s : State) : Changes [.pipe] s (endFlight id s) := by
  unfold endFlight
  refine .ite (.step (Changes.set_pipe _ _ ?_) .refl rfl) .refl
  have := length_filter_split (fun f : Flight => f.id == id) s.pipe.flight
  simp only [bne] at this ⊢
  omega

theorem dropFlight_changes (id : Nat) (s : State) : Changes [.regs, .pipe] s (dropFlight id s) := by
  unfold dropFlight
  try dsimp only
  refine .step (count_changes _ _ rfl) ?_ rfl
  refine .step (endFlight_changes ..) ?_ rfl
  exact .refl

theorem loseReadings_changes (c : Nat) (s : State) : Changes [.regs, .pipe] s (loseReadings c s) := by
  unfold loseReadings
  try dsimp only
  refine .step (Changes.set_pipe _ _ (by first | rfl | (simp; done) | (simp; omega))) ?_ rfl
  refine .foldl (fun _ _ _ => ?_) ?_
  · refine .ite ?_ ?_
    · refine .step (endFlight_changes ..) ?_ rfl
      assumption
    · refine .step (dropFlight_changes ..) ?_ rfl
      assumption
  · exact .refl

theorem finishFlight_changes (id : Nat) (s : State) : Changes [.pipe] s (finishFlight id s) := by
  unfold finishFlight
  try dsimp only
  refine .step (endFlight_changes ..) ?_ rfl
  refine .step (Changes.set_pipe _ _ (by first | rfl | (simp; done) | (simp; omega))) ?_ rfl
  exact .refl

theorem tokenReturn_changes (s : State) : Changes [.pipe] s (tokenReturn s) := by
  unfold tokenReturn
  split
  · exact .refl
  · exact .step (Changes.set_pipe _ _ (by simp only; omega)) .refl rfl

theorem dispatchFrom_changes {q : Nat} {s t : State} (e : dispatchFrom q s = some t) :
    Changes [.regs, .isl, .pipe, .rf, .eth, .relay, .host, .queues, .out, .draws] s t := by
  unfold dispatchFrom at e
  dsimp only at e
  (repeat' split at e) <;> cases e
  refine .step (wake_changes ..) (.step (wake_changes ..) (.step (intakeRead_changes ..) (.step (Changes.set_pipe _ _ ?_) .refl rfl) rfl) rfl) rfl
  simp only [List.length_append, List.length_cons, List.length_nil]
  omega

theorem dispatchTurn_step (x : Nat) (l : List Nat) (s : State) (ih : ∀ (t : State), Changes [.regs, .isl, .pipe, .rf, .eth, .relay, .host, .queues, .out, .draws] t (dispatchTurn t l)) : Changes [.regs, .isl, .pipe, .rf, .eth, .relay, .host, .queues, .out, .draws] s (dispatchTurn s (x :: l)) := by
  unfold dispatchTurn
  try dsimp only
  split
  · refine .step (dispatchFrom_changes (by assumption)) ?_ rfl
    exact .refl
  · refine .step (ih ..) ?_ rfl
    exact .refl

theorem dispatchTurn_changes (l : List Nat) (s : State) : Changes [.regs, .isl, .pipe, .rf, .eth, .relay, .host, .queues, .out, .draws] s (dispatchTurn s l) := by
  induction l generalizing s with
  | nil => simp only [dispatchTurn]; exact .refl
  | cons x l ih => exact dispatchTurn_step (ih := fun t => ih (s := t)) ..

theorem readingDispatch_changes (s : State) : Changes [.regs, .isl, .pipe, .rf, .eth, .relay, .host, .queues, .out, .draws] s (readingDispatch s) := by
  unfold readingDispatch
  try dsimp only
  refine .ite ?_ ?_
  · exact .refl
  · refine .step (dispatchTurn_changes ..) ?_ rfl
    exact .refl

theorem keyFault_changes (n : Nat) (s : State) : Changes [.regs, .table, .jr, .evt] s (keyFault n s) := by
  unfold keyFault
  try dsimp only
  refine .ite ?_ ?_
  · exact .refl
  · refine .step (event_changes ..) ?_ rfl
    refine .step (count_changes _ _ rfl) ?_ rfl
    refine .step (writeRec_changes ..) ?_ rfl
    exact .refl

theorem putFlight_changes (f : Flight) (s : State) : Changes [.pipe] s (putFlight f s) := by
  unfold putFlight
  try dsimp only
  refine .step (Changes.set_pipe _ _ (by first | rfl | (simp; done) | (simp; omega))) ?_ rfl
  exact .refl

theorem countOutcome_changes (oc rows : Nat) (s : State) : Changes [.regs] s (countOutcome oc rows s) := by
  unfold countOutcome
  have h : ∀ oc < 9, isSetup (0x320 + 4 * oc) = false := by decide
  split
  · exact countBy_changes _ _ _ (h oc ‹_›)
  · exact .refl

theorem readingVerify_changes (id : Nat) (s : State) : Changes [.regs, .win, .isl, .table, .pipe, .relay, .jr, .host, .evt, .out] s (readingVerify id s) := by
  unfold readingVerify
  try dsimp only
  split
  · exact .refl
  · refine .ite ?_ ?_
    · exact .refl
    · split
      · refine .step (endFlight_changes ..) ?_ rfl
        refine .step (relayResult_changes ..) ?_ rfl
        split
        · refine .ite ?_ ?_
          · refine .step (noteUnknown_changes ..) ?_ rfl
            refine .step (countOutcome_changes ..) ?_ rfl
            refine .step (wake_changes ..) ?_ rfl
            exact .refl
          · refine .step (countOutcome_changes ..) ?_ rfl
            refine .step (wake_changes ..) ?_ rfl
            exact .refl
        · refine .step (countOutcome_changes ..) ?_ rfl
          refine .step (wake_changes ..) ?_ rfl
          exact .refl
      · refine .step (putFlight_changes ..) ?_ rfl
        refine .step (wake_changes ..) ?_ rfl
        exact .refl
      · refine .step (wake_changes ..) ?_ rfl
        exact .refl
      · split
        · refine .step (putFlight_changes ..) ?_ rfl
          refine .ite ?_ ?_
          · refine .step (keyFault_changes ..) ?_ rfl
            refine .step (wake_changes ..) ?_ rfl
            exact .refl
          · refine .step (wake_changes ..) ?_ rfl
            exact .refl
        · refine .ite ?_ ?_
          · refine .step (putFlight_changes ..) ?_ rfl
            refine .ite ?_ ?_
            · refine .step (keyFault_changes ..) ?_ rfl
              refine .step (wake_changes ..) ?_ rfl
              exact .refl
            · refine .step (wake_changes ..) ?_ rfl
              exact .refl
          · refine .step (putFlight_changes ..) ?_ rfl
            refine .ite ?_ ?_
            · refine .step (count_changes _ _ rfl) ?_ rfl
              refine .ite ?_ ?_
              · refine .step (keyFault_changes ..) ?_ rfl
                refine .step (wake_changes ..) ?_ rfl
                exact .refl
              · refine .step (wake_changes ..) ?_ rfl
                exact .refl
            · refine .ite ?_ ?_
              · refine .step (keyFault_changes ..) ?_ rfl
                refine .step (wake_changes ..) ?_ rfl
                exact .refl
              · refine .step (wake_changes ..) ?_ rfl
                exact .refl

theorem stage7_changes (f : Flight) (a1 : RowCtx) (s : State) : Changes [.regs, .win, .rules, .evt] s (stage7 f a1 s).2 := by
  unfold stage7
  try dsimp only
  refine .snd_ite ?_ ?_
  · dsimp only
    exact .refl
  · split
    · dsimp only
      refine hourEvent_changes (fun _ _ => ?_) ?_ rfl
      · refine .step (event_changes ..) ?_ rfl
        assumption
      · refine .step (count_changes _ _ rfl) ?_ rfl
        exact .refl
    · split
      · dsimp only
        refine .step (countRule_changes ..) ?_ rfl
        refine .ite ?_ ?_
        · refine .step (setReg_changes _ _ _ rfl) ?_ rfl
          refine .step (count_changes _ _ rfl) ?_ rfl
          exact .refl
        · refine .step (count_changes _ _ rfl) ?_ rfl
          exact .refl
      · dsimp only
        refine .step (countRule_changes ..) ?_ rfl
        refine .ite ?_ ?_
        · refine .step (setReg_changes _ _ _ rfl) ?_ rfl
          refine .step (count_changes _ _ rfl) ?_ rfl
          exact .refl
        · refine .step (count_changes _ _ rfl) ?_ rfl
          exact .refl
      · dsimp only
        refine .step (countRule_changes ..) ?_ rfl
        refine .ite ?_ ?_
        · refine .step (setReg_changes _ _ _ rfl) ?_ rfl
          refine .step (count_changes _ _ rfl) ?_ rfl
          exact .refl
        · refine .step (count_changes _ _ rfl) ?_ rfl
          exact .refl
      · dsimp only
        refine hourEvent_changes (fun _ _ => ?_) ?_ rfl
        · refine .step (event_changes ..) ?_ rfl
          assumption
        · refine .step (count_changes _ _ rfl) ?_ rfl
          refine .step (countRule_changes ..) ?_ rfl
          refine .ite ?_ ?_
          · refine .step (setReg_changes _ _ _ rfl) ?_ rfl
            refine .step (count_changes _ _ rfl) ?_ rfl
            exact .refl
          · refine .step (count_changes _ _ rfl) ?_ rfl
            exact .refl

theorem runRows_step (f : Flight) (n : Nat) (g : Aligned → Nat) (r : RecImg) (x : RowData) (l : List RowData) (k : Nat) (pv : Option (Option Int × Option Int × Option Int)) (s : State) (ih : ∀ (k : Nat) (pv : Option (Option Int × Option Int × Option Int)) (t : State), Changes [.regs, .win, .rules, .evt] t ((runRows f n g r l k pv t).2)) : Changes [.regs, .win, .rules, .evt] s ((runRows f n g r (x :: l) k pv s).2) := by
  unfold runRows
  try dsimp only
  refine .step (ih ..) ?_ rfl
  refine .step (stage7_changes ..) ?_ rfl
  exact .refl

theorem runRows_changes (f : Flight) (n : Nat) (g : Aligned → Nat) (r : RecImg) (l : List RowData) (k : Nat) (pv : Option (Option Int × Option Int × Option Int)) (s : State) : Changes [.regs, .win, .rules, .evt] s ((runRows f n g r l k pv s).2) := by
  induction l generalizing s k pv with
  | nil => simp only [runRows]; exact .refl
  | cons x l ih => exact runRows_step (ih := fun k pv t => ih (k := k) (pv := pv) (s := t)) ..

theorem readingPosts_step (bucket : Nat) (seq : W32) (x : Nat × List Byte) (l : List (Nat × List Byte)) (s : State) (ih : ∀ (t : State), Changes [.jr] t ((readingPosts bucket seq l t).2)) : Changes [.jr] s ((readingPosts bucket seq (x :: l) s).2) := by
  unfold readingPosts
  try dsimp only
  refine .snd_ite ?_ ?_
  · refine .step (ih ..) ?_ rfl
    exact .refl
  · dsimp only
    refine .step (ih ..) ?_ rfl
    refine .step (reservePost_changes ..) ?_ rfl
    exact .refl

theorem readingPosts_changes (bucket : Nat) (seq : W32) (l : List (Nat × List Byte)) (s : State) : Changes [.jr] s ((readingPosts bucket seq l s).2) := by
  induction l generalizing s with
  | nil => simp only [readingPosts]; exact .refl
  | cons x l ih => exact readingPosts_step (ih := fun t => ih (s := t)) ..

theorem commit_changes (f : Flight) (n : Nat) (rows : List RowOut) (adv : Option (Nat × Nat)) (windowed : Bool) (s : State) : Changes [.regs, .win, .isl, .boot, .table, .pipe, .bal, .pair, .jr, .arch, .evt] s (commit f n rows adv windowed s) := by
  unfold commit
  try dsimp only
  refine .step (putFlight_changes ..) ?_ rfl
  refine .step (readingPosts_changes ..) ?_ rfl
  refine .ite ?_ ?_
  · refine .step (proofCount_changes ..) ?_ rfl
    refine .foldl (fun _ _ _ => ?_) ?_
    · refine .ite ?_ ?_
      · refine .step (balanceReading_changes ..) ?_ rfl
        assumption
      · assumption
    · refine .ite ?_ ?_
      · refine .step (count_changes _ _ rfl) ?_ rfl
        refine .foldl (fun _ _ _ => ?_) ?_
        · refine .ite ?_ ?_
          · refine .step (archiveReading_changes ..) ?_ rfl
            assumption
          · assumption
        · refine .ite ?_ ?_
          · refine .step (countBy_changes _ _ _ rfl) ?_ rfl
            refine .foldl (fun _ _ _ => ?_) ?_
            · refine .step (countOutcome_changes ..) ?_ rfl
              refine .ite ?_ ?_
              · refine .step (count_changes _ _ rfl) ?_ rfl
                assumption
              · assumption
            · refine .step (icEvent_changes ..) ?_ rfl
              refine .step (writeSlot_changes ..) ?_ rfl
              exact .refl
          · refine .foldl (fun _ _ _ => ?_) ?_
            · refine .step (countOutcome_changes ..) ?_ rfl
              refine .ite ?_ ?_
              · refine .step (count_changes _ _ rfl) ?_ rfl
                assumption
              · assumption
            · refine .step (icEvent_changes ..) ?_ rfl
              refine .step (writeSlot_changes ..) ?_ rfl
              exact .refl
      · refine .foldl (fun _ _ _ => ?_) ?_
        · refine .ite ?_ ?_
          · refine .step (archiveReading_changes ..) ?_ rfl
            assumption
          · assumption
        · refine .ite ?_ ?_
          · refine .step (countBy_changes _ _ _ rfl) ?_ rfl
            refine .foldl (fun _ _ _ => ?_) ?_
            · refine .step (countOutcome_changes ..) ?_ rfl
              refine .ite ?_ ?_
              · refine .step (count_changes _ _ rfl) ?_ rfl
                assumption
              · assumption
            · refine .step (icEvent_changes ..) ?_ rfl
              refine .step (writeSlot_changes ..) ?_ rfl
              exact .refl
          · refine .foldl (fun _ _ _ => ?_) ?_
            · refine .step (countOutcome_changes ..) ?_ rfl
              refine .ite ?_ ?_
              · refine .step (count_changes _ _ rfl) ?_ rfl
                assumption
              · assumption
            · refine .step (icEvent_changes ..) ?_ rfl
              refine .step (writeSlot_changes ..) ?_ rfl
              exact .refl
  · refine .foldl (fun _ _ _ => ?_) ?_
    · refine .ite ?_ ?_
      · refine .step (balanceReading_changes ..) ?_ rfl
        assumption
      · assumption
    · refine .ite ?_ ?_
      · refine .step (count_changes _ _ rfl) ?_ rfl
        refine .foldl (fun _ _ _ => ?_) ?_
        · refine .ite ?_ ?_
          · refine .step (archiveReading_changes ..) ?_ rfl
            assumption
          · assumption
        · refine .ite ?_ ?_
          · refine .step (countBy_changes _ _ _ rfl) ?_ rfl
            refine .foldl (fun _ _ _ => ?_) ?_
            · refine .step (countOutcome_changes ..) ?_ rfl
              refine .ite ?_ ?_
              · refine .step (count_changes _ _ rfl) ?_ rfl
                assumption
              · assumption
            · refine .step (icEvent_changes ..) ?_ rfl
              refine .step (writeSlot_changes ..) ?_ rfl
              exact .refl
          · refine .foldl (fun _ _ _ => ?_) ?_
            · refine .step (countOutcome_changes ..) ?_ rfl
              refine .ite ?_ ?_
              · refine .step (count_changes _ _ rfl) ?_ rfl
                assumption
              · assumption
            · refine .step (icEvent_changes ..) ?_ rfl
              refine .step (writeSlot_changes ..) ?_ rfl
              exact .refl
      · refine .foldl (fun _ _ _ => ?_) ?_
        · refine .ite ?_ ?_
          · refine .step (archiveReading_changes ..) ?_ rfl
            assumption
          · assumption
        · refine .ite ?_ ?_
          · refine .step (countBy_changes _ _ _ rfl) ?_ rfl
            refine .foldl (fun _ _ _ => ?_) ?_
            · refine .step (countOutcome_changes ..) ?_ rfl
              refine .ite ?_ ?_
              · refine .step (count_changes _ _ rfl) ?_ rfl
                assumption
              · assumption
            · refine .step (icEvent_changes ..) ?_ rfl
              refine .step (writeSlot_changes ..) ?_ rfl
              exact .refl
          · refine .foldl (fun _ _ _ => ?_) ?_
            · refine .step (countOutcome_changes ..) ?_ rfl
              refine .ite ?_ ?_
              · refine .step (count_changes _ _ rfl) ?_ rfl
                assumption
              · assumption
            · refine .step (icEvent_changes ..) ?_ rfl
              refine .step (writeSlot_changes ..) ?_ rfl
              exact .refl

theorem commitSuspended_changes (f : Flight) (n : Nat) (s : State) : Changes [.regs, .table, .pipe, .jr] s (commitSuspended f n s) := by
  unfold commitSuspended
  try dsimp only
  refine .step (putFlight_changes ..) ?_ rfl
  refine .step (countOutcome_changes ..) ?_ rfl
  refine .step (writeRec_changes ..) ?_ rfl
  exact .refl

theorem counterCheck_changes (id : Nat) (s : State) : Changes [.regs, .win, .isl, .boot, .table, .pipe, .rules, .bal, .pair, .jr, .arch, .evt] s (counterCheck id s) := by
  unfold counterCheck
  try dsimp only
  split
  · exact .refl
  · refine .ite ?_ ?_
    · exact .refl
    · split
      · refine .step (putFlight_changes ..) ?_ rfl
        refine .step (readingPosts_changes ..) ?_ rfl
        refine .foldl (fun _ _ _ => ?_) ?_
        · refine .step (countOutcome_changes ..) ?_ rfl
          refine .ite ?_ ?_
          · refine .step (archiveReading_changes ..) ?_ rfl
            assumption
          · assumption
        · exact .refl
      · refine .ite ?_ ?_
        · refine .step (commitSuspended_changes ..) ?_ rfl
          exact .refl
        · refine .step (commit_changes ..) ?_ rfl
          exact .refl
      · split
        · refine .step (commit_changes ..) ?_ rfl
          exact .refl
        · split
          · refine .step (commit_changes ..) ?_ rfl
            exact .refl
          · refine .ite ?_ ?_
            · refine .step (commit_changes ..) ?_ rfl
              exact .refl
            · refine .ite ?_ ?_
              · exact .refl
              · refine .step (commit_changes ..) ?_ rfl
                refine .step (runRows_changes ..) ?_ rfl
                exact .refl
      · exact .refl

theorem readingPosting_changes (id : Nat) (s : State) : Changes [.regs, .win, .pipe, .relay, .jr, .host, .evt, .out] s (readingPosting id s) := by
  unfold readingPosting
  try dsimp only
  split
  · exact .refl
  · refine .ite ?_ ?_
    · exact .refl
    · refine .ite ?_ ?_
      · exact .refl
      · refine .ite ?_ ?_
        · refine .step (finishFlight_changes ..) ?_ rfl
          refine .foldl (fun _ _ _ => ?_) ?_
          · refine .step (makePost_changes ..) ?_ rfl
            assumption
          · refine .step (relayResult_changes ..) ?_ rfl
            exact .refl
        · refine .step (finishFlight_changes ..) ?_ rfl
          refine .ite ?_ ?_
          · refine .step (relayResult_changes ..) ?_ rfl
            exact .refl
          · refine .step (sendEntry_changes ..) ?_ rfl
            refine .step (relayResult_changes ..) ?_ rfl
            exact .refl

theorem intake_changes (q : Nat) (i : RItem) (s : State) : Changes [.regs, .win, .pipe, .rf, .eth, .relay, .host, .queues, .evt, .out, .draws] s (intake q i s) := by
  unfold intake
  try dsimp only
  refine .ite ?_ ?_
  · exact .refl
  · refine .ite ?_ ?_
    · refine .step (count_changes _ _ rfl) ?_ rfl
      exact .refl
    · refine .step (intakeWrite_changes ..) ?_ rfl
      refine .step (Changes.set_pipe _ _ (by first | rfl | (simp; done) | (simp; omega))) ?_ rfl
      refine .step (queueRoom_changes ..) ?_ rfl
      exact .refl

theorem sessionExpiry_changes (k : Nat) (s : State) : Changes [.pipe] s (sessionExpiry k s) := by
  unfold sessionExpiry
  try dsimp only
  refine .step (Changes.set_pipe _ _ (by first | rfl | (simp; done) | (simp; omega))) ?_ rfl
  exact .refl

theorem pollIssue_changes (entry : Nat) (slot : Nat) (s : State) : Changes [.regs, .pipe, .plc, .rf, .jr, .out, .draws] s (pollIssue entry slot s) := by
  unfold pollIssue
  try dsimp only
  split
  · exact .refl
  · refine .ite ?_ ?_
    · exact .refl
    · split
      · exact .refl
      · refine .step (accessUnicast_changes ..) ?_ rfl
        refine .step (Changes.set_pipe _ _ (by first | rfl | (simp; done) | (simp; omega))) ?_ rfl
        refine .step (draw_changes ..) ?_ rfl
        refine .step (draw_changes ..) ?_ rfl
        exact .refl

theorem keySignerLoad_changes (slot : Nat) (curve : Nat) (key : BitVec 768) (s : State) : Changes [.jr, .sec] s (keySignerLoad slot curve key s).1 := by
  unfold keySignerLoad
  try dsimp only
  refine .fst_ite ?_ ?_
  · dsimp only
    exact .refl
  · dsimp only
    refine .step (journal_changes ..) ?_ rfl
    refine .step (Changes.set_sec _ _ (by intro h; first | exact h | rfl | exact Kv.wf_putOr _ _ _ h | exact Kv.wf_putOpt _ _ h | exact Kv.wf_map _ h (fun _ => rfl) | exact Kv.wf_foldl_upd _ _ _ _ h | exact wf_toKv _)) ?_ rfl
    exact .refl

theorem rolledBackEvent_changes (n : Nat) (s : State) : Changes [.camp, .jr, .evt] s (rolledBackEvent n s) := by
  unfold rolledBackEvent
  try dsimp only
  split
  · exact .refl
  · refine .ite ?_ ?_
    · exact .refl
    · refine .step (event_changes ..) ?_ rfl
      refine .step (putCamp_changes ..) ?_ rfl
      exact .refl

theorem setMember_changes (n : Nat) (m : Member) (s : State) : Changes [.regs, .camp, .jr, .evt] s (setMember n m s) := by
  unfold setMember
  try dsimp only
  split
  · exact .refl
  · refine .step (rolledBackEvent_changes ..) ?_ rfl
    refine .ite ?_ ?_
    · refine .step (count_changes _ _ rfl) ?_ rfl
      refine .step (putCamp_changes ..) ?_ rfl
      exact .refl
    · refine .step (putCamp_changes ..) ?_ rfl
      exact .refl

theorem putCursor_changes (link : Nat) (n : Nat) (v : Cursor) (s : State) : Changes [.camp, .jr] s (putCursor link n v s) := by
  unfold putCursor
  try dsimp only
  refine .step (journal_changes ..) ?_ rfl
  refine .step (setCampState_changes ..) ?_ rfl
  exact .refl

theorem queueRecord_changes (link : Nat) (n : Nat) (c : Camp) (who : Option W64) (s : State) : Changes [.camp, .jr] s (queueRecord link n c who s) := by
  unfold queueRecord
  try dsimp only
  refine .ite ?_ ?_
  · exact .refl
  · refine .step (putCursor_changes ..) ?_ rfl
    exact .refl

theorem progressRx_changes (title : W64) (p : Progress) (s : State) : Changes [.regs, .win, .camp, .relay, .jr, .evt] s (progressRx title p s) := by
  unfold progressRx
  try dsimp only
  split
  · refine .step (count_changes _ _ rfl) ?_ rfl
    exact .refl
  · split
    · refine .step (count_changes _ _ rfl) ?_ rfl
      exact .refl
    · split
      · refine .step (count_changes _ _ rfl) ?_ rfl
        exact .refl
      · refine .ite ?_ ?_
        · refine .step (count_changes _ _ rfl) ?_ rfl
          exact .refl
        · refine .ite ?_ ?_
          · split
            · refine .ite ?_ ?_
              · refine .step (queueRecord_changes ..) ?_ rfl
                refine .step (count_changes _ _ rfl) ?_ rfl
                refine .step (setMember_changes ..) ?_ rfl
                refine .step (putCamp_changes ..) ?_ rfl
                exact .refl
              · refine .step (count_changes _ _ rfl) ?_ rfl
                refine .step (setMember_changes ..) ?_ rfl
                refine .step (putCamp_changes ..) ?_ rfl
                exact .refl
            · refine .step (count_changes _ _ rfl) ?_ rfl
              refine .step (setMember_changes ..) ?_ rfl
              refine .step (putCamp_changes ..) ?_ rfl
              exact .refl
          · refine .step (sendEntry_changes ..) ?_ rfl
            split
            · refine .ite ?_ ?_
              · refine .step (queueRecord_changes ..) ?_ rfl
                refine .step (count_changes _ _ rfl) ?_ rfl
                refine .step (setMember_changes ..) ?_ rfl
                refine .step (putCamp_changes ..) ?_ rfl
                exact .refl
              · refine .step (count_changes _ _ rfl) ?_ rfl
                refine .step (setMember_changes ..) ?_ rfl
                refine .step (putCamp_changes ..) ?_ rfl
                exact .refl
            · refine .step (count_changes _ _ rfl) ?_ rfl
              refine .step (setMember_changes ..) ?_ rfl
              refine .step (putCamp_changes ..) ?_ rfl
              exact .refl

theorem campFrameRx_changes (title : W64) (f : CampFrame) (s : State) : Changes [.regs, .win, .camp, .relay, .jr, .evt] s (campFrameRx title f s) := by
  unfold campFrameRx
  try dsimp only
  split
  · refine .step (progressRx_changes ..) ?_ rfl
    exact .refl
  · refine .step (count_changes _ _ rfl) ?_ rfl
    exact .refl

theorem memberEntry_changes (id : W32) (m : Member) (s : State) : Changes [.regs, .camp, .jr, .evt] s (memberEntry id m s).2 := by
  unfold memberEntry
  try dsimp only
  split
  · dsimp only
    exact .refl
  · split
    · dsimp only
      exact .refl
    · refine .snd_ite ?_ ?_
      · dsimp only
        exact .refl
      · refine .snd_ite ?_ ?_
        · split
          · dsimp only
            exact .refl
          · dsimp only
            refine .step (setMember_changes ..) ?_ rfl
            exact .refl
        · refine .snd_ite ?_ ?_
          · dsimp only
            exact .refl
          · dsimp only
            refine .step (setMember_changes ..) ?_ rfl
            exact .refl

theorem forgetCamp_changes (n : Nat) (s : State) : Changes [.camp, .jr] s (forgetCamp n s) := by
  unfold forgetCamp
  try dsimp only
  refine .step (setCampState_changes ..) ?_ rfl
  refine .step (putCamp_changes ..) ?_ rfl
  refine .foldl (fun _ _ _ => ?_) ?_
  · refine .step (journal_changes ..) ?_ rfl
    refine .step (setCampState_changes ..) ?_ rfl
    assumption
  · exact .refl

theorem campCtlEntry_changes (id : W32) (c : CampCtl) (s : State) : Changes [.camp, .jr] s (campCtlEntry id c s).2 := by
  unfold campCtlEntry
  try dsimp only
  refine .snd_ite ?_ ?_
  · dsimp only
    exact .refl
  · split
    · split
      · dsimp only
        refine .step (putCamp_changes ..) ?_ rfl
        exact .refl
      · dsimp only
        exact .refl
    · split
      · dsimp only
        refine .step (putCamp_changes ..) ?_ rfl
        exact .refl
      · dsimp only
        exact .refl
    · split
      · dsimp only
        refine .step (putCamp_changes ..) ?_ rfl
        exact .refl
      · dsimp only
        refine .step (forgetCamp_changes ..) ?_ rfl
        exact .refl
      · dsimp only
        exact .refl
    · split
      · dsimp only
        refine .step (putCamp_changes ..) ?_ rfl
        exact .refl
      · dsimp only
        exact .refl
    · split
      · dsimp only
        refine .step (putCamp_changes ..) ?_ rfl
        exact .refl
      · dsimp only
        exact .refl
    · dsimp only
      exact .refl

theorem segReqEntry_changes (id : W32) (seg : Nat) (u : BitVec 12) (s : State) : Changes [.regs, .win, .relay, .jr, .evt] s (segReqEntry id seg u s).2 := by
  unfold segReqEntry
  try dsimp only
  refine .snd_ite ?_ ?_
  · dsimp only
    exact .refl
  · split
    · dsimp only
      exact .refl
    · split
      · dsimp only
        exact .refl
      · refine .snd_ite ?_ ?_
        · dsimp only
          exact .refl
        · dsimp only
          refine .foldl (fun _ _ _ => ?_) ?_
          · refine .step (sendEntry_changes ..) ?_ rfl
            assumption
          · exact .refl

theorem evictSeg_changes (s : State) : Changes [.camp] s (evictSeg s) := by
  unfold evictSeg
  try dsimp only
  refine .ite ?_ ?_
  · exact .refl
  · split
    · exact .refl
    · refine .step (setCampState_changes ..) ?_ rfl
      exact .refl

theorem segPieceEntry_changes (id : W32) (seg : Nat) (piece : Nat) (data : List Byte) (s : State) : Changes [.camp] s (segPieceEntry id seg piece data s).2 := by
  unfold segPieceEntry
  try dsimp only
  split
  · dsimp only
    exact .refl
  · refine .snd_ite ?_ ?_
    · dsimp only
      exact .refl
    · dsimp only
      refine .step (setCampState_changes ..) ?_ rfl
      refine .ite ?_ ?_
      · refine .step (evictSeg_changes ..) ?_ rfl
        exact .refl
      · exact .refl

theorem fetchSeg_changes (n : Nat) (c : Camp) (seg : Nat) (s : State) : Changes [.regs, .win, .camp, .relay, .jr, .evt] s (fetchSeg n c seg s) := by
  unfold fetchSeg
  try dsimp only
  refine .ite ?_ ?_
  · exact .refl
  · refine .step (sendEntry_changes ..) ?_ rfl
    refine .step (count_changes _ _ rfl) ?_ rfl
    refine .step (setCampState_changes ..) ?_ rfl
    exact .refl

theorem refetch_changes (s : State) : Changes [.regs, .win, .relay, .jr, .evt] s (refetch s) := by
  unfold refetch
  try dsimp only
  refine .foldl (fun _ _ _ => ?_) ?_
  · split
    · refine .step (sendEntry_changes ..) ?_ rfl
      refine .step (count_changes _ _ rfl) ?_ rfl
      assumption
    · assumption
  · exact .refl

theorem settleCursor_changes (link : Nat) (n : Nat) (c : Camp) (old : Cursor) (new : Cursor) (s : State) : Changes [.camp, .jr] s (settleCursor link n c old new s) := by
  unfold settleCursor
  try dsimp only
  refine .ite ?_ ?_
  · refine .ite ?_ ?_
    · refine .step (putCamp_changes ..) ?_ rfl
      exact .refl
    · exact .refl
  · refine .step (putCursor_changes ..) ?_ rfl
    refine .ite ?_ ?_
    · refine .step (putCamp_changes ..) ?_ rfl
      exact .refl
    · exact .refl

theorem drawSeed_step (k : Nat) (s : State) (ih : ∀ (t : State), Changes [.draws] t ((drawSeed k t).2)) : Changes [.draws] s ((drawSeed (k+1) s).2) := by
  unfold drawSeed
  try dsimp only
  refine .snd_ite ?_ ?_
  · refine .step (ih ..) ?_ rfl
    refine .step (draw_changes ..) ?_ rfl
    exact .refl
  · dsimp only
    refine .step (draw_changes ..) ?_ rfl
    exact .refl

theorem drawSeed_changes (k : Nat) (s : State) : Changes [.draws] s ((drawSeed k s).2) := by
  induction k generalizing s with
  | zero => simp only [drawSeed]; exact draw_changes ..
  | succ k ih => exact drawSeed_step (ih := fun t => ih (s := t)) ..

theorem campGo_changes (link : Nat) (who : Option W64) (f : CampFrame) (s : State) : Changes [.regs, .camp, .plc, .rf, .jr, .out] s (campGo link who f s) := by
  unfold campGo
  try dsimp only
  split
  · refine .step (accessBroadcast_changes ..) ?_ rfl
    refine .step (setCampState_changes ..) ?_ rfl
    exact .refl
  · refine .step (accessUnicast_changes ..) ?_ rfl
    refine .step (setCampState_changes ..) ?_ rfl
    exact .refl

theorem sendCampFrame_changes {link n : Nat} {c : Camp} {x : CampSend} {s t : State}
    (e : sendCampFrame link n c x s = .gone t ∨ sendCampFrame link n c x s = .waits t) : Changes [.regs, .win, .camp, .plc, .rf, .relay, .jr, .evt, .out, .draws] s t := by
  have hds := drawSeed_changes 64
  unfold sendCampFrame at e
  generalize drawSeed 64 = ds at e hds
  dsimp only at e
  (repeat' split at e) <;> rcases e with e | e <;> cases e
  all_goals try dsimp only
  all_goals repeat' first
    | with_reducible exact .refl
    | with_reducible refine .step (campGo_changes ..) ?_ rfl
    | refine .step (count_changes _ _ (by first | rfl | (split <;> rfl))) ?_ rfl
    | with_reducible refine .step (hds _) ?_ rfl
    | with_reducible refine .step (setCampState_changes ..) ?_ rfl
    | with_reducible refine .foldl (fun _ _ _ => .step (fetchSeg_changes ..) ‹_› rfl) .refl
    | (dsimp only; done)
    | split
    | dsimp only
theorem campTurn_changes (link : Nat) (l : List Nat) (s : State) : Changes [.regs, .win, .camp, .plc, .rf, .relay, .jr, .evt, .out, .draws] s (campTurn link s l) := by
  induction l generalizing s with
  | nil => unfold campTurn; exact .refl
  | cons n l ih =>
    unfold campTurn
    split
    · exact ih s
    · refine .ite (ih s) ?_
      dsimp only
      split
      · exact .step (ih _) (.step (settleCursor_changes ..) .refl rfl) rfl
      · split
        · exact .step (ih _) (.step (settleCursor_changes ..) (sendCampFrame_changes (.inr (by assumption))) rfl) rfl
        · exact .step (ih _) (.step (settleCursor_changes ..) (.ite .refl (.step (count_changes _ _ rfl) .refl rfl)) rfl) rfl
        · exact .step (settleCursor_changes ..) (.step (setCampState_changes ..) (sendCampFrame_changes (.inl (by assumption))) rfl) rfl

theorem campaignFrameSend_changes (link : Nat) (s : State) : Changes [.regs, .win, .camp, .plc, .rf, .relay, .jr, .evt, .out, .draws] s (campaignFrameSend link s) := by
  unfold campaignFrameSend
  try dsimp only
  refine .ite ?_ ?_
  · exact .refl
  · refine .step (campTurn_changes ..) ?_ rfl
    exact .refl

theorem repairRound_changes (link : Nat) (n : Nat) (s : State) : Changes [.camp, .jr] s (repairRound link n s) := by
  unfold repairRound
  try dsimp only
  split
  · exact .refl
  · refine .ite ?_ ?_
    · exact .refl
    · refine .ite ?_ ?_
      · refine .step (settleCursor_changes ..) ?_ rfl
        refine .foldl (fun _ _ _ => ?_) ?_
        · refine .step (queueRecord_changes ..) ?_ rfl
          assumption
        · exact .refl
      · refine .step (putCursor_changes ..) ?_ rfl
        refine .step (putCamp_changes ..) ?_ rfl
        refine .step (settleCursor_changes ..) ?_ rfl
        refine .foldl (fun _ _ _ => ?_) ?_
        · refine .step (queueRecord_changes ..) ?_ rfl
          assumption
        · exact .refl

theorem activationBroadcast_changes (link : Nat) (n : Nat) (s : State) : Changes [.regs, .camp, .plc, .rf, .jr, .out] s (activationBroadcast link n s) := by
  unfold activationBroadcast
  try dsimp only
  split
  · exact .refl
  · split
    · exact .refl
    · refine .ite ?_ ?_
      · exact .refl
      · refine .ite ?_ ?_
        · refine .step (campGo_changes ..) ?_ rfl
          exact .refl
        · refine .step (queueRecord_changes ..) ?_ rfl
          exact .refl

theorem lateExpiry_changes (n : Nat) (s : State) : Changes [.camp, .jr] s (lateExpiry n s) := by
  unfold lateExpiry
  try dsimp only
  split
  · exact .refl
  · split
    · exact .refl
    · refine .ite ?_ ?_
      · exact .refl
      · refine .ite ?_ ?_
        · refine .step (putCamp_changes ..) ?_ rfl
          exact .refl
        · refine .ite ?_ ?_
          · refine .step (putCamp_changes ..) ?_ rfl
            exact .refl
          · exact .refl

theorem tellUnits_changes (n : Nat) (c : CampCtl) (s : State) : Changes [.regs, .win, .relay, .jr, .evt] s (tellUnits n c s) := by
  unfold tellUnits
  try dsimp only
  split
  · exact .refl
  · refine .foldl (fun _ _ _ => ?_) ?_
    · refine .step (sendEntry_changes ..) ?_ rfl
      assumption
    · exact .refl

theorem withCamp_changes {W : List Part} {s0 s : State} {n : Nat} {f : Camp → State × Reply} (hf : ∀ c, campOf s n = some c → Changes W s0 (f c).1)
    (h : Changes W s0 s) : Changes W s0 (withCamp n s f).1 := by
  unfold withCamp
  refine .fst_ite h ?_
  split
  · exact h
  · exact hf _ (by assumption)

theorem campCreate_changes (m : Manifest) (s : State) : Changes [.camp, .jr] s (campCreate m s).1 := by
  unfold campCreate
  try dsimp only
  refine .fst_ite ?_ ?_
  · dsimp only
    exact .refl
  · refine .fst_ite ?_ ?_
    · dsimp only
      exact .refl
    · split
      · dsimp only
        exact .refl
      · dsimp only
        refine .step (putCamp_changes ..) ?_ rfl
        exact .refl

theorem campData_changes (n : Nat) (off : Nat) (data : List Byte) (s : State) : Changes [.camp, .jr] s (campData n off data s).1 := by
  unfold campData
  try dsimp only
  refine withCamp_changes (fun _ _ => ?_) ?_
  · refine .fst_ite ?_ ?_
    · dsimp only
      exact .refl
    · dsimp only
      refine .step (putCamp_changes ..) ?_ rfl
      exact .refl
  · exact .refl

theorem campSeal_changes (n : Nat) (s : State) : Changes [.camp, .jr] s (campSeal n s).1 := by
  unfold campSeal
  try dsimp only
  refine withCamp_changes (fun _ _ => ?_) ?_
  · refine .fst_ite ?_ ?_
    · dsimp only
      exact .refl
    · dsimp only
      refine .step (putCamp_changes ..) ?_ rfl
      exact .refl
  · exact .refl

theorem campBit_changes (n : Nat) (k : Nat) (on : Bool) (s : State) : Changes [.table, .jr] s (campBit n k on s) := by
  unfold campBit
  try dsimp only
  refine .step (ownWrite_changes ..) ?_ rfl
  exact .refl

theorem campAddMembers_changes (n : Nat) (slots : List Nat) (s : State) : Changes [.regs, .win, .table, .camp, .relay, .jr, .evt] s (campAddMembers n slots s).1 := by
  unfold campAddMembers
  try dsimp only
  refine withCamp_changes (fun _ _ => ?_) ?_
  · refine .fst_ite ?_ ?_
    · dsimp only
      exact .refl
    · refine .fst_ite ?_ ?_
      · dsimp only
        exact .refl
      · dsimp only
        refine .foldl (fun _ _ _ => ?_) ?_
        · refine .ite ?_ ?_
          · assumption
          · refine .step (sendEntry_changes ..) ?_ rfl
            assumption
        · refine .foldl (fun _ _ _ => ?_) ?_
          · refine .step (tellCamp_changes ..) ?_ rfl
            assumption
          · refine .foldl (fun _ _ _ => ?_) ?_
            · refine .step (campBit_changes ..) ?_ rfl
              assumption
            · refine .step (putCamp_changes ..) ?_ rfl
              exact .refl
  · exact .refl

theorem campRemoveMembers_changes (n : Nat) (slots : List Nat) (s : State) : Changes [.regs, .win, .table, .camp, .relay, .jr, .evt] s (campRemoveMembers n slots s).1 := by
  unfold campRemoveMembers
  try dsimp only
  refine withCamp_changes (fun _ _ => ?_) ?_
  · refine .fst_ite ?_ ?_
    · dsimp only
      exact .refl
    · dsimp only
      refine .foldl (fun _ _ _ => ?_) ?_
      · refine .step (campBit_changes ..) ?_ rfl
        assumption
      · refine .step (putCamp_changes ..) ?_ rfl
        refine .foldl (fun _ _ _ => ?_) ?_
        · refine .ite ?_ ?_
          · assumption
          · refine .step (sendEntry_changes ..) ?_ rfl
            assumption
        · exact .refl
  · exact .refl

theorem campMove_changes (n : Nat) (from_ : List CampSt) (to_ : CampSt) (s : State) : Changes [.regs, .win, .camp, .relay, .jr, .evt] s (campMove n from_ to_ s).1 := by
  unfold campMove
  try dsimp only
  refine withCamp_changes (fun _ _ => ?_) ?_
  · refine .fst_ite ?_ ?_
    · dsimp only
      exact .refl
    · dsimp only
      refine .step (tellUnits_changes ..) ?_ rfl
      refine .step (putCamp_changes ..) ?_ rfl
      exact .refl
  · exact .refl

theorem campStart_changes (n : Nat) (s : State) : Changes [.regs, .win, .camp, .relay, .jr, .evt] s (campStart n s).1 := by
  unfold campStart
  try dsimp only
  refine .step (campMove_changes ..) ?_ rfl
  exact .refl

theorem campPause_changes (n : Nat) (s : State) : Changes [.regs, .win, .camp, .relay, .jr, .evt] s (campPause n s).1 := by
  unfold campPause
  try dsimp only
  refine .step (campMove_changes ..) ?_ rfl
  exact .refl

theorem campFree_changes (n : Nat) (from_ : List CampSt) (s : State) : Changes [.regs, .win, .table, .camp, .relay, .jr, .evt] s (campFree n from_ s).1 := by
  unfold campFree
  try dsimp only
  refine withCamp_changes (fun _ _ => ?_) ?_
  · refine .fst_ite ?_ ?_
    · dsimp only
      exact .refl
    · dsimp only
      refine .foldl (fun _ _ _ => ?_) ?_
      · refine .step (campBit_changes ..) ?_ rfl
        assumption
      · refine .step (forgetCamp_changes ..) ?_ rfl
        refine .step (tellUnits_changes ..) ?_ rfl
        exact .refl
  · exact .refl

theorem campCancel_changes (n : Nat) (s : State) : Changes [.regs, .win, .table, .camp, .relay, .jr, .evt] s (campCancel n s).1 := by
  unfold campCancel
  try dsimp only
  refine .step (campFree_changes ..) ?_ rfl
  exact .refl

theorem campClose_changes (n : Nat) (s : State) : Changes [.regs, .win, .table, .camp, .relay, .jr, .evt] s (campClose n s).1 := by
  unfold campClose
  try dsimp only
  refine .step (campFree_changes ..) ?_ rfl
  exact .refl

theorem campActivate_changes (n : Nat) (r : ActRec) (s : State) : Changes [.regs, .win, .camp, .relay, .jr, .evt] s (campActivate n r s).1 := by
  unfold campActivate
  try dsimp only
  refine withCamp_changes (fun _ _ => ?_) ?_
  · refine .fst_ite ?_ ?_
    · dsimp only
      exact .refl
    · dsimp only
      refine .step (tellUnits_changes ..) ?_ rfl
      refine .step (tellUnits_changes ..) ?_ rfl
      refine .step (putCamp_changes ..) ?_ rfl
      exact .refl
  · exact .refl

theorem campRollback_changes (n : Nat) (r : ActRec) (s : State) : Changes [.regs, .win, .camp, .relay, .jr, .evt] s (campRollback n r s).1 := by
  unfold campRollback
  try dsimp only
  refine withCamp_changes (fun _ _ => ?_) ?_
  · refine .fst_ite ?_ ?_
    · dsimp only
      exact .refl
    · dsimp only
      refine .step (tellUnits_changes ..) ?_ rfl
      refine .step (tellUnits_changes ..) ?_ rfl
      refine .step (putCamp_changes ..) ?_ rfl
      exact .refl
  · exact .refl

theorem campRead_changes (n : Nat) (s : State) : Changes [] s (campRead n s).1 := by
  unfold campRead
  try dsimp only
  refine withCamp_changes (fun _ _ => ?_) ?_
  · dsimp only
    exact .refl
  · exact .refl

theorem campMemberRead_changes (n : Nat) (first : Nat) (cnt : Nat) (s : State) : Changes [] s (campMemberRead n first cnt s).1 := by
  unfold campMemberRead
  try dsimp only
  refine withCamp_changes (fun _ _ => ?_) ?_
  · dsimp only
    exact .refl
  · exact .refl

theorem campaignCheckpoint_changes (s : State) : Changes [.regs, .win, .camp, .evt] s (campaignCheckpoint s) := by
  unfold campaignCheckpoint
  try dsimp only
  refine .ite ?_ ?_
  · exact .refl
  · refine .ite ?_ ?_
    · refine .step (writeRefused_changes ..) ?_ rfl
      exact .refl
    · refine .step (setCampState_changes ..) ?_ rfl
      exact .refl

theorem restoreCamp_changes (n : Nat) (c : Camp) (s : State) : Changes [.regs, .win, .camp, .relay, .jr, .evt] s (restoreCamp n c s) := by
  unfold restoreCamp
  try dsimp only
  refine .ite ?_ ?_
  · refine .step (putCamp_changes ..) ?_ rfl
    exact .refl
  · refine .ite ?_ ?_
    · split
      · split
        · refine .step (tellUnits_changes ..) ?_ rfl
          refine .step (tellUnits_changes ..) ?_ rfl
          refine .step (lateExpiry_changes ..) ?_ rfl
          refine .step (putCamp_changes ..) ?_ rfl
          exact .refl
        · refine .step (lateExpiry_changes ..) ?_ rfl
          refine .step (putCamp_changes ..) ?_ rfl
          exact .refl
      · refine .step (lateExpiry_changes ..) ?_ rfl
        refine .step (putCamp_changes ..) ?_ rfl
        exact .refl
    · refine .step (event_changes ..) ?_ rfl
      refine .step (tellUnits_changes ..) ?_ rfl
      refine .step (putCamp_changes ..) ?_ rfl
      exact .refl

theorem campaignRestore_changes (s : State) : Changes [.regs, .win, .camp, .relay, .jr, .evt] s (campaignRestore s) := by
  unfold campaignRestore
  try dsimp only
  refine .ite ?_ ?_
  · exact .refl
  · split
    · exact .refl
    · refine .foldl (fun _ _ _ => ?_) ?_
      · refine .step (restoreCamp_changes ..) ?_ rfl
        assumption
      · exact .refl

end Sys2Proof.Machine
end

