-- ==== Sys2Proof/Laws/ChangesLinks.lean ====
section
/-!
SUPPORT. Sys2Proof/Laws/ChangesLinks.lean: what each operation may change: power line, measurement, archive commands, balance runs, time and radio.
-/
namespace Sys2Proof.Machine

theorem plcNeighbour_changes (n : Nat) (src : Nat) (snr : Option (List Int)) (s : State) : Changes [.plc] s (plcNeighbour n src snr s) := by
  unfold plcNeighbour
  try dsimp only
  refine .step (setPlc_changes ..) ?_ rfl
  exact .refl

theorem plcFingerprint_changes (n : Nat) (src : Nat) (snr : List Nat) (s : State) : Changes [.regs, .plc] s (plcFingerprint n src snr s) := by
  unfold plcFingerprint
  try dsimp only
  split
  · exact .refl
  · refine .step (plcCount_changes _ _ _ rfl) ?_ rfl
    refine .step (setPlc_changes ..) ?_ rfl
    exact .refl

theorem plcOffset_changes (n : Nat) (f : PlcFrame) (s : State) : Changes [.plc] s (plcOffset n f s) := by
  unfold plcOffset
  try dsimp only
  split
  · refine .ite ?_ ?_
    · exact .refl
    · refine .step (setPlc_changes ..) ?_ rfl
      exact .refl
  · exact .refl

theorem plcGmk_changes (n : Nat) (s : State) : Changes [.plc, .draws] s (plcGmk n s) := by
  unfold plcGmk
  try dsimp only
  refine .ite ?_ ?_
  · exact .refl
  · refine .step (setPlc_changes ..) ?_ rfl
    refine .step (draw_changes ..) ?_ rfl
    refine .step (draw_changes ..) ?_ rfl
    exact .refl

theorem plcBootstrap_changes (n : Nat) (hop : Nat) (idLen : Nat) (title : W64) (eui : W64) (k : Key) (s : State) : Changes [.regs, .win, .table, .plc, .relay, .jr, .sec, .evt, .out, .draws] s (plcBootstrap n hop idLen title eui k s) := by
  unfold plcBootstrap
  try dsimp only
  refine .ite ?_ ?_
  · refine .step (plcDirect_changes ..) ?_ rfl
    refine .step (plcCount_changes _ _ _ rfl) ?_ rfl
    exact .refl
  · refine .ite ?_ ?_
    · refine .step (plcDirect_changes ..) ?_ rfl
      refine hourEvent_changes (fun _ _ => ?_) ?_ rfl
      · refine .step (setPlc_changes ..) ?_ rfl
        refine .step (event_changes ..) ?_ rfl
        assumption
      · refine .step (plcCount_changes _ _ _ rfl) ?_ rfl
        refine .step (setPlc_changes ..) ?_ rfl
        exact .refl
    · split
      · exact .refl
      · refine .step (linkJoin_changes ..) ?_ rfl
        refine .step (plcDirect_changes ..) ?_ rfl
        refine .step (plcCount_changes _ _ _ rfl) ?_ rfl
        refine .step (setPlc_changes ..) ?_ rfl
        refine .step (plcGmk_changes ..) ?_ rfl
        exact .refl

theorem plcRoute_changes (n : Nat) (dest : Nat) (next : Nat) (cost : Nat) (s : State) : Changes [.plc] s (plcRoute n dest next cost s) := by
  unfold plcRoute
  try dsimp only
  refine .step (setPlc_changes ..) ?_ rfl
  exact .refl

theorem plcRreq_changes (n : Nat) (hop : Nat) (orig : Nat) (dest : Nat) (seq : Nat) (cost : Nat) (hops : Nat) (s : State) : Changes [.regs, .plc, .jr, .out] s (plcRreq n hop orig dest seq cost hops s) := by
  unfold plcRreq
  try dsimp only
  refine .ite ?_ ?_
  · exact .refl
  · refine .ite ?_ ?_
    · refine .step (plcDirect_changes ..) ?_ rfl
      split
      · refine .ite ?_ ?_
        · refine .step (setPlc_changes ..) ?_ rfl
          exact .refl
        · refine .step (plcRoute_changes ..) ?_ rfl
          refine .step (setPlc_changes ..) ?_ rfl
          exact .refl
      · refine .step (plcRoute_changes ..) ?_ rfl
        refine .step (setPlc_changes ..) ?_ rfl
        exact .refl
    · refine .ite ?_ ?_
      · refine .step (plcRreqSend_changes ..) ?_ rfl
        split
        · refine .ite ?_ ?_
          · refine .step (setPlc_changes ..) ?_ rfl
            exact .refl
          · refine .step (plcRoute_changes ..) ?_ rfl
            refine .step (setPlc_changes ..) ?_ rfl
            exact .refl
        · refine .step (plcRoute_changes ..) ?_ rfl
          refine .step (setPlc_changes ..) ?_ rfl
          exact .refl
      · split
        · refine .ite ?_ ?_
          · refine .step (setPlc_changes ..) ?_ rfl
            exact .refl
          · refine .step (plcRoute_changes ..) ?_ rfl
            refine .step (setPlc_changes ..) ?_ rfl
            exact .refl
        · refine .step (plcRoute_changes ..) ?_ rfl
          refine .step (setPlc_changes ..) ?_ rfl
          exact .refl

theorem plcRrep_changes (n : Nat) (hop : Nat) (orig : Nat) (dest : Nat) (cost : Nat) (s : State) : Changes [.regs, .plc, .jr, .out] s (plcRrep n hop orig dest cost s) := by
  unfold plcRrep
  try dsimp only
  refine .ite ?_ ?_
  · exact .refl
  · refine .ite ?_ ?_
    · refine .step (plcUnicast_changes ..) ?_ rfl
      refine .step (plcRoute_changes ..) ?_ rfl
      exact .refl
    · refine .foldl (fun _ _ _ => ?_) ?_
      · refine .step (plcUnicast_changes ..) ?_ rfl
        assumption
      · refine .step (setPlc_changes ..) ?_ rfl
        refine .step (setPlc_changes ..) ?_ rfl
        refine .step (plcRoute_changes ..) ?_ rfl
        exact .refl

theorem plcUdp_changes (n : Nat) (f : PlcFrame) (u : UdpPay) (s : State) : Changes [.regs, .win, .pipe, .camp, .rf, .eth, .relay, .jr, .host, .queues, .evt, .out, .draws] s (plcUdp n f u s) := by
  unfold plcUdp
  try dsimp only
  split
  · refine .step (intake_changes ..) ?_ rfl
    exact .refl
  · refine .ite ?_ ?_
    · exact .refl
    · split
      · refine .step (campFrameRx_changes ..) ?_ rfl
        exact .refl
      · refine .step (count_changes _ _ rfl) ?_ rfl
        exact .refl
  · refine .step (plcCount_changes _ _ _ rfl) ?_ rfl
    exact .refl
  · refine .step (plcCount_changes _ _ _ rfl) ?_ rfl
    exact .refl

theorem plcData_changes (n : Nat) (f : PlcFrame) (s : State) : Changes [.regs, .win, .pipe, .camp, .plc, .rf, .eth, .relay, .jr, .host, .queues, .evt, .out, .draws] s (plcData n f s) := by
  unfold plcData
  try dsimp only
  split
  · refine .step (plcUdp_changes ..) ?_ rfl
    exact .refl
  · split
    · refine .ite ?_ ?_
      · refine .step (plcUdp_changes ..) ?_ rfl
        refine .step (setPlc_changes ..) ?_ rfl
        refine .ite ?_ ?_
        · exact .refl
        · refine .ite ?_ ?_
          · refine .ite ?_ ?_
            · refine .step (setPlc_changes ..) ?_ rfl
              exact .refl
            · refine .step (plcCount_changes _ _ _ rfl) ?_ rfl
              exact .refl
          · exact .refl
      · refine .ite ?_ ?_
        · exact .refl
        · refine .ite ?_ ?_
          · refine .ite ?_ ?_
            · refine .step (setPlc_changes ..) ?_ rfl
              exact .refl
            · refine .step (plcCount_changes _ _ _ rfl) ?_ rfl
              exact .refl
          · exact .refl
    · refine .ite ?_ ?_
      · exact .refl
      · refine .ite ?_ ?_
        · refine .ite ?_ ?_
          · refine .step (setPlc_changes ..) ?_ rfl
            exact .refl
          · refine .step (plcCount_changes _ _ _ rfl) ?_ rfl
            exact .refl
        · exact .refl
  · exact .refl

theorem plcAnswerMap_changes (n : Nat) (hop : Nat) (s : State) : Changes [.regs, .plc, .jr, .out] s (plcAnswerMap n hop s) := by
  unfold plcAnswerMap
  try dsimp only
  split
  · refine .step (plcDirect_changes ..) ?_ rfl
    exact .refl
  · exact .refl

theorem plcBody_changes (n : Nat) (f : PlcFrame) (s : State) : Changes [.regs, .win, .table, .pipe, .camp, .plc, .rf, .eth, .relay, .jr, .host, .sec, .queues, .evt, .out, .draws] s (plcBody n f s) := by
  unfold plcBody
  try dsimp only
  split
  · refine .ite ?_ ?_
    · refine .step (plcUnicast_changes ..) ?_ rfl
      exact .refl
    · refine .step (plcData_changes ..) ?_ rfl
      exact .refl
  · refine .ite ?_ ?_
    · refine .step (plcUnicast_changes ..) ?_ rfl
      exact .refl
    · refine .step (plcData_changes ..) ?_ rfl
      exact .refl
  · split
    · refine .step (setPlc_changes ..) ?_ rfl
      exact .refl
    · exact .refl
  · refine .step (plcAnswerMap_changes ..) ?_ rfl
    exact .refl
  · refine .step (setPlc_changes ..) ?_ rfl
    exact .refl
  · refine .step (plcRreq_changes ..) ?_ rfl
    exact .refl
  · refine .step (plcRrep_changes ..) ?_ rfl
    exact .refl
  · refine .step (plcDiscover_changes ..) ?_ rfl
    refine .step (setPlc_changes ..) ?_ rfl
    exact .refl
  · refine .step (plcDirect_changes ..) ?_ rfl
    exact .refl
  · refine .step (plcEmit_changes ..) ?_ rfl
    exact .refl
  · refine .step (plcBootstrap_changes ..) ?_ rfl
    exact .refl
  · exact .refl
  · exact .refl

theorem plcClean_changes (n : Nat) (f : PlcFrame) (s : State) : Changes [.regs, .plc] s (plcClean n f s) := by
  unfold plcClean
  try dsimp only
  refine .ite ?_ ?_
  · refine .step (plcOffset_changes ..) ?_ rfl
    split
    · refine .step (plcNeighbour_changes ..) ?_ rfl
      exact .refl
    · refine .step (plcFingerprint_changes ..) ?_ rfl
      refine .step (plcNeighbour_changes ..) ?_ rfl
      exact .refl
  · split
    · refine .step (plcNeighbour_changes ..) ?_ rfl
      exact .refl
    · refine .step (plcFingerprint_changes ..) ?_ rfl
      refine .step (plcNeighbour_changes ..) ?_ rfl
      exact .refl

theorem plcFrameRx_changes (n : Nat) (f : PlcFrame) (s : State) : Changes [.regs, .win, .table, .pipe, .camp, .plc, .rf, .eth, .relay, .jr, .host, .sec, .queues, .evt, .out, .draws] s (plcFrameRx n f s) := by
  unfold plcFrameRx
  try dsimp only
  refine .ite ?_ ?_
  · exact .refl
  · refine .ite ?_ ?_
    · refine .step (plcCount_changes _ _ _ rfl) ?_ rfl
      exact .refl
    · refine .ite ?_ ?_
      · refine .step (plcCount_changes _ _ _ rfl) ?_ rfl
        refine .ite ?_ ?_
        · refine .step (setPlc_changes ..) ?_ rfl
          exact .refl
        · refine .step (plcCountBy_changes _ _ _ _ rfl) ?_ rfl
          refine .step (setPlc_changes ..) ?_ rfl
          exact .refl
      · refine .ite ?_ ?_
        · refine .step (plcCount_changes _ _ _ rfl) ?_ rfl
          refine .ite ?_ ?_
          · refine .step (setPlc_changes ..) ?_ rfl
            exact .refl
          · refine .step (plcCountBy_changes _ _ _ _ rfl) ?_ rfl
            refine .step (setPlc_changes ..) ?_ rfl
            exact .refl
        · refine .ite ?_ ?_
          · refine .step (plcCount_changes _ _ _ rfl) ?_ rfl
            refine .ite ?_ ?_
            · refine .step (setPlc_changes ..) ?_ rfl
              exact .refl
            · refine .step (plcCountBy_changes _ _ _ _ rfl) ?_ rfl
              refine .step (setPlc_changes ..) ?_ rfl
              exact .refl
          · refine .ite ?_ ?_
            · refine .step (plcCount_changes _ _ _ rfl) ?_ rfl
              refine .ite ?_ ?_
              · refine .step (plcJournal_changes ..) ?_ rfl
                refine .step (plcClean_changes ..) ?_ rfl
                refine .ite ?_ ?_
                · refine .step (setPlc_changes ..) ?_ rfl
                  exact .refl
                · refine .step (plcCountBy_changes _ _ _ _ rfl) ?_ rfl
                  refine .step (setPlc_changes ..) ?_ rfl
                  exact .refl
              · refine .ite ?_ ?_
                · refine .step (setPlc_changes ..) ?_ rfl
                  exact .refl
                · refine .step (plcCountBy_changes _ _ _ _ rfl) ?_ rfl
                  refine .step (setPlc_changes ..) ?_ rfl
                  exact .refl
            · refine .ite ?_ ?_
              · refine .ite ?_ ?_
                · refine .step (plcData_changes ..) ?_ rfl
                  refine .step (plcCount_changes _ _ _ rfl) ?_ rfl
                  refine .ite ?_ ?_
                  · refine .ite ?_ ?_
                    · refine .step (setPlc_changes ..) ?_ rfl
                      exact .refl
                    · refine .step (plcCountBy_changes _ _ _ _ rfl) ?_ rfl
                      refine .step (setPlc_changes ..) ?_ rfl
                      exact .refl
                  · refine .step (plcCount_changes _ _ _ rfl) ?_ rfl
                    refine .ite ?_ ?_
                    · refine .step (setPlc_changes ..) ?_ rfl
                      exact .refl
                    · refine .step (plcCountBy_changes _ _ _ _ rfl) ?_ rfl
                      refine .step (setPlc_changes ..) ?_ rfl
                      exact .refl
                · refine .step (plcCount_changes _ _ _ rfl) ?_ rfl
                  refine .ite ?_ ?_
                  · refine .ite ?_ ?_
                    · refine .step (setPlc_changes ..) ?_ rfl
                      exact .refl
                    · refine .step (plcCountBy_changes _ _ _ _ rfl) ?_ rfl
                      refine .step (setPlc_changes ..) ?_ rfl
                      exact .refl
                  · refine .step (plcCount_changes _ _ _ rfl) ?_ rfl
                    refine .ite ?_ ?_
                    · refine .step (setPlc_changes ..) ?_ rfl
                      exact .refl
                    · refine .step (plcCountBy_changes _ _ _ _ rfl) ?_ rfl
                      refine .step (setPlc_changes ..) ?_ rfl
                      exact .refl
              · refine .step (plcJournal_changes ..) ?_ rfl
                refine .step (plcBody_changes ..) ?_ rfl
                refine .ite ?_ ?_
                · refine .step (plcAnswerMap_changes ..) ?_ rfl
                  refine .ite ?_ ?_
                  · refine .step (emit_changes ..) ?_ rfl
                    refine .ite ?_ ?_
                    · refine .step (setPlc_changes ..) ?_ rfl
                      refine .step (plcCount_changes _ _ _ rfl) ?_ rfl
                      refine .ite ?_ ?_
                      · refine .ite ?_ ?_
                        · refine .step (setPlc_changes ..) ?_ rfl
                          exact .refl
                        · refine .step (plcCountBy_changes _ _ _ _ rfl) ?_ rfl
                          refine .step (setPlc_changes ..) ?_ rfl
                          exact .refl
                      · refine .step (plcCount_changes _ _ _ rfl) ?_ rfl
                        refine .ite ?_ ?_
                        · refine .step (setPlc_changes ..) ?_ rfl
                          exact .refl
                        · refine .step (plcCountBy_changes _ _ _ _ rfl) ?_ rfl
                          refine .step (setPlc_changes ..) ?_ rfl
                          exact .refl
                    · refine .ite ?_ ?_
                      · refine .step (plcClean_changes ..) ?_ rfl
                        refine .step (setPlc_changes ..) ?_ rfl
                        refine .step (plcCount_changes _ _ _ rfl) ?_ rfl
                        refine .ite ?_ ?_
                        · refine .ite ?_ ?_
                          · refine .step (setPlc_changes ..) ?_ rfl
                            exact .refl
                          · refine .step (plcCountBy_changes _ _ _ _ rfl) ?_ rfl
                            refine .step (setPlc_changes ..) ?_ rfl
                            exact .refl
                        · refine .step (plcCount_changes _ _ _ rfl) ?_ rfl
                          refine .ite ?_ ?_
                          · refine .step (setPlc_changes ..) ?_ rfl
                            exact .refl
                          · refine .step (plcCountBy_changes _ _ _ _ rfl) ?_ rfl
                            refine .step (setPlc_changes ..) ?_ rfl
                            exact .refl
                      · refine .step (plcNeighbour_changes ..) ?_ rfl
                        refine .step (setPlc_changes ..) ?_ rfl
                        refine .step (plcCount_changes _ _ _ rfl) ?_ rfl
                        refine .ite ?_ ?_
                        · refine .ite ?_ ?_
                          · refine .step (setPlc_changes ..) ?_ rfl
                            exact .refl
                          · refine .step (plcCountBy_changes _ _ _ _ rfl) ?_ rfl
                            refine .step (setPlc_changes ..) ?_ rfl
                            exact .refl
                        · refine .step (plcCount_changes _ _ _ rfl) ?_ rfl
                          refine .ite ?_ ?_
                          · refine .step (setPlc_changes ..) ?_ rfl
                            exact .refl
                          · refine .step (plcCountBy_changes _ _ _ _ rfl) ?_ rfl
                            refine .step (setPlc_changes ..) ?_ rfl
                            exact .refl
                  · refine .ite ?_ ?_
                    · refine .step (setPlc_changes ..) ?_ rfl
                      refine .step (plcCount_changes _ _ _ rfl) ?_ rfl
                      refine .ite ?_ ?_
                      · refine .ite ?_ ?_
                        · refine .step (setPlc_changes ..) ?_ rfl
                          exact .refl
                        · refine .step (plcCountBy_changes _ _ _ _ rfl) ?_ rfl
                          refine .step (setPlc_changes ..) ?_ rfl
                          exact .refl
                      · refine .step (plcCount_changes _ _ _ rfl) ?_ rfl
                        refine .ite ?_ ?_
                        · refine .step (setPlc_changes ..) ?_ rfl
                          exact .refl
                        · refine .step (plcCountBy_changes _ _ _ _ rfl) ?_ rfl
                          refine .step (setPlc_changes ..) ?_ rfl
                          exact .refl
                    · refine .ite ?_ ?_
                      · refine .step (plcClean_changes ..) ?_ rfl
                        refine .step (setPlc_changes ..) ?_ rfl
                        refine .step (plcCount_changes _ _ _ rfl) ?_ rfl
                        refine .ite ?_ ?_
                        · refine .ite ?_ ?_
                          · refine .step (setPlc_changes ..) ?_ rfl
                            exact .refl
                          · refine .step (plcCountBy_changes _ _ _ _ rfl) ?_ rfl
                            refine .step (setPlc_changes ..) ?_ rfl
                            exact .refl
                        · refine .step (plcCount_changes _ _ _ rfl) ?_ rfl
                          refine .ite ?_ ?_
                          · refine .step (setPlc_changes ..) ?_ rfl
                            exact .refl
                          · refine .step (plcCountBy_changes _ _ _ _ rfl) ?_ rfl
                            refine .step (setPlc_changes ..) ?_ rfl
                            exact .refl
                      · refine .step (plcNeighbour_changes ..) ?_ rfl
                        refine .step (setPlc_changes ..) ?_ rfl
                        refine .step (plcCount_changes _ _ _ rfl) ?_ rfl
                        refine .ite ?_ ?_
                        · refine .ite ?_ ?_
                          · refine .step (setPlc_changes ..) ?_ rfl
                            exact .refl
                          · refine .step (plcCountBy_changes _ _ _ _ rfl) ?_ rfl
                            refine .step (setPlc_changes ..) ?_ rfl
                            exact .refl
                        · refine .step (plcCount_changes _ _ _ rfl) ?_ rfl
                          refine .ite ?_ ?_
                          · refine .step (setPlc_changes ..) ?_ rfl
                            exact .refl
                          · refine .step (plcCountBy_changes _ _ _ _ rfl) ?_ rfl
                            refine .step (setPlc_changes ..) ?_ rfl
                            exact .refl
                · refine .ite ?_ ?_
                  · refine .step (emit_changes ..) ?_ rfl
                    refine .ite ?_ ?_
                    · refine .step (setPlc_changes ..) ?_ rfl
                      refine .step (plcCount_changes _ _ _ rfl) ?_ rfl
                      refine .ite ?_ ?_
                      · refine .ite ?_ ?_
                        · refine .step (setPlc_changes ..) ?_ rfl
                          exact .refl
                        · refine .step (plcCountBy_changes _ _ _ _ rfl) ?_ rfl
                          refine .step (setPlc_changes ..) ?_ rfl
                          exact .refl
                      · refine .step (plcCount_changes _ _ _ rfl) ?_ rfl
                        refine .ite ?_ ?_
                        · refine .step (setPlc_changes ..) ?_ rfl
                          exact .refl
                        · refine .step (plcCountBy_changes _ _ _ _ rfl) ?_ rfl
                          refine .step (setPlc_changes ..) ?_ rfl
                          exact .refl
                    · refine .ite ?_ ?_
                      · refine .step (plcClean_changes ..) ?_ rfl
                        refine .step (setPlc_changes ..) ?_ rfl
                        refine .step (plcCount_changes _ _ _ rfl) ?_ rfl
                        refine .ite ?_ ?_
                        · refine .ite ?_ ?_
                          · refine .step (setPlc_changes ..) ?_ rfl
                            exact .refl
                          · refine .step (plcCountBy_changes _ _ _ _ rfl) ?_ rfl
                            refine .step (setPlc_changes ..) ?_ rfl
                            exact .refl
                        · refine .step (plcCount_changes _ _ _ rfl) ?_ rfl
                          refine .ite ?_ ?_
                          · refine .step (setPlc_changes ..) ?_ rfl
                            exact .refl
                          · refine .step (plcCountBy_changes _ _ _ _ rfl) ?_ rfl
                            refine .step (setPlc_changes ..) ?_ rfl
                            exact .refl
                      · refine .step (plcNeighbour_changes ..) ?_ rfl
                        refine .step (setPlc_changes ..) ?_ rfl
                        refine .step (plcCount_changes _ _ _ rfl) ?_ rfl
                        refine .ite ?_ ?_
                        · refine .ite ?_ ?_
                          · refine .step (setPlc_changes ..) ?_ rfl
                            exact .refl
                          · refine .step (plcCountBy_changes _ _ _ _ rfl) ?_ rfl
                            refine .step (setPlc_changes ..) ?_ rfl
                            exact .refl
                        · refine .step (plcCount_changes _ _ _ rfl) ?_ rfl
                          refine .ite ?_ ?_
                          · refine .step (setPlc_changes ..) ?_ rfl
                            exact .refl
                          · refine .step (plcCountBy_changes _ _ _ _ rfl) ?_ rfl
                            refine .step (setPlc_changes ..) ?_ rfl
                            exact .refl
                  · refine .ite ?_ ?_
                    · refine .step (setPlc_changes ..) ?_ rfl
                      refine .step (plcCount_changes _ _ _ rfl) ?_ rfl
                      refine .ite ?_ ?_
                      · refine .ite ?_ ?_
                        · refine .step (setPlc_changes ..) ?_ rfl
                          exact .refl
                        · refine .step (plcCountBy_changes _ _ _ _ rfl) ?_ rfl
                          refine .step (setPlc_changes ..) ?_ rfl
                          exact .refl
                      · refine .step (plcCount_changes _ _ _ rfl) ?_ rfl
                        refine .ite ?_ ?_
                        · refine .step (setPlc_changes ..) ?_ rfl
                          exact .refl
                        · refine .step (plcCountBy_changes _ _ _ _ rfl) ?_ rfl
                          refine .step (setPlc_changes ..) ?_ rfl
                          exact .refl
                    · refine .ite ?_ ?_
                      · refine .step (plcClean_changes ..) ?_ rfl
                        refine .step (setPlc_changes ..) ?_ rfl
                        refine .step (plcCount_changes _ _ _ rfl) ?_ rfl
                        refine .ite ?_ ?_
                        · refine .ite ?_ ?_
                          · refine .step (setPlc_changes ..) ?_ rfl
                            exact .refl
                          · refine .step (plcCountBy_changes _ _ _ _ rfl) ?_ rfl
                            refine .step (setPlc_changes ..) ?_ rfl
                            exact .refl
                        · refine .step (plcCount_changes _ _ _ rfl) ?_ rfl
                          refine .ite ?_ ?_
                          · refine .step (setPlc_changes ..) ?_ rfl
                            exact .refl
                          · refine .step (plcCountBy_changes _ _ _ _ rfl) ?_ rfl
                            refine .step (setPlc_changes ..) ?_ rfl
                            exact .refl
                      · refine .step (plcNeighbour_changes ..) ?_ rfl
                        refine .step (setPlc_changes ..) ?_ rfl
                        refine .step (plcCount_changes _ _ _ rfl) ?_ rfl
                        refine .ite ?_ ?_
                        · refine .ite ?_ ?_
                          · refine .step (setPlc_changes ..) ?_ rfl
                            exact .refl
                          · refine .step (plcCountBy_changes _ _ _ _ rfl) ?_ rfl
                            refine .step (setPlc_changes ..) ?_ rfl
                            exact .refl
                        · refine .step (plcCount_changes _ _ _ rfl) ?_ rfl
                          refine .ite ?_ ?_
                          · refine .step (setPlc_changes ..) ?_ rfl
                            exact .refl
                          · refine .step (plcCountBy_changes _ _ _ _ rfl) ?_ rfl
                            refine .step (setPlc_changes ..) ?_ rfl
                            exact .refl

theorem plcAckTimeout_changes (n : Nat) (id : Nat) (s : State) : Changes [.regs, .plc, .jr, .out] s (plcAckTimeout n id s) := by
  unfold plcAckTimeout
  try dsimp only
  split
  · exact .refl
  · refine .ite ?_ ?_
    · refine .step (plcJournal_changes ..) ?_ rfl
      refine .step (plcEmit_changes ..) ?_ rfl
      refine .step (setPlc_changes ..) ?_ rfl
      refine .ite ?_ ?_
      · refine .step (plcCount_changes _ _ _ rfl) ?_ rfl
        refine .step (plcCount_changes _ _ _ rfl) ?_ rfl
        exact .refl
      · refine .step (plcCount_changes _ _ _ rfl) ?_ rfl
        exact .refl
    · refine .step (plcJournal_changes ..) ?_ rfl
      refine .step (plcFail_changes ..) ?_ rfl
      refine .step (setPlc_changes ..) ?_ rfl
      refine .step (plcCount_changes _ _ _ rfl) ?_ rfl
      exact .refl

theorem routeTtlExpiry_changes (n : Nat) (dest : Nat) (s : State) : Changes [.plc, .jr] s (routeTtlExpiry n dest s) := by
  unfold routeTtlExpiry
  try dsimp only
  split
  · exact .refl
  · refine .ite ?_ ?_
    · exact .refl
    · refine .step (plcJournal_changes ..) ?_ rfl
      refine .step (setPlc_changes ..) ?_ rfl
      exact .refl

theorem plcNoReply_changes (n : Nat) (dest : Nat) (s : State) : Changes [.regs, .plc] s (plcNoReply n dest s) := by
  unfold plcNoReply
  try dsimp only
  split
  · refine .ite ?_ ?_
    · refine .step (plcCount_changes _ _ _ rfl) ?_ rfl
      refine .step (setPlc_changes ..) ?_ rfl
      exact .refl
    · refine .step (setPlc_changes ..) ?_ rfl
      exact .refl
  · refine .step (setPlc_changes ..) ?_ rfl
    exact .refl

theorem routeWaitExpiry_changes (n : Nat) (id : Nat) (s : State) : Changes [.regs, .plc, .jr, .out] s (routeWaitExpiry n id s) := by
  unfold routeWaitExpiry
  try dsimp only
  split
  · refine .step (plcJournal_changes ..) ?_ rfl
    refine .step (plcFail_changes ..) ?_ rfl
    refine .step (plcNoReply_changes ..) ?_ rfl
    refine .step (setPlc_changes ..) ?_ rfl
    exact .refl
  · split
    · refine .step (plcNoReply_changes ..) ?_ rfl
      exact .refl
    · exact .refl

theorem plcShortExpiry_changes (n : Nat) (short : Nat) (s : State) : Changes [.plc, .jr] s (plcShortExpiry n short s) := by
  unfold plcShortExpiry
  try dsimp only
  split
  · exact .refl
  · refine .ite ?_ ?_
    · exact .refl
    · refine .step (plcJournal_changes ..) ?_ rfl
      refine .step (setPlc_changes ..) ?_ rfl
      exact .refl

theorem zcReportSend_changes (n : Nat) (short : Nat) (s : State) : Changes [.regs, .win, .plc, .relay, .jr, .evt] s (zcReportSend n short s) := by
  unfold zcReportSend
  try dsimp only
  split
  · exact .refl
  · split
    · exact .refl
    · refine .ite ?_ ?_
      · exact .refl
      · refine .step (sendEntry_changes ..) ?_ rfl
        refine .step (setPlc_changes ..) ?_ rfl
        exact .refl

theorem fpReportSend_changes (n : Nat) (short : Nat) (s : State) : Changes [.regs, .win, .plc, .relay, .jr, .evt] s (fpReportSend n short s) := by
  unfold fpReportSend
  try dsimp only
  split
  · exact .refl
  · refine .ite ?_ ?_
    · exact .refl
    · refine .step (sendEntry_changes ..) ?_ rfl
      refine .step (setPlc_changes ..) ?_ rfl
      exact .refl

theorem setZcLost_changes (n : Nat) (s : State) : Changes [.plc, .evt] s (setZcLost n s) := by
  unfold setZcLost
  try dsimp only
  refine .ite ?_ ?_
  · refine .step (setPlc_changes ..) ?_ rfl
    exact .refl
  · refine .step (event_changes ..) ?_ rfl
    refine .step (setPlc_changes ..) ?_ rfl
    exact .refl

theorem zcEdge_changes (n : Nat) (t : Nat) (s : State) : Changes [.plc, .evt] s (zcEdge n t s) := by
  unfold zcEdge
  try dsimp only
  refine .ite ?_ ?_
  · exact .refl
  · split
    · refine .step (setPlc_changes ..) ?_ rfl
      exact .refl
    · refine .ite ?_ ?_
      · refine .step (setZcLost_changes ..) ?_ rfl
        refine .step (setPlc_changes ..) ?_ rfl
        exact .refl
      · refine .step (setPlc_changes ..) ?_ rfl
        refine .step (setPlc_changes ..) ?_ rfl
        exact .refl

theorem zcLostTimer_changes (n : Nat) (s : State) : Changes [.plc, .evt] s (zcLostTimer n s) := by
  unfold zcLostTimer
  try dsimp only
  refine .ite ?_ ?_
  · refine .step (setZcLost_changes ..) ?_ rfl
    refine .step (setPlc_changes ..) ?_ rfl
    exact .refl
  · exact .refl

theorem ldFaultFall_changes (n : Nat) (s : State) : Changes [.plc, .evt] s (ldFaultFall n s) := by
  unfold ldFaultFall
  try dsimp only
  refine .ite ?_ ?_
  · refine .step (event_changes ..) ?_ rfl
    refine .step (setPlc_changes ..) ?_ rfl
    exact .refl
  · refine .step (setPlc_changes ..) ?_ rfl
    exact .refl

theorem ldFaultRise_changes (n : Nat) (s : State) : Changes [.plc] s (ldFaultRise n s) := by
  unfold ldFaultRise
  try dsimp only
  refine .ite ?_ ?_
  · exact .refl
  · refine .step (setPlc_changes ..) ?_ rfl
    exact .refl

theorem ldFaultResume_changes (n : Nat) (s : State) : Changes [.plc] s (ldFaultResume n s) := by
  unfold ldFaultResume
  try dsimp only
  refine .step (setPlc_changes ..) ?_ rfl
  exact .refl

theorem plcGmkRotate_changes (n : Nat) (s : State) : Changes [.regs, .plc, .jr, .out, .draws] s (plcGmkRotate n s).1 := by
  unfold plcGmkRotate
  try dsimp only
  refine .fst_ite ?_ ?_
  · dsimp only
    exact .refl
  · dsimp only
    refine .step (plcJournal_changes ..) ?_ rfl
    split
    · refine .foldl (fun _ _ _ => ?_) ?_
      · refine .step (plcUnicast_changes ..) ?_ rfl
        assumption
      · refine .step (setPlc_changes ..) ?_ rfl
        refine .step (draw_changes ..) ?_ rfl
        refine .step (draw_changes ..) ?_ rfl
        exact .refl
    · refine .step (setPlc_changes ..) ?_ rfl
      refine .step (draw_changes ..) ?_ rfl
      refine .step (draw_changes ..) ?_ rfl
      exact .refl

theorem plcKick_changes (n : Nat) (short : Nat) (s : State) : Changes [.regs, .plc, .jr, .out] s (plcKick n short s).1 := by
  unfold plcKick
  try dsimp only
  refine .fst_ite ?_ ?_
  · dsimp only
    exact .refl
  · dsimp only
    refine .step (plcJournal_changes ..) ?_ rfl
    refine .step (setPlc_changes ..) ?_ rfl
    refine .step (plcUnicast_changes ..) ?_ rfl
    exact .refl

theorem roundFree_changes (num : Int) (den : Int) (s : State) : Changes [.draws] s (roundFree num den s).2 := by
  unfold roundFree
  try dsimp only
  refine .snd_ite ?_ ?_
  · dsimp only
    exact .refl
  · dsimp only
    refine .step (draw_changes ..) ?_ rfl
    exact .refl

theorem sqrtFree_changes (num : Nat) (den : Nat) (s : State) : Changes [.draws] s (sqrtFree num den s).2 := by
  unfold sqrtFree
  generalize isqrt (num / den) = q
  exact .snd_ite .refl (.step (draw_changes ..) .refl rfl)

theorem freeWord_changes (s : State) : Changes [.draws] s (freeWord s).2 := by
  unfold freeWord
  try dsimp only
  refine .step (draw_changes ..) ?_ rfl
  exact .refl

theorem phaseEnergy_changes (r : List Byte) (xs : List (List Int)) (p : Nat) (s : State) : Changes [.draws] s (phaseEnergy r xs p s).2 := by
  unfold phaseEnergy
  try dsimp only
  refine .snd_ite ?_ ?_
  · dsimp only
    refine .step (draw_changes ..) ?_ rfl
    exact .refl
  · refine .step (roundFree_changes ..) ?_ rfl
    exact .refl

theorem pqWords_changes (r : List Byte) (xs : List (List Int)) (sec : Nat) (s : State) : Changes [.draws] s (pqWords r xs sec s).2 := by
  unfold pqWords
  try dsimp only
  refine .foldl_snd (fun _ _ _ => ?_) ?_
  · dsimp only
    refine .step (freeWord_changes ..) ?_ rfl
    assumption
  · dsimp only
    refine .foldl_snd (fun _ _ _ => ?_) ?_
    · refine .snd_ite ?_ ?_
      · dsimp only
        refine .step (freeWord_changes ..) ?_ rfl
        assumption
      · dsimp only
        refine .step (roundFree_changes ..) ?_ rfl
        assumption
    · dsimp only
      refine .foldl_snd (fun _ _ _ => ?_) ?_
      · dsimp only
        refine .step (sqrtFree_changes ..) ?_ rfl
        assumption
      · dsimp only
        refine .step (freeWord_changes ..) ?_ rfl
        exact .refl

theorem giveRms_changes (r : RmsRec) (sec : Nat) (s : State) : Changes [.regs, .win, .bal, .relay, .jr, .evt] s (giveRms r sec s) := by
  unfold giveRms
  try dsimp only
  refine .ite ?_ ?_
  · exact .refl
  · refine .ite ?_ ?_
    · refine .step (storeRms_changes ..) ?_ rfl
      exact .refl
    · refine .step (sendEntry_changes ..) ?_ rfl
      exact .refl

theorem headless_changes (h : Nat) (sec : Nat) (s : State) : Changes [.regs, .win, .bal, .relay, .jr, .mea, .evt, .draws] s (headless h sec s) := by
  unfold headless
  try dsimp only
  refine .step (giveRms_changes ..) ?_ rfl
  refine .step (setHead_changes ..) ?_ rfl
  refine .foldl_snd (fun _ _ _ => ?_) ?_
  · dsimp only
    refine .step (draw_changes ..) ?_ rfl
    assumption
  · dsimp only
    exact .refl

theorem headSecond_changes (h : Nat) (sec : Nat) (raw : List (List Int)) (s : State) : Changes [.regs, .win, .bal, .relay, .jr, .mea, .evt, .draws] s (headSecond h sec raw s) := by
  unfold headSecond
  try dsimp only
  refine .ite ?_ ?_
  · exact .refl
  · refine .ite ?_ ?_
    · refine .step (headless_changes ..) ?_ rfl
      exact .refl
    · split
      · exact .refl
      · refine .step (setHead_changes ..) ?_ rfl
        refine .snd_ite ?_ ?_
        · dsimp only
          refine .ite ?_ ?_
          · refine .foldl (fun _ _ _ => ?_) ?_
            · refine .step (setHead_changes ..) ?_ rfl
              refine .step (phaseEnergy_changes ..) ?_ rfl
              assumption
            · refine .ite ?_ ?_
              · refine .step (setHead_changes ..) ?_ rfl
                refine .ite ?_ ?_
                · exact .refl
                · refine .step (setHead_changes ..) ?_ rfl
                  refine .step (countBy_changes _ _ _ rfl) ?_ rfl
                  exact .refl
              · refine .ite ?_ ?_
                · exact .refl
                · refine .step (setHead_changes ..) ?_ rfl
                  refine .step (countBy_changes _ _ _ rfl) ?_ rfl
                  exact .refl
          · refine .step (giveRms_changes ..) ?_ rfl
            refine .foldl (fun _ _ _ => ?_) ?_
            · refine .step (setHead_changes ..) ?_ rfl
              refine .step (phaseEnergy_changes ..) ?_ rfl
              assumption
            · refine .ite ?_ ?_
              · refine .step (setHead_changes ..) ?_ rfl
                refine .ite ?_ ?_
                · exact .refl
                · refine .step (setHead_changes ..) ?_ rfl
                  refine .step (countBy_changes _ _ _ rfl) ?_ rfl
                  exact .refl
              · refine .ite ?_ ?_
                · exact .refl
                · refine .step (setHead_changes ..) ?_ rfl
                  refine .step (countBy_changes _ _ _ rfl) ?_ rfl
                  exact .refl
        · refine .step (pqWords_changes ..) ?_ rfl
          refine .ite ?_ ?_
          · refine .foldl (fun _ _ _ => ?_) ?_
            · refine .step (setHead_changes ..) ?_ rfl
              refine .step (phaseEnergy_changes ..) ?_ rfl
              assumption
            · refine .ite ?_ ?_
              · refine .step (setHead_changes ..) ?_ rfl
                refine .ite ?_ ?_
                · exact .refl
                · refine .step (setHead_changes ..) ?_ rfl
                  refine .step (countBy_changes _ _ _ rfl) ?_ rfl
                  exact .refl
              · refine .ite ?_ ?_
                · exact .refl
                · refine .step (setHead_changes ..) ?_ rfl
                  refine .step (countBy_changes _ _ _ rfl) ?_ rfl
                  exact .refl
          · refine .step (giveRms_changes ..) ?_ rfl
            refine .foldl (fun _ _ _ => ?_) ?_
            · refine .step (setHead_changes ..) ?_ rfl
              refine .step (phaseEnergy_changes ..) ?_ rfl
              assumption
            · refine .ite ?_ ?_
              · refine .step (setHead_changes ..) ?_ rfl
                refine .ite ?_ ?_
                · exact .refl
                · refine .step (setHead_changes ..) ?_ rfl
                  refine .step (countBy_changes _ _ _ rfl) ?_ rfl
                  exact .refl
              · refine .ite ?_ ?_
                · exact .refl
                · refine .step (setHead_changes ..) ?_ rfl
                  refine .step (countBy_changes _ _ _ rfl) ?_ rfl
                  exact .refl

theorem meaSecondEnd_changes (x0 : List (List Int)) (x1 : List (List Int)) (s : State) : Changes [.regs, .win, .bal, .relay, .jr, .mea, .evt, .draws] s (meaSecondEnd x0 x1 s) := by
  unfold meaSecondEnd
  try dsimp only
  refine .ite ?_ ?_
  · exact .refl
  · refine .ite ?_ ?_
    · refine .foldl (fun _ _ _ => ?_) ?_
      · refine .ite ?_ ?_
        · refine .step (setHead_changes ..) ?_ rfl
          assumption
        · assumption
      · refine .step (count_changes _ _ rfl) ?_ rfl
        exact .refl
    · refine .step (headSecond_changes ..) ?_ rfl
      refine .step (headSecond_changes ..) ?_ rfl
      exact .refl

theorem headMinute_changes (h : Nat) (start : Nat) (flags : Byte) (s : State) : Changes [.regs, .win, .bal, .relay, .jr, .mea, .evt] s (headMinute h start flags s) := by
  unfold headMinute
  try dsimp only
  refine .ite ?_ ?_
  · exact .refl
  · refine .ite ?_ ?_
    · refine .step (setHead_changes ..) ?_ rfl
      refine .ite ?_ ?_
      · refine .step (count_changes _ _ rfl) ?_ rfl
        exact .refl
      · refine .step (count_changes _ _ rfl) ?_ rfl
        refine .step (count_changes _ _ rfl) ?_ rfl
        exact .refl
    · refine .ite ?_ ?_
      · refine .step (storeMinute_changes ..) ?_ rfl
        refine .step (setHead_changes ..) ?_ rfl
        refine .ite ?_ ?_
        · refine .step (count_changes _ _ rfl) ?_ rfl
          exact .refl
        · refine .step (count_changes _ _ rfl) ?_ rfl
          refine .step (count_changes _ _ rfl) ?_ rfl
          exact .refl
      · refine .step (sendEntry_changes ..) ?_ rfl
        refine .step (setHead_changes ..) ?_ rfl
        refine .ite ?_ ?_
        · refine .step (count_changes _ _ rfl) ?_ rfl
          exact .refl
        · refine .step (count_changes _ _ rfl) ?_ rfl
          refine .step (count_changes _ _ rfl) ?_ rfl
          exact .refl

theorem minuteOf_changes (h : Nat) (now : Nat) (s : State) : Changes [.regs, .win, .bal, .relay, .jr, .mea, .evt] s (minuteOf h now s) := by
  unfold minuteOf
  try dsimp only
  refine .ite ?_ ?_
  · exact .refl
  · refine .step (headMinute_changes ..) ?_ rfl
    refine .step (setHead_changes ..) ?_ rfl
    exact .refl

theorem meaMinuteEnd_changes (s : State) : Changes [.regs, .win, .bal, .relay, .jr, .mea, .evt] s (meaMinuteEnd s) := by
  unfold meaMinuteEnd
  try dsimp only
  refine .ite ?_ ?_
  · exact .refl
  · refine .step (minuteOf_changes ..) ?_ rfl
    refine .step (minuteOf_changes ..) ?_ rfl
    exact .refl

theorem meaStep_changes (s : State) : Changes [.regs, .win, .bal, .relay, .jr, .mea, .evt] s (meaStep s) := by
  unfold meaStep
  try dsimp only
  refine .ite ?_ ?_
  · exact .refl
  · refine .step (headMinute_changes ..) ?_ rfl
    refine .step (setHead_changes ..) ?_ rfl
    refine .step (headMinute_changes ..) ?_ rfl
    refine .step (setHead_changes ..) ?_ rfl
    exact .refl

theorem condEnd_changes (h : Nat) (p : Nat) (c : PqCond) (s : State) : Changes [.regs, .mea, .evt] s (condEnd h p c s) := by
  unfold condEnd
  try dsimp only
  refine .step (event_changes ..) ?_ rfl
  refine .step (count_changes _ _ (condFree _)) ?_ rfl
  refine .step (setHead_changes ..) ?_ rfl
  exact .refl

theorem halfCycle_changes (h : Nat) (p : Nat) (codes : List Int) (s : State) : Changes [.regs, .mea, .evt, .draws] s (halfCycle h p codes s) := by
  unfold halfCycle
  try dsimp only
  refine .ite ?_ ?_
  · exact .refl
  · split
    · exact .refl
    · split
      · refine .ite ?_ ?_
        · refine .step (setHead_changes ..) ?_ rfl
          refine .ite ?_ ?_
          · refine .step (sqrtFree_changes ..) ?_ rfl
            exact .refl
          · refine .step (setHead_changes ..) ?_ rfl
            refine .step (sqrtFree_changes ..) ?_ rfl
            exact .refl
        · refine .ite ?_ ?_
          · refine .step (setHead_changes ..) ?_ rfl
            refine .ite ?_ ?_
            · refine .step (sqrtFree_changes ..) ?_ rfl
              exact .refl
            · refine .step (setHead_changes ..) ?_ rfl
              refine .step (sqrtFree_changes ..) ?_ rfl
              exact .refl
          · refine .ite ?_ ?_
            · refine .step (setHead_changes ..) ?_ rfl
              refine .ite ?_ ?_
              · refine .step (sqrtFree_changes ..) ?_ rfl
                exact .refl
              · refine .step (setHead_changes ..) ?_ rfl
                refine .step (sqrtFree_changes ..) ?_ rfl
                exact .refl
            · refine .ite ?_ ?_
              · refine .step (sqrtFree_changes ..) ?_ rfl
                exact .refl
              · refine .step (setHead_changes ..) ?_ rfl
                refine .step (sqrtFree_changes ..) ?_ rfl
                exact .refl
      · refine .ite ?_ ?_
        · refine .ite ?_ ?_
          · refine .step (setHead_changes ..) ?_ rfl
            refine .ite ?_ ?_
            · refine .step (sqrtFree_changes ..) ?_ rfl
              exact .refl
            · refine .step (setHead_changes ..) ?_ rfl
              refine .step (sqrtFree_changes ..) ?_ rfl
              exact .refl
          · refine .ite ?_ ?_
            · refine .step (setHead_changes ..) ?_ rfl
              refine .ite ?_ ?_
              · refine .step (sqrtFree_changes ..) ?_ rfl
                exact .refl
              · refine .step (setHead_changes ..) ?_ rfl
                refine .step (sqrtFree_changes ..) ?_ rfl
                exact .refl
            · refine .step (condEnd_changes ..) ?_ rfl
              refine .ite ?_ ?_
              · refine .step (sqrtFree_changes ..) ?_ rfl
                exact .refl
              · refine .step (setHead_changes ..) ?_ rfl
                refine .step (sqrtFree_changes ..) ?_ rfl
                exact .refl
        · refine .ite ?_ ?_
          · refine .ite ?_ ?_
            · refine .step (setHead_changes ..) ?_ rfl
              refine .ite ?_ ?_
              · refine .step (sqrtFree_changes ..) ?_ rfl
                exact .refl
              · refine .step (setHead_changes ..) ?_ rfl
                refine .step (sqrtFree_changes ..) ?_ rfl
                exact .refl
            · refine .step (condEnd_changes ..) ?_ rfl
              refine .ite ?_ ?_
              · refine .step (sqrtFree_changes ..) ?_ rfl
                exact .refl
              · refine .step (setHead_changes ..) ?_ rfl
                refine .step (sqrtFree_changes ..) ?_ rfl
                exact .refl
          · refine .ite ?_ ?_
            · refine .step (setHead_changes ..) ?_ rfl
              refine .ite ?_ ?_
              · refine .step (sqrtFree_changes ..) ?_ rfl
                exact .refl
              · refine .step (setHead_changes ..) ?_ rfl
                refine .step (sqrtFree_changes ..) ?_ rfl
                exact .refl
            · refine .ite ?_ ?_
              · refine .step (setHead_changes ..) ?_ rfl
                refine .step (condEnd_changes ..) ?_ rfl
                refine .ite ?_ ?_
                · refine .step (sqrtFree_changes ..) ?_ rfl
                  exact .refl
                · refine .step (setHead_changes ..) ?_ rfl
                  refine .step (sqrtFree_changes ..) ?_ rfl
                  exact .refl
              · refine .step (condEnd_changes ..) ?_ rfl
                refine .ite ?_ ?_
                · refine .step (sqrtFree_changes ..) ?_ rfl
                  exact .refl
                · refine .step (setHead_changes ..) ?_ rfl
                  refine .step (sqrtFree_changes ..) ?_ rfl
                  exact .refl

theorem meaEntry_changes (u : BitVec 12) (m : MinuteRec) (s : State) : Changes [.bal, .jr] s (meaEntry u m s) := by
  unfold meaEntry
  try dsimp only
  refine .ite ?_ ?_
  · exact .refl
  · refine .step (storeMinute_changes ..) ?_ rfl
    exact .refl

theorem rmsEntry_changes (u : BitVec 12) (m : RmsRec) (s : State) : Changes [.bal, .jr] s (rmsEntry u m s) := by
  unfold rmsEntry
  try dsimp only
  refine .step (storeRms_changes ..) ?_ rfl
  exact .refl

theorem formatStore_changes (s : State) : Changes [.camp, .relay, .arch, .evt] s (formatStore s).2 := by
  unfold formatStore
  try dsimp only
  refine .snd_ite ?_ ?_
  · dsimp only
    refine .step (event_changes ..) ?_ rfl
    refine .step (setArch_changes ..) ?_ rfl
    exact .refl
  · dsimp only
    refine .step (setArch_changes ..) ?_ rfl
    refine .step (Changes.set_camp_relay_evt ..) ?_ rfl
    exact .refl

theorem archStart_changes (fitted : List NandTarget) (s : State) : Changes [.arch, .evt] s (archStart fitted s) := by
  unfold archStart
  try dsimp only
  refine .ite ?_ ?_
  · exact .refl
  · split
    · exact .refl
    · split
      · refine .step (event_changes ..) ?_ rfl
        refine .foldl (fun _ _ _ => ?_) ?_
        · refine .ite ?_ ?_
          · assumption
          · refine .step (event_changes ..) ?_ rfl
            assumption
        · exact .refl
      · refine .ite ?_ ?_
        · refine .foldl (fun _ _ _ => ?_) ?_
          · refine .ite ?_ ?_
            · assumption
            · refine .step (event_changes ..) ?_ rfl
              assumption
          · exact .refl
        · refine .step (setArch_changes ..) ?_ rfl
          refine .foldl (fun _ _ _ => ?_) ?_
          · refine .ite ?_ ?_
            · assumption
            · refine .step (event_changes ..) ?_ rfl
              assumption
          · exact .refl

theorem archiveMount_changes (scan : MountScan) (s : State) : Changes [.regs, .win, .camp, .relay, .jr, .arch, .evt] s (archiveMount scan s) := by
  unfold archiveMount
  try dsimp only
  refine .ite ?_ ?_
  · exact .refl
  · split
    · refine .step (formatStore_changes ..) ?_ rfl
      exact .refl
    · refine .step (checkReadOnly_changes ..) ?_ rfl
      refine .ite ?_ ?_
      · refine .step (campaignRestore_changes ..) ?_ rfl
        refine .ite ?_ ?_
        · refine .step (event_changes ..) ?_ rfl
          refine .ite ?_ ?_
          · refine .step (countBy_changes _ _ _ rfl) ?_ rfl
            refine .step (setArch_changes ..) ?_ rfl
            exact .refl
          · refine .step (addMissing_changes ..) ?_ rfl
            refine .step (countBy_changes _ _ _ rfl) ?_ rfl
            refine .step (setArch_changes ..) ?_ rfl
            exact .refl
        · refine .ite ?_ ?_
          · refine .step (countBy_changes _ _ _ rfl) ?_ rfl
            refine .step (setArch_changes ..) ?_ rfl
            exact .refl
          · refine .step (addMissing_changes ..) ?_ rfl
            refine .step (countBy_changes _ _ _ rfl) ?_ rfl
            refine .step (setArch_changes ..) ?_ rfl
            exact .refl
      · refine .ite ?_ ?_
        · refine .step (event_changes ..) ?_ rfl
          refine .ite ?_ ?_
          · refine .step (countBy_changes _ _ _ rfl) ?_ rfl
            refine .step (setArch_changes ..) ?_ rfl
            exact .refl
          · refine .step (addMissing_changes ..) ?_ rfl
            refine .step (countBy_changes _ _ _ rfl) ?_ rfl
            refine .step (setArch_changes ..) ?_ rfl
            exact .refl
        · refine .ite ?_ ?_
          · refine .step (countBy_changes _ _ _ rfl) ?_ rfl
            refine .step (setArch_changes ..) ?_ rfl
            exact .refl
          · refine .step (addMissing_changes ..) ?_ rfl
            refine .step (countBy_changes _ _ _ rfl) ?_ rfl
            refine .step (setArch_changes ..) ?_ rfl
            exact .refl

theorem archInfo_changes (s : State) : Changes [] s (archInfo s).1 := by
  unfold archInfo
  try dsimp only
  exact .refl

theorem archRead_changes (first : W64) (cnt : Nat) (ms : List Media) (s : State) : Changes [.regs, .arch, .evt] s (archRead first cnt ms s).1 := by
  unfold archRead
  try dsimp only
  refine .fst_ite ?_ ?_
  · dsimp only
    exact .refl
  · refine .fst_ite ?_ ?_
    · dsimp only
      exact .refl
    · refine .fst_ite ?_ ?_
      · dsimp only
        exact .refl
      · dsimp only
        refine .step (readRecords_changes ..) ?_ rfl
        exact .refl

theorem archFindTime_changes (t : W64) (s : State) : Changes [] s (archFindTime t s).1 := by
  unfold archFindTime
  try dsimp only
  refine .fst_ite ?_ ?_
  · dsimp only
    exact .refl
  · refine .fst_ite ?_ ?_
    · dsimp only
      exact .refl
    · dsimp only
      exact .refl

theorem trimTo_changes (upto : Nat) (s : State) : Changes [.arch] s (trimTo upto s) := by
  unfold trimTo
  try dsimp only
  refine .step (setArch_changes ..) ?_ rfl
  exact .refl

theorem archTrim_changes (upto : W64) (s : State) : Changes [.jr, .arch] s (archTrim upto s).1 := by
  unfold archTrim
  try dsimp only
  refine .fst_ite ?_ ?_
  · dsimp only
    exact .refl
  · refine .fst_ite ?_ ?_
    · dsimp only
      exact .refl
    · dsimp only
      refine .step (journal_changes ..) ?_ rfl
      refine .step (trimTo_changes ..) ?_ rfl
      exact .refl

theorem archOvfRead_changes (cnt : Nat) (s : State) : Changes [] s (archOvfRead cnt s).1 := by
  unfold archOvfRead
  try dsimp only
  refine .fst_ite ?_ ?_
  · dsimp only
    exact .refl
  · dsimp only
    exact .refl

theorem archOvfRelease_changes (upto : W64) (s : State) : Changes [.arch] s (archOvfRelease upto s).1 := by
  unfold archOvfRelease
  try dsimp only
  refine .fst_ite ?_ ?_
  · dsimp only
    exact .refl
  · dsimp only
    refine .step (setArch_changes ..) ?_ rfl
    exact .refl

theorem archHostWrite_changes (sector : Nat) (data : List (List Byte)) (s : State) : Changes [.regs, .arch] s (archHostWrite sector data s).1 := by
  unfold archHostWrite
  try dsimp only
  refine .fst_ite ?_ ?_
  · dsimp only
    exact .refl
  · refine .fst_ite ?_ ?_
    · dsimp only
      exact .refl
    · refine .fst_ite ?_ ?_
      · refine .fst_ite ?_ ?_
        · dsimp only
          exact .refl
        · dsimp only
          refine .step (setArch_changes ..) ?_ rfl
          exact .refl
      · refine .fst_ite ?_ ?_
        · dsimp only
          exact .refl
        · refine .fst_ite ?_ ?_
          · dsimp only
            exact .refl
          · split
            · dsimp only
              refine .step (mapJournal_changes ..) ?_ rfl
              refine .step (programSectors_changes (by assumption)) ?_ rfl
              refine .foldl (fun _ _ _ => ?_) ?_
              · refine .step (unmapLsn_changes ..) ?_ rfl
                assumption
              · exact .refl
            · dsimp only
              refine .step (setArch_changes ..) ?_ rfl
              exact .refl

theorem readHost_step (ms : List Media) (k n : Nat) (s : State) (ih : ∀ (n : Nat) (t : State), Changes [.regs, .arch, .evt] t ((readHost ms k n t).2.2)) : Changes [.regs, .arch, .evt] s ((readHost ms (k+1) n s).2.2) := by
  unfold readHost
  try dsimp only
  split
  · dsimp only
    refine .step (ih ..) ?_ rfl
    exact .refl
  · refine .trd_ite ?_ ?_
    · dsimp only
      refine .step (pageRead_changes ..) ?_ rfl
      exact .refl
    · dsimp only
      refine .step (ih ..) ?_ rfl
      refine .step (pageRead_changes ..) ?_ rfl
      exact .refl

theorem readHost_changes (ms : List Media) (k n : Nat) (s : State) : Changes [.regs, .arch, .evt] s ((readHost ms k n s).2.2) := by
  induction k generalizing s n with
  | zero => simp only [readHost]; exact .refl
  | succ k ih => exact readHost_step (ih := fun n t => ih (n := n) (s := t)) ..

theorem archHostRead_changes (sector : Nat) (cnt : Nat) (ms : List Media) (s : State) : Changes [.regs, .arch, .evt] s (archHostRead sector cnt ms s).1 := by
  unfold archHostRead
  try dsimp only
  refine .fst_ite ?_ ?_
  · dsimp only
    exact .refl
  · refine .fst_ite ?_ ?_
    · dsimp only
      exact .refl
    · refine .fst_ite ?_ ?_
      · refine .fst_ite ?_ ?_
        · dsimp only
          exact .refl
        · dsimp only
          exact .refl
      · refine .fst_ite ?_ ?_
        · dsimp only
          exact .refl
        · refine .fst_ite ?_ ?_
          · dsimp only
            exact .refl
          · dsimp only
            refine .step (readHost_changes ..) ?_ rfl
            exact .refl

theorem archFormat_changes (h : Hdr) (confirm : W32) (s : State) : Changes [.arch] s (archFormat h confirm s).1 := by
  unfold archFormat
  try dsimp only
  refine .fst_ite ?_ ?_
  · dsimp only
    exact .refl
  · refine .fst_ite ?_ ?_
    · dsimp only
      exact .refl
    · refine .fst_ite ?_ ?_
      · dsimp only
        exact .refl
      · dsimp only
        refine .step (setArch_changes ..) ?_ rfl
        exact .refl

theorem formatComplete_changes (s : State) : Changes [.regs, .camp, .eth, .relay, .jr, .host, .arch, .evt, .out] s (formatComplete s) := by
  unfold formatComplete
  try dsimp only
  split
  · exact .refl
  · refine .step (answer_changes ..) ?_ rfl
    refine .step (formatStore_changes ..) ?_ rfl
    refine .step (setArch_changes ..) ?_ rfl
    exact .refl

theorem overflowWriteback_changes (s : State) : Changes [.arch] s (overflowWriteback s) := by
  unfold overflowWriteback
  try dsimp only
  refine .ite ?_ ?_
  · exact .refl
  · refine .step (setArch_changes ..) ?_ rfl
    exact .refl

theorem blockCollection_changes (s : State) : Changes [.regs, .arch] s (blockCollection s) := by
  unfold blockCollection
  try dsimp only
  refine .ite ?_ ?_
  · exact .refl
  · split
    · refine .step (eraseBlock_changes ..) ?_ rfl
      refine .step (count_changes _ _ rfl) ?_ rfl
      exact .refl
    · split
      · refine .step (collectTo_changes ..) ?_ rfl
        exact .refl
      · exact .refl

theorem wearLevelMove_changes (s : State) : Changes [.regs, .win, .arch] s (wearLevelMove s) := by
  unfold wearLevelMove
  try dsimp only
  refine .ite ?_ ?_
  · exact .refl
  · split
    · refine minuteEvent_changes (fun _ _ => ?_) ?_ rfl
      · refine .step (collectTo_changes ..) ?_ rfl
        assumption
      · exact .refl
    · exact .refl

theorem thermalAgeTick_changes (s : State) : Changes [.arch] s (thermalAgeTick s) := by
  unfold thermalAgeTick
  try dsimp only
  refine .ite ?_ ?_
  · exact .refl
  · refine .step (setArch_changes ..) ?_ rfl
    exact .refl

theorem retentionScan_changes (s : State) : Changes [.regs, .arch] s (retentionScan s) := by
  unfold retentionScan
  try dsimp only
  refine .ite ?_ ?_
  · exact .refl
  · refine .foldl (fun _ _ _ => ?_) ?_
    · refine .ite ?_ ?_
      · refine .step (refresh_changes ..) ?_ rfl
        assumption
      · assumption
    · exact .refl

theorem programEraseFail_changes (b : Nat) (erase : Bool) (s : State) : Changes [.regs, .arch] s (programEraseFail b erase s) := by
  unfold programEraseFail
  try dsimp only
  refine .ite ?_ ?_
  · exact .refl
  · refine .step (retireBlock_changes ..) ?_ rfl
    refine .step (count_changes _ _ (by split <;> rfl)) ?_ rfl
    exact .refl

theorem archiveFlush_changes (s : State) : Changes [.regs, .arch] s (archiveFlush s) := by
  unfold archiveFlush
  try dsimp only
  refine .ite ?_ ?_
  · exact .refl
  · refine .step (programReadings_changes ..) ?_ rfl
    refine .step (padQueue_changes ..) ?_ rfl
    exact .refl

theorem runPageProgram_changes (s : State) : Changes [.regs, .host, .arch, .out] s (runPageProgram s) := by
  unfold runPageProgram
  try dsimp only
  refine withGrade_changes (fun _ _ => ?_) ?_ rfl
  · refine .step (programReadings_changes ..) ?_ rfl
    assumption
  · exact .refl

theorem topoStatus_changes (code : Nat) (node : Nat) (s : State) : Changes [.regs] s (topoStatus code node s) := by
  unfold topoStatus
  try dsimp only
  refine .step (setReg_changes _ _ _ rfl) ?_ rfl
  exact .refl

theorem loadNodes_changes (l : List Node) (s : State) : Changes [.bal] s (loadNodes l s) := by
  unfold loadNodes
  try dsimp only
  refine .step (setBal_changes ..) ?_ rfl
  exact .refl

theorem topoLoad_changes (l : List Node) (s : State) : Changes [.regs, .bal, .jr] s (topoLoad l s).1 := by
  unfold topoLoad
  try dsimp only
  refine .fst_ite ?_ ?_
  · dsimp only
    exact .refl
  · refine .fst_ite ?_ ?_
    · dsimp only
      refine .step (topoStatus_changes ..) ?_ rfl
      exact .refl
    · split
      · dsimp only
        refine .step (topoStatus_changes ..) ?_ rfl
        exact .refl
      · refine .fst_ite ?_ ?_
        · dsimp only
          refine .step (topoStatus_changes ..) ?_ rfl
          exact .refl
        · dsimp only
          refine .step (journal_changes ..) ?_ rfl
          refine .step (loadNodes_changes ..) ?_ rfl
          refine .step (topoStatus_changes ..) ?_ rfl
          exact .refl

theorem topoActivate_changes (h : Hdr) (s : State) : Changes [.regs, .bal, .jr] s (topoActivate h s).1 := by
  unfold topoActivate
  try dsimp only
  refine .fst_ite ?_ ?_
  · dsimp only
    refine .step (topoStatus_changes ..) ?_ rfl
    exact .refl
  · split
    · dsimp only
      refine .step (topoStatus_changes ..) ?_ rfl
      exact .refl
    · refine .fst_ite ?_ ?_
      · dsimp only
        refine .step (topoStatus_changes ..) ?_ rfl
        exact .refl
      · dsimp only
        refine .step (journal_changes ..) ?_ rfl
        refine .step (setBal_changes ..) ?_ rfl
        refine .step (topoStatus_changes ..) ?_ rfl
        exact .refl

theorem topoRead_changes (bank : Nat) (first : Nat) (cnt : Nat) (s : State) : Changes [] s (topoRead bank first cnt s).1 := by
  unfold topoRead
  try dsimp only
  refine .fst_ite ?_ ?_
  · dsimp only
    exact .refl
  · dsimp only
    exact .refl

theorem startRun_changes (onTime : Bool) (s : State) : Changes [.regs, .bal, .eth, .jr, .host, .evt, .out] s (startRun onTime s) := by
  unfold startRun
  try dsimp only
  split
  · refine .ite ?_ ?_
    · exact .refl
    · refine .step (setBal_changes ..) ?_ rfl
      refine .ite ?_ ?_
      · refine .step (event_changes ..) ?_ rfl
        refine .step (count_changes _ _ rfl) ?_ rfl
        refine .ite ?_ ?_
        · refine .step (count_changes _ _ rfl) ?_ rfl
          split
          · refine .step (answer_changes ..) ?_ rfl
            refine .step (journal_changes ..) ?_ rfl
            refine .step (setBal_changes ..) ?_ rfl
            exact .refl
          · exact .refl
        · split
          · refine .step (answer_changes ..) ?_ rfl
            refine .step (journal_changes ..) ?_ rfl
            refine .step (setBal_changes ..) ?_ rfl
            exact .refl
          · exact .refl
      · refine .ite ?_ ?_
        · refine .step (count_changes _ _ rfl) ?_ rfl
          split
          · refine .step (answer_changes ..) ?_ rfl
            refine .step (journal_changes ..) ?_ rfl
            refine .step (setBal_changes ..) ?_ rfl
            exact .refl
          · exact .refl
        · split
          · refine .step (answer_changes ..) ?_ rfl
            refine .step (journal_changes ..) ?_ rfl
            refine .step (setBal_changes ..) ?_ rfl
            exact .refl
          · exact .refl
  · exact .refl

theorem intervalClose_changes (s : State) : Changes [.regs, .bal, .eth, .jr, .host, .evt, .out] s (intervalClose s) := by
  unfold intervalClose
  try dsimp only
  refine .ite ?_ ?_
  · exact .refl
  · refine .step (startRun_changes ..) ?_ rfl
    refine .step (setBal_changes ..) ?_ rfl
    exact .refl

theorem reserveReports_step (x : CqBody) (l : List CqBody) (s : State) (ih : ∀ (t : State), Changes [.jr] t ((reserveReports l t).2)) : Changes [.jr] s ((reserveReports (x :: l) s).2) := by
  unfold reserveReports
  try dsimp only
  refine .step (ih ..) ?_ rfl
  refine .step (reservePost_changes ..) ?_ rfl
  exact .refl

theorem reserveReports_changes (l : List CqBody) (s : State) : Changes [.jr] s ((reserveReports l s).2) := by
  induction l generalizing s with
  | nil => simp only [reserveReports]; exact .refl
  | cons x l ih => exact reserveReports_step (ih := fun t => ih (s := t)) ..

theorem balanceRun_changes (s : State) : Changes [.regs, .bal, .eth, .jr, .host, .evt, .out] s (balanceRun s) := by
  unfold balanceRun
  try dsimp only
  split
  · refine .step (startRun_changes ..) ?_ rfl
    exact .refl
  · refine .ite ?_ ?_
    · exact .refl
    · refine .step (setBal_changes ..) ?_ rfl
      refine .step (journal_changes ..) ?_ rfl
      refine .step (reserveReports_changes ..) ?_ rfl
      exact .refl

theorem applyRun_changes (run : BalRun) (quiet : Bool) (s : State) : Changes [.table, .bal, .jr] s (applyRun run quiet s) := by
  unfold applyRun
  try dsimp only
  refine .ite ?_ ?_
  · refine .step (setBal_changes ..) ?_ rfl
    exact .refl
  · refine .foldl (fun _ _ _ => ?_) ?_
    · refine .ite ?_ ?_
      · assumption
      · refine .step (ownWrite_changes ..) ?_ rfl
        assumption
    · refine .step (setBal_changes ..) ?_ rfl
      exact .refl

theorem dropOldReports_changes (s : State) : Changes [.regs, .jr, .host] s (dropOldReports s) := by
  unfold dropOldReports
  try dsimp only
  split
  · exact .refl
  · refine .ite ?_ ?_
    · exact .refl
    · refine .foldl (fun _ _ _ => ?_) ?_
      · refine .step (markPosted_changes ..) ?_ rfl
        assumption
      · refine .step (countBy_changes _ _ _ rfl) ?_ rfl
        refine .step (Changes.set_host ..) ?_ rfl
        exact .refl

theorem balanceReport_changes (s : State) : Changes [.regs, .table, .bal, .eth, .jr, .host, .evt, .out] s (balanceReport s) := by
  unfold balanceReport
  try dsimp only
  split
  · exact .refl
  · refine .ite ?_ ?_
    · exact .refl
    · refine .step (startRun_changes ..) ?_ rfl
      refine .ite ?_ ?_
      · refine .step (countBy_changes _ _ _ rfl) ?_ rfl
        refine .foldl (fun _ _ _ => ?_) ?_
        · refine .step (makePost_changes ..) ?_ rfl
          assumption
        · refine .step (journal_changes ..) ?_ rfl
          refine .step (applyRun_changes ..) ?_ rfl
          refine .step (countBy_changes _ _ _ rfl) ?_ rfl
          refine .step (countBy_changes _ _ _ rfl) ?_ rfl
          refine .step (dropOldReports_changes ..) ?_ rfl
          exact .refl
      · refine .step (count_changes _ _ rfl) ?_ rfl
        refine .step (countBy_changes _ _ _ rfl) ?_ rfl
        refine .foldl (fun _ _ _ => ?_) ?_
        · refine .step (makePost_changes ..) ?_ rfl
          assumption
        · refine .step (journal_changes ..) ?_ rfl
          refine .step (applyRun_changes ..) ?_ rfl
          refine .step (countBy_changes _ _ _ rfl) ?_ rfl
          refine .step (countBy_changes _ _ _ rfl) ?_ rfl
          refine .step (dropOldReports_changes ..) ?_ rfl
          exact .refl

theorem resetScores_changes (kind : Nat) (ids : List Nat) (s : State) : Changes [.table, .bal, .jr] s (resetScores kind ids s) := by
  unfold resetScores
  try dsimp only
  refine .ite ?_ ?_
  · refine .foldl (fun _ _ _ => ?_) ?_
    · refine .ite ?_ ?_
      · assumption
      · refine .step (writeRec_changes ..) ?_ rfl
        assumption
    · refine .step (setBal_changes ..) ?_ rfl
      exact .refl
  · refine .step (setBal_changes ..) ?_ rfl
    exact .refl

theorem balResetScores_changes (kind : Nat) (ids : List Nat) (s : State) : Changes [.table, .bal, .jr] s (balResetScores kind ids s).1 := by
  unfold balResetScores
  try dsimp only
  refine .fst_ite ?_ ?_
  · dsimp only
    exact .refl
  · dsimp only
    refine .step (journal_changes ..) ?_ rfl
    refine .step (resetScores_changes ..) ?_ rfl
    exact .refl

theorem balNodeRead_changes (n : Nat) (s : State) : Changes [] s (balNodeRead n s).1 := by
  unfold balNodeRead
  try dsimp only
  exact .refl

theorem balMeterRead_changes (n : Nat) (s : State) : Changes [] s (balMeterRead n s).1 := by
  unfold balMeterRead
  try dsimp only
  refine .fst_ite ?_ ?_
  · dsimp only
    exact .refl
  · dsimp only
    exact .refl

theorem setTim_changes (f : TimState → TimState) (s : State) : Changes [.tim] s (setTim f s) := by
  unfold setTim
  try dsimp only
  refine .step (Changes.set_tim ..) ?_ rfl
  exact .refl

theorem putTimSt_changes (st : Nat) (s : State) : Changes [.regs, .tim, .host, .out] s (putTimSt st s) := by
  unfold putTimSt
  try dsimp only
  refine .ite ?_ ?_
  · exact .refl
  · refine .step (notice_changes ..) ?_ rfl
    refine .step (setTim_changes ..) ?_ rfl
    exact .refl

theorem enterHoldover_changes (s : State) : Changes [.regs, .tim, .host, .out] s (enterHoldover s) := by
  unfold enterHoldover
  try dsimp only
  refine .ite ?_ ?_
  · exact .refl
  · refine .step (putTimSt_changes ..) ?_ rfl
    refine .step (count_changes _ _ rfl) ?_ rfl
    refine .step (setTim_changes ..) ?_ rfl
    exact .refl

theorem updateSource_changes (s : State) : Changes [.regs, .tim, .host, .out] s (updateSource s) := by
  unfold updateSource
  try dsimp only
  refine .ite ?_ ?_
  · exact .refl
  · refine .ite ?_ ?_
    · refine .step (enterHoldover_changes ..) ?_ rfl
      refine .step (count_changes _ _ rfl) ?_ rfl
      refine .step (setTim_changes ..) ?_ rfl
      exact .refl
    · refine .step (count_changes _ _ rfl) ?_ rfl
      refine .step (setTim_changes ..) ?_ rfl
      exact .refl

theorem sourceUp_changes (code : Nat) (s : State) : Changes [.regs, .tim, .host, .out] s (sourceUp code s) := by
  unfold sourceUp
  try dsimp only
  refine .step (updateSource_changes ..) ?_ rfl
  refine .step (setTim_changes ..) ?_ rfl
  exact .refl

theorem sourceDown_changes (code : Nat) (s : State) : Changes [.regs, .tim, .host, .out] s (sourceDown code s) := by
  unfold sourceDown
  try dsimp only
  refine .step (updateSource_changes ..) ?_ rfl
  refine .step (setTim_changes ..) ?_ rfl
  exact .refl

theorem moveClock_changes (ns : Int) (s : State) : Changes [.regs, .win, .bal, .camp, .plc, .eth, .relay, .tim, .jr, .host, .mea, .evt, .out] s (moveClock ns s) := by
  unfold moveClock
  try dsimp only
  refine .step (intervalClose_changes ..) ?_ rfl
  refine .step (meaStep_changes ..) ?_ rfl
  refine .step (endWindows_changes ..) ?_ rfl
  refine .step (setTim_changes ..) ?_ rfl
  exact .refl

theorem firstStep_changes (src : Nat) (ns : Int) (s : State) : Changes [.regs, .win, .bal, .camp, .plc, .eth, .relay, .tim, .jr, .host, .mea, .evt, .out] s (firstStep src ns s) := by
  unfold firstStep
  try dsimp only
  refine .step (moveClock_changes ..) ?_ rfl
  refine .step (putTimSt_changes ..) ?_ rfl
  refine .step (count_changes _ _ rfl) ?_ rfl
  refine .step (event_changes ..) ?_ rfl
  refine .step (setTim_changes ..) ?_ rfl
  exact .refl

theorem servo_changes (off : Int) (s : State) : Changes [.regs, .tim, .host, .out, .draws] s (servo off s) := by
  unfold servo
  try dsimp only
  refine .ite ?_ ?_
  · refine .step (putTimSt_changes ..) ?_ rfl
    refine .step (setTim_changes ..) ?_ rfl
    refine .step (setTim_changes ..) ?_ rfl
    exact .refl
  · refine .ite ?_ ?_
    · refine .step (putTimSt_changes ..) ?_ rfl
      refine .step (setTim_changes ..) ?_ rfl
      refine .step (draw_changes ..) ?_ rfl
      refine .step (setTim_changes ..) ?_ rfl
      exact .refl
    · refine .ite ?_ ?_
      · refine .step (putTimSt_changes ..) ?_ rfl
        refine .step (setTim_changes ..) ?_ rfl
        refine .step (draw_changes ..) ?_ rfl
        refine .step (setTim_changes ..) ?_ rfl
        exact .refl
      · refine .step (setTim_changes ..) ?_ rfl
        refine .step (draw_changes ..) ?_ rfl
        refine .step (setTim_changes ..) ?_ rfl
        exact .refl

theorem newOffset_changes (code : Nat) (off : Int) (s : State) : Changes [.regs, .win, .bal, .camp, .plc, .eth, .relay, .tim, .jr, .host, .mea, .evt, .out, .draws] s (newOffset code off s) := by
  unfold newOffset
  try dsimp only
  refine .ite ?_ ?_
  · exact .refl
  · refine .ite ?_ ?_
    · refine .step (sourceUp_changes ..) ?_ rfl
      exact .refl
    · refine .ite ?_ ?_
      · refine .step (firstStep_changes ..) ?_ rfl
        refine .step (setTim_changes ..) ?_ rfl
        refine .step (setTim_changes ..) ?_ rfl
        refine .step (sourceUp_changes ..) ?_ rfl
        exact .refl
      · refine .ite ?_ ?_
        · refine .ite ?_ ?_
          · refine .step (enterHoldover_changes ..) ?_ rfl
            refine .step (count_changes _ _ rfl) ?_ rfl
            refine .step (setTim_changes ..) ?_ rfl
            refine .step (setTim_changes ..) ?_ rfl
            refine .step (sourceUp_changes ..) ?_ rfl
            exact .refl
          · refine .step (event_changes ..) ?_ rfl
            refine .step (enterHoldover_changes ..) ?_ rfl
            refine .step (count_changes _ _ rfl) ?_ rfl
            refine .step (setTim_changes ..) ?_ rfl
            refine .step (setTim_changes ..) ?_ rfl
            refine .step (sourceUp_changes ..) ?_ rfl
            exact .refl
        · refine .step (servo_changes ..) ?_ rfl
          refine .step (setTim_changes ..) ?_ rfl
          refine .step (setTim_changes ..) ?_ rfl
          refine .step (sourceUp_changes ..) ?_ rfl
          exact .refl

theorem timStep_changes (mode : Nat) (sec : Nat) (ns : Nat) (s : State) : Changes [.regs, .win, .bal, .camp, .plc, .eth, .relay, .tim, .jr, .host, .mea, .evt, .out] s (timStep mode sec ns s).1 := by
  unfold timStep
  try dsimp only
  refine .fst_ite ?_ ?_
  · dsimp only
    exact .refl
  · split
    · dsimp only
      exact .refl
    · refine .fst_ite ?_ ?_
      · dsimp only
        refine .step (firstStep_changes ..) ?_ rfl
        refine .step (setTim_changes ..) ?_ rfl
        exact .refl
      · dsimp only
        refine .step (moveClock_changes ..) ?_ rfl
        refine .step (putTimSt_changes ..) ?_ rfl
        refine .step (count_changes _ _ rfl) ?_ rfl
        refine .step (event_changes ..) ?_ rfl
        refine .step (setTim_changes ..) ?_ rfl
        exact .refl

theorem setPtpPort_changes (p : Bool) (v : PtpPort) (s : State) : Changes [.tim] s (setPtpPort p v s) := by
  unfold setPtpPort
  try dsimp only
  refine .step (setTim_changes ..) ?_ rfl
  exact .refl

theorem announceRx_changes (p : Bool) (gm : GmData) (slave : Bool) (best : Bool) (utc : Int) (utcValid : Bool) (leap59 : Bool) (leap61 : Bool) (s : State) : Changes [.regs, .tim, .host, .out] s (announceRx p gm slave best utc utcValid leap59 leap61 s) := by
  unfold announceRx
  try dsimp only
  refine .ite ?_ ?_
  · refine .ite ?_ ?_
    · refine .step (sourceUp_changes ..) ?_ rfl
      refine .step (setTim_changes ..) ?_ rfl
      refine .step (setPtpPort_changes ..) ?_ rfl
      exact .refl
    · refine .step (sourceDown_changes ..) ?_ rfl
      refine .step (setTim_changes ..) ?_ rfl
      refine .step (setPtpPort_changes ..) ?_ rfl
      exact .refl
  · refine .step (setTim_changes ..) ?_ rfl
    refine .ite ?_ ?_
    · refine .step (setTim_changes ..) ?_ rfl
      refine .ite ?_ ?_
      · refine .step (count_changes _ _ rfl) ?_ rfl
        refine .ite ?_ ?_
        · refine .step (sourceUp_changes ..) ?_ rfl
          refine .step (setTim_changes ..) ?_ rfl
          refine .step (setPtpPort_changes ..) ?_ rfl
          exact .refl
        · refine .step (sourceDown_changes ..) ?_ rfl
          refine .step (setTim_changes ..) ?_ rfl
          refine .step (setPtpPort_changes ..) ?_ rfl
          exact .refl
      · refine .ite ?_ ?_
        · refine .step (sourceUp_changes ..) ?_ rfl
          refine .step (setTim_changes ..) ?_ rfl
          refine .step (setPtpPort_changes ..) ?_ rfl
          exact .refl
        · refine .step (sourceDown_changes ..) ?_ rfl
          refine .step (setTim_changes ..) ?_ rfl
          refine .step (setPtpPort_changes ..) ?_ rfl
          exact .refl
    · refine .ite ?_ ?_
      · refine .step (count_changes _ _ rfl) ?_ rfl
        refine .ite ?_ ?_
        · refine .step (sourceUp_changes ..) ?_ rfl
          refine .step (setTim_changes ..) ?_ rfl
          refine .step (setPtpPort_changes ..) ?_ rfl
          exact .refl
        · refine .step (sourceDown_changes ..) ?_ rfl
          refine .step (setTim_changes ..) ?_ rfl
          refine .step (setPtpPort_changes ..) ?_ rfl
          exact .refl
      · refine .ite ?_ ?_
        · refine .step (sourceUp_changes ..) ?_ rfl
          refine .step (setTim_changes ..) ?_ rfl
          refine .step (setPtpPort_changes ..) ?_ rfl
          exact .refl
        · refine .step (sourceDown_changes ..) ?_ rfl
          refine .step (setTim_changes ..) ?_ rfl
          refine .step (setPtpPort_changes ..) ?_ rfl
          exact .refl

theorem ptpMessageRx_changes (p : Bool) (m : PtpMsg) (s : State) : Changes [.regs, .win, .bal, .camp, .plc, .eth, .relay, .tim, .jr, .host, .mea, .evt, .out, .draws] s (ptpMessageRx p m s) := by
  unfold ptpMessageRx
  try dsimp only
  refine .ite ?_ ?_
  · exact .refl
  · refine .ite ?_ ?_
    · refine .step (count_changes _ _ rfl) ?_ rfl
      exact .refl
    · split
      · refine .step (announceRx_changes ..) ?_ rfl
        exact .refl
      · refine .ite ?_ ?_
        · refine .step (newOffset_changes ..) ?_ rfl
          exact .refl
        · exact .refl
      · refine .ite ?_ ?_
        · refine .step (setPtpPort_changes ..) ?_ rfl
          exact .refl
        · refine .step (count_changes _ _ rfl) ?_ rfl
          exact .refl
      · refine .ite ?_ ?_
        · refine .step (count_changes _ _ rfl) ?_ rfl
          exact .refl
        · refine .step (setPtpPort_changes ..) ?_ rfl
          exact .refl
      · refine .step (ethSend_changes ..) ?_ rfl
        exact .refl

theorem ptpMessageSend_changes (p : Bool) (k : PtpSend) (s : State) : Changes [.regs, .eth, .host, .out] s (ptpMessageSend p k s) := by
  unfold ptpMessageSend
  try dsimp only
  refine .ite ?_ ?_
  · exact .refl
  · split
    · refine .ite ?_ ?_
      · exact .refl
      · refine .step (ethSend_changes ..) ?_ rfl
        exact .refl
    · refine .ite ?_ ?_
      · exact .refl
      · refine .step (ethSend_changes ..) ?_ rfl
        exact .refl
    · refine .ite ?_ ?_
      · refine .step (ethSend_changes ..) ?_ rfl
        exact .refl
      · exact .refl
    · refine .ite ?_ ?_
      · refine .step (ethSend_changes ..) ?_ rfl
        exact .refl
      · exact .refl

theorem sourceTimeout_changes (code : Nat) (s : State) : Changes [.regs, .tim, .host, .out] s (sourceTimeout code s) := by
  unfold sourceTimeout
  try dsimp only
  refine .ite ?_ ?_
  · exact .refl
  · refine .step (sourceDown_changes ..) ?_ rfl
    refine .ite ?_ ?_
    · refine .step (setPtpPort_changes ..) ?_ rfl
      exact .refl
    · exact .refl

theorem timeWord_changes (s : State) : Changes [.tim, .out] s (timeWord s) := by
  unfold timeWord
  try dsimp only
  refine .ite ?_ ?_
  · exact .refl
  · refine .step (emit_changes ..) ?_ rfl
    refine .step (setTim_changes ..) ?_ rfl
    exact .refl

theorem timeWordLoss_changes (isl : Nat) (s : State) : Changes [.regs, .tim] s (timeWordLoss isl s) := by
  unfold timeWordLoss
  try dsimp only
  refine .ite ?_ ?_
  · exact .refl
  · refine .step (count_changes _ _ rfl) ?_ rfl
    refine .step (setTim_changes ..) ?_ rfl
    exact .refl

theorem rtcWrite_changes (s : State) : Changes [.regs] s (rtcWrite s) := by
  unfold rtcWrite
  try dsimp only
  refine .ite ?_ ?_
  · exact .refl
  · refine .step (setField_changes _ _ _ _ _ rfl) ?_ rfl
    refine .step (setReg_changes _ _ _ rfl) ?_ rfl
    refine .step (setReg_changes _ _ _ rfl) ?_ rfl
    exact .refl

theorem leapSecond_changes (s : State) : Changes [.tim] s (leapSecond s) := by
  unfold leapSecond
  try dsimp only
  split
  · refine .ite ?_ ?_
    · exact .refl
    · refine .step (setTim_changes ..) ?_ rfl
      exact .refl
  · exact .refl

theorem timStart_changes (s : State) : Changes [.regs, .tim, .host, .out] s (timStart s) := by
  unfold timStart
  try dsimp only
  refine .ite ?_ ?_
  · refine .step (setTim_changes ..) ?_ rfl
    exact .refl
  · refine .step (notice_changes ..) ?_ rfl
    refine .step (setTim_changes ..) ?_ rfl
    exact .refl

theorem rfEmit_changes (n : Nat) (dest : Option Nat) (chan : Nat) (pay : AccessPay) (s : State) : Changes [.regs, .rf, .jr, .out] s (rfEmit n dest chan pay s) := by
  unfold rfEmit
  try dsimp only
  refine .ite ?_ ?_
  · exact .refl
  · refine .step (emit_changes ..) ?_ rfl
    refine .step (rfCount_changes _ _ _ rfl) ?_ rfl
    refine .step (setRf_changes ..) ?_ rfl
    refine .ite ?_ ?_
    · refine .step (rfJournal_changes ..) ?_ rfl
      refine .step (setRf_changes ..) ?_ rfl
      exact .refl
    · exact .refl

theorem rfSendAcks_step (n k : Nat) (s : State) (ih : ∀ (t : State), Changes [.rf, .out] t (rfSendAcks k n t)) : Changes [.rf, .out] s (rfSendAcks (k+1) n s) := by
  unfold rfSendAcks
  try dsimp only
  split
  · exact .refl
  · refine .step (ih ..) ?_ rfl
    refine .step (emit_changes ..) ?_ rfl
    refine .step (setRf_changes ..) ?_ rfl
    exact .refl

theorem rfSendAcks_changes (n k : Nat) (s : State) : Changes [.rf, .out] s (rfSendAcks k n s) := by
  induction k generalizing s with
  | zero => simp only [rfSendAcks]; exact .refl
  | succ k ih => exact rfSendAcks_step (ih := fun t => ih (s := t)) ..

theorem rfAcksDue_changes (n : Nat) (s : State) : Changes [.rf, .out] s (rfAcksDue n s) := by
  unfold rfAcksDue
  try dsimp only
  refine .ite ?_ ?_
  · refine .step (rfSendAcks_changes ..) ?_ rfl
    exact .refl
  · exact .refl

theorem rfAckFrame_changes (n : Nat) (f : RfFrame) (s : State) : Changes [.rf] s (rfAckFrame n f s) := by
  unfold rfAckFrame
  try dsimp only
  refine .step (setRf_changes ..) ?_ rfl
  exact .refl

theorem rfAckTimeout_changes (n : Nat) (s : State) : Changes [.regs, .rf, .draws] s (rfAckTimeout n s) := by
  unfold rfAckTimeout
  try dsimp only
  split
  · exact .refl
  · split
    · refine .step (rfCount_changes _ _ _ rfl) ?_ rfl
      refine .step (setRf_changes ..) ?_ rfl
      exact .refl
    · refine .ite ?_ ?_
      · refine .step (setRf_changes ..) ?_ rfl
        refine .snd_ite ?_ ?_
        · refine .step (draw_changes ..) ?_ rfl
          refine .step (rfCount_changes _ _ _ rfl) ?_ rfl
          refine .step (setRf_changes ..) ?_ rfl
          exact .refl
        · dsimp only
          refine .step (rfCount_changes _ _ _ rfl) ?_ rfl
          refine .step (setRf_changes ..) ?_ rfl
          exact .refl
      · refine .step (rfCount_changes _ _ _ rfl) ?_ rfl
        refine .step (setRf_changes ..) ?_ rfl
        refine .step (rfCount_changes _ _ _ rfl) ?_ rfl
        refine .step (setRf_changes ..) ?_ rfl
        exact .refl

theorem rfFailedSlots_changes (n : Nat) (s : State) : Changes [.regs, .rf] s (rfFailedSlots n s) := by
  unfold rfFailedSlots
  try dsimp only
  refine .step (setRf_changes ..) ?_ rfl
  refine .foldl (fun _ _ _ => ?_) ?_
  · split
    · assumption
    · refine .ite ?_ ?_
      · refine .step (rfCount_changes _ _ _ rfl) ?_ rfl
        refine .step (setRf_changes ..) ?_ rfl
        assumption
      · refine .step (setRf_changes ..) ?_ rfl
        assumption
  · exact .refl

theorem rfLeave_changes (n : Nat) (s : State) : Changes [.regs, .rf, .tim, .host, .evt, .out] s (rfLeave n s) := by
  unfold rfLeave
  try dsimp only
  refine .step (event_changes ..) ?_ rfl
  refine .step (rfCount_changes _ _ _ rfl) ?_ rfl
  refine .step (sourceDown_changes ..) ?_ rfl
  refine .step (setRf_changes ..) ?_ rfl
  exact .refl

theorem rfEbMiss_changes (n : Nat) (s : State) : Changes [.regs, .rf, .tim, .host, .evt, .out] s (rfEbMiss n s) := by
  unfold rfEbMiss
  try dsimp only
  refine .ite ?_ ?_
  · split
    · refine .ite ?_ ?_
      · refine .step (event_changes ..) ?_ rfl
        refine .step (rfCount_changes _ _ _ rfl) ?_ rfl
        refine .step (setRf_changes ..) ?_ rfl
        refine .ite ?_ ?_
        · refine .step (sourceDown_changes ..) ?_ rfl
          refine .step (setRf_changes ..) ?_ rfl
          refine .step (rfCount_changes _ _ _ rfl) ?_ rfl
          refine .step (setRf_changes ..) ?_ rfl
          exact .refl
        · refine .step (setRf_changes ..) ?_ rfl
          refine .step (rfCount_changes _ _ _ rfl) ?_ rfl
          refine .step (setRf_changes ..) ?_ rfl
          exact .refl
      · refine .ite ?_ ?_
        · refine .step (sourceDown_changes ..) ?_ rfl
          refine .step (setRf_changes ..) ?_ rfl
          refine .step (rfCount_changes _ _ _ rfl) ?_ rfl
          refine .step (setRf_changes ..) ?_ rfl
          exact .refl
        · refine .step (setRf_changes ..) ?_ rfl
          refine .step (rfCount_changes _ _ _ rfl) ?_ rfl
          refine .step (setRf_changes ..) ?_ rfl
          exact .refl
    · refine .ite ?_ ?_
      · refine .step (sourceDown_changes ..) ?_ rfl
        refine .step (setRf_changes ..) ?_ rfl
        refine .step (rfCount_changes _ _ _ rfl) ?_ rfl
        refine .step (setRf_changes ..) ?_ rfl
        exact .refl
      · refine .step (setRf_changes ..) ?_ rfl
        refine .step (rfCount_changes _ _ _ rfl) ?_ rfl
        refine .step (setRf_changes ..) ?_ rfl
        exact .refl
  · refine .ite ?_ ?_
    · refine .step (rfLeave_changes ..) ?_ rfl
      refine .step (rfCount_changes _ _ _ rfl) ?_ rfl
      refine .step (setRf_changes ..) ?_ rfl
      exact .refl
    · refine .step (rfCount_changes _ _ _ rfl) ?_ rfl
      refine .step (setRf_changes ..) ?_ rfl
      exact .refl

theorem rfBackoff_changes (s : State) (n : Nat) (asn : Nat) : Changes [.rf] s (rfBackoff s n asn) := by
  unfold rfBackoff
  try dsimp only
  refine .ite ?_ ?_
  · exact .refl
  · refine .step (setRf_changes ..) ?_ rfl
    exact .refl

theorem rfKeepAlive_changes (n : Nat) (k : Nat) (s : State) : Changes [.regs, .rf, .jr, .out] s (rfKeepAlive n k s) := by
  unfold rfKeepAlive
  try dsimp only
  split
  · exact .refl
  · refine .ite ?_ ?_
    · refine .step (rfCount_changes _ _ _ rfl) ?_ rfl
      refine .step (setRf_changes ..) ?_ rfl
      exact .refl
    · refine .step (rfEmit_changes ..) ?_ rfl
      refine .step (rfCount_changes _ _ _ rfl) ?_ rfl
      refine .step (setRf_changes ..) ?_ rfl
      exact .refl

theorem rfCoordSlot_changes (n : Nat) (s : State) : Changes [.regs, .rf, .jr, .out] s (rfCoordSlot n s) := by
  unfold rfCoordSlot
  try dsimp only
  split
  · split
    · refine .step (rfKeepAlive_changes ..) ?_ rfl
      refine .step (setRf_changes ..) ?_ rfl
      refine .step (rfBackoff_changes ..) ?_ rfl
      refine .step (setRf_changes ..) ?_ rfl
      refine .ite ?_ ?_
      · refine .step (setRf_changes ..) ?_ rfl
        exact .refl
      · refine .step (rfCountBy_changes _ _ _ _ rfl) ?_ rfl
        refine .step (setRf_changes ..) ?_ rfl
        exact .refl
    · refine .step (rfEmit_changes ..) ?_ rfl
      refine .step (setRf_changes ..) ?_ rfl
      refine .step (rfBackoff_changes ..) ?_ rfl
      refine .step (setRf_changes ..) ?_ rfl
      refine .ite ?_ ?_
      · refine .step (setRf_changes ..) ?_ rfl
        exact .refl
      · refine .step (rfCountBy_changes _ _ _ _ rfl) ?_ rfl
        refine .step (setRf_changes ..) ?_ rfl
        exact .refl
    · refine .step (setRf_changes ..) ?_ rfl
      refine .step (rfEmit_changes ..) ?_ rfl
      refine .step (setRf_changes ..) ?_ rfl
      refine .step (rfBackoff_changes ..) ?_ rfl
      refine .step (setRf_changes ..) ?_ rfl
      refine .ite ?_ ?_
      · refine .step (setRf_changes ..) ?_ rfl
        exact .refl
      · refine .step (rfCountBy_changes _ _ _ _ rfl) ?_ rfl
        refine .step (setRf_changes ..) ?_ rfl
        exact .refl
  · refine .step (setRf_changes ..) ?_ rfl
    refine .step (setRf_changes ..) ?_ rfl
    refine .step (rfBackoff_changes ..) ?_ rfl
    refine .step (setRf_changes ..) ?_ rfl
    exact .refl

theorem rfChildSlot_changes (n : Nat) (s : State) : Changes [.regs, .rf, .jr, .out] s (rfChildSlot n s) := by
  unfold rfChildSlot
  try dsimp only
  refine .ite ?_ ?_
  · refine .step (setRf_changes ..) ?_ rfl
    exact .refl
  · refine .ite ?_ ?_
    · refine .step (setRf_changes ..) ?_ rfl
      refine .step (setRf_changes ..) ?_ rfl
      exact .refl
    · split
      · refine .step (setRf_changes ..) ?_ rfl
        refine .step (rfEmit_changes ..) ?_ rfl
        refine .step (setRf_changes ..) ?_ rfl
        exact .refl
      · refine .step (setRf_changes ..) ?_ rfl
        exact .refl

theorem rfTimeslot_changes (n : Nat) (s : State) : Changes [.regs, .rf, .tim, .jr, .host, .evt, .out, .draws] s (rfTimeslot n s) := by
  unfold rfTimeslot
  try dsimp only
  refine .ite ?_ ?_
  · exact .refl
  · refine .step (rfJournal_changes ..) ?_ rfl
    refine .ite ?_ ?_
    · refine .ite ?_ ?_
      · refine .step (rfChildSlot_changes ..) ?_ rfl
        refine .ite ?_ ?_
        · refine .step (rfEbMiss_changes ..) ?_ rfl
          refine .step (setRf_changes ..) ?_ rfl
          refine .step (rfFailedSlots_changes ..) ?_ rfl
          refine .step (rfAckTimeout_changes ..) ?_ rfl
          refine .step (rfSendAcks_changes ..) ?_ rfl
          exact .refl
        · refine .step (setRf_changes ..) ?_ rfl
          refine .step (rfFailedSlots_changes ..) ?_ rfl
          refine .step (rfAckTimeout_changes ..) ?_ rfl
          refine .step (rfSendAcks_changes ..) ?_ rfl
          exact .refl
      · refine .ite ?_ ?_
        · refine .step (rfEbMiss_changes ..) ?_ rfl
          refine .step (setRf_changes ..) ?_ rfl
          refine .step (rfFailedSlots_changes ..) ?_ rfl
          refine .step (rfAckTimeout_changes ..) ?_ rfl
          refine .step (rfSendAcks_changes ..) ?_ rfl
          exact .refl
        · refine .step (setRf_changes ..) ?_ rfl
          refine .step (rfFailedSlots_changes ..) ?_ rfl
          refine .step (rfAckTimeout_changes ..) ?_ rfl
          refine .step (rfSendAcks_changes ..) ?_ rfl
          exact .refl
    · refine .ite ?_ ?_
      · refine .step (rfCoordSlot_changes ..) ?_ rfl
        refine .ite ?_ ?_
        · refine .step (rfEbMiss_changes ..) ?_ rfl
          refine .step (setRf_changes ..) ?_ rfl
          refine .step (rfFailedSlots_changes ..) ?_ rfl
          refine .step (rfAckTimeout_changes ..) ?_ rfl
          refine .step (rfSendAcks_changes ..) ?_ rfl
          exact .refl
        · refine .step (setRf_changes ..) ?_ rfl
          refine .step (rfFailedSlots_changes ..) ?_ rfl
          refine .step (rfAckTimeout_changes ..) ?_ rfl
          refine .step (rfSendAcks_changes ..) ?_ rfl
          exact .refl
      · refine .ite ?_ ?_
        · refine .step (setRf_changes ..) ?_ rfl
          refine .ite ?_ ?_
          · refine .step (rfEbMiss_changes ..) ?_ rfl
            refine .step (setRf_changes ..) ?_ rfl
            refine .step (rfFailedSlots_changes ..) ?_ rfl
            refine .step (rfAckTimeout_changes ..) ?_ rfl
            refine .step (rfSendAcks_changes ..) ?_ rfl
            exact .refl
          · refine .step (setRf_changes ..) ?_ rfl
            refine .step (rfFailedSlots_changes ..) ?_ rfl
            refine .step (rfAckTimeout_changes ..) ?_ rfl
            refine .step (rfSendAcks_changes ..) ?_ rfl
            exact .refl
        · refine .ite ?_ ?_
          · refine .step (rfEbMiss_changes ..) ?_ rfl
            refine .step (setRf_changes ..) ?_ rfl
            refine .step (rfFailedSlots_changes ..) ?_ rfl
            refine .step (rfAckTimeout_changes ..) ?_ rfl
            refine .step (rfSendAcks_changes ..) ?_ rfl
            exact .refl
          · refine .step (setRf_changes ..) ?_ rfl
            refine .step (rfFailedSlots_changes ..) ?_ rfl
            refine .step (rfAckTimeout_changes ..) ?_ rfl
            refine .step (rfSendAcks_changes ..) ?_ rfl
            exact .refl

theorem rfDrawKey_changes (n : Nat) (s : State) : Changes [.rf, .draws] s (rfDrawKey n s) := by
  unfold rfDrawKey
  try dsimp only
  refine .step (setRf_changes ..) ?_ rfl
  refine .step (draw_changes ..) ?_ rfl
  refine .step (draw_changes ..) ?_ rfl
  exact .refl

theorem rfJoin_changes (n : Nat) (src : Nat) (idLen : Nat) (title : W64) (eui : W64) (k : Key) (sleepy : Bool) (unit : Bool) (s : State) : Changes [.regs, .win, .table, .rf, .relay, .jr, .sec, .evt, .draws] s (rfJoin n src idLen title eui k sleepy unit s) := by
  unfold rfJoin
  try dsimp only
  refine .ite ?_ ?_
  · refine .step (rfQueue_changes ..) ?_ rfl
    refine .step (rfCount_changes _ _ _ rfl) ?_ rfl
    exact .refl
  · split
    · refine .ite ?_ ?_
      · refine .step (rfQueue_changes ..) ?_ rfl
        refine .step (rfCount_changes _ _ _ rfl) ?_ rfl
        exact .refl
      · refine .ite ?_ ?_
        · refine .step (rfQueue_changes ..) ?_ rfl
          refine .step (rfCount_changes _ _ _ rfl) ?_ rfl
          refine .step (setRf_changes ..) ?_ rfl
          refine .ite ?_ ?_
          · refine .step (rfDrawKey_changes ..) ?_ rfl
            exact .refl
          · exact .refl
        · refine .step (linkJoin_changes ..) ?_ rfl
          refine .step (rfQueue_changes ..) ?_ rfl
          refine .step (rfCount_changes _ _ _ rfl) ?_ rfl
          refine .step (setRf_changes ..) ?_ rfl
          refine .ite ?_ ?_
          · refine .step (rfDrawKey_changes ..) ?_ rfl
            exact .refl
          · exact .refl
    · refine .step (rfQueue_changes ..) ?_ rfl
      refine .step (rfCount_changes _ _ _ rfl) ?_ rfl
      exact .refl

theorem rfUdp_changes (n : Nat) (f : RfFrame) (u : UdpPay) (s : State) : Changes [.regs, .win, .pipe, .camp, .rf, .eth, .relay, .jr, .host, .queues, .evt, .out, .draws] s (rfUdp n f u s) := by
  unfold rfUdp
  try dsimp only
  split
  · refine .step (intake_changes ..) ?_ rfl
    exact .refl
  · refine .ite ?_ ?_
    · exact .refl
    · split
      · refine .step (campFrameRx_changes ..) ?_ rfl
        exact .refl
      · refine .step (count_changes _ _ rfl) ?_ rfl
        exact .refl
  · refine .ite ?_ ?_
    · exact .refl
    · refine .step (rfCount_changes _ _ _ rfl) ?_ rfl
      exact .refl
  · refine .step (rfCount_changes _ _ _ rfl) ?_ rfl
    exact .refl

theorem rfEb_changes (n : Nat) (pan : Nat) (asn : Nat) (metric : Nat) (offset : Int) (s : State) : Changes [.rf, .evt] s (rfEb n pan asn metric offset s) := by
  unfold rfEb
  try dsimp only
  refine .ite ?_ ?_
  · refine .ite ?_ ?_
    · refine .step (setRf_changes ..) ?_ rfl
      refine .ite ?_ ?_
      · refine .step (setRf_changes ..) ?_ rfl
        exact .refl
      · exact .refl
    · refine .ite ?_ ?_
      · refine .step (setRf_changes ..) ?_ rfl
        exact .refl
      · exact .refl
  · refine .ite ?_ ?_
    · refine .ite ?_ ?_
      · refine .step (event_changes ..) ?_ rfl
        refine .step (setRf_changes ..) ?_ rfl
        exact .refl
      · refine .step (setRf_changes ..) ?_ rfl
        exact .refl
    · exact .refl

theorem rfNeighbour_changes (n : Nat) (f : RfFrame) (s : State) : Changes [.regs, .rf] s (rfNeighbour n f s) := by
  unfold rfNeighbour
  try dsimp only
  split
  · exact .refl
  · refine .step (setRf_changes ..) ?_ rfl
    refine .ite ?_ ?_
    · refine .step (rfCount_changes _ _ _ rfl) ?_ rfl
      exact .refl
    · exact .refl

theorem rfData_changes (n : Nat) (f : RfFrame) (s : State) : Changes [.regs, .win, .pipe, .camp, .rf, .eth, .relay, .jr, .host, .queues, .evt, .out, .draws] s (rfData n f s) := by
  unfold rfData
  try dsimp only
  split
  · refine .step (rfUdp_changes ..) ?_ rfl
    exact .refl
  · split
    · refine .ite ?_ ?_
      · refine .step (rfUdp_changes ..) ?_ rfl
        refine .step (setRf_changes ..) ?_ rfl
        refine .ite ?_ ?_
        · exact .refl
        · refine .ite ?_ ?_
          · refine .ite ?_ ?_
            · refine .step (setRf_changes ..) ?_ rfl
              exact .refl
            · refine .step (rfCount_changes _ _ _ rfl) ?_ rfl
              exact .refl
          · exact .refl
      · refine .ite ?_ ?_
        · exact .refl
        · refine .ite ?_ ?_
          · refine .ite ?_ ?_
            · refine .step (setRf_changes ..) ?_ rfl
              exact .refl
            · refine .step (rfCount_changes _ _ _ rfl) ?_ rfl
              exact .refl
          · exact .refl
    · refine .ite ?_ ?_
      · exact .refl
      · refine .ite ?_ ?_
        · refine .ite ?_ ?_
          · refine .step (setRf_changes ..) ?_ rfl
            exact .refl
          · refine .step (rfCount_changes _ _ _ rfl) ?_ rfl
            exact .refl
        · exact .refl
  · exact .refl

theorem rfBody_changes (n : Nat) (f : RfFrame) (s : State) : Changes [.regs, .win, .table, .pipe, .bal, .camp, .plc, .rf, .eth, .relay, .tim, .jr, .host, .sec, .mea, .queues, .evt, .out, .draws] s (rfBody n f s) := by
  unfold rfBody
  try dsimp only
  split
  · refine .step (rfData_changes ..) ?_ rfl
    exact .refl
  · refine .step (rfData_changes ..) ?_ rfl
    exact .refl
  · split
    · refine .step (setRf_changes ..) ?_ rfl
      refine .ite ?_ ?_
      · refine .step (newOffset_changes ..) ?_ rfl
        exact .refl
      · exact .refl
    · refine .ite ?_ ?_
      · refine .step (newOffset_changes ..) ?_ rfl
        exact .refl
      · exact .refl
  · refine .step (rfEb_changes ..) ?_ rfl
    exact .refl
  · refine .step (rfJoin_changes ..) ?_ rfl
    exact .refl
  · exact .refl
  · exact .refl

theorem rfFrameRx_changes (n : Nat) (f : RfFrame) (s : State) : Changes [.regs, .win, .table, .pipe, .bal, .camp, .plc, .rf, .eth, .relay, .tim, .jr, .host, .sec, .mea, .queues, .evt, .out, .draws] s (rfFrameRx n f s) := by
  unfold rfFrameRx
  try dsimp only
  refine .ite ?_ ?_
  · exact .refl
  · refine .ite ?_ ?_
    · refine .step (rfCount_changes _ _ _ rfl) ?_ rfl
      exact .refl
    · refine .ite ?_ ?_
      · refine .step (rfCount_changes _ _ _ rfl) ?_ rfl
        exact .refl
      · refine .ite ?_ ?_
        · refine .step (rfCount_changes _ _ _ rfl) ?_ rfl
          exact .refl
        · refine .ite ?_ ?_
          · refine .step (rfCount_changes _ _ _ rfl) ?_ rfl
            exact .refl
          · refine .ite ?_ ?_
            · refine .step (rfCount_changes _ _ _ rfl) ?_ rfl
              exact .refl
            · refine .ite ?_ ?_
              · refine .step (rfCount_changes _ _ _ rfl) ?_ rfl
                exact .refl
              · refine .ite ?_ ?_
                · refine .ite ?_ ?_
                  · refine .step (rfAckFrame_changes ..) ?_ rfl
                    refine .step (rfCount_changes _ _ _ rfl) ?_ rfl
                    exact .refl
                  · refine .step (rfCount_changes _ _ _ rfl) ?_ rfl
                    exact .refl
                · refine .ite ?_ ?_
                  · split
                    · refine .step (rfEb_changes ..) ?_ rfl
                      refine .step (rfCount_changes _ _ _ rfl) ?_ rfl
                      exact .refl
                    · refine .step (rfData_changes ..) ?_ rfl
                      refine .step (rfCount_changes _ _ _ rfl) ?_ rfl
                      exact .refl
                  · refine .step (rfJournal_changes ..) ?_ rfl
                    refine .step (rfBody_changes ..) ?_ rfl
                    refine .ite ?_ ?_
                    · refine .step (rfAckFrame_changes ..) ?_ rfl
                      refine .step (rfNeighbour_changes ..) ?_ rfl
                      refine .step (rfCount_changes _ _ _ rfl) ?_ rfl
                      exact .refl
                    · refine .step (rfNeighbour_changes ..) ?_ rfl
                      refine .step (rfCount_changes _ _ _ rfl) ?_ rfl
                      exact .refl

theorem rfScan_changes (n : Nat) (l : List ScanHit) (s : State) : Changes [.rf] s (rfScan n l s) := by
  unfold rfScan
  try dsimp only
  refine .ite ?_ ?_
  · exact .refl
  · refine .ite ?_ ?_
    · refine .ite ?_ ?_
      · exact .refl
      · split
        · exact .refl
        · refine .step (setRf_changes ..) ?_ rfl
          exact .refl
    · refine .ite ?_ ?_
      · refine .step (setRf_changes ..) ?_ rfl
        exact .refl
      · exact .refl

theorem sleepyExpiry_changes (n : Nat) (id : Nat) (s : State) : Changes [.regs, .rf] s (sleepyExpiry n id s) := by
  unfold sleepyExpiry
  try dsimp only
  refine .ite ?_ ?_
  · refine .step (rfCount_changes _ _ _ rfl) ?_ rfl
    refine .step (setRf_changes ..) ?_ rfl
    exact .refl
  · exact .refl

theorem rfShortExpiry_changes (n : Nat) (short : Nat) (s : State) : Changes [.rf, .jr] s (rfShortExpiry n short s) := by
  unfold rfShortExpiry
  try dsimp only
  split
  · exact .refl
  · refine .ite ?_ ?_
    · exact .refl
    · refine .step (rfJournal_changes ..) ?_ rfl
      refine .step (setRf_changes ..) ?_ rfl
      exact .refl

theorem shortHoldExpiry_changes (link : Nat) (short : Nat) (s : State) : Changes [.plc, .rf, .jr] s (shortHoldExpiry link short s) := by
  unfold shortHoldExpiry
  try dsimp only
  refine .ite ?_ ?_
  · exact .refl
  · refine .ite ?_ ?_
    · refine .step (plcShortExpiry_changes ..) ?_ rfl
      exact .refl
    · refine .step (rfShortExpiry_changes ..) ?_ rfl
      exact .refl

theorem reassemblyTimeout_changes (link : Nat) (src : Nat) (tag : Nat) (s : State) : Changes [.regs, .plc, .rf] s (reassemblyTimeout link src tag s) := by
  unfold reassemblyTimeout
  try dsimp only
  refine .ite ?_ ?_
  · refine .ite ?_ ?_
    · refine .step (plcCount_changes _ _ _ rfl) ?_ rfl
      refine .step (setPlc_changes ..) ?_ rfl
      exact .refl
    · exact .refl
  · refine .ite ?_ ?_
    · refine .step (rfCount_changes _ _ _ rfl) ?_ rfl
      refine .step (setRf_changes ..) ?_ rfl
      exact .refl
    · exact .refl

theorem rfKeyRotate_changes (n : Nat) (s : State) : Changes [.rf, .jr, .draws] s (rfKeyRotate n s).1 := by
  unfold rfKeyRotate
  try dsimp only
  refine .fst_ite ?_ ?_
  · dsimp only
    exact .refl
  · dsimp only
    refine .step (rfJournal_changes ..) ?_ rfl
    split
    · refine .foldl (fun _ _ _ => ?_) ?_
      · refine .step (rfQueue_changes ..) ?_ rfl
        assumption
      · refine .step (setRf_changes ..) ?_ rfl
        refine .step (rfDrawKey_changes ..) ?_ rfl
        exact .refl
    · refine .step (setRf_changes ..) ?_ rfl
      refine .step (rfDrawKey_changes ..) ?_ rfl
      exact .refl

end Sys2Proof.Machine
end

