-- ==== Sys2Proof/Laws/ChangesPair.lean ====
section
/-!
SUPPORT. Sys2Proof/Laws/ChangesPair.lean: what each operation may change: the pair, the relay protocol, Ethernet and the event recorder.
-/
namespace Sys2Proof.Machine

theorem setJr_changes (f : Journal → Journal) (s : State) : Changes [.jr] s (setJr f s) := by
  unfold setJr
  try dsimp only
  refine .step (Changes.set_jr ..) ?_ rfl
  exact .refl

theorem setSt_changes (st : PairSt) (s : State) : Changes [.regs, .pair, .host, .out] s (setSt st s) := by
  unfold setSt
  try dsimp only
  refine .ite ?_ ?_
  · exact .refl
  · refine .step (notice_changes ..) ?_ rfl
    refine .step (setPair_changes ..) ?_ rfl
    exact .refl

theorem applySlot_changes (n : Nat) (v : Slot) (c : Option (Nat × IdxEntry)) (s : State) : Changes [.table, .jr, .sec] s (applySlot n v c s) := by
  unfold applySlot
  try dsimp only
  refine .ite ?_ ?_
  · refine .step (setJr_changes ..) ?_ rfl
    exact .refl
  · refine .ite ?_ ?_
    · refine .step (Changes.set_table_sec _ _ _ (by intro h; first | exact h | rfl | exact Kv.wf_putOr _ _ _ h | exact Kv.wf_putOpt _ _ h | exact Kv.wf_map _ h (fun _ => rfl) | exact Kv.wf_foldl_upd _ _ _ _ h | exact wf_toKv _)) ?_ rfl
      split
      · refine .step (putIdx_changes ..) ?_ rfl
        exact .refl
      · exact .refl
    · refine .step (Changes.set_table ..) ?_ rfl
      split
      · refine .step (putIdx_changes ..) ?_ rfl
        exact .refl
      · exact .refl

theorem applyIndex_changes (p : Nat) (e : IdxEntry) (s : State) : Changes [.table] s (applyIndex p e s) := by
  unfold applyIndex
  try dsimp only
  refine .ite ?_ ?_
  · exact .refl
  · refine .step (putIdx_changes ..) ?_ rfl
    exact .refl

theorem applyEntry_changes (e : JEntry) (s : State) : Changes [.regs, .setup, .win, .isl, .table, .rules, .bal, .camp, .plc, .rf, .relay, .pair, .jr, .sec, .arch, .evt] s (applyEntry e s) := by
  unfold applyEntry
  try dsimp only
  split
  · refine .step (applySlot_changes ..) ?_ rfl
    exact .refl
  · refine .step (applyIndex_changes ..) ?_ rfl
    exact .refl
  · refine .step (Changes.set_rules ..) ?_ rfl
    exact .refl
  · refine .step (Changes.set_sec _ _ (by intro h; first | exact h | rfl | exact Kv.wf_putOr _ _ _ h | exact Kv.wf_putOpt _ _ h | exact Kv.wf_map _ h (fun _ => rfl) | exact Kv.wf_foldl_upd _ _ _ _ h | exact wf_toKv _)) ?_ rfl
    exact .refl
  · refine .step (Changes.set_sec _ _ (by intro h; first | exact h | rfl | exact Kv.wf_putOr _ _ _ h | exact Kv.wf_putOpt _ _ h | exact Kv.wf_map _ h (fun _ => rfl) | exact Kv.wf_foldl_upd _ _ _ _ h | exact wf_toKv _)) ?_ rfl
    exact .refl
  · refine .step (Changes.set_sec _ _ (by intro h; first | exact h | rfl | exact Kv.wf_putOr _ _ _ h | exact Kv.wf_putOpt _ _ h | exact Kv.wf_map _ h (fun _ => rfl) | exact Kv.wf_foldl_upd _ _ _ _ h | exact wf_toKv _)) ?_ rfl
    exact .refl
  · refine .step (loadNodes_changes ..) ?_ rfl
    exact .refl
  · refine .step (setBal_changes ..) ?_ rfl
    exact .refl
  · refine .step (setBal_changes ..) ?_ rfl
    exact .refl
  · refine .step (setBal_changes ..) ?_ rfl
    exact .refl
  · refine .step (setBal_changes ..) ?_ rfl
    exact .refl
  · split
    · refine .step (applyRun_changes ..) ?_ rfl
      exact .refl
    · exact .refl
  · refine .ite ?_ ?_
    · refine .step (setBal_changes ..) ?_ rfl
      exact .refl
    · refine .step (setBal_changes ..) ?_ rfl
      exact .refl
  · refine .step (setBal_changes ..) ?_ rfl
    exact .refl
  · refine .step (setBal_changes ..) ?_ rfl
    exact .refl
  · refine .step (setBal_changes ..) ?_ rfl
    exact .refl
  · refine .step (setReg_setup ..) ?_ rfl
    exact .refl
  · refine .step (setCampState_changes ..) ?_ rfl
    exact .refl
  · refine .step (setCampState_changes ..) ?_ rfl
    exact .refl
  · refine .step (setPlc_changes ..) ?_ rfl
    exact .refl
  · refine .step (setRf_changes ..) ?_ rfl
    exact .refl
  · refine .step (setRelay_changes ..) ?_ rfl
    exact .refl
  · refine .step (setRelay_changes ..) ?_ rfl
    exact .refl
  · refine .step (setRelay_changes ..) ?_ rfl
    exact .refl
  · refine .step (setRelay_changes ..) ?_ rfl
    exact .refl
  · refine .step (setArch_changes ..) ?_ rfl
    refine .step (appendAt_changes ..) ?_ rfl
    refine .ite ?_ ?_
    · refine .step (addMissing_changes ..) ?_ rfl
      exact .refl
    · exact .refl
  · refine .step (trimTo_changes ..) ?_ rfl
    exact .refl
  · refine .step (setJr_changes ..) ?_ rfl
    exact .refl
  · refine .step (setPair_changes ..) ?_ rfl
    exact .refl

theorem applyBatch_changes (mark : Nat) (ents : List JEntry) (s : State) : Changes [.regs, .setup, .win, .isl, .table, .rules, .bal, .camp, .plc, .rf, .relay, .pair, .jr, .sec, .arch, .evt] s (applyBatch mark ents s) := by
  unfold applyBatch
  try dsimp only
  refine .step (setJr_changes ..) ?_ rfl
  refine .step (setPair_changes ..) ?_ rfl
  refine .foldl (fun _ _ _ => ?_) ?_
  · refine .step (applyEntry_changes ..) ?_ rfl
    assumption
  · exact .refl

theorem ackBatch_changes (n : Nat) (s : State) : Changes [.out] s (ackBatch n s) := by
  unfold ackBatch
  try dsimp only
  refine .step (emit_changes ..) ?_ rfl
  exact .refl

theorem applyHeldBatches_step (k : Nat) (s : State) (ih : ∀ (t : State), Changes [.regs, .setup, .win, .isl, .table, .rules, .bal, .camp, .plc, .rf, .relay, .pair, .jr, .sec, .arch, .evt, .out] t (applyHeldBatches k t)) : Changes [.regs, .setup, .win, .isl, .table, .rules, .bal, .camp, .plc, .rf, .relay, .pair, .jr, .sec, .arch, .evt, .out] s (applyHeldBatches (k+1) s) := by
  unfold applyHeldBatches
  try dsimp only
  split
  · exact .refl
  · refine .step (ih ..) ?_ rfl
    refine .step (ackBatch_changes ..) ?_ rfl
    refine .step (setJr_changes ..) ?_ rfl
    refine .step (applyBatch_changes ..) ?_ rfl
    exact .refl

theorem applyHeldBatches_changes (k : Nat) (s : State) : Changes [.regs, .setup, .win, .isl, .table, .rules, .bal, .camp, .plc, .rf, .relay, .pair, .jr, .sec, .arch, .evt, .out] s (applyHeldBatches k s) := by
  induction k generalizing s with
  | zero => simp only [applyHeldBatches]; exact .refl
  | succ k ih => exact applyHeldBatches_step (ih := fun t => ih (s := t)) ..

theorem journalBatchClose_changes (s : State) : Changes [.jr, .out] s (journalBatchClose s) := by
  unfold journalBatchClose
  try dsimp only
  refine .ite ?_ ?_
  · exact .refl
  · refine .step (emit_changes ..) ?_ rfl
    refine .step (setJr_changes ..) ?_ rfl
    exact .refl

theorem journalAckRx_changes (n : Nat) (s : State) : Changes [.regs, .eth, .jr, .host, .out] s (journalAckRx n s) := by
  unfold journalAckRx
  try dsimp only
  refine .ite ?_ ?_
  · exact .refl
  · refine .step (releaseReplies_changes ..) ?_ rfl
    refine .step (count_changes _ _ rfl) ?_ rfl
    refine .step (setJr_changes ..) ?_ rfl
    exact .refl

theorem clearForCopy_changes (s : State) : Changes [.table, .rules, .bal, .camp, .relay, .sec] s (clearForCopy s) := by
  unfold clearForCopy
  try dsimp only
  refine .step (Changes.set_sec _ _ (by intro h; first | exact h | rfl | exact Kv.wf_putOr _ _ _ h | exact Kv.wf_putOpt _ _ h | exact Kv.wf_map _ h (fun _ => rfl) | exact Kv.wf_foldl_upd _ _ _ _ h | exact wf_toKv _)) ?_ rfl
  refine .step (setRelay_changes ..) ?_ rfl
  refine .step (Changes.set_table_rules_bal_camp ..) ?_ rfl
  exact .refl

theorem setPath_changes (path : Nat) (v : HbPath) (s : State) : Changes [.pair] s (setPath path v s) := by
  unfold setPath
  try dsimp only
  refine .step (setPair_changes ..) ?_ rfl
  exact .refl

theorem heartbeatNow_changes (path : Nat) (s : State) : Changes [.regs, .eth, .pair, .host, .out, .draws] s (heartbeatNow path s) := by
  unfold heartbeatNow
  try dsimp only
  refine .ite ?_ ?_
  · exact .refl
  · refine .ite ?_ ?_
    · refine .step (setPair_changes ..) ?_ rfl
      refine .step (draw_changes ..) ?_ rfl
      refine .step (setPath_changes ..) ?_ rfl
      refine .ite ?_ ?_
      · refine .step (emit_changes ..) ?_ rfl
        exact .refl
      · refine .foldl (fun _ _ _ => ?_) ?_
        · refine .ite ?_ ?_
          · refine .step (ethSend_changes ..) ?_ rfl
            assumption
          · assumption
        · exact .refl
    · refine .step (setPath_changes ..) ?_ rfl
      refine .ite ?_ ?_
      · refine .step (emit_changes ..) ?_ rfl
        exact .refl
      · refine .foldl (fun _ _ _ => ?_) ?_
        · refine .ite ?_ ?_
          · refine .step (ethSend_changes ..) ?_ rfl
            assumption
          · assumption
        · exact .refl

theorem heartbeatSend_changes (path : Nat) (s : State) : Changes [.regs, .eth, .pair, .host, .out, .draws] s (heartbeatSend path s) := by
  unfold heartbeatSend
  try dsimp only
  refine .ite ?_ ?_
  · exact .refl
  · refine .step (heartbeatNow_changes ..) ?_ rfl
    exact .refl

theorem pairNotice_changes (kind : Nat) (prev : W32) (a : W64) (b : W64) (s : State) : Changes [.regs, .jr, .host, .out] s (pairNotice kind prev a b s) := by
  unfold pairNotice
  try dsimp only
  refine .step (postNow_changes ..) ?_ rfl
  exact .refl

theorem splitNotice_changes (s : State) : Changes [.regs, .pair, .jr, .host, .out] s (splitNotice s) := by
  unfold splitNotice
  try dsimp only
  split
  · refine .step (pairNotice_changes ..) ?_ rfl
    refine .step (setPair_changes ..) ?_ rfl
    exact .refl
  · exact .refl

theorem dropQueued_changes (s : State) : Changes [.regs, .eth, .pair, .jr, .host, .out] s (dropQueued s) := by
  unfold dropQueued
  try dsimp only
  split
  · exact .refl
  · refine .foldl (fun _ _ _ => ?_) ?_
    · refine .step (complete_changes ..) ?_ rfl
      refine .step (startInFlight_changes ..) ?_ rfl
      assumption
    · refine .step (setPair_changes ..) ?_ rfl
      exact .refl

theorem stopActOut_changes (s : State) : Changes [.relay, .pair, .host] s (stopActOut s) := by
  unfold stopActOut
  try dsimp only
  refine .step (setPair_changes ..) ?_ rfl
  refine .step (setRelay_changes ..) ?_ rfl
  refine .step (setHost_changes ..) ?_ rfl
  exact .refl

theorem abandonWork_changes (s : State) : Changes [.regs, .table, .pipe, .rules, .plc, .rf, .eth, .jr, .host, .out] s (abandonWork s) := by
  unfold abandonWork
  try dsimp only
  refine .foldl (fun _ _ _ => ?_) ?_
  · refine .step (complete_changes ..) ?_ rfl
    assumption
  · refine .step (setJr_changes ..) ?_ rfl
    refine .step (Changes.set_table_pipe_rules_plc_rf _ _ _ _ _ _ (by first | rfl | (simp; done) | (simp; omega))) ?_ rfl
    refine .foldl (fun _ _ _ => ?_) ?_
    · refine .ite ?_ ?_
      · refine .step (endFlight_changes ..) ?_ rfl
        assumption
      · refine .step (dropFlight_changes ..) ?_ rfl
        assumption
    · exact .refl

theorem fence_changes (cause : Nat) (s : State) : Changes [.regs, .table, .pipe, .rules, .plc, .rf, .eth, .relay, .pair, .jr, .host, .evt, .out] s (fence cause s) := by
  unfold fence
  try dsimp only
  refine .step (setSt_changes ..) ?_ rfl
  refine .step (event_changes ..) ?_ rfl
  refine .step (count_changes _ _ rfl) ?_ rfl
  refine .step (dropQueued_changes ..) ?_ rfl
  refine .step (abandonWork_changes ..) ?_ rfl
  refine .step (stopActOut_changes ..) ?_ rfl
  refine .ite ?_ ?_
  · exact .refl
  · refine .step (setPair_changes ..) ?_ rfl
    exact .refl

theorem abortSwap_changes (cause : Nat) (s : State) : Changes [.deferred, .regs, .rf, .eth, .relay, .pair, .host, .evt, .out, .draws] s (abortSwap cause s) := by
  unfold abortSwap
  try dsimp only
  split
  · exact .refl
  · refine .step (event_changes ..) ?_ rfl
    refine .step (count_changes _ _ rfl) ?_ rfl
    refine .step (resumeAll_changes ..) ?_ rfl
    refine .step (resumeAll_changes ..) ?_ rfl
    refine .step (Changes.set_deferred ..) ?_ rfl
    refine .step (setPair_changes ..) ?_ rfl
    exact .refl

theorem standbyLost_changes (cause : Nat) (s : State) : Changes [.deferred, .regs, .rf, .eth, .relay, .pair, .jr, .host, .evt, .out, .draws] s (standbyLost cause s) := by
  unfold standbyLost
  try dsimp only
  refine .ite ?_ ?_
  · exact .refl
  · refine .ite ?_ ?_
    · refine .step (releaseReplies_changes ..) ?_ rfl
      refine .step (setJr_changes ..) ?_ rfl
      refine .step (setPair_changes ..) ?_ rfl
      exact .refl
    · refine .step (pairNotice_changes ..) ?_ rfl
      refine .step (event_changes ..) ?_ rfl
      refine .step (releaseReplies_changes ..) ?_ rfl
      refine .step (setSt_changes ..) ?_ rfl
      refine .step (abortSwap_changes ..) ?_ rfl
      refine .step (setJr_changes ..) ?_ rfl
      refine .step (setPair_changes ..) ?_ rfl
      exact .refl

theorem advertise_changes (s : State) : Changes [.regs, .eth, .host, .out] s (advertise s) := by
  unfold advertise
  try dsimp only
  refine .foldl (fun _ _ _ => ?_) ?_
  · refine .ite ?_ ?_
    · refine .step (ethSend_changes ..) ?_ rfl
      assumption
    · assumption
  · exact .refl

theorem takeRoles_changes (s : State) : Changes [.plc, .rf, .relay, .draws] s (takeRoles s) := by
  unfold takeRoles
  try dsimp only
  refine .step (Changes.set_plc_rf ..) ?_ rfl
  refine .step (newSession_changes ..) ?_ rfl
  exact .refl

theorem startProof_changes (s : State) : Changes [.regs, .relay, .pair] s (startProof s) := by
  unfold startProof
  try dsimp only
  refine .step (setRelay_changes ..) ?_ rfl
  refine .step (setPair_changes ..) ?_ rfl
  refine .step (count_changes _ _ rfl) ?_ rfl
  exact .refl

theorem takeGrant_changes (k : Taking) (s : State) : Changes [.regs, .bal, .plc, .rf, .eth, .relay, .tim, .pair, .jr, .host, .evt, .out, .draws] s (takeGrant k s) := by
  unfold takeGrant
  try dsimp only
  refine .ite ?_ ?_
  · exact .refl
  · refine .ite ?_ ?_
    · split
      · refine .step (sourceDown_changes ..) ?_ rfl
        refine .step (takeRoles_changes ..) ?_ rfl
        refine .step (advertise_changes ..) ?_ rfl
        refine .step (setBal_changes ..) ?_ rfl
        refine .step (setJr_changes ..) ?_ rfl
        refine .ite ?_ ?_
        · refine .step (setPair_changes ..) ?_ rfl
          refine .step (setReg_changes _ _ _ rfl) ?_ rfl
          refine .step (setReg_changes _ _ _ rfl) ?_ rfl
          refine .ite ?_ ?_
          · refine .step (event_changes ..) ?_ rfl
            exact .refl
          · exact .refl
        · refine .step (setSt_changes ..) ?_ rfl
          refine .step (setPair_changes ..) ?_ rfl
          refine .step (setReg_changes _ _ _ rfl) ?_ rfl
          refine .step (setReg_changes _ _ _ rfl) ?_ rfl
          refine .ite ?_ ?_
          · refine .step (event_changes ..) ?_ rfl
            exact .refl
          · exact .refl
      · refine .step (event_changes ..) ?_ rfl
        refine .step (count_changes _ _ rfl) ?_ rfl
        refine .step (sourceDown_changes ..) ?_ rfl
        refine .step (takeRoles_changes ..) ?_ rfl
        refine .step (advertise_changes ..) ?_ rfl
        refine .step (setBal_changes ..) ?_ rfl
        refine .step (setJr_changes ..) ?_ rfl
        refine .ite ?_ ?_
        · refine .step (setPair_changes ..) ?_ rfl
          refine .step (setReg_changes _ _ _ rfl) ?_ rfl
          refine .step (setReg_changes _ _ _ rfl) ?_ rfl
          refine .ite ?_ ?_
          · refine .step (event_changes ..) ?_ rfl
            exact .refl
          · exact .refl
        · refine .step (setSt_changes ..) ?_ rfl
          refine .step (setPair_changes ..) ?_ rfl
          refine .step (setReg_changes _ _ _ rfl) ?_ rfl
          refine .step (setReg_changes _ _ _ rfl) ?_ rfl
          refine .ite ?_ ?_
          · refine .step (event_changes ..) ?_ rfl
            exact .refl
          · exact .refl
      · refine .step (startProof_changes ..) ?_ rfl
        refine .step (event_changes ..) ?_ rfl
        refine .step (sourceDown_changes ..) ?_ rfl
        refine .step (takeRoles_changes ..) ?_ rfl
        refine .step (advertise_changes ..) ?_ rfl
        refine .step (setBal_changes ..) ?_ rfl
        refine .step (setJr_changes ..) ?_ rfl
        refine .ite ?_ ?_
        · refine .step (setPair_changes ..) ?_ rfl
          refine .step (setReg_changes _ _ _ rfl) ?_ rfl
          refine .step (setReg_changes _ _ _ rfl) ?_ rfl
          refine .ite ?_ ?_
          · refine .step (event_changes ..) ?_ rfl
            exact .refl
          · exact .refl
        · refine .step (setSt_changes ..) ?_ rfl
          refine .step (setPair_changes ..) ?_ rfl
          refine .step (setReg_changes _ _ _ rfl) ?_ rfl
          refine .step (setReg_changes _ _ _ rfl) ?_ rfl
          refine .ite ?_ ?_
          · refine .step (event_changes ..) ?_ rfl
            exact .refl
          · exact .refl
    · refine .step (splitNotice_changes ..) ?_ rfl
      refine .step (pairNotice_changes ..) ?_ rfl
      split
      · refine .step (sourceDown_changes ..) ?_ rfl
        refine .step (takeRoles_changes ..) ?_ rfl
        refine .step (advertise_changes ..) ?_ rfl
        refine .step (setBal_changes ..) ?_ rfl
        refine .step (setJr_changes ..) ?_ rfl
        refine .ite ?_ ?_
        · refine .step (setPair_changes ..) ?_ rfl
          refine .step (setReg_changes _ _ _ rfl) ?_ rfl
          refine .step (setReg_changes _ _ _ rfl) ?_ rfl
          refine .ite ?_ ?_
          · refine .step (event_changes ..) ?_ rfl
            exact .refl
          · exact .refl
        · refine .step (setSt_changes ..) ?_ rfl
          refine .step (setPair_changes ..) ?_ rfl
          refine .step (setReg_changes _ _ _ rfl) ?_ rfl
          refine .step (setReg_changes _ _ _ rfl) ?_ rfl
          refine .ite ?_ ?_
          · refine .step (event_changes ..) ?_ rfl
            exact .refl
          · exact .refl
      · refine .step (event_changes ..) ?_ rfl
        refine .step (count_changes _ _ rfl) ?_ rfl
        refine .step (sourceDown_changes ..) ?_ rfl
        refine .step (takeRoles_changes ..) ?_ rfl
        refine .step (advertise_changes ..) ?_ rfl
        refine .step (setBal_changes ..) ?_ rfl
        refine .step (setJr_changes ..) ?_ rfl
        refine .ite ?_ ?_
        · refine .step (setPair_changes ..) ?_ rfl
          refine .step (setReg_changes _ _ _ rfl) ?_ rfl
          refine .step (setReg_changes _ _ _ rfl) ?_ rfl
          refine .ite ?_ ?_
          · refine .step (event_changes ..) ?_ rfl
            exact .refl
          · exact .refl
        · refine .step (setSt_changes ..) ?_ rfl
          refine .step (setPair_changes ..) ?_ rfl
          refine .step (setReg_changes _ _ _ rfl) ?_ rfl
          refine .step (setReg_changes _ _ _ rfl) ?_ rfl
          refine .ite ?_ ?_
          · refine .step (event_changes ..) ?_ rfl
            exact .refl
          · exact .refl
      · refine .step (startProof_changes ..) ?_ rfl
        refine .step (event_changes ..) ?_ rfl
        refine .step (sourceDown_changes ..) ?_ rfl
        refine .step (takeRoles_changes ..) ?_ rfl
        refine .step (advertise_changes ..) ?_ rfl
        refine .step (setBal_changes ..) ?_ rfl
        refine .step (setJr_changes ..) ?_ rfl
        refine .ite ?_ ?_
        · refine .step (setPair_changes ..) ?_ rfl
          refine .step (setReg_changes _ _ _ rfl) ?_ rfl
          refine .step (setReg_changes _ _ _ rfl) ?_ rfl
          refine .ite ?_ ?_
          · refine .step (event_changes ..) ?_ rfl
            exact .refl
          · exact .refl
        · refine .step (setSt_changes ..) ?_ rfl
          refine .step (setPair_changes ..) ?_ rfl
          refine .step (setReg_changes _ _ _ rfl) ?_ rfl
          refine .step (setReg_changes _ _ _ rfl) ?_ rfl
          refine .ite ?_ ?_
          · refine .step (event_changes ..) ?_ rfl
            exact .refl
          · exact .refl

theorem claimFlashWritten_changes (s : State) : Changes [.regs, .rf, .eth, .relay, .pair, .jr, .host, .out, .draws] s (claimFlashWritten s) := by
  unfold claimFlashWritten
  try dsimp only
  refine .ite ?_ ?_
  · exact .refl
  · refine .ite ?_ ?_
    · refine .step (resumeAll_changes ..) ?_ rfl
      refine .step (resumeAll_changes ..) ?_ rfl
      refine .foldl (fun _ _ _ => ?_) ?_
      · refine .step (holdEntry_changes ..) ?_ rfl
        assumption
      · refine .step (drainDelayed_changes ..) ?_ rfl
        refine .foldl (fun _ _ _ => ?_) ?_
        · refine .step (doPost_changes ..) ?_ rfl
          assumption
        · refine .step (setRelay_changes ..) ?_ rfl
          refine .step (setJr_changes ..) ?_ rfl
          refine .step (setPair_changes ..) ?_ rfl
          exact .refl
    · refine .foldl (fun _ _ _ => ?_) ?_
      · refine .step (holdEntry_changes ..) ?_ rfl
        assumption
      · refine .step (drainDelayed_changes ..) ?_ rfl
        refine .foldl (fun _ _ _ => ?_) ?_
        · refine .step (doPost_changes ..) ?_ rfl
          assumption
        · refine .step (setRelay_changes ..) ?_ rfl
          refine .step (setJr_changes ..) ?_ rfl
          refine .step (setPair_changes ..) ?_ rfl
          exact .refl

theorem startCopying_changes (s : State) : Changes [.regs, .table, .rules, .bal, .camp, .relay, .pair, .jr, .host, .sec, .evt, .out] s (startCopying s) := by
  unfold startCopying
  try dsimp only
  refine .step (setSt_changes ..) ?_ rfl
  refine .step (setPair_changes ..) ?_ rfl
  refine .step (event_changes ..) ?_ rfl
  refine .step (setJr_changes ..) ?_ rfl
  refine .step (clearForCopy_changes ..) ?_ rfl
  exact .refl

theorem seekDecide_changes (waited : Bool) (s : State) : Changes [.regs, .table, .rules, .bal, .camp, .plc, .rf, .eth, .relay, .tim, .pair, .jr, .host, .sec, .evt, .out, .draws] s (seekDecide waited s) := by
  unfold seekDecide
  try dsimp only
  refine .ite ?_ ?_
  · exact .refl
  · refine .ite ?_ ?_
    · split
      · refine .ite ?_ ?_
        · refine .step (startCopying_changes ..) ?_ rfl
          exact .refl
        · exact .refl
      · exact .refl
    · split
      · refine .ite ?_ ?_
        · refine .step (takeGrant_changes ..) ?_ rfl
          exact .refl
        · exact .refl
      · refine .ite ?_ ?_
        · refine .step (takeGrant_changes ..) ?_ rfl
          exact .refl
        · split
          · refine .ite ?_ ?_
            · refine .step (takeGrant_changes ..) ?_ rfl
              exact .refl
            · exact .refl
          · refine .step (takeGrant_changes ..) ?_ rfl
            exact .refl
          · refine .step (takeGrant_changes ..) ?_ rfl
            exact .refl
          · refine .step (takeGrant_changes ..) ?_ rfl
            exact .refl
          · exact .refl

theorem seek_changes (s : State) : Changes [.regs, .pair, .host, .out] s (seek s) := by
  unfold seek
  try dsimp only
  refine .step (setSt_changes ..) ?_ rfl
  refine .step (setPair_changes ..) ?_ rfl
  exact .refl

theorem part_changes (s : State) : Changes [.regs, .pair, .host, .out] s (part s) := by
  unfold part
  try dsimp only
  refine .step (setPair_changes ..) ?_ rfl
  refine .step (seek_changes ..) ?_ rfl
  exact .refl

theorem takeDecide_changes (s : State) : Changes [.regs, .bal, .plc, .rf, .eth, .relay, .tim, .pair, .jr, .host, .evt, .out, .draws] s (takeDecide s) := by
  unfold takeDecide
  try dsimp only
  refine .ite ?_ ?_
  · exact .refl
  · refine .ite ?_ ?_
    · refine .ite ?_ ?_
      · exact .refl
      · refine .step (event_changes ..) ?_ rfl
        refine .step (count_changes _ _ rfl) ?_ rfl
        refine .step (setPair_changes ..) ?_ rfl
        exact .refl
    · refine .ite ?_ ?_
      · refine .step (takeGrant_changes ..) ?_ rfl
        exact .refl
      · refine .ite ?_ ?_
        · refine .step (takeGrant_changes ..) ?_ rfl
          exact .refl
        · refine .ite ?_ ?_
          · refine .ite ?_ ?_
            · refine .step (takeGrant_changes ..) ?_ rfl
              exact .refl
            · exact .refl
          · split
            · refine .ite ?_ ?_
              · exact .refl
              · refine .step (takeGrant_changes ..) ?_ rfl
                exact .refl
            · exact .refl

theorem decide__changes (s : State) : Changes [.regs, .table, .rules, .bal, .camp, .plc, .rf, .eth, .relay, .tim, .pair, .jr, .host, .sec, .evt, .out, .draws] s (decide_ s) := by
  unfold decide_
  try dsimp only
  refine .step (takeDecide_changes ..) ?_ rfl
  refine .step (seekDecide_changes ..) ?_ rfl
  exact .refl

theorem actInEdge_changes (s : State) : Changes [.regs, .table, .pipe, .rules, .bal, .camp, .plc, .rf, .eth, .relay, .tim, .pair, .jr, .host, .sec, .evt, .out, .draws] s (actInEdge s) := by
  unfold actInEdge
  try dsimp only
  split
  · refine .ite ?_ ?_
    · refine .ite ?_ ?_
      · refine .step (seekDecide_changes ..) ?_ rfl
        refine .step (setSt_changes ..) ?_ rfl
        refine .step (dropQueued_changes ..) ?_ rfl
        refine .step (abandonWork_changes ..) ?_ rfl
        refine .step (stopActOut_changes ..) ?_ rfl
        refine .step (setPair_changes ..) ?_ rfl
        exact .refl
      · refine .step (setPair_changes ..) ?_ rfl
        exact .refl
    · refine .step (setPair_changes ..) ?_ rfl
      exact .refl
  · refine .step (decide__changes ..) ?_ rfl
    refine .step (setPair_changes ..) ?_ rfl
    exact .refl

theorem actInQuiet_changes (s : State) : Changes [.regs, .table, .rules, .bal, .camp, .plc, .rf, .eth, .relay, .tim, .pair, .jr, .host, .sec, .evt, .out, .draws] s (actInQuiet s) := by
  unfold actInQuiet
  try dsimp only
  refine .ite ?_ ?_
  · refine .step (decide__changes ..) ?_ rfl
    exact .refl
  · refine .ite ?_ ?_
    · exact .refl
    · refine .step (decide__changes ..) ?_ rfl
      refine .step (setPair_changes ..) ?_ rfl
      exact .refl

theorem setFault_changes (code : Nat) (fp : W32) (s : State) : Changes [.pair, .evt] s (setFault code fp s) := by
  unfold setFault
  try dsimp only
  refine .ite ?_ ?_
  · exact .refl
  · refine .ite ?_ ?_
    · refine .step (event_changes ..) ?_ rfl
      refine .ite ?_ ?_
      · refine .step (setPair_changes ..) ?_ rfl
        exact .refl
      · refine .step (event_changes ..) ?_ rfl
        refine .step (setPair_changes ..) ?_ rfl
        exact .refl
    · refine .ite ?_ ?_
      · refine .step (setPair_changes ..) ?_ rfl
        exact .refl
      · refine .step (event_changes ..) ?_ rfl
        refine .step (setPair_changes ..) ?_ rfl
        exact .refl

theorem linkTime_changes (hb : Heartbeat) (rx : Nat) (s : State) : Changes [.regs, .win, .bal, .camp, .plc, .eth, .relay, .tim, .jr, .host, .mea, .evt, .out, .draws] s (linkTime hb rx s) := by
  unfold linkTime
  try dsimp only
  refine .ite ?_ ?_
  · refine .step (newOffset_changes ..) ?_ rfl
    exact .refl
  · refine .step (sourceDown_changes ..) ?_ rfl
    exact .refl

theorem holderHb_changes (hb : Heartbeat) (s : State) : Changes [.deferred, .regs, .table, .pipe, .rules, .plc, .rf, .eth, .relay, .pair, .jr, .host, .evt, .out, .draws] s (holderHb hb s) := by
  unfold holderHb
  try dsimp only
  refine .ite ?_ ?_
  · refine .step (fence_changes ..) ?_ rfl
    exact .refl
  · refine .ite ?_ ?_
    · refine .step (standbyLost_changes ..) ?_ rfl
      exact .refl
    · refine .ite ?_ ?_
      · exact .refl
      · refine .ite ?_ ?_
        · refine .step (setPair_changes ..) ?_ rfl
          refine .step (setJr_changes ..) ?_ rfl
          exact .refl
        · refine .ite ?_ ?_
          · refine .ite ?_ ?_
            · refine .ite ?_ ?_
              · refine .step (restartSwapTimer_changes ..) ?_ rfl
                refine .step (setSt_changes ..) ?_ rfl
                refine .step (setPair_changes ..) ?_ rfl
                exact .refl
              · refine .step (setSt_changes ..) ?_ rfl
                refine .step (setPair_changes ..) ?_ rfl
                exact .refl
            · refine .step (pairNotice_changes ..) ?_ rfl
              refine .ite ?_ ?_
              · refine .step (restartSwapTimer_changes ..) ?_ rfl
                refine .step (setSt_changes ..) ?_ rfl
                refine .step (setPair_changes ..) ?_ rfl
                exact .refl
              · refine .step (setSt_changes ..) ?_ rfl
                refine .step (setPair_changes ..) ?_ rfl
                exact .refl
          · refine .ite ?_ ?_
            · refine .step (setPair_changes ..) ?_ rfl
              refine .step (setJr_changes ..) ?_ rfl
              exact .refl
            · split
              · refine .ite ?_ ?_
                · exact .refl
                · refine .step (abortSwap_changes ..) ?_ rfl
                  exact .refl
              · exact .refl

theorem standbyHb_changes (hb : Heartbeat) (s : State) : Changes [.regs, .table, .rules, .bal, .camp, .plc, .rf, .eth, .relay, .tim, .pair, .jr, .host, .sec, .evt, .out, .draws] s (standbyHb hb s) := by
  unfold standbyHb
  try dsimp only
  refine .ite ?_ ?_
  · refine .step (seekDecide_changes ..) ?_ rfl
    refine .step (part_changes ..) ?_ rfl
    exact .refl
  · refine .ite ?_ ?_
    · refine .step (decide__changes ..) ?_ rfl
      refine .step (setPair_changes ..) ?_ rfl
      exact .refl
    · refine .step (decide__changes ..) ?_ rfl
      exact .refl

theorem heartbeatRx_changes (path : Nat) (hb : Heartbeat) (s : State) : Changes [.deferred, .regs, .win, .table, .pipe, .rules, .bal, .camp, .plc, .rf, .eth, .relay, .tim, .pair, .jr, .host, .sec, .mea, .evt, .out, .draws] s (heartbeatRx path hb s) := by
  unfold heartbeatRx
  try dsimp only
  refine .ite ?_ ?_
  · exact .refl
  · refine .ite ?_ ?_
    · refine .ite ?_ ?_
      · refine .step (decide__changes ..) ?_ rfl
        refine .step (setFault_changes ..) ?_ rfl
        refine .step (count_changes _ _ rfl) ?_ rfl
        exact .refl
      · refine .step (count_changes _ _ rfl) ?_ rfl
        exact .refl
    · refine .ite ?_ ?_
      · refine .ite ?_ ?_
        · refine .step (setPair_changes ..) ?_ rfl
          exact .refl
        · exact .refl
      · refine .ite ?_ ?_
        · refine .step (holderHb_changes ..) ?_ rfl
          refine .ite ?_ ?_
          · refine .step (linkTime_changes ..) ?_ rfl
            refine .step (setFault_changes ..) ?_ rfl
            refine .step (setPair_changes ..) ?_ rfl
            refine .step (setPath_changes ..) ?_ rfl
            refine .ite ?_ ?_
            · refine .step (startCopying_changes ..) ?_ rfl
              refine .ite ?_ ?_
              · refine .step (setPair_changes ..) ?_ rfl
                exact .refl
              · exact .refl
            · refine .ite ?_ ?_
              · refine .step (setPair_changes ..) ?_ rfl
                exact .refl
              · exact .refl
          · refine .step (setFault_changes ..) ?_ rfl
            refine .step (setPair_changes ..) ?_ rfl
            refine .step (setPath_changes ..) ?_ rfl
            refine .ite ?_ ?_
            · refine .step (startCopying_changes ..) ?_ rfl
              refine .ite ?_ ?_
              · refine .step (setPair_changes ..) ?_ rfl
                exact .refl
              · exact .refl
            · refine .ite ?_ ?_
              · refine .step (setPair_changes ..) ?_ rfl
                exact .refl
              · exact .refl
        · refine .step (standbyHb_changes ..) ?_ rfl
          refine .ite ?_ ?_
          · refine .step (linkTime_changes ..) ?_ rfl
            refine .step (setFault_changes ..) ?_ rfl
            refine .step (setPair_changes ..) ?_ rfl
            refine .step (setPath_changes ..) ?_ rfl
            refine .ite ?_ ?_
            · refine .step (startCopying_changes ..) ?_ rfl
              refine .ite ?_ ?_
              · refine .step (setPair_changes ..) ?_ rfl
                exact .refl
              · exact .refl
            · refine .ite ?_ ?_
              · refine .step (setPair_changes ..) ?_ rfl
                exact .refl
              · exact .refl
          · refine .step (setFault_changes ..) ?_ rfl
            refine .step (setPair_changes ..) ?_ rfl
            refine .step (setPath_changes ..) ?_ rfl
            refine .ite ?_ ?_
            · refine .step (startCopying_changes ..) ?_ rfl
              refine .ite ?_ ?_
              · refine .step (setPair_changes ..) ?_ rfl
                exact .refl
              · exact .refl
            · refine .ite ?_ ?_
              · refine .step (setPair_changes ..) ?_ rfl
                exact .refl
              · exact .refl

theorem noteLost_changes (s : State) : Changes [.pair] s (noteLost s) := by
  unfold noteLost
  try dsimp only
  refine .ite ?_ ?_
  · refine .step (setPair_changes ..) ?_ rfl
    exact .refl
  · exact .refl

theorem pathGone_changes (s : State) : Changes [.regs, .table, .rules, .bal, .camp, .plc, .rf, .eth, .relay, .tim, .pair, .jr, .host, .sec, .evt, .out, .draws] s (pathGone s) := by
  unfold pathGone
  try dsimp only
  refine .ite ?_ ?_
  · refine .step (seekDecide_changes ..) ?_ rfl
    refine .step (part_changes ..) ?_ rfl
    exact .refl
  · refine .step (decide__changes ..) ?_ rfl
    exact .refl

theorem heartbeatPathLost_changes (path : Nat) (s : State) : Changes [.deferred, .regs, .table, .rules, .bal, .camp, .plc, .rf, .eth, .relay, .tim, .pair, .jr, .host, .sec, .evt, .out, .draws] s (heartbeatPathLost path s) := by
  unfold heartbeatPathLost
  try dsimp only
  refine .ite ?_ ?_
  · exact .refl
  · refine .ite ?_ ?_
    · refine .step (pathGone_changes ..) ?_ rfl
      refine .step (noteLost_changes ..) ?_ rfl
      refine .step (setPair_changes ..) ?_ rfl
      refine .step (setPath_changes ..) ?_ rfl
      refine .step (count_changes _ _ (by split <;> rfl)) ?_ rfl
      exact .refl
    · refine .ite ?_ ?_
      · refine .step (standbyLost_changes ..) ?_ rfl
        refine .step (sourceDown_changes ..) ?_ rfl
        refine .step (noteLost_changes ..) ?_ rfl
        refine .step (setPair_changes ..) ?_ rfl
        refine .step (setPath_changes ..) ?_ rfl
        refine .step (count_changes _ _ (by split <;> rfl)) ?_ rfl
        exact .refl
      · refine .step (pathGone_changes ..) ?_ rfl
        refine .step (sourceDown_changes ..) ?_ rfl
        refine .step (noteLost_changes ..) ?_ rfl
        refine .step (setPair_changes ..) ?_ rfl
        refine .step (setPath_changes ..) ?_ rfl
        refine .step (count_changes _ _ (by split <;> rfl)) ?_ rfl
        exact .refl

theorem prlLossOfSignal_changes (s : State) : Changes [.deferred, .regs, .bal, .plc, .rf, .eth, .relay, .tim, .pair, .jr, .host, .evt, .out, .draws] s (prlLossOfSignal s) := by
  unfold prlLossOfSignal
  try dsimp only
  refine .ite ?_ ?_
  · exact .refl
  · refine .ite ?_ ?_
    · refine .step (standbyLost_changes ..) ?_ rfl
      refine .step (setPair_changes ..) ?_ rfl
      exact .refl
    · refine .step (takeDecide_changes ..) ?_ rfl
      refine .step (setPair_changes ..) ?_ rfl
      exact .refl

theorem seekWaitExpiry_changes (s : State) : Changes [.regs, .table, .rules, .bal, .camp, .plc, .rf, .eth, .relay, .tim, .pair, .jr, .host, .sec, .evt, .out, .draws] s (seekWaitExpiry s) := by
  unfold seekWaitExpiry
  try dsimp only
  refine .ite ?_ ?_
  · exact .refl
  · refine .step (seekDecide_changes ..) ?_ rfl
    exact .refl

theorem fencedExpiry_changes (s : State) : Changes [.regs, .table, .rules, .bal, .camp, .plc, .rf, .eth, .relay, .tim, .pair, .jr, .host, .sec, .evt, .out, .draws] s (fencedExpiry s) := by
  unfold fencedExpiry
  try dsimp only
  refine .ite ?_ ?_
  · exact .refl
  · refine .ite ?_ ?_
    · refine .step (takeGrant_changes ..) ?_ rfl
      refine .step (setSt_changes ..) ?_ rfl
      exact .refl
    · refine .step (seekDecide_changes ..) ?_ rfl
      refine .step (seek_changes ..) ?_ rfl
      exact .refl

theorem cannotApply_changes (num : Nat) (s : State) : Changes [.regs, .table, .rules, .bal, .camp, .plc, .rf, .eth, .relay, .tim, .pair, .jr, .host, .sec, .evt, .out, .draws] s (cannotApply num s) := by
  unfold cannotApply
  try dsimp only
  refine .step (seekDecide_changes ..) ?_ rfl
  refine .step (seek_changes ..) ?_ rfl
  refine .step (event_changes ..) ?_ rfl
  exact .refl

theorem journalBatchRx_changes (num : Nat) (mark : Nat) (formOk : Bool) (ents : List JEntry) (s : State) : Changes [.regs, .setup, .win, .isl, .table, .rules, .bal, .camp, .plc, .rf, .eth, .relay, .tim, .pair, .jr, .host, .sec, .arch, .evt, .out, .draws] s (journalBatchRx num mark formOk ents s) := by
  unfold journalBatchRx
  try dsimp only
  refine .ite ?_ ?_
  · exact .refl
  · refine .ite ?_ ?_
    · refine .step (cannotApply_changes ..) ?_ rfl
      exact .refl
    · refine .ite ?_ ?_
      · refine .step (ackBatch_changes ..) ?_ rfl
        exact .refl
      · refine .ite ?_ ?_
        · refine .step (applyHeldBatches_changes ..) ?_ rfl
          refine .step (ackBatch_changes ..) ?_ rfl
          refine .step (setJr_changes ..) ?_ rfl
          refine .step (applyBatch_changes ..) ?_ rfl
          exact .refl
        · refine .ite ?_ ?_
          · exact .refl
          · refine .ite ?_ ?_
            · refine .step (cannotApply_changes ..) ?_ rfl
              exact .refl
            · refine .step (setJr_changes ..) ?_ rfl
              exact .refl

theorem jackTimeout_changes (n : Nat) (s : State) : Changes [.deferred, .regs, .rf, .eth, .relay, .pair, .jr, .host, .evt, .out, .draws] s (jackTimeout n s) := by
  unfold jackTimeout
  try dsimp only
  split
  · exact .refl
  · refine .ite ?_ ?_
    · exact .refl
    · refine .ite ?_ ?_
      · refine .step (standbyLost_changes ..) ?_ rfl
        exact .refl
      · refine .step (emit_changes ..) ?_ rfl
        refine .step (count_changes _ _ rfl) ?_ rfl
        refine .step (setJr_changes ..) ?_ rfl
        exact .refl

theorem standbyTableCopy_changes (item : Nat) (ents : List JEntry) (s : State) : Changes [.regs, .setup, .win, .isl, .table, .rules, .bal, .camp, .plc, .rf, .relay, .pair, .jr, .sec, .arch, .evt, .out] s (standbyTableCopy item ents s) := by
  unfold standbyTableCopy
  try dsimp only
  refine .ite ?_ ?_
  · exact .refl
  · refine .ite ?_ ?_
    · refine .ite ?_ ?_
      · exact .refl
      · refine .step (emit_changes ..) ?_ rfl
        refine .step (setPair_changes ..) ?_ rfl
        exact .refl
    · refine .ite ?_ ?_
      · refine .step (setPair_changes ..) ?_ rfl
        refine .foldl (fun _ _ _ => ?_) ?_
        · refine .step (applyEntry_changes ..) ?_ rfl
          assumption
        · exact .refl
      · exact .refl

theorem copyComplete_changes (s : State) : Changes [.regs, .pair, .host, .out] s (copyComplete s) := by
  unfold copyComplete
  try dsimp only
  refine .ite ?_ ?_
  · exact .refl
  · refine .step (setSt_changes ..) ?_ rfl
    refine .step (setPair_changes ..) ?_ rfl
    refine .step (count_changes _ _ rfl) ?_ rfl
    exact .refl

theorem proofFailed_changes (cause : Nat) (s : State) : Changes [.regs, .pair, .evt] s (proofFailed cause s) := by
  unfold proofFailed
  try dsimp only
  refine .step (event_changes ..) ?_ rfl
  refine .step (count_changes _ _ rfl) ?_ rfl
  refine .step (setPair_changes ..) ?_ rfl
  exact .refl

theorem pairWatchdog_changes (s : State) : Changes [.regs, .table, .pipe, .rules, .plc, .rf, .eth, .relay, .pair, .jr, .host, .evt, .out] s (pairWatchdog s) := by
  unfold pairWatchdog
  try dsimp only
  refine .ite ?_ ?_
  · exact .refl
  · refine .step (fence_changes ..) ?_ rfl
    refine .ite ?_ ?_
    · refine .step (proofFailed_changes ..) ?_ rfl
      exact .refl
    · exact .refl

theorem startSwap_changes (scheduled : Bool) (s : State) : Changes [.regs, .rf, .eth, .relay, .pair, .host, .out, .draws] s (startSwap scheduled s) := by
  unfold startSwap
  try dsimp only
  refine .step (pauseAll_changes ..) ?_ rfl
  refine .step (pauseAll_changes ..) ?_ rfl
  refine .step (emit_changes ..) ?_ rfl
  refine .step (setPair_changes ..) ?_ rfl
  exact .refl

theorem pairSwap_changes (s : State) : Changes [.regs, .rf, .eth, .relay, .pair, .host, .out, .draws] s (pairSwap s).1 := by
  unfold pairSwap
  try dsimp only
  refine .fst_ite ?_ ?_
  · dsimp only
    exact .refl
  · dsimp only
    refine .step (startSwap_changes ..) ?_ rfl
    exact .refl

theorem swapHandover_changes (s : State) : Changes [.regs, .eth, .relay, .pair, .jr, .host, .out, .draws] s (swapHandover s) := by
  unfold swapHandover
  try dsimp only
  refine .ite ?_ ?_
  · exact .refl
  · refine .step (dropQueued_changes ..) ?_ rfl
    refine .step (setJr_changes ..) ?_ rfl
    refine .step (setSt_changes ..) ?_ rfl
    refine .step (stopActOut_changes ..) ?_ rfl
    refine .step (heartbeatNow_changes ..) ?_ rfl
    refine .step (setPair_changes ..) ?_ rfl
    exact .refl

theorem swapDrainExpiry_changes (s : State) : Changes [.deferred, .regs, .rf, .eth, .relay, .pair, .host, .evt, .out, .draws] s (swapDrainExpiry s) := by
  unfold swapDrainExpiry
  try dsimp only
  split
  · refine .ite ?_ ?_
    · refine .step (abortSwap_changes ..) ?_ rfl
      exact .refl
    · exact .refl
  · exact .refl

theorem scheduledSwapDue_changes (s : State) : Changes [.regs, .rf, .eth, .relay, .pair, .host, .evt, .out, .draws] s (scheduledSwapDue s) := by
  unfold scheduledSwapDue
  try dsimp only
  refine .ite ?_ ?_
  · exact .refl
  · split
    · exact .refl
    · refine .ite ?_ ?_
      · exact .refl
      · refine .ite ?_ ?_
        · refine .step (startSwap_changes ..) ?_ rfl
          refine .step (setPair_changes ..) ?_ rfl
          refine .step (setPair_changes ..) ?_ rfl
          exact .refl
        · refine .ite ?_ ?_
          · refine .step (setPair_changes ..) ?_ rfl
            exact .refl
          · refine .step (event_changes ..) ?_ rfl
            refine .step (setPair_changes ..) ?_ rfl
            refine .step (setPair_changes ..) ?_ rfl
            exact .refl

theorem failoverRequest_changes (isl : Nat) (s : State) : Changes [.deferred, .regs, .rf, .eth, .relay, .pair, .host, .evt, .out, .draws] s (failoverRequest isl s) := by
  unfold failoverRequest
  try dsimp only
  refine .ite ?_ ?_
  · exact .refl
  · split
    · refine .ite ?_ ?_
      · exact .refl
      · refine .step (event_changes ..) ?_ rfl
        refine .step (abortSwap_changes ..) ?_ rfl
        exact .refl
    · refine .ite ?_ ?_
      · refine .step (startSwap_changes ..) ?_ rfl
        exact .refl
      · refine .step (event_changes ..) ?_ rfl
        exact .refl

theorem proofFail_changes (cause : Nat) (s : State) : Changes [.regs, .rf, .eth, .relay, .pair, .host, .evt, .out, .draws] s (proofFail cause s) := by
  unfold proofFail
  try dsimp only
  refine .ite ?_ ?_
  · exact .refl
  · refine .ite ?_ ?_
    · refine .step (startSwap_changes ..) ?_ rfl
      refine .step (proofFailed_changes ..) ?_ rfl
      exact .refl
    · refine .step (proofFailed_changes ..) ?_ rfl
      exact .refl

theorem proofExpiry_changes (last : Bool) (s : State) : Changes [.regs, .boot, .pair, .jr] s (proofExpiry last s) := by
  unfold proofExpiry
  try dsimp only
  refine .ite ?_ ?_
  · exact .refl
  · refine .ite ?_ ?_
    · refine .step (count_changes _ _ rfl) ?_ rfl
      refine .step (setPair_changes ..) ?_ rfl
      refine .step (proofGood_changes ..) ?_ rfl
      exact .refl
    · refine .step (proofGood_changes ..) ?_ rfl
      exact .refl

theorem pairRead_changes (s : State) : Changes [] s (pairRead s).1 := by
  unfold pairRead
  try dsimp only
  exact .refl

theorem pairClear_changes (s : State) : Changes [.pair] s (pairClear s).1 := by
  unfold pairClear
  try dsimp only
  refine .step (setPair_changes ..) ?_ rfl
  exact .refl

theorem pairStart_changes (s : State) : Changes [.regs, .bal, .plc, .rf, .eth, .relay, .tim, .pair, .jr, .host, .evt, .out, .draws] s (pairStart s) := by
  unfold pairStart
  try dsimp only
  refine .ite ?_ ?_
  · refine .step (takeGrant_changes ..) ?_ rfl
    refine .step (setSt_changes ..) ?_ rfl
    refine .step (Changes.set_pair ..) ?_ rfl
    refine .step (draw_changes ..) ?_ rfl
    refine .step (draw_changes ..) ?_ rfl
    refine .step (draw_changes ..) ?_ rfl
    exact .refl
  · refine .step (Changes.set_pair ..) ?_ rfl
    refine .step (draw_changes ..) ?_ rfl
    refine .step (draw_changes ..) ?_ rfl
    refine .step (draw_changes ..) ?_ rfl
    exact .refl

theorem relayCount_changes (src : RelaySrc) (i : Nat) (s : State) : Changes [.regs, .host, .out] s (relayCount src i s) := by
  unfold relayCount
  try dsimp only
  split
  · refine .step (ethCount_changes ..) ?_ rfl
    exact .refl
  · exact .refl

theorem zcEntry_changes (r : ZcReport) (s : State) : Changes [.bal, .jr] s (zcEntry r s).2 := by
  unfold zcEntry
  try dsimp only
  split
  · dsimp only
    exact .refl
  · refine .snd_ite ?_ ?_
    · dsimp only
      exact .refl
    · dsimp only
      refine .step (zcVote_changes ..) ?_ rfl
      refine .step (putWork_changes ..) ?_ rfl
      exact .refl

theorem fpEntry_changes (u : BitVec 12) (r : FpReport) (s : State) : Changes [.bal, .jr] s (fpEntry u r s).2 := by
  unfold fpEntry
  try dsimp only
  split
  · dsimp only
    exact .refl
  · refine .snd_ite ?_ ?_
    · dsimp only
      exact .refl
    · dsimp only
      refine .step (fpVote_changes ..) ?_ rfl
      exact .refl

theorem badEntry_changes (src : RelaySrc) (s : State) : Changes [.regs, .host, .out] s (badEntry src s).2 := by
  unfold badEntry
  try dsimp only
  refine .step (relayCount_changes ..) ?_ rfl
  exact .refl

theorem applyWhole_changes (u : BitVec 12) (src : RelaySrc) (ref : Nat) (e : Entry) (s : State) : Changes [.regs, .win, .table, .pipe, .bal, .camp, .plc, .rf, .eth, .relay, .jr, .host, .sec, .queues, .evt, .out, .draws] s (applyWhole u src ref e s).2 := by
  unfold applyWhole
  try dsimp only
  refine .snd_ite ?_ ?_
  · split
    · refine .snd_ite ?_ ?_
      · refine .step (badEntry_changes ..) ?_ rfl
        exact .refl
      · dsimp only
        refine .step (intake_changes ..) ?_ rfl
        exact .refl
    · dsimp only
      refine .step (joinReportEntry_changes ..) ?_ rfl
      exact .refl
    · dsimp only
      refine .step (fetchEntry_changes ..) ?_ rfl
      exact .refl
    · dsimp only
      refine .ite ?_ ?_
      · refine .step (noteUnknown_changes ..) ?_ rfl
        exact .refl
      · exact .refl
    · dsimp only
      refine .step (zcEntry_changes ..) ?_ rfl
      exact .refl
    · dsimp only
      refine .step (fpEntry_changes ..) ?_ rfl
      exact .refl
    · dsimp only
      refine .step (meaEntry_changes ..) ?_ rfl
      exact .refl
    · dsimp only
      refine .step (rmsEntry_changes ..) ?_ rfl
      exact .refl
    · dsimp only
      refine .step (memberEntry_changes ..) ?_ rfl
      exact .refl
    · dsimp only
      refine .step (segReqEntry_changes ..) ?_ rfl
      exact .refl
    · refine .step (badEntry_changes ..) ?_ rfl
      exact .refl
    · refine .step (badEntry_changes ..) ?_ rfl
      exact .refl
    · refine .step (badEntry_changes ..) ?_ rfl
      exact .refl
    · refine .step (badEntry_changes ..) ?_ rfl
      exact .refl
    · refine .step (badEntry_changes ..) ?_ rfl
      exact .refl
    · refine .step (badEntry_changes ..) ?_ rfl
      exact .refl
  · split
    · dsimp only
      refine .step (recordEntry_changes ..) ?_ rfl
      exact .refl
    · dsimp only
      refine .step (releaseEntry_changes ..) ?_ rfl
      exact .refl
    · dsimp only
      refine .step (fetchNakEntry_changes ..) ?_ rfl
      exact .refl
    · dsimp only
      refine .step (memberEntry_changes ..) ?_ rfl
      exact .refl
    · dsimp only
      refine .step (segPieceEntry_changes ..) ?_ rfl
      exact .refl
    · dsimp only
      refine .step (campCtlEntry_changes ..) ?_ rfl
      exact .refl
    · refine .step (badEntry_changes ..) ?_ rfl
      exact .refl
    · refine .step (badEntry_changes ..) ?_ rfl
      exact .refl
    · refine .step (badEntry_changes ..) ?_ rfl
      exact .refl
    · refine .step (badEntry_changes ..) ?_ rfl
      exact .refl
    · refine .step (badEntry_changes ..) ?_ rfl
      exact .refl
    · refine .step (badEntry_changes ..) ?_ rfl
      exact .refl
    · refine .step (badEntry_changes ..) ?_ rfl
      exact .refl
    · refine .step (badEntry_changes ..) ?_ rfl
      exact .refl
    · refine .step (badEntry_changes ..) ?_ rfl
      exact .refl
    · refine .step (badEntry_changes ..) ?_ rfl
      exact .refl

theorem putRx_changes (u : BitVec 12) (v : RxSession) (s : State) : Changes [.relay, .jr] s (putRx u v s) := by
  unfold putRx
  try dsimp only
  refine .step (journal_changes ..) ?_ rfl
  refine .step (setRelay_changes ..) ?_ rfl
  exact .refl

theorem takeEnt_changes (u : BitVec 12) (src : RelaySrc) (seq : W32) (ref : Nat) (a4 : FrameEnt) (s : State) : Changes [.regs, .win, .table, .pipe, .bal, .camp, .plc, .rf, .eth, .relay, .jr, .host, .sec, .queues, .evt, .out, .draws] s (takeEnt u src seq ref a4 s).2 := by
  unfold takeEnt
  try dsimp only
  split
  · refine .step (applyWhole_changes ..) ?_ rfl
    exact .refl
  · dsimp only
    refine .step (putRx_changes ..) ?_ rfl
    exact .refl
  · refine .snd_ite ?_ ?_
    · dsimp only
      refine .step (putRx_changes ..) ?_ rfl
      exact .refl
    · dsimp only
      refine .step (relayCount_changes ..) ?_ rfl
      refine .step (putRx_changes ..) ?_ rfl
      exact .refl
  · refine .snd_ite ?_ ?_
    · refine .step (applyWhole_changes ..) ?_ rfl
      refine .step (putRx_changes ..) ?_ rfl
      exact .refl
    · dsimp only
      refine .step (relayCount_changes ..) ?_ rfl
      refine .step (putRx_changes ..) ?_ rfl
      exact .refl

theorem takeEnts_step (u : BitVec 12) (src : RelaySrc) (seq : W32) (r : Nat) (x : FrameEnt) (l : List FrameEnt) (s : State) (ih : ∀ (r : Nat) (t : State), Changes [.regs, .win, .table, .pipe, .bal, .camp, .plc, .rf, .eth, .relay, .jr, .host, .sec, .queues, .evt, .out, .draws] t ((takeEnts u src seq r l t).2)) : Changes [.regs, .win, .table, .pipe, .bal, .camp, .plc, .rf, .eth, .relay, .jr, .host, .sec, .queues, .evt, .out, .draws] s ((takeEnts u src seq r (x :: l) s).2) := by
  unfold takeEnts
  try dsimp only
  refine .step (ih ..) ?_ rfl
  refine .step (takeEnt_changes ..) ?_ rfl
  exact .refl

theorem takeEnts_changes (u : BitVec 12) (src : RelaySrc) (seq : W32) (r : Nat) (l : List FrameEnt) (s : State) : Changes [.regs, .win, .table, .pipe, .bal, .camp, .plc, .rf, .eth, .relay, .jr, .host, .sec, .queues, .evt, .out, .draws] s ((takeEnts u src seq r l s).2) := by
  induction l generalizing s r with
  | nil => simp only [takeEnts]; exact .refl
  | cons x l ih => exact takeEnts_step (ih := fun r t => ih (r := r) (s := t)) ..

theorem batchRx_changes (f : RelayFrame) (src : RelaySrc) (l : List FrameEnt) (s : State) : Changes [.regs, .win, .table, .pipe, .bal, .camp, .plc, .rf, .eth, .relay, .jr, .host, .sec, .queues, .evt, .out, .draws] s (batchRx f src l s) := by
  unfold batchRx
  try dsimp only
  refine .step (setRelay_changes ..) ?_ rfl
  refine .step (takeEnts_changes ..) ?_ rfl
  refine .step (setRelay_changes ..) ?_ rfl
  refine .step (setRelay_changes ..) ?_ rfl
  refine .step (headMoves_changes ..) ?_ rfl
  exact .refl

theorem relayBody_changes (src : RelaySrc) (f : RelayFrame) (s : State) : Changes [.regs, .win, .table, .pipe, .bal, .camp, .plc, .rf, .eth, .relay, .jr, .host, .sec, .queues, .evt, .out, .draws] s (relayBody src f s) := by
  unfold relayBody
  try dsimp only
  split
  · refine .ite ?_ ?_
    · refine .step (pauseSender_changes ..) ?_ rfl
      refine .step (relayCount_changes ..) ?_ rfl
      exact .refl
    · refine .step (batchRx_changes ..) ?_ rfl
      exact .refl
  · refine .step (ackReceived_changes ..) ?_ rfl
    exact .refl
  · refine .ite ?_ ?_
    · refine .step (setRelay_changes ..) ?_ rfl
      exact .refl
    · exact .refl
  · refine .step (setRelay_changes ..) ?_ rfl
    exact .refl

theorem relayAccept_changes (src : RelaySrc) (f : RelayFrame) (s : State) : Changes [.regs, .win, .table, .pipe, .rules, .bal, .camp, .plc, .rf, .eth, .relay, .pair, .jr, .host, .sec, .queues, .evt, .out, .draws] s (relayAccept src f s) := by
  unfold relayAccept
  try dsimp only
  split
  · refine .step (relayCount_changes ..) ?_ rfl
    exact .refl
  · split
    · refine .step (event_changes ..) ?_ rfl
      refine .step (relayCount_changes ..) ?_ rfl
      exact .refl
    · exact .refl
  · refine .ite ?_ ?_
    · refine .ite ?_ ?_
      · refine .step (fence_changes ..) ?_ rfl
        refine .step (setPair_changes ..) ?_ rfl
        refine .ite ?_ ?_
        · refine .step (refetch_changes ..) ?_ rfl
          refine .step (putRx_changes ..) ?_ rfl
          refine .step (relayCount_changes ..) ?_ rfl
          exact .refl
        · refine .step (putRx_changes ..) ?_ rfl
          refine .step (relayCount_changes ..) ?_ rfl
          exact .refl
      · refine .step (setPair_changes ..) ?_ rfl
        refine .ite ?_ ?_
        · refine .step (refetch_changes ..) ?_ rfl
          refine .step (putRx_changes ..) ?_ rfl
          refine .step (relayCount_changes ..) ?_ rfl
          exact .refl
        · refine .step (putRx_changes ..) ?_ rfl
          refine .step (relayCount_changes ..) ?_ rfl
          exact .refl
    · refine .step (relayBody_changes ..) ?_ rfl
      refine .ite ?_ ?_
      · refine .step (refetch_changes ..) ?_ rfl
        refine .step (putRx_changes ..) ?_ rfl
        refine .step (relayCount_changes ..) ?_ rfl
        exact .refl
      · refine .step (putRx_changes ..) ?_ rfl
        refine .step (relayCount_changes ..) ?_ rfl
        exact .refl

theorem cacheRecord_changes (rf : Bool) (img : RecImg) (keys : RecKeys) (s : State) : Changes [.regs, .table, .jr, .sec, .evt] s (cacheRecord rf img keys s) := by
  unfold cacheRecord
  try dsimp only
  refine .ite ?_ ?_
  · exact .refl
  · split
    · refine .step (writeSlot_changes ..) ?_ rfl
      exact .refl
    · split
      · refine .step (insertRefused_changes ..) ?_ rfl
        refine .ite ?_ ?_
        · refine .step (evict_changes ..) ?_ rfl
          exact .refl
        · exact .refl
      · split
        · refine .step (insertRefused_changes ..) ?_ rfl
          refine .ite ?_ ?_
          · refine .step (evict_changes ..) ?_ rfl
            exact .refl
          · exact .refl
        · refine .step (writeSlotIdx_changes ..) ?_ rfl
          refine .ite ?_ ?_
          · refine .step (evict_changes ..) ?_ rfl
            exact .refl
          · exact .refl

theorem toChild_changes (rf : Bool) (short : Nat) (f : RelayFrame) (s : State) : Changes [.regs, .table, .rf, .jr, .sec, .evt] s (toChild rf short f s) := by
  unfold toChild
  try dsimp only
  split
  · refine .foldl (fun _ _ _ => ?_) ?_
    · split
      · refine .step (cacheRecord_changes ..) ?_ rfl
        assumption
      · refine .step (cacheRecord_changes ..) ?_ rfl
        assumption
      · assumption
    · refine .step (rfQueue_changes ..) ?_ rfl
      exact .refl
  · refine .step (rfQueue_changes ..) ?_ rfl
    exact .refl

theorem fromChild_changes (rf : Bool) (short : Nat) (f : RelayFrame) (s : State) : Changes [.regs, .rf, .eth, .relay, .host, .out] s (fromChild rf short f s) := by
  unfold fromChild
  try dsimp only
  refine .ite ?_ ?_
  · exact .refl
  · refine .ite ?_ ?_
    · refine .ite ?_ ?_
      · exact .refl
      · refine .step (setRelay_changes ..) ?_ rfl
        exact .refl
    · split
      · refine .step (rfQueue_changes ..) ?_ rfl
        refine .ite ?_ ?_
        · exact .refl
        · refine .step (setRelay_changes ..) ?_ rfl
          exact .refl
      · refine .step (ethCount_changes ..) ?_ rfl
        refine .step (ethSend_changes ..) ?_ rfl
        refine .ite ?_ ?_
        · exact .refl
        · refine .step (setRelay_changes ..) ?_ rfl
          exact .refl

theorem relayChecked_changes (src : RelaySrc) (f : RelayFrame) (s : State) : Changes [.regs, .win, .table, .pipe, .rules, .bal, .camp, .plc, .rf, .eth, .relay, .pair, .jr, .host, .sec, .queues, .evt, .out, .draws] s (relayChecked src f s) := by
  unfold relayChecked
  try dsimp only
  refine .ite ?_ ?_
  · refine .step (relayCount_changes ..) ?_ rfl
    exact .refl
  · refine .ite ?_ ?_
    · refine .step (relayCount_changes ..) ?_ rfl
      exact .refl
    · split
      · refine .step (toChild_changes ..) ?_ rfl
        exact .refl
      · refine .step (relayAccept_changes ..) ?_ rfl
        exact .refl

theorem relayFrameRx_changes (src : RelaySrc) (f : RelayFrame) (s : State) : Changes [.regs, .win, .table, .pipe, .rules, .bal, .camp, .plc, .rf, .eth, .relay, .pair, .jr, .host, .sec, .queues, .evt, .out, .draws] s (relayFrameRx src f s) := by
  unfold relayFrameRx
  try dsimp only
  split
  · refine .ite ?_ ?_
    · exact .refl
    · refine .ite ?_ ?_
      · refine .step (ethCount_changes ..) ?_ rfl
        exact .refl
      · refine .ite ?_ ?_
        · refine .step (ethCount_changes ..) ?_ rfl
          exact .refl
        · refine .step (relayChecked_changes ..) ?_ rfl
          exact .refl
  · refine .ite ?_ ?_
    · exact .refl
    · refine .ite ?_ ?_
      · refine .step (relayChecked_changes ..) ?_ rfl
        exact .refl
      · refine .ite ?_ ?_
        · refine .step (fromChild_changes ..) ?_ rfl
          exact .refl
        · refine .step (rfCount_changes _ _ _ rfl) ?_ rfl
          exact .refl

theorem pauseHoldExpiry_changes (p : Bool) (s : State) : Changes [.relay] s (pauseHoldExpiry p s) := by
  unfold pauseHoldExpiry
  try dsimp only
  split
  · refine .ite ?_ ?_
    · exact .refl
    · refine .step (setRelay_changes ..) ?_ rfl
      exact .refl
  · exact .refl

theorem ethPay_changes (p : Bool) (a1 : EthPay) (s : State) : Changes [.regs, .eth, .host, .out] s (ethPay p a1 s) := by
  unfold ethPay
  try dsimp only
  split
  · refine .step (ethCount_changes ..) ?_ rfl
    exact .refl
  · split
    · refine .step (setEth_changes ..) ?_ rfl
      refine .step (ethCount_changes ..) ?_ rfl
      exact .refl
    · refine .step (ethCount_changes ..) ?_ rfl
      exact .refl
  · refine .step (ethCount_changes ..) ?_ rfl
    exact .refl
  · refine .step (ethSend_changes ..) ?_ rfl
    exact .refl
  · refine .step (ethSend_changes ..) ?_ rfl
    exact .refl
  · refine .step (ethSend_changes ..) ?_ rfl
    exact .refl
  · refine .ite ?_ ?_
    · refine .step (ethCount_changes ..) ?_ rfl
      exact .refl
    · exact .refl
  · refine .step (ethCount_changes ..) ?_ rfl
    exact .refl
  · exact .refl

theorem ethFrameRx_changes (p : Bool) (f : EthFrame) (s : State) : Changes [.regs, .eth, .host, .out] s (ethFrameRx p f s) := by
  unfold ethFrameRx
  try dsimp only
  refine .ite ?_ ?_
  · exact .refl
  · refine .ite ?_ ?_
    · refine .step (ethCount_changes ..) ?_ rfl
      refine .step (ethCount_changes ..) ?_ rfl
      exact .refl
    · refine .ite ?_ ?_
      · refine .step (ethCount_changes ..) ?_ rfl
        exact .refl
      · refine .ite ?_ ?_
        · refine .step (ethCount_changes ..) ?_ rfl
          exact .refl
        · refine .ite ?_ ?_
          · refine .step (ethCount_changes ..) ?_ rfl
            exact .refl
          · refine .ite ?_ ?_
            · refine .step (ethCount_changes ..) ?_ rfl
              exact .refl
            · refine .ite ?_ ?_
              · refine .step (ethCount_changes ..) ?_ rfl
                exact .refl
              · refine .ite ?_ ?_
                · refine .step (ethCount_changes ..) ?_ rfl
                  refine .step (ethCount_changes ..) ?_ rfl
                  exact .refl
                · refine .step (ethPay_changes ..) ?_ rfl
                  refine .step (ethCount_changes ..) ?_ rfl
                  refine .step (ethCount_changes ..) ?_ rfl
                  refine .step (ethCount_changes ..) ?_ rfl
                  refine .step (ethCount_changes ..) ?_ rfl
                  exact .refl

theorem txCount_changes (p : Bool) (a1 : EthTx) (s : State) : Changes [.regs, .host, .out] s (txCount p a1 s) := by
  unfold txCount
  try dsimp only
  split
  · refine .step (ethCount_changes ..) ?_ rfl
    refine .step (ethCount_changes ..) ?_ rfl
    refine .step (ethCount_changes ..) ?_ rfl
    refine .step (ethCount_changes ..) ?_ rfl
    exact .refl
  · refine .step (ethCount_changes ..) ?_ rfl
    refine .step (ethCount_changes ..) ?_ rfl
    refine .step (ethCount_changes ..) ?_ rfl
    refine .step (ethCount_changes ..) ?_ rfl
    exact .refl
  · refine .step (ethCount_changes ..) ?_ rfl
    refine .step (ethCount_changes ..) ?_ rfl
    refine .step (ethCount_changes ..) ?_ rfl
    refine .step (ethCount_changes ..) ?_ rfl
    exact .refl
  · refine .step (ethCount_changes ..) ?_ rfl
    refine .step (ethCount_changes ..) ?_ rfl
    refine .step (ethCount_changes ..) ?_ rfl
    refine .step (ethCount_changes ..) ?_ rfl
    exact .refl
  · refine .step (ethCount_changes ..) ?_ rfl
    refine .step (ethCount_changes ..) ?_ rfl
    refine .step (ethCount_changes ..) ?_ rfl
    exact .refl

theorem txAdmit_step (p : Bool) (k : Nat) (s : State) (ih : ∀ (t : State), Changes [.eth] t (txAdmit p k t)) : Changes [.eth] s (txAdmit p (k+1) s) := by
  unfold txAdmit
  try dsimp only
  split
  · exact .refl
  · refine .ite ?_ ?_
    · refine .step (ih ..) ?_ rfl
      refine .step (setEth_changes ..) ?_ rfl
      exact .refl
    · exact .refl

theorem txAdmit_changes (p : Bool) (k : Nat) (s : State) : Changes [.eth] s (txAdmit p k s) := by
  induction k generalizing s with
  | zero => simp only [txAdmit]; exact .refl
  | succ k ih => exact txAdmit_step (ih := fun t => ih (s := t)) ..

theorem txNext_changes (p : Bool) (s : State) : Changes [.regs, .eth, .host, .out] s (txNext p s) := by
  unfold txNext
  try dsimp only
  refine .ite ?_ ?_
  · exact .refl
  · split
    · exact .refl
    · refine .step (txAdmit_changes ..) ?_ rfl
      refine .step (emit_changes ..) ?_ rfl
      refine .step (txCount_changes ..) ?_ rfl
      refine .step (setEth_changes ..) ?_ rfl
      exact .refl

theorem txWaitExpiry_changes (p : Bool) (s : State) : Changes [.regs, .eth, .host, .out] s (txWaitExpiry p s) := by
  unfold txWaitExpiry
  try dsimp only
  split
  · exact .refl
  · refine .ite ?_ ?_
    · exact .refl
    · refine .step (ethCount_changes ..) ?_ rfl
      refine .step (setEth_changes ..) ?_ rfl
      exact .refl

theorem lldpNow_changes (p : Bool) (s : State) : Changes [.regs, .eth, .host, .out] s (lldpNow p s) := by
  unfold lldpNow
  try dsimp only
  refine .ite ?_ ?_
  · exact .refl
  · refine .step (ethSend_changes ..) ?_ rfl
    refine .step (setEth_changes ..) ?_ rfl
    exact .refl

theorem lldpSend_changes (p : Bool) (s : State) : Changes [.regs, .eth, .host, .out] s (lldpSend p s) := by
  unfold lldpSend
  try dsimp only
  refine .ite ?_ ?_
  · exact .refl
  · refine .step (lldpNow_changes ..) ?_ rfl
    exact .refl

theorem linkUp_changes (p : Bool) (speed : Nat) (half : Bool) (eee : Bool) (s : State) : Changes [.regs, .eth, .host, .evt, .out] s (linkUp p speed half eee s) := by
  unfold linkUp
  try dsimp only
  refine .ite ?_ ?_
  · exact .refl
  · refine .ite ?_ ?_
    · refine .step (event_changes ..) ?_ rfl
      exact .refl
    · refine .step (lldpNow_changes ..) ?_ rfl
      refine .step (setEth_changes ..) ?_ rfl
      exact .refl

theorem linkDown_changes (p : Bool) (s : State) : Changes [.regs, .rf, .eth, .relay, .host, .out, .draws] s (linkDown p s) := by
  unfold linkDown
  try dsimp only
  refine .ite ?_ ?_
  · exact .refl
  · refine .foldl (fun _ _ _ => ?_) ?_
    · refine .step (pathFail_changes ..) ?_ rfl
      assumption
    · refine .step (ethCount_changes ..) ?_ rfl
      refine .step (ethCount_changes ..) ?_ rfl
      refine .step (setEth_changes ..) ?_ rfl
      refine .step (leaveLpi_changes ..) ?_ rfl
      exact .refl

theorem lpiEntry_changes (p : Bool) (s : State) : Changes [.regs, .eth, .host, .out] s (lpiEntry p s) := by
  unfold lpiEntry
  try dsimp only
  refine .ite ?_ ?_
  · exact .refl
  · refine .step (ethCount_changes ..) ?_ rfl
    refine .step (setEth_changes ..) ?_ rfl
    exact .refl

theorem tlvExpiry_changes (p : Bool) (s : State) : Changes [.eth] s (tlvExpiry p s) := by
  unfold tlvExpiry
  try dsimp only
  refine .ite ?_ ?_
  · exact .refl
  · refine .step (setEth_changes ..) ?_ rfl
    exact .refl

theorem setLatch_changes (p : Path) (f : Latch → Latch) (s : State) : Changes [.lat] s (setLatch p f s) := by
  unfold setLatch
  try dsimp only
  refine .step (Changes.set_lat _ _ (by intro h; first | exact h | rfl | exact Kv.wf_putOr _ _ _ h | exact Kv.wf_putOpt _ _ h | exact Kv.wf_map _ h (fun _ => rfl) | exact Kv.wf_foldl_upd _ _ _ _ h | exact wf_toKv _)) ?_ rfl
  exact .refl

theorem latchQueue_changes (p : Path) (q : Nat) (s : State) : Changes [.lat] s (latchQueue p q s) := by
  unfold latchQueue
  try dsimp only
  refine .step (setLatch_changes ..) ?_ rfl
  exact .refl

theorem qRead_changes (first : Nat) (n : Nat) (s : State) : Changes [] s (qRead first n s).1 := by
  unfold qRead
  try dsimp only
  refine .fst_ite ?_ ?_
  · dsimp only
    exact .refl
  · dsimp only
    exact .refl

theorem idleItem_changes (q : Nat) (s : State) : Changes [.regs, .rf, .eth, .relay, .jr, .host, .queues, .out, .draws] s (idleItem q s) := by
  unfold idleItem
  try dsimp only
  refine .ite ?_ ?_
  · exact .refl
  · refine .ite ?_ ?_
    · refine .step (setQ_changes ..) ?_ rfl
      exact .refl
    · refine .ite ?_ ?_
      · refine .step (journalBatchClose_changes ..) ?_ rfl
        exact .refl
      · refine .ite ?_ ?_
        · refine .foldl (fun _ _ _ => ?_) ?_
          · refine .ite ?_ ?_
            · refine .step (sendOpen_changes ..) ?_ rfl
              assumption
            · assumption
          · exact .refl
        · refine .step (setQ_changes ..) ?_ rfl
          exact .refl

theorem monSample_changes (n : Nat) (a1 : Int) (s : State) : Changes [.regs, .host, .mon, .evt, .out] s (monSample n a1 s) := by
  unfold monSample
  skip
  try dsimp only
  split
  · exact .refl
  · split
    · exact .refl
    · split
      · exact .refl
      · split
        · refine .step (event_changes ..) ?_ rfl
          refine .step (notice_changes ..) ?_ rfl
          refine .step (setField_changes _ _ _ _ _ (monFree (by simp only [Bool.or_eq_true, decide_eq_true_eq, not_or, Nat.not_le] at *; omega))) ?_ rfl
          refine .step (Changes.set_mon ..) ?_ rfl
          exact .refl
        · refine .step (Changes.set_mon ..) ?_ rfl
          exact .refl

theorem monClear_changes (n : Nat) (s : State) : Changes [.mon] s (monClear n s) := by
  unfold monClear
  try dsimp only
  refine .step (Changes.set_mon ..) ?_ rfl
  exact .refl

theorem monSnap_changes (p : Path) (v : W32) (s : State) : Changes [.lat, .mon] s (monSnap p v s) := by
  unfold monSnap
  try dsimp only
  refine .ite ?_ ?_
  · refine .step (monClear_changes ..) ?_ rfl
    refine .step (setLatch_changes ..) ?_ rfl
    exact .refl
  · refine .step (setLatch_changes ..) ?_ rfl
    exact .refl

theorem monRead_changes (first : Nat) (n : Nat) (s : State) : Changes [] s (monRead first n s).1 := by
  unfold monRead
  try dsimp only
  refine .fst_ite ?_ ?_
  · dsimp only
    exact .refl
  · dsimp only
    exact .refl

theorem monReset_changes (lo : W32) (hi : W32) (s : State) : Changes [.mon] s (monReset lo hi s).1 := by
  unfold monReset
  try dsimp only
  refine .foldl (fun _ _ _ => ?_) ?_
  · refine .ite ?_ ?_
    · refine .step (monClear_changes ..) ?_ rfl
      assumption
    · assumption
  · exact .refl

theorem setEvt_changes (f : EvtState → EvtState) (s : State) : Changes [.evt] s (setEvt f s) := by
  unfold setEvt
  try dsimp only
  refine .step (Changes.set_evt ..) ?_ rfl
  exact .refl

theorem trimRing_step (k : Nat) (s : State) (ih : ∀ (t : State), Changes [.regs, .evt] t (trimRing k t)) : Changes [.regs, .evt] s (trimRing (k+1) s) := by
  unfold trimRing
  try dsimp only
  refine .ite ?_ ?_
  · exact .refl
  · refine .step (ih ..) ?_ rfl
    refine .step (countBy_changes _ _ _ rfl) ?_ rfl
    refine .step (setEvt_changes ..) ?_ rfl
    exact .refl

theorem trimRing_changes (k : Nat) (s : State) : Changes [.regs, .evt] s (trimRing k s) := by
  induction k generalizing s with
  | zero => simp only [trimRing]; exact .refl
  | succ k ih => exact trimRing_step (ih := fun t => ih (s := t)) ..

theorem postEvent_changes (s : State) (r : EvRec) : Changes [.regs, .jr, .host, .out] s (postEvent s r) := by
  unfold postEvent
  try dsimp only
  split
  · refine .step (cqPush_changes ..) ?_ rfl
    exact .refl
  · refine .step (count_changes _ _ rfl) ?_ rfl
    exact .refl

theorem storeEvent_changes (e : Raised) (s : State) : Changes [.regs, .jr, .host, .evt, .out] s (storeEvent e s) := by
  unfold storeEvent
  try dsimp only
  refine .ite ?_ ?_
  · refine .foldl (fun _ _ _ => ?_) ?_
    · refine .step (postEvent_changes ..) ?_ rfl
      assumption
    · refine .ite ?_ ?_
      · refine .step (notice_changes ..) ?_ rfl
        refine .step (setReg_changes _ _ _ rfl) ?_ rfl
        refine .step (setReg_changes _ _ _ rfl) ?_ rfl
        refine .step (trimRing_changes ..) ?_ rfl
        refine .step (countBy_changes _ _ _ rfl) ?_ rfl
        refine .step (setEvt_changes ..) ?_ rfl
        exact .refl
      · refine .step (setReg_changes _ _ _ rfl) ?_ rfl
        refine .step (setReg_changes _ _ _ rfl) ?_ rfl
        refine .step (trimRing_changes ..) ?_ rfl
        refine .step (countBy_changes _ _ _ rfl) ?_ rfl
        refine .step (setEvt_changes ..) ?_ rfl
        exact .refl
  · refine .ite ?_ ?_
    · refine .step (notice_changes ..) ?_ rfl
      refine .step (setReg_changes _ _ _ rfl) ?_ rfl
      refine .step (setReg_changes _ _ _ rfl) ?_ rfl
      refine .step (trimRing_changes ..) ?_ rfl
      refine .step (countBy_changes _ _ _ rfl) ?_ rfl
      refine .step (setEvt_changes ..) ?_ rfl
      exact .refl
    · refine .step (setReg_changes _ _ _ rfl) ?_ rfl
      refine .step (setReg_changes _ _ _ rfl) ?_ rfl
      refine .step (trimRing_changes ..) ?_ rfl
      refine .step (countBy_changes _ _ _ rfl) ?_ rfl
      refine .step (setEvt_changes ..) ?_ rfl
      exact .refl

theorem eventAccept_changes (s : State) : Changes [.regs, .jr, .host, .evt, .out] s (eventAccept s) := by
  unfold eventAccept
  try dsimp only
  split
  · exact .refl
  · refine .ite ?_ ?_
    · exact .refl
    · refine .ite ?_ ?_
      · refine .step (storeEvent_changes ..) ?_ rfl
        refine .step (setEvt_changes ..) ?_ rfl
        exact .refl
      · refine .ite ?_ ?_
        · refine .step (count_changes _ _ rfl) ?_ rfl
          refine .step (setEvt_changes ..) ?_ rfl
          refine .step (setEvt_changes ..) ?_ rfl
          exact .refl
        · refine .step (storeEvent_changes ..) ?_ rfl
          refine .step (setEvt_changes ..) ?_ rfl
          refine .step (setEvt_changes ..) ?_ rfl
          exact .refl

theorem evtRefill_changes (s : State) : Changes [.evt] s (evtRefill s) := by
  unfold evtRefill
  try dsimp only
  refine .ite ?_ ?_
  · exact .refl
  · refine .step (setEvt_changes ..) ?_ rfl
    exact .refl

theorem eventArchiveWrite_changes (s : State) : Changes [.evt] s (eventArchiveWrite s) := by
  unfold eventArchiveWrite
  try dsimp only
  refine .ite ?_ ?_
  · exact .refl
  · split
    · exact .refl
    · refine .step (setEvt_changes ..) ?_ rfl
      exact .refl

theorem evtRead_changes (from_ : W64) (n : Nat) (s : State) : Changes [] s (evtRead from_ n s).1 := by
  unfold evtRead
  try dsimp only
  refine .fst_ite ?_ ?_
  · dsimp only
    exact .refl
  · dsimp only
    exact .refl

theorem clearEvents_changes (h : Hdr) (s : State) : Changes [.regs, .jr, .host, .evt, .out] s (clearEvents h s) := by
  unfold clearEvents
  try dsimp only
  refine .step (count_changes _ _ rfl) ?_ rfl
  refine .step (storeEvent_changes ..) ?_ rfl
  refine .step (setEvt_changes ..) ?_ rfl
  exact .refl

theorem evtClear_changes (h : Hdr) (s : State) : Changes [.regs, .jr, .host, .evt, .out] s (evtClear h s).1 := by
  unfold evtClear
  try dsimp only
  refine .fst_ite ?_ ?_
  · dsimp only
    refine .step (setEvt_changes ..) ?_ rfl
    exact .refl
  · dsimp only
    refine .step (clearEvents_changes ..) ?_ rfl
    exact .refl

theorem settleClears_changes (s : State) : Changes [.regs, .eth, .jr, .host, .evt, .out] s (settleClears s) := by
  unfold settleClears
  try dsimp only
  refine .ite ?_ ?_
  · exact .refl
  · refine .foldl (fun _ _ _ => ?_) ?_
    · refine .step (complete_changes ..) ?_ rfl
      refine .step (clearEvents_changes ..) ?_ rfl
      assumption
    · refine .step (setEvt_changes ..) ?_ rfl
      exact .refl

theorem evtStart_changes (s : State) : Changes [.evt] s (evtStart s) := by
  unfold evtStart
  try dsimp only
  refine .step (setEvt_changes ..) ?_ rfl
  exact .refl

theorem rateWindow_changes (level : Nat) (s : State) : Changes [.win, .bal, .camp, .plc, .evt] s (rateWindow level s) := by
  unfold rateWindow
  try dsimp only
  refine .ite ?_ ?_
  · refine .step (endWindows_changes ..) ?_ rfl
    exact .refl
  · refine .ite ?_ ?_
    · refine .step (setEvt_changes ..) ?_ rfl
      refine .step (Changes.set_win ..) ?_ rfl
      exact .refl
    · exact .refl

end Sys2Proof.Machine
end

