-- ==== Sys2Proof/Laws/ChangesUnit.lean ====
section
/-!
SUPPORT. Sys2Proof/Laws/ChangesUnit.lean: what each operation may change: rings, register accesses, islands, start-up and power.
-/
namespace Sys2Proof.Machine

theorem endFrames_changes (b : Nat) (s : State) : Changes [.regs, .jr, .host, .evt, .out] s (endFrames b s) := by
  unfold endFrames
  try dsimp only
  refine .foldl (fun _ _ _ => ?_) ?_
  · refine .step (endFrame_changes ..) ?_ rfl
    assumption
  · refine .step (setFrames_changes ..) ?_ rfl
    exact .refl

theorem sqStop_changes (n : Nat) (s : State) : Changes [.regs, .jr, .host, .evt, .out] s (sqStop n s) := by
  unfold sqStop
  try dsimp only
  refine .ite ?_ ?_
  · refine .step (setSq_changes ..) ?_ rfl
    refine .step (setHost_changes ..) ?_ rfl
    refine .step (endFrames_changes ..) ?_ rfl
    refine .step (setSq_changes ..) ?_ rfl
    exact .refl
  · refine .step (emit_changes ..) ?_ rfl
    refine .step (setSq_changes ..) ?_ rfl
    refine .step (setHost_changes ..) ?_ rfl
    refine .step (endFrames_changes ..) ?_ rfl
    refine .step (setSq_changes ..) ?_ rfl
    exact .refl

theorem cqStop_changes (n : Nat) (s : State) : Changes [.regs, .jr, .host, .out] s (cqStop n s) := by
  unfold cqStop
  try dsimp only
  split
  · exact .refl
  · refine .foldl (fun _ _ _ => ?_) ?_
    · refine .step (cqPush_changes ..) ?_ rfl
      assumption
    · refine .step (setHost_changes ..) ?_ rfl
      exact .refl

theorem ringStop_changes (cq : Bool) (n : Nat) (s : State) : Changes [.regs, .jr, .host, .evt, .out] s (ringStop cq n s) := by
  unfold ringStop
  try dsimp only
  refine .ite ?_ ?_
  · refine .step (cqStop_changes ..) ?_ rfl
    exact .refl
  · refine .step (sqStop_changes ..) ?_ rfl
    exact .refl

theorem ringStart_changes (cq : Bool) (n : Nat) (s : State) : Changes [.host] s (ringStart cq n s) := by
  unfold ringStart
  try dsimp only
  refine .ite ?_ ?_
  · refine .step (setCq_changes ..) ?_ rfl
    exact .refl
  · refine .step (setSq_changes ..) ?_ rfl
    exact .refl

theorem ringFault_changes (cq : Bool) (n : Nat) (dma : Bool) (s : State) : Changes [.regs, .jr, .host, .evt, .out] s (ringFault cq n dma s) := by
  unfold ringFault
  skip
  try dsimp only
  split
  · exact .refl
  · refine .step (msix_changes ..) ?_ rfl
    refine .step (event_changes ..) ?_ rfl
    refine .step (count_changes _ _ rfl) ?_ rfl
    split
    · refine .step (count_changes _ _ rfl) ?_ rfl
      refine .step (setField_changes _ _ _ _ _ (ringFree (by omega))) ?_ rfl
      refine .step (ringStop_changes ..) ?_ rfl
      exact .refl
    · refine .step (setField_changes _ _ _ _ _ (ringFree (by omega))) ?_ rfl
      refine .step (ringStop_changes ..) ?_ rfl
      exact .refl

theorem dmaFail_changes (cq : Bool) (n : Nat) (s : State) : Changes [.regs, .jr, .host, .evt, .out] s (dmaFail cq n s) := by
  unfold dmaFail
  try dsimp only
  refine .ite ?_ ?_
  · exact .refl
  · refine .step (ringFault_changes ..) ?_ rfl
    exact .refl

theorem bmeClear_changes (s : State) : Changes [.regs, .jr, .host, .evt, .out] s (bmeClear s) := by
  unfold bmeClear
  try dsimp only
  refine .ite ?_ ?_
  · exact .refl
  · refine .foldl (fun _ _ _ => ?_) ?_
    · refine .step (setSq_changes ..) ?_ rfl
      refine .step (endFrames_changes ..) ?_ rfl
      assumption
    · refine .step (setHost_changes ..) ?_ rfl
      exact .refl

theorem forgetRings_changes (s : State) : Changes [.deferred, .stalled, .rules, .bal, .pair, .jr, .host, .arch, .evt] s (forgetRings s) := by
  unfold forgetRings
  try dsimp only
  refine .step (Changes.set_deferred_stalled_rules_bal_pair_jr_host_arch_evt ..) ?_ rfl
  exact .refl

theorem clearRegs_changes (keep : Nat → Bool) (s : State) : Changes [.regs, .setup] s (clearRegs keep s) := Changes.filter_regs s _

theorem pciReset_changes (s : State) : Changes [.deferred, .stalled, .regs, .setup, .rules, .bal, .pair, .jr, .host, .arch, .evt, .out] s (pciReset s) := by
  unfold pciReset
  try dsimp only
  refine .step (clearRegs_changes ..) ?_ rfl
  refine .step (Changes.set_host ..) ?_ rfl
  refine .foldl (fun _ _ _ => ?_) ?_
  · refine .step (cqStop_changes ..) ?_ rfl
    assumption
  · refine .step (forgetRings_changes ..) ?_ rfl
    refine .step (setHost_changes ..) ?_ rfl
    exact .refl

theorem linkReset_changes (s : State) : Changes [.deferred, .stalled, .regs, .setup, .rules, .bal, .pair, .jr, .host, .arch, .evt, .out] s (linkReset s) := by
  unfold linkReset
  try dsimp only
  refine .ite ?_ ?_
  · refine .step (pciReset_changes ..) ?_ rfl
    exact .refl
  · exact .refl

theorem pcieUp_changes (width : Nat) (speed : Nat) (s : State) : Changes [.host] s (pcieUp width speed s) := by
  unfold pcieUp
  try dsimp only
  refine .ite ?_ ?_
  · exact .refl
  · refine .step (setHost_changes ..) ?_ rfl
    exact .refl

theorem configRequest_changes (bme : Option Bool) (s : State) : Changes [.regs, .jr, .host, .evt, .out] s (configRequest bme s) := by
  unfold configRequest
  try dsimp only
  refine .ite ?_ ?_
  · exact .refl
  · refine .ite ?_ ?_
    · refine .step (emit_changes ..) ?_ rfl
      exact .refl
    · refine .step (emit_changes ..) ?_ rfl
      split
      · refine .step (setHost_changes ..) ?_ rfl
        exact .refl
      · refine .step (bmeClear_changes ..) ?_ rfl
        exact .refl
      · exact .refl

theorem msixUnmask_changes (v : Nat) (s : State) : Changes [.host, .out] s (msixUnmask v s) := by
  unfold msixUnmask
  try dsimp only
  refine .ite ?_ ?_
  · exact .refl
  · refine .ite ?_ ?_
    · refine .step (emit_changes ..) ?_ rfl
      refine .step (setHost_changes ..) ?_ rfl
      refine .step (setHost_changes ..) ?_ rfl
      exact .refl
    · refine .step (setHost_changes ..) ?_ rfl
      exact .refl

theorem coalesceExpiry_changes (n : Nat) (s : State) : Changes [.host, .out] s (coalesceExpiry n s) := by
  unfold coalesceExpiry
  try dsimp only
  split
  · exact .refl
  · refine .ite ?_ ?_
    · refine .step (msix_changes ..) ?_ rfl
      refine .step (setCq_changes ..) ?_ rfl
      exact .refl
    · exact .refl

theorem holdExpiry_changes (b : Nat) (s : State) : Changes [.regs, .jr, .host, .evt, .out] s (holdExpiry b s) := by
  unfold holdExpiry
  try dsimp only
  split
  · exact .refl
  · refine .ite ?_ ?_
    · exact .refl
    · refine .step (runFrames_changes ..) ?_ rfl
      refine .step (endFrame_changes ..) ?_ rfl
      refine .step (setFrames_changes ..) ?_ rfl
      exact .refl

theorem keepEvent_changes (off : Nat) (s : State) : Changes [.evt] s (keepEvent off s) := by
  unfold keepEvent
  try dsimp only
  refine .ite ?_ ?_
  · refine .step (event_changes ..) ?_ rfl
    exact .refl
  · refine .ite ?_ ?_
    · refine .step (event_changes ..) ?_ rfl
      exact .refl
    · refine .ite ?_ ?_
      · refine .step (event_changes ..) ?_ rfl
        exact .refl
      · refine .step (event_changes ..) ?_ rfl
        exact .refl

theorem putWord_changes (off : Nat) (w : W32) (s : State) : Changes [.regs, .setup] s (putWord off w s) := by
  unfold putWord
  try dsimp only
  refine .ite ?_ ?_
  · refine .step (setReg_setup ..) ?_ rfl
    refine .step (setReg_setup ..) ?_ rfl
    exact .refl
  · refine .step (setReg_setup ..) ?_ rfl
    exact .refl

theorem lockedWrite_changes (d : RegDef) (off : Nat) (v : W32) (s : State) : Changes [.regs, .host, .evt, .out] s (lockedWrite d off v s) := by
  unfold lockedWrite
  try dsimp only
  refine .ite ?_ ?_
  · refine .step (notice_changes ..) ?_ rfl
    refine .step (event_changes ..) ?_ rfl
    refine .step (count_changes _ _ rfl) ?_ rfl
    exact .refl
  · exact .refl

theorem applySetting_changes (a0 : Nat × Nat × W32 × W32) (s : State) : Changes [.regs, .setup, .evt] s (applySetting a0 s) := by
  unfold applySetting
  try dsimp only
  split
  · exact .refl
  · refine .step (putWord_changes ..) ?_ rfl
    refine .ite ?_ ?_
    · refine .step (keepEvent_changes ..) ?_ rfl
      exact .refl
    · exact .refl

theorem applySettings_changes (here : Nat → Bool) (s : State) : Changes [.regs, .setup, .evt] s (applySettings here s) := by
  unfold applySettings
  try dsimp only
  split
  · exact .refl
  · refine .foldl (fun _ _ _ => ?_) ?_
    · refine .step (applySetting_changes ..) ?_ rfl
      assumption
    · exact .refl

theorem setCl_changes (f : Clusters → Clusters) (s : State) : Changes [.clusters] s (setCl f s) := by
  unfold setCl
  try dsimp only
  refine .step (Changes.set_clusters ..) ?_ rfl
  exact .refl

theorem setBoot_changes (f : Boot → Boot) (s : State) : Changes [.boot] s (setBoot f s) := by
  unfold setBoot
  try dsimp only
  refine .step (Changes.set_boot ..) ?_ rfl
  exact .refl

theorem giveBuckets_changes (s : State) : Changes [.clusters] s (giveBuckets s) := by
  unfold giveBuckets
  try dsimp only
  refine .step (setCl_changes ..) ?_ rfl
  exact .refl

theorem bindLoose_changes (s : State) : Changes [.clusters] s (bindLoose s) := by
  unfold bindLoose
  try dsimp only
  refine .ite ?_ ?_
  · exact .refl
  · refine .step (setCl_changes ..) ?_ rfl
    exact .refl

theorem changeEnds_changes (s : State) : Changes [.clusters] s (changeEnds s) := by
  unfold changeEnds
  try dsimp only
  refine .step (setCl_changes ..) ?_ rfl
  exact .refl

theorem profileNext_changes (s : State) : Changes [.clusters] s (profileNext s) := by
  unfold profileNext
  try dsimp only
  refine .ite ?_ ?_
  · refine .step (setCl_changes ..) ?_ rfl
    exact .refl
  · refine .ite ?_ ?_
    · refine .ite ?_ ?_
      · refine .ite ?_ ?_
        · refine .step (changeEnds_changes ..) ?_ rfl
          refine .step (bindLoose_changes ..) ?_ rfl
          refine .step (setCl_changes ..) ?_ rfl
          refine .step (setCl_changes ..) ?_ rfl
          exact .refl
        · refine .step (setCl_changes ..) ?_ rfl
          refine .step (bindLoose_changes ..) ?_ rfl
          refine .step (setCl_changes ..) ?_ rfl
          refine .step (setCl_changes ..) ?_ rfl
          exact .refl
      · refine .step (setCl_changes ..) ?_ rfl
        refine .step (setCl_changes ..) ?_ rfl
        refine .step (setCl_changes ..) ?_ rfl
        exact .refl
    · refine .step (changeEnds_changes ..) ?_ rfl
      refine .step (setCl_changes ..) ?_ rfl
      exact .refl

theorem startProfile_changes (req : BitVec 2) (s : State) : Changes [.clusters] s (startProfile req s) := by
  unfold startProfile
  try dsimp only
  refine .ite ?_ ?_
  · refine .step (setCl_changes ..) ?_ rfl
    exact .refl
  · refine .step (profileNext_changes ..) ?_ rfl
    refine .step (setCl_changes ..) ?_ rfl
    refine .step (setCl_changes ..) ?_ rfl
    exact .refl

theorem clusterSwitch_changes (k : Nat) (s : State) : Changes [.clusters] s (clusterSwitch k s) := by
  unfold clusterSwitch
  try dsimp only
  refine .ite ?_ ?_
  · exact .refl
  · refine .step (profileNext_changes ..) ?_ rfl
    refine .step (setCl_changes ..) ?_ rfl
    exact .refl

theorem bucketMove_changes (b : Nat) (s : State) : Changes [.clusters] s (bucketMove b s) := by
  unfold bucketMove
  try dsimp only
  split
  · refine .ite ?_ ?_
    · exact .refl
    · refine .step (profileNext_changes ..) ?_ rfl
      refine .step (setCl_changes ..) ?_ rfl
      exact .refl
  · exact .refl

theorem fixWdt_changes (s : State) : Changes [.boot] s (fixWdt s) := by
  unfold fixWdt
  try dsimp only
  refine .step (setBoot_changes ..) ?_ rfl
  exact .refl

theorem fitStore_step (k : Nat) (s : State) (ih : ∀ (t : State), Changes [.camp] t (fitStore k t)) : Changes [.camp] s (fitStore (k+1) s) := by
  unfold fitStore
  try dsimp only
  refine .ite ?_ ?_
  · exact .refl
  · refine .step (ih ..) ?_ rfl
    refine .step (evictSeg_changes ..) ?_ rfl
    exact .refl

theorem fitStore_changes (k : Nat) (s : State) : Changes [.camp] s (fitStore k s) := by
  induction k generalizing s with
  | zero => simp only [fitStore]; exact .refl
  | succ k ih => exact fitStore_step (ih := fun t => ih (s := t)) ..

theorem clusterCamp_changes (k : Nat) (before : Kv Nat) (s : State) : Changes [.regs, .win, .camp, .relay, .jr, .evt] s (clusterCamp k before s) := by
  unfold clusterCamp
  try dsimp only
  refine .ite ?_ ?_
  · exact .refl
  · refine .foldl (fun _ _ _ => ?_) ?_
    · refine .step (sendEntry_changes ..) ?_ rfl
      assumption
    · refine .step (fitStore_changes ..) ?_ rfl
      refine .step (setCampState_changes ..) ?_ rfl
      exact .refl

theorem clusterDown_changes (k : Nat) (s : State) : Changes [.regs, .win, .clusters, .pipe, .rules, .camp, .eth, .relay, .jr, .host, .evt, .out] s (clusterDown k s) := by
  unfold clusterDown
  try dsimp only
  refine .step (profileNext_changes ..) ?_ rfl
  refine .step (finishMarks_changes ..) ?_ rfl
  refine .step (clusterCamp_changes ..) ?_ rfl
  refine .step (setCl_changes ..) ?_ rfl
  refine .step (voidMarks_changes ..) ?_ rfl
  refine .step (loseReadings_changes ..) ?_ rfl
  exact .refl

theorem clusterUp_changes (k : Nat) (s : State) : Changes [.clusters] s (clusterUp k s) := by
  unfold clusterUp
  try dsimp only
  refine .ite ?_ ?_
  · refine .step (setCl_changes ..) ?_ rfl
    exact .refl
  · refine .step (giveBuckets_changes ..) ?_ rfl
    exact .refl

theorem memDown_changes (s : State) : Changes [.regs, .setup, .table, .pipe, .bal, .camp, .relay, .sec, .arch] s (memDown s) := by
  unfold memDown
  try dsimp only
  refine .ite ?_ ?_
  · exact .refl
  · refine .ite ?_ ?_
    · refine .step (Changes.set_table_pipe_camp _ _ _ _ (by first | rfl | (simp; done) | (simp; omega))) ?_ rfl
      refine .step (setReg_setup ..) ?_ rfl
      refine .step (setRelay_changes ..) ?_ rfl
      refine .foldl (fun _ _ _ => ?_) ?_
      · refine .step (addMissing_changes ..) ?_ rfl
        assumption
      · refine .step (setArch_changes ..) ?_ rfl
        exact .refl
    · refine .step (Changes.set_table_pipe_bal_camp_sec _ _ _ _ _ _ (by first | rfl | (simp; done) | (simp; omega)) (by intro h; first | exact h | rfl | exact Kv.wf_putOr _ _ _ h | exact Kv.wf_putOpt _ _ h | exact Kv.wf_map _ h (fun _ => rfl) | exact Kv.wf_foldl_upd _ _ _ _ h | exact wf_toKv _)) ?_ rfl
      refine .foldl (fun _ _ _ => ?_) ?_
      · refine .step (dropFlight_changes ..) ?_ rfl
        assumption
      · refine .step (setRelay_changes ..) ?_ rfl
        refine .foldl (fun _ _ _ => ?_) ?_
        · refine .step (addMissing_changes ..) ?_ rfl
          assumption
        · refine .step (setArch_changes ..) ?_ rfl
          exact .refl

theorem flsDown_changes (failed : Bool) (s : State) : Changes [.regs, .boot, .eth, .jr, .host, .arch, .out] s (flsDown failed s) := by
  unfold flsDown
  try dsimp only
  split
  · refine .step (setBoot_changes ..) ?_ rfl
    split
    · refine .step (answer_changes ..) ?_ rfl
      refine withGrade_changes (fun _ _ => ?_) ?_ rfl
      · refine .step (setArch_changes ..) ?_ rfl
        assumption
      · exact .refl
    · refine withGrade_changes (fun _ _ => ?_) ?_ rfl
      · refine .step (setArch_changes ..) ?_ rfl
        assumption
      · exact .refl
  · split
    · refine .step (answer_changes ..) ?_ rfl
      refine withGrade_changes (fun _ _ => ?_) ?_ rfl
      · refine .step (setArch_changes ..) ?_ rfl
        assumption
      · exact .refl
    · refine withGrade_changes (fun _ _ => ?_) ?_ rfl
      · refine .step (setArch_changes ..) ?_ rfl
        assumption
      · exact .refl

theorem plcGone_changes (n : Nat) (s : State) : Changes [.plc] s (plcGone n s) := by
  unfold plcGone
  try dsimp only
  refine .step (Changes.set_plc ..) ?_ rfl
  exact .refl

theorem rfGone_changes (n : Nat) (s : State) : Changes [.rf] s (rfGone n s) := by
  unfold rfGone
  try dsimp only
  refine .step (Changes.set_rf ..) ?_ rfl
  exact .refl

theorem timGone_changes (s : State) : Changes [.regs, .win, .bal, .camp, .plc, .tim, .host, .evt, .out] s (timGone s) := by
  unfold timGone
  try dsimp only
  refine .ite ?_ ?_
  · refine .step (setBal_changes ..) ?_ rfl
    refine .step (endWindows_changes ..) ?_ rfl
    refine .step (setTim_changes ..) ?_ rfl
    exact .refl
  · refine .step (notice_changes ..) ?_ rfl
    refine .step (setBal_changes ..) ?_ rfl
    refine .step (endWindows_changes ..) ?_ rfl
    refine .step (setTim_changes ..) ?_ rfl
    exact .refl

theorem prlGone_changes (cause : Nat) (s : State) : Changes [.deferred, .regs, .table, .rules, .bal, .camp, .plc, .rf, .eth, .relay, .tim, .pair, .jr, .host, .sec, .evt, .out, .draws] s (prlGone cause s) := by
  unfold prlGone
  try dsimp only
  refine .ite ?_ ?_
  · refine .step (setPair_changes ..) ?_ rfl
    refine .step (setPath_changes ..) ?_ rfl
    exact .refl
  · refine .ite ?_ ?_
    · refine .step (standbyLost_changes ..) ?_ rfl
      refine .step (sourceDown_changes ..) ?_ rfl
      refine .step (noteLost_changes ..) ?_ rfl
      refine .step (setPair_changes ..) ?_ rfl
      refine .step (setPath_changes ..) ?_ rfl
      exact .refl
    · refine .step (pathGone_changes ..) ?_ rfl
      refine .step (sourceDown_changes ..) ?_ rfl
      refine .step (noteLost_changes ..) ?_ rfl
      refine .step (setPair_changes ..) ?_ rfl
      refine .step (setPath_changes ..) ?_ rfl
      exact .refl

theorem flushIsland_changes (n : Nat) (s : State) : Changes [.pipe, .queues] s (flushIsland n s) := by
  unfold flushIsland
  try dsimp only
  refine .step (Changes.set_queues _ _ (by intro h; first | exact h | rfl | exact Kv.wf_putOr _ _ _ h | exact Kv.wf_putOpt _ _ h | exact Kv.wf_map _ h (fun _ => rfl) | exact Kv.wf_foldl_upd _ _ _ _ h | exact wf_toKv _)) ?_ rfl
  refine .ite ?_ ?_
  · refine .step (flushQueue_changes ..) ?_ rfl
    refine .step (flushQueue_changes ..) ?_ rfl
    refine .ite ?_ ?_
    · refine .step (flushQueue_changes ..) ?_ rfl
      exact .refl
    · exact .refl
  · refine .ite ?_ ?_
    · refine .step (flushQueue_changes ..) ?_ rfl
      exact .refl
    · exact .refl

theorem islandLeave_changes (n : Nat) (s : State) : Changes [.regs, .rf, .eth, .relay, .host, .out, .draws] s (islandLeave n s) := by
  unfold islandLeave
  try dsimp only
  refine .ite ?_ ?_
  · refine .step (linkDown_changes ..) ?_ rfl
    exact .refl
  · exact .refl

theorem islandGone_changes (n : Nat) (failed : Bool) (s : State) : Changes [.deferred, .stalled, .regs, .setup, .win, .boot, .clusters, .table, .pipe, .rules, .bal, .camp, .plc, .rf, .eth, .relay, .tim, .pair, .jr, .host, .sec, .arch, .mea, .evt, .out] s (islandGone n failed s) := by
  unfold islandGone
  try dsimp only
  split
  · refine .step (memDown_changes ..) ?_ rfl
    exact .refl
  · refine .step (flsDown_changes ..) ?_ rfl
    exact .refl
  · refine .step (plcGone_changes ..) ?_ rfl
    exact .refl
  · refine .step (plcGone_changes ..) ?_ rfl
    exact .refl
  · refine .step (plcGone_changes ..) ?_ rfl
    exact .refl
  · refine .step (plcGone_changes ..) ?_ rfl
    exact .refl
  · refine .step (rfGone_changes ..) ?_ rfl
    exact .refl
  · refine .step (rfGone_changes ..) ?_ rfl
    exact .refl
  · refine .step (setEth_changes ..) ?_ rfl
    exact .refl
  · refine .step (setEth_changes ..) ?_ rfl
    exact .refl
  · refine .step (pciReset_changes ..) ?_ rfl
    exact .refl
  · refine .step (setMea_changes ..) ?_ rfl
    exact .refl
  · refine .step (timGone_changes ..) ?_ rfl
    exact .refl
  · refine .step (clusterDown_changes ..) ?_ rfl
    exact .refl
  · refine .step (clusterDown_changes ..) ?_ rfl
    exact .refl
  · refine .step (clusterDown_changes ..) ?_ rfl
    exact .refl
  · refine .step (clusterDown_changes ..) ?_ rfl
    exact .refl
  · exact .refl

theorem islandStop_changes (n : Nat) (st : IslState) (code : Byte) (s : State) : Changes [.deferred, .stalled, .regs, .setup, .win, .isl, .boot, .clusters, .table, .pipe, .rules, .bal, .camp, .plc, .rf, .eth, .relay, .tim, .pair, .jr, .host, .sec, .arch, .mea, .queues, .evt, .out, .draws] s (islandStop n st code s) := by
  unfold islandStop
  try dsimp only
  refine .ite ?_ ?_
  · refine .step (flushIsland_changes ..) ?_ rfl
    refine .step (setIsl_changes ..) ?_ rfl
    exact .refl
  · refine .step (fixWdt_changes ..) ?_ rfl
    refine .step (islandGone_changes ..) ?_ rfl
    refine .step (flushIsland_changes ..) ?_ rfl
    refine .step (setIsl_changes ..) ?_ rfl
    refine .step (islandLeave_changes ..) ?_ rfl
    exact .refl

theorem failIsland_changes (n : Nat) (code : Byte) (s : State) : Changes [.deferred, .stalled, .regs, .setup, .win, .isl, .boot, .clusters, .table, .pipe, .rules, .bal, .camp, .plc, .rf, .eth, .relay, .tim, .pair, .jr, .host, .sec, .arch, .mea, .queues, .evt, .out, .draws] s (failIsland n code s) := by
  unfold failIsland
  try dsimp only
  refine .ite ?_ ?_
  · exact .refl
  · refine .step (proofFail_changes ..) ?_ rfl
    refine .step (failoverRequest_changes ..) ?_ rfl
    refine .ite ?_ ?_
    · refine .step (prlGone_changes ..) ?_ rfl
      refine .step (event_changes ..) ?_ rfl
      refine .step (notice_changes ..) ?_ rfl
      refine .step (islandStop_changes ..) ?_ rfl
      exact .refl
    · refine .step (event_changes ..) ?_ rfl
      refine .step (notice_changes ..) ?_ rfl
      refine .step (islandStop_changes ..) ?_ rfl
      exact .refl

theorem lockLoss_changes (n : Nat) (s : State) : Changes [.isl] s (lockLoss n s) := by
  unfold lockLoss
  try dsimp only
  refine .ite ?_ ?_
  · exact .refl
  · refine .step (setIsl_changes ..) ?_ rfl
    exact .refl

theorem lockLossTimeout_changes (n : Nat) (s : State) : Changes [.deferred, .stalled, .regs, .setup, .win, .isl, .boot, .clusters, .table, .pipe, .rules, .bal, .camp, .plc, .rf, .eth, .relay, .tim, .pair, .jr, .host, .sec, .arch, .mea, .queues, .evt, .out, .draws] s (lockLossTimeout n s) := by
  unfold lockLossTimeout
  try dsimp only
  refine .ite ?_ ?_
  · refine .step (failIsland_changes ..) ?_ rfl
    exact .refl
  · exact .refl

theorem handshakeTimeout_changes (n : Nat) (s : State) : Changes [.deferred, .stalled, .regs, .setup, .win, .isl, .boot, .clusters, .table, .pipe, .rules, .bal, .camp, .plc, .rf, .eth, .relay, .tim, .pair, .jr, .host, .sec, .arch, .mea, .queues, .evt, .out, .draws] s (handshakeTimeout n s) := by
  unfold handshakeTimeout
  try dsimp only
  refine .step (failIsland_changes ..) ?_ rfl
  exact .refl

theorem accessFailed_changes (n : Nat) (s : State) : Changes [.regs, .table, .rules, .bal, .camp, .plc, .rf, .eth, .relay, .tim, .pair, .jr, .host, .sec, .evt, .out, .draws] s (accessFailed n s) := by
  unfold accessFailed
  try dsimp only
  refine .ite ?_ ?_
  · refine .step (cannotApply_changes ..) ?_ rfl
    exact .refl
  · exact .refl

theorem eccUncorrectable_changes (a : EccAt) (s : State) : Changes [.deferred, .stalled, .regs, .setup, .win, .isl, .boot, .clusters, .table, .pipe, .rules, .bal, .camp, .plc, .rf, .eth, .relay, .tim, .pair, .jr, .host, .sec, .arch, .mea, .queues, .evt, .out, .draws] s (eccUncorrectable a s) := by
  unfold eccUncorrectable
  try dsimp only
  split
  · refine .step (failIsland_changes ..) ?_ rfl
    exact .refl
  · refine .ite ?_ ?_
    · refine .step (accessFailed_changes ..) ?_ rfl
      refine .step (proofFail_changes ..) ?_ rfl
      refine .step (event_changes ..) ?_ rfl
      exact .refl
    · exact .refl
  · refine .ite ?_ ?_
    · refine .step (proofFail_changes ..) ?_ rfl
      refine .step (event_changes ..) ?_ rfl
      refine .step (count_changes _ _ rfl) ?_ rfl
      exact .refl
    · exact .refl

theorem eccCorrected_changes (a : EccAt) (s : State) : Changes [.regs, .evt] s (eccCorrected a s) := by
  unfold eccCorrected
  skip
  try dsimp only
  split
  · split
    · exact .refl
    · refine .step (event_changes ..) ?_ rfl
      split
      · refine .step (count_changes _ _ (engFree (by assumption) (by simp only [Bool.or_eq_true, decide_eq_true_eq, not_or, Nat.not_lt] at *; omega))) ?_ rfl
        exact .refl
      · exact .refl
  · split
    · refine .step (event_changes ..) ?_ rfl
      refine .step (count_changes _ _ rfl) ?_ rfl
      exact .refl
    · exact .refl
  · split
    · refine .step (event_changes ..) ?_ rfl
      refine .step (count_changes _ _ rfl) ?_ rfl
      exact .refl
    · exact .refl

theorem plcStart_changes (k : Nat) (s : State) : Changes [.isl, .plc, .evt] s (plcStart k s) := by
  unfold plcStart
  try dsimp only
  refine .ite ?_ ?_
  · refine .step (setIsl_changes ..) ?_ rfl
    refine .step (setPlc_changes ..) ?_ rfl
    exact .refl
  · refine .ite ?_ ?_
    · refine .step (setIsl_changes ..) ?_ rfl
      refine .step (event_changes ..) ?_ rfl
      refine .step (setPlc_changes ..) ?_ rfl
      exact .refl
    · refine .step (setPlc_changes ..) ?_ rfl
      exact .refl

theorem rfStart_changes (k : Nat) (s : State) : Changes [.isl, .rf, .evt] s (rfStart k s) := by
  unfold rfStart
  try dsimp only
  refine .ite ?_ ?_
  · refine .step (setIsl_changes ..) ?_ rfl
    refine .step (setRf_changes ..) ?_ rfl
    exact .refl
  · refine .ite ?_ ?_
    · refine .step (setIsl_changes ..) ?_ rfl
      refine .step (event_changes ..) ?_ rfl
      refine .step (setRf_changes ..) ?_ rfl
      exact .refl
    · refine .ite ?_ ?_
      · refine .step (setIsl_changes ..) ?_ rfl
        refine .step (event_changes ..) ?_ rfl
        refine .step (setRf_changes ..) ?_ rfl
        exact .refl
      · refine .ite ?_ ?_
        · refine .step (event_changes ..) ?_ rfl
          refine .step (setRf_changes ..) ?_ rfl
          exact .refl
        · refine .step (setRf_changes ..) ?_ rfl
          exact .refl

theorem zeroise_changes (level : Nat) (cause : Nat) (s : State) : Changes [.regs, .boot, .pipe, .plc, .rf, .sec, .evt] s (zeroise level cause s) := by
  unfold zeroise
  try dsimp only
  refine .step (event_changes ..) ?_ rfl
  refine .step (count_changes _ _ rfl) ?_ rfl
  refine .ite ?_ ?_
  · refine .step (setBoot_changes ..) ?_ rfl
    refine .step (Changes.set_pipe_plc_rf_sec _ _ _ _ _ (by first | rfl | (simp; done) | (simp; omega)) (by intro h; first | exact h | rfl | exact Kv.wf_putOr _ _ _ h | exact Kv.wf_putOpt _ _ h | exact Kv.wf_map _ h (fun _ => rfl) | exact Kv.wf_foldl_upd _ _ _ _ h | exact wf_toKv _)) ?_ rfl
    exact .refl
  · refine .step (Changes.set_pipe_plc_rf_sec _ _ _ _ _ (by first | rfl | (simp; done) | (simp; omega)) (by intro h; first | exact h | rfl | exact Kv.wf_putOr _ _ _ h | exact Kv.wf_putOpt _ _ h | exact Kv.wf_map _ h (fun _ => rfl) | exact Kv.wf_foldl_upd _ _ _ _ h | exact wf_toKv _)) ?_ rfl
    exact .refl

theorem tamperLatched_changes (s : State) : Changes [.regs, .boot, .pipe, .plc, .rf, .sec, .evt] s (tamperLatched s) := by
  unfold tamperLatched
  try dsimp only
  refine .ite ?_ ?_
  · exact .refl
  · refine .ite ?_ ?_
    · refine .step (event_changes ..) ?_ rfl
      refine .step (setField_changes _ _ _ _ _ rfl) ?_ rfl
      refine .step (setField_changes _ _ _ _ _ rfl) ?_ rfl
      exact .refl
    · refine .step (zeroise_changes ..) ?_ rfl
      refine .step (event_changes ..) ?_ rfl
      refine .step (setField_changes _ _ _ _ _ rfl) ?_ rfl
      refine .step (setField_changes _ _ _ _ _ rfl) ?_ rfl
      exact .refl

theorem islandStart_changes (n : Nat) (s : State) : Changes [.regs, .isl, .boot, .clusters, .pipe, .plc, .rf, .eth, .tim, .host, .sec, .arch, .mea, .evt, .out] s (islandStart n s) := by
  unfold islandStart
  try dsimp only
  refine .ite ?_ ?_
  · exact .refl
  · split
    · refine .step (tamperLatched_changes ..) ?_ rfl
      exact .refl
    · split
      · refine .ite ?_ ?_
        · refine .step (archStart_changes ..) ?_ rfl
          exact .refl
        · exact .refl
      · exact .refl
    · refine .step (plcStart_changes ..) ?_ rfl
      exact .refl
    · refine .step (plcStart_changes ..) ?_ rfl
      exact .refl
    · refine .step (plcStart_changes ..) ?_ rfl
      exact .refl
    · refine .step (plcStart_changes ..) ?_ rfl
      exact .refl
    · refine .step (rfStart_changes ..) ?_ rfl
      exact .refl
    · refine .step (rfStart_changes ..) ?_ rfl
      exact .refl
    · refine .step (setEth_changes ..) ?_ rfl
      exact .refl
    · refine .step (setEth_changes ..) ?_ rfl
      exact .refl
    · refine .foldl (fun _ _ _ => ?_) ?_
      · refine .ite ?_ ?_
        · refine .step (setHead_changes ..) ?_ rfl
          assumption
        · assumption
      · refine .foldl (fun _ _ _ => ?_) ?_
        · refine .step (setHead_changes ..) ?_ rfl
          assumption
        · exact .refl
    · refine .step (timStart_changes ..) ?_ rfl
      exact .refl
    · refine .step (clusterUp_changes ..) ?_ rfl
      exact .refl
    · refine .step (clusterUp_changes ..) ?_ rfl
      exact .refl
    · refine .step (clusterUp_changes ..) ?_ rfl
      exact .refl
    · refine .step (clusterUp_changes ..) ?_ rfl
      exact .refl
    · exact .refl

theorem clockStable_changes (n : Nat) (s : State) : Changes [.regs, .isl, .boot, .clusters, .pipe, .plc, .rf, .eth, .tim, .host, .sec, .arch, .mea, .evt, .out] s (clockStable n s) := by
  unfold clockStable
  try dsimp only
  refine .ite ?_ ?_
  · exact .refl
  · refine .ite ?_ ?_
    · refine .step (event_changes ..) ?_ rfl
      refine .step (setIsl_changes ..) ?_ rfl
      exact .refl
    · refine .ite ?_ ?_
      · refine .step (fixWdt_changes ..) ?_ rfl
        refine .step (islandStart_changes ..) ?_ rfl
        refine .step (setIsl_changes ..) ?_ rfl
        exact .refl
      · exact .refl

theorem releaseBare_changes (n : Nat) (s : State) : Changes [.regs, .isl, .rf, .eth, .relay, .pair, .host, .evt, .out, .draws] s (releaseBare n s) := by
  unfold releaseBare
  try dsimp only
  refine .ite ?_ ?_
  · refine .step (proofFail_changes ..) ?_ rfl
    refine .step (notice_changes ..) ?_ rfl
    refine .step (setIsl_changes ..) ?_ rfl
    exact .refl
  · refine .step (setIsl_changes ..) ?_ rfl
    exact .refl

theorem releaseIsland_changes (n : Nat) (s : State) : Changes [.regs, .setup, .isl, .rf, .eth, .relay, .pair, .host, .evt, .out, .draws] s (releaseIsland n s) := by
  unfold releaseIsland
  try dsimp only
  refine .step (releaseBare_changes ..) ?_ rfl
  refine .ite ?_ ?_
  · exact .refl
  · refine .step (applySettings_changes ..) ?_ rfl
    exact .refl

theorem clearBlock_changes (n : Nat) (s : State) : Changes [.regs, .setup, .lat] s (clearBlock n s) := by
  unfold clearBlock
  try dsimp only
  refine .foldl (fun _ _ _ => ?_) ?_
  · refine .step (setLatch_changes ..) ?_ rfl
    assumption
  · refine .step (clearRegs_changes ..) ?_ rfl
    exact .refl

theorem resetIsland_changes (n : Nat) (s : State) : Changes [.deferred, .stalled, .regs, .setup, .lat, .win, .isl, .boot, .clusters, .table, .pipe, .rules, .bal, .camp, .plc, .rf, .eth, .relay, .tim, .pair, .jr, .host, .sec, .arch, .mea, .queues, .evt, .out, .draws] s (resetIsland n s) := by
  unfold resetIsland
  try dsimp only
  refine .ite ?_ ?_
  · refine .step (event_changes ..) ?_ rfl
    refine .step (clearBlock_changes ..) ?_ rfl
    refine .ite ?_ ?_
    · refine .step (prlGone_changes ..) ?_ rfl
      refine .step (islandStop_changes ..) ?_ rfl
      exact .refl
    · refine .step (islandStop_changes ..) ?_ rfl
      exact .refl
  · refine .step (clearBlock_changes ..) ?_ rfl
    refine .ite ?_ ?_
    · refine .step (prlGone_changes ..) ?_ rfl
      refine .step (islandStop_changes ..) ?_ rfl
      exact .refl
    · refine .step (islandStop_changes ..) ?_ rfl
      exact .refl

theorem resetRst_changes (s : State) : Changes [.regs, .setup, .boot, .evt] s (resetRst s) := by
  unfold resetRst
  try dsimp only
  refine .step (applySettings_changes ..) ?_ rfl
  refine .step (setBoot_changes ..) ?_ rfl
  refine .step (setField_setup ..) ?_ rfl
  refine .step (setReg_setup ..) ?_ rfl
  refine .step (clearRegs_changes ..) ?_ rfl
  exact .refl

theorem blockReset_changes (n : Nat) (s : State) : Changes [.deferred, .stalled, .regs, .setup, .lat, .win, .isl, .boot, .clusters, .table, .pipe, .rules, .bal, .camp, .plc, .rf, .eth, .relay, .tim, .pair, .jr, .host, .sec, .arch, .mea, .queues, .mon, .evt, .out, .draws] s (blockReset n s) := by
  unfold blockReset
  try dsimp only
  refine .ite ?_ ?_
  · refine .step (resetIsland_changes ..) ?_ rfl
    refine .step (count_changes _ _ rfl) ?_ rfl
    exact .refl
  · refine .ite ?_ ?_
    · refine .step (resetRst_changes ..) ?_ rfl
      refine .step (count_changes _ _ rfl) ?_ rfl
      exact .refl
    · refine .ite ?_ ?_
      · refine .step (clearBlock_changes ..) ?_ rfl
        refine .step (Changes.set_mon ..) ?_ rfl
        refine .step (count_changes _ _ rfl) ?_ rfl
        exact .refl
      · refine .step (clearBlock_changes ..) ?_ rfl
        refine .step (setEvt_changes ..) ?_ rfl
        refine .step (count_changes _ _ rfl) ?_ rfl
        exact .refl

theorem blockRelease_changes (n : Nat) (s : State) : Changes [.regs, .setup, .isl, .rf, .eth, .relay, .pair, .host, .evt, .out, .draws] s (blockRelease n s) := by
  unfold blockRelease
  try dsimp only
  refine .ite ?_ ?_
  · refine .ite ?_ ?_
    · refine .step (releaseIsland_changes ..) ?_ rfl
      exact .refl
    · exact .refl
  · refine .ite ?_ ?_
    · refine .step (applySettings_changes ..) ?_ rfl
      exact .refl
    · refine .ite ?_ ?_
      · refine .step (applySettings_changes ..) ?_ rfl
        exact .refl
      · exact .refl

theorem swReset_changes (old : W32) (new : W32) (s : State) : Changes [.deferred, .stalled, .regs, .setup, .lat, .win, .isl, .boot, .clusters, .table, .pipe, .rules, .bal, .camp, .plc, .rf, .eth, .relay, .tim, .pair, .jr, .host, .sec, .arch, .mea, .queues, .mon, .evt, .out, .draws] s (swReset old new s) := by
  unfold swReset
  try dsimp only
  refine .foldl (fun _ _ _ => ?_) ?_
  · refine .ite ?_ ?_
    · refine .step (blockReset_changes ..) ?_ rfl
      assumption
    · refine .ite ?_ ?_
      · refine .step (blockRelease_changes ..) ?_ rfl
        assumption
      · assumption
  · exact .refl

theorem keptRegs_ok (l : Loss) {s : State} (h : s.RegsOk) : Kv.wf (keptRegs l s) = true ∧ ∀ p ∈ keptRegs l s, p.2 ≠ regReset p.1 := by
  have hf : Kv.wf (s.regs.filter fun p => keepsReg l p.1) = true ∧ ∀ p ∈ s.regs.filter (fun p => keepsReg l p.1), p.2 ≠ regReset p.1 :=
    ⟨Kv.wf_filter _ h.1, fun p hp => h.2 p (List.mem_filter.mp hp).1⟩
  unfold keptRegs
  dsimp only
  split
  · refine ⟨Kv.wf_putOr _ _ _ hf.1, fun p hp => ?_⟩
    unfold Kv.putOr at hp
    split at hp
    · exact hf.2 p (Kv.mem_del _ hp)
    · rcases Kv.mem_put _ _ hp with hp | hp
      · subst hp
        have : regReset 0x17004 = 0#32 := by decide
        rw [this]; assumption
      · exact hf.2 p hp
  · exact hf
theorem wipe_changes (l : Loss) (s : State) : Changes [.deferred, .stalled, .regs, .setup, .lat, .win, .isl, .boot, .clusters, .table, .pipe, .rules, .bal, .camp, .plc, .rf, .eth, .relay, .tim, .pair, .jr, .host, .sec, .arch, .mea, .queues, .mon, .evt] s (wipe l s) :=
  ⟨fun p hp => by cases p <;> first | rfl | (simp at hp; done), fun h => keptRegs_ok l h, fun _ => rfl, fun _ => ⟨rfl, rfl, rfl, rfl, rfl⟩, ⟨[], rfl⟩, Nat.le_refl _⟩

theorem beginReset_changes (cause : Nat) (detail : Nat) (l : Loss) (s : State) : Changes [.deferred, .stalled, .regs, .setup, .lat, .win, .isl, .boot, .clusters, .table, .pipe, .rules, .bal, .camp, .plc, .rf, .eth, .relay, .tim, .pair, .jr, .host, .sec, .arch, .mea, .queues, .mon, .evt] s (beginReset cause detail l s) := by
  unfold beginReset
  try dsimp only
  refine .ite ?_ ?_
  · refine .step (setBoot_changes ..) ?_ rfl
    refine .step (wipe_changes ..) ?_ rfl
    exact .refl
  · refine .step (setReg_changes _ _ _ rfl) ?_ rfl
    refine .step (setBoot_changes ..) ?_ rfl
    refine .step (wipe_changes ..) ?_ rfl
    exact .refl

theorem powerOnReset_changes (s : State) : Changes [.deferred, .stalled, .regs, .setup, .lat, .win, .isl, .boot, .clusters, .table, .pipe, .rules, .bal, .camp, .plc, .rf, .eth, .relay, .tim, .pair, .jr, .host, .sec, .arch, .mea, .queues, .mon, .evt] s (powerOnReset s) := by
  unfold powerOnReset
  try dsimp only
  refine .step (count_changes _ _ rfl) ?_ rfl
  refine .step (setBoot_changes ..) ?_ rfl
  refine .step (beginReset_changes ..) ?_ rfl
  exact .refl

theorem brownOut_changes (supply : Nat) (s : State) : Changes [.deferred, .stalled, .regs, .setup, .lat, .win, .isl, .boot, .clusters, .table, .pipe, .rules, .bal, .camp, .plc, .rf, .eth, .relay, .tim, .pair, .jr, .host, .sec, .arch, .mea, .queues, .mon, .evt] s (brownOut supply s) := by
  unfold brownOut
  try dsimp only
  refine .ite ?_ ?_
  · exact .refl
  · refine .step (beginReset_changes ..) ?_ rfl
    exact .refl

theorem externalReset_changes (s : State) : Changes [.deferred, .stalled, .regs, .setup, .lat, .win, .isl, .boot, .clusters, .table, .pipe, .rules, .bal, .camp, .plc, .rf, .eth, .relay, .tim, .pair, .jr, .host, .sec, .arch, .mea, .queues, .mon, .evt] s (externalReset s) := by
  unfold externalReset
  try dsimp only
  refine .ite ?_ ?_
  · exact .refl
  · refine .step (beginReset_changes ..) ?_ rfl
    exact .refl

theorem watchdogExpiry_changes (s : State) : Changes [.deferred, .stalled, .regs, .setup, .lat, .win, .isl, .boot, .clusters, .table, .pipe, .rules, .bal, .camp, .plc, .rf, .eth, .relay, .tim, .pair, .jr, .host, .sec, .arch, .mea, .queues, .mon, .evt] s (watchdogExpiry s) := by
  unfold watchdogExpiry
  try dsimp only
  refine .ite ?_ ?_
  · exact .refl
  · refine .step (beginReset_changes ..) ?_ rfl
    exact .refl

theorem thermalReset_changes (s : State) : Changes [.deferred, .stalled, .regs, .setup, .lat, .win, .isl, .boot, .clusters, .table, .pipe, .rules, .bal, .camp, .plc, .rf, .eth, .relay, .tim, .pair, .jr, .host, .sec, .arch, .mea, .queues, .mon, .evt] s (thermalReset s) := by
  unfold thermalReset
  try dsimp only
  refine .ite ?_ ?_
  · exact .refl
  · refine .step (beginReset_changes ..) ?_ rfl
    exact .refl

theorem clockLoss_changes (s : State) : Changes [.deferred, .stalled, .regs, .setup, .lat, .win, .isl, .boot, .clusters, .table, .pipe, .rules, .bal, .camp, .plc, .rf, .eth, .relay, .tim, .pair, .jr, .host, .sec, .arch, .mea, .queues, .mon, .evt] s (clockLoss s) := by
  unfold clockLoss
  try dsimp only
  refine .ite ?_ ?_
  · exact .refl
  · refine .step (beginReset_changes ..) ?_ rfl
    exact .refl

theorem otpLoad_changes (s : State) : Changes [.boot] s (otpLoad s) := by
  unfold otpLoad
  try dsimp only
  refine .step (setBoot_changes ..) ?_ rfl
  exact .refl

theorem chooseBoot_changes (s : State) : Changes [.regs, .boot] s (chooseBoot s) := by
  unfold chooseBoot
  try dsimp only
  refine .ite ?_ ?_
  · refine .step (count_changes _ _ rfl) ?_ rfl
    refine .step (setBoot_changes ..) ?_ rfl
    exact .refl
  · refine .step (setBoot_changes ..) ?_ rfl
    exact .refl

theorem applyBundle_changes (s : State) : Changes [.boot, .clusters, .table, .rules, .sec] s (applyBundle s) := by
  unfold applyBundle
  try dsimp only
  split
  · exact .refl
  · refine .step (Changes.set_boot_clusters_table_rules_sec _ _ _ _ _ _ (by intro h; first | exact h | rfl | exact Kv.wf_putOr _ _ _ h | exact Kv.wf_putOpt _ _ h | exact Kv.wf_map _ h (fun _ => rfl) | exact Kv.wf_foldl_upd _ _ _ _ h | exact wf_toKv _)) ?_ rfl
    exact .refl

theorem takeStrap_changes (c : BitVec 6) (s : State) : Changes [.regs, .setup, .boot] s (takeStrap c s) := by
  unfold takeStrap
  try dsimp only
  refine .step (setField_setup ..) ?_ rfl
  refine .step (setBoot_changes ..) ?_ rfl
  exact .refl

theorem startIsland_changes (env : StartEnv) (n : Nat) (s : State) : Changes [.regs, .isl, .boot, .clusters, .pipe, .plc, .rf, .eth, .relay, .tim, .pair, .host, .sec, .arch, .mea, .evt, .out, .draws] s (startIsland env n s) := by
  unfold startIsland
  try dsimp only
  refine .ite ?_ ?_
  · refine .step (releaseBare_changes ..) ?_ rfl
    exact .refl
  · refine .step (clockStable_changes ..) ?_ rfl
    refine .step (releaseBare_changes ..) ?_ rfl
    exact .refl

theorem startQuiet_changes (n : Nat) (s : State) : Changes [.regs, .isl, .rf, .eth, .relay, .pair, .host, .evt, .out, .draws] s (startQuiet n s) := by
  unfold startQuiet
  try dsimp only
  refine .ite ?_ ?_
  · refine .step (setIsl_changes ..) ?_ rfl
    refine .step (releaseBare_changes ..) ?_ rfl
    exact .refl
  · refine .step (releaseBare_changes ..) ?_ rfl
    exact .refl

theorem startDone_changes (s : State) : Changes [.regs, .boot] s (startDone s) := by
  unfold startDone
  try dsimp only
  refine .step (fixWdt_changes ..) ?_ rfl
  refine .step (setField_changes _ _ _ _ _ rfl) ?_ rfl
  refine .step (setBoot_changes ..) ?_ rfl
  exact .refl

theorem crsEnd_changes (s : State) : Changes [.host] s (crsEnd s) := by
  unfold crsEnd
  try dsimp only
  refine .step (setHost_changes ..) ?_ rfl
  exact .refl

theorem startSec_changes (env : StartEnv) (s : State) : Changes [.deferred, .stalled, .regs, .setup, .win, .isl, .boot, .clusters, .table, .pipe, .rules, .bal, .camp, .plc, .rf, .eth, .relay, .tim, .pair, .jr, .host, .sec, .arch, .mea, .queues, .evt, .out, .draws] s (startSec env s) := by
  unfold startSec
  try dsimp only
  refine .ite ?_ ?_
  · refine .step (startQuiet_changes ..) ?_ rfl
    exact .refl
  · refine .step (failIsland_changes ..) ?_ rfl
    refine .step (startQuiet_changes ..) ?_ rfl
    exact .refl

theorem startTest_changes (env : StartEnv) (s : State) : Changes [.regs, .isl, .boot, .clusters, .pipe, .plc, .rf, .eth, .relay, .tim, .pair, .host, .sec, .arch, .mea, .evt, .out, .draws] s (startTest env s) := by
  unfold startTest
  try dsimp only
  refine .step (startDone_changes ..) ?_ rfl
  refine .step (crsEnd_changes ..) ?_ rfl
  refine .step (setReg_changes _ _ _ rfl) ?_ rfl
  refine .foldl (fun _ _ _ => ?_) ?_
  · refine .ite ?_ ?_
    · assumption
    · refine .step (startIsland_changes ..) ?_ rfl
      assumption
  · exact .refl

theorem fixTable_changes (s : State) : Changes [.regs, .setup] s (fixTable s) := by
  unfold fixTable
  try dsimp only
  refine .step (setField_setup ..) ?_ rfl
  refine .step (setField_setup ..) ?_ rfl
  exact .refl

theorem startRole_changes (env : StartEnv) (s : State) : Changes [.regs, .setup, .isl, .boot, .clusters, .pipe, .plc, .rf, .eth, .relay, .tim, .pair, .host, .sec, .arch, .mea, .evt, .out, .draws] s (startRole env s) := by
  unfold startRole
  try dsimp only
  refine .step (fixTable_changes ..) ?_ rfl
  refine .foldl (fun _ _ _ => ?_) ?_
  · refine .step (startIsland_changes ..) ?_ rfl
    refine .step (applySettings_changes ..) ?_ rfl
    assumption
  · refine .step (applySettings_changes ..) ?_ rfl
    refine .ite ?_ ?_
    · refine .step (setBoot_changes ..) ?_ rfl
      exact .refl
    · refine .step (event_changes ..) ?_ rfl
      refine .step (setBoot_changes ..) ?_ rfl
      exact .refl

theorem startAccess_changes (env : StartEnv) (s : State) : Changes [.regs, .setup, .isl, .boot, .clusters, .pipe, .plc, .rf, .eth, .relay, .tim, .pair, .host, .sec, .arch, .mea, .evt, .out, .draws] s (startAccess env s) := by
  unfold startAccess
  try dsimp only
  refine .foldl (fun _ _ _ => ?_) ?_
  · refine .step (startIsland_changes ..) ?_ rfl
    assumption
  · refine .foldl (fun _ _ _ => ?_) ?_
    · refine .step (readModule_changes ..) ?_ rfl
      assumption
    · refine .step (applySettings_changes ..) ?_ rfl
      exact .refl

theorem startService_changes (env : StartEnv) (s : State) : Changes [.regs, .setup, .boot, .bal, .plc, .rf, .eth, .relay, .tim, .pair, .jr, .host, .arch, .evt, .out, .draws] s (startService env s) := by
  unfold startService
  try dsimp only
  refine .step (archStart_changes ..) ?_ rfl
  refine .step (pairStart_changes ..) ?_ rfl
  refine .step (startDone_changes ..) ?_ rfl
  refine .ite ?_ ?_
  · refine .step (setField_setup ..) ?_ rfl
    exact .refl
  · exact .refl

theorem startBoot_changes (s : State) : Changes [.regs, .setup, .isl, .boot, .clusters, .table, .pipe, .rules, .plc, .rf, .eth, .relay, .pair, .host, .sec, .evt, .out, .draws] s (startBoot s) := by
  unfold startBoot
  try dsimp only
  refine .step (giveBuckets_changes ..) ?_ rfl
  refine .foldl (fun _ _ _ => ?_) ?_
  · refine .step (startQuiet_changes ..) ?_ rfl
    assumption
  · refine .step (applySettings_changes ..) ?_ rfl
    refine .ite ?_ ?_
    · refine .step (tamperLatched_changes ..) ?_ rfl
      refine .step (crsEnd_changes ..) ?_ rfl
      refine .step (applySettings_changes ..) ?_ rfl
      refine .step (applyBundle_changes ..) ?_ rfl
      refine .step (chooseBoot_changes ..) ?_ rfl
      refine .step (startQuiet_changes ..) ?_ rfl
      exact .refl
    · refine .step (crsEnd_changes ..) ?_ rfl
      refine .step (applySettings_changes ..) ?_ rfl
      refine .step (applyBundle_changes ..) ?_ rfl
      refine .step (chooseBoot_changes ..) ?_ rfl
      refine .step (startQuiet_changes ..) ?_ rfl
      exact .refl

theorem runStart_changes (env : StartEnv) (code : BitVec 6) (s : State) : Changes [.deferred, .stalled, .regs, .setup, .win, .isl, .boot, .clusters, .table, .pipe, .rules, .bal, .camp, .plc, .rf, .eth, .relay, .tim, .pair, .jr, .host, .sec, .arch, .mea, .queues, .evt, .out, .draws] s (runStart env code s) := by
  unfold runStart
  try dsimp only
  refine .ite ?_ ?_
  · refine .step (startDone_changes ..) ?_ rfl
    refine .step (crsEnd_changes ..) ?_ rfl
    refine .step (startQuiet_changes ..) ?_ rfl
    refine .step (takeStrap_changes ..) ?_ rfl
    exact .refl
  · refine .ite ?_ ?_
    · refine .step (startTest_changes ..) ?_ rfl
      refine .step (startSec_changes ..) ?_ rfl
      refine .step (startQuiet_changes ..) ?_ rfl
      refine .step (takeStrap_changes ..) ?_ rfl
      exact .refl
    · refine .ite ?_ ?_
      · refine .step (startService_changes ..) ?_ rfl
        refine .step (startAccess_changes ..) ?_ rfl
        refine .step (startRole_changes ..) ?_ rfl
        refine .step (startBoot_changes ..) ?_ rfl
        refine .step (startSec_changes ..) ?_ rfl
        refine .step (startQuiet_changes ..) ?_ rfl
        refine .step (takeStrap_changes ..) ?_ rfl
        exact .refl
      · refine .step (startDone_changes ..) ?_ rfl
        refine .step (startRole_changes ..) ?_ rfl
        refine .step (startBoot_changes ..) ?_ rfl
        refine .step (startSec_changes ..) ?_ rfl
        refine .step (startQuiet_changes ..) ?_ rfl
        refine .step (takeStrap_changes ..) ?_ rfl
        exact .refl

theorem resetRelease_changes (env : StartEnv) (s : State) : Changes [.deferred, .stalled, .regs, .setup, .win, .isl, .boot, .clusters, .table, .pipe, .rules, .bal, .camp, .plc, .rf, .eth, .relay, .tim, .pair, .jr, .host, .sec, .arch, .mea, .queues, .evt, .out, .draws] s (resetRelease env s) := by
  unfold resetRelease
  try dsimp only
  refine .ite ?_ ?_
  · exact .refl
  · refine .ite ?_ ?_
    · refine .step (setReg_changes _ _ _ rfl) ?_ rfl
      refine .step (setBoot_changes ..) ?_ rfl
      refine .step (setBoot_changes ..) ?_ rfl
      exact .refl
    · refine .ite ?_ ?_
      · refine .step (setBoot_changes ..) ?_ rfl
        refine .step (event_changes ..) ?_ rfl
        refine .step (evtStart_changes ..) ?_ rfl
        refine .step (otpLoad_changes ..) ?_ rfl
        refine .step (setIsl_changes ..) ?_ rfl
        refine .step (setIsl_changes ..) ?_ rfl
        refine .step (setBoot_changes ..) ?_ rfl
        exact .refl
      · refine .step (runStart_changes ..) ?_ rfl
        refine .step (event_changes ..) ?_ rfl
        refine .step (evtStart_changes ..) ?_ rfl
        refine .step (otpLoad_changes ..) ?_ rfl
        refine .step (setIsl_changes ..) ?_ rfl
        refine .step (setIsl_changes ..) ?_ rfl
        refine .step (setBoot_changes ..) ?_ rfl
        exact .refl

theorem strapRetry_changes (code : BitVec 6) (s : State) : Changes [.deferred, .stalled, .regs, .setup, .win, .isl, .boot, .clusters, .table, .pipe, .rules, .bal, .camp, .plc, .rf, .eth, .relay, .tim, .pair, .jr, .host, .sec, .arch, .mea, .queues, .evt, .out, .draws] s (strapRetry code s) := by
  unfold strapRetry
  try dsimp only
  split
  · refine .ite ?_ ?_
    · refine .step (setBoot_changes ..) ?_ rfl
      exact .refl
    · refine .step (runStart_changes ..) ?_ rfl
      exact .refl
  · exact .refl

theorem autoConfirm_changes (s : State) : Changes [.boot] s (autoConfirm s) := by
  unfold autoConfirm
  try dsimp only
  refine .ite ?_ ?_
  · refine .step (confirmTrial_changes ..) ?_ rfl
    exact .refl
  · exact .refl

theorem ungate_changes (s : State) : Changes [.isl] s (ungate s) := by
  unfold ungate
  try dsimp only
  refine .step (Changes.set_isl _ _ (by intro h; first | exact h | rfl | exact Kv.wf_putOr _ _ _ h | exact Kv.wf_putOpt _ _ h | exact Kv.wf_map _ h (fun _ => rfl) | exact Kv.wf_foldl_upd _ _ _ _ h | exact wf_toKv _)) ?_ rfl
  exact .refl

theorem gateForHold_changes (s : State) : Changes [.isl] s (gateForHold s) := by
  unfold gateForHold
  try dsimp only
  refine .step (Changes.set_isl _ _ (by intro h; first | exact h | rfl | exact Kv.wf_putOr _ _ _ h | exact Kv.wf_putOpt _ _ h | exact Kv.wf_map _ h (fun _ => rfl) | exact Kv.wf_foldl_upd _ _ _ _ h | exact wf_toKv _)) ?_ rfl
  exact .refl

theorem setPower_changes (p : Power) (t : Power) (s : State) : Changes [.boot] s (setPower p t s) := by
  unfold setPower
  try dsimp only
  refine .step (setBoot_changes ..) ?_ rfl
  exact .refl

theorem powerRun_changes (s : State) : Changes [.isl, .boot] s (powerRun s) := by
  unfold powerRun
  try dsimp only
  refine .step (ungate_changes ..) ?_ rfl
  refine .step (setPower_changes ..) ?_ rfl
  exact .refl

theorem powerDoze_changes (s : State) : Changes [.boot] s (powerDoze s) := by
  unfold powerDoze
  try dsimp only
  refine .step (setPower_changes ..) ?_ rfl
  exact .refl

theorem powerHold_changes (s : State) : Changes [.regs, .isl, .boot, .pair, .host, .out] s (powerHold s) := by
  unfold powerHold
  try dsimp only
  refine .step (gateForHold_changes ..) ?_ rfl
  refine .step (setPower_changes ..) ?_ rfl
  refine .ite ?_ ?_
  · refine .step (seek_changes ..) ?_ rfl
    exact .refl
  · exact .refl

theorem drainForBackup_step (k : Nat) (s : State) (ih : ∀ (t : State), Changes [.regs, .arch] t (drainForBackup k t)) : Changes [.regs, .arch] s (drainForBackup (k+1) s) := by
  unfold drainForBackup
  try dsimp only
  refine .ite ?_ ?_
  · exact .refl
  · refine .step (ih ..) ?_ rfl
    refine .step (programReadings_changes ..) ?_ rfl
    refine .ite ?_ ?_
    · split
      · refine .step (setArch_changes ..) ?_ rfl
        exact .refl
      · exact .refl
    · refine .step (padQueue_changes ..) ?_ rfl
      exact .refl

theorem drainForBackup_changes (k : Nat) (s : State) : Changes [.regs, .arch] s (drainForBackup k s) := by
  induction k generalizing s with
  | zero => simp only [drainForBackup]; exact .refl
  | succ k ih => exact drainForBackup_step (ih := fun t => ih (s := t)) ..

theorem toBackup_changes (s : State) : Changes [.deferred, .stalled, .regs, .setup, .lat, .win, .isl, .boot, .clusters, .table, .pipe, .rules, .bal, .camp, .plc, .rf, .eth, .relay, .tim, .pair, .jr, .host, .sec, .arch, .mea, .queues, .mon, .evt] s (toBackup s) := by
  unfold toBackup
  try dsimp only
  refine .step (setBoot_changes ..) ?_ rfl
  refine .step (wipe_changes ..) ?_ rfl
  exact .refl

theorem powerBackup_changes (s : State) : Changes [.deferred, .stalled, .regs, .setup, .lat, .win, .isl, .boot, .clusters, .table, .pipe, .rules, .bal, .camp, .plc, .rf, .eth, .relay, .tim, .pair, .jr, .host, .sec, .arch, .mea, .queues, .mon, .evt] s (powerBackup s) := by
  unfold powerBackup
  try dsimp only
  refine .ite ?_ ?_
  · refine .step (setBoot_changes ..) ?_ rfl
    exact .refl
  · refine .step (setBoot_changes ..) ?_ rfl
    refine .step (toBackup_changes ..) ?_ rfl
    refine .step (setPair_changes ..) ?_ rfl
    refine .step (drainForBackup_changes ..) ?_ rfl
    exact .refl

theorem powerTo_changes (v : Nat) (s : State) : Changes [.deferred, .stalled, .regs, .setup, .lat, .win, .isl, .boot, .clusters, .table, .pipe, .rules, .bal, .camp, .plc, .rf, .eth, .relay, .tim, .pair, .jr, .host, .sec, .arch, .mea, .queues, .mon, .evt, .out] s (powerTo v s) := by
  unfold powerTo
  try dsimp only
  split
  · refine .step (powerRun_changes ..) ?_ rfl
    exact .refl
  · refine .ite ?_ ?_
    · exact .refl
    · refine .step (powerDoze_changes ..) ?_ rfl
      exact .refl
  · refine .ite ?_ ?_
    · exact .refl
    · refine .step (powerHold_changes ..) ?_ rfl
      refine .step (powerRun_changes ..) ?_ rfl
      exact .refl
  · refine .ite ?_ ?_
    · exact .refl
    · refine .step (powerBackup_changes ..) ?_ rfl
      exact .refl

theorem dozeGate_changes (n : Nat) (s : State) : Changes [.isl] s (dozeGate n s) := by
  unfold dozeGate
  try dsimp only
  refine .ite ?_ ?_
  · refine .step (setIsl_changes ..) ?_ rfl
    exact .refl
  · exact .refl

theorem wakePinFall_changes (s : State) : Changes [.isl, .boot] s (wakePinFall s) := by
  unfold wakePinFall
  try dsimp only
  refine .ite ?_ ?_
  · refine .step (setBoot_changes ..) ?_ rfl
    exact .refl
  · refine .ite ?_ ?_
    · refine .step (powerRun_changes ..) ?_ rfl
      refine .step (setBoot_changes ..) ?_ rfl
      exact .refl
    · refine .ite ?_ ?_
      · refine .step (setBoot_changes ..) ?_ rfl
        refine .step (setBoot_changes ..) ?_ rfl
        exact .refl
      · refine .step (setBoot_changes ..) ?_ rfl
        exact .refl

theorem bkpAlarm_changes (s : State) : Changes [.boot] s (bkpAlarm s) := by
  unfold bkpAlarm
  try dsimp only
  refine .ite ?_ ?_
  · refine .step (setBoot_changes ..) ?_ rfl
    exact .refl
  · exact .refl

theorem mainSupplyLoss_changes (s : State) : Changes [.deferred, .stalled, .regs, .setup, .lat, .win, .isl, .boot, .clusters, .table, .pipe, .rules, .bal, .camp, .plc, .rf, .eth, .relay, .tim, .pair, .jr, .host, .sec, .arch, .mea, .queues, .mon, .evt] s (mainSupplyLoss s) := by
  unfold mainSupplyLoss
  try dsimp only
  refine .ite ?_ ?_
  · refine .step (toBackup_changes ..) ?_ rfl
    exact .refl
  · exact .refl

theorem vbatLow_changes (mv : Nat) (s : State) : Changes [.regs, .evt] s (vbatLow mv s) := by
  unfold vbatLow
  try dsimp only
  refine .ite ?_ ?_
  · refine .step (setField_changes _ _ _ _ _ rfl) ?_ rfl
    exact .refl
  · refine .ite ?_ ?_
    · refine .step (event_changes ..) ?_ rfl
      refine .step (setField_changes _ _ _ _ _ rfl) ?_ rfl
      exact .refl
    · refine .step (setField_changes _ _ _ _ _ rfl) ?_ rfl
      exact .refl

theorem bkpPowerLoss_changes (s : State) : Changes [.deferred, .stalled, .regs, .setup, .lat, .win, .isl, .boot, .clusters, .table, .pipe, .rules, .bal, .camp, .plc, .rf, .eth, .relay, .tim, .pair, .jr, .host, .sec, .arch, .mea, .queues, .mon, .evt] s (bkpPowerLoss s) := by
  unfold bkpPowerLoss
  try dsimp only
  refine .ite ?_ ?_
  · exact .refl
  · refine .step (setBoot_changes ..) ?_ rfl
    refine .step (wipe_changes ..) ?_ rfl
    exact .refl

theorem bkpSecond_changes (s : State) : Changes [.regs] s (bkpSecond s) := by
  unfold bkpSecond
  try dsimp only
  refine .ite ?_ ?_
  · refine .step (count_changes _ _ rfl) ?_ rfl
    refine .step (setField_changes _ _ _ _ _ rfl) ?_ rfl
    refine .step (setReg_changes _ _ _ rfl) ?_ rfl
    exact .refl
  · refine .step (setField_changes _ _ _ _ _ rfl) ?_ rfl
    refine .step (setReg_changes _ _ _ rfl) ?_ rfl
    exact .refl

theorem tamperFall_changes (s : State) : Changes [.regs, .boot, .pipe, .plc, .rf, .sec, .evt] s (tamperFall s) := by
  unfold tamperFall
  try dsimp only
  refine .ite ?_ ?_
  · refine .step (setField_changes _ _ _ _ _ rfl) ?_ rfl
    exact .refl
  · refine .ite ?_ ?_
    · exact .refl
    · refine .step (zeroise_changes ..) ?_ rfl
      exact .refl

theorem otpGo_changes (v : W32) (s : State) : Changes [.regs, .boot] s (otpGo v s) := by
  unfold otpGo
  try dsimp only
  refine .ite ?_ ?_
  · exact .refl
  · refine .step (setField_changes _ _ _ _ _ rfl) ?_ rfl
    refine .step (setBoot_changes ..) ?_ rfl
    exact .refl

theorem installGo_changes (kind : Bool) (slot : Bool) (obj : Staged) (s : State) : Changes [.boot] s (installGo kind slot obj s) := by
  unfold installGo
  try dsimp only
  refine .ite ?_ ?_
  · exact .refl
  · refine .ite ?_ ?_
    · refine .step (setBoot_changes ..) ?_ rfl
      exact .refl
    · refine .ite ?_ ?_
      · refine .step (setBoot_changes ..) ?_ rfl
        exact .refl
      · refine .ite ?_ ?_
        · refine .step (setBoot_changes ..) ?_ rfl
          exact .refl
        · refine .ite ?_ ?_
          · refine .step (setBoot_changes ..) ?_ rfl
            exact .refl
          · refine .step (setBoot_changes ..) ?_ rfl
            exact .refl

theorem installComplete_changes (ok : Bool) (s : State) : Changes [.regs, .boot] s (installComplete ok s) := by
  unfold installComplete
  try dsimp only
  split
  · exact .refl
  · refine .ite ?_ ?_
    · refine .step (setBoot_changes ..) ?_ rfl
      exact .refl
    · refine .step (count_changes _ _ rfl) ?_ rfl
      refine .step (setBoot_changes ..) ?_ rfl
      exact .refl

theorem bootSel_changes (v : W32) (s : State) : Changes [.boot] s (bootSel v s) := by
  unfold bootSel
  try dsimp only
  refine .ite ?_ ?_
  · refine .step (confirmTrial_changes ..) ?_ rfl
    exact .refl
  · refine .ite ?_ ?_
    · refine .step (setBoot_changes ..) ?_ rfl
      exact .refl
    · refine .step (setBoot_changes ..) ?_ rfl
      exact .refl

theorem readLatch_changes (p : Path) (off : Nat) (s : State) : Changes [.lat] s (readLatch p off s) := by
  unfold readLatch
  try dsimp only
  refine .ite ?_ ?_
  · refine .step (setLatch_changes ..) ?_ rfl
    exact .refl
  · refine .ite ?_ ?_
    · refine .step (setLatch_changes ..) ?_ rfl
      exact .refl
    · refine .ite ?_ ?_
      · refine .step (setLatch_changes ..) ?_ rfl
        exact .refl
      · refine .ite ?_ ?_
        · refine .step (setLatch_changes ..) ?_ rfl
          exact .refl
        · refine .ite ?_ ?_
          · refine .step (setLatch_changes ..) ?_ rfl
            exact .refl
          · refine .ite ?_ ?_
            · refine .step (setLatch_changes ..) ?_ rfl
              exact .refl
            · exact .refl

theorem readReg_changes (p : Path) (off : Nat) (s : State) : Changes [.regs, .lat] s (readReg p off s).2 := by
  unfold readReg
  try dsimp only
  refine .snd_ite ?_ ?_
  · dsimp only
    refine .step (count_changes _ _ rfl) ?_ rfl
    exact .refl
  · split
    · dsimp only
      refine .step (count_changes _ _ rfl) ?_ rfl
      exact .refl
    · dsimp only
      refine .step (readLatch_changes ..) ?_ rfl
      exact .refl

theorem readWords_step (o k : Nat) (s : State) (ih : ∀ (o : Nat) (t : State), Changes [.regs, .lat] t ((readWords o k t).2)) : Changes [.regs, .lat] s ((readWords o (k+1) s).2) := by
  unfold readWords
  try dsimp only
  refine .step (ih ..) ?_ rfl
  refine .step (readReg_changes ..) ?_ rfl
  exact .refl

theorem readWords_changes (o k : Nat) (s : State) : Changes [.regs, .lat] s ((readWords o k s).2) := by
  induction k generalizing s o with
  | zero => simp only [readWords]; exact .refl
  | succ k ih => exact readWords_step (ih := fun o t => ih (o := o) (s := t)) ..

theorem regRead_changes (off : Nat) (cnt : Nat) (s : State) : Changes [.regs, .lat] s (regRead off cnt s).1 := by
  unfold regRead
  try dsimp only
  refine .fst_ite ?_ ?_
  · dsimp only
    exact .refl
  · dsimp only
    refine .step (readWords_changes ..) ?_ rfl
    exact .refl

theorem prlOff_changes (s : State) : Changes [.deferred, .stalled, .regs, .setup, .win, .isl, .boot, .clusters, .table, .pipe, .rules, .bal, .camp, .plc, .rf, .eth, .relay, .tim, .pair, .jr, .host, .sec, .arch, .mea, .queues, .evt, .out, .draws] s (prlOff s) := by
  unfold prlOff
  try dsimp only
  refine .ite ?_ ?_
  · refine .step (setSt_changes ..) ?_ rfl
    refine .step (prlGone_changes ..) ?_ rfl
    refine .step (islandStop_changes ..) ?_ rfl
    exact .refl
  · refine .step (takeGrant_changes ..) ?_ rfl
    refine .step (setSt_changes ..) ?_ rfl
    refine .step (prlGone_changes ..) ?_ rfl
    refine .step (islandStop_changes ..) ?_ rfl
    exact .refl

theorem enFall_changes (n : Nat) (s : State) : Changes [.deferred, .stalled, .regs, .setup, .win, .isl, .boot, .clusters, .table, .pipe, .rules, .bal, .camp, .plc, .rf, .eth, .relay, .tim, .pair, .jr, .host, .sec, .arch, .mea, .queues, .evt, .out, .draws] s (enFall n s) := by
  unfold enFall
  try dsimp only
  refine .ite ?_ ?_
  · refine .step (prlOff_changes ..) ?_ rfl
    exact .refl
  · refine .step (islandStop_changes ..) ?_ rfl
    exact .refl

theorem flsEn_changes (old : W32) (new : W32) (s : State) : Changes [.regs, .host, .arch, .evt, .out] s (flsEn old new s) := by
  unfold flsEn
  try dsimp only
  refine .ite ?_ ?_
  · split
    · refine .ite ?_ ?_
      · refine .step (archStart_changes ..) ?_ rfl
        exact .refl
      · exact .refl
    · exact .refl
  · refine .ite ?_ ?_
    · refine withGrade_changes (fun _ _ => ?_) ?_ rfl
      · refine .step (setArch_changes ..) ?_ rfl
        assumption
      · exact .refl
    · exact .refl

theorem pciEn_changes (old : W32) (new : W32) (s : State) : Changes [.regs, .jr, .host, .evt, .out] s (pciEn old new s) := by
  unfold pciEn
  try dsimp only
  refine .ite ?_ ?_
  · refine .step (setHost_changes ..) ?_ rfl
    exact .refl
  · refine .ite ?_ ?_
    · refine .foldl (fun _ _ _ => ?_) ?_
      · refine .step (setSq_changes ..) ?_ rfl
        refine .step (endFrames_changes ..) ?_ rfl
        assumption
      · refine .step (setHost_changes ..) ?_ rfl
        exact .refl
    · exact .refl

theorem ringEn_changes (cq : Bool) (n : Nat) (old : W32) (new : W32) (s : State) : Changes [.regs, .jr, .host, .evt, .out] s (ringEn cq n old new s) := by
  unfold ringEn
  try dsimp only
  refine .ite ?_ ?_
  · refine .step (ringStart_changes ..) ?_ rfl
    exact .refl
  · refine .ite ?_ ?_
    · refine .step (ringStop_changes ..) ?_ rfl
      exact .refl
    · exact .refl

theorem afterWrite_changes (off : Nat) (old : W32) (new : W32) (v : W32) (s : State) : Changes [.deferred, .stalled, .regs, .setup, .lat, .win, .isl, .boot, .clusters, .table, .pipe, .rules, .bal, .camp, .plc, .rf, .eth, .relay, .tim, .pair, .jr, .host, .sec, .arch, .mea, .queues, .mon, .evt, .out, .draws] s (afterWrite off old new v s) := by
  unfold afterWrite
  try dsimp only
  refine .ite ?_ ?_
  · refine .ite ?_ ?_
    · refine .step (msix_changes ..) ?_ rfl
      exact .refl
    · exact .refl
  · refine .ite ?_ ?_
    · refine .step (latchQueue_changes ..) ?_ rfl
      exact .refl
    · refine .ite ?_ ?_
      · refine .step (monSnap_changes ..) ?_ rfl
        exact .refl
      · refine .ite ?_ ?_
        · refine .step (flsEn_changes ..) ?_ rfl
          exact .refl
        · refine .ite ?_ ?_
          · refine .step (pciEn_changes ..) ?_ rfl
            exact .refl
          · refine .ite ?_ ?_
            · refine .step (ringEn_changes ..) ?_ rfl
              exact .refl
            · refine .ite ?_ ?_
              · refine .step (ringEn_changes ..) ?_ rfl
                exact .refl
              · split
                · refine .ite ?_ ?_
                  · refine .step (enFall_changes ..) ?_ rfl
                    exact .refl
                  · exact .refl
                · exact .refl

theorem plainWrite_changes (d : RegDef) (off : Nat) (v : W32) (s : State) : Changes [.deferred, .stalled, .regs, .setup, .lat, .win, .isl, .boot, .clusters, .table, .pipe, .rules, .bal, .camp, .plc, .rf, .eth, .relay, .tim, .pair, .jr, .host, .sec, .arch, .mea, .queues, .mon, .evt, .out, .draws] s (plainWrite d off v s) := by
  unfold plainWrite
  try dsimp only
  refine .step (afterWrite_changes ..) ?_ rfl
  refine .step (putWord_changes ..) ?_ rfl
  refine .ite ?_ ?_
  · refine .step (keepEvent_changes ..) ?_ rfl
    refine .step (lockedWrite_changes ..) ?_ rfl
    refine .ite ?_ ?_
    · refine .step (count_changes _ _ rfl) ?_ rfl
      exact .refl
    · exact .refl
  · refine .step (lockedWrite_changes ..) ?_ rfl
    refine .ite ?_ ?_
    · refine .step (count_changes _ _ rfl) ?_ rfl
      exact .refl
    · exact .refl

theorem barWrite_changes (off : Nat) (v : W32) (whole : Bool) (s : State) : Changes [.deferred, .stalled, .regs, .setup, .lat, .win, .isl, .boot, .clusters, .table, .pipe, .rules, .bal, .camp, .plc, .rf, .eth, .relay, .tim, .pair, .jr, .host, .sec, .arch, .mea, .queues, .mon, .evt, .out, .draws] s (barWrite off v whole s) := by
  unfold barWrite
  try dsimp only
  refine .ite ?_ ?_
  · exact .refl
  · refine .ite ?_ ?_
    · refine .step (count_changes _ _ rfl) ?_ rfl
      exact .refl
    · refine .ite ?_ ?_
      · exact .refl
      · refine .ite ?_ ?_
        · refine .ite ?_ ?_
          · refine .step (otpGo_changes ..) ?_ rfl
            exact .refl
          · refine .ite ?_ ?_
            · split
              · refine .step (putWord_changes ..) ?_ rfl
                exact .refl
              · exact .refl
            · exact .refl
        · refine .ite ?_ ?_
          · exact .refl
          · refine .ite ?_ ?_
            · refine .step (count_changes _ _ rfl) ?_ rfl
              exact .refl
            · split
              · refine .step (count_changes _ _ rfl) ?_ rfl
                exact .refl
              · refine .step (plainWrite_changes ..) ?_ rfl
                exact .refl

theorem readAlone_changes (p : Path) (off : Nat) (s : State) : Changes [.regs, .lat, .out] s (readAlone p off s) := by
  unfold readAlone
  try dsimp only
  refine .ite ?_ ?_
  · exact .refl
  · refine .step (emit_changes ..) ?_ rfl
    refine .step (readReg_changes ..) ?_ rfl
    exact .refl

theorem auStore_changes (d : RegDef) (off : Nat) (mask : W32) (v : W32) (s : State) : Changes [.regs, .setup, .jr] s (auStore d off mask v s) := by
  unfold auStore
  try dsimp only
  refine .ite ?_ ?_
  · refine .step (journal_changes ..) ?_ rfl
    refine .step (putWord_changes ..) ?_ rfl
    exact .refl
  · refine .step (putWord_changes ..) ?_ rfl
    exact .refl

theorem auProfile_changes (v : W32) (s : State) : Changes [.clusters, .evt] s (auProfile v s).1 := by
  unfold auProfile
  try dsimp only
  refine .fst_ite ?_ ?_
  · dsimp only
    exact .refl
  · refine .fst_ite ?_ ?_
    · dsimp only
      refine .step (event_changes ..) ?_ rfl
      exact .refl
    · dsimp only
      refine .step (startProfile_changes ..) ?_ rfl
      exact .refl

theorem auUnit_changes (d : RegDef) (mask : W32) (v : W32) (s : State) : Changes [.deferred, .stalled, .regs, .setup, .lat, .win, .isl, .boot, .clusters, .table, .pipe, .rules, .bal, .camp, .plc, .rf, .eth, .relay, .tim, .pair, .jr, .host, .sec, .arch, .mea, .queues, .mon, .evt] s (auUnit d mask v s).1 := by
  unfold auUnit
  try dsimp only
  refine .fst_ite ?_ ?_
  · dsimp only
    refine .step (auStore_changes ..) ?_ rfl
    exact .refl
  · refine .fst_ite ?_ ?_
    · dsimp only
      exact .refl
    · dsimp only
      refine .step (beginReset_changes ..) ?_ rfl
      refine .step (auStore_changes ..) ?_ rfl
      exact .refl

theorem auPower_changes (v : W32) (s : State) : Changes [.deferred, .stalled, .regs, .setup, .lat, .win, .isl, .boot, .clusters, .table, .pipe, .rules, .bal, .camp, .plc, .rf, .eth, .relay, .tim, .pair, .jr, .host, .sec, .arch, .mea, .queues, .mon, .evt, .out] s (auPower v s).1 := by
  unfold auPower
  try dsimp only
  refine .fst_ite ?_ ?_
  · dsimp only
    exact .refl
  · dsimp only
    refine .step (powerTo_changes ..) ?_ rfl
    exact .refl

theorem auInstall_changes (d : RegDef) (mask : W32) (v : W32) (obj : Staged) (s : State) : Changes [.regs, .setup, .boot, .jr] s (auInstall d mask v obj s).1 := by
  unfold auInstall
  try dsimp only
  refine .fst_ite ?_ ?_
  · dsimp only
    exact .refl
  · refine .fst_ite ?_ ?_
    · dsimp only
      refine .step (installGo_changes ..) ?_ rfl
      refine .step (auStore_changes ..) ?_ rfl
      exact .refl
    · dsimp only
      refine .step (auStore_changes ..) ?_ rfl
      exact .refl

theorem auBootSel_changes (d : RegDef) (mask : W32) (v : W32) (s : State) : Changes [.regs, .setup, .boot, .jr] s (auBootSel d mask v s).1 := by
  unfold auBootSel
  try dsimp only
  refine .fst_ite ?_ ?_
  · dsimp only
    exact .refl
  · dsimp only
    refine .step (bootSel_changes ..) ?_ rfl
    refine .step (auStore_changes ..) ?_ rfl
    exact .refl

theorem auWrite_changes (obj : Staged) (off : Nat) (mask : W32) (v : W32) (s : State) : Changes [.deferred, .stalled, .regs, .setup, .lat, .win, .isl, .boot, .clusters, .table, .pipe, .rules, .bal, .camp, .plc, .rf, .eth, .relay, .tim, .pair, .jr, .host, .sec, .arch, .mea, .queues, .mon, .evt, .out, .draws] s (auWrite obj off mask v s).1 := by
  unfold auWrite
  try dsimp only
  split
  · dsimp only
    exact .refl
  · refine .fst_ite ?_ ?_
    · dsimp only
      exact .refl
    · refine .fst_ite ?_ ?_
      · dsimp only
        refine .step (count_changes _ _ rfl) ?_ rfl
        exact .refl
      · refine .fst_ite ?_ ?_
        · refine .step (auProfile_changes ..) ?_ rfl
          exact .refl
        · refine .fst_ite ?_ ?_
          · refine .step (auUnit_changes ..) ?_ rfl
            exact .refl
          · refine .fst_ite ?_ ?_
            · dsimp only
              refine .step (swReset_changes ..) ?_ rfl
              refine .step (putWord_changes ..) ?_ rfl
              exact .refl
            · refine .fst_ite ?_ ?_
              · refine .step (auBootSel_changes ..) ?_ rfl
                exact .refl
              · refine .fst_ite ?_ ?_
                · refine .step (auInstall_changes ..) ?_ rfl
                  exact .refl
                · refine .fst_ite ?_ ?_
                  · refine .step (auPower_changes ..) ?_ rfl
                    exact .refl
                  · dsimp only
                    refine .step (auStore_changes ..) ?_ rfl
                    exact .refl

end Sys2Proof.Machine
end

