-- ==== Sys2Proof/Laws/ChangesCommands.lean ====
section
/-!
SUPPORT. Sys2Proof/Laws/ChangesCommands.lean: what each operation may change: management commands, polling and idle time.
-/
namespace Sys2Proof.Machine

theorem putKeySlot_changes (n : Nat) (v : Option AuthSlot) (s : State) : Changes [.jr, .sec] s (putKeySlot n v s) := by
  unfold putKeySlot
  try dsimp only
  refine .step (journal_changes ..) ?_ rfl
  refine .step (Changes.set_sec _ _ (by intro h; first | exact h | rfl | exact Kv.wf_putOr _ _ _ h | exact Kv.wf_putOpt _ _ h | exact Kv.wf_map _ h (fun _ => rfl) | exact Kv.wf_foldl_upd _ _ _ _ h | exact wf_toKv _)) ?_ rfl
  exact .refl

theorem keyLoad_changes (h : Hdr) (slot : Byte) (perms : BitVec 16) (key : Wrapped) (s : State) : Changes [.jr, .sec] s (keyLoad h slot perms key s).1 := by
  unfold keyLoad
  try dsimp only
  refine .fst_ite ?_ ?_
  · dsimp only
    exact .refl
  · split
    · dsimp only
      exact .refl
    · dsimp only
      refine .step (putKeySlot_changes ..) ?_ rfl
      exact .refl

theorem keyClear_changes (h : Hdr) (slot : Byte) (s : State) : Changes [.jr, .sec] s (keyClear h slot s).1 := by
  unfold keyClear
  try dsimp only
  refine .fst_ite ?_ ?_
  · dsimp only
    exact .refl
  · dsimp only
    refine .step (putKeySlot_changes ..) ?_ rfl
    exact .refl

theorem keyRead_changes (slot : Byte) (s : State) : Changes [] s (keyRead slot s).1 := by
  unfold keyRead
  try dsimp only
  refine .fst_ite ?_ ?_
  · dsimp only
    exact .refl
  · dsimp only
    exact .refl

theorem secZeroise_changes (level : Nat) (s : State) : Changes [.regs, .boot, .pipe, .plc, .rf, .sec, .evt] s (secZeroise level s).1 := by
  unfold secZeroise
  try dsimp only
  refine .fst_ite ?_ ?_
  · dsimp only
    refine .step (zeroise_changes ..) ?_ rfl
    exact .refl
  · dsimp only
    exact .refl

theorem regWriteAu_changes (off : Nat) (mask : W32) (v : W32) (s : State) : Changes [.deferred, .stalled, .regs, .setup, .lat, .win, .isl, .boot, .clusters, .table, .pipe, .rules, .bal, .camp, .plc, .rf, .eth, .relay, .tim, .pair, .jr, .host, .sec, .arch, .mea, .queues, .mon, .evt, .out, .draws] s (regWriteAu off mask v s).1 := by
  unfold regWriteAu
  try dsimp only
  refine .fst_ite ?_ ?_
  · refine .step (auWrite_changes ..) ?_ rfl
    refine .step (Changes.drawn ..) ?_ rfl
    exact .refl
  · refine .step (auWrite_changes ..) ?_ rfl
    exact .refl

theorem cmdBody_changes (h : Hdr) (c : Cmd) (s : State) : Changes [.deferred, .stalled, .regs, .setup, .lat, .win, .isl, .boot, .clusters, .table, .pipe, .rules, .bal, .camp, .plc, .rf, .eth, .relay, .tim, .pair, .jr, .host, .sec, .arch, .mea, .queues, .mon, .evt, .out, .draws] s (cmdBody h c s).1 := by
  unfold cmdBody
  try dsimp only
  split
  · refine .step (regRead_changes ..) ?_ rfl
    exact .refl
  · refine .step (regWriteAu_changes ..) ?_ rfl
    exact .refl
  · refine .step (keyLoad_changes ..) ?_ rfl
    exact .refl
  · refine .step (keyClear_changes ..) ?_ rfl
    exact .refl
  · refine .step (keyRead_changes ..) ?_ rfl
    exact .refl
  · refine .step (secZeroise_changes ..) ?_ rfl
    exact .refl
  · refine .step (tblRead_changes ..) ?_ rfl
    exact .refl
  · refine .step (tblFind_changes ..) ?_ rfl
    exact .refl
  · refine .step (tblDump_changes ..) ?_ rfl
    exact .refl
  · refine .step (tblWrite_changes ..) ?_ rfl
    exact .refl
  · refine .step (tblProvision_changes ..) ?_ rfl
    exact .refl
  · refine .step (tblKeyStage_changes ..) ?_ rfl
    exact .refl
  · refine .step (tblRetire_changes ..) ?_ rfl
    exact .refl
  · refine .step (tblSet_changes ..) ?_ rfl
    exact .refl
  · refine .step (keySignerLoad_changes ..) ?_ rfl
    exact .refl
  · refine .step (ruleLoad_changes ..) ?_ rfl
    exact .refl
  · refine .step (ruleMark_changes ..) ?_ rfl
    exact .refl
  · refine .step (ruleMark_changes ..) ?_ rfl
    exact .refl
  · refine .step (ruleRead_changes ..) ?_ rfl
    exact .refl
  · refine .step (topoLoad_changes ..) ?_ rfl
    exact .refl
  · refine .step (topoActivate_changes ..) ?_ rfl
    exact .refl
  · refine .step (topoRead_changes ..) ?_ rfl
    exact .refl
  · refine .step (balNodeRead_changes ..) ?_ rfl
    exact .refl
  · refine .step (balMeterRead_changes ..) ?_ rfl
    exact .refl
  · refine .step (balResetScores_changes ..) ?_ rfl
    exact .refl
  · refine .step (campCreate_changes ..) ?_ rfl
    exact .refl
  · refine .step (campData_changes ..) ?_ rfl
    exact .refl
  · refine .step (campSeal_changes ..) ?_ rfl
    exact .refl
  · refine .step (campAddMembers_changes ..) ?_ rfl
    exact .refl
  · refine .step (campRemoveMembers_changes ..) ?_ rfl
    exact .refl
  · refine .step (campStart_changes ..) ?_ rfl
    exact .refl
  · refine .step (campPause_changes ..) ?_ rfl
    exact .refl
  · refine .step (campCancel_changes ..) ?_ rfl
    exact .refl
  · refine .step (campClose_changes ..) ?_ rfl
    exact .refl
  · refine .step (campActivate_changes ..) ?_ rfl
    exact .refl
  · refine .step (campRollback_changes ..) ?_ rfl
    exact .refl
  · refine .step (campRead_changes ..) ?_ rfl
    exact .refl
  · refine .step (campMemberRead_changes ..) ?_ rfl
    exact .refl
  · refine .step (plcGmkRotate_changes ..) ?_ rfl
    exact .refl
  · refine .step (plcKick_changes ..) ?_ rfl
    exact .refl
  · refine .step (rfKeyRotate_changes ..) ?_ rfl
    exact .refl
  · refine .step (timStep_changes ..) ?_ rfl
    exact .refl
  · refine .step (pairRead_changes ..) ?_ rfl
    exact .refl
  · refine .step (pairSwap_changes ..) ?_ rfl
    exact .refl
  · refine .step (pairClear_changes ..) ?_ rfl
    exact .refl
  · refine .step (archInfo_changes ..) ?_ rfl
    exact .refl
  · refine .step (archRead_changes ..) ?_ rfl
    exact .refl
  · refine .step (archFindTime_changes ..) ?_ rfl
    exact .refl
  · refine .step (archTrim_changes ..) ?_ rfl
    exact .refl
  · refine .step (archOvfRead_changes ..) ?_ rfl
    exact .refl
  · refine .step (archOvfRelease_changes ..) ?_ rfl
    exact .refl
  · refine .step (archHostWrite_changes ..) ?_ rfl
    exact .refl
  · refine .step (archHostRead_changes ..) ?_ rfl
    exact .refl
  · refine .step (archFormat_changes ..) ?_ rfl
    exact .refl
  · refine .step (evtRead_changes ..) ?_ rfl
    exact .refl
  · refine .step (evtClear_changes ..) ?_ rfl
    exact .refl
  · refine .step (monRead_changes ..) ?_ rfl
    exact .refl
  · refine .step (monReset_changes ..) ?_ rfl
    exact .refl
  · refine .step (qRead_changes ..) ?_ rfl
    exact .refl
  · dsimp only
    exact .refl

theorem runCmd_changes (h : Hdr) (c : Cmd) (s : State) : Changes [.deferred, .stalled, .regs, .setup, .lat, .win, .isl, .boot, .clusters, .table, .pipe, .rules, .bal, .camp, .plc, .rf, .eth, .relay, .tim, .pair, .jr, .host, .sec, .arch, .mea, .queues, .mon, .evt, .out, .draws] s (runCmd h c s) := by
  unfold runCmd
  try dsimp only
  refine command_changes (fun _ _ => ?_) ?_ rfl
  · refine .step (cmdBody_changes ..) ?_ rfl
    assumption
  · exact .refl

theorem runFencedOf_step (n k : Nat) (s : State) (ih : ∀ (t : State), Changes [.deferred, .stalled, .regs, .setup, .lat, .win, .isl, .boot, .clusters, .table, .pipe, .rules, .bal, .camp, .plc, .rf, .eth, .relay, .tim, .pair, .jr, .host, .sec, .arch, .mea, .queues, .mon, .evt, .out, .draws] t (runFencedOf n k t)) : Changes [.deferred, .stalled, .regs, .setup, .lat, .win, .isl, .boot, .clusters, .table, .pipe, .rules, .bal, .camp, .plc, .rf, .eth, .relay, .tim, .pair, .jr, .host, .sec, .arch, .mea, .queues, .mon, .evt, .out, .draws] s (runFencedOf n (k+1) s) := by
  unfold runFencedOf
  try dsimp only
  split
  · exact .refl
  · refine .ite ?_ ?_
    · exact .refl
    · refine .step (ih ..) ?_ rfl
      refine .step (runCmd_changes ..) ?_ rfl
      refine .step (setHost_changes ..) ?_ rfl
      exact .refl

theorem runFencedOf_changes (n k : Nat) (s : State) : Changes [.deferred, .stalled, .regs, .setup, .lat, .win, .isl, .boot, .clusters, .table, .pipe, .rules, .bal, .camp, .plc, .rf, .eth, .relay, .tim, .pair, .jr, .host, .sec, .arch, .mea, .queues, .mon, .evt, .out, .draws] s (runFencedOf n k s) := by
  induction k generalizing s with
  | zero => simp only [runFencedOf]; exact .refl
  | succ k ih => exact runFencedOf_step (ih := fun t => ih (s := t)) ..

theorem runFenced_changes (s : State) : Changes [.deferred, .stalled, .regs, .setup, .lat, .win, .isl, .boot, .clusters, .table, .pipe, .rules, .bal, .camp, .plc, .rf, .eth, .relay, .tim, .pair, .jr, .host, .sec, .arch, .mea, .queues, .mon, .evt, .out, .draws] s (runFenced s) := by
  unfold runFenced
  try dsimp only
  refine .foldl (fun _ _ _ => ?_) ?_
  · refine .step (runFencedOf_changes ..) ?_ rfl
    assumption
  · exact .refl

theorem runStalled_changes (s : State) : Changes [.deferred, .stalled, .regs, .setup, .lat, .win, .isl, .boot, .clusters, .table, .pipe, .rules, .bal, .camp, .plc, .rf, .eth, .relay, .tim, .pair, .jr, .host, .sec, .arch, .mea, .queues, .mon, .evt, .out, .draws] s (runStalled s) := by
  unfold runStalled
  try dsimp only
  refine .foldl (fun _ _ _ => ?_) ?_
  · refine .ite ?_ ?_
    · refine .step (Changes.set_stalled ..) ?_ rfl
      assumption
    · refine .ite ?_ ?_
      · refine .step (complete_changes ..) ?_ rfl
        assumption
      · refine .step (replyAfter_changes ..) ?_ rfl
        refine .step (journalCounter_changes ..) ?_ rfl
        refine .step (cmdBody_changes ..) ?_ rfl
        assumption
  · refine .step (Changes.set_stalled ..) ?_ rfl
    exact .refl

theorem discoverAll_changes (s : State) : Changes [.regs, .plc, .jr, .out] s (discoverAll s) := by
  unfold discoverAll
  try dsimp only
  refine .foldl (fun _ _ _ => ?_) ?_
  · refine .step (plcDiscoverRun_changes ..) ?_ rfl
    assumption
  · exact .refl

theorem acksAll_changes (s : State) : Changes [.rf, .out] s (acksAll s) := by
  unfold acksAll
  try dsimp only
  refine .step (rfAcksDue_changes ..) ?_ rfl
  refine .step (rfAcksDue_changes ..) ?_ rfl
  exact .refl

theorem settleAll_changes (s : State) : Changes [.deferred, .stalled, .regs, .setup, .lat, .win, .isl, .boot, .clusters, .table, .pipe, .rules, .bal, .camp, .plc, .rf, .eth, .relay, .tim, .pair, .jr, .host, .sec, .arch, .mea, .queues, .mon, .evt, .out, .draws] s (settleAll s) := by
  unfold settleAll
  try dsimp only
  refine .step (acksAll_changes ..) ?_ rfl
  refine .step (discoverAll_changes ..) ?_ rfl
  refine .step (settleClears_changes ..) ?_ rfl
  refine .step (runFenced_changes ..) ?_ rfl
  refine .step (runStalled_changes ..) ?_ rfl
  refine .step (runLate_changes ..) ?_ rfl
  refine .step (drainDelayed_changes ..) ?_ rfl
  exact .refl

theorem fetchCmd_changes (n : Nat) (d : CmdDesc) (s : State) : Changes [.deferred, .stalled, .regs, .setup, .lat, .win, .isl, .boot, .clusters, .table, .pipe, .rules, .bal, .camp, .plc, .rf, .eth, .relay, .tim, .pair, .jr, .host, .sec, .arch, .mea, .queues, .mon, .evt, .out, .draws] s (fetchCmd n d s) := by
  unfold fetchCmd
  try dsimp only
  refine .ite ?_ ?_
  · refine .step (cmdDone_changes ..) ?_ rfl
    refine .step (startInFlight_changes ..) ?_ rfl
    refine .step (count_changes _ _ rfl) ?_ rfl
    refine .step (emit_changes ..) ?_ rfl
    refine .step (setSq_changes ..) ?_ rfl
    exact .refl
  · refine .ite ?_ ?_
    · refine .step (setHost_changes ..) ?_ rfl
      refine .step (count_changes _ _ rfl) ?_ rfl
      refine .step (emit_changes ..) ?_ rfl
      refine .step (setSq_changes ..) ?_ rfl
      exact .refl
    · refine .step (runCmd_changes ..) ?_ rfl
      refine .step (count_changes _ _ rfl) ?_ rfl
      refine .step (emit_changes ..) ?_ rfl
      refine .step (setSq_changes ..) ?_ rfl
      exact .refl

theorem fetchCmds_step (n : Nat) (x : CmdDesc) (l : List CmdDesc) (s : State) (ih : ∀ (t : State), Changes [.deferred, .stalled, .regs, .setup, .lat, .win, .isl, .boot, .clusters, .table, .pipe, .rules, .bal, .camp, .plc, .rf, .eth, .relay, .tim, .pair, .jr, .host, .sec, .arch, .mea, .queues, .mon, .evt, .out, .draws] t (fetchCmds n l t)) : Changes [.deferred, .stalled, .regs, .setup, .lat, .win, .isl, .boot, .clusters, .table, .pipe, .rules, .bal, .camp, .plc, .rf, .eth, .relay, .tim, .pair, .jr, .host, .sec, .arch, .mea, .queues, .mon, .evt, .out, .draws] s (fetchCmds n (x :: l) s) := by
  unfold fetchCmds
  try dsimp only
  refine .ite ?_ ?_
  · refine .step (ih ..) ?_ rfl
    refine .step (fetchCmd_changes ..) ?_ rfl
    exact .refl
  · exact .refl

theorem fetchCmds_changes (n : Nat) (l : List CmdDesc) (s : State) : Changes [.deferred, .stalled, .regs, .setup, .lat, .win, .isl, .boot, .clusters, .table, .pipe, .rules, .bal, .camp, .plc, .rf, .eth, .relay, .tim, .pair, .jr, .host, .sec, .arch, .mea, .queues, .mon, .evt, .out, .draws] s (fetchCmds n l s) := by
  induction l generalizing s with
  | nil => simp only [fetchCmds]; exact .refl
  | cons x l ih => exact fetchCmds_step (ih := fun t => ih (s := t)) ..

theorem fetchBufs_changes (n : Nat) (w : BitVec 16) (l : List BufDesc) (s : State) : Changes [.regs, .jr, .host, .out] s (fetchBufs n w l s) := by
  unfold fetchBufs
  try dsimp only
  refine .ite ?_ ?_
  · refine .step (setSq_changes ..) ?_ rfl
    exact .refl
  · refine .step (runFrames_changes ..) ?_ rfl
    refine .step (setSq_changes ..) ?_ rfl
    exact .refl

theorem pollSq_changes (n : Nat) (w : BitVec 16) (s : State) : Changes [.regs, .jr, .host, .evt, .out] s (pollSq n w s) := by
  unfold pollSq
  try dsimp only
  refine .ite ?_ ?_
  · exact .refl
  · refine .ite ?_ ?_
    · refine .step (ringFault_changes ..) ?_ rfl
      exact .refl
    · refine .ite ?_ ?_
      · exact .refl
      · refine .step (setSq_changes ..) ?_ rfl
        exact .refl

theorem pollCq_changes (n : Nat) (w : BitVec 16) (s : State) : Changes [.regs, .jr, .host, .evt, .out] s (pollCq n w s) := by
  unfold pollCq
  try dsimp only
  split
  · exact .refl
  · refine .ite ?_ ?_
    · refine .step (ringFault_changes ..) ?_ rfl
      exact .refl
    · refine .step (cqDrain_changes ..) ?_ rfl
      refine .step (setCq_changes ..) ?_ rfl
      exact .refl

theorem pollFetch_changes (n : Nat) (w : BitVec 16) (cmds : List CmdDesc) (bufs : List BufDesc) (s : State) : Changes [.deferred, .stalled, .regs, .setup, .lat, .win, .isl, .boot, .clusters, .table, .pipe, .rules, .bal, .camp, .plc, .rf, .eth, .relay, .tim, .pair, .jr, .host, .sec, .arch, .mea, .queues, .mon, .evt, .out, .draws] s (pollFetch n w cmds bufs s) := by
  unfold pollFetch
  try dsimp only
  refine .ite ?_ ?_
  · exact .refl
  · refine .ite ?_ ?_
    · refine .step (fetchBufs_changes ..) ?_ rfl
      exact .refl
    · refine .step (fetchCmds_changes ..) ?_ rfl
      exact .refl

theorem pollRate_changes (words : List (BitVec 16)) (s : State) : Changes [.host] s (pollRate words s) := by
  unfold pollRate
  try dsimp only
  refine .ite ?_ ?_
  · refine .step (setHost_changes ..) ?_ rfl
    exact .refl
  · refine .ite ?_ ?_
    · refine .step (setHost_changes ..) ?_ rfl
      exact .refl
    · exact .refl

theorem doorbellPoll_changes (words : List (BitVec 16)) (cmds : Kv (List CmdDesc)) (bufs : Kv (List BufDesc)) (s : State) : Changes [.deferred, .stalled, .regs, .setup, .lat, .win, .isl, .boot, .clusters, .table, .pipe, .rules, .bal, .camp, .plc, .rf, .eth, .relay, .tim, .pair, .jr, .host, .sec, .arch, .mea, .queues, .mon, .evt, .out, .draws] s (doorbellPoll words cmds bufs s) := by
  unfold doorbellPoll
  try dsimp only
  refine .ite ?_ ?_
  · exact .refl
  · refine .step (settleAll_changes ..) ?_ rfl
    refine .foldl (fun _ _ _ => ?_) ?_
    · refine .step (pollFetch_changes ..) ?_ rfl
      assumption
    · refine .foldl (fun _ _ _ => ?_) ?_
      · refine .step (pollCq_changes ..) ?_ rfl
        assumption
      · refine .foldl (fun _ _ _ => ?_) ?_
        · refine .step (pollSq_changes ..) ?_ rfl
          assumption
        · refine .step (pollRate_changes ..) ?_ rfl
          exact .refl

theorem mgmtDatagram_changes (port : Bool) (h : Hdr) (c : Cmd) (s : State) : Changes [.deferred, .stalled, .regs, .setup, .lat, .win, .isl, .boot, .clusters, .table, .pipe, .rules, .bal, .camp, .plc, .rf, .eth, .relay, .tim, .pair, .jr, .host, .sec, .arch, .mea, .queues, .mon, .evt, .out, .draws] s (mgmtDatagram port h c s) := by
  unfold mgmtDatagram
  try dsimp only
  refine .step (runCmd_changes ..) ?_ rfl
  exact .refl

theorem runDeferred_changes (s : State) : Changes [.deferred, .stalled, .regs, .setup, .lat, .win, .isl, .boot, .clusters, .table, .pipe, .rules, .bal, .camp, .plc, .rf, .eth, .relay, .tim, .pair, .jr, .host, .sec, .arch, .mea, .queues, .mon, .evt, .out, .draws] s (runDeferred s) := by
  unfold runDeferred
  try dsimp only
  split
  · exact .refl
  · refine .step (runCmd_changes ..) ?_ rfl
    refine .step (Changes.set_deferred ..) ?_ rfl
    exact .refl

theorem advance_changes (ns : Nat) (s : State) : Changes [.tim, .pair] s (advance ns s) := by
  unfold advance
  try dsimp only
  refine .step (setPair_changes ..) ?_ rfl
  refine .step (setTim_changes ..) ?_ rfl
  exact .refl

theorem tick_changes (s : State) : Changes [.regs, .eth, .tim, .pair, .host, .out] s (tick s) := by
  unfold tick
  try dsimp only
  refine .ite ?_ ?_
  · exact .refl
  · refine .step (txNext_changes ..) ?_ rfl
    refine .step (txNext_changes ..) ?_ rfl
    refine .step (advance_changes ..) ?_ rfl
    exact .refl

theorem idle_changes (s : State) : Changes [.deferred, .stalled, .regs, .setup, .lat, .win, .isl, .boot, .clusters, .table, .pipe, .rules, .bal, .camp, .plc, .rf, .eth, .relay, .tim, .pair, .jr, .host, .sec, .arch, .mea, .queues, .mon, .evt, .out, .draws] s (idle s) := by
  unfold idle
  try dsimp only
  refine .step (tick_changes ..) ?_ rfl
  refine .step (settleAll_changes ..) ?_ rfl
  refine .step (runDeferred_changes ..) ?_ rfl
  exact .refl

end Sys2Proof.Machine
end

