-- ==== Sys2Proof/Laws/ChangesRows.lean ====
section
/-!
SUPPORT. Sys2Proof/Laws/ChangesRows.lean: what each operation may change: each command of the table.
-/
namespace Sys2Proof.Machine

theorem execRegRead_changes (h : Hdr) (off : Nat) (count : Nat) (s : State) (s' : State) (e : execRegRead h off count s = .next s') : Changes [.stalled, .regs, .lat, .win, .isl, .eth, .pair, .jr, .host, .sec, .evt, .out] s s' := by
  unfold execRegRead at e
  obtain rfl := Host.Outcome.next.inj e
  refine command_changes (fun _ _ => ?_) ?_ rfl
  · refine .step (regRead_changes ..) ?_ rfl
    assumption
  · exact .refl

theorem execRegWriteAu_changes (h : Hdr) (off : Nat) (mask : W32) (value : W32) (s : State) (s' : State) (e : execRegWriteAu h off mask value s = .next s') : Changes [.deferred, .stalled, .regs, .setup, .lat, .win, .isl, .boot, .clusters, .table, .pipe, .rules, .bal, .camp, .plc, .rf, .eth, .relay, .tim, .pair, .jr, .host, .sec, .arch, .mea, .queues, .mon, .evt, .out, .draws] s s' := by
  unfold execRegWriteAu at e
  obtain rfl := Host.Outcome.next.inj e
  refine command_changes (fun _ _ => ?_) ?_ rfl
  · refine .step (regWriteAu_changes ..) ?_ rfl
    assumption
  · exact .refl

theorem execKeyLoad_changes (h : Hdr) (slot : Byte) (perms : BitVec 16) (key : Wrapped) (s : State) (s' : State) (e : execKeyLoad h slot perms key s = .next s') : Changes [.stalled, .regs, .win, .isl, .eth, .pair, .jr, .host, .sec, .evt, .out] s s' := by
  unfold execKeyLoad at e
  obtain rfl := Host.Outcome.next.inj e
  refine command_changes (fun _ _ => ?_) ?_ rfl
  · refine .step (keyLoad_changes ..) ?_ rfl
    assumption
  · exact .refl

theorem execKeyClear_changes (h : Hdr) (slot : Byte) (s : State) (s' : State) (e : execKeyClear h slot s = .next s') : Changes [.stalled, .regs, .win, .isl, .eth, .pair, .jr, .host, .sec, .evt, .out] s s' := by
  unfold execKeyClear at e
  obtain rfl := Host.Outcome.next.inj e
  refine command_changes (fun _ _ => ?_) ?_ rfl
  · refine .step (keyClear_changes ..) ?_ rfl
    assumption
  · exact .refl

theorem execKeyRead_changes (h : Hdr) (slot : Byte) (s : State) (s' : State) (e : execKeyRead h slot s = .next s') : Changes [.stalled, .regs, .win, .isl, .eth, .pair, .jr, .host, .sec, .evt, .out] s s' := by
  unfold execKeyRead at e
  obtain rfl := Host.Outcome.next.inj e
  refine command_changes (fun _ _ => ?_) ?_ rfl
  · refine .step (keyRead_changes ..) ?_ rfl
    assumption
  · exact .refl

theorem execSecZeroise_changes (h : Hdr) (level : Nat) (s : State) (s' : State) (e : execSecZeroise h level s = .next s') : Changes [.stalled, .regs, .win, .isl, .boot, .pipe, .plc, .rf, .eth, .pair, .jr, .host, .sec, .evt, .out] s s' := by
  unfold execSecZeroise at e
  obtain rfl := Host.Outcome.next.inj e
  refine command_changes (fun _ _ => ?_) ?_ rfl
  · refine .step (secZeroise_changes ..) ?_ rfl
    assumption
  · exact .refl

theorem execTblRead_changes (h : Hdr) (slot : Nat) (s : State) (s' : State) (e : execTblRead h slot s = .next s') : Changes [.stalled, .regs, .win, .isl, .eth, .pair, .jr, .host, .sec, .evt, .out] s s' := by
  unfold execTblRead at e
  obtain rfl := Host.Outcome.next.inj e
  refine command_changes (fun _ _ => ?_) ?_ rfl
  · refine .step (tblRead_changes ..) ?_ rfl
    assumption
  · exact .refl

theorem execTblFind_changes (h : Hdr) (title : W64) (s : State) (s' : State) (e : execTblFind h title s = .next s') : Changes [.stalled, .regs, .win, .isl, .eth, .pair, .jr, .host, .sec, .evt, .out] s s' := by
  unfold execTblFind at e
  obtain rfl := Host.Outcome.next.inj e
  refine command_changes (fun _ _ => ?_) ?_ rfl
  · refine .step (tblFind_changes ..) ?_ rfl
    assumption
  · exact .refl

theorem execTblDump_changes (h : Hdr) (first : Nat) (count : Nat) (s : State) (s' : State) (e : execTblDump h first count s = .next s') : Changes [.stalled, .regs, .win, .isl, .eth, .pair, .jr, .host, .sec, .evt, .out] s s' := by
  unfold execTblDump at e
  obtain rfl := Host.Outcome.next.inj e
  refine command_changes (fun _ _ => ?_) ?_ rfl
  · refine .step (tblDump_changes ..) ?_ rfl
    assumption
  · exact .refl

theorem execTblWrite_changes (h : Hdr) (slot : Nat) (expect : W32) (mask : BitVec 256) (image : RecImg) (s : State) (s' : State) (e : execTblWrite h slot expect mask image s = .next s') : Changes [.stalled, .regs, .win, .isl, .table, .eth, .pair, .jr, .host, .sec, .evt, .out] s s' := by
  unfold execTblWrite at e
  obtain rfl := Host.Outcome.next.inj e
  refine command_changes (fun _ _ => ?_) ?_ rfl
  · refine .step (tblWrite_changes ..) ?_ rfl
    assumption
  · exact .refl

theorem execTblProvision_changes (h : Hdr) (title : W64) (gen : Byte) (window : Byte) (ruleSet : BitVec 16) (service : BitVec 12) (ek : Wrapped) (ak : Wrapped) (s : State) (s' : State) (e : execTblProvision h title gen window ruleSet service ek ak s = .next s') : Changes [.stalled, .regs, .win, .isl, .table, .eth, .pair, .jr, .host, .sec, .evt, .out] s s' := by
  unfold execTblProvision at e
  obtain rfl := Host.Outcome.next.inj e
  refine command_changes (fun _ _ => ?_) ?_ rfl
  · refine .step (tblProvision_changes ..) ?_ rfl
    assumption
  · exact .refl

theorem execTblKeyStage_changes (h : Hdr) (slot : Nat) (gen : Byte) (ek : Wrapped) (ak : Wrapped) (s : State) (s' : State) (e : execTblKeyStage h slot gen ek ak s = .next s') : Changes [.stalled, .regs, .win, .isl, .table, .eth, .pair, .jr, .host, .sec, .evt, .out] s s' := by
  unfold execTblKeyStage at e
  obtain rfl := Host.Outcome.next.inj e
  refine command_changes (fun _ _ => ?_) ?_ rfl
  · refine .step (tblKeyStage_changes ..) ?_ rfl
    assumption
  · exact .refl

theorem execTblRetire_changes (h : Hdr) (slot : Nat) (s : State) (s' : State) (e : execTblRetire h slot s = .next s') : Changes [.stalled, .regs, .win, .isl, .table, .pipe, .camp, .plc, .eth, .relay, .pair, .jr, .host, .sec, .evt, .out] s s' := by
  unfold execTblRetire at e
  obtain rfl := Host.Outcome.next.inj e
  refine command_changes (fun _ _ => ?_) ?_ rfl
  · refine .step (tblRetire_changes ..) ?_ rfl
    assumption
  · exact .refl

theorem execTblSet_changes (h : Hdr) (slot : Nat) (expect : W32) (mask : BitVec 256) (image : RecImg) (s : State) (s' : State) (e : execTblSet h slot expect mask image s = .next s') : Changes [.stalled, .regs, .win, .isl, .table, .pipe, .camp, .plc, .eth, .relay, .pair, .jr, .host, .sec, .evt, .out] s s' := by
  unfold execTblSet at e
  obtain rfl := Host.Outcome.next.inj e
  refine command_changes (fun _ _ => ?_) ?_ rfl
  · refine .step (tblSet_changes ..) ?_ rfl
    assumption
  · exact .refl

theorem execKeySignerLoad_changes (h : Hdr) (slot : Nat) (curve : Nat) (key : BitVec 768) (s : State) (s' : State) (e : execKeySignerLoad h slot curve key s = .next s') : Changes [.stalled, .regs, .win, .isl, .eth, .pair, .jr, .host, .sec, .evt, .out] s s' := by
  unfold execKeySignerLoad at e
  obtain rfl := Host.Outcome.next.inj e
  refine command_changes (fun _ _ => ?_) ?_ rfl
  · refine .step (keySignerLoad_changes ..) ?_ rfl
    assumption
  · exact .refl

theorem execRuleLoad_changes (h : Hdr) (image : List Byte) (s : State) (s' : State) (e : execRuleLoad h image s = .next s') : Changes [.stalled, .regs, .win, .isl, .rules, .eth, .pair, .jr, .host, .sec, .evt, .out] s s' := by
  unfold execRuleLoad at e
  obtain rfl := Host.Outcome.next.inj e
  refine command_changes (fun _ _ => ?_) ?_ rfl
  · refine .step (ruleLoad_changes ..) ?_ rfl
    assumption
  · exact .refl

theorem execRuleActivate_changes (h : Hdr) (sets : List Nat) (s : State) (s' : State) (e : execRuleActivate h sets s = .next s') : Changes [.stalled, .regs, .win, .isl, .rules, .eth, .pair, .jr, .host, .sec, .evt, .out] s s' := by
  unfold execRuleActivate at e
  obtain rfl := Host.Outcome.next.inj e
  refine command_changes (fun _ _ => ?_) ?_ rfl
  · refine .step (ruleMark_changes ..) ?_ rfl
    assumption
  · exact .refl

theorem execRuleRemove_changes (h : Hdr) (sets : List Nat) (s : State) (s' : State) (e : execRuleRemove h sets s = .next s') : Changes [.stalled, .regs, .win, .isl, .rules, .eth, .pair, .jr, .host, .sec, .evt, .out] s s' := by
  unfold execRuleRemove at e
  obtain rfl := Host.Outcome.next.inj e
  refine command_changes (fun _ _ => ?_) ?_ rfl
  · refine .step (ruleMark_changes ..) ?_ rfl
    assumption
  · exact .refl

theorem execRuleRead_changes (h : Hdr) (set : Nat) (s : State) (s' : State) (e : execRuleRead h set s = .next s') : Changes [.stalled, .regs, .win, .isl, .eth, .pair, .jr, .host, .sec, .evt, .out] s s' := by
  unfold execRuleRead at e
  obtain rfl := Host.Outcome.next.inj e
  refine command_changes (fun _ _ => ?_) ?_ rfl
  · refine .step (ruleRead_changes ..) ?_ rfl
    assumption
  · exact .refl

theorem execTopoLoad_changes (h : Hdr) (nodes : List Node) (s : State) (s' : State) (e : execTopoLoad h nodes s = .next s') : Changes [.stalled, .regs, .win, .isl, .bal, .eth, .pair, .jr, .host, .sec, .evt, .out] s s' := by
  unfold execTopoLoad at e
  obtain rfl := Host.Outcome.next.inj e
  refine command_changes (fun _ _ => ?_) ?_ rfl
  · refine .step (topoLoad_changes ..) ?_ rfl
    assumption
  · exact .refl

theorem execTopoActivate_changes (h : Hdr) (s : State) (s' : State) (e : execTopoActivate h s = .next s') : Changes [.stalled, .regs, .win, .isl, .bal, .eth, .pair, .jr, .host, .sec, .evt, .out] s s' := by
  unfold execTopoActivate at e
  obtain rfl := Host.Outcome.next.inj e
  refine command_changes (fun _ _ => ?_) ?_ rfl
  · refine .step (topoActivate_changes ..) ?_ rfl
    assumption
  · exact .refl

theorem execTopoRead_changes (h : Hdr) (bank : Nat) (first : Nat) (count : Nat) (s : State) (s' : State) (e : execTopoRead h bank first count s = .next s') : Changes [.stalled, .regs, .win, .isl, .eth, .pair, .jr, .host, .sec, .evt, .out] s s' := by
  unfold execTopoRead at e
  obtain rfl := Host.Outcome.next.inj e
  refine command_changes (fun _ _ => ?_) ?_ rfl
  · refine .step (topoRead_changes ..) ?_ rfl
    assumption
  · exact .refl

theorem execBalNodeRead_changes (h : Hdr) (node : Nat) (s : State) (s' : State) (e : execBalNodeRead h node s = .next s') : Changes [.stalled, .regs, .win, .isl, .eth, .pair, .jr, .host, .sec, .evt, .out] s s' := by
  unfold execBalNodeRead at e
  obtain rfl := Host.Outcome.next.inj e
  refine command_changes (fun _ _ => ?_) ?_ rfl
  · refine .step (balNodeRead_changes ..) ?_ rfl
    assumption
  · exact .refl

theorem execBalMeterRead_changes (h : Hdr) (slot : Nat) (s : State) (s' : State) (e : execBalMeterRead h slot s = .next s') : Changes [.stalled, .regs, .win, .isl, .eth, .pair, .jr, .host, .sec, .evt, .out] s s' := by
  unfold execBalMeterRead at e
  obtain rfl := Host.Outcome.next.inj e
  refine command_changes (fun _ _ => ?_) ?_ rfl
  · refine .step (balMeterRead_changes ..) ?_ rfl
    assumption
  · exact .refl

theorem execBalResetScores_changes (h : Hdr) (kind : Nat) (ids : List Nat) (s : State) (s' : State) (e : execBalResetScores h kind ids s = .next s') : Changes [.stalled, .regs, .win, .isl, .table, .bal, .eth, .pair, .jr, .host, .sec, .evt, .out] s s' := by
  unfold execBalResetScores at e
  obtain rfl := Host.Outcome.next.inj e
  refine command_changes (fun _ _ => ?_) ?_ rfl
  · refine .step (balResetScores_changes ..) ?_ rfl
    assumption
  · exact .refl

theorem execCampCreate_changes (h : Hdr) (m : Manifest) (s : State) (s' : State) (e : execCampCreate h m s = .next s') : Changes [.stalled, .regs, .win, .isl, .camp, .eth, .pair, .jr, .host, .sec, .evt, .out] s s' := by
  unfold execCampCreate at e
  obtain rfl := Host.Outcome.next.inj e
  refine command_changes (fun _ _ => ?_) ?_ rfl
  · refine .step (campCreate_changes ..) ?_ rfl
    assumption
  · exact .refl

theorem execCampData_changes (h : Hdr) (slot : Nat) (off : Nat) (data : List Byte) (s : State) (s' : State) (e : execCampData h slot off data s = .next s') : Changes [.stalled, .regs, .win, .isl, .camp, .eth, .pair, .jr, .host, .sec, .evt, .out] s s' := by
  unfold execCampData at e
  obtain rfl := Host.Outcome.next.inj e
  refine command_changes (fun _ _ => ?_) ?_ rfl
  · refine .step (campData_changes ..) ?_ rfl
    assumption
  · exact .refl

theorem execCampSeal_changes (h : Hdr) (slot : Nat) (s : State) (s' : State) (e : execCampSeal h slot s = .next s') : Changes [.stalled, .regs, .win, .isl, .camp, .eth, .pair, .jr, .host, .sec, .evt, .out] s s' := by
  unfold execCampSeal at e
  obtain rfl := Host.Outcome.next.inj e
  refine command_changes (fun _ _ => ?_) ?_ rfl
  · refine .step (campSeal_changes ..) ?_ rfl
    assumption
  · exact .refl

theorem execCampAddMembers_changes (h : Hdr) (slot : Nat) (slots : List Nat) (s : State) (s' : State) (e : execCampAddMembers h slot slots s = .next s') : Changes [.stalled, .regs, .win, .isl, .table, .camp, .eth, .relay, .pair, .jr, .host, .sec, .evt, .out] s s' := by
  unfold execCampAddMembers at e
  obtain rfl := Host.Outcome.next.inj e
  refine command_changes (fun _ _ => ?_) ?_ rfl
  · refine .step (campAddMembers_changes ..) ?_ rfl
    assumption
  · exact .refl

theorem execCampRemoveMembers_changes (h : Hdr) (slot : Nat) (slots : List Nat) (s : State) (s' : State) (e : execCampRemoveMembers h slot slots s = .next s') : Changes [.stalled, .regs, .win, .isl, .table, .camp, .eth, .relay, .pair, .jr, .host, .sec, .evt, .out] s s' := by
  unfold execCampRemoveMembers at e
  obtain rfl := Host.Outcome.next.inj e
  refine command_changes (fun _ _ => ?_) ?_ rfl
  · refine .step (campRemoveMembers_changes ..) ?_ rfl
    assumption
  · exact .refl

theorem execCampStart_changes (h : Hdr) (slot : Nat) (s : State) (s' : State) (e : execCampStart h slot s = .next s') : Changes [.stalled, .regs, .win, .isl, .camp, .eth, .relay, .pair, .jr, .host, .sec, .evt, .out] s s' := by
  unfold execCampStart at e
  obtain rfl := Host.Outcome.next.inj e
  refine command_changes (fun _ _ => ?_) ?_ rfl
  · refine .step (campStart_changes ..) ?_ rfl
    assumption
  · exact .refl

theorem execCampPause_changes (h : Hdr) (slot : Nat) (s : State) (s' : State) (e : execCampPause h slot s = .next s') : Changes [.stalled, .regs, .win, .isl, .camp, .eth, .relay, .pair, .jr, .host, .sec, .evt, .out] s s' := by
  unfold execCampPause at e
  obtain rfl := Host.Outcome.next.inj e
  refine command_changes (fun _ _ => ?_) ?_ rfl
  · refine .step (campPause_changes ..) ?_ rfl
    assumption
  · exact .refl

theorem execCampCancel_changes (h : Hdr) (slot : Nat) (s : State) (s' : State) (e : execCampCancel h slot s = .next s') : Changes [.stalled, .regs, .win, .isl, .table, .camp, .eth, .relay, .pair, .jr, .host, .sec, .evt, .out] s s' := by
  unfold execCampCancel at e
  obtain rfl := Host.Outcome.next.inj e
  refine command_changes (fun _ _ => ?_) ?_ rfl
  · refine .step (campCancel_changes ..) ?_ rfl
    assumption
  · exact .refl

theorem execCampClose_changes (h : Hdr) (slot : Nat) (s : State) (s' : State) (e : execCampClose h slot s = .next s') : Changes [.stalled, .regs, .win, .isl, .table, .camp, .eth, .relay, .pair, .jr, .host, .sec, .evt, .out] s s' := by
  unfold execCampClose at e
  obtain rfl := Host.Outcome.next.inj e
  refine command_changes (fun _ _ => ?_) ?_ rfl
  · refine .step (campClose_changes ..) ?_ rfl
    assumption
  · exact .refl

theorem execCampActivate_changes (h : Hdr) (slot : Nat) (r : ActRec) (s : State) (s' : State) (e : execCampActivate h slot r s = .next s') : Changes [.stalled, .regs, .win, .isl, .camp, .eth, .relay, .pair, .jr, .host, .sec, .evt, .out] s s' := by
  unfold execCampActivate at e
  obtain rfl := Host.Outcome.next.inj e
  refine command_changes (fun _ _ => ?_) ?_ rfl
  · refine .step (campActivate_changes ..) ?_ rfl
    assumption
  · exact .refl

theorem execCampRollback_changes (h : Hdr) (slot : Nat) (r : ActRec) (s : State) (s' : State) (e : execCampRollback h slot r s = .next s') : Changes [.stalled, .regs, .win, .isl, .camp, .eth, .relay, .pair, .jr, .host, .sec, .evt, .out] s s' := by
  unfold execCampRollback at e
  obtain rfl := Host.Outcome.next.inj e
  refine command_changes (fun _ _ => ?_) ?_ rfl
  · refine .step (campRollback_changes ..) ?_ rfl
    assumption
  · exact .refl

theorem execCampRead_changes (h : Hdr) (slot : Nat) (s : State) (s' : State) (e : execCampRead h slot s = .next s') : Changes [.stalled, .regs, .win, .isl, .eth, .pair, .jr, .host, .sec, .evt, .out] s s' := by
  unfold execCampRead at e
  obtain rfl := Host.Outcome.next.inj e
  refine command_changes (fun _ _ => ?_) ?_ rfl
  · refine .step (campRead_changes ..) ?_ rfl
    assumption
  · exact .refl

theorem execCampMemberRead_changes (h : Hdr) (slot : Nat) (first : Nat) (count : Nat) (s : State) (s' : State) (e : execCampMemberRead h slot first count s = .next s') : Changes [.stalled, .regs, .win, .isl, .eth, .pair, .jr, .host, .sec, .evt, .out] s s' := by
  unfold execCampMemberRead at e
  obtain rfl := Host.Outcome.next.inj e
  refine command_changes (fun _ _ => ?_) ?_ rfl
  · refine .step (campMemberRead_changes ..) ?_ rfl
    assumption
  · exact .refl

theorem execPlcGmkRotate_changes (h : Hdr) (inst : Nat) (s : State) (s' : State) (e : execPlcGmkRotate h inst s = .next s') : Changes [.stalled, .regs, .win, .isl, .plc, .eth, .pair, .jr, .host, .sec, .evt, .out, .draws] s s' := by
  unfold execPlcGmkRotate at e
  obtain rfl := Host.Outcome.next.inj e
  refine command_changes (fun _ _ => ?_) ?_ rfl
  · refine .step (plcGmkRotate_changes ..) ?_ rfl
    assumption
  · exact .refl

theorem execPlcKick_changes (h : Hdr) (inst : Nat) (short : Nat) (s : State) (s' : State) (e : execPlcKick h inst short s = .next s') : Changes [.stalled, .regs, .win, .isl, .plc, .eth, .pair, .jr, .host, .sec, .evt, .out] s s' := by
  unfold execPlcKick at e
  obtain rfl := Host.Outcome.next.inj e
  refine command_changes (fun _ _ => ?_) ?_ rfl
  · refine .step (plcKick_changes ..) ?_ rfl
    assumption
  · exact .refl

theorem execRfKeyRotate_changes (h : Hdr) (rf : Nat) (s : State) (s' : State) (e : execRfKeyRotate h rf s = .next s') : Changes [.stalled, .regs, .win, .isl, .rf, .eth, .pair, .jr, .host, .sec, .evt, .out, .draws] s s' := by
  unfold execRfKeyRotate at e
  obtain rfl := Host.Outcome.next.inj e
  refine command_changes (fun _ _ => ?_) ?_ rfl
  · refine .step (rfKeyRotate_changes ..) ?_ rfl
    assumption
  · exact .refl

theorem execTimStep_changes (h : Hdr) (mode : Nat) (sec : Nat) (ns : Nat) (s : State) (s' : State) (e : execTimStep h mode sec ns s = .next s') : Changes [.stalled, .regs, .win, .isl, .bal, .camp, .plc, .eth, .relay, .tim, .pair, .jr, .host, .sec, .mea, .evt, .out] s s' := by
  unfold execTimStep at e
  obtain rfl := Host.Outcome.next.inj e
  refine command_changes (fun _ _ => ?_) ?_ rfl
  · refine .step (timStep_changes ..) ?_ rfl
    assumption
  · exact .refl

theorem execPairRead_changes (h : Hdr) (s : State) (s' : State) (e : execPairRead h s = .next s') : Changes [.stalled, .regs, .win, .isl, .eth, .pair, .jr, .host, .sec, .evt, .out] s s' := by
  unfold execPairRead at e
  obtain rfl := Host.Outcome.next.inj e
  refine command_changes (fun _ _ => ?_) ?_ rfl
  · refine .step (pairRead_changes ..) ?_ rfl
    assumption
  · exact .refl

theorem execPairSwap_changes (h : Hdr) (s : State) (s' : State) (e : execPairSwap h s = .next s') : Changes [.stalled, .regs, .win, .isl, .rf, .eth, .relay, .pair, .jr, .host, .sec, .evt, .out, .draws] s s' := by
  unfold execPairSwap at e
  obtain rfl := Host.Outcome.next.inj e
  refine command_changes (fun _ _ => ?_) ?_ rfl
  · refine .step (pairSwap_changes ..) ?_ rfl
    assumption
  · exact .refl

theorem execPairClear_changes (h : Hdr) (s : State) (s' : State) (e : execPairClear h s = .next s') : Changes [.stalled, .regs, .win, .isl, .eth, .pair, .jr, .host, .sec, .evt, .out] s s' := by
  unfold execPairClear at e
  obtain rfl := Host.Outcome.next.inj e
  refine command_changes (fun _ _ => ?_) ?_ rfl
  · refine .step (pairClear_changes ..) ?_ rfl
    assumption
  · exact .refl

theorem execArchInfo_changes (h : Hdr) (s : State) (s' : State) (e : execArchInfo h s = .next s') : Changes [.stalled, .regs, .win, .isl, .eth, .pair, .jr, .host, .sec, .evt, .out] s s' := by
  unfold execArchInfo at e
  obtain rfl := Host.Outcome.next.inj e
  refine command_changes (fun _ _ => ?_) ?_ rfl
  · refine .step (archInfo_changes ..) ?_ rfl
    assumption
  · exact .refl

theorem execArchRead_changes (h : Hdr) (first : W64) (count : Nat) (media : List Media) (s : State) (s' : State) (e : execArchRead h first count media s = .next s') : Changes [.stalled, .regs, .win, .isl, .eth, .pair, .jr, .host, .sec, .arch, .evt, .out] s s' := by
  unfold execArchRead at e
  obtain rfl := Host.Outcome.next.inj e
  refine command_changes (fun _ _ => ?_) ?_ rfl
  · refine .step (archRead_changes ..) ?_ rfl
    assumption
  · exact .refl

theorem execArchFindTime_changes (h : Hdr) (t : W64) (s : State) (s' : State) (e : execArchFindTime h t s = .next s') : Changes [.stalled, .regs, .win, .isl, .eth, .pair, .jr, .host, .sec, .evt, .out] s s' := by
  unfold execArchFindTime at e
  obtain rfl := Host.Outcome.next.inj e
  refine command_changes (fun _ _ => ?_) ?_ rfl
  · refine .step (archFindTime_changes ..) ?_ rfl
    assumption
  · exact .refl

theorem execArchTrim_changes (h : Hdr) (upto : W64) (s : State) (s' : State) (e : execArchTrim h upto s = .next s') : Changes [.stalled, .regs, .win, .isl, .eth, .pair, .jr, .host, .sec, .arch, .evt, .out] s s' := by
  unfold execArchTrim at e
  obtain rfl := Host.Outcome.next.inj e
  refine command_changes (fun _ _ => ?_) ?_ rfl
  · refine .step (archTrim_changes ..) ?_ rfl
    assumption
  · exact .refl

theorem execArchOvfRead_changes (h : Hdr) (count : Nat) (s : State) (s' : State) (e : execArchOvfRead h count s = .next s') : Changes [.stalled, .regs, .win, .isl, .eth, .pair, .jr, .host, .sec, .evt, .out] s s' := by
  unfold execArchOvfRead at e
  obtain rfl := Host.Outcome.next.inj e
  refine command_changes (fun _ _ => ?_) ?_ rfl
  · refine .step (archOvfRead_changes ..) ?_ rfl
    assumption
  · exact .refl

theorem execArchOvfRelease_changes (h : Hdr) (upto : W64) (s : State) (s' : State) (e : execArchOvfRelease h upto s = .next s') : Changes [.stalled, .regs, .win, .isl, .eth, .pair, .jr, .host, .sec, .arch, .evt, .out] s s' := by
  unfold execArchOvfRelease at e
  obtain rfl := Host.Outcome.next.inj e
  refine command_changes (fun _ _ => ?_) ?_ rfl
  · refine .step (archOvfRelease_changes ..) ?_ rfl
    assumption
  · exact .refl

theorem execArchHostWrite_changes (h : Hdr) (sector : Nat) (data : List (List Byte)) (s : State) (s' : State) (e : execArchHostWrite h sector data s = .next s') : Changes [.stalled, .regs, .win, .isl, .eth, .pair, .jr, .host, .sec, .arch, .evt, .out] s s' := by
  unfold execArchHostWrite at e
  obtain rfl := Host.Outcome.next.inj e
  refine command_changes (fun _ _ => ?_) ?_ rfl
  · refine .step (archHostWrite_changes ..) ?_ rfl
    assumption
  · exact .refl

theorem execArchHostRead_changes (h : Hdr) (sector : Nat) (count : Nat) (media : List Media) (s : State) (s' : State) (e : execArchHostRead h sector count media s = .next s') : Changes [.stalled, .regs, .win, .isl, .eth, .pair, .jr, .host, .sec, .arch, .evt, .out] s s' := by
  unfold execArchHostRead at e
  obtain rfl := Host.Outcome.next.inj e
  refine command_changes (fun _ _ => ?_) ?_ rfl
  · refine .step (archHostRead_changes ..) ?_ rfl
    assumption
  · exact .refl

theorem execArchFormat_changes (h : Hdr) (confirm : W32) (s : State) (s' : State) (e : execArchFormat h confirm s = .next s') : Changes [.stalled, .regs, .win, .isl, .eth, .pair, .jr, .host, .sec, .arch, .evt, .out] s s' := by
  unfold execArchFormat at e
  obtain rfl := Host.Outcome.next.inj e
  refine command_changes (fun _ _ => ?_) ?_ rfl
  · refine .step (archFormat_changes ..) ?_ rfl
    assumption
  · exact .refl

theorem execEvtRead_changes (h : Hdr) (from_ : W64) (count : Nat) (s : State) (s' : State) (e : execEvtRead h from_ count s = .next s') : Changes [.stalled, .regs, .win, .isl, .eth, .pair, .jr, .host, .sec, .evt, .out] s s' := by
  unfold execEvtRead at e
  obtain rfl := Host.Outcome.next.inj e
  refine command_changes (fun _ _ => ?_) ?_ rfl
  · refine .step (evtRead_changes ..) ?_ rfl
    assumption
  · exact .refl

theorem execEvtClear_changes (h : Hdr) (s : State) (s' : State) (e : execEvtClear h s = .next s') : Changes [.stalled, .regs, .win, .isl, .eth, .pair, .jr, .host, .sec, .evt, .out] s s' := by
  unfold execEvtClear at e
  obtain rfl := Host.Outcome.next.inj e
  refine command_changes (fun _ _ => ?_) ?_ rfl
  · refine .step (evtClear_changes ..) ?_ rfl
    assumption
  · exact .refl

theorem execMonRead_changes (h : Hdr) (first : Nat) (n : Nat) (s : State) (s' : State) (e : execMonRead h first n s = .next s') : Changes [.stalled, .regs, .win, .isl, .eth, .pair, .jr, .host, .sec, .evt, .out] s s' := by
  unfold execMonRead at e
  obtain rfl := Host.Outcome.next.inj e
  refine command_changes (fun _ _ => ?_) ?_ rfl
  · refine .step (monRead_changes ..) ?_ rfl
    assumption
  · exact .refl

theorem execMonReset_changes (h : Hdr) (lo : W32) (hi : W32) (s : State) (s' : State) (e : execMonReset h lo hi s = .next s') : Changes [.stalled, .regs, .win, .isl, .eth, .pair, .jr, .host, .sec, .mon, .evt, .out] s s' := by
  unfold execMonReset at e
  obtain rfl := Host.Outcome.next.inj e
  refine command_changes (fun _ _ => ?_) ?_ rfl
  · refine .step (monReset_changes ..) ?_ rfl
    assumption
  · exact .refl

theorem execQRead_changes (h : Hdr) (first : Nat) (n : Nat) (s : State) (s' : State) (e : execQRead h first n s = .next s') : Changes [.stalled, .regs, .win, .isl, .eth, .pair, .jr, .host, .sec, .evt, .out] s s' := by
  unfold execQRead at e
  obtain rfl := Host.Outcome.next.inj e
  refine command_changes (fun _ _ => ?_) ?_ rfl
  · refine .step (qRead_changes ..) ?_ rfl
    assumption
  · exact .refl

theorem execMgmtDatagramRx_changes (port : Bool) (h : Hdr) (c : Cmd) (s : State) (s' : State) (e : execMgmtDatagramRx port h c s = .next s') : Changes [.deferred, .stalled, .regs, .setup, .lat, .win, .isl, .boot, .clusters, .table, .pipe, .rules, .bal, .camp, .plc, .rf, .eth, .relay, .tim, .pair, .jr, .host, .sec, .arch, .mea, .queues, .mon, .evt, .out, .draws] s s' := by
  unfold execMgmtDatagramRx at e
  obtain rfl := Host.Outcome.next.inj e
  refine .step (mgmtDatagram_changes ..) ?_ rfl
  exact .refl

theorem execRegisterWrite_changes (off : Nat) (v : W32) (whole : Bool) (s : State) (s' : State) (e : execRegisterWrite off v whole s = .next s') : Changes [.deferred, .stalled, .regs, .setup, .lat, .win, .isl, .boot, .clusters, .table, .pipe, .rules, .bal, .camp, .plc, .rf, .eth, .relay, .tim, .pair, .jr, .host, .sec, .arch, .mea, .queues, .mon, .evt, .out, .draws] s s' := by
  unfold execRegisterWrite at e
  obtain rfl := Host.Outcome.next.inj e
  refine .step (settleAll_changes ..) ?_ rfl
  refine .step (barWrite_changes ..) ?_ rfl
  exact .refl

theorem execW1cWrite_changes (off : Nat) (v : W32) (s : State) (s' : State) (e : execW1cWrite off v s = .next s') : Changes [.deferred, .stalled, .regs, .setup, .lat, .win, .isl, .boot, .clusters, .table, .pipe, .rules, .bal, .camp, .plc, .rf, .eth, .relay, .tim, .pair, .jr, .host, .sec, .arch, .mea, .queues, .mon, .evt, .out, .draws] s s' := by
  unfold execW1cWrite at e
  obtain rfl := Host.Outcome.next.inj e
  refine .step (barWrite_changes ..) ?_ rfl
  exact .refl

theorem execTimNowNsRead_changes (p : Path) (s : State) (s' : State) (e : execTimNowNsRead p s = .next s') : Changes [.regs, .lat, .out] s s' := by
  unfold execTimNowNsRead at e
  obtain rfl := Host.Outcome.next.inj e
  refine .step (readAlone_changes ..) ?_ rfl
  exact .refl

theorem execSeqPairLoRead_changes (p : Path) (off : Nat) (s : State) (s' : State) (e : execSeqPairLoRead p off s = .next s') : Changes [.regs, .lat, .out] s s' := by
  unfold execSeqPairLoRead at e
  obtain rfl := Host.Outcome.next.inj e
  refine .ite ?_ ?_
  · refine .step (readAlone_changes ..) ?_ rfl
    exact .refl
  · exact .refl

theorem execMeaPqSecondRead_changes (p : Path) (head : Nat) (s : State) (s' : State) (e : execMeaPqSecondRead p head s = .next s') : Changes [.regs, .lat, .out] s s' := by
  unfold execMeaPqSecondRead at e
  obtain rfl := Host.Outcome.next.inj e
  refine .ite ?_ ?_
  · refine .step (readAlone_changes ..) ?_ rfl
    exact .refl
  · exact .refl

theorem execCtlQSelWrite_changes (v : W32) (s : State) (s' : State) (e : execCtlQSelWrite v s = .next s') : Changes [.deferred, .stalled, .regs, .setup, .lat, .win, .isl, .boot, .clusters, .table, .pipe, .rules, .bal, .camp, .plc, .rf, .eth, .relay, .tim, .pair, .jr, .host, .sec, .arch, .mea, .queues, .mon, .evt, .out, .draws] s s' := by
  unfold execCtlQSelWrite at e
  obtain rfl := Host.Outcome.next.inj e
  refine .step (barWrite_changes ..) ?_ rfl
  exact .refl

theorem execMonSnapWrite_changes (v : W32) (s : State) (s' : State) (e : execMonSnapWrite v s = .next s') : Changes [.deferred, .stalled, .regs, .setup, .lat, .win, .isl, .boot, .clusters, .table, .pipe, .rules, .bal, .camp, .plc, .rf, .eth, .relay, .tim, .pair, .jr, .host, .sec, .arch, .mea, .queues, .mon, .evt, .out, .draws] s s' := by
  unfold execMonSnapWrite at e
  obtain rfl := Host.Outcome.next.inj e
  refine .step (barWrite_changes ..) ?_ rfl
  exact .refl

theorem execSetupLockSet_changes (s : State) (s' : State) (e : execSetupLockSet s = .next s') : Changes [.deferred, .stalled, .regs, .setup, .lat, .win, .isl, .boot, .clusters, .table, .pipe, .rules, .bal, .camp, .plc, .rf, .eth, .relay, .tim, .pair, .jr, .host, .sec, .arch, .mea, .queues, .mon, .evt, .out, .draws] s s' := by
  unfold execSetupLockSet at e
  obtain rfl := Host.Outcome.next.inj e
  refine .step (barWrite_changes ..) ?_ rfl
  exact .refl

theorem execNoticeEnableWrite_changes (v : W32) (s : State) (s' : State) (e : execNoticeEnableWrite v s = .next s') : Changes [.deferred, .stalled, .regs, .setup, .lat, .win, .isl, .boot, .clusters, .table, .pipe, .rules, .bal, .camp, .plc, .rf, .eth, .relay, .tim, .pair, .jr, .host, .sec, .arch, .mea, .queues, .mon, .evt, .out, .draws] s s' := by
  unfold execNoticeEnableWrite at e
  obtain rfl := Host.Outcome.next.inj e
  refine .step (barWrite_changes ..) ?_ rfl
  exact .refl

theorem execProfileRequest_changes (h : Hdr) (mask : W32) (value : W32) (s : State) (s' : State) (e : execProfileRequest h mask value s = .next s') : Changes [.deferred, .stalled, .regs, .setup, .lat, .win, .isl, .boot, .clusters, .table, .pipe, .rules, .bal, .camp, .plc, .rf, .eth, .relay, .tim, .pair, .jr, .host, .sec, .arch, .mea, .queues, .mon, .evt, .out, .draws] s s' := by
  unfold execProfileRequest at e
  obtain rfl := Host.Outcome.next.inj e
  refine command_changes (fun _ _ => ?_) ?_ rfl
  · refine .step (auWrite_changes ..) ?_ rfl
    assumption
  · exact .refl

theorem execSwBlockReset_changes (h : Hdr) (mask : W32) (s : State) (s' : State) (e : execSwBlockReset h mask s = .next s') : Changes [.deferred, .stalled, .regs, .setup, .lat, .win, .isl, .boot, .clusters, .table, .pipe, .rules, .bal, .camp, .plc, .rf, .eth, .relay, .tim, .pair, .jr, .host, .sec, .arch, .mea, .queues, .mon, .evt, .out, .draws] s s' := by
  unfold execSwBlockReset at e
  obtain rfl := Host.Outcome.next.inj e
  refine command_changes (fun _ _ => ?_) ?_ rfl
  · refine .step (auWrite_changes ..) ?_ rfl
    assumption
  · exact .refl

theorem execSwBlockRelease_changes (h : Hdr) (mask : W32) (s : State) (s' : State) (e : execSwBlockRelease h mask s = .next s') : Changes [.deferred, .stalled, .regs, .setup, .lat, .win, .isl, .boot, .clusters, .table, .pipe, .rules, .bal, .camp, .plc, .rf, .eth, .relay, .tim, .pair, .jr, .host, .sec, .arch, .mea, .queues, .mon, .evt, .out, .draws] s s' := by
  unfold execSwBlockRelease at e
  obtain rfl := Host.Outcome.next.inj e
  refine command_changes (fun _ _ => ?_) ?_ rfl
  · refine .step (auWrite_changes ..) ?_ rfl
    assumption
  · exact .refl

theorem execUnitResetCommand_changes (h : Hdr) (mask : W32) (value : W32) (s : State) (s' : State) (e : execUnitResetCommand h mask value s = .next s') : Changes [.deferred, .stalled, .regs, .setup, .lat, .win, .isl, .boot, .clusters, .table, .pipe, .rules, .bal, .camp, .plc, .rf, .eth, .relay, .tim, .pair, .jr, .host, .sec, .arch, .mea, .queues, .mon, .evt, .out, .draws] s s' := by
  unfold execUnitResetCommand at e
  obtain rfl := Host.Outcome.next.inj e
  refine command_changes (fun _ _ => ?_) ?_ rfl
  · refine .step (auWrite_changes ..) ?_ rfl
    assumption
  · exact .refl

theorem execBootInstallGo_changes (h : Hdr) (mask : W32) (value : W32) (obj : Staged) (s : State) (s' : State) (e : execBootInstallGo h mask value obj s = .next s') : Changes [.deferred, .stalled, .regs, .setup, .lat, .win, .isl, .boot, .clusters, .table, .pipe, .rules, .bal, .camp, .plc, .rf, .eth, .relay, .tim, .pair, .jr, .host, .sec, .arch, .mea, .queues, .mon, .evt, .out, .draws] s s' := by
  unfold execBootInstallGo at e
  obtain rfl := Host.Outcome.next.inj e
  refine command_changes (fun _ _ => ?_) ?_ rfl
  · refine .step (auWrite_changes ..) ?_ rfl
    assumption
  · exact .refl

theorem execBootSelTrial_changes (h : Hdr) (mask : W32) (value : W32) (s : State) (s' : State) (e : execBootSelTrial h mask value s = .next s') : Changes [.deferred, .stalled, .regs, .setup, .lat, .win, .isl, .boot, .clusters, .table, .pipe, .rules, .bal, .camp, .plc, .rf, .eth, .relay, .tim, .pair, .jr, .host, .sec, .arch, .mea, .queues, .mon, .evt, .out, .draws] s s' := by
  unfold execBootSelTrial at e
  obtain rfl := Host.Outcome.next.inj e
  refine command_changes (fun _ _ => ?_) ?_ rfl
  · refine .step (auWrite_changes ..) ?_ rfl
    assumption
  · exact .refl

theorem execBootSelConfirmed_changes (h : Hdr) (mask : W32) (value : W32) (s : State) (s' : State) (e : execBootSelConfirmed h mask value s = .next s') : Changes [.deferred, .stalled, .regs, .setup, .lat, .win, .isl, .boot, .clusters, .table, .pipe, .rules, .bal, .camp, .plc, .rf, .eth, .relay, .tim, .pair, .jr, .host, .sec, .arch, .mea, .queues, .mon, .evt, .out, .draws] s s' := by
  unfold execBootSelConfirmed at e
  obtain rfl := Host.Outcome.next.inj e
  refine command_changes (fun _ _ => ?_) ?_ rfl
  · refine .step (auWrite_changes ..) ?_ rfl
    assumption
  · exact .refl

theorem execBootSelConfirm_changes (h : Hdr) (mask : W32) (value : W32) (s : State) (s' : State) (e : execBootSelConfirm h mask value s = .next s') : Changes [.deferred, .stalled, .regs, .setup, .lat, .win, .isl, .boot, .clusters, .table, .pipe, .rules, .bal, .camp, .plc, .rf, .eth, .relay, .tim, .pair, .jr, .host, .sec, .arch, .mea, .queues, .mon, .evt, .out, .draws] s s' := by
  unfold execBootSelConfirm at e
  obtain rfl := Host.Outcome.next.inj e
  refine command_changes (fun _ _ => ?_) ?_ rfl
  · refine .step (auWrite_changes ..) ?_ rfl
    assumption
  · exact .refl

theorem execOtpProgram_changes (v : W32) (s : State) (s' : State) (e : execOtpProgram v s = .next s') : Changes [.deferred, .stalled, .regs, .setup, .lat, .win, .isl, .boot, .clusters, .table, .pipe, .rules, .bal, .camp, .plc, .rf, .eth, .relay, .tim, .pair, .jr, .host, .sec, .arch, .mea, .queues, .mon, .evt, .out, .draws] s s' := by
  unfold execOtpProgram at e
  obtain rfl := Host.Outcome.next.inj e
  refine .step (barWrite_changes ..) ?_ rfl
  exact .refl

theorem execPowerTargetRun_changes (h : Hdr) (mask : W32) (s : State) (s' : State) (e : execPowerTargetRun h mask s = .next s') : Changes [.deferred, .stalled, .regs, .setup, .lat, .win, .isl, .boot, .clusters, .table, .pipe, .rules, .bal, .camp, .plc, .rf, .eth, .relay, .tim, .pair, .jr, .host, .sec, .arch, .mea, .queues, .mon, .evt, .out, .draws] s s' := by
  unfold execPowerTargetRun at e
  obtain rfl := Host.Outcome.next.inj e
  refine command_changes (fun _ _ => ?_) ?_ rfl
  · refine .step (auWrite_changes ..) ?_ rfl
    assumption
  · exact .refl

theorem execPowerTargetDoze_changes (h : Hdr) (mask : W32) (s : State) (s' : State) (e : execPowerTargetDoze h mask s = .next s') : Changes [.deferred, .stalled, .regs, .setup, .lat, .win, .isl, .boot, .clusters, .table, .pipe, .rules, .bal, .camp, .plc, .rf, .eth, .relay, .tim, .pair, .jr, .host, .sec, .arch, .mea, .queues, .mon, .evt, .out, .draws] s s' := by
  unfold execPowerTargetDoze at e
  obtain rfl := Host.Outcome.next.inj e
  refine command_changes (fun _ _ => ?_) ?_ rfl
  · refine .step (auWrite_changes ..) ?_ rfl
    assumption
  · exact .refl

theorem execPowerTargetHold_changes (h : Hdr) (mask : W32) (s : State) (s' : State) (e : execPowerTargetHold h mask s = .next s') : Changes [.deferred, .stalled, .regs, .setup, .lat, .win, .isl, .boot, .clusters, .table, .pipe, .rules, .bal, .camp, .plc, .rf, .eth, .relay, .tim, .pair, .jr, .host, .sec, .arch, .mea, .queues, .mon, .evt, .out, .draws] s s' := by
  unfold execPowerTargetHold at e
  obtain rfl := Host.Outcome.next.inj e
  refine command_changes (fun _ _ => ?_) ?_ rfl
  · refine .step (auWrite_changes ..) ?_ rfl
    assumption
  · exact .refl

theorem execPowerTargetBackup_changes (h : Hdr) (mask : W32) (s : State) (s' : State) (e : execPowerTargetBackup h mask s = .next s') : Changes [.deferred, .stalled, .regs, .setup, .lat, .win, .isl, .boot, .clusters, .table, .pipe, .rules, .bal, .camp, .plc, .rf, .eth, .relay, .tim, .pair, .jr, .host, .sec, .arch, .mea, .queues, .mon, .evt, .out, .draws] s s' := by
  unfold execPowerTargetBackup at e
  obtain rfl := Host.Outcome.next.inj e
  refine command_changes (fun _ _ => ?_) ?_ rfl
  · refine .step (auWrite_changes ..) ?_ rfl
    assumption
  · exact .refl

theorem execPciEnableWrite_changes (v : W32) (s : State) (s' : State) (e : execPciEnableWrite v s = .next s') : Changes [.deferred, .stalled, .regs, .setup, .lat, .win, .isl, .boot, .clusters, .table, .pipe, .rules, .bal, .camp, .plc, .rf, .eth, .relay, .tim, .pair, .jr, .host, .sec, .arch, .mea, .queues, .mon, .evt, .out, .draws] s s' := by
  unfold execPciEnableWrite at e
  obtain rfl := Host.Outcome.next.inj e
  refine .step (settleAll_changes ..) ?_ rfl
  refine .step (barWrite_changes ..) ?_ rfl
  exact .refl

theorem execRingEnable_changes (cq : Bool) (n : Nat) (v : W32) (s : State) (s' : State) (e : execRingEnable cq n v s = .next s') : Changes [.deferred, .stalled, .regs, .setup, .lat, .win, .isl, .boot, .clusters, .table, .pipe, .rules, .bal, .camp, .plc, .rf, .eth, .relay, .tim, .pair, .jr, .host, .sec, .arch, .mea, .queues, .mon, .evt, .out, .draws] s s' := by
  unfold execRingEnable at e
  obtain rfl := Host.Outcome.next.inj e
  refine .ite ?_ ?_
  · refine .step (barWrite_changes ..) ?_ rfl
    exact .refl
  · exact .refl

theorem execRingDisable_changes (cq : Bool) (n : Nat) (v : W32) (s : State) (s' : State) (e : execRingDisable cq n v s = .next s') : Changes [.deferred, .stalled, .regs, .setup, .lat, .win, .isl, .boot, .clusters, .table, .pipe, .rules, .bal, .camp, .plc, .rf, .eth, .relay, .tim, .pair, .jr, .host, .sec, .arch, .mea, .queues, .mon, .evt, .out, .draws] s s' := by
  unfold execRingDisable at e
  obtain rfl := Host.Outcome.next.inj e
  refine .ite ?_ ?_
  · refine .step (settleAll_changes ..) ?_ rfl
    refine .step (barWrite_changes ..) ?_ rfl
    exact .refl
  · exact .refl

theorem execDoorbellPoll_changes (words : List (BitVec 16)) (cmds : Kv (List CmdDesc)) (bufs : Kv (List BufDesc)) (s : State) (s' : State) (e : execDoorbellPoll words cmds bufs s = .next s') : Changes [.deferred, .stalled, .regs, .setup, .lat, .win, .isl, .boot, .clusters, .table, .pipe, .rules, .bal, .camp, .plc, .rf, .eth, .relay, .tim, .pair, .jr, .host, .sec, .arch, .mea, .queues, .mon, .evt, .out, .draws] s s' := by
  unfold execDoorbellPoll at e
  obtain rfl := Host.Outcome.next.inj e
  refine .step (doorbellPoll_changes ..) ?_ rfl
  exact .refl

theorem execDmaError_changes (cq : Bool) (n : Nat) (s : State) (s' : State) (e : execDmaError cq n s = .next s') : Changes [.deferred, .stalled, .regs, .setup, .lat, .win, .isl, .boot, .clusters, .table, .pipe, .rules, .bal, .camp, .plc, .rf, .eth, .relay, .tim, .pair, .jr, .host, .sec, .arch, .mea, .queues, .mon, .evt, .out, .draws] s s' := by
  unfold execDmaError at e
  obtain rfl := Host.Outcome.next.inj e
  refine .step (settleAll_changes ..) ?_ rfl
  refine .step (dmaFail_changes ..) ?_ rfl
  exact .refl

theorem execRxBufferHoldExpiry_changes (n : Nat) (s : State) (s' : State) (e : execRxBufferHoldExpiry n s = .next s') : Changes [.deferred, .stalled, .regs, .setup, .lat, .win, .isl, .boot, .clusters, .table, .pipe, .rules, .bal, .camp, .plc, .rf, .eth, .relay, .tim, .pair, .jr, .host, .sec, .arch, .mea, .queues, .mon, .evt, .out, .draws] s s' := by
  unfold execRxBufferHoldExpiry at e
  obtain rfl := Host.Outcome.next.inj e
  refine .step (settleAll_changes ..) ?_ rfl
  refine .step (holdExpiry_changes ..) ?_ rfl
  exact .refl

theorem execMsixCoalesceExpiry_changes (n : Nat) (s : State) (s' : State) (e : execMsixCoalesceExpiry n s = .next s') : Changes [.host, .out] s s' := by
  unfold execMsixCoalesceExpiry at e
  obtain rfl := Host.Outcome.next.inj e
  refine .step (coalesceExpiry_changes ..) ?_ rfl
  exact .refl

theorem execMsixUnmask_changes (vector : Nat) (s : State) (s' : State) (e : execMsixUnmask vector s = .next s') : Changes [.host, .out] s s' := by
  unfold execMsixUnmask at e
  obtain rfl := Host.Outcome.next.inj e
  refine .step (msixUnmask_changes ..) ?_ rfl
  exact .refl

theorem execPcieConfigRequest_changes (bme : Option Bool) (s : State) (s' : State) (e : execPcieConfigRequest bme s = .next s') : Changes [.deferred, .stalled, .regs, .setup, .lat, .win, .isl, .boot, .clusters, .table, .pipe, .rules, .bal, .camp, .plc, .rf, .eth, .relay, .tim, .pair, .jr, .host, .sec, .arch, .mea, .queues, .mon, .evt, .out, .draws] s s' := by
  unfold execPcieConfigRequest at e
  obtain rfl := Host.Outcome.next.inj e
  refine .step (settleAll_changes ..) ?_ rfl
  refine .step (configRequest_changes ..) ?_ rfl
  exact .refl

theorem execPcieLinkReset_changes (s : State) (s' : State) (e : execPcieLinkReset s = .next s') : Changes [.deferred, .stalled, .regs, .setup, .lat, .win, .isl, .boot, .clusters, .table, .pipe, .rules, .bal, .camp, .plc, .rf, .eth, .relay, .tim, .pair, .jr, .host, .sec, .arch, .mea, .queues, .mon, .evt, .out, .draws] s s' := by
  unfold execPcieLinkReset at e
  obtain rfl := Host.Outcome.next.inj e
  refine .step (settleAll_changes ..) ?_ rfl
  refine .step (linkReset_changes ..) ?_ rfl
  exact .refl

theorem execBusMasterEnableClear_changes (s : State) (s' : State) (e : execBusMasterEnableClear s = .next s') : Changes [.deferred, .stalled, .regs, .setup, .lat, .win, .isl, .boot, .clusters, .table, .pipe, .rules, .bal, .camp, .plc, .rf, .eth, .relay, .tim, .pair, .jr, .host, .sec, .arch, .mea, .queues, .mon, .evt, .out, .draws] s s' := by
  unfold execBusMasterEnableClear at e
  obtain rfl := Host.Outcome.next.inj e
  refine .step (settleAll_changes ..) ?_ rfl
  refine .step (bmeClear_changes ..) ?_ rfl
  exact .refl

theorem execPcieLinkUp_changes (width : Nat) (speed : Nat) (s : State) (s' : State) (e : execPcieLinkUp width speed s = .next s') : Changes [.host] s s' := by
  unfold execPcieLinkUp at e
  obtain rfl := Host.Outcome.next.inj e
  refine .step (pcieUp_changes ..) ?_ rfl
  exact .refl

theorem execProfileClusterSwitch_changes (cluster : Nat) (s : State) (s' : State) (e : execProfileClusterSwitch cluster s = .next s') : Changes [.clusters] s s' := by
  unfold execProfileClusterSwitch at e
  obtain rfl := Host.Outcome.next.inj e
  refine .step (clusterSwitch_changes ..) ?_ rfl
  exact .refl

theorem execBucketRedistribute_changes (bucket : Nat) (s : State) (s' : State) (e : execBucketRedistribute bucket s = .next s') : Changes [.clusters] s s' := by
  unfold execBucketRedistribute at e
  obtain rfl := Host.Outcome.next.inj e
  refine .step (bucketMove_changes ..) ?_ rfl
  exact .refl

theorem execInstallComplete_changes (ok : Bool) (s : State) (s' : State) (e : execInstallComplete ok s = .next s') : Changes [.regs, .boot] s s' := by
  unfold execInstallComplete at e
  obtain rfl := Host.Outcome.next.inj e
  refine .step (installComplete_changes ..) ?_ rfl
  exact .refl

theorem execAutoConfirmExpiry_changes (s : State) (s' : State) (e : execAutoConfirmExpiry s = .next s') : Changes [.boot] s s' := by
  unfold execAutoConfirmExpiry at e
  obtain rfl := Host.Outcome.next.inj e
  refine .step (autoConfirm_changes ..) ?_ rfl
  exact .refl

theorem execDozeIdleGate_changes (isl : Nat) (s : State) (s' : State) (e : execDozeIdleGate isl s = .next s') : Changes [.isl] s s' := by
  unfold execDozeIdleGate at e
  obtain rfl := Host.Outcome.next.inj e
  refine .step (dozeGate_changes ..) ?_ rfl
  exact .refl

theorem execPowerOnReset_changes (s : State) (s' : State) (e : execPowerOnReset s = .next s') : Changes [.deferred, .stalled, .regs, .setup, .lat, .win, .isl, .boot, .clusters, .table, .pipe, .rules, .bal, .camp, .plc, .rf, .eth, .relay, .tim, .pair, .jr, .host, .sec, .arch, .mea, .queues, .mon, .evt] s s' := by
  unfold execPowerOnReset at e
  obtain rfl := Host.Outcome.next.inj e
  refine .step (powerOnReset_changes ..) ?_ rfl
  exact .refl

theorem execBrownOut_changes (supply : Nat) (s : State) (s' : State) (e : execBrownOut supply s = .next s') : Changes [.deferred, .stalled, .regs, .setup, .lat, .win, .isl, .boot, .clusters, .table, .pipe, .rules, .bal, .camp, .plc, .rf, .eth, .relay, .tim, .pair, .jr, .host, .sec, .arch, .mea, .queues, .mon, .evt] s s' := by
  unfold execBrownOut at e
  obtain rfl := Host.Outcome.next.inj e
  refine .step (brownOut_changes ..) ?_ rfl
  exact .refl

theorem execExternalReset_changes (s : State) (s' : State) (e : execExternalReset s = .next s') : Changes [.deferred, .stalled, .regs, .setup, .lat, .win, .isl, .boot, .clusters, .table, .pipe, .rules, .bal, .camp, .plc, .rf, .eth, .relay, .tim, .pair, .jr, .host, .sec, .arch, .mea, .queues, .mon, .evt] s s' := by
  unfold execExternalReset at e
  obtain rfl := Host.Outcome.next.inj e
  refine .step (externalReset_changes ..) ?_ rfl
  exact .refl

theorem execWatchdogExpiry_changes (s : State) (s' : State) (e : execWatchdogExpiry s = .next s') : Changes [.deferred, .stalled, .regs, .setup, .lat, .win, .isl, .boot, .clusters, .table, .pipe, .rules, .bal, .camp, .plc, .rf, .eth, .relay, .tim, .pair, .jr, .host, .sec, .arch, .mea, .queues, .mon, .evt] s s' := by
  unfold execWatchdogExpiry at e
  obtain rfl := Host.Outcome.next.inj e
  refine .step (watchdogExpiry_changes ..) ?_ rfl
  exact .refl

theorem execThermalReset_changes (s : State) (s' : State) (e : execThermalReset s = .next s') : Changes [.deferred, .stalled, .regs, .setup, .lat, .win, .isl, .boot, .clusters, .table, .pipe, .rules, .bal, .camp, .plc, .rf, .eth, .relay, .tim, .pair, .jr, .host, .sec, .arch, .mea, .queues, .mon, .evt] s s' := by
  unfold execThermalReset at e
  obtain rfl := Host.Outcome.next.inj e
  refine .step (thermalReset_changes ..) ?_ rfl
  exact .refl

theorem execClockLoss_changes (s : State) (s' : State) (e : execClockLoss s = .next s') : Changes [.deferred, .stalled, .regs, .setup, .lat, .win, .isl, .boot, .clusters, .table, .pipe, .rules, .bal, .camp, .plc, .rf, .eth, .relay, .tim, .pair, .jr, .host, .sec, .arch, .mea, .queues, .mon, .evt] s s' := by
  unfold execClockLoss at e
  obtain rfl := Host.Outcome.next.inj e
  refine .step (clockLoss_changes ..) ?_ rfl
  exact .refl

theorem execResetRelease_changes (env : StartEnv) (s : State) (s' : State) (e : execResetRelease env s = .next s') : Changes [.deferred, .stalled, .regs, .setup, .win, .isl, .boot, .clusters, .table, .pipe, .rules, .bal, .camp, .plc, .rf, .eth, .relay, .tim, .pair, .jr, .host, .sec, .arch, .mea, .queues, .evt, .out, .draws] s s' := by
  unfold execResetRelease at e
  obtain rfl := Host.Outcome.next.inj e
  refine .step (resetRelease_changes ..) ?_ rfl
  exact .refl

theorem execStrapRetry_changes (code : BitVec 6) (s : State) (s' : State) (e : execStrapRetry code s = .next s') : Changes [.deferred, .stalled, .regs, .setup, .win, .isl, .boot, .clusters, .table, .pipe, .rules, .bal, .camp, .plc, .rf, .eth, .relay, .tim, .pair, .jr, .host, .sec, .arch, .mea, .queues, .evt, .out, .draws] s s' := by
  unfold execStrapRetry at e
  obtain rfl := Host.Outcome.next.inj e
  refine .step (strapRetry_changes ..) ?_ rfl
  exact .refl

theorem execIslandClockStable_changes (isl : Nat) (s : State) (s' : State) (e : execIslandClockStable isl s = .next s') : Changes [.regs, .isl, .boot, .clusters, .pipe, .plc, .rf, .eth, .tim, .host, .sec, .arch, .mea, .evt, .out] s s' := by
  unfold execIslandClockStable at e
  obtain rfl := Host.Outcome.next.inj e
  refine .step (clockStable_changes ..) ?_ rfl
  exact .refl

theorem execIslandLockLoss_changes (isl : Nat) (s : State) (s' : State) (e : execIslandLockLoss isl s = .next s') : Changes [.isl] s s' := by
  unfold execIslandLockLoss at e
  obtain rfl := Host.Outcome.next.inj e
  refine .step (lockLoss_changes ..) ?_ rfl
  exact .refl

theorem execLockLossTimeout_changes (isl : Nat) (s : State) (s' : State) (e : execLockLossTimeout isl s = .next s') : Changes [.deferred, .stalled, .regs, .setup, .win, .isl, .boot, .clusters, .table, .pipe, .rules, .bal, .camp, .plc, .rf, .eth, .relay, .tim, .pair, .jr, .host, .sec, .arch, .mea, .queues, .evt, .out, .draws] s s' := by
  unfold execLockLossTimeout at e
  obtain rfl := Host.Outcome.next.inj e
  refine .step (lockLossTimeout_changes ..) ?_ rfl
  exact .refl

theorem execHandshakeTimeout_changes (isl : Nat) (s : State) (s' : State) (e : execHandshakeTimeout isl s = .next s') : Changes [.deferred, .stalled, .regs, .setup, .win, .isl, .boot, .clusters, .table, .pipe, .rules, .bal, .camp, .plc, .rf, .eth, .relay, .tim, .pair, .jr, .host, .sec, .arch, .mea, .queues, .evt, .out, .draws] s s' := by
  unfold execHandshakeTimeout at e
  obtain rfl := Host.Outcome.next.inj e
  refine .step (handshakeTimeout_changes ..) ?_ rfl
  exact .refl

theorem execEccUncorrectable_changes (at_ : EccAt) (s : State) (s' : State) (e : execEccUncorrectable at_ s = .next s') : Changes [.deferred, .stalled, .regs, .setup, .win, .isl, .boot, .clusters, .table, .pipe, .rules, .bal, .camp, .plc, .rf, .eth, .relay, .tim, .pair, .jr, .host, .sec, .arch, .mea, .queues, .evt, .out, .draws] s s' := by
  unfold execEccUncorrectable at e
  obtain rfl := Host.Outcome.next.inj e
  refine .step (eccUncorrectable_changes ..) ?_ rfl
  exact .refl

theorem execEccCorrected_changes (at_ : EccAt) (s : State) (s' : State) (e : execEccCorrected at_ s = .next s') : Changes [.regs, .evt] s s' := by
  unfold execEccCorrected at e
  obtain rfl := Host.Outcome.next.inj e
  refine .step (eccCorrected_changes ..) ?_ rfl
  exact .refl

theorem execTamperFall_changes (s : State) (s' : State) (e : execTamperFall s = .next s') : Changes [.regs, .boot, .pipe, .plc, .rf, .sec, .evt] s s' := by
  unfold execTamperFall at e
  obtain rfl := Host.Outcome.next.inj e
  refine .step (tamperFall_changes ..) ?_ rfl
  exact .refl

theorem execWakePinFall_changes (s : State) (s' : State) (e : execWakePinFall s = .next s') : Changes [.isl, .boot] s s' := by
  unfold execWakePinFall at e
  obtain rfl := Host.Outcome.next.inj e
  refine .step (wakePinFall_changes ..) ?_ rfl
  exact .refl

theorem execBkpAlarm_changes (s : State) (s' : State) (e : execBkpAlarm s = .next s') : Changes [.boot] s s' := by
  unfold execBkpAlarm at e
  obtain rfl := Host.Outcome.next.inj e
  refine .step (bkpAlarm_changes ..) ?_ rfl
  exact .refl

theorem execMainSupplyLoss_changes (s : State) (s' : State) (e : execMainSupplyLoss s = .next s') : Changes [.deferred, .stalled, .regs, .setup, .lat, .win, .isl, .boot, .clusters, .table, .pipe, .rules, .bal, .camp, .plc, .rf, .eth, .relay, .tim, .pair, .jr, .host, .sec, .arch, .mea, .queues, .mon, .evt] s s' := by
  unfold execMainSupplyLoss at e
  obtain rfl := Host.Outcome.next.inj e
  refine .step (mainSupplyLoss_changes ..) ?_ rfl
  exact .refl

theorem execVbatLow_changes (mv : Nat) (s : State) (s' : State) (e : execVbatLow mv s = .next s') : Changes [.regs, .evt] s s' := by
  unfold execVbatLow at e
  obtain rfl := Host.Outcome.next.inj e
  refine .step (vbatLow_changes ..) ?_ rfl
  exact .refl

theorem execBkpSecondTick_changes (s : State) (s' : State) (e : execBkpSecondTick s = .next s') : Changes [.regs] s s' := by
  unfold execBkpSecondTick at e
  obtain rfl := Host.Outcome.next.inj e
  refine .step (bkpSecond_changes ..) ?_ rfl
  exact .refl

theorem execBkpPowerLoss_changes (s : State) (s' : State) (e : execBkpPowerLoss s = .next s') : Changes [.deferred, .stalled, .regs, .setup, .lat, .win, .isl, .boot, .clusters, .table, .pipe, .rules, .bal, .camp, .plc, .rf, .eth, .relay, .tim, .pair, .jr, .host, .sec, .arch, .mea, .queues, .mon, .evt] s s' := by
  unfold execBkpPowerLoss at e
  obtain rfl := Host.Outcome.next.inj e
  refine .step (bkpPowerLoss_changes ..) ?_ rfl
  exact .refl

theorem execModulePresenceHigh_changes (slot : Nat) (s : State) (s' : State) (e : execModulePresenceHigh slot s = .next s') : Changes [.mea] s s' := by
  unfold execModulePresenceHigh at e
  obtain rfl := Host.Outcome.next.inj e
  refine .step (presenceHigh_changes ..) ?_ rfl
  exact .refl

theorem execModulePresenceLow_changes (slot : Nat) (s : State) (s' : State) (e : execModulePresenceLow slot s = .next s') : Changes [.mea] s s' := by
  unfold execModulePresenceLow at e
  obtain rfl := Host.Outcome.next.inj e
  refine .step (presenceLow_changes ..) ?_ rfl
  exact .refl

theorem execModulePresenceDebounce_changes (slot : Nat) (m : ModRecord) (s : State) (s' : State) (e : execModulePresenceDebounce slot m s = .next s') : Changes [.regs, .plc, .rf, .mea, .evt] s s' := by
  unfold execModulePresenceDebounce at e
  obtain rfl := Host.Outcome.next.inj e
  refine .step (presenceDebounce_changes ..) ?_ rfl
  exact .refl

theorem execActivationMarkPass_changes (cluster : Nat) (s : State) (s' : State) (e : execActivationMarkPass cluster s = .next s') : Changes [.regs, .rules, .eth, .jr, .host, .out] s s' := by
  unfold execActivationMarkPass at e
  obtain rfl := Host.Outcome.next.inj e
  refine .step (markPass_changes ..) ?_ rfl
  exact .refl

theorem execIdleItemWrite_changes (queue : Nat) (s : State) (s' : State) (e : execIdleItemWrite queue s = .next s') : Changes [.regs, .rf, .eth, .relay, .jr, .host, .queues, .out, .draws] s s' := by
  unfold execIdleItemWrite at e
  obtain rfl := Host.Outcome.next.inj e
  refine .step (idleItem_changes ..) ?_ rfl
  exact .refl

theorem execReadingDispatch_changes (s : State) (s' : State) (e : execReadingDispatch s = .next s') : Changes [.regs, .isl, .pipe, .rf, .eth, .relay, .host, .queues, .out, .draws] s s' := by
  unfold execReadingDispatch at e
  obtain rfl := Host.Outcome.next.inj e
  refine .step (readingDispatch_changes ..) ?_ rfl
  exact .refl

theorem execReadingVerify_changes (id : Nat) (s : State) (s' : State) (e : execReadingVerify id s = .next s') : Changes [.regs, .win, .isl, .table, .pipe, .relay, .jr, .host, .evt, .out] s s' := by
  unfold execReadingVerify at e
  obtain rfl := Host.Outcome.next.inj e
  refine .step (readingVerify_changes ..) ?_ rfl
  exact .refl

theorem execCounterCheck_changes (id : Nat) (s : State) (s' : State) (e : execCounterCheck id s = .next s') : Changes [.deferred, .stalled, .regs, .setup, .lat, .win, .isl, .boot, .clusters, .table, .pipe, .rules, .bal, .camp, .plc, .rf, .eth, .relay, .tim, .pair, .jr, .host, .sec, .arch, .mea, .queues, .mon, .evt, .out, .draws] s s' := by
  unfold execCounterCheck at e
  obtain rfl := Host.Outcome.next.inj e
  refine .step (settleAll_changes ..) ?_ rfl
  refine .step (counterCheck_changes ..) ?_ rfl
  exact .refl

theorem execReadingPosting_changes (id : Nat) (s : State) (s' : State) (e : execReadingPosting id s = .next s') : Changes [.regs, .win, .pipe, .relay, .jr, .host, .evt, .out] s s' := by
  unfold execReadingPosting at e
  obtain rfl := Host.Outcome.next.inj e
  refine .step (readingPosting_changes ..) ?_ rfl
  exact .refl

theorem execTokenReturn_changes (s : State) (s' : State) (e : execTokenReturn s = .next s') : Changes [.pipe] s s' := by
  unfold execTokenReturn at e
  obtain rfl := Host.Outcome.next.inj e
  refine .step (tokenReturn_changes ..) ?_ rfl
  exact .refl

theorem execSessionExpiry_changes (k : Nat) (s : State) (s' : State) (e : execSessionExpiry k s = .next s') : Changes [.pipe] s s' := by
  unfold execSessionExpiry at e
  obtain rfl := Host.Outcome.next.inj e
  refine .step (sessionExpiry_changes ..) ?_ rfl
  exact .refl

theorem execPollIssue_changes (entry : Nat) (slot : Nat) (s : State) (s' : State) (e : execPollIssue entry slot s = .next s') : Changes [.regs, .pipe, .plc, .rf, .jr, .out, .draws] s s' := by
  unfold execPollIssue at e
  obtain rfl := Host.Outcome.next.inj e
  refine .step (pollIssue_changes ..) ?_ rfl
  exact .refl

theorem execFetchRetry_changes (title : W64) (s : State) (s' : State) (e : execFetchRetry title s = .next s') : Changes [.regs, .win, .table, .relay, .jr, .host, .evt, .out] s s' := by
  unfold execFetchRetry at e
  obtain rfl := Host.Outcome.next.inj e
  refine .step (fetchRetry_changes ..) ?_ rfl
  exact .refl

theorem execMoveReleaseQueue_changes (s : State) (s' : State) (e : execMoveReleaseQueue s = .next s') : Changes [.regs, .win, .table, .relay, .jr, .evt] s s' := by
  unfold execMoveReleaseQueue at e
  obtain rfl := Host.Outcome.next.inj e
  refine .step (moveRelease_changes ..) ?_ rfl
  exact .refl

theorem execRetireHoldExpiry_changes (slot : Nat) (s : State) (s' : State) (e : execRetireHoldExpiry slot s = .next s') : Changes [.table, .jr, .sec] s s' := by
  unfold execRetireHoldExpiry at e
  obtain rfl := Host.Outcome.next.inj e
  refine .step (retireHoldExpiry_changes ..) ?_ rfl
  exact .refl

theorem execAgeCheck_changes (s : State) (s' : State) (e : execAgeCheck s = .next s') : Changes [.regs, .win, .table, .pipe, .camp, .plc, .relay, .jr, .sec, .evt] s s' := by
  unfold execAgeCheck at e
  obtain rfl := Host.Outcome.next.inj e
  refine .step (ageCheck_changes ..) ?_ rfl
  exact .refl

theorem execBalanceIntervalClose_changes (s : State) (s' : State) (e : execBalanceIntervalClose s = .next s') : Changes [.regs, .bal, .eth, .jr, .host, .evt, .out] s s' := by
  unfold execBalanceIntervalClose at e
  obtain rfl := Host.Outcome.next.inj e
  refine .step (intervalClose_changes ..) ?_ rfl
  exact .refl

theorem execBalanceRun_changes (s : State) (s' : State) (e : execBalanceRun s = .next s') : Changes [.regs, .bal, .eth, .jr, .host, .evt, .out] s s' := by
  unfold execBalanceRun at e
  obtain rfl := Host.Outcome.next.inj e
  refine .step (balanceRun_changes ..) ?_ rfl
  exact .refl

theorem execBalanceReportPost_changes (s : State) (s' : State) (e : execBalanceReportPost s = .next s') : Changes [.regs, .table, .bal, .eth, .jr, .host, .evt, .out] s s' := by
  unfold execBalanceReportPost at e
  obtain rfl := Host.Outcome.next.inj e
  refine .step (balanceReport_changes ..) ?_ rfl
  exact .refl

theorem execCampaignFrameSend_changes (link : Nat) (s : State) (s' : State) (e : execCampaignFrameSend link s = .next s') : Changes [.regs, .win, .camp, .plc, .rf, .relay, .jr, .evt, .out, .draws] s s' := by
  unfold execCampaignFrameSend at e
  obtain rfl := Host.Outcome.next.inj e
  refine .step (campaignFrameSend_changes ..) ?_ rfl
  exact .refl

theorem execRepairRound_changes (link : Nat) (slot : Nat) (s : State) (s' : State) (e : execRepairRound link slot s = .next s') : Changes [.camp, .jr] s s' := by
  unfold execRepairRound at e
  obtain rfl := Host.Outcome.next.inj e
  refine .step (repairRound_changes ..) ?_ rfl
  exact .refl

theorem execActivationBroadcast_changes (link : Nat) (slot : Nat) (s : State) (s' : State) (e : execActivationBroadcast link slot s = .next s') : Changes [.regs, .camp, .plc, .rf, .jr, .out] s s' := by
  unfold execActivationBroadcast at e
  obtain rfl := Host.Outcome.next.inj e
  refine .step (activationBroadcast_changes ..) ?_ rfl
  exact .refl

theorem execActTimeLateExpiry_changes (slot : Nat) (s : State) (s' : State) (e : execActTimeLateExpiry slot s = .next s') : Changes [.camp, .jr] s s' := by
  unfold execActTimeLateExpiry at e
  obtain rfl := Host.Outcome.next.inj e
  refine .step (lateExpiry_changes ..) ?_ rfl
  exact .refl

theorem execCampaignCheckpoint_changes (s : State) (s' : State) (e : execCampaignCheckpoint s = .next s') : Changes [.regs, .win, .camp, .evt] s s' := by
  unfold execCampaignCheckpoint at e
  obtain rfl := Host.Outcome.next.inj e
  refine .step (campaignCheckpoint_changes ..) ?_ rfl
  exact .refl

theorem execStandbyTableCopy_changes (item : Nat) (ents : List JEntry) (s : State) (s' : State) (e : execStandbyTableCopy item ents s = .next s') : Changes [.regs, .setup, .win, .isl, .table, .rules, .bal, .camp, .plc, .rf, .relay, .pair, .jr, .sec, .arch, .evt, .out] s s' := by
  unfold execStandbyTableCopy at e
  obtain rfl := Host.Outcome.next.inj e
  refine .step (standbyTableCopy_changes ..) ?_ rfl
  exact .refl

theorem execCopyComplete_changes (s : State) (s' : State) (e : execCopyComplete s = .next s') : Changes [.regs, .pair, .host, .out] s s' := by
  unfold execCopyComplete at e
  obtain rfl := Host.Outcome.next.inj e
  refine .step (copyComplete_changes ..) ?_ rfl
  exact .refl

theorem execPlcFrameRx_changes (inst : Nat) (f : PlcFrame) (s : State) (s' : State) (e : execPlcFrameRx inst f s = .next s') : Changes [.regs, .win, .table, .pipe, .camp, .plc, .rf, .eth, .relay, .jr, .host, .sec, .queues, .evt, .out, .draws] s s' := by
  unfold execPlcFrameRx at e
  obtain rfl := Host.Outcome.next.inj e
  refine .step (plcFrameRx_changes ..) ?_ rfl
  exact .refl

theorem execPlcAckTimeout_changes (inst : Nat) (id : Nat) (s : State) (s' : State) (e : execPlcAckTimeout inst id s = .next s') : Changes [.regs, .plc, .jr, .out] s s' := by
  unfold execPlcAckTimeout at e
  obtain rfl := Host.Outcome.next.inj e
  refine .step (plcAckTimeout_changes ..) ?_ rfl
  exact .refl

theorem execRouteTtlExpiry_changes (inst : Nat) (dest : Nat) (s : State) (s' : State) (e : execRouteTtlExpiry inst dest s = .next s') : Changes [.plc, .jr] s s' := by
  unfold execRouteTtlExpiry at e
  obtain rfl := Host.Outcome.next.inj e
  refine .step (routeTtlExpiry_changes ..) ?_ rfl
  exact .refl

theorem execRouteWaitExpiry_changes (inst : Nat) (id : Nat) (s : State) (s' : State) (e : execRouteWaitExpiry inst id s = .next s') : Changes [.regs, .plc, .jr, .out] s s' := by
  unfold execRouteWaitExpiry at e
  obtain rfl := Host.Outcome.next.inj e
  refine .step (routeWaitExpiry_changes ..) ?_ rfl
  exact .refl

theorem execReassemblyTimeout_changes (link : Nat) (src : Nat) (tag : Nat) (s : State) (s' : State) (e : execReassemblyTimeout link src tag s = .next s') : Changes [.regs, .plc, .rf] s s' := by
  unfold execReassemblyTimeout at e
  obtain rfl := Host.Outcome.next.inj e
  refine .step (reassemblyTimeout_changes ..) ?_ rfl
  exact .refl

theorem execShortHoldExpiry_changes (link : Nat) (short : Nat) (s : State) (s' : State) (e : execShortHoldExpiry link short s = .next s') : Changes [.plc, .rf, .jr] s s' := by
  unfold execShortHoldExpiry at e
  obtain rfl := Host.Outcome.next.inj e
  refine .step (shortHoldExpiry_changes ..) ?_ rfl
  exact .refl

theorem execZcReportSend_changes (inst : Nat) (short : Nat) (s : State) (s' : State) (e : execZcReportSend inst short s = .next s') : Changes [.regs, .win, .plc, .relay, .jr, .evt] s s' := by
  unfold execZcReportSend at e
  obtain rfl := Host.Outcome.next.inj e
  refine .step (zcReportSend_changes ..) ?_ rfl
  exact .refl

theorem execFpReportSend_changes (inst : Nat) (short : Nat) (s : State) (s' : State) (e : execFpReportSend inst short s = .next s') : Changes [.regs, .win, .plc, .relay, .jr, .evt] s s' := by
  unfold execFpReportSend at e
  obtain rfl := Host.Outcome.next.inj e
  refine .step (fpReportSend_changes ..) ?_ rfl
  exact .refl

theorem execZcEdge_changes (inst : Nat) (t : Nat) (s : State) (s' : State) (e : execZcEdge inst t s = .next s') : Changes [.plc, .evt] s s' := by
  unfold execZcEdge at e
  obtain rfl := Host.Outcome.next.inj e
  refine .step (zcEdge_changes ..) ?_ rfl
  exact .refl

theorem execZcLost_changes (inst : Nat) (s : State) (s' : State) (e : execZcLost inst s = .next s') : Changes [.plc, .evt] s s' := by
  unfold execZcLost at e
  obtain rfl := Host.Outcome.next.inj e
  refine .step (zcLostTimer_changes ..) ?_ rfl
  exact .refl

theorem execLdFaultFall_changes (inst : Nat) (s : State) (s' : State) (e : execLdFaultFall inst s = .next s') : Changes [.plc, .evt] s s' := by
  unfold execLdFaultFall at e
  obtain rfl := Host.Outcome.next.inj e
  refine .step (ldFaultFall_changes ..) ?_ rfl
  exact .refl

theorem execLdFaultResume_changes (inst : Nat) (s : State) (s' : State) (e : execLdFaultResume inst s = .next s') : Changes [.plc] s s' := by
  unfold execLdFaultResume at e
  obtain rfl := Host.Outcome.next.inj e
  refine .step (ldFaultResume_changes ..) ?_ rfl
  exact .refl

theorem execRfTimeslot_changes (rf : Nat) (s : State) (s' : State) (e : execRfTimeslot rf s = .next s') : Changes [.regs, .rf, .tim, .jr, .host, .evt, .out, .draws] s s' := by
  unfold execRfTimeslot at e
  obtain rfl := Host.Outcome.next.inj e
  refine .step (rfTimeslot_changes ..) ?_ rfl
  exact .refl

theorem execRfFrameRx_changes (rf : Nat) (f : RfFrame) (s : State) (s' : State) (e : execRfFrameRx rf f s = .next s') : Changes [.regs, .win, .table, .pipe, .bal, .camp, .plc, .rf, .eth, .relay, .tim, .jr, .host, .sec, .mea, .queues, .evt, .out, .draws] s s' := by
  unfold execRfFrameRx at e
  obtain rfl := Host.Outcome.next.inj e
  refine .step (rfFrameRx_changes ..) ?_ rfl
  exact .refl

theorem execRfScan_changes (rf : Nat) (hits : List ScanHit) (s : State) (s' : State) (e : execRfScan rf hits s = .next s') : Changes [.rf] s s' := by
  unfold execRfScan at e
  obtain rfl := Host.Outcome.next.inj e
  refine .step (rfScan_changes ..) ?_ rfl
  exact .refl

theorem execSleepyQueueExpiry_changes (rf : Nat) (id : Nat) (s : State) (s' : State) (e : execSleepyQueueExpiry rf id s = .next s') : Changes [.regs, .rf] s s' := by
  unfold execSleepyQueueExpiry at e
  obtain rfl := Host.Outcome.next.inj e
  refine .step (sleepyExpiry_changes ..) ?_ rfl
  exact .refl

theorem execEthFrameRx_changes (port : Bool) (f : EthFrame) (s : State) (s' : State) (e : execEthFrameRx port f s = .next s') : Changes [.regs, .eth, .host, .out] s s' := by
  unfold execEthFrameRx at e
  obtain rfl := Host.Outcome.next.inj e
  refine .step (ethFrameRx_changes ..) ?_ rfl
  exact .refl

theorem execEthLinkUp_changes (port : Bool) (speed : Nat) (half : Bool) (eee : Bool) (s : State) (s' : State) (e : execEthLinkUp port speed half eee s = .next s') : Changes [.regs, .eth, .host, .evt, .out] s s' := by
  unfold execEthLinkUp at e
  obtain rfl := Host.Outcome.next.inj e
  refine .step (linkUp_changes ..) ?_ rfl
  exact .refl

theorem execEthLinkDown_changes (port : Bool) (s : State) (s' : State) (e : execEthLinkDown port s = .next s') : Changes [.regs, .rf, .eth, .relay, .host, .out, .draws] s s' := by
  unfold execEthLinkDown at e
  obtain rfl := Host.Outcome.next.inj e
  refine .step (linkDown_changes ..) ?_ rfl
  exact .refl

theorem execTxBufferWaitExpiry_changes (port : Bool) (s : State) (s' : State) (e : execTxBufferWaitExpiry port s = .next s') : Changes [.regs, .eth, .host, .out] s s' := by
  unfold execTxBufferWaitExpiry at e
  obtain rfl := Host.Outcome.next.inj e
  refine .step (txWaitExpiry_changes ..) ?_ rfl
  exact .refl

theorem execLldpSend_changes (port : Bool) (s : State) (s' : State) (e : execLldpSend port s = .next s') : Changes [.regs, .eth, .host, .out] s s' := by
  unfold execLldpSend at e
  obtain rfl := Host.Outcome.next.inj e
  refine .step (lldpSend_changes ..) ?_ rfl
  exact .refl

theorem execLpiIdleEntry_changes (port : Bool) (s : State) (s' : State) (e : execLpiIdleEntry port s = .next s') : Changes [.regs, .eth, .host, .out] s s' := by
  unfold execLpiIdleEntry at e
  obtain rfl := Host.Outcome.next.inj e
  refine .step (lpiEntry_changes ..) ?_ rfl
  exact .refl

theorem execRelayFrameRx_changes (src : RelaySrc) (f : RelayFrame) (s : State) (s' : State) (e : execRelayFrameRx src f s = .next s') : Changes [.regs, .win, .table, .pipe, .rules, .bal, .camp, .plc, .rf, .eth, .relay, .pair, .jr, .host, .sec, .queues, .evt, .out, .draws] s s' := by
  unfold execRelayFrameRx at e
  obtain rfl := Host.Outcome.next.inj e
  refine .step (relayFrameRx_changes ..) ?_ rfl
  exact .refl

theorem execRelayPauseHoldExpiry_changes (port : Bool) (s : State) (s' : State) (e : execRelayPauseHoldExpiry port s = .next s') : Changes [.relay] s s' := by
  unfold execRelayPauseHoldExpiry at e
  obtain rfl := Host.Outcome.next.inj e
  refine .step (pauseHoldExpiry_changes ..) ?_ rfl
  exact .refl

theorem execRelayBatchClose_changes (to_ : BitVec 12) (port : Bool) (s : State) (s' : State) (e : execRelayBatchClose to_ port s = .next s') : Changes [.regs, .rf, .eth, .relay, .host, .out, .draws] s s' := by
  unfold execRelayBatchClose at e
  obtain rfl := Host.Outcome.next.inj e
  refine .step (closeBatch_changes ..) ?_ rfl
  exact .refl

theorem execRelayAckTimeout_changes (id : Nat) (port : Bool) (s : State) (s' : State) (e : execRelayAckTimeout id port s = .next s') : Changes [.regs, .rf, .eth, .relay, .host, .out, .draws] s s' := by
  unfold execRelayAckTimeout at e
  obtain rfl := Host.Outcome.next.inj e
  refine .step (ackTimeout_changes ..) ?_ rfl
  exact .refl

theorem execRelayBatchAck_changes (sender : BitVec 12) (seq : W32) (s : State) (s' : State) (e : execRelayBatchAck sender seq s = .next s') : Changes [.regs, .rf, .eth, .relay, .host, .out, .draws] s s' := by
  unfold execRelayBatchAck at e
  obtain rfl := Host.Outcome.next.inj e
  refine .step (batchAck_changes ..) ?_ rfl
  exact .refl

theorem execSpoolDrain_changes (s : State) (s' : State) (e : execSpoolDrain s = .next s') : Changes [.relay, .jr] s s' := by
  unfold execSpoolDrain at e
  obtain rfl := Host.Outcome.next.inj e
  refine .step (spoolDrain_changes ..) ?_ rfl
  exact .refl

theorem execPtpMessageRx_changes (port : Bool) (m : PtpMsg) (s : State) (s' : State) (e : execPtpMessageRx port m s = .next s') : Changes [.regs, .win, .bal, .camp, .plc, .eth, .relay, .tim, .jr, .host, .mea, .evt, .out, .draws] s s' := by
  unfold execPtpMessageRx at e
  obtain rfl := Host.Outcome.next.inj e
  refine .step (ptpMessageRx_changes ..) ?_ rfl
  exact .refl

theorem execPtpMessageSend_changes (port : Bool) (kind : PtpSend) (s : State) (s' : State) (e : execPtpMessageSend port kind s = .next s') : Changes [.regs, .eth, .host, .out] s s' := by
  unfold execPtpMessageSend at e
  obtain rfl := Host.Outcome.next.inj e
  refine .step (ptpMessageSend_changes ..) ?_ rfl
  exact .refl

theorem execSourceTimeout_changes (code : Nat) (s : State) (s' : State) (e : execSourceTimeout code s = .next s') : Changes [.regs, .tim, .host, .out] s s' := by
  unfold execSourceTimeout at e
  obtain rfl := Host.Outcome.next.inj e
  refine .step (sourceTimeout_changes ..) ?_ rfl
  exact .refl

theorem execTimeWord_changes (s : State) (s' : State) (e : execTimeWord s = .next s') : Changes [.tim, .out] s s' := by
  unfold execTimeWord at e
  obtain rfl := Host.Outcome.next.inj e
  refine .step (timeWord_changes ..) ?_ rfl
  exact .refl

theorem execTimeWordLoss_changes (isl : Nat) (s : State) (s' : State) (e : execTimeWordLoss isl s = .next s') : Changes [.regs, .tim] s s' := by
  unfold execTimeWordLoss at e
  obtain rfl := Host.Outcome.next.inj e
  refine .step (timeWordLoss_changes ..) ?_ rfl
  exact .refl

theorem execRtcWrite_changes (s : State) (s' : State) (e : execRtcWrite s = .next s') : Changes [.regs] s s' := by
  unfold execRtcWrite at e
  obtain rfl := Host.Outcome.next.inj e
  refine .step (rtcWrite_changes ..) ?_ rfl
  exact .refl

theorem execLeapSecond_changes (s : State) (s' : State) (e : execLeapSecond s = .next s') : Changes [.tim] s s' := by
  unfold execLeapSecond at e
  obtain rfl := Host.Outcome.next.inj e
  refine .step (leapSecond_changes ..) ?_ rfl
  exact .refl

theorem execHeartbeatSend_changes (path : Nat) (s : State) (s' : State) (e : execHeartbeatSend path s = .next s') : Changes [.regs, .eth, .pair, .host, .out, .draws] s s' := by
  unfold execHeartbeatSend at e
  obtain rfl := Host.Outcome.next.inj e
  refine .step (heartbeatSend_changes ..) ?_ rfl
  exact .refl

theorem execHeartbeatRx_changes (path : Nat) (hb : Heartbeat) (s : State) (s' : State) (e : execHeartbeatRx path hb s = .next s') : Changes [.deferred, .stalled, .regs, .setup, .lat, .win, .isl, .boot, .clusters, .table, .pipe, .rules, .bal, .camp, .plc, .rf, .eth, .relay, .tim, .pair, .jr, .host, .sec, .arch, .mea, .queues, .mon, .evt, .out, .draws] s s' := by
  unfold execHeartbeatRx at e
  obtain rfl := Host.Outcome.next.inj e
  refine .step (settleAll_changes ..) ?_ rfl
  refine .step (heartbeatRx_changes ..) ?_ rfl
  exact .refl

theorem execHeartbeatPathLost_changes (path : Nat) (s : State) (s' : State) (e : execHeartbeatPathLost path s = .next s') : Changes [.deferred, .stalled, .regs, .setup, .lat, .win, .isl, .boot, .clusters, .table, .pipe, .rules, .bal, .camp, .plc, .rf, .eth, .relay, .tim, .pair, .jr, .host, .sec, .arch, .mea, .queues, .mon, .evt, .out, .draws] s s' := by
  unfold execHeartbeatPathLost at e
  obtain rfl := Host.Outcome.next.inj e
  refine .step (settleAll_changes ..) ?_ rfl
  refine .step (heartbeatPathLost_changes ..) ?_ rfl
  exact .refl

theorem execPrlLossOfSignal_changes (s : State) (s' : State) (e : execPrlLossOfSignal s = .next s') : Changes [.deferred, .stalled, .regs, .setup, .lat, .win, .isl, .boot, .clusters, .table, .pipe, .rules, .bal, .camp, .plc, .rf, .eth, .relay, .tim, .pair, .jr, .host, .sec, .arch, .mea, .queues, .mon, .evt, .out, .draws] s s' := by
  unfold execPrlLossOfSignal at e
  obtain rfl := Host.Outcome.next.inj e
  refine .step (settleAll_changes ..) ?_ rfl
  refine .step (prlLossOfSignal_changes ..) ?_ rfl
  exact .refl

theorem execActInQuiet_changes (s : State) (s' : State) (e : execActInQuiet s = .next s') : Changes [.regs, .table, .rules, .bal, .camp, .plc, .rf, .eth, .relay, .tim, .pair, .jr, .host, .sec, .evt, .out, .draws] s s' := by
  unfold execActInQuiet at e
  obtain rfl := Host.Outcome.next.inj e
  refine .step (actInQuiet_changes ..) ?_ rfl
  exact .refl

theorem execActInEdge_changes (s : State) (s' : State) (e : execActInEdge s = .next s') : Changes [.regs, .table, .pipe, .rules, .bal, .camp, .plc, .rf, .eth, .relay, .tim, .pair, .jr, .host, .sec, .evt, .out, .draws] s s' := by
  unfold execActInEdge at e
  obtain rfl := Host.Outcome.next.inj e
  refine .step (actInEdge_changes ..) ?_ rfl
  exact .refl

theorem execClaimFlashWritten_changes (s : State) (s' : State) (e : execClaimFlashWritten s = .next s') : Changes [.regs, .rf, .eth, .relay, .pair, .jr, .host, .out, .draws] s s' := by
  unfold execClaimFlashWritten at e
  obtain rfl := Host.Outcome.next.inj e
  refine .step (claimFlashWritten_changes ..) ?_ rfl
  exact .refl

theorem execPairWatchdogExpiry_changes (s : State) (s' : State) (e : execPairWatchdogExpiry s = .next s') : Changes [.regs, .table, .pipe, .rules, .plc, .rf, .eth, .relay, .pair, .jr, .host, .evt, .out] s s' := by
  unfold execPairWatchdogExpiry at e
  obtain rfl := Host.Outcome.next.inj e
  refine .step (pairWatchdog_changes ..) ?_ rfl
  exact .refl

theorem execSeekWaitExpiry_changes (s : State) (s' : State) (e : execSeekWaitExpiry s = .next s') : Changes [.regs, .table, .rules, .bal, .camp, .plc, .rf, .eth, .relay, .tim, .pair, .jr, .host, .sec, .evt, .out, .draws] s s' := by
  unfold execSeekWaitExpiry at e
  obtain rfl := Host.Outcome.next.inj e
  refine .step (seekWaitExpiry_changes ..) ?_ rfl
  exact .refl

theorem execFencedExpiry_changes (s : State) (s' : State) (e : execFencedExpiry s = .next s') : Changes [.regs, .table, .rules, .bal, .camp, .plc, .rf, .eth, .relay, .tim, .pair, .jr, .host, .sec, .evt, .out, .draws] s s' := by
  unfold execFencedExpiry at e
  obtain rfl := Host.Outcome.next.inj e
  refine .step (fencedExpiry_changes ..) ?_ rfl
  exact .refl

theorem execJournalBatchClose_changes (s : State) (s' : State) (e : execJournalBatchClose s = .next s') : Changes [.jr, .out] s s' := by
  unfold execJournalBatchClose at e
  obtain rfl := Host.Outcome.next.inj e
  refine .step (journalBatchClose_changes ..) ?_ rfl
  exact .refl

theorem execJournalBatchRx_changes (num : Nat) (mark : Nat) (formOk : Bool) (ents : List JEntry) (s : State) (s' : State) (e : execJournalBatchRx num mark formOk ents s = .next s') : Changes [.regs, .setup, .win, .isl, .table, .rules, .bal, .camp, .plc, .rf, .eth, .relay, .tim, .pair, .jr, .host, .sec, .arch, .evt, .out, .draws] s s' := by
  unfold execJournalBatchRx at e
  obtain rfl := Host.Outcome.next.inj e
  refine .step (journalBatchRx_changes ..) ?_ rfl
  exact .refl

theorem execJournalAckRx_changes (num : Nat) (s : State) (s' : State) (e : execJournalAckRx num s = .next s') : Changes [.deferred, .stalled, .regs, .setup, .lat, .win, .isl, .boot, .clusters, .table, .pipe, .rules, .bal, .camp, .plc, .rf, .eth, .relay, .tim, .pair, .jr, .host, .sec, .arch, .mea, .queues, .mon, .evt, .out, .draws] s s' := by
  unfold execJournalAckRx at e
  obtain rfl := Host.Outcome.next.inj e
  refine .step (settleAll_changes ..) ?_ rfl
  refine .step (journalAckRx_changes ..) ?_ rfl
  exact .refl

theorem execJackTimeout_changes (num : Nat) (s : State) (s' : State) (e : execJackTimeout num s = .next s') : Changes [.deferred, .stalled, .regs, .setup, .lat, .win, .isl, .boot, .clusters, .table, .pipe, .rules, .bal, .camp, .plc, .rf, .eth, .relay, .tim, .pair, .jr, .host, .sec, .arch, .mea, .queues, .mon, .evt, .out, .draws] s s' := by
  unfold execJackTimeout at e
  obtain rfl := Host.Outcome.next.inj e
  refine .step (settleAll_changes ..) ?_ rfl
  refine .step (jackTimeout_changes ..) ?_ rfl
  exact .refl

theorem execSwapHandover_changes (s : State) (s' : State) (e : execSwapHandover s = .next s') : Changes [.regs, .eth, .relay, .pair, .jr, .host, .out, .draws] s s' := by
  unfold execSwapHandover at e
  obtain rfl := Host.Outcome.next.inj e
  refine .step (swapHandover_changes ..) ?_ rfl
  exact .refl

theorem execSwapDrainExpiry_changes (s : State) (s' : State) (e : execSwapDrainExpiry s = .next s') : Changes [.deferred, .regs, .rf, .eth, .relay, .pair, .host, .evt, .out, .draws] s s' := by
  unfold execSwapDrainExpiry at e
  obtain rfl := Host.Outcome.next.inj e
  refine .step (swapDrainExpiry_changes ..) ?_ rfl
  exact .refl

theorem execScheduledSwapDue_changes (s : State) (s' : State) (e : execScheduledSwapDue s = .next s') : Changes [.regs, .rf, .eth, .relay, .pair, .host, .evt, .out, .draws] s s' := by
  unfold execScheduledSwapDue at e
  obtain rfl := Host.Outcome.next.inj e
  refine .step (scheduledSwapDue_changes ..) ?_ rfl
  exact .refl

theorem execProofExpiry_changes (last : Bool) (s : State) (s' : State) (e : execProofExpiry last s = .next s') : Changes [.regs, .boot, .pair, .jr] s s' := by
  unfold execProofExpiry at e
  obtain rfl := Host.Outcome.next.inj e
  refine .step (proofExpiry_changes ..) ?_ rfl
  exact .refl

theorem execLdFaultPinRise_changes (inst : Nat) (s : State) (s' : State) (e : execLdFaultPinRise inst s = .next s') : Changes [.plc] s s' := by
  unfold execLdFaultPinRise at e
  obtain rfl := Host.Outcome.next.inj e
  refine .step (ldFaultRise_changes ..) ?_ rfl
  exact .refl

theorem execPartnerEeeTlvExpiry_changes (port : Bool) (s : State) (s' : State) (e : execPartnerEeeTlvExpiry port s = .next s') : Changes [.eth] s s' := by
  unfold execPartnerEeeTlvExpiry at e
  obtain rfl := Host.Outcome.next.inj e
  refine .step (tlvExpiry_changes ..) ?_ rfl
  exact .refl

theorem execMeaSecondEnd_changes (x0 : List (List Int)) (x1 : List (List Int)) (s : State) (s' : State) (e : execMeaSecondEnd x0 x1 s = .next s') : Changes [.regs, .win, .bal, .relay, .jr, .mea, .evt, .draws] s s' := by
  unfold execMeaSecondEnd at e
  obtain rfl := Host.Outcome.next.inj e
  refine .step (meaSecondEnd_changes ..) ?_ rfl
  exact .refl

theorem execMeaMinuteEnd_changes (s : State) (s' : State) (e : execMeaMinuteEnd s = .next s') : Changes [.regs, .win, .bal, .relay, .jr, .mea, .evt] s s' := by
  unfold execMeaMinuteEnd at e
  obtain rfl := Host.Outcome.next.inj e
  refine .step (meaMinuteEnd_changes ..) ?_ rfl
  exact .refl

theorem execMeaHalfCycleRms_changes (head : Nat) (phase : Nat) (codes : List Int) (s : State) (s' : State) (e : execMeaHalfCycleRms head phase codes s = .next s') : Changes [.regs, .mea, .evt, .draws] s s' := by
  unfold execMeaHalfCycleRms at e
  obtain rfl := Host.Outcome.next.inj e
  refine .step (halfCycle_changes ..) ?_ rfl
  exact .refl

theorem execEventAccept_changes (s : State) (s' : State) (e : execEventAccept s = .next s') : Changes [.regs, .jr, .host, .evt, .out] s s' := by
  unfold execEventAccept at e
  obtain rfl := Host.Outcome.next.inj e
  refine .step (eventAccept_changes ..) ?_ rfl
  exact .refl

theorem execEventArchiveWrite_changes (s : State) (s' : State) (e : execEventArchiveWrite s = .next s') : Changes [.evt] s s' := by
  unfold execEventArchiveWrite at e
  obtain rfl := Host.Outcome.next.inj e
  refine .step (eventArchiveWrite_changes ..) ?_ rfl
  exact .refl

theorem execEvtBucketRefill_changes (s : State) (s' : State) (e : execEvtBucketRefill s = .next s') : Changes [.evt] s s' := by
  unfold execEvtBucketRefill at e
  obtain rfl := Host.Outcome.next.inj e
  refine .step (evtRefill_changes ..) ?_ rfl
  exact .refl

theorem execRateWindowBoundary_changes (level : Nat) (s : State) (s' : State) (e : execRateWindowBoundary level s = .next s') : Changes [.win, .bal, .camp, .plc, .evt] s s' := by
  unfold execRateWindowBoundary at e
  obtain rfl := Host.Outcome.next.inj e
  refine .step (rateWindow_changes ..) ?_ rfl
  exact .refl

theorem execMonSample_changes (ch : Nat) (v : Int) (s : State) (s' : State) (e : execMonSample ch v s = .next s') : Changes [.regs, .host, .mon, .evt, .out] s s' := by
  unfold execMonSample at e
  obtain rfl := Host.Outcome.next.inj e
  refine .step (monSample_changes ..) ?_ rfl
  exact .refl

theorem execArchiveFlushExpiry_changes (s : State) (s' : State) (e : execArchiveFlushExpiry s = .next s') : Changes [.regs, .arch] s s' := by
  unfold execArchiveFlushExpiry at e
  obtain rfl := Host.Outcome.next.inj e
  refine .step (archiveFlush_changes ..) ?_ rfl
  exact .refl

theorem execPageProgramComplete_changes (s : State) (s' : State) (e : execPageProgramComplete s = .next s') : Changes [.regs, .host, .arch, .out] s s' := by
  unfold execPageProgramComplete at e
  obtain rfl := Host.Outcome.next.inj e
  refine .step (runPageProgram_changes ..) ?_ rfl
  exact .refl

theorem execProgramEraseFail_changes (block : Nat) (erase : Bool) (s : State) (s' : State) (e : execProgramEraseFail block erase s = .next s') : Changes [.regs, .arch] s s' := by
  unfold execProgramEraseFail at e
  obtain rfl := Host.Outcome.next.inj e
  refine .step (programEraseFail_changes ..) ?_ rfl
  exact .refl

theorem execBlockCollection_changes (s : State) (s' : State) (e : execBlockCollection s = .next s') : Changes [.regs, .arch] s s' := by
  unfold execBlockCollection at e
  obtain rfl := Host.Outcome.next.inj e
  refine .step (blockCollection_changes ..) ?_ rfl
  exact .refl

theorem execWearLevelMove_changes (s : State) (s' : State) (e : execWearLevelMove s = .next s') : Changes [.regs, .win, .arch] s s' := by
  unfold execWearLevelMove at e
  obtain rfl := Host.Outcome.next.inj e
  refine .step (wearLevelMove_changes ..) ?_ rfl
  exact .refl

theorem execThermalAgeTick_changes (s : State) (s' : State) (e : execThermalAgeTick s = .next s') : Changes [.arch] s s' := by
  unfold execThermalAgeTick at e
  obtain rfl := Host.Outcome.next.inj e
  refine .step (thermalAgeTick_changes ..) ?_ rfl
  exact .refl

theorem execRetentionScan_changes (s : State) (s' : State) (e : execRetentionScan s = .next s') : Changes [.regs, .arch] s s' := by
  unfold execRetentionScan at e
  obtain rfl := Host.Outcome.next.inj e
  refine .step (retentionScan_changes ..) ?_ rfl
  exact .refl

theorem execArchiveMount_changes (scan : MountScan) (s : State) (s' : State) (e : execArchiveMount scan s = .next s') : Changes [.regs, .win, .camp, .relay, .jr, .arch, .evt] s s' := by
  unfold execArchiveMount at e
  obtain rfl := Host.Outcome.next.inj e
  refine .step (archiveMount_changes ..) ?_ rfl
  exact .refl

theorem execOverflowWriteback_changes (s : State) (s' : State) (e : execOverflowWriteback s = .next s') : Changes [.arch] s s' := by
  unfold execOverflowWriteback at e
  obtain rfl := Host.Outcome.next.inj e
  refine .step (overflowWriteback_changes ..) ?_ rfl
  exact .refl

theorem execArchFormatComplete_changes (s : State) (s' : State) (e : execArchFormatComplete s = .next s') : Changes [.regs, .camp, .eth, .relay, .jr, .host, .arch, .evt, .out] s s' := by
  unfold execArchFormatComplete at e
  obtain rfl := Host.Outcome.next.inj e
  refine .step (formatComplete_changes ..) ?_ rfl
  exact .refl

end Sys2Proof.Machine
end

