-- ==== Sys2Proof/Laws/Entered.lean ====
section
/-!
SUPPORT. Sys2Proof/Laws/Entered.lean: a command whose work starts runs its body and is answered; what the answer may change.
-/
namespace Sys2Proof.Machine

/-- A command that is entered does its own work on the state it enters, and is answered. -/
theorem command_of_entered {h : Hdr} {c : Cmd} {s u : State} (body : State → State × Reply) (hu : State.entered h c s = some u) :
    command h c body s = State.answered h c (body u).2 u (body u).1 := by
  unfold State.entered at hu
  split at hu
  · cases hu
  · rename_i hm
    simp only [Bool.or_eq_true, Bool.and_eq_true, not_or, Bool.not_eq_true'] at hm
    obtain ⟨hm1, hm2⟩ := hm
    have hswap : (if c == .pairSwap then none else s.pair.swap) = none := by
      split
      · rfl
      · rename_i hc
        cases hs : s.pair.swap with
        | none => rfl
        | some w => exact absurd ⟨by simpa [bne] using hc, by simp [hs]⟩ hm2
    unfold command
    rw [if_neg (by simpa using hm1), hswap]
    dsimp only
    split at hu
    · cases hu
    · rename_i s1 he
      try (rw [he]; dsimp only)
      unfold runChecked
      dsimp only
      split at hu
      · cases hu
      · rename_i s2 hc
        try (rw [hc]; dsimp only)
        split at hu
        · cases hu
        · rename_i hn
          obtain rfl := Option.some.inj hu
          simp only [Bool.or_eq_true, not_or, Bool.not_eq_true] at hn
          have h1 : entryCheck h c s2 = none := by
            cases e : entryCheck h c s2 with
            | none => rfl
            | some r => simp [e] at hn
          try (rw [h1]; dsimp only)
          rw [if_neg (by simp [hn.2])]
          rfl

/-- The answer changes counters, transmit buffers, the journal, the host's side and what is sent. -/
theorem answered_changes (h : Hdr) (c : Cmd) (r : Reply) (u v : State) :
    Changes [.regs, .eth, .jr, .host, .out] v (State.answered h c r u v) := by
  unfold State.answered
  exact .step (replyAfter_changes ..) (.step (journalCounter_changes ..) .refl rfl) rfl

/-- What happens before a command starts its own work changes counters, windows, key counters, clocks that DOZE gated and the rings. -/
theorem entered_changes {h : Hdr} {c : Cmd} {s u : State} (hu : State.entered h c s = some u) :
    Changes [.regs, .win, .isl, .host, .sec, .evt] s u := by
  unfold State.entered at hu
  split at hu
  · cases hu
  · split at hu
    · cases hu
    · rename_i s1 he
      split at hu
      · cases hu
      · rename_i s2 hc
        split at hu
        · cases hu
        · obtain rfl := Option.some.inj hu
          exact .step ((checkCommand_changes).2 hc) (.step (wakeFor_changes ..) (.step (startInFlight_changes ..) ((ethAdmit_changes he).mono rfl) rfl) rfl) rfl

end Sys2Proof.Machine
end

