-- ==== Sys2Proof/Laws/State.lean ====
section
/-!
SUPPORT. Sys2Proof/Laws/State.lean: what the shared operations leave of each field of the state, one lemma for each operation and
field, so that no proof unfolds them for a field they do not touch.
-/
namespace Sys2Proof.Machine

/-! ## setReg -/

@[simp] theorem setReg_pending (off : Nat) (v : W32) (s : State) : (setReg off v s).pending = s.pending := rfl
@[simp] theorem setReg_deferred (off : Nat) (v : W32) (s : State) : (setReg off v s).deferred = s.deferred := rfl
@[simp] theorem setReg_stalled (off : Nat) (v : W32) (s : State) : (setReg off v s).stalled = s.stalled := rfl
@[simp] theorem setReg_lat (off : Nat) (v : W32) (s : State) : (setReg off v s).lat = s.lat := rfl
@[simp] theorem setReg_win (off : Nat) (v : W32) (s : State) : (setReg off v s).win = s.win := rfl
@[simp] theorem setReg_isl (off : Nat) (v : W32) (s : State) : (setReg off v s).isl = s.isl := rfl
@[simp] theorem setReg_boot (off : Nat) (v : W32) (s : State) : (setReg off v s).boot = s.boot := rfl
@[simp] theorem setReg_clusters (off : Nat) (v : W32) (s : State) : (setReg off v s).clusters = s.clusters := rfl
@[simp] theorem setReg_table (off : Nat) (v : W32) (s : State) : (setReg off v s).table = s.table := rfl
@[simp] theorem setReg_pipe (off : Nat) (v : W32) (s : State) : (setReg off v s).pipe = s.pipe := rfl
@[simp] theorem setReg_rules (off : Nat) (v : W32) (s : State) : (setReg off v s).rules = s.rules := rfl
@[simp] theorem setReg_bal (off : Nat) (v : W32) (s : State) : (setReg off v s).bal = s.bal := rfl
@[simp] theorem setReg_camp (off : Nat) (v : W32) (s : State) : (setReg off v s).camp = s.camp := rfl
@[simp] theorem setReg_plc (off : Nat) (v : W32) (s : State) : (setReg off v s).plc = s.plc := rfl
@[simp] theorem setReg_rf (off : Nat) (v : W32) (s : State) : (setReg off v s).rf = s.rf := rfl
@[simp] theorem setReg_eth (off : Nat) (v : W32) (s : State) : (setReg off v s).eth = s.eth := rfl
@[simp] theorem setReg_relay (off : Nat) (v : W32) (s : State) : (setReg off v s).relay = s.relay := rfl
@[simp] theorem setReg_tim (off : Nat) (v : W32) (s : State) : (setReg off v s).tim = s.tim := rfl
@[simp] theorem setReg_pair (off : Nat) (v : W32) (s : State) : (setReg off v s).pair = s.pair := rfl
@[simp] theorem setReg_jr (off : Nat) (v : W32) (s : State) : (setReg off v s).jr = s.jr := rfl
@[simp] theorem setReg_host (off : Nat) (v : W32) (s : State) : (setReg off v s).host = s.host := rfl
@[simp] theorem setReg_sec (off : Nat) (v : W32) (s : State) : (setReg off v s).sec = s.sec := rfl
@[simp] theorem setReg_arch (off : Nat) (v : W32) (s : State) : (setReg off v s).arch = s.arch := rfl
@[simp] theorem setReg_mea (off : Nat) (v : W32) (s : State) : (setReg off v s).mea = s.mea := rfl
@[simp] theorem setReg_queues (off : Nat) (v : W32) (s : State) : (setReg off v s).queues = s.queues := rfl
@[simp] theorem setReg_mon (off : Nat) (v : W32) (s : State) : (setReg off v s).mon = s.mon := rfl
@[simp] theorem setReg_evt (off : Nat) (v : W32) (s : State) : (setReg off v s).evt = s.evt := rfl
@[simp] theorem setReg_out (off : Nat) (v : W32) (s : State) : (setReg off v s).out = s.out := rfl
@[simp] theorem setReg_draws (off : Nat) (v : W32) (s : State) : (setReg off v s).draws = s.draws := rfl

/-! ## setField -/

@[simp] theorem setField_pending (off : Nat) (hi : Nat) (lo : Nat) (v : Nat) (s : State) : (setField off hi lo v s).pending = s.pending := rfl
@[simp] theorem setField_deferred (off : Nat) (hi : Nat) (lo : Nat) (v : Nat) (s : State) : (setField off hi lo v s).deferred = s.deferred := rfl
@[simp] theorem setField_stalled (off : Nat) (hi : Nat) (lo : Nat) (v : Nat) (s : State) : (setField off hi lo v s).stalled = s.stalled := rfl
@[simp] theorem setField_lat (off : Nat) (hi : Nat) (lo : Nat) (v : Nat) (s : State) : (setField off hi lo v s).lat = s.lat := rfl
@[simp] theorem setField_win (off : Nat) (hi : Nat) (lo : Nat) (v : Nat) (s : State) : (setField off hi lo v s).win = s.win := rfl
@[simp] theorem setField_isl (off : Nat) (hi : Nat) (lo : Nat) (v : Nat) (s : State) : (setField off hi lo v s).isl = s.isl := rfl
@[simp] theorem setField_boot (off : Nat) (hi : Nat) (lo : Nat) (v : Nat) (s : State) : (setField off hi lo v s).boot = s.boot := rfl
@[simp] theorem setField_clusters (off : Nat) (hi : Nat) (lo : Nat) (v : Nat) (s : State) : (setField off hi lo v s).clusters = s.clusters := rfl
@[simp] theorem setField_table (off : Nat) (hi : Nat) (lo : Nat) (v : Nat) (s : State) : (setField off hi lo v s).table = s.table := rfl
@[simp] theorem setField_pipe (off : Nat) (hi : Nat) (lo : Nat) (v : Nat) (s : State) : (setField off hi lo v s).pipe = s.pipe := rfl
@[simp] theorem setField_rules (off : Nat) (hi : Nat) (lo : Nat) (v : Nat) (s : State) : (setField off hi lo v s).rules = s.rules := rfl
@[simp] theorem setField_bal (off : Nat) (hi : Nat) (lo : Nat) (v : Nat) (s : State) : (setField off hi lo v s).bal = s.bal := rfl
@[simp] theorem setField_camp (off : Nat) (hi : Nat) (lo : Nat) (v : Nat) (s : State) : (setField off hi lo v s).camp = s.camp := rfl
@[simp] theorem setField_plc (off : Nat) (hi : Nat) (lo : Nat) (v : Nat) (s : State) : (setField off hi lo v s).plc = s.plc := rfl
@[simp] theorem setField_rf (off : Nat) (hi : Nat) (lo : Nat) (v : Nat) (s : State) : (setField off hi lo v s).rf = s.rf := rfl
@[simp] theorem setField_eth (off : Nat) (hi : Nat) (lo : Nat) (v : Nat) (s : State) : (setField off hi lo v s).eth = s.eth := rfl
@[simp] theorem setField_relay (off : Nat) (hi : Nat) (lo : Nat) (v : Nat) (s : State) : (setField off hi lo v s).relay = s.relay := rfl
@[simp] theorem setField_tim (off : Nat) (hi : Nat) (lo : Nat) (v : Nat) (s : State) : (setField off hi lo v s).tim = s.tim := rfl
@[simp] theorem setField_pair (off : Nat) (hi : Nat) (lo : Nat) (v : Nat) (s : State) : (setField off hi lo v s).pair = s.pair := rfl
@[simp] theorem setField_jr (off : Nat) (hi : Nat) (lo : Nat) (v : Nat) (s : State) : (setField off hi lo v s).jr = s.jr := rfl
@[simp] theorem setField_host (off : Nat) (hi : Nat) (lo : Nat) (v : Nat) (s : State) : (setField off hi lo v s).host = s.host := rfl
@[simp] theorem setField_sec (off : Nat) (hi : Nat) (lo : Nat) (v : Nat) (s : State) : (setField off hi lo v s).sec = s.sec := rfl
@[simp] theorem setField_arch (off : Nat) (hi : Nat) (lo : Nat) (v : Nat) (s : State) : (setField off hi lo v s).arch = s.arch := rfl
@[simp] theorem setField_mea (off : Nat) (hi : Nat) (lo : Nat) (v : Nat) (s : State) : (setField off hi lo v s).mea = s.mea := rfl
@[simp] theorem setField_queues (off : Nat) (hi : Nat) (lo : Nat) (v : Nat) (s : State) : (setField off hi lo v s).queues = s.queues := rfl
@[simp] theorem setField_mon (off : Nat) (hi : Nat) (lo : Nat) (v : Nat) (s : State) : (setField off hi lo v s).mon = s.mon := rfl
@[simp] theorem setField_evt (off : Nat) (hi : Nat) (lo : Nat) (v : Nat) (s : State) : (setField off hi lo v s).evt = s.evt := rfl
@[simp] theorem setField_out (off : Nat) (hi : Nat) (lo : Nat) (v : Nat) (s : State) : (setField off hi lo v s).out = s.out := rfl
@[simp] theorem setField_draws (off : Nat) (hi : Nat) (lo : Nat) (v : Nat) (s : State) : (setField off hi lo v s).draws = s.draws := rfl

/-! ## countBy -/

@[simp] theorem countBy_pending (off : Nat) (n : Nat) (s : State) : (countBy off n s).pending = s.pending := rfl
@[simp] theorem countBy_deferred (off : Nat) (n : Nat) (s : State) : (countBy off n s).deferred = s.deferred := rfl
@[simp] theorem countBy_stalled (off : Nat) (n : Nat) (s : State) : (countBy off n s).stalled = s.stalled := rfl
@[simp] theorem countBy_lat (off : Nat) (n : Nat) (s : State) : (countBy off n s).lat = s.lat := rfl
@[simp] theorem countBy_win (off : Nat) (n : Nat) (s : State) : (countBy off n s).win = s.win := rfl
@[simp] theorem countBy_isl (off : Nat) (n : Nat) (s : State) : (countBy off n s).isl = s.isl := rfl
@[simp] theorem countBy_boot (off : Nat) (n : Nat) (s : State) : (countBy off n s).boot = s.boot := rfl
@[simp] theorem countBy_clusters (off : Nat) (n : Nat) (s : State) : (countBy off n s).clusters = s.clusters := rfl
@[simp] theorem countBy_table (off : Nat) (n : Nat) (s : State) : (countBy off n s).table = s.table := rfl
@[simp] theorem countBy_pipe (off : Nat) (n : Nat) (s : State) : (countBy off n s).pipe = s.pipe := rfl
@[simp] theorem countBy_rules (off : Nat) (n : Nat) (s : State) : (countBy off n s).rules = s.rules := rfl
@[simp] theorem countBy_bal (off : Nat) (n : Nat) (s : State) : (countBy off n s).bal = s.bal := rfl
@[simp] theorem countBy_camp (off : Nat) (n : Nat) (s : State) : (countBy off n s).camp = s.camp := rfl
@[simp] theorem countBy_plc (off : Nat) (n : Nat) (s : State) : (countBy off n s).plc = s.plc := rfl
@[simp] theorem countBy_rf (off : Nat) (n : Nat) (s : State) : (countBy off n s).rf = s.rf := rfl
@[simp] theorem countBy_eth (off : Nat) (n : Nat) (s : State) : (countBy off n s).eth = s.eth := rfl
@[simp] theorem countBy_relay (off : Nat) (n : Nat) (s : State) : (countBy off n s).relay = s.relay := rfl
@[simp] theorem countBy_tim (off : Nat) (n : Nat) (s : State) : (countBy off n s).tim = s.tim := rfl
@[simp] theorem countBy_pair (off : Nat) (n : Nat) (s : State) : (countBy off n s).pair = s.pair := rfl
@[simp] theorem countBy_jr (off : Nat) (n : Nat) (s : State) : (countBy off n s).jr = s.jr := rfl
@[simp] theorem countBy_host (off : Nat) (n : Nat) (s : State) : (countBy off n s).host = s.host := rfl
@[simp] theorem countBy_sec (off : Nat) (n : Nat) (s : State) : (countBy off n s).sec = s.sec := rfl
@[simp] theorem countBy_arch (off : Nat) (n : Nat) (s : State) : (countBy off n s).arch = s.arch := rfl
@[simp] theorem countBy_mea (off : Nat) (n : Nat) (s : State) : (countBy off n s).mea = s.mea := rfl
@[simp] theorem countBy_queues (off : Nat) (n : Nat) (s : State) : (countBy off n s).queues = s.queues := rfl
@[simp] theorem countBy_mon (off : Nat) (n : Nat) (s : State) : (countBy off n s).mon = s.mon := rfl
@[simp] theorem countBy_evt (off : Nat) (n : Nat) (s : State) : (countBy off n s).evt = s.evt := rfl
@[simp] theorem countBy_out (off : Nat) (n : Nat) (s : State) : (countBy off n s).out = s.out := rfl
@[simp] theorem countBy_draws (off : Nat) (n : Nat) (s : State) : (countBy off n s).draws = s.draws := rfl

/-! ## count -/

@[simp] theorem count_pending (off : Nat) (s : State) : (count off s).pending = s.pending := rfl
@[simp] theorem count_deferred (off : Nat) (s : State) : (count off s).deferred = s.deferred := rfl
@[simp] theorem count_stalled (off : Nat) (s : State) : (count off s).stalled = s.stalled := rfl
@[simp] theorem count_lat (off : Nat) (s : State) : (count off s).lat = s.lat := rfl
@[simp] theorem count_win (off : Nat) (s : State) : (count off s).win = s.win := rfl
@[simp] theorem count_isl (off : Nat) (s : State) : (count off s).isl = s.isl := rfl
@[simp] theorem count_boot (off : Nat) (s : State) : (count off s).boot = s.boot := rfl
@[simp] theorem count_clusters (off : Nat) (s : State) : (count off s).clusters = s.clusters := rfl
@[simp] theorem count_table (off : Nat) (s : State) : (count off s).table = s.table := rfl
@[simp] theorem count_pipe (off : Nat) (s : State) : (count off s).pipe = s.pipe := rfl
@[simp] theorem count_rules (off : Nat) (s : State) : (count off s).rules = s.rules := rfl
@[simp] theorem count_bal (off : Nat) (s : State) : (count off s).bal = s.bal := rfl
@[simp] theorem count_camp (off : Nat) (s : State) : (count off s).camp = s.camp := rfl
@[simp] theorem count_plc (off : Nat) (s : State) : (count off s).plc = s.plc := rfl
@[simp] theorem count_rf (off : Nat) (s : State) : (count off s).rf = s.rf := rfl
@[simp] theorem count_eth (off : Nat) (s : State) : (count off s).eth = s.eth := rfl
@[simp] theorem count_relay (off : Nat) (s : State) : (count off s).relay = s.relay := rfl
@[simp] theorem count_tim (off : Nat) (s : State) : (count off s).tim = s.tim := rfl
@[simp] theorem count_pair (off : Nat) (s : State) : (count off s).pair = s.pair := rfl
@[simp] theorem count_jr (off : Nat) (s : State) : (count off s).jr = s.jr := rfl
@[simp] theorem count_host (off : Nat) (s : State) : (count off s).host = s.host := rfl
@[simp] theorem count_sec (off : Nat) (s : State) : (count off s).sec = s.sec := rfl
@[simp] theorem count_arch (off : Nat) (s : State) : (count off s).arch = s.arch := rfl
@[simp] theorem count_mea (off : Nat) (s : State) : (count off s).mea = s.mea := rfl
@[simp] theorem count_queues (off : Nat) (s : State) : (count off s).queues = s.queues := rfl
@[simp] theorem count_mon (off : Nat) (s : State) : (count off s).mon = s.mon := rfl
@[simp] theorem count_evt (off : Nat) (s : State) : (count off s).evt = s.evt := rfl
@[simp] theorem count_out (off : Nat) (s : State) : (count off s).out = s.out := rfl
@[simp] theorem count_draws (off : Nat) (s : State) : (count off s).draws = s.draws := rfl

/-! ## emit -/

@[simp] theorem emit_pending (o : Out) (s : State) : (emit o s).pending = s.pending := rfl
@[simp] theorem emit_deferred (o : Out) (s : State) : (emit o s).deferred = s.deferred := rfl
@[simp] theorem emit_stalled (o : Out) (s : State) : (emit o s).stalled = s.stalled := rfl
@[simp] theorem emit_regs (o : Out) (s : State) : (emit o s).regs = s.regs := rfl
@[simp] theorem emit_lat (o : Out) (s : State) : (emit o s).lat = s.lat := rfl
@[simp] theorem emit_win (o : Out) (s : State) : (emit o s).win = s.win := rfl
@[simp] theorem emit_isl (o : Out) (s : State) : (emit o s).isl = s.isl := rfl
@[simp] theorem emit_boot (o : Out) (s : State) : (emit o s).boot = s.boot := rfl
@[simp] theorem emit_clusters (o : Out) (s : State) : (emit o s).clusters = s.clusters := rfl
@[simp] theorem emit_table (o : Out) (s : State) : (emit o s).table = s.table := rfl
@[simp] theorem emit_pipe (o : Out) (s : State) : (emit o s).pipe = s.pipe := rfl
@[simp] theorem emit_rules (o : Out) (s : State) : (emit o s).rules = s.rules := rfl
@[simp] theorem emit_bal (o : Out) (s : State) : (emit o s).bal = s.bal := rfl
@[simp] theorem emit_camp (o : Out) (s : State) : (emit o s).camp = s.camp := rfl
@[simp] theorem emit_plc (o : Out) (s : State) : (emit o s).plc = s.plc := rfl
@[simp] theorem emit_rf (o : Out) (s : State) : (emit o s).rf = s.rf := rfl
@[simp] theorem emit_eth (o : Out) (s : State) : (emit o s).eth = s.eth := rfl
@[simp] theorem emit_relay (o : Out) (s : State) : (emit o s).relay = s.relay := rfl
@[simp] theorem emit_tim (o : Out) (s : State) : (emit o s).tim = s.tim := rfl
@[simp] theorem emit_pair (o : Out) (s : State) : (emit o s).pair = s.pair := rfl
@[simp] theorem emit_jr (o : Out) (s : State) : (emit o s).jr = s.jr := rfl
@[simp] theorem emit_host (o : Out) (s : State) : (emit o s).host = s.host := rfl
@[simp] theorem emit_sec (o : Out) (s : State) : (emit o s).sec = s.sec := rfl
@[simp] theorem emit_arch (o : Out) (s : State) : (emit o s).arch = s.arch := rfl
@[simp] theorem emit_mea (o : Out) (s : State) : (emit o s).mea = s.mea := rfl
@[simp] theorem emit_queues (o : Out) (s : State) : (emit o s).queues = s.queues := rfl
@[simp] theorem emit_mon (o : Out) (s : State) : (emit o s).mon = s.mon := rfl
@[simp] theorem emit_evt (o : Out) (s : State) : (emit o s).evt = s.evt := rfl
@[simp] theorem emit_draws (o : Out) (s : State) : (emit o s).draws = s.draws := rfl

/-! ## setIsl -/

@[simp] theorem setIsl_pending (n : Nat) (v : Island) (s : State) : (setIsl n v s).pending = s.pending := rfl
@[simp] theorem setIsl_deferred (n : Nat) (v : Island) (s : State) : (setIsl n v s).deferred = s.deferred := rfl
@[simp] theorem setIsl_stalled (n : Nat) (v : Island) (s : State) : (setIsl n v s).stalled = s.stalled := rfl
@[simp] theorem setIsl_regs (n : Nat) (v : Island) (s : State) : (setIsl n v s).regs = s.regs := rfl
@[simp] theorem setIsl_lat (n : Nat) (v : Island) (s : State) : (setIsl n v s).lat = s.lat := rfl
@[simp] theorem setIsl_win (n : Nat) (v : Island) (s : State) : (setIsl n v s).win = s.win := rfl
@[simp] theorem setIsl_boot (n : Nat) (v : Island) (s : State) : (setIsl n v s).boot = s.boot := rfl
@[simp] theorem setIsl_clusters (n : Nat) (v : Island) (s : State) : (setIsl n v s).clusters = s.clusters := rfl
@[simp] theorem setIsl_table (n : Nat) (v : Island) (s : State) : (setIsl n v s).table = s.table := rfl
@[simp] theorem setIsl_pipe (n : Nat) (v : Island) (s : State) : (setIsl n v s).pipe = s.pipe := rfl
@[simp] theorem setIsl_rules (n : Nat) (v : Island) (s : State) : (setIsl n v s).rules = s.rules := rfl
@[simp] theorem setIsl_bal (n : Nat) (v : Island) (s : State) : (setIsl n v s).bal = s.bal := rfl
@[simp] theorem setIsl_camp (n : Nat) (v : Island) (s : State) : (setIsl n v s).camp = s.camp := rfl
@[simp] theorem setIsl_plc (n : Nat) (v : Island) (s : State) : (setIsl n v s).plc = s.plc := rfl
@[simp] theorem setIsl_rf (n : Nat) (v : Island) (s : State) : (setIsl n v s).rf = s.rf := rfl
@[simp] theorem setIsl_eth (n : Nat) (v : Island) (s : State) : (setIsl n v s).eth = s.eth := rfl
@[simp] theorem setIsl_relay (n : Nat) (v : Island) (s : State) : (setIsl n v s).relay = s.relay := rfl
@[simp] theorem setIsl_tim (n : Nat) (v : Island) (s : State) : (setIsl n v s).tim = s.tim := rfl
@[simp] theorem setIsl_pair (n : Nat) (v : Island) (s : State) : (setIsl n v s).pair = s.pair := rfl
@[simp] theorem setIsl_jr (n : Nat) (v : Island) (s : State) : (setIsl n v s).jr = s.jr := rfl
@[simp] theorem setIsl_host (n : Nat) (v : Island) (s : State) : (setIsl n v s).host = s.host := rfl
@[simp] theorem setIsl_sec (n : Nat) (v : Island) (s : State) : (setIsl n v s).sec = s.sec := rfl
@[simp] theorem setIsl_arch (n : Nat) (v : Island) (s : State) : (setIsl n v s).arch = s.arch := rfl
@[simp] theorem setIsl_mea (n : Nat) (v : Island) (s : State) : (setIsl n v s).mea = s.mea := rfl
@[simp] theorem setIsl_queues (n : Nat) (v : Island) (s : State) : (setIsl n v s).queues = s.queues := rfl
@[simp] theorem setIsl_mon (n : Nat) (v : Island) (s : State) : (setIsl n v s).mon = s.mon := rfl
@[simp] theorem setIsl_evt (n : Nat) (v : Island) (s : State) : (setIsl n v s).evt = s.evt := rfl
@[simp] theorem setIsl_out (n : Nat) (v : Island) (s : State) : (setIsl n v s).out = s.out := rfl
@[simp] theorem setIsl_draws (n : Nat) (v : Island) (s : State) : (setIsl n v s).draws = s.draws := rfl

/-! ## journal -/

@[simp] theorem journal_pending (e : JEntry) (s : State) : (journal e s).pending = s.pending := by have h := (journal_changes e s).same .pending (by decide); exact h
@[simp] theorem journal_deferred (e : JEntry) (s : State) : (journal e s).deferred = s.deferred := by have h := (journal_changes e s).same .deferred (by decide); exact h
@[simp] theorem journal_stalled (e : JEntry) (s : State) : (journal e s).stalled = s.stalled := by have h := (journal_changes e s).same .stalled (by decide); exact h
@[simp] theorem journal_regs (e : JEntry) (s : State) : (journal e s).regs = s.regs := by have h := (journal_changes e s).same .regs (by decide); exact h
@[simp] theorem journal_lat (e : JEntry) (s : State) : (journal e s).lat = s.lat := by have h := (journal_changes e s).same .lat (by decide); exact h
@[simp] theorem journal_win (e : JEntry) (s : State) : (journal e s).win = s.win := by have h := (journal_changes e s).same .win (by decide); exact h
@[simp] theorem journal_isl (e : JEntry) (s : State) : (journal e s).isl = s.isl := by have h := (journal_changes e s).same .isl (by decide); exact h
@[simp] theorem journal_boot (e : JEntry) (s : State) : (journal e s).boot = s.boot := by have h := (journal_changes e s).same .boot (by decide); exact h
@[simp] theorem journal_clusters (e : JEntry) (s : State) : (journal e s).clusters = s.clusters := by have h := (journal_changes e s).same .clusters (by decide); exact h
@[simp] theorem journal_table (e : JEntry) (s : State) : (journal e s).table = s.table := by have h := (journal_changes e s).same .table (by decide); exact h
@[simp] theorem journal_pipe (e : JEntry) (s : State) : (journal e s).pipe = s.pipe := by have h := (journal_changes e s).same .pipe (by decide); exact h
@[simp] theorem journal_rules (e : JEntry) (s : State) : (journal e s).rules = s.rules := by have h := (journal_changes e s).same .rules (by decide); exact h
@[simp] theorem journal_bal (e : JEntry) (s : State) : (journal e s).bal = s.bal := by have h := (journal_changes e s).same .bal (by decide); exact h
@[simp] theorem journal_camp (e : JEntry) (s : State) : (journal e s).camp = s.camp := by have h := (journal_changes e s).same .camp (by decide); exact h
@[simp] theorem journal_plc (e : JEntry) (s : State) : (journal e s).plc = s.plc := by have h := (journal_changes e s).same .plc (by decide); exact h
@[simp] theorem journal_rf (e : JEntry) (s : State) : (journal e s).rf = s.rf := by have h := (journal_changes e s).same .rf (by decide); exact h
@[simp] theorem journal_eth (e : JEntry) (s : State) : (journal e s).eth = s.eth := by have h := (journal_changes e s).same .eth (by decide); exact h
@[simp] theorem journal_relay (e : JEntry) (s : State) : (journal e s).relay = s.relay := by have h := (journal_changes e s).same .relay (by decide); exact h
@[simp] theorem journal_tim (e : JEntry) (s : State) : (journal e s).tim = s.tim := by have h := (journal_changes e s).same .tim (by decide); exact h
@[simp] theorem journal_pair (e : JEntry) (s : State) : (journal e s).pair = s.pair := by have h := (journal_changes e s).same .pair (by decide); exact h
@[simp] theorem journal_host (e : JEntry) (s : State) : (journal e s).host = s.host := by have h := (journal_changes e s).same .host (by decide); exact h
@[simp] theorem journal_sec (e : JEntry) (s : State) : (journal e s).sec = s.sec := by have h := (journal_changes e s).same .sec (by decide); exact h
@[simp] theorem journal_arch (e : JEntry) (s : State) : (journal e s).arch = s.arch := by have h := (journal_changes e s).same .arch (by decide); exact h
@[simp] theorem journal_mea (e : JEntry) (s : State) : (journal e s).mea = s.mea := by have h := (journal_changes e s).same .mea (by decide); exact h
@[simp] theorem journal_queues (e : JEntry) (s : State) : (journal e s).queues = s.queues := by have h := (journal_changes e s).same .queues (by decide); exact h
@[simp] theorem journal_mon (e : JEntry) (s : State) : (journal e s).mon = s.mon := by have h := (journal_changes e s).same .mon (by decide); exact h
@[simp] theorem journal_evt (e : JEntry) (s : State) : (journal e s).evt = s.evt := by have h := (journal_changes e s).same .evt (by decide); exact h
@[simp] theorem journal_out (e : JEntry) (s : State) : (journal e s).out = s.out := by have h := (journal_changes e s).same .out (by decide); exact h
@[simp] theorem journal_draws (e : JEntry) (s : State) : (journal e s).draws = s.draws := by have h := (journal_changes e s).same .draws (by decide); exact h

/-! ## event -/

@[simp] theorem event_pending (isl : Nat) (code : Nat) (data : Nat) (conts : List (List Byte)) (s : State) : (event isl code data conts s).pending = s.pending := rfl
@[simp] theorem event_deferred (isl : Nat) (code : Nat) (data : Nat) (conts : List (List Byte)) (s : State) : (event isl code data conts s).deferred = s.deferred := rfl
@[simp] theorem event_stalled (isl : Nat) (code : Nat) (data : Nat) (conts : List (List Byte)) (s : State) : (event isl code data conts s).stalled = s.stalled := rfl
@[simp] theorem event_regs (isl : Nat) (code : Nat) (data : Nat) (conts : List (List Byte)) (s : State) : (event isl code data conts s).regs = s.regs := rfl
@[simp] theorem event_lat (isl : Nat) (code : Nat) (data : Nat) (conts : List (List Byte)) (s : State) : (event isl code data conts s).lat = s.lat := rfl
@[simp] theorem event_win (isl : Nat) (code : Nat) (data : Nat) (conts : List (List Byte)) (s : State) : (event isl code data conts s).win = s.win := rfl
@[simp] theorem event_isl (isl : Nat) (code : Nat) (data : Nat) (conts : List (List Byte)) (s : State) : (event isl code data conts s).isl = s.isl := rfl
@[simp] theorem event_boot (isl : Nat) (code : Nat) (data : Nat) (conts : List (List Byte)) (s : State) : (event isl code data conts s).boot = s.boot := rfl
@[simp] theorem event_clusters (isl : Nat) (code : Nat) (data : Nat) (conts : List (List Byte)) (s : State) : (event isl code data conts s).clusters = s.clusters := rfl
@[simp] theorem event_table (isl : Nat) (code : Nat) (data : Nat) (conts : List (List Byte)) (s : State) : (event isl code data conts s).table = s.table := rfl
@[simp] theorem event_pipe (isl : Nat) (code : Nat) (data : Nat) (conts : List (List Byte)) (s : State) : (event isl code data conts s).pipe = s.pipe := rfl
@[simp] theorem event_rules (isl : Nat) (code : Nat) (data : Nat) (conts : List (List Byte)) (s : State) : (event isl code data conts s).rules = s.rules := rfl
@[simp] theorem event_bal (isl : Nat) (code : Nat) (data : Nat) (conts : List (List Byte)) (s : State) : (event isl code data conts s).bal = s.bal := rfl
@[simp] theorem event_camp (isl : Nat) (code : Nat) (data : Nat) (conts : List (List Byte)) (s : State) : (event isl code data conts s).camp = s.camp := rfl
@[simp] theorem event_plc (isl : Nat) (code : Nat) (data : Nat) (conts : List (List Byte)) (s : State) : (event isl code data conts s).plc = s.plc := rfl
@[simp] theorem event_rf (isl : Nat) (code : Nat) (data : Nat) (conts : List (List Byte)) (s : State) : (event isl code data conts s).rf = s.rf := rfl
@[simp] theorem event_eth (isl : Nat) (code : Nat) (data : Nat) (conts : List (List Byte)) (s : State) : (event isl code data conts s).eth = s.eth := rfl
@[simp] theorem event_relay (isl : Nat) (code : Nat) (data : Nat) (conts : List (List Byte)) (s : State) : (event isl code data conts s).relay = s.relay := rfl
@[simp] theorem event_tim (isl : Nat) (code : Nat) (data : Nat) (conts : List (List Byte)) (s : State) : (event isl code data conts s).tim = s.tim := rfl
@[simp] theorem event_pair (isl : Nat) (code : Nat) (data : Nat) (conts : List (List Byte)) (s : State) : (event isl code data conts s).pair = s.pair := rfl
@[simp] theorem event_jr (isl : Nat) (code : Nat) (data : Nat) (conts : List (List Byte)) (s : State) : (event isl code data conts s).jr = s.jr := rfl
@[simp] theorem event_host (isl : Nat) (code : Nat) (data : Nat) (conts : List (List Byte)) (s : State) : (event isl code data conts s).host = s.host := rfl
@[simp] theorem event_sec (isl : Nat) (code : Nat) (data : Nat) (conts : List (List Byte)) (s : State) : (event isl code data conts s).sec = s.sec := rfl
@[simp] theorem event_arch (isl : Nat) (code : Nat) (data : Nat) (conts : List (List Byte)) (s : State) : (event isl code data conts s).arch = s.arch := rfl
@[simp] theorem event_mea (isl : Nat) (code : Nat) (data : Nat) (conts : List (List Byte)) (s : State) : (event isl code data conts s).mea = s.mea := rfl
@[simp] theorem event_queues (isl : Nat) (code : Nat) (data : Nat) (conts : List (List Byte)) (s : State) : (event isl code data conts s).queues = s.queues := rfl
@[simp] theorem event_mon (isl : Nat) (code : Nat) (data : Nat) (conts : List (List Byte)) (s : State) : (event isl code data conts s).mon = s.mon := rfl
@[simp] theorem event_out (isl : Nat) (code : Nat) (data : Nat) (conts : List (List Byte)) (s : State) : (event isl code data conts s).out = s.out := rfl
@[simp] theorem event_draws (isl : Nat) (code : Nat) (data : Nat) (conts : List (List Byte)) (s : State) : (event isl code data conts s).draws = s.draws := rfl

/-! ## msix -/

@[simp] theorem msix_pending (v : Nat) (s : State) : (msix v s).pending = s.pending := by have h := (msix_changes v s).same .pending (by decide); exact h
@[simp] theorem msix_deferred (v : Nat) (s : State) : (msix v s).deferred = s.deferred := by have h := (msix_changes v s).same .deferred (by decide); exact h
@[simp] theorem msix_stalled (v : Nat) (s : State) : (msix v s).stalled = s.stalled := by have h := (msix_changes v s).same .stalled (by decide); exact h
@[simp] theorem msix_regs (v : Nat) (s : State) : (msix v s).regs = s.regs := by have h := (msix_changes v s).same .regs (by decide); exact h
@[simp] theorem msix_lat (v : Nat) (s : State) : (msix v s).lat = s.lat := by have h := (msix_changes v s).same .lat (by decide); exact h
@[simp] theorem msix_win (v : Nat) (s : State) : (msix v s).win = s.win := by have h := (msix_changes v s).same .win (by decide); exact h
@[simp] theorem msix_isl (v : Nat) (s : State) : (msix v s).isl = s.isl := by have h := (msix_changes v s).same .isl (by decide); exact h
@[simp] theorem msix_boot (v : Nat) (s : State) : (msix v s).boot = s.boot := by have h := (msix_changes v s).same .boot (by decide); exact h
@[simp] theorem msix_clusters (v : Nat) (s : State) : (msix v s).clusters = s.clusters := by have h := (msix_changes v s).same .clusters (by decide); exact h
@[simp] theorem msix_table (v : Nat) (s : State) : (msix v s).table = s.table := by have h := (msix_changes v s).same .table (by decide); exact h
@[simp] theorem msix_pipe (v : Nat) (s : State) : (msix v s).pipe = s.pipe := by have h := (msix_changes v s).same .pipe (by decide); exact h
@[simp] theorem msix_rules (v : Nat) (s : State) : (msix v s).rules = s.rules := by have h := (msix_changes v s).same .rules (by decide); exact h
@[simp] theorem msix_bal (v : Nat) (s : State) : (msix v s).bal = s.bal := by have h := (msix_changes v s).same .bal (by decide); exact h
@[simp] theorem msix_camp (v : Nat) (s : State) : (msix v s).camp = s.camp := by have h := (msix_changes v s).same .camp (by decide); exact h
@[simp] theorem msix_plc (v : Nat) (s : State) : (msix v s).plc = s.plc := by have h := (msix_changes v s).same .plc (by decide); exact h
@[simp] theorem msix_rf (v : Nat) (s : State) : (msix v s).rf = s.rf := by have h := (msix_changes v s).same .rf (by decide); exact h
@[simp] theorem msix_eth (v : Nat) (s : State) : (msix v s).eth = s.eth := by have h := (msix_changes v s).same .eth (by decide); exact h
@[simp] theorem msix_relay (v : Nat) (s : State) : (msix v s).relay = s.relay := by have h := (msix_changes v s).same .relay (by decide); exact h
@[simp] theorem msix_tim (v : Nat) (s : State) : (msix v s).tim = s.tim := by have h := (msix_changes v s).same .tim (by decide); exact h
@[simp] theorem msix_pair (v : Nat) (s : State) : (msix v s).pair = s.pair := by have h := (msix_changes v s).same .pair (by decide); exact h
@[simp] theorem msix_jr (v : Nat) (s : State) : (msix v s).jr = s.jr := by have h := (msix_changes v s).same .jr (by decide); exact h
@[simp] theorem msix_sec (v : Nat) (s : State) : (msix v s).sec = s.sec := by have h := (msix_changes v s).same .sec (by decide); exact h
@[simp] theorem msix_arch (v : Nat) (s : State) : (msix v s).arch = s.arch := by have h := (msix_changes v s).same .arch (by decide); exact h
@[simp] theorem msix_mea (v : Nat) (s : State) : (msix v s).mea = s.mea := by have h := (msix_changes v s).same .mea (by decide); exact h
@[simp] theorem msix_queues (v : Nat) (s : State) : (msix v s).queues = s.queues := by have h := (msix_changes v s).same .queues (by decide); exact h
@[simp] theorem msix_mon (v : Nat) (s : State) : (msix v s).mon = s.mon := by have h := (msix_changes v s).same .mon (by decide); exact h
@[simp] theorem msix_evt (v : Nat) (s : State) : (msix v s).evt = s.evt := by have h := (msix_changes v s).same .evt (by decide); exact h
@[simp] theorem msix_draws (v : Nat) (s : State) : (msix v s).draws = s.draws := by have h := (msix_changes v s).same .draws (by decide); exact h

/-! ## notice -/

@[simp] theorem notice_pending (b : Nat) (s : State) : (notice b s).pending = s.pending := by have h := (notice_changes b s).same .pending (by decide); exact h
@[simp] theorem notice_deferred (b : Nat) (s : State) : (notice b s).deferred = s.deferred := by have h := (notice_changes b s).same .deferred (by decide); exact h
@[simp] theorem notice_stalled (b : Nat) (s : State) : (notice b s).stalled = s.stalled := by have h := (notice_changes b s).same .stalled (by decide); exact h
@[simp] theorem notice_lat (b : Nat) (s : State) : (notice b s).lat = s.lat := by have h := (notice_changes b s).same .lat (by decide); exact h
@[simp] theorem notice_win (b : Nat) (s : State) : (notice b s).win = s.win := by have h := (notice_changes b s).same .win (by decide); exact h
@[simp] theorem notice_isl (b : Nat) (s : State) : (notice b s).isl = s.isl := by have h := (notice_changes b s).same .isl (by decide); exact h
@[simp] theorem notice_boot (b : Nat) (s : State) : (notice b s).boot = s.boot := by have h := (notice_changes b s).same .boot (by decide); exact h
@[simp] theorem notice_clusters (b : Nat) (s : State) : (notice b s).clusters = s.clusters := by have h := (notice_changes b s).same .clusters (by decide); exact h
@[simp] theorem notice_table (b : Nat) (s : State) : (notice b s).table = s.table := by have h := (notice_changes b s).same .table (by decide); exact h
@[simp] theorem notice_pipe (b : Nat) (s : State) : (notice b s).pipe = s.pipe := by have h := (notice_changes b s).same .pipe (by decide); exact h
@[simp] theorem notice_rules (b : Nat) (s : State) : (notice b s).rules = s.rules := by have h := (notice_changes b s).same .rules (by decide); exact h
@[simp] theorem notice_bal (b : Nat) (s : State) : (notice b s).bal = s.bal := by have h := (notice_changes b s).same .bal (by decide); exact h
@[simp] theorem notice_camp (b : Nat) (s : State) : (notice b s).camp = s.camp := by have h := (notice_changes b s).same .camp (by decide); exact h
@[simp] theorem notice_plc (b : Nat) (s : State) : (notice b s).plc = s.plc := by have h := (notice_changes b s).same .plc (by decide); exact h
@[simp] theorem notice_rf (b : Nat) (s : State) : (notice b s).rf = s.rf := by have h := (notice_changes b s).same .rf (by decide); exact h
@[simp] theorem notice_eth (b : Nat) (s : State) : (notice b s).eth = s.eth := by have h := (notice_changes b s).same .eth (by decide); exact h
@[simp] theorem notice_relay (b : Nat) (s : State) : (notice b s).relay = s.relay := by have h := (notice_changes b s).same .relay (by decide); exact h
@[simp] theorem notice_tim (b : Nat) (s : State) : (notice b s).tim = s.tim := by have h := (notice_changes b s).same .tim (by decide); exact h
@[simp] theorem notice_pair (b : Nat) (s : State) : (notice b s).pair = s.pair := by have h := (notice_changes b s).same .pair (by decide); exact h
@[simp] theorem notice_jr (b : Nat) (s : State) : (notice b s).jr = s.jr := by have h := (notice_changes b s).same .jr (by decide); exact h
@[simp] theorem notice_sec (b : Nat) (s : State) : (notice b s).sec = s.sec := by have h := (notice_changes b s).same .sec (by decide); exact h
@[simp] theorem notice_arch (b : Nat) (s : State) : (notice b s).arch = s.arch := by have h := (notice_changes b s).same .arch (by decide); exact h
@[simp] theorem notice_mea (b : Nat) (s : State) : (notice b s).mea = s.mea := by have h := (notice_changes b s).same .mea (by decide); exact h
@[simp] theorem notice_queues (b : Nat) (s : State) : (notice b s).queues = s.queues := by have h := (notice_changes b s).same .queues (by decide); exact h
@[simp] theorem notice_mon (b : Nat) (s : State) : (notice b s).mon = s.mon := by have h := (notice_changes b s).same .mon (by decide); exact h
@[simp] theorem notice_evt (b : Nat) (s : State) : (notice b s).evt = s.evt := by have h := (notice_changes b s).same .evt (by decide); exact h
@[simp] theorem notice_draws (b : Nat) (s : State) : (notice b s).draws = s.draws := by have h := (notice_changes b s).same .draws (by decide); exact h

/-! ## setPair -/

@[simp] theorem setPair_pending (f : PairState → PairState) (s : State) : (setPair f s).pending = s.pending := rfl
@[simp] theorem setPair_deferred (f : PairState → PairState) (s : State) : (setPair f s).deferred = s.deferred := rfl
@[simp] theorem setPair_stalled (f : PairState → PairState) (s : State) : (setPair f s).stalled = s.stalled := rfl
@[simp] theorem setPair_regs (f : PairState → PairState) (s : State) : (setPair f s).regs = s.regs := rfl
@[simp] theorem setPair_lat (f : PairState → PairState) (s : State) : (setPair f s).lat = s.lat := rfl
@[simp] theorem setPair_win (f : PairState → PairState) (s : State) : (setPair f s).win = s.win := rfl
@[simp] theorem setPair_isl (f : PairState → PairState) (s : State) : (setPair f s).isl = s.isl := rfl
@[simp] theorem setPair_boot (f : PairState → PairState) (s : State) : (setPair f s).boot = s.boot := rfl
@[simp] theorem setPair_clusters (f : PairState → PairState) (s : State) : (setPair f s).clusters = s.clusters := rfl
@[simp] theorem setPair_table (f : PairState → PairState) (s : State) : (setPair f s).table = s.table := rfl
@[simp] theorem setPair_pipe (f : PairState → PairState) (s : State) : (setPair f s).pipe = s.pipe := rfl
@[simp] theorem setPair_rules (f : PairState → PairState) (s : State) : (setPair f s).rules = s.rules := rfl
@[simp] theorem setPair_bal (f : PairState → PairState) (s : State) : (setPair f s).bal = s.bal := rfl
@[simp] theorem setPair_camp (f : PairState → PairState) (s : State) : (setPair f s).camp = s.camp := rfl
@[simp] theorem setPair_plc (f : PairState → PairState) (s : State) : (setPair f s).plc = s.plc := rfl
@[simp] theorem setPair_rf (f : PairState → PairState) (s : State) : (setPair f s).rf = s.rf := rfl
@[simp] theorem setPair_eth (f : PairState → PairState) (s : State) : (setPair f s).eth = s.eth := rfl
@[simp] theorem setPair_relay (f : PairState → PairState) (s : State) : (setPair f s).relay = s.relay := rfl
@[simp] theorem setPair_tim (f : PairState → PairState) (s : State) : (setPair f s).tim = s.tim := rfl
@[simp] theorem setPair_jr (f : PairState → PairState) (s : State) : (setPair f s).jr = s.jr := rfl
@[simp] theorem setPair_host (f : PairState → PairState) (s : State) : (setPair f s).host = s.host := rfl
@[simp] theorem setPair_sec (f : PairState → PairState) (s : State) : (setPair f s).sec = s.sec := rfl
@[simp] theorem setPair_arch (f : PairState → PairState) (s : State) : (setPair f s).arch = s.arch := rfl
@[simp] theorem setPair_mea (f : PairState → PairState) (s : State) : (setPair f s).mea = s.mea := rfl
@[simp] theorem setPair_queues (f : PairState → PairState) (s : State) : (setPair f s).queues = s.queues := rfl
@[simp] theorem setPair_mon (f : PairState → PairState) (s : State) : (setPair f s).mon = s.mon := rfl
@[simp] theorem setPair_evt (f : PairState → PairState) (s : State) : (setPair f s).evt = s.evt := rfl
@[simp] theorem setPair_out (f : PairState → PairState) (s : State) : (setPair f s).out = s.out := rfl
@[simp] theorem setPair_draws (f : PairState → PairState) (s : State) : (setPair f s).draws = s.draws := rfl

/-! ## setHost -/

@[simp] theorem setHost_pending (f : HostState → HostState) (s : State) : (setHost f s).pending = s.pending := rfl
@[simp] theorem setHost_deferred (f : HostState → HostState) (s : State) : (setHost f s).deferred = s.deferred := rfl
@[simp] theorem setHost_stalled (f : HostState → HostState) (s : State) : (setHost f s).stalled = s.stalled := rfl
@[simp] theorem setHost_regs (f : HostState → HostState) (s : State) : (setHost f s).regs = s.regs := rfl
@[simp] theorem setHost_lat (f : HostState → HostState) (s : State) : (setHost f s).lat = s.lat := rfl
@[simp] theorem setHost_win (f : HostState → HostState) (s : State) : (setHost f s).win = s.win := rfl
@[simp] theorem setHost_isl (f : HostState → HostState) (s : State) : (setHost f s).isl = s.isl := rfl
@[simp] theorem setHost_boot (f : HostState → HostState) (s : State) : (setHost f s).boot = s.boot := rfl
@[simp] theorem setHost_clusters (f : HostState → HostState) (s : State) : (setHost f s).clusters = s.clusters := rfl
@[simp] theorem setHost_table (f : HostState → HostState) (s : State) : (setHost f s).table = s.table := rfl
@[simp] theorem setHost_pipe (f : HostState → HostState) (s : State) : (setHost f s).pipe = s.pipe := rfl
@[simp] theorem setHost_rules (f : HostState → HostState) (s : State) : (setHost f s).rules = s.rules := rfl
@[simp] theorem setHost_bal (f : HostState → HostState) (s : State) : (setHost f s).bal = s.bal := rfl
@[simp] theorem setHost_camp (f : HostState → HostState) (s : State) : (setHost f s).camp = s.camp := rfl
@[simp] theorem setHost_plc (f : HostState → HostState) (s : State) : (setHost f s).plc = s.plc := rfl
@[simp] theorem setHost_rf (f : HostState → HostState) (s : State) : (setHost f s).rf = s.rf := rfl
@[simp] theorem setHost_eth (f : HostState → HostState) (s : State) : (setHost f s).eth = s.eth := rfl
@[simp] theorem setHost_relay (f : HostState → HostState) (s : State) : (setHost f s).relay = s.relay := rfl
@[simp] theorem setHost_tim (f : HostState → HostState) (s : State) : (setHost f s).tim = s.tim := rfl
@[simp] theorem setHost_pair (f : HostState → HostState) (s : State) : (setHost f s).pair = s.pair := rfl
@[simp] theorem setHost_jr (f : HostState → HostState) (s : State) : (setHost f s).jr = s.jr := rfl
@[simp] theorem setHost_sec (f : HostState → HostState) (s : State) : (setHost f s).sec = s.sec := rfl
@[simp] theorem setHost_arch (f : HostState → HostState) (s : State) : (setHost f s).arch = s.arch := rfl
@[simp] theorem setHost_mea (f : HostState → HostState) (s : State) : (setHost f s).mea = s.mea := rfl
@[simp] theorem setHost_queues (f : HostState → HostState) (s : State) : (setHost f s).queues = s.queues := rfl
@[simp] theorem setHost_mon (f : HostState → HostState) (s : State) : (setHost f s).mon = s.mon := rfl
@[simp] theorem setHost_evt (f : HostState → HostState) (s : State) : (setHost f s).evt = s.evt := rfl
@[simp] theorem setHost_out (f : HostState → HostState) (s : State) : (setHost f s).out = s.out := rfl
@[simp] theorem setHost_draws (f : HostState → HostState) (s : State) : (setHost f s).draws = s.draws := rfl

/-! ## setSq -/

@[simp] theorem setSq_pending (n : Nat) (v : SqState) (s : State) : (setSq n v s).pending = s.pending := rfl
@[simp] theorem setSq_deferred (n : Nat) (v : SqState) (s : State) : (setSq n v s).deferred = s.deferred := rfl
@[simp] theorem setSq_stalled (n : Nat) (v : SqState) (s : State) : (setSq n v s).stalled = s.stalled := rfl
@[simp] theorem setSq_regs (n : Nat) (v : SqState) (s : State) : (setSq n v s).regs = s.regs := rfl
@[simp] theorem setSq_lat (n : Nat) (v : SqState) (s : State) : (setSq n v s).lat = s.lat := rfl
@[simp] theorem setSq_win (n : Nat) (v : SqState) (s : State) : (setSq n v s).win = s.win := rfl
@[simp] theorem setSq_isl (n : Nat) (v : SqState) (s : State) : (setSq n v s).isl = s.isl := rfl
@[simp] theorem setSq_boot (n : Nat) (v : SqState) (s : State) : (setSq n v s).boot = s.boot := rfl
@[simp] theorem setSq_clusters (n : Nat) (v : SqState) (s : State) : (setSq n v s).clusters = s.clusters := rfl
@[simp] theorem setSq_table (n : Nat) (v : SqState) (s : State) : (setSq n v s).table = s.table := rfl
@[simp] theorem setSq_pipe (n : Nat) (v : SqState) (s : State) : (setSq n v s).pipe = s.pipe := rfl
@[simp] theorem setSq_rules (n : Nat) (v : SqState) (s : State) : (setSq n v s).rules = s.rules := rfl
@[simp] theorem setSq_bal (n : Nat) (v : SqState) (s : State) : (setSq n v s).bal = s.bal := rfl
@[simp] theorem setSq_camp (n : Nat) (v : SqState) (s : State) : (setSq n v s).camp = s.camp := rfl
@[simp] theorem setSq_plc (n : Nat) (v : SqState) (s : State) : (setSq n v s).plc = s.plc := rfl
@[simp] theorem setSq_rf (n : Nat) (v : SqState) (s : State) : (setSq n v s).rf = s.rf := rfl
@[simp] theorem setSq_eth (n : Nat) (v : SqState) (s : State) : (setSq n v s).eth = s.eth := rfl
@[simp] theorem setSq_relay (n : Nat) (v : SqState) (s : State) : (setSq n v s).relay = s.relay := rfl
@[simp] theorem setSq_tim (n : Nat) (v : SqState) (s : State) : (setSq n v s).tim = s.tim := rfl
@[simp] theorem setSq_pair (n : Nat) (v : SqState) (s : State) : (setSq n v s).pair = s.pair := rfl
@[simp] theorem setSq_jr (n : Nat) (v : SqState) (s : State) : (setSq n v s).jr = s.jr := rfl
@[simp] theorem setSq_sec (n : Nat) (v : SqState) (s : State) : (setSq n v s).sec = s.sec := rfl
@[simp] theorem setSq_arch (n : Nat) (v : SqState) (s : State) : (setSq n v s).arch = s.arch := rfl
@[simp] theorem setSq_mea (n : Nat) (v : SqState) (s : State) : (setSq n v s).mea = s.mea := rfl
@[simp] theorem setSq_queues (n : Nat) (v : SqState) (s : State) : (setSq n v s).queues = s.queues := rfl
@[simp] theorem setSq_mon (n : Nat) (v : SqState) (s : State) : (setSq n v s).mon = s.mon := rfl
@[simp] theorem setSq_evt (n : Nat) (v : SqState) (s : State) : (setSq n v s).evt = s.evt := rfl
@[simp] theorem setSq_out (n : Nat) (v : SqState) (s : State) : (setSq n v s).out = s.out := rfl
@[simp] theorem setSq_draws (n : Nat) (v : SqState) (s : State) : (setSq n v s).draws = s.draws := rfl

/-! ## setCq -/

@[simp] theorem setCq_pending (n : Nat) (v : CqState) (s : State) : (setCq n v s).pending = s.pending := rfl
@[simp] theorem setCq_deferred (n : Nat) (v : CqState) (s : State) : (setCq n v s).deferred = s.deferred := rfl
@[simp] theorem setCq_stalled (n : Nat) (v : CqState) (s : State) : (setCq n v s).stalled = s.stalled := rfl
@[simp] theorem setCq_regs (n : Nat) (v : CqState) (s : State) : (setCq n v s).regs = s.regs := rfl
@[simp] theorem setCq_lat (n : Nat) (v : CqState) (s : State) : (setCq n v s).lat = s.lat := rfl
@[simp] theorem setCq_win (n : Nat) (v : CqState) (s : State) : (setCq n v s).win = s.win := rfl
@[simp] theorem setCq_isl (n : Nat) (v : CqState) (s : State) : (setCq n v s).isl = s.isl := rfl
@[simp] theorem setCq_boot (n : Nat) (v : CqState) (s : State) : (setCq n v s).boot = s.boot := rfl
@[simp] theorem setCq_clusters (n : Nat) (v : CqState) (s : State) : (setCq n v s).clusters = s.clusters := rfl
@[simp] theorem setCq_table (n : Nat) (v : CqState) (s : State) : (setCq n v s).table = s.table := rfl
@[simp] theorem setCq_pipe (n : Nat) (v : CqState) (s : State) : (setCq n v s).pipe = s.pipe := rfl
@[simp] theorem setCq_rules (n : Nat) (v : CqState) (s : State) : (setCq n v s).rules = s.rules := rfl
@[simp] theorem setCq_bal (n : Nat) (v : CqState) (s : State) : (setCq n v s).bal = s.bal := rfl
@[simp] theorem setCq_camp (n : Nat) (v : CqState) (s : State) : (setCq n v s).camp = s.camp := rfl
@[simp] theorem setCq_plc (n : Nat) (v : CqState) (s : State) : (setCq n v s).plc = s.plc := rfl
@[simp] theorem setCq_rf (n : Nat) (v : CqState) (s : State) : (setCq n v s).rf = s.rf := rfl
@[simp] theorem setCq_eth (n : Nat) (v : CqState) (s : State) : (setCq n v s).eth = s.eth := rfl
@[simp] theorem setCq_relay (n : Nat) (v : CqState) (s : State) : (setCq n v s).relay = s.relay := rfl
@[simp] theorem setCq_tim (n : Nat) (v : CqState) (s : State) : (setCq n v s).tim = s.tim := rfl
@[simp] theorem setCq_pair (n : Nat) (v : CqState) (s : State) : (setCq n v s).pair = s.pair := rfl
@[simp] theorem setCq_jr (n : Nat) (v : CqState) (s : State) : (setCq n v s).jr = s.jr := rfl
@[simp] theorem setCq_sec (n : Nat) (v : CqState) (s : State) : (setCq n v s).sec = s.sec := rfl
@[simp] theorem setCq_arch (n : Nat) (v : CqState) (s : State) : (setCq n v s).arch = s.arch := rfl
@[simp] theorem setCq_mea (n : Nat) (v : CqState) (s : State) : (setCq n v s).mea = s.mea := rfl
@[simp] theorem setCq_queues (n : Nat) (v : CqState) (s : State) : (setCq n v s).queues = s.queues := rfl
@[simp] theorem setCq_mon (n : Nat) (v : CqState) (s : State) : (setCq n v s).mon = s.mon := rfl
@[simp] theorem setCq_evt (n : Nat) (v : CqState) (s : State) : (setCq n v s).evt = s.evt := rfl
@[simp] theorem setCq_out (n : Nat) (v : CqState) (s : State) : (setCq n v s).out = s.out := rfl
@[simp] theorem setCq_draws (n : Nat) (v : CqState) (s : State) : (setCq n v s).draws = s.draws := rfl

/-! ## setTim -/

@[simp] theorem setTim_pending (f : TimState → TimState) (s : State) : (setTim f s).pending = s.pending := rfl
@[simp] theorem setTim_deferred (f : TimState → TimState) (s : State) : (setTim f s).deferred = s.deferred := rfl
@[simp] theorem setTim_stalled (f : TimState → TimState) (s : State) : (setTim f s).stalled = s.stalled := rfl
@[simp] theorem setTim_regs (f : TimState → TimState) (s : State) : (setTim f s).regs = s.regs := rfl
@[simp] theorem setTim_lat (f : TimState → TimState) (s : State) : (setTim f s).lat = s.lat := rfl
@[simp] theorem setTim_win (f : TimState → TimState) (s : State) : (setTim f s).win = s.win := rfl
@[simp] theorem setTim_isl (f : TimState → TimState) (s : State) : (setTim f s).isl = s.isl := rfl
@[simp] theorem setTim_boot (f : TimState → TimState) (s : State) : (setTim f s).boot = s.boot := rfl
@[simp] theorem setTim_clusters (f : TimState → TimState) (s : State) : (setTim f s).clusters = s.clusters := rfl
@[simp] theorem setTim_table (f : TimState → TimState) (s : State) : (setTim f s).table = s.table := rfl
@[simp] theorem setTim_pipe (f : TimState → TimState) (s : State) : (setTim f s).pipe = s.pipe := rfl
@[simp] theorem setTim_rules (f : TimState → TimState) (s : State) : (setTim f s).rules = s.rules := rfl
@[simp] theorem setTim_bal (f : TimState → TimState) (s : State) : (setTim f s).bal = s.bal := rfl
@[simp] theorem setTim_camp (f : TimState → TimState) (s : State) : (setTim f s).camp = s.camp := rfl
@[simp] theorem setTim_plc (f : TimState → TimState) (s : State) : (setTim f s).plc = s.plc := rfl
@[simp] theorem setTim_rf (f : TimState → TimState) (s : State) : (setTim f s).rf = s.rf := rfl
@[simp] theorem setTim_eth (f : TimState → TimState) (s : State) : (setTim f s).eth = s.eth := rfl
@[simp] theorem setTim_relay (f : TimState → TimState) (s : State) : (setTim f s).relay = s.relay := rfl
@[simp] theorem setTim_pair (f : TimState → TimState) (s : State) : (setTim f s).pair = s.pair := rfl
@[simp] theorem setTim_jr (f : TimState → TimState) (s : State) : (setTim f s).jr = s.jr := rfl
@[simp] theorem setTim_host (f : TimState → TimState) (s : State) : (setTim f s).host = s.host := rfl
@[simp] theorem setTim_sec (f : TimState → TimState) (s : State) : (setTim f s).sec = s.sec := rfl
@[simp] theorem setTim_arch (f : TimState → TimState) (s : State) : (setTim f s).arch = s.arch := rfl
@[simp] theorem setTim_mea (f : TimState → TimState) (s : State) : (setTim f s).mea = s.mea := rfl
@[simp] theorem setTim_queues (f : TimState → TimState) (s : State) : (setTim f s).queues = s.queues := rfl
@[simp] theorem setTim_mon (f : TimState → TimState) (s : State) : (setTim f s).mon = s.mon := rfl
@[simp] theorem setTim_evt (f : TimState → TimState) (s : State) : (setTim f s).evt = s.evt := rfl
@[simp] theorem setTim_out (f : TimState → TimState) (s : State) : (setTim f s).out = s.out := rfl
@[simp] theorem setTim_draws (f : TimState → TimState) (s : State) : (setTim f s).draws = s.draws := rfl

/-! ## setBoot -/

@[simp] theorem setBoot_pending (f : Boot → Boot) (s : State) : (setBoot f s).pending = s.pending := rfl
@[simp] theorem setBoot_deferred (f : Boot → Boot) (s : State) : (setBoot f s).deferred = s.deferred := rfl
@[simp] theorem setBoot_stalled (f : Boot → Boot) (s : State) : (setBoot f s).stalled = s.stalled := rfl
@[simp] theorem setBoot_regs (f : Boot → Boot) (s : State) : (setBoot f s).regs = s.regs := rfl
@[simp] theorem setBoot_lat (f : Boot → Boot) (s : State) : (setBoot f s).lat = s.lat := rfl
@[simp] theorem setBoot_win (f : Boot → Boot) (s : State) : (setBoot f s).win = s.win := rfl
@[simp] theorem setBoot_isl (f : Boot → Boot) (s : State) : (setBoot f s).isl = s.isl := rfl
@[simp] theorem setBoot_clusters (f : Boot → Boot) (s : State) : (setBoot f s).clusters = s.clusters := rfl
@[simp] theorem setBoot_table (f : Boot → Boot) (s : State) : (setBoot f s).table = s.table := rfl
@[simp] theorem setBoot_pipe (f : Boot → Boot) (s : State) : (setBoot f s).pipe = s.pipe := rfl
@[simp] theorem setBoot_rules (f : Boot → Boot) (s : State) : (setBoot f s).rules = s.rules := rfl
@[simp] theorem setBoot_bal (f : Boot → Boot) (s : State) : (setBoot f s).bal = s.bal := rfl
@[simp] theorem setBoot_camp (f : Boot → Boot) (s : State) : (setBoot f s).camp = s.camp := rfl
@[simp] theorem setBoot_plc (f : Boot → Boot) (s : State) : (setBoot f s).plc = s.plc := rfl
@[simp] theorem setBoot_rf (f : Boot → Boot) (s : State) : (setBoot f s).rf = s.rf := rfl
@[simp] theorem setBoot_eth (f : Boot → Boot) (s : State) : (setBoot f s).eth = s.eth := rfl
@[simp] theorem setBoot_relay (f : Boot → Boot) (s : State) : (setBoot f s).relay = s.relay := rfl
@[simp] theorem setBoot_tim (f : Boot → Boot) (s : State) : (setBoot f s).tim = s.tim := rfl
@[simp] theorem setBoot_pair (f : Boot → Boot) (s : State) : (setBoot f s).pair = s.pair := rfl
@[simp] theorem setBoot_jr (f : Boot → Boot) (s : State) : (setBoot f s).jr = s.jr := rfl
@[simp] theorem setBoot_host (f : Boot → Boot) (s : State) : (setBoot f s).host = s.host := rfl
@[simp] theorem setBoot_sec (f : Boot → Boot) (s : State) : (setBoot f s).sec = s.sec := rfl
@[simp] theorem setBoot_arch (f : Boot → Boot) (s : State) : (setBoot f s).arch = s.arch := rfl
@[simp] theorem setBoot_mea (f : Boot → Boot) (s : State) : (setBoot f s).mea = s.mea := rfl
@[simp] theorem setBoot_queues (f : Boot → Boot) (s : State) : (setBoot f s).queues = s.queues := rfl
@[simp] theorem setBoot_mon (f : Boot → Boot) (s : State) : (setBoot f s).mon = s.mon := rfl
@[simp] theorem setBoot_evt (f : Boot → Boot) (s : State) : (setBoot f s).evt = s.evt := rfl
@[simp] theorem setBoot_out (f : Boot → Boot) (s : State) : (setBoot f s).out = s.out := rfl
@[simp] theorem setBoot_draws (f : Boot → Boot) (s : State) : (setBoot f s).draws = s.draws := rfl

/-! ## setEvt -/

@[simp] theorem setEvt_pending (f : EvtState → EvtState) (s : State) : (setEvt f s).pending = s.pending := rfl
@[simp] theorem setEvt_deferred (f : EvtState → EvtState) (s : State) : (setEvt f s).deferred = s.deferred := rfl
@[simp] theorem setEvt_stalled (f : EvtState → EvtState) (s : State) : (setEvt f s).stalled = s.stalled := rfl
@[simp] theorem setEvt_regs (f : EvtState → EvtState) (s : State) : (setEvt f s).regs = s.regs := rfl
@[simp] theorem setEvt_lat (f : EvtState → EvtState) (s : State) : (setEvt f s).lat = s.lat := rfl
@[simp] theorem setEvt_win (f : EvtState → EvtState) (s : State) : (setEvt f s).win = s.win := rfl
@[simp] theorem setEvt_isl (f : EvtState → EvtState) (s : State) : (setEvt f s).isl = s.isl := rfl
@[simp] theorem setEvt_boot (f : EvtState → EvtState) (s : State) : (setEvt f s).boot = s.boot := rfl
@[simp] theorem setEvt_clusters (f : EvtState → EvtState) (s : State) : (setEvt f s).clusters = s.clusters := rfl
@[simp] theorem setEvt_table (f : EvtState → EvtState) (s : State) : (setEvt f s).table = s.table := rfl
@[simp] theorem setEvt_pipe (f : EvtState → EvtState) (s : State) : (setEvt f s).pipe = s.pipe := rfl
@[simp] theorem setEvt_rules (f : EvtState → EvtState) (s : State) : (setEvt f s).rules = s.rules := rfl
@[simp] theorem setEvt_bal (f : EvtState → EvtState) (s : State) : (setEvt f s).bal = s.bal := rfl
@[simp] theorem setEvt_camp (f : EvtState → EvtState) (s : State) : (setEvt f s).camp = s.camp := rfl
@[simp] theorem setEvt_plc (f : EvtState → EvtState) (s : State) : (setEvt f s).plc = s.plc := rfl
@[simp] theorem setEvt_rf (f : EvtState → EvtState) (s : State) : (setEvt f s).rf = s.rf := rfl
@[simp] theorem setEvt_eth (f : EvtState → EvtState) (s : State) : (setEvt f s).eth = s.eth := rfl
@[simp] theorem setEvt_relay (f : EvtState → EvtState) (s : State) : (setEvt f s).relay = s.relay := rfl
@[simp] theorem setEvt_tim (f : EvtState → EvtState) (s : State) : (setEvt f s).tim = s.tim := rfl
@[simp] theorem setEvt_pair (f : EvtState → EvtState) (s : State) : (setEvt f s).pair = s.pair := rfl
@[simp] theorem setEvt_jr (f : EvtState → EvtState) (s : State) : (setEvt f s).jr = s.jr := rfl
@[simp] theorem setEvt_host (f : EvtState → EvtState) (s : State) : (setEvt f s).host = s.host := rfl
@[simp] theorem setEvt_sec (f : EvtState → EvtState) (s : State) : (setEvt f s).sec = s.sec := rfl
@[simp] theorem setEvt_arch (f : EvtState → EvtState) (s : State) : (setEvt f s).arch = s.arch := rfl
@[simp] theorem setEvt_mea (f : EvtState → EvtState) (s : State) : (setEvt f s).mea = s.mea := rfl
@[simp] theorem setEvt_queues (f : EvtState → EvtState) (s : State) : (setEvt f s).queues = s.queues := rfl
@[simp] theorem setEvt_mon (f : EvtState → EvtState) (s : State) : (setEvt f s).mon = s.mon := rfl
@[simp] theorem setEvt_out (f : EvtState → EvtState) (s : State) : (setEvt f s).out = s.out := rfl
@[simp] theorem setEvt_draws (f : EvtState → EvtState) (s : State) : (setEvt f s).draws = s.draws := rfl

/-! ## setArch -/

@[simp] theorem setArch_pending (f : Archive → Archive) (s : State) : (setArch f s).pending = s.pending := rfl
@[simp] theorem setArch_deferred (f : Archive → Archive) (s : State) : (setArch f s).deferred = s.deferred := rfl
@[simp] theorem setArch_stalled (f : Archive → Archive) (s : State) : (setArch f s).stalled = s.stalled := rfl
@[simp] theorem setArch_regs (f : Archive → Archive) (s : State) : (setArch f s).regs = s.regs := rfl
@[simp] theorem setArch_lat (f : Archive → Archive) (s : State) : (setArch f s).lat = s.lat := rfl
@[simp] theorem setArch_win (f : Archive → Archive) (s : State) : (setArch f s).win = s.win := rfl
@[simp] theorem setArch_isl (f : Archive → Archive) (s : State) : (setArch f s).isl = s.isl := rfl
@[simp] theorem setArch_boot (f : Archive → Archive) (s : State) : (setArch f s).boot = s.boot := rfl
@[simp] theorem setArch_clusters (f : Archive → Archive) (s : State) : (setArch f s).clusters = s.clusters := rfl
@[simp] theorem setArch_table (f : Archive → Archive) (s : State) : (setArch f s).table = s.table := rfl
@[simp] theorem setArch_pipe (f : Archive → Archive) (s : State) : (setArch f s).pipe = s.pipe := rfl
@[simp] theorem setArch_rules (f : Archive → Archive) (s : State) : (setArch f s).rules = s.rules := rfl
@[simp] theorem setArch_bal (f : Archive → Archive) (s : State) : (setArch f s).bal = s.bal := rfl
@[simp] theorem setArch_camp (f : Archive → Archive) (s : State) : (setArch f s).camp = s.camp := rfl
@[simp] theorem setArch_plc (f : Archive → Archive) (s : State) : (setArch f s).plc = s.plc := rfl
@[simp] theorem setArch_rf (f : Archive → Archive) (s : State) : (setArch f s).rf = s.rf := rfl
@[simp] theorem setArch_eth (f : Archive → Archive) (s : State) : (setArch f s).eth = s.eth := rfl
@[simp] theorem setArch_relay (f : Archive → Archive) (s : State) : (setArch f s).relay = s.relay := rfl
@[simp] theorem setArch_tim (f : Archive → Archive) (s : State) : (setArch f s).tim = s.tim := rfl
@[simp] theorem setArch_pair (f : Archive → Archive) (s : State) : (setArch f s).pair = s.pair := rfl
@[simp] theorem setArch_jr (f : Archive → Archive) (s : State) : (setArch f s).jr = s.jr := rfl
@[simp] theorem setArch_host (f : Archive → Archive) (s : State) : (setArch f s).host = s.host := rfl
@[simp] theorem setArch_sec (f : Archive → Archive) (s : State) : (setArch f s).sec = s.sec := rfl
@[simp] theorem setArch_mea (f : Archive → Archive) (s : State) : (setArch f s).mea = s.mea := rfl
@[simp] theorem setArch_queues (f : Archive → Archive) (s : State) : (setArch f s).queues = s.queues := rfl
@[simp] theorem setArch_mon (f : Archive → Archive) (s : State) : (setArch f s).mon = s.mon := rfl
@[simp] theorem setArch_evt (f : Archive → Archive) (s : State) : (setArch f s).evt = s.evt := rfl
@[simp] theorem setArch_out (f : Archive → Archive) (s : State) : (setArch f s).out = s.out := rfl
@[simp] theorem setArch_draws (f : Archive → Archive) (s : State) : (setArch f s).draws = s.draws := rfl

/-! ## setRelay -/

@[simp] theorem setRelay_pending (f : RelayState → RelayState) (s : State) : (setRelay f s).pending = s.pending := rfl
@[simp] theorem setRelay_deferred (f : RelayState → RelayState) (s : State) : (setRelay f s).deferred = s.deferred := rfl
@[simp] theorem setRelay_stalled (f : RelayState → RelayState) (s : State) : (setRelay f s).stalled = s.stalled := rfl
@[simp] theorem setRelay_regs (f : RelayState → RelayState) (s : State) : (setRelay f s).regs = s.regs := rfl
@[simp] theorem setRelay_lat (f : RelayState → RelayState) (s : State) : (setRelay f s).lat = s.lat := rfl
@[simp] theorem setRelay_win (f : RelayState → RelayState) (s : State) : (setRelay f s).win = s.win := rfl
@[simp] theorem setRelay_isl (f : RelayState → RelayState) (s : State) : (setRelay f s).isl = s.isl := rfl
@[simp] theorem setRelay_boot (f : RelayState → RelayState) (s : State) : (setRelay f s).boot = s.boot := rfl
@[simp] theorem setRelay_clusters (f : RelayState → RelayState) (s : State) : (setRelay f s).clusters = s.clusters := rfl
@[simp] theorem setRelay_table (f : RelayState → RelayState) (s : State) : (setRelay f s).table = s.table := rfl
@[simp] theorem setRelay_pipe (f : RelayState → RelayState) (s : State) : (setRelay f s).pipe = s.pipe := rfl
@[simp] theorem setRelay_rules (f : RelayState → RelayState) (s : State) : (setRelay f s).rules = s.rules := rfl
@[simp] theorem setRelay_bal (f : RelayState → RelayState) (s : State) : (setRelay f s).bal = s.bal := rfl
@[simp] theorem setRelay_camp (f : RelayState → RelayState) (s : State) : (setRelay f s).camp = s.camp := rfl
@[simp] theorem setRelay_plc (f : RelayState → RelayState) (s : State) : (setRelay f s).plc = s.plc := rfl
@[simp] theorem setRelay_rf (f : RelayState → RelayState) (s : State) : (setRelay f s).rf = s.rf := rfl
@[simp] theorem setRelay_eth (f : RelayState → RelayState) (s : State) : (setRelay f s).eth = s.eth := rfl
@[simp] theorem setRelay_tim (f : RelayState → RelayState) (s : State) : (setRelay f s).tim = s.tim := rfl
@[simp] theorem setRelay_pair (f : RelayState → RelayState) (s : State) : (setRelay f s).pair = s.pair := rfl
@[simp] theorem setRelay_jr (f : RelayState → RelayState) (s : State) : (setRelay f s).jr = s.jr := rfl
@[simp] theorem setRelay_host (f : RelayState → RelayState) (s : State) : (setRelay f s).host = s.host := rfl
@[simp] theorem setRelay_sec (f : RelayState → RelayState) (s : State) : (setRelay f s).sec = s.sec := rfl
@[simp] theorem setRelay_arch (f : RelayState → RelayState) (s : State) : (setRelay f s).arch = s.arch := rfl
@[simp] theorem setRelay_mea (f : RelayState → RelayState) (s : State) : (setRelay f s).mea = s.mea := rfl
@[simp] theorem setRelay_queues (f : RelayState → RelayState) (s : State) : (setRelay f s).queues = s.queues := rfl
@[simp] theorem setRelay_mon (f : RelayState → RelayState) (s : State) : (setRelay f s).mon = s.mon := rfl
@[simp] theorem setRelay_evt (f : RelayState → RelayState) (s : State) : (setRelay f s).evt = s.evt := rfl
@[simp] theorem setRelay_out (f : RelayState → RelayState) (s : State) : (setRelay f s).out = s.out := rfl
@[simp] theorem setRelay_draws (f : RelayState → RelayState) (s : State) : (setRelay f s).draws = s.draws := rfl

/-! ## setBal -/

@[simp] theorem setBal_pending (f : BalState → BalState) (s : State) : (setBal f s).pending = s.pending := rfl
@[simp] theorem setBal_deferred (f : BalState → BalState) (s : State) : (setBal f s).deferred = s.deferred := rfl
@[simp] theorem setBal_stalled (f : BalState → BalState) (s : State) : (setBal f s).stalled = s.stalled := rfl
@[simp] theorem setBal_regs (f : BalState → BalState) (s : State) : (setBal f s).regs = s.regs := rfl
@[simp] theorem setBal_lat (f : BalState → BalState) (s : State) : (setBal f s).lat = s.lat := rfl
@[simp] theorem setBal_win (f : BalState → BalState) (s : State) : (setBal f s).win = s.win := rfl
@[simp] theorem setBal_isl (f : BalState → BalState) (s : State) : (setBal f s).isl = s.isl := rfl
@[simp] theorem setBal_boot (f : BalState → BalState) (s : State) : (setBal f s).boot = s.boot := rfl
@[simp] theorem setBal_clusters (f : BalState → BalState) (s : State) : (setBal f s).clusters = s.clusters := rfl
@[simp] theorem setBal_table (f : BalState → BalState) (s : State) : (setBal f s).table = s.table := rfl
@[simp] theorem setBal_pipe (f : BalState → BalState) (s : State) : (setBal f s).pipe = s.pipe := rfl
@[simp] theorem setBal_rules (f : BalState → BalState) (s : State) : (setBal f s).rules = s.rules := rfl
@[simp] theorem setBal_camp (f : BalState → BalState) (s : State) : (setBal f s).camp = s.camp := rfl
@[simp] theorem setBal_plc (f : BalState → BalState) (s : State) : (setBal f s).plc = s.plc := rfl
@[simp] theorem setBal_rf (f : BalState → BalState) (s : State) : (setBal f s).rf = s.rf := rfl
@[simp] theorem setBal_eth (f : BalState → BalState) (s : State) : (setBal f s).eth = s.eth := rfl
@[simp] theorem setBal_relay (f : BalState → BalState) (s : State) : (setBal f s).relay = s.relay := rfl
@[simp] theorem setBal_tim (f : BalState → BalState) (s : State) : (setBal f s).tim = s.tim := rfl
@[simp] theorem setBal_pair (f : BalState → BalState) (s : State) : (setBal f s).pair = s.pair := rfl
@[simp] theorem setBal_jr (f : BalState → BalState) (s : State) : (setBal f s).jr = s.jr := rfl
@[simp] theorem setBal_host (f : BalState → BalState) (s : State) : (setBal f s).host = s.host := rfl
@[simp] theorem setBal_sec (f : BalState → BalState) (s : State) : (setBal f s).sec = s.sec := rfl
@[simp] theorem setBal_arch (f : BalState → BalState) (s : State) : (setBal f s).arch = s.arch := rfl
@[simp] theorem setBal_mea (f : BalState → BalState) (s : State) : (setBal f s).mea = s.mea := rfl
@[simp] theorem setBal_queues (f : BalState → BalState) (s : State) : (setBal f s).queues = s.queues := rfl
@[simp] theorem setBal_mon (f : BalState → BalState) (s : State) : (setBal f s).mon = s.mon := rfl
@[simp] theorem setBal_evt (f : BalState → BalState) (s : State) : (setBal f s).evt = s.evt := rfl
@[simp] theorem setBal_out (f : BalState → BalState) (s : State) : (setBal f s).out = s.out := rfl
@[simp] theorem setBal_draws (f : BalState → BalState) (s : State) : (setBal f s).draws = s.draws := rfl

/-! ## setMea -/

@[simp] theorem setMea_pending (f : MeaState → MeaState) (s : State) : (setMea f s).pending = s.pending := rfl
@[simp] theorem setMea_deferred (f : MeaState → MeaState) (s : State) : (setMea f s).deferred = s.deferred := rfl
@[simp] theorem setMea_stalled (f : MeaState → MeaState) (s : State) : (setMea f s).stalled = s.stalled := rfl
@[simp] theorem setMea_regs (f : MeaState → MeaState) (s : State) : (setMea f s).regs = s.regs := rfl
@[simp] theorem setMea_lat (f : MeaState → MeaState) (s : State) : (setMea f s).lat = s.lat := rfl
@[simp] theorem setMea_win (f : MeaState → MeaState) (s : State) : (setMea f s).win = s.win := rfl
@[simp] theorem setMea_isl (f : MeaState → MeaState) (s : State) : (setMea f s).isl = s.isl := rfl
@[simp] theorem setMea_boot (f : MeaState → MeaState) (s : State) : (setMea f s).boot = s.boot := rfl
@[simp] theorem setMea_clusters (f : MeaState → MeaState) (s : State) : (setMea f s).clusters = s.clusters := rfl
@[simp] theorem setMea_table (f : MeaState → MeaState) (s : State) : (setMea f s).table = s.table := rfl
@[simp] theorem setMea_pipe (f : MeaState → MeaState) (s : State) : (setMea f s).pipe = s.pipe := rfl
@[simp] theorem setMea_rules (f : MeaState → MeaState) (s : State) : (setMea f s).rules = s.rules := rfl
@[simp] theorem setMea_bal (f : MeaState → MeaState) (s : State) : (setMea f s).bal = s.bal := rfl
@[simp] theorem setMea_camp (f : MeaState → MeaState) (s : State) : (setMea f s).camp = s.camp := rfl
@[simp] theorem setMea_plc (f : MeaState → MeaState) (s : State) : (setMea f s).plc = s.plc := rfl
@[simp] theorem setMea_rf (f : MeaState → MeaState) (s : State) : (setMea f s).rf = s.rf := rfl
@[simp] theorem setMea_eth (f : MeaState → MeaState) (s : State) : (setMea f s).eth = s.eth := rfl
@[simp] theorem setMea_relay (f : MeaState → MeaState) (s : State) : (setMea f s).relay = s.relay := rfl
@[simp] theorem setMea_tim (f : MeaState → MeaState) (s : State) : (setMea f s).tim = s.tim := rfl
@[simp] theorem setMea_pair (f : MeaState → MeaState) (s : State) : (setMea f s).pair = s.pair := rfl
@[simp] theorem setMea_jr (f : MeaState → MeaState) (s : State) : (setMea f s).jr = s.jr := rfl
@[simp] theorem setMea_host (f : MeaState → MeaState) (s : State) : (setMea f s).host = s.host := rfl
@[simp] theorem setMea_sec (f : MeaState → MeaState) (s : State) : (setMea f s).sec = s.sec := rfl
@[simp] theorem setMea_arch (f : MeaState → MeaState) (s : State) : (setMea f s).arch = s.arch := rfl
@[simp] theorem setMea_queues (f : MeaState → MeaState) (s : State) : (setMea f s).queues = s.queues := rfl
@[simp] theorem setMea_mon (f : MeaState → MeaState) (s : State) : (setMea f s).mon = s.mon := rfl
@[simp] theorem setMea_evt (f : MeaState → MeaState) (s : State) : (setMea f s).evt = s.evt := rfl
@[simp] theorem setMea_out (f : MeaState → MeaState) (s : State) : (setMea f s).out = s.out := rfl
@[simp] theorem setMea_draws (f : MeaState → MeaState) (s : State) : (setMea f s).draws = s.draws := rfl

/-! ## setCampState -/

@[simp] theorem setCampState_pending (f : CampState → CampState) (s : State) : (setCampState f s).pending = s.pending := rfl
@[simp] theorem setCampState_deferred (f : CampState → CampState) (s : State) : (setCampState f s).deferred = s.deferred := rfl
@[simp] theorem setCampState_stalled (f : CampState → CampState) (s : State) : (setCampState f s).stalled = s.stalled := rfl
@[simp] theorem setCampState_regs (f : CampState → CampState) (s : State) : (setCampState f s).regs = s.regs := rfl
@[simp] theorem setCampState_lat (f : CampState → CampState) (s : State) : (setCampState f s).lat = s.lat := rfl
@[simp] theorem setCampState_win (f : CampState → CampState) (s : State) : (setCampState f s).win = s.win := rfl
@[simp] theorem setCampState_isl (f : CampState → CampState) (s : State) : (setCampState f s).isl = s.isl := rfl
@[simp] theorem setCampState_boot (f : CampState → CampState) (s : State) : (setCampState f s).boot = s.boot := rfl
@[simp] theorem setCampState_clusters (f : CampState → CampState) (s : State) : (setCampState f s).clusters = s.clusters := rfl
@[simp] theorem setCampState_table (f : CampState → CampState) (s : State) : (setCampState f s).table = s.table := rfl
@[simp] theorem setCampState_pipe (f : CampState → CampState) (s : State) : (setCampState f s).pipe = s.pipe := rfl
@[simp] theorem setCampState_rules (f : CampState → CampState) (s : State) : (setCampState f s).rules = s.rules := rfl
@[simp] theorem setCampState_bal (f : CampState → CampState) (s : State) : (setCampState f s).bal = s.bal := rfl
@[simp] theorem setCampState_plc (f : CampState → CampState) (s : State) : (setCampState f s).plc = s.plc := rfl
@[simp] theorem setCampState_rf (f : CampState → CampState) (s : State) : (setCampState f s).rf = s.rf := rfl
@[simp] theorem setCampState_eth (f : CampState → CampState) (s : State) : (setCampState f s).eth = s.eth := rfl
@[simp] theorem setCampState_relay (f : CampState → CampState) (s : State) : (setCampState f s).relay = s.relay := rfl
@[simp] theorem setCampState_tim (f : CampState → CampState) (s : State) : (setCampState f s).tim = s.tim := rfl
@[simp] theorem setCampState_pair (f : CampState → CampState) (s : State) : (setCampState f s).pair = s.pair := rfl
@[simp] theorem setCampState_jr (f : CampState → CampState) (s : State) : (setCampState f s).jr = s.jr := rfl
@[simp] theorem setCampState_host (f : CampState → CampState) (s : State) : (setCampState f s).host = s.host := rfl
@[simp] theorem setCampState_sec (f : CampState → CampState) (s : State) : (setCampState f s).sec = s.sec := rfl
@[simp] theorem setCampState_arch (f : CampState → CampState) (s : State) : (setCampState f s).arch = s.arch := rfl
@[simp] theorem setCampState_mea (f : CampState → CampState) (s : State) : (setCampState f s).mea = s.mea := rfl
@[simp] theorem setCampState_queues (f : CampState → CampState) (s : State) : (setCampState f s).queues = s.queues := rfl
@[simp] theorem setCampState_mon (f : CampState → CampState) (s : State) : (setCampState f s).mon = s.mon := rfl
@[simp] theorem setCampState_evt (f : CampState → CampState) (s : State) : (setCampState f s).evt = s.evt := rfl
@[simp] theorem setCampState_out (f : CampState → CampState) (s : State) : (setCampState f s).out = s.out := rfl
@[simp] theorem setCampState_draws (f : CampState → CampState) (s : State) : (setCampState f s).draws = s.draws := rfl

/-! ## setPlc -/

@[simp] theorem setPlc_pending (n : Nat) (f : PlcState → PlcState) (s : State) : (setPlc n f s).pending = s.pending := rfl
@[simp] theorem setPlc_deferred (n : Nat) (f : PlcState → PlcState) (s : State) : (setPlc n f s).deferred = s.deferred := rfl
@[simp] theorem setPlc_stalled (n : Nat) (f : PlcState → PlcState) (s : State) : (setPlc n f s).stalled = s.stalled := rfl
@[simp] theorem setPlc_regs (n : Nat) (f : PlcState → PlcState) (s : State) : (setPlc n f s).regs = s.regs := rfl
@[simp] theorem setPlc_lat (n : Nat) (f : PlcState → PlcState) (s : State) : (setPlc n f s).lat = s.lat := rfl
@[simp] theorem setPlc_win (n : Nat) (f : PlcState → PlcState) (s : State) : (setPlc n f s).win = s.win := rfl
@[simp] theorem setPlc_isl (n : Nat) (f : PlcState → PlcState) (s : State) : (setPlc n f s).isl = s.isl := rfl
@[simp] theorem setPlc_boot (n : Nat) (f : PlcState → PlcState) (s : State) : (setPlc n f s).boot = s.boot := rfl
@[simp] theorem setPlc_clusters (n : Nat) (f : PlcState → PlcState) (s : State) : (setPlc n f s).clusters = s.clusters := rfl
@[simp] theorem setPlc_table (n : Nat) (f : PlcState → PlcState) (s : State) : (setPlc n f s).table = s.table := rfl
@[simp] theorem setPlc_pipe (n : Nat) (f : PlcState → PlcState) (s : State) : (setPlc n f s).pipe = s.pipe := rfl
@[simp] theorem setPlc_rules (n : Nat) (f : PlcState → PlcState) (s : State) : (setPlc n f s).rules = s.rules := rfl
@[simp] theorem setPlc_bal (n : Nat) (f : PlcState → PlcState) (s : State) : (setPlc n f s).bal = s.bal := rfl
@[simp] theorem setPlc_camp (n : Nat) (f : PlcState → PlcState) (s : State) : (setPlc n f s).camp = s.camp := rfl
@[simp] theorem setPlc_rf (n : Nat) (f : PlcState → PlcState) (s : State) : (setPlc n f s).rf = s.rf := rfl
@[simp] theorem setPlc_eth (n : Nat) (f : PlcState → PlcState) (s : State) : (setPlc n f s).eth = s.eth := rfl
@[simp] theorem setPlc_relay (n : Nat) (f : PlcState → PlcState) (s : State) : (setPlc n f s).relay = s.relay := rfl
@[simp] theorem setPlc_tim (n : Nat) (f : PlcState → PlcState) (s : State) : (setPlc n f s).tim = s.tim := rfl
@[simp] theorem setPlc_pair (n : Nat) (f : PlcState → PlcState) (s : State) : (setPlc n f s).pair = s.pair := rfl
@[simp] theorem setPlc_jr (n : Nat) (f : PlcState → PlcState) (s : State) : (setPlc n f s).jr = s.jr := rfl
@[simp] theorem setPlc_host (n : Nat) (f : PlcState → PlcState) (s : State) : (setPlc n f s).host = s.host := rfl
@[simp] theorem setPlc_sec (n : Nat) (f : PlcState → PlcState) (s : State) : (setPlc n f s).sec = s.sec := rfl
@[simp] theorem setPlc_arch (n : Nat) (f : PlcState → PlcState) (s : State) : (setPlc n f s).arch = s.arch := rfl
@[simp] theorem setPlc_mea (n : Nat) (f : PlcState → PlcState) (s : State) : (setPlc n f s).mea = s.mea := rfl
@[simp] theorem setPlc_queues (n : Nat) (f : PlcState → PlcState) (s : State) : (setPlc n f s).queues = s.queues := rfl
@[simp] theorem setPlc_mon (n : Nat) (f : PlcState → PlcState) (s : State) : (setPlc n f s).mon = s.mon := rfl
@[simp] theorem setPlc_evt (n : Nat) (f : PlcState → PlcState) (s : State) : (setPlc n f s).evt = s.evt := rfl
@[simp] theorem setPlc_out (n : Nat) (f : PlcState → PlcState) (s : State) : (setPlc n f s).out = s.out := rfl
@[simp] theorem setPlc_draws (n : Nat) (f : PlcState → PlcState) (s : State) : (setPlc n f s).draws = s.draws := rfl

/-! ## setRf -/

@[simp] theorem setRf_pending (n : Nat) (f : RfState → RfState) (s : State) : (setRf n f s).pending = s.pending := rfl
@[simp] theorem setRf_deferred (n : Nat) (f : RfState → RfState) (s : State) : (setRf n f s).deferred = s.deferred := rfl
@[simp] theorem setRf_stalled (n : Nat) (f : RfState → RfState) (s : State) : (setRf n f s).stalled = s.stalled := rfl
@[simp] theorem setRf_regs (n : Nat) (f : RfState → RfState) (s : State) : (setRf n f s).regs = s.regs := rfl
@[simp] theorem setRf_lat (n : Nat) (f : RfState → RfState) (s : State) : (setRf n f s).lat = s.lat := rfl
@[simp] theorem setRf_win (n : Nat) (f : RfState → RfState) (s : State) : (setRf n f s).win = s.win := rfl
@[simp] theorem setRf_isl (n : Nat) (f : RfState → RfState) (s : State) : (setRf n f s).isl = s.isl := rfl
@[simp] theorem setRf_boot (n : Nat) (f : RfState → RfState) (s : State) : (setRf n f s).boot = s.boot := rfl
@[simp] theorem setRf_clusters (n : Nat) (f : RfState → RfState) (s : State) : (setRf n f s).clusters = s.clusters := rfl
@[simp] theorem setRf_table (n : Nat) (f : RfState → RfState) (s : State) : (setRf n f s).table = s.table := rfl
@[simp] theorem setRf_pipe (n : Nat) (f : RfState → RfState) (s : State) : (setRf n f s).pipe = s.pipe := rfl
@[simp] theorem setRf_rules (n : Nat) (f : RfState → RfState) (s : State) : (setRf n f s).rules = s.rules := rfl
@[simp] theorem setRf_bal (n : Nat) (f : RfState → RfState) (s : State) : (setRf n f s).bal = s.bal := rfl
@[simp] theorem setRf_camp (n : Nat) (f : RfState → RfState) (s : State) : (setRf n f s).camp = s.camp := rfl
@[simp] theorem setRf_plc (n : Nat) (f : RfState → RfState) (s : State) : (setRf n f s).plc = s.plc := rfl
@[simp] theorem setRf_eth (n : Nat) (f : RfState → RfState) (s : State) : (setRf n f s).eth = s.eth := rfl
@[simp] theorem setRf_relay (n : Nat) (f : RfState → RfState) (s : State) : (setRf n f s).relay = s.relay := rfl
@[simp] theorem setRf_tim (n : Nat) (f : RfState → RfState) (s : State) : (setRf n f s).tim = s.tim := rfl
@[simp] theorem setRf_pair (n : Nat) (f : RfState → RfState) (s : State) : (setRf n f s).pair = s.pair := rfl
@[simp] theorem setRf_jr (n : Nat) (f : RfState → RfState) (s : State) : (setRf n f s).jr = s.jr := rfl
@[simp] theorem setRf_host (n : Nat) (f : RfState → RfState) (s : State) : (setRf n f s).host = s.host := rfl
@[simp] theorem setRf_sec (n : Nat) (f : RfState → RfState) (s : State) : (setRf n f s).sec = s.sec := rfl
@[simp] theorem setRf_arch (n : Nat) (f : RfState → RfState) (s : State) : (setRf n f s).arch = s.arch := rfl
@[simp] theorem setRf_mea (n : Nat) (f : RfState → RfState) (s : State) : (setRf n f s).mea = s.mea := rfl
@[simp] theorem setRf_queues (n : Nat) (f : RfState → RfState) (s : State) : (setRf n f s).queues = s.queues := rfl
@[simp] theorem setRf_mon (n : Nat) (f : RfState → RfState) (s : State) : (setRf n f s).mon = s.mon := rfl
@[simp] theorem setRf_evt (n : Nat) (f : RfState → RfState) (s : State) : (setRf n f s).evt = s.evt := rfl
@[simp] theorem setRf_out (n : Nat) (f : RfState → RfState) (s : State) : (setRf n f s).out = s.out := rfl
@[simp] theorem setRf_draws (n : Nat) (f : RfState → RfState) (s : State) : (setRf n f s).draws = s.draws := rfl

/-! ## setEth -/

@[simp] theorem setEth_pending (p : Bool) (v : EthState) (s : State) : (setEth p v s).pending = s.pending := rfl
@[simp] theorem setEth_deferred (p : Bool) (v : EthState) (s : State) : (setEth p v s).deferred = s.deferred := rfl
@[simp] theorem setEth_stalled (p : Bool) (v : EthState) (s : State) : (setEth p v s).stalled = s.stalled := rfl
@[simp] theorem setEth_regs (p : Bool) (v : EthState) (s : State) : (setEth p v s).regs = s.regs := rfl
@[simp] theorem setEth_lat (p : Bool) (v : EthState) (s : State) : (setEth p v s).lat = s.lat := rfl
@[simp] theorem setEth_win (p : Bool) (v : EthState) (s : State) : (setEth p v s).win = s.win := rfl
@[simp] theorem setEth_isl (p : Bool) (v : EthState) (s : State) : (setEth p v s).isl = s.isl := rfl
@[simp] theorem setEth_boot (p : Bool) (v : EthState) (s : State) : (setEth p v s).boot = s.boot := rfl
@[simp] theorem setEth_clusters (p : Bool) (v : EthState) (s : State) : (setEth p v s).clusters = s.clusters := rfl
@[simp] theorem setEth_table (p : Bool) (v : EthState) (s : State) : (setEth p v s).table = s.table := rfl
@[simp] theorem setEth_pipe (p : Bool) (v : EthState) (s : State) : (setEth p v s).pipe = s.pipe := rfl
@[simp] theorem setEth_rules (p : Bool) (v : EthState) (s : State) : (setEth p v s).rules = s.rules := rfl
@[simp] theorem setEth_bal (p : Bool) (v : EthState) (s : State) : (setEth p v s).bal = s.bal := rfl
@[simp] theorem setEth_camp (p : Bool) (v : EthState) (s : State) : (setEth p v s).camp = s.camp := rfl
@[simp] theorem setEth_plc (p : Bool) (v : EthState) (s : State) : (setEth p v s).plc = s.plc := rfl
@[simp] theorem setEth_rf (p : Bool) (v : EthState) (s : State) : (setEth p v s).rf = s.rf := rfl
@[simp] theorem setEth_relay (p : Bool) (v : EthState) (s : State) : (setEth p v s).relay = s.relay := rfl
@[simp] theorem setEth_tim (p : Bool) (v : EthState) (s : State) : (setEth p v s).tim = s.tim := rfl
@[simp] theorem setEth_pair (p : Bool) (v : EthState) (s : State) : (setEth p v s).pair = s.pair := rfl
@[simp] theorem setEth_jr (p : Bool) (v : EthState) (s : State) : (setEth p v s).jr = s.jr := rfl
@[simp] theorem setEth_host (p : Bool) (v : EthState) (s : State) : (setEth p v s).host = s.host := rfl
@[simp] theorem setEth_sec (p : Bool) (v : EthState) (s : State) : (setEth p v s).sec = s.sec := rfl
@[simp] theorem setEth_arch (p : Bool) (v : EthState) (s : State) : (setEth p v s).arch = s.arch := rfl
@[simp] theorem setEth_mea (p : Bool) (v : EthState) (s : State) : (setEth p v s).mea = s.mea := rfl
@[simp] theorem setEth_queues (p : Bool) (v : EthState) (s : State) : (setEth p v s).queues = s.queues := rfl
@[simp] theorem setEth_mon (p : Bool) (v : EthState) (s : State) : (setEth p v s).mon = s.mon := rfl
@[simp] theorem setEth_evt (p : Bool) (v : EthState) (s : State) : (setEth p v s).evt = s.evt := rfl
@[simp] theorem setEth_out (p : Bool) (v : EthState) (s : State) : (setEth p v s).out = s.out := rfl
@[simp] theorem setEth_draws (p : Bool) (v : EthState) (s : State) : (setEth p v s).draws = s.draws := rfl

/-! ## setQ -/

@[simp] theorem setQ_pending (q : Nat) (v : QState) (s : State) : (setQ q v s).pending = s.pending := rfl
@[simp] theorem setQ_deferred (q : Nat) (v : QState) (s : State) : (setQ q v s).deferred = s.deferred := rfl
@[simp] theorem setQ_stalled (q : Nat) (v : QState) (s : State) : (setQ q v s).stalled = s.stalled := rfl
@[simp] theorem setQ_regs (q : Nat) (v : QState) (s : State) : (setQ q v s).regs = s.regs := rfl
@[simp] theorem setQ_lat (q : Nat) (v : QState) (s : State) : (setQ q v s).lat = s.lat := rfl
@[simp] theorem setQ_win (q : Nat) (v : QState) (s : State) : (setQ q v s).win = s.win := rfl
@[simp] theorem setQ_isl (q : Nat) (v : QState) (s : State) : (setQ q v s).isl = s.isl := rfl
@[simp] theorem setQ_boot (q : Nat) (v : QState) (s : State) : (setQ q v s).boot = s.boot := rfl
@[simp] theorem setQ_clusters (q : Nat) (v : QState) (s : State) : (setQ q v s).clusters = s.clusters := rfl
@[simp] theorem setQ_table (q : Nat) (v : QState) (s : State) : (setQ q v s).table = s.table := rfl
@[simp] theorem setQ_pipe (q : Nat) (v : QState) (s : State) : (setQ q v s).pipe = s.pipe := rfl
@[simp] theorem setQ_rules (q : Nat) (v : QState) (s : State) : (setQ q v s).rules = s.rules := rfl
@[simp] theorem setQ_bal (q : Nat) (v : QState) (s : State) : (setQ q v s).bal = s.bal := rfl
@[simp] theorem setQ_camp (q : Nat) (v : QState) (s : State) : (setQ q v s).camp = s.camp := rfl
@[simp] theorem setQ_plc (q : Nat) (v : QState) (s : State) : (setQ q v s).plc = s.plc := rfl
@[simp] theorem setQ_rf (q : Nat) (v : QState) (s : State) : (setQ q v s).rf = s.rf := rfl
@[simp] theorem setQ_eth (q : Nat) (v : QState) (s : State) : (setQ q v s).eth = s.eth := rfl
@[simp] theorem setQ_relay (q : Nat) (v : QState) (s : State) : (setQ q v s).relay = s.relay := rfl
@[simp] theorem setQ_tim (q : Nat) (v : QState) (s : State) : (setQ q v s).tim = s.tim := rfl
@[simp] theorem setQ_pair (q : Nat) (v : QState) (s : State) : (setQ q v s).pair = s.pair := rfl
@[simp] theorem setQ_jr (q : Nat) (v : QState) (s : State) : (setQ q v s).jr = s.jr := rfl
@[simp] theorem setQ_host (q : Nat) (v : QState) (s : State) : (setQ q v s).host = s.host := rfl
@[simp] theorem setQ_sec (q : Nat) (v : QState) (s : State) : (setQ q v s).sec = s.sec := rfl
@[simp] theorem setQ_arch (q : Nat) (v : QState) (s : State) : (setQ q v s).arch = s.arch := rfl
@[simp] theorem setQ_mea (q : Nat) (v : QState) (s : State) : (setQ q v s).mea = s.mea := rfl
@[simp] theorem setQ_mon (q : Nat) (v : QState) (s : State) : (setQ q v s).mon = s.mon := rfl
@[simp] theorem setQ_evt (q : Nat) (v : QState) (s : State) : (setQ q v s).evt = s.evt := rfl
@[simp] theorem setQ_out (q : Nat) (v : QState) (s : State) : (setQ q v s).out = s.out := rfl
@[simp] theorem setQ_draws (q : Nat) (v : QState) (s : State) : (setQ q v s).draws = s.draws := rfl

/-! ## setJr -/

@[simp] theorem setJr_pending (f : Journal → Journal) (s : State) : (setJr f s).pending = s.pending := rfl
@[simp] theorem setJr_deferred (f : Journal → Journal) (s : State) : (setJr f s).deferred = s.deferred := rfl
@[simp] theorem setJr_stalled (f : Journal → Journal) (s : State) : (setJr f s).stalled = s.stalled := rfl
@[simp] theorem setJr_regs (f : Journal → Journal) (s : State) : (setJr f s).regs = s.regs := rfl
@[simp] theorem setJr_lat (f : Journal → Journal) (s : State) : (setJr f s).lat = s.lat := rfl
@[simp] theorem setJr_win (f : Journal → Journal) (s : State) : (setJr f s).win = s.win := rfl
@[simp] theorem setJr_isl (f : Journal → Journal) (s : State) : (setJr f s).isl = s.isl := rfl
@[simp] theorem setJr_boot (f : Journal → Journal) (s : State) : (setJr f s).boot = s.boot := rfl
@[simp] theorem setJr_clusters (f : Journal → Journal) (s : State) : (setJr f s).clusters = s.clusters := rfl
@[simp] theorem setJr_table (f : Journal → Journal) (s : State) : (setJr f s).table = s.table := rfl
@[simp] theorem setJr_pipe (f : Journal → Journal) (s : State) : (setJr f s).pipe = s.pipe := rfl
@[simp] theorem setJr_rules (f : Journal → Journal) (s : State) : (setJr f s).rules = s.rules := rfl
@[simp] theorem setJr_bal (f : Journal → Journal) (s : State) : (setJr f s).bal = s.bal := rfl
@[simp] theorem setJr_camp (f : Journal → Journal) (s : State) : (setJr f s).camp = s.camp := rfl
@[simp] theorem setJr_plc (f : Journal → Journal) (s : State) : (setJr f s).plc = s.plc := rfl
@[simp] theorem setJr_rf (f : Journal → Journal) (s : State) : (setJr f s).rf = s.rf := rfl
@[simp] theorem setJr_eth (f : Journal → Journal) (s : State) : (setJr f s).eth = s.eth := rfl
@[simp] theorem setJr_relay (f : Journal → Journal) (s : State) : (setJr f s).relay = s.relay := rfl
@[simp] theorem setJr_tim (f : Journal → Journal) (s : State) : (setJr f s).tim = s.tim := rfl
@[simp] theorem setJr_pair (f : Journal → Journal) (s : State) : (setJr f s).pair = s.pair := rfl
@[simp] theorem setJr_host (f : Journal → Journal) (s : State) : (setJr f s).host = s.host := rfl
@[simp] theorem setJr_sec (f : Journal → Journal) (s : State) : (setJr f s).sec = s.sec := rfl
@[simp] theorem setJr_arch (f : Journal → Journal) (s : State) : (setJr f s).arch = s.arch := rfl
@[simp] theorem setJr_mea (f : Journal → Journal) (s : State) : (setJr f s).mea = s.mea := rfl
@[simp] theorem setJr_queues (f : Journal → Journal) (s : State) : (setJr f s).queues = s.queues := rfl
@[simp] theorem setJr_mon (f : Journal → Journal) (s : State) : (setJr f s).mon = s.mon := rfl
@[simp] theorem setJr_evt (f : Journal → Journal) (s : State) : (setJr f s).evt = s.evt := rfl
@[simp] theorem setJr_out (f : Journal → Journal) (s : State) : (setJr f s).out = s.out := rfl
@[simp] theorem setJr_draws (f : Journal → Journal) (s : State) : (setJr f s).draws = s.draws := rfl

/-! ## setLatch -/

@[simp] theorem setLatch_pending (p : Path) (f : Latch → Latch) (s : State) : (setLatch p f s).pending = s.pending := rfl
@[simp] theorem setLatch_deferred (p : Path) (f : Latch → Latch) (s : State) : (setLatch p f s).deferred = s.deferred := rfl
@[simp] theorem setLatch_stalled (p : Path) (f : Latch → Latch) (s : State) : (setLatch p f s).stalled = s.stalled := rfl
@[simp] theorem setLatch_regs (p : Path) (f : Latch → Latch) (s : State) : (setLatch p f s).regs = s.regs := rfl
@[simp] theorem setLatch_win (p : Path) (f : Latch → Latch) (s : State) : (setLatch p f s).win = s.win := rfl
@[simp] theorem setLatch_isl (p : Path) (f : Latch → Latch) (s : State) : (setLatch p f s).isl = s.isl := rfl
@[simp] theorem setLatch_boot (p : Path) (f : Latch → Latch) (s : State) : (setLatch p f s).boot = s.boot := rfl
@[simp] theorem setLatch_clusters (p : Path) (f : Latch → Latch) (s : State) : (setLatch p f s).clusters = s.clusters := rfl
@[simp] theorem setLatch_table (p : Path) (f : Latch → Latch) (s : State) : (setLatch p f s).table = s.table := rfl
@[simp] theorem setLatch_pipe (p : Path) (f : Latch → Latch) (s : State) : (setLatch p f s).pipe = s.pipe := rfl
@[simp] theorem setLatch_rules (p : Path) (f : Latch → Latch) (s : State) : (setLatch p f s).rules = s.rules := rfl
@[simp] theorem setLatch_bal (p : Path) (f : Latch → Latch) (s : State) : (setLatch p f s).bal = s.bal := rfl
@[simp] theorem setLatch_camp (p : Path) (f : Latch → Latch) (s : State) : (setLatch p f s).camp = s.camp := rfl
@[simp] theorem setLatch_plc (p : Path) (f : Latch → Latch) (s : State) : (setLatch p f s).plc = s.plc := rfl
@[simp] theorem setLatch_rf (p : Path) (f : Latch → Latch) (s : State) : (setLatch p f s).rf = s.rf := rfl
@[simp] theorem setLatch_eth (p : Path) (f : Latch → Latch) (s : State) : (setLatch p f s).eth = s.eth := rfl
@[simp] theorem setLatch_relay (p : Path) (f : Latch → Latch) (s : State) : (setLatch p f s).relay = s.relay := rfl
@[simp] theorem setLatch_tim (p : Path) (f : Latch → Latch) (s : State) : (setLatch p f s).tim = s.tim := rfl
@[simp] theorem setLatch_pair (p : Path) (f : Latch → Latch) (s : State) : (setLatch p f s).pair = s.pair := rfl
@[simp] theorem setLatch_jr (p : Path) (f : Latch → Latch) (s : State) : (setLatch p f s).jr = s.jr := rfl
@[simp] theorem setLatch_host (p : Path) (f : Latch → Latch) (s : State) : (setLatch p f s).host = s.host := rfl
@[simp] theorem setLatch_sec (p : Path) (f : Latch → Latch) (s : State) : (setLatch p f s).sec = s.sec := rfl
@[simp] theorem setLatch_arch (p : Path) (f : Latch → Latch) (s : State) : (setLatch p f s).arch = s.arch := rfl
@[simp] theorem setLatch_mea (p : Path) (f : Latch → Latch) (s : State) : (setLatch p f s).mea = s.mea := rfl
@[simp] theorem setLatch_queues (p : Path) (f : Latch → Latch) (s : State) : (setLatch p f s).queues = s.queues := rfl
@[simp] theorem setLatch_mon (p : Path) (f : Latch → Latch) (s : State) : (setLatch p f s).mon = s.mon := rfl
@[simp] theorem setLatch_evt (p : Path) (f : Latch → Latch) (s : State) : (setLatch p f s).evt = s.evt := rfl
@[simp] theorem setLatch_out (p : Path) (f : Latch → Latch) (s : State) : (setLatch p f s).out = s.out := rfl
@[simp] theorem setLatch_draws (p : Path) (f : Latch → Latch) (s : State) : (setLatch p f s).draws = s.draws := rfl

/-! ## writeRec -/

@[simp] theorem writeRec_pending (n : Nat) (f : RecImg → RecImg) (s : State) : (writeRec n f s).pending = s.pending := by have h := (writeRec_changes n f s).same .pending (by decide); exact h
@[simp] theorem writeRec_deferred (n : Nat) (f : RecImg → RecImg) (s : State) : (writeRec n f s).deferred = s.deferred := by have h := (writeRec_changes n f s).same .deferred (by decide); exact h
@[simp] theorem writeRec_stalled (n : Nat) (f : RecImg → RecImg) (s : State) : (writeRec n f s).stalled = s.stalled := by have h := (writeRec_changes n f s).same .stalled (by decide); exact h
@[simp] theorem writeRec_regs (n : Nat) (f : RecImg → RecImg) (s : State) : (writeRec n f s).regs = s.regs := by have h := (writeRec_changes n f s).same .regs (by decide); exact h
@[simp] theorem writeRec_lat (n : Nat) (f : RecImg → RecImg) (s : State) : (writeRec n f s).lat = s.lat := by have h := (writeRec_changes n f s).same .lat (by decide); exact h
@[simp] theorem writeRec_win (n : Nat) (f : RecImg → RecImg) (s : State) : (writeRec n f s).win = s.win := by have h := (writeRec_changes n f s).same .win (by decide); exact h
@[simp] theorem writeRec_isl (n : Nat) (f : RecImg → RecImg) (s : State) : (writeRec n f s).isl = s.isl := by have h := (writeRec_changes n f s).same .isl (by decide); exact h
@[simp] theorem writeRec_boot (n : Nat) (f : RecImg → RecImg) (s : State) : (writeRec n f s).boot = s.boot := by have h := (writeRec_changes n f s).same .boot (by decide); exact h
@[simp] theorem writeRec_clusters (n : Nat) (f : RecImg → RecImg) (s : State) : (writeRec n f s).clusters = s.clusters := by have h := (writeRec_changes n f s).same .clusters (by decide); exact h
@[simp] theorem writeRec_pipe (n : Nat) (f : RecImg → RecImg) (s : State) : (writeRec n f s).pipe = s.pipe := by have h := (writeRec_changes n f s).same .pipe (by decide); exact h
@[simp] theorem writeRec_rules (n : Nat) (f : RecImg → RecImg) (s : State) : (writeRec n f s).rules = s.rules := by have h := (writeRec_changes n f s).same .rules (by decide); exact h
@[simp] theorem writeRec_bal (n : Nat) (f : RecImg → RecImg) (s : State) : (writeRec n f s).bal = s.bal := by have h := (writeRec_changes n f s).same .bal (by decide); exact h
@[simp] theorem writeRec_camp (n : Nat) (f : RecImg → RecImg) (s : State) : (writeRec n f s).camp = s.camp := by have h := (writeRec_changes n f s).same .camp (by decide); exact h
@[simp] theorem writeRec_plc (n : Nat) (f : RecImg → RecImg) (s : State) : (writeRec n f s).plc = s.plc := by have h := (writeRec_changes n f s).same .plc (by decide); exact h
@[simp] theorem writeRec_rf (n : Nat) (f : RecImg → RecImg) (s : State) : (writeRec n f s).rf = s.rf := by have h := (writeRec_changes n f s).same .rf (by decide); exact h
@[simp] theorem writeRec_eth (n : Nat) (f : RecImg → RecImg) (s : State) : (writeRec n f s).eth = s.eth := by have h := (writeRec_changes n f s).same .eth (by decide); exact h
@[simp] theorem writeRec_relay (n : Nat) (f : RecImg → RecImg) (s : State) : (writeRec n f s).relay = s.relay := by have h := (writeRec_changes n f s).same .relay (by decide); exact h
@[simp] theorem writeRec_tim (n : Nat) (f : RecImg → RecImg) (s : State) : (writeRec n f s).tim = s.tim := by have h := (writeRec_changes n f s).same .tim (by decide); exact h
@[simp] theorem writeRec_pair (n : Nat) (f : RecImg → RecImg) (s : State) : (writeRec n f s).pair = s.pair := by have h := (writeRec_changes n f s).same .pair (by decide); exact h
@[simp] theorem writeRec_host (n : Nat) (f : RecImg → RecImg) (s : State) : (writeRec n f s).host = s.host := by have h := (writeRec_changes n f s).same .host (by decide); exact h
@[simp] theorem writeRec_sec (n : Nat) (f : RecImg → RecImg) (s : State) : (writeRec n f s).sec = s.sec := by have h := (writeRec_changes n f s).same .sec (by decide); exact h
@[simp] theorem writeRec_arch (n : Nat) (f : RecImg → RecImg) (s : State) : (writeRec n f s).arch = s.arch := by have h := (writeRec_changes n f s).same .arch (by decide); exact h
@[simp] theorem writeRec_mea (n : Nat) (f : RecImg → RecImg) (s : State) : (writeRec n f s).mea = s.mea := by have h := (writeRec_changes n f s).same .mea (by decide); exact h
@[simp] theorem writeRec_queues (n : Nat) (f : RecImg → RecImg) (s : State) : (writeRec n f s).queues = s.queues := by have h := (writeRec_changes n f s).same .queues (by decide); exact h
@[simp] theorem writeRec_mon (n : Nat) (f : RecImg → RecImg) (s : State) : (writeRec n f s).mon = s.mon := by have h := (writeRec_changes n f s).same .mon (by decide); exact h
@[simp] theorem writeRec_evt (n : Nat) (f : RecImg → RecImg) (s : State) : (writeRec n f s).evt = s.evt := by have h := (writeRec_changes n f s).same .evt (by decide); exact h
@[simp] theorem writeRec_out (n : Nat) (f : RecImg → RecImg) (s : State) : (writeRec n f s).out = s.out := by have h := (writeRec_changes n f s).same .out (by decide); exact h
@[simp] theorem writeRec_draws (n : Nat) (f : RecImg → RecImg) (s : State) : (writeRec n f s).draws = s.draws := by have h := (writeRec_changes n f s).same .draws (by decide); exact h

/-! ## writeSlot -/

@[simp] theorem writeSlot_pending (n : Nat) (v : Slot) (s : State) : (writeSlot n v s).pending = s.pending := by have h := (writeSlot_changes n v s).same .pending (by decide); exact h
@[simp] theorem writeSlot_deferred (n : Nat) (v : Slot) (s : State) : (writeSlot n v s).deferred = s.deferred := by have h := (writeSlot_changes n v s).same .deferred (by decide); exact h
@[simp] theorem writeSlot_stalled (n : Nat) (v : Slot) (s : State) : (writeSlot n v s).stalled = s.stalled := by have h := (writeSlot_changes n v s).same .stalled (by decide); exact h
@[simp] theorem writeSlot_regs (n : Nat) (v : Slot) (s : State) : (writeSlot n v s).regs = s.regs := by have h := (writeSlot_changes n v s).same .regs (by decide); exact h
@[simp] theorem writeSlot_lat (n : Nat) (v : Slot) (s : State) : (writeSlot n v s).lat = s.lat := by have h := (writeSlot_changes n v s).same .lat (by decide); exact h
@[simp] theorem writeSlot_win (n : Nat) (v : Slot) (s : State) : (writeSlot n v s).win = s.win := by have h := (writeSlot_changes n v s).same .win (by decide); exact h
@[simp] theorem writeSlot_isl (n : Nat) (v : Slot) (s : State) : (writeSlot n v s).isl = s.isl := by have h := (writeSlot_changes n v s).same .isl (by decide); exact h
@[simp] theorem writeSlot_boot (n : Nat) (v : Slot) (s : State) : (writeSlot n v s).boot = s.boot := by have h := (writeSlot_changes n v s).same .boot (by decide); exact h
@[simp] theorem writeSlot_clusters (n : Nat) (v : Slot) (s : State) : (writeSlot n v s).clusters = s.clusters := by have h := (writeSlot_changes n v s).same .clusters (by decide); exact h
@[simp] theorem writeSlot_pipe (n : Nat) (v : Slot) (s : State) : (writeSlot n v s).pipe = s.pipe := by have h := (writeSlot_changes n v s).same .pipe (by decide); exact h
@[simp] theorem writeSlot_rules (n : Nat) (v : Slot) (s : State) : (writeSlot n v s).rules = s.rules := by have h := (writeSlot_changes n v s).same .rules (by decide); exact h
@[simp] theorem writeSlot_bal (n : Nat) (v : Slot) (s : State) : (writeSlot n v s).bal = s.bal := by have h := (writeSlot_changes n v s).same .bal (by decide); exact h
@[simp] theorem writeSlot_camp (n : Nat) (v : Slot) (s : State) : (writeSlot n v s).camp = s.camp := by have h := (writeSlot_changes n v s).same .camp (by decide); exact h
@[simp] theorem writeSlot_plc (n : Nat) (v : Slot) (s : State) : (writeSlot n v s).plc = s.plc := by have h := (writeSlot_changes n v s).same .plc (by decide); exact h
@[simp] theorem writeSlot_rf (n : Nat) (v : Slot) (s : State) : (writeSlot n v s).rf = s.rf := by have h := (writeSlot_changes n v s).same .rf (by decide); exact h
@[simp] theorem writeSlot_eth (n : Nat) (v : Slot) (s : State) : (writeSlot n v s).eth = s.eth := by have h := (writeSlot_changes n v s).same .eth (by decide); exact h
@[simp] theorem writeSlot_relay (n : Nat) (v : Slot) (s : State) : (writeSlot n v s).relay = s.relay := by have h := (writeSlot_changes n v s).same .relay (by decide); exact h
@[simp] theorem writeSlot_tim (n : Nat) (v : Slot) (s : State) : (writeSlot n v s).tim = s.tim := by have h := (writeSlot_changes n v s).same .tim (by decide); exact h
@[simp] theorem writeSlot_pair (n : Nat) (v : Slot) (s : State) : (writeSlot n v s).pair = s.pair := by have h := (writeSlot_changes n v s).same .pair (by decide); exact h
@[simp] theorem writeSlot_host (n : Nat) (v : Slot) (s : State) : (writeSlot n v s).host = s.host := by have h := (writeSlot_changes n v s).same .host (by decide); exact h
@[simp] theorem writeSlot_sec (n : Nat) (v : Slot) (s : State) : (writeSlot n v s).sec = s.sec := by have h := (writeSlot_changes n v s).same .sec (by decide); exact h
@[simp] theorem writeSlot_arch (n : Nat) (v : Slot) (s : State) : (writeSlot n v s).arch = s.arch := by have h := (writeSlot_changes n v s).same .arch (by decide); exact h
@[simp] theorem writeSlot_mea (n : Nat) (v : Slot) (s : State) : (writeSlot n v s).mea = s.mea := by have h := (writeSlot_changes n v s).same .mea (by decide); exact h
@[simp] theorem writeSlot_queues (n : Nat) (v : Slot) (s : State) : (writeSlot n v s).queues = s.queues := by have h := (writeSlot_changes n v s).same .queues (by decide); exact h
@[simp] theorem writeSlot_mon (n : Nat) (v : Slot) (s : State) : (writeSlot n v s).mon = s.mon := by have h := (writeSlot_changes n v s).same .mon (by decide); exact h
@[simp] theorem writeSlot_evt (n : Nat) (v : Slot) (s : State) : (writeSlot n v s).evt = s.evt := by have h := (writeSlot_changes n v s).same .evt (by decide); exact h
@[simp] theorem writeSlot_out (n : Nat) (v : Slot) (s : State) : (writeSlot n v s).out = s.out := by have h := (writeSlot_changes n v s).same .out (by decide); exact h
@[simp] theorem writeSlot_draws (n : Nat) (v : Slot) (s : State) : (writeSlot n v s).draws = s.draws := by have h := (writeSlot_changes n v s).same .draws (by decide); exact h

/-! ## putKeySlot -/

@[simp] theorem putKeySlot_pending (n : Nat) (v : Option AuthSlot) (s : State) : (putKeySlot n v s).pending = s.pending := by have h := (putKeySlot_changes n v s).same .pending (by decide); exact h
@[simp] theorem putKeySlot_deferred (n : Nat) (v : Option AuthSlot) (s : State) : (putKeySlot n v s).deferred = s.deferred := by have h := (putKeySlot_changes n v s).same .deferred (by decide); exact h
@[simp] theorem putKeySlot_stalled (n : Nat) (v : Option AuthSlot) (s : State) : (putKeySlot n v s).stalled = s.stalled := by have h := (putKeySlot_changes n v s).same .stalled (by decide); exact h
@[simp] theorem putKeySlot_regs (n : Nat) (v : Option AuthSlot) (s : State) : (putKeySlot n v s).regs = s.regs := by have h := (putKeySlot_changes n v s).same .regs (by decide); exact h
@[simp] theorem putKeySlot_lat (n : Nat) (v : Option AuthSlot) (s : State) : (putKeySlot n v s).lat = s.lat := by have h := (putKeySlot_changes n v s).same .lat (by decide); exact h
@[simp] theorem putKeySlot_win (n : Nat) (v : Option AuthSlot) (s : State) : (putKeySlot n v s).win = s.win := by have h := (putKeySlot_changes n v s).same .win (by decide); exact h
@[simp] theorem putKeySlot_isl (n : Nat) (v : Option AuthSlot) (s : State) : (putKeySlot n v s).isl = s.isl := by have h := (putKeySlot_changes n v s).same .isl (by decide); exact h
@[simp] theorem putKeySlot_boot (n : Nat) (v : Option AuthSlot) (s : State) : (putKeySlot n v s).boot = s.boot := by have h := (putKeySlot_changes n v s).same .boot (by decide); exact h
@[simp] theorem putKeySlot_clusters (n : Nat) (v : Option AuthSlot) (s : State) : (putKeySlot n v s).clusters = s.clusters := by have h := (putKeySlot_changes n v s).same .clusters (by decide); exact h
@[simp] theorem putKeySlot_table (n : Nat) (v : Option AuthSlot) (s : State) : (putKeySlot n v s).table = s.table := by have h := (putKeySlot_changes n v s).same .table (by decide); exact h
@[simp] theorem putKeySlot_pipe (n : Nat) (v : Option AuthSlot) (s : State) : (putKeySlot n v s).pipe = s.pipe := by have h := (putKeySlot_changes n v s).same .pipe (by decide); exact h
@[simp] theorem putKeySlot_rules (n : Nat) (v : Option AuthSlot) (s : State) : (putKeySlot n v s).rules = s.rules := by have h := (putKeySlot_changes n v s).same .rules (by decide); exact h
@[simp] theorem putKeySlot_bal (n : Nat) (v : Option AuthSlot) (s : State) : (putKeySlot n v s).bal = s.bal := by have h := (putKeySlot_changes n v s).same .bal (by decide); exact h
@[simp] theorem putKeySlot_camp (n : Nat) (v : Option AuthSlot) (s : State) : (putKeySlot n v s).camp = s.camp := by have h := (putKeySlot_changes n v s).same .camp (by decide); exact h
@[simp] theorem putKeySlot_plc (n : Nat) (v : Option AuthSlot) (s : State) : (putKeySlot n v s).plc = s.plc := by have h := (putKeySlot_changes n v s).same .plc (by decide); exact h
@[simp] theorem putKeySlot_rf (n : Nat) (v : Option AuthSlot) (s : State) : (putKeySlot n v s).rf = s.rf := by have h := (putKeySlot_changes n v s).same .rf (by decide); exact h
@[simp] theorem putKeySlot_eth (n : Nat) (v : Option AuthSlot) (s : State) : (putKeySlot n v s).eth = s.eth := by have h := (putKeySlot_changes n v s).same .eth (by decide); exact h
@[simp] theorem putKeySlot_relay (n : Nat) (v : Option AuthSlot) (s : State) : (putKeySlot n v s).relay = s.relay := by have h := (putKeySlot_changes n v s).same .relay (by decide); exact h
@[simp] theorem putKeySlot_tim (n : Nat) (v : Option AuthSlot) (s : State) : (putKeySlot n v s).tim = s.tim := by have h := (putKeySlot_changes n v s).same .tim (by decide); exact h
@[simp] theorem putKeySlot_pair (n : Nat) (v : Option AuthSlot) (s : State) : (putKeySlot n v s).pair = s.pair := by have h := (putKeySlot_changes n v s).same .pair (by decide); exact h
@[simp] theorem putKeySlot_host (n : Nat) (v : Option AuthSlot) (s : State) : (putKeySlot n v s).host = s.host := by have h := (putKeySlot_changes n v s).same .host (by decide); exact h
@[simp] theorem putKeySlot_arch (n : Nat) (v : Option AuthSlot) (s : State) : (putKeySlot n v s).arch = s.arch := by have h := (putKeySlot_changes n v s).same .arch (by decide); exact h
@[simp] theorem putKeySlot_mea (n : Nat) (v : Option AuthSlot) (s : State) : (putKeySlot n v s).mea = s.mea := by have h := (putKeySlot_changes n v s).same .mea (by decide); exact h
@[simp] theorem putKeySlot_queues (n : Nat) (v : Option AuthSlot) (s : State) : (putKeySlot n v s).queues = s.queues := by have h := (putKeySlot_changes n v s).same .queues (by decide); exact h
@[simp] theorem putKeySlot_mon (n : Nat) (v : Option AuthSlot) (s : State) : (putKeySlot n v s).mon = s.mon := by have h := (putKeySlot_changes n v s).same .mon (by decide); exact h
@[simp] theorem putKeySlot_evt (n : Nat) (v : Option AuthSlot) (s : State) : (putKeySlot n v s).evt = s.evt := by have h := (putKeySlot_changes n v s).same .evt (by decide); exact h
@[simp] theorem putKeySlot_out (n : Nat) (v : Option AuthSlot) (s : State) : (putKeySlot n v s).out = s.out := by have h := (putKeySlot_changes n v s).same .out (by decide); exact h
@[simp] theorem putKeySlot_draws (n : Nat) (v : Option AuthSlot) (s : State) : (putKeySlot n v s).draws = s.draws := by have h := (putKeySlot_changes n v s).same .draws (by decide); exact h

/-! ## endFlight -/

@[simp] theorem endFlight_pending (id : Nat) (s : State) : (endFlight id s).pending = s.pending := by have h := (endFlight_changes id s).same .pending (by decide); exact h
@[simp] theorem endFlight_deferred (id : Nat) (s : State) : (endFlight id s).deferred = s.deferred := by have h := (endFlight_changes id s).same .deferred (by decide); exact h
@[simp] theorem endFlight_stalled (id : Nat) (s : State) : (endFlight id s).stalled = s.stalled := by have h := (endFlight_changes id s).same .stalled (by decide); exact h
@[simp] theorem endFlight_regs (id : Nat) (s : State) : (endFlight id s).regs = s.regs := by have h := (endFlight_changes id s).same .regs (by decide); exact h
@[simp] theorem endFlight_lat (id : Nat) (s : State) : (endFlight id s).lat = s.lat := by have h := (endFlight_changes id s).same .lat (by decide); exact h
@[simp] theorem endFlight_win (id : Nat) (s : State) : (endFlight id s).win = s.win := by have h := (endFlight_changes id s).same .win (by decide); exact h
@[simp] theorem endFlight_isl (id : Nat) (s : State) : (endFlight id s).isl = s.isl := by have h := (endFlight_changes id s).same .isl (by decide); exact h
@[simp] theorem endFlight_boot (id : Nat) (s : State) : (endFlight id s).boot = s.boot := by have h := (endFlight_changes id s).same .boot (by decide); exact h
@[simp] theorem endFlight_clusters (id : Nat) (s : State) : (endFlight id s).clusters = s.clusters := by have h := (endFlight_changes id s).same .clusters (by decide); exact h
@[simp] theorem endFlight_table (id : Nat) (s : State) : (endFlight id s).table = s.table := by have h := (endFlight_changes id s).same .table (by decide); exact h
@[simp] theorem endFlight_rules (id : Nat) (s : State) : (endFlight id s).rules = s.rules := by have h := (endFlight_changes id s).same .rules (by decide); exact h
@[simp] theorem endFlight_bal (id : Nat) (s : State) : (endFlight id s).bal = s.bal := by have h := (endFlight_changes id s).same .bal (by decide); exact h
@[simp] theorem endFlight_camp (id : Nat) (s : State) : (endFlight id s).camp = s.camp := by have h := (endFlight_changes id s).same .camp (by decide); exact h
@[simp] theorem endFlight_plc (id : Nat) (s : State) : (endFlight id s).plc = s.plc := by have h := (endFlight_changes id s).same .plc (by decide); exact h
@[simp] theorem endFlight_rf (id : Nat) (s : State) : (endFlight id s).rf = s.rf := by have h := (endFlight_changes id s).same .rf (by decide); exact h
@[simp] theorem endFlight_eth (id : Nat) (s : State) : (endFlight id s).eth = s.eth := by have h := (endFlight_changes id s).same .eth (by decide); exact h
@[simp] theorem endFlight_relay (id : Nat) (s : State) : (endFlight id s).relay = s.relay := by have h := (endFlight_changes id s).same .relay (by decide); exact h
@[simp] theorem endFlight_tim (id : Nat) (s : State) : (endFlight id s).tim = s.tim := by have h := (endFlight_changes id s).same .tim (by decide); exact h
@[simp] theorem endFlight_pair (id : Nat) (s : State) : (endFlight id s).pair = s.pair := by have h := (endFlight_changes id s).same .pair (by decide); exact h
@[simp] theorem endFlight_jr (id : Nat) (s : State) : (endFlight id s).jr = s.jr := by have h := (endFlight_changes id s).same .jr (by decide); exact h
@[simp] theorem endFlight_host (id : Nat) (s : State) : (endFlight id s).host = s.host := by have h := (endFlight_changes id s).same .host (by decide); exact h
@[simp] theorem endFlight_sec (id : Nat) (s : State) : (endFlight id s).sec = s.sec := by have h := (endFlight_changes id s).same .sec (by decide); exact h
@[simp] theorem endFlight_arch (id : Nat) (s : State) : (endFlight id s).arch = s.arch := by have h := (endFlight_changes id s).same .arch (by decide); exact h
@[simp] theorem endFlight_mea (id : Nat) (s : State) : (endFlight id s).mea = s.mea := by have h := (endFlight_changes id s).same .mea (by decide); exact h
@[simp] theorem endFlight_queues (id : Nat) (s : State) : (endFlight id s).queues = s.queues := by have h := (endFlight_changes id s).same .queues (by decide); exact h
@[simp] theorem endFlight_mon (id : Nat) (s : State) : (endFlight id s).mon = s.mon := by have h := (endFlight_changes id s).same .mon (by decide); exact h
@[simp] theorem endFlight_evt (id : Nat) (s : State) : (endFlight id s).evt = s.evt := by have h := (endFlight_changes id s).same .evt (by decide); exact h
@[simp] theorem endFlight_out (id : Nat) (s : State) : (endFlight id s).out = s.out := by have h := (endFlight_changes id s).same .out (by decide); exact h
@[simp] theorem endFlight_draws (id : Nat) (s : State) : (endFlight id s).draws = s.draws := by have h := (endFlight_changes id s).same .draws (by decide); exact h

/-! ## putFlight -/

@[simp] theorem putFlight_pending (f : Flight) (s : State) : (putFlight f s).pending = s.pending := by have h := (putFlight_changes f s).same .pending (by decide); exact h
@[simp] theorem putFlight_deferred (f : Flight) (s : State) : (putFlight f s).deferred = s.deferred := by have h := (putFlight_changes f s).same .deferred (by decide); exact h
@[simp] theorem putFlight_stalled (f : Flight) (s : State) : (putFlight f s).stalled = s.stalled := by have h := (putFlight_changes f s).same .stalled (by decide); exact h
@[simp] theorem putFlight_regs (f : Flight) (s : State) : (putFlight f s).regs = s.regs := by have h := (putFlight_changes f s).same .regs (by decide); exact h
@[simp] theorem putFlight_lat (f : Flight) (s : State) : (putFlight f s).lat = s.lat := by have h := (putFlight_changes f s).same .lat (by decide); exact h
@[simp] theorem putFlight_win (f : Flight) (s : State) : (putFlight f s).win = s.win := by have h := (putFlight_changes f s).same .win (by decide); exact h
@[simp] theorem putFlight_isl (f : Flight) (s : State) : (putFlight f s).isl = s.isl := by have h := (putFlight_changes f s).same .isl (by decide); exact h
@[simp] theorem putFlight_boot (f : Flight) (s : State) : (putFlight f s).boot = s.boot := by have h := (putFlight_changes f s).same .boot (by decide); exact h
@[simp] theorem putFlight_clusters (f : Flight) (s : State) : (putFlight f s).clusters = s.clusters := by have h := (putFlight_changes f s).same .clusters (by decide); exact h
@[simp] theorem putFlight_table (f : Flight) (s : State) : (putFlight f s).table = s.table := by have h := (putFlight_changes f s).same .table (by decide); exact h
@[simp] theorem putFlight_rules (f : Flight) (s : State) : (putFlight f s).rules = s.rules := by have h := (putFlight_changes f s).same .rules (by decide); exact h
@[simp] theorem putFlight_bal (f : Flight) (s : State) : (putFlight f s).bal = s.bal := by have h := (putFlight_changes f s).same .bal (by decide); exact h
@[simp] theorem putFlight_camp (f : Flight) (s : State) : (putFlight f s).camp = s.camp := by have h := (putFlight_changes f s).same .camp (by decide); exact h
@[simp] theorem putFlight_plc (f : Flight) (s : State) : (putFlight f s).plc = s.plc := by have h := (putFlight_changes f s).same .plc (by decide); exact h
@[simp] theorem putFlight_rf (f : Flight) (s : State) : (putFlight f s).rf = s.rf := by have h := (putFlight_changes f s).same .rf (by decide); exact h
@[simp] theorem putFlight_eth (f : Flight) (s : State) : (putFlight f s).eth = s.eth := by have h := (putFlight_changes f s).same .eth (by decide); exact h
@[simp] theorem putFlight_relay (f : Flight) (s : State) : (putFlight f s).relay = s.relay := by have h := (putFlight_changes f s).same .relay (by decide); exact h
@[simp] theorem putFlight_tim (f : Flight) (s : State) : (putFlight f s).tim = s.tim := by have h := (putFlight_changes f s).same .tim (by decide); exact h
@[simp] theorem putFlight_pair (f : Flight) (s : State) : (putFlight f s).pair = s.pair := by have h := (putFlight_changes f s).same .pair (by decide); exact h
@[simp] theorem putFlight_jr (f : Flight) (s : State) : (putFlight f s).jr = s.jr := by have h := (putFlight_changes f s).same .jr (by decide); exact h
@[simp] theorem putFlight_host (f : Flight) (s : State) : (putFlight f s).host = s.host := by have h := (putFlight_changes f s).same .host (by decide); exact h
@[simp] theorem putFlight_sec (f : Flight) (s : State) : (putFlight f s).sec = s.sec := by have h := (putFlight_changes f s).same .sec (by decide); exact h
@[simp] theorem putFlight_arch (f : Flight) (s : State) : (putFlight f s).arch = s.arch := by have h := (putFlight_changes f s).same .arch (by decide); exact h
@[simp] theorem putFlight_mea (f : Flight) (s : State) : (putFlight f s).mea = s.mea := by have h := (putFlight_changes f s).same .mea (by decide); exact h
@[simp] theorem putFlight_queues (f : Flight) (s : State) : (putFlight f s).queues = s.queues := by have h := (putFlight_changes f s).same .queues (by decide); exact h
@[simp] theorem putFlight_mon (f : Flight) (s : State) : (putFlight f s).mon = s.mon := by have h := (putFlight_changes f s).same .mon (by decide); exact h
@[simp] theorem putFlight_evt (f : Flight) (s : State) : (putFlight f s).evt = s.evt := by have h := (putFlight_changes f s).same .evt (by decide); exact h
@[simp] theorem putFlight_out (f : Flight) (s : State) : (putFlight f s).out = s.out := by have h := (putFlight_changes f s).same .out (by decide); exact h
@[simp] theorem putFlight_draws (f : Flight) (s : State) : (putFlight f s).draws = s.draws := by have h := (putFlight_changes f s).same .draws (by decide); exact h

/-! ## The answer of a command -/

@[simp] theorem answered_pending (h : Hdr) (c : Cmd) (r : Reply) (u v : State) : (State.answered h c r u v).pending = v.pending := (answered_changes h c r u v).same .pending (by decide)
@[simp] theorem answered_deferred (h : Hdr) (c : Cmd) (r : Reply) (u v : State) : (State.answered h c r u v).deferred = v.deferred := (answered_changes h c r u v).same .deferred (by decide)
@[simp] theorem answered_stalled (h : Hdr) (c : Cmd) (r : Reply) (u v : State) : (State.answered h c r u v).stalled = v.stalled := (answered_changes h c r u v).same .stalled (by decide)
@[simp] theorem answered_lat (h : Hdr) (c : Cmd) (r : Reply) (u v : State) : (State.answered h c r u v).lat = v.lat := (answered_changes h c r u v).same .lat (by decide)
@[simp] theorem answered_win (h : Hdr) (c : Cmd) (r : Reply) (u v : State) : (State.answered h c r u v).win = v.win := (answered_changes h c r u v).same .win (by decide)
@[simp] theorem answered_isl (h : Hdr) (c : Cmd) (r : Reply) (u v : State) : (State.answered h c r u v).isl = v.isl := (answered_changes h c r u v).same .isl (by decide)
@[simp] theorem answered_boot (h : Hdr) (c : Cmd) (r : Reply) (u v : State) : (State.answered h c r u v).boot = v.boot := (answered_changes h c r u v).same .boot (by decide)
@[simp] theorem answered_clusters (h : Hdr) (c : Cmd) (r : Reply) (u v : State) : (State.answered h c r u v).clusters = v.clusters := (answered_changes h c r u v).same .clusters (by decide)
@[simp] theorem answered_table (h : Hdr) (c : Cmd) (r : Reply) (u v : State) : (State.answered h c r u v).table = v.table := (answered_changes h c r u v).same .table (by decide)
@[simp] theorem answered_pipe (h : Hdr) (c : Cmd) (r : Reply) (u v : State) : (State.answered h c r u v).pipe = v.pipe := (answered_changes h c r u v).same .pipe (by decide)
@[simp] theorem answered_rules (h : Hdr) (c : Cmd) (r : Reply) (u v : State) : (State.answered h c r u v).rules = v.rules := (answered_changes h c r u v).same .rules (by decide)
@[simp] theorem answered_bal (h : Hdr) (c : Cmd) (r : Reply) (u v : State) : (State.answered h c r u v).bal = v.bal := (answered_changes h c r u v).same .bal (by decide)
@[simp] theorem answered_camp (h : Hdr) (c : Cmd) (r : Reply) (u v : State) : (State.answered h c r u v).camp = v.camp := (answered_changes h c r u v).same .camp (by decide)
@[simp] theorem answered_plc (h : Hdr) (c : Cmd) (r : Reply) (u v : State) : (State.answered h c r u v).plc = v.plc := (answered_changes h c r u v).same .plc (by decide)
@[simp] theorem answered_rf (h : Hdr) (c : Cmd) (r : Reply) (u v : State) : (State.answered h c r u v).rf = v.rf := (answered_changes h c r u v).same .rf (by decide)
@[simp] theorem answered_relay (h : Hdr) (c : Cmd) (r : Reply) (u v : State) : (State.answered h c r u v).relay = v.relay := (answered_changes h c r u v).same .relay (by decide)
@[simp] theorem answered_tim (h : Hdr) (c : Cmd) (r : Reply) (u v : State) : (State.answered h c r u v).tim = v.tim := (answered_changes h c r u v).same .tim (by decide)
@[simp] theorem answered_pair (h : Hdr) (c : Cmd) (r : Reply) (u v : State) : (State.answered h c r u v).pair = v.pair := (answered_changes h c r u v).same .pair (by decide)
@[simp] theorem answered_sec (h : Hdr) (c : Cmd) (r : Reply) (u v : State) : (State.answered h c r u v).sec = v.sec := (answered_changes h c r u v).same .sec (by decide)
@[simp] theorem answered_arch (h : Hdr) (c : Cmd) (r : Reply) (u v : State) : (State.answered h c r u v).arch = v.arch := (answered_changes h c r u v).same .arch (by decide)
@[simp] theorem answered_mea (h : Hdr) (c : Cmd) (r : Reply) (u v : State) : (State.answered h c r u v).mea = v.mea := (answered_changes h c r u v).same .mea (by decide)
@[simp] theorem answered_queues (h : Hdr) (c : Cmd) (r : Reply) (u v : State) : (State.answered h c r u v).queues = v.queues := (answered_changes h c r u v).same .queues (by decide)
@[simp] theorem answered_mon (h : Hdr) (c : Cmd) (r : Reply) (u v : State) : (State.answered h c r u v).mon = v.mon := (answered_changes h c r u v).same .mon (by decide)
@[simp] theorem answered_evt (h : Hdr) (c : Cmd) (r : Reply) (u v : State) : (State.answered h c r u v).evt = v.evt := (answered_changes h c r u v).same .evt (by decide)
@[simp] theorem answered_draws (h : Hdr) (c : Cmd) (r : Reply) (u v : State) : (State.answered h c r u v).draws = v.draws := (answered_changes h c r u v).same .draws (by decide)

/-! ## The register file -/

/-- A word just stored reads back. -/
theorem reg_setReg_same {s : State} (h : s.RegsOk) (off : Nat) (v : W32) : reg (setReg off v s) off = v := Kv.getD_putOr_same _ _ _ h.1

/-- Every other word reads as before. -/
theorem reg_setReg_ne {s : State} (h : s.RegsOk) {off o : Nat} (v : W32) (hne : o ≠ off) : reg (setReg off v s) o = reg s o :=
  Kv.getD_putOr_ne _ _ _ h.1 hne

/-- Storing a word keeps the register file in its one form. -/
theorem RegsOk_setReg {s : State} (h : s.RegsOk) (off : Nat) (v : W32) : (setReg off v s).RegsOk := Changes.regsOk_put h off v

theorem reg_count_same {s : State} (h : s.RegsOk) (off : Nat) : reg (count off s) off = satAdd (reg s off) 1 := reg_setReg_same h _ _
theorem reg_count_ne {s : State} (h : s.RegsOk) {off o : Nat} (hne : o ≠ off) : reg (count off s) o = reg s o := reg_setReg_ne h _ hne

/-- A register reads the same in states with the same register file. -/
theorem reg_congr {s t : State} (h : t.regs = s.regs) (off : Nat) : reg t off = reg s off := by unfold reg; rw [h]

end Sys2Proof.Machine
end

