-- ==== Sys2Proof/Tests/Slice0.lean ====
section
/-!
SUPPORT. Sys2Proof/Tests/Slice0.lean: ill-formed commands that WellFormed refuses, tests of single steps with results from the spec, and
for each statement a state and operands that meet its hypotheses.
-/
namespace Sys2Proof.Tests
open Sys2Proof.Machine

/- One proof at a time: the joined text would else need a thread for each of these. -/
set_option Elab.async false

/-! ## Helpers -/

/-- A command from nowhere, with the authority of slot 1. -/
def hdr (ctr : Nat) : Hdr := ⟨.gone, true, 1, 7, 0, 0, some ⟨1, BitVec.ofNat 64 ctr, 5⟩⟩

/-- A lone unit that has started, with every island in RUN. -/
def live (role : BitVec 2) : State :=
  { State.reset with
    boot := { bootReset with phase := .started, role := role, wdtStopped := false }
    isl := (List.range 21).map fun n => (n, ⟨.run, 0, false⟩)
    clusters := { clustersReset with buckets := [(0, 0), (1, 1)] }
    pair := { pairReset with st := .lone, actOut := true }
    sec := { secReset with slots := [(1, ⟨5, 0xFFFF⟩)] } }

def head : State := live 2
def field : State := live 1

/-- Did a command enter, and does `p` hold of the state in which its work starts? -/
def enters (c : Cmd) (s : State) (p : State → Bool) : Bool :=
  match State.entered (hdr 1) c s with
  | some u => p u
  | none => false

/-- Does `p` hold of the next state? -/
def after (o : Host.Outcome State Fault Refusal) (p : State → Bool) : Bool :=
  match o with
  | .next t => p t
  | _ => false

/-! ## Well-formedness -/

theorem test_wf_commands :
    [Instr.regRead (hdr 1) (2 ^ 32) 1, .regRead (hdr 1) 0 65536, .regWriteAu (hdr 1) (2 ^ 32) 0 0, .secZeroise (hdr 1) 256, .tblRead (hdr 1) (2 ^ 32),
      .tblDump (hdr 1) (2 ^ 32) 1, .tblDump (hdr 1) 0 (2 ^ 32), .tblWrite (hdr 1) (2 ^ 32) 0 0 0, .tblRetire (hdr 1) (2 ^ 32),
      .tblSet (hdr 1) (2 ^ 32) 0 0 0, .keySignerLoad (hdr 1) (2 ^ 32) 1 0, .keySignerLoad (hdr 1) 0 256 0, .ruleActivate (hdr 1) [65536],
      .ruleRemove (hdr 1) [65536], .ruleRead (hdr 1) 65536, .activationMarkPass 4, .topoRead (hdr 1) 256 0 1, .topoRead (hdr 1) 0 65536 1,
      .topoRead (hdr 1) 0 0 (2 ^ 32), .balNodeRead (hdr 1) 65536, .balMeterRead (hdr 1) (2 ^ 32), .balResetScores (hdr 1) 256 [],
      .balResetScores (hdr 1) 0 [2 ^ 32]].all (fun i => !i.wf) = true := by decide

theorem test_wf_campaigns :
    [Instr.campData (hdr 1) 256 0 [], .campData (hdr 1) 0 (2 ^ 32) [], .campSeal (hdr 1) 256, .campAddMembers (hdr 1) 256 [],
      .campAddMembers (hdr 1) 0 [2 ^ 32], .campRemoveMembers (hdr 1) 256 [], .campRemoveMembers (hdr 1) 0 [2 ^ 32], .campStart (hdr 1) 256,
      .campPause (hdr 1) 256, .campCancel (hdr 1) 256, .campClose (hdr 1) 256, .campRead (hdr 1) 256, .campMemberRead (hdr 1) 256 0 1,
      .campMemberRead (hdr 1) 0 (2 ^ 32) 1, .campMemberRead (hdr 1) 0 0 (2 ^ 32), .plcGmkRotate (hdr 1) 256, .plcKick (hdr 1) 256 0,
      .plcKick (hdr 1) 0 65536, .rfKeyRotate (hdr 1) 256, .timStep (hdr 1) 256 0 0, .timStep (hdr 1) 0 (2 ^ 48) 0, .timStep (hdr 1) 0 0 (2 ^ 32),
      .archRead (hdr 1) 0 (2 ^ 32) [], .archOvfRead (hdr 1) (2 ^ 32), .archHostWrite (hdr 1) (2 ^ 32) [], .archHostWrite (hdr 1) 0 [[1]],
      .archHostRead (hdr 1) (2 ^ 32) 1 [], .archHostRead (hdr 1) 0 (2 ^ 32) [], .evtRead (hdr 1) 0 (2 ^ 32), .monRead (hdr 1) 256 1,
      .monRead (hdr 1) 0 256, .qRead (hdr 1) 256 1, .qRead (hdr 1) 0 256].all (fun i => !i.wf) = true := by decide

theorem test_wf_registers_and_unit :
    [Instr.registerWrite (2 ^ 20) 0 true, .registerWrite 2 0 true, .w1cWrite (2 ^ 20) 0, .w1cWrite 1 0, .seqPairLoRead .bar0 0x4000,
      .meaPqSecondRead .bar0 2, .profileClusterSwitch 4, .bucketRedistribute 4096, .dozeIdleGate 21, .ringEnable false 32 0, .ringDisable true 32 0,
      .doorbellPoll [0] [] [], .dmaError false 32, .rxBufferHoldExpiry 32, .msixCoalesceExpiry 32, .msixUnmask 64, .brownOut 9,
      .islandClockStable 21, .islandLockLoss 21, .lockLossTimeout 21, .handshakeTimeout 21, .idleItemWrite 256, .vbatLow 2000, .pcieLinkUp 3 1,
      .pcieLinkUp 1 0, .pcieLinkUp 1 4, .modulePresenceHigh 8, .modulePresenceLow 8, .modulePresenceDebounce 8 ⟨true, []⟩].all
      (fun i => !i.wf) = true := by decide

theorem test_wf_links_and_store :
    [Instr.sessionExpiry 256, .pollIssue 0 (2 ^ 22), .retireHoldExpiry (2 ^ 22), .standbyTableCopy 16 [], .campaignFrameSend 6, .repairRound 6 0,
      .repairRound 0 64, .activationBroadcast 6 0, .activationBroadcast 0 64, .actTimeLateExpiry 64, .plcAckTimeout 4 0, .routeTtlExpiry 4 0,
      .routeTtlExpiry 0 65536, .routeWaitExpiry 4 0, .reassemblyTimeout 6 0 0, .reassemblyTimeout 0 65536 0, .reassemblyTimeout 0 0 65536,
      .shortHoldExpiry 6 0, .shortHoldExpiry 0 65536, .zcReportSend 4 0, .zcReportSend 0 65536, .fpReportSend 4 0, .fpReportSend 0 65536, .zcEdge 4 0,
      .zcLost 4, .ldFaultFall 4, .ldFaultResume 4, .ldFaultPinRise 4, .rfTimeslot 2, .rfScan 2 [], .sleepyQueueExpiry 2 0, .ethLinkUp false 3 false false,
      .timeWordLoss 21, .heartbeatSend 0, .heartbeatSend 3, .heartbeatPathLost 0, .meaHalfCycleRms 2 0 [], .meaHalfCycleRms 0 3 [],
      .rateWindowBoundary 4, .monSample 64 0].all (fun i => !i.wf) = true := by decide

theorem test_wf_accepts :
    [Instr.regRead (hdr 1) 0 256, .w1cWrite 0x20 0, .zcEdge 3 0, .idleItemWrite 255, .pcieLinkUp 4 3, .brownOut 8].all Instr.wf = true := by decide

/-! ## Single steps -/

/-- An empty queue idles (log entry 1). -/
theorem test_idle : after (step head) (fun t => t.tim.raw == 40) = true := by decide

/-- R530: the part number and mask set. -/
theorem test_device_id_reads : (readReg .bar0 0 head).1 = 0x8620B200#32 := by decide

/-- R415: a zeroised unit holds no key. -/
theorem test_zeroise : after (exec (.secZeroise (hdr 1) 1) head) (fun t => t.sec.zeroised && t.sec.slots.isEmpty) = true := by decide

/-- R411: the counter of an accepted command does not pass again. -/
theorem test_counter_replay : enters (.keyClear 2) { head with sec := { head.sec with counters := [(1, 1)] } } (fun _ => true) = false := by decide

/-! ## Witnesses: for each statement a state and operands that meet the hypotheses of its clauses -/

/-- The state after, where there is one. -/
def next (o : Host.Outcome State Fault Refusal) (s : State) : State :=
  match o with
  | .next t => t
  | _ => s

/-- A key under the wrap key of slot 1. -/
def wrap (k : Key) : Wrapped := ⟨.authority 5, k, true⟩
/-- The head with the PCIe link up. -/
def linked : State := { head with host := { head.host with link := true, crsDone := true, bme := true } }
/-- The head with the meter of title 0x11 on slot 0. -/
def metered : State := next (exec (.tblProvision (hdr 1) 0x11 0 4 1 7 (wrap 1) (wrap 2)) head) head
/-- A unit of a pair with the given state. -/
def paired (st : PairSt) : State := { head with pair := { head.pair with st := st } }
def down (n : Nat) (s : State) : State := { s with isl := Kv.put n ⟨.failed, 1, false⟩ s.isl }
/-- The second command of slot 1. -/
def enters2 (c : Cmd) (s : State) (p : State → Bool) : Bool :=
  match State.entered (hdr 2) c s with
  | some u => p u
  | none => false
def yes (l : List Bool) : Bool := l.all id

theorem linked_sound : linked.Sound := by
  refine ⟨?_, ?_, ?_⟩
  · unfold State.PoolOk; decide +kernel
  · unfold State.RegsOk; decide +kernel
  · unfold State.MapsOk; decide +kernel

theorem wit_StepRunsTheFront : ({ head with pending := [.timNowNsRead .cmd] } : State).pending = .timNowNsRead .cmd :: [] ∧ head.pending = [] := ⟨rfl, rfl⟩
theorem wit_StepKeepsSound : linked.Sound ∧ ∃ t, step linked = .next t := ⟨linked_sound, _, rfl⟩
theorem wit_SettingsStand : linked.RegsOk ∧ mayWriteSettings .ageCheck = false ∧ isSetup 0x200 = true := ⟨linked_sound.2.1, by decide, by decide⟩
theorem wit_ClockReads : linked.Sound ∧ barOpen linked = true ∧ blockDown 0x10020 linked = false := ⟨linked_sound, by decide +kernel, by decide +kernel⟩


def port : State := { linked with eth := [(0, { ethEmpty with link := true })] }
def frame : EthFrame := ⟨0, 64, true, 0xFFFFFFFFFFFF, none, false, .otherIp⟩
theorem wit_FrameChecks : yes [ethLink port false, decide (64 ≤ fieldOf port (ethBase false) 25 12), ethAccepts (setField 0xB004 0 0 1 port) false 0xFFFFFFFFFFFF,
    !ethAccepts port false 1, !vlanOk port false (some 1), decide (fieldOf port (ethBase false) 25 12 < 16000)] = true := by decide +kernel

theorem wit_KeySlots : yes [
    enters (.keyLoad 63 3 (wrap 9)) head fun u => (Kv.get? 1 u.sec.slots == some ⟨5, 0xFFFF⟩) && (unwrapCmd (hdr 1) u (wrap 9) == some 9),
    enters (.keyLoad 64 3 (wrap 9)) head fun _ => true, enters (.keyLoad 2 3 ⟨.authority 6, 9, true⟩) head fun u => unwrapCmd (hdr 1) u ⟨.authority 6, 9, true⟩ == none,
    enters (.keyClear 2) head fun u => Kv.wf u.sec.slots, enters (.keyClear 1) head fun _ => true, enters (.keyRead 63) head fun _ => true] = true := by decide +kernel

theorem wit_AccessClasses : (regDef 0x200).isSome = true := by decide

/-- Where BAR0 lets a plain write through. -/
theorem wit_PlainWrites : linked.RegsOk ∧ linked.barReaches 0x204 ∧ linked.quiet ∧ yes [(regDef 0x204).isSome, frozenMask linked 0x204 == 0, enIsland 0x204 == none,
    match regDef 0x504 with | some d => wouldChange .au d 0x504 0 linked | none => false] = true := by
  refine ⟨linked_sound.2.1, ?_, ?_, by decide +kernel⟩
  · unfold State.barReaches; decide +kernel
  · unfold State.quiet; decide +kernel

theorem wit_ActingWrites : linked.barReaches 0x20 ∧ linked.barReaches 0x10 ∧ linked.barReaches 0x24 ∧ linked.barReaches 0x900 ∧ linked.barReaches 0x15000 := by
  unfold State.barReaches; decide +kernel

theorem wit_LatchingReads : linked.Sound ∧ yes [barOpen linked, !blockDown 0x10020 linked, !blockDown 0x4018 linked, !blockDown 0x16008 linked, !blockDown 0x16010 linked,
    !blockDown 0xF100 linked, !blockDown 0xF180 linked, blockDown 0xF100 (down 15 linked)] = true := ⟨linked_sound, by decide +kernel⟩

theorem wit_RegisterCommands : yes [
    enters (.regRead 0x200 1) head fun u => !blockDown 0x200 u && (regDef 0x200).isSome && (readLatch .cmd 0x200 u == u),
    enters (.regRead 0xF000 1) (down 15 head) fun u => blockDown 0xF000 u, enters (.regRead 0xFFC 1) head fun _ => (regDef 0xFFC).isNone, enters (.regRead 0 0) head fun _ => true,
    enters (.regRead 0 257) head fun _ => true,
    enters (.regWriteAu 0x504 0xFFFF0000 0) head fun u => !blockDown 0x504 u && (match regDef 0x504 with | some d => auMaskOk d 0xFFFF0000 | none => false),
    enters (.regWriteAu 0 1 0) head fun _ => match regDef 0 with | some d => !auMaskOk d 1 | none => true,
    enters (.regWriteAu 0xD00C 0xFFFF0000 0) (down 13 head) fun u => blockDown 0xD00C u && (match regDef 0xD00C with | some d => auMaskOk d 0xFFFF0000 | none => false)] = true := by decide +kernel

theorem wit_ProfileAndPower : yes [
    enters (.regWriteAu 0x44 0x300 0x200) head fun u => !blockDown 0x44 u && !u.clusters.changing && u.clusters.cur != 2 && !(runClusters u).isEmpty,
    enters (.regWriteAu 0x44 0x300 0x300) head fun u => !u.clusters.changing,
    enters (.regWriteAu 0x44 0x300 0x200) { head with clusters := { head.clusters with changing := true } } fun u => u.clusters.changing,
    enters (.regWriteAu 0x1702C 0x30000000 0) head fun u => !blockDown 0x1702C u,
    enters (.regWriteAu 0x1702C 0x30000000 0x10000000) head fun u => u.boot.power != .hold,
    enters (.regWriteAu 0x1702C 0x30000000 0x20000000) head fun u => u.boot.power == .run && u.pair.st == .lone,
    enters (.regWriteAu 0x1702C 0x30000000 0x20000000) (paired .active) fun u => u.pair.st == .active,
    enters (.regWriteAu 0x1702C 0x30000000 0x30000000) head fun u => u.boot.power == .run && !u.boot.wakeLow,
    enters (.regWriteAu 0x1702C 0x30000000 0x30000000) { head with boot := { head.boot with wakeLow := true } } fun u => u.boot.power == .run && u.boot.wakeLow,
    enters (.regWriteAu 0x1702C 0x30000000 0x30000000) (paired .activeAlone) fun u => u.pair.st == .activeAlone] = true := by decide +kernel

def hot : State := { head with mon := [(0, { monEmpty with last := 13501 })] }
theorem wit_ResetSources : head.RegsOk ∧ yes [head.boot.mainSupply, head.boot.phase == .started, !head.boot.wdtStopped, engInRun head, decide (13500 < junction hot),
    enters (.regWriteAu 0x17004 0xFFFF 0x5253) head fun u => !blockDown 0x17004 u && u.boot.phase == .started, State.reset.boot.wdtStopped] = true :=
  ⟨linked_sound.2.1, by decide +kernel⟩

theorem wit_BlockResets : head.Sound ∧ yes [
    enters (.regWriteAu 0x17008 0x4 0xFFFFFFFF) head fun u => !blockDown 0x17008 u && !bit (reg u 0x17008) 2,
    enters (.regWriteAu 0x17008 0x100000 0xFFFFFFFF) head fun u => !blockDown 0x17008 u && !bit (reg u 0x17008) 20,
    enters (.regWriteAu 0x17008 0x100000 0) (setReg 0x17008 0x100000 { head with isl := Kv.put 20 ⟨.reset, 0, false⟩ head.isl }) fun u =>
      !blockDown 0x17008 u && bit (reg u 0x17008) 20 && (islOf u 20).st == .reset] = true := ⟨linked_sound, by decide +kernel⟩

theorem wit_TableReads : yes [
    enters (.tblRead 16383) head fun u => decide (16383 < 2 ^ bits (reg u 0x200) 23 16), enters (.tblRead 16384) head fun u => decide (2 ^ bits (reg u 0x200) 23 16 ≤ 16384),
    enters2 (.tblFind 0x11) metered fun u => idxFind u 0x11 == some 0, enters (.tblFind 0x12) head fun u => idxFind u 0x12 == none,
    enters (.tblDump 16383 2) head fun u => decide (16383 < 2 ^ bits (reg u 0x200) 23 16), enters (.tblDump 16384 1) head fun _ => true,
    fld (imgOf head 1) 8 1 == 0, fld (imgOf metered 0) 8 1 != 0] = true := by decide +kernel

/-- The masks of STATE and of WINDOW (R76). -/
def mState : BitVec 256 := 1 <<< 247
def mWindow : BitVec 256 := 1 <<< 171
def suspend : RecImg := setFld 0 8 1 3
theorem wit_RecordWrites : yes [
    enters2 (.tblWrite 0 (recSeq (imgOf metered 0)) mWindow (setFld 0 84 1 200)) metered fun u => (fld (imgOf u 0) 8 1 == 1) && recSeq (imgOf u 0) == recSeq (imgOf metered 0) && maskOk wFields mWindow && covers mWindow (84, 1) && !flagsRefused mWindow (setFld 0 84 1 200) (imgOf u 0),
    enters2 (.tblWrite 0 (recSeq (imgOf metered 0) + 1) 1 0) metered fun _ => true, enters (.tblWrite 16384 0 1 0) head fun _ => true, enters (.tblWrite 0 0 0 0) head fun _ => true,
    enters (.tblSet 0 0 0 0) head fun _ => true,
    enters2 (.tblSet 0 0 mState suspend) metered fun u => covers mState (8, 1) && maskOk aFields mState && (fld (imgOf u 0) 8 1 == 1) && fld suspend 8 1 == 3,
    enters2 (.tblSet 0 0 mState (setFld 0 8 1 2)) metered fun u => fld (imgOf u 0) 8 1 == 1] = true := by decide +kernel

theorem wit_MeterLifecycle : metered.RegsOk ∧ yes [
    enters (.tblProvision 0x11 0 4 1 7 (wrap 1) (wrap 2)) head fun u => isHead u && (idxFind u 0x11 == none) && (freeSlot u == some 0) && (idxInsertion u 0x11 0).isSome
      && (unwrapCmd (hdr 1) u (wrap 1) == some 1),
    enters2 (.tblProvision 0x11 0 4 1 7 (wrap 1) (wrap 2)) metered fun u => (idxFind u 0x11).isSome, enters (.tblProvision 0x11 0 4 1 7 (wrap 1) (wrap 2)) field fun u => !isHead u,
    enters2 (.tblKeyStage 0 1 (wrap 3) (wrap 4)) metered fun u => (fld (imgOf u 0) 8 1 == 1) && (unwrapCmd (hdr 2) u (wrap 3) == some 3),
    enters2 (.tblRetire 0) metered fun u => (fld (imgOf u 0) 8 1 == 1) && recService (imgOf u 0) != 0xFFF#12,
    enters2 (.tblSet 0 0 mState (setFld 0 8 1 4)) metered fun u => (fld (imgOf u 0) 8 1 == 1) && maskOk aFields mState,
    enters2 (.keySignerLoad 0 2 9) metered fun u => (fld (imgOf u 0) 8 1 == 1) && Kv.wf u.sec.signers] = true := by
  refine ⟨?_, by decide +kernel⟩
  unfold State.RegsOk; decide +kernel

/-- A rule program of set 5 with the single instruction PASS (R131, R138). -/
def prog (version : Nat) : List Byte := be 2 5 ++ be 1 1 ++ be 1 1 ++ be 1 0 ++ be 1 0 ++ be 2 0 ++ be 4 version ++ be 4 0 ++ be 8 0 ++ be 8 0 ++ be 4 0
def ruled : State := next (exec (.ruleLoad (hdr 1) (prog 1)) head) head
def acting : State := match checkImage (prog 1) with | .inr p => { head with rules := { head.rules with sets := [(5, ⟨some p, some p, ruleCountsZero, ruleCountsZero⟩)] } } | .inl _ => head
def mark : RuleMark := ⟨[5], false, 1, [0], [], hdr 1⟩
theorem wit_RuleBanks : yes [
    enters (.ruleLoad (prog 1)) head fun u => isHead u && (match checkImage (prog 1) with | .inr p => p.setId == 5 | .inl _ => false),
    enters (.ruleLoad []) head fun u => isHead u && (match checkImage [] with | .inl p => decide (p.1 < 256) | .inr _ => false),
    enters2 (.ruleLoad (prog 1)) ruled fun u => ((ruleSet u 5).shd.map (·.version)) == some 1,
    enters2 (.ruleActivate [5]) ruled fun u => isHead u && (ruleSet u 5).shd.isSome && u.rules.marks.isEmpty,
    enters (.ruleRemove [5]) acting fun u => isHead u && (ruleSet u 5).act.isSome && u.rules.marks.isEmpty,
    enters (.ruleActivate []) head fun _ => true, enters (.ruleRead 255) head fun _ => true,
    markMayPass { acting with rules := { acting.rules with marks := [mark] } } 0 1,
    markMayPass { acting with rules := { acting.rules with marks := [{ mark with waiting := [0, 1] }] } } 0 1] = true := by decide +kernel

def root : Node := ⟨1, 0xFFFF, 0, 0, 1, 0, 3, 0, 0, 0, 5, 0, 0, 0⟩
def treed : State := { head with bal := { head.bal with shadow := [(1, root)], copied := true } }
def tick (s : State) : State := { s with tim := { s.tim with valid := true, clk := 7200000000000 * 65536000, st := 1 } }
theorem wit_TreeBanks : yes [
    enters (.topoLoad [root]) head fun u => isHead u && (nodeCheck u root == 0) && u.bal.waiting.isNone,
    enters (.topoLoad [{ root with type := 4 }]) head fun u => nodeCheck u { root with type := 4 } != 0,
    enters (.topoLoad [root]) { treed with bal := { treed.bal with waiting := some (hdr 1) } } fun u => u.bal.waiting.isSome,
    enters (.topoLoad [root]) field fun u => !isHead u, enters .topoActivate treed fun u => isHead u && (treeCheck u.bal.shadow == none) && u.bal.waiting.isNone,
    enters .topoActivate { treed with bal := { treed.bal with shadow := [(1, { root with parent := 2 })] } } fun u => treeCheck u.bal.shadow == some (0x10, 1),
    enters .topoActivate { treed with bal := { treed.bal with waiting := some (hdr 1) } } fun u => u.bal.waiting.isSome && (treeCheck u.bal.shadow == none),
    enters .topoActivate field fun u => !isHead u, enters (.topoRead 1 65535 1) head fun _ => true,
    serving treed, balLen (setField 0x500 31 31 1 treed) != 0] = true := by decide +kernel

theorem wit_BalanceScores : yes [
    enters (.balNodeRead 65535) head fun _ => true, enters (.balMeterRead 16383) head fun u => decide (16383 < 2 ^ bits (reg u 0x200) 23 16),
    enters (.balMeterRead 16384) head fun u => decide (2 ^ bits (reg u 0x200) 23 16 ≤ 16384),
    enters2 (.balResetScores 0 [0, 16383]) metered fun u => isHead u && decide (∀ n ∈ [0, 16383], n < 2 ^ bits (reg u 0x200) 23 16) && fld (imgOf u 0) 8 1 != 0,
    enters (.balResetScores 1 [0, 65535]) head fun u => isHead u] = true := by decide +kernel

/-- A campaign of one byte. -/
def mani : Manifest := ⟨1, 0, 1, 5, 1, 1, 0, 1, 0, true, 0, 0, 0, 0, 9⟩
def camp (st : CampSt) (m : Manifest) : Camp := ⟨st, m, [], none, [(0, ⟨0, 0, 0, 0, 0, 0x11⟩)], [], [], [], false⟩
def sealed : Manifest := { mani with imageDigest := sha256 (imageBytes (camp .draft mani)), tableDigest := sha256 (segTable (camp .draft mani)) }
/-- Slot 63 holds a campaign of which the meter of slot 0 is a member. -/
def campaigned (st : CampSt) : State :=
  { metered with sec := { metered.sec with campSigners := [(0, ⟨1, 9⟩)] }, camp := { metered.camp with camps := [(63, camp st mani)] } }
def holds (u : State) (st : CampSt) : Bool := isHead u && campOf u 63 == some (camp st mani)

theorem wit_CampaignImages : yes [
    enters2 (.campCreate mani) { campaigned .draft with camp := metered.camp } fun u => isHead u && (mani.tableSegs == tableSegsOf mani.imageLen) && campSigOk u 0 1 9
      && (campSlot u 5 == none) && freeCampSlot u == some 0,
    enters2 (.campCreate mani) (campaigned .draft) fun u => (campSlot u 5).isSome, enters (.campCreate mani) field fun u => !isHead u,
    enters2 (.campData 63 0 [7]) (campaigned .draft) fun u => holds u .draft && Kv.wf (camp .draft mani).image,
    enters2 (.campData 63 1 [7]) (campaigned .draft) fun u => holds u .draft, enters2 (.campSeal 63) (campaigned .draft) fun u => holds u .draft,
    enters2 (.campSeal 63) (campaigned .ready) fun u => holds u .ready,
    enters2 (.campRead 63) (campaigned .ready) fun u => holds u .ready, enters2 (.campMemberRead 63 0 1) (campaigned .ready) fun u => holds u .ready] = true := by decide +kernel

/-- The digests of a campaign look at its image and its lengths only. -/
theorem digests_same {c d : Camp} (h : c.image = d.image) (l : c.manifest.imageLen = d.manifest.imageLen) (n : c.manifest.tableSegs = d.manifest.tableSegs) :
    imageBytes c = imageBytes d ∧ segTable c = segTable d := by
  simp only [imageBytes, segTable, imageSeg, h, l, n, and_self]

/-- The digests of the one byte, for CAMP_SEAL. -/
theorem wit_CampaignImages_seal : sha256 (imageBytes (camp .draft sealed)) = sealed.imageDigest ∧ sha256 (segTable (camp .draft sealed)) = sealed.tableDigest ∧
    enters2 (.campSeal 63) { campaigned .draft with camp := { campReset with camps := [(63, camp .draft sealed)] } } (fun u => isHead u && (campOf u 63).isSome) = true := by
  have d := digests_same (c := camp .draft sealed) (d := camp .draft mani) (by simp only [camp]) (by simp only [camp, sealed]) (by simp only [camp, sealed])
  refine ⟨?_, ?_, by decide +kernel⟩
  · rw [d.1]; simp only [sealed]
  · rw [d.2]; simp only [sealed]

/-- An activation and a rollback record of the campaign. -/
def actRec (action : Nat) (t : W64) : ActRec := ⟨action, 1, 0, 5, t, 0, 60, true, 0, 9⟩
theorem wit_CampaignStates : yes [
    enters2 (.campStart 63) (campaigned .ready) fun u => holds u .ready, enters2 (.campStart 63) (campaigned .paused) fun u => holds u .paused,
    enters2 (.campStart 63) (campaigned .draft) fun u => holds u .draft, enters2 (.campPause 63) (campaigned .running) fun u => holds u .running,
    enters2 (.campPause 63) (campaigned .paused) fun u => holds u .paused,
    enters2 (.campCancel 63) (campaigned .paused) fun u => holds u .paused && Kv.wf u.camp.camps && fld (imgOf u 0) 8 1 == 1,
    enters2 (.campCancel 63) (campaigned .activating) fun u => holds u .activating && Kv.wf u.camp.camps,
    enters2 (.campClose 63) (campaigned .reverted) fun u => holds u .reverted && Kv.wf u.camp.camps, enters2 (.campClose 63) (campaigned .running) fun u => holds u .running,
    enters2 (.campActivate 63 (actRec 1 (2 ^ 40))) (campaigned .running) fun u => holds u .running && campSigOk u 0 1 9 && decide (campNow u + bits (reg u 0x600) 11 0 * 65536 ≤ 2 ^ 40),
    enters2 (.campActivate 63 (actRec 1 0)) (campaigned .running) fun u => holds u .running && decide (0 < campNow u + bits (reg u 0x600) 11 0 * 65536),
    enters2 (.campRollback 63 (actRec 2 1)) (campaigned .activated) fun u => holds u .activated && campSigOk u 0 1 9 && campNow u == 0,
    enters2 (.campRollback 63 (actRec 2 0)) (campaigned .activating) fun u => holds u .activating && campNow u == 0,
    enters2 (.campAddMembers 63 [0]) { campaigned .ready with camp := { campReset with camps := [(63, { camp .ready mani with members := [] })] } } fun u =>
      isHead u && (fld (imgOf u 0) 8 1 == 1) && memberships u == 0,
    enters2 (.campRemoveMembers 63 [0]) (campaigned .running) fun u => holds u .running && fld (imgOf u 0) 8 1 == 1] = true ∧
    (campaigned .paused).recordFree 0 := by
  refine ⟨by decide +kernel, ?_⟩
  unfold State.recordFree; decide +kernel

theorem wit_NetworkKeys : yes [
    enters (.plcGmkRotate 3) head fun u => islInRun u 8, enters (.plcGmkRotate 4) head fun _ => true, enters (.plcGmkRotate 0) (down 5 head) fun u => !islInRun u 5,
    enters (.plcKick 0 1) { head with plc := [(0, { plcEmpty with ends := [(1, ⟨0x11, 2, 0, none, none⟩)] })] } fun u =>
      islInRun u 5 && Kv.wf (plcOf u 0).ends && Kv.get? 1 (plcOf u 0).ends == some ⟨0x11, 2, 0, none, none⟩,
    enters (.plcKick 0 1) head fun u => Kv.get? 1 (plcOf u 0).ends == none, enters (.rfKeyRotate 1) head fun u => islInRun u 10, enters (.rfKeyRotate 2) head fun _ => true] = true := by decide +kernel

theorem wit_Zeroise : yes [enters (.secZeroise 1) head fun _ => true, enters (.secZeroise 2) head fun u => Kv.wf u.boot.otp, enters (.secZeroise 0) head fun _ => true,
    enters (.secZeroise 3) head fun _ => true] = true := by decide +kernel

theorem wit_TimeStep : yes [
    enters (.timStep 1 9 999999999) (tick head) fun u => islInRun u 16 && u.tim.valid,
    enters (.timStep 0 0 0) { head with tim := { head.tim with valid := true, lastOff := some (0, -5, 0), raw := 3000000000 } } fun u =>
      islInRun u 16 && u.tim.valid && (u.tim.lastOff == some (u.tim.source, -5, 0)) && decide (u.tim.raw ≤ 0 + 3000000000),
    enters (.timStep 1 0 0) head fun u => islInRun u 16 && !u.tim.valid, enters (.timStep 2 0 0) head fun _ => true,
    enters (.timStep 1 0 1000000000) head fun _ => true, enters (.timStep 0 0 0) head fun u => u.tim.lastOff == none] = true := by decide +kernel

/-- A heartbeat of the partner. -/
def hb (st : PairSt) : Heartbeat := ⟨1, st, 2, 0, 1, true, false, false, true, 0, false, 1, 1, 0, 2, 0, 0, 0, 0, 1, 9⟩
/-- The active of a pair that hears its standby on the PRL path. -/
def active : State := { paired .active with pair := { (paired .active).pair with hb1 := { hbPathReset with lost := false, last := some (hb .standby) } } }
theorem wit_PairCommands : yes [
    enters .pairRead active fun _ => true, enters .pairSwap active fun u => (u.pair.st != .lone) && u.pair.swap.isNone && !u.pair.copyGiving && swapPartner u false,
    enters .pairSwap head fun u => u.pair.st == .lone, enters .pairSwap (paired .active) fun u => !swapPartner u false, enters .pairClear head fun _ => true] = true := by decide +kernel

/-- A mounted store of one target: a closed READINGS block with record 5, and a free one. -/
def rdg (n : Nat) : List (Nat × List Byte) := [(n, List.replicate 84 0)]
def block (n : Nat) : Block := { blockEmpty with st := .data, zone := 5, pages := [[⟨5, 0, 0, true, .readings (rdg n)⟩]] }
def stored : State := { head with arch := { archReset with st := .ready, targets := [⟨0, 0, 0, 16, 0, 256, 2, []⟩], blocks := [(0, block 5), (1, blockEmpty)], next := 6, durable := 6 },
                                  boot := { head.boot with archiveFitted := true } }
def store (st : ArchSt) : State := { stored with arch := { stored.arch with st := st } }
theorem wit_ArchiveCommands : yes [
    enters .archInfo stored fun u => (u.arch.st != .mounting) && u.arch.st != .off, enters (.archRead 5 1048576 []) stored fun u => !archBusy u && storeUp u,
    enters (.archRead 6 1 []) stored fun u => decide (u.arch.next ≤ 6), enters (.archFindTime 0) stored fun u => !archBusy u && storeUp u && (readingBlocks u == [(0, 5)]),
    enters (.archTrim 6) stored fun u => !archBusy u && storeUp u, enters (.archTrim 5) stored fun u => !archBusy u && storeUp u,
    enters (.archOvfRead 1) stored fun u => !archBusy u, enters (.archOvfRelease 6) stored fun u => !archBusy u,
    enters (.archFormat 0x464D5421) stored fun u => !archBusy u && !u.arch.targets.isEmpty && islInRun u 4, enters (.archFormat 0) stored fun u => !archBusy u,
    enters (.archRead 5 1 []) (store .mounting) fun u => u.arch.st == .mounting, enters (.archFindTime 0) (store .mounting) fun _ => true, enters (.archTrim 0) (store .mounting) fun _ => true,
    enters (.archOvfRead 1) (store .mounting) fun _ => true, enters (.archOvfRelease 0) (store .mounting) fun _ => true, enters (.archFormat 0x464D5421) (store .mounting) fun _ => true,
    enters (.archRead 5 1 []) (store .failed) fun u => !archBusy u && !storeUp u, enters (.archFindTime 0) (store .failed) fun _ => true, enters (.archTrim 0) (store .failed) fun _ => true] = true := by
  decide +kernel

def sector : List Byte := List.replicate 4096 0
def recovering : State := { head with boot := { head.boot with mode := .recovery } }
theorem wit_HostSectors : yes [
    enters (.archHostWrite 1533 [sector, sector, sector]) recovering fun u => u.boot.mode == .recovery, enters (.archHostRead 1535 1 []) recovering fun u => u.boot.mode == .recovery,
    enters (.archHostRead 262143 1 []) { stored with arch := { stored.arch with layout := some ⟨0, 0, 0, 0, 0, 0, 0, 1, 0⟩ } } fun u =>
      (u.boot.mode != .recovery) && storeUp u && decide (262144 ≤ hostSectors u) && hostSector u 262143 == none,
    enters (.archHostWrite 0 []) stored fun u => u.arch.st != .mounting, enters (.archHostWrite 0 [sector]) (store .readOnly) fun u => u.arch.st == .readOnly,
    enters (.archHostRead 0 1 []) (store .failed) fun u => (u.arch.st != .mounting) && !storeUp u] = true := by decide +kernel

/-- The invariant as a test. -/
def sound (s : State) : Bool := @decide s.Sound (by unfold State.Sound State.PoolOk State.RegsOk State.MapsOk; infer_instance)
def regsFine (s : State) : Bool := @decide s.RegsOk (by unfold State.RegsOk; infer_instance)
def calm (s : State) : Bool := @decide s.quiet (by unfold State.quiet; infer_instance)
def reaches (s : State) (o : Nat) : Bool := @decide (s.barReaches o) (by unfold State.barReaches; infer_instance)

theorem wit_EventAndMonitorCommands : yes [
    enters (.evtRead 0 1048576) head fun _ => true, enters (.evtRead 0 0) head fun _ => true, enters .evtClear head fun u => !evtReading u,
    enters .evtClear { head with host := { head.host with frames := [(1, [⟨[0], none, 0, [], hdr 1, 0x0A01, 0, [], none⟩])] } } fun u => evtReading u,
    enters (.monRead 63 1) head fun _ => true, enters (.monRead 63 2) head fun _ => true, enters (.monReset 0xFFFFFFFF 0x80000000) head fun _ => true,
    enters (.qRead 255 1) head fun _ => true, enters (.qRead 255 2) head fun _ => true] = true := by decide +kernel

theorem wit_ManagementDatagrams : (instrOf { hdr 1 with origin := .eth false } .pairClear).isSome = true ∧ yes [
    (State.entered { hdr 1 with origin := .eth false } .pairClear port).isSome,
    let u := setField 0x800 11 0 100 { port with win := { port.win with mgmt := 100 } }
    managed u && u.pair.swap.isNone && ethLink u false && decide (bits (reg u 0x800) 11 0 ≤ u.win.mgmt) && regsFine u] = true := ⟨rfl, by decide +kernel⟩

/-- A reading of the meter of slot 0, in flight in cluster 0, under id 4. -/
def apdu : Apdu := ⟨0xDB, 0xDB, none, some 0x11, 0x30, 5, 1, 2, true, true, 64, .event, 0, [], none, some (.num 0x12 9), 0⟩
def item : RItem := ⟨4, some 0x11, 0, true, false, 0, 0, 0, false, 0, false, ⟨.authority 0, 0, true⟩, 0, 0, 0, apdu, 0⟩
def wired : RItem := { item with src := 0 }
def flight : Flight := ⟨4, 0, 0, wired, some 0, .dispatched, none, false, false, false, false, none, [], 0, [], 0⟩
def flying (f : Flight) : State := { metered with pipe := { metered.pipe with flight := [f], free := 4095, nextId := 5 }, sec := { metered.sec with tkek := [(0, 0)] } }
def clustersOf (c : Clusters) : State := { head with clusters := c }

theorem wit_ClusterMoves : yes [
    islInRun head 18, (clustersOf { head.clusters with changing := true, toSwitch := [0, 1] }).pipe.flight.isEmpty,
    let c := { head.clusters with changing := true, toSwitch := [3], req := 2 }
    c.changing && c.moving.isEmpty && c.returned.isEmpty && c.cur != c.req, (flying flight).pipe.flight.any fun f => f.cluster == 0 && f.bucket == 0,
    let c := { head.clusters with moving := [(4095, 1), (1, 0)] }
    c.toSwitch.isEmpty && c.moving.tail != [],
    let c := { head.clusters with moving := [(4095, 1)], changing := true }
    c.toSwitch.isEmpty && c.cur == c.req] = true := by decide +kernel

def isle (n : Nat) (i : Island) : State := { head with isl := Kv.put n i head.isl }
theorem wit_IslandStates : yes [
    sound (isle 20 ⟨.pending, 0, false⟩), sound (isle 8 ⟨.pending, 0, false⟩), (isle 8 ⟨.pending, 0, false⟩).boot.mode != .test, islUp head 2, islUp (isle 20 ⟨.gated, 0, false⟩) 20,
    sound (isle 2 ⟨.run, 0, true⟩), (islOf (isle 2 ⟨.run, 0, true⟩) 2).lockLost, islRun head 1, islRun head 17, islRun head 3, sound head,
    let s := { head with boot := { head.boot with power := .doze } }
    sound s && islandIdle 17 s && (islOf s 17).st == .run] = true := by decide +kernel

def env : StartEnv := ⟨none, 0, [], true, 4096, 3, [], 0, [], false⟩
/-- Reset with a trim set of CTL that checks. -/
def trimmed : State := { State.reset with boot := { bootReset with otp := [(0, BitVec.ofNat 32 (0x01000000 + (crc16 []).toNat))] } }
def strapping (k : Nat) : State := { trimmed with boot := { trimmed.boot with phase := .strapWait k, env := some env } }
theorem wit_StartUp : yes [
    !ctlTrimOk State.reset && State.reset.boot.phase == .inReset && State.reset.boot.mainSupply && regsFine State.reset, ctlTrimOk trimmed && sound trimmed,
    guardCode 0, guardCode 63, !guardCode 1, !guardCode 0x1A, strapMode 6 == .provision, fieldOf trimmed 0x17004 17 16 != 1, (strapping 6).boot.env.isSome, (strapping 7).boot.phase == .strapWait 7,
    head.boot.phase != .inReset] = true := by decide +kernel

def boot (f : Boot → Boot) : State := { head with boot := f head.boot }
def image (s : State) : Image := ⟨true, signerDigest s, 0, 1, 1, 0, [0xB2]⟩
def bundle : Bundle := ⟨true, ownerDigest head, 0, true, true, 2, 0, false, false, 2, 0, [(0, 0, 1)], [(1, 0)], [(1, 0)], none, none, some 0, [], [⟨1, 1, 1, 0, [(1, 2, 3)]⟩], [], [], [], [], none, [], none, [], 0, []⟩
theorem wit_BootControl : yes [
    enters (.regWriteAu 0x17028 7 (setBits 0 2 2 1)) (boot fun b => { b with mode := .recovery, runImage := true }) fun u => regsFine u && !blockDown 0x17028 u && u.boot.install.isNone && window u
      && !slotRuns false false u && islInRun u 4 && imageOk u (image u),
    enters (.regWriteAu 0x17028 7 (setBits 2 2 2 1)) (boot fun b => { b with mode := .recovery }) fun u => window u && !slotRuns true false u && bit (2 : W32) 1 && bundleOk u bundle,
    enters (.regWriteAu 0x17028 7 (setBits 0 2 2 1)) head fun u => regsFine u && !blockDown 0x17028 u && u.boot.install.isNone && !window u,
    enters (.regWriteAu 0x17024 0xF (setBits 0 3 2 1)) head fun u => !blockDown 0x17024 u && islInRun u 4, enters (.regWriteAu 0x17024 0xF (setBits 0 3 2 0)) head fun u => islInRun u 4,
    enters (.regWriteAu 0x17024 0xF (setBits 0 3 3 1)) (boot fun b => { b with trialRun := true }) fun u => islInRun u 4 && u.boot.trialRun,
    enters (.regWriteAu 0x17024 0xF (setBits 0 3 2 1)) (down 4 head) fun u => !blockDown 0x17024 u && !islInRun u 4,
    regsFine (boot fun b => { b with install := some (.image (image head), true) }), (boot fun b => { b with install := some (.bundle bundle, false) }).boot.install.isSome,
    let s := setField 0x1700C 15 8 1 { head with boot := { head.boot with trialRun := true }, tim := { head.tim with raw := 3600000000000 } }
    isLone s && s.boot.power == .run && roleOf s != 0 && (fieldOf s 0x1700C 15 8 != 0) && decide (fieldOf s 0x1700C 15 8 * 3600000000000 ≤ s.tim.raw),
    let s := { linked with boot := { linked.boot with mode := .provision } }
    regsFine s && barOpen s && bit (1 : W32) 0 && s.boot.otp.wf] = true := by decide +kernel

theorem wit_BackupDomain : yes [
    !secTamper State.reset && regsFine State.reset, secTamper head, fieldOf (setField 0x2000 1 0 0 head) 0x2000 1 0 == 0, fieldOf (setField 0x2000 1 0 2 head) 0x2000 1 0 != 0,
    let s := setField 0x1018 1 1 1 (boot fun b => { b with power := .hold }); (fieldOf s 0x1018 1 1 == 1) && s.boot.power == .hold,
    let s := setField 0x1018 1 1 1 (boot fun b => { b with power := .backup }); (fieldOf s 0x1018 1 1 == 1) && s.boot.power == .backup,
    fieldOf (setField 0x1018 1 1 0 head) 0x1018 1 1 == 0,
    let s := setField 0x1018 0 0 1 (setReg 0x101C 7 (setReg 0x1008 7 (boot fun b => { b with power := .backup }))); (fieldOf s 0x1018 0 0 == 1) && reg s 0x1008 == reg s 0x101C,
    head.boot.power != .backup, regsFine head && head.boot.mainSupply, decide (1999 < 2000), !(boot fun b => { b with mainSupply := false }).boot.mainSupply] = true := by decide +kernel

def slotted (v : ModSlot) : State := { head with mea := { meaReset with slots := [(1, v)] } }
theorem wit_ModulePresence : yes [
    let s := slotted ⟨0, false, true, 0, [], none⟩
    let t := { s with tim := { s.tim with raw := 50000000 } }
    regsFine t && slotUsed t 1 && !(modSlot t 1).presHigh && (modSlot t 1).debounce && decide ((modSlot t 1).lowAt + 50000000 ≤ t.tim.raw),
    let s := slotted ⟨0, false, true, 0, [], none⟩
    decide ({ s with tim := { s.tim with raw := 49999999 } }.tim.raw < (modSlot s 1).lowAt + 50000000), (modSlot (slotted ⟨0, true, false, 0, [], none⟩) 1).presHigh] = true := by decide +kernel

def crs : State := { linked with host := { linked.host with crsDone := false } }
theorem wit_PcieLink : yes [islRun head 14, calm crs && islUp crs 14 && crs.host.link && !crs.host.crsDone, calm linked && linked.host.crsDone && linked.host.bme, linked.host.frames.isEmpty && linked.deferred.isEmpty && sound linked,
    !head.host.bme && calm head, head.host.masked.getLsbD 63, (linked.host.msixPending ||| 1).getLsbD 0] = true := by decide +kernel

/-- The host link with its block enabled. -/
def hosted : State := setField 0xE000 31 31 1 linked
def ringed : State := setField (sqCfg 31) 31 31 1 { hosted with host := { hosted.host with sq := [(31, ⟨2, 3, [], 0, true⟩)] } }
def completing : State := setField (cqCfg 31) 31 31 1 { hosted with host := { hosted.host with cq := [(31, ⟨0, 0, 0, 0, []⟩)] } }
theorem wit_HostRings : yes [
    regsFine linked && reaches linked 0xE000 && calm linked && !bit (reg linked 0xE000) 31, bit (0x80000000 : W32) 31, regsFine hosted && reaches hosted 0xE000 && bit (reg hosted 0xE000) 31 && hosted.host.frames.isEmpty,
    reaches hosted (sqCfg 31) && !bit (reg hosted (sqCfg 31)) 31 && Kv.wf hosted.host.sq, reaches hosted (cqCfg 31) && !bit (reg hosted (cqCfg 31)) 31,
    regsFine ringed && calm ringed && Kv.wf ringed.host.sq && reaches ringed (sqCfg 31) && bit (reg ringed (sqCfg 31)) 31 && ringed.host.frames.isEmpty,
    regsFine completing && calm completing && reaches completing (cqCfg 31) && bit (reg completing (cqCfg 31)) 31 && Kv.wf completing.host.cq,
    !pciUp linked, pciUp hosted && hosted.host.sq.isEmpty && hosted.host.cq.isEmpty && hosted.host.db != [1], pciUp ringed && ringed.host.cq.isEmpty && (fieldOf ringed (sqCfg 31) 30 30 == 0)
      && decide (((List.replicate 31 0 ++ [(4 : BitVec 16)]).getD 31 0 - 2).toNat ≤ ringSize (reg ringed (sqCfg 31))),
    (sqOf ringed 31).run, !ringRuns false 30 ringed,
    let s := setField 0xE01C 15 0 1 { hosted with host := { hosted.host with frames := [(31, [⟨[0], none, 0, [], hdr 1, 0x0A01, 0, [], some 0⟩])] }, tim := { hosted.tim with raw := 1000 } }
    regsFine s && calm s && decide (0 + fieldOf s 0xE01C 15 0 * 1000 ≤ s.tim.raw),
    let s := setField (cqCfg 31) 30 30 1 { completing with host := { completing.host with cq := [(31, ⟨1, 0, 1, 0, []⟩)], masked := 0 }, tim := { completing.tim with raw := 255000 } }
    (cqOpen s 31 == some ⟨1, 0, 1, 0, []⟩) && bit (reg s (cqCfg 31)) 30 && decide (0 + bits (reg s (cqCfg 31)) 23 16 * 1000 ≤ s.tim.raw) && !s.host.masked.getLsbD 31,
    cqOpen hosted 31 == none] = true := by decide +kernel

def queued : State := { metered with pipe := { metered.pipe with iq := [(7, [item])], turn := 7 } }
def polled : State := { field with boot := { field.boot with bundle := some bundle }, table := { field.table with slots := [(0, { slotEmpty with img := setFld 0 8 1 2 })] } }
theorem wit_IntakeAndTokens : yes [
    serving queued && Kv.wf queued.pipe.iq && (queued.pipe.iq.getD 7 [] == [item]) && (queued.pipe.free != 0) && !signed item && (openCluster queued (routeItem queued item).1).isSome,
    !serving State.reset, ({ metered with pipe := { metered.pipe with free := 0 } } : State).pipe.free == 0, metered.pipe.returning == 0, ({ metered with pipe := { metered.pipe with returning := 1 } } : State).pipe.returning != 0,
    isField polled && serving polled && (recState (imgOf polled 0) == 2) && decide (fld (imgOf polled 0) 9 1 < 128) && !iqPaused (fld (imgOf polled 0) 9 1 % 8) polled && (freeSession polled == some 0)
      && ((bundle.polls.find? fun e => e.entry == 1).isSome), !isField head, sound head && (queueDepth 7 != 0) && (qState head 7).items == 0, decide (256 ≤ 256)] = true := by decide +kernel

/-- The same reading under keys that verify. -/
def keyed (f : Flight) : State := { flying f with table := { metered.table with slots := [(0, { slotOf metered 0 with keys := ⟨⟨.table 0, 1, true⟩, ⟨.table 0, 2, true⟩, ⟨.table 0, 0, true⟩, ⟨.table 0, 0, true⟩, 0⟩ })] } }
def found (s : State) (f : Flight) : Bool := (s.pipe.flight.find? fun g => g.id == f.id) == some f
theorem wit_ReadingVerified : yes [
    let f := { flight with item := { wired with apdu := { apdu with sc := 0 } } }; found (flying f) f && islRun (flying f) 17 && islRun (flying f) 2 && (stage2 (flying f) f == (some 0, some ocAuthFail, false)),
    let f := { flight with slot := none }; found (flying f) f && f.item.title.isSome,
    found (keyed flight) flight && (stage2 (keyed flight) flight == (some 0, none, false)) && (keyCheck (keyed flight) 0 wired == (some false, false)) && isHead (keyed flight),
    let s := { keyed flight with boot := field.boot }; (keyCheck s 0 wired == (some false, false)) && !isHead s && (stage2 s flight == (some 0, none, false)),
    let f := { flight with item := { wired with apdu := { apdu with ek := 7 } } }; found (keyed f) f && (stage2 (keyed f) f == (some 0, none, false)) && (keyCheck (keyed f) 0 f.item == (none, false)),
    !islRun (down 2 (flying flight)) 2, (metered.pipe.flight.find? fun g => g.id == 4) == none] = true := by decide +kernel

def verified : Flight := { flight with stage := .verified }
def alone (s : State) (f : Flight) : Bool := found s f && (f.stage == .verified) && islRun s (17 + f.cluster) && (s.pipe.flight.all fun g => !(decide (g.id < f.id) && g.slot == f.slot) || g.stage == .committed)
theorem wit_ReadingCommitted : yes [
    calm (flying flight) && found (flying flight) flight && flight.stage != .verified,
    let f := { verified with outcome := some ocAuthFail }; alone (flying f) f && (recCounter ocAuthFail).isSome && ocAuthFail != ocAccepted,
    let f := { verified with item := { wired with apdu := { apdu with ic := 0 } } }; alone (flying f) f && !overRadio f.item && decide (f.item.apdu.ic.toNat ≤ fld (imgOf (flying f) 0) 80 4),
    alone (flying verified) verified && !overRadio wired && decide (fld (imgOf (flying verified) 0) 80 4 < apdu.ic.toNat) && !markHolds (flying verified) verified && (decodeRows (flying verified) wired).isSome,
    let f := { verified with item := { wired with apdu := { apdu with eventValue := none } } }; alone (flying f) f && decodeRows (flying f) f.item == none,
    let s := { flying verified with rules := { metered.rules with marks := [mark] } }
    calm s && alone s verified && markHolds s verified && match decodeRows s wired with | some ds => ds.all fun d => (demandOf d).2 | none => false,
    let f := { verified with outcome := some ocUnknown, suspended := true }; alone (flying f) f,
    let f := { flight with stage := .committed, outcome := some ocAccepted }
    ((unposted (flying f)).find? (fun g => g.id == 4) == some f) && journalAcked f.batch (flying f) && !postsBefore (flying f) f && isHead (flying f) && !readingBlocked 0 (flying f),
    ((unposted (flying verified)).find? fun g => g.id == 4) == some verified] = true := by decide +kernel

def fetching (n : Nat) : State := { field with table := { field.table with fetches := [⟨0x11, n, 0, 0, 0⟩] } }
/-- Slot 0 in the given state, heard at 0 and retired at 0, at the end of the hold. -/
def aged (role : State) (st : Nat) : State :=
  { role with table := { role.table with slots := [(0, { slotEmpty with img := setFld 0 8 1 st })] }, tim := { role.tim with clk := 255 * 3600 * 1000000000 * 65536 } }
theorem wit_RecordUpkeep : yes [
    ((fetching 3).table.fetches.find? fun g => g.title == 0x11) == some ⟨0x11, 3, 0, 0, 0⟩, ((fetching 4).table.fetches.find? fun g => g.title == 0x11) == some ⟨0x11, 4, 0, 0, 0⟩,
    (field.table.fetches.find? fun g => g.title == 0x11) == none, journalAcked 0 head, ({ head with table := { head.table with moves := [⟨0, 1, 2, 0, true, true⟩] } } : State).table.moves.length == 1,
    !journalAcked 1 { paired .active with jr := { journalReset with unacked := [(1, false, [])] } },
    let s := aged head 4; (recState (imgOf s 0) == 4) && s.pipe.flight.isEmpty && !isStandby s && decide ((slotOf s 0).retiredAt + fieldOf s 0x204 15 8 * (3600 * 1000000000 * 65536) ≤ s.tim.clk),
    recState (imgOf (aged head 2) 0) != 4,
    let s := setField 0x204 31 16 255 (aged field 2); regsFine s && isField s && !isStandby s && (fieldOf s 0x204 31 16 != 0) && Kv.wf s.table.slots &&
      decide (fld (imgOf s 0) 96 8 + fieldOf s 0x204 31 16 * (3600 * 65536) ≤ (clkTime s.tim.clk).toNat), !isField head] = true := by decide +kernel

/-- The title 0x11 on slot 0 of a FIELD unit, ACTIVE on the given link, with PLC0 and RF0 ready. -/
def known (link : Nat) : State := match idxInsertion field 0x11 0 with | some c => putIdx c (slotAt link) | none => slotAt link
where slotAt (link : Nat) : State :=
  { field with
    mea := { meaReset with slots := [(2, ⟨1, false, false, 0, [], none⟩), (6, ⟨1, false, false, 0, [], none⟩)] }
    table := { field.table with slots := [(0, { slotEmpty with img := setFld (setFld (setFld 0 8 1 2) 0 8 0x11) 9 1 link })] }
    plc := [(0, { plcEmpty with outEnd := 9, ends := [(1, ⟨0x11, 2, 0, none, none⟩)] })] }
/-- Slot 63 of that unit holds the campaign, with a member in the given state. -/
def served (st : CampSt) (m : Nat) (r : Option ActRec) : State :=
  let s := known 0
  { s with camp := { campReset with camps := [(63, { camp st mani with act := r, members := [(0, ⟨0, m, 0, 0, 0, 0x11⟩)] })], turn := [(0, 62)] } }
def cursored (v : Cursor) (s : State) : State := { s with camp := { s.camp with cursors := [(63, v)] } }
def mem (m : Nat) : Member := ⟨0, m, 0, 0, 0, 0x11⟩
def clocked (c : Nat) (s : State) : State := { s with tim := { s.tim with valid := true, clk := c } }
def theCamp (s : State) : Camp := (campOf s 63).getD (camp .draft mani)

theorem wit_CampaignRuns : yes [
    let s := served .running 0 none
    serving s && decide (campSentNow s 0 < fieldOf s 0x604 31 24) && !accessBusy s 0 && accessReady s 0 && ((s.camp.turn.getD 0 63 + 1) % 64 == 63) && (membersOn s (theCamp s) 0 != [])
      && cursorOf s (theCamp s) 0 63 == ⟨0, 0, false, none, [], [], false⟩,
    let s := cursored ⟨0, 1, false, none, [], [], false⟩ (served .running 0 none)
    decide (0 < nSeg mani) && (heldSeg s 63 0 == none) && !s.camp.fetching.contains (63 * 65536) && (campOf s 0 == none) && cursorOf s (theCamp s) 0 63 == ⟨0, 1, false, none, [], [], false⟩,
    !isField head, decide (5 < 6), let s := setField 0x604 31 24 0 (known 0); decide (fieldOf s 0x604 31 24 ≤ campSentNow s 0),
    let s := cursored ⟨0, 0, true, none, [], [], false⟩ (served .running 1 none)
    isField s && serving s && (cursorOf s (theCamp s) 0 63 == ⟨0, 0, true, none, [], [], false⟩) && (membersOn s (theCamp s) 0).any fun m => decide (m.st ≤ 1),
    let s := served .activating 2 (some (actRec 1 9)); (membersOn s (theCamp s) 0 == [mem 2]) && accessKnown s 0 0x11,
    let s := served .rollingBack 4 (some (actRec 2 9))
    (membersOn s (theCamp s) 0 == [mem 4]) && accessKnown s 0 0x11 && ((theCamp s).act == some (actRec 2 9)) && campMay s 0 && decide ((rxTime s).toNat < 9 + 60 * 65536),
    let s := setField 0x604 31 24 0 (served .activating 2 (some (actRec 1 9))); !campMay s 0 && serving s && (membersOn s (theCamp s) 0 != []) && decide ((rxTime s).toNat < 9 + 60 * 65536),
    let s := clocked (2 ^ 60) (served .activating 3 (some (actRec 1 9))); ((theCamp s).act == some (actRec 1 9)) && decide (9 + 60 * 65536 ≤ (rxTime s).toNat)] = true := by decide +kernel

/-- A head whose balance of 15 min runs, that last closed at UTC second 0. -/
def balanced (clk : Nat) (r : Option BalRun) : State :=
  let s := setField 0x500 31 31 1 (clocked clk head)
  { s with bal := { s.bal with lastClose := some 0, run := r } }
def sec (n : Nat) : Nat := n * 1000000000 * 65536
def run (c k : Bool) : BalRun := ⟨0, 900, 0, 0, 0, false, false, k, [], [], c, 0, [], [], [], 0, 0, 0⟩
theorem wit_BalanceRuns : yes [
    let s := balanced (sec 1799) (some (run false true))
    (balLen s == 900) && islInRun s 16 && (s.bal.run == some (run false true)) && decide ((0 : Int) + balLen s ≤ localSec s - utcOffset s ∧ localSec s - utcOffset s < 0 + 2 * (balLen s : Int)),
    let s := balanced (sec 899) (some (run false true)); decide (localSec s - utcOffset s < (0 : Int) + balLen s), !islInRun (down 16 (balanced (sec 900) (some (run false true)))) 16,
    fieldOf head 0x500 31 31 == 0,
    let s := { balanced (sec 900) none with bal := { (balanced (sec 900) none).bal with due := [(0, 0, true)] } }; regsFine s && serving s && isHead s && s.bal.run.isNone && s.bal.waiting.isNone,
    let s := balanced (sec 900) (some (run false true)); isHead s && serving s && islRun s 17, serving (balanced (sec 900) (some (run true false))) && journalAcked 0 head && (balanced 0 none).bal.due.isEmpty,
    !isHead field] = true := by decide +kernel

theorem wit_PlcPinsAndTimers : yes [
    islRun (known 0) 5, !islRun (down 5 head) 5, (plcOf (known 0) 0).zcEdges.isEmpty, decide (15385000 ≤ 20000000 - 0), decide (20000000 - 0 ≤ 22222000), !({ plcEmpty with ldPin := false } : PlcState).ldPin, plcEmpty.ldPin,
    let s := { known 0 with plc := [(0, { plcEmpty with routes := [(1, ⟨2, 0, 0⟩)], reasm := [(1, 2)] })], rf := [(1, { rfEmpty with reasm := [(1, 2)] })] }
    regsFine s && (Kv.get? 1 (plcOf s 0).routes == some ⟨2, 0, 0⟩) && decide (s.tim.clk < 0 + fieldOf s (plcBase 0 + 0x18) 31 16 * 60 * (1000000000 * 65536)) && (plcOf s 0).reasm.contains (1, 2)
      && (rfOf s 1).reasm.contains (1, 2),
    let s := known 0; isField s && serving s && (Kv.get? 1 (plcOf s 0).ends == some ⟨0x11, 2, 0, none, none⟩) && recordActive s 0x11 && !recordActive s 0x12,
    let s := clocked (2 ^ 70) (known 0); decide (0 + fieldOf s (plcBase 0 + 0x20) 31 16 * 3600 * (1000000000 * 65536) ≤ s.tim.clk) && decide (0 + fieldOf s (plcBase 0 + 0x18) 31 16 * 60 * (1000000000 * 65536) ≤ s.tim.clk)
      && decide (0 + fieldOf s (rfBase 0 + 0x10) 7 0 * 3600 * (1000000000 * 65536) ≤ s.tim.clk)] = true := by decide +kernel

/-- A frame of neighbour 1 under the group key 5. -/
def plcFrame (b : PlcBody) : PlcFrame := ⟨true, [0], true, 5, 1, true, false, 1, 1, 0, true, false, 0, 0, [], 0, b⟩
def grouped (s : State) (f : PlcState → PlcState) : State := { s with plc := [(0, f { plcOf s 0 with gmk := some 5 })] }
def plcTx (n : Nat) : PlcTx := ⟨4, 1, true, n, .robo, false, .keepAlive⟩
theorem wit_PlcFrames : yes [
    !islRun (down 5 head) 5, islRun (known 0) 5, ({ plcFrame .ack with fchOk := false } : PlcFrame).fchOk == false, decide ((0 : Int) < (plcOf (known 0) 0).noise + fieldOf (known 0) (plcBase 0 + 0xC) 31 24),
    let s := grouped (known 0) id
    regsFine s && serving s && ((plcOf s 0).gmk == some 5) && (Kv.get? 1 (plcOf s 0).rxCtr == none) &&
      decide (([0].filter fun x => decide ((plcOf s 0).noise + fieldOf s (plcBase 0 + 0xC) 31 24 ≤ x)).length * 100 ≤ 1 * fieldOf s (plcBase 0 + 0xC) 23 16),
    let s := grouped (known 0) fun p => { p with rxCtr := [(1, 1)] }; (Kv.get? 1 (plcOf s 0).rxCtr == some 1) && decide ((plcFrame .ack).counter.toNat ≤ 1),
    let s := grouped (known 0) fun p => { p with awaiting := [plcTx 0], queued := [plcTx 0] }
    regsFine s && ((plcOf s 0).awaiting.find? (fun t => t.id == 4) == some (plcTx 0)) && decide (0 < fieldOf s (plcBase 0 + 4) 2 0) && (plcOf s 0).neigh.isEmpty && ((plcOf s 0).queued.find? (fun t => t.id == 4) == some (plcTx 0)),
    decide (fieldOf (known 0) (plcBase 0 + 4) 2 0 ≤ 7),
    let r : ZcReport := ⟨0x11, 1, 0, 0, 20000000, 0⟩
    let s := grouped (clocked (2 ^ 70) (known 0)) fun p => { p with zcLost := false, ends := [(1, ⟨0x11, 2, 0, some r, some 0⟩)], fps := [(0x11, ⟨[], 255, some 0⟩)] }
    isField s && serving s && (Kv.get? 1 (plcOf s 0).ends == some ⟨0x11, 2, 0, some r, some 0⟩) && decide (0 + fieldOf s (plcBase 0 + 0x10) 31 16 ≤ unitSec s) && (Kv.get? 0x11 (plcOf s 0).fps == some ⟨[], 255, some 0⟩)
      && decide (fieldOf s (plcBase 0 + 0x1C) 23 16 ≤ 255) && decide (0 + fieldOf s (plcBase 0 + 0x1C) 15 0 * 3600 ≤ unitSec s),
    plcEmpty.zcLost, decide (0 < fieldOf (known 0) (plcBase 0 + 0x1C) 23 16)] = true := by decide +kernel

/-- A radio frame of neighbour 1 under key 5 of index 1, heard on lane 0. -/
def rfFrame (b : RfBody) : RfFrame := ⟨true, 20, false, true, some ⟨1, 5, 2⟩, 1, 0, 0, true, true, 0, 0, b⟩
def radio (f : RfState → RfState) (s : State) : State := { s with rf := [(0, f { rfEmpty with key := some 5, keyIdx := 1, outEnd := 9 })] }
def rfEnd (st : NbSt) (k : Nat) : RfEnd := ⟨0x11, 2, false, true, 0, [0], [(1, 1)], none, 0, st, k, 0, false⟩
/-- Not serving, and yet no standby: no Ethernet and no host link. -/
def idle (s : State) : State := down 14 (down 12 (down 11 s))
def rfTx (n : Nat) : RfTx := ⟨4, some 1, n, 0, 1, 0, .keepAlive⟩
def child : State := setField (rfBase 0) 30 29 1 (known 4)
def hit : ScanHit := ⟨7, 1, 0, 3, 5, 1, [2]⟩
theorem wit_RadioSlots : yes [
    !islRun (down 9 head) 9,
    let s := radio id (clocked (10 * 65536 * 1000000 * 40) (known 4)); islRun s 9 && !rfChild s 0 && serving s && ((rfOf s 0).inAir == none) && (rfPick s 0 (rfAsn s 0)).isNone,
    let s := radio id { known 4 with eth := [(0, { ethEmpty with link := true })] }
    serving s && rfEbSlot s 0 (rfAsn s 0) && (rfMetric s == some 0) && modOk s 6 && decide ((rfOf s 0).modUntil ≤ s.tim.raw) && decide ((rfOf s 0).outCtr < (rfOf s 0).outEnd) && (rfUplinks s 0 (rfAsn s 0)).isEmpty,
    let s := radio (fun r => { r with acks := [⟨1, 0, none, false, 0⟩] }) (idle (known 4)); islRun s 9 && !rfChild s 0 && !serving s && !isStandby s && (rfOf s 0).acks.length == 1,
    let s := radio (fun r => { r with inAir := some (4, true), queue := [rfTx 0] }) (idle (known 4)); regsFine s && ((rfOf s 0).queue.find? (fun t => t.id == 4) == some (rfTx 0)) && !serving s && !isStandby s,
    let s := radio (fun r => { r with listening := [1], ends := [(1, rfEnd .sync 2)] }) (idle (known 4)); regsFine s && (Kv.get? 1 (rfOf s 0).ends == some (rfEnd .sync 2)) && !serving s && !isStandby s,
    let s := radio (fun r => { r with asn := 1, ends := [(1, rfEnd .desync 0)] }) (known 4)
    regsFine s && rfHears s 0 (rfFrame .keepAlive) && decide (20 ≤ fieldOf s (rfBase 0 + 4) 26 16) && (rfKeys (rfOf s 0)).contains (1, 5) && (Kv.get? 1 (rfEnd .desync 0).ctrs == some 1) && serving s && !rfChild s 0,
    let s := radio (fun r => { r with sending := some 1 }) (known 4); !rfHears s 0 (rfFrame .keepAlive), let s := radio (fun r => { r with asn := 1 }) (known 4); !(rfKeys (rfOf s 0)).contains (2, 5),
    let s := radio id child; islRun s 9 && rfChild s 0 && ((rfOf s 0).parent == 0) && serving s && scanChoice (fieldOf s (rfBase 0 + 0x14) 31 16) [hit, { hit with pan := fieldOf s (rfBase 0 + 0x14) 31 16 }] != none,
    scanChoice 7 [] == none,
    let s := radio (fun r => { r with queue := [rfTx 0], ends := [(1, rfEnd .sync 0)] }) { known 4 with tim := { timReset with raw := 600000000001 } }
    (rfOf s 0).queue.any fun x => x.id == 4 && decide (x.since + 600000000000 < s.tim.raw) && (Kv.get? 1 (rfOf s 0).ends).any (·.sleepy)] = true := by decide +kernel

def tinyLldp (t : Option Nat) : EthFrame := { frame with pay := .lldp t 120 }
def ethAt (f : EthState → EthState) (s : State) : State := { s with eth := [(0, f { ethEmpty with link := true })] }
theorem wit_EthernetPorts : yes [
    ethLink port false && decide (frame.length ≤ fieldOf port (ethBase false) 25 12) && frame.fcsOk && ethAccepts (setField 0xB004 0 0 1 port) false frame.dest && vlanOk port false none,
    sound port && (tinyLldp (some 5)).fcsOk, !ethLink linked false,
    let s := setField (ethBase false) 31 31 1 linked; sound s && islRun s 11 && (fieldOf s (ethBase false) 31 31 == 1) && !(ethOf s false).link && (modeSpeeds (ethOf s false).mode).contains 1,
    sound port && ethLink port false && port.relay.unacked.isEmpty && port.relay.open_.isEmpty,
    let s := ethAt (fun v => { v with wait := [⟨1, 64, 0, .configRetry, 0⟩] }) { linked with tim := { timReset with raw := 10000000 } }
    sound s && decide (0 + 10000000 ≤ s.tim.raw) && (ethOf s false).wait.length == 1, (ethOf port false).wait.isEmpty,
    decide (port.tim.raw < 0 + fieldOf port (ethBase false + 8) 23 16 * 1000000000),
    let s := ethAt id { linked with tim := { timReset with raw := 2 ^ 60 } }
    sound s && ethLink s false && decide ((ethOf s false).lldpAt + fieldOf s (ethBase false + 8) 23 16 * 1000000000 ≤ s.tim.raw) && (ethOf s false).wait.isEmpty && decide (txUsed (ethOf s false) + 82 ≤ 65536)
      && decide ((ethOf s false).tlvUntil ≤ s.tim.raw),
    let s := ethAt (fun v => { v with eee := true, tlv := some 5 }) (setField (ethBase false + 8) 31 31 1 { linked with tim := { timReset with raw := 2 ^ 60 } })
    sound s && eeeOn s false && (ethOf s false).tx.isEmpty && !(ethOf s false).lpi && decide ((ethOf s false).idleAt + fieldOf s (ethBase false + 8) 15 8 * 1000 ≤ s.tim.raw),
    !eeeOn port false, decide (port.tim.raw < (ethOf (ethAt (fun v => { v with tlvUntil := 1 }) linked) false).tlvUntil)] = true := by decide +kernel

/-- A FIELD unit with port 0 up, a relay key and a session. -/
def relayed (f : RelayState → RelayState) : State :=
  let s := { field with eth := [(0, { ethEmpty with link := true })], sec := { field.sec with relayKeys := [(1, 5)] }, tim := { timReset with valid := true, raw := 2 ^ 60 } }
  { s with relay := f { relayReset with needSession := false } }
def relayFrame (b : RelayBody) : RelayFrame := ⟨1, 4, 0, true, true, 7, none, 3, 2, 1, 1, 65536, 5, true, b⟩
def heard : RxSession := ⟨3, 1, 0, 1, [], false, []⟩
def entry : Entry := .release 0x11
def batch : Batch := ⟨4, headUnit, false, [1], 0, [.whole entry], 0, none⟩
def relayHead : State := { relayed (fun r => { r with rx := [(7, heard)] }) with boot := head.boot }
theorem wit_RelayFrames : yes [
    !ethLink linked false, let s := relayed id; ethLink s false && pairAddr s && !(relayFrame .resume).formOk == false, !pairAddr { relayed id with boot := { field.boot with role := 0 } },
    (Kv.get? 1 (relayed id).sec.relayKeys == some 5) && (relayFrame .resume).formOk, Kv.get? 2 (relayed id).sec.relayKeys != some 5,
    let s := relayHead; !isField s && (freshness s (relayFrame .resume) == .ok { heard with high := 2, map := 1 }) && ownService s != 7 && freshness s { relayFrame .resume with seq := 1 } == .stale,
    freshness relayHead { relayFrame .resume with claim := 0 } == .stale, freshness { relayHead with relay := { relayHead.relay with rx := [(7, { heard with high := 2, map := 1 })] } } (relayFrame .resume) == .stale,
    let s := relayed fun r => { r with paused := [(0, 5)] }; (Kv.get? 0 s.relay.paused == some 5) && decide (5 ≤ s.tim.raw),
    let s := relayed fun r => { r with open_ := [(pathKey headUnit false, [(0, entry)])] }
    decide (0 + fieldOf s 0x704 15 8 * 10000 ≤ s.tim.raw) && relayMaySend s && pathUp s headUnit false && !isPaused s false && decide (windowUsed s headUnit false < fieldOf s 0x700 7 0) && (batchPorts s headUnit false == [false])
      && decide (entryLen entry ≤ datagramRoom s false) && !s.relay.needSession && decide (s.relay.nextSeq.getD headUnit.toNat 1 < 0xFFFFFFFF),
    let s := { relayed (fun r => { r with open_ := [(pathKey headUnit false, [(0, entry)])] }) with tim := timReset }
    decide (s.tim.raw < 0 + fieldOf s 0x704 15 8 * 10000) && decide (1 ≤ (takeFit 255 (datagramRoom s false) [(0, entry)]).length),
    let s := relayed fun r => { r with unacked := [batch] }
    regsFine s && (s.relay.unacked.find? (fun b => b.id == 4 && b.port == false) == some batch) && decide (batch.sentAt + fieldOf s 0x704 31 20 * 1000000 ≤ s.tim.raw) && decide (max 0 (0 + 1) < relayRetries s) && ethLink s false,
    let b : RxBatch := ⟨7, .child true 1, 2, 1, [some 0]⟩
    let s := relayed fun r => { r with accepted := [b] }; (s.relay.accepted.find? (fun b => b.sender == 7 && b.seq == 2) == some b) && relayMaySend s,
    let s := relayed fun r => { r with spooling := true, spool := [entry] }
    let t := { s with boot := { s.boot with archiveFitted := true } }
    isField t && uplinkUp t && archiveUp t && decide (holdUsed t < holdCap t * 16384), !(relayed id).relay.spooling] = true := by decide +kernel

/-- Ports 0 and 1 run PTP, port 0 has LINK, with the given PTP port and clock. -/
def timed (p : PtpPort) (f : TimState → TimState) : State := let s := setField 0x10000 26 24 7 port; { s with tim := f { s.tim with ports := [(0, p)] } }
def ptp (b : PtpBody) : PtpMsg := ⟨0, true, true, 0, 0, 1000, b⟩
theorem wit_TimeEvents : yes [
    !ptpOn (down 16 linked) false, let s := timed ⟨true, none, 0⟩ id; ptpOn s false && ethLink s false && (fieldOf s 0x10000 23 16 == 0) && ptpFits s (ptp .pdelayReq) && ptpFits s (ptp (.pdelay 0 0 0 0)) && powerProfile s,
    !ptpFits (timed ⟨true, none, 0⟩ id) { ptp .pdelayReq with transport := 1 }, !(ptpPortOf port false).slave,
    let s := timed ⟨true, none, 0⟩ fun t => { t with source := 1, avail := [1], stepped := true }
    let off := Int.tdiv (2000000 - (stampCorr s false 1000).1 - 0 - 0) 10
    (ptpPortOf s false).slave && s.tim.avail.contains 1 && (pickSource s.tim == s.tim.source) && decide (off.natAbs ≤ (reg s 0x10004).toNat) && decide ((fieldOf s 0x10008 31 16 : Int) < off.natAbs),
    let s := timed ⟨true, none, 0⟩ fun t => { t with source := 1, avail := [1], stepped := true }
    decide ((reg s 0x10004).toNat < (Int.tdiv (2 ^ 70 - (stampCorr s false 1000).1 - 0 - 0) 10).natAbs),
    ptpMaster (timed ⟨false, none, 0⟩ id) false, !ptpMaster (timed ⟨true, none, 0⟩ id) false,
    let s := timed ⟨true, none, 0⟩ fun t => { t with source := 3, avail := [3] }; islRun s 16 && (s.tim.avail.filter (· != 3)).isEmpty, regsFine head && head.tim.lost.isEmpty, decide (20 < 21), (20 : Nat) ∉ head.tim.lost,
    regsFine head && islRun head 16 && (timed ⟨true, none, 0⟩ fun t => { t with stepped := true }).tim.stepped, !head.tim.stepped && head.tim.leap == none,
    let s := { head with tim := { timReset with leap := some (1, 100) } }; decide ((localSec s : Int) - s.tim.utc < 100 + 1), let s := clocked (sec 101) { head with tim := { timReset with leap := some (-1, 100) } }; decide (100 - 1 ≤ (localSec s : Int) - s.tim.utc)] = true := by decide +kernel

/-- A unit of a pair with its pair key, in the given pair state, `raw` ns after reset. -/
def unit (raw : Nat) (f : PairState → PairState) : State :=
  { head with pair := f { pairReset with hb1 := { hbPathReset with ownSeq := 5 } }, sec := { head.sec with pairKey := some 9 }, tim := { timReset with raw := raw } }
def late : Nat := 2 ^ 60
theorem wit_GrantMoves : yes [
    let s := unit late id; pairOn s && (s.pair.st == .seeking) && (s.boot.power != .hold) && !s.pair.actInLive && !s.pair.actOut && (partnerHb s == none) && (roleOf s != 0) && decide (0 + fieldOf s 0xD000 15 8 * 1000000000 ≤ s.tim.raw),
    let s := unit 0 id; decide (s.tim.raw < fieldOf s 0xD000 15 8 * 1000000000),
    let s := unit late fun p => { p with st := .copying, actInLive := true }; !s.pair.actOut && !s.pair.prlSignal && decide (s.pair.edgeAt + fieldOf s 0xD004 7 0 * 10000 ≤ s.tim.raw),
    let s := unit late fun p => { p with st := .fenced, actInLive := true }; decide (s.pair.edgeAt + fieldOf s 0xD004 7 0 * 10000 ≤ s.tim.raw),
    let s := unit late fun p => { p with st := .lone }; !posB s, let s := { unit 20000 (fun p => { p with startAt := some 0, actOut := true, before := .standby }) with boot := { head.boot with bundle := some { bundle with pos := true } } }; posB s && decide (s.tim.raw ≤ 0 + 20000),
    let s := unit late fun p => { p with actOut := true }; s.pair.actOut && s.jr.replies.isEmpty && s.rules.marks.isEmpty && s.pair.swap.isNone, !(unit 0 id).pair.actOut,
    let s := unit 1000000000 fun p => { p with st := .fenced, actInLive := true }; ((islOf s 13).st != .off) && (partnerHb s == none) && decide (s.pair.stAt + 1000000000 ≤ s.tim.raw), (unit 0 id).pair.st != .fenced,
    let s := unit 0 fun p => { p with actInLive := true }; decide (s.tim.raw < s.pair.edgeAt + fieldOf s 0xD004 7 0 * 10000), (unit 0 fun p => { p with flashPending := true }).pair.flashPending, !(unit 0 id).pair.flashPending,
    let s := unit 0 fun p => { p with copyGiving := true, copyItem := 5 }; islRun s 13 && s.pair.copyGiving, let s := unit 0 fun p => { p with st := .copying, copyItem := 5 }; islRun s 13 && !s.pair.copyGiving,
    (unit 0 fun p => { p with st := .copying, copyItem := 6 }).pair.copyItem == 6, let s := unit late id; islRun s 13 && (s.pair.hb1.ownSeq + 1 != s.pair.hb1.ownStart) && decide (s.pair.hb1.sentAt + fieldOf s 0xD004 31 20 * 1000 ≤ s.tim.raw),
    let s := unit 0 id; decide (s.tim.raw < (pathOf s 2).sentAt + hbInterval 2 s)] = true := by decide +kernel

/-- The active of a pair that has heard its standby on both paths. -/
def pairing (raw : Nat) (f : PairState → PairState) : State :=
  unit raw fun p => f { p with st := .active, actOut := true, hb1 := { p.hb1 with lost := false, last := some (hb .standby) }, hb2 := { p.hb2 with lost := false, last := some (hb .standby) } }
def jr (s : State) (j : Journal) : State := { s with jr := j }
/-- A later heartbeat of the partner. -/
def hbNext (st : PairSt) (s : State) : Heartbeat := { hb st with seq := 2, role := roleOf s, service := ownService s, saltFp := saltFp s, jver := s.boot.jver, jverMin := 0 }
theorem wit_SwapAndJournal : yes [
    let s := unit 0 fun p => { p with hb2 := { p.hb2 with last := some (hb .standby) } }; pairOn s && (s.sec.pairKey != some 8) && s.pair.hb2.last == some (hb .standby),
    let s := unit 0 fun p => { p with st := .activeAlone, actOut := true, hb2 := { p.hb2 with last := some (hb .seeking) } }
    pairOn s && (s.sec.pairKey == some (hbNext .seeking s).key) && hbFresh s s.pair.hb2 (hbNext .seeking s) && (pairFault s (hbNext .seeking s) == 0) && !s.pair.actInLive && !s.pair.inStep && s.pair.swap.isNone,
    let s := pairing 0 id; let h := { hbNext .active s with claim := 1 }; hbFresh s s.pair.hb2 h && s.pair.actOut && decide (s.pair.claim < h.claim), !pairOn head,
    let s := pairing late id; regsFine s && pairOn s && decide (s.pair.hb2.at_ + fieldOf s 0xD004 19 16 * hbInterval 2 s ≤ s.tim.raw) && decide (s.pair.hb1.at_ + fieldOf s 0xD004 19 16 * hbInterval 1 s ≤ s.tim.raw),
    let s := pairing 0 id; decide (s.tim.raw < (pathOf s 2).at_ + fieldOf s 0xD004 19 16 * hbInterval 2 s), let s := jr (pairing 0 id) { journalReset with open_ := [.topoSwitch] }; journals s && islRun s 13,
    (pairing 0 id).jr.open_.isEmpty, let s := unit 0 fun p => { p with st := .standby, actInLive := true }; islRun s 13 && (s.jr.nextApply == 1) && s.jr.held.isEmpty && (applyBatch 0 [] s).jr.held.isEmpty && (partnerHb s == none),
    (pairing 0 id).pair.st != .standby, let s := jr (pairing late id) { journalReset with unacked := [(1, false, [])] }; journals s && s.jr.replies.isEmpty && decide (s.jr.sentAt.getD 1 0 + fieldOf s 0xD008 31 24 * 1000000 ≤ s.tim.raw),
    let s := pairing 0 id; s.jr.unacked.isEmpty && decide (s.tim.raw < s.jr.sentAt.getD 1 0 + fieldOf s 0xD008 31 24 * 1000000), (jr (pairing late id) { journalReset with unacked := [(1, true, [])] }).pair.swap.isNone,
    let s := pairing late fun p => { p with swap := some ⟨false, [], 0⟩ }
    s.pipe.iq.isEmpty && s.pipe.flight.isEmpty && s.jr.open_.isEmpty && s.jr.unacked.isEmpty && pairOn s && islRun s 13 && (s.pair.hb1.ownSeq + 1 != s.pair.hb1.ownStart) && decide (0 + fieldOf s 0xD008 23 16 * 10000000 ≤ s.tim.raw),
    let s := setField 0xD00C 31 16 1 (pairing 3600000000000 fun p => { p with swapTimer := some 3600000000000, swapTriedAt := some 0 })
    (fieldOf s 0xD00C 31 16 == 1) && !s.pair.proving && s.pair.swap.isNone && swapPartner s true && !s.pair.copyGiving,
    let s := setField 0xD00C 31 16 1 (pairing 3600000000000 fun p => { p with swapTimer := some 3600000000000, notReady := true, hb1 := { p.hb1 with last := some { hb .standby with ready := false } }, hb2 := { p.hb2 with last := some { hb .standby with ready := false } } })
    !swapPartner s true && !s.pair.swapRetryEvent, (setField 0xD00C 31 16 1 (pairing 0 id)).pair.swapTimer == none,
    let s := setField 0xD010 31 16 1 (pairing late fun p => { p with proving := true }); regsFine s && !proofDue s && decide (s.pair.proofReadings < fieldOf s 0xD010 31 16) && decide (s.pair.proofSince + fieldOf s 0xD010 15 0 * 1000000000 ≤ s.tim.raw),
    let s := setField 0xD010 31 16 1 (pairing late fun p => { p with proving := true, proofReadings := 1 }); proofDue s] = true := by decide +kernel

def raised (c : Bool) : Raised := ⟨1, 0x21, c, 0, [[1]]⟩
def recording (f : EvtState → EvtState) : State := let s := clocked (sec 1) head; { s with evt := f { s.evt with raised := [raised true] } }
def evRec (seq : W64) (part : Nat) : EvRec := ⟨seq, part, 0, false, false, false, 0, 0, 0, 1, 0, 0, []⟩
/-- Head 0 measures, head 1 does not, with a sensor record. -/
def sensor : List Byte := List.replicate 160 0 ++ be 4 23000 ++ List.replicate 92 0
def measuring (t : Nat) : State :=
  let s := setField 0xF000 30 29 1 (setField 0xF000 31 31 1 (clocked t { head with pair := pairReset }))
  { s with mea := { meaReset with heads := [(0, { meaHeadEmpty with rec_ := some sensor })], slots := [(0, ⟨1, false, false, 0, [], none⟩)] } }
def watching : State := setField 0x15100 31 31 1 head
theorem wit_RecorderAndMeasurement : yes [
    head.evt.raised.isEmpty, let s := recording id; (s.boot.phase == .started) && evtUp s && timeValid s && decide (s.evt.ring.length + 2 ≤ 512) && decide (0 < fieldOf s 0x16000 7 0) && decide (s.evt.secRecords + 2 ≤ fieldOf s 0x16000 27 16),
    let s := recording fun v => { v with raised := [raised false], buckets := [(0x121, 0)] }; min (fieldOf s 0x16000 7 0) (s.evt.buckets.getD 0x121 (fieldOf s 0x16000 7 0)) == 0, !archiveWritable head,
    let s := { stored with evt := { evtReset with ring := [evRec 0 0, evRec 1 1, evRec 2 0] } }; archiveWritable s && evtUp s && s.evt.archNext == 0,
    let s := recording id; (unitSec s != s.evt.refillAt) && (unitSec s / 3600 == s.win.at_ / 3600) && unitSec s != s.win.at_, let s := clocked (sec 3600) head; unitSec s / 3600 != s.win.at_ / 3600, unitSec head == head.evt.refillAt && unitSec head == head.win.at_,
    let s := watching; monUp s && bit (monCfg s 0) 31 && ((monIsland (bits (monCfg s 0) 30 24)) == some 1) && ((monOf s 0).at_ == none) && ((islOf s 1).st == .run) && regsFine s, !bit (monCfg head 63) 31,
    !decide (fieldOf head 0xF000 31 31 = 1), let s := down 16 (setField 0xF000 31 31 1 head); regsFine s && islRun s 15 && (fieldOf s 0xF000 31 31 == 1) && !meaTimed s,
    let s := measuring (sec 60)
    meaTimed s && headOn s 0 && !headOn s 1 && modOk s 0 && ((meaHead s 0).rec_ == some sensor) && ((meaHead s 0).imp.length == 3) && ((meaHead s 0).exp.length == 3) && ((List.range 3).all fun p => !phased sensor p) && !serving s
      && regsFine s && decide ((meaHead s 0).start < localSec s / 60 * 60) && (Kv.get? 2 (meaHead s 0).cond == none),
    let x := List.replicate 8000 (List.replicate 8 8388606); (x.length == 8000) && x.all fun r => r.all fun c => !clipped c,
    let s := measuring (sec 59); decide (localSec s / 60 * 60 ≤ (meaHead s 0).start) && decide (localSec s / 60 * 60 ≤ (meaHead s 1).start), !headOn head 0] = true := by decide +kernel

def nandStore (st : ArchSt) (f : Archive → Archive) : State := let s := store st; { s with arch := f s.arch, tim := { timReset with raw := late } }
def old (st : BlkSt) (pe : Nat) : Block := { block 5 with st := st, pe := pe }
theorem wit_StoreEvents : yes [
    !storeUp head, let s := store .ready; decide (s.tim.raw < s.arch.fillAt + fieldOf s 0x4000 27 24 * 1000000000), let s := setField 0x4000 30 30 1 (nandStore .ready fun a => { a with blocks := [(0, block 5)] }); islRun s 4 && !s.arch.writeback && (readingsTarget s).isNone,
    let s := nandStore .ready fun a => { a with openR := [(0, 1)], wq := List.replicate 256 none }; (pageRecords s 1 == 192) && (Kv.get? (s.arch.turn % max 1 s.arch.targets.length) s.arch.openR == some 1) && decide (192 ≤ s.arch.wq.length)
      && decide (s.arch.fillAt + fieldOf s 0x4000 27 24 * 1000000000 ≤ s.tim.raw),
    Kv.get? 7 (store .ready).arch.blocks == none, let s := nandStore .ready id; storeUp s && Kv.wf s.arch.blocks && (Kv.get? 1 s.arch.blocks == some blockEmpty) && (s.arch.blocks.all fun p => p.2.st != .spare) && regsFine s,
    let s := nandStore .ready fun a => { a with blocks := [(0, old .stale 3)] }; storeUp s && (s.arch.blocks.find? (fun p => p.2.zone == 5 && p.2.st == .stale) == some (0, old .stale 3)) && (s.arch.prof.map (·.peLimit)).getD 0 == 0,
    let s := nandStore .ready id; (s.arch.blocks.all fun p => (p.2.zone == 5 && p.2.st != .stale) || (p.2.zone != 5 && p.2.st != .data)) && decide (peMax s ≤ minD 0 [0, 0] + fieldOf s 0x400C 31 16) &&
      s.arch.blocks.all (fun p => p.2.st != .data || decide (s.arch.age - p.2.wr.age ≤ fieldOf s 0x4008 7 0 * 7 * 24 * 60 * 1024)),
    let s := nandStore .ready fun a => { a with blocks := [(0, old .data 0), (1, { blockEmpty with pe := 2 ^ 16 })] }
    storeUp s && Kv.wf s.arch.blocks && !(blockRecords (old .data 0)).isEmpty && decide (minD 0 ((s.arch.blocks.filter fun p => p.2.st == .data || p.2.st == .free).map (·.2.pe)) + fieldOf s 0x400C 31 16 < peMax s) && !s.win.min.contains (8, 0)
      && ((leastBlock (·.pe) (s.arch.blocks.filter fun p => p.2.st == .data)).map (·.1) == some 0) && (pickFree true s.arch.blocks == some (1, 2 ^ 16)),
    let s := nandStore .ready fun a => { a with age := 2 ^ 50 }; decide (fieldOf s 0x4008 7 0 * 7 * 24 * 60 * 1024 < s.arch.age - (block 5).wr.age) && (pickFree false s.arch.blocks == some (1, 0)) && (block 5).zone == 5,
    let s := store .ready; decide (s.tim.raw < s.arch.ageAt + 60000000000), let s := nandStore .ready id; decide (s.arch.ageAt + 60000000000 ≤ s.tim.raw) && (s.arch.st != .mounting) && s.arch.formatting == none && !s.arch.writeback,
    (nandStore .mounting fun a => { a with formatting := some (hdr 1) }).arch.formatting.isSome, let s := store .mounting; s.arch.formatting.isNone && s.arch.layout.isNone,
    let s := nandStore .ready fun a => { a with targets := [⟨0, 0, 0, 16, 0, 1024, 4096, []⟩], blocks := [] }; decide (64 ≤ (zones s).2.2.2), decide ((zones (store .ready)).2.2.2 < 64),
    let s := nandStore .mounting fun a => { a with layout := some ⟨0, 0, 0, 0, 0, 0, 0, 0, 0⟩, cut := false }; s.arch.layout.isSome && !s.arch.cut, let s := nandStore .mounting fun a => { a with layout := some ⟨0, 0, 0, 0, 0, 0, 0, 0, 0⟩ }; s.arch.cut && s.camp.ckpt.isNone
      && s.arch.missing.isEmpty, let s := nandStore .ready fun a => { a with writeback := true, ovf := rdg 5 }; s.arch.writeback && s.arch.ovf == rdg 5] = true := by decide +kernel

/-- Every command answers a next state, so the frames speak of every step. -/
theorem wit_Frames (i : Instr) (s : State) : ∃ t, exec i s = .next t := by
  cases i <;> exact ⟨_, rfl⟩

end Sys2Proof.Tests
end

section
/-!
SUPPORT. Bits and fields of a register word, and what a stored field reads back as.
-/
namespace Sys2Proof.Machine

theorem testBit_bits (w : W32) (hi lo i : Nat) : (bits w hi lo).testBit i = (decide (i < hi - lo + 1) && bit w (lo + i)) := by
  simp [bits, bit, Nat.testBit_mod_two_pow, Nat.testBit_shiftRight, BitVec.getLsbD]

theorem bits_lt (w : W32) (hi lo : Nat) : bits w hi lo < 2 ^ (hi - lo + 1) := Nat.mod_lt _ (Nat.two_pow_pos _)

/-- Two words that agree on the bits of a field agree on the field. -/
theorem bits_congr {w u : W32} {hi lo : Nat} (hlo : lo ≤ hi) (h : ∀ i, lo ≤ i → i ≤ hi → bit w i = bit u i) :
    bits w hi lo = bits u hi lo := by
  refine Nat.eq_of_testBit_eq fun i => ?_
  simp only [testBit_bits]
  by_cases hi' : i < hi - lo + 1
  · rw [h (lo + i) (by omega) (by omega)]
  · simp [hi']

theorem bit_and (w u : W32) (i : Nat) : bit (w &&& u) i = (bit w i && bit u i) := BitVec.getLsbD_and

theorem bit_andNot (w u : W32) (i : Nat) : bit (w &&& ~~~u) i = (bit w i && !bit u i) := by
  by_cases hi : i < 32
  · simp [bit, hi]
  · simp [bit, BitVec.getLsbD_of_ge w i (by omega)]

/-- A bit of a merged word comes from the written value under the mask, else from the old word. -/
theorem bit_merged (mask v old : W32) (i : Nat) : bit (merged mask v old) i = (bit old i && !bit mask i || bit v i && bit mask i) := by
  rw [← bit_andNot, ← bit_and]
  exact BitVec.getLsbD_or

/-- The mask of the bits [hi:lo]. -/
theorem bit_rangeMask {hi lo : Nat} (i : Nat) (hlo : lo ≤ hi) :
    bit (BitVec.ofNat 32 ((2 ^ (hi - lo + 1) - 1) <<< lo)) i = decide (i < 32 ∧ lo ≤ i ∧ i ≤ hi) := by
  simp only [bit, BitVec.getLsbD_ofNat, Nat.testBit_shiftLeft, Nat.testBit_two_pow_sub_one, ← Bool.decide_and, ge_iff_le]
  exact decide_eq_decide.mpr (by omega)

/-- A value placed in the bits [hi:lo]. -/
theorem bit_placed {hi lo : Nat} (v i : Nat) (hlo : lo ≤ hi) :
    bit (BitVec.ofNat 32 ((v % 2 ^ (hi - lo + 1)) <<< lo)) i = (decide (i < 32 ∧ lo ≤ i ∧ i ≤ hi) && v.testBit (i - lo)) := by
  simp only [bit, BitVec.getLsbD_ofNat, Nat.testBit_shiftLeft, Nat.testBit_mod_two_pow, ← Bool.and_assoc, ← Bool.decide_and, ge_iff_le]
  congr 1
  exact decide_eq_decide.mpr (by omega)

/-- A bit of a word after a field was set: the field's own bit, or the bit as it was. -/
theorem bit_setBits (w : W32) {hi lo : Nat} (v i : Nat) (hlo : lo ≤ hi) (hhi : hi < 32) :
    bit (setBits w hi lo v) i = if lo ≤ i ∧ i ≤ hi then v.testBit (i - lo) else bit w i := by
  have hbit : bit (setBits w hi lo v) i =
      (bit w i && !decide (i < 32 ∧ lo ≤ i ∧ i ≤ hi) || decide (i < 32 ∧ lo ≤ i ∧ i ≤ hi) && v.testBit (i - lo)) := by
    rw [← bit_rangeMask i hlo, ← bit_andNot, bit_rangeMask i hlo, ← bit_placed v i hlo]
    exact BitVec.getLsbD_or
  rw [hbit]
  by_cases hin : lo ≤ i ∧ i ≤ hi
  · have h32 : i < 32 := by omega
    simp [hin, h32]
  · simp [hin]

/-- A field just set reads back, as far as it is wide. -/
theorem bits_setBits_same (w : W32) {hi lo : Nat} (v : Nat) (hlo : lo ≤ hi) (hhi : hi < 32) :
    bits (setBits w hi lo v) hi lo = v % 2 ^ (hi - lo + 1) := by
  refine Nat.eq_of_testBit_eq fun i => ?_
  rw [testBit_bits, bit_setBits w v _ hlo hhi, Nat.testBit_mod_two_pow]
  by_cases h : i < hi - lo + 1
  · rw [if_pos (by omega), Nat.add_sub_cancel_left]
  · simp [h]

theorem reg_setField_same {s : State} (h : s.RegsOk) (off hi lo v : Nat) : reg (setField off hi lo v s) off = setBits (reg s off) hi lo v :=
  reg_setReg_same h _ _

theorem bits_reg_setField {s : State} (h : s.RegsOk) (off : Nat) {hi lo : Nat} (v : Nat) (hlo : lo ≤ hi) (hhi : hi < 32) :
    bits (reg (setField off hi lo v s) off) hi lo = v % 2 ^ (hi - lo + 1) := by
  rw [reg_setField_same h, bits_setBits_same _ _ hlo hhi]

theorem reg_setField_ne {s : State} (h : s.RegsOk) {off o : Nat} (hi lo v : Nat) (hne : o ≠ off) : reg (setField off hi lo v s) o = reg s o :=
  reg_setReg_ne h _ hne

end Sys2Proof.Machine
end

section
/-!
SUPPORT. O6: the commands that leave every register with settings as it was (R12 to R14).
-/
namespace Sys2Proof.Machine

/-- An operation whose parts leave out the settings keeps them (R12 to R14). -/
theorem Changes.keepsSettings {W : List Part} {s t : State} (h : Changes W s t) (hW : Part.setup ∉ W := by decide) :
    Part.same s t .setup := h.same .setup hW

/-- A command outside the list of those that may write settings changes no settings: each row's own law lists what it changes. -/
theorem exec_keepsSettings {c : Instr} {s t : State} (hc : mayWriteSettings c = false) (e : exec c s = .next t) :
    Part.same s t .setup := by
  cases c with
  | regRead => exact (execRegRead_changes (e := e)).keepsSettings
  | keyLoad => exact (execKeyLoad_changes (e := e)).keepsSettings
  | keyClear => exact (execKeyClear_changes (e := e)).keepsSettings
  | keyRead => exact (execKeyRead_changes (e := e)).keepsSettings
  | secZeroise => exact (execSecZeroise_changes (e := e)).keepsSettings
  | tblRead => exact (execTblRead_changes (e := e)).keepsSettings
  | tblFind => exact (execTblFind_changes (e := e)).keepsSettings
  | tblDump => exact (execTblDump_changes (e := e)).keepsSettings
  | tblWrite => exact (execTblWrite_changes (e := e)).keepsSettings
  | tblProvision => exact (execTblProvision_changes (e := e)).keepsSettings
  | tblKeyStage => exact (execTblKeyStage_changes (e := e)).keepsSettings
  | tblRetire => exact (execTblRetire_changes (e := e)).keepsSettings
  | tblSet => exact (execTblSet_changes (e := e)).keepsSettings
  | keySignerLoad => exact (execKeySignerLoad_changes (e := e)).keepsSettings
  | ruleLoad => exact (execRuleLoad_changes (e := e)).keepsSettings
  | ruleActivate => exact (execRuleActivate_changes (e := e)).keepsSettings
  | ruleRemove => exact (execRuleRemove_changes (e := e)).keepsSettings
  | ruleRead => exact (execRuleRead_changes (e := e)).keepsSettings
  | activationMarkPass => exact (execActivationMarkPass_changes (e := e)).keepsSettings
  | topoLoad => exact (execTopoLoad_changes (e := e)).keepsSettings
  | topoActivate => exact (execTopoActivate_changes (e := e)).keepsSettings
  | topoRead => exact (execTopoRead_changes (e := e)).keepsSettings
  | balNodeRead => exact (execBalNodeRead_changes (e := e)).keepsSettings
  | balMeterRead => exact (execBalMeterRead_changes (e := e)).keepsSettings
  | balResetScores => exact (execBalResetScores_changes (e := e)).keepsSettings
  | campCreate => exact (execCampCreate_changes (e := e)).keepsSettings
  | campData => exact (execCampData_changes (e := e)).keepsSettings
  | campSeal => exact (execCampSeal_changes (e := e)).keepsSettings
  | campAddMembers => exact (execCampAddMembers_changes (e := e)).keepsSettings
  | campRemoveMembers => exact (execCampRemoveMembers_changes (e := e)).keepsSettings
  | campStart => exact (execCampStart_changes (e := e)).keepsSettings
  | campPause => exact (execCampPause_changes (e := e)).keepsSettings
  | campCancel => exact (execCampCancel_changes (e := e)).keepsSettings
  | campClose => exact (execCampClose_changes (e := e)).keepsSettings
  | campActivate => exact (execCampActivate_changes (e := e)).keepsSettings
  | campRollback => exact (execCampRollback_changes (e := e)).keepsSettings
  | campRead => exact (execCampRead_changes (e := e)).keepsSettings
  | campMemberRead => exact (execCampMemberRead_changes (e := e)).keepsSettings
  | plcGmkRotate => exact (execPlcGmkRotate_changes (e := e)).keepsSettings
  | plcKick => exact (execPlcKick_changes (e := e)).keepsSettings
  | rfKeyRotate => exact (execRfKeyRotate_changes (e := e)).keepsSettings
  | timStep => exact (execTimStep_changes (e := e)).keepsSettings
  | pairRead => exact (execPairRead_changes (e := e)).keepsSettings
  | pairSwap => exact (execPairSwap_changes (e := e)).keepsSettings
  | pairClear => exact (execPairClear_changes (e := e)).keepsSettings
  | archInfo => exact (execArchInfo_changes (e := e)).keepsSettings
  | archRead => exact (execArchRead_changes (e := e)).keepsSettings
  | archFindTime => exact (execArchFindTime_changes (e := e)).keepsSettings
  | archTrim => exact (execArchTrim_changes (e := e)).keepsSettings
  | archOvfRead => exact (execArchOvfRead_changes (e := e)).keepsSettings
  | archOvfRelease => exact (execArchOvfRelease_changes (e := e)).keepsSettings
  | archHostWrite => exact (execArchHostWrite_changes (e := e)).keepsSettings
  | archHostRead => exact (execArchHostRead_changes (e := e)).keepsSettings
  | archFormat => exact (execArchFormat_changes (e := e)).keepsSettings
  | evtRead => exact (execEvtRead_changes (e := e)).keepsSettings
  | evtClear => exact (execEvtClear_changes (e := e)).keepsSettings
  | monRead => exact (execMonRead_changes (e := e)).keepsSettings
  | monReset => exact (execMonReset_changes (e := e)).keepsSettings
  | qRead => exact (execQRead_changes (e := e)).keepsSettings
  | timNowNsRead => exact (execTimNowNsRead_changes (e := e)).keepsSettings
  | seqPairLoRead => exact (execSeqPairLoRead_changes (e := e)).keepsSettings
  | meaPqSecondRead => exact (execMeaPqSecondRead_changes (e := e)).keepsSettings
  | profileClusterSwitch => exact (execProfileClusterSwitch_changes (e := e)).keepsSettings
  | bucketRedistribute => exact (execBucketRedistribute_changes (e := e)).keepsSettings
  | installComplete => exact (execInstallComplete_changes (e := e)).keepsSettings
  | autoConfirmExpiry => exact (execAutoConfirmExpiry_changes (e := e)).keepsSettings
  | dozeIdleGate => exact (execDozeIdleGate_changes (e := e)).keepsSettings
  | msixCoalesceExpiry => exact (execMsixCoalesceExpiry_changes (e := e)).keepsSettings
  | msixUnmask => exact (execMsixUnmask_changes (e := e)).keepsSettings
  | islandClockStable => exact (execIslandClockStable_changes (e := e)).keepsSettings
  | islandLockLoss => exact (execIslandLockLoss_changes (e := e)).keepsSettings
  | eccCorrected => exact (execEccCorrected_changes (e := e)).keepsSettings
  | idleItemWrite => exact (execIdleItemWrite_changes (e := e)).keepsSettings
  | readingDispatch => exact (execReadingDispatch_changes (e := e)).keepsSettings
  | readingVerify => exact (execReadingVerify_changes (e := e)).keepsSettings
  | readingPosting => exact (execReadingPosting_changes (e := e)).keepsSettings
  | tokenReturn => exact (execTokenReturn_changes (e := e)).keepsSettings
  | sessionExpiry => exact (execSessionExpiry_changes (e := e)).keepsSettings
  | pollIssue => exact (execPollIssue_changes (e := e)).keepsSettings
  | fetchRetry => exact (execFetchRetry_changes (e := e)).keepsSettings
  | moveReleaseQueue => exact (execMoveReleaseQueue_changes (e := e)).keepsSettings
  | retireHoldExpiry => exact (execRetireHoldExpiry_changes (e := e)).keepsSettings
  | ageCheck => exact (execAgeCheck_changes (e := e)).keepsSettings
  | copyComplete => exact (execCopyComplete_changes (e := e)).keepsSettings
  | balanceIntervalClose => exact (execBalanceIntervalClose_changes (e := e)).keepsSettings
  | balanceRun => exact (execBalanceRun_changes (e := e)).keepsSettings
  | balanceReportPost => exact (execBalanceReportPost_changes (e := e)).keepsSettings
  | campaignFrameSend => exact (execCampaignFrameSend_changes (e := e)).keepsSettings
  | repairRound => exact (execRepairRound_changes (e := e)).keepsSettings
  | activationBroadcast => exact (execActivationBroadcast_changes (e := e)).keepsSettings
  | actTimeLateExpiry => exact (execActTimeLateExpiry_changes (e := e)).keepsSettings
  | campaignCheckpoint => exact (execCampaignCheckpoint_changes (e := e)).keepsSettings
  | plcFrameRx => exact (execPlcFrameRx_changes (e := e)).keepsSettings
  | plcAckTimeout => exact (execPlcAckTimeout_changes (e := e)).keepsSettings
  | routeTtlExpiry => exact (execRouteTtlExpiry_changes (e := e)).keepsSettings
  | routeWaitExpiry => exact (execRouteWaitExpiry_changes (e := e)).keepsSettings
  | reassemblyTimeout => exact (execReassemblyTimeout_changes (e := e)).keepsSettings
  | shortHoldExpiry => exact (execShortHoldExpiry_changes (e := e)).keepsSettings
  | zcReportSend => exact (execZcReportSend_changes (e := e)).keepsSettings
  | fpReportSend => exact (execFpReportSend_changes (e := e)).keepsSettings
  | zcEdge => exact (execZcEdge_changes (e := e)).keepsSettings
  | zcLost => exact (execZcLost_changes (e := e)).keepsSettings
  | ldFaultFall => exact (execLdFaultFall_changes (e := e)).keepsSettings
  | ldFaultResume => exact (execLdFaultResume_changes (e := e)).keepsSettings
  | rfTimeslot => exact (execRfTimeslot_changes (e := e)).keepsSettings
  | rfFrameRx => exact (execRfFrameRx_changes (e := e)).keepsSettings
  | rfScan => exact (execRfScan_changes (e := e)).keepsSettings
  | sleepyQueueExpiry => exact (execSleepyQueueExpiry_changes (e := e)).keepsSettings
  | ethFrameRx => exact (execEthFrameRx_changes (e := e)).keepsSettings
  | ethLinkUp => exact (execEthLinkUp_changes (e := e)).keepsSettings
  | ethLinkDown => exact (execEthLinkDown_changes (e := e)).keepsSettings
  | txBufferWaitExpiry => exact (execTxBufferWaitExpiry_changes (e := e)).keepsSettings
  | lldpSend => exact (execLldpSend_changes (e := e)).keepsSettings
  | lpiIdleEntry => exact (execLpiIdleEntry_changes (e := e)).keepsSettings
  | relayFrameRx => exact (execRelayFrameRx_changes (e := e)).keepsSettings
  | relayPauseHoldExpiry => exact (execRelayPauseHoldExpiry_changes (e := e)).keepsSettings
  | relayBatchClose => exact (execRelayBatchClose_changes (e := e)).keepsSettings
  | relayAckTimeout => exact (execRelayAckTimeout_changes (e := e)).keepsSettings
  | relayBatchAck => exact (execRelayBatchAck_changes (e := e)).keepsSettings
  | spoolDrain => exact (execSpoolDrain_changes (e := e)).keepsSettings
  | ptpMessageRx => exact (execPtpMessageRx_changes (e := e)).keepsSettings
  | ptpMessageSend => exact (execPtpMessageSend_changes (e := e)).keepsSettings
  | sourceTimeout => exact (execSourceTimeout_changes (e := e)).keepsSettings
  | timeWord => exact (execTimeWord_changes (e := e)).keepsSettings
  | timeWordLoss => exact (execTimeWordLoss_changes (e := e)).keepsSettings
  | rtcWrite => exact (execRtcWrite_changes (e := e)).keepsSettings
  | leapSecond => exact (execLeapSecond_changes (e := e)).keepsSettings
  | heartbeatSend => exact (execHeartbeatSend_changes (e := e)).keepsSettings
  | actInQuiet => exact (execActInQuiet_changes (e := e)).keepsSettings
  | actInEdge => exact (execActInEdge_changes (e := e)).keepsSettings
  | claimFlashWritten => exact (execClaimFlashWritten_changes (e := e)).keepsSettings
  | pairWatchdogExpiry => exact (execPairWatchdogExpiry_changes (e := e)).keepsSettings
  | seekWaitExpiry => exact (execSeekWaitExpiry_changes (e := e)).keepsSettings
  | fencedExpiry => exact (execFencedExpiry_changes (e := e)).keepsSettings
  | journalBatchClose => exact (execJournalBatchClose_changes (e := e)).keepsSettings
  | swapHandover => exact (execSwapHandover_changes (e := e)).keepsSettings
  | swapDrainExpiry => exact (execSwapDrainExpiry_changes (e := e)).keepsSettings
  | scheduledSwapDue => exact (execScheduledSwapDue_changes (e := e)).keepsSettings
  | proofExpiry => exact (execProofExpiry_changes (e := e)).keepsSettings
  | meaSecondEnd => exact (execMeaSecondEnd_changes (e := e)).keepsSettings
  | meaMinuteEnd => exact (execMeaMinuteEnd_changes (e := e)).keepsSettings
  | meaHalfCycleRms => exact (execMeaHalfCycleRms_changes (e := e)).keepsSettings
  | modulePresenceHigh => exact (execModulePresenceHigh_changes (e := e)).keepsSettings
  | modulePresenceDebounce => exact (execModulePresenceDebounce_changes (e := e)).keepsSettings
  | eventAccept => exact (execEventAccept_changes (e := e)).keepsSettings
  | eventArchiveWrite => exact (execEventArchiveWrite_changes (e := e)).keepsSettings
  | evtBucketRefill => exact (execEvtBucketRefill_changes (e := e)).keepsSettings
  | rateWindowBoundary => exact (execRateWindowBoundary_changes (e := e)).keepsSettings
  | monSample => exact (execMonSample_changes (e := e)).keepsSettings
  | archiveFlushExpiry => exact (execArchiveFlushExpiry_changes (e := e)).keepsSettings
  | pageProgramComplete => exact (execPageProgramComplete_changes (e := e)).keepsSettings
  | programEraseFail => exact (execProgramEraseFail_changes (e := e)).keepsSettings
  | blockCollection => exact (execBlockCollection_changes (e := e)).keepsSettings
  | wearLevelMove => exact (execWearLevelMove_changes (e := e)).keepsSettings
  | thermalAgeTick => exact (execThermalAgeTick_changes (e := e)).keepsSettings
  | retentionScan => exact (execRetentionScan_changes (e := e)).keepsSettings
  | archiveMount => exact (execArchiveMount_changes (e := e)).keepsSettings
  | overflowWriteback => exact (execOverflowWriteback_changes (e := e)).keepsSettings
  | tamperFall => exact (execTamperFall_changes (e := e)).keepsSettings
  | wakePinFall => exact (execWakePinFall_changes (e := e)).keepsSettings
  | bkpAlarm => exact (execBkpAlarm_changes (e := e)).keepsSettings
  | vbatLow => exact (execVbatLow_changes (e := e)).keepsSettings
  | bkpSecondTick => exact (execBkpSecondTick_changes (e := e)).keepsSettings
  | pcieLinkUp => exact (execPcieLinkUp_changes (e := e)).keepsSettings
  | ldFaultPinRise => exact (execLdFaultPinRise_changes (e := e)).keepsSettings
  | modulePresenceLow => exact (execModulePresenceLow_changes (e := e)).keepsSettings
  | archFormatComplete => exact (execArchFormatComplete_changes (e := e)).keepsSettings
  | partnerEeeTlvExpiry => exact (execPartnerEeeTlvExpiry_changes (e := e)).keepsSettings
  | _ => cases hc

/-- Settles O6: no command outside the list changes the part of the state that holds the settings. -/
theorem settingsStand : Obligations.SettingsStand := by
  unfold Obligations.SettingsStand
  intro c s t hs hc e off ho
  exact exec_keepsSettings hc e hs off ho

end Sys2Proof.Machine
end

section
/-!
SUPPORT. O10: the register map is well formed, and what a masked write leaves in each field (R11, R12).
-/
namespace Sys2Proof.Machine

/-! ## The register map is well formed (R11, R12) -/

/-- Does a field of `n` bits hold whatever its range rule stores? -/
def RangeRule.fits (n : Nat) : RangeRule → Bool
  | .clamp lo hi => decide (lo < 2 ^ n) && decide (hi < 2 ^ n)
  | .code _ d | .zeroTo d => decide (d < 2 ^ n)
  | .ring => decide (255 < 2 ^ n)
  | .full | .keep _ | .divisor | .dep => true

/-- A field lies within the word and holds what its rule stores. -/
def Fld.fits (f : Fld) : Bool := decide (f.lo ≤ f.hi) && decide (f.hi < 32) && f.rule.fits (f.hi - f.lo + 1)

theorem Fld.fits_iff {f : Fld} : f.fits = true ↔ f.lo ≤ f.hi ∧ f.hi < 32 ∧ f.rule.fits (f.hi - f.lo + 1) = true := by
  simp only [Fld.fits, Bool.and_eq_true, decide_eq_true_eq, and_assoc]

/-- Do two fields share no bit? -/
def Fld.apart (f g : Fld) : Bool := decide (f.hi < g.lo) || decide (g.hi < f.lo)

theorem Fld.apart_iff {f g : Fld} : f.apart g = true ↔ f.hi < g.lo ∨ g.hi < f.lo := by
  simp only [Fld.apart, Bool.or_eq_true, decide_eq_true_eq]

/-- A register whose fields lie within the word, hold what they store, and share no bit. -/
def RegDef.formed (d : RegDef) : Bool := d.flds.all Fld.fits && decide (d.flds.Pairwise fun f g => f.apart g = true)

theorem RegDef.formed_iff {d : RegDef} :
    d.formed = true ↔ (∀ f ∈ d.flds, f.fits = true) ∧ d.flds.Pairwise fun f g => f.apart g = true := by
  simp only [RegDef.formed, Bool.and_eq_true, List.all_eq_true, decide_eq_true_eq]

theorem findReg_formed {l : List RegDef} {off : Nat} {d : RegDef} (hl : ∀ d ∈ l, d.formed = true) (h : findReg l off = some d) :
    d.formed = true := hl d (List.mem_of_find?_eq_some h)

theorem withCounters_formed {sv : Surv} {a b off : Nat} {l : List RegDef} {d : RegDef} (hl : ∀ d ∈ l, d.formed = true)
    (h : withCounters sv a b l off = some d) : d.formed = true := by
  unfold withCounters at h
  split at h
  · cases h; rfl
  · exact findReg_formed hl h

theorem ctlDef_formed {off : Nat} {d : RegDef} (h : ctlDef off = some d) : d.formed = true := by
  unfold ctlDef at h
  split at h
  · cases h; rfl
  split at h
  · cases h; rfl
  split at h
  · cases h; rfl
  split at h
  · cases h; rfl
  · exact findReg_formed (by decide) h

theorem bkpDef_formed {off : Nat} {d : RegDef} (h : bkpDef off = some d) : d.formed = true := by
  unfold bkpDef at h
  split at h
  · cases h; rfl
  split at h
  · cases h; rfl
  · exact findReg_formed (by decide) h

theorem flsDef_formed {off : Nat} {d : RegDef} (h : flsDef off = some d) : d.formed = true := by
  unfold flsDef at h
  split at h
  · cases h; rfl
  · exact withCounters_formed (by decide) h

theorem rfDef_formed {off : Nat} {d : RegDef} (h : rfDef off = some d) : d.formed = true := by
  unfold rfDef at h
  split at h
  · cases h; rfl
  · exact withCounters_formed (by decide) h

theorem plcDef_formed {off : Nat} {d : RegDef} (h : plcDef off = some d) : d.formed = true := by
  unfold plcDef at h
  split at h
  · cases h; rfl
  split at h
  · cases h; rfl
  · exact withCounters_formed (by decide) h

theorem ethDef_formed {off : Nat} {d : RegDef} (h : ethDef off = some d) : d.formed = true := by
  unfold ethDef at h
  split at h
  · dsimp only at h
    split at h <;> cases h <;> rfl
  split at h
  · cases h; rfl
  · exact findReg_formed (by decide) h

theorem pciDef_formed {off : Nat} {d : RegDef} (h : pciDef off = some d) : d.formed = true := by
  unfold pciDef at h
  split at h
  · split at h <;> cases h <;> rfl
  split at h
  · split at h <;> cases h <;> rfl
  · exact withCounters_formed (by decide) h

theorem meaDef_formed {off : Nat} {d : RegDef} (h : meaDef off = some d) : d.formed = true := by
  unfold meaDef at h
  split at h
  · cases h; rfl
  · exact withCounters_formed (by decide) h

theorem monDef_formed {off : Nat} {d : RegDef} (h : monDef off = some d) : d.formed = true := by
  unfold monDef at h
  split at h
  · cases h; rfl
  split at h
  · cases h; rfl
  split at h
  · split at h
    · split at h <;> cases h <;> rfl
    all_goals cases h; rfl
  split at h
  · cases h; rfl
  · cases h

/-- Every register of the map is well formed: by the block that its offset names (R535). -/
theorem regDef_formed {off : Nat} {d : RegDef} (h : regDef off = some d) : d.formed = true := by
  unfold regDef at h
  dsimp only at h
  split at h
  case h_1 => exact ctlDef_formed h
  case h_2 => exact bkpDef_formed h
  case h_5 => exact flsDef_formed h
  case h_6 | h_7 | h_8 | h_9 => exact plcDef_formed h
  case h_10 | h_11 => exact rfDef_formed h
  case h_12 | h_13 => exact ethDef_formed h
  case h_15 => exact pciDef_formed h
  case h_16 => exact meaDef_formed h
  case h_22 => exact monDef_formed h
  case h_25 => cases h
  all_goals exact withCounters_formed (by decide) h

/-! ## What a masked write leaves (R11, R12) -/

/-- What a rule stores fits the field. -/
theorem storeField_lt {r : RangeRule} {n old v : Nat} (hn : 0 < n) (hr : r.fits n = true) (ho : old < 2 ^ n) (hv : v < 2 ^ n) :
    storeField r old v < 2 ^ n := by
  have h1 : 1 < 2 ^ n := Nat.one_lt_two_pow (by omega)
  cases r with
  | full | dep => exact hv
  | clamp lo hi =>
    simp only [RangeRule.fits, Bool.and_eq_true, decide_eq_true_eq] at hr
    simp only [storeField, clampN]
    split
    · exact hr.1
    · split
      · exact hr.2
      · exact hv
  | code top d | zeroTo d =>
    simp only [RangeRule.fits, decide_eq_true_eq] at hr
    simp only [storeField]
    split <;> assumption
  | keep k =>
    simp only [storeField]
    split <;> assumption
  | ring =>
    simp only [RangeRule.fits, decide_eq_true_eq] at hr
    simp only [storeField]
    split <;> assumption
  | divisor =>
    simp only [storeField, List.getLastD_eq_getLast?]
    cases hl : ((List.range (min v 1440 + 1)).filter fun d => d ≠ 0 && 1440 % d = 0).getLast? with
    | none => exact h1
    | some x =>
      have hx := (List.mem_filter.mp (List.mem_of_getLast? hl)).1
      rw [List.mem_range] at hx
      simp only [Option.getD_some]
      omega

/-- What a write leaves in one field: as it was, cleared by ones, or the written value under the field's rule. -/
def fieldAfter (can : Acc → Bool) (mask v old : W32) (f : Fld) : Nat :=
  if fieldMask f &&& mask = 0 ∨ can f.acc = false ∨ f.acc = .ro ∨ f.acc = .wo then bits old f.hi f.lo
  else if f.acc = .w1c then bits (old &&& ~~~(v &&& mask)) f.hi f.lo
  else storeField f.rule (bits old f.hi f.lo) (bits (merged mask v old) f.hi f.lo)

/-- It depends on the field's own bits only. -/
theorem fieldAfter_congr (can : Acc → Bool) (mask v : W32) {w u : W32} {f : Fld} (hf : f.fits = true)
    (h : ∀ i, f.lo ≤ i → i ≤ f.hi → bit w i = bit u i) : fieldAfter can mask v w f = fieldAfter can mask v u f := by
  obtain ⟨hlo, -, -⟩ := Fld.fits_iff.mp hf
  have hmerged : bits (merged mask v w) f.hi f.lo = bits (merged mask v u) f.hi f.lo :=
    bits_congr hlo fun i h1 h2 => by rw [bit_merged, bit_merged, h i h1 h2]
  have hcleared : bits (w &&& ~~~(v &&& mask)) f.hi f.lo = bits (u &&& ~~~(v &&& mask)) f.hi f.lo :=
    bits_congr hlo fun i h1 h2 => by rw [bit_andNot, bit_andNot, h i h1 h2]
  simp only [fieldAfter, hmerged, hcleared, bits_congr hlo h]

/-- One field's write leaves the bits outside it. -/
theorem bit_storeOne_outside (can : Acc → Bool) (mask v w : W32) {f : Fld} (hf : f.fits = true) {i : Nat} (hi : i < f.lo ∨ f.hi < i) :
    bit (storeOne can mask v w f) i = bit w i := by
  obtain ⟨hlo, hhi, -⟩ := Fld.fits_iff.mp hf
  have hmask : bit (fieldMask f) i = false := (bit_rangeMask i hlo).trans (decide_eq_false (by omega))
  unfold storeOne
  dsimp only
  split
  · rfl
  · split
    · rfl
    · rfl
    · rw [bit_andNot, bit_and, hmask, Bool.and_false, Bool.not_false, Bool.and_true]
    · rw [bit_setBits w _ i hlo hhi, if_neg (by omega)]

/-- One field's write leaves in it what `fieldAfter` says. -/
theorem bits_storeOne_same (can : Acc → Bool) (mask v w : W32) {f : Fld} (hf : f.fits = true) :
    bits (storeOne can mask v w f) f.hi f.lo = fieldAfter can mask v w f := by
  obtain ⟨hlo, hhi, hr⟩ := Fld.fits_iff.mp hf
  have hset : bits (setBits w f.hi f.lo (storeField f.rule (bits w f.hi f.lo) (bits (merged mask v w) f.hi f.lo))) f.hi f.lo =
      storeField f.rule (bits w f.hi f.lo) (bits (merged mask v w) f.hi f.lo) := by
    rw [bits_setBits_same _ _ hlo hhi, Nat.mod_eq_of_lt (storeField_lt (by omega) hr (bits_lt ..) (bits_lt ..))]
  have hw1c : bits (w &&& ~~~(v &&& mask &&& fieldMask f)) f.hi f.lo = bits (w &&& ~~~(v &&& mask)) f.hi f.lo :=
    bits_congr hlo fun i h1 h2 => by
      have hmask : bit (fieldMask f) i = true := (bit_rangeMask i hlo).trans (decide_eq_true (by omega))
      rw [bit_andNot, bit_andNot, bit_and _ (fieldMask f), hmask, Bool.and_true]
  unfold storeOne fieldAfter
  by_cases hskip : fieldMask f &&& mask = 0 ∨ can f.acc = false
  · rw [if_pos (by simpa using hskip), if_pos (hskip.imp_right .inl)]
  · rw [if_neg (by simpa using hskip)]
    cases ha : f.acc with
    | ro | wo => rw [if_pos (by simp)]
    | w1c =>
      rw [ha] at hskip
      rw [if_neg (by simpa using hskip), if_pos rfl, hw1c]
    | rw | lk | au =>
      rw [ha] at hskip
      rw [if_neg (by simpa using hskip), if_neg (by simp), hset]

/-- Writes to fields leave the bits outside all of them. -/
theorem bit_storeAll_outside (can : Acc → Bool) (mask v : W32) {l : List Fld} {i : Nat} (w : W32) (hl : ∀ f ∈ l, f.fits = true)
    (hi : ∀ f ∈ l, i < f.lo ∨ f.hi < i) : bit (l.foldl (storeOne can mask v) w) i = bit w i := by
  induction l generalizing w with
  | nil => rfl
  | cons g l ih =>
    rw [List.forall_mem_cons] at hl hi
    rw [List.foldl_cons, ih _ hl.2 hi.2, bit_storeOne_outside can mask v w hl.1 hi.1]

/-- Writes to fields that share no bit leave each as its own write does. -/
theorem bits_storeAll (can : Acc → Bool) (mask v : W32) {l : List Fld} (w : W32) (hl : ∀ f ∈ l, f.fits = true)
    (hp : l.Pairwise fun f g => f.apart g = true) {f : Fld} (hf : f ∈ l) :
    bits (l.foldl (storeOne can mask v) w) f.hi f.lo = fieldAfter can mask v w f := by
  induction l generalizing w with
  | nil => cases hf
  | cons g l ih =>
    obtain ⟨hg, hrest⟩ := List.forall_mem_cons.mp hl
    obtain ⟨hgap, hprest⟩ := List.pairwise_cons.mp hp
    rw [List.foldl_cons]
    rcases List.mem_cons.mp hf with rfl | hf
    · rw [← bits_storeOne_same can mask v w hg]
      exact bits_congr (Fld.fits_iff.mp hg).1 fun i h1 h2 => bit_storeAll_outside can mask v _ hrest fun k hk => by
        have := Fld.apart_iff.mp (hgap k hk); omega
    · rw [ih _ hrest hprest hf]
      exact fieldAfter_congr can mask v (hrest f hf) fun i h1 h2 => bit_storeOne_outside can mask v w hg (by
        have := Fld.apart_iff.mp (hgap f hf); omega)

/-- Settles O10: the fields of every mapped register share no bit, so each is left as its own write leaves it. -/
theorem accessClasses : Obligations.AccessClasses := by
  unfold Obligations.AccessClasses
  intro off d hd can mask v old
  obtain ⟨hfits, hapart⟩ := RegDef.formed_iff.mp (regDef_formed hd)
  exact ⟨fun f hf => bits_storeAll can mask v old hfits hapart hf, fun i hi => bit_storeAll_outside can mask v old hfits hi⟩

end Sys2Proof.Machine
end

section
/-!
SUPPORT. O11: a plain write over BAR0 to a register that only stores (R11 to R13, R538, R571).
-/
namespace Sys2Proof.Machine

/-! ## Nothing that waits may go on (R78, R237, R275, R497) -/

/-- A fold whose every step leaves a state leaves it. -/
theorem foldl_eq_of_fixed {σ α : Type} {f : σ → α → σ} {s : σ} : ∀ {l : List α}, (∀ x ∈ l, f s x = s) → l.foldl f s = s
  | [], _ => rfl
  | x :: l, h => by
    rw [List.forall_mem_cons] at h
    rw [List.foldl_cons, h.1, foldl_eq_of_fixed h.2]

/-- Every route request of a quiet power-line block has been sent, so no discovery runs. -/
theorem plcDiscoverRun_of_sent {s : State} {n : Nat} (h : ∀ d ∈ (plcOf s n).discover, d.sent = true) : plcDiscoverRun n s = s := by
  unfold plcDiscoverRun
  exact foldl_eq_of_fixed fun d hd => if_pos (by simp [h d hd])

/-- No acknowledgement of a quiet transceiver is due. -/
theorem rfAcksDue_of_early {s : State} {n : Nat} (h : ∀ a ∈ (rfOf s n).acks, s.tim.raw < a.at_ + 1000000) : rfAcksDue n s = s := by
  unfold rfAcksDue
  refine if_neg ?_
  simp only [List.any_eq_true, decide_eq_true_eq, not_exists, not_and, Nat.not_le]
  exact h

/-- In a quiet state nothing goes on. -/
theorem settleAll_of_quiet {s : State} (h : s.quiet) : settleAll s = s := by
  obtain ⟨hstalled, hfenced, hdelayed, hclears, hlate, hplc, hrf⟩ := h
  have hdrain : drainDelayed s = s := if_pos (by simp [hdelayed])
  have hruns : runLate s = s := by unfold runLate; rw [hlate, List.foldl_nil, ← hlate]
  have hbusy : runStalled s = s := by unfold runStalled; rw [hstalled, List.foldl_nil, ← hstalled]
  have hfence : runFenced s = s := by unfold runFenced; rw [hfenced, List.foldl_nil]
  have hsettle : settleClears s = s := by
    have hset : setEvt (fun v => { v with clears := [] }) s = s := by unfold setEvt; rw [← hclears]
    unfold settleClears
    rw [hset, hclears, List.foldl_nil, ite_self]
  have hdiscover : discoverAll s = s := by
    simp only [discoverAll, List.foldl_cons, List.foldl_nil]
    rw [plcDiscoverRun_of_sent (hplc 0 (by decide)), plcDiscoverRun_of_sent (hplc 1 (by decide)), plcDiscoverRun_of_sent (hplc 2 (by decide)),
      plcDiscoverRun_of_sent (hplc 3 (by decide))]
  have hacks : acksAll s = s := by
    unfold acksAll
    rw [rfAcksDue_of_early (hrf 0 (by decide)), rfAcksDue_of_early (hrf 1 (by decide))]
  unfold settleAll
  rw [hdrain, hruns, hbusy, hfence, hsettle, hdiscover, hacks]

/-- What does not touch the things that wait keeps a state quiet. -/
theorem quiet_of_changes {s t : State} (h : Changes [.regs, .setup, .host, .evt, .out] s t) (hfenced : t.host.fenced = s.host.fenced)
    (hclears : t.evt.clears = s.evt.clears) (hq : s.quiet) : t.quiet := by
  have hstalled : t.stalled = s.stalled := h.same .stalled (by decide)
  have hjr : t.jr = s.jr := h.same .jr (by decide)
  have htable : t.table = s.table := h.same .table (by decide)
  have hplc : t.plc = s.plc := h.same .plc (by decide)
  have hrf : t.rf = s.rf := h.same .rf (by decide)
  have htim : t.tim = s.tim := h.same .tim (by decide)
  have hp : ∀ n, plcOf t n = plcOf s n := fun n => by unfold plcOf; rw [hplc]
  have hr : ∀ n, rfOf t n = rfOf s n := fun n => by unfold rfOf; rw [hrf]
  unfold State.quiet at hq ⊢
  simpa only [hstalled, hfenced, hjr, hclears, htable, hp, hr, htim] using hq

/-! ## Notices and events (R490, R543) -/

@[simp] theorem msix_fenced (v : Nat) (s : State) : (msix v s).host.fenced = s.host.fenced := by
  unfold msix
  split
  · rfl
  · split
    · rfl
    · split <;> rfl

@[simp] theorem notice_fenced (b : Nat) (s : State) : (notice b s).host.fenced = s.host.fenced := by
  unfold notice
  dsimp only
  split
  · rw [msix_fenced]; rfl
  · rfl

theorem notice_regs (b : Nat) (s : State) : (notice b s).regs = (setField 0x20 b b 1 s).regs := by
  unfold notice
  dsimp only
  split
  · exact msix_regs ..
  · rfl

/-- A notice sets its pending bit. -/
theorem bit_notice {s : State} (h : s.RegsOk) {b : Nat} (hb : b < 32) : bit (reg (notice b s) 0x20) b = true := by
  rw [reg_congr (notice_regs b s), reg_setField_same h, bit_setBits _ _ _ (Nat.le_refl b) hb, if_pos ⟨Nat.le_refl b, Nat.le_refl b⟩, Nat.sub_self]
  rfl

theorem reg_notice_ne {s : State} (h : s.RegsOk) (b : Nat) {o : Nat} (ho : o ≠ 0x20) : reg (notice b s) o = reg s o := by
  rw [reg_congr (notice_regs b s), reg_setField_ne h _ _ _ ho]

/-- The event of a refused value is raised after those that stand. -/
theorem keepEvent_eq (off : Nat) (s : State) : ∃ isl code, keepEvent off s = event isl code 0 [] s := by
  unfold keepEvent
  dsimp only
  split
  · exact ⟨_, _, rfl⟩
  · split
    · exact ⟨_, _, rfl⟩
    · split <;> exact ⟨_, _, rfl⟩

/-! ## A write that would change what it may not (R13) -/

/-- A write would change only fields of a class the register has. -/
theorem wouldChange_class {c : Acc} {d : RegDef} {off : Nat} {v : W32} {s : State} (h : wouldChange c d off v s = true) :
    ∃ f ∈ d.flds, f.acc = c := by
  unfold wouldChange at h
  simp only [List.any_eq_true, Bool.and_eq_true, beq_iff_eq] at h
  obtain ⟨f, hf, hc, -⟩ := h
  exact ⟨f, hf, hc⟩

/-- Is the write one that R13 counts and records? -/
def deniedWrite (d : RegDef) (off : Nat) (v : W32) (s : State) : Bool :=
  wouldChange .au d off v s || (locked s && wouldChange .lk d off v s)

theorem isSetup_of_denied {d : RegDef} {off : Nat} {v : W32} {s : State} (hd : regDef off = some d) (h : deniedWrite d off v s = true) :
    isSetup off = true := by
  have hacc : ∃ f ∈ d.flds, f.acc = .lk ∨ f.acc = .au := by
    simp only [deniedWrite, Bool.or_eq_true, Bool.and_eq_true] at h
    rcases h with h | ⟨-, h⟩
    · obtain ⟨f, hf, hc⟩ := wouldChange_class h
      exact ⟨f, hf, .inr hc⟩
    · obtain ⟨f, hf, hc⟩ := wouldChange_class h
      exact ⟨f, hf, .inl hc⟩
  unfold isSetup
  rw [hd]
  simpa using hacc

/-- The event of such a write: DATA names the register, bit 31 an AU field (log entry 109). -/
def deniedData (d : RegDef) (off : Nat) (v : W32) (s : State) : Nat := b2n (wouldChange .au d off v s) * 2 ^ 31 + off % 2 ^ 20

theorem lockedWrite_denied {d : RegDef} {off : Nat} {v : W32} {s : State} (h : deniedWrite d off v s = true) :
    lockedWrite d off v s = notice 6 (event 1 0x05 (deniedData d off v s) [] (count 0x4C s)) := if_pos h

theorem lockedWrite_allowed {d : RegDef} {off : Nat} {v : W32} {s : State} (h : deniedWrite d off v s = false) :
    lockedWrite d off v s = s := if_neg (by simpa [deniedWrite] using h)

/-- What R13 does to the state leaves every register but the notice word and the count, and the written one too. -/
theorem reg_lockedWrite {d : RegDef} {off o : Nat} (v : W32) {s : State} (h : s.RegsOk) (hd : regDef off = some d)
    (ho : o = off ∨ o ≠ 0x20 ∧ o ≠ 0x4C) : reg (lockedWrite d off v s) o = reg s o := by
  cases hden : deniedWrite d off v s with
  | false => rw [lockedWrite_allowed hden]
  | true =>
    have hset := isSetup_of_denied hd hden
    have hne : o ≠ 0x20 ∧ o ≠ 0x4C := by
      rcases ho with rfl | ho
      · constructor <;> (rintro rfl; revert hset; decide)
      · exact ho
    have hok : (event 1 0x05 (deniedData d off v s) [] (count 0x4C s)).RegsOk := RegsOk_setReg h _ _
    rw [lockedWrite_denied hden, reg_notice_ne hok _ hne.1]
    exact reg_count_ne h hne.2

/-- The state in which a plain write stores: what R13 counts and the event of a refused value are done (R13, R573). -/
def noted (d : RegDef) (off : Nat) (v : W32) (s : State) : State :=
  let u := lockedWrite d off v s
  if refusedValue (plainCan u) d (BitVec.allOnes 32) v (heldWord u off) then keepEvent off u else u

theorem noted_cases (d : RegDef) (off : Nat) (v : W32) (s : State) :
    noted d off v s = lockedWrite d off v s ∨ ∃ isl code, noted d off v s = event isl code 0 [] (lockedWrite d off v s) := by
  unfold noted
  dsimp only
  split
  · exact .inr (keepEvent_eq ..)
  · exact .inl rfl

theorem noted_changes (d : RegDef) (off : Nat) (v : W32) (s : State) : Changes [.regs, .host, .evt, .out] s (noted d off v s) := by
  rcases noted_cases d off v s with e | ⟨isl, code, e⟩ <;> rw [e]
  · exact lockedWrite_changes ..
  · exact .step (event_changes ..) (lockedWrite_changes ..) rfl

theorem noted_regs (d : RegDef) (off : Nat) (v : W32) (s : State) : (noted d off v s).regs = (lockedWrite d off v s).regs := by
  rcases noted_cases d off v s with e | ⟨isl, code, e⟩ <;> rw [e]
  exact event_regs ..

theorem noted_fenced (d : RegDef) (off : Nat) (v : W32) (s : State) : (noted d off v s).host.fenced = s.host.fenced := by
  have hlocked : (lockedWrite d off v s).host.fenced = s.host.fenced := by
    unfold lockedWrite
    dsimp only
    split
    · rw [notice_fenced]; rfl
    · rfl
  rcases noted_cases d off v s with e | ⟨isl, code, e⟩ <;> rw [e]
  · exact hlocked
  · rw [event_host, hlocked]

theorem noted_clears (d : RegDef) (off : Nat) (v : W32) (s : State) : (noted d off v s).evt.clears = s.evt.clears := by
  have hlocked : (lockedWrite d off v s).evt.clears = s.evt.clears := by
    unfold lockedWrite
    dsimp only
    split
    · rw [notice_evt]; rfl
    · rfl
  rcases noted_cases d off v s with e | ⟨isl, code, e⟩ <;> rw [e]
  · exact hlocked
  · exact hlocked

/-! ## What a plain write stores (R11, R12, R571) -/

theorem plainCan_congr {s t : State} (hlock : reg t 0x10 = reg s 0x10) : plainCan t = plainCan s := by
  funext a
  unfold plainCan locked
  rw [hlock]

/-- The new word depends on what the register holds and on the register that bounds PRL_PROVE. -/
theorem newWord_congr {s t : State} {can : Acc → Bool} {d : RegDef} {off : Nat} {mask v : W32} (hc : t.clusters = s.clusters)
    (hb : t.boot = s.boot) (hown : reg t off = reg s off) (hbound : reg t 0xD00C = reg s 0xD00C) :
    newWord can d off mask v t = newWord can d off mask v s := by
  have hheld : heldWord t off = heldWord s off := by unfold heldWord; rw [hc, hb, hown]
  unfold newWord fixWord fieldOf
  rw [hheld, hbound]

theorem newWord_noted {s : State} {d : RegDef} {off : Nat} (can : Acc → Bool) (mask v : W32) (h : s.RegsOk) (hd : regDef off = some d) :
    newWord can d off mask v (noted d off v s) = newWord can d off mask v s := by
  have hch := noted_changes d off v s
  have hreg : ∀ o, o = off ∨ o ≠ 0x20 ∧ o ≠ 0x4C → reg (noted d off v s) o = reg s o := fun o ho => by
    rw [reg_congr (noted_regs d off v s), reg_lockedWrite v h hd ho]
  exact newWord_congr (hch.same .clusters (by decide)) (hch.same .boot (by decide)) (hreg off (.inl rfl)) (hreg _ (.inr (by decide)))

/-- The written register holds the new word, without the fields that only act. -/
theorem reg_putWord_same {s : State} (h : s.RegsOk) (off : Nat) (w : W32) : reg (putWord off w s) off = clearActs off w := by
  unfold putWord
  dsimp only
  split
  · rw [reg_setReg_ne (RegsOk_setReg h _ _) _ (by omega), reg_setReg_same h]
  · exact reg_setReg_same h _ _

/-- Beside it only PRL_PROVE follows. -/
theorem reg_putWord_ne {s : State} (h : s.RegsOk) {off o : Nat} (w : W32) (ho : o ≠ off) (hp : o ≠ 0xD010) :
    reg (putWord off w s) o = reg s o := by
  unfold putWord
  dsimp only
  split
  · rw [reg_setReg_ne (RegsOk_setReg h _ _) _ hp, reg_setReg_ne h _ ho]
  · exact reg_setReg_ne h _ ho

/-- Is a write of the register no more than a store? -/
def storesOnly (off : Nat) : Prop :=
  enIsland off = none ∧ off ∉ [0x24, 0x900, 0x4000, 0x15000, 0xE000] ∧ ∀ n < 32, off ≠ sqCfg n ∧ off ≠ cqCfg n

theorem afterWrite_storesOnly {off : Nat} (h : storesOnly off) (old new v : W32) (s : State) : afterWrite off old new v s = s := by
  obtain ⟨hen, hact, hring⟩ := h
  simp only [List.mem_cons, List.not_mem_nil, or_false, not_or] at hact
  obtain ⟨h1, h2, h3, h4, h5⟩ := hact
  have hsq : ¬ (0xE100 ≤ off ∧ off < 0xE300 ∧ off % 16 = 8) := fun ⟨ha, hb, hc⟩ =>
    (hring ((off - 0xE108) / 16) (by omega)).1 (by unfold sqCfg; omega)
  have hcq : ¬ (0xE300 ≤ off ∧ off < 0xE500 ∧ off % 16 = 8) := fun ⟨ha, hb, hc⟩ =>
    (hring ((off - 0xE308) / 16) (by omega)).2 (by unfold cqCfg; omega)
  unfold afterWrite
  rw [if_neg h1, if_neg h2, if_neg h4, if_neg h3, if_neg h5, if_neg (by simpa [and_assoc] using hsq), if_neg (by simpa [and_assoc] using hcq), hen]

/-- A plain write that BAR0 lets through, to a register that only stores and is not frozen. -/
theorem barWrite_storesOnly {off : Nat} {v : W32} {s : State} {d : RegDef} (h : s.RegsOk) (hbar : s.barReaches off)
    (hd : regDef off = some d) (hfrozen : frozenMask s off = 0) (hst : storesOnly off) :
    barWrite off v true s = putWord off (newWord (plainCan s) d off (BitVec.allOnes 32) v s) (noted d off v s) := by
  obtain ⟨hopen, hmode, hotp, hdown⟩ := hbar
  have hwrite : barWrite off v true s = plainWrite d off v s := by
    unfold barWrite
    rcases hmode with hm | hm <;> simp [hopen, hm, hotp, hdown, hd]
  have hv : (v &&& ~~~(0 : W32)) ||| (reg s off &&& 0) = v := by
    simp only [BitVec.ofNat_eq_ofNat, BitVec.not_zero, BitVec.and_allOnes, BitVec.and_zero, BitVec.or_zero]
  have hcan : plainCan (lockedWrite d off v s) = plainCan s := plainCan_congr (reg_lockedWrite v h hd (.inr (by decide)))
  have hcounts : refusesWrite s off v = false := by
    unfold refusesWrite
    rw [hfrozen]
    simp
  rw [hwrite]
  unfold plainWrite
  simp only [hcounts, Bool.false_eq_true, ↓reduceIte, hfrozen, hv, afterWrite_storesOnly hst]
  change putWord off (newWord (plainCan (lockedWrite d off v s)) d off (BitVec.allOnes 32) v (noted d off v s)) (noted d off v s) = _
  rw [hcan, newWord_noted _ _ _ h hd]

/-- Such a write in a quiet state is the whole step. -/
theorem registerWrite_storesOnly {off : Nat} {v : W32} {s : State} {d : RegDef} (h : s.RegsOk) (hbar : s.barReaches off) (hq : s.quiet)
    (hd : regDef off = some d) (hfrozen : frozenMask s off = 0) (hst : storesOnly off) :
    exec (.registerWrite off v true) s = .next (putWord off (newWord (plainCan s) d off (BitVec.allOnes 32) v s) (noted d off v s)) := by
  have hput := fun w => putWord_changes off w (noted d off v s)
  have hquiet : ∀ w, (putWord off w (noted d off v s)).quiet := fun w =>
    quiet_of_changes (.step (hput w) ((noted_changes d off v s).mono rfl) rfl)
      ((congrArg HostState.fenced ((hput w).same .host (by decide))).trans (noted_fenced ..))
      ((congrArg EvtState.clears ((hput w).same .evt (by decide))).trans (noted_clears ..)) hq
  change Host.Outcome.next (settleAll (barWrite off v true s)) = _
  rw [barWrite_storesOnly h hbar hd hfrozen hst, settleAll_of_quiet (hquiet _)]

/-- The event of R13 comes first of those a write raises. -/
theorem raised_noted {d : RegDef} {off : Nat} {v : W32} {s : State} (h : deniedWrite d off v s = true) :
    ∃ l, (noted d off v s).evt.raised = s.evt.raised ++ ⟨1, 0x05, false, BitVec.ofNat 32 (deniedData d off v s), []⟩ :: l := by
  have hlocked : (lockedWrite d off v s).evt.raised = s.evt.raised ++ [⟨1, 0x05, false, BitVec.ofNat 32 (deniedData d off v s), []⟩] := by
    rw [lockedWrite_denied h, notice_evt]; rfl
  rcases noted_cases d off v s with e | ⟨isl, code, e⟩
  · exact ⟨[], by rw [e, hlocked]⟩
  · refine ⟨[⟨isl, code, criticalCode isl code, 0, []⟩], ?_⟩
    have hevent : (event isl code 0 [] (lockedWrite d off v s)).evt.raised =
        (lockedWrite d off v s).evt.raised ++ [⟨isl, code, criticalCode isl code, 0, []⟩] := rfl
    rw [e, hevent, hlocked, List.append_assoc, List.singleton_append]

/-- It is counted, and sets the notice bit. -/
theorem counted_noted {d : RegDef} {off : Nat} {v : W32} {s : State} (hs : s.RegsOk) (h : deniedWrite d off v s = true) :
    reg (noted d off v s) 0x4C = satAdd (reg s 0x4C) 1 ∧ bit (reg (noted d off v s) 0x20) 6 = true := by
  have hok : (event 1 0x05 (deniedData d off v s) [] (count 0x4C s)).RegsOk := RegsOk_setReg hs _ _
  rw [reg_congr (noted_regs d off v s), reg_congr (noted_regs d off v s), lockedWrite_denied h]
  exact ⟨(reg_notice_ne hok _ (by decide)).trans (reg_count_same hs _), bit_notice hok (by decide)⟩

/-- Settles O11: the write stores in the state where R13 was applied, and nothing else goes on in a quiet state. -/
theorem plainWrites : Obligations.PlainWrites := by
  unfold Obligations.PlainWrites
  refine ⟨?stores, ?denied⟩
  case stores =>
    intro off v s d h hbar hq hd hfrozen hen hact hring
    have hok : (noted d off v s).RegsOk := (noted_changes d off v s).regsOk h
    refine ⟨_, registerWrite_storesOnly h hbar hq hd hfrozen ⟨hen, hact, hring⟩, reg_putWord_same hok _ _, fun o ho => ?_⟩
    simp only [List.mem_cons, List.not_mem_nil, or_false, not_or] at ho
    obtain ⟨hown, hprove, hnotice, hcount⟩ := ho
    rw [reg_putWord_ne hok _ hown hprove, reg_congr (noted_regs d off v s), reg_lockedWrite v h hd (.inr ⟨hnotice, hcount⟩)]
  case denied =>
    intro off v s d h hbar hq hd hfrozen hen hact hring hwould
    have hok : (noted d off v s).RegsOk := (noted_changes d off v s).regsOk h
    have hden : deniedWrite d off v s = true := by simpa [deniedWrite] using hwould
    have hset := isSetup_of_denied hd hden
    have hc : 0x4C ≠ off := by rintro rfl; revert hset; decide
    have hn : 0x20 ≠ off := by rintro rfl; revert hset; decide
    obtain ⟨l, hraised⟩ := raised_noted hden
    obtain ⟨hcount, hbit⟩ := counted_noted h hden
    refine ⟨_, l, registerWrite_storesOnly h hbar hq hd hfrozen ⟨hen, hact, hring⟩, ?_, ?_, ?_⟩
    · rw [reg_putWord_ne hok _ hc (by decide), hcount]
    · rw [reg_putWord_ne hok _ hn (by decide), hbit]
    · exact (congrArg EvtState.raised ((putWord_changes off _ _).same .evt (by decide))).trans hraised

end Sys2Proof.Machine
end

section
/-!
SUPPORT. O38: the backup domain (R14, R15, R415, R525, R527, R531).
-/
namespace Sys2Proof.Machine

/-! ## Registers that a loss clears (R14) -/

/-- A read of a collection that was filtered by its keys. -/
theorem Kv.get?_filter_key {α : Type} (q : Nat → Bool) (k : Nat) : ∀ {m : Kv α} {lo : Nat}, Kv.sortedFrom lo m = true →
    Kv.get? k (m.filter fun p => q p.1) = if q k then Kv.get? k m else none
  | [], _, _ => by simp [Kv.get?]
  | (j, w) :: m, lo, hs => by
    have hs' := hs
    simp only [Kv.sortedFrom, Bool.and_eq_true, decide_eq_true_eq] at hs
    have ih := Kv.get?_filter_key q k hs.2
    rw [List.filter_cons]
    by_cases hkj : k = j
    · subst hkj
      by_cases hq : q k = true
      · simp [hq, Kv.get?]
      · rw [if_neg hq, ih, if_neg hq, if_neg hq]
    · by_cases hlt : k < j
      · have hnone : Kv.get? k m = none := Kv.get?_below hs.2 (by omega)
        have hhead : Kv.get? k ((j, w) :: m) = none := by rw [Kv.get?, if_neg hkj, if_pos hlt]
        have hfilter : Kv.get? k (m.filter fun p => q p.1) = none := by rw [ih, hnone, ite_self]
        rw [hhead, ite_self]
        split
        · rw [Kv.get?, if_neg hkj, if_pos hlt]
        · exact hfilter
      · have hhead : Kv.get? k ((j, w) :: m) = Kv.get? k m := by rw [Kv.get?, if_neg hkj, if_neg hlt]
        rw [hhead, ← ih]
        split
        · rw [Kv.get?, if_neg hkj, if_neg hlt]
        · rfl

/-- Without main supplies a register reads as before where BKP keeps it, and its reset word elsewhere. -/
theorem reg_wipe_main {s : State} (h : s.RegsOk) (o : Nat) : reg (wipe .main s) o = if keepsReg .main o then reg s o else regReset o := by
  have hget := Kv.get?_filter_key (keepsReg .main) o h.1
  have hregs : (wipe .main s).regs = s.regs.filter fun p => keepsReg .main p.1 := rfl
  unfold reg Kv.getD
  rw [hregs, hget]
  split <;> rfl

/-- Without BKP power no register is kept. -/
theorem keepsReg_all (o : Nat) : keepsReg .all o = false := by
  unfold keepsReg
  split
  · split <;> rfl
  · rfl

theorem reg_wipe_all (s : State) (o : Nat) : reg (wipe .all s) o = regReset o := by
  have hregs : (wipe .all s).regs = [] := by
    change s.regs.filter (fun p => keepsReg .all p.1) = []
    simp [keepsReg_all]
  unfold reg
  rw [hregs]
  rfl

/-- An install cut short spoils a slot; OTP words and the boot control record stand. -/
theorem spoil_keeps (x : Staged) (slot : Bool) (b : Boot) : (flsDown.spoil x slot b).otp = b.otp ∧ (flsDown.spoil x slot b).ctl = b.ctl := by
  unfold flsDown.spoil
  cases x <;> cases slot <;> exact ⟨rfl, rfl⟩

theorem keptBoot_keeps (s : State) : (keptBoot s).otp = s.boot.otp ∧ (keptBoot s).ctl = s.boot.ctl := by
  unfold keptBoot
  split
  · exact spoil_keeps ..
  · exact ⟨rfl, rfl⟩

/-! ## Tamper (R415) -/

/-- A tamper that SEC cannot take up is latched. -/
theorem tamperFall_latches {s : State} (h : s.RegsOk) (ht : secTamper s = false) :
    bits (reg (tamperFall s) 0x1000) 29 29 = 1 ∧ State.SameBut [.regs] s (tamperFall s) ∧ ∀ o, o ≠ 0x1000 → reg (tamperFall s) o = reg s o := by
  have hfall : tamperFall s = setField 0x1000 29 29 1 s := by unfold tamperFall; rw [ht]; rfl
  rw [hfall]
  exact ⟨bits_reg_setField h _ _ (by decide) (by decide), (setField_changes 0x1000 29 29 1 s rfl).same, fun o ho => reg_setField_ne h _ _ _ ho⟩

/-- Zeroised, SEC holds no key. -/
theorem zeroise_sec (level cause : Nat) (s : State) : (zeroise level cause s).sec =
    { s.sec with slots := [], tkek := [], relayKeys := [], pairKey := none, bootKey := none, zeroised := true } := by
  unfold zeroise
  dsimp only
  split <;> rfl

theorem tamperFall_acts {s : State} (ht : secTamper s = true) (ha : fieldOf s 0x2000 1 0 ≠ 0) :
    tamperFall s = zeroise (fieldOf s 0x2000 1 0) 2 s := by
  unfold tamperFall
  rw [ht]
  exact if_neg ha

theorem tamperFall_ignored {s : State} (ht : secTamper s = true) (ha : fieldOf s 0x2000 1 0 = 0) : tamperFall s = s := by
  unfold tamperFall
  rw [ht]
  exact if_pos ha

/-! ## Wake sources and power states (R525) -/

theorem Kv.get?_mapVal {α β : Type} (g : α → β) (k : Nat) : ∀ m : Kv α, Kv.get? k (m.map fun p => (p.1, g p.2)) = (Kv.get? k m).map g
  | [] => rfl
  | (j, w) :: m => by
    simp only [List.map_cons, Kv.get?]
    split
    · rfl
    · split
      · rfl
      · exact Kv.get?_mapVal g k m

/-- A gated island runs again, every other stays in its state. -/
theorem islOf_ungate (s : State) (n : Nat) : (islOf (ungate s) n).st = if (islOf s n).st = .gated then .run else (islOf s n).st := by
  have hget := Kv.get?_mapVal (fun i : Island => if i.st == .gated then { i with st := .run } else i) n s.isl
  change (Kv.getD (s.isl.map fun p => (p.1, if p.2.st == .gated then { p.2 with st := .run } else p.2)) n islandReset).st = _
  unfold islOf Kv.getD
  rw [hget]
  cases Kv.get? n s.isl with
  | none => rfl
  | some i =>
    simp only [Option.map_some, Option.getD_some]
    by_cases hi : i.st = .gated <;> simp [hi]

/-- WAKE_N low, by what the unit is in. -/
theorem wakePinFall_eq (s : State) : wakePinFall s =
    if fieldOf s 0x1018 1 1 = 0 then setBoot (fun b => { b with wakeLow := true }) s
    else if s.boot.power = .hold then powerRun (setBoot (fun b => { b with wakeLow := true }) s)
    else if s.boot.power = .backup then setBoot (fun b => { b with wakeLow := true, pwrEn := true }) s
    else setBoot (fun b => { b with wakeLow := true }) s := by
  have hfield : fieldOf (setBoot (fun b => { b with wakeLow := true }) s) 0x1018 1 1 = fieldOf s 0x1018 1 1 := rfl
  unfold wakePinFall
  simp only [hfield, beq_iff_eq]
  rfl

/-! ## VBAT and the counters of BKP (R527, R531) -/

theorem vbatLow_regs {mv : Nat} (s : State) (h : mv < 2000) : (vbatLow mv s).regs = (setField 0x1000 28 28 1 s).regs := by
  unfold vbatLow
  rw [if_neg (by omega)]
  dsimp only
  split <;> rfl

/-- The 48-bit count of seconds after a tick (R527). -/
def rtcNext (s : State) : Nat := (fieldOf s 0x100C 15 0 * 2 ^ 32 + (reg s 0x1008).toNat + 1) % 2 ^ 48

/-- The real-time counter after a tick, before the count of operating seconds. -/
def rtcTicked (s : State) : State := setField 0x100C 15 0 (rtcNext s / 2 ^ 32) (setReg 0x1008 (BitVec.ofNat 32 (rtcNext s)) s)

theorem bkpSecond_eq (s : State) : bkpSecond s = if s.boot.mainSupply then count 0x1010 (rtcTicked s) else rtcTicked s := by
  have hboot : (rtcTicked s).boot = s.boot := (setField_boot ..).trans (setReg_boot ..)
  rw [← hboot]
  rfl

theorem rtcTicked_regsOk {s : State} (h : s.RegsOk) : (rtcTicked s).RegsOk := RegsOk_setReg (RegsOk_setReg h _ _) _ _

/-- The low word counts modulo 2^32. -/
theorem ofNat_rtcNext (s : State) : BitVec.ofNat 32 (rtcNext s) = reg s 0x1008 + 1 := by
  have hlow : ∀ hi lo : Nat, (hi * 2 ^ 32 + lo + 1) % 2 ^ 48 % 2 ^ 32 = (lo + 1) % 2 ^ 32 := fun hi lo => by omega
  refine BitVec.eq_of_toNat_eq ?_
  rw [BitVec.toNat_ofNat, BitVec.toNat_add, rtcNext, hlow]
  simp only [BitVec.ofNat_eq_ofNat, BitVec.toNat_ofNat, Nat.add_mod_mod]

/-- The high word takes the carry modulo 2^16. -/
theorem rtcNext_high (s : State) : rtcNext s / 2 ^ 32 % 2 ^ 16 =
    (if reg s 0x1008 = 0xFFFFFFFF then fieldOf s 0x100C 15 0 + 1 else fieldOf s 0x100C 15 0) % 65536 := by
  have hcarry : ∀ hi lo : Nat, lo < 2 ^ 32 → (hi * 2 ^ 32 + lo + 1) % 2 ^ 48 / 2 ^ 32 % 2 ^ 16 =
      (if lo = 4294967295 then hi + 1 else hi) % 65536 := fun hi lo hlt => by split <;> omega
  have hmax : reg s 0x1008 = 0xFFFFFFFF ↔ (reg s 0x1008).toNat = 4294967295 := by
    rw [BitVec.toNat_eq, BitVec.ofNat_eq_ofNat, BitVec.toNat_ofNat]
  rw [rtcNext, hcarry _ _ (reg s 0x1008).isLt]
  simp only [hmax]

theorem reg_rtcTicked_low {s : State} (h : s.RegsOk) : reg (rtcTicked s) 0x1008 = reg s 0x1008 + 1 := by
  rw [rtcTicked, reg_setField_ne (RegsOk_setReg h _ _) _ _ _ (by decide), reg_setReg_same h, ofNat_rtcNext]

theorem bits_rtcTicked_high {s : State} (h : s.RegsOk) : bits (reg (rtcTicked s) 0x100C) 15 0 =
    (if reg s 0x1008 = 0xFFFFFFFF then bits (reg s 0x100C) 15 0 + 1 else bits (reg s 0x100C) 15 0) % 65536 := by
  exact (bits_reg_setField (RegsOk_setReg h _ _) _ _ (by decide) (by decide)).trans (rtcNext_high s)

theorem reg_rtcTicked_ne {s : State} (h : s.RegsOk) {o : Nat} (h1 : o ≠ 0x1008) (h2 : o ≠ 0x100C) : reg (rtcTicked s) o = reg s o := by
  rw [rtcTicked, reg_setField_ne (RegsOk_setReg h _ _) _ _ _ h2, reg_setReg_ne h _ h1]

/-- A tick counts operating seconds while the main supplies are present, and leaves every other register as the clock left it. -/
theorem reg_bkpSecond_ne {s : State} (h : s.RegsOk) {o : Nat} (ho : o ≠ 0x1010) : reg (bkpSecond s) o = reg (rtcTicked s) o := by
  rw [bkpSecond_eq]
  split
  · exact reg_count_ne (rtcTicked_regsOk h) ho
  · rfl

theorem reg_bkpSecond_op {s : State} (h : s.RegsOk) :
    reg (bkpSecond s) 0x1010 = if s.boot.mainSupply then satAdd (reg s 0x1010) 1 else reg s 0x1010 := by
  rw [bkpSecond_eq]
  split
  · rw [reg_count_same (rtcTicked_regsOk h), reg_rtcTicked_ne h (by decide) (by decide)]
  · exact reg_rtcTicked_ne h (by decide) (by decide)

/-- Settles O38: each event of the backup domain by the law of its operation. -/
theorem backupDomain : Obligations.BackupDomain := by
  unfold Obligations.BackupDomain
  refine ⟨?latch, ?ignored, ?acts, ?hold, ?backup, ?masked, ?alarm, ?noAlarm, ?mainLoss, ?vbat, ?tick, ?bkpLoss⟩
  case latch =>
    intro s h ht
    obtain ⟨hbit, hsame, hregs⟩ := tamperFall_latches h ht
    exact ⟨_, rfl, hbit, hsame, hregs⟩
  case ignored =>
    intro s ht ha
    exact congrArg Host.Outcome.next (tamperFall_ignored ht ha)
  case acts =>
    intro s ht ha
    have hsec := zeroise_sec (fieldOf s 0x2000 1 0) 2 s
    refine ⟨_, congrArg Host.Outcome.next (tamperFall_acts ht ha), ?_, ?_, ?_, ?_, ?_, (zeroise_changes _ _ s).same .table (by decide)⟩ <;>
      rw [hsec]
  case hold =>
    intro s hen hp
    have hne : ¬ fieldOf s 0x1018 1 1 = 0 := by omega
    have hwake : wakePinFall s = powerRun (setBoot (fun b => { b with wakeLow := true }) s) := by
      rw [wakePinFall_eq, if_neg hne, if_pos hp]
    exact ⟨_, congrArg Host.Outcome.next hwake, rfl, rfl, rfl, fun n => islOf_ungate _ n⟩
  case backup =>
    intro s hen hp
    have hne : ¬ fieldOf s 0x1018 1 1 = 0 := by omega
    refine congrArg Host.Outcome.next ?_
    rw [wakePinFall_eq, if_neg hne, if_neg (by simp [hp]), if_pos hp]
    rfl
  case masked =>
    intro s hen
    refine congrArg Host.Outcome.next ?_
    rw [wakePinFall_eq, if_pos hen]
    rfl
  case alarm =>
    intro s hp hen hm
    refine congrArg Host.Outcome.next ?_
    unfold bkpAlarm
    rw [if_pos (by simp [hp, hen, hm])]
    rfl
  case noAlarm =>
    intro s hno
    refine congrArg Host.Outcome.next ?_
    unfold bkpAlarm
    refine if_neg fun hall => ?_
    simp only [Bool.and_eq_true, beq_iff_eq, decide_eq_true_eq] at hall
    obtain ⟨⟨hp, hen⟩, hm⟩ := hall
    rcases hno with hp' | hen' | hm'
    · exact hp' hp
    · omega
    · exact hm' hm
  case mainLoss =>
    intro s h hsup
    have hloss : mainSupplyLoss s = toBackup s := by unfold mainSupplyLoss; rw [if_pos hsup]
    exact ⟨_, congrArg Host.Outcome.next hloss, rfl, rfl, fun o _ => reg_wipe_main h o, rfl, rfl, rfl, rfl⟩
  case vbat =>
    intro mv s h hmv
    have hregs := reg_congr (vbatLow_regs s hmv)
    refine ⟨_, rfl, ?_, (vbatLow_changes mv s).same, fun o ho => ?_⟩
    · rw [hregs]
      exact bits_reg_setField h _ _ (by decide) (by decide)
    · rw [hregs, reg_setField_ne h _ _ _ ho]
  case tick =>
    intro s h
    refine ⟨_, rfl, ?_, ?_, reg_bkpSecond_op h, (bkpSecond_changes s).same⟩
    · rw [reg_bkpSecond_ne h (by decide), reg_rtcTicked_low h]
    · rw [reg_bkpSecond_ne h (by decide), bits_rtcTicked_high h]
  case bkpLoss =>
    intro s hsup
    have hloss : bkpPowerLoss s = setBoot (fun b => { b with pwrEn := true, wakeLow := false }) (wipe .all s) := by
      unfold bkpPowerLoss; rw [if_neg (by simp [hsup])]
    obtain ⟨hotp, hctl⟩ := keptBoot_keeps s
    exact ⟨_, congrArg Host.Outcome.next hloss, fun o => reg_wipe_all s o, rfl, rfl, rfl, hotp, hctl, rfl⟩

end Sys2Proof.Machine
end

section
/-!
SUPPORT. O2: the state that reset leaves (R30, R88, R381, R502).
-/
namespace Sys2Proof.Machine

/-- Settles O2: no register of the reset state is listed, so each reads its reset word, and the other parts stand as they were set. -/
theorem resetState : Obligations.ResetState := by
  unfold Obligations.ResetState
  exact ⟨fun _ => rfl, by decide, rfl, rfl, rfl, rfl, rfl, rfl, rfl, rfl, rfl, rfl, fun _ => rfl⟩

end Sys2Proof.Machine
end

section
/-!
SUPPORT. O34: how a profile change goes on, cluster by cluster and bucket by bucket (R27, R35, R38).
-/
namespace Sys2Proof.Machine

/-! ## How a profile change goes on (R38) -/

/-- A cluster in RUN that is next, or none, is not skipped. -/
theorem skipStopped_eq {s : State} (h : ∀ k ∈ s.clusters.toSwitch.head?, islInRun s (17 + k) = true) :
    setCl (fun c => { c with toSwitch := c.toSwitch.dropWhile fun k => !islInRun s (17 + k) }) s = s := by
  have hdrop : s.clusters.toSwitch.dropWhile (fun k => !islInRun s (17 + k)) = s.clusters.toSwitch := by
    cases hl : s.clusters.toSwitch with
    | nil => rfl
    | cons k l => rw [List.dropWhile_cons_of_neg]; simp [h k (by simp [hl])]
  change { s with clusters := { s.clusters with toSwitch := s.clusters.toSwitch.dropWhile fun k => !islInRun s (17 + k) } } = s
  rw [hdrop]

/-- A change waits for the next cluster, while that runs. -/
theorem profileNext_of_switching {s : State} {k : Nat} {l : List Nat} (hl : s.clusters.toSwitch = k :: l) (hk : islInRun s (17 + k) = true) :
    profileNext s = s := by
  unfold profileNext
  rw [skipStopped_eq (by simpa [hl] using hk)]
  exact if_pos (by simp [hl])

/-- A change waits for the next bucket. -/
theorem profileNext_of_moving {s : State} (hl : s.clusters.toSwitch = []) (hm : s.clusters.moving ≠ []) : profileNext s = s := by
  unfold profileNext
  rw [skipStopped_eq (by simp [hl])]
  exact if_pos (by simp [hm])

/-- With no cluster left to switch and none returned the profile requested is in force, and the change ends. -/
theorem profileNext_of_switched {s : State} (hch : s.clusters.changing = true) (hl : s.clusters.toSwitch = []) (hm : s.clusters.moving = [])
    (hr : s.clusters.returned = []) (hreq : s.clusters.cur ≠ s.clusters.req) :
    profileNext s = setCl (fun c => { c with cur := c.req, secLanes := enginesOf c.req, clusterProf := [], changing := false, returned := [] }) s := by
  unfold profileNext
  rw [skipStopped_eq (by simp [hl])]
  dsimp only
  rw [if_neg (by simp [hch, hl, hm]), if_pos (by simpa using hreq), if_neg (by simp [setCl, hr])]
  rfl

/-- With the profile in force and no bucket left to move the change ends. -/
theorem profileNext_of_moved {s : State} (hch : s.clusters.changing = true) (hl : s.clusters.toSwitch = []) (hm : s.clusters.moving = [])
    (hcur : s.clusters.cur = s.clusters.req) : profileNext s = changeEnds s := by
  unfold profileNext
  rw [skipStopped_eq (by simp [hl])]
  dsimp only
  rw [if_neg (by simp [hch, hl, hm]), if_neg (by simp [hcur])]

/-! ## One cluster, one bucket -/

/-- The state after a cluster has switched, before the change goes on. -/
def switched (k : Nat) (s : State) : State :=
  setCl (fun c => { c with clusterProf := Kv.put k c.req c.clusterProf, toSwitch := c.toSwitch.tail }) s

/-- The paused cluster switches once it holds no reading. -/
theorem clusterSwitch_of_free {s : State} {k : Nat} (hch : s.clusters.changing = true) (hk : s.clusters.toSwitch.head? = some k)
    (hf : ∀ f ∈ s.pipe.flight, f.cluster ≠ k) : clusterSwitch k s = profileNext (switched k s) := by
  unfold clusterSwitch
  exact if_neg (by simpa [hch, hk] using hf)

theorem clusterSwitch_of_busy {s : State} {k : Nat} (hf : ∃ f ∈ s.pipe.flight, f.cluster = k) : clusterSwitch k s = s := by
  unfold clusterSwitch
  refine if_pos ?_
  have hany : s.pipe.flight.any (fun f => f.cluster == k) = true := by simpa using hf
  rw [hany, Bool.or_true]

/-- The state after a bucket has moved, before the change goes on. -/
def bucketBound (b k : Nat) (rest : Kv Nat) (s : State) : State :=
  setCl (fun c => { c with buckets := Kv.put b k c.buckets, moving := rest }) s

/-- The bucket whose turn it is moves once no reading of it is in flight. -/
theorem bucketMove_of_free {s : State} {b k : Nat} {rest : Kv Nat} (hm : s.clusters.moving = (b, k) :: rest)
    (hf : ∀ f ∈ s.pipe.flight, f.bucket ≠ b) : bucketMove b s = profileNext (bucketBound b k rest s) := by
  unfold bucketMove
  rw [hm]
  exact if_neg (by simpa using hf)

theorem bucketMove_of_busy {s : State} {b : Nat} (hf : ∃ f ∈ s.pipe.flight, f.bucket = b) : bucketMove b s = s := by
  have hany : s.pipe.flight.any (fun f => f.bucket == b) = true := by simpa using hf
  unfold bucketMove
  split
  · exact if_pos (by rw [hany, Bool.or_true])
  · rfl

/-- Settles O34: a cluster switches, or a bucket moves, and then the change goes on, waits or ends by what is left. -/
theorem clusterMoves : Obligations.ClusterMoves := by
  unfold Obligations.ClusterMoves
  refine ⟨?switch, ?last, ?held, ?move, ?lastMove, ?heldBucket⟩
  case switch =>
    intro k k' l s hch hl hrun hf
    have hleft : (switched k s).clusters.toSwitch = k' :: l := congrArg List.tail hl
    refine congrArg Host.Outcome.next ?_
    rw [clusterSwitch_of_free hch (congrArg List.head? hl) hf, profileNext_of_switching hleft hrun, ← hleft]
    rfl
  case last =>
    intro k s hch hl hm hr hreq hf
    have hleft : (switched k s).clusters.toSwitch = [] := congrArg List.tail hl
    refine congrArg Host.Outcome.next ?_
    rw [clusterSwitch_of_free hch (congrArg List.head? hl) hf, profileNext_of_switched (s := switched k s) hch hleft hm hr hreq]
    simp [switched, setCl, hl, hr]
  case held =>
    intro k s hf
    exact congrArg Host.Outcome.next (clusterSwitch_of_busy hf)
  case move =>
    intro b k rest s hm hrest hl hf
    refine congrArg Host.Outcome.next ?_
    rw [bucketMove_of_free hm hf, profileNext_of_moving (s := bucketBound b k rest s) hl hrest]
    rfl
  case lastMove =>
    intro b k s hm hch hl hcur hf
    refine congrArg Host.Outcome.next ?_
    rw [bucketMove_of_free hm hf, profileNext_of_moved (s := bucketBound b k [] s) hch hl rfl hcur]
    rfl
  case heldBucket =>
    intro b s hf
    exact congrArg Host.Outcome.next (bucketMove_of_busy hf)

end Sys2Proof.Machine
end

section
/-!
SUPPORT. O42: dispatch, tokens, sessions, polls and idle items (R25, R85, R88, R92, R116, R477).
-/
namespace Sys2Proof.Machine

/-! ## Dispatch (R85, R88) -/

/-- The pool and the queues after the front item of queue `q` went to cluster `c`. -/
def dispatchedPipe (q c : Nat) (i : RItem) (rest : List RItem) (s : State) : Pipe :=
  { s.pipe with
    iq := Kv.putOr [] q rest s.pipe.iq
    free := s.pipe.free - 1
    flight := s.pipe.flight ++
      [⟨s.pipe.nextId, c, (routeItem s i).1, i, (routeItem s i).2, .dispatched, none, false, false, false, false, none, [], 0, [], 0⟩]
    nextId := s.pipe.nextId + 1
    turn := (q + 1) % 8 }

/-- An unsigned item at the front of a queue goes to its cluster when a token is free and the cluster is open. -/
theorem dispatchFrom_eq {q c : Nat} {i : RItem} {rest : List RItem} {s : State} (hq : s.pipe.iq.getD q [] = i :: rest)
    (hfree : s.pipe.free ≠ 0) (hsig : signed i = false) (hc : openCluster s (routeItem s i).1 = some c) :
    dispatchFrom q s = some (wake (17 + c) (wake 3 (intakeRead q (itemCount i) { s with pipe := dispatchedPipe q c i rest s }))) := by
  unfold dispatchFrom
  rw [hq]
  dsimp only
  rw [if_neg hfree, if_neg (by simp [hsig]), hc]
  rfl

/-- Without a free token nothing is dispatched. -/
theorem dispatchFrom_of_noToken {s : State} (h : s.pipe.free = 0) (q : Nat) : dispatchFrom q s = none := by
  unfold dispatchFrom
  split
  · rfl
  · exact if_pos h

theorem dispatchTurn_of_noToken {s : State} (h : s.pipe.free = 0) : ∀ l : List Nat, dispatchTurn s l = s
  | [] => rfl
  | q :: l => by
    rw [dispatchTurn, dispatchFrom_of_noToken h]
    exact dispatchTurn_of_noToken h l

/-- The queue whose turn it is comes first. -/
theorem readingDispatch_of_turn {s t : State} (hs : serving s = true) (hlt : s.pipe.turn < 8) (ht : dispatchFrom s.pipe.turn s = some t) :
    readingDispatch s = t := by
  have hfirst : (List.range 8).map (fun i => (s.pipe.turn + i) % 8) =
      s.pipe.turn :: ((List.range 7).map fun i => (s.pipe.turn + (i + 1)) % 8) := by
    rw [List.range_succ_eq_map, List.map_cons, List.map_map, Nat.add_zero, Nat.mod_eq_of_lt hlt]
    rfl
  unfold readingDispatch
  rw [if_neg (by simp [hs]), hfirst, dispatchTurn, ht]

/-- What leaves the intake queue, and what wakes for it, touches neither pool nor table. -/
theorem dispatched_changes (q c n : Nat) (s : State) :
    Changes [.regs, .rf, .eth, .relay, .host, .queues, .out, .draws, .isl] s (wake (17 + c) (wake 3 (intakeRead q n s))) :=
  .step (wake_changes ..) (.step (wake_changes ..) ((intakeRead_changes q n s).mono rfl) rfl) rfl

/-! ## Polls and idle items (R92, R116, R477) -/

/-- The state in which the GET of a poll is sent: two draws made its key, and its session is open. -/
def polling (k : Nat) (x : Session) (s : State) : State :=
  { s with draws := s.draws + 2, pipe := { s.pipe with sessions := Kv.put k x s.pipe.sessions } }

/-- A poll goes to a FIELD unit's ACTIVE meter that is reached through an intake queue which does not push back. -/
theorem pollIssue_eq {slot k : Nat} {p : PollEntry} {b : Bundle} {s : State} (hb : s.boot.bundle = some b)
    (hp : (b.polls.find? fun e => e.entry == p.entry) = some p) (hf : isField s = true) (hs : serving s = true)
    (hr : recState (imgOf s slot) = 2) (hl : fld (imgOf s slot) 9 1 < 128) (hq : iqPaused (fld (imgOf s slot) 9 1 % 8) s = false)
    (hk : freeSession s = some k) :
    ∃ key pay, pollIssue p.entry slot s = accessUnicast (fld (imgOf s slot) 9 1 % 8) (recTitle (imgOf s slot)) pay
      (polling k ⟨slot, key, p.entry, s.tim.raw, rxTime s⟩ s) := by
  have hentry : ((s.boot.bundle.map (·.polls)).getD []).find? (fun e => e.entry == p.entry) = some p := by rw [hb]; exact hp
  unfold pollIssue
  dsimp only
  rw [hentry]
  dsimp only
  rw [if_neg (by simp [hf, hs, hr, hl, hq]), hk]
  exact ⟨_, _, rfl⟩

/-- None goes from a HEAD unit, without service, or to a meter that is not ACTIVE. -/
theorem pollIssue_of_closed {entry slot : Nat} {s : State} (h : isField s = false ∨ serving s = false ∨ recState (imgOf s slot) ≠ 2) :
    pollIssue entry slot s = s := by
  unfold pollIssue
  dsimp only
  split
  · rfl
  · refine if_pos ?_
    rcases h with h | h | h <;> simp [h]

theorem qState_setQ_same {s : State} (h : s.MapsOk) (q : Nat) (v : QState) : qState (setQ q v s) q = v := by
  obtain ⟨-, -, -, hqueues, -⟩ := h
  exact Kv.getD_putOr_same _ _ _ hqueues

theorem qState_setQ_ne {s : State} (h : s.MapsOk) {q r : Nat} (v : QState) (hne : r ≠ q) : qState (setQ q v s) r = qState s r := by
  obtain ⟨-, -, -, hqueues, -⟩ := h
  exact Kv.getD_putOr_ne _ _ _ hqueues hne

/-- An idle item marks an empty queue of the unit's own. -/
theorem idleItem_eq {q : Nat} {s : State} (hq : q < 16) (hd : queueDepth q ≠ 0) (hi : (qState s q).items = 0) :
    idleItem q s = setQ q { qState s q with idle := true } s := by
  unfold idleItem
  dsimp only
  rw [if_neg (by simp [hd, hi, show q < 256 by omega]), if_pos hq]

/-- It is not stored where there is no queue, or one that holds something. -/
theorem idleItem_of_none {q : Nat} {s : State} (h : 256 ≤ q ∨ queueDepth q = 0 ∨ (qState s q).items ≠ 0) : idleItem q s = s := by
  unfold idleItem
  exact if_pos (by simpa [or_assoc] using h)

/-- Settles O42: the dispatcher takes from the queue whose turn it is, and each of the others by the law of its operation. -/
theorem intakeAndTokens : Obligations.IntakeAndTokens := by
  unfold Obligations.IntakeAndTokens
  refine ⟨?dispatch, ?noService, ?noToken, ?back, ?noneBack, ?session, ?poll, ?noPoll, ?idle, ?notIdle⟩
  case dispatch =>
    intro q c i rest s hs hturn hq hwf hfront hfree hsig hc
    subst hturn
    have hch := dispatched_changes s.pipe.turn c (itemCount i) { s with pipe := dispatchedPipe s.pipe.turn c i rest s }
    have hpipe := hch.same .pipe (by decide)
    have htable := hch.same .table (by decide)
    refine ⟨_, congrArg Host.Outcome.next (readingDispatch_of_turn hs hq (dispatchFrom_eq hfront hfree hsig hc)),
      congrArg Pipe.free hpipe, congrArg Pipe.nextId hpipe, congrArg Pipe.turn hpipe, congrArg Pipe.flight hpipe, ?_, fun k hk => ?_, htable⟩
    · exact (congrArg (fun x : Pipe => x.iq.getD s.pipe.turn []) hpipe).trans (Kv.getD_putOr_same _ _ _ hwf)
    · exact (congrArg (fun x : Pipe => x.iq.getD k []) hpipe).trans (Kv.getD_putOr_ne _ _ _ hwf hk)
  case noService =>
    intro s hs
    exact congrArg Host.Outcome.next (if_pos (by simp [hs]))
  case noToken =>
    intro s hfree
    refine congrArg Host.Outcome.next ?_
    unfold readingDispatch
    rw [dispatchTurn_of_noToken hfree, ite_self]
  case back =>
    intro s hret
    exact congrArg Host.Outcome.next (if_neg hret)
  case noneBack =>
    intro s hret
    exact congrArg Host.Outcome.next (if_pos hret)
  case session =>
    intro k s
    rfl
  case poll =>
    intro slot k p b s hb hp hf hs hr hl hq hk
    obtain ⟨key, pay, hissue⟩ := pollIssue_eq hb hp hf hs hr hl hq hk
    have hch := accessUnicast_changes (fld (imgOf s slot) 9 1 % 8) (recTitle (imgOf s slot)) pay
      (polling k ⟨slot, key, p.entry, s.tim.raw, rxTime s⟩ s)
    have hpipe := hch.same .pipe (by decide)
    have hdraws := hch.same .draws (by decide)
    have htable := hch.same .table (by decide)
    exact ⟨_, key, congrArg Host.Outcome.next hissue, congrArg Pipe.sessions hpipe, hdraws,
      (congrArg Pipe.flight hpipe :), htable⟩
  case noPoll =>
    intro entry slot s h
    exact congrArg Host.Outcome.next (pollIssue_of_closed h)
  case idle =>
    intro q s h hq hd hi
    exact ⟨_, congrArg Host.Outcome.next (idleItem_eq hq hd hi), qState_setQ_same h _ _, fun r hr => qState_setQ_ne h _ hr,
      (setQ_changes ..).same⟩
  case notIdle =>
    intro q s h
    exact congrArg Host.Outcome.next (idleItem_of_none h)

end Sys2Proof.Machine
end

section
/-!
SUPPORT. O35: islands come up and go down (R19, R21, R22, R232, R510, R525).
-/
namespace Sys2Proof.Machine

/-! ## The table of islands -/

theorem islOf_setIsl_same {s : State} (h : s.MapsOk) (n : Nat) (v : Island) : islOf (setIsl n v s) n = v := by
  obtain ⟨-, hisl, -⟩ := h
  exact Kv.getD_putOr_same _ _ _ hisl

theorem islOf_setIsl_ne {s : State} (h : s.MapsOk) {n m : Nat} (v : Island) (hne : m ≠ n) : islOf (setIsl n v s) m = islOf s m := by
  obtain ⟨-, hisl, -⟩ := h
  exact Kv.getD_putOr_ne _ _ _ hisl hne

/-- An island reads the same in states with the same table. -/
theorem islOf_congr {s t : State} (h : t.isl = s.isl) (n : Nat) : islOf t n = islOf s n := by unfold islOf; rw [h]

/-- Where the table is that of one island set, that island has its new value and the others stand. -/
theorem islOf_of_set {s t : State} (h : s.MapsOk) {n : Nat} {v : Island} (ht : t.isl = (setIsl n v s).isl) :
    islOf t n = v ∧ ∀ m, m ≠ n → islOf t m = islOf s m :=
  ⟨(islOf_congr ht n).trans (islOf_setIsl_same h n v), fun m hm => (islOf_congr ht m).trans (islOf_setIsl_ne h v hm)⟩

/-- An operation whose parts leave out the islands leaves their table. -/
theorem Changes.isl_eq {W : List Part} {s t : State} (h : Changes W s t) (hW : Part.isl ∉ W := by decide) : t.isl = s.isl := h.same .isl hW

/-- Islands 2 to 20 are those that stop and start. -/
theorem not_outside {n : Nat} (hlo : 2 ≤ n) (hhi : n ≤ 20) : (decide (n < 2) || decide (20 < n)) = false := by
  simp only [Bool.or_eq_false_iff, decide_eq_false_iff_not]
  omega

/-! ## An island stops (R21, R22) -/

/-- What goes with an island that stops leaves the other islands. -/
theorem islandStop_isl (n : Nat) (st : IslState) (code : Byte) (s : State) :
    (islandStop n st code s).isl = (setIsl n ⟨st, code, false⟩ s).isl := by
  have hleave : (setIsl n ⟨st, code, false⟩ (islandLeave n s)).isl = (setIsl n ⟨st, code, false⟩ s).isl :=
    congrArg (Kv.putOr islandReset n ⟨st, code, false⟩) (islandLeave_changes n s).isl_eq
  unfold islandStop
  split
  · exact (flushIsland_changes ..).isl_eq
  · rw [(fixWdt_changes _).isl_eq, (islandGone_changes ..).isl_eq, (flushIsland_changes ..).isl_eq, hleave]

/-- An island that fails is FAILED with its code, and no other island is touched. -/
theorem failIsland_isl {n : Nat} (code : Byte) {s : State} (hlo : 2 ≤ n) (hhi : n ≤ 20) (hup : islUp s n = true) :
    (failIsland n code s).isl = (setIsl n ⟨.failed, code, false⟩ s).isl := by
  have hstop : (event 1 0x01 (n * 256 + code.toNat) [] (notice 2 (islandStop n .failed code s))).isl = (setIsl n ⟨.failed, code, false⟩ s).isl := by
    rw [event_isl, notice_isl, islandStop_isl]
  unfold failIsland
  rw [not_outside hlo hhi, hup, if_neg (by decide)]
  dsimp only
  rw [(proofFail_changes ..).isl_eq, (failoverRequest_changes ..).isl_eq]
  split
  · rw [(prlGone_changes ..).isl_eq, hstop]
  · exact hstop

/-! ## An island comes up (R510) -/

/-- What an island other than an access link does first leaves the islands. -/
theorem islandStart_isl {n : Nat} (h : n < 5 ∨ 11 ≤ n) (s : State) : (islandStart n s).isl = s.isl := by
  unfold islandStart
  split
  · rfl
  · split
    case h_1 => exact (tamperLatched_changes _).isl_eq
    case h_2 =>
      split
      · split
        · exact (archStart_changes ..).isl_eq
        · rfl
      · rfl
    case h_9 | h_10 => exact setEth_isl ..
    case h_11 =>
      simp only [List.foldl_cons, List.foldl_nil]
      split <;> split <;> rfl
    case h_12 => exact (timStart_changes _).isl_eq
    case h_13 | h_14 | h_15 | h_16 => exact (clusterUp_changes ..).isl_eq
    case h_17 => rfl
    all_goals omega

/-- Islands 5 to 8 are the power-line blocks. -/
theorem islandStart_plc {k : Nat} (hk : k < 4) {s : State} (hmode : s.boot.mode ≠ .test) : islandStart (5 + k) s = plcStart k s := by
  have hnormal : (s.boot.mode == .test) = false := by simpa using hmode
  have hblock : k = 0 ∨ k = 1 ∨ k = 2 ∨ k = 3 := by omega
  unfold islandStart
  rw [hnormal, if_neg Bool.false_ne_true]
  rcases hblock with rfl | rfl | rfl | rfl <;> rfl

/-- A pending island whose clock is stable starts. -/
theorem clockStable_of_pending {n : Nat} {s : State} (hlo : 2 ≤ n) (hhi : n ≤ 20) (hp : s.boot.power ≠ .hold) (hst : (islOf s n).st = .pending) :
    clockStable n s = fixWdt (islandStart n (setIsl n ⟨.run, 0, false⟩ s)) := by
  have hup : islUp s n = false := by simp [islUp, hst]
  unfold clockStable
  dsimp only
  rw [not_outside hlo hhi, if_neg Bool.false_ne_true, if_neg (by simp [hup]), if_pos (by simp [hst, hp])]

/-- An island whose lock is back goes on, with the event. -/
theorem clockStable_of_lost {n : Nat} {s : State} (hlo : 2 ≤ n) (hhi : n ≤ 20) (hup : islUp s n = true) (hl : (islOf s n).lockLost = true) :
    clockStable n s = event 1 0x02 n [] (setIsl n { islOf s n with lockLost := false } s) := by
  unfold clockStable
  dsimp only
  rw [not_outside hlo hhi, if_neg Bool.false_ne_true, if_pos (by simp [hup, hl])]

/-- A power-line block that has just come up, with the band of its register. -/
def plcComing (k : Nat) (s : State) : State :=
  setPlc k (fun p => { p with fcc := fieldOf s (plcBase k) 30 29 = 1 }) (setIsl (5 + k) ⟨.run, 0, false⟩ s)

theorem plcComing_isl (k : Nat) (s : State) : (plcComing k s).isl = (setIsl (5 + k) ⟨.run, 0, false⟩ s).isl := rfl

theorem plcComing_mapsOk {k : Nat} {s : State} (h : s.MapsOk) : (plcComing k s).MapsOk :=
  (setPlc_changes ..).mapsOk ((setIsl_changes ..).mapsOk h)

/-- The band that the register of a pending power-line block shows is the one it starts with (R232). -/
theorem plcFcc_plcComing {k : Nat} {s : State} (h : s.MapsOk) (hst : (islOf s (5 + k)).st = .pending) : plcFcc (plcComing k s) k = plcFcc s k := by
  have hrun : islRun (plcComing k s) (5 + k) = true := by
    obtain ⟨hisl, -⟩ := islOf_of_set h (plcComing_isl k s)
    simp [islRun, islInRun, hisl]
  have hstill : islRun s (5 + k) = false := by
    simp [islRun, islInRun, hst]
  have hband : (plcOf (plcComing k s) k).fcc = decide (fieldOf s (plcBase k) 30 29 = 1) := by
    unfold plcOf plcComing setPlc Kv.getD
    dsimp only
    rw [Kv.get?_put_same]
    rfl
  unfold plcFcc
  rw [hrun, hstill, if_pos rfl, hband]
  rfl

theorem plcMaskCount_plcComing {k : Nat} {s : State} (h : s.MapsOk) (hst : (islOf s (5 + k)).st = .pending) :
    plcMaskCount (plcComing k s) k = plcMaskCount s k := by
  unfold plcMaskCount plcCarriers
  rw [plcFcc_plcComing h hst]
  rfl

/-- The state in which a power-line block is after its start: RUN with an OK module and a mask of six carriers, else OFF (R232, R464). -/
def plcState (k : Nat) (s : State) : Island := ⟨if modOk s (2 + k) = true ∧ 6 ≤ plcMaskCount s k then .run else .off, 0, false⟩

theorem islOf_plcStart {k : Nat} {s : State} (h : s.MapsOk) (hst : (islOf s (5 + k)).st = .pending) :
    islOf (plcStart k (setIsl (5 + k) ⟨.run, 0, false⟩ s)) (5 + k) = plcState k s ∧
      ∀ m, m ≠ 5 + k → islOf (plcStart k (setIsl (5 + k) ⟨.run, 0, false⟩ s)) m = islOf s m := by
  obtain ⟨-, hothers⟩ := islOf_of_set h (plcComing_isl k s)
  have hoff : ∀ t : State, t.isl = (setIsl (5 + k) ⟨.off, 0, false⟩ (plcComing k s)).isl →
      islOf t (5 + k) = ⟨.off, 0, false⟩ ∧ ∀ m, m ≠ 5 + k → islOf t m = islOf s m := fun t ht =>
    (islOf_of_set (plcComing_mapsOk h) ht).imp_right fun hset m hm => (hset m hm).trans (hothers m hm)
  have hstart : plcStart k (setIsl (5 + k) ⟨.run, 0, false⟩ s) =
      if modOk s (2 + k) = false then setIsl (5 + k) ⟨.off, 0, false⟩ (plcComing k s)
      else if plcMaskCount s k < 6 then
        setIsl (5 + k) ⟨.off, 0, false⟩ (event (5 + k) 0x01 (plcMaskCount s k) [] (plcComing k s))
      else plcComing k s := by
    rw [← plcMaskCount_plcComing h hst]
    unfold plcStart plcRefused
    simp only [Bool.not_eq_true', decide_eq_true_eq]
    rfl
  rw [hstart]
  unfold plcState
  split
  next hm => rw [if_neg (by simp [hm])]; exact hoff _ rfl
  next hm =>
    split
    next hc => rw [if_neg (by omega)]; exact hoff _ rfl
    next hc => rw [if_pos ⟨by simpa using hm, by omega⟩]; exact islOf_of_set h (plcComing_isl k s)

/-! ## Memory errors (R19) -/

/-- A corrected error of an island's own memory or of another is counted where the memory has a count. -/
theorem eccCorrected_counts {a : EccAt} {off isl code data : Nat} {s : State} (h : s.RegsOk)
    (ha : eccCorrected a s = event isl code data [] (count off s)) :
    ∃ t, exec (.eccCorrected a) s = .next t ∧ reg t off = satAdd (reg s off) 1 ∧ State.SameBut [.regs, .evt] s t :=
  ⟨_, rfl, by rw [ha, reg_congr (event_regs ..), reg_count_same h], (eccCorrected_changes a s).same⟩

/-- Settles O35: an island that fails takes its own state only, and one that comes up does what its kind does first. -/
theorem islandStates : Obligations.IslandStates := by
  unfold Obligations.IslandStates
  refine ⟨?start, ?plc, ?lost, ?back, ?lostLong, ?handshake, ?ownMemory, ?sram, ?cluster, ?dram, ?dramLost, ?gate⟩
  case start =>
    intro n s hs hn hp hst
    obtain ⟨-, -, hmaps⟩ := hs
    have hrange : 2 ≤ n ∧ n ≤ 20 ∧ (n < 5 ∨ 11 ≤ n) := by
      simp only [List.mem_cons, List.not_mem_nil, or_false] at hn
      omega
    obtain ⟨hlo, hhi, hkind⟩ := hrange
    refine ⟨_, congrArg Host.Outcome.next (clockStable_of_pending hlo hhi hp hst), islOf_of_set hmaps ?_⟩
    rw [(fixWdt_changes _).isl_eq, islandStart_isl hkind]
  case plc =>
    intro k s hs hk hp hmode hst
    obtain ⟨-, -, hmaps⟩ := hs
    have hkind : islandStart (5 + k) (setIsl (5 + k) ⟨.run, 0, false⟩ s) = plcStart k (setIsl (5 + k) ⟨.run, 0, false⟩ s) :=
      islandStart_plc hk hmode
    obtain ⟨hown, hothers⟩ := islOf_plcStart hmaps hst
    have hwdt : ∀ m, islOf (fixWdt (plcStart k (setIsl (5 + k) ⟨.run, 0, false⟩ s))) m = islOf (plcStart k (setIsl (5 + k) ⟨.run, 0, false⟩ s)) m :=
      islOf_congr (fixWdt_changes _).isl_eq
    refine ⟨_, congrArg Host.Outcome.next (clockStable_of_pending (by omega) (by omega) hp hst), ?_, fun m hm => ?_⟩
    · rw [hkind, hwdt, hown]; rfl
    · rw [hkind, hwdt, hothers m hm]
  case lost =>
    intro n s hs hlo hhi hup
    obtain ⟨-, -, hmaps⟩ := hs
    have hloss : lockLoss n s = setIsl n { islOf s n with lockLost := true } s := if_neg (by rw [not_outside hlo hhi, hup]; decide)
    obtain ⟨hown, hothers⟩ := islOf_of_set hmaps (congrArg State.isl hloss)
    exact ⟨_, rfl, hown, (lockLoss_changes n s).same, hothers⟩
  case back =>
    intro n s hs hlo hhi hup hl
    obtain ⟨-, -, hmaps⟩ := hs
    obtain ⟨hown, hothers⟩ := islOf_of_set hmaps (event_isl 1 0x02 n [] (setIsl n { islOf s n with lockLost := false } s))
    exact ⟨_, congrArg Host.Outcome.next (clockStable_of_lost hlo hhi hup hl), hown,
      (Changes.step (W := [.isl, .evt]) (event_changes ..) ((setIsl_changes ..).mono rfl) rfl).same, hothers⟩
  case lostLong =>
    intro n s hs hlo hhi hup hl
    obtain ⟨-, -, hmaps⟩ := hs
    have htimeout : lockLossTimeout n s = failIsland n 1 s := if_pos hl
    exact ⟨_, congrArg Host.Outcome.next htimeout, islOf_of_set hmaps (failIsland_isl 1 hlo hhi hup)⟩
  case handshake =>
    intro n s hs hlo hhi hup
    obtain ⟨-, -, hmaps⟩ := hs
    exact ⟨_, rfl, islOf_of_set hmaps (failIsland_isl 2 hlo hhi hup)⟩
  case ownMemory =>
    intro n off s hs hlo hhi hup
    obtain ⟨-, -, hmaps⟩ := hs
    exact ⟨_, rfl, islOf_of_set hmaps (failIsland_isl 3 hlo hhi hup)⟩
  case sram =>
    intro off c s h hrun
    exact eccCorrected_counts h (if_pos hrun)
  case cluster =>
    intro n off s h hlo hhi hrun
    refine eccCorrected_counts (isl := 1) (code := 0x03) (data := n * 2 ^ 24 + off % 2 ^ 24) h ?_
    unfold eccCorrected
    dsimp only
    rw [not_outside (by omega) hhi, hrun, if_neg (by decide), if_pos hlo]
  case dram =>
    intro w s h hrun
    exact eccCorrected_counts h (if_pos hrun)
  case dramLost =>
    intro w s hrun
    have herr : eccUncorrectable (.dram w) s = proofFail 1 (event 3 0x02 w [] (count 0x3044 s)) := if_pos hrun
    have hch := proofFail_changes 1 (event 3 0x02 w [] (count 0x3044 s))
    exact ⟨_, congrArg Host.Outcome.next herr, hch.isl_eq, hch.same .table (by decide)⟩
  case gate =>
    intro n s hs hp hst hi
    obtain ⟨-, -, hmaps⟩ := hs
    have hgate : dozeGate n s = setIsl n { islOf s n with st := .gated } s := if_pos (by simp [hp, hst, hi])
    obtain ⟨hown, hothers⟩ := islOf_of_set hmaps (rfl : (setIsl n { islOf s n with st := .gated } s).isl = _)
    exact ⟨_, congrArg Host.Outcome.next hgate, congrArg Island.st hown, (setIsl_changes ..).same, hothers⟩

end Sys2Proof.Machine
end

section
/-!
SUPPORT. O13: reads that latch, each for its own path (R24, R326, R469, R539, R540).
-/
namespace Sys2Proof.Machine

/-! ## The latches of the three paths (R539) -/

/-- Where the latches of a path stand. -/
def Path.key : Path → Nat
  | .bar0 => 0
  | .cmd => 1
  | .firmware => 2

theorem Path.key_ne {p q : Path} (h : q ≠ p) : q.key ≠ p.key := by
  revert h
  cases p <;> cases q <;> decide

theorem latchOf_eq (s : State) (p : Path) : latchOf s p = s.lat.getD p.key latchReset := by cases p <;> rfl

theorem setLatch_lat (p : Path) (f : Latch → Latch) (s : State) :
    (setLatch p f s).lat = Kv.putOr latchReset p.key (f (latchOf s p)) s.lat := by cases p <;> rfl

theorem latchOf_setLatch_same {s : State} (h : s.MapsOk) (p : Path) (f : Latch → Latch) : latchOf (setLatch p f s) p = f (latchOf s p) := by
  obtain ⟨hlat, -⟩ := h
  rw [latchOf_eq, setLatch_lat, Kv.getD_putOr_same _ _ _ hlat]

theorem latchOf_setLatch_ne {s : State} (h : s.MapsOk) {p q : Path} (f : Latch → Latch) (hne : q ≠ p) :
    latchOf (setLatch p f s) q = latchOf s q := by
  obtain ⟨hlat, -⟩ := h
  rw [latchOf_eq, latchOf_eq, setLatch_lat, Kv.getD_putOr_ne _ _ _ hlat (Path.key_ne hne)]

/-! ## A read by itself -/

/-- A read that latches, over an open path of a block that answers: the word goes back, and of the latches the path's alone changes. -/
theorem readAlone_latches {p : Path} {off : Nat} {f : Latch → Latch} {w : W32} {s : State} (h : s.MapsOk) (hopen : p = .bar0 → barOpen s = true)
    (hup : blockDown off s = false) (hdef : (regDef off).isSome) (hlatch : readLatch p off s = setLatch p f s)
    (hw : shown (f (latchOf s p)) off (setLatch p f s) = some w) :
    ∃ t, (.next (readAlone p off s) : Host.Outcome State Fault Refusal) = .next t ∧ State.SameBut [.lat, .out] s t ∧
      t.out = .regRead p off w :: s.out ∧ latchOf t p = f (latchOf s p) ∧ ∀ q, q ≠ p → latchOf t q = latchOf s q := by
  obtain ⟨d, hd⟩ := Option.isSome_iff_exists.mp hdef
  have hread : readReg p off s = (w, setLatch p f s) := by
    unfold readReg
    rw [hup, hd, if_neg Bool.false_ne_true]
    dsimp only
    rw [hlatch, latchOf_setLatch_same h, hw, Option.getD_some]
  have halone : readAlone p off s = emit (.regRead p off w) (setLatch p f s) := by
    unfold readAlone
    rw [if_neg (by simpa using hopen), hread]
  exact ⟨_, congrArg Host.Outcome.next halone, (Changes.step (W := [.lat, .out]) (emit_changes ..) ((setLatch_changes ..).mono rfl) rfl).same,
    rfl, latchOf_setLatch_same h p f, fun q hq => latchOf_setLatch_ne h f hq⟩

/-- The same of a sound state, for the part of the latch that the register fills. -/
theorem readAlone_latches_part {α : Type} (part : Latch → α) {p : Path} {off : Nat} {f : Latch → Latch} {w : W32} {s : State} (hs : s.Sound)
    (hopen : p = .bar0 → barOpen s = true) (hup : blockDown off s = false) (hdef : (regDef off).isSome)
    (hlatch : readLatch p off s = setLatch p f s) (hw : shown (f (latchOf s p)) off (setLatch p f s) = some w) :
    ∃ t, (.next (readAlone p off s) : Host.Outcome State Fault Refusal) = .next t ∧ State.SameBut [.lat, .out] s t ∧
      t.out = .regRead p off w :: s.out ∧ part (latchOf t p) = part (f (latchOf s p)) ∧ ∀ q, q ≠ p → latchOf t q = latchOf s q := by
  obtain ⟨-, -, hmaps⟩ := hs
  obtain ⟨t, ht, hsame, hout, hown, hothers⟩ := readAlone_latches hmaps hopen hup hdef hlatch hw
  exact ⟨t, ht, hsame, hout, congrArg part hown, hothers⟩

/-- What a read of TIM_NOW_NS latches of the local clock (R326). -/
def clockLatch (c : Nat) (l : Latch) : Latch :=
  { l with nowLo := BitVec.ofNat 32 (clkSec c), nowHi := BitVec.ofNat 32 (clkSec c / 2 ^ 32 % 65536), nowFrac := BitVec.ofNat 32 (c % 65536) }

/-- From a block that does not answer a read gives 0, and is counted (R24). -/
theorem readAlone_absent {p : Path} {off : Nat} {s : State} (hopen : p = .bar0 → barOpen s = true) (hdown : blockDown off s = true) :
    readAlone p off s = emit (.regRead p off 0) (count 0x48 s) := by
  have hread : readReg p off s = (0, count 0x48 s) := if_pos hdown
  unfold readAlone
  rw [if_neg (by simpa using hopen), hread]

/-- Settles O13: each row is the one read of its register, and differs in what it latches. -/
theorem latchingReads : Obligations.LatchingReads := by
  unfold Obligations.LatchingReads
  refine ⟨?now, ?durable, ?last, ?oldest, ?first, ?second, ?absent⟩
  case now =>
    intro p s hs hopen hup
    obtain ⟨-, -, hmaps⟩ := hs
    obtain ⟨t, ht, hsame, hout, hown, hothers⟩ :=
      readAlone_latches (f := clockLatch s.tim.clk) hmaps hopen hup rfl rfl rfl
    exact ⟨t, ht, hsame, hout, congrArg Latch.nowLo hown, congrArg Latch.nowHi hown, congrArg Latch.nowFrac hown, hothers⟩
  case durable =>
    intro p s hs hopen hup
    exact readAlone_latches_part Latch.flsHi (f := fun l => { l with flsHi := BitVec.ofNat 32 (s.arch.durable / 2 ^ 32) }) hs hopen hup rfl rfl rfl
  case last =>
    intro p s hs hopen hup
    exact readAlone_latches_part Latch.lastHi (f := fun l => { l with lastHi := BitVec.ofNat 32 ((evtNext s - 1) / 2 ^ 32) }) hs hopen hup rfl rfl rfl
  case oldest =>
    intro p s hs hopen hup
    exact readAlone_latches_part Latch.oldestHi (f := fun l => { l with oldestHi := BitVec.ofNat 32 (evtOldest s / 2 ^ 32) }) hs hopen hup rfl rfl rfl
  case first =>
    intro p s hs hopen hup
    exact readAlone_latches_part Latch.pq0 (f := fun l => { l with pq0 := (meaHead s 0).pq }) hs hopen hup rfl rfl rfl
  case second =>
    intro p s hs hopen hup
    exact readAlone_latches_part Latch.pq1 (f := fun l => { l with pq1 := (meaHead s 1).pq }) hs hopen hup rfl rfl rfl
  case absent =>
    intro p off i s hopen hdown hi
    have hread : exec i s = .next (readAlone p off s) := by
      rcases hi with hi | ⟨hoff, rfl⟩ | hi | hi
      · cases hi; rfl
      · simp only [List.mem_cons, List.not_mem_nil, or_false] at hoff
        rcases hoff with rfl | rfl | rfl <;> rfl
      · cases hi; rfl
      · cases hi; rfl
    rw [hread, readAlone_absent hopen hdown]

end Sys2Proof.Machine
end

section
/-!
SUPPORT. O14: REG_READ and REG_WRITE_AU (R24, R407, R414, R536, R539).
-/
namespace Sys2Proof.Machine

/-! ## REG_READ (R407, R539) -/

/-- The word that a mapped register of a block that answers shows to a command. -/
def wordShown (off : Nat) (s : State) : W32 := (shown (latchOf s .cmd) off s).getD (reg s off)

theorem readReg_of_up {off : Nat} {s : State} (hup : blockDown off s = false) (hdef : (regDef off).isSome) (hlatch : readLatch .cmd off s = s) :
    readReg .cmd off s = (wordShown off s, s) := by
  obtain ⟨d, hd⟩ := Option.isSome_iff_exists.mp hdef
  unfold readReg
  rw [hup, hd, if_neg Bool.false_ne_true]
  dsimp only
  rw [hlatch]
  rfl

/-- A word that is absent, or not mapped, reads as 0 and is counted (R24, R536). -/
theorem readReg_of_absent {p : Path} {off : Nat} {s : State} (h : blockDown off s = true ∨ regDef off = none) :
    readReg p off s = (0, count (if blockDown off s then 0x48 else 0x50) s) := by
  unfold readReg
  split
  · rfl
  next hup =>
    rw [h.resolve_left hup]

/-- Words that latch nothing are read one after another from the state as it is. -/
theorem readWords_eq {s : State} : ∀ {n off : Nat},
    (∀ i < n, blockDown (off + 4 * i) s = false ∧ (regDef (off + 4 * i)).isSome ∧ readLatch .cmd (off + 4 * i) s = s) →
    readWords off n s = ((List.range n).map fun i => be 4 (wordShown (off + 4 * i) s).toNat, s)
  | 0, _, _ => rfl
  | n + 1, off, h => by
    obtain ⟨hup, hdef, hlatch⟩ : blockDown off s = false ∧ (regDef off).isSome ∧ readLatch .cmd off s = s := h 0 (Nat.succ_pos n)
    have hrest : readWords (off + 4) n s = ((List.range n).map fun i => be 4 (wordShown (off + 4 + 4 * i) s).toNat, s) :=
      readWords_eq fun i hi => by
        rw [show off + 4 + 4 * i = off + 4 * (i + 1) by omega]
        exact h (i + 1) (Nat.succ_lt_succ hi)
    have hfun : (fun i => be 4 (wordShown (off + 4 + 4 * i) s).toNat) = (fun i => be 4 (wordShown (off + 4 * i) s).toNat) ∘ Nat.succ := by
      funext i
      rw [show off + 4 + 4 * i = off + 4 * (i + 1) by omega]
      rfl
    unfold readWords
    rw [readReg_of_up hup hdef hlatch]
    dsimp only
    rw [hrest, List.range_succ_eq_map, List.map_cons, List.map_map, hfun]
    rfl

theorem regRead_eq {off n : Nat} {s : State} (hlo : 1 ≤ n) (hhi : n ≤ 256)
    (h : ∀ i < n, blockDown (off + 4 * i) s = false ∧ (regDef (off + 4 * i)).isSome ∧ readLatch .cmd (off + 4 * i) s = s) :
    regRead off n s = (s, ⟨.ok, [], (List.range n).map fun i => be 4 (wordShown (off + 4 * i) s).toNat⟩) := by
  unfold regRead
  rw [if_neg (by simp only [Bool.or_eq_true, decide_eq_true_eq]; omega), readWords_eq h]

theorem regRead_of_absent {off : Nat} {s : State} (h : blockDown off s = true ∨ regDef off = none) :
    regRead off 1 s = (count (if blockDown off s then 0x48 else 0x50) s, ⟨.ok, [], [be 4 0]⟩) := by
  unfold regRead readWords
  rw [if_neg (by decide), readReg_of_absent h]
  rfl

/-! ## REG_WRITE_AU (R414) -/

/-- A mask that REG_WRITE_AU takes reaches an AU field, so the register holds settings. -/
theorem isSetup_of_auMaskOk {off : Nat} {d : RegDef} {mask : W32} (hd : regDef off = some d) (hm : auMaskOk d mask = true) : isSetup off = true := by
  have hau : d.flds.filter (fun f => f.acc == .au) ≠ [] := by
    intro hnone
    have hall : mask &&& ~~~0#32 = mask := by rw [BitVec.not_zero, BitVec.and_allOnes]
    unfold auMaskOk at hm
    rw [hnone] at hm
    dsimp only [List.foldl_nil] at hm
    rw [hall] at hm
    simp at hm
  obtain ⟨f, hf⟩ := List.exists_mem_of_ne_nil _ hau
  obtain ⟨hmem, hacc⟩ := List.mem_filter.mp hf
  unfold isSetup
  rw [hd]
  exact List.any_eq_true.mpr ⟨f, hmem, by rw [hacc, Bool.or_true]⟩

/-- A register that only stores takes the word under the mask. -/
theorem auWrite_stores {obj : Staged} {off : Nat} {mask v : W32} {s : State} {d : RegDef} (hd : regDef off = some d) (hm : auMaskOk d mask = true)
    (hup : blockDown off s = false) (hoff : off ∉ [0x44, 0x17004, 0x17008, 0x17024, 0x17028, 0x1702C]) :
    auWrite obj off mask v s = (auStore d off mask v s, .done) := by
  simp only [List.mem_cons, List.not_mem_nil, or_false, not_or] at hoff
  obtain ⟨h1, h2, h3, h4, h5, h6⟩ := hoff
  unfold auWrite
  rw [hd]
  dsimp only
  rw [hm, hup, if_neg (by decide), if_neg Bool.false_ne_true, if_neg h1, if_neg h2, if_neg h3, if_neg h4, if_neg h5, if_neg h6]

/-- A mask that reaches anything but whole AU fields is refused. -/
theorem auWrite_of_badMask {obj : Staged} {off : Nat} {mask v : W32} {s : State} (h : ∀ d, regDef off = some d → auMaskOk d mask = false) :
    auWrite obj off mask v s = (s, .bad) := by
  unfold auWrite
  split
  · rfl
  next d hd => rw [h d hd]; rfl

/-- To a block that does not answer nothing is written, and the write is counted (R24; log entry 91). -/
theorem auWrite_of_absent {obj : Staged} {off : Nat} {mask v : W32} {s : State} {d : RegDef} (hd : regDef off = some d) (hm : auMaskOk d mask = true)
    (hdown : blockDown off s = true) : auWrite obj off mask v s = (count 0x48 s, .done) := by
  unfold auWrite
  rw [hd]
  dsimp only
  rw [hm, hdown, if_neg (by decide), if_pos rfl]

theorem auStore_regs (d : RegDef) (off : Nat) (mask v : W32) (s : State) :
    (auStore d off mask v s).regs = (putWord off (newWord auCan d off mask v s) s).regs := by
  unfold auStore
  dsimp only
  split
  · exact journal_regs ..
  · rfl

/-- The answer of a command changes no register that holds settings. -/
theorem reg_answered {h : Hdr} {c : Cmd} {r : Reply} {u v : State} (hv : v.RegsOk) {o : Nat} (ho : isSetup o = true) :
    reg (State.answered h c r u v) o = reg v o := (answered_changes h c r u v).same .setup (by decide) hv o ho

/-- A REG_WRITE_AU that is entered does its write and is answered. -/
theorem exec_regWriteAu_of_entered {h : Hdr} {off : Nat} {mask v : W32} {s u : State} (hu : State.entered h (.regWriteAu off mask v) s = some u)
    (hoff : off ≠ 0x17028) : exec (.regWriteAu h off mask v) s =
      .next (State.answered h (.regWriteAu off mask v) (auWrite .none off mask v u).2 u (auWrite .none off mask v u).1) := by
  have hwrite : regWriteAu off mask v u = auWrite .none off mask v u := if_neg hoff
  refine congrArg Host.Outcome.next ?_
  rw [command_of_entered _ hu, hwrite]

/-- Settles O14: the words are read, or the AU word stored, in the state that the command enters, and the answer leaves the settings. -/
theorem registerCommands : Obligations.RegisterCommands := by
  unfold Obligations.RegisterCommands
  refine ⟨?words, ?absent, ?badCount, ?stores, ?badMask, ?down⟩
  case words =>
    intro h off n s u hu hlo hhi hwords
    refine congrArg Host.Outcome.next ?_
    rw [command_of_entered _ hu, regRead_eq hlo hhi hwords]
    rfl
  case absent =>
    intro h off s u hu habs
    refine congrArg Host.Outcome.next ?_
    rw [command_of_entered _ hu, regRead_of_absent habs]
  case badCount =>
    intro h off n s u hu hn
    have hread : regRead off n u = (u, .bad) := if_pos (by simpa using hn)
    refine congrArg Host.Outcome.next ?_
    rw [command_of_entered _ hu, hread]
  case stores =>
    intro h off mask v s u d hs hu hd hm hup hoff
    have hregs : u.RegsOk := (entered_changes hu).regsOk hs
    have hstored : (auStore d off mask v u).RegsOk := (auStore_changes d off mask v u).regsOk hregs
    have hacts : off ≠ 0x17004 ∧ off ≠ 0x17024 ∧ off ≠ 0x17028 := by
      simp only [List.mem_cons, List.not_mem_nil, or_false, not_or] at hoff
      omega
    obtain ⟨hunit, hsel, hinstall⟩ := hacts
    have hword : ∀ w, clearActs off w = w := fun w => by unfold clearActs; rw [if_neg hunit, if_neg hsel, if_neg hinstall]
    refine ⟨_, exec_regWriteAu_of_entered hu hinstall, ?_, fun o ho hne hprove => ?_⟩
    · rw [auWrite_stores hd hm hup hoff, reg_answered hstored (isSetup_of_auMaskOk hd hm), reg_congr (auStore_regs ..), reg_putWord_same hregs, hword]
    · rw [auWrite_stores hd hm hup hoff, reg_answered hstored ho, reg_congr (auStore_regs ..), reg_putWord_ne hregs _ hne hprove]
  case badMask =>
    intro h off mask v s u hu hoff hm
    rw [exec_regWriteAu_of_entered hu hoff, auWrite_of_badMask hm]
  case down =>
    intro h off mask v s u d hu hoff hd hm hdown
    rw [exec_regWriteAu_of_entered hu hoff, auWrite_of_absent hd hm hdown]

end Sys2Proof.Machine
end

section
/-!
SUPPORT. O15: PROFILE_REQUEST and the power targets (R37, R38, R525, R526, R529).
-/
namespace Sys2Proof.Machine

/-! ## PROFILE_REQUEST (R37, R38) -/

/-- A write of CTL_PROFILE.REQ is a profile request. -/
theorem auWrite_profile {v : W32} {s : State} (hup : blockDown 0x44 s = false) : auWrite .none 0x44 0x300 v s = auProfile v s := by
  have hdef : ∃ d, regDef 0x44 = some d ∧ auMaskOk d 0x300 = true := ⟨_, rfl, by decide⟩
  obtain ⟨d, hd, hm⟩ := hdef
  unfold auWrite
  rw [hd]
  dsimp only
  rw [hm, hup, if_neg (by decide), if_neg Bool.false_ne_true, if_pos rfl]

theorem exec_profileRequest_of_entered {h : Hdr} {v : W32} {s u : State} (hu : State.entered h (.regWriteAu 0x44 0x300 v) s = some u)
    (hup : blockDown 0x44 u = false) :
    exec (.profileRequest h 0x300 v) s = .next (State.answered h (.regWriteAu 0x44 0x300 v) (auProfile v u).2 u (auProfile v u).1) := by
  refine congrArg Host.Outcome.next ?_
  rw [command_of_entered _ hu, auWrite_profile hup]

/-- The state in which a change to a profile starts: every cluster that runs is to switch. -/
def changeStarted (req : BitVec 2) (s : State) : State :=
  { s with clusters := { s.clusters with req := req, changing := true, toSwitch := runClusters s, clusterProf := [] } }

/-- A request for another profile starts a change with every cluster that runs, and waits for the first. -/
theorem startProfile_starts {req : BitVec 2} {s : State} (hreq : req ≠ s.clusters.cur) (hrun : runClusters s ≠ []) :
    startProfile req s = changeStarted req s := by
  obtain ⟨k, l, hl⟩ := List.exists_cons_of_ne_nil hrun
  have hk : islInRun s (17 + k) = true := by
    have hmem : k ∈ runClusters s := by simp [hl]
    exact (List.mem_filter.mp hmem).2
  have hstart : startProfile req s = profileNext (changeStarted req s) := if_neg hreq
  rw [hstart, profileNext_of_switching (s := changeStarted req s) hl hk]

theorem auProfile_of_idle {v : W32} {s : State} (hch : s.clusters.changing = false) (hv : bits v 9 8 ≠ 3) :
    auProfile v s = (startProfile (BitVec.ofNat 2 (bits v 9 8)) s, .done) := by
  unfold auProfile
  dsimp only
  rw [hch, if_neg Bool.false_ne_true, if_neg hv]

theorem auProfile_of_reserved {v : W32} {s : State} (hch : s.clusters.changing = false) (hv : bits v 9 8 = 3) :
    auProfile v s = (event 1 0x07 0 [] s, .done) := by
  unfold auProfile
  dsimp only
  rw [hch, if_neg Bool.false_ne_true, if_pos hv]

/-! ## Writes of RST_POWER.TARGET (R525, R526) -/

theorem auWrite_power {v : W32} {s : State} (hup : blockDown 0x1702C s = false) : auWrite .none 0x1702C 0x30000000 v s = auPower v s := by
  have hdef : ∃ d, regDef 0x1702C = some d ∧ auMaskOk d 0x30000000 = true := ⟨_, rfl, by decide⟩
  obtain ⟨d, hd, hm⟩ := hdef
  unfold auWrite
  rw [hd]
  dsimp only
  rw [hm, hup, if_neg (by decide), if_neg Bool.false_ne_true, if_neg (by decide), if_neg (by decide), if_neg (by decide), if_neg (by decide),
    if_neg (by decide), if_pos rfl]

/-- A unit with the grant refuses HOLD and BACKUP. -/
theorem auPower_of_granted {v : W32} {s : State} (hv : bits v 29 28 = 2 ∨ bits v 29 28 = 3) (hst : s.pair.st = .active ∨ s.pair.st = .activeAlone) :
    auPower v s = (s, .busy) := by
  have hrefused : powerRefused (bits v 29 28) s = true := by
    unfold powerRefused
    simpa using ⟨hv, hst⟩
  unfold auPower
  dsimp only
  rw [hrefused, if_pos rfl]

/-- What is not refused is done; only a BACKUP that is entered gets no answer. -/
theorem auPower_of_allowed {v : W32} {t : Nat} {s : State} (hv : bits v 29 28 = t) (h : powerRefused t s = false) :
    auPower v s = (powerTo t s, if (powerTo t s).boot.power == .backup then .later else .done) := by
  unfold auPower
  dsimp only
  rw [hv, h, if_neg Bool.false_ne_true]

theorem powerRefused_of_seeking {t : Nat} {s : State} (h1 : s.pair.st ≠ .active) (h2 : s.pair.st ≠ .activeAlone) : powerRefused t s = false := by
  unfold powerRefused
  simp [h1, h2]

/-- A row that writes TARGET, once entered, is answered by what the target does. -/
theorem power_of_entered {h : Hdr} {v : W32} {s u : State} {i : Instr}
    (hu : State.entered h (.regWriteAu 0x1702C 0x30000000 v) s = some u) (hup : blockDown 0x1702C u = false)
    (hi : exec i s = .next (command h (.regWriteAu 0x1702C 0x30000000 v) (auWrite .none 0x1702C 0x30000000 v) s)) :
    exec i s = .next (State.answered h (.regWriteAu 0x1702C 0x30000000 v) (auPower v u).2 u (auPower v u).1) := by
  rw [hi, command_of_entered _ hu, auWrite_power hup]

/-! ## Islands that a power state gates (R525, R526) -/

theorem Kv.get?_mapKey {α β : Type} (g : Nat → α → β) (k : Nat) : ∀ m : Kv α, Kv.get? k (m.map fun p => (p.1, g p.1 p.2)) = (Kv.get? k m).map (g k)
  | [] => rfl
  | (j, w) :: m => by
    simp only [List.map_cons, Kv.get?]
    split
    next hk => rw [hk]; rfl
    · split
      · rfl
      · exact Kv.get?_mapKey g k m

/-- A gated island runs again, and every other is as it was. -/
theorem islOf_ungate_eq (s : State) (n : Nat) : islOf (ungate s) n = if (islOf s n).st = .gated then { islOf s n with st := .run } else islOf s n := by
  have hget := Kv.get?_mapVal (fun i : Island => if i.st == .gated then { i with st := .run } else i) n s.isl
  change Kv.getD (s.isl.map fun p => (p.1, if p.2.st == .gated then { p.2 with st := .run } else p.2)) n islandReset = _
  unfold islOf Kv.getD
  rw [hget]
  cases Kv.get? n s.isl with
  | none => rfl
  | some i => simp only [Option.map_some, Option.getD_some, beq_iff_eq]

/-- HOLD gates an island that runs and is not kept, and leaves every other. -/
theorem islOf_gateForHold (s : State) (n : Nat) :
    islOf (gateForHold s) n = if (islOf s n).st = .run ∧ holdKeeps s n = false then { islOf s n with st := .gated } else islOf s n := by
  have hget := Kv.get?_mapKey (fun k (i : Island) => if i.st == .run && !holdKeeps s k then { i with st := .gated } else i) n s.isl
  change Kv.getD (s.isl.map fun p => (p.1, if p.2.st == .run && !holdKeeps s p.1 then { p.2 with st := .gated } else p.2)) n islandReset = _
  unfold islOf Kv.getD
  rw [hget]
  cases Kv.get? n s.isl with
  | none => rfl
  | some i => simp only [Option.map_some, Option.getD_some, Bool.and_eq_true, beq_iff_eq, Bool.not_eq_true']

/-! ## HOLD and BACKUP (R526, R529) -/

/-- A unit that is no standby enters HOLD from RUN without leaving a pair. -/
theorem powerTo_hold {s : State} (hp : s.boot.power = .run) (h1 : s.pair.st ≠ .standby) (h2 : s.pair.st ≠ .copying) :
    powerTo 2 s = gateForHold (setPower .hold .hold (powerRun s)) := by
  have hst : (powerRun s).pair.st = s.pair.st := rfl
  have hhold : powerTo 2 s = powerHold (powerRun s) := if_neg (by simp [hp])
  rw [hhold]
  unfold powerHold
  dsimp only
  rw [if_neg (by simp [hst, h1, h2])]

theorem powerTo_backup {s : State} (hp : s.boot.power = .run ∨ s.boot.power = .doze) : powerTo 3 s = powerBackup s :=
  if_neg (by rcases hp with hp | hp <;> simp [hp])

/-- The archive's queue is drained before BACKUP; the pair is as it was. -/
theorem drained_pair (k : Nat) (s : State) : (drainForBackup k s).pair = s.pair := (drainForBackup_changes k s).same .pair (by decide)

/-- BACKUP ends the main supplies, drives PWR_EN low and keeps the claim. -/
theorem powerBackup_enters {s : State} (hw : s.boot.wakeLow = false) :
    (powerBackup s).boot.power = .backup ∧ (powerBackup s).boot.pwrEn = false ∧ (powerBackup s).boot.mainSupply = false ∧
      (powerBackup s).pair.claimFlash = s.pair.claim ∧ (powerBackup s).pair.actOut = false := by
  have henter : powerBackup s = setBoot (fun b => { b with pwrEn := false }) (toBackup (setPair (fun p => { p with claimFlash := p.claim, flashPending := false })
      (drainForBackup (s.arch.wq.length + 4096) s))) := if_neg (by simp [hw])
  rw [henter]
  exact ⟨rfl, rfl, rfl, congrArg PairState.claim (drained_pair ..), rfl⟩

/-- A low WAKE_N keeps the unit out of BACKUP, and is spent (log entry 68). -/
theorem powerBackup_of_wakeLow {s : State} (hw : s.boot.wakeLow = true) :
    powerBackup s = { s with boot := { s.boot with target := .run, wakeLow := false } } := if_pos hw

/-- Settles O15: each row by the law of what it writes, in the state that the command enters. -/
theorem profileAndPower : Obligations.ProfileAndPower := by
  unfold Obligations.ProfileAndPower
  refine ⟨?change, ?reserved, ?running, ?run, ?doze, ?hold, ?holdBusy, ?backup, ?wakeLow, ?backupBusy⟩
  case change =>
    intro h v s u q hu hup hch hq hlt hne hrun
    subst hq
    have hreq : BitVec.ofNat 2 (bits v 9 8) ≠ u.clusters.cur := by
      intro heq
      rw [← heq, BitVec.toNat_ofNat, Nat.mod_eq_of_lt (by omega)] at hne
      exact hne rfl
    refine ⟨_, exec_profileRequest_of_entered hu hup, ?_⟩
    rw [answered_clusters, auProfile_of_idle hch (by omega), startProfile_starts hreq hrun]
    rfl
  case reserved =>
    intro h v s u hu hup hch hq
    rw [exec_profileRequest_of_entered hu hup, auProfile_of_reserved hch hq]
  case running =>
    intro h v s u hu hup hch
    have hbusy : auProfile v u = (u, .busy) := if_pos hch
    rw [exec_profileRequest_of_entered hu hup, hbusy]
  case run =>
    intro h s u _ hu hup
    have hpower : auPower 0 u = (powerRun u, .done) := auPower_of_allowed rfl rfl
    refine ⟨_, power_of_entered hu hup rfl, ?_, fun n => ?_⟩
    · rw [answered_boot, hpower]; rfl
    · rw [islOf_congr (answered_isl ..), hpower]
      exact islOf_ungate_eq ..
  case doze =>
    intro h s u hu hup hp
    have hpower := auPower_of_allowed (v := 0x10000000) (t := 1) (s := u) rfl rfl
    have hdoze : powerTo 1 u = powerDoze u := if_neg (by simpa using hp)
    rw [hdoze] at hpower
    refine ⟨_, power_of_entered hu hup rfl, ?_, ?_⟩
    · rw [answered_boot, hpower]; rfl
    · rw [answered_isl, hpower]; rfl
  case hold =>
    intro h s u _ hu hup hp hst
    simp only [List.mem_cons, List.not_mem_nil, or_false, not_or] at hst
    obtain ⟨h1, h2, h3, h4⟩ := hst
    have hpower := auPower_of_allowed (v := 0x20000000) (t := 2) rfl (powerRefused_of_seeking h1 h2)
    rw [powerTo_hold hp h3 h4] at hpower
    refine ⟨_, power_of_entered hu hup rfl, ?_, fun n hn => ?_⟩
    · rw [answered_boot, hpower]; rfl
    · have hisl : islOf (setPower .hold .hold (powerRun u)) n = islOf u n := (islOf_ungate_eq (setPower .run .run u) n).trans (if_neg hn)
      rw [islOf_congr (answered_isl ..), hpower, islOf_gateForHold, hisl]
      rfl
  case holdBusy =>
    intro h s u hu hup hst
    rw [power_of_entered hu hup rfl, auPower_of_granted (.inl rfl) hst]
  case backup =>
    intro h s u hu hup hp h1 h2 hw
    have hpower := auPower_of_allowed (v := 0x30000000) (t := 3) rfl (powerRefused_of_seeking h1 h2)
    rw [powerTo_backup hp] at hpower
    refine ⟨_, power_of_entered hu hup rfl, ?_⟩
    rw [answered_boot, answered_pair, hpower]
    exact powerBackup_enters hw
  case wakeLow =>
    intro h s u hu hup hp h1 h2 hw
    have hpower := auPower_of_allowed (v := 0x30000000) (t := 3) rfl (powerRefused_of_seeking h1 h2)
    have hstays : ((powerBackup u).boot.power == .backup) = false := by
      rw [powerBackup_of_wakeLow hw]
      rcases hp with hp | hp <;> simp [hp]
    rw [powerTo_backup hp, hstays, if_neg Bool.false_ne_true, powerBackup_of_wakeLow hw] at hpower
    rw [power_of_entered hu hup rfl, hpower]
  case backupBusy =>
    intro h s u hu hup hst
    rw [power_of_entered hu hup rfl, auPower_of_granted (.inr rfl) hst]

end Sys2Proof.Machine
end

section
/-!
SUPPORT. Fields of a record image (R48): what a field reads after another, or the same, is set.
-/
namespace Sys2Proof.Machine

/-- A bit of a field is a bit of the image. -/
theorem testBit_fld (r : RecImg) (off len i : Nat) :
    (fld r off len).testBit i = (decide (i < 8 * len) && r.getLsbD (8 * (256 - off - len) + i)) := by
  unfold fld
  rw [Nat.testBit_mod_two_pow, Nat.testBit_shiftRight]
  rfl

/-- A bit of an image after a field was set: the field's own bit, or the bit as it was. -/
theorem getLsbD_setFld (r : RecImg) {off len : Nat} (v j : Nat) (h : off + len ≤ 256) :
    (setFld r off len v).getLsbD j =
      if 8 * (256 - off - len) ≤ j ∧ j < 8 * (256 - off) then v.testBit (j - 8 * (256 - off - len)) else r.getLsbD j := by
  unfold setFld
  simp only [BitVec.getLsbD_or, BitVec.getLsbD_and, BitVec.getLsbD_not, BitVec.getLsbD_ofNat, Nat.testBit_shiftLeft,
    Nat.testBit_two_pow_sub_one, Nat.testBit_mod_two_pow]
  by_cases hin : 8 * (256 - off - len) ≤ j ∧ j < 8 * (256 - off)
  · have h1 : j < 2048 := by omega
    have h2 : j - 8 * (256 - off - len) < 8 * len := by omega
    simp [hin, h1, h2]
  · have h2 : ¬(8 * (256 - off - len) ≤ j ∧ j - 8 * (256 - off - len) < 8 * len) := by omega
    rw [if_neg hin]
    by_cases hlo : 8 * (256 - off - len) ≤ j
    · have h3 : ¬j - 8 * (256 - off - len) < 8 * len := fun hlt => h2 ⟨hlo, hlt⟩
      by_cases hj : j < 2048
      · simp [hlo, h3, hj]
      · simp [hlo, h3, BitVec.getLsbD_of_ge r j (by omega)]
    · by_cases hj : j < 2048
      · simp [hlo, hj]
      · omega

/-- A field inside the one just set reads its part of the value. -/
theorem fld_setFld_within (r : RecImg) {off len o l : Nat} (v : Nat) (h : off + len ≤ 256) (hlo : off ≤ o) (hhi : o + l ≤ off + len) :
    fld (setFld r off len v) o l = v / 2 ^ (8 * (off + len - o - l)) % 2 ^ (8 * l) := by
  refine Nat.eq_of_testBit_eq fun i => ?_
  rw [testBit_fld, Nat.testBit_mod_two_pow, Nat.testBit_div_two_pow]
  by_cases hi : i < 8 * l
  · rw [getLsbD_setFld r v _ h, if_pos (by omega)]
    simp only [hi, decide_true, Bool.true_and]
    congr 1
    omega
  · simp [hi]

/-- A field just set reads back, as far as it is wide. -/
@[simp] theorem fld_setFld_same (r : RecImg) {off len : Nat} (v : Nat) (h : off + len ≤ 256) :
    fld (setFld r off len v) off len = v % 2 ^ (8 * len) := by
  simpa using fld_setFld_within r v h (Nat.le_refl off) (Nat.le_refl (off + len))

/-- A field set to zero reads zero. -/
@[simp] theorem fld_setFld_same_zero (r : RecImg) {off len : Nat} (h : off + len ≤ 256) : fld (setFld r off len 0) off len = 0 :=
  (fld_setFld_same r 0 h).trans (Nat.zero_mod _)

/-- A field apart from the one just set reads as before. -/
@[simp] theorem fld_setFld_apart (r : RecImg) {off len o l : Nat} (v : Nat) (h : off + len ≤ 256) (hb : o + l ≤ 256)
    (hap : o + l ≤ off ∨ off + len ≤ o) : fld (setFld r off len v) o l = fld r o l := by
  refine Nat.eq_of_testBit_eq fun i => ?_
  rw [testBit_fld, testBit_fld]
  by_cases hi : i < 8 * l
  · rw [getLsbD_setFld r v _ h, if_neg (by omega)]
  · simp [hi]

/-- So it does where the other field is set under a condition. -/
theorem fld_setFldIf_apart (c : Prop) [Decidable c] (r : RecImg) {off len o l : Nat} (v : Nat) (h : off + len ≤ 256) (hb : o + l ≤ 256)
    (hap : o + l ≤ off ∨ off + len ≤ o) : fld (if c then setFld r off len v else r) o l = fld r o l := by
  split
  · exact fld_setFld_apart r v h hb hap
  · rfl

/-- An image of zeros reads zero. -/
@[simp] theorem fld_zero (o l : Nat) : fld 0 o l = 0 := by
  refine Nat.eq_of_testBit_eq fun i => ?_
  simp [testBit_fld]

theorem fld_lt (r : RecImg) (off len : Nat) : fld r off len < 2 ^ (8 * len) := Nat.mod_lt _ (Nat.two_pow_pos _)

/-- What a field reads fits its width. -/
@[simp] theorem fld_mod (r : RecImg) (off len : Nat) : fld r off len % 2 ^ (8 * len) = fld r off len := Nat.mod_eq_of_lt (fld_lt r off len)

/-- A field apart from FLAGS reads as before when a flag is set. -/
@[simp] theorem fld_setFlag_apart (r : RecImg) {o l : Nat} (i : Nat) (b : Bool) (hb : o + l ≤ 256) (hap : o + l ≤ 10 ∨ 12 ≤ o) :
    fld (setFlag r i b) o l = fld r o l := fld_setFld_apart r _ (by omega) hb hap

/-- RECORD_SEQ read as a word and as a field is one number. -/
theorem recSeq_toNat (r : RecImg) : (recSeq r).toNat = fld r 12 4 := Nat.mod_eq_of_lt (fld_lt r 12 4)

end Sys2Proof.Machine
end

section
/-!
SUPPORT. A row whose command is entered.
-/
namespace Sys2Proof.Machine

/-- A row that is a command, once entered, is answered by what its own work gives. -/
theorem exec_of_entered {i : Instr} {h : Hdr} {c : Cmd} {body : State → State × Reply} {s u v : State} {r : Reply}
    (hi : exec i s = .next (command h c body s)) (hu : State.entered h c s = some u) (hb : body u = (v, r)) :
    exec i s = .next (State.answered h c r u v) := by
  rw [hi, command_of_entered _ hu, hb]

end Sys2Proof.Machine
end

section
/-!
SUPPORT. O18: TBL_READ, TBL_FIND and TBL_DUMP (R74, R75, R574).
-/
namespace Sys2Proof.Machine

/-- RESULT of a record (R574), its fields read from the image. -/
theorem tblResult_image (n : Nat) (r : RecImg) :
    tblResult n (recState r) (recSeq r).toNat = padTo 40 (be 4 n ++ be 1 (fld r 8 1) ++ be 3 0 ++ be 4 (fld r 12 4)) := by
  rw [recSeq_toNat]
  rfl

theorem tblRead_held {slot : Nat} {s : State} (hslot : slot < tblSize s) :
    tblRead slot s = (s, ⟨.ok, padTo 40 (be 4 slot ++ be 1 (fld (imgOf s slot) 8 1) ++ be 3 0 ++ be 4 (fld (imgOf s slot) 12 4)),
      [be 256 (hostImg s (imgOf s slot)).toNat]⟩) := by
  unfold tblRead
  rw [if_neg (by omega), ← tblResult_image]
  rfl

theorem tblRead_beyond {slot : Nat} {s : State} (hslot : tblSize s ≤ slot) : tblRead slot s = (s, .bad) := if_pos hslot

theorem tblFind_held {title : W64} {n : Nat} {s : State} (hn : idxFind s title = some n) :
    tblFind title s = (s, ⟨.ok, padTo 40 (be 4 n ++ be 1 (fld (imgOf s n) 8 1) ++ be 3 0 ++ be 4 (fld (imgOf s n) 12 4)),
      [be 256 (hostImg s (imgOf s n)).toNat]⟩) := by
  unfold tblFind
  rw [hn, ← tblResult_image]
  rfl

theorem tblFind_unheld {title : W64} {s : State} (hn : idxFind s title = none) :
    tblFind title s = (s, ⟨.ok, padTo 40 (be 4 0x3FFFFF ++ be 1 0 ++ be 3 0 ++ be 4 0), []⟩) := by
  unfold tblFind
  rw [hn]
  rfl

theorem tblDump_range {first cnt : Nat} {s : State} (hfirst : first < tblSize s) (hcnt : 0 < cnt) :
    tblDump first cnt s = (s, ⟨.ok, padTo 40 (be 4 first ++ be 1 0 ++ be 3 0 ++ be 4 0),
      (List.range (min cnt (tblSize s - first))).map fun i => be 256 (hostImg s (imgOf s (first + i))).toNat⟩) := by
  unfold tblDump
  dsimp only
  rw [if_neg (by omega)]
  rfl

theorem tblDump_beyond {first cnt : Nat} {s : State} (hfirst : tblSize s ≤ first) :
    tblDump first cnt s = (s, ⟨.ok, padTo 40 (be 4 (first % 2 ^ 22) ++ be 1 0 ++ be 3 0 ++ be 4 0), []⟩) := by
  have hnone : min cnt (tblSize s - first) = 0 := by omega
  unfold tblDump
  dsimp only
  rw [hnone, if_pos rfl]
  rfl

theorem hostImg_free {s : State} {r : RecImg} (hfree : fld r 8 1 = 0) : hostImg s r = setFld 0 12 4 (fld r 12 4) := if_pos hfree

/-- The host never sees a dash field of a record that is not FREE: LINK in a HEAD unit and a phase of the host's own are set beside them. -/
theorem hostImg_hides (s : State) {r : RecImg} (hfree : fld r 8 1 ≠ 0) {f : Nat × Nat}
    (hf : f ∈ [(32, 48), (176, 48), (85, 11), (150, 2), (172, 4)]) : fld (hostImg s r) f.1 f.2 = 0 := by
  have hshown : hostImg s r =
      (let d := setFld (setFld (setFld (setFld (setFld r 85 11 0) 150 2 0) 172 4 0) 32 48 0) 176 48 0
       let d := if isHead s then setFld d 9 1 0xC0 else d
       if fld d 146 1 / 32 % 2 = 1 then setFld d 147 1 255 else d) := if_neg hfree
  have hplace : f.1 + f.2 ≤ 256 ∧ 10 ≤ f.1 ∧ (f.1 + f.2 ≤ 147 ∨ 148 ≤ f.1) := by revert f; decide
  obtain ⟨hend, hlink, hphase⟩ := hplace
  rw [hshown]
  dsimp only
  rw [fld_setFldIf_apart _ _ _ (by omega) hend (by omega), fld_setFldIf_apart _ _ _ (by omega) hend (by omega)]
  simp only [List.mem_cons, List.not_mem_nil, or_false] at hf
  rcases hf with rfl | rfl | rfl | rfl | rfl <;> simp [-fld_setFld_same]

/-- Settles O18: each command by the law of what it answers; the image by the fields it sets to zero. -/
theorem tableReads : Obligations.TableReads := by
  unfold Obligations.TableReads
  refine ⟨fun h slot s u hu hslot => exec_of_entered rfl hu (tblRead_held hslot),
    fun h slot s u hu hslot => exec_of_entered rfl hu (tblRead_beyond hslot),
    fun h title n s u hu hn => exec_of_entered rfl hu (tblFind_held hn),
    fun h title s u hu hn => exec_of_entered rfl hu (tblFind_unheld hn),
    fun h first count s u hu hfirst hcount => exec_of_entered rfl hu (tblDump_range hfirst hcount),
    fun h first count s u hu hfirst => exec_of_entered rfl hu (tblDump_beyond hfirst), ?free, fun s r hfree f hf => hostImg_hides s hfree hf⟩
  case free =>
    intro s r hfree
    rw [hostImg_free hfree]
    refine ⟨fun o l hap => ?_, (fld_setFld_same 0 _ (by omega)).trans (fld_mod r 12 4)⟩
    rw [fld_setFld_apart 0 _ (by omega) (by omega) (by omega), fld_zero]

end Sys2Proof.Machine
end

section
/-!
SUPPORT. Record writes (R49): what a slot and the index hold after one.
-/
namespace Sys2Proof.Machine

theorem slotOf_congr {s t : State} (h : t.table.slots = s.table.slots) (n : Nat) : slotOf t n = slotOf s n := by unfold slotOf; rw [h]

theorem imgOf_congr {s t : State} (h : t.table.slots = s.table.slots) (n : Nat) : imgOf t n = imgOf s n := congrArg Slot.img (slotOf_congr h n)

theorem Changes.slotOf_eq {W : List Part} {s t : State} (h : Changes W s t) (n : Nat) (hW : Part.table ∉ W := by decide) : slotOf t n = slotOf s n :=
  slotOf_congr (congrArg Table.slots (h.same .table hW)) n

theorem Changes.imgOf_eq {W : List Part} {s t : State} (h : Changes W s t) (n : Nat) (hW : Part.table ∉ W := by decide) : imgOf t n = imgOf s n :=
  congrArg Slot.img (h.slotOf_eq n hW)

@[simp] theorem slotOf_answered (h : Hdr) (c : Cmd) (r : Reply) (u v : State) (n : Nat) : slotOf (State.answered h c r u v) n = slotOf v n :=
  (answered_changes h c r u v).slotOf_eq n

@[simp] theorem imgOf_answered (h : Hdr) (c : Cmd) (r : Reply) (u v : State) (n : Nat) : imgOf (State.answered h c r u v) n = imgOf v n :=
  (answered_changes h c r u v).imgOf_eq n

/-- A write with a change of the index stores both. -/
@[simp] theorem index_writeSlotIdx_some (n : Nat) (v : Slot) (x : Nat × IdxEntry) (s : State) :
    (writeSlotIdx n v (some x) s).table.index = Kv.put x.1 x.2 s.table.index := by
  unfold writeSlotIdx
  rw [journal_table]
  rfl

@[simp] theorem index_writeSlotIdx_none (n : Nat) (v : Slot) (s : State) : (writeSlotIdx n v none s).table.index = s.table.index := by
  unfold writeSlotIdx
  rw [journal_table]

theorem slots_writeSlotIdx (n : Nat) (v : Slot) (c : Option (Nat × IdxEntry)) (s : State) : (writeSlotIdx n v c s).table.slots =
    Kv.put n { v with img := setFld v.img 12 4 ((recSeq (imgOf s n)).toNat + 1) } s.table.slots := by
  unfold writeSlotIdx
  rw [journal_table]
  cases c <;> rfl

/-- The slot written holds the new record under the next RECORD_SEQ. -/
@[simp] theorem slotOf_writeSlotIdx_same (n : Nat) (v : Slot) (c : Option (Nat × IdxEntry)) (s : State) :
    slotOf (writeSlotIdx n v c s) n = { v with img := setFld v.img 12 4 ((recSeq (imgOf s n)).toNat + 1) } := by
  unfold slotOf Kv.getD
  rw [slots_writeSlotIdx, Kv.get?_put_same]
  rfl

theorem keys_writeSlotIdx (n : Nat) (v : Slot) (c : Option (Nat × IdxEntry)) (s : State) : (slotOf (writeSlotIdx n v c s) n).keys = v.keys := by
  rw [slotOf_writeSlotIdx_same]

theorem slotOf_writeSlotIdx_ne {n m : Nat} (hne : m ≠ n) (v : Slot) (c : Option (Nat × IdxEntry)) (s : State) :
    slotOf (writeSlotIdx n v c s) m = slotOf s m := by
  unfold slotOf Kv.getD
  rw [slots_writeSlotIdx, Kv.get?_put_ne _ hne]

/-- RECORD_SEQ moves on by one (R49). -/
theorem recSeq_writeSlotIdx (n : Nat) (v : Slot) (c : Option (Nat × IdxEntry)) (s : State) :
    recSeq (imgOf (writeSlotIdx n v c s) n) = recSeq (imgOf s n) + 1 := by
  refine BitVec.eq_of_toNat_eq ?_
  rw [recSeq_toNat]
  unfold imgOf
  rw [slotOf_writeSlotIdx_same, fld_setFld_same _ _ (by omega), BitVec.toNat_add]
  rfl

/-- Every field apart from RECORD_SEQ is the new record's. -/
theorem fld_writeSlotIdx (n : Nat) (v : Slot) (c : Option (Nat × IdxEntry)) (s : State) {o l : Nat} (hb : o + l ≤ 256) (hap : o + l ≤ 12 ∨ 16 ≤ o) :
    fld (imgOf (writeSlotIdx n v c s) n) o l = fld v.img o l := by
  unfold imgOf
  rw [slotOf_writeSlotIdx_same]
  exact fld_setFld_apart _ _ (by omega) hb hap

/-- A write of the image alone. -/
theorem writeRec_eq (n : Nat) (f : RecImg → RecImg) (s : State) :
    writeRec n f s = writeSlotIdx n { slotOf s n with img := f (imgOf s n) } none s := rfl

end Sys2Proof.Machine
end

section
/-!
SUPPORT. O19: TBL_WRITE and TBL_SET (R48, R49, R57, R76).
-/
namespace Sys2Proof.Machine

/-! ## What a write of the host changes in an image (R48) -/

@[simp] theorem fld_setIc_same (r : RecImg) (ic : Nat) : fld (setIc r ic) 80 4 = ic % 2 ^ 32 := by
  unfold setIc
  dsimp only
  split
  · rw [fld_setFlag_apart _ _ _ (by omega) (by omega)]
    exact fld_setFld_same r ic (by omega)
  · exact fld_setFld_same r ic (by omega)

/-- IC_LAST takes COUNTER_EXHAUSTED of FLAGS along (R52), and nothing else. -/
theorem fld_setIc_apart (r : RecImg) (ic : Nat) {o l : Nat} (hb : o + l ≤ 256) (hap : o + l ≤ 80 ∨ 84 ≤ o) (hflags : o + l ≤ 10 ∨ 12 ≤ o) :
    fld (setIc r ic) o l = fld r o l := by
  unfold setIc
  dsimp only
  split
  · rw [fld_setFlag_apart _ _ _ hb hflags]
    exact fld_setFld_apart r ic (by omega) hb hap
  · exact fld_setFld_apart r ic (by omega) hb hap

/-- How wide the fields with rules of their own are. -/
theorem hostField_widths : ∀ f ∈ wFields ++ aFields, f.1 + f.2 ≤ 256 ∧ (f.1 = 10 → f.2 = 2) ∧ (f.1 = 84 → f.2 = 1) ∧ (f.1 = 146 → f.2 = 1) ∧
    (f.1 = 16 → f.2 = 2) ∧ (f.1 = 80 → f.2 = 4) := by decide

/-- A field that the host writes leaves every field apart from it, save that IC_LAST may set a flag. -/
theorem fld_hostWrite_apart {f : Nat × Nat} (hf : f ∈ wFields ++ aFields) (r image : RecImg) {o l : Nat} (hb : o + l ≤ 256)
    (hap : o + l ≤ f.1 ∨ f.1 + f.2 ≤ o) (hflags : f.1 = 80 → o + l ≤ 10 ∨ 12 ≤ o) : fld (hostWrite f r image) o l = fld r o l := by
  obtain ⟨hend, h10, h84, h146, h16, h80⟩ := hostField_widths f hf
  unfold hostWrite
  dsimp only
  split
  next hfl =>
    have hfl' : o + l ≤ 10 ∨ 12 ≤ o := by have := h10 hfl; omega
    rw [fld_setFlag_apart _ _ _ hb hfl', fld_setFlag_apart _ _ _ hb hfl', fld_setFlag_apart _ _ _ hb hfl']
  split
  next hwin => exact fld_setFld_apart r _ (by omega) hb (by have := h84 hwin; omega)
  split
  next hph => exact fld_setFld_apart r _ (by omega) hb (by have := h146 hph; omega)
  split
  next hsv => exact fld_setFld_apart r _ (by omega) hb (by have := h16 hsv; omega)
  split
  next hic => exact fld_setIc_apart r _ hb (by have := h80 hic; omega) (hflags hic)
  next => exact fld_setFld_apart r _ hend hb hap

theorem hostWrites_cons (f : Nat × Nat) (fs : List (Nat × Nat)) (m : BitVec 256) (image r : RecImg) :
    hostWrites (f :: fs) m image r = hostWrites fs m image (if covers m f then hostWrite f r image else r) := rfl

/-- The covered fields of a list leave every field apart from them. -/
theorem fld_hostWrites_apart {m : BitVec 256} (image : RecImg) {o l : Nat} (hb : o + l ≤ 256) : ∀ {fs : List (Nat × Nat)} (r : RecImg),
    (∀ f ∈ fs, covers m f = true → f ∈ wFields ++ aFields ∧ (o + l ≤ f.1 ∨ f.1 + f.2 ≤ o) ∧ (f.1 = 80 → o + l ≤ 10 ∨ 12 ≤ o)) →
    fld (hostWrites fs m image r) o l = fld r o l
  | [], _, _ => rfl
  | f :: fs, r, hfs => by
    rw [hostWrites_cons, fld_hostWrites_apart image hb _ fun g hg => hfs g (List.mem_cons_of_mem f hg)]
    split
    next hc =>
      obtain ⟨hmem, hap, hflags⟩ := hfs f List.mem_cons_self hc
      exact fld_hostWrite_apart hmem r image hb hap hflags
    · rfl

/-- Two fields share no byte, and neither is IC_LAST beside FLAGS. -/
def fieldsApart (f g : Nat × Nat) : Bool :=
  decide (f.1 + f.2 ≤ g.1 ∨ g.1 + g.2 ≤ f.1) && decide (g.1 = 80 → f.1 + f.2 ≤ 10 ∨ 12 ≤ f.1)

theorem fieldsApart_iff {f g : Nat × Nat} :
    fieldsApart f g = true ↔ (f.1 + f.2 ≤ g.1 ∨ g.1 + g.2 ≤ f.1) ∧ (g.1 = 80 → f.1 + f.2 ≤ 10 ∨ 12 ≤ f.1) := by
  unfold fieldsApart
  rw [Bool.and_eq_true, decide_eq_true_eq, decide_eq_true_eq]

/-- A covered field of a list of fields apart from each other ends as its own write leaves it. -/
theorem fld_hostWrites_covered {m : BitVec 256} (image : RecImg) {f : Nat × Nat} (hc : covers m f = true) {fs : List (Nat × Nat)}
    (hfs : ∀ g ∈ fs, g ∈ wFields ++ aFields) (hap : fs.Pairwise (fun f g => fieldsApart f g = true)) (hf : f ∈ fs) (r : RecImg) :
    ∃ q, fld (hostWrites fs m image r) f.1 f.2 = fld (hostWrite f q image) f.1 f.2 := by
  induction fs generalizing r with
  | nil => cases hf
  | cons g fs ih =>
    obtain ⟨hg, hap⟩ := List.pairwise_cons.mp hap
    have hrest : ∀ x ∈ fs, x ∈ wFields ++ aFields := fun x hx => hfs x (List.mem_cons_of_mem g hx)
    rw [hostWrites_cons]
    rcases List.mem_cons.mp hf with rfl | hf
    · obtain ⟨hend, -⟩ := hostField_widths f (hfs f List.mem_cons_self)
      refine ⟨r, ?_⟩
      rw [hc, if_pos rfl]
      exact fld_hostWrites_apart image hend _ fun x hx _ => ⟨hrest x hx, fieldsApart_iff.mp (hg x hx)⟩
    · exact ih hrest hap hf _

/-- No field of class W is RECORD_SEQ, the service or IC_LAST. -/
theorem wField_place : ∀ f ∈ wFields, f.1 + f.2 ≤ 256 ∧ (f.1 + f.2 ≤ 12 ∨ 16 ≤ f.1) ∧ f.1 ≠ 16 ∧ f.1 ≠ 80 := by decide

/-- A covered field of class W ends as its own write leaves it. -/
theorem fld_hostWrites_w {m : BitVec 256} (image r : RecImg) {f : Nat × Nat} (hf : f ∈ wFields) (hc : covers m f = true) :
    ∃ q, fld (hostWrites wFields m image r) f.1 f.2 = fld (hostWrite f q image) f.1 f.2 :=
  fld_hostWrites_covered image hc (by decide) (by decide) hf r

/-- A covered field of class A ends as its own write leaves it. -/
theorem fld_hostWrites_a {m : BitVec 256} (image r : RecImg) {f : Nat × Nat} (hf : f ∈ aFields) (hc : covers m f = true) :
    ∃ q, fld (hostWrites aFields m image r) f.1 f.2 = fld (hostWrite f q image) f.1 f.2 :=
  fld_hostWrites_covered image hc (by decide) (by decide) hf r

/-- A field without a rule of its own takes the written value. -/
theorem fld_hostWrite_plain {f : Nat × Nat} (hf : f.1 ∉ [10, 84, 146, 16]) (hend : f.1 + f.2 ≤ 256) (h80 : f.1 = 80 → f.2 = 4) (q image : RecImg) :
    fld (hostWrite f q image) f.1 f.2 = fld image f.1 f.2 := by
  simp only [List.mem_cons, List.not_mem_nil, or_false, not_or] at hf
  obtain ⟨h10, h84, h146, h16⟩ := hf
  unfold hostWrite
  dsimp only
  rw [if_neg h10, if_neg h84, if_neg h146, if_neg h16]
  split
  next hic =>
    rw [hic, h80 hic, fld_setIc_same]
    exact fld_mod image 80 4
  next => rw [fld_setFld_same _ _ hend, fld_mod]

/-! ## The mask (R76) -/

/-- A byte of a covered field is masked. -/
theorem maskByte_of_covers {m : BitVec 256} {f : Nat × Nat} (hc : covers m f = true) {k : Nat} (hlo : f.1 ≤ k) (hhi : k < f.1 + f.2) :
    maskByte m k = true := by
  have hbyte := List.all_eq_true.mp hc (k - f.1) (List.mem_range.mpr (by omega))
  rwa [Nat.add_sub_cancel' hlo] at hbyte

/-- A byte that is not masked stays, apart from FLAGS beside IC_LAST. -/
theorem fld_hostWrites_unmasked {m : BitVec 256} (image r : RecImg) {fs : List (Nat × Nat)} (hfs : ∀ f ∈ fs, f ∈ wFields ++ aFields) {k : Nat}
    (hk : k < 256) (hm : maskByte m k = false) (hflags : (∀ f ∈ fs, f.1 ≠ 80) ∨ k ≠ 10 ∧ k ≠ 11) :
    fld (hostWrites fs m image r) k 1 = fld r k 1 := by
  refine fld_hostWrites_apart image (by omega) r fun f hf hc => ⟨hfs f hf, ?_, fun h80 => ?_⟩
  · refine Decidable.byContradiction fun hin => ?_
    rw [maskByte_of_covers hc (by omega) (by omega)] at hm
    exact Bool.noConfusion hm
  · rcases hflags with hno | hne
    · exact absurd h80 (hno f hf)
    · omega

theorem ne_zero_of_covers {m : BitVec 256} {f : Nat × Nat} (hc : covers m f = true) (hf : 0 < f.2) : m ≠ 0 := by
  intro hm
  have hbyte := maskByte_of_covers hc (Nat.le_refl _) (by omega)
  rw [hm] at hbyte
  simp [maskByte] at hbyte

/-! ## TBL_WRITE -/

/-- The sequence number that a command expects: any, or that of the record. -/
theorem expect_ok {expect seq : W32} (h : expect = 0 ∨ expect = seq) : (expect != 0 && expect != seq) = false := by
  rcases h with rfl | rfl <;> simp

theorem tblWrite_writes {slot : Nat} {expect : W32} {m : BitVec 256} {image : RecImg} {s : State} (hslot : slot < tblSize s)
    (hseq : expect = 0 ∨ expect = recSeq (imgOf s slot)) (hm : m ≠ 0) (hst : fld (imgOf s slot) 8 1 ∉ [0, 4]) (hok : maskOk wFields m = true)
    (hfl : flagsRefused m image (imgOf s slot) = false) :
    tblWrite slot expect m image s = (writeRec slot (hostWrites wFields m image) s, .done) := by
  simp only [List.mem_cons, List.not_mem_nil, or_false, not_or] at hst
  unfold tblWrite
  dsimp only
  rw [if_neg (by omega), expect_ok hseq, if_neg Bool.false_ne_true, if_neg hm, if_neg (by simp [recState, hst, hok, hfl])]

theorem tblWrite_stale {slot : Nat} {expect : W32} {m : BitVec 256} {image : RecImg} {s : State} (hslot : slot < tblSize s)
    (h0 : expect ≠ 0) (hseq : expect ≠ recSeq (imgOf s slot)) : tblWrite slot expect m image s = (s, .busy) := by
  unfold tblWrite
  dsimp only
  rw [if_neg (by omega), if_pos (by rw [Bool.and_eq_true, bne_iff_ne, bne_iff_ne]; exact ⟨h0, hseq⟩)]

theorem tblWrite_refused {slot : Nat} {m : BitVec 256} {image : RecImg} {s : State}
    (h : tblSize s ≤ slot ∨ m ≠ 0 ∧ (fld (imgOf s slot) 8 1 = 0 ∨ fld (imgOf s slot) 8 1 = 4 ∨ maskOk wFields m = false)) :
    tblWrite slot 0 m image s = (s, .bad) := by
  unfold tblWrite
  dsimp only
  split
  · rfl
  next hslot =>
    obtain ⟨hm, hwhy⟩ := h.resolve_left hslot
    rw [expect_ok (.inl rfl), if_neg Bool.false_ne_true, if_neg hm, if_pos]
    rcases hwhy with hst | hst | hok
    · simp [recState, hst]
    · simp [recState, hst]
    · simp [hok]

theorem tblWrite_nothing {slot : Nat} {image : RecImg} {s : State} (hslot : slot < tblSize s) : tblWrite slot 0 0 image s = (s, .done) := by
  unfold tblWrite
  dsimp only
  rw [if_neg (by omega), expect_ok (.inl rfl), if_neg Bool.false_ne_true, if_pos rfl]

/-! ## TBL_SET -/

theorem tblSet_nothing {slot : Nat} {image : RecImg} {s : State} (hslot : slot < tblSize s) : tblSet slot 0 0 image s = (s, .done) := by
  unfold tblSet
  dsimp only
  rw [if_neg (by omega), expect_ok (.inl rfl), if_neg Bool.false_ne_true, if_pos rfl]

/-- STATE changes that do not retire: from a state in service to one in service that R57 allows. -/
theorem stateChange_of_mem {a b : Nat} (h : (a, b) ∈ [(1, 1), (2, 2), (3, 3), (1, 3), (2, 3), (3, 2)]) :
    a ≠ 0 ∧ a ≠ 4 ∧ b ≠ 4 ∧ stateChange a b = true := by
  simp only [List.mem_cons, Prod.mk.injEq, List.not_mem_nil, or_false] at h
  rcases h with ⟨rfl, rfl⟩ | ⟨rfl, rfl⟩ | ⟨rfl, rfl⟩ | ⟨rfl, rfl⟩ | ⟨rfl, rfl⟩ | ⟨rfl, rfl⟩ <;> decide

/-- Any other change from a state in service is none of R57's. -/
theorem stateChange_of_not_mem {a b : Nat} (h0 : a ≠ 0) (h4 : a < 4)
    (h : (a, b) ∉ [(1, 1), (2, 2), (3, 3), (1, 3), (2, 3), (3, 2), (1, 4), (2, 4), (3, 4)]) : stateChange a b = false := by
  have ha : a = 1 ∨ a = 2 ∨ a = 3 := by omega
  unfold stateChange
  rcases ha with rfl | rfl | rfl
  all_goals
    simp at h ⊢
    omega

theorem tblSet_writes {slot : Nat} {expect : W32} {m : BitVec 256} {image : RecImg} {s : State} (hslot : slot < tblSize s)
    (hseq : expect = 0 ∨ expect = recSeq (imgOf s slot)) (hc : covers m (8, 1) = true) (hok : maskOk aFields m = true)
    (hst : (fld (imgOf s slot) 8 1, fld image 8 1) ∈ [(1, 1), (2, 2), (3, 3), (1, 3), (2, 3), (3, 2)]) :
    tblSet slot expect m image s = (icEvent slot (imgOf s slot) (hostWrites aFields m image (imgOf s slot))
      (writeRec slot (fun _ => hostWrites aFields m image (imgOf s slot)) s), .done) := by
  obtain ⟨h0, h4, hnot, hchange⟩ := stateChange_of_mem hst
  unfold tblSet
  dsimp only
  rw [if_neg (by omega), expect_ok hseq, if_neg Bool.false_ne_true, if_neg (ne_zero_of_covers hc (by decide)), if_neg (by simp [recState, h0, h4, hok]),
    if_neg (by simp [recState, hchange]), if_neg (by simp [hnot])]

theorem tblSet_refused {slot : Nat} {m : BitVec 256} {image : RecImg} {s : State} (hslot : slot < tblSize s) (hc : covers m (8, 1) = true)
    (hle : fld (imgOf s slot) 8 1 ≤ 4)
    (hst : (fld (imgOf s slot) 8 1, fld image 8 1) ∉ [(1, 1), (2, 2), (3, 3), (1, 3), (2, 3), (3, 2), (1, 4), (2, 4), (3, 4)]) :
    tblSet slot 0 m image s = (s, .bad) := by
  unfold tblSet
  dsimp only
  rw [if_neg (by omega), expect_ok (.inl rfl), if_neg Bool.false_ne_true, if_neg (ne_zero_of_covers hc (by decide))]
  split
  · rfl
  next hin =>
    simp only [Bool.or_eq_true, decide_eq_true_eq, Bool.not_eq_true', not_or] at hin
    obtain ⟨⟨h0, h4⟩, -⟩ := hin
    have hchange := stateChange_of_not_mem h0 (Nat.lt_of_le_of_ne hle h4) hst
    rw [hc, hchange]
    rfl

/-- Settles O19: TBL_WRITE and TBL_SET by the laws of what they do, their fields by the laws of what the host's writes change. -/
theorem recordWrites : Obligations.RecordWrites := by
  unfold Obligations.RecordWrites
  refine ⟨?write, fun h slot expect mask image s u hu hslot h0 hseq => exec_of_entered rfl hu (tblWrite_stale hslot h0 hseq),
    fun h slot mask image s u hu hwhy => exec_of_entered rfl hu (tblWrite_refused hwhy),
    fun h slot image s u hslot => ⟨fun hu => exec_of_entered rfl hu (tblWrite_nothing hslot), fun hu => exec_of_entered rfl hu (tblSet_nothing hslot)⟩, ?set,
    fun h slot mask image s u hu hslot hc hle hst => exec_of_entered rfl hu (tblSet_refused hslot hc hle hst)⟩
  case write =>
    intro h slot expect mask image s u hu hslot hseq hm hst hok hfl
    refine ⟨_, exec_of_entered rfl hu (tblWrite_writes hslot hseq hm hst hok hfl), ?_⟩
    simp only [slotOf_answered, imgOf_answered, writeRec_eq]
    refine ⟨recSeq_writeSlotIdx .., fun k hk hne hmask => ?_, fun f hf hc hplain => ?_, fun hc => ?_, keys_writeSlotIdx ..,
      fun n hne => slotOf_writeSlotIdx_ne hne ..⟩
    · rw [fld_writeSlotIdx _ _ _ _ (by omega) (by omega)]
      exact fld_hostWrites_unmasked image _ (by decide) hk hmask (.inl (by decide))
    · obtain ⟨hend, hap, h16, h80⟩ := wField_place f hf
      obtain ⟨q, hq⟩ := fld_hostWrites_w image (imgOf u slot) hf hc
      rw [fld_writeSlotIdx _ _ _ _ hend hap, hq]
      refine fld_hostWrite_plain ?_ hend (fun h => absurd h h80) q image
      simp only [List.mem_cons, List.not_mem_nil, or_false, not_or] at hplain ⊢
      omega
    · obtain ⟨q, hq⟩ := fld_hostWrites_w image (imgOf u slot) (f := (84, 1)) (by decide) hc
      rw [fld_writeSlotIdx _ _ _ _ (by omega) (by omega), hq]
      exact (fld_setFld_same q _ (by omega)).trans (Nat.mod_eq_of_lt (by omega))
  case set =>
    intro h slot expect mask image s u hu hslot hseq hc hok hst
    refine ⟨_, exec_of_entered rfl hu (tblSet_writes hslot hseq hc hok hst), ?_⟩
    simp only [slotOf_answered, imgOf_answered, (icEvent_changes ..).slotOf_eq, (icEvent_changes ..).imgOf_eq, writeRec_eq]
    refine ⟨?_, recSeq_writeSlotIdx .., fun hc => ?_, fun hc => ?_, fun k hk hne h10 h11 hmask => ?_, keys_writeSlotIdx ..,
      fun n hne => slotOf_writeSlotIdx_ne hne ..⟩
    · obtain ⟨q, hq⟩ := fld_hostWrites_a image (imgOf u slot) (f := (8, 1)) (by decide) hc
      rw [fld_writeSlotIdx _ _ _ _ (by omega) (by omega), hq]
      exact fld_hostWrite_plain (by decide) (by decide) (by decide) q image
    · obtain ⟨q, hq⟩ := fld_hostWrites_a image (imgOf u slot) (f := (16, 2)) (by decide) hc
      unfold recService
      rw [fld_writeSlotIdx _ _ _ _ (by omega) (by omega), hq]
      refine BitVec.eq_of_toNat_eq ?_
      have hfield : fld (hostWrite (16, 2) q image) 16 2 = fld image 16 2 % 4096 % 2 ^ (8 * 2) := fld_setFld_same q _ (by omega)
      rw [hfield, BitVec.toNat_ofNat, BitVec.toNat_ofNat]
      omega
    · obtain ⟨q, hq⟩ := fld_hostWrites_a image (imgOf u slot) (f := (80, 4)) (by decide) hc
      rw [fld_writeSlotIdx _ _ _ _ (by omega) (by omega), hq]
      exact fld_hostWrite_plain (by decide) (by decide) (by decide) q image
    · rw [fld_writeSlotIdx _ _ _ _ (by omega) (by omega)]
      exact fld_hostWrites_unmasked image _ (by decide) hk hmask (.inr ⟨h10, h11⟩)

end Sys2Proof.Machine
end

section
/-!
SUPPORT. Retirement (R65, R94, R216): the record that a retirement leaves, the slot that becomes FREE, and the release that is sent.
-/
namespace Sys2Proof.Machine

/-- The role stands where neither the boot nor the keys change. -/
theorem Changes.roleOf_eq {W : List Part} {s t : State} (h : Changes W s t) (hsec : Part.sec ∉ W := by decide) (hboot : Part.boot ∉ W := by decide) :
    roleOf t = roleOf s := by
  have hs : t.sec = s.sec := h.same .sec hsec
  have hb : t.boot = s.boot := h.same .boot hboot
  unfold roleOf
  rw [hs, hb]

/-- A HEAD unit is no FIELD unit. -/
theorem isField_of_isHead {s : State} (h : isHead s = true) : isField s = false := by
  unfold isHead at h
  unfold isField
  rw [eq_of_beq h]
  rfl

/-- Settings read the same after what changes none. -/
theorem Changes.fieldOf_eq {W : List Part} {s t : State} (h : Changes W s t) (hs : s.RegsOk) {off : Nat} (hi lo : Nat) (ho : isSetup off = true)
    (hW : Part.setup ∉ W := by decide) : fieldOf t off hi lo = fieldOf s off hi lo :=
  congrArg (bits · hi lo) (h.keepsSettings hW hs off ho)

/-! ## A slot becomes FREE -/

/-- What stays of a record whose slot becomes FREE: RECORD_SEQ alone. -/
def freedSlot (r : RecImg) : Slot := ⟨setFld 0 12 4 (fld r 12 4), noKeys, 0⟩

theorem freeTheSlot_eq (n : Nat) (c : Option (Nat × IdxEntry)) (s : State) : freeTheSlot n c s =
    { writeSlotIdx n (freedSlot (imgOf s n)) c s with
      sec := { (writeSlotIdx n (freedSlot (imgOf s n)) c s).sec with signers := Kv.del n (writeSlotIdx n (freedSlot (imgOf s n)) c s).sec.signers } } := rfl

theorem freeTheSlot_table (n : Nat) (c : Option (Nat × IdxEntry)) (s : State) :
    (freeTheSlot n c s).table = (writeSlotIdx n (freedSlot (imgOf s n)) c s).table := rfl

/-- The signer entry of the slot goes with it (R94). -/
theorem freeTheSlot_sec (n : Nat) (c : Option (Nat × IdxEntry)) (s : State) :
    (freeTheSlot n c s).sec = { s.sec with signers := Kv.del n s.sec.signers } := by
  have hsec : (writeSlotIdx n (freedSlot (imgOf s n)) c s).sec = s.sec := (writeSlotIdx_changes ..).same .sec (by decide)
  rw [freeTheSlot_eq, hsec]

theorem slotOf_freeTheSlot_ne {n m : Nat} (hne : m ≠ n) (c : Option (Nat × IdxEntry)) (s : State) : slotOf (freeTheSlot n c s) m = slotOf s m :=
  (slotOf_congr (congrArg Table.slots (freeTheSlot_table n c s)) m).trans (slotOf_writeSlotIdx_ne hne ..)

theorem imgOf_freeTheSlot (n : Nat) (c : Option (Nat × IdxEntry)) (s : State) :
    imgOf (freeTheSlot n c s) n = imgOf (writeSlotIdx n (freedSlot (imgOf s n)) c s) n := imgOf_congr (congrArg Table.slots (freeTheSlot_table n c s)) n

theorem fld_freedSlot (r : RecImg) {o l : Nat} (hb : o + l ≤ 256) (hap : o + l ≤ 12 ∨ 16 ≤ o) : fld (freedSlot r).img o l = 0 :=
  (fld_setFld_apart 0 _ (by omega) hb hap).trans (fld_zero o l)

theorem recState_freeTheSlot (n : Nat) (c : Option (Nat × IdxEntry)) (s : State) : recState (imgOf (freeTheSlot n c s) n) = 0 := by
  unfold recState
  rw [imgOf_freeTheSlot, fld_writeSlotIdx _ _ _ _ (by omega) (by omega), fld_freedSlot _ (by omega) (by omega)]

theorem recSeq_freeTheSlot (n : Nat) (c : Option (Nat × IdxEntry)) (s : State) :
    recSeq (imgOf (freeTheSlot n c s) n) = recSeq (imgOf s n) + 1 := by
  rw [imgOf_freeTheSlot, recSeq_writeSlotIdx]

theorem keys_freeTheSlot (n : Nat) (c : Option (Nat × IdxEntry)) (s : State) : (slotOf (freeTheSlot n c s) n).keys = noKeys := by
  rw [slotOf_congr (congrArg Table.slots (freeTheSlot_table n c s)), slotOf_writeSlotIdx_same]
  rfl

/-! ## A record is retired -/

/-- The record that a retirement writes: STATE 4, no campaign, the instant of retirement. -/
def retiredSlot (n : Nat) (s : State) : Slot := { slotOf s n with img := setFld (setFld (imgOf s n) 8 1 4) 152 8 0, retiredAt := s.tim.clk }

/-- The record written and the index entry gone. -/
def retiring (n : Nat) (s : State) : State :=
  writeSlotIdx n (retiredSlot n s) (idxDeletion s (recTitle (imgOf s n))) (keepReadings n s)

/-- The release sent, where one is. -/
def released (n : Nat) (release : Bool) (s : State) : State :=
  if release && recService (imgOf s n) != 0xFFF#12 then sendRelease (recService (imgOf s n)) n (recTitle (imgOf s n)) (retiring n s) else retiring n s

/-- Retirement short of the slot becoming FREE: the fingerprint and the memberships have gone too. -/
def retired (n : Nat) (release : Bool) (s : State) : State :=
  dropFingerprint (recTitle (imgOf s n)) (dropMemberships (recTitle (imgOf s n)) (released n release s))

theorem retire_eq (n : Nat) (release : Bool) (s : State) : retire n release s =
    if fieldOf (retired n release s) 0x204 15 8 = 0 && !slotHeld n (retired n release s) then freeTheSlot n none (retired n release s)
    else retired n release s := rfl

/-- A retirement frees the slot, or leaves it RETIRED. -/
theorem retire_cases (n : Nat) (release : Bool) (s : State) :
    retire n release s = retired n release s ∨ retire n release s = freeTheSlot n none (retired n release s) := by
  rw [retire_eq]
  split
  · exact .inr rfl
  · exact .inl rfl

theorem released_changes (n : Nat) (release : Bool) (s : State) :
    Changes [.regs, .win, .relay, .jr, .evt] (retiring n s) (released n release s) := by
  unfold released
  exact .ite (sendRelease_changes ..) .refl

theorem dropped_changes (n : Nat) (release : Bool) (s : State) : Changes [.camp, .plc, .jr] (released n release s) (retired n release s) :=
  .step (dropFingerprint_changes ..) ((dropMemberships_changes ..).mono rfl) rfl

theorem retired_changes (n : Nat) (release : Bool) (s : State) :
    Changes [.regs, .win, .camp, .plc, .relay, .jr, .evt] (retiring n s) (retired n release s) :=
  .step (dropped_changes ..) ((released_changes ..).mono rfl) rfl

theorem retiring_changes (n : Nat) (s : State) : Changes [.table, .pipe, .jr] s (retiring n s) :=
  .step (writeSlotIdx_changes ..) ((keepReadings_changes ..).mono rfl) rfl

/-- A reading that is kept still holds its slot. -/
theorem slotHeld_keepReadings (n m : Nat) (s : State) : slotHeld m (keepReadings n s) = slotHeld m s := by
  unfold slotHeld keepReadings
  dsimp only
  rw [List.any_map]
  congr 1
  funext f
  rw [Function.comp_apply]
  split <;> rfl

theorem slotHeld_retired (n : Nat) (release : Bool) (s : State) (m : Nat) : slotHeld m (retired n release s) = slotHeld m s := by
  have hpipe : (retired n release s).pipe = (retiring n s).pipe := (retired_changes ..).same .pipe (by decide)
  have hwrite : (retiring n s).pipe = (keepReadings n s).pipe := (writeSlotIdx_changes ..).same .pipe (by decide)
  rw [← slotHeld_keepReadings n m s]
  unfold slotHeld
  rw [hpipe, hwrite]

/-- RETIRE_HOLD stands through a retirement. -/
theorem retireHold_retired (n : Nat) (release : Bool) {s : State} (hs : s.RegsOk) : fieldOf (retired n release s) 0x204 15 8 = fieldOf s 0x204 15 8 := by
  rw [(retired_changes n release s).fieldOf_eq ((retiring_changes n s).regsOk hs) 15 8 rfl, (retiring_changes n s).fieldOf_eq hs 15 8 rfl]

/-- The slot stays RETIRED while its hold lasts or a token holds it. -/
theorem retire_of_hold {n : Nat} (release : Bool) {s : State} (hs : s.RegsOk) (h : fieldOf s 0x204 15 8 ≠ 0 ∨ slotHeld n s = true) :
    retire n release s = retired n release s := by
  rw [retire_eq, retireHold_retired n release hs, slotHeld_retired]
  exact if_neg (by rcases h with h | h <;> simp [h])

/-- Without a hold and a token the slot becomes FREE at once. -/
theorem retire_of_noHold {n : Nat} (release : Bool) {s : State} (hs : s.RegsOk) (hhold : fieldOf s 0x204 15 8 = 0) (hheld : slotHeld n s = false) :
    retire n release s = freeTheSlot n none (retired n release s) := by
  rw [retire_eq, retireHold_retired n release hs, slotHeld_retired]
  exact if_pos (by simp [hhold, hheld])

theorem slotOf_retired (n : Nat) (release : Bool) (s : State) (m : Nat) : slotOf (retired n release s) m = slotOf (retiring n s) m :=
  (retired_changes ..).slotOf_eq m

theorem imgOf_retired (n : Nat) (release : Bool) (s : State) (m : Nat) : imgOf (retired n release s) m = imgOf (retiring n s) m :=
  (retired_changes ..).imgOf_eq m

theorem slotOf_retired_ne {n m : Nat} (hne : m ≠ n) (release : Bool) (s : State) : slotOf (retired n release s) m = slotOf s m :=
  (slotOf_retired ..).trans ((slotOf_writeSlotIdx_ne hne ..).trans ((keepReadings_changes n s).slotOf_eq m))

/-- A retirement leaves every other slot. -/
theorem slotOf_retire_ne {n m : Nat} (hne : m ≠ n) (release : Bool) (s : State) : slotOf (retire n release s) m = slotOf s m := by
  rcases retire_cases n release s with h | h
  · rw [h, slotOf_retired_ne hne]
  · rw [h, slotOf_freeTheSlot_ne hne, slotOf_retired_ne hne]

theorem recState_retired (n : Nat) (release : Bool) (s : State) : recState (imgOf (retired n release s) n) = 4 := by
  unfold recState
  rw [imgOf_retired]
  unfold retiring retiredSlot
  rw [fld_writeSlotIdx _ _ _ _ (by omega) (by omega), fld_setFld_apart _ _ (by omega) (by omega) (by omega)]
  exact fld_setFld_same _ _ (by omega)

theorem recSeq_retired (n : Nat) (release : Bool) (s : State) : recSeq (imgOf (retired n release s) n) = recSeq (imgOf s n) + 1 := by
  rw [imgOf_retired]
  unfold retiring
  rw [recSeq_writeSlotIdx, (keepReadings_changes n s).imgOf_eq]

theorem keys_and_time_retired (n : Nat) (release : Bool) (s : State) :
    (slotOf (retired n release s) n).keys = (slotOf s n).keys ∧ (slotOf (retired n release s) n).retiredAt = s.tim.clk := by
  rw [slotOf_retired]
  unfold retiring
  rw [slotOf_writeSlotIdx_same]
  exact ⟨rfl, rfl⟩

/-- After a retirement the slot is RETIRED or FREE. -/
theorem recState_retire (n : Nat) (release : Bool) (s : State) : recState (imgOf (retire n release s) n) = 0 ∨ recState (imgOf (retire n release s) n) = 4 := by
  rcases retire_cases n release s with h | h
  · rw [h]
    exact .inr (recState_retired ..)
  · rw [h]
    exact .inl (recState_freeTheSlot ..)

/-- A retirement takes the title out of the index and changes nothing else there. -/
theorem index_retire (n : Nat) (release : Bool) (s : State) : (retire n release s).table.index = (retiring n s).table.index := by
  have htable : (retired n release s).table = (retiring n s).table := (retired_changes ..).same .table (by decide)
  rcases retire_cases n release s with h | h
  · rw [h, htable]
  · rw [h, freeTheSlot_table, index_writeSlotIdx_none, htable]

theorem index_retire_some {n : Nat} {s : State} {c : Nat × IdxEntry} (hc : idxDeletion s (recTitle (imgOf s n)) = some c) (release : Bool) :
    (retire n release s).table.index = Kv.put c.1 c.2 s.table.index := by
  rw [index_retire]
  unfold retiring
  rw [hc, index_writeSlotIdx_some]
  rfl

theorem index_retire_none {n : Nat} {s : State} (hc : idxDeletion s (recTitle (imgOf s n)) = none) (release : Bool) :
    (retire n release s).table.index = s.table.index := by
  rw [index_retire]
  unfold retiring
  rw [hc, index_writeSlotIdx_none]
  rfl

/-! ## The release (R63, R65) -/

/-- A unit that is no FIELD unit puts an entry behind those its path already holds. -/
theorem sendEntry_holds {s : State} (hf : isField s = false) (u : BitVec 12) (e : Entry) :
    ∃ k l, Kv.get? k (sendEntry u e s).relay.open_ = some (l ++ [(s.tim.raw, e)]) := by
  have hheld : sendEntry u e s = holdEntry u e s := if_neg (by simp [hf])
  refine ⟨pathKey u (entryPort s u e), s.relay.open_.getD (pathKey u (entryPort s u e)) [], ?_⟩
  rw [hheld]
  unfold holdEntry
  rw [journal_relay]
  exact Kv.get?_put_same ..

/-- The entries before a release take memberships away. -/
def membershipsRemoved (u : BitVec 12) (slot : Nat) (s : State) : State :=
  (membersOf s slot).foldl (fun t p => sendEntry u (.campCtl p.1 (.remove [slot])) t) s

theorem membershipsRemoved_changes (u : BitVec 12) (slot : Nat) (s : State) :
    Changes [.regs, .win, .relay, .jr, .evt] s (membershipsRemoved u slot s) := by
  unfold membershipsRemoved
  exact .foldl (fun _ _ h => .step (sendEntry_changes ..) h rfl) .refl

/-- A HEAD unit's release is the last entry of its path. -/
theorem sendRelease_holds {s : State} (hh : isHead s = true) (u : BitVec 12) (slot : Nat) (title : W64) :
    ∃ k l, Kv.get? k (sendRelease u slot title s).relay.open_ = some (l ++ [(s.tim.raw, .release title)]) := by
  have hchanges := membershipsRemoved_changes u slot s
  have hrole : isHead (membershipsRemoved u slot s) = true := by
    unfold isHead
    rw [hchanges.roleOf_eq]
    exact hh
  have htim : (membershipsRemoved u slot s).tim = s.tim := hchanges.same .tim (by decide)
  rw [← htim]
  exact sendEntry_holds (isField_of_isHead hrole) u (.release title)

theorem relay_retire (n : Nat) (release : Bool) (s : State) : (retire n release s).relay = (released n release s).relay := by
  have hdrop : (retired n release s).relay = (released n release s).relay := (dropped_changes ..).same .relay (by decide)
  have hfree : (freeTheSlot n none (retired n release s)).relay = (retired n release s).relay := (freeTheSlot_changes ..).same .relay (by decide)
  rcases retire_cases n release s with h | h
  · rw [h, hdrop]
  · rw [h, hfree, hdrop]

/-- A HEAD unit that retires a meter at a unit sends that unit the release (R65). -/
theorem retire_releases {n : Nat} {s : State} (hh : isHead s = true) (hsvc : recService (imgOf s n) ≠ 0xFFF#12) :
    ∃ k l, Kv.get? k (retire n true s).relay.open_ = some (l ++ [(s.tim.raw, .release (recTitle (imgOf s n)))]) := by
  have hchanges := retiring_changes n s
  have hrole : isHead (retiring n s) = true := by
    unfold isHead
    rw [hchanges.roleOf_eq]
    exact hh
  have htim : (retiring n s).tim = s.tim := hchanges.same .tim (by decide)
  have hsent : released n true s = sendRelease (recService (imgOf s n)) n (recTitle (imgOf s n)) (retiring n s) := if_pos (by simpa using hsvc)
  rw [relay_retire, hsent, ← htim]
  exact sendRelease_holds hrole ..

end Sys2Proof.Machine
end

section
/-!
SUPPORT. O20: TBL_PROVISION, TBL_KEY_STAGE, TBL_RETIRE and KEY_SIGNER_LOAD (R54, R55, R57, R65, R69, R77, R94).
-/
namespace Sys2Proof.Machine

/-! ## TBL_PROVISION -/

/-- The image of a record as TBL_PROVISION makes it, of the fields that are not zero (R77). -/
def provisioned (title : W64) (gen window : Byte) (rules : BitVec 16) (service : BitVec 12) (s : State) : RecImg :=
  setFld (setFld (setFld (setFld (setFld (setFld (setFld (setFld 0 0 8 title.toNat) 8 1 1) 9 1 0xC0) 16 2 service.toNat) 18 2 0xFFFF)
    28 4 ((newestTkek s).1 * 2 ^ 24 + gen.toNat * 2 ^ 8)) 84 1 (min 64 window.toNat)) 142 2 rules.toNat

theorem provisioned_fields (title : W64) (gen window : Byte) (rules : BitVec 16) (service : BitVec 12) (s : State) {r : RecImg}
    (hr : r = provisioned title gen window rules service s) :
    BitVec.ofNat 64 (fld r 0 8) = title ∧ fld r 8 1 = 1 ∧ fld r 9 1 = 0xC0 ∧ BitVec.ofNat 12 (fld r 16 2) = service ∧ fld r 18 2 = 0xFFFF ∧
      fld r 28 1 = (newestTkek s).1 % 256 ∧ fld r 84 1 = min 64 window.toNat ∧ fld r 142 2 = rules.toNat := by
  rw [hr]
  unfold provisioned
  refine ⟨BitVec.eq_of_toNat_eq ?title, ?state, ?link, BitVec.eq_of_toNat_eq ?service, ?short, ?kek, ?window, ?rules⟩
  case kek =>
    rw [fld_setFld_apart _ _ (by omega) (by omega) (by omega), fld_setFld_apart _ _ (by omega) (by omega) (by omega),
      fld_setFld_within _ _ (by omega) (by omega) (by omega)]
    have hgen := gen.isLt
    omega
  have htitle := title.isLt
  have hservice := service.isLt
  have hrules := rules.isLt
  all_goals simp (disch := omega) only [fld_setFld_apart, fld_setFld_same, BitVec.toNat_ofNat] <;> omega

section
variable {h : Hdr} {title : W64} {gen window : Byte} {rules : BitVec 16} {service : BitVec 12} {ek ak : Wrapped} {s : State}

theorem tblProvision_takes {e a : Key} {n : Nat} {c : Nat × IdxEntry} (hh : isHead s = true) (hnew : idxFind s title = none)
    (he : unwrapCmd h s ek = some e) (ha : unwrapCmd h s ak = some a) (hfree : freeSlot s = some n) (hc : idxInsertion s title n = some c) :
    tblProvision h title gen window rules service ek ak s =
      (writeSlotIdx n ⟨provisioned title gen window rules service s, ⟨rewrap s e, rewrap s a, noWrap, noWrap, 0⟩, 0⟩ (some c) s,
        ⟨.ok, padTo 40 (be 4 n), []⟩) := by
  unfold tblProvision
  rw [if_neg (by simp [hh, hnew]), he, ha, hfree]
  dsimp only
  rw [hc]
  rfl

theorem tblProvision_refused (hwhy : isHead s = false ∨ (idxFind s title).isSome = true ∨ unwrapCmd h s ek = none ∨ unwrapCmd h s ak = none) :
    tblProvision h title gen window rules service ek ak s = (s, .bad) := by
  unfold tblProvision
  split
  · rfl
  next hin =>
    simp only [Bool.or_eq_true, Bool.not_eq_true', not_or] at hin
    obtain ⟨hh, hnew⟩ := hin
    rcases hwhy with hno | hsome | he | ha
    · exact absurd hno hh
    · exact absurd hsome hnew
    · rw [he]
    · rw [ha]
      cases unwrapCmd h s ek <;> rfl

theorem tblProvision_full (hh : isHead s = true) (hnew : idxFind s title = none) (he : (unwrapCmd h s ek).isSome = true)
    (ha : (unwrapCmd h s ak).isSome = true) (hfree : freeSlot s = none) :
    tblProvision h title gen window rules service ek ak s = (insertRefused 2 none title s, .busy) := by
  obtain ⟨e, he⟩ := Option.isSome_iff_exists.mp he
  obtain ⟨a, ha⟩ := Option.isSome_iff_exists.mp ha
  unfold tblProvision
  rw [if_neg (by simp [hh, hnew]), he, ha, hfree]

end

/-- A saturating count by one. -/
theorem toNat_satAdd_one (w : W32) : (satAdd w 1).toNat = min 0xFFFFFFFF (w.toNat + 1) := by
  have hlt := w.isLt
  unfold satAdd
  split
  · rw [BitVec.toNat_ofNat]
    omega
  · rw [BitVec.toNat_ofNat]
    omega

/-- A refused insertion counts in CTL_TBL_JOIN_REFUSED (R54, R77). -/
theorem reg_insertRefused {s : State} (hs : s.RegsOk) (reason : Nat) (slot : Option Nat) (title : W64) :
    reg (insertRefused reason slot title s) 0x210 = satAdd (reg s 0x210) 1 := by
  unfold insertRefused
  rw [reg_congr (event_regs ..), reg_count_same hs]

/-! ## TBL_KEY_STAGE -/

/-- The keys as TBL_KEY_STAGE leaves them (R69): the staged ones pending, the current ones wrapped anew if both unwrap. -/
def stagedKeys (e a : Key) (gen : Byte) (v : Slot) (s : State) : RecKeys :=
  match unwrapRec s (kekVer v.img) v.keys.ek, unwrapRec s (kekVer v.img) v.keys.ak with
  | some x, some y => ⟨rewrap s x, rewrap s y, rewrap s e, rewrap s a, gen⟩
  | _, _ => ⟨v.keys.ek, v.keys.ak, rewrap s e, rewrap s a, gen⟩

theorem stagedKeys_pendEk (e a : Key) (gen : Byte) (v : Slot) (s : State) : (stagedKeys e a gen v s).pendEk = rewrap s e := by
  unfold stagedKeys
  split <;> rfl

theorem stagedKeys_pendAk (e a : Key) (gen : Byte) (v : Slot) (s : State) : (stagedKeys e a gen v s).pendAk = rewrap s a := by
  unfold stagedKeys
  split <;> rfl

theorem stagedKeys_pendGen (e a : Key) (gen : Byte) (v : Slot) (s : State) : (stagedKeys e a gen v s).pendGen = gen := by
  unfold stagedKeys
  split <;> rfl

section
variable {e a : Key} {gen : Byte} {v : Slot} {s : State}

theorem stagedKeys_of_some {x y : Key} (hx : unwrapRec s (kekVer v.img) v.keys.ek = some x) (hy : unwrapRec s (kekVer v.img) v.keys.ak = some y) :
    (stagedKeys e a gen v s).ek = rewrap s x ∧ (stagedKeys e a gen v s).ak = rewrap s y := by
  unfold stagedKeys
  rw [hx, hy]
  exact ⟨rfl, rfl⟩

theorem stagedKeys_of_none
    (hnone : ∀ x y, unwrapRec s (kekVer v.img) v.keys.ek = some x → unwrapRec s (kekVer v.img) v.keys.ak = some y → False) :
    (stagedKeys e a gen v s).ek = v.keys.ek ∧ (stagedKeys e a gen v s).ak = v.keys.ak := by
  unfold stagedKeys
  split
  next x y hx hy => exact (hnone x y hx hy).elim
  next => exact ⟨rfl, rfl⟩

end

theorem tblKeyStage_stages {h : Hdr} {slot : Nat} {gen : Byte} {ek ak : Wrapped} {e a : Key} {s : State} (hslot : slot < tblSize s)
    (hst : fld (imgOf s slot) 8 1 ∉ [0, 4]) (he : unwrapCmd h s ek = some e) (ha : unwrapCmd h s ak = some a) :
    tblKeyStage h slot gen ek ak s =
      (writeSlotIdx slot ⟨setFld (setFld (imgOf s slot) 28 1 (newestTkek s).1) 31 1 0x80, stagedKeys e a gen (slotOf s slot) s,
        (slotOf s slot).retiredAt⟩ none s, .done) := by
  simp only [List.mem_cons, List.not_mem_nil, or_false, not_or] at hst
  obtain ⟨h0, h4⟩ := hst
  have hin : ¬((decide (slot ≥ tblSize s) || decide (recState (slotOf s slot).img = 0) || decide (recState (slotOf s slot).img = 4)) = true) := by
    simp only [Bool.or_eq_true, decide_eq_true_eq, not_or]
    exact ⟨⟨by omega, h0⟩, h4⟩
  unfold tblKeyStage
  dsimp only
  rw [if_neg hin, he, ha]
  unfold stagedKeys
  dsimp only
  cases unwrapRec s (kekVer (slotOf s slot).img) (slotOf s slot).keys.ek with
  | none => rfl
  | some x =>
    cases unwrapRec s (kekVer (slotOf s slot).img) (slotOf s slot).keys.ak with
    | none => rfl
    | some y => rfl

/-! ## TBL_RETIRE, and TBL_SET of RETIRED -/

theorem tblRetire_retires {slot : Nat} {s : State} (hslot : slot < tblSize s) (hst : fld (imgOf s slot) 8 1 ∉ [0, 4]) :
    tblRetire slot s = (retire slot (isHead s) s, .done) := by
  simp only [List.mem_cons, List.not_mem_nil, or_false, not_or] at hst
  obtain ⟨h0, h4⟩ := hst
  refine if_neg ?_
  simp only [Bool.or_eq_true, decide_eq_true_eq, not_or]
  exact ⟨⟨by omega, h0⟩, h4⟩

theorem tblSet_retires {slot : Nat} {m : BitVec 256} {image : RecImg} {s : State} (hslot : slot < tblSize s)
    (hst : fld (imgOf s slot) 8 1 ∈ [1, 2, 3]) (hc : covers m (8, 1) = true) (himg : fld image 8 1 = 4) (hok : maskOk aFields m = true)
    (hsvc : covers m (16, 2) = false) (hic : covers m (80, 4) = false) : tblSet slot 0 m image s = (retire slot (isHead s) s, .done) := by
  have hchange : recState (imgOf s slot) ≠ 0 ∧ recState (imgOf s slot) ≠ 4 ∧ stateChange (recState (imgOf s slot)) 4 = true := by
    simp only [List.mem_cons, List.not_mem_nil, or_false] at hst
    unfold recState
    rcases hst with hst | hst | hst <;> rw [hst] <;> decide
  obtain ⟨h0, h4, hchange⟩ := hchange
  unfold tblSet
  dsimp only
  rw [if_neg (by omega), expect_ok (.inl rfl), if_neg Bool.false_ne_true, if_neg (ne_zero_of_covers hc (by decide)), if_neg (by simp [h0, h4, hok]),
    himg, if_neg (by simp [hchange]), if_pos (by simp [hc]), hsvc, hic]
  rfl

/-! ## KEY_SIGNER_LOAD -/

/-- The signer store after a load, or after a clear with curve 0 (R94). -/
def signersAfter (slot curve : Nat) (key : BitVec 768) (m : Kv PubKey) : Kv PubKey :=
  if curve = 0 then Kv.del slot m else Kv.put slot ⟨curve, key⟩ m

theorem keySignerLoad_loads {slot curve : Nat} {key : BitVec 768} {s : State} (hh : isHead s = true) (hslot : slot < tblSize s)
    (hst : fld (imgOf s slot) 8 1 ∉ [0, 4]) (hcurve : curve ≤ 2) :
    keySignerLoad slot curve key s = (journal (.signer slot (Kv.get? slot (signersAfter slot curve key s.sec.signers)))
      { s with sec := { s.sec with signers := signersAfter slot curve key s.sec.signers } }, .done) := by
  simp only [List.mem_cons, List.not_mem_nil, or_false, not_or] at hst
  obtain ⟨h0, h4⟩ := hst
  have hin : ¬((decide (slot ≥ tblSize s) || decide (recState (imgOf s slot) = 0) || decide (recState (imgOf s slot) = 4) || decide (2 < curve) ||
      !isHead s) = true) := by
    simp only [Bool.or_eq_true, decide_eq_true_eq, Bool.not_eq_true', not_or]
    exact ⟨⟨⟨⟨by omega, h0⟩, h4⟩, by omega⟩, by simp [hh]⟩
  exact if_neg hin

theorem signersAfter_same {slot curve : Nat} (key : BitVec 768) {m : Kv PubKey} (hm : Kv.wf m = true) :
    Kv.get? slot (signersAfter slot curve key m) = if curve = 0 then none else some ⟨curve, key⟩ := by
  unfold signersAfter
  split
  · exact Kv.get?_del_same slot hm
  · exact Kv.get?_put_same ..

theorem signersAfter_ne {slot n : Nat} (hne : n ≠ slot) (curve : Nat) (key : BitVec 768) {m : Kv PubKey} (hm : Kv.wf m = true) :
    Kv.get? n (signersAfter slot curve key m) = Kv.get? n m := by
  unfold signersAfter
  split
  · exact Kv.get?_del_ne hne hm
  · exact Kv.get?_put_ne _ hne

/-- Settles O20: each command by the law of what it does, the record it leaves by the laws of record writes and of retirement. -/
theorem meterLifecycle : Obligations.MeterLifecycle := by
  unfold Obligations.MeterLifecycle
  refine ⟨?provision, ?provisionRefused, ?stage, ?retire, ?setRetired, ?signer⟩
  case provision =>
    intro h title gen window rules service ek ak e a n c s u hu hh hnew he ha hfree hc
    refine ⟨_, exec_of_entered rfl hu (tblProvision_takes hh hnew he ha hfree hc), ?_⟩
    simp only [slotOf_answered, imgOf_answered, answered_table, recTitle, recService]
    have hfld : ∀ o l, o + l ≤ 256 ∧ (o + l ≤ 12 ∨ 16 ≤ o) → fld (imgOf (writeSlotIdx n
        ⟨provisioned title gen window rules service u, ⟨rewrap u e, rewrap u a, noWrap, noWrap, 0⟩, 0⟩ (some c) u) n) o l =
        fld (provisioned title gen window rules service u) o l := fun o l ⟨hb, hap⟩ => fld_writeSlotIdx _ _ _ _ hb hap
    obtain ⟨htitle, hst, hlink, hsvc, hshort, hkek, hwin, hrules⟩ := provisioned_fields title gen window rules service u rfl
    rw [hfld 0 8 (by decide), hfld 8 1 (by decide), hfld 9 1 (by decide), hfld 16 2 (by decide), hfld 18 2 (by decide), hfld 28 1 (by decide),
      hfld 84 1 (by decide), hfld 142 2 (by decide), keys_writeSlotIdx]
    exact ⟨index_writeSlotIdx_some .., htitle, hst, hlink, hsvc, hshort, hkek, hwin, hrules, recSeq_writeSlotIdx .., rfl, rfl,
      fun m hne => slotOf_writeSlotIdx_ne hne ..⟩
  case provisionRefused =>
    intro h title gen window rules service ek ak s u hu
    refine ⟨fun hwhy => exec_of_entered rfl hu (tblProvision_refused hwhy), fun hh hnew he ha hfree hregs =>
      ⟨insertRefused 2 none title u, exec_of_entered rfl hu (tblProvision_full hh hnew he ha hfree), ?_, ?_⟩⟩
    · exact (insertRefused_changes ..).same .table (by decide)
    · rw [reg_insertRefused hregs, toNat_satAdd_one]
  case stage =>
    intro h slot gen ek ak e a s u hu hslot hst he ha
    refine ⟨_, exec_of_entered rfl hu (tblKeyStage_stages hslot hst he ha), ?_⟩
    simp only [slotOf_answered, imgOf_answered]
    rw [fld_writeSlotIdx _ _ _ _ (by omega) (by omega), fld_writeSlotIdx _ _ _ _ (by omega) (by omega), keys_writeSlotIdx]
    refine ⟨?_, ?_, recSeq_writeSlotIdx .., fun k hk hne h28 h31 => ?_, stagedKeys_pendEk .., stagedKeys_pendAk .., stagedKeys_pendGen .., ?_,
      fun n hne => slotOf_writeSlotIdx_ne hne ..⟩
    · exact (fld_setFld_apart _ _ (by omega) (by omega) (by omega)).trans (fld_setFld_same _ _ (by omega))
    · exact fld_setFld_same _ _ (by omega)
    · rw [fld_writeSlotIdx _ _ _ _ (by omega) (by omega)]
      exact (fld_setFld_apart _ _ (by omega) (by omega) (by omega)).trans (fld_setFld_apart _ _ (by omega) (by omega) (by omega))
    · split
      next x y hx hy => exact stagedKeys_of_some hx hy
      next hnone => exact stagedKeys_of_none hnone
  case retire =>
    intro h slot s u hs hu hslot hst
    have hregs : u.RegsOk := (entered_changes hu).regsOk hs
    refine ⟨_, exec_of_entered rfl hu (tblRetire_retires hslot hst), ?_⟩
    simp only [slotOf_answered, imgOf_answered, answered_table, answered_relay]
    refine ⟨?_, fun hhold => ?_, fun hhold hheld => ?_, fun hh hsvc => ?_, fun n hne => slotOf_retire_ne hne ..⟩
    · split
      next c hc => exact index_retire_some hc _
      next hc => exact index_retire_none hc _
    · rw [retire_of_hold _ hregs hhold]
      obtain ⟨hkeys, hat⟩ := keys_and_time_retired slot (isHead u) u
      exact ⟨recState_retired .., hat, recSeq_retired .., hkeys⟩
    · rw [retire_of_noHold _ hregs hhold hheld]
      refine ⟨recState_freeTheSlot .., keys_freeTheSlot .., ?_⟩
      rw [recSeq_freeTheSlot, recSeq_retired, BitVec.add_assoc]
      rfl
    · rw [hh]
      exact retire_releases hh hsvc
  case setRetired =>
    intro h slot mask image s u v hu hv hslot hst hc himg hok hsvc hic
    have hserved : fld (imgOf u slot) 8 1 ∉ [0, 4] := by
      simp only [List.mem_cons, List.not_mem_nil, or_false, not_or] at hst ⊢
      omega
    exact ⟨retire slot (isHead u) u, exec_of_entered rfl hu (tblSet_retires hslot hst hc himg hok hsvc hic),
      exec_of_entered rfl hv (tblRetire_retires hslot hserved)⟩
  case signer =>
    intro h slot curve key s u hu hh hslot hst hcurve hm
    refine ⟨_, exec_of_entered rfl hu (keySignerLoad_loads hh hslot hst hcurve), ?_⟩
    rw [answered_sec, journal_sec]
    exact ⟨signersAfter_same key hm, fun n hne => signersAfter_ne hne curve key hm⟩

end Sys2Proof.Machine
end

section
/-!
SUPPORT. O45: FETCH_RETRY, MOVE_RELEASE_QUEUE, RETIRE_HOLD_EXPIRY and AGE_CHECK (R58, R59, R60, R61, R65, R67).
-/
namespace Sys2Proof.Machine

/-! ## Fetches (R59, R60) -/

/-- The other fetches. -/
def otherFetches (title : W64) (s : State) : List Fetch := s.table.fetches.filter fun g => g.title != title

theorem fetchRetry_again {title : W64} {f : Fetch} {s : State} (hf : s.table.fetches.find? (fun g => g.title == title) = some f) (hlt : f.attempts < 4) :
    fetchRetry title s = sendEntry headUnit (.fetch title)
      { s with table := { s.table with fetches := otherFetches title s ++ [{ f with attempts := f.attempts + 1 }] } } := by
  unfold fetchRetry
  rw [hf]
  exact if_pos hlt

theorem fetchRetry_given_up {title : W64} {f : Fetch} {s : State} (hf : s.table.fetches.find? (fun g => g.title == title) = some f) (hle : 4 ≤ f.attempts) :
    fetchRetry title s = noteUnknown title 0 0xFFF#12 { s with table := { s.table with fetches := otherFetches title s } } := by
  unfold fetchRetry
  rw [hf]
  exact if_neg (by omega)

theorem fetchRetry_of_none {title : W64} {s : State} (hf : s.table.fetches.find? (fun g => g.title == title) = none) : fetchRetry title s = s := by
  unfold fetchRetry
  rw [hf]

/-- A title that is new in the list of unknown titles counts. -/
def unknownCounted (title : W64) (s : State) : State :=
  if (s.table.unknown.find? fun u => u.title == title).isNone then count 0x214 s else s

/-- The title at the head of the list, with the time of its last notice. -/
def unknownListed (title : W64) (stamp : Option Nat) (s : State) : State :=
  { s with table := { s.table with unknown := (⟨title, stamp⟩ :: s.table.unknown.filter (fun u => u.title != title)).take 4096 } }

/-- Beside the count and the list, an unknown title changes what is posted or sent about it only. -/
theorem noteUnknown_lists (title : W64) (source : Byte) (from_ : BitVec 12) (s : State) : ∃ stamp,
    Changes [.regs, .win, .relay, .jr, .host, .evt, .out] (unknownListed title stamp (unknownCounted title s)) (noteUnknown title source from_ s) := by
  apply Exists.intro
  unfold noteUnknown
  exact .ite (.ite ((postNow_changes ..).mono rfl) .refl) (.ite ((sendEntry_changes ..).mono rfl) .refl)

theorem unknownCounted_table (title : W64) (s : State) : (unknownCounted title s).table = s.table := by
  unfold unknownCounted
  split <;> rfl

/-- An unknown title heads the list of unknown titles; slots, index and fetches stay. -/
theorem noteUnknown_table (title : W64) (source : Byte) (from_ : BitVec 12) (s : State) :
    ∃ stamp rest, (noteUnknown title source from_ s).table = { s.table with unknown := ⟨title, stamp⟩ :: rest } := by
  obtain ⟨stamp, hlists⟩ := noteUnknown_lists title source from_ s
  refine ⟨stamp, (s.table.unknown.filter fun u => u.title != title).take 4095, (hlists.same .table (by decide)).trans ?_⟩
  unfold unknownListed
  dsimp only
  rw [unknownCounted_table, List.take_succ_cons]

/-! ## Moves (R61) -/

/-- The release that a move sends to the old unit. -/
def moveSendsRelease (m : Move) (s : State) : State :=
  if m.oldUnit = 0xFFF#12 then s else sendRelease m.oldUnit m.slot (recTitle (imgOf s m.slot)) s

/-- The record that a move sends to the new unit, with its memberships. -/
def moveSendsRecord (m : Move) (s : State) : State :=
  if m.newUnit = 0xFFF#12 then s
  else sendMembers m.newUnit m.slot (if m.record then sendEntry m.newUnit (.record (imgOf s m.slot) (slotOf s m.slot).keys) s else s)

theorem moveSendsRelease_changes (m : Move) (s : State) : Changes [.regs, .win, .relay, .jr, .evt] s (moveSendsRelease m s) := by
  unfold moveSendsRelease
  exact .ite .refl (sendRelease_changes ..)

theorem moveSendsRecord_changes (m : Move) (s : State) : Changes [.regs, .win, .relay, .jr, .evt] s (moveSendsRecord m s) := by
  unfold moveSendsRecord
  exact .ite .refl (.step (sendMembers_changes ..) (.ite (sendEntry_changes ..) .refl) rfl)

theorem moveRelease_acked {m : Move} {rest : List Move} {s : State} (hm : s.table.moves = m :: rest) (hack : journalAcked m.batch s = true) :
    moveRelease s =
      if m.recordFirst then moveSendsRelease m (moveSendsRecord m { s with table := { s.table with moves := rest } })
      else moveSendsRecord m (moveSendsRelease m { s with table := { s.table with moves := rest } }) := by
  unfold moveRelease
  rw [hm]
  dsimp only
  rw [hack]
  rfl

/-- The oldest move leaves the table, and only what the relay sends changes beside it. -/
theorem moveRelease_sends {m : Move} {rest : List Move} {s : State} (hm : s.table.moves = m :: rest) (hack : journalAcked m.batch s = true) :
    Changes [.regs, .win, .relay, .jr, .evt] { s with table := { s.table with moves := rest } } (moveRelease s) := by
  rw [moveRelease_acked hm hack]
  exact .ite (.step (moveSendsRelease_changes ..) (moveSendsRecord_changes ..) rfl) (.step (moveSendsRecord_changes ..) (moveSendsRelease_changes ..) rfl)

theorem moveRelease_waits {s : State} (h : ∀ m, s.table.moves.head? = some m → journalAcked m.batch s = false) : moveRelease s = s := by
  unfold moveRelease
  split
  · rfl
  next m rest hm =>
    rw [h m (by rw [hm]; rfl)]
    rfl

/-! ## The hold of a retired slot (R65) -/

theorem slotHeld_iff {n : Nat} {s : State} : slotHeld n s = true ↔ ∃ f ∈ s.pipe.flight, f.slot = some n := by
  unfold slotHeld
  rw [List.any_eq_true]
  simp only [beq_iff_eq]

theorem retireHoldExpiry_frees {n : Nat} {s : State} (hst : recState (imgOf s n) = 4) (hheld : slotHeld n s = false) (hsb : isStandby s = false)
    (hdue : (slotOf s n).retiredAt + fieldOf s 0x204 15 8 * hourClk ≤ s.tim.clk) : retireHoldExpiry n s = freeTheSlot n none s := by
  unfold retireHoldExpiry
  rw [hheld, hsb, if_pos (by simp [hst, hdue])]

theorem retireHoldExpiry_waits {n : Nat} {s : State} (hwhy : recState (imgOf s n) ≠ 4 ∨ isStandby s = true ∨
    s.tim.clk < (slotOf s n).retiredAt + fieldOf s 0x204 15 8 * hourClk ∨ slotHeld n s = true) : retireHoldExpiry n s = s := by
  unfold retireHoldExpiry
  refine if_neg fun hall => ?_
  simp only [Bool.and_eq_true, decide_eq_true_eq, Bool.not_eq_true'] at hall
  obtain ⟨⟨⟨hst, hunheld⟩, hsb⟩, hdue⟩ := hall
  rcases hwhy with hne | hstandby | hlt | hheld
  · exact hne hst
  · rw [hsb] at hstandby
    exact Bool.noConfusion hstandby
  · exact Nat.not_le_of_lt hlt hdue
  · rw [hunheld] at hheld
    exact Bool.noConfusion hheld

/-! ## Keys of a collection in its form -/

/-- Keys of a collection in its form differ. -/
theorem Kv.pairwise_of_sortedFrom {α : Type} : ∀ {m : Kv α} {lo : Nat}, Kv.sortedFrom lo m = true →
    (∀ p ∈ m, lo ≤ p.1) ∧ m.Pairwise fun p q => p.1 < q.1
  | [], _, _ => by simp
  | (k, v) :: m, lo, h => by
    simp only [Kv.sortedFrom, Bool.and_eq_true, decide_eq_true_eq] at h
    obtain ⟨hlo, hm⟩ := h
    obtain ⟨hge, hpw⟩ := Kv.pairwise_of_sortedFrom hm
    refine ⟨fun p hp => ?_, List.pairwise_cons.mpr ⟨fun p hp => hge p hp, hpw⟩⟩
    rcases List.mem_cons.mp hp with rfl | hp
    · exact hlo
    · have := hge p hp
      omega

/-- An entry of a collection in its form is what its key reads. -/
theorem Kv.get?_of_mem {α : Type} {k : Nat} {v : α} : ∀ {m : Kv α}, m.Pairwise (fun p q => p.1 < q.1) → (k, v) ∈ m → Kv.get? k m = some v
  | (j, w) :: m, hpw, hmem => by
    obtain ⟨hj, hpw⟩ := List.pairwise_cons.mp hpw
    unfold Kv.get?
    rcases List.mem_cons.mp hmem with heq | hmem
    · obtain ⟨rfl, rfl⟩ := Prod.mk.inj heq
      exact if_pos rfl
    · have hlt : j < k := hj _ hmem
      rw [if_neg (by omega), if_neg (by omega)]
      exact Kv.get?_of_mem hpw hmem

/-! ## Ages (R67) -/

/-- Is a record ACTIVE and not heard for `lim` hours at the time `now`? -/
def aged (lim now : Nat) (p : Nat × Slot) : Bool := decide (recState p.2.img = 2) && decide (fld p.2.img 96 8 + lim * hourTime ≤ now)

theorem aged_iff {lim now : Nat} {p : Nat × Slot} : aged lim now p = true ↔ recState p.2.img = 2 ∧ fld p.2.img 96 8 + lim * hourTime ≤ now := by
  unfold aged
  rw [Bool.and_eq_true, decide_eq_true_eq, decide_eq_true_eq]

/-- Every listed record that a test picks is retired, in order. -/
def retireEach (old : Nat × Slot → Bool) (l : Kv Slot) (s : State) : State := l.foldl (fun t p => if old p then retire p.1 false t else t) s

theorem ageCheck_retires {s : State} (hf : isField s = true) (hsb : isStandby s = false) (hlim : fieldOf s 0x204 31 16 ≠ 0) :
    ageCheck s = retireEach (aged (fieldOf s 0x204 31 16) (clkTime s.tim.clk).toNat) s.table.slots s := by
  unfold ageCheck
  dsimp only
  rw [hf, hsb, if_neg (by simpa using hlim)]
  rfl

theorem ageCheck_off {s : State} (hwhy : isField s = false ∨ isStandby s = true ∨ fieldOf s 0x204 31 16 = 0) : ageCheck s = s := by
  unfold ageCheck
  refine if_pos ?_
  rcases hwhy with h | h | h <;> simp [h]

/-- A slot that no picked record names stays. -/
theorem slotOf_retireEach_unpicked {old : Nat × Slot → Bool} {n : Nat} {l : Kv Slot} {s : State} (h : ∀ p ∈ l, p.1 = n → old p = false) :
    slotOf (retireEach old l s) n = slotOf s n := by
  induction l generalizing s with
  | nil => rfl
  | cons p l ih =>
    have hrest := fun q hq => h q (List.mem_cons_of_mem p hq)
    refine (ih hrest).trans ?_
    change slotOf (if old p = true then retire p.1 false s else s) n = slotOf s n
    split
    next hold =>
      refine slotOf_retire_ne (fun hn => ?_) ..
      rw [h p List.mem_cons_self hn.symm] at hold
      exact Bool.noConfusion hold
    · rfl

/-- A picked record ends RETIRED, or its slot FREE. -/
theorem recState_retireEach_picked {old : Nat × Slot → Bool} {p : Nat × Slot} (hold : old p = true) {l : Kv Slot} {s : State}
    (hpw : l.Pairwise fun p q => p.1 < q.1) (hp : p ∈ l) :
    recState (imgOf (retireEach old l s) p.1) = 0 ∨ recState (imgOf (retireEach old l s) p.1) = 4 := by
  induction l generalizing s with
  | nil => cases hp
  | cons q l ih =>
    obtain ⟨hq, hpw⟩ := List.pairwise_cons.mp hpw
    rcases List.mem_cons.mp hp with rfl | hp
    · have hrest : slotOf (retireEach old (p :: l) s) p.1 = slotOf (retire p.1 false s) p.1 := by
        have hhead : retireEach old (p :: l) s = retireEach old l (retire p.1 false s) := congrArg (retireEach old l) (if_pos hold)
        rw [hhead]
        refine slotOf_retireEach_unpicked fun x hx hn => ?_
        have := hq x hx
        omega
      unfold imgOf
      rw [hrest]
      exact recState_retire ..
    · exact ih hpw hp

/-- Settles O45: each happening by the law of what it does or of why it does nothing, the ages by induction on the table. -/
theorem recordUpkeep : Obligations.RecordUpkeep := by
  unfold Obligations.RecordUpkeep
  refine ⟨?retry, ?giveUp, fun title s hf => congrArg Host.Outcome.next (fetchRetry_of_none hf), ?release, fun s h => congrArg Host.Outcome.next (moveRelease_waits h),
    ?hold, ?holdWaits, ?age, fun s h => congrArg Host.Outcome.next (ageCheck_off h)⟩
  case retry =>
    intro f s hf hlt
    have hsent := sendEntry_changes headUnit (.fetch f.title)
      { s with table := { s.table with fetches := otherFetches f.title s ++ [{ f with attempts := f.attempts + 1 }] } }
    refine ⟨_, congrArg Host.Outcome.next (fetchRetry_again hf hlt), hsent.same .table (by decide), ?_⟩
    exact (Changes.step hsent ((Changes.set_table ..).mono rfl) rfl).same
  case giveUp =>
    intro f s hf hle
    refine ⟨_, congrArg Host.Outcome.next (fetchRetry_given_up hf hle), ?_⟩
    obtain ⟨stamp, rest, htable⟩ := noteUnknown_table f.title 0 0xFFF#12 { s with table := { s.table with fetches := otherFetches f.title s } }
    rw [htable]
    exact ⟨rfl, rfl, rfl, ⟨f.title, stamp⟩, List.mem_cons_self, rfl⟩
  case release =>
    intro m rest s hm hack
    have hsent := moveRelease_sends hm hack
    exact ⟨_, rfl, hsent.same .table (by decide), (moveRelease_changes s).same⟩
  case hold =>
    intro n s hst hfree hsb hdue
    have hunheld : slotHeld n s = false := by
      rw [Bool.eq_false_iff, Ne, slotHeld_iff]
      rintro ⟨f, hf, hn⟩
      exact hfree f hf hn
    refine ⟨_, congrArg Host.Outcome.next (retireHoldExpiry_frees hst hunheld hsb hdue), recState_freeTheSlot .., recSeq_freeTheSlot ..,
      fun m hne => slotOf_freeTheSlot_ne hne .., freeTheSlot_sec .., (freeTheSlot_changes ..).same⟩
  case holdWaits =>
    intro n s hwhy
    rw [← slotHeld_iff] at hwhy
    exact congrArg Host.Outcome.next (retireHoldExpiry_waits hwhy)
  case age =>
    intro s _ hf hsb hlim hwf
    obtain ⟨-, hpw⟩ := Kv.pairwise_of_sortedFrom hwf
    refine ⟨_, congrArg Host.Outcome.next (ageCheck_retires hf hsb hlim), fun n v hmem hst hage => ?_, fun n v hmem hyoung => ?_⟩
    · have hold : aged (fieldOf s 0x204 31 16) (clkTime s.tim.clk).toNat (n, v) = true := aged_iff.mpr ⟨hst, hage⟩
      exact recState_retireEach_picked hold hpw hmem
    · have hget := Kv.get?_of_mem hpw hmem
      rw [slotOf_retireEach_unpicked]
      · unfold slotOf Kv.getD
        rw [hget]
        rfl
      · intro p hp hn
        have hpv := Kv.get?_of_mem (k := p.1) (v := p.2) hpw hp
        rw [hn, hget] at hpv
        have hv : v = p.2 := Option.some.inj hpv
        rw [hv] at hyoung
        rw [Bool.eq_false_iff, Ne, aged_iff]
        rintro ⟨hst, hage⟩
        rcases hyoung with hne | hlt
        · exact hne hst
        · exact Nat.not_le_of_lt hlt hage

end Sys2Proof.Machine
end

section
/-!
SUPPORT. O3 and O4: every command keeps the pool of tokens and the one form of the register file and the maps (R88).
-/
namespace Sys2Proof.Machine

/-- All parts of the state but the queue of commands. -/
def Part.besidesQueue : List Part :=
  [.deferred, .stalled, .regs, .setup, .lat, .win, .isl, .boot, .clusters, .table, .pipe, .rules, .bal, .camp, .plc, .rf, .eth, .relay,
    .tim, .pair, .jr, .host, .sec, .arch, .mea, .queues, .mon, .evt, .out, .draws]

/-- What is kept by every operation that the laws list: the count of the pool, and the form of register file and maps. -/
theorem Changes.sound {W : List Part} {s t : State} (h : Changes W s t) (hs : s.Sound) : t.Sound := by
  obtain ⟨hpool, hregs, hmaps⟩ := hs
  exact ⟨h.poolOk hpool, h.regsOk hregs, h.mapsOk hmaps⟩

/-- No command touches the queue of commands, and each obeys the rules of Changes: each row's own law lists what it changes. -/
theorem exec_changes {c : Instr} {s t : State} (e : exec c s = .next t) : Changes Part.besidesQueue s t := by
  cases c with
  | regRead => exact Changes.mono (execRegRead_changes (e := e)) rfl
  | regWriteAu => exact Changes.mono (execRegWriteAu_changes (e := e)) rfl
  | keyLoad => exact Changes.mono (execKeyLoad_changes (e := e)) rfl
  | keyClear => exact Changes.mono (execKeyClear_changes (e := e)) rfl
  | keyRead => exact Changes.mono (execKeyRead_changes (e := e)) rfl
  | secZeroise => exact Changes.mono (execSecZeroise_changes (e := e)) rfl
  | tblRead => exact Changes.mono (execTblRead_changes (e := e)) rfl
  | tblFind => exact Changes.mono (execTblFind_changes (e := e)) rfl
  | tblDump => exact Changes.mono (execTblDump_changes (e := e)) rfl
  | tblWrite => exact Changes.mono (execTblWrite_changes (e := e)) rfl
  | tblProvision => exact Changes.mono (execTblProvision_changes (e := e)) rfl
  | tblKeyStage => exact Changes.mono (execTblKeyStage_changes (e := e)) rfl
  | tblRetire => exact Changes.mono (execTblRetire_changes (e := e)) rfl
  | tblSet => exact Changes.mono (execTblSet_changes (e := e)) rfl
  | keySignerLoad => exact Changes.mono (execKeySignerLoad_changes (e := e)) rfl
  | ruleLoad => exact Changes.mono (execRuleLoad_changes (e := e)) rfl
  | ruleActivate => exact Changes.mono (execRuleActivate_changes (e := e)) rfl
  | ruleRemove => exact Changes.mono (execRuleRemove_changes (e := e)) rfl
  | ruleRead => exact Changes.mono (execRuleRead_changes (e := e)) rfl
  | activationMarkPass => exact Changes.mono (execActivationMarkPass_changes (e := e)) rfl
  | topoLoad => exact Changes.mono (execTopoLoad_changes (e := e)) rfl
  | topoActivate => exact Changes.mono (execTopoActivate_changes (e := e)) rfl
  | topoRead => exact Changes.mono (execTopoRead_changes (e := e)) rfl
  | balNodeRead => exact Changes.mono (execBalNodeRead_changes (e := e)) rfl
  | balMeterRead => exact Changes.mono (execBalMeterRead_changes (e := e)) rfl
  | balResetScores => exact Changes.mono (execBalResetScores_changes (e := e)) rfl
  | campCreate => exact Changes.mono (execCampCreate_changes (e := e)) rfl
  | campData => exact Changes.mono (execCampData_changes (e := e)) rfl
  | campSeal => exact Changes.mono (execCampSeal_changes (e := e)) rfl
  | campAddMembers => exact Changes.mono (execCampAddMembers_changes (e := e)) rfl
  | campRemoveMembers => exact Changes.mono (execCampRemoveMembers_changes (e := e)) rfl
  | campStart => exact Changes.mono (execCampStart_changes (e := e)) rfl
  | campPause => exact Changes.mono (execCampPause_changes (e := e)) rfl
  | campCancel => exact Changes.mono (execCampCancel_changes (e := e)) rfl
  | campClose => exact Changes.mono (execCampClose_changes (e := e)) rfl
  | campActivate => exact Changes.mono (execCampActivate_changes (e := e)) rfl
  | campRollback => exact Changes.mono (execCampRollback_changes (e := e)) rfl
  | campRead => exact Changes.mono (execCampRead_changes (e := e)) rfl
  | campMemberRead => exact Changes.mono (execCampMemberRead_changes (e := e)) rfl
  | plcGmkRotate => exact Changes.mono (execPlcGmkRotate_changes (e := e)) rfl
  | plcKick => exact Changes.mono (execPlcKick_changes (e := e)) rfl
  | rfKeyRotate => exact Changes.mono (execRfKeyRotate_changes (e := e)) rfl
  | timStep => exact Changes.mono (execTimStep_changes (e := e)) rfl
  | pairRead => exact Changes.mono (execPairRead_changes (e := e)) rfl
  | pairSwap => exact Changes.mono (execPairSwap_changes (e := e)) rfl
  | pairClear => exact Changes.mono (execPairClear_changes (e := e)) rfl
  | archInfo => exact Changes.mono (execArchInfo_changes (e := e)) rfl
  | archRead => exact Changes.mono (execArchRead_changes (e := e)) rfl
  | archFindTime => exact Changes.mono (execArchFindTime_changes (e := e)) rfl
  | archTrim => exact Changes.mono (execArchTrim_changes (e := e)) rfl
  | archOvfRead => exact Changes.mono (execArchOvfRead_changes (e := e)) rfl
  | archOvfRelease => exact Changes.mono (execArchOvfRelease_changes (e := e)) rfl
  | archHostWrite => exact Changes.mono (execArchHostWrite_changes (e := e)) rfl
  | archHostRead => exact Changes.mono (execArchHostRead_changes (e := e)) rfl
  | archFormat => exact Changes.mono (execArchFormat_changes (e := e)) rfl
  | evtRead => exact Changes.mono (execEvtRead_changes (e := e)) rfl
  | evtClear => exact Changes.mono (execEvtClear_changes (e := e)) rfl
  | monRead => exact Changes.mono (execMonRead_changes (e := e)) rfl
  | monReset => exact Changes.mono (execMonReset_changes (e := e)) rfl
  | qRead => exact Changes.mono (execQRead_changes (e := e)) rfl
  | mgmtDatagramRx => exact Changes.mono (execMgmtDatagramRx_changes (e := e)) rfl
  | registerWrite => exact Changes.mono (execRegisterWrite_changes (e := e)) rfl
  | w1cWrite => exact Changes.mono (execW1cWrite_changes (e := e)) rfl
  | timNowNsRead => exact Changes.mono (execTimNowNsRead_changes (e := e)) rfl
  | seqPairLoRead => exact Changes.mono (execSeqPairLoRead_changes (e := e)) rfl
  | meaPqSecondRead => exact Changes.mono (execMeaPqSecondRead_changes (e := e)) rfl
  | ctlQSelWrite => exact Changes.mono (execCtlQSelWrite_changes (e := e)) rfl
  | monSnapWrite => exact Changes.mono (execMonSnapWrite_changes (e := e)) rfl
  | setupLockSet => exact Changes.mono (execSetupLockSet_changes (e := e)) rfl
  | noticeEnableWrite => exact Changes.mono (execNoticeEnableWrite_changes (e := e)) rfl
  | profileRequest => exact Changes.mono (execProfileRequest_changes (e := e)) rfl
  | profileClusterSwitch => exact Changes.mono (execProfileClusterSwitch_changes (e := e)) rfl
  | bucketRedistribute => exact Changes.mono (execBucketRedistribute_changes (e := e)) rfl
  | swBlockReset => exact Changes.mono (execSwBlockReset_changes (e := e)) rfl
  | swBlockRelease => exact Changes.mono (execSwBlockRelease_changes (e := e)) rfl
  | unitResetCommand => exact Changes.mono (execUnitResetCommand_changes (e := e)) rfl
  | bootInstallGo => exact Changes.mono (execBootInstallGo_changes (e := e)) rfl
  | installComplete => exact Changes.mono (execInstallComplete_changes (e := e)) rfl
  | bootSelTrial => exact Changes.mono (execBootSelTrial_changes (e := e)) rfl
  | bootSelConfirmed => exact Changes.mono (execBootSelConfirmed_changes (e := e)) rfl
  | bootSelConfirm => exact Changes.mono (execBootSelConfirm_changes (e := e)) rfl
  | autoConfirmExpiry => exact Changes.mono (execAutoConfirmExpiry_changes (e := e)) rfl
  | otpProgram => exact Changes.mono (execOtpProgram_changes (e := e)) rfl
  | powerTargetRun => exact Changes.mono (execPowerTargetRun_changes (e := e)) rfl
  | powerTargetDoze => exact Changes.mono (execPowerTargetDoze_changes (e := e)) rfl
  | powerTargetHold => exact Changes.mono (execPowerTargetHold_changes (e := e)) rfl
  | powerTargetBackup => exact Changes.mono (execPowerTargetBackup_changes (e := e)) rfl
  | dozeIdleGate => exact Changes.mono (execDozeIdleGate_changes (e := e)) rfl
  | pciEnableWrite => exact Changes.mono (execPciEnableWrite_changes (e := e)) rfl
  | ringEnable => exact Changes.mono (execRingEnable_changes (e := e)) rfl
  | ringDisable => exact Changes.mono (execRingDisable_changes (e := e)) rfl
  | doorbellPoll => exact Changes.mono (execDoorbellPoll_changes (e := e)) rfl
  | dmaError => exact Changes.mono (execDmaError_changes (e := e)) rfl
  | rxBufferHoldExpiry => exact Changes.mono (execRxBufferHoldExpiry_changes (e := e)) rfl
  | msixCoalesceExpiry => exact Changes.mono (execMsixCoalesceExpiry_changes (e := e)) rfl
  | msixUnmask => exact Changes.mono (execMsixUnmask_changes (e := e)) rfl
  | pcieConfigRequest => exact Changes.mono (execPcieConfigRequest_changes (e := e)) rfl
  | pcieLinkReset => exact Changes.mono (execPcieLinkReset_changes (e := e)) rfl
  | powerOnReset => exact Changes.mono (execPowerOnReset_changes (e := e)) rfl
  | brownOut => exact Changes.mono (execBrownOut_changes (e := e)) rfl
  | externalReset => exact Changes.mono (execExternalReset_changes (e := e)) rfl
  | watchdogExpiry => exact Changes.mono (execWatchdogExpiry_changes (e := e)) rfl
  | thermalReset => exact Changes.mono (execThermalReset_changes (e := e)) rfl
  | clockLoss => exact Changes.mono (execClockLoss_changes (e := e)) rfl
  | resetRelease => exact Changes.mono (execResetRelease_changes (e := e)) rfl
  | strapRetry => exact Changes.mono (execStrapRetry_changes (e := e)) rfl
  | islandClockStable => exact Changes.mono (execIslandClockStable_changes (e := e)) rfl
  | islandLockLoss => exact Changes.mono (execIslandLockLoss_changes (e := e)) rfl
  | lockLossTimeout => exact Changes.mono (execLockLossTimeout_changes (e := e)) rfl
  | handshakeTimeout => exact Changes.mono (execHandshakeTimeout_changes (e := e)) rfl
  | eccUncorrectable => exact Changes.mono (execEccUncorrectable_changes (e := e)) rfl
  | eccCorrected => exact Changes.mono (execEccCorrected_changes (e := e)) rfl
  | idleItemWrite => exact Changes.mono (execIdleItemWrite_changes (e := e)) rfl
  | readingDispatch => exact Changes.mono (execReadingDispatch_changes (e := e)) rfl
  | readingVerify => exact Changes.mono (execReadingVerify_changes (e := e)) rfl
  | counterCheck => exact Changes.mono (execCounterCheck_changes (e := e)) rfl
  | readingPosting => exact Changes.mono (execReadingPosting_changes (e := e)) rfl
  | tokenReturn => exact Changes.mono (execTokenReturn_changes (e := e)) rfl
  | sessionExpiry => exact Changes.mono (execSessionExpiry_changes (e := e)) rfl
  | pollIssue => exact Changes.mono (execPollIssue_changes (e := e)) rfl
  | fetchRetry => exact Changes.mono (execFetchRetry_changes (e := e)) rfl
  | moveReleaseQueue => exact Changes.mono (execMoveReleaseQueue_changes (e := e)) rfl
  | retireHoldExpiry => exact Changes.mono (execRetireHoldExpiry_changes (e := e)) rfl
  | ageCheck => exact Changes.mono (execAgeCheck_changes (e := e)) rfl
  | standbyTableCopy => exact Changes.mono (execStandbyTableCopy_changes (e := e)) rfl
  | copyComplete => exact Changes.mono (execCopyComplete_changes (e := e)) rfl
  | balanceIntervalClose => exact Changes.mono (execBalanceIntervalClose_changes (e := e)) rfl
  | balanceRun => exact Changes.mono (execBalanceRun_changes (e := e)) rfl
  | balanceReportPost => exact Changes.mono (execBalanceReportPost_changes (e := e)) rfl
  | campaignFrameSend => exact Changes.mono (execCampaignFrameSend_changes (e := e)) rfl
  | repairRound => exact Changes.mono (execRepairRound_changes (e := e)) rfl
  | activationBroadcast => exact Changes.mono (execActivationBroadcast_changes (e := e)) rfl
  | actTimeLateExpiry => exact Changes.mono (execActTimeLateExpiry_changes (e := e)) rfl
  | campaignCheckpoint => exact Changes.mono (execCampaignCheckpoint_changes (e := e)) rfl
  | plcFrameRx => exact Changes.mono (execPlcFrameRx_changes (e := e)) rfl
  | plcAckTimeout => exact Changes.mono (execPlcAckTimeout_changes (e := e)) rfl
  | routeTtlExpiry => exact Changes.mono (execRouteTtlExpiry_changes (e := e)) rfl
  | routeWaitExpiry => exact Changes.mono (execRouteWaitExpiry_changes (e := e)) rfl
  | reassemblyTimeout => exact Changes.mono (execReassemblyTimeout_changes (e := e)) rfl
  | shortHoldExpiry => exact Changes.mono (execShortHoldExpiry_changes (e := e)) rfl
  | zcReportSend => exact Changes.mono (execZcReportSend_changes (e := e)) rfl
  | fpReportSend => exact Changes.mono (execFpReportSend_changes (e := e)) rfl
  | zcEdge => exact Changes.mono (execZcEdge_changes (e := e)) rfl
  | zcLost => exact Changes.mono (execZcLost_changes (e := e)) rfl
  | ldFaultFall => exact Changes.mono (execLdFaultFall_changes (e := e)) rfl
  | ldFaultResume => exact Changes.mono (execLdFaultResume_changes (e := e)) rfl
  | rfTimeslot => exact Changes.mono (execRfTimeslot_changes (e := e)) rfl
  | rfFrameRx => exact Changes.mono (execRfFrameRx_changes (e := e)) rfl
  | rfScan => exact Changes.mono (execRfScan_changes (e := e)) rfl
  | sleepyQueueExpiry => exact Changes.mono (execSleepyQueueExpiry_changes (e := e)) rfl
  | ethFrameRx => exact Changes.mono (execEthFrameRx_changes (e := e)) rfl
  | ethLinkUp => exact Changes.mono (execEthLinkUp_changes (e := e)) rfl
  | ethLinkDown => exact Changes.mono (execEthLinkDown_changes (e := e)) rfl
  | txBufferWaitExpiry => exact Changes.mono (execTxBufferWaitExpiry_changes (e := e)) rfl
  | lldpSend => exact Changes.mono (execLldpSend_changes (e := e)) rfl
  | lpiIdleEntry => exact Changes.mono (execLpiIdleEntry_changes (e := e)) rfl
  | relayFrameRx => exact Changes.mono (execRelayFrameRx_changes (e := e)) rfl
  | relayPauseHoldExpiry => exact Changes.mono (execRelayPauseHoldExpiry_changes (e := e)) rfl
  | relayBatchClose => exact Changes.mono (execRelayBatchClose_changes (e := e)) rfl
  | relayAckTimeout => exact Changes.mono (execRelayAckTimeout_changes (e := e)) rfl
  | relayBatchAck => exact Changes.mono (execRelayBatchAck_changes (e := e)) rfl
  | spoolDrain => exact Changes.mono (execSpoolDrain_changes (e := e)) rfl
  | ptpMessageRx => exact Changes.mono (execPtpMessageRx_changes (e := e)) rfl
  | ptpMessageSend => exact Changes.mono (execPtpMessageSend_changes (e := e)) rfl
  | sourceTimeout => exact Changes.mono (execSourceTimeout_changes (e := e)) rfl
  | timeWord => exact Changes.mono (execTimeWord_changes (e := e)) rfl
  | timeWordLoss => exact Changes.mono (execTimeWordLoss_changes (e := e)) rfl
  | rtcWrite => exact Changes.mono (execRtcWrite_changes (e := e)) rfl
  | leapSecond => exact Changes.mono (execLeapSecond_changes (e := e)) rfl
  | heartbeatSend => exact Changes.mono (execHeartbeatSend_changes (e := e)) rfl
  | heartbeatRx => exact Changes.mono (execHeartbeatRx_changes (e := e)) rfl
  | heartbeatPathLost => exact Changes.mono (execHeartbeatPathLost_changes (e := e)) rfl
  | prlLossOfSignal => exact Changes.mono (execPrlLossOfSignal_changes (e := e)) rfl
  | actInQuiet => exact Changes.mono (execActInQuiet_changes (e := e)) rfl
  | actInEdge => exact Changes.mono (execActInEdge_changes (e := e)) rfl
  | claimFlashWritten => exact Changes.mono (execClaimFlashWritten_changes (e := e)) rfl
  | pairWatchdogExpiry => exact Changes.mono (execPairWatchdogExpiry_changes (e := e)) rfl
  | seekWaitExpiry => exact Changes.mono (execSeekWaitExpiry_changes (e := e)) rfl
  | fencedExpiry => exact Changes.mono (execFencedExpiry_changes (e := e)) rfl
  | journalBatchClose => exact Changes.mono (execJournalBatchClose_changes (e := e)) rfl
  | journalBatchRx => exact Changes.mono (execJournalBatchRx_changes (e := e)) rfl
  | journalAckRx => exact Changes.mono (execJournalAckRx_changes (e := e)) rfl
  | jackTimeout => exact Changes.mono (execJackTimeout_changes (e := e)) rfl
  | swapHandover => exact Changes.mono (execSwapHandover_changes (e := e)) rfl
  | swapDrainExpiry => exact Changes.mono (execSwapDrainExpiry_changes (e := e)) rfl
  | scheduledSwapDue => exact Changes.mono (execScheduledSwapDue_changes (e := e)) rfl
  | proofExpiry => exact Changes.mono (execProofExpiry_changes (e := e)) rfl
  | meaSecondEnd => exact Changes.mono (execMeaSecondEnd_changes (e := e)) rfl
  | meaMinuteEnd => exact Changes.mono (execMeaMinuteEnd_changes (e := e)) rfl
  | meaHalfCycleRms => exact Changes.mono (execMeaHalfCycleRms_changes (e := e)) rfl
  | modulePresenceHigh => exact Changes.mono (execModulePresenceHigh_changes (e := e)) rfl
  | modulePresenceDebounce => exact Changes.mono (execModulePresenceDebounce_changes (e := e)) rfl
  | eventAccept => exact Changes.mono (execEventAccept_changes (e := e)) rfl
  | eventArchiveWrite => exact Changes.mono (execEventArchiveWrite_changes (e := e)) rfl
  | evtBucketRefill => exact Changes.mono (execEvtBucketRefill_changes (e := e)) rfl
  | rateWindowBoundary => exact Changes.mono (execRateWindowBoundary_changes (e := e)) rfl
  | monSample => exact Changes.mono (execMonSample_changes (e := e)) rfl
  | archiveFlushExpiry => exact Changes.mono (execArchiveFlushExpiry_changes (e := e)) rfl
  | pageProgramComplete => exact Changes.mono (execPageProgramComplete_changes (e := e)) rfl
  | programEraseFail => exact Changes.mono (execProgramEraseFail_changes (e := e)) rfl
  | blockCollection => exact Changes.mono (execBlockCollection_changes (e := e)) rfl
  | wearLevelMove => exact Changes.mono (execWearLevelMove_changes (e := e)) rfl
  | thermalAgeTick => exact Changes.mono (execThermalAgeTick_changes (e := e)) rfl
  | retentionScan => exact Changes.mono (execRetentionScan_changes (e := e)) rfl
  | archiveMount => exact Changes.mono (execArchiveMount_changes (e := e)) rfl
  | overflowWriteback => exact Changes.mono (execOverflowWriteback_changes (e := e)) rfl
  | tamperFall => exact Changes.mono (execTamperFall_changes (e := e)) rfl
  | wakePinFall => exact Changes.mono (execWakePinFall_changes (e := e)) rfl
  | bkpAlarm => exact Changes.mono (execBkpAlarm_changes (e := e)) rfl
  | mainSupplyLoss => exact Changes.mono (execMainSupplyLoss_changes (e := e)) rfl
  | vbatLow => exact Changes.mono (execVbatLow_changes (e := e)) rfl
  | bkpSecondTick => exact Changes.mono (execBkpSecondTick_changes (e := e)) rfl
  | bkpPowerLoss => exact Changes.mono (execBkpPowerLoss_changes (e := e)) rfl
  | busMasterEnableClear => exact Changes.mono (execBusMasterEnableClear_changes (e := e)) rfl
  | pcieLinkUp => exact Changes.mono (execPcieLinkUp_changes (e := e)) rfl
  | ldFaultPinRise => exact Changes.mono (execLdFaultPinRise_changes (e := e)) rfl
  | modulePresenceLow => exact Changes.mono (execModulePresenceLow_changes (e := e)) rfl
  | archFormatComplete => exact Changes.mono (execArchFormatComplete_changes (e := e)) rfl
  | partnerEeeTlvExpiry => exact Changes.mono (execPartnerEeeTlvExpiry_changes (e := e)) rfl

/-- A step is a cycle of idle time, or a command on the state with the queue's rest: it obeys the rules of Changes either way. -/
theorem step_changes {s t : State} (h : step s = .next t) : Changes (.pending :: Part.besidesQueue) s t := by
  unfold step at h
  split at h
  case h_1 =>
    obtain rfl := Host.Outcome.next.inj h
    exact (idle_changes s).mono rfl
  case h_2 c rest _ => exact Changes.step (exec_changes h) ((Changes.set_pending s rest).mono rfl) rfl

/-- Settles O3: the pool starts with its 4,096 tokens free, and register file and maps start empty. -/
theorem resetIsSound : Obligations.ResetIsSound := by
  unfold Obligations.ResetIsSound
  refine ⟨?pool, ⟨rfl, fun p hp => absurd hp List.not_mem_nil⟩, rfl, rfl, rfl, rfl, rfl⟩
  case pool =>
    unfold State.PoolOk
    rfl

/-- Settles O4: what every command and every idle cycle may change leaves the pool its tokens, and register file and maps their form. -/
theorem stepKeepsSound : Obligations.StepKeepsSound := by
  unfold Obligations.StepKeepsSound
  intro s t hs h
  exact (step_changes h).sound hs

end Sys2Proof.Machine
end

section
/-!
SUPPORT. O44: COUNTER_CHECK and READING_POSTING (R88, R96, R98, R99, R102, R108, R111).
-/
namespace Sys2Proof.Machine

/-! ## The record that a commit writes (R52, R70, R108, R111) -/

/-- The slot that a commit starts from: under its pending keys where the reading came under them and counts (R70). -/
def slotToCommit (f : Flight) (adv : Option (Nat × Nat)) (v : Slot) : Slot := if f.promoted && adv.isSome then promote v else v

/-- The image with the counter and the window map that a reading advances to (R52, R99). -/
def withCounter (adv : Option (Nat × Nat)) (r : RecImg) : RecImg :=
  match adv with
  | some (last, map) => setFld (setIc r last) 88 8 map
  | none => r

/-- The counter and window map that a strict reading above IC_LAST advances to: its own, and the map as it is (R99). -/
def nextCounter (f : Flight) (n : Nat) (s : State) : Option (Nat × Nat) := some (f.item.apdu.ic.toNat, fld (imgOf s n) 88 8)

/-- The last row accepted. -/
def lastAccepted (rows : List RowOut) : Option RowOut := (rows.filter fun x => x.oc == ocAccepted).getLast?

/-- The image with what an accepted row says: times and energies, and a record in service (R57, R108). -/
def withReading (f : Flight) (windowed : Bool) (acc : Option RowOut) (r : RecImg) : RecImg :=
  let r := match acc with
    | some x => if windowed then r else
        let r := setFld (setFld r 96 8 (if f.item.tsValid then f.item.rxTime.toNat else 0)) 104 8 x.capture.toNat
        setFld (setFld r 112 8 ((x.data.imp.map Int.toNat).getD (2 ^ 64 - 1))) 120 8 ((x.data.exp.map Int.toNat).getD (2 ^ 64 - 1))
    | none => r
  if acc.isSome && recState r = 1 then setFld r 8 1 2 else r

/-- Does a row that was read carry an event with a tamper code? -/
def tamperIn (codes : List (BitVec 16)) (rows : List RowOut) : Bool :=
  rows.any fun x => x.oc != ocMalformed && (match x.data.ev with | some e => codes.contains (BitVec.ofInt 16 e) | none => false)

/-- The image with one more in the counter of an outcome, where it has one (R111). -/
def withOutcome (r : RecImg) (oc : Nat) : RecImg :=
  match recCounter oc with
  | some (off, len) => satFld r off len 1
  | none => r

/-- The image that a commit writes, but for RECORD_SEQ. -/
def committedImg (f : Flight) (rows : List RowOut) (adv : Option (Nat × Nat)) (windowed : Bool) (codes : List (BitVec 16)) (r : RecImg) : RecImg :=
  let r := withReading f windowed (lastAccepted rows) (withCounter adv r)
  (outcomesOf rows).foldl withOutcome (if tamperIn codes rows then setFlag r 11 true else r)

/-- The slot that a commit writes, but for RECORD_SEQ. -/
def committedSlot (f : Flight) (n : Nat) (rows : List RowOut) (adv : Option (Nat × Nat)) (windowed : Bool) (s : State) : Slot :=
  let v := slotToCommit f adv (slotOf s n)
  { v with img := committedImg f rows adv windowed ((s.boot.bundle.map (·.tamperCodes)).getD []) v.img }

/-- IC_LAST is the reading's own counter. -/
theorem fld_withCounter_ic (f : Flight) (n : Nat) (s : State) (r : RecImg) : fld (withCounter (nextCounter f n s) r) 80 4 = f.item.apdu.ic.toNat := by
  unfold nextCounter withCounter
  dsimp only
  rw [fld_setFld_apart _ _ (by omega) (by omega) (by omega), fld_setIc_same]
  exact Nat.mod_eq_of_lt f.item.apdu.ic.isLt

/-- WINDOW_MAP is as it was. -/
theorem fld_withCounter_map (f : Flight) (n : Nat) (s : State) (r : RecImg) : fld (withCounter (nextCounter f n s) r) 88 8 = fld (imgOf s n) 88 8 :=
  (fld_setFld_same _ _ (by omega)).trans (fld_mod _ 88 8)

/-- A commit is one record write, then counts, archive, balance and postings, which touch neither table nor pool, and the reading is
committed with its first row's outcome. -/
theorem commit_writes (f : Flight) (n : Nat) (rows : List RowOut) (adv : Option (Nat × Nat)) (windowed : Bool) (s : State) :
    ∃ g t, commit f n rows adv windowed s = putFlight g t ∧
      Changes [.regs, .win, .isl, .boot, .bal, .pair, .jr, .arch, .evt] (writeSlot n (committedSlot f n rows adv windowed s) s) t ∧
      g.id = f.id ∧ g.stage = .committed ∧ g.outcome = some ((rows.head?.map (·.oc)).getD 0) := by
  unfold commit
  refine ⟨_, _, rfl, ?_, rfl, rfl, rfl⟩
  dsimp only
  refine .step (readingPosts_changes ..) ?_ rfl
  refine .step (.ite (proofCount_changes ..) .refl) ?_ rfl
  refine .foldl (fun _ _ h => .ite (.step (balanceReading_changes ..) h rfl) h) ?_
  refine .step (.ite (count_changes _ _ rfl) .refl) ?_ rfl
  refine .foldl (fun _ _ h => .ite (.step (archiveReading_changes ..) h rfl) h) ?_
  refine .step (.ite (countBy_changes _ _ _ rfl) .refl) ?_ rfl
  refine .foldl (fun _ _ h => .step (countOutcome_changes ..) (.ite (.step (count_changes _ _ rfl) h rfl) h) rfl) ?_
  exact .step (icEvent_changes ..) .refl rfl

/-- The record after a commit: the image committed, under the next RECORD_SEQ. -/
theorem imgOf_commit (f : Flight) (n : Nat) (rows : List RowOut) (adv : Option (Nat × Nat)) (windowed : Bool) (s : State) :
    imgOf (commit f n rows adv windowed s) n = setFld (committedSlot f n rows adv windowed s).img 12 4 ((recSeq (imgOf s n)).toNat + 1) := by
  obtain ⟨g, t, hcommit, hch, -⟩ := commit_writes f n rows adv windowed s
  rw [hcommit, (putFlight_changes g t).imgOf_eq n, hch.imgOf_eq n]
  unfold imgOf writeSlot
  rw [slotOf_writeSlotIdx_same]
  rfl

theorem mem_putFlight {f g : Flight} {s : State} (hf : f ∈ s.pipe.flight) (hid : g.id = f.id) : g ∈ (putFlight g s).pipe.flight :=
  List.mem_map.mpr ⟨f, hf, if_pos (by simp [hid])⟩

/-- The reading is still in flight after its commit, committed with the outcome of its first row. -/
theorem commit_flight {f f0 : Flight} {s : State} (hf : f0 ∈ s.pipe.flight) (hid : f.id = f0.id) (n : Nat) (rows : List RowOut)
    (adv : Option (Nat × Nat)) (windowed : Bool) : ∃ g ∈ (commit f n rows adv windowed s).pipe.flight,
      g.id = f0.id ∧ g.stage = .committed ∧ g.outcome = some ((rows.head?.map (·.oc)).getD 0) := by
  obtain ⟨g, t, hcommit, hch, hg, hstage, hout⟩ := commit_writes f n rows adv windowed s
  have hpipe : t.pipe = s.pipe := (hch.same .pipe (by decide)).trans ((writeSlot_changes ..).same .pipe (by decide))
  have hmem : f0 ∈ t.pipe.flight := by rw [hpipe]; exact hf
  rw [hcommit]
  exact ⟨g, mem_putFlight hmem (hg.trans hid), hg.trans hid, hstage, hout⟩

/-! ## Fields that rows leave alone -/

theorem recCounter_place {oc off len : Nat} (h : recCounter oc = some (off, len)) : oc < 9 ∧ 128 ≤ off ∧ off + len ≤ 256 := by
  unfold recCounter at h
  split at h <;> cases h <;> decide

theorem fld_withReading_apart (f : Flight) (windowed : Bool) (acc : Option RowOut) (r : RecImg) {o l : Nat} (hlo : 12 ≤ o) (hhi : o + l ≤ 96) :
    fld (withReading f windowed acc r) o l = fld r o l := by
  unfold withReading
  dsimp only
  rw [fld_setFldIf_apart _ _ _ (by omega) (by omega) (by omega)]
  split
  · split
    · rfl
    · rw [fld_setFld_apart _ _ (by omega) (by omega) (by omega), fld_setFld_apart _ _ (by omega) (by omega) (by omega),
        fld_setFld_apart _ _ (by omega) (by omega) (by omega), fld_setFld_apart _ _ (by omega) (by omega) (by omega)]
  · rfl

theorem fld_withOutcome_apart (r : RecImg) (oc : Nat) {o l : Nat} (hhi : o + l ≤ 96) : fld (withOutcome r oc) o l = fld r o l := by
  unfold withOutcome
  split
  · rename_i hc
    obtain ⟨-, hoff, hend⟩ := recCounter_place hc
    exact fld_setFld_apart _ _ hend (by omega) (by omega)
  · rfl

theorem fld_withOutcomes_apart (l : List Nat) (r : RecImg) {o k : Nat} (hhi : o + k ≤ 96) : fld (l.foldl withOutcome r) o k = fld r o k := by
  induction l generalizing r with
  | nil => rfl
  | cons oc l ih => rw [List.foldl_cons, ih, fld_withOutcome_apart r oc hhi]

/-- Between FLAGS and the times, rows change nothing: what a commit writes there is the counter's. -/
theorem fld_committedImg (f : Flight) (rows : List RowOut) (adv : Option (Nat × Nat)) (windowed : Bool) (codes : List (BitVec 16)) (r : RecImg)
    {o l : Nat} (hlo : 12 ≤ o) (hhi : o + l ≤ 96) : fld (committedImg f rows adv windowed codes r) o l = fld (withCounter adv r) o l := by
  unfold committedImg
  rw [fld_withOutcomes_apart _ _ hhi]
  split
  · rw [fld_setFlag_apart _ _ _ (by omega) (by omega), fld_withReading_apart _ _ _ _ hlo hhi]
  · exact fld_withReading_apart _ _ _ _ hlo hhi

/-- Fields from SERVICE_ID up to the times after a commit under the keys the record had: the counter's alone may be new. -/
theorem fld_commit {f : Flight} {adv : Option (Nat × Nat)} (hkeys : (f.promoted && adv.isSome) = false) (n : Nat) (rows : List RowOut)
    (windowed : Bool) (s : State) {o l : Nat} (hlo : 16 ≤ o) (hhi : o + l ≤ 96) :
    fld (imgOf (commit f n rows adv windowed s) n) o l = fld (withCounter adv (imgOf s n)) o l := by
  rw [imgOf_commit, fld_setFld_apart _ _ (by omega) (by omega) (by omega)]
  unfold committedSlot slotToCommit
  dsimp only
  rw [fld_committedImg _ _ _ _ _ _ (by omega) hhi, hkeys]
  rfl

/-- RECORD_SEQ moves on by one (R49). -/
theorem fld_seq_commit (f : Flight) (n : Nat) (rows : List RowOut) (adv : Option (Nat × Nat)) (windowed : Bool) (s : State) :
    fld (imgOf (commit f n rows adv windowed s) n) 12 4 = (fld (imgOf s n) 12 4 + 1) % 2 ^ 32 := by
  rw [imgOf_commit, fld_setFld_same _ _ (by omega), recSeq_toNat]

/-! ## Rows of a reading that ends before stage 7 (R102, R111) -/

theorem plainRow_of_mem {f : Flight} {m : Option Nat} {oc : Nat} {windowed : Bool} {x : RowOut} (hx : x ∈ plainRows f m oc windowed) :
    x.oc = oc ∧ x.data = rowEmpty := by
  obtain ⟨k, -, rfl⟩ := List.mem_map.mp hx
  exact ⟨rfl, rfl⟩

/-- There is at least one. -/
theorem plainRows_cons (f : Flight) (m : Option Nat) (oc : Nat) (windowed : Bool) :
    ∃ l, plainRows f m oc windowed = plainRow f m oc windowed 0 :: l := by
  obtain ⟨k, hk⟩ : ∃ k, knownRows f = k + 1 := by
    refine Nat.exists_eq_add_one.mpr ?_
    unfold knownRows
    split <;> omega
  unfold plainRows
  rw [hk, List.range_succ_eq_map]
  exact ⟨_, rfl⟩

theorem plainRows_head (f : Flight) (m : Option Nat) (oc : Nat) (windowed : Bool) :
    ((plainRows f m oc windowed).head?.map (·.oc)).getD 0 = oc := by
  obtain ⟨l, hl⟩ := plainRows_cons f m oc windowed
  rw [hl]
  rfl

theorem outcomesOf_plainRows (f : Flight) (m : Option Nat) {oc : Nat} (windowed : Bool) (hoc : oc < 9) :
    outcomesOf (plainRows f m oc windowed) = [oc] := by
  have hany : ∀ o, (plainRows f m oc windowed).any (fun x => x.oc == o) = (oc == o) := fun o => by
    obtain ⟨l, hl⟩ := plainRows_cons f m oc windowed
    rw [Bool.eq_iff_iff, List.any_eq_true]
    constructor
    · rintro ⟨x, hx, ho⟩
      rwa [(plainRow_of_mem hx).1] at ho
    · intro ho
      exact ⟨_, hl ▸ List.mem_cons_self, ho⟩
  have hone : ∀ c < 9, (List.range 9).filter (fun o => c == o) = [c] := by decide
  unfold outcomesOf
  rw [funext hany]
  exact hone oc hoc

theorem lastAccepted_plainRows (f : Flight) (m : Option Nat) {oc : Nat} (windowed : Bool) (hoc : oc ≠ ocAccepted) :
    lastAccepted (plainRows f m oc windowed) = none := by
  have hnone : (plainRows f m oc windowed).filter (fun x => x.oc == ocAccepted) = [] :=
    List.filter_eq_nil_iff.mpr fun x hx => by simpa [(plainRow_of_mem hx).1] using hoc
  unfold lastAccepted
  rw [hnone]
  rfl

theorem tamperIn_plainRows (codes : List (BitVec 16)) (f : Flight) (m : Option Nat) (oc : Nat) (windowed : Bool) :
    tamperIn codes (plainRows f m oc windowed) = false := by
  unfold tamperIn
  rw [List.any_eq_false]
  intro x hx
  rw [(plainRow_of_mem hx).2]
  simp [rowEmpty]

/-- All that such a reading writes is its counter, where it advances, and one more of its outcome. -/
theorem committedImg_plainRows (f : Flight) (m : Option Nat) {oc off len : Nat} (adv : Option (Nat × Nat)) (windowed w : Bool)
    (codes : List (BitVec 16)) (r : RecImg) (hoc : oc ≠ ocAccepted) (hc : recCounter oc = some (off, len)) :
    committedImg f (plainRows f m oc w) adv windowed codes r = satFld (withCounter adv r) off len 1 := by
  unfold committedImg
  rw [lastAccepted_plainRows f m w hoc, tamperIn_plainRows, outcomesOf_plainRows f m w (recCounter_place hc).1]
  unfold withOutcome
  rw [List.foldl_cons, hc]
  rfl

/-- The record after the commit of such a reading, under the keys it had. -/
theorem imgOf_commit_plainRows {f : Flight} {adv : Option (Nat × Nat)} (hkeys : (f.promoted && adv.isSome) = false) (n : Nat) {oc off len : Nat}
    (hoc : oc ≠ ocAccepted) (hc : recCounter oc = some (off, len)) (m : Option Nat) (w windowed : Bool) (s : State) :
    imgOf (commit f n (plainRows f m oc w) adv windowed s) n =
      setFld (satFld (withCounter adv (imgOf s n)) off len 1) 12 4 ((recSeq (imgOf s n)).toNat + 1) := by
  rw [imgOf_commit]
  unfold committedSlot slotToCommit
  dsimp only
  rw [committedImg_plainRows f m adv windowed w _ _ hoc hc, hkeys]
  rfl

/-! ## COUNTER_CHECK -/

/-- The outcome of a strict reading whose counter is not above IC_LAST (R99). -/
def usedOutcome (f : Flight) (n : Nat) (s : State) : Nat :=
  if f.item.apdu.ic.toNat = fld (imgOf s n) 80 4 then ocDuplicate else ocReplayed

/-- Repeats and replays are counted apart (R111). -/
theorem recCounter_usedOutcome (f : Flight) (n : Nat) (s : State) : usedOutcome f n s ≠ ocAccepted ∧
    recCounter (usedOutcome f n s) = some (if f.item.apdu.ic.toNat = fld (imgOf s n) 80 4 then 136 else 134, 2) := by
  unfold usedOutcome
  split
  · exact ⟨by decide, rfl⟩
  · exact ⟨by decide, rfl⟩

/-- The commit of a reading that stage 6 cannot read. -/
def commitMalformed (f : Flight) (n : Nat) (s : State) : State :=
  commit f n (plainRows f (some n) ocMalformed false) (nextCounter f n s) false s

/-- Stages 7 to 9 of a strict reading with its rows. -/
def commitRows (f : Flight) (n : Nat) (ds : List RowData) (s : State) : State :=
  let g := stampAt8 s f
  let out := runRows g n (fun a => recordFlags g.item a false g.sigOk g.promoted) (imgOf s n) ds 0 none s
  commit g n out.1 (nextCounter f n s) false out.2

/-- Stages 5 to 9 of a reading that came neither over radio nor under pending keys: R99's strict comparison, then stage 6, then a wait for
a mark. -/
def strictCheck (f : Flight) (n : Nat) (s : State) : State :=
  if f.item.apdu.ic.toNat ≤ fld (imgOf s n) 80 4 then commit f n (plainRows f (some n) (usedOutcome f n s) false) none false s
  else match decodeRows s f.item with
    | none => commitMalformed f n s
    | some ds => if ds.any fun d => !(demandOf d).2 then commitMalformed f n s
      else if markHolds s f then s else commitRows f n ds s

theorem replay_used {ic last : Nat} (h : ic ≤ last) (map : Nat) : replay ic last 0 map = .stop (if ic = last then ocDuplicate else ocReplayed) := by
  unfold replay
  rw [if_pos rfl, if_neg (by omega)]
  split <;> rfl

theorem replay_new {ic last : Nat} (h : last < ic) (map : Nat) : replay ic last 0 map = .pass ic map false := by
  unfold replay
  rw [if_pos rfl, if_pos h]

theorem strictCheck_used {f : Flight} {n : Nat} {s : State} (hle : f.item.apdu.ic.toNat ≤ fld (imgOf s n) 80 4) :
    strictCheck f n s = commit f n (plainRows f (some n) (usedOutcome f n s) false) none false s := if_pos hle

section
variable {f : Flight} {n : Nat} {s : State} (hlt : fld (imgOf s n) 80 4 < f.item.apdu.ic.toNat)
include hlt

theorem strictCheck_malformed (hnone : decodeRows s f.item = none) : strictCheck f n s = commitMalformed f n s := by
  unfold strictCheck
  rw [if_neg (Nat.not_le_of_lt hlt), hnone]

/-- Rows that are read wait for a mark (R144). -/
theorem strictCheck_held {ds : List RowData} (hsome : decodeRows s f.item = some ds) (hall : ds.all (fun d => (demandOf d).2) = true)
    (hmark : markHolds s f = true) : strictCheck f n s = s := by
  have hnoBad : ¬(ds.any fun d => !(demandOf d).2) = true := by
    rw [List.any_eq_not_all_not]
    simpa using hall
  unfold strictCheck
  rw [if_neg (Nat.not_le_of_lt hlt), hsome]
  dsimp only
  rw [if_neg hnoBad, if_pos hmark]

/-- A new counter commits and advances, whatever stages 6 to 8 make of the rows; the rules they run touch neither table nor pool. -/
theorem strictCheck_commits (hgo : markHolds s f = false ∨ decodeRows s f.item = none) :
    ∃ g rows t, strictCheck f n s = commit g n rows (nextCounter f n s) false t ∧ g.id = f.id ∧ g.promoted = f.promoted ∧
      Changes [.regs, .win, .rules, .evt] s t := by
  unfold strictCheck
  rw [if_neg (Nat.not_le_of_lt hlt)]
  split
  · exact ⟨f, _, s, rfl, rfl, rfl, .refl⟩
  · rename_i ds hsome
    have hmark : ¬markHolds s f = true := by
      rcases hgo with h | h
      · simp [h]
      · simp [hsome] at h
    by_cases hbad : (ds.any fun d => !(demandOf d).2) = true
    · rw [if_pos hbad]
      exact ⟨f, _, s, rfl, rfl, rfl, .refl⟩
    · rw [if_neg hbad, if_neg hmark]
      have hstamp : (stampAt8 s f).id = f.id ∧ (stampAt8 s f).promoted = f.promoted := by
        unfold stampAt8
        split <;> exact ⟨rfl, rfl⟩
      exact ⟨stampAt8 s f, _, _, rfl, hstamp.1, hstamp.2, runRows_changes ..⟩

end

/-! ## A SUSPENDED slot's reading (R96) -/

theorem imgOf_commitSuspended (f : Flight) (n : Nat) (s : State) : imgOf (commitSuspended f n s) n =
    setFld (satFld (imgOf s n) 140 2 1) 12 4 ((recSeq (imgOf s n)).toNat + 1) := by
  unfold commitSuspended
  dsimp only
  rw [(putFlight_changes ..).imgOf_eq n, (countOutcome_changes ..).imgOf_eq n, writeRec_eq]
  unfold imgOf
  rw [slotOf_writeSlotIdx_same]
  rfl

theorem commitSuspended_flight {f : Flight} {s : State} (hf : f ∈ s.pipe.flight) (n : Nat) :
    ∃ g ∈ (commitSuspended f n s).pipe.flight, g.id = f.id ∧ g.stage = .committed ∧ g.records = [] := by
  have hpipe : (countOutcome ocUnknown 1 (writeRec n (fun r => satFld r 140 2 1) s)).pipe = s.pipe :=
    ((countOutcome_changes ..).same .pipe (by decide)).trans ((writeRec_changes ..).same .pipe (by decide))
  have hmem : f ∈ (countOutcome ocUnknown 1 (writeRec n (fun r => satFld r 140 2 1) s)).pipe.flight := by rw [hpipe]; exact hf
  exact ⟨_, mem_putFlight hmem rfl, rfl, rfl, rfl⟩

/-! ## Which readings go through COUNTER_CHECK -/

section
variable {f : Flight} {s : State} (hfind : s.pipe.flight.find? (fun g => g.id == f.id) = some f)
include hfind

/-- A reading waits that is not verified, that has an earlier reading of its meter before it, or whose cluster is not in RUN. -/
theorem counterCheck_waits (hwhy : f.stage ≠ .verified ∨ (∃ g ∈ s.pipe.flight, g.id < f.id ∧ g.slot = f.slot ∧ g.slot.isSome ∧ g.stage ≠ .committed) ∨
    islRun s (17 + f.cluster) = false) : counterCheck f.id s = s := by
  unfold counterCheck
  rw [hfind]
  refine if_pos ?_
  simp only [Bool.or_eq_true, bne_iff_ne, ne_eq, List.any_eq_true, Bool.and_eq_true, decide_eq_true_eq, beq_iff_eq, Bool.not_eq_true', and_assoc]
  exact or_assoc.mpr hwhy

variable (hstage : f.stage = .verified) (hprior : ∀ g ∈ s.pipe.flight, g.id < f.id → g.slot = f.slot → g.stage = .committed)
  (hrun : islRun s (17 + f.cluster) = true) {n : Nat} (hslot : f.slot = some n)

omit hfind in
include hstage hprior hrun in
/-- Otherwise nothing holds it back. -/
theorem counterCheck_free : ¬(f.stage != .verified || s.pipe.flight.any (fun g => decide (g.id < f.id) && g.slot == f.slot && g.slot.isSome && g.stage != .committed) ||
    !islRun s (17 + f.cluster)) = true := by
  simp only [Bool.or_eq_true, bne_iff_ne, ne_eq, List.any_eq_true, Bool.and_eq_true, decide_eq_true_eq, beq_iff_eq, Bool.not_eq_true', not_or, Decidable.not_not,
    not_exists, not_and, Bool.not_eq_false]
  exact ⟨⟨hstage, fun g hg ⟨⟨hid, hsl⟩, _⟩ => hprior g hg hid hsl⟩, hrun⟩

include hstage hprior hrun hslot

/-- A reading whose outcome is decided commits one row of it; one of a SUSPENDED slot only counts (R96). -/
theorem counterCheck_decided {oc : Nat} (hout : f.outcome = some oc) : counterCheck f.id s =
    if f.suspended then commitSuspended f n s else commit f n (plainRows f (some n) oc false) none false s := by
  unfold counterCheck
  rw [hfind]
  dsimp only
  rw [if_neg (counterCheck_free hstage hprior hrun), hout, hslot]

/-- One whose outcome is open goes through stages 5 to 9. -/
theorem counterCheck_strict (hout : f.outcome = none) (hprom : f.promoted = false) (hwire : overRadio f.item = false) :
    counterCheck f.id s = strictCheck f n s := by
  have hflight : { f with slot := some n, outcome := none, promoted := false } = f := by
    rw [← hslot, ← hout]
    cases f
    cases hprom
    rfl
  unfold counterCheck
  rw [hfind]
  dsimp only
  rw [if_neg (counterCheck_free hstage hprior hrun), hout, hslot]
  simp only [hprom, hwire, hflight, Bool.false_and, Bool.false_eq_true, if_false]
  unfold strictCheck
  by_cases hle : f.item.apdu.ic.toNat ≤ fld (imgOf s n) 80 4
  · rw [replay_used hle, if_pos hle]
    rfl
  · rw [replay_new (Nat.lt_of_not_le hle), if_neg hle]
    rfl

end

/-! ## READING_POSTING -/

/-- A reading that is posted leaves the flight and the orphans, and its token, if it held one, is on its way back. -/
theorem finishFlight_pipe (id : Nat) (s : State) : (finishFlight id s).pipe =
    { s.pipe with
      flight := s.pipe.flight.filter (fun g => g.id != id)
      orphans := s.pipe.orphans.filter (fun g => g.id != id)
      returning := s.pipe.returning + (s.pipe.flight.filter (fun g => g.id == id)).length } := by
  unfold finishFlight endFlight
  split
  · rfl
  · rename_i hnone
    simp only [List.any_eq_true, beq_iff_eq, not_exists, not_and] at hnone
    have hkept : s.pipe.flight.filter (fun g => g.id != id) = s.pipe.flight :=
      List.filter_eq_self.mpr fun g hg => by simpa using hnone g hg
    have hmine : s.pipe.flight.filter (fun g => g.id == id) = [] :=
      List.filter_eq_nil_iff.mpr fun g hg => by simpa using hnone g hg
    rw [hkept, hmine]
    rfl

section
variable {f : Flight} {s : State} (hfind : (unposted s).find? (fun g => g.id == f.id) = some f)
include hfind

/-- A reading is not posted before its commit, the standby's acknowledgement and the meter's earlier postings. -/
theorem readingPosting_waits (hwhy : f.stage ≠ .committed ∨ journalAcked f.batch s = false ∨ postsBefore s f = true) :
    readingPosting f.id s = s := by
  unfold readingPosting
  rw [hfind]
  refine if_pos ?_
  rcases hwhy with h | h | h <;> simp [h]

/-- What is posted, to the host or the relay, touches neither table nor pool. -/
theorem readingPosting_posts (hstage : f.stage = .committed) (hack : journalAcked f.batch s = true) (hbefore : postsBefore s f = false)
    (hrelay : isField s = true → relayBlocked s = false) (hhost : isHead s = true → readingBlocked f.bucket s = false) :
    ∃ t, readingPosting f.id s = finishFlight f.id t ∧ Changes [.regs, .win, .relay, .jr, .host, .evt, .out] s t := by
  have hopen : (isField s && relayBlocked s || isHead s && readingBlocked f.bucket s) = false := by
    rw [Bool.and_eq_false_imp.mpr hrelay, Bool.and_eq_false_imp.mpr hhost]
    rfl
  have hres := (relayResult_changes f.item.ref (f.outcome.getD ocUnknown) s).mono
    (W := [.regs, .win, .relay, .jr, .host, .evt, .out]) rfl
  unfold readingPosting
  rw [hfind]
  dsimp only
  rw [if_neg (by simp [hstage, hack, hbefore]), if_neg (by simp [hopen])]
  split
  · exact ⟨_, rfl, .foldl (fun _ _ h => .step (makePost_changes ..) h rfl) hres⟩
  · exact ⟨_, rfl, .ite hres (.step (sendEntry_changes ..) hres rfl)⟩

end

/-- Settles O44: each reading by the course that its check or its posting takes, and the record it leaves by the laws of the commit. -/
theorem readingCommitted : Obligations.ReadingCommitted := by
  unfold Obligations.ReadingCommitted
  refine ⟨?waits, ?decided, ?used, ?new, ?held, ?suspended, ?posts, fun f s hfind hwhy => congrArg Host.Outcome.next (readingPosting_waits hfind hwhy)⟩
  case waits =>
    intro f s hq hfind hwhy
    refine congrArg Host.Outcome.next ?_
    rw [counterCheck_waits hfind hwhy, settleAll_of_quiet hq]
  case decided =>
    intro f n oc off len s hfind hstage hprior hrun hout hoc hslot hsusp hc
    refine ⟨_, rfl, ?_⟩
    rw [counterCheck_decided hfind hstage hprior hrun hslot hout, hsusp, if_neg Bool.false_ne_true]
    refine ⟨imgOf_commit_plainRows (Bool.and_false _) n hoc hc (some n) false false s, ?_⟩
    have hflight := commit_flight (List.mem_of_find?_eq_some hfind) rfl n (plainRows f (some n) oc false) none false
    rwa [plainRows_head] at hflight
  case used =>
    intro f n s hfind hstage hprior hrun hout hslot hprom hwire hle
    refine ⟨_, rfl, ?_⟩
    rw [counterCheck_strict hfind hstage hprior hrun hslot hout hprom hwire, strictCheck_used hle]
    have hflight := commit_flight (List.mem_of_find?_eq_some hfind) rfl n (plainRows f (some n) (usedOutcome f n s) false) none false
    rw [plainRows_head] at hflight
    obtain ⟨hoc, hc⟩ := recCounter_usedOutcome f n s
    exact ⟨imgOf_commit_plainRows (Bool.and_false _) n hoc hc (some n) false false s, hflight⟩
  case new =>
    intro f n s hfind hstage hprior hrun hout hslot hprom hwire hlt hgo
    refine ⟨_, rfl, ?_⟩
    rw [counterCheck_strict hfind hstage hprior hrun hslot hout hprom hwire]
    obtain ⟨g, rows, t, hcommit, hid, hgprom, hch⟩ := strictCheck_commits hlt hgo
    have hkeys : (g.promoted && (nextCounter f n s).isSome) = false := by rw [hgprom, hprom]; rfl
    have himg : imgOf t n = imgOf s n := hch.imgOf_eq n
    have hmem : f ∈ t.pipe.flight := by rw [hch.same .pipe (by decide)]; exact List.mem_of_find?_eq_some hfind
    obtain ⟨k, hk, hkid, hkstage, -⟩ := commit_flight hmem hid n rows (nextCounter f n s) false
    refine ⟨?ic, ?map, ?seq, ?malformed, ?flight⟩
    case ic =>
      rw [hcommit, fld_commit hkeys n rows false t (by omega) (by omega), himg]
      exact fld_withCounter_ic ..
    case map =>
      rw [hcommit, fld_commit hkeys n rows false t (by omega) (by omega), himg]
      exact fld_withCounter_map ..
    case seq => rw [hcommit, fld_seq_commit, himg]
    case malformed =>
      intro hnone
      rw [strictCheck_malformed hlt hnone]
      exact imgOf_commit_plainRows (by rw [hprom]; rfl) n (by decide) rfl (some n) false false s
    case flight =>
      rw [hcommit]
      exact ⟨k, hk, hkid, hkstage⟩
  case held =>
    intro f n ds s hq hfind hstage hprior hrun hout hslot hprom hwire hlt hsome hall hmark
    refine congrArg Host.Outcome.next ?_
    rw [counterCheck_strict hfind hstage hprior hrun hslot hout hprom hwire, strictCheck_held hlt hsome hall hmark, settleAll_of_quiet hq]
  case suspended =>
    intro f n oc s hfind hstage hprior hrun hout hslot hsusp
    refine ⟨_, rfl, ?_⟩
    rw [counterCheck_decided hfind hstage hprior hrun hslot hout, if_pos hsusp]
    exact ⟨imgOf_commitSuspended f n s, (commitSuspended_changes f n s).same .arch (by decide),
      commitSuspended_flight (List.mem_of_find?_eq_some hfind) n⟩
  case posts =>
    intro f s hfind hstage hack hbefore hrelay hhost
    obtain ⟨t, hposts, hch⟩ := readingPosting_posts hfind hstage hack hbefore hrelay hhost
    have hpipe : t.pipe = s.pipe := hch.same .pipe (by decide)
    have htable : (finishFlight f.id t).table = s.table :=
      ((finishFlight_changes f.id t).same .table (by decide)).trans (hch.same .table (by decide))
    refine ⟨_, congrArg Host.Outcome.next hposts, ?_⟩
    rw [finishFlight_pipe, hpipe]
    exact ⟨rfl, rfl, rfl, rfl, htable⟩

end Sys2Proof.Machine
end

section
/-!
SUPPORT. O21: RULE_LOAD, RULE_ACTIVATE, RULE_REMOVE, RULE_READ and ACTIVATION_MARK_PASS (R143 to R146, R149, R574).
-/
namespace Sys2Proof.Machine

/-! ## The store of rule sets (R145) -/

theorem ruleSet_congr {s t : State} (h : t.rules.sets = s.rules.sets) (n : Nat) : ruleSet t n = ruleSet s n := by unfold ruleSet; rw [h]

@[simp] theorem putRuleSet_rules (n : Nat) (v : RuleSet) (s : State) :
    (putRuleSet n v s).rules = { s.rules with sets := Kv.putOr ruleSetEmpty n v s.rules.sets } := journal_rules ..

@[simp] theorem putRuleSet_regs (n : Nat) (v : RuleSet) (s : State) : (putRuleSet n v s).regs = s.regs := journal_regs ..

section
variable {s : State} (hwf : Kv.wf s.rules.sets = true) {n : Nat} (v : RuleSet)
include hwf

theorem ruleSet_putRuleSet_same : ruleSet (putRuleSet n v s) n = v := by
  unfold ruleSet
  rw [putRuleSet_rules]
  exact Kv.getD_putOr_same _ _ _ hwf

theorem ruleSet_putRuleSet_ne {k : Nat} (hne : k ≠ n) : ruleSet (putRuleSet n v s) k = ruleSet s k := by
  unfold ruleSet
  rw [putRuleSet_rules]
  exact Kv.getD_putOr_ne _ _ _ hwf hne

theorem wf_putRuleSet : Kv.wf (putRuleSet n v s).rules.sets = true := by
  rw [putRuleSet_rules]
  exact Kv.wf_putOr _ _ _ hwf

end

/-- A set waits for no mark when no mark names it. -/
theorem ruleBusy_eq_false_iff {s : State} {n : Nat} : ruleBusy s n = false ↔ ∀ m ∈ s.rules.marks, n ∉ m.sets := by
  simp [ruleBusy]

/-! ## CTL_RULE_LOAD_STATUS (R149) -/

@[simp] theorem ruleStatus_rules (check index set : Nat) (s : State) : (ruleStatus check index set s).rules = s.rules := setReg_rules ..

/-- The set of the status word fits its byte: 0 stands for one out of range. -/
theorem shownSet_lt (set : Nat) : (if set = 0 || 255 < set then 0 else set) < 256 := by
  split
  · decide
  next hin =>
    simp only [Bool.or_eq_true, decide_eq_true_eq, not_or] at hin
    omega

theorem toNat_reg_ruleStatus {s : State} (hs : s.RegsOk) {check : Nat} (hcheck : check < 256) (index set : Nat) :
    (reg (ruleStatus check index set s) 0x404).toNat =
      check * 2 ^ 24 + index % 64 * 2 ^ 16 + (if set = 0 || 255 < set then 0 else set) := by
  have hset := shownSet_lt set
  unfold ruleStatus
  rw [reg_setReg_same hs, BitVec.toNat_ofNat]
  exact Nat.mod_eq_of_lt (by omega)

theorem bits_check_ruleStatus {s : State} (hs : s.RegsOk) {check : Nat} (hcheck : check < 256) (index set : Nat) :
    bits (reg (ruleStatus check index set s) 0x404) 31 24 = check := by
  have hset := shownSet_lt set
  unfold bits
  rw [toNat_reg_ruleStatus hs hcheck, Nat.shiftRight_eq_div_pow]
  omega

theorem bits_index_ruleStatus {s : State} (hs : s.RegsOk) {check : Nat} (hcheck : check < 256) (index set : Nat) :
    bits (reg (ruleStatus check index set s) 0x404) 21 16 = index % 64 := by
  have hset := shownSet_lt set
  unfold bits
  rw [toNat_reg_ruleStatus hs hcheck, Nat.shiftRight_eq_div_pow]
  omega

/-! ## RULE_LOAD (R143) -/

/-- Is the program newer than what a bank holds? Every program is newer than an empty bank. -/
def newerThan (p : RuleProg) (b : Option RuleProg) : Bool :=
  match b with
  | some q => decide (q.version.toNat < p.version.toNat)
  | none => true

theorem newerThan_iff {p : RuleProg} {b : Option RuleProg} : newerThan p b = true ↔ ∀ q, b = some q → q.version.toNat < p.version.toNat := by
  cases b <;> simp [newerThan]

section
variable {img : List Byte} {s : State} (hh : isHead s = true)
include hh

theorem ruleLoad_malformed {code index : Nat} (himg : checkImage img = .inl (code, index)) :
    ruleLoad img s = (ruleStatus code index (beVal (img.take 2)) s, .bad) := by
  unfold ruleLoad
  rw [if_neg (by simp [hh]), himg]

/-- What is left to check of a well-formed image: its version, then that its set waits for no mark. -/
theorem ruleLoad_wellFormed {p : RuleProg} (himg : checkImage img = .inr p) : ruleLoad img s =
    if !newerThan p (ruleSet s p.setId).act || !newerThan p (ruleSet s p.setId).shd then (ruleStatus 0x0D 0 (beVal (img.take 2)) s, .bad)
    else if ruleBusy s p.setId then (ruleStatus 0x0E 0 (beVal (img.take 2)) s, .busy)
    else (putRuleSet p.setId { ruleSet s p.setId with shd := some p } (ruleStatus 0 0 (beVal (img.take 2)) s), .done) := by
  unfold ruleLoad
  rw [if_neg (by simp [hh]), himg]
  rfl

theorem ruleLoad_stores {p : RuleProg} (himg : checkImage img = .inr p)
    (hnew : ∀ q, (ruleSet s p.setId).act = some q ∨ (ruleSet s p.setId).shd = some q → q.version.toNat < p.version.toNat)
    (hidle : ∀ m ∈ s.rules.marks, p.setId ∉ m.sets) : ruleLoad img s =
      (putRuleSet p.setId { ruleSet s p.setId with shd := some p } (ruleStatus 0 0 (beVal (img.take 2)) s), .done) := by
  have hact : newerThan p (ruleSet s p.setId).act = true := newerThan_iff.mpr fun q hq => hnew q (.inl hq)
  have hshd : newerThan p (ruleSet s p.setId).shd = true := newerThan_iff.mpr fun q hq => hnew q (.inr hq)
  rw [ruleLoad_wellFormed hh himg, if_neg (by simp [hact, hshd]), if_neg (by simp [ruleBusy_eq_false_iff.mpr hidle])]

theorem ruleLoad_outdated {p q : RuleProg} (himg : checkImage img = .inr p)
    (hheld : (ruleSet s p.setId).act = some q ∨ (ruleSet s p.setId).shd = some q) (hold : p.version.toNat ≤ q.version.toNat) :
    ruleLoad img s = (ruleStatus 0x0D 0 (beVal (img.take 2)) s, .bad) := by
  have hnot : newerThan p (some q) = false := decide_eq_false (Nat.not_lt.mpr hold)
  rw [ruleLoad_wellFormed hh himg]
  refine if_pos ?_
  rcases hheld with hq | hq <;> simp [hq, hnot]

end

/-! ## RULE_ACTIVATE and RULE_REMOVE (R144) -/

theorem hasDup_eq_false_iff {l : List Nat} : hasDup l = false ↔ l.Nodup := by
  induction l with
  | nil => simp [hasDup]
  | cons a t ih => simp [hasDup, ih]

/-- The state in which the marks stand as listed. -/
def withMarks (l : List RuleMark) (s : State) : State := { s with rules := { s.rules with marks := l } }

@[simp] theorem ruleSet_withMarks (l : List RuleMark) (s : State) (n : Nat) : ruleSet (withMarks l s) n = ruleSet s n := ruleSet_congr rfl n

/-- The bank that must hold a program: the shadow to activate, the active bank to remove. -/
def bankTaken (remove : Bool) (v : RuleSet) : Option RuleProg :=
  match remove with
  | true => v.act
  | false => v.shd

theorem isSome_bankTaken (remove : Bool) (v : RuleSet) : (bankTaken remove v).isSome = if remove then v.act.isSome else v.shd.isSome := by
  cases remove <;> rfl

theorem ruleMark_joins {h : Hdr} {sets : List Nat} {remove : Bool} {s : State} (hh : isHead s = true) (hne : sets ≠ []) (hlen : sets.length ≤ 16)
    (hdup : sets.Nodup)
    (hsets : ∀ n ∈ sets, 1 ≤ n ∧ n ≤ 255 ∧ bankTaken remove (ruleSet s n) ≠ none ∧ ∀ m ∈ s.rules.marks, n ∉ m.sets) :
    ruleMark h sets remove s = (withMarks (s.rules.marks ++ [⟨sets, remove, s.pipe.nextId, runClusters s, [], h⟩]) s, .later) := by
  have hform : ¬(!isHead s || decide (sets.length = 0) || decide (16 < sets.length) || hasDup sets) = true := by
    simp [hh, hne, hlen, hasDup_eq_false_iff.mpr hdup]
  have hidle : ¬sets.any (ruleBusy s) = true := by
    simp only [List.any_eq_true, not_exists, not_and, Bool.not_eq_true]
    intro n hn
    obtain ⟨-, -, -, hfree⟩ := hsets n hn
    exact ruleBusy_eq_false_iff.mpr hfree
  have hready : ¬(sets.any fun n => decide (n = 0) || decide (255 < n) ||
      !if remove then (ruleSet s n).act.isSome else (ruleSet s n).shd.isSome) = true := by
    simp only [← isSome_bankTaken, List.any_eq_true, not_exists, not_and, Bool.or_eq_true, decide_eq_true_eq, Bool.not_eq_true', not_or,
      Bool.not_eq_false]
    intro n hn
    obtain ⟨hlo, hhi, hbank, -⟩ := hsets n hn
    exact ⟨⟨by omega, by omega⟩, Option.isSome_iff_ne_none.mpr hbank⟩
  unfold ruleMark
  dsimp only
  rw [if_neg hform, if_neg hidle, if_neg hready]
  rfl

/-- Either command, once its sets are ready, puts its mark behind the others and leaves the store as it is. -/
theorem exec_of_ruleMark {i : Instr} {h : Hdr} {c : Cmd} {sets : List Nat} {remove : Bool} {s u : State}
    (hi : exec i s = .next (command h c (ruleMark h sets remove) s)) (hu : State.entered h c s = some u) (hh : isHead u = true) (hne : sets ≠ [])
    (hlen : sets.length ≤ 16) (hdup : sets.Nodup)
    (hsets : ∀ n ∈ sets, 1 ≤ n ∧ n ≤ 255 ∧ bankTaken remove (ruleSet u n) ≠ none ∧ ∀ m ∈ u.rules.marks, n ∉ m.sets) :
    ∃ t, exec i s = .next t ∧ t.rules.sets = u.rules.sets ∧
      t.rules.marks = u.rules.marks ++ [⟨sets, remove, u.pipe.nextId, runClusters u, [], h⟩] := by
  refine ⟨_, exec_of_entered hi hu (ruleMark_joins hh hne hlen hdup hsets), ?_⟩
  rw [answered_rules]
  exact ⟨rfl, rfl⟩

theorem ruleMark_refused {h : Hdr} {sets : List Nat} {remove : Bool} {s : State}
    (hwhy : isHead s = false ∨ sets = [] ∨ 16 < sets.length ∨ ¬sets.Nodup) : ruleMark h sets remove s = (s, .bad) := by
  refine if_pos ?_
  rw [← hasDup_eq_false_iff, Bool.not_eq_false] at hwhy
  rcases hwhy with hrole | hnone | hmany | hdup
  · simp [hrole]
  · simp [hnone]
  · simp [hmany]
  · simp [hdup]

/-! ## RULE_READ (R146, R574) -/

/-- Padding leaves what is in front. -/
theorem take_padTo {k n : Nat} {l : List Byte} (hn : k ≤ n) (hl : k ≤ l.length) : (padTo n l).take k = l.take k := by
  unfold padTo
  rw [List.take_take, Nat.min_eq_left hn, List.take_append_of_le_length hl]

/-- The image of a bank in an answer, filled to whole words. -/
def bankItems (b : Option RuleProg) : List (List Byte) :=
  b.toList.map fun p => p.image ++ List.replicate ((4 - p.image.length % 4) % 4) 0

theorem length_bankItems (b : Option RuleProg) : (bankItems b).length = if b.isSome then 1 else 0 := by
  cases b <;> rfl

theorem ruleRead_answers {n : Nat} {s : State} (hlo : 1 ≤ n) (hhi : n ≤ 255) : ∃ rest, ruleRead n s =
    (s, ⟨.ok, padTo 40 (be 2 n ++ be 1 (b2n (ruleSet s n).act.isSome * 2 + b2n (ruleSet s n).shd.isSome) ++ be 1 0 ++ rest),
      bankItems (ruleSet s n).act ++ bankItems (ruleSet s n).shd⟩) := by
  unfold ruleRead
  rw [if_neg (by simp only [Bool.or_eq_true, decide_eq_true_eq]; omega)]
  dsimp only
  simp only [List.append_assoc]
  refine ⟨_, congrArg (fun l => (s, Reply.mk .ok _ l)) ?_⟩
  cases (ruleSet s n).act <;> cases (ruleSet s n).shd <;> rfl

/-! ## ACTIVATION_MARK_PASS (R144) -/

/-- A mark that one more cluster has passed. -/
def passedBy (c : Nat) (m : RuleMark) : RuleMark := { m with waiting := m.waiting.filter (· != c), passed := m.passed ++ [c] }

/-- The store with a mark's change made in each of its sets. -/
def markSets (remove : Bool) (sets : List Nat) (s : State) : State :=
  sets.foldl (fun t n => putRuleSet n (markSet remove (ruleSet t n)) t) s

theorem markSets_marks (remove : Bool) (sets : List Nat) (s : State) : (markSets remove sets s).rules.marks = s.rules.marks := by
  unfold markSets
  induction sets generalizing s with
  | nil => rfl
  | cons a l ih => rw [List.foldl_cons, ih, putRuleSet_rules]

theorem ruleSet_markSets_of_notMem (remove : Bool) {sets : List Nat} {s : State} (hwf : Kv.wf s.rules.sets = true) {n : Nat} (hn : n ∉ sets) :
    ruleSet (markSets remove sets s) n = ruleSet s n := by
  unfold markSets
  induction sets generalizing s with
  | nil => rfl
  | cons a l ih =>
    obtain ⟨hna, hnl⟩ := List.ne_and_not_mem_of_not_mem_cons hn
    rw [List.foldl_cons, ih (wf_putRuleSet hwf _) hnl, ruleSet_putRuleSet_ne hwf _ hna]

/-- Each set is changed once, as no set is named twice. -/
theorem ruleSet_markSets_of_mem (remove : Bool) {sets : List Nat} (hdup : sets.Nodup) {s : State} (hwf : Kv.wf s.rules.sets = true) {n : Nat}
    (hn : n ∈ sets) : ruleSet (markSets remove sets s) n = markSet remove (ruleSet s n) := by
  induction sets generalizing s with
  | nil => exact absurd hn List.not_mem_nil
  | cons a l ih =>
    obtain ⟨hal, hdup⟩ := List.nodup_cons.mp hdup
    have hstep : markSets remove (a :: l) s = markSets remove l (putRuleSet a (markSet remove (ruleSet s a)) s) := rfl
    have hwf' := wf_putRuleSet (n := a) hwf (markSet remove (ruleSet s a))
    rw [hstep]
    rcases List.mem_cons.mp hn with rfl | hnl
    · rw [ruleSet_markSets_of_notMem remove hwf' hal, ruleSet_putRuleSet_same hwf]
    · have hne : n ≠ a := fun hna => hal (hna ▸ hnl)
      rw [ih hdup hwf' hnl, ruleSet_putRuleSet_ne hwf _ hne]

section
variable {c : Nat} {m : RuleMark} {s : State}

/-- The only mark passes in a cluster whose earlier readings are past stage 7. -/
theorem markPass_only (hmarks : s.rules.marks = [m]) (hwait : c ∈ m.waiting) (hmay : markMayPass s c m.markId = true) :
    markPass c s = finishMarks (withMarks [passedBy c m] s) := by
  have hfind : s.rules.marks.find? (fun m => m.waiting.contains c) = some m := by
    rw [hmarks, List.find?_cons_of_pos (by simpa using hwait)]
  unfold markPass
  rw [hfind]
  dsimp only
  rw [if_neg (by simp [hmay]), hmarks, List.map_singleton, if_pos (by simp)]
  rfl

/-- A mark that a cluster has yet to pass stays. -/
theorem finishMarks_waits (hmarks : s.rules.marks = [m]) (hwait : m.waiting ≠ []) : finishMarks s = s := by
  unfold finishMarks
  rw [hmarks, List.foldl_cons, if_pos (by simpa using hwait), List.foldl_nil]

/-- A mark that every cluster has passed goes, its sets change and its command completes. -/
theorem finishMarks_finishes (hmarks : s.rules.marks = [m]) (hdone : m.waiting = []) : finishMarks s =
    answer m.hdr (if m.remove then 0x0303 else 0x0302) .done (markSets m.remove m.sets (withMarks [] s)) := by
  have hgone : s.rules.marks.filter (fun x => x.markId != m.markId || x.sets != m.sets) = [] := by simp [hmarks]
  unfold finishMarks
  rw [hmarks, List.foldl_cons, if_neg (by simp [hdone]), List.foldl_nil]
  exact congrArg (fun l => answer m.hdr (if m.remove then 0x0303 else 0x0302) .done (markSets m.remove m.sets (withMarks l s))) hgone

end

/-- Settles O21: each command by the law of what it does to the store, and the mark by what its last cluster, or another, makes of it. -/
theorem ruleBanks : Obligations.RuleBanks := by
  unfold Obligations.RuleBanks
  refine ⟨?load, ?malformed, ?outdated, ?activate, ?remove, ?refused, ?read, ?lastCluster, ?oneCluster⟩
  case load =>
    intro h image p s u hu hs hwf hh himg hnew hidle
    have hwf' : Kv.wf (ruleStatus 0 0 (beVal (image.take 2)) u).rules.sets = true := by rwa [ruleStatus_rules]
    refine ⟨_, exec_of_entered rfl hu (ruleLoad_stores hh himg hnew hidle), ruleSet_putRuleSet_same hwf' _, fun n hne => ?_, ?_, ?_⟩
    · rw [ruleSet_putRuleSet_ne hwf' _ hne, ruleSet_congr (congrArg RuleStore.sets (ruleStatus_rules ..))]
    · rw [putRuleSet_rules, ruleStatus_rules]
    · rw [reg_congr (putRuleSet_regs ..), bits_check_ruleStatus hs (by decide)]
  case malformed =>
    intro h image code index s u hu hs hh himg hcode
    exact ⟨_, exec_of_entered rfl hu (ruleLoad_malformed hh himg), ruleStatus_rules .., bits_check_ruleStatus hs hcode _ _,
      bits_index_ruleStatus hs hcode _ _⟩
  case outdated =>
    intro h image p q s u hu hs hh himg hheld hold
    exact ⟨_, exec_of_entered rfl hu (ruleLoad_outdated hh himg hheld hold), ruleStatus_rules .., bits_check_ruleStatus hs (by decide) _ _⟩
  case activate => exact fun h sets s u hu hh hne hlen hdup hsets => exec_of_ruleMark rfl hu hh hne hlen hdup hsets
  case remove => exact fun h sets s u hu hh hne hlen hdup hsets => exec_of_ruleMark rfl hu hh hne hlen hdup hsets
  case refused => exact fun h sets s u hu hwhy => exec_of_entered rfl hu (ruleMark_refused hwhy)
  case read =>
    intro h n s u hu hlo hhi
    obtain ⟨rest, hread⟩ := ruleRead_answers (s := u) hlo hhi
    refine ⟨_, _, exec_of_entered rfl hu hread, ?_, ?_⟩
    · rw [take_padTo (by decide) (by simp [be])]
      cases (ruleSet u n).act <;> cases (ruleSet u n).shd <;> rfl
    · rw [List.length_append, length_bankItems, length_bankItems]
  case lastCluster =>
    intro c m s hmarks hwait hdup hwf hmay
    have hdone : (passedBy c m).waiting = [] := by simp [passedBy, hwait]
    have hpass := (markPass_only hmarks (by simp [hwait]) hmay).trans (finishMarks_finishes rfl hdone)
    have hrules : (markPass c s).rules = (markSets m.remove m.sets (withMarks [] s)).rules := by
      rw [hpass]
      exact (answer_changes ..).same .rules (by decide)
    have hsets : ∀ n, ruleSet (markPass c s) n = ruleSet (markSets m.remove m.sets (withMarks [] s)) n :=
      ruleSet_congr (congrArg RuleStore.sets hrules)
    have hwf' : Kv.wf (withMarks [] s).rules.sets = true := hwf
    refine ⟨_, rfl, ?_, fun n hn => ?_, fun n hn => ?_⟩
    · rw [hrules, markSets_marks]
      rfl
    · rw [hsets, ruleSet_markSets_of_mem m.remove hdup hwf' hn, ruleSet_withMarks]
      cases m.remove <;> rfl
    · rw [hsets, ruleSet_markSets_of_notMem m.remove hwf' hn, ruleSet_withMarks]
  case oneCluster =>
    intro c d m s hmarks hwait hne hmay
    have hleft : (passedBy c m).waiting = [d] := by simp [passedBy, hwait, hne.symm]
    have hpass := (markPass_only hmarks (by simp [hwait]) hmay).trans (finishMarks_waits rfl (by simp [hleft]))
    refine ⟨_, congrArg Host.Outcome.next hpass, ?_, rfl⟩
    rw [← hleft]
    rfl

end Sys2Proof.Machine
end

section
/-!
SUPPORT. A list of changes made one after another, each to what stands under its own key.
-/
namespace Sys2Proof.Machine

section
variable {σ α γ : Type} {ok : σ → Prop} {f : σ → α → σ} {read : σ → Nat → γ} {key : α → Nat}
  (hok : ∀ m x, ok m → ok (f m x)) (hne : ∀ m x n, ok m → n ≠ key x → read (f m x) n = read m n)
include hok hne

/-- What no change names reads as before. -/
theorem read_foldl_of_notMem {n : Nat} : ∀ {l : List α} {m : σ}, ok m → n ∉ l.map key → read (l.foldl f m) n = read m n
  | [], _, _, _ => rfl
  | x :: l, m, hm, hn => by
    rw [List.map_cons] at hn
    obtain ⟨hnx, hnl⟩ := List.ne_and_not_mem_of_not_mem_cons hn
    rw [List.foldl_cons, read_foldl_of_notMem (hok m x hm) hnl, hne m x n hm hnx]

/-- What one change brings about under its key, which no other names, holds after all of them. -/
theorem holds_foldl_of_nodup {x : α} {p : γ → Prop} (hp : ∀ m, ok m → p (read (f m x) (key x))) :
    ∀ {l : List α} {m : σ}, ok m → (l.map key).Nodup → x ∈ l → p (read (l.foldl f m) (key x))
  | y :: l, m, hm, hdup, hx => by
    rw [List.map_cons] at hdup
    obtain ⟨hyl, hdup⟩ := List.nodup_cons.mp hdup
    rw [List.foldl_cons]
    rcases List.mem_cons.mp hx with rfl | hxl
    · rw [read_foldl_of_notMem hok hne (hok m x hm) hyl]
      exact hp m hm
    · exact holds_foldl_of_nodup hp (hok m y hm) hdup hxl

/-- What every change under one key brings about there holds after all of them, however often the key is named. -/
theorem holds_foldl_of_mem {n : Nat} {p : γ → Prop} (hp : ∀ m x, ok m → key x = n → p (read (f m x) n)) :
    ∀ {l : List α} {m : σ}, ok m → n ∈ l.map key → p (read (l.foldl f m) n)
  | x :: l, m, hm, hn => by
    rw [List.foldl_cons]
    by_cases hnl : n ∈ l.map key
    · exact holds_foldl_of_mem hp (hok m x hm) hnl
    · rw [List.map_cons, List.mem_cons, or_iff_left hnl] at hn
      rw [read_foldl_of_notMem hok hne (hok m x hm) hnl]
      exact hp m x hm hn.symm

end

end Sys2Proof.Machine
end

section
/-!
SUPPORT. The start of a balance run (R155, R161): what an activation that waits and the run itself make of the tree, the scores and the
intervals due. O22 and O47 rest on it.
-/
namespace Sys2Proof.Machine

theorem setBal_bal (f : BalState → BalState) (s : State) : (setBal f s).bal = f s.bal := rfl

/-- The state in which a run starts: an activation that waits has switched the banks and is answered (R155). -/
def treeSwitched (s : State) : State :=
  match s.bal.waiting with
  | some h => answer h 0x0402 .done (journal .topoSwitch (setBal (fun b => switchTree b s) s))
  | none => s

theorem treeSwitched_of_none {s : State} (h : s.bal.waiting = none) : treeSwitched s = s := by
  unfold treeSwitched
  rw [h]

theorem treeSwitched_bal {s : State} {h : Hdr} (hw : s.bal.waiting = some h) : (treeSwitched s).bal = switchTree s.bal s := by
  unfold treeSwitched
  rw [hw]
  exact ((answer_changes ..).same .bal (by decide)).trans (journal_bal ..)

/-- Is the run of an interval skipped (R161)? Without valid time at its close, and without a tree. -/
def runSkipped (timOk : Bool) (s : State) : Bool := !timOk || !s.bal.haveTree

/-- What the start of a run counts and reports: a late run, or one skipped (R36, R161). -/
def startNoted (onTime timOk : Bool) (s : State) : State :=
  let skip := runSkipped timOk s
  let t := if !onTime && !skip then count 0x544 s else s
  if skip then event 17 0x05 (b2n (!t.bal.haveTree) * 2 + b2n (!timOk)) [] (count 0x548 t) else t

theorem startNoted_changes (onTime timOk : Bool) (s : State) : Changes [.regs, .evt] s (startNoted onTime timOk s) := by
  unfold startNoted
  have hlate : Changes [.regs, .evt] s (if !onTime && !runSkipped timOk s then count 0x544 s else s) :=
    .ite ((count_changes _ _ rfl).mono rfl) .refl
  exact .ite (.step (event_changes ..) (.step (count_changes _ _ rfl) hlate rfl) rfl) hlate

@[simp] theorem startNoted_bal (onTime timOk : Bool) (s : State) : (startNoted onTime timOk s).bal = s.bal :=
  (startNoted_changes onTime timOk s).same .bal (by decide)

/-- The run of an interval as it starts, from the state in which the tree has been switched (R158, R161, R187). -/
def startedRun (onTime timOk : Bool) (start : Int) (closed len : Nat) (s : State) : BalRun :=
  let skip := runSkipped timOk s
  let t := startNoted onTime timOk s
  { start := start, len := len, closedAt := closed, startedAt := t.tim.raw, index := t.bal.started + 1, late := !onTime && !skip,
    treeChanged := t.bal.treeChanged, skipped := skip, cfg := balCfg t,
    refs := t.bal.minutes.filter fun m => decide (start ≤ m.start) && decide (m.start < start + len),
    computed := false, batch := 0, meters := [], nodes := [], reports := [], noticeCount := 0, excluded := 0, saturated := 0 }

/-- The balance once a run is under way. -/
def withRun (r : BalRun) (rest : List (Int × Nat × Bool)) (b : BalState) : BalState :=
  { b with due := rest, started := b.started + 1, startedEnd := some ((r.start + r.len) * 1000), lateLast := r.late, run := some r,
           treeChanged := false }

section
variable {onTime : Bool} {s : State}

/-- The first interval due is the one whose run starts. -/
theorem startRun_starts {start : Int} {closed : Nat} {timOk : Bool} {rest : List (Int × Nat × Bool)} (hh : isHead s = true)
    (hserv : serving s = true) (hrun : s.bal.run = none) (hdue : s.bal.due = (start, closed, timOk) :: rest) :
    startRun onTime s = setBal (withRun (startedRun onTime timOk start closed (balLen s) (treeSwitched s)) rest)
      (startNoted onTime timOk (treeSwitched s)) := by
  unfold startRun
  rw [hrun, hdue]
  dsimp only
  rw [if_neg (by simp [hh, hserv])]
  rfl

theorem startRun_of_running {r : BalRun} (hrun : s.bal.run = some r) : startRun onTime s = s := by
  unfold startRun
  rw [hrun]

theorem startRun_of_nothingDue (hdue : s.bal.due = []) : startRun onTime s = s := by
  unfold startRun
  rw [hdue]
  cases s.bal.run <;> rfl

end

end Sys2Proof.Machine
end

section
/-!
SUPPORT. O22: TOPO_LOAD, TOPO_ACTIVATE and TOPO_READ (R153, R155).
-/
namespace Sys2Proof.Machine

/-! ## CTL_BAL_TOPO_STATUS -/

@[simp] theorem topoStatus_bal (code node : Nat) (s : State) : (topoStatus code node s).bal = s.bal :=
  (topoStatus_changes code node s).same .bal (by decide)

theorem reg_topoStatus {s : State} (hs : s.RegsOk) (code node : Nat) :
    reg (topoStatus code node s) 0x538 = BitVec.ofNat 32 (code * 2 ^ 24 + node % 65536) := by
  unfold topoStatus
  rw [reg_setReg_same hs]

/-- The status of a check that names no node. -/
theorem reg_topoStatus_noNode {s : State} (hs : s.RegsOk) (code : Nat) :
    reg (topoStatus code 0 s) 0x538 = BitVec.ofNat 32 (code * 2 ^ 24) := by
  rw [reg_topoStatus hs, Nat.zero_mod, Nat.add_zero]

/-! ## TOPO_LOAD (R155) -/

/-- One record written into a bank: TYPE 0xFF takes the node out. -/
def loadNode (m : Kv Node) (v : Node) : Kv Node := if v.type = 0xFF then Kv.del v.id m else Kv.put v.id v m

theorem wf_loadNode (m : Kv Node) (v : Node) (hm : Kv.wf m = true) : Kv.wf (loadNode m v) = true := by
  unfold loadNode
  split
  · exact Kv.wf_del _ hm
  · exact Kv.wf_put _ _ hm

theorem get?_loadNode_same (v : Node) (m : Kv Node) (hm : Kv.wf m = true) :
    Kv.get? v.id (loadNode m v) = if v.type = 0xFF then none else some v := by
  unfold loadNode
  split
  · exact Kv.get?_del_same _ hm
  · exact Kv.get?_put_same ..

theorem get?_loadNode_ne (m : Kv Node) (v : Node) (n : Nat) (hm : Kv.wf m = true) (hne : n ≠ v.id) :
    Kv.get? n (loadNode m v) = Kv.get? n m := by
  unfold loadNode
  split
  · exact Kv.get?_del_ne hne hm
  · exact Kv.get?_put_ne _ hne

/-- The bank that a load starts from: the first one after an activation takes a copy of the active bank. -/
def loadBase (b : BalState) : Kv Node := if b.copied then b.shadow else b.active

theorem loadNodes_bal (l : List Node) (s : State) :
    (loadNodes l s).bal = { s.bal with copied := true, shadow := l.foldl loadNode (loadBase s.bal) } := rfl

section
variable {l : List Node} {s : State} (hne : l ≠ []) (hlen : l.length ≤ 255) (hids : ∀ v ∈ l, v.id ≤ 65535)
include hne hlen hids

theorem loadForm_ok : (l.isEmpty || decide (255 < l.length) || l.any fun v => decide (65535 < v.id)) = false := by
  simpa [hne, hlen] using hids

theorem topoLoad_field (hh : isHead s = false) : topoLoad l s = (topoStatus 0x06 0 s, .bad) := by
  unfold topoLoad
  rw [loadForm_ok hne hlen hids, if_neg Bool.false_ne_true, if_pos (by simp [hh])]

/-- The first node that its check refuses names the code and itself. -/
theorem topoLoad_refused (hh : isHead s = true) (hbad : ∃ v ∈ l, nodeCheck s v ≠ 0) :
    ∃ v ∈ l, nodeCheck s v ≠ 0 ∧ topoLoad l s = (topoStatus (nodeCheck s v) v.id s, .bad) := by
  obtain ⟨v, hfind⟩ := Option.isSome_iff_exists.mp (List.find?_isSome (p := fun v => nodeCheck s v ≠ 0).mpr (by simpa using hbad))
  refine ⟨v, List.mem_of_find?_eq_some hfind, by simpa using List.find?_some hfind, ?_⟩
  unfold topoLoad
  rw [loadForm_ok hne hlen hids, if_neg Bool.false_ne_true, if_neg (by simp [hh]), hfind]

/-- With every node passed, only an activation that waits stands in the way. -/
theorem topoLoad_passed (hh : isHead s = true) (hok : ∀ v ∈ l, nodeCheck s v = 0) : topoLoad l s =
    if s.bal.waiting.isSome then (topoStatus 0x14 0 s, .busy) else (journal (.topoLoad l) (loadNodes l (topoStatus 0 0 s)), .done) := by
  have hfind : l.find? (fun v => nodeCheck s v ≠ 0) = none := List.find?_eq_none.mpr (by simpa using hok)
  unfold topoLoad
  rw [loadForm_ok hne hlen hids, if_neg Bool.false_ne_true, if_neg (by simp [hh]), hfind]

end

/-! ## TOPO_ACTIVATE (R155) -/

section
variable {h : Hdr} {s : State}

theorem topoActivate_field (hh : isHead s = false) : topoActivate h s = (topoStatus 0x06 0 s, .bad) := if_pos (by simp [hh])

theorem topoActivate_refused {code node : Nat} (hh : isHead s = true) (htree : treeCheck s.bal.shadow = some (code, node)) :
    topoActivate h s = (topoStatus code node s, .bad) := by
  unfold topoActivate
  rw [if_neg (by simp [hh]), htree]

theorem topoActivate_passed (hh : isHead s = true) (htree : treeCheck s.bal.shadow = none) : topoActivate h s =
    if s.bal.waiting.isSome then (topoStatus 0x14 0 s, .busy)
    else (journal (.topoWait h) (setBal (fun b => { b with waiting := some h }) (topoStatus 0 0 s)), .later) := by
  unfold topoActivate
  rw [if_neg (by simp [hh]), htree]

end

/-! ## The checks of a tree (R153, R155) -/

/-- A tree that passes has no node whose parent is absent and none that is a root in one respect only. -/
theorem find?_eq_none_of_treeCheck {tree : Kv Node} (h : treeCheck tree = none) :
    tree.find? (fun p => p.2.parent ≠ 0xFFFF && !present tree p.2.parent) = none ∧
      tree.find? (fun p => (p.2.parent = 0xFFFF && (p.2.type ≠ 0 || p.2.refType ≠ 1)) || (p.2.parent ≠ 0xFFFF && p.2.type = 0)) = none := by
  unfold treeCheck at h
  split at h
  · cases h
  next horphan =>
    split at h
    · cases h
    · split at h
      · cases h
      next hroot => exact ⟨horphan, hroot⟩

/-! ## An interval closes (R155, R158) -/

/-- The state once the boundaries passed are closed: each puts the run of the interval LAG before it in line (R158). -/
def intervalsClosed (s : State) : State :=
  let len := balLen s
  let closes := closesNow s
  let dueOf (c : Int × Bool) : Int × Nat × Bool := (c.1 + utcOffsetAt c.1 s - (len * (1 + fieldOf s 0x500 23 16) : Nat), s.tim.raw, c.2)
  setBal (fun b => { b with lastClose := (closes.getLast?.map (·.1)).or b.lastClose, timOut := false, due := b.due ++ closes.map dueOf }) s

theorem intervalClose_closes {s : State} (hh : isHead s = true) (hen : fieldOf s 0x500 31 31 ≠ 0) (hlen : balLen s ≠ 0) :
    intervalClose s = startRun true (intervalsClosed s) := by
  unfold intervalClose
  dsimp only
  rw [if_neg (by simp [hh, hen, hlen])]
  rfl

/-- Settles O22: each command by the law of its checks, the banks by what each record written does to one node, the switch by the start of a run. -/
theorem treeBanks : Obligations.TreeBanks := by
  unfold Obligations.TreeBanks
  refine ⟨?load, ?loadRefused, ?loadBusy, ?loadField, ?activate, ?activateRefused, ?activateBusy, ?activateField, ?switch, ?roots, ?read⟩
  case load =>
    intro h nodes s u hu hh hne hlen hnodes hidle hdup hact hshd
    have hload := topoLoad_passed hne hlen (fun v hv => (hnodes v hv).1) hh fun v hv => (hnodes v hv).2
    rw [if_neg (by simp [hidle])] at hload
    have hbase : Kv.wf (loadBase u.bal) = true := by
      unfold loadBase
      split <;> assumption
    refine ⟨_, exec_of_entered rfl hu hload, ?_⟩
    rw [answered_bal, journal_bal, loadNodes_bal, topoStatus_bal]
    exact ⟨rfl, fun v hv => holds_foldl_of_nodup (read := fun m n => Kv.get? n m) (p := (· = if v.type = 0xFF then none else some v)) wf_loadNode
        get?_loadNode_ne (get?_loadNode_same v) hbase hdup hv,
      rfl, fun n hn => read_foldl_of_notMem (read := fun m n => Kv.get? n m) wf_loadNode get?_loadNode_ne hbase hn⟩
  case loadRefused =>
    intro h nodes s u hu hh hne hlen hs hids hbad
    obtain ⟨v, hv, hcheck, hload⟩ := topoLoad_refused hne hlen hids hh hbad
    exact ⟨v, _, exec_of_entered rfl hu hload, hv, hcheck, topoStatus_bal .., reg_topoStatus hs ..⟩
  case loadBusy =>
    intro h nodes s u hu hh hne hlen hs hnodes hwait
    have hload := topoLoad_passed hne hlen (fun v hv => (hnodes v hv).1) hh fun v hv => (hnodes v hv).2
    rw [if_pos hwait] at hload
    exact ⟨_, exec_of_entered rfl hu hload, topoStatus_bal .., reg_topoStatus_noNode hs 0x14⟩
  case loadField =>
    intro h nodes s u hu hh hne hlen hs hids
    exact ⟨_, exec_of_entered rfl hu (topoLoad_field hne hlen hids hh), topoStatus_bal .., reg_topoStatus_noNode hs 0x06⟩
  case activate =>
    intro h s u hu hh htree hidle
    have hact := topoActivate_passed (h := h) hh htree
    rw [if_neg (by simp [hidle])] at hact
    refine ⟨_, exec_of_entered rfl hu hact, ?_⟩
    rw [answered_bal, journal_bal, setBal_bal, topoStatus_bal]
  case activateRefused =>
    intro h code node s u hu hh htree hs
    exact ⟨_, exec_of_entered rfl hu (topoActivate_refused hh htree), topoStatus_bal .., reg_topoStatus hs ..⟩
  case activateBusy =>
    intro h s u hu hh htree hwait hs
    have hact := topoActivate_passed (h := h) hh htree
    rw [if_pos hwait] at hact
    exact ⟨_, exec_of_entered rfl hu hact, topoStatus_bal .., reg_topoStatus_noNode hs 0x14⟩
  case activateField =>
    intro h s u hu hh hs
    exact ⟨_, exec_of_entered rfl hu (topoActivate_field hh), topoStatus_bal .., reg_topoStatus_noNode hs 0x06⟩
  case switch =>
    intro h s hh hserv hen hlen hrun hwait hdue
    obtain ⟨⟨start, closed, timOk⟩, rest, hdue⟩ : ∃ d rest, (intervalsClosed s).bal.due = d :: rest := by
      refine List.ne_nil_iff_exists_cons.mp fun hnone => ?_
      obtain ⟨hwaits, hcloses⟩ := List.append_eq_nil_iff.mp hnone
      exact hdue.elim (fun hne => hne hwaits) fun hne => hne (List.map_eq_nil_iff.mp hcloses)
    refine ⟨_, congrArg Host.Outcome.next ((intervalClose_closes hh (by omega) hlen).trans (startRun_starts hh hserv hrun hdue)), ?_⟩
    have hbal := treeSwitched_bal (s := intervalsClosed s) hwait
    simp only [setBal, withRun, startNoted_bal, hbal]
    exact ⟨rfl, rfl, rfl, rfl, rfl⟩
  case roots =>
    intro tree htree p hp
    obtain ⟨horphan, hroot⟩ := find?_eq_none_of_treeCheck htree
    have hparent : p.2.parent ≠ 0xFFFF → present tree p.2.parent = true := by simpa using List.find?_eq_none.mp horphan p hp
    have htype : (p.2.parent = 0xFFFF → p.2.type = 0 ∧ p.2.refType = 1) ∧ (p.2.parent ≠ 0xFFFF → p.2.type ≠ 0) := by
      simpa using List.find?_eq_none.mp hroot p hp
    exact ⟨hparent, htype.1, fun hnil => Decidable.byContradiction fun hp => htype.2 hp hnil⟩
  case read =>
    intro h bank first count s u hu hbank hfirst
    have hread : topoRead bank first count u = _ := if_neg (by simp only [Bool.or_eq_true, decide_eq_true_eq]; omega)
    exact exec_of_entered rfl hu hread

end Sys2Proof.Machine
end

section
/-!
SUPPORT. O23: BAL_NODE_READ, BAL_METER_READ and BAL_RESET_SCORES (R181, R186).
-/
namespace Sys2Proof.Machine

/-! ## The two reads (R186; layouts: log entry 25) -/

@[simp] theorem length_be (n v : Nat) : (be n v).length = n := by
  induction n with
  | zero => rfl
  | succ n ih => rw [be, List.length_cons, ih]

@[simp] theorem length_beI (n : Nat) (v : Int) : (beI n v).length = n := length_be ..

/-- The second item of BAL_NODE_READ: the sums and the runs counted, then the branch score. -/
theorem balNodeRead_answers (n : Nat) (s : State) : ∃ sums, sums.length = 98 ∧ balNodeRead n s =
    (s, ⟨.ok, [], [padTo 64 (s.bal.nodes.getD n nodeWorkEmpty).result, sums ++ be 2 (s.bal.nodes.getD n nodeWorkEmpty).score]⟩) := by
  unfold balNodeRead
  dsimp only
  exact ⟨_, by simp only [List.length_append, length_be, length_beI], rfl⟩

/-- RESULT of BAL_METER_READ: score and coverage, then the methods. -/
theorem balMeterRead_answers {n : Nat} {s : State} (hn : n < tblSize s) : ∃ votes, balMeterRead n s =
    (s, ⟨.ok, padTo 40 (be 2 (workOf s n).score ++ be 1 (workOf s n).cover ++ votes), []⟩) := by
  unfold balMeterRead
  rw [if_neg (Nat.not_le.mpr hn)]
  dsimp only
  simp only [List.append_assoc]
  exact ⟨_, rfl⟩

theorem balMeterRead_refused {n : Nat} {s : State} (hn : tblSize s ≤ n) : balMeterRead n s = (s, .bad) := if_pos hn

/-! ## The reset of scores (R181) -/

section
variable {α : Type} (d : α) (f : α → α)

theorem Kv.getD_upd_same (k : Nat) (m : Kv α) : (Kv.upd k d f m).getD k d = f (m.getD k d) := by
  unfold Kv.upd
  conv => lhs; rw [Kv.getD, Kv.get?_put_same]
  rw [Option.getD_some]

theorem Kv.getD_upd_ne {j k : Nat} (m : Kv α) (hne : j ≠ k) : (Kv.upd k d f m).getD j d = m.getD j d := by
  unfold Kv.upd
  conv => lhs; rw [Kv.getD, Kv.get?_put_ne _ hne]
  rw [Kv.getD]

/-- The values of the keys listed changed one after another. -/
def updEach (ids : List Nat) (m : Kv α) : Kv α := ids.foldl (fun m n => Kv.upd n d f m) m

theorem getD_updEach_of_notMem {ids : List Nat} {n : Nat} (m : Kv α) (hn : n ∉ ids) : (updEach d f ids m).getD n d = m.getD n d :=
  read_foldl_of_notMem (ok := fun _ => True) (read := fun m n => Kv.getD m n d) (key := id) (fun _ _ h => h)
    (fun m _ _ _ hne => Kv.getD_upd_ne d f m hne) trivial (by simpa using hn)

theorem holds_getD_updEach {p : α → Prop} (hp : ∀ v, p (f v)) {ids : List Nat} {n : Nat} (m : Kv α) (hn : n ∈ ids) :
    p ((updEach d f ids m).getD n d) := by
  refine holds_foldl_of_mem (ok := fun _ => True) (read := fun m n => Kv.getD m n d) (key := id) (fun _ _ h => h)
    (fun m _ _ _ hne => Kv.getD_upd_ne d f m hne) (fun m k _ hk => ?_) trivial (by simpa using hn)
  obtain rfl : k = n := hk
  exact (congrArg p (Kv.getD_upd_same d f k m)).mpr (hp _)

end

/-- SUSPICION of a record in use at zero: a record write (R49, R181). -/
def resetSuspicion (s : State) (n : Nat) : State :=
  if recState (imgOf s n) = 0 then s else writeRec n (fun r => setFld r 148 2 0) s

@[simp] theorem resetSuspicion_bal (s : State) (n : Nat) : (resetSuspicion s n).bal = s.bal := by
  unfold resetSuspicion
  split
  · rfl
  · exact writeRec_bal ..

theorem slotOf_resetSuspicion_ne (s : State) (n k : Nat) (hne : k ≠ n) : slotOf (resetSuspicion s n) k = slotOf s k := by
  unfold resetSuspicion
  split
  · rfl
  · exact slotOf_writeSlotIdx_ne hne ..

/-- STATE stays, of the record written too. -/
theorem recState_resetSuspicion (s : State) (n k : Nat) : recState (imgOf (resetSuspicion s n) k) = recState (imgOf s k) := by
  by_cases hk : k = n
  · subst hk
    unfold resetSuspicion
    split
    · rfl
    · exact (fld_writeSlotIdx k _ none s (by omega) (by omega)).trans (fld_setFld_apart _ _ (by omega) (by omega) (by omega))
  · unfold imgOf
    rw [slotOf_resetSuspicion_ne s n k hk]

/-- After its reset a record is free or shows no suspicion. -/
theorem suspicion_resetSuspicion (s : State) (n : Nat) :
    recState (imgOf (resetSuspicion s n) n) = 0 ∨ fld (imgOf (resetSuspicion s n) n) 148 2 = 0 := by
  unfold resetSuspicion
  split
  next hfree => exact .inl hfree
  next => exact .inr ((fld_writeSlotIdx n _ none s (by omega) (by omega)).trans (fld_setFld_same_zero _ (by omega)))

section
variable (ids : List Nat) (s : State)

@[simp] theorem foldl_resetSuspicion_bal : (ids.foldl resetSuspicion s).bal = s.bal :=
  List.foldlRecOn (motive := fun t => t.bal = s.bal) ids resetSuspicion rfl fun t ht n _ => (resetSuspicion_bal t n).trans ht

theorem slotOf_foldl_resetSuspicion {n : Nat} (hn : n ∉ ids) : slotOf (ids.foldl resetSuspicion s) n = slotOf s n :=
  read_foldl_of_notMem (ok := fun _ => True) (key := id) (fun _ _ h => h) (fun t m k _ hne => slotOf_resetSuspicion_ne t m k hne) trivial
    (by simpa using hn)

theorem recState_foldl_resetSuspicion (n : Nat) : recState (imgOf (ids.foldl resetSuspicion s) n) = recState (imgOf s n) :=
  List.foldlRecOn (motive := fun t => recState (imgOf t n) = recState (imgOf s n)) ids resetSuspicion rfl
    fun t ht m _ => (recState_resetSuspicion t m n).trans ht

/-- A record in use that is named shows no suspicion. -/
theorem suspicion_foldl_resetSuspicion {n : Nat} (hn : n ∈ ids) (huse : recState (imgOf s n) ≠ 0) :
    fld (imgOf (ids.foldl resetSuspicion s) n) 148 2 = 0 := by
  have hdone : recState (imgOf (ids.foldl resetSuspicion s) n) = 0 ∨ fld (imgOf (ids.foldl resetSuspicion s) n) 148 2 = 0 := by
    refine holds_foldl_of_mem (ok := fun _ => True) (key := id) (read := slotOf) (p := fun v => recState v.img = 0 ∨ fld v.img 148 2 = 0)
      (fun _ _ h => h) (fun t m k _ hne => slotOf_resetSuspicion_ne t m k hne) (fun t k _ hk => ?_) trivial (by simpa using hn)
    obtain rfl : k = n := hk
    exact suspicion_resetSuspicion t k
  exact hdone.resolve_left (by rwa [recState_foldl_resetSuspicion])

end

/-! ## BAL_RESET_SCORES (R181) -/

theorem balResetScores_done {kind : Nat} {ids : List Nat} {s : State} (hkind : kind ≤ 1) (hh : isHead s = true)
    (hids : ∀ n ∈ ids, n < if kind = 0 then tblSize s else 65536) :
    balResetScores kind ids s = (journal (.scores kind ids) (resetScores kind ids s), .done) := by
  refine if_neg ?_
  simp only [Bool.or_eq_true, decide_eq_true_eq, Bool.not_eq_true', List.any_eq_true, not_or, not_exists, not_and, Bool.not_eq_false]
  refine ⟨⟨Nat.not_lt.mpr hkind, hh⟩, fun n hn => ?_⟩
  have hlt := hids n hn
  split at hlt
  next h0 => simpa [h0] using hlt
  next h0 => simpa [h0] using hlt

/-- The balance with the scores of meters at zero. -/
def resetMeters (ids : List Nat) (b : BalState) : BalState :=
  { b with meters := updEach workEmpty (fun w => { w with score := 0 }) ids b.meters }

/-- The balance with the scores of nodes at zero. -/
def resetNodes (ids : List Nat) (b : BalState) : BalState :=
  { b with nodes := updEach nodeWorkEmpty (fun w => { w with score := 0 }) ids b.nodes }

/-- Of meters: the work areas, then the records. -/
theorem resetScores_meters (ids : List Nat) (s : State) : resetScores 0 ids s = ids.foldl resetSuspicion (setBal (resetMeters ids) s) := rfl

theorem resetScores_nodes (ids : List Nat) (s : State) : resetScores 1 ids s = setBal (resetNodes ids) s := rfl

/-- The command for meters leaves the balance and the records as the reset leaves them. -/
theorem exec_resetMeters {h : Hdr} {ids : List Nat} {s u : State} (hu : State.entered h (.balResetScores 0 ids) s = some u)
    (hh : isHead u = true) (hids : ∀ n ∈ ids, n < tblSize u) : ∃ t, exec (.balResetScores h 0 ids) s = .next t ∧
      t.bal = resetMeters ids u.bal ∧ ∀ n, slotOf t n = slotOf (ids.foldl resetSuspicion (setBal (resetMeters ids) u)) n := by
  refine ⟨_, exec_of_entered rfl hu (balResetScores_done (by omega) hh hids), ?_, fun n => ?_⟩
  · rw [answered_bal, journal_bal, resetScores_meters, foldl_resetSuspicion_bal, setBal_bal]
  · rw [slotOf_answered, (journal_changes ..).slotOf_eq n, resetScores_meters]

/-- Settles O23: the reads by what they answer, the reset by what it leaves of each work area and each record. -/
theorem balanceScores : Obligations.BalanceScores := by
  unfold Obligations.BalanceScores
  refine ⟨?nodeRead, ?meterRead, ?meterBeyond, ?meters, ?nodes⟩
  case nodeRead =>
    intro h node s u hu
    obtain ⟨sums, hlen, hread⟩ := balNodeRead_answers node u
    refine ⟨_, _, exec_of_entered rfl hu hread, rfl, ?_, List.drop_left' hlen⟩
    rw [List.length_append, hlen, length_be]
  case meterRead =>
    intro h slot s u hu hslot
    obtain ⟨votes, hread⟩ := balMeterRead_answers (s := u) hslot
    exact ⟨_, exec_of_entered rfl hu hread, (take_padTo (by omega) (by simp only [List.length_append, length_be]; omega)).trans rfl⟩
  case meterBeyond => exact fun h slot s u hu hslot => exec_of_entered rfl hu (balMeterRead_refused hslot)
  case meters =>
    intro h ids s u hu hh hids
    obtain ⟨t, ht, hbal, hslot⟩ := exec_resetMeters hu hh hids
    refine ⟨t, ht, ?_⟩
    simp only [workOf, imgOf, hslot, hbal]
    exact ⟨fun n hn => holds_getD_updEach workEmpty _ (p := fun w => w.score = 0) (fun _ => rfl) _ hn,
      fun n hn => ⟨getD_updEach_of_notMem workEmpty _ _ hn, slotOf_foldl_resetSuspicion ids _ hn⟩,
      fun n hn huse => suspicion_foldl_resetSuspicion ids _ hn huse⟩
  case nodes =>
    intro h ids s u hu hh hids
    refine ⟨_, exec_of_entered rfl hu (balResetScores_done (by omega) hh hids), ?_⟩
    rw [answered_table, answered_bal, journal_table, journal_bal, resetScores_nodes, setBal_bal, setBal_table]
    exact ⟨rfl, fun n hn => holds_getD_updEach nodeWorkEmpty _ (p := fun w => w.score = 0) (fun _ => rfl) _ hn,
      fun n hn => getD_updEach_of_notMem nodeWorkEmpty _ _ hn⟩

end Sys2Proof.Machine
end

section
/-!
SUPPORT. O47: BALANCE_INTERVAL_CLOSE, BALANCE_RUN and BALANCE_REPORT_POST (R158 to R161, R178, R182, R187).
-/
namespace Sys2Proof.Machine

/-! ## Intervals close (R158, R161; log entry 130) -/

section
variable {s : State}

theorem intervalClose_of_off (hoff : isHead s = false ∨ fieldOf s 0x500 31 31 = 0 ∨ balLen s = 0) : intervalClose s = s := by
  refine if_pos ?_
  rcases hoff with hrole | hen | hlen
  · simp [hrole]
  · simp [hen]
  · simp [hlen]

/-- While a run is under way an interval that closes only joins the line. -/
theorem intervalClose_of_running {r : BalRun} (hh : isHead s = true) (hen : fieldOf s 0x500 31 31 ≠ 0) (hlen : balLen s ≠ 0)
    (hrun : s.bal.run = some r) : intervalClose s = intervalsClosed s :=
  (intervalClose_closes hh hen hlen).trans (startRun_of_running (s := intervalsClosed s) hrun)

theorem intervalsClosed_one {c : Int} {timOk : Bool} (hcloses : closesNow s = [(c, timOk)]) : intervalsClosed s =
    { s with bal := { s.bal with lastClose := some c, timOut := false,
                                 due := s.bal.due ++ [(c + utcOffsetAt c s - (balLen s * (1 + fieldOf s 0x500 23 16) : Nat), s.tim.raw, timOk)] } } := by
  unfold intervalsClosed
  rw [hcloses]
  rfl

theorem intervalsClosed_none (hcloses : closesNow s = []) : intervalsClosed s = { s with bal := { s.bal with timOut := false } } := by
  unfold intervalsClosed
  rw [hcloses]
  simp only [List.getLast?_nil, Option.map_none, Option.none_or, List.map_nil, List.append_nil]
  rfl

theorem closesNow_of_clockless {c : Int} (hclock : islInRun s 16 = false) (hlast : s.bal.lastClose = some c) :
    closesNow s = [(c + balLen s, false)] := by
  unfold closesNow
  dsimp only
  rw [hclock, hlast]
  rfl

/-- Whole intervals from the last close to now. -/
def intervalsSince (c : Int) (s : State) : Int := (localSec s - utcOffset s - c) / balLen s

theorem intervalsSince_of_next {c : Int} (hlo : c + balLen s ≤ localSec s - utcOffset s) (hhi : localSec s - utcOffset s < c + 2 * balLen s) :
    intervalsSince c s = 1 := by
  have hpos : (0 : Int) < balLen s := by omega
  have hge : 1 ≤ intervalsSince c s := Int.le_ediv_of_mul_le hpos (by omega)
  have hlt : intervalsSince c s < 2 := Int.ediv_lt_of_lt_mul hpos (by omega)
  omega

section
variable {c : Int} (hlen : balLen s ≠ 0)
include hlen

theorem intervalsSince_of_early (hearly : localSec s - utcOffset s < c + balLen s) : intervalsSince c s ≤ 0 := by
  have hpos : (0 : Int) < balLen s := by omega
  have hlt : intervalsSince c s < 1 := Int.ediv_lt_of_lt_mul hpos (by omega)
  omega

variable (hclock : islInRun s 16 = true) (hlast : s.bal.lastClose = some c) (hc : c % balLen s = 0)
include hclock hlast hc

/-- With a clock, the boundaries after the last close are counted in whole intervals. -/
theorem closesNow_of_clock : closesNow s = (closesFrom (balLen s) (c + intervalsSince c s * balLen s) (intervalsSince c s).toNat
    (c + balLen s)).map fun x => (x, x == c + intervalsSince c s * balLen s || !s.bal.timOut) := by
  have hne : (balLen s : Int) ≠ 0 := by omega
  obtain ⟨k, hk⟩ := Int.dvd_of_emod_eq_zero hc
  have hbound : (localSec s - utcOffset s) / balLen s * balLen s = c + intervalsSince c s * balLen s := by
    have hquot : (localSec s - utcOffset s) / balLen s = intervalsSince c s + k := by
      unfold intervalsSince
      rw [← Int.add_mul_ediv_left _ k hne, ← hk, Int.sub_add_cancel]
    rw [hquot, Int.add_mul, Int.mul_comm k, ← hk, Int.add_comm]
  have hcount : (c + intervalsSince c s * balLen s - c) / balLen s = intervalsSince c s := by
    rw [Int.add_comm c, Int.add_sub_cancel, Int.mul_ediv_cancel _ hne]
  unfold closesNow
  dsimp only
  rw [if_pos hclock, hlast, hbound]
  dsimp only
  rw [hcount]

/-- One interval on, and less than two, only the next boundary has passed. -/
theorem closesNow_of_next (hlo : c + balLen s ≤ localSec s - utcOffset s) (hhi : localSec s - utcOffset s < c + 2 * balLen s) :
    closesNow s = [(c + balLen s, true)] := by
  have hone : (1 : Int).toNat = 0 + 1 := rfl
  rw [closesNow_of_clock hlen hclock hlast hc, intervalsSince_of_next hlo hhi, Int.one_mul, hone, closesFrom,
    if_neg (Int.lt_irrefl _), closesFrom, List.map_singleton, beq_self_eq_true, Bool.true_or]

/-- Before that none has. -/
theorem closesNow_of_early (hearly : localSec s - utcOffset s < c + balLen s) : closesNow s = [] := by
  rw [closesNow_of_clock hlen hclock hlast hc, Int.toNat_of_nonpos (intervalsSince_of_early hlen hearly), closesFrom, List.map_nil]

end

end

/-! ## A run starts (R161, R187) -/

theorem balanceRun_starts {s : State} (hrun : s.bal.run = none) : balanceRun s = startRun false s := by
  unfold balanceRun
  rw [hrun]

/-- The settings of the balance are LK or AU fields (R187). -/
theorem isSetup_balCfg : ∀ i < 11, isSetup (0x500 + 4 * i) = true := by decide

theorem balCfg_startNoted {s : State} (hs : s.RegsOk) (onTime timOk : Bool) : balCfg (startNoted onTime timOk s) = balCfg s :=
  List.map_congr_left fun i hi =>
    (startNoted_changes onTime timOk s).same .setup (by decide) hs _ (isSetup_balCfg i (List.mem_range.mp hi))

/-! ## A run is computed (R159, R160; log entry 131) -/

/-- What a run finds, and what it reports: a skipped one its summary alone (R161). -/
def runComputed (run : BalRun) (s : State) : BalRun × List CqBody :=
  if run.skipped then ({ run with computed := true }, [.balSummary (skippedSummary s run)]) else computeRun s run

theorem runComputed_fst (run : BalRun) (s : State) : (runComputed run s).1.computed = true ∧ (runComputed run s).1.start = run.start ∧
    (runComputed run s).1.len = run.len ∧ (runComputed run s).1.cfg = run.cfg := by
  unfold runComputed
  split
  · exact ⟨rfl, rfl, rfl, rfl⟩
  · exact ⟨rfl, rfl, rfl, rfl⟩

theorem runComputed_of_skipped {run : BalRun} (hskip : run.skipped = true) (s : State) :
    runComputed run s = ({ run with computed := true }, [.balSummary (skippedSummary s run)]) := if_pos hskip

/-- Each report takes its own posting, in order. -/
theorem reserveReports_bodies (l : List CqBody) (s : State) : (reserveReports l s).1.map (·.2) = l.map fun b => ⟨0, b⟩ := by
  induction l generalizing s with
  | nil => rfl
  | cons b l ih => exact congrArg (⟨0, b⟩ :: ·) (ih _)

/-- The run with the postings its reports have taken. -/
def runReported (run : BalRun) (s : State) : BalRun := { (runComputed run s).1 with reports := (reserveReports (runComputed run s).2 s).1 }

/-- The state in which the run and its reports are journalled. -/
def runJournalled (run : BalRun) (s : State) : State :=
  journal (.balRun (runReported run s)) (reserveReports (runComputed run s).2 s).2

theorem runJournalled_changes (run : BalRun) (s : State) : Changes [.jr] s (runJournalled run s) :=
  .step (journal_changes ..) (reserveReports_changes ..) rfl

/-- The run that stays, with the batch that holds it. -/
def runKept (run : BalRun) (s : State) : BalRun := { runReported run s with batch := journalMark (runJournalled run s) }

section
variable {s : State} {run : BalRun} (hrun : s.bal.run = some run)
include hrun

theorem balanceRun_computes (hh : isHead s = true) (hserv : serving s = true) (heng : ∃ n ∈ [17, 18, 19, 20], islRun s n = true)
    (hnew : run.computed = false) : balanceRun s = setBal (fun b => { b with run := some (runKept run s) }) (runJournalled run s) := by
  have hcluster : (List.range 4).any (fun c => islRun s (17 + c)) = true := by
    simpa [List.range_succ] using heng
  unfold balanceRun
  rw [hrun]
  dsimp only
  rw [if_neg (by simp [hnew, hh, hserv, hcluster])]
  rfl

theorem balanceRun_waits (hwhy : run.computed = true ∨ isHead s = false ∨ serving s = false) : balanceRun s = s := by
  unfold balanceRun
  rw [hrun]
  refine if_pos ?_
  rcases hwhy with hdone | hrole | hserv
  · simp [hdone]
  · simp [hrole]
  · simp [hserv]

end

/-! ## A run is reported (R160, R178, R182) -/

/-- A meter's work area with what a run found for it. -/
def applyMeter (run : BalRun) (m : Kv MeterWork) (d : MeterDelta) : Kv MeterWork :=
  Kv.put d.slot { m.getD d.slot workEmpty with
    score := d.score, byp := d.byp, bypRuns := d.bypRuns, cover := d.cover, judged := d.judged.getD (m.getD d.slot workEmpty).judged,
    txMismatch := d.txMismatch, txFound := d.txFound,
    events := (m.getD d.slot workEmpty).events.filter fun e => (run.start + run.len) * 1000 ≤ e.cap } m

/-- The balance with a run's changes, and no run under way. -/
def appliedBal (run : BalRun) (b : BalState) : BalState :=
  { b with nodes := run.nodes.foldl (fun m p => Kv.put p.1 p.2 m) b.nodes, meters := run.meters.foldl (applyMeter run) b.meters,
           minutes := b.minutes.filter fun m => run.start + run.len ≤ m.start, runSeq := b.runSeq + 1, run := none }

/-- Scores and coverage are the run's; SUSPICION and phase go to the records (R178 to R180). -/
theorem applyRun_bal (run : BalRun) (s : State) : (applyRun run false s).bal = appliedBal run s.bal := by
  unfold applyRun
  dsimp only
  rw [if_neg Bool.false_ne_true]
  refine List.foldlRecOn (motive := fun t : State => t.bal = appliedBal run s.bal) _ _ rfl fun t ht d _ => ?_
  split
  · exact ht
  · exact ((ownWrite_changes ..).same .bal (by decide)).trans ht

/-- The state in which a run has been applied, its reports posted and its counters moved on. -/
def runPosted (run : BalRun) (s : State) : State :=
  let noted := countBy 0x554 run.saturated (countBy 0x550 run.excluded (dropOldReports s))
  let applied := journal .balApply (applyRun run false noted)
  let posted := countBy 0x558 run.noticeCount (run.reports.foldl (fun t p => makePost p.1 false p.2 t) applied)
  if run.skipped then posted else count 0x540 posted

theorem runPosted_bal (run : BalRun) (s : State) : (runPosted run s).bal = appliedBal run s.bal := by
  have hdrop : (dropOldReports s).bal = s.bal := (dropOldReports_changes s).same .bal (by decide)
  have hposts (t : State) : (run.reports.foldl (fun t p => makePost p.1 false p.2 t) t).bal = t.bal :=
    (Changes.foldl (W := [.regs, .jr, .host, .out]) (fun _ _ h => .step (makePost_changes ..) h rfl) .refl).same .bal (by decide)
  unfold runPosted
  dsimp only
  split
  · rw [countBy_bal, hposts, journal_bal, applyRun_bal, countBy_bal, countBy_bal, hdrop]
  · rw [count_bal, countBy_bal, hposts, journal_bal, applyRun_bal, countBy_bal, countBy_bal, hdrop]

section
variable {s : State} {run : BalRun} (hrun : s.bal.run = some run)
include hrun

theorem balanceReport_posts (hh : isHead s = true) (hserv : serving s = true) (hdone : run.computed = true)
    (hacked : journalAcked run.batch s = true) : balanceReport s = startRun false (runPosted run s) := by
  unfold balanceReport
  rw [hrun]
  dsimp only
  rw [if_neg (by simp [hdone, hacked, hh, hserv])]
  rfl

theorem balanceReport_waits (hwhy : run.computed = false ∨ journalAcked run.batch s = false ∨ isHead s = false ∨ serving s = false) :
    balanceReport s = s := by
  unfold balanceReport
  rw [hrun]
  refine if_pos ?_
  rcases hwhy with hnew | hwait | hrole | hserv
  · simp [hnew]
  · simp [hwait]
  · simp [hrole]
  · simp [hserv]

end

/-! ## The meters of a run (R178) -/

theorem get?_applyMeter_ne (run : BalRun) (m : Kv MeterWork) (d : MeterDelta) (n : Nat) (hne : n ≠ d.slot) :
    Kv.get? n (applyMeter run m d) = Kv.get? n m := Kv.get?_put_ne _ hne

theorem get?_applied_of_notMem (run : BalRun) (m : Kv MeterWork) {n : Nat} (hn : n ∉ run.meters.map (·.slot)) :
    Kv.get? n (run.meters.foldl (applyMeter run) m) = Kv.get? n m :=
  read_foldl_of_notMem (ok := fun _ => True) (read := fun m n => Kv.get? n m) (fun _ _ h => h) (fun m d n _ hne => get?_applyMeter_ne run m d n hne)
    trivial hn

/-- The work area of a meter that the run names holds its score, coverage and bypass sums. -/
def showsRun (d : MeterDelta) (w : MeterWork) : Prop := w.score = d.score ∧ w.cover = d.cover ∧ w.byp = d.byp

theorem get?_applied_of_mem (run : BalRun) (m : Kv MeterWork) (hdup : (run.meters.map (·.slot)).Nodup) {d : MeterDelta} (hd : d ∈ run.meters) :
    ∃ w, Kv.get? d.slot (run.meters.foldl (applyMeter run) m) = some w ∧ showsRun d w := by
  refine holds_foldl_of_nodup (ok := fun _ => True) (read := fun m n => Kv.get? n m) (key := (·.slot)) (p := fun v => ∃ w, v = some w ∧ showsRun d w)
    (fun _ _ h => h) (fun m d n _ hne => get?_applyMeter_ne run m d n hne) (fun m _ => ?_) trivial hdup hd
  exact ⟨_, Kv.get?_put_same .., rfl, rfl, rfl⟩

/-- Settles O47: the boundaries by their count since the last close, the run by the laws of its start, its computation and its report. -/
theorem balanceRuns : Obligations.BalanceRuns := by
  unfold Obligations.BalanceRuns
  refine ⟨?closed, ?early, ?clockless, ?off, ?starts, ?computes, ?waits, ?reports, ?unreported⟩
  case closed =>
    intro s c r hh hen hlen hrun hclock hlast hc hlo hhi
    exact congrArg Host.Outcome.next ((intervalClose_of_running hh hen hlen hrun).trans
      (intervalsClosed_one (closesNow_of_next hlen hclock hlast hc hlo hhi)))
  case early =>
    intro s c r hh hen hlen hrun hclock hlast hc hearly
    exact congrArg Host.Outcome.next ((intervalClose_of_running hh hen hlen hrun).trans
      (intervalsClosed_none (closesNow_of_early hlen hclock hlast hc hearly)))
  case clockless =>
    intro s c r hh hen hlen hrun hclock hlast
    exact congrArg Host.Outcome.next ((intervalClose_of_running hh hen hlen hrun).trans
      (intervalsClosed_one (closesNow_of_clockless hclock hlast)))
  case off => exact fun s hoff => congrArg Host.Outcome.next (intervalClose_of_off hoff)
  case starts =>
    intro s start closed ok rest hs hh hserv hrun hdue hidle
    have hstart := (balanceRun_starts hrun).trans (startRun_starts (onTime := false) hh hserv hrun hdue)
    rw [treeSwitched_of_none hidle] at hstart
    have hbal : (balanceRun s).bal = withRun (startedRun false ok start closed (balLen s) s) rest s.bal := by
      rw [hstart, setBal_bal, startNoted_bal]
    have hrefs : (startNoted false ok s).bal.minutes = s.bal.minutes := congrArg BalState.minutes (startNoted_bal ..)
    refine ⟨balanceRun s, startedRun false ok start closed (balLen s) s, rfl, congrArg BalState.run hbal, rfl, rfl, balCfg_startNoted hs .., rfl,
      rfl, congrArg (List.filter _) hrefs, ?_, ?_⟩
    · cases ok <;> simp [startedRun, runSkipped]
    · rw [hbal]
      exact ⟨rfl, rfl, rfl, rfl, rfl, (balanceRun_changes s).same⟩
  case computes =>
    intro s run hh hserv heng hrun hnew
    obtain ⟨hcomputed, hstart, hlen, hcfg⟩ := runComputed_fst run s
    have hchanges : Changes [.bal, .jr] s (setBal (fun b => { b with run := some (runKept run s) }) (runJournalled run s)) :=
      .step (setBal_changes ..) ((runJournalled_changes run s).mono rfl) rfl
    have hbal : (runJournalled run s).bal = s.bal := (runJournalled_changes run s).same .bal (by decide)
    refine ⟨_, runKept run s, congrArg Host.Outcome.next (balanceRun_computes hrun hh hserv heng hnew), ?_, hcomputed, hstart, hlen, hcfg,
      fun hskip => ?_, rfl, hchanges.same⟩
    · rw [setBal_bal, hbal]
    · unfold runKept runReported
      dsimp only
      rw [reserveReports_bodies, runComputed_of_skipped hskip]
      exact ⟨rfl, rfl, rfl⟩
  case waits => exact fun s run hrun hwhy => congrArg Host.Outcome.next (balanceRun_waits hrun hwhy)
  case reports =>
    intro s run hh hserv hrun hdone hacked hdue hdup
    have hposted := runPosted_bal run s
    have hreport : balanceReport s = runPosted run s := (balanceReport_posts hrun hh hserv hdone hacked).trans
      (startRun_of_nothingDue ((congrArg BalState.due hposted).trans hdue))
    have hchanges := (balanceReport_changes s).same
    rw [hreport] at hchanges
    refine ⟨_, congrArg Host.Outcome.next hreport, ?_⟩
    rw [hposted]
    exact ⟨rfl, rfl, fun d hd => get?_applied_of_mem run _ hdup hd, fun n hn => get?_applied_of_notMem run _ hn, hchanges⟩
  case unreported => exact fun s run hrun hwhy => congrArg Host.Outcome.next (balanceReport_waits hrun hwhy)

end Sys2Proof.Machine
end

section
/-!
SUPPORT. Campaign slots (R199, R223): what a slot holds after a campaign was put there, and what a command on a slot gives.
-/
namespace Sys2Proof.Machine

theorem campOf_congr {s t : State} (h : t.camp.camps = s.camp.camps) (n : Nat) : campOf t n = campOf s n := congrArg (Kv.get? n) h

theorem Changes.campOf_eq {W : List Part} {s t : State} (h : Changes W s t) (n : Nat) (hW : Part.camp ∉ W := by decide) : campOf t n = campOf s n :=
  campOf_congr (congrArg CampState.camps (h.same .camp hW)) n

@[simp] theorem campOf_answered (h : Hdr) (c : Cmd) (r : Reply) (u v : State) (n : Nat) : campOf (State.answered h c r u v) n = campOf v n :=
  (answered_changes h c r u v).campOf_eq n

theorem camp_putCamp (n : Nat) (c : Camp) (s : State) : (putCamp n (some c) s).camp = { s.camp with camps := Kv.put n c s.camp.camps } :=
  journal_camp ..

@[simp] theorem campOf_putCamp_same (n : Nat) (c : Camp) (s : State) : campOf (putCamp n (some c) s) n = some c := by
  unfold campOf
  rw [camp_putCamp]
  exact Kv.get?_put_same ..

theorem campOf_putCamp_ne {n m : Nat} (hne : m ≠ n) (c : Camp) (s : State) : campOf (putCamp n (some c) s) m = campOf s m := by
  unfold campOf
  rw [camp_putCamp]
  exact Kv.get?_put_ne _ hne

section
variable {n : Nat} {s : State} {f : Camp → State × Reply}

theorem withCamp_held {c : Camp} (hh : isHead s = true) (hc : campOf s n = some c) : withCamp n s f = f c := by
  unfold withCamp
  rw [if_neg (by simp [hh]), hc]

/-- A command that its campaign refuses is refused, in whatever unit. -/
theorem withCamp_refused {c : Camp} (hc : campOf s n = some c) (hf : f c = (s, .bad)) : withCamp n s f = (s, .bad) := by
  unfold withCamp
  simp only [hc, hf, ite_self]

end

/-- A command that puts a campaign in its slot, and beyond that only sends to units: the slot holds it, the table and the other slots stay. -/
theorem exec_putsCamp {i : Instr} {h : Hdr} {cmd : Cmd} {body : State → State × Reply} {s u v : State} {r : Reply} {n : Nat} {c : Camp}
    (hi : exec i s = .next (command h cmd body s)) (hu : State.entered h cmd s = some u) (hb : body u = (v, r))
    (hv : Changes [.regs, .win, .relay, .jr, .evt] (putCamp n (some c) u) v) :
    ∃ t, exec i s = .next t ∧ campOf t n = some c ∧ t.table = u.table ∧ ∀ m, m ≠ n → campOf t m = campOf u m := by
  refine ⟨_, exec_of_entered hi hu hb, ?_, ?_, fun m hne => ?_⟩
  · rw [campOf_answered, hv.campOf_eq, campOf_putCamp_same]
  · exact (answered_table ..).trans ((hv.same .table (by decide)).trans ((putCamp_changes ..).same .table (by decide)))
  · rw [campOf_answered, hv.campOf_eq, campOf_putCamp_ne hne]

end Sys2Proof.Machine
end

section
/-!
SUPPORT. O24: CAMP_CREATE, CAMP_DATA, CAMP_SEAL and the two reads (R199, R202, R208, R215, R223).
-/
namespace Sys2Proof.Machine

/-! ## CAMP_CREATE -/

/-- A campaign as CAMP_CREATE makes it: a DRAFT without image, record or members. -/
def newCamp (m : Manifest) : Camp := ⟨.draft, m, [], none, [], [], [], [], false⟩

section
variable {m : Manifest} {s : State}

theorem campCreate_creates {n : Nat} (hh : isHead s = true) (hver : m.version = 1) (hid : m.campId ≠ 0) (hres : m.reservedOk = true)
    (hlo : 0 < m.imageLen) (hhi : m.imageLen ≤ 16777216) (hseg : m.tableSegs = tableSegsOf m.imageLen)
    (hsig : campSigOk s m.signer m.sigAlg m.signedBy = true) (hnew : campSlot s m.campId = none) (hfree : freeCampSlot s = some n) :
    campCreate m s = (putCamp n (some (newCamp m)) s, ⟨.ok, padTo 40 (be 1 n), []⟩) := by
  unfold campCreate
  rw [if_neg (by simp [hh]), if_neg, hfree]
  · rfl
  · simp only [Bool.or_eq_true, bne_iff_ne, decide_eq_true_eq, Bool.not_eq_true', not_or, or_assoc]
    exact ⟨(· hver), hid, by simp [hres], Nat.ne_of_gt hlo, Nat.not_lt.mpr hhi, (· hseg), by simp [hsig], by simp [hnew]⟩

theorem campCreate_refused (hwhy : isHead s = false ∨ m.version ≠ 1 ∨ m.campId = 0 ∨ m.reservedOk = false ∨ m.imageLen = 0 ∨
    16777216 < m.imageLen ∨ m.tableSegs ≠ tableSegsOf m.imageLen ∨ campSigOk s m.signer m.sigAlg m.signedBy = false ∨
      (campSlot s m.campId).isSome = true) : campCreate m s = (s, .bad) := by
  unfold campCreate
  by_cases hh : isHead s = true
  · rw [if_neg (by simp [hh]), if_pos]
    simp only [hh, Bool.true_eq_false, false_or] at hwhy
    simp only [Bool.or_eq_true, bne_iff_ne, decide_eq_true_eq, Bool.not_eq_true', or_assoc]
    exact hwhy
  · exact if_pos (by simpa using hh)

end

/-! ## CAMP_DATA -/

/-- An image with `data` written from offset `off` on. -/
def imageWith (off : Nat) (data : List Byte) (image : Kv Byte) : Kv Byte :=
  data.zipIdx.foldl (fun m p => Kv.putOr 0#8 (off + p.2) p.1 m) image

/-- Byte `i` after a write that starts its count at `k`: the bytes written, and the others as they were. -/
theorem getD_writeBytes (off i : Nat) : ∀ (data : List Byte) (k : Nat) {m : Kv Byte}, Kv.wf m = true →
    ((data.zipIdx k).foldl (fun m p => Kv.putOr 0#8 (off + p.2) p.1 m) m).getD i 0 =
      if off + k ≤ i ∧ i < off + k + data.length then data.getD (i - (off + k)) 0 else m.getD i 0
  | [], k, m, _ => (if_neg (by simp only [List.length_nil]; omega)).symm
  | b :: data, k, m, hm => by
    rw [List.zipIdx_cons, List.foldl_cons, getD_writeBytes off i data (k + 1) (Kv.wf_putOr _ _ _ hm)]
    simp only [List.length_cons]
    by_cases hin : off + (k + 1) ≤ i ∧ i < off + (k + 1) + data.length
    · rw [if_pos hin, if_pos (by omega), show i - (off + k) = i - (off + (k + 1)) + 1 by omega, List.getD_cons_succ]
    · rw [if_neg hin]
      by_cases hi : i = off + k
      · subst hi
        rw [if_pos (by omega), Nat.sub_self]
        exact Kv.getD_putOr_same _ _ _ hm
      · rw [Kv.getD_putOr_ne _ _ _ hm hi, if_neg (by omega)]

theorem getD_imageWith (off i : Nat) (data : List Byte) {m : Kv Byte} (hm : Kv.wf m = true) :
    (imageWith off data m).getD i 0 = if off ≤ i ∧ i < off + data.length then data.getD (i - off) 0 else m.getD i 0 :=
  getD_writeBytes off i data 0 hm

section
variable {n off : Nat} {data : List Byte} {c : Camp} {s : State}

theorem campData_writes (hh : isHead s = true) (hc : campOf s n = some c) (hst : c.st = .draft) (hfit : off + data.length ≤ c.manifest.imageLen) :
    campData n off data s = (putCamp n (some { c with image := imageWith off data c.image }) s, .done) := by
  unfold campData
  rw [withCamp_held hh hc, if_neg (by simp [hst, hfit])]
  rfl

theorem campData_refused (hc : campOf s n = some c) (hwhy : c.st ≠ .draft ∨ c.manifest.imageLen < off + data.length) :
    campData n off data s = (s, .bad) :=
  withCamp_refused hc (if_pos (by simpa using hwhy))

end

/-! ## CAMP_SEAL -/

section
variable {n : Nat} {c : Camp} {s : State}

theorem digestsOk_iff : digestsOk c = true ↔ sha256 (imageBytes c) = c.manifest.imageDigest ∧ sha256 (segTable c) = c.manifest.tableDigest := by
  simp only [digestsOk, Bool.and_eq_true, beq_iff_eq]

theorem campSeal_seals (hh : isHead s = true) (hc : campOf s n = some c) (hst : c.st = .draft) (hok : digestsOk c = true) :
    campSeal n s = (putCamp n (some { c with st := .ready }) s, .done) := by
  unfold campSeal
  rw [withCamp_held hh hc, if_neg (by simp [hst, hok])]

theorem campSeal_refused (hc : campOf s n = some c) (hwhy : c.st ≠ .draft ∨ ¬digestsOk c = true) : campSeal n s = (s, .bad) :=
  withCamp_refused hc (if_pos (by simpa using hwhy))

end

/-! ## CAMP_READ and CAMP_MEMBER_READ (layouts: log entry 25) -/

/-- The nine member counts of a campaign, four bytes each (R215). -/
def countBytes (c : Camp) : List Byte := (List.range 9).flatMap fun k => be 4 (memberCount c k)

/-- RESULT of CAMP_READ: the state, then the counts. -/
def campResult (c : Camp) : List Byte := be 1 (campCode c.st) ++ be 3 0 ++ countBytes c

theorem length_flatMap_range {α : Type} {f : Nat → List α} {l : Nat} (hf : ∀ k, (f k).length = l) (n : Nat) :
    ((List.range n).flatMap f).length = l * n := by
  induction n with
  | zero => rfl
  | succ n ih => rw [List.range_succ, List.flatMap_append, List.flatMap_singleton, List.length_append, ih, hf, Nat.mul_succ]

/-- Item `k` of a sequence of items of one length stands behind the `k` items before it. -/
theorem take_drop_flatMap {α : Type} {f : Nat → List α} {l : Nat} (hf : ∀ k, (f k).length = l) {n k : Nat} (hk : k < n) :
    (((List.range n).flatMap f).drop (l * k)).take l = f k := by
  induction n with
  | zero => omega
  | succ n ih =>
    have hlen := length_flatMap_range hf n
    rw [List.range_succ, List.flatMap_append, List.flatMap_singleton]
    by_cases hkn : k < n
    · have hle : l * (k + 1) ≤ l * n := Nat.mul_le_mul_left l hkn
      rw [Nat.mul_succ] at hle
      rw [List.drop_append_of_le_length (by omega), List.take_append_of_le_length (by rw [List.length_drop]; omega), ih hkn]
    · obtain rfl : k = n := by omega
      rw [← hlen, List.drop_left, ← hf k, List.take_length]

theorem length_countBytes (c : Camp) : (countBytes c).length = 36 := length_flatMap_range (fun _ => length_be ..) 9

theorem length_campResult (c : Camp) : (campResult c).length = 40 := by simp [campResult, length_countBytes]

theorem padTo_campResult (c : Camp) : padTo 40 (campResult c) = campResult c := by
  unfold padTo
  rw [length_campResult, Nat.sub_self, List.replicate_zero, List.append_nil, ← length_campResult c, List.take_length]

theorem head_campResult (c : Camp) : (campResult c).head? = some (BitVec.ofNat 8 (campCode c.st)) := by simp [campResult, be]

theorem counts_campResult (c : Camp) {k : Nat} (hk : k < 9) : ((campResult c).drop (4 + 4 * k)).take 4 = be 4 (memberCount c k) := by
  have hhead : (campResult c).drop 4 = countBytes c := List.drop_left (l₁ := be 1 (campCode c.st) ++ be 3 0)
  rw [← List.drop_drop, hhead]
  exact take_drop_flatMap (fun _ => length_be ..) hk

section
variable {n : Nat} {c : Camp} {s : State}

theorem campRead_answers (hh : isHead s = true) (hc : campOf s n = some c) :
    ∃ times, campRead n s = (s, ⟨.ok, campResult c, [manifestFrame c.manifest, times]⟩) := by
  unfold campRead
  rw [withCamp_held hh hc]
  exact ⟨_, congrArg (fun r => (s, Reply.mk .ok r _)) (padTo_campResult c)⟩

theorem campMemberRead_answers (first count : Nat) (hh : isHead s = true) (hc : campOf s n = some c) : campMemberRead n first count s =
    (s, ⟨.ok, [], (c.members.filter fun p => decide (first ≤ p.1) && decide (p.1 < first + count)).map fun p => memberBytes p.2⟩) :=
  withCamp_held hh hc

end

/-- Settles O24: each command by the law of what it stores or refuses; the counts of CAMP_READ by their places in the answer. -/
theorem campaignImages : Obligations.CampaignImages := by
  unfold Obligations.CampaignImages
  refine ⟨?created, ?notCreated, ?written, ?notWritten, ?sealed, ?notSealed, ?read, ?members⟩
  case created =>
    intro h m k s u hu hh hver hid hres hlo hhi hseg hsig hnew hfree
    obtain ⟨t, he, hput, -, hrest⟩ := exec_putsCamp (i := .campCreate h m) rfl hu (campCreate_creates hh hver hid hres hlo hhi hseg hsig hnew hfree) .refl
    exact ⟨t, he, hput, hrest⟩
  case notCreated => exact fun h m s u hu hwhy => exec_of_entered rfl hu (campCreate_refused hwhy)
  case written =>
    intro h n off data c s u hu hh hc hst hfit hwf
    obtain ⟨t, he, hput, -, hrest⟩ := exec_putsCamp (i := .campData h n off data) rfl hu (campData_writes hh hc hst hfit) .refl
    exact ⟨t, _, he, hput, rfl, fun i => getD_imageWith off i data hwf, hrest⟩
  case notWritten => exact fun h n off data c s u hu hc hwhy => exec_of_entered rfl hu (campData_refused hc hwhy)
  case sealed =>
    intro h n c s u hu hh hc hst himage htable
    obtain ⟨t, he, hput, -, hrest⟩ := exec_putsCamp (i := .campSeal h n) rfl hu (campSeal_seals hh hc hst (digestsOk_iff.mpr ⟨himage, htable⟩)) .refl
    exact ⟨t, he, hput, hrest⟩
  case notSealed =>
    intro h n c s u hu hc hwhy
    rw [← Classical.not_and_iff_not_or_not, ← digestsOk_iff] at hwhy
    exact exec_of_entered rfl hu (campSeal_refused hc hwhy)
  case read =>
    intro h n c s u hu hh hc
    obtain ⟨times, hread⟩ := campRead_answers hh hc
    exact ⟨campResult c, [times], exec_of_entered rfl hu hread, head_campResult c, fun k hk => counts_campResult c hk⟩
  case members => exact fun h n first count c s u hu hh hc => exec_of_entered rfl hu (campMemberRead_answers first count hh hc)

end Sys2Proof.Machine
end

section
/-!
SUPPORT. A slot's bit of CAMPAIGNS (R78, R198): written at once where the record is free, else left as a late write.
-/
namespace Sys2Proof.Machine

/-! ## The bit in an image -/

/-- The bit taken away is clear. -/
theorem testBit_sub_bit (v b : Nat) : (v - if v / 2 ^ b % 2 = 1 then 2 ^ b else 0).testBit b = false := by
  rw [Nat.testBit_eq_decide_div_mod_eq, decide_eq_false_iff_not]
  split
  · have hdiv : (v - 2 ^ b) / 2 ^ b = v / 2 ^ b - 1 := by simpa using Nat.sub_mul_div v (2 ^ b) 1
    rw [hdiv]
    omega
  · rwa [Nat.sub_zero]

theorem testBit_ownImage {b : Nat} {on : Bool} (hb : on = true → b < 64) (r : RecImg) :
    (fld (ownImage (.campaign b on) r) 152 8).testBit b = on := by
  unfold ownImage
  rw [fld_setFld_same _ _ (by omega), Nat.testBit_mod_two_pow]
  cases on with
  | true => simp [hb rfl]
  | false => rw [if_neg Bool.false_ne_true, testBit_sub_bit, Bool.and_false]

/-- A write of CAMPAIGNS leaves the other fields. -/
theorem fld_ownImage_apart (b : Nat) (on : Bool) (r : RecImg) {o l : Nat} (hend : o + l ≤ 256) (hap : o + l ≤ 152 ∨ 160 ≤ o) :
    fld (ownImage (.campaign b on) r) o l = fld r o l := fld_setFld_apart r _ (by omega) hend hap

/-! ## The unit's own writes -/

theorem recordFree_iff {k : Nat} {s : State} :
    s.recordFree k ↔ (slotReading k s || s.table.late.any fun x => x.slot == k) = false := by
  simp [State.recordFree]

theorem recordFree_congr {k : Nat} {s t : State} (htable : t.table = s.table) (hpipe : t.pipe = s.pipe) : t.recordFree k ↔ s.recordFree k := by
  unfold State.recordFree slotReading
  rw [htable, hpipe]

theorem ownWrite_of_free {w : LateWrite} {s : State} (hfree : s.recordFree w.slot) : ownWrite w s = ownWriteNow w s :=
  if_neg (by simp [recordFree_iff.mp hfree])

theorem ownWrite_of_held {w : LateWrite} {s : State} (hheld : ¬s.recordFree w.slot) :
    ownWrite w s = { s with table := { s.table with late := s.table.late ++ [w] } } :=
  if_pos (eq_true_of_ne_false (mt recordFree_iff.mpr hheld))

theorem ownWriteNow_cases (w : LateWrite) (s : State) : ownWriteNow w s = s ∨ ownWriteNow w s = writeRec w.slot (ownImage w.what) s := by
  unfold ownWriteNow
  dsimp only
  split
  · exact .inl rfl
  · exact .inr rfl

/-- On a record in service, under its title, the write is made unless it would change nothing. -/
theorem ownWriteNow_writes {w : LateWrite} {s : State} (hst : fld (imgOf s w.slot) 8 1 ∉ [0, 4]) (htitle : recTitle (imgOf s w.slot) = w.title) :
    ownWriteNow w s = if ownImage w.what (imgOf s w.slot) = imgOf s w.slot then s else writeRec w.slot (ownImage w.what) s := by
  simp only [List.mem_cons, List.not_mem_nil, or_false, not_or] at hst
  unfold ownWriteNow recState
  simp [hst.1, hst.2, htitle]

theorem late_writeRec (n : Nat) (f : RecImg → RecImg) (s : State) : (writeRec n f s).table.late = s.table.late := by
  rw [writeRec_eq]
  unfold writeSlotIdx
  rw [journal_table]

theorem late_ownWriteNow (w : LateWrite) (s : State) : (ownWriteNow w s).table.late = s.table.late := by
  rcases ownWriteNow_cases w s with hkept | hwritten
  · rw [hkept]
  · rw [hwritten, late_writeRec]

/-! ## One bit -/

section
variable (n k : Nat) (on : Bool) (s : State)

theorem campBit_of_free (hfree : s.recordFree k) : campBit n k on s = ownWriteNow ⟨k, recTitle (imgOf s k), .campaign n on⟩ s :=
  ownWrite_of_free hfree

theorem campBit_of_held (hheld : ¬s.recordFree k) : campBit n k on s =
    { s with table := { s.table with late := s.table.late ++ [⟨k, recTitle (imgOf s k), .campaign n on⟩] } } := ownWrite_of_held hheld

/-- A write of its bit leaves a record as free, or as held, as it was, and others too. -/
theorem recordFree_campBit (j : Nat) : (campBit n k on s).recordFree j ↔ s.recordFree j := by
  have hpipe : (campBit n k on s).pipe = s.pipe := (campBit_changes ..).same .pipe (by decide)
  by_cases hfree : s.recordFree k
  · unfold State.recordFree slotReading
    rw [hpipe, campBit_of_free n k on s hfree, late_ownWriteNow]
  · rw [campBit_of_held n k on s hfree]
    simp only [State.recordFree, slotReading, List.mem_append, List.mem_singleton] at hfree ⊢
    refine ⟨fun ⟨hread, hlate⟩ => ⟨hread, fun w hw => hlate w (.inl hw)⟩, fun ⟨hread, hlate⟩ => ⟨hread, fun w hw => hw.elim (hlate w) ?_⟩⟩
    rintro rfl rfl
    exact hfree ⟨hread, hlate⟩

theorem slotOf_campBit_ne {j : Nat} (hne : j ≠ k) : slotOf (campBit n k on s) j = slotOf s j := by
  by_cases hfree : s.recordFree k
  · rw [campBit_of_free n k on s hfree]
    rcases ownWriteNow_cases ⟨k, recTitle (imgOf s k), .campaign n on⟩ s with hkept | hwritten
    · rw [hkept]
    · rw [hwritten, writeRec_eq, slotOf_writeSlotIdx_ne hne]
  · rw [campBit_of_held n k on s hfree]
    rfl

/-- A field apart from CAMPAIGNS and RECORD_SEQ stays in every record. -/
theorem fld_campBit (j : Nat) {o l : Nat} (hseq : o + l ≤ 12 ∨ 16 ≤ o) (hap : o + l ≤ 152 ∨ 160 ≤ o) (hend : o + l ≤ 256) :
    fld (imgOf (campBit n k on s) j) o l = fld (imgOf s j) o l := by
  by_cases hj : j = k
  · subst hj
    by_cases hfree : s.recordFree j
    · rw [campBit_of_free n j on s hfree]
      rcases ownWriteNow_cases ⟨j, recTitle (imgOf s j), .campaign n on⟩ s with hkept | hwritten
      · rw [hkept]
      · rw [hwritten, writeRec_eq, fld_writeSlotIdx _ _ _ _ hend hseq, fld_ownImage_apart _ _ _ hend hap]
    · rw [campBit_of_held n j on s hfree]
      rfl
  · exact congrArg (fun v => fld v.img o l) (slotOf_campBit_ne n k on s hj)

theorem recTitle_campBit (j : Nat) : recTitle (imgOf (campBit n k on s) j) = recTitle (imgOf s j) :=
  congrArg (BitVec.ofNat 64) (fld_campBit n k on s j (by omega) (by omega) (by omega))

theorem late_campBit_mono {w : LateWrite} (hw : w ∈ s.table.late) : w ∈ (campBit n k on s).table.late := by
  by_cases hfree : s.recordFree k
  · rwa [campBit_of_free n k on s hfree, late_ownWriteNow]
  · rw [campBit_of_held n k on s hfree]
    exact List.mem_append_left _ hw

variable {n k on s}

theorem testBit_campBit (hfree : s.recordFree k) (hst : fld (imgOf s k) 8 1 ∉ [0, 4]) (hn : on = true → n < 64) :
    (fld (imgOf (campBit n k on s) k) 152 8).testBit n = on := by
  rw [campBit_of_free n k on s hfree, ownWriteNow_writes (w := ⟨k, recTitle (imgOf s k), .campaign n on⟩) hst rfl]
  dsimp only
  split
  · rename_i hsame
    exact (congrArg (fun r => (fld r 152 8).testBit n) hsame.symm).trans (testBit_ownImage hn _)
  · rw [writeRec_eq, fld_writeSlotIdx _ _ _ _ (by omega) (by omega)]
    exact testBit_ownImage hn _

end

/-! ## The bits of several records -/

/-- The bit of a campaign, set or cleared in the record of each slot of a list. -/
def campBits (n : Nat) (on : Bool) (ks : List Nat) (s : State) : State := ks.foldl (fun t k => campBit n k on t) s

theorem campBits_changes (n : Nat) (on : Bool) (ks : List Nat) (s : State) : Changes [.table, .jr] s (campBits n on ks s) :=
  .foldl (fun _ _ h => .step (campBit_changes ..) h rfl) .refl

theorem slotOf_campBits_of_notMem (n : Nat) (on : Bool) {ks : List Nat} (s : State) {k : Nat} (hk : k ∉ ks) :
    slotOf (campBits n on ks s) k = slotOf s k :=
  read_foldl_of_notMem (ok := fun _ => True) (key := id) (fun _ _ h => h) (fun t x _ _ hne => slotOf_campBit_ne n x on t hne) trivial (by simpa using hk)

theorem testBit_campBits {n k : Nat} {on : Bool} {ks : List Nat} {s : State} (hk : k ∈ ks) (hfree : s.recordFree k)
    (hst : fld (imgOf s k) 8 1 ∉ [0, 4]) (hn : on = true → n < 64) : (fld (imgOf (campBits n on ks s) k) 152 8).testBit n = on := by
  refine holds_foldl_of_mem (f := fun t x => campBit n x on t) (ok := fun t => t.recordFree k ∧ fld (imgOf t k) 8 1 ∉ [0, 4]) (key := id) (read := slotOf)
    (p := fun v => (fld v.img 152 8).testBit n = on) ?_ (fun t x _ _ hne => slotOf_campBit_ne n x on t hne) ?_ ⟨hfree, hst⟩ (by simpa using hk)
  · rintro t x ⟨htfree, htst⟩
    rw [recordFree_campBit, fld_campBit n x on t k (by omega) (by omega) (by omega)]
    exact ⟨htfree, htst⟩
  · rintro t _ ⟨htfree, htst⟩ rfl
    exact testBit_campBit htfree htst hn

theorem late_campBits_mono (n : Nat) (on : Bool) (ks : List Nat) {s : State} {w : LateWrite} (hw : w ∈ s.table.late) :
    w ∈ (campBits n on ks s).table.late :=
  List.foldlRecOn (motive := fun t => w ∈ t.table.late) ks _ hw fun t ht k _ => late_campBit_mono n k on t ht

theorem late_campBits {n k : Nat} {on : Bool} {ks : List Nat} {s : State} (hk : k ∈ ks) (hheld : ¬s.recordFree k) :
    ⟨k, recTitle (imgOf s k), .campaign n on⟩ ∈ (campBits n on ks s).table.late := by
  induction ks generalizing s with
  | nil => exact absurd hk List.not_mem_nil
  | cons x ks ih =>
    have hstep : campBits n on (x :: ks) s = campBits n on ks (campBit n x on s) := List.foldl_cons ..
    rw [hstep]
    rcases List.mem_cons.mp hk with rfl | hk
    · refine late_campBits_mono n on ks ?_
      rw [campBit_of_held n k on s hheld]
      exact List.mem_append_right _ (List.mem_singleton_self _)
    · rw [← recTitle_campBit n x on s k]
      exact ih hk (by rwa [recordFree_campBit])

/-- A bit of a record, written on the way from `u` to `t` (R78): in the record at once where it was free, else a late write under its title. -/
def bitWritten (n k : Nat) (on : Bool) (u t : State) : Prop :=
  (u.recordFree k → (fld (imgOf t k) 152 8).testBit n = on) ∧ (¬u.recordFree k → ⟨k, recTitle (imgOf u k), .campaign n on⟩ ∈ t.table.late)

/-- The bits that a command writes between other work. -/
theorem campBits_written {n k : Nat} {on : Bool} {ks : List Nat} {u v t : State} (hbefore : Changes [.regs, .win, .camp, .relay, .jr, .evt] u v)
    (hafter : t.table = (campBits n on ks v).table) (hk : k ∈ ks) (hst : fld (imgOf u k) 8 1 ∉ [0, 4]) (hn : on = true → n < 64) :
    bitWritten n k on u t := by
  have himg : imgOf v k = imgOf u k := hbefore.imgOf_eq k
  have hfree : v.recordFree k ↔ u.recordFree k := recordFree_congr (hbefore.same .table (by decide)) (hbefore.same .pipe (by decide))
  unfold bitWritten
  rw [imgOf_congr (congrArg Table.slots hafter), hafter, ← hfree, ← himg]
  rw [← himg] at hst
  exact ⟨fun h => testBit_campBits hk h hst hn, fun h => late_campBits hk h⟩

end Sys2Proof.Machine
end

section
/-!
SUPPORT. O25: the commands that move a campaign between its states (R200, R201, R220, R221) and those that add and remove members (R216).
-/
namespace Sys2Proof.Machine

/-! ## CAMP_START and CAMP_PAUSE -/

section
variable {n : Nat} {c : Camp} {s : State}

theorem campMove_moves {from_ : List CampSt} (to_ : CampSt) (hh : isHead s = true) (hc : campOf s n = some c) (hst : c.st ∈ from_) :
    campMove n from_ to_ s = (tellUnits n (.state (campCode to_)) (putCamp n (some { c with st := to_ }) s), .done) := by
  unfold campMove
  rw [withCamp_held hh hc, if_neg (by simpa using hst)]

theorem campMove_refused {from_ : List CampSt} (to_ : CampSt) (hc : campOf s n = some c) (hst : c.st ∉ from_) :
    campMove n from_ to_ s = (s, .bad) := withCamp_refused hc (if_pos (by simpa using hst))

end

theorem exec_movesCamp {i : Instr} {h : Hdr} {cmd : Cmd} {n : Nat} {from_ : List CampSt} {to_ : CampSt} {c : Camp} {s u : State}
    (hi : exec i s = .next (command h cmd (campMove n from_ to_) s)) (hu : State.entered h cmd s = some u) (hh : isHead u = true)
    (hc : campOf u n = some c) :
    (c.st ∈ from_ → ∃ t, exec i s = .next t ∧ campOf t n = some { c with st := to_ } ∧ t.table = u.table ∧ ∀ m, m ≠ n → campOf t m = campOf u m) ∧
    (c.st ∉ from_ → exec i s = .next (State.answered h cmd .bad u u)) :=
  ⟨fun hst => exec_putsCamp hi hu (campMove_moves to_ hh hc hst) (tellUnits_changes ..),
    fun hst => exec_of_entered hi hu (campMove_refused to_ hc hst)⟩

/-! ## CAMP_CANCEL and CAMP_CLOSE -/

/-- A slot freed at a unit holds no campaign, and the others stay. -/
theorem camps_forgetCamp (n : Nat) (s : State) : (forgetCamp n s).camp.camps = Kv.del n s.camp.camps := by
  unfold forgetCamp
  generalize hl : s.camp.cursors.filter _ = l
  have hcursors : ∀ f : State → Nat × Cursor → State, (∀ t p, (f t p).camp.camps = t.camp.camps) → (l.foldl f s).camp.camps = s.camp.camps :=
    fun f hf => List.foldlRecOn (motive := fun t => t.camp.camps = s.camp.camps) l f rfl fun t ht p _ => (hf t p).trans ht
  refine (congrArg CampState.camps (journal_camp ..)).trans (congrArg (Kv.del n) (hcursors _ fun t p => ?_))
  rw [journal_camp]
  rfl

section
variable {n : Nat} {from_ : List CampSt} {c : Camp} {s : State}

theorem campFree_frees (hh : isHead s = true) (hc : campOf s n = some c) (hst : c.st ∈ from_) : campFree n from_ s =
    (campBits n false (c.members.map (·.1)) (forgetCamp n (tellUnits n (.state 0xFF) s)), .done) := by
  unfold campFree campBits
  rw [withCamp_held hh hc, if_neg (by simpa using hst), List.foldl_map]

theorem campFree_refused (hc : campOf s n = some c) (hst : c.st ∉ from_) : campFree n from_ s = (s, .bad) :=
  withCamp_refused hc (if_pos (by simpa using hst))

end

theorem exec_freesCamp {i : Instr} {h : Hdr} {cmd : Cmd} {n : Nat} {from_ : List CampSt} {c : Camp} {s u : State}
    (hi : exec i s = .next (command h cmd (campFree n from_) s)) (hu : State.entered h cmd s = some u) (hh : isHead u = true)
    (hc : campOf u n = some c) (hwf : Kv.wf u.camp.camps = true) :
    (c.st ∈ from_ → ∃ t, exec i s = .next t ∧ campOf t n = none ∧
      (∀ p ∈ c.members, fld (imgOf u p.1) 8 1 ∉ [0, 4] → bitWritten n p.1 false u t) ∧ ∀ m, m ≠ n → campOf t m = campOf u m) ∧
    (c.st ∉ from_ → exec i s = .next (State.answered h cmd .bad u u)) := by
  have hcamps : (forgetCamp n (tellUnits n (.state 0xFF) u)).camp.camps = Kv.del n u.camp.camps :=
    (camps_forgetCamp ..).trans (congrArg (fun v : CampState => Kv.del n v.camps) ((tellUnits_changes ..).same .camp (by decide)))
  refine ⟨fun hst => ⟨_, exec_of_entered hi hu (campFree_frees hh hc hst), ?_, fun p hp hrec => ?_, fun m hne => ?_⟩,
    fun hst => exec_of_entered hi hu (campFree_refused hc hst)⟩
  · rw [campOf_answered, (campBits_changes ..).campOf_eq]
    unfold campOf
    rw [hcamps, Kv.get?_del_same n hwf]
  · exact campBits_written (.step (forgetCamp_changes ..) ((tellUnits_changes ..).mono rfl) rfl) (answered_table ..)
      (List.mem_map_of_mem hp) hrec nofun
  · rw [campOf_answered, (campBits_changes ..).campOf_eq]
    unfold campOf
    rw [hcamps, Kv.get?_del_ne hne hwf]

/-! ## CAMP_ACTIVATE and CAMP_ROLLBACK -/

section
variable {n action : Nat} {r : ActRec} {c : Camp} {s : State}

theorem actOk_of (haction : r.action = action) (hres : r.reservedOk = true) (hid : r.campId = c.manifest.campId)
    (hsig : campSigOk s r.signer r.sigAlg r.signedBy = true) : actOk s c r action = true := by
  simp [actOk, haction, hres, hid, hsig]

/-- A record that fails one of the common checks, or has another fault `p`. -/
theorem actOk_eq_false_or {p : Prop} (hwhy : r.action ≠ action ∨ r.campId ≠ c.manifest.campId ∨
    campSigOk s r.signer r.sigAlg r.signedBy = false ∨ p) : actOk s c r action = false ∨ p := by
  unfold actOk
  rcases hwhy with haction | hid | hsig | hp
  · simp [haction]
  · simp [hid]
  · simp [hsig]
  · exact .inr hp

theorem campActivate_orders (hh : isHead s = true) (hc : campOf s n = some c) (hst : c.st = .running) (hok : actOk s c r 1 = true)
    (htime : campNow s + fieldOf s 0x600 11 0 * 65536 ≤ r.actTime.toNat) : campActivate n r s =
      (tellUnits n (.state (campCode .activating)) (tellUnits n (.act r) (putCamp n (some { c with st := .activating, act := some r }) s)), .done) := by
  unfold campActivate
  rw [withCamp_held hh hc, if_neg (by simp [hst, hok, htime])]

theorem campActivate_refused (hc : campOf s n = some c)
    (hwhy : c.st ≠ .running ∨ actOk s c r 1 = false ∨ r.actTime.toNat < campNow s + fieldOf s 0x600 11 0 * 65536) : campActivate n r s = (s, .bad) :=
  withCamp_refused hc (if_pos (by simpa [or_assoc] using hwhy))

theorem campRollback_orders (hh : isHead s = true) (hc : campOf s n = some c) (hst : c.st = .activating ∨ c.st = .activated)
    (hok : actOk s c r 2 = true) (htime : campNow s < r.actTime.toNat) : campRollback n r s =
      (tellUnits n (.state (campCode .rollingBack)) (tellUnits n (.act r) (putCamp n (some { c with st := .rollingBack, act := some r }) s)), .done) := by
  unfold campRollback
  rw [withCamp_held hh hc, if_neg (by rcases hst with hst | hst <;> simp [hst, hok, htime])]

theorem campRollback_refused (hc : campOf s n = some c)
    (hwhy : (c.st ≠ .activating ∧ c.st ≠ .activated) ∨ actOk s c r 2 = false ∨ r.actTime.toNat ≤ campNow s) : campRollback n r s = (s, .bad) :=
  withCamp_refused hc (if_pos (by simpa [or_assoc] using hwhy))

end

/-! ## CAMP_ADD_MEMBERS and CAMP_REMOVE_MEMBERS -/

theorem length_eraseDups_le : ∀ l : List Nat, l.eraseDups.length ≤ l.length
  | [] => Nat.le_refl 0
  | a :: l => by
    rw [List.eraseDups_cons, List.length_cons, List.length_cons]
    exact Nat.succ_le_succ (Nat.le_trans (length_eraseDups_le _) (List.length_filter_le ..))
termination_by l => l.length
decreasing_by exact Nat.lt_succ_of_le (List.length_filter_le ..)

/-- The slots named that are not members yet, and those that are. -/
def newMembers (slots : List Nat) (c : Camp) : List Nat := slots.eraseDups.filter fun k => (Kv.get? k c.members).isNone
def oldMembers (slots : List Nat) (c : Camp) : List Nat := slots.eraseDups.filter fun k => (Kv.get? k c.members).isSome

theorem mem_newMembers {slots : List Nat} {c : Camp} {k : Nat} : k ∈ newMembers slots c ↔ k ∈ slots ∧ Kv.get? k c.members = none := by
  simp [newMembers, List.mem_eraseDups]

theorem mem_oldMembers {slots : List Nat} {c : Camp} {k : Nat} : k ∈ oldMembers slots c ↔ k ∈ slots ∧ Kv.get? k c.members ≠ none := by
  simp [oldMembers, List.mem_eraseDups, Option.isSome_iff_ne_none]

/-- The member record that an addition makes: PENDING, under the meter's title. -/
def pendingMember (s : State) (k : Nat) : Member := ⟨k, 0, 0, 0, 0, recTitle (imgOf s k)⟩

/-- The members of a campaign with slots added as PENDING. -/
def membersWith (s : State) (ks : List Nat) (m : Kv Member) : Kv Member := ks.foldl (fun m k => Kv.put k (pendingMember s k) m) m

theorem get?_membersWith_of_mem (s : State) {ks : List Nat} (m : Kv Member) {k : Nat} (hk : k ∈ ks) :
    Kv.get? k (membersWith s ks m) = some (pendingMember s k) :=
  holds_foldl_of_mem (ok := fun _ => True) (key := id) (read := fun m n => Kv.get? n m) (p := (· = some (pendingMember s k))) (fun _ _ h => h)
    (fun _ _ _ _ hne => Kv.get?_put_ne _ hne) (fun _ _ _ hx => hx ▸ Kv.get?_put_same ..) trivial (by simpa using hk)

theorem get?_membersWith_of_notMem (s : State) {ks : List Nat} (m : Kv Member) {k : Nat} (hk : k ∉ ks) :
    Kv.get? k (membersWith s ks m) = Kv.get? k m :=
  read_foldl_of_notMem (ok := fun _ => True) (key := id) (read := fun m n => Kv.get? n m) (fun _ _ h => h)
    (fun _ _ _ _ hne => Kv.get?_put_ne _ hne) trivial (by simpa using hk)

/-- The members of a campaign without those of some slots. -/
def membersWithout (ks : List Nat) (m : Kv Member) : Kv Member := m.filter fun p => !ks.contains p.1

theorem get?_membersWithout (ks : List Nat) {m : Kv Member} (hm : Kv.wf m = true) (k : Nat) :
    Kv.get? k (membersWithout ks m) = if k ∈ ks then none else Kv.get? k m := by
  unfold membersWithout
  rw [Kv.get?_filter_key (fun k => !ks.contains k) k hm]
  by_cases hk : k ∈ ks <;> simp [hk]

section
variable {n : Nat} {slots : List Nat} {c : Camp} {s : State}

/-- Slots within the table that are ACTIVE or PROVISIONED may all be named. -/
theorem all_campSlotOk (hslots : ∀ k ∈ slots, k < 2 ^ bits (reg s 0x200) 23 16 ∧ fld (imgOf s k) 8 1 ∈ [1, 2]) : slots.all (campSlotOk s) = true := by
  refine List.all_eq_true.mpr fun k hk => ?_
  obtain ⟨hsize, hst⟩ := hslots k hk
  have hsize : k < tblSize s := hsize
  simpa [campSlotOk, hsize, recState] using hst

/-- Its members and the bits of those that are new come first; the rest is sent to units. -/
theorem campAddMembers_adds (hh : isHead s = true) (hc : campOf s n = some c) (hst : c.st ∈ [.ready, .running, .paused, .activating])
    (hslots : slots.all (campSlotOk s) = true) (hroom : memberships s + slots.length ≤ 4194304) : ∃ v, campAddMembers n slots s = (v, .done) ∧
      Changes [.regs, .win, .relay, .jr, .evt] (campBits n true (newMembers slots c)
        (putCamp n (some { c with members := membersWith s (newMembers slots c) c.members }) s)) v := by
  have hlen : (newMembers slots c).length ≤ slots.length := Nat.le_trans (List.length_filter_le ..) (length_eraseDups_le slots)
  simp only [List.mem_cons, List.not_mem_nil, or_false] at hst
  unfold campAddMembers
  rw [withCamp_held hh hc, if_neg (by rcases hst with hst | hst | hst | hst <;> simp [hst, hslots])]
  exact ⟨_, if_neg (Nat.not_lt.mpr (Nat.le_trans (Nat.add_le_add_left hlen _) hroom)),
    .foldl (fun _ _ h => .ite h (.step (sendEntry_changes ..) h rfl)) (.foldl (fun _ _ h => .step (tellCamp_changes ..) h rfl) .refl)⟩

/-- What is sent to units comes first; then the members go and their bits clear. -/
theorem campRemoveMembers_removes (hh : isHead s = true) (hc : campOf s n = some c) (hslots : slots.all (campSlotOk s) = true) :
    ∃ v, Changes [.regs, .win, .relay, .jr, .evt] s v ∧ campRemoveMembers n slots s = (campBits n false (oldMembers slots c)
      (putCamp n (some { c with members := membersWithout (oldMembers slots c) c.members }) v), .done) := by
  unfold campRemoveMembers
  rw [withCamp_held hh hc, if_neg (by simp [hslots])]
  exact ⟨_, .foldl (fun _ _ h => .ite h (.step (sendEntry_changes ..) h rfl)) .refl, rfl⟩

end

/-- A record of a slot that a member command may name is in service. -/
theorem inService_of_mem {k : Nat} {s : State} (hst : fld (imgOf s k) 8 1 ∈ [1, 2]) : fld (imgOf s k) 8 1 ∉ [0, 4] := by
  simp only [List.mem_cons, List.not_mem_nil, or_false] at hst ⊢
  omega

/-- Settles O25: the moves, the frees and the records by the law of each command; the members by their list and the bits written between. -/
theorem campaignStates : Obligations.CampaignStates := by
  unfold Obligations.CampaignStates
  refine ⟨?start, ?pause, ?cancel, ?close, ?activate, ?rollback, ?add, ?remove⟩
  case start =>
    intro h n c s u hu hh hc
    simpa using exec_movesCamp (i := .campStart h n) rfl hu hh hc
  case pause =>
    intro h n c s u hu hh hc
    simpa using exec_movesCamp (i := .campPause h n) rfl hu hh hc
  case cancel => exact fun h n c s u hu hh hc hwf => exec_freesCamp (i := .campCancel h n) rfl hu hh hc hwf
  case close => exact fun h n c s u hu hh hc hwf => exec_freesCamp (i := .campClose h n) rfl hu hh hc hwf
  case activate =>
    intro h n r c s u hu hh hc
    exact ⟨fun hst haction hres hid hsig htime => exec_putsCamp (i := .campActivate h n r) rfl hu
        (campActivate_orders hh hc hst (actOk_of haction hres hid hsig) htime) (.step (tellUnits_changes ..) (tellUnits_changes ..) rfl),
      fun hwhy => exec_of_entered rfl hu (campActivate_refused hc (hwhy.imp_right actOk_eq_false_or))⟩
  case rollback =>
    intro h n r c s u hu hh hc
    exact ⟨fun hst haction hres hid hsig htime => exec_putsCamp (i := .campRollback h n r) rfl hu
        (campRollback_orders hh hc hst (actOk_of haction hres hid hsig) htime) (.step (tellUnits_changes ..) (tellUnits_changes ..) rfl),
      fun hwhy => exec_of_entered rfl hu (campRollback_refused hc (hwhy.imp_right actOk_eq_false_or))⟩
  case add =>
    intro h n slots c s u hu hh hc hn hst hslots hroom
    obtain ⟨v, hadds, hsent⟩ := campAddMembers_adds hh hc hst (all_campSlotOk hslots) hroom
    refine ⟨_, { c with members := membersWith u (newMembers slots c) c.members }, exec_of_entered rfl hu hadds, ?_, rfl, fun k hk hnone => ?_, fun k hk => ?_⟩
    · rw [campOf_answered, hsent.campOf_eq, (campBits_changes ..).campOf_eq, campOf_putCamp_same]
    · have hnew : k ∈ newMembers slots c := mem_newMembers.mpr ⟨hk, hnone⟩
      exact ⟨get?_membersWith_of_mem u _ hnew, campBits_written ((putCamp_changes ..).mono rfl)
        ((answered_table ..).trans (hsent.same .table (by decide))) hnew (inService_of_mem (hslots k hk).2) fun _ => hn⟩
    · have hold : k ∉ newMembers slots c := fun hnew => hk.elim (· (mem_newMembers.mp hnew).1) (· (mem_newMembers.mp hnew).2)
      refine ⟨get?_membersWith_of_notMem u _ hold, ?_⟩
      rw [slotOf_answered, hsent.slotOf_eq, slotOf_campBits_of_notMem _ _ _ hold, (putCamp_changes ..).slotOf_eq]
  case remove =>
    intro h n slots c s u hu hh hc hwf hslots
    obtain ⟨v, hsent, hremoves⟩ := campRemoveMembers_removes hh hc (all_campSlotOk hslots)
    refine ⟨_, { c with members := membersWithout (oldMembers slots c) c.members }, exec_of_entered rfl hu hremoves, ?_, rfl,
      fun k hk => ⟨?_, fun hold => ?_⟩, fun k hk => ?_⟩
    · rw [campOf_answered, (campBits_changes ..).campOf_eq, campOf_putCamp_same]
    · dsimp only
      rw [get?_membersWithout _ hwf, ite_eq_left_iff]
      exact fun hnot => Classical.byContradiction fun hheld => hnot (mem_oldMembers.mpr ⟨hk, hheld⟩)
    · exact campBits_written (.step (putCamp_changes ..) (hsent.mono rfl) rfl) (answered_table ..) (mem_oldMembers.mpr ⟨hk, hold⟩)
        (inService_of_mem (hslots k hk).2) nofun
    · have hnot : k ∉ oldMembers slots c := fun hold => hk (mem_oldMembers.mp hold).1
      refine ⟨(get?_membersWithout _ hwf k).trans (if_neg hnot), ?_⟩
      rw [slotOf_answered, slotOf_campBits_of_notMem _ _ _ hnot, (putCamp_changes ..).slotOf_eq, hsent.slotOf_eq]

end Sys2Proof.Machine
end

section
/-!
SUPPORT. Cursors (R219): what one holds after it was stored, and the frames that wait in it.
-/
namespace Sys2Proof.Machine

theorem camp_putCursor (link n : Nat) (v : Cursor) (s : State) :
    (putCursor link n v s).camp = { s.camp with cursors := Kv.put (link * 64 + n) v s.camp.cursors } := journal_camp ..

theorem campOf_putCursor (link n : Nat) (v : Cursor) (s : State) (m : Nat) : campOf (putCursor link n v s) m = campOf s m :=
  campOf_congr (by rw [camp_putCursor]) m

theorem get?_putCursor (link n : Nat) (v : Cursor) (s : State) : Kv.get? (link * 64 + n) (putCursor link n v s).camp.cursors = some v := by
  rw [camp_putCursor]
  exact Kv.get?_put_same ..

theorem cursorOf_of_some {link n : Nat} {v : Cursor} {s : State} (c : Camp) (hv : Kv.get? (link * 64 + n) s.camp.cursors = some v) :
    cursorOf s c link n = v := by
  unfold cursorOf
  rw [hv]
  rfl

/-- A cursor that has not run yet has nothing to send. -/
theorem todo_cursorOf_of_none {link n : Nat} {s : State} (c : Camp) (hnone : Kv.get? (link * 64 + n) s.camp.cursors = none) :
    (cursorOf s c link n).todo = [] := by
  unfold cursorOf
  rw [hnone]
  rfl

/-- A cursor that stays in its pass, or in its round, only is stored. -/
theorem settleCursor_within {link n : Nat} {c : Camp} {old new : Cursor} {s : State} (hrounds : new.rounds = old.rounds) (hrgen : new.rgen = old.rgen) :
    settleCursor link n c old new s = if new = old then s else putCursor link n new s := by
  have hends : (!old.rounds && old.rounds || old.rgen.isSome && old.rgen.isNone) = false := by
    cases old.rounds <;> cases old.rgen <;> rfl
  unfold settleCursor
  dsimp only
  rw [hrounds, hrgen, hends, if_neg Bool.false_ne_true]

theorem get?_settleCursor_within {link n : Nat} {old new : Cursor} {s : State} (c : Camp) (hstored : Kv.get? (link * 64 + n) s.camp.cursors = some old)
    (hrounds : new.rounds = old.rounds) (hrgen : new.rgen = old.rgen) :
    Kv.get? (link * 64 + n) (settleCursor link n c old new s).camp.cursors = some new := by
  rw [settleCursor_within hrounds hrgen]
  split
  · rename_i hsame
    rw [hstored, hsame]
  · exact get?_putCursor ..

theorem settleCursor_self (link n : Nat) (c : Camp) (v : Cursor) (s : State) : settleCursor link n c v v s = s :=
  (settleCursor_within rfl rfl).trans (if_pos rfl)

/-- Which frames stay in a cursor: those for all or for an endpoint that still is a member on the link, and in ROLLING_BACK the record alone. -/
def staysDue (s : State) (c : Camp) (link : Nat) (x : CampSend) : Bool :=
  (c.st != .rollingBack || x.what == .record) &&
    (match x.to_ with | none => true | some t => (membersOn s c link).any (fun m => m.title == t) && accessKnown s link t)

theorem trimmed_of_due {s : State} {c : Camp} {link : Nat} {v : Cursor} {x : CampSend} (hx : x ∈ v.todo) (hdue : staysDue s c link x = true) :
    trimmed s c link v = { v with todo := v.todo.filter (staysDue s c link) } := by
  have hleft : (!(v.todo.filter (staysDue s c link)).isEmpty) = true := by
    simpa using ⟨x, hx, hdue⟩
  unfold trimmed
  exact if_pos hleft

/-- A cursor without frames and without a round stands. -/
theorem trimmed_of_idle (s : State) (c : Camp) (link : Nat) {v : Cursor} (htodo : v.todo = []) (hrgen : v.rgen = none) : trimmed s c link v = v := by
  obtain ⟨gen, sent, rounds, rgen, todo, told, deferred⟩ := v
  subst htodo hrgen
  rfl

/-- A frame waits in the cursor stored for a campaign on a link. -/
def State.awaits (link n : Nat) (x : CampSend) (s : State) : Prop :=
  ∃ v, Kv.get? (link * 64 + n) s.camp.cursors = some v ∧ x ∈ v.todo

theorem awaits_putCursor {link n : Nat} {x : CampSend} {v : Cursor} (s : State) (hx : x ∈ v.todo) : (putCursor link n v s).awaits link n x :=
  ⟨v, get?_putCursor .., hx⟩

section
variable {link n : Nat} {c : Camp} {s : State}

/-- What is among the frames of a cursor waits in it. -/
theorem awaits_of_mem_todo {x : CampSend} (hx : x ∈ (cursorOf s c link n).todo) : s.awaits link n x := by
  cases hv : Kv.get? (link * 64 + n) s.camp.cursors with
  | none =>
    rw [todo_cursorOf_of_none c hv] at hx
    exact absurd hx List.not_mem_nil
  | some v => exact ⟨v, hv, cursorOf_of_some c hv ▸ hx⟩

theorem State.awaits.mem_todo {x : CampSend} (h : s.awaits link n x) (c : Camp) : x ∈ (cursorOf s c link n).todo := by
  obtain ⟨v, hv, hx⟩ := h
  rwa [cursorOf_of_some c hv]

/-! ## The record in force waits (R220) -/

theorem awaits_queueRecord (who : Option W64) : (queueRecord link n c who s).awaits link n ⟨who, .record⟩ := by
  unfold queueRecord
  dsimp only
  split
  · rename_i hin
    exact awaits_of_mem_todo (List.contains_iff_mem.mp hin)
  · exact awaits_putCursor s List.mem_cons_self

theorem awaits_queueRecord_mono {x : CampSend} (who : Option W64) (h : s.awaits link n x) : (queueRecord link n c who s).awaits link n x := by
  unfold queueRecord
  dsimp only
  split
  · exact h
  · exact awaits_putCursor s (List.mem_cons_of_mem _ (h.mem_todo c))

/-- The record in force waits for each member of a list. -/
def queueRecords (link n : Nat) (c : Camp) (l : List Member) (s : State) : State :=
  l.foldl (fun t m => queueRecord link n c (some m.title) t) s

theorem queueRecords_changes (l : List Member) : Changes [.camp, .jr] s (queueRecords link n c l s) :=
  .foldl (fun _ _ h => .step (queueRecord_changes ..) h rfl) .refl

theorem awaits_queueRecords {l : List Member} {m : Member} (hm : m ∈ l) : (queueRecords link n c l s).awaits link n ⟨some m.title, .record⟩ := by
  induction l generalizing s with
  | nil => exact absurd hm List.not_mem_nil
  | cons p l ih =>
    rcases List.mem_cons.mp hm with rfl | hm
    · exact List.foldlRecOn (motive := fun t : State => t.awaits link n ⟨some m.title, .record⟩) l _ (awaits_queueRecord _)
        fun t ht q _ => awaits_queueRecord_mono _ ht
    · exact ih (s := queueRecord link n c (some p.title) s) hm

end

/-- Members on a link depend on the table and the registers alone. -/
theorem membersOn_congr {s t : State} (htable : t.table = s.table) (hregs : t.regs = s.regs) (c : Camp) (link : Nat) :
    membersOn t c link = membersOn s c link := by
  have hlog : tblLog2 t = tblLog2 s := congrArg (bits · 23 16) (reg_congr hregs 0x200)
  have hfind : idxFind t = idxFind s := by
    funext title
    unfold idxFind idxPath idxLines
    rw [htable, hlog]
  have himg : imgOf t = imgOf s := funext fun k => imgOf_congr (congrArg Table.slots htable) k
  unfold membersOn memberLink linkOfTitle
  rw [hfind, himg]

theorem accessKnown_congr {s t : State} (hplc : t.plc = s.plc) (hrf : t.rf = s.rf) (link : Nat) (title : W64) :
    accessKnown t link title = accessKnown s link title := by
  unfold accessKnown plcOf rfOf
  rw [hplc, hrf]

/-- The record stays due for a member on the link that has a short address there, in whatever state of the campaign. -/
theorem staysDue_record {s t : State} {c : Camp} {link : Nat} {m : Member} (h : Changes [.camp, .jr] s t) (hm : m ∈ membersOn s c link)
    (hknown : accessKnown s link m.title = true) : staysDue t c link ⟨some m.title, .record⟩ = true := by
  have hon : membersOn t c link = membersOn s c link := membersOn_congr (h.same .table (by decide)) (h.same .regs (by decide)) c link
  have hreach : accessKnown t link m.title = true := (accessKnown_congr (h.same .plc (by decide)) (h.same .rf (by decide)) link m.title).trans hknown
  simpa [staysDue, hon, hreach] using ⟨m, hm, rfl⟩

end Sys2Proof.Machine
end

section
/-!
SUPPORT. O46: CAMPAIGN_FRAME_SEND, REPAIR_ROUND, ACTIVATION_BROADCAST, ACT_TIME_LATE_EXPIRY and CAMPAIGN_CHECKPOINT (R200, R216 to R221,
R225, R252; a record to each member concerned is log entry 143's).
-/
namespace Sys2Proof.Machine

/-! ## CAMPAIGN_FRAME_SEND: whose turn it is (R218) -/

/-- A campaign frame that goes to all counts against the pace of its link, and changes nothing else of the campaigns. -/
theorem camp_campGo (link : Nat) (f : CampFrame) (s : State) :
    (campGo link none f s).camp = { s.camp with frames := Kv.put link (unitSec s, campSentNow s link + 1) s.camp.frames } :=
  (accessBroadcast_changes ..).same .camp (by decide)

theorem campMay_iff {s : State} {link : Nat} : campMay s link = true ↔ isField s = true ∧ serving s = true ∧ link ≤ 5 ∧
    campSentNow s link < campPace s link ∧ accessBusy s link = false ∧ accessReady s link = true := by
  simp only [campMay, Bool.and_eq_true, decide_eq_true_eq, Bool.not_eq_true', and_assoc]

/-- The slots in the order of their turns, from the one after the slot that sent last. -/
def turns (link : Nat) (s : State) : List Nat := (List.range 64).map fun i => (s.camp.turn.getD link 63 + 1 + i) % 64

theorem campaignFrameSend_turns {link : Nat} {s : State} (hmay : campMay s link = true) : campaignFrameSend link s = campTurn link s (turns link s) :=
  if_neg (by simp [hmay])

theorem campaignFrameSend_waits {link : Nat} {s : State} (hmay : ¬campMay s link = true) : campaignFrameSend link s = s :=
  if_pos (by simpa using hmay)

/-- The first slot has its turn once. -/
theorem turns_first {link n : Nat} {s : State} (hn : (s.camp.turn.getD link 63 + 1) % 64 = n) : ∃ l, turns link s = n :: l ∧ n ∉ l := by
  refine ⟨(List.range 63).map fun i => (s.camp.turn.getD link 63 + 1 + (i + 1)) % 64, ?_, ?_⟩
  · unfold turns
    rw [List.range_succ_eq_map, List.map_cons, List.map_map, Nat.add_zero, hn]
    rfl
  · simp only [List.mem_map, List.mem_range, not_exists, not_and]
    omega

theorem campTurn_of_none {link : Nat} {s : State} : ∀ {l : List Nat}, (∀ m ∈ l, campOf s m = none) → campTurn link s l = s
  | [], _ => rfl
  | m :: l, h => by
    rw [campTurn, h m List.mem_cons_self]
    exact campTurn_of_none fun k hk => h k (List.mem_cons_of_mem _ hk)

section
variable {link n : Nat} {c : Camp} {v nxt : Cursor} {x : CampSend} {s t : State}

/-- A frame that goes takes the turn of the link, and the cursor goes on. -/
theorem campTurn_gone (l : List Nat) (hc : campOf s n = some c) (hsends : campSends c = true) (hmem : membersOn s c link ≠ [])
    (hv : cursorOf s c link n = v) (htrim : trimmed s c link v = v) (hnext : nextFrame s c link v = some (x, nxt))
    (hsend : sendCampFrame link n c x s = .gone t) : campTurn link s (n :: l) =
      settleCursor link n c v (trimmed (setCampState (fun st => { st with turn := Kv.put link n st.turn }) t) c link { nxt with deferred := false })
        (setCampState (fun st => { st with turn := Kv.put link n st.turn }) t) := by
  rw [campTurn, hc]
  dsimp only
  rw [if_neg (by simp [hsends, hmem]), hv, htrim, hnext]
  dsimp only
  rw [hsend]

/-- A frame that waits for its segments leaves the turn to the next slot. -/
theorem campTurn_waits (l : List Nat) (hc : campOf s n = some c) (hsends : campSends c = true) (hmem : membersOn s c link ≠ [])
    (hv : cursorOf s c link n = v) (htrim : trimmed s c link v = v) (hnext : nextFrame s c link v = some (x, nxt))
    (hsend : sendCampFrame link n c x s = .waits t) : campTurn link s (n :: l) = campTurn link t l := by
  rw [campTurn, hc]
  dsimp only
  rw [if_neg (by simp [hsends, hmem]), hv, htrim, hnext]
  dsimp only
  rw [hsend]
  dsimp only
  rw [settleCursor_self]

end

/-! ## CAMPAIGN_FRAME_SEND: the first pass (R217, R219) -/

/-- A cursor in the first pass with `k` frames of generation `g` sent. -/
def firstPass (g k : Nat) : Cursor := ⟨g, k, false, none, [], [], false⟩

theorem campSends_of_running {c : Camp} (hst : c.st = .running) : campSends c = true := by
  unfold campSends
  rw [hst]
  rfl

/-- The first frame of the pass goes on within it. -/
theorem settleCursor_firstPass (link n : Nat) (c : Camp) (s : State) :
    settleCursor link n c (firstPass 0 0) { firstPass 0 1 with deferred := false } s = putCursor link n (firstPass 0 1) s := by
  have hnew : firstPass 0 1 ≠ firstPass 0 0 := by decide
  exact (settleCursor_within (new := firstPass 0 1) (old := firstPass 0 0) rfl rfl).trans (if_neg hnew)

section
variable {s : State} {c : Camp} {link : Nat}

/-- The pass begins with the manifest. -/
theorem nextFrame_manifest (hst : c.st = .running) : nextFrame s c link (firstPass 0 0) = some (⟨none, .manifest⟩, firstPass 0 1) := by
  have hmore : 0 + 1 < b2n true + 64 + fieldOf s 0x600 31 24 := by
    rw [show b2n true = 1 from rfl]
    omega
  unfold nextFrame firstPass
  rw [hst]
  dsimp only
  rw [if_neg (by decide), if_pos (by rfl)]
  simp [hmore]

/-- After a frame of its generation the pass goes on with a block. -/
theorem nextFrame_block (hst : c.st = .running) (g : Nat) {k : Nat} (hk : 0 < k) :
    ∃ seed nxt, nextFrame s c link (firstPass g k) = some (⟨none, .block g seed⟩, nxt) := by
  unfold nextFrame firstPass
  rw [hst]
  dsimp only
  rw [if_neg (by decide), if_pos (by rfl), if_neg (by simp [Nat.ne_of_gt hk])]
  exact ⟨_, _, rfl⟩

/-- A block on PLC waits for the one segment that is its source. -/
theorem sendCampFrame_waits {n g : Nat} (seed : Option Nat) (hlink : link < 4) (hg : g < nSeg c.manifest) (hheld : heldSeg s n g = none) :
    sendCampFrame link n c ⟨none, .block g seed⟩ s = .waits (fetchSeg n c g s) := by
  have hsource : genSource s n c link g = .inr [g] := by
    unfold genSource
    simp [hlink, hg, hheld]
  unfold sendCampFrame
  dsimp only
  rw [hsource]
  rfl

theorem camp_fetchSeg {n g : Nat} (hnew : s.camp.fetching.contains (n * 65536 + g) = false) :
    (fetchSeg n c g s).camp = { s.camp with fetching := s.camp.fetching ++ [n * 65536 + g] } := by
  unfold fetchSeg
  dsimp only
  rw [if_neg (ne_true_of_eq_false hnew)]
  exact (sendEntry_changes ..).same .camp (by decide)

theorem campOf_fetchSeg {n g : Nat} (hnew : s.camp.fetching.contains (n * 65536 + g) = false) (m : Nat) :
    campOf (fetchSeg n c g s) m = campOf s m := campOf_congr (by rw [camp_fetchSeg hnew]) m

end

/-! ## REPAIR_ROUND (R219 to R221) -/

/-- The members to whom the record in force goes again. -/
def recordDue (s : State) (c : Camp) (link : Nat) : List Member :=
  if c.st == .activating then (membersOn s c link).filter (·.st = 2)
  else if c.st == .rollingBack then (membersOn s c link).filter fun m => m.st = 3 || m.st = 4 else []

/-- The requests with which a round begins: to every member not heard since the last pass or round. -/
def progressRequests (ms : List Member) (heard : List Nat) : List CampSend :=
  (ms.filter fun m => !heard.contains m.slot).map fun m => ⟨some m.title, .request⟩

/-- A round begins where one may: its time is noted, and its requests join what waits. -/
def beginRound (link n : Nat) (c : Camp) (ms : List Member) (v : Cursor) (s : State) : State :=
  if c.st == .rollingBack || !v.rounds || v.rgen.isSome || !ms.any (fun m => m.st ≤ 1) then s
  else
    let c := (campOf s n).getD c
    putCursor link n { v with todo := v.todo ++ progressRequests ms c.heard, rgen := some 0 }
      (putCamp n (some { c with roundAt := Kv.put link (unitSec s) c.roundAt }) s)

section
variable {link n : Nat} {c : Camp} {s : State}

theorem awaits_beginRound {v : Cursor} {x : CampSend} (ms : List Member) (hv : Kv.get? (link * 64 + n) s.camp.cursors = some v) (hx : x ∈ v.todo) :
    (beginRound link n c ms v s).awaits link n x := by
  unfold beginRound
  split
  · exact ⟨v, hv, hx⟩
  · exact awaits_putCursor _ (List.mem_append_left _ hx)

/-- The records wait first; what is still due stays; then a round may begin. -/
theorem repairRound_eq (hc : campOf s n = some c) (hf : isField s = true) (hserv : serving s = true) (hsends : campSends c = true)
    {t : State} (ht : queueRecords link n c (recordDue s c link).reverse s = t) {old new : Cursor} (hold : cursorOf t c link n = old)
    (hnew : trimmed t c link old = new) :
    repairRound link n s = beginRound link n c (membersOn s c link) new (settleCursor link n c old new t) := by
  subst ht hold hnew
  unfold repairRound
  rw [hc]
  exact if_neg (by simp [hf, hserv, hsends])

theorem repairRound_begins {v : Cursor} (hc : campOf s n = some c) (hf : isField s = true) (hserv : serving s = true) (hv : cursorOf s c link n = v)
    (hrounds : v.rounds = true) (hrgen : v.rgen = none) (htodo : v.todo = []) (hst : c.st = .running) (hbehind : ∃ m ∈ membersOn s c link, m.st ≤ 1) :
    repairRound link n s = putCursor link n { v with todo := progressRequests (membersOn s c link) c.heard, rgen := some 0 }
      (putCamp n (some { c with roundAt := Kv.put link (unitSec s) c.roundAt }) s) := by
  have hany : ((membersOn s c link).any fun m => decide (m.st ≤ 1)) = true := by simpa using hbehind
  have hnone : queueRecords link n c (recordDue s c link).reverse s = s := by
    unfold recordDue
    rw [hst]
    rfl
  rw [repairRound_eq hc hf hserv (campSends_of_running hst) hnone hv (trimmed_of_idle s c link htodo hrgen), settleCursor_self]
  unfold beginRound
  rw [if_neg (by simp [hst, hrounds, hrgen, hany]), hc, htodo]
  rfl

/-- The record waits for a member it concerns whom the link can reach. -/
theorem awaits_repairRound {m : Member} (hc : campOf s n = some c) (hf : isField s = true) (hserv : serving s = true) (hsends : campSends c = true)
    (hon : m ∈ membersOn s c link) (hknown : accessKnown s link m.title = true) (hdue : m ∈ recordDue s c link) :
    (repairRound link n s).awaits link n ⟨some m.title, .record⟩ := by
  obtain ⟨old, hold, hwaits⟩ : (queueRecords link n c (recordDue s c link).reverse s).awaits link n ⟨some m.title, .record⟩ :=
    awaits_queueRecords (List.mem_reverse.mpr hdue)
  have hstays := staysDue_record (queueRecords_changes (link := link) (n := n) (c := c) (recordDue s c link).reverse) hon hknown
  rw [repairRound_eq hc hf hserv hsends rfl (cursorOf_of_some c hold) (trimmed_of_due hwaits hstays)]
  exact awaits_beginRound _ (get?_settleCursor_within c hold rfl rfl) (List.mem_filter.mpr ⟨hwaits, hstays⟩)

end

/-! ## ACTIVATION_BROADCAST and ACT_TIME_LATE_EXPIRY (R200, R216, R220, R221, R225) -/

section
variable {link n : Nat} {c : Camp} {r : ActRec} {s : State}

theorem activationBroadcast_due (hc : campOf s n = some c) (hr : c.act = some r) (hf : isField s = true) (hserv : serving s = true)
    (hst : c.st = .activating ∨ c.st = .rollingBack) (hmem : membersOn s c link ≠ []) (hearly : campNow s < actEnd r) :
    activationBroadcast link n s = if campMay s link then campGo link none (.act r) s else queueRecord link n c none s := by
  unfold activationBroadcast
  rw [hc]
  dsimp only
  rw [hr]
  dsimp only
  rw [if_neg]
  rcases hst with hst | hst <;> simp [hf, hserv, hst, hmem, hearly]

theorem activationBroadcast_late (hc : campOf s n = some c) (hr : c.act = some r) (hlate : actEnd r ≤ campNow s) : activationBroadcast link n s = s := by
  unfold activationBroadcast
  rw [hc]
  dsimp only
  rw [hr]
  exact if_pos (by simp [hlate])

theorem lateExpiry_early (hc : campOf s n = some c) (hr : c.act = some r) (hearly : campNow s < actEnd r) : lateExpiry n s = s := by
  unfold lateExpiry
  rw [hc]
  dsimp only
  rw [hr]
  exact if_pos hearly

/-- What becomes of a member when ACT_TIME + LATE_S has passed: it stays ARMED or ACTIVATED, or is MISSED. -/
def missedUnlessArmed (m : Member) : Member := if m.st = 3 || m.st = 4 then m else { m with st := 8 }

theorem lateExpiry_late (hc : campOf s n = some c) (hr : c.act = some r) (hlate : actEnd r ≤ campNow s) : lateExpiry n s =
    if c.st == .activating then putCamp n (some { c with st := .activated, members := c.members.map fun p => (p.1, missedUnlessArmed p.2) }) s
    else if c.st == .rollingBack then putCamp n (some { c with st := .reverted }) s else s := by
  unfold lateExpiry
  rw [hc]
  dsimp only
  rw [hr]
  exact if_neg (Nat.not_lt.mpr hlate)

/-- Whatever its state, only the campaign itself changes. -/
theorem campOf_lateExpiry_ne (hc : campOf s n = some c) (hr : c.act = some r) (hlate : actEnd r ≤ campNow s) {m : Nat} (hne : m ≠ n) :
    campOf (lateExpiry n s) m = campOf s m := by
  rw [lateExpiry_late hc hr hlate]
  split
  · exact campOf_putCamp_ne hne ..
  · split
    · exact campOf_putCamp_ne hne ..
    · rfl

end

/-! ## CAMPAIGN_CHECKPOINT (R225) -/

theorem campaignCheckpoint_eq (s : State) : campaignCheckpoint s = if isHead s = false then s else if archiveWritable s = false then writeRefused s else
    { s with camp := { s.camp with ckpt := some s.camp.camps } } := by
  unfold campaignCheckpoint
  simp only [Bool.not_eq_true']
  rfl

/-- Settles O46: the frames by the turn of the campaign's slot, the round and the records by what waits in the cursor, the end of an order by
the state it finds. -/
theorem campaignRuns : Obligations.CampaignRuns := by
  unfold Obligations.CampaignRuns
  refine ⟨fun _ _ _ => rfl, ?frame, ?noFrame, ?round, ?records, ?order, ?orderLate, ?expiry, ?expiryEarly, fun s => congrArg Host.Outcome.next (campaignCheckpoint_eq s)⟩
  case frame =>
    intro link n c s hf hserv hlink hpace hidle hready hturn hc hst hmem
    have hsend := campaignFrameSend_turns (campMay_iff.mpr ⟨hf, hserv, hlink, hpace, hidle, hready⟩)
    obtain ⟨l, hturns, hnot⟩ := turns_first hturn
    rw [hturns] at hsend
    have hsends := campSends_of_running hst
    refine ⟨fun hv => ?_, fun g k hplc hv hk hg hheld hnew halone => ?_⟩
    · rw [campTurn_gone (v := firstPass 0 0) l hc hsends hmem hv (trimmed_of_idle s c link rfl rfl) (nextFrame_manifest hst) rfl,
        trimmed_of_idle (v := { firstPass 0 1 with deferred := false }) _ c link rfl rfl, settleCursor_firstPass] at hsend
      refine ⟨_, congrArg Host.Outcome.next hsend, (putCursor_changes ..).same .out (by decide), (putCursor_changes ..).same .plc (by decide),
        (putCursor_changes ..).same .rf (by decide), get?_putCursor .., ?_, ?_⟩
      · rw [camp_putCursor]
        exact Kv.get?_put_same ..
      · rw [camp_putCursor]
        exact (congrArg (fun v : CampState => Kv.get? link v.frames) (camp_campGo ..)).trans (Kv.get?_put_same ..)
    · obtain ⟨seed, nxt, hnext⟩ := nextFrame_block (s := s) (link := link) hst g hk
      rw [campTurn_waits l hc hsends hmem hv (trimmed_of_idle s c link rfl rfl) hnext (sendCampFrame_waits seed hplc hg hheld),
        campTurn_of_none fun m hm => (campOf_fetchSeg hnew m).trans (halone m fun heq => hnot (heq ▸ hm))] at hsend
      exact ⟨_, congrArg Host.Outcome.next hsend, camp_fetchSeg hnew, (fetchSeg_changes ..).same⟩
  case noFrame =>
    intro link s hwhy
    refine congrArg Host.Outcome.next (campaignFrameSend_waits fun hmay => ?_)
    obtain ⟨hf, hserv, hlink, hpace, hidle, hready⟩ := campMay_iff.mp hmay
    rcases hwhy with hwhy | hwhy | hwhy | hwhy | hwhy | hwhy
    · exact Bool.false_ne_true (hwhy.symm.trans hf)
    · exact Bool.false_ne_true (hwhy.symm.trans hserv)
    · exact Nat.not_lt.mpr hlink hwhy
    · exact Nat.not_lt.mpr hwhy hpace
    · exact Bool.false_ne_true (hidle.symm.trans hwhy)
    · exact Bool.false_ne_true (hwhy.symm.trans hready)
  case round =>
    intro link n c v s hc hf hserv hv hrounds hrgen htodo hst hbehind
    have hround := repairRound_begins hc hf hserv hv hrounds hrgen htodo hst hbehind
    have hchanges := (repairRound_changes link n s).same
    rw [hround] at hchanges
    refine ⟨_, congrArg Host.Outcome.next hround, ?_, get?_putCursor .., hchanges⟩
    exact (campOf_putCursor ..).trans (campOf_putCamp_same ..)
  case records =>
    intro link n c m s hc hf hserv hon hknown hst
    have hdue : campSends c = true ∧ m ∈ recordDue s c link := by
      unfold campSends recordDue
      rcases hst with ⟨hst, hm⟩ | ⟨hst, hm⟩
      · simp [hst, hon, hm]
      · simp [hst, hon, hm]
    obtain ⟨v, hv, hwaits⟩ := awaits_repairRound hc hf hserv hdue.1 hon hknown hdue.2
    exact ⟨_, v, rfl, hv, hwaits, (repairRound_changes link n s).same⟩
  case order =>
    intro link n c r s hc hr hf hserv hst hmem hearly
    have horder := activationBroadcast_due hc hr hf hserv hst hmem hearly
    refine ⟨fun hmay => ?_, fun hmay => ?_⟩
    · exact congrArg Host.Outcome.next (horder.trans (if_pos hmay))
    · exact ⟨_, _, congrArg Host.Outcome.next (horder.trans (if_neg (by simp [hmay]))), (queueRecord_changes ..).same, rfl, (awaits_queueRecord none).mem_todo c⟩
  case orderLate => exact fun link n c r s hc hr hlate => congrArg Host.Outcome.next (activationBroadcast_late hc hr hlate)
  case expiry =>
    intro n c r s hc hr hlate
    have hexpiry := lateExpiry_late hc hr hlate
    refine ⟨_, rfl, (lateExpiry_changes n s).same, fun m hne => campOf_lateExpiry_ne hc hr hlate hne, fun hst => ?_, fun hst => ?_, fun hact hroll => ?_⟩
    · rw [hexpiry, if_pos (by simp [hst])]
      exact campOf_putCamp_same ..
    · rw [hexpiry, if_neg (by simp [hst]), if_pos (by simp [hst])]
      exact campOf_putCamp_same ..
    · rw [hexpiry, if_neg (by simpa using hact), if_neg (by simpa using hroll)]
  case expiryEarly => exact fun n c r s hc hr hearly => congrArg Host.Outcome.next (lateExpiry_early hc hr hearly)

end Sys2Proof.Machine
end

section
/-!
SUPPORT. Access links, power line and radio: what an operation leaves of the state of a link, and when the unit may send on one.
-/
namespace Sys2Proof.Machine

/-! ## The state of a link -/

theorem plcOf_congr {s t : State} (h : t.plc = s.plc) (n : Nat) : plcOf t n = plcOf s n := by unfold plcOf; rw [h]

theorem rfOf_congr {s t : State} (h : t.rf = s.rf) (n : Nat) : rfOf t n = rfOf s n := by unfold rfOf; rw [h]

@[simp] theorem plcOf_setPlc_same (n : Nat) (f : PlcState → PlcState) (s : State) : plcOf (setPlc n f s) n = f (plcOf s n) :=
  congrArg (Option.getD · plcEmpty) (Kv.get?_put_same ..)

theorem plcOf_setPlc_ne {n m : Nat} (hne : m ≠ n) (f : PlcState → PlcState) (s : State) : plcOf (setPlc n f s) m = plcOf s m :=
  congrArg (Option.getD · plcEmpty) (Kv.get?_put_ne _ hne)

@[simp] theorem rfOf_setRf_same (n : Nat) (f : RfState → RfState) (s : State) : rfOf (setRf n f s) n = f (rfOf s n) :=
  congrArg (Option.getD · rfEmpty) (Kv.get?_put_same ..)

theorem rfOf_setRf_ne {n m : Nat} (hne : m ≠ n) (f : RfState → RfState) (s : State) : rfOf (setRf n f s) m = rfOf s m :=
  congrArg (Option.getD · rfEmpty) (Kv.get?_put_ne _ hne)

@[simp] theorem plcCountBy_plc (n off k : Nat) (s : State) : (plcCountBy n off k s).plc = s.plc := by
  unfold plcCountBy
  split <;> rfl

@[simp] theorem plcCount_plc (n off : Nat) (s : State) : (plcCount n off s).plc = s.plc := plcCountBy_plc ..

@[simp] theorem plcOf_plcCountBy (n off k : Nat) (s : State) (m : Nat) : plcOf (plcCountBy n off k s) m = plcOf s m := plcOf_congr (by simp) m

@[simp] theorem plcOf_plcCount (n off : Nat) (s : State) (m : Nat) : plcOf (plcCount n off s) m = plcOf s m := plcOf_congr (by simp) m

@[simp] theorem plcOf_plcJournal (n : Nat) (s : State) (m : Nat) : plcOf (plcJournal n s) m = plcOf s m := plcOf_congr (journal_plc ..) m

@[simp] theorem rfOf_rfJournal (n : Nat) (s : State) (m : Nat) : rfOf (rfJournal n s) m = rfOf s m := rfOf_congr (journal_rf ..) m

@[simp] theorem plcOf_count (off : Nat) (s : State) (m : Nat) : plcOf (count off s) m = plcOf s m := rfl

@[simp] theorem rfOf_count (off : Nat) (s : State) (m : Nat) : rfOf (count off s) m = rfOf s m := rfl

@[simp] theorem plcOf_event (isl code data : Nat) (conts : List (List Byte)) (s : State) (m : Nat) : plcOf (event isl code data conts s) m = plcOf s m := rfl

@[simp] theorem plcOf_answered (h : Hdr) (c : Cmd) (r : Reply) (u v : State) (m : Nat) : plcOf (State.answered h c r u v) m = plcOf v m :=
  plcOf_congr (answered_plc ..) m

@[simp] theorem rfOf_answered (h : Hdr) (c : Cmd) (r : Reply) (u v : State) (m : Nat) : rfOf (State.answered h c r u v) m = rfOf v m :=
  rfOf_congr (answered_rf ..) m

theorem plcCountBy_eq {n : Nat} (hn : n < 4) (off k : Nat) (s : State) : plcCountBy n off k s = countBy (plcBase n + off) k s := if_pos hn

theorem plcCount_eq {n : Nat} (hn : n < 4) (off : Nat) (s : State) : plcCount n off s = count (plcBase n + off) s := plcCountBy_eq hn ..

theorem rfCount_eq {n : Nat} (hn : n < 2) (off : Nat) (s : State) : rfCount n off s = count (rfBase n + off) s := if_pos hn

/-- Counting leaves every other register of the link. -/
theorem reg_plcCount_ne {s : State} (hs : s.RegsOk) (n : Nat) {off o : Nat} (hne : o ≠ off) :
    reg (plcCount n off s) (plcBase n + o) = reg s (plcBase n + o) := by
  unfold plcCount plcCountBy
  split
  · exact reg_count_ne hs fun h => hne (Nat.add_left_cancel h)
  · rfl

/-! ## What operations on one link keep -/

/-- From `s` to `t` no link but `n` has changed, and of the state of `n` nothing that `g` shows; `look` reads the state of a link. -/
structure LinkKeeps {σ α : Type} (look : State → Nat → σ) (n : Nat) (g : σ → α) (s t : State) : Prop where
  others : ∀ m, m ≠ n → look t m = look s m
  shown : g (look t n) = g (look s n)

namespace LinkKeeps
variable {σ α β : Type} {look : State → Nat → σ} {n : Nat} {g : σ → α} {s t u : State}

theorem refl : LinkKeeps look n g s s := ⟨fun _ _ => rfl, rfl⟩

theorem trans (h1 : LinkKeeps look n g s t) (h2 : LinkKeeps look n g t u) : LinkKeeps look n g s u :=
  ⟨fun m hm => (h2.others m hm).trans (h1.others m hm), h2.shown.trans h1.shown⟩

/-- What is read from what is kept is kept. -/
theorem mono (h : LinkKeeps look n g s t) (f : α → β) : LinkKeeps look n (fun p => f (g p)) s t := ⟨h.others, congrArg f h.shown⟩

theorem same (h : ∀ m, look t m = look s m) : LinkKeeps look n g s t := ⟨fun m _ => h m, congrArg g (h n)⟩

theorem foldl {ι : Type} {f : State → ι → State} (hf : ∀ v x, LinkKeeps look n g v (f v x)) (l : List ι) (v : State) :
    LinkKeeps look n g v (l.foldl f v) := by
  induction l generalizing v with
  | nil => exact .refl
  | cons x l ih => exact (hf v x).trans (ih _)

end LinkKeeps

theorem setPlc_keeps {α : Type} {g : PlcState → α} {n : Nat} {f : PlcState → PlcState} {s : State} (hf : g (f (plcOf s n)) = g (plcOf s n)) :
    LinkKeeps plcOf n g s (setPlc n f s) :=
  ⟨fun _ hm => plcOf_setPlc_ne hm .., by rw [plcOf_setPlc_same, hf]⟩

theorem setRf_keeps {α : Type} {g : RfState → α} {n : Nat} {f : RfState → RfState} {s : State} (hf : g (f (rfOf s n)) = g (rfOf s n)) :
    LinkKeeps rfOf n g s (setRf n f s) :=
  ⟨fun _ hm => rfOf_setRf_ne hm .., by rw [rfOf_setRf_same, hf]⟩

theorem plcCountBy_keeps {α : Type} {g : PlcState → α} {n k off c : Nat} {s : State} : LinkKeeps plcOf n g s (plcCountBy k off c s) :=
  .same (plcOf_plcCountBy k off c s)

theorem plcCount_keeps {α : Type} {g : PlcState → α} {n k off : Nat} {s : State} : LinkKeeps plcOf n g s (plcCount k off s) := plcCountBy_keeps

theorem emit_keeps {α : Type} {g : PlcState → α} {n : Nat} {o : Out} {s : State} : LinkKeeps plcOf n g s (emit o s) := .same fun _ => rfl

theorem plcJournal_keeps {α : Type} {g : PlcState → α} {n k : Nat} {s : State} : LinkKeeps plcOf n g s (plcJournal k s) := .same (plcOf_plcJournal k s)

/-! ## Sending on power line (R237, R239, R240) -/

/-- A power-line link without what a frame on the line or a route discovery moves: frame counters, requests, discoveries and the next number. -/
def PlcState.lessSeeking (p : PlcState) : PlcState := { p with outCtr := 0, outEnd := 0, rreqs := 0, rreqSec := 0, discover := [], nextTx := 0 }

/-- A power-line link without what a unicast moves: besides, the frames that wait and the use of routes. -/
def PlcState.lessSending (p : PlcState) : PlcState := { p.lessSeeking with awaiting := [], queued := [], routes := [] }

theorem PlcState.lists_of_lessSeeking {p q : PlcState} (h : p.lessSeeking = q.lessSeeking) :
    p.awaiting = q.awaiting ∧ p.queued = q.queued ∧ p.routes = q.routes :=
  have hawait := congrArg PlcState.awaiting h
  have hqueued := congrArg PlcState.queued h
  have hroutes := congrArg PlcState.routes h
  ⟨hawait, hqueued, hroutes⟩

theorem PlcState.pan_of_lessSending {p q : PlcState} (h : p.lessSending = q.lessSending) :
    p.ends = q.ends ∧ p.gmk = q.gmk ∧ p.gmkOld = q.gmkOld ∧ p.gmkIdx = q.gmkIdx :=
  have hends := congrArg PlcState.ends h
  have hkey := congrArg PlcState.gmk h
  have hold := congrArg PlcState.gmkOld h
  have hidx := congrArg PlcState.gmkIdx h
  ⟨hends, hkey, hold, hidx⟩

theorem plcEmit_keeps (n : Nat) (hop dest : Option Nat) (level : PlcMod) (pay : AccessPay) (s : State) :
    LinkKeeps plcOf n PlcState.lessSeeking s (plcEmit n hop dest level pay s) := by
  unfold plcEmit
  dsimp only
  split
  · exact .refl
  · refine .trans (.trans (.trans ?_ (setPlc_keeps rfl)) plcCount_keeps) emit_keeps
    split
    · exact .trans (setPlc_keeps rfl) plcJournal_keeps
    · exact .refl

theorem plcRreqSend_keeps (n : Nat) (pay : AccessPay) (s : State) : LinkKeeps plcOf n PlcState.lessSeeking s (plcRreqSend n pay s) :=
  .trans (.trans (setPlc_keeps rfl) plcCount_keeps) (plcEmit_keeps ..)

theorem plcDiscoverRun_keeps (n : Nat) (s : State) : LinkKeeps plcOf n PlcState.lessSeeking s (plcDiscoverRun n s) := by
  refine .foldl (fun t d => ?_) _ s
  split
  · exact .refl
  · exact .trans (setPlc_keeps rfl) (plcRreqSend_keeps ..)

theorem plcDiscover_keeps (n dest : Nat) (s : State) : LinkKeeps plcOf n PlcState.lessSeeking s (plcDiscover n dest s) := by
  unfold plcDiscover
  dsimp only
  split
  · exact .refl
  · exact .trans (setPlc_keeps rfl) (plcDiscoverRun_keeps ..)

theorem plcUnicast_keeps (n dest : Nat) (pay : AccessPay) (s : State) : LinkKeeps plcOf n PlcState.lessSending s (plcUnicast n dest pay s) := by
  unfold plcUnicast
  dsimp only
  split
  · exact .trans (.trans (setPlc_keeps rfl) (setPlc_keeps rfl)) ((plcDiscover_keeps ..).mono fun p => { p with awaiting := [], queued := [], routes := [] })
  · exact .trans (.trans (setPlc_keeps rfl) (setPlc_keeps rfl)) ((plcEmit_keeps ..).mono fun p => { p with awaiting := [], queued := [], routes := [] })

/-- A transmit failure drops the route of its destination; what it starts then is a discovery (R237, R240). -/
theorem plcFail_keeps (n : Nat) (x : PlcTx) (s : State) : ∃ u, LinkKeeps plcOf n PlcState.lessSeeking u (plcFail n x s) ∧
    (plcOf u n).awaiting = (plcOf s n).awaiting ∧ (plcOf u n).queued = (plcOf s n).queued ∧ (plcOf u n).routes = Kv.del x.dest (plcOf s n).routes := by
  refine ⟨_, plcDiscover_keeps .., ?_⟩
  rw [plcOf_plcCount, plcOf_setPlc_same]
  exact ⟨rfl, rfl, rfl⟩

/-! ## Sending on radio (R264) -/

/-- A transceiver without what queueing a frame moves. -/
def RfState.lessQueue (r : RfState) : RfState := { r with nextTx := 0, queue := [] }

theorem RfState.network_of_lessQueue {r q : RfState} (h : r.lessQueue = q.lessQueue) :
    r.ends = q.ends ∧ r.key = q.key ∧ r.keyOld = q.keyOld ∧ r.keyIdx = q.keyIdx :=
  have hends := congrArg RfState.ends h
  have hkey := congrArg RfState.key h
  have hold := congrArg RfState.keyOld h
  have hidx := congrArg RfState.keyIdx h
  ⟨hends, hkey, hold, hidx⟩

theorem rfQueue_keeps (n : Nat) (dest : Option Nat) (pay : AccessPay) (s : State) : LinkKeeps rfOf n RfState.lessQueue s (rfQueue n dest pay s) :=
  .foldl (fun _ _ => setRf_keeps rfl) _ s

/-! ## When the unit may send (R233, R250) -/

theorem islInRun_congr {s t : State} (hisl : t.isl = s.isl) (hboot : t.boot = s.boot) (n : Nat) : islInRun t n = islInRun s n := by
  unfold islInRun
  rw [islOf_congr hisl, hboot]

theorem islRun_congr {s t : State} (hisl : t.isl = s.isl) (hboot : t.boot = s.boot) (n : Nat) : islRun t n = islRun s n := by
  unfold islRun
  rw [islOf_congr hisl, islInRun_congr hisl hboot]

/-- Reading service depends on the islands, the boot state, the role and the pair alone. -/
theorem serving_congr {s t : State} (hisl : t.isl = s.isl) (hboot : t.boot = s.boot) (hsec : t.sec = s.sec) (hpair : t.pair = s.pair) :
    serving t = serving s := by
  have hrun : islInRun t = islInRun s := funext fun n => islInRun_congr hisl hboot n
  have hrole : roleOf t = roleOf s := by unfold roleOf; rw [hsec, hboot]
  unfold serving granted isLone readingService isField isHead
  rw [hrun, hrole, hboot, hpair]

theorem Changes.serving_eq {W : List Part} {s t : State} (h : Changes W s t) (hisl : Part.isl ∉ W := by decide) (hboot : Part.boot ∉ W := by decide)
    (hsec : Part.sec ∉ W := by decide) (hpair : Part.pair ∉ W := by decide) : serving t = serving s :=
  serving_congr (h.same .isl hisl) (h.same .boot hboot) (h.same .sec hsec) (h.same .pair hpair)

/-- While the fault pin is low, or its wait runs, the link sends nothing (R233). -/
theorem plcEmit_of_fault {n : Nat} {s : State} (h : (plcOf s n).ldPin = false ∨ (plcOf s n).ldWait = true) (hop dest : Option Nat) (level : PlcMod)
    (pay : AccessPay) : plcEmit n hop dest level pay s = s := by
  have hready : plcReady s n = false := by
    unfold plcReady
    rcases h with h | h <;> simp [h]
  exact if_pos (by simp [hready])

end Sys2Proof.Machine
end

section
/-!
SUPPORT. O26: PLC_GMK_ROTATE, PLC_KICK and RF_KEY_ROTATE (R234, R235, R272; the draws are log entries 2 and 3, the radio's key index log entry 134's).
-/
namespace Sys2Proof.Machine

/-- A network key of two free draws, the first of number `d`. -/
def drawnKey (d : Nat) : Key := BitVec.ofNat 128 ((Config.freeDraw d).toNat * 2 ^ 64 + (Config.freeDraw (d + 1)).toNat)

/-- A link whose group master key gives way to a new one. -/
def PlcState.rekeyed (k : Key) (p : PlcState) : PlcState := { p with gmkOld := p.gmk, gmk := some k, gmkIdx := 1 - p.gmkIdx }

/-- A transceiver whose network key gives way to a new one. -/
def RfState.rekeyed (k : Key) (r : RfState) : RfState :=
  { r with keyOld := r.key, keyOldIdx := r.keyIdx, key := some k, keyIdx := r.keyIdx % 255 + 1 }

/-- The new group master key goes to each endpoint. -/
def plcSendKeys (n : Nat) (s : State) : State :=
  match plcKeys (plcOf s n) with
  | k :: _ => (plcOf s n).ends.foldl (fun t e => plcUnicast n e.1 (.newKey k.1 k.2) t) s
  | [] => s

/-- The new network key goes to each endpoint. -/
def rfSendKeys (n : Nat) (s : State) : State :=
  match rfKeys (rfOf s n) with
  | k :: _ => (rfOf s n).ends.foldl (fun t e => rfQueue n (some e.1) (.newKey k.1 k.2) t) s
  | [] => s

theorem plcSendKeys_keeps (n : Nat) (s : State) : LinkKeeps plcOf n PlcState.lessSending s (plcSendKeys n s) := by
  unfold plcSendKeys
  split
  · exact .foldl (fun _ _ => plcUnicast_keeps ..) _ s
  · exact .refl

theorem rfSendKeys_keeps (n : Nat) (s : State) : LinkKeeps rfOf n RfState.lessQueue s (rfSendKeys n s) := by
  unfold rfSendKeys
  split
  · exact .foldl (fun _ _ => rfQueue_keeps ..) _ s
  · exact .refl

/-- A rotation takes the new key and gives it to the endpoints. -/
def plcRotated (n : Nat) (u : State) : State :=
  plcJournal n (plcSendKeys n (setPlc n (PlcState.rekeyed (drawnKey u.draws)) { u with draws := u.draws + 2 }))

def rfRotated (n : Nat) (u : State) : State :=
  rfJournal n (rfSendKeys n (setRf n (fun r => { r with keyIdx := r.keyIdx % 255 + 1 }) (rfDrawKey n u)))

section
variable {n short : Nat} {u : State}

theorem plcGmkRotate_rotates (hn : n ≤ 3) (hrun : islInRun u (5 + n) = true) : plcGmkRotate n u = (plcRotated n u, .done) :=
  if_neg (by simp [hrun, hn])

theorem plcKick_kicks (hn : n ≤ 3) (hrun : islInRun u (5 + n) = true) (hknown : Kv.get? short (plcOf u n).ends ≠ none) : plcKick n short u =
    (plcJournal n (setPlc n (fun p => { p with ends := Kv.del short p.ends }) (plcUnicast n short .kick u)), .done) :=
  if_neg (by simp [hrun, hn, hknown])

theorem rfKeyRotate_rotates (hn : n ≤ 1) (hrun : islInRun u (9 + n) = true) : rfKeyRotate n u = (rfRotated n u, .done) :=
  if_neg (by simp [hrun, hn])

/-- A rotation rekeys the link; sending the new key moves only what sending moves. -/
theorem plcRotated_shows (n : Nat) (u : State) : (∀ m, m ≠ n → plcOf (plcRotated n u) m = plcOf u m) ∧
    (plcOf (plcRotated n u) n).lessSending = ((plcOf u n).rekeyed (drawnKey u.draws)).lessSending := by
  obtain ⟨hothers, hshown⟩ := plcSendKeys_keeps n (setPlc n (PlcState.rekeyed (drawnKey u.draws)) { u with draws := u.draws + 2 })
  unfold plcRotated
  simp only [plcOf_plcJournal]
  refine ⟨fun m hm => (hothers m hm).trans (plcOf_setPlc_ne hm ..), hshown.trans ?_⟩
  rw [plcOf_setPlc_same]
  rfl

theorem rfRotated_shows (n : Nat) (u : State) : (∀ m, m ≠ n → rfOf (rfRotated n u) m = rfOf u m) ∧
    (rfOf (rfRotated n u) n).lessQueue = ((rfOf u n).rekeyed (drawnKey u.draws)).lessQueue := by
  obtain ⟨hothers, hshown⟩ := rfSendKeys_keeps n (setRf n (fun r => { r with keyIdx := r.keyIdx % 255 + 1 }) (rfDrawKey n u))
  unfold rfRotated
  simp only [rfOf_rfJournal]
  refine ⟨fun m hm => (hothers m hm).trans ((rfOf_setRf_ne hm ..).trans (rfOf_setRf_ne hm ..)), hshown.trans ?_⟩
  unfold rfDrawKey
  rw [rfOf_setRf_same, rfOf_setRf_same]
  rfl

theorem plcGmkRotate_refused (hwhy : 3 < n ∨ islInRun u (5 + n) = false) : plcGmkRotate n u = (u, .bad) :=
  if_pos (by simpa using hwhy)

theorem plcKick_refused (hwhy : 3 < n ∨ islInRun u (5 + n) = false ∨ Kv.get? short (plcOf u n).ends = none) : plcKick n short u = (u, .bad) :=
  if_pos (by simpa [or_assoc] using hwhy)

theorem rfKeyRotate_refused (hwhy : 1 < n ∨ islInRun u (9 + n) = false) : rfKeyRotate n u = (u, .bad) :=
  if_pos (by simpa using hwhy)

end

/-- Settles O26: each command is its state after the change of keys or endpoints; what it sends moves nothing that the statement names. -/
theorem networkKeys : Obligations.NetworkKeys := by
  unfold Obligations.NetworkKeys
  refine ⟨?gmk, ?kick, ?key, fun h n short s u => ⟨fun hu hwhy => exec_of_entered rfl hu (plcGmkRotate_refused hwhy),
    fun hu hwhy => exec_of_entered rfl hu (plcKick_refused hwhy), fun hu hwhy => exec_of_entered rfl hu (rfKeyRotate_refused hwhy)⟩⟩
  case gmk =>
    intro h n s u hu hn hrun
    obtain ⟨hothers, hshown⟩ := plcRotated_shows n u
    obtain ⟨hends, hkey, hold, hidx⟩ := PlcState.pan_of_lessSending hshown
    refine ⟨_, exec_of_entered rfl hu (plcGmkRotate_rotates hn hrun), ?_⟩
    simp only [plcOf_answered]
    exact ⟨hold, hidx, hends, hkey, hothers⟩
  case kick =>
    intro h n short e s u hu hn hrun hwf he
    obtain ⟨hothers, hshown⟩ := plcUnicast_keeps n short .kick u
    obtain ⟨hends, hkey, -, -⟩ := PlcState.pan_of_lessSending hshown
    refine ⟨_, exec_of_entered rfl hu (plcKick_kicks hn hrun (by simp [he])), ?_⟩
    simp only [plcOf_answered, plcOf_plcJournal, plcOf_setPlc_same, hends]
    exact ⟨Kv.get?_del_same _ hwf, fun k hk => Kv.get?_del_ne hk hwf, hkey, fun m hm => (plcOf_setPlc_ne hm ..).trans (hothers m hm)⟩
  case key =>
    intro h n s u hu hn hrun
    obtain ⟨hothers, hshown⟩ := rfRotated_shows n u
    obtain ⟨hends, hkey, hold, hidx⟩ := RfState.network_of_lessQueue hshown
    refine ⟨_, exec_of_entered rfl hu (rfKeyRotate_rotates hn hrun), ?_⟩
    simp only [rfOf_answered]
    exact ⟨hold, hidx, hends, hkey, hothers⟩

end Sys2Proof.Machine
end

section
/-!
SUPPORT. O48: zero crossings, the line driver and the timers of power line and radio (R233, R235, R237, R244, R245, R264).
-/
namespace Sys2Proof.Machine

/-! ## Zero crossings (R245) -/

section
variable {n m t : Nat} {s : State}

@[simp] theorem plcOf_setZcLost_same (n : Nat) (s : State) : plcOf (setZcLost n s) n = { plcOf s n with inRange := 0, zcLost := true } := by
  unfold setZcLost
  split
  · rename_i hlost
    rw [plcOf_setPlc_same, ← hlost]
  · rw [plcOf_event, plcOf_setPlc_same]

theorem plcOf_setZcLost_ne (hne : m ≠ n) (s : State) : plcOf (setZcLost n s) m = plcOf s m := by
  unfold setZcLost
  split
  · exact plcOf_setPlc_ne hne ..
  · exact (plcOf_event ..).trans (plcOf_setPlc_ne hne ..)

theorem zcEdge_first (hrun : islRun s (5 + n) = true) (hnone : (plcOf s n).zcEdges = []) :
    zcEdge n t s = setPlc n (fun p => { p with zcEdges := [t] }) s := by
  unfold zcEdge
  rw [if_neg (by simp [hrun]), hnone]

/-- The period since the edge before counts when it is in range. -/
theorem plcOf_zcEdge_inRange {e : Nat} {l : List Nat} (hrun : islRun s (5 + n) = true) (hlast : (plcOf s n).zcEdges = e :: l)
    (hlo : 15385000 ≤ t - e) (hhi : t - e ≤ 22222000) : plcOf (zcEdge n t s) n = { plcOf s n with
      zcEdges := t :: e :: l.take 126, period := t - e, inRange := min 16 ((plcOf s n).inRange + 1),
      zcLost := (plcOf s n).zcLost && decide ((plcOf s n).inRange + 1 < 16) } := by
  unfold zcEdge
  rw [if_neg (by simp [hrun]), hlast]
  dsimp only
  rw [if_neg (by simp [hlo, hhi]), plcOf_setPlc_same, plcOf_setPlc_same]

/-- Out of range it sets ZC_LOST. -/
theorem plcOf_zcEdge_outOfRange {e : Nat} {l : List Nat} (hrun : islRun s (5 + n) = true) (hlast : (plcOf s n).zcEdges = e :: l)
    (hout : t - e < 15385000 ∨ 22222000 < t - e) : plcOf (zcEdge n t s) n = { plcOf s n with
      zcEdges := t :: e :: l.take 126, period := t - e, inRange := 0, zcLost := true } := by
  unfold zcEdge
  rw [if_neg (by simp [hrun]), hlast]
  dsimp only
  rw [if_pos (by simpa using hout), plcOf_setZcLost_same, plcOf_setPlc_same]

theorem plcOf_zcEdge_ne (hne : m ≠ n) : plcOf (zcEdge n t s) m = plcOf s m := by
  unfold zcEdge
  split
  · rfl
  · split
    · exact plcOf_setPlc_ne hne ..
    · dsimp only
      split
      · exact (plcOf_setZcLost_ne hne _).trans (plcOf_setPlc_ne hne ..)
      · exact (plcOf_setPlc_ne hne ..).trans (plcOf_setPlc_ne hne ..)

theorem zcEdge_stopped (hrun : islRun s (5 + n) = false) : zcEdge n t s = s := if_pos (by simp [hrun])

theorem zcLostTimer_runs (hrun : islRun s (5 + n) = true) : zcLostTimer n s = setZcLost n (setPlc n (fun p => { p with zcEdges := [] }) s) := if_pos hrun

theorem zcLostTimer_stopped (hrun : islRun s (5 + n) = false) : zcLostTimer n s = s := if_neg (by simp [hrun])

/-! ## The line driver (R233) -/

theorem ldFaultFall_plc (n : Nat) (s : State) (m : Nat) :
    plcOf (ldFaultFall n s) m = plcOf (setPlc n (fun p => { p with ldPin := false, ldWait := false }) s) m := by
  unfold ldFaultFall
  dsimp only
  split
  · rfl
  · rfl

theorem ldFaultRise_waits (hpin : (plcOf s n).ldPin = false) :
    ldFaultRise n s = setPlc n (fun p => { p with ldPin := true, ldWait := true, ldAt := s.tim.raw }) s := if_neg (by simp [hpin])

theorem ldFaultRise_high (hpin : (plcOf s n).ldPin = true) : ldFaultRise n s = s := if_pos hpin

/-! ## Routes, reassemblies and short addresses (R235, R237, R244, R264) -/

theorem routeTtlExpiry_early {dest : Nat} {e : Route} (he : Kv.get? dest (plcOf s n).routes = some e)
    (hearly : s.tim.clk < e.used + fieldOf s (plcBase n + 0x18) 31 16 * 60 * secClk) : routeTtlExpiry n dest s = s := by
  unfold routeTtlExpiry
  rw [he]
  exact if_pos hearly

theorem routeTtlExpiry_due {dest : Nat} {e : Route} (he : Kv.get? dest (plcOf s n).routes = some e)
    (hdue : e.used + fieldOf s (plcBase n + 0x18) 31 16 * 60 * secClk ≤ s.tim.clk) :
    routeTtlExpiry n dest s = plcJournal n (setPlc n (fun p => { p with routes := Kv.del dest p.routes }) s) := by
  unfold routeTtlExpiry
  rw [he]
  exact if_neg (Nat.not_lt.mpr hdue)

theorem reassemblyTimeout_plc {src tag : Nat} (hn : n < 4) (hin : (src, tag) ∈ (plcOf s n).reasm) : reassemblyTimeout n src tag s =
    count (plcBase n + 0x60) (setPlc n (fun p => { p with reasm := p.reasm.filter (· != (src, tag)) }) s) := by
  unfold reassemblyTimeout
  rw [if_pos hn, if_pos (List.contains_iff_mem.mpr hin), plcCount_eq hn]

theorem reassemblyTimeout_rf {src tag : Nat} (hn : n < 2) (hin : (src, tag) ∈ (rfOf s n).reasm) : reassemblyTimeout (4 + n) src tag s =
    count (rfBase n + 0x64) (setRf n (fun r => { r with reasm := r.reasm.filter (· != (src, tag)) }) s) := by
  unfold reassemblyTimeout
  rw [if_neg (by omega), Nat.add_sub_cancel_left]
  dsimp only
  rw [if_pos (List.contains_iff_mem.mpr hin), rfCount_eq hn]

theorem shortHoldExpiry_plc {k : Nat} (hn : n < 4) (hfield : isField s = true) (hserv : serving s = true) :
    shortHoldExpiry n k s = plcShortExpiry n k s := by
  unfold shortHoldExpiry
  rw [if_neg (by simp [hfield, hserv]), if_pos hn]

theorem shortHoldExpiry_rf {k : Nat} (hfield : isField s = true) (hserv : serving s = true) :
    shortHoldExpiry (4 + n) k s = rfShortExpiry n k s := by
  unfold shortHoldExpiry
  rw [if_neg (by simp [hfield, hserv]), if_neg (by omega), Nat.add_sub_cancel_left]

theorem plcShortExpiry_held {k : Nat} {e : PlcEnd} (he : Kv.get? k (plcOf s n).ends = some e)
    (hheld : recordActive s e.title = true ∨ s.tim.clk < e.heard + fieldOf s (plcBase n + 0x20) 31 16 * 3600 * secClk) : plcShortExpiry n k s = s := by
  unfold plcShortExpiry
  rw [he]
  exact if_pos (by simpa using hheld)

theorem plcShortExpiry_due {k : Nat} {e : PlcEnd} (he : Kv.get? k (plcOf s n).ends = some e) (hact : recordActive s e.title = false)
    (hdue : e.heard + fieldOf s (plcBase n + 0x20) 31 16 * 3600 * secClk ≤ s.tim.clk) :
    plcShortExpiry n k s = plcJournal n (setPlc n (fun p => { p with ends := Kv.del k p.ends }) s) := by
  unfold plcShortExpiry
  rw [he]
  exact if_neg (by simp [hact, hdue])

theorem rfShortExpiry_held {k : Nat} {e : RfEnd} (he : Kv.get? k (rfOf s n).ends = some e)
    (hheld : recordActive s e.title = true ∨ s.tim.clk < e.heard + fieldOf s (rfBase n + 0x10) 7 0 * 3600 * secClk) : rfShortExpiry n k s = s := by
  unfold rfShortExpiry
  rw [he]
  exact if_pos (by simpa using hheld)

theorem rfShortExpiry_due {k : Nat} {e : RfEnd} (he : Kv.get? k (rfOf s n).ends = some e) (hact : recordActive s e.title = false)
    (hdue : e.heard + fieldOf s (rfBase n + 0x10) 7 0 * 3600 * secClk ≤ s.tim.clk) :
    rfShortExpiry n k s = rfJournal n (setRf n (fun r => { r with ends := Kv.del k r.ends }) s) := by
  unfold rfShortExpiry
  rw [he]
  exact if_neg (by simp [hact, hdue])

end

/-- Settles O48: each pin and timer by its cases, and what an operation on one link leaves of the others. -/
theorem plcPinsAndTimers : Obligations.PlcPinsAndTimers := by
  unfold Obligations.PlcPinsAndTimers
  refine ⟨?edge, ?lost, ?stopped, ?fall, ?rise, fun n s hpin => congrArg Host.Outcome.next (ldFaultRise_high hpin), ?resume, ?route, ?reasmPlc,
    ?reasmRf, ?shortPlc, ?shortRf⟩
  case edge =>
    intro n t0 s hrun
    refine ⟨_, rfl, fun m hm => plcOf_zcEdge_ne hm, fun hnone => ?_, fun e l hlast hlo hhi => plcOf_zcEdge_inRange hrun hlast hlo hhi,
      fun e l hlast hout => plcOf_zcEdge_outOfRange hrun hlast hout⟩
    rw [zcEdge_first hrun hnone, plcOf_setPlc_same]
  case lost =>
    intro n s hrun
    refine ⟨_, congrArg Host.Outcome.next (zcLostTimer_runs hrun), fun m hm => (plcOf_setZcLost_ne hm _).trans (plcOf_setPlc_ne hm ..), ?_⟩
    rw [plcOf_setZcLost_same, plcOf_setPlc_same]
  case stopped =>
    exact fun n t0 s hrun => ⟨congrArg Host.Outcome.next (zcEdge_stopped hrun), congrArg Host.Outcome.next (zcLostTimer_stopped hrun)⟩
  case fall =>
    intro n s
    have hpin := (ldFaultFall_plc n s n).trans (plcOf_setPlc_same ..)
    exact ⟨_, rfl, hpin, fun m hm => (ldFaultFall_plc n s m).trans (plcOf_setPlc_ne hm ..), plcEmit_of_fault (.inl (by rw [hpin]))⟩
  case rise =>
    intro n s hpin
    exact ⟨_, congrArg Host.Outcome.next (ldFaultRise_waits hpin), (setPlc_changes ..).same, plcOf_setPlc_same .., fun m hm => plcOf_setPlc_ne hm ..,
      plcEmit_of_fault (.inr (by rw [plcOf_setPlc_same]))⟩
  case resume => exact fun n s => ⟨_, rfl, (ldFaultResume_changes n s).same, fun m hm => plcOf_setPlc_ne hm .., plcOf_setPlc_same ..⟩
  case route =>
    refine fun n dest e s he => ⟨fun hearly => congrArg Host.Outcome.next (routeTtlExpiry_early he hearly), fun hdue => ?_⟩
    refine ⟨_, rfl, (routeTtlExpiry_changes n dest s).same, ?_⟩
    simp only [routeTtlExpiry_due he hdue, plcOf_plcJournal, plcOf_setPlc_same, true_and]
    exact fun m hm => plcOf_setPlc_ne hm ..
  case reasmPlc =>
    intro n src tag s hs hn hin
    have hgone := reassemblyTimeout_plc hn hin
    refine ⟨_, rfl, (reassemblyTimeout_changes n src tag s).same, ?_⟩
    rw [hgone]
    exact ⟨rfl, (plcOf_count ..).trans (plcOf_setPlc_same ..), reg_count_same ((setPlc_changes ..).regsOk hs) _⟩
  case reasmRf =>
    intro n src tag s hs hn hin
    have hgone := reassemblyTimeout_rf hn hin
    refine ⟨_, rfl, (reassemblyTimeout_changes (4 + n) src tag s).same, ?_⟩
    rw [hgone]
    exact ⟨rfl, (rfOf_count ..).trans (rfOf_setRf_same ..), reg_count_same ((setRf_changes ..).regsOk hs) _⟩
  case shortPlc =>
    intro n k e s hn hfield hserv he
    have hplc := shortHoldExpiry_plc (k := k) hn hfield hserv
    refine ⟨fun hheld => congrArg Host.Outcome.next (hplc.trans (plcShortExpiry_held he hheld)), fun hact hdue => ?_⟩
    refine ⟨_, congrArg Host.Outcome.next hplc, (plcShortExpiry_changes n k s).same, ?_⟩
    rw [plcShortExpiry_due he hact hdue, plcOf_plcJournal, plcOf_setPlc_same]
  case shortRf =>
    intro n k e s hfield hserv he
    have hrf := shortHoldExpiry_rf (n := n) (k := k) hfield hserv
    refine ⟨fun hheld => congrArg Host.Outcome.next (hrf.trans (rfShortExpiry_held he hheld)), fun hact hdue => ?_⟩
    refine ⟨_, congrArg Host.Outcome.next hrf, (rfShortExpiry_changes n k s).same, ?_⟩
    rw [rfShortExpiry_due he hact hdue, rfOf_rfJournal, rfOf_setRf_same]

end Sys2Proof.Machine
end

section
/-!
SUPPORT. O49: received frames, missing acknowledgements, route waits and reports of power line (R237, R240, R242, R243, R247, R249, R252;
the noise floor and what a transmit failure does to a route are log entry 133's).
-/
namespace Sys2Proof.Machine

/-! ## What the table of R242 refuses -/

/-- The estimate of the noise floor and the count of erased symbols, which come before the table (R242). -/
def plcListened (n : Nat) (f : PlcFrame) (s : State) : State :=
  let thresh := (plcOf s n).noise + fieldOf s (plcBase n + 0xC) 31 24
  let t := setPlc n (fun p => { p with noise := Config.noiseFloor p.noise (f.peaks.filter (· < thresh)) }) s
  if (plcErased s n f).length = 0 then t else plcCountBy n 0x50 (plcErased s n f).length t

/-- Frames of a bootstrap and beacon requests come without MAC security. -/
def plcUnsecured (f : PlcFrame) : Bool :=
  match f.body with
  | .bootstrap .. | .beaconRequest => true
  | _ => false

/-- MAC security: one of the two keys, the tag, and a counter above the last. -/
def plcSecured (p : PlcState) (f : PlcFrame) : Bool :=
  (p.gmk == some f.key || p.gmkOld == some f.key) && f.secOk &&
    (match Kv.get? f.src p.rxCtr with | some c => decide (c.toNat < f.counter.toNat) | none => true)

/-- The counter of the first row of R242 that discards a frame with `erased` symbols erased, if one does. -/
def plcRefusal (n : Nat) (f : PlcFrame) (erased : Nat) (s : State) : Option Nat :=
  if f.peaks.length * fieldOf s (plcBase n + 0xC) 23 16 < erased * 100 || !f.fcsOk then some 0x44
  else if f.unsupported then some 0x58
  else if !plcUnsecured f && !plcSecured (plcOf s n) f then some 0x54
  else none

section
variable {n off : Nat} {f : PlcFrame} {s : State}

theorem plcFrameRx_stopped (hrun : islRun s (5 + n) = false) : plcFrameRx n f s = s := if_pos (by simp [hrun])

theorem plcFrameRx_noHeader (hrun : islRun s (5 + n) = true) (hfch : f.fchOk = false) : plcFrameRx n f s = plcCount n 0x48 s :=
  (if_neg (by simp [hrun])).trans (if_pos (by simp [hfch]))

theorem plcFrameRx_refused (hrun : islRun s (5 + n) = true) (hfch : f.fchOk = true)
    (hrefused : plcRefusal n f (plcErased s n f).length (plcListened n f s) = some off) : plcFrameRx n f s = plcCount n off (plcListened n f s) := by
  unfold plcRefusal at hrefused
  refine (if_neg (by simp [hrun])).trans ((if_neg (by simp [hfch])).trans ?_)
  split at hrefused
  · rename_i hnoise
    obtain rfl := Option.some.inj hrefused
    exact if_pos hnoise
  · rename_i hclear
    refine (if_neg hclear).trans ?_
    split at hrefused
    · rename_i hunsup
      obtain rfl := Option.some.inj hrefused
      exact if_pos hunsup
    · rename_i hsup
      refine (if_neg hsup).trans ?_
      split at hrefused
      · rename_i hsec
        obtain rfl := Option.some.inj hrefused
        exact if_pos hsec
      · cases hrefused

theorem plcErased_eq_nil (hquiet : ∀ x ∈ f.peaks, x < (plcOf s n).noise + fieldOf s (plcBase n + 0xC) 31 24) : plcErased s n f = [] :=
  List.filter_eq_nil_iff.mpr fun x hx => by simpa using hquiet x hx

theorem plcListened_of_quiet (hquiet : plcErased s n f = []) : plcListened n f s =
    setPlc n (fun p => { p with noise := Config.noiseFloor p.noise (f.peaks.filter (· < p.noise + fieldOf s (plcBase n + 0xC) 31 24)) }) s :=
  if_pos (by rw [hquiet]; rfl)

theorem plcListened_changes (n : Nat) (f : PlcFrame) (s : State) : Changes [.regs, .plc] s (plcListened n f s) := by
  unfold plcListened
  dsimp only
  split
  · exact (setPlc_changes ..).mono rfl
  · exact .step (plcCountBy_changes _ _ _ _ rfl) ((setPlc_changes ..).mono rfl) rfl

theorem plcRefusal_fcs {erased : Nat} (hfcs : f.fcsOk = false) : plcRefusal n f erased s = some 0x44 := if_pos (by simp [hfcs])

theorem plcRefusal_unsupported (hfcs : f.fcsOk = true) (hunsup : f.unsupported = true) : plcRefusal n f 0 s = some 0x58 :=
  (if_neg (by simp [hfcs])).trans (if_pos hunsup)

theorem plcSecured_iff {p : PlcState} : plcSecured p f = true ↔
    (p.gmk = some f.key ∨ p.gmkOld = some f.key) ∧ f.secOk = true ∧ ∀ c, Kv.get? f.src p.rxCtr = some c → c.toNat < f.counter.toNat := by
  unfold plcSecured
  cases Kv.get? f.src p.rxCtr <;> simp [and_assoc]

theorem plcRefusal_unsecured (hfcs : f.fcsOk = true) (hunsup : f.unsupported = false) (hneeds : plcUnsecured f = false)
    (hsec : ¬ plcSecured (plcOf s n) f = true) : plcRefusal n f 0 s = some 0x54 :=
  (if_neg (by simp [hfcs])).trans ((if_neg (by simp [hunsup])).trans (if_pos (by simp [hneeds, hsec])))

theorem plcRefusal_none {erased : Nat} (hfew : erased * 100 ≤ f.peaks.length * fieldOf s (plcBase n + 0xC) 23 16) (hfcs : f.fcsOk = true)
    (hunsup : f.unsupported = false) (hsec : plcSecured (plcOf s n) f = true) : plcRefusal n f erased s = none :=
  (if_neg (by simp [hfcs, hfew])).trans ((if_neg (by simp [hunsup])).trans (if_neg (by simp [hsec])))

theorem plcUnsecured_of_ne (hboot : ∀ a b c d, f.body ≠ .bootstrap a b c d) (hbeacon : f.body ≠ .beaconRequest) : plcUnsecured f = false := by
  unfold plcUnsecured
  split
  · rename_i hbody
    exact absurd hbody (hboot _ _ _ _)
  · rename_i hbody
    exact absurd hbody hbeacon
  · rfl

/-- PLC_IMP holds settings. -/
theorem isSetup_plcImp (hn : n < 4) : isSetup (plcBase n + 0xC) = true := by
  have hall : ∀ k < 4, isSetup (plcBase k + 0xC) = true := by decide
  exact hall n hn

/-! ## A frame that ends at the adaptation layer (R242, R243) -/

/-- An endpoint that is known was heard now. -/
def plcHeardEnd (clk k : Nat) (m : Kv PlcEnd) : Kv PlcEnd :=
  match Kv.get? k m with
  | some e => Kv.put k { e with heard := clk } m
  | none => m

/-- The counters of a delivered frame. -/
def plcTallied (n erased : Nat) (s : State) : State := plcCount n 0x40 (if erased = 0 then s else plcCount n 0x4C s)

/-- A secured frame is counted, its counter kept, and what it tells of its sender learned; with a symbol erased only that it was heard. -/
def plcTaken (n : Nat) (f : PlcFrame) (erased : Nat) (s : State) : State :=
  let s := plcTallied n erased s
  let s := setPlc n (fun p => { p with rxCtr := Kv.put f.src f.counter p.rxCtr,
                                       ends := plcHeardEnd s.tim.clk f.orig (plcHeardEnd s.tim.clk f.src p.ends) }) s
  if erased = 0 then plcClean n f s else plcNeighbour n f.src none s

/-- A frame heard, counted and learned from, short of its acknowledgement. -/
def plcReceived (n : Nat) (f : PlcFrame) (s : State) : State := plcTaken n f (plcErased s n f).length (plcListened n f s)

/-- The MAC acknowledgement of a unicast, when the link may send (R243). -/
def plcAcked (n : Nat) (f : PlcFrame) (s : State) : State := if f.unicast && plcReady s n then emit (.plcAck n f.src) s else s

theorem plcTallied_changes (n erased : Nat) (s : State) : Changes [.regs] s (plcTallied n erased s) :=
  .step (plcCount_changes _ _ _ rfl) (.ite .refl (plcCount_changes _ _ _ rfl)) rfl

theorem plcOf_plcTallied (n erased : Nat) (s : State) (m : Nat) : plcOf (plcTallied n erased s) m = plcOf s m := by
  unfold plcTallied
  rw [plcOf_plcCount]
  split
  · rfl
  · exact plcOf_plcCount ..

theorem plcBody_adapt (hbody : f.body = .otherAdapt) : plcBody n f s = s := by
  unfold plcBody
  rw [hbody]

/-- A frame of the adaptation layer that no row of R242 discards, at a unit that serves, is taken and acknowledged. -/
theorem plcFrameRx_adapt (hrun : islRun s (5 + n) = true) (hfch : f.fchOk = true)
    (hnone : plcRefusal n f (plcErased s n f).length (plcListened n f s) = none) (hserv : serving s = true) (hask : f.ask = false)
    (hbody : f.body = .otherAdapt) : plcFrameRx n f s = plcJournal n (plcAcked n f (plcReceived n f s)) := by
  unfold plcRefusal at hnone
  split at hnone
  · cases hnone
  rename_i hclear
  split at hnone
  · cases hnone
  rename_i hsup
  split at hnone
  · cases hnone
  rename_i hsec
  unfold plcFrameRx
  rw [if_neg (by simp [hrun]), if_neg (by simp [hfch])]
  extract_lets erased thresh noted listened lbp p keyOk clean tallied heard known learned ack acked asked
  have hlbp : lbp = false := by simp only [lbp, hbody]
  have hack : ack = false := by simp only [ack, hbody]
  have htally : serving tallied = true := by
    have hsame : serving (plcTallied n (plcErased s n f).length (plcListened n f s)) = serving s :=
      (plcTallied_changes ..).serving_eq.trans (plcListened_changes ..).serving_eq
    exact hsame.trans hserv
  have hlearned : learned = plcTaken n f erased listened := by
    simp only [learned, known, clean, hlbp, Bool.false_eq_true, if_false, Bool.not_false, Bool.and_true, decide_eq_true_eq]
    rfl
  have hacked : asked = plcAcked n f learned := by
    simp only [asked, acked, hack, hask, Bool.false_and, Bool.false_eq_true, if_false, Bool.not_false, Bool.and_true]
    rfl
  refine (if_neg hclear).trans ((if_neg hsup).trans ((if_neg hsec).trans ((if_neg (by simp [hbody, plcIsData])).trans ((if_neg ?_).trans ?_))))
  · simp [htally]
  · rw [plcBody_adapt hbody, hacked, hlearned]
    rfl

/-! ## What a frame that is taken leaves of its link and of the line driver -/

/-- A link without what a received frame teaches: the noise floor, its sender and the fingerprint and tone map of it. -/
def PlcState.lessLearned (p : PlcState) : PlcState := { p with noise := 0, ends := [], neigh := [], fps := [] }

theorem PlcState.rest_of_lessLearned {p q : PlcState} (h : p.lessLearned = q.lessLearned) : p.rxCtr = q.rxCtr ∧ p.awaiting = q.awaiting ∧
    p.routes = q.routes ∧ p.ldPin = q.ldPin ∧ p.ldWait = q.ldWait ∧ p.modWait = q.modWait :=
  have hctr := congrArg PlcState.rxCtr h
  have hawait := congrArg PlcState.awaiting h
  have hroutes := congrArg PlcState.routes h
  have hpin := congrArg PlcState.ldPin h
  have hwait := congrArg PlcState.ldWait h
  have hmod := congrArg PlcState.modWait h
  ⟨hctr, hawait, hroutes, hpin, hwait, hmod⟩

/-- The counter of a frame's sender is the frame's. -/
def PlcState.heardFrom (f : PlcFrame) (p : PlcState) : PlcState := { p with rxCtr := Kv.put f.src f.counter p.rxCtr }

theorem plcListened_keeps (n : Nat) (f : PlcFrame) (s : State) : LinkKeeps plcOf n PlcState.lessLearned s (plcListened n f s) := by
  unfold plcListened
  dsimp only
  split
  · exact setPlc_keeps rfl
  · exact .trans (setPlc_keeps rfl) plcCountBy_keeps

theorem plcNeighbour_keeps (n src : Nat) (snr : Option (List Int)) (s : State) :
    LinkKeeps plcOf n PlcState.lessLearned s (plcNeighbour n src snr s) := by
  unfold plcNeighbour
  refine setPlc_keeps ?_
  dsimp only
  split
  · rfl
  · rfl

theorem plcFingerprint_keeps (n src : Nat) (snr : List Nat) (s : State) : LinkKeeps plcOf n PlcState.lessLearned s (plcFingerprint n src snr s) := by
  unfold plcFingerprint
  split
  · exact .refl
  · exact .trans (setPlc_keeps rfl) plcCount_keeps

theorem plcSecured_congr {p q : PlcState} (h : p.lessLearned = q.lessLearned) : plcSecured p f = plcSecured q f :=
  have hsame := congrArg (plcSecured · f) h
  hsame

theorem plcClean_keeps (hbody : f.body = .otherAdapt) (s : State) : LinkKeeps plcOf n PlcState.lessLearned s (plcClean n f s) := by
  unfold plcClean
  rw [hbody]
  exact .trans (plcNeighbour_keeps ..) (plcFingerprint_keeps ..)

theorem plcTaken_changes (n : Nat) (f : PlcFrame) (erased : Nat) (s : State) : Changes [.regs, .plc] s (plcTaken n f erased s) := by
  have hnoted : ∀ g : PlcState → PlcState, Changes [.regs, .plc] s (setPlc n g (plcTallied n erased s)) :=
    fun g => .step (setPlc_changes ..) ((plcTallied_changes ..).mono rfl) rfl
  unfold plcTaken
  dsimp only
  split
  · exact .step (plcClean_changes ..) (hnoted _) rfl
  · exact .step (plcNeighbour_changes ..) (hnoted _) rfl

/-- Of the rest of the link, a frame that is taken moves its sender's counter alone. -/
theorem plcTaken_shows (hbody : f.body = .otherAdapt) (erased : Nat) (s : State) :
    (plcOf (plcTaken n f erased s) n).lessLearned = ((plcOf s n).heardFrom f).lessLearned := by
  unfold plcTaken
  dsimp only
  split
  · rw [(plcClean_keeps hbody _).shown, plcOf_setPlc_same, plcOf_plcTallied]
    rfl
  · rw [(plcNeighbour_keeps ..).shown, plcOf_setPlc_same, plcOf_plcTallied]
    rfl

/-- The link may send after what moved neither its line driver nor its module. -/
theorem plcReady_eq {t : State} (h : Changes [.regs, .plc] s t) (hpin : (plcOf t n).ldPin = (plcOf s n).ldPin)
    (hwait : (plcOf t n).ldWait = (plcOf s n).ldWait) (hmod : (plcOf t n).modWait = (plcOf s n).modWait) : plcReady t n = plcReady s n := by
  have hslot : modOk t (2 + n) = modOk s (2 + n) := by
    unfold modOk modSlot
    rw [h.same .mea (by decide)]
  unfold plcReady
  rw [islRun_congr (h.same .isl (by decide)) (h.same .boot (by decide)), h.serving_eq, hpin, hwait, hmod, hslot]

theorem plcReceived_changes (n : Nat) (f : PlcFrame) (s : State) : Changes [.regs, .plc] s (plcReceived n f s) :=
  (plcTaken_changes ..).step (plcListened_changes ..) rfl

theorem plcReceived_shows (hbody : f.body = .otherAdapt) (s : State) :
    (plcOf (plcReceived n f s) n).lessLearned = ((plcOf s n).heardFrom f).lessLearned :=
  have hheard := congrArg (PlcState.heardFrom f) (plcListened_keeps n f s).shown
  (plcTaken_shows hbody _ _).trans hheard

theorem plcReady_plcReceived (hbody : f.body = .otherAdapt) (s : State) : plcReady (plcReceived n f s) n = plcReady s n := by
  obtain ⟨-, -, -, hpin, hwait, hmod⟩ := PlcState.rest_of_lessLearned (plcReceived_shows (n := n) hbody s)
  exact plcReady_eq (plcReceived_changes n f s) hpin hwait hmod

theorem plcJournal_out (n : Nat) (s : State) : (plcJournal n s).out = s.out := journal_out ..

theorem plcAcked_changes (n : Nat) (f : PlcFrame) (s : State) : Changes [.out] s (plcAcked n f s) := .ite (emit_changes ..) .refl

theorem plcAcked_out (n : Nat) (f : PlcFrame) (s : State) :
    (plcAcked n f s).out = (if f.unicast = true ∧ plcReady s n = true then [.plcAck n f.src] else []) ++ s.out := by
  unfold plcAcked
  simp only [Bool.and_eq_true]
  split
  · rfl
  · rfl

/-! ## Frames without acknowledgement (R240, R252) -/

/-- Counting an attempt leaves MAX_RETRIES. -/
theorem retryLimit_counted (hs : s.RegsOk) : fieldOf (plcCount n 0x68 s) (plcBase n + 4) 2 0 = fieldOf s (plcBase n + 4) 2 0 :=
  congrArg (bits · 2 0) (reg_plcCount_ne hs n (by decide))

/-- A retry goes one level down, where no response has brought a map and no level is in force. -/
theorem plcAckTimeout_retries {id : Nat} {x : PlcTx} (hs : s.RegsOk) (hx : (plcOf s n).awaiting.find? (fun t => t.id == id) = some x)
    (htries : x.tries < fieldOf s (plcBase n + 4) 2 0) (hfresh : x.fresh = false)
    (hdown : ∀ y, Kv.get? ((plcTxHop (plcOf s n) x).getD x.dest) (plcOf s n).neigh = some y → y.down = none) :
    ∃ u, LinkKeeps plcOf n PlcState.lessSeeking u (plcAckTimeout n id s) ∧ (plcOf u n).routes = (plcOf s n).routes ∧
      (plcOf u n).awaiting = (plcOf s n).awaiting.map (fun y => if y.id == id then { y with tries := y.tries + 1, level := plcDown x.level, fresh := false } else y) := by
  have hlevel : (Kv.get? ((plcTxHop (plcOf s n) x).getD x.dest) (plcOf s n).neigh).bind (·.down) = none := by
    cases hy : Kv.get? ((plcTxHop (plcOf s n) x).getD x.dest) (plcOf s n).neigh with
    | none => rfl
    | some y => exact hdown y hy
  unfold plcAckTimeout
  rw [hx]
  dsimp only
  rw [if_pos (by rw [retryLimit_counted hs]; exact htries), plcOf_plcCount, hlevel]
  refine ⟨_, (plcEmit_keeps ..).trans plcJournal_keeps, ?_⟩
  rw [plcOf_setPlc_same]
  simp only [hfresh, apply_ite (plcOf · n), plcOf_plcCount, ite_self, Bool.false_eq_true, if_false, and_self]

/-- Retries spent, the frame ends in transmit failure. -/
theorem plcAckTimeout_fails {id : Nat} {x : PlcTx} (hs : s.RegsOk) (hx : (plcOf s n).awaiting.find? (fun t => t.id == id) = some x)
    (htries : fieldOf s (plcBase n + 4) 2 0 ≤ x.tries) : plcAckTimeout n id s =
    plcJournal n (plcFail n x (setPlc n (fun p => { p with awaiting := p.awaiting.filter fun y => y.id != id }) (plcCount n 0x68 s))) := by
  unfold plcAckTimeout
  rw [hx]
  exact if_neg (by rw [retryLimit_counted hs]; exact Nat.not_lt.mpr htries)

/-! ## Frames without a route (R237) -/

theorem plcNoReply_keeps (n dest : Nat) (s : State) : LinkKeeps plcOf n PlcState.lessSeeking s (plcNoReply n dest s) := by
  unfold plcNoReply
  dsimp only
  split
  · split
    · exact .trans (setPlc_keeps rfl) plcCount_keeps
    · exact setPlc_keeps rfl
  · exact setPlc_keeps rfl

theorem routeWaitExpiry_fails {id : Nat} {x : PlcTx} (hx : (plcOf s n).queued.find? (fun t => t.id == id) = some x) : routeWaitExpiry n id s =
    plcJournal n (plcFail n x (plcNoReply n x.dest (setPlc n (fun p => { p with queued := p.queued.filter fun y => y.id != id }) s))) := by
  unfold routeWaitExpiry
  rw [hx]

/-! ## Reports (R247, R249) -/

/-- Is it too early for a report: fewer than `gap` seconds since the last, if there was one? -/
def reportEarly (sent : Option Nat) (gap : Nat) (s : State) : Bool :=
  match sent with
  | some x => decide (unitSec s < x + gap)
  | none => false

theorem reportEarly_iff {sent : Option Nat} {gap : Nat} : reportEarly sent gap s = true ↔ ∃ x, sent = some x ∧ unitSec s < x + gap := by
  cases sent <;> simp [reportEarly]

theorem reportEarly_eq_false {sent : Option Nat} {gap : Nat} (h : ∀ x, sent = some x → x + gap ≤ unitSec s) : reportEarly sent gap s = false := by
  cases sent with
  | none => rfl
  | some x => simpa [reportEarly] using h x rfl

theorem zcReportSend_eq {k : Nat} {e : PlcEnd} {r : ZcReport} (hfield : isField s = true) (hserv : serving s = true)
    (he : Kv.get? k (plcOf s n).ends = some e) (hr : e.zc = some r) : zcReportSend n k s =
    if (plcOf s n).zcLost || reportEarly e.zcSent (fieldOf s (plcBase n + 0x10) 31 16) s then s
    else sendEntry headUnit (.zc r) (setPlc n (fun p => { p with ends := Kv.put k { e with zcSent := some (unitSec s) } p.ends }) s) := by
  unfold zcReportSend
  rw [he]
  dsimp only
  rw [hr, hfield, hserv]
  rfl

theorem fpReportSend_eq {k : Nat} {e : PlcEnd} {a : FpAcc} (hfield : isField s = true) (hserv : serving s = true)
    (he : Kv.get? k (plcOf s n).ends = some e) (ha : Kv.get? e.title.toNat (plcOf s n).fps = some a) : fpReportSend n k s =
    if a.frames < fieldOf s (plcBase n + 0x1C) 23 16 || reportEarly a.sent (fieldOf s (plcBase n + 0x1C) 15 0 * 3600) s then s
    else sendEntry headUnit (.fp ⟨e.title, plcFcc s n, n, a.frames, a.acc.map (· / 256)⟩)
      (setPlc n (fun p => { p with fps := Kv.put e.title.toNat { a with sent := some (unitSec s) } p.fps }) s) := by
  have hacc : ((plcOf s n).fps).getD e.title.toNat ⟨[], 0, none⟩ = a := congrArg (Option.getD · _) ha
  unfold fpReportSend
  rw [he]
  dsimp only
  rw [hacc, hfield, hserv]
  rfl

end

/-- Settles O49: received frames by the rows of R242, transmissions by what ends them, reports by when the last one left. -/
theorem plcFrames : Obligations.PlcFrames := by
  unfold Obligations.PlcFrames
  refine ⟨fun n f s hrun => congrArg Host.Outcome.next (plcFrameRx_stopped hrun), ?header, ?refused, ?taken, ?retry, ?fail, ?wait, ?zc, ?fp⟩
  case header =>
    exact fun n f s hn hrun hfch => congrArg Host.Outcome.next ((plcFrameRx_noHeader hrun hfch).trans (plcCount_eq hn ..))
  case refused =>
    intro n f s w hn hrun hfch hw hquiet
    have hnil := plcErased_eq_nil hquiet
    have hlistened : plcListened n f s = w := (plcListened_of_quiet hnil).trans hw.symm
    have hkept : (plcOf w n).lessLearned = (plcOf s n).lessLearned := hlistened ▸ (plcListened_keeps n f s).shown
    have hsec : plcSecured (plcOf w n) f = plcSecured (plcOf s n) f := plcSecured_congr hkept
    have hcounts : ∀ off, plcRefusal n f 0 w = some off → exec (.plcFrameRx n f) s = .next (count (plcBase n + off) w) := fun off hoff => by
      rw [← plcCount_eq hn, ← hlistened]
      exact congrArg Host.Outcome.next (plcFrameRx_refused hrun hfch (by rw [hnil, hlistened]; exact hoff))
    refine ⟨fun hfcs => hcounts _ (plcRefusal_fcs hfcs), fun hfcs hunsup => hcounts _ (plcRefusal_unsupported hfcs hunsup),
      fun hfcs hunsup hbad hboot hbeacon => hcounts _ (plcRefusal_unsecured hfcs hunsup (plcUnsecured_of_ne hboot hbeacon) ?_)⟩
    rw [hsec, plcSecured_iff]
    rintro ⟨hkey, htag, hctr⟩
    rcases hbad with hbad | ⟨hgmk, hold⟩ | ⟨c, hc, hle⟩
    · exact Bool.false_ne_true (hbad.symm.trans htag)
    · exact hkey.elim hgmk hold
    · exact Nat.not_lt.mpr hle (hctr c hc)
  case taken =>
    intro n f s hs hn hrun hserv hfch hfcs hfew hunsup htag hkey hctr hask hbody
    have hlistened := plcListened_changes n f s
    have hsec : plcSecured (plcOf (plcListened n f s) n) f = true :=
      (plcSecured_congr (plcListened_keeps n f s).shown).trans (plcSecured_iff.mpr ⟨.inl hkey, htag, hctr⟩)
    have hlimit : fieldOf (plcListened n f s) (plcBase n + 0xC) 23 16 = fieldOf s (plcBase n + 0xC) 23 16 :=
      hlistened.fieldOf_eq hs 23 16 (isSetup_plcImp hn)
    have hrx := plcFrameRx_adapt hrun hfch (plcRefusal_none (by rw [hlimit]; exact hfew) hfcs hunsup hsec) hserv hask hbody
    have hreceived := plcReceived_changes n f s
    have hacked := plcAcked_changes n f (plcReceived n f s)
    obtain ⟨hctrs, hawait, hroutes, -⟩ := PlcState.rest_of_lessLearned (plcReceived_shows (n := n) hbody s)
    refine ⟨_, congrArg Host.Outcome.next hrx, ?_, ?_, ?_, ?_, ((plcJournal_changes ..).step (hacked.step (hreceived.mono rfl) rfl) rfl).same⟩
    · rw [plcJournal_out, plcAcked_out, plcReady_plcReceived hbody, hreceived.same .out (by decide)]
    all_goals rw [plcOf_plcJournal, plcOf_congr (hacked.same .plc (by decide))]
    · exact hctrs
    · exact hawait
    · exact hroutes
  case retry =>
    intro n id x s hx htries hfresh hdown hs
    obtain ⟨u, hsent, hroutes, hawait⟩ := plcAckTimeout_retries hs hx htries hfresh hdown
    obtain ⟨hawaitSent, -, hroutesSent⟩ := PlcState.lists_of_lessSeeking hsent.shown
    exact ⟨_, rfl, hawaitSent.trans hawait, hroutesSent.trans hroutes, (plcAckTimeout_changes n id s).same⟩
  case fail =>
    intro n id x s hx htries hs
    have hfails := plcAckTimeout_fails hs hx htries
    obtain ⟨u, hsent, hawait, -, hroutes⟩ := plcFail_keeps n x (setPlc n (fun p => { p with awaiting := p.awaiting.filter fun y => y.id != id }) (plcCount n 0x68 s))
    obtain ⟨hawaitSent, -, hroutesSent⟩ := PlcState.lists_of_lessSeeking hsent.shown
    refine ⟨_, rfl, ?_, ?_, (plcAckTimeout_changes n id s).same⟩
    · rw [hfails, plcOf_plcJournal, hawaitSent, hawait, plcOf_setPlc_same, plcOf_plcCount]
    · rw [hfails, plcOf_plcJournal, hroutesSent, hroutes, plcOf_setPlc_same, plcOf_plcCount]
  case wait =>
    intro n id x s hx
    have hfails := routeWaitExpiry_fails hx
    have hended := (plcNoReply_keeps n x.dest (setPlc n (fun p => { p with queued := p.queued.filter fun y => y.id != id }) s)).shown
    obtain ⟨-, hqueuedEnded, hroutesEnded⟩ := PlcState.lists_of_lessSeeking hended
    obtain ⟨u, hsent, -, hqueued, hroutes⟩ := plcFail_keeps n x (plcNoReply n x.dest (setPlc n (fun p => { p with queued := p.queued.filter fun y => y.id != id }) s))
    obtain ⟨-, hqueuedSent, hroutesSent⟩ := PlcState.lists_of_lessSeeking hsent.shown
    refine ⟨_, rfl, ?_, ?_, (routeWaitExpiry_changes n id s).same⟩
    · rw [hfails, plcOf_plcJournal, hqueuedSent, hqueued, hqueuedEnded, plcOf_setPlc_same]
    · rw [hfails, plcOf_plcJournal, hroutesSent, hroutes, hroutesEnded, plcOf_setPlc_same]
  case zc =>
    intro n k e r s hfield hserv he hr
    have hreport := zcReportSend_eq hfield hserv he hr
    refine ⟨fun hwhy => congrArg Host.Outcome.next (hreport.trans (if_pos ?_)), fun hlost hdue => congrArg Host.Outcome.next (hreport.trans (if_neg ?_))⟩
    · rwa [Bool.or_eq_true, reportEarly_iff]
    · simp [hlost, reportEarly_eq_false hdue]
  case fp =>
    intro n k e a s hfield hserv he ha
    have hreport := fpReportSend_eq hfield hserv he ha
    refine ⟨fun hwhy => congrArg Host.Outcome.next (hreport.trans (if_pos ?_)), fun hframes hdue => congrArg Host.Outcome.next (hreport.trans (if_neg ?_))⟩
    · rwa [Bool.or_eq_true, reportEarly_iff, decide_eq_true_eq]
    · simp [hframes, reportEarly_eq_false hdue]

end Sys2Proof.Machine
end

section
/-!
SUPPORT. O50: timeslots, received frames, scans and the frames of sleepy endpoints on radio (R266, R271, R273, R276 to R280, R282;
the exponents of the back-off and the drawn wait are log entry 134's).
-/
namespace Sys2Proof.Machine

/-! ## What a change of a transceiver leaves of its schedule -/

theorem Kv.put_put {α : Type} (k : Nat) (v w : α) : ∀ m : Kv α, Kv.put k v (Kv.put k w m) = Kv.put k v m
  | [] => by simp [Kv.put]
  | (j, u) :: m => by
    by_cases hlt : k < j
    · simp [Kv.put, hlt]
    · by_cases heq : k = j
      · simp [Kv.put, heq]
      · simp [Kv.put, hlt, heq, Kv.put_put k v w m]

theorem setRf_setRf (n : Nat) (f g : RfState → RfState) (s : State) : setRf n f (setRf n g s) = setRf n (fun r => f (g r)) s := by
  have hput : Kv.put n (f (rfOf (setRf n g s) n)) (Kv.put n (g (rfOf s n)) s.rf) = Kv.put n (f (g (rfOf s n))) s.rf := by
    rw [rfOf_setRf_same, Kv.put_put]
  exact congrArg (fun m => { s with rf := m }) hput

theorem setRf_congr {n : Nat} {f g : RfState → RfState} {s : State} (h : f (rfOf s n) = g (rfOf s n)) : setRf n f s = setRf n g s :=
  congrArg (fun r => { s with rf := Kv.put n r s.rf }) h

theorem rfOf_rfCount (n off : Nat) (s : State) (m : Nat) : rfOf (rfCount n off s) m = rfOf s m := by
  unfold rfCount rfCountBy
  split
  · rfl
  · rfl

theorem setRf_emit (n : Nat) (f : RfState → RfState) (o : Out) (s : State) : setRf n f (emit o s) = emit o (setRf n f s) := rfl

theorem rfOf_emit (o : Out) (s : State) (m : Nat) : rfOf (emit o s) m = rfOf s m := rfl

/-- A transceiver without what belongs to the slot in progress. -/
def RfState.lessSlot (r : RfState) : RfState := { r with asn := 0, inAir := none, sending := none, acks := [], lna := false, listening := [] }

theorem RfState.network_of_lessSlot {r q : RfState} (h : r.lessSlot = q.lessSlot) : r.ends = q.ends ∧ r.queue = q.queue ∧ r.slotMs = q.slotMs ∧
    r.parent = q.parent ∧ r.parentPan = q.parentPan ∧ r.parentMetric = q.parentMetric :=
  have hends := congrArg RfState.ends h
  have hqueue := congrArg RfState.queue h
  have hslot := congrArg RfState.slotMs h
  have hparent := congrArg RfState.parent h
  have hpan := congrArg RfState.parentPan h
  have hmetric := congrArg RfState.parentMetric h
  ⟨hends, hqueue, hslot, hparent, hpan, hmetric⟩

section
variable {n m asn : Nat} {g : RfState → RfState} {s : State} (hg : (g (rfOf s n)).lessSlot = (rfOf s n).lessSlot)
include hg

theorem rfNetwork_setRf (m : Nat) : (rfOf (setRf n g s) m).lessSlot = (rfOf s m).lessSlot := by
  by_cases hm : m = n
  · rw [hm, rfOf_setRf_same, hg]
  · rw [rfOf_setRf_ne hm]

theorem rfAsn_setRf : rfAsn (setRf n g s) m = rfAsn s m := by
  obtain ⟨-, -, hslot, -⟩ := RfState.network_of_lessSlot (rfNetwork_setRf hg m)
  unfold rfAsn rfSlotMs
  rw [hslot, setRf_tim]

theorem rfUplinks_setRf : rfUplinks (setRf n g s) m asn = rfUplinks s m asn := by
  obtain ⟨hends, -⟩ := RfState.network_of_lessSlot (rfNetwork_setRf hg m)
  unfold rfUplinks
  rw [hends]
  rfl

theorem rfPan_setRf : rfPan (setRf n g s) m = rfPan s m := by
  obtain ⟨-, -, -, -, hpan, -⟩ := RfState.network_of_lessSlot (rfNetwork_setRf hg m)
  unfold rfPan
  rw [hpan]
  rfl

theorem rfChannel_setRf {off : Nat} : rfChannel (setRf n g s) m asn off = rfChannel s m asn off := by
  unfold rfChannel
  rw [rfPan_setRf hg]
  rfl

theorem rfMetric_setRf : rfMetric (setRf n g s) = rfMetric s := by
  have hparent : ∀ m, (rfOf (setRf n g s) m).parent = (rfOf s m).parent := fun m =>
    have ⟨_, _, _, hparent, _, _⟩ := RfState.network_of_lessSlot (rfNetwork_setRf hg m)
    hparent
  have hmetric : ∀ m, (rfOf (setRf n g s) m).parentMetric = (rfOf s m).parentMetric := fun m =>
    have ⟨_, _, _, _, _, hmetric⟩ := RfState.network_of_lessSlot (rfNetwork_setRf hg m)
    hmetric
  unfold rfMetric
  simp only [hparent, hmetric]
  rfl

theorem rfBeacon_setRf {metric : Nat} : rfBeacon (setRf n g s) m asn metric = rfBeacon s m asn metric := by
  obtain ⟨-, -, hslot, -⟩ := RfState.network_of_lessSlot (rfNetwork_setRf hg m)
  unfold rfBeacon rfSlotMs
  rw [rfPan_setRf hg, hslot]
  rfl

theorem rfPick_setRf : rfPick (setRf n g s) m asn = rfPick s m asn := by
  obtain ⟨hends, hqueue, -⟩ := RfState.network_of_lessSlot (rfNetwork_setRf hg m)
  unfold rfPick rfDesync rfMayShared
  simp only [hends, hqueue, rfMetric_setRf hg, rfBeacon_setRf hg]
  rfl

end

/-- RF_CONFIG holds settings. -/
theorem isSetup_rfConfig {n : Nat} (hn : n < 2) : isSetup (rfBase n) = true := by
  have hall : ∀ k < 2, isSetup (rfBase k) = true := by decide
  exact hall n hn

theorem Changes.rfChild_eq {W : List Part} {s t : State} {n : Nat} (h : Changes W s t) (hs : s.RegsOk) (hn : n < 2) (hW : Part.setup ∉ W := by decide) :
    rfChild t n = rfChild s n := by
  unfold rfChild
  rw [h.fieldOf_eq hs 30 29 (isSetup_rfConfig hn) hW]

/-! ## What the last slot left (R266, R277, R280) -/

section
variable {n : Nat} {s u : State}

/-- The end of the last slot: its acknowledgements go, its frame and its capped cells that got no answer are counted. -/
def rfSettled (n : Nat) (s : State) : State := rfFailedSlots n (rfAckTimeout n (rfSendAcks (rfOf s n).acks.length n s))

/-- A transceiver between two slots. -/
def RfState.between (r : RfState) : RfState := { r with sending := none, lna := false }

/-- A transceiver between two slots of which the last one left no cell to wait for. -/
def RfState.idle (r : RfState) : RfState := { r with listening := [] }.between

theorem rfSettled_changes (n : Nat) (s : State) : Changes [.regs, .rf, .out, .draws] s (rfSettled n s) :=
  .step (rfFailedSlots_changes ..) (.step (rfAckTimeout_changes ..) ((rfSendAcks_changes ..).mono rfl) rfl) rfl

theorem rfTimeslot_stopped (hrun : islRun s (9 + n) = false) : rfTimeslot n s = s := if_pos (by simp [hrun])

/-- An EB cell that passed without its EB counts as a miss (R283). -/
def rfWatched (n : Nat) (s : State) : State := if (rfOf s n).ebDue then rfEbMiss n s else s

/-- The slot that begins, by the part the unit plays in the network. -/
def rfOwnSlot (n : Nat) (s : State) : State :=
  if rfChild s n then (if serving s then rfChildSlot n s else s)
  else if serving s then rfCoordSlot n s
  else if isStandby s && rfEbSlot s n (rfAsn s n) then setRf n (fun r => { r with ebDue := true }) s
  else s

theorem rfTimeslot_runs (hrun : islRun s (9 + n) = true) :
    rfTimeslot n s = rfJournal n (rfOwnSlot n (rfWatched n (setRf n RfState.between (rfSettled n s)))) := if_neg (by simp [hrun])

theorem rfWatched_of_notDue (hdue : (rfOf s n).ebDue = false) : rfWatched n s = s := if_neg (by simp [hdue])

/-- A coordinator that serves runs a slot of its own once the last one is settled. -/
theorem rfTimeslot_serves (hrun : islRun s (9 + n) = true) (hu : rfSettled n s = u) (hchild : rfChild u n = false) (hdue : (rfOf u n).ebDue = false)
    (hserv : serving s = true) : rfTimeslot n s = rfJournal n (rfCoordSlot n (setRf n RfState.between u)) := by
  have hservu : serving u = true := hu ▸ (rfSettled_changes n s).serving_eq.trans hserv
  rw [rfTimeslot_runs hrun, hu, rfWatched_of_notDue (by rw [rfOf_setRf_same]; exact hdue)]
  exact congrArg (rfJournal n) ((if_neg (Bool.eq_false_iff.mp hchild)).trans (if_pos hservu))

/-- A coordinator that neither serves nor stands by only settles the last slot. -/
theorem rfTimeslot_idles (hrun : islRun s (9 + n) = true) (hu : rfSettled n s = u) (hchild : rfChild u n = false) (hdue : (rfOf u n).ebDue = false)
    (hserv : serving s = false) (hstandby : isStandby s = false) : rfTimeslot n s = rfJournal n (setRf n RfState.between u) := by
  have hservu : serving u = false := hu ▸ (rfSettled_changes n s).serving_eq.trans hserv
  have hstandbyu : isStandby u = false := by
    unfold isStandby at hstandby ⊢
    rwa [← hu, (rfSettled_changes n s).same .pair (by decide)]
  rw [rfTimeslot_runs hrun, hu, rfWatched_of_notDue (by rw [rfOf_setRf_same]; exact hdue)]
  refine congrArg (rfJournal n) ((if_neg (Bool.eq_false_iff.mp hchild)).trans ((if_neg (Bool.eq_false_iff.mp hservu)).trans (if_neg ?_)))
  exact fun h => Bool.false_ne_true (hstandbyu.symm.trans (Bool.and_eq_true_iff.mp h).1)

theorem rfMaxAck_pos (s : State) (n : Nat) : 0 < rfMaxAck s n := by
  have hrate : 0 < rfRate s n := by
    unfold rfRate
    split <;> decide
  exact Nat.div_pos (by omega) hrate

theorem rfSendAcks_none (hacks : (rfOf s n).acks = []) : rfSendAcks (rfOf s n).acks.length n s = s := by
  rw [hacks]
  rfl

/-- One acknowledgement goes alone, at full level. -/
theorem rfSendAcks_one {a : RfAck} (hacks : (rfOf s n).acks = [a]) : rfSendAcks (rfOf s n).acks.length n s =
    emit (.rfAck n [a] (rfAtten s n) (rfExtPa s n)) (setRf n (fun r => { r with acks := [] }) s) := by
  have hnow : decide (a.at_ < a.at_ + rfMaxAck s n * 1000) = true := by simp [rfMaxAck_pos]
  have hall : [a].filter (fun x => decide (x.at_ < a.at_ + rfMaxAck s n * 1000)) = [a] := by rw [List.filter_cons, if_pos hnow]; rfl
  have hgone : setRf n (fun r => { r with acks := r.acks.filter fun x => !decide (x.at_ < a.at_ + rfMaxAck s n * 1000) }) s =
      setRf n (fun r => { r with acks := [] }) s := setRf_congr (by simp only [hacks, List.filter_cons, hnow]; rfl)
  rw [hacks, List.length_singleton, ← hgone]
  unfold rfSendAcks
  rw [hacks]
  exact congrArg (fun go => emit (.rfAck n go (rfAtten s n + rfAckDrop go.length) (rfExtPa s n)) _) hall

theorem rfAckTimeout_none (hair : (rfOf s n).inAir = none) : rfAckTimeout n s = s := by
  unfold rfAckTimeout
  rw [hair]

theorem rfFailedSlots_none (hlisten : (rfOf s n).listening = []) : rfFailedSlots n s = setRf n (fun r => { r with listening := [] }) s := by
  unfold rfFailedSlots
  rw [hlisten]
  rfl

/-! ### An attempt without acknowledgement (R277) -/

/-- What a retry leaves of a frame; after one in a shared cell the back-off lets cells pass, as many as `d` gives. -/
def RfTx.retried (shared : Bool) (d : Nat) (x : RfTx) : RfTx :=
  if shared then { x with tries := x.tries + 1, be := min 7 (x.be + 1), wait := d % 2 ^ min 7 (x.be + 1) } else { x with tries := x.tries + 1 }

/-- The attempt counted, with nothing in the air. -/
def rfUnacked (n : Nat) (s : State) : State := rfCount n 0x6C (setRf n (fun r => { r with inAir := none }) s)

theorem rfOf_rfUnacked (n : Nat) (s : State) : rfOf (rfUnacked n s) n = { rfOf s n with inAir := none } :=
  (rfOf_rfCount ..).trans (rfOf_setRf_same ..)

theorem rfUnacked_changes (n : Nat) (s : State) : Changes [.regs, .rf] s (rfUnacked n s) :=
  .step (rfCount_changes _ _ _ rfl) ((setRf_changes ..).mono rfl) rfl

/-- Counting leaves every other register of the transceiver. -/
theorem reg_rfCount_ne (hs : s.RegsOk) (n : Nat) {off o : Nat} (hne : o ≠ off) : reg (rfCount n off s) (rfBase n + o) = reg s (rfBase n + o) := by
  unfold rfCount rfCountBy
  split
  · exact reg_count_ne hs fun h => hne (Nat.add_left_cancel h)
  · rfl

theorem reg_rfCount_same (hs : s.RegsOk) (hn : n < 2) (off : Nat) : reg (rfCount n off s) (rfBase n + off) = satAdd (reg s (rfBase n + off)) 1 := by
  rw [rfCount_eq hn, reg_count_same hs]

theorem reg_rfUnacked_same (hs : s.RegsOk) (hn : n < 2) : reg (rfUnacked n s) (rfBase n + 0x6C) = satAdd (reg s (rfBase n + 0x6C)) 1 :=
  reg_rfCount_same ((setRf_changes ..).regsOk hs) hn _

theorem reg_rfUnacked_ne (hs : s.RegsOk) (n : Nat) {o : Nat} (hne : o ≠ 0x6C) : reg (rfUnacked n s) (rfBase n + o) = reg s (rfBase n + o) :=
  reg_rfCount_ne ((setRf_changes ..).regsOk hs) n hne

/-- Counting an attempt leaves MAX_RETRIES. -/
theorem rfRetries_unacked (hs : s.RegsOk) (n : Nat) : fieldOf (rfUnacked n s) (rfBase n + 4) 2 0 = fieldOf s (rfBase n + 4) 2 0 :=
  congrArg (bits · 2 0) (reg_rfUnacked_ne hs n (by decide))

section
variable {id : Nat} {sh : Bool} {x : RfTx} (hs : s.RegsOk) (hair : (rfOf s n).inAir = some (id, sh))
  (hx : (rfOf s n).queue.find? (fun t => t.id == id) = some x)
include hs hair hx

theorem rfAckTimeout_retries (htries : x.tries < fieldOf s (rfBase n + 4) 2 0) : ∃ d u, u.rf = (rfUnacked n s).rf ∧ u.regs = (rfUnacked n s).regs ∧
    rfAckTimeout n s = setRf n (fun r => { r with queue := r.queue.map fun y => if y.id != id then y else y.retried sh d }) u := by
  have hfound : (rfOf (rfUnacked n s) n).queue.find? (fun t => t.id == id) = some x := by rw [rfOf_rfUnacked]; exact hx
  have hlimit : x.tries < fieldOf (rfUnacked n s) (rfBase n + 4) 2 0 := by rw [rfRetries_unacked hs]; exact htries
  unfold rfUnacked at hfound hlimit
  unfold rfAckTimeout
  rw [hair]
  dsimp only
  rw [hfound]
  dsimp only
  rw [if_pos hlimit]
  cases sh
  · exact ⟨0, rfUnacked n s, rfl, rfl, rfl⟩
  · exact ⟨_, (draw (rfUnacked n s)).2, rfl, rfl, rfl⟩

theorem rfAckTimeout_fails (htries : fieldOf s (rfBase n + 4) 2 0 ≤ x.tries) : rfAckTimeout n s =
    rfCount n 0x70 (setRf n (fun r => { r with queue := r.queue.filter fun y => y.id != id }) (rfUnacked n s)) := by
  have hfound : (rfOf (rfUnacked n s) n).queue.find? (fun t => t.id == id) = some x := by rw [rfOf_rfUnacked]; exact hx
  have hlimit : ¬ x.tries < fieldOf (rfUnacked n s) (rfBase n + 4) 2 0 := by rw [rfRetries_unacked hs]; exact Nat.not_lt.mpr htries
  unfold rfUnacked at hfound hlimit
  unfold rfAckTimeout
  rw [hair]
  dsimp only
  rw [hfound]
  exact if_neg hlimit

/-- An attempt without acknowledgement is counted; the frame waits for its next, or its retries are spent. -/
theorem rfAckTimeout_shows (hn : n < 2) : ∃ d, rfOf (rfAckTimeout n s) n = { rfOf s n with
      inAir := none, queue := if x.tries < fieldOf s (rfBase n + 4) 2 0 then (rfOf s n).queue.map fun y => if y.id ≠ id then y else y.retried sh d
        else (rfOf s n).queue.filter fun y => y.id != id } ∧
    reg (rfAckTimeout n s) (rfBase n + 0x6C) = satAdd (reg s (rfBase n + 0x6C)) 1 ∧ reg (rfAckTimeout n s) (rfBase n + 0x70) =
      if x.tries < fieldOf s (rfBase n + 4) 2 0 then reg s (rfBase n + 0x70) else satAdd (reg s (rfBase n + 0x70)) 1 := by
  have hcounted := reg_rfUnacked_same hs hn
  have hkept : reg (rfUnacked n s) (rfBase n + 0x70) = reg s (rfBase n + 0x70) := reg_rfUnacked_ne hs n (by decide)
  split
  · rename_i htries
    obtain ⟨d, u, hrf, hregs, htimeout⟩ := rfAckTimeout_retries hs hair hx htries
    have hreg : ∀ off, reg (rfAckTimeout n s) off = reg (rfUnacked n s) off := fun off => by
      rw [htimeout]
      exact congrArg (fun m : Kv W32 => m.getD off (regReset off)) hregs
    refine ⟨d, ?_, (hreg _).trans hcounted, (hreg _).trans hkept⟩
    rw [htimeout, rfOf_setRf_same, rfOf_congr hrf, rfOf_rfUnacked]
    simp only [bne_iff_ne]
  · rename_i hspent
    have htimeout := rfAckTimeout_fails hs hair hx (Nat.not_lt.mp hspent)
    have hregs : (setRf n (fun r => { r with queue := r.queue.filter fun y => y.id != id }) (rfUnacked n s)).RegsOk :=
      (setRf_changes ..).regsOk ((rfUnacked_changes ..).regsOk hs)
    rw [htimeout]
    refine ⟨0, ?_, (reg_rfCount_ne hregs n (by decide)).trans hcounted, (reg_rfCount_same hregs hn _).trans (congrArg (satAdd · 1) hkept)⟩
    rw [rfOf_rfCount, rfOf_setRf_same, rfOf_rfUnacked]

end

/-! ### A capped cell that heard nothing (R280) -/

/-- A neighbour after a failed slot: the third in a row loses it its SYNC. -/
def RfEnd.missed (e : RfEnd) : RfEnd :=
  if 2 ≤ e.failed then { e with failed := e.failed + 1, st := .desync, kaTries := 0 } else { e with failed := e.failed + 1 }

theorem rfOf_rfFailedSlots_one {k : Nat} {e : RfEnd} (hlisten : (rfOf s n).listening = [k]) (he : Kv.get? k (rfOf s n).ends = some e) (hst : e.st = .sync) :
    rfOf (rfFailedSlots n s) n = { rfOf s n with listening := [], ends := Kv.put k e.missed (rfOf s n).ends } := by
  unfold rfFailedSlots RfEnd.missed
  rw [hlisten]
  dsimp only [List.foldl_cons, List.foldl_nil]
  rw [rfOf_setRf_same, he]
  dsimp only
  split
  · rename_i hthird
    have hfailed : 2 ≤ e.failed := by simpa [hst] using hthird
    rw [rfOf_rfCount, rfOf_setRf_same, if_pos hfailed]
  · rename_i hfewer
    have hfailed : ¬ 2 ≤ e.failed := by simpa [hst] using hfewer
    rw [rfOf_setRf_same, if_neg hfailed]

end

/-! ## A coordinator's slot (R266, R271) -/

section
variable {n : Nat} {s : State}

/-- A transceiver in slot `asn` that sends on offset 0 and does not listen. -/
def RfState.sends (asn : Nat) (r : RfState) : RfState := { r with asn := asn, sending := some 0, lna := false }

theorem rfSharedSlot_of_ebSlot {asn : Nat} (h : rfEbSlot s n asn = true) : rfSharedSlot s n asn = false := by
  unfold rfEbSlot at h
  have hfirst : asn % fieldOf s (rfBase n + 8) 31 24 = 0 := by simpa using (Bool.and_eq_true_iff.mp h).1
  unfold rfSharedSlot
  simp [hfirst]

theorem rfBackoff_of_notShared {asn : Nat} (h : rfSharedSlot s n asn = false) : rfBackoff s n asn = s := if_pos (by simp [h])

/-- A shared cell passes for the frames that back off. -/
def RfState.backedOff (shared : Bool) (r : RfState) : RfState :=
  { r with queue := if shared then r.queue.map fun x => if rfMayShared r x then { x with wait := x.wait - 1 } else x else r.queue }

theorem rfBackoff_setRf {asn : Nat} (g : RfState → RfState) :
    rfBackoff (setRf n g s) n asn = setRf n (fun r => (g r).backedOff (rfSharedSlot s n asn)) s := by
  cases hshared : rfSharedSlot s n asn
  · exact rfBackoff_of_notShared hshared
  · have hcell : rfSharedSlot (setRf n g s) n asn = true := hshared
    exact (if_neg (by simp [hcell])).trans (setRf_setRf ..)

theorem rfPick_ebSlot {asn m : Nat} (hslot : rfEbSlot s n asn = true) (hmetric : rfMetric s = some m) :
    rfPick s n asn = some (none, 0, .eb (rfBeacon s n asn m), false) := by
  unfold rfPick
  simp only [hslot, hmetric, if_true]

/-- Attempts that the frame counter is reserved for need no journal. -/
theorem rfEmit_sends {dest : Option Nat} {chan : Nat} {pay : AccessPay} (hmod : modOk s (6 + n) = true) (huntil : (rfOf s n).modUntil ≤ s.tim.raw)
    (hctr : (rfOf s n).outCtr < (rfOf s n).outEnd) : rfEmit n dest chan pay s =
    emit (.rf n dest chan (rfOf s n).outCtr (rfAtten s n) (rfExtPa s n) pay) (rfCount n 0x68 (setRf n (fun r => { r with outCtr := r.outCtr + 1 }) s)) := by
  unfold rfEmit
  rw [if_neg (by simp [hmod, huntil])]
  dsimp only
  rw [if_neg (Nat.not_le.mpr hctr)]

/-- The EB goes out in its slot when no uplink cell is skipped for it. -/
theorem rfCoordSlot_beacons {m : Nat} (hslot : rfEbSlot s n (rfAsn s n) = true) (hmetric : rfMetric s = some m) (hups : rfUplinks s n (rfAsn s n) = []) :
    rfCoordSlot n s = rfEmit n none (rfChannel s n (rfAsn s n) 0) (.eb (rfBeacon s n (rfAsn s n) m)) (setRf n (RfState.sends (rfAsn s n)) s) := by
  have hpick : rfPick (setRf n (fun r => { r with asn := rfAsn s n }) s) n (rfAsn s n) = _ := (rfPick_setRf rfl).trans (rfPick_ebSlot hslot hmetric)
  have hunshared : rfSharedSlot s n (rfAsn s n) = false := rfSharedSlot_of_ebSlot hslot
  have hback : rfBackoff (setRf n (fun r => { r with sending := some 0 }) (setRf n (fun r => { r with asn := rfAsn s n }) s)) n (rfAsn s n) =
      setRf n (fun r => { r with asn := rfAsn s n, sending := some 0 }) s := by
    rw [setRf_setRf]
    exact rfBackoff_of_notShared hunshared
  unfold rfCoordSlot
  dsimp only
  rw [hpick, rfUplinks_setRf rfl, hups]
  refine (congrArg (fun w => rfEmit n none (rfChannel w n (rfAsn s n) 0) (.eb (rfBeacon s n (rfAsn s n) m)) (setRf n (fun r => { r with lna := false }) w))
    hback).trans ?_
  rw [setRf_setRf, rfChannel_setRf rfl]
  rfl

/-- A transceiver in a slot in which it has nothing to send: each lane runs its receive cell, and the frames that back off let a shared cell pass. -/
def rfReceiving (n : Nat) (s : State) : RfState := { rfOf s n with
  asn := rfAsn s n, lna := (rfSharedSlot s n (rfAsn s n) || !(rfUplinks s n (rfAsn s n)).isEmpty) && rfExtPa s n,
  queue := if rfSharedSlot s n (rfAsn s n) then (rfOf s n).queue.map fun x => if rfMayShared (rfOf s n) x then { x with wait := x.wait - 1 } else x
    else (rfOf s n).queue,
  listening := ((rfUplinks s n (rfAsn s n)).filter fun u => match Kv.get? u.1 (rfOf s n).ends with | some e => rfCapped s n e | none => false).map (·.1) }

theorem rfCoordSlot_receives (hpick : rfPick s n (rfAsn s n) = none) : rfCoordSlot n s = setRf n (fun _ => rfReceiving n s) s := by
  unfold rfCoordSlot
  dsimp only
  rw [rfPick_setRf rfl, hpick, rfUplinks_setRf rfl, rfOf_setRf_same]
  dsimp only
  rw [rfBackoff_setRf, setRf_setRf, setRf_setRf]
  exact setRf_congr rfl

end

/-! ## Whole slots of a coordinator -/

section
variable {n : Nat} {s : State} (hrun : islRun s (9 + n) = true) (hchild : rfChild s n = false) (hdue : (rfOf s n).ebDue = false)
include hrun hchild hdue

section
variable (hserv : serving s = true) (hair : (rfOf s n).inAir = none) (hlisten : (rfOf s n).listening = []) (hacks : (rfOf s n).acks = [])
include hserv hair hlisten hacks

/-- With nothing left of the last slot a coordinator begins its own. -/
theorem rfTimeslot_quiet : rfTimeslot n s = rfJournal n (rfCoordSlot n (setRf n RfState.idle s)) := by
  have hsettled : rfSettled n s = setRf n (fun r => { r with listening := [] }) s := by
    unfold rfSettled
    rw [rfSendAcks_none hacks, rfAckTimeout_none hair, rfFailedSlots_none hlisten]
  rw [rfTimeslot_serves hrun hsettled hchild (by rw [rfOf_setRf_same]; exact hdue) hserv, setRf_setRf]
  rfl

theorem rfTimeslot_receives (hpick : rfPick s n (rfAsn s n) = none) :
    rfTimeslot n s = rfJournal n (setRf n (fun _ => { rfReceiving n s with sending := none }) s) := by
  have hidle : (rfOf s n).idle.lessSlot = (rfOf s n).lessSlot := rfl
  have hasn : rfAsn (setRf n RfState.idle s) n = rfAsn s n := rfAsn_setRf hidle
  have hreceiving : rfReceiving n (setRf n RfState.idle s) = { rfReceiving n s with sending := none } := by
    unfold rfReceiving
    rw [hasn, rfUplinks_setRf hidle, rfOf_setRf_same]
    rfl
  rw [rfTimeslot_quiet hrun hchild hdue hserv hair hlisten hacks, rfCoordSlot_receives (by rw [hasn, rfPick_setRf hidle]; exact hpick), setRf_setRf, hreceiving]

/-- The EB of a slot, sent under a frame counter that is reserved. -/
theorem rfTimeslot_beacons {m : Nat} (hslot : rfEbSlot s n (rfAsn s n) = true) (hmetric : rfMetric s = some m) (hmod : modOk s (6 + n) = true)
    (huntil : (rfOf s n).modUntil ≤ s.tim.raw) (hctr : (rfOf s n).outCtr < (rfOf s n).outEnd) (hups : rfUplinks s n (rfAsn s n) = []) :
    rfTimeslot n s = rfJournal n (emit
      (.rf n none (rfChannel s n (rfAsn s n) 0) (rfOf s n).outCtr (rfAtten s n) (rfExtPa s n) (.eb (rfBeacon s n (rfAsn s n) m)))
      (rfCount n 0x68 (setRf n (fun r => { r.idle.sends (rfAsn s n) with outCtr := r.outCtr + 1 }) s))) := by
  have hidle : (rfOf s n).idle.lessSlot = (rfOf s n).lessSlot := rfl
  have hasn : rfAsn (setRf n RfState.idle s) n = rfAsn s n := rfAsn_setRf hidle
  have hcoord := rfCoordSlot_beacons (s := setRf n RfState.idle s) (by rw [hasn]; exact hslot) ((rfMetric_setRf hidle).trans hmetric)
    (by rw [hasn, rfUplinks_setRf hidle]; exact hups)
  rw [rfTimeslot_quiet hrun hchild hdue hserv hair hlisten hacks, hcoord, hasn, rfChannel_setRf hidle, rfBeacon_setRf hidle, setRf_setRf,
    rfEmit_sends (s := setRf n (fun r => r.idle.sends (rfAsn s n)) s) hmod (by rw [rfOf_setRf_same]; exact huntil) (by rw [rfOf_setRf_same]; exact hctr),
    setRf_setRf, rfOf_setRf_same]
  rfl

end

section
variable (hserv : serving s = false) (hstandby : isStandby s = false)
include hserv hstandby

theorem rfTimeslot_acknowledges {a : RfAck} (hair : (rfOf s n).inAir = none) (hlisten : (rfOf s n).listening = []) (hacks : (rfOf s n).acks = [a]) :
    rfTimeslot n s = rfJournal n (emit (.rfAck n [a] (rfAtten s n) (rfExtPa s n)) (setRf n (fun r => { r.idle with acks := [] }) s)) := by
  have hsettled : rfSettled n s = emit (.rfAck n [a] (rfAtten s n) (rfExtPa s n)) (setRf n (fun r => { r with listening := [], acks := [] }) s) := by
    unfold rfSettled
    rw [rfSendAcks_one hacks, rfAckTimeout_none (by rw [rfOf_emit, rfOf_setRf_same]; exact hair),
      rfFailedSlots_none (by rw [rfOf_emit, rfOf_setRf_same]; exact hlisten), setRf_emit, setRf_setRf]
  rw [rfTimeslot_idles hrun hsettled hchild (by rw [rfOf_emit, rfOf_setRf_same]; exact hdue) hserv hstandby, setRf_emit, setRf_setRf]
  rfl

variable (hs : s.RegsOk) (hn : n < 2) (hacks : (rfOf s n).acks = [])
include hs hn hacks

/-- Of a slot that only settles an attempt without acknowledgement, what that attempt left shows. -/
theorem rfTimeslot_unacked {id : Nat} {sh : Bool} {x : RfTx} (hlisten : (rfOf s n).listening = []) (hair : (rfOf s n).inAir = some (id, sh))
    (hx : (rfOf s n).queue.find? (fun t => t.id == id) = some x) :
    rfOf (rfTimeslot n s) n = (rfOf (rfAckTimeout n s) n).idle ∧ (rfTimeslot n s).regs = (rfAckTimeout n s).regs := by
  obtain ⟨d, hrf, -⟩ := rfAckTimeout_shows hs hair hx hn
  have hsettled : rfSettled n s = setRf n (fun r => { r with listening := [] }) (rfAckTimeout n s) := by
    unfold rfSettled
    rw [rfSendAcks_none hacks, rfFailedSlots_none (by rw [hrf]; exact hlisten)]
  have hcoord : rfChild (rfAckTimeout n s) n = false := ((rfAckTimeout_changes n s).rfChild_eq hs hn).trans hchild
  rw [rfTimeslot_idles hrun hsettled hcoord (by rw [rfOf_setRf_same, hrf]; exact hdue) hserv hstandby, rfOf_rfJournal, rfOf_setRf_same, rfOf_setRf_same]
  exact ⟨rfl, journal_regs ..⟩

theorem rfOf_rfTimeslot_missed {k : Nat} {e : RfEnd} (hair : (rfOf s n).inAir = none) (hlisten : (rfOf s n).listening = [k])
    (he : Kv.get? k (rfOf s n).ends = some e) (hst : e.st = .sync) :
    rfOf (rfTimeslot n s) n = { (rfOf s n).idle with ends := Kv.put k e.missed (rfOf s n).ends } := by
  have hmissed := rfOf_rfFailedSlots_one hlisten he hst
  have hsettled : rfSettled n s = rfFailedSlots n s := by
    unfold rfSettled
    rw [rfSendAcks_none hacks, rfAckTimeout_none hair]
  have hcoord : rfChild (rfFailedSlots n s) n = false := ((rfFailedSlots_changes n s).rfChild_eq hs hn).trans hchild
  rw [rfTimeslot_idles hrun hsettled hcoord (by rw [hmissed]; exact hdue) hserv hstandby, rfOf_rfJournal, rfOf_setRf_same, hmissed]
  rfl

end

end

/-! ## What the table of R276 refuses -/

/-- The highest frame counter accepted from the sender of a frame, under its key index. -/
def rfHighest (s : State) (n : Nat) (f : RfFrame) : Option W32 :=
  (Kv.get? f.src (rfOf s n).ends).bind fun e => f.sec.bind fun x => Kv.get? x.idx e.ctrs

/-- The counter of a frame. -/
def RfFrame.ctr (f : RfFrame) : Nat := (f.sec.map (·.counter.toNat)).getD 0

/-- A frame of a join, in a shared cell and from a source that has not joined. -/
def rfJoins (s : State) (n : Nat) (f : RfFrame) : Bool :=
  match f.body with
  | .join .. => f.lane = 0 && rfSharedSlot s n (rfOf s n).asn && !(Kv.get? f.src (rfOf s n).ends).isSome
  | _ => false

/-- Security fails: an unsecured frame that is no beacon and no join, or a key that is not the network's. -/
def rfInsecure (s : State) (n : Nat) (f : RfFrame) : Bool :=
  match f.sec with
  | none => !rfJoins s n f && (match f.body with | .eb .. => false | _ => true)
  | some x => !(rfKeys (rfOf s n)).contains (x.idx, x.key)

/-- A frame counter below the highest accepted. -/
def rfReplayed (s : State) (n : Nat) (f : RfFrame) : Bool :=
  match rfHighest s n f with
  | some h => decide (f.ctr < h.toNat)
  | none => false

/-- A frame counter equal to the highest accepted. -/
def rfRepeated (s : State) (n : Nat) (f : RfFrame) : Bool :=
  match rfHighest s n f with
  | some h => decide (f.ctr = h.toNat)
  | none => false

/-- The counter of the first row of R276 that discards a frame unacknowledged, if one does. -/
def rfRefusal (n : Nat) (f : RfFrame) (s : State) : Option Nat :=
  if !f.fcsOk then some 0x44
  else if f.unsupported || fieldOf s (rfBase n + 4) 26 16 < f.length then some 0x5C
  else if !f.destOk then some 0x48
  else if rfInsecure s n f then some 0x4C
  else if rfReplayed s n f then some 0x50
  else if rfIsData f.body && f.unicast && serving s && iqPaused (4 + n) s then some 0x58
  else none

/-- May a frame be acknowledged: a unicast other than a beacon or an acknowledgement, to a unit that serves? -/
def rfMayAck (s : State) (f : RfFrame) : Bool := serving s && f.unicast && (match f.body with | .eb .. | .ack => false | _ => true)

/-- A frame that is delivered: its neighbour updated, its acknowledgement due, its body handled. -/
def rfDelivered (n : Nat) (f : RfFrame) (s : State) : State :=
  let t := rfCount n 0x40 s
  if !serving t then
    match f.body with
    | .eb pan asn m => rfEb n pan asn m f.offset t
    | _ => rfData n f t
  else
    let u := rfNeighbour n f t
    rfJournal n (rfBody n f (if rfMayAck s f && f.ackReq then rfAckFrame n f u else u))

/-- A frame that no row of R276 discards unacknowledged. -/
def rfAdmitted (n : Nat) (f : RfFrame) (s : State) : State :=
  if rfRepeated s n f then (if rfMayAck s f then rfAckFrame n f (rfCount n 0x54 s) else rfCount n 0x54 s) else rfDelivered n f s

section
variable {n : Nat} {f : RfFrame} {s : State}

theorem rfFrameRx_ignored (hwhy : islRun s (9 + n) = false ∨ rfHears s n f = false) : rfFrameRx n f s = s := if_pos (by simpa using hwhy)

theorem rfFrameRx_heard (hrun : islRun s (9 + n) = true) (hhears : rfHears s n f = true) :
    rfFrameRx n f s = (rfRefusal n f s).elim (rfAdmitted n f s) (rfCount n · s) := by
  unfold rfRefusal
  simp only [apply_ite fun o => Option.elim o (rfAdmitted n f s) (rfCount n · s)]
  exact if_neg (by simp [hrun, hhears])

theorem rfRefusal_fcs (hfcs : f.fcsOk = false) : rfRefusal n f s = some 0x44 := if_pos (by simp [hfcs])

theorem rfRefusal_unsupported (hfcs : f.fcsOk = true) (hwhy : f.unsupported = true ∨ fieldOf s (rfBase n + 4) 26 16 < f.length) :
    rfRefusal n f s = some 0x5C := (if_neg (by simp [hfcs])).trans (if_pos (by simpa using hwhy))

section
variable (hfcs : f.fcsOk = true) (hsup : f.unsupported = false) (hlen : f.length ≤ fieldOf s (rfBase n + 4) 26 16)
include hfcs hsup hlen

theorem rfRefusal_misdirected (hdest : f.destOk = false) : rfRefusal n f s = some 0x48 := by
  unfold rfRefusal
  simp [hfcs, hsup, Nat.not_lt.mpr hlen, hdest]

variable {x : RfSec} (hdest : f.destOk = true) (hsec : f.sec = some x)
include hdest hsec

theorem rfRefusal_insecure (hkey : (x.idx, x.key) ∉ rfKeys (rfOf s n)) : rfRefusal n f s = some 0x4C := by
  have hbad : rfInsecure s n f = true := by simp [rfInsecure, hsec, hkey]
  unfold rfRefusal
  simp [hfcs, hsup, Nat.not_lt.mpr hlen, hdest, hbad]

variable {e : RfEnd} (hkey : (x.idx, x.key) ∈ rfKeys (rfOf s n)) (he : Kv.get? f.src (rfOf s n).ends = some e)
include hkey he

theorem rfRefusal_replayed {h : W32} (hhigh : Kv.get? x.idx e.ctrs = some h) (hlow : x.counter.toNat < h.toNat) : rfRefusal n f s = some 0x50 := by
  have hgood : rfInsecure s n f = false := by simp [rfInsecure, hsec, hkey]
  have hold : rfReplayed s n f = true := by simp [rfReplayed, rfHighest, RfFrame.ctr, he, hsec, hhigh, hlow]
  unfold rfRefusal
  simp [hfcs, hsup, Nat.not_lt.mpr hlen, hdest, hgood, hold]

/-- A keep-alive with a counter above the highest accepted is delivered. -/
theorem rfFrameRx_keepAlive (hrun : islRun s (9 + n) = true) (hhears : rfHears s n f = true)
    (hctr : ∀ h, Kv.get? x.idx e.ctrs = some h → h.toNat < x.counter.toNat) (hbody : f.body = .keepAlive) : rfFrameRx n f s = rfDelivered n f s := by
  have hhigh : rfHighest s n f = Kv.get? x.idx e.ctrs := by simp [rfHighest, he, hsec]
  have hgood : rfInsecure s n f = false := by simp [rfInsecure, hsec, hkey]
  have hnew : rfReplayed s n f = false ∧ rfRepeated s n f = false := by
    unfold rfReplayed rfRepeated RfFrame.ctr
    rw [hhigh, hsec]
    cases hh : Kv.get? x.idx e.ctrs with
    | none => exact ⟨rfl, rfl⟩
    | some h =>
      have habove := hctr h hh
      exact ⟨decide_eq_false (Nat.not_lt.mpr (Nat.le_of_lt habove)), decide_eq_false (Nat.ne_of_gt habove)⟩
  have hnone : rfRefusal n f s = none := by
    unfold rfRefusal
    simp [hfcs, hsup, Nat.not_lt.mpr hlen, hdest, hgood, hnew.1, hbody, rfIsData]
  rw [rfFrameRx_heard hrun hhears, hnone]
  exact if_neg (Bool.eq_false_iff.mp hnew.2)

end

/-! ## What a delivered frame leaves of its neighbour (R273, R275, R278, R280) -/

/-- The drift estimate is all that a measured offset changes. -/
theorem rfDrift_eq (e : RfEnd) (o : Int) (t : Nat) : ∃ d, rfDrift e o t = { e with drift := d } := by
  unfold rfDrift
  dsimp only
  split
  · exact ⟨e.drift, rfl⟩
  · exact ⟨_, rfl⟩

/-- A neighbour after a delivered frame, by the local clock: its drift, its SYNC, its counter. -/
def RfEnd.heardIn (f : RfFrame) (clk : Nat) (e : RfEnd) : RfEnd :=
  let d := rfDrift e f.offset (clk / 65536)
  let d := if e.st == .desync then { d with st := .sync, corrAt := clk / 65536, kaTries := 0 } else d
  { d with heard := clk, failed := 0, ctrs := match f.sec with | some x => Kv.put x.idx x.counter d.ctrs | none => d.ctrs }

theorem RfEnd.heardIn_sleepy (f : RfFrame) (clk : Nat) (e : RfEnd) : (e.heardIn f clk).sleepy = e.sleepy := by
  obtain ⟨d, hd⟩ := rfDrift_eq e f.offset (clk / 65536)
  unfold RfEnd.heardIn
  rw [hd]
  dsimp only
  split
  · rfl
  · rfl

theorem RfEnd.heardIn_shows {x : RfSec} (hsec : f.sec = some x) (clk : Nat) (e : RfEnd) :
    (e.heardIn f clk).ctrs = Kv.put x.idx x.counter e.ctrs ∧ (e.heardIn f clk).st = (if e.st = .desync then .sync else e.st) := by
  obtain ⟨d, hd⟩ := rfDrift_eq e f.offset (clk / 65536)
  unfold RfEnd.heardIn
  rw [hd, hsec]
  by_cases hst : e.st = .desync
  · simp [hst]
  · simp [hst]

/-- A frame that arrives in a widened window is counted (R279). -/
def rfWidened (n : Nat) (e : RfEnd) (s : State) : State := if rfGuard s n < rfWindow s n e then rfCount n 0x78 s else s

theorem rfOf_rfWidened (n : Nat) (e : RfEnd) (s : State) (m : Nat) : rfOf (rfWidened n e s) m = rfOf s m := by
  unfold rfWidened
  split
  · exact rfOf_rfCount ..
  · rfl

theorem rfWidened_changes (n : Nat) (e : RfEnd) (s : State) : Changes [.regs] s (rfWidened n e s) := .ite (rfCount_changes _ _ _ rfl) .refl

theorem rfOf_rfNeighbour {e : RfEnd} (he : Kv.get? f.src (rfOf s n).ends = some e) : rfOf (rfNeighbour n f s) n =
    { rfOf s n with ends := Kv.put f.src (e.heardIn f s.tim.clk) (rfOf s n).ends, listening := (rfOf s n).listening.filter (· != f.src) } := by
  have hform : rfNeighbour n f s = setRf n (fun r => { r with
      ends := Kv.put f.src (e.heardIn f (rfWidened n e s).tim.clk) r.ends, listening := r.listening.filter (· != f.src) }) (rfWidened n e s) := by
    unfold rfNeighbour
    rw [he]
    rfl
  rw [hform, rfOf_setRf_same, rfOf_rfWidened, (rfWidened_changes n e s).same .tim (by decide)]

theorem rfDelivered_keepAlive (hserv : serving s = true) (hbody : f.body = .keepAlive) (huni : f.unicast = true) (hreq : f.ackReq = true) :
    rfDelivered n f s = rfJournal n (rfAckFrame n f (rfNeighbour n f (rfCount n 0x40 s))) := by
  have hservc : serving (rfCount n 0x40 s) = true := (rfCount_changes _ _ _ rfl).serving_eq.trans hserv
  have hack : (rfMayAck s f && f.ackReq) = true := by simp [rfMayAck, hserv, huni, hreq, hbody]
  refine (if_neg (by simp [hservc])).trans ?_
  rw [if_pos hack]
  unfold rfBody
  rw [hbody]

/-- A neighbour whose time is corrected; `pend` says that it was told of frames that wait for it. -/
def RfEnd.corrected (now : Nat) (pend : Bool) (e : RfEnd) : RfEnd := { e with corrAt := now, polled := e.polled || pend }

/-- Does a frame wait for the sleepy neighbour that `src` names? -/
def RfEnd.pends (src : Nat) (queue : List RfTx) (e : RfEnd) : Bool := e.sleepy && queue.any fun x => x.dest = some src

theorem rfAckFrame_coordinates {e : RfEnd} (hchild : rfChild s n = false) (he : Kv.get? f.src (rfOf s n).ends = some e) : rfAckFrame n f s =
    setRf n (fun r => { r with
      acks := r.acks ++ [⟨f.src, f.lane, some (-f.offset), e.pends f.src (rfOf s n).queue, f.endAt⟩],
      ends := Kv.put f.src (e.corrected (clkNow s) (e.pends f.src (rfOf s n).queue)) r.ends }) s := by
  unfold rfAckFrame
  dsimp only
  rw [he, hchild]
  rfl

/-- A keep-alive that is delivered moves its neighbour and what is due to it, and nothing else of the transceiver. -/
theorem rfOf_rfDelivered_keepAlive {e : RfEnd} (hs : s.RegsOk) (hn : n < 2) (hserv : serving s = true) (hchild : rfChild s n = false)
    (he : Kv.get? f.src (rfOf s n).ends = some e) (hbody : f.body = .keepAlive) (huni : f.unicast = true) (hreq : f.ackReq = true) :
    rfOf (rfDelivered n f s) n = { rfOf s n with
      acks := (rfOf s n).acks ++ [⟨f.src, f.lane, some (-f.offset), e.pends f.src (rfOf s n).queue, f.endAt⟩],
      ends := Kv.put f.src ((e.heardIn f s.tim.clk).corrected (clkNow s) (e.pends f.src (rfOf s n).queue)) (rfOf s n).ends,
      listening := (rfOf s n).listening.filter (· != f.src) } := by
  have hcounted : rfOf (rfCount n 0x40 s) n = rfOf s n := rfOf_rfCount ..
  have hclk : (rfCount n 0x40 s).tim = s.tim := (rfCount_changes n 0x40 s rfl).same .tim (by decide)
  have hheard := rfOf_rfNeighbour (n := n) (f := f) (s := rfCount n 0x40 s) (by rw [hcounted]; exact he)
  rw [hcounted, hclk] at hheard
  have hchanges : Changes [.regs, .rf] s (rfNeighbour n f (rfCount n 0x40 s)) := .step (rfNeighbour_changes ..) ((rfCount_changes _ _ _ rfl).mono rfl) rfl
  have hnow : clkNow (rfNeighbour n f (rfCount n 0x40 s)) = clkNow s := congrArg (·.clk / 65536) (hchanges.same .tim (by decide))
  have hpends : (e.heardIn f s.tim.clk).pends f.src (rfOf s n).queue = e.pends f.src (rfOf s n).queue :=
    congrArg (· && _) (e.heardIn_sleepy f s.tim.clk)
  rw [rfDelivered_keepAlive hserv hbody huni hreq, rfOf_rfJournal,
    rfAckFrame_coordinates ((hchanges.rfChild_eq hs hn).trans hchild) (by rw [hheard]; exact Kv.get?_put_same ..), rfOf_setRf_same, hheard, hnow]
  dsimp only
  rw [hpends, Kv.put_put]

end

/-! ## Scans and sleepy endpoints (R273, R282) -/

section
variable {n id : Nat} {l : List ScanHit} {s : State}

theorem rfScan_stopped (hrun : islRun s (9 + n) = false) : rfScan n l s = s := if_pos (by simp [hrun])

theorem rfScan_stays (hchild : rfChild s n = true) (hwhy : (rfOf s n).parent ≠ 0 ∨ scanChoice (fieldOf s (rfBase n + 0x14) 31 16) l = none) :
    rfScan n l s = s := by
  unfold rfScan
  dsimp only
  rw [if_pos hchild]
  split
  · rfl
  · split
    · rfl
    · rename_i hfree
      obtain ⟨hparent, -⟩ : (rfOf s n).parent = 0 ∧ serving s = true := by simpa using hfree
      rw [hwhy.resolve_left fun hne => hne hparent]

/-- A child takes the network chosen and what its EB tells. -/
theorem rfScan_joins {h : ScanHit} (hrun : islRun s (9 + n) = true) (hchild : rfChild s n = true) (hfree : (rfOf s n).parent = 0) (hserv : serving s = true)
    (hchoice : scanChoice (fieldOf s (rfBase n + 0x14) 31 16) l = some h) : ∃ pan heard, rfScan n l s = setRf n (fun r => { r with
      parent := if fieldOf s (rfBase n + 0x14) 31 16 = 0xFFFF then 3 else 1, parentPan := h.pan, parentMetric := h.metric, asn := h.asn, key := some h.key,
      keyIdx := h.keyIdx, myCells := h.cells, sync := true, misses := 0, secondary := pan, secHeard := heard }) s := by
  unfold rfScan
  rw [if_neg (by simp [hrun]), if_pos hchild, if_neg (by simp [hfree, hserv])]
  dsimp only
  rw [hchoice]
  exact ⟨_, _, rfl⟩

/-- Has frame `x` been queued for a sleepy endpoint for more than 600 s, under `id`? -/
def rfStale (s : State) (n id : Nat) (x : RfTx) : Bool :=
  x.id == id && decide (x.since + 600000000000 < s.tim.raw) && (match x.dest.bind (Kv.get? · (rfOf s n).ends) with | some e => e.sleepy | none => false)

theorem sleepyExpiry_stale (hstale : (rfOf s n).queue.any (rfStale s n id) = true) :
    sleepyExpiry n id s = rfCount n 0x70 (setRf n (fun r => { r with queue := r.queue.filter fun y => y.id != id }) s) := if_pos hstale

theorem sleepyExpiry_waits (hfresh : (rfOf s n).queue.any (rfStale s n id) = false) : sleepyExpiry n id s = s := if_neg (Bool.eq_false_iff.mp hfresh)

end

/-- Settles O50: slots by what the last one left and what this one does, received frames by the rows of R276, scans and queued frames by their cases. -/
theorem radioSlots : Obligations.RadioSlots := by
  unfold Obligations.RadioSlots
  refine ⟨fun n s hrun => congrArg Host.Outcome.next (rfTimeslot_stopped hrun), ?slot, ?ack, ?unacked, ?missed, ?frame,
    fun n f s hhears => congrArg Host.Outcome.next (rfFrameRx_ignored (.inr hhears)),
    fun n f l s hrun => ⟨congrArg Host.Outcome.next (rfFrameRx_ignored (.inl hrun)), congrArg Host.Outcome.next (rfScan_stopped hrun)⟩,
    ?joins, fun n l s hchild hwhy => congrArg Host.Outcome.next (rfScan_stays hchild hwhy), ?stale, ?fresh⟩
  case slot =>
    intro n s hrun hchild hserv hair hlisten hdue hacks
    refine ⟨fun hpick => ?_, fun m hslot hmetric hmod huntil hctr hups => ?_⟩
    · have hreceives := rfTimeslot_receives hrun hchild hdue hserv hair hlisten hacks hpick
      refine ⟨_, congrArg Host.Outcome.next hreceives, ((rfJournal_changes ..).step ((setRf_changes ..).mono rfl) rfl).same, ?_⟩
      rw [rfOf_rfJournal, rfOf_setRf_same]
      rfl
    · have hbeacons := rfTimeslot_beacons hrun hchild hdue hserv hair hlisten hacks hslot hmetric hmod huntil hctr hups
      have hcounted : ∀ u, Changes [.regs] u (rfCount n 0x68 u) := fun u => rfCount_changes _ _ _ rfl
      refine ⟨_, congrArg Host.Outcome.next hbeacons, ?_, (journal_out ..).trans (congrArg (_ :: ·) ((hcounted _).same .out (by decide))), ?_⟩
      · exact (Changes.step (rfJournal_changes ..) (.step (emit_changes ..) ((hcounted _).step ((setRf_changes ..).mono rfl) rfl) rfl) rfl).same
      · rw [rfOf_rfJournal, rfOf_emit, rfOf_rfCount, rfOf_setRf_same]
        simp only [RfState.sends, RfState.idle, RfState.between, hlisten]
  case ack =>
    intro n a s hrun hchild hserv hstandby hdue hlisten hair hacks
    have hacked := rfTimeslot_acknowledges hrun hchild hdue hserv hstandby hair hlisten hacks
    refine ⟨_, congrArg Host.Outcome.next hacked, ?_, ?_, journal_out ..⟩
    · exact (Changes.step (rfJournal_changes ..) (.step (emit_changes ..) ((setRf_changes ..).mono rfl) rfl) rfl).same
    · rw [rfOf_rfJournal, rfOf_emit, rfOf_setRf_same]
  case unacked =>
    intro n id sh x s hn hrun hchild hserv hstandby hdue hlisten hacks hair hx hs
    obtain ⟨hrf, hregs⟩ := rfTimeslot_unacked hrun hchild hdue hserv hstandby hs hn hacks hlisten hair hx
    obtain ⟨d, hshown, hcounted, hfailed⟩ := rfAckTimeout_shows hs hair hx hn
    have hreg : ∀ off, reg (rfTimeslot n s) off = reg (rfAckTimeout n s) off := fun off => congrArg (fun m : Kv W32 => m.getD off (regReset off)) hregs
    refine ⟨_, d, rfl, ?_, ?_, (hreg _).trans hcounted, (hreg _).trans hfailed⟩
    all_goals rw [hrf, hshown]; rfl
  case missed =>
    intro n k e s hn hrun hchild hserv hstandby hdue hlisten hacks hair he hst hs
    refine ⟨_, rfl, ?_⟩
    rw [rfOf_rfTimeslot_missed hrun hchild hdue hserv hstandby hs hn hacks hair hlisten he hst]
    exact ⟨Kv.get?_put_same .., rfl⟩
  case frame =>
    intro n f s hn hrun hhears
    have hcounts : ∀ off, rfRefusal n f s = some off → exec (.rfFrameRx n f) s = .next (count (rfBase n + off) s) := fun off hoff => by
      rw [← rfCount_eq hn]
      exact congrArg Host.Outcome.next ((rfFrameRx_heard hrun hhears).trans (by rw [hoff]; rfl))
    refine ⟨fun hfcs => hcounts _ (rfRefusal_fcs hfcs), fun hfcs hwhy => hcounts _ (rfRefusal_unsupported hfcs hwhy), fun hfcs hsup hlen =>
      ⟨fun hdest => hcounts _ (rfRefusal_misdirected hfcs hsup hlen hdest),
      fun hdest x hsec hkey => hcounts _ (rfRefusal_insecure hfcs hsup hlen hdest hsec hkey),
      fun hdest x e h hsec hkey he hhigh hlow => hcounts _ (rfRefusal_replayed hfcs hsup hlen hdest hsec hkey he hhigh hlow), ?_⟩⟩
    intro hdest x e hsec hkey he hctr hbody huni hreq hserv hchild hs
    have hrx := rfFrameRx_keepAlive hfcs hsup hlen hdest hsec hkey he hrun hhears hctr hbody
    obtain ⟨hctrs, hst⟩ := RfEnd.heardIn_shows hsec s.tim.clk e
    refine ⟨_, (e.heardIn f s.tim.clk).corrected (clkNow s) (e.pends f.src (rfOf s n).queue), congrArg Host.Outcome.next hrx, ?_⟩
    rw [rfOf_rfDelivered_keepAlive hs hn hserv hchild he hbody huni hreq]
    exact ⟨rfl, Kv.get?_put_same .., hctrs, rfl, rfl, hst, rfl⟩
  case joins =>
    intro n l h s hrun hchild hfree hserv hchoice
    obtain ⟨pan, heard, hjoins⟩ := rfScan_joins hrun hchild hfree hserv hchoice
    refine ⟨_, congrArg Host.Outcome.next hjoins, (setRf_changes ..).same, ?_⟩
    rw [rfOf_setRf_same]
    exact ⟨rfl, rfl, rfl, rfl, rfl, rfl, rfl, rfl, rfl, fun m hm => rfOf_setRf_ne hm ..⟩
  case stale =>
    intro n id s hn ⟨x, hx, hid, hold, k, e, hdest, he, hsleepy⟩
    have hstale : (rfOf s n).queue.any (rfStale s n id) = true :=
      List.any_eq_true.mpr ⟨x, hx, by simp [rfStale, hid, hold, hdest, he, hsleepy]⟩
    refine ⟨_, rfl, (sleepyExpiry_changes n id s).same, ?_⟩
    rw [sleepyExpiry_stale hstale, rfOf_rfCount, rfOf_setRf_same]
  case fresh =>
    intro n id s hfresh
    refine congrArg Host.Outcome.next (sleepyExpiry_waits (List.any_eq_false.mpr fun x hx hstale => ?_))
    simp only [rfStale, Bool.and_eq_true, beq_iff_eq, decide_eq_true_eq] at hstale
    obtain ⟨⟨hid, hold⟩, -⟩ := hstale
    exact Nat.not_lt.mpr (hfresh x hx hid) hold

end Sys2Proof.Machine
end

section
/-!
SUPPORT. Ethernet ports: what a port's state reads as after a write, and what counting leaves and adds (R304, R305).
-/
namespace Sys2Proof.Machine

theorem ethOf_congr {s t : State} (h : t.eth = s.eth) (p : Bool) : ethOf t p = ethOf s p := by unfold ethOf; rw [h]

theorem ethOf_setEth_same {s : State} (hs : s.MapsOk) (p : Bool) (v : EthState) : ethOf (setEth p v s) p = v := by
  obtain ⟨-, -, heth, -⟩ := hs
  exact Kv.getD_putOr_same _ _ _ heth

theorem b2n_not_ne (p : Bool) : b2n (!p) ≠ b2n p := by cases p <;> decide

theorem ethOf_setEth_other {s : State} (hs : s.MapsOk) (p : Bool) (v : EthState) : ethOf (setEth p v s) (!p) = ethOf s (!p) := by
  obtain ⟨-, -, heth, -⟩ := hs
  exact Kv.getD_putOr_ne _ _ _ heth (b2n_not_ne p)

@[simp] theorem ethCount_eth (p : Bool) (i n : Nat) (s : State) : (ethCount p i n s).eth = s.eth := (ethCount_changes p i n s).same .eth (by decide)

@[simp] theorem ethCount_relay (p : Bool) (i n : Nat) (s : State) : (ethCount p i n s).relay = s.relay := (ethCount_changes p i n s).same .relay (by decide)

@[simp] theorem ethCount_tim (p : Bool) (i n : Nat) (s : State) : (ethCount p i n s).tim = s.tim := (ethCount_changes p i n s).same .tim (by decide)

@[simp] theorem ethOf_ethCount (p : Bool) (i n : Nat) (s : State) (q : Bool) : ethOf (ethCount p i n s) q = ethOf s q := ethOf_congr (by simp) q

/-- ETH_STATUS.LINK depends on the port's own state and on its island. -/
theorem ethLink_congr {s t : State} {p : Bool} (hisl : t.isl = s.isl) (hboot : t.boot = s.boot) (hlink : (ethOf t p).link = (ethOf s p).link) :
    ethLink t p = ethLink s p := by
  unfold ethLink
  rw [islInRun_congr hisl hboot, hlink]

/-- A counter adds what is counted, modulo 2^32. -/
theorem reg_ethCount_same {s : State} (hs : s.RegsOk) (p : Bool) {i : Nat} (hi : i < 48) (n : Nat) :
    reg (ethCount p i n s) (ethBase p + 0x100 + 4 * i) = reg s (ethBase p + 0x100 + 4 * i) + BitVec.ofNat 32 n := by
  have hcounted := reg_setReg_same hs (ethBase p + 0x100 + 4 * i) (reg s (ethBase p + 0x100 + 4 * i) + BitVec.ofNat 32 n)
  have hflagged : ∀ b, reg (setField (ethBase p + 0x10 + 4 * (i / 32)) b b 1 (setReg (ethBase p + 0x100 + 4 * i)
      (reg s (ethBase p + 0x100 + 4 * i) + BitVec.ofNat 32 n) s)) (ethBase p + 0x100 + 4 * i) = reg s (ethBase p + 0x100 + 4 * i) + BitVec.ofNat 32 n :=
    fun b => (reg_setField_ne (RegsOk_setReg hs _ _) _ _ _ (by omega)).trans hcounted
  unfold ethCount
  rw [if_neg (Nat.not_le.mpr hi)]
  dsimp only
  split
  · split
    · exact (reg_congr (msix_regs ..) _).trans (hflagged _)
    · exact hflagged _
  · exact hcounted

end Sys2Proof.Machine
end

section
/-!
SUPPORT. O8: the checks of a received frame, in the order of R297.
-/
namespace Sys2Proof.Machine

/-- An accepted frame counted: the frame, its bytes, its address kind and its length (R304). -/
def ethTallied (p : Bool) (f : EthFrame) (s : State) : State :=
  ethCount p (lengthBin f.length) 1 (ethCount p (2 + macKind f.dest) 1 (ethCount p 1 f.length (ethCount p 0 1 s)))

theorem ethTallied_changes (p : Bool) (f : EthFrame) (s : State) : Changes [.regs, .host, .out] s (ethTallied p f s) :=
  .step (ethCount_changes ..) (.step (ethCount_changes ..) (.step (ethCount_changes ..) (ethCount_changes ..) rfl) rfl) rfl

section
variable {p : Bool} {f : EthFrame} {s : State} (hlink : ethLink s p = true)
include hlink

theorem ethFrameRx_codeErrs (hcode : f.codeErrs ≠ 0) : ethFrameRx p f s = ethCount p 34 f.codeErrs (ethCount p 6 1 s) := by
  simp [ethFrameRx, hlink, hcode]

variable (hcode : f.codeErrs = 0)
include hcode

theorem ethFrameRx_runt (hshort : f.length < 64) : ethFrameRx p f s = ethCount p 7 1 s := by
  simp [ethFrameRx, hlink, hcode, hshort]

variable (hlo : 64 ≤ f.length)
include hlo

theorem ethFrameRx_tooLong (hlong : fieldOf s (ethBase p) 25 12 < f.length) : ethFrameRx p f s = ethCount p (if f.fcsOk then 8 else 9) 1 s := by
  simp [ethFrameRx, hlink, hcode, Nat.not_lt.mpr hlo, hlong]

variable (hhi : f.length ≤ fieldOf s (ethBase p) 25 12)
include hhi

theorem ethFrameRx_badFcs (hfcs : f.fcsOk = false) : ethFrameRx p f s = ethCount p 5 1 s := by
  simp [ethFrameRx, hlink, hcode, Nat.not_lt.mpr hlo, Nat.not_lt.mpr hhi, hfcs]

variable (hfcs : f.fcsOk = true)
include hfcs

theorem ethFrameRx_filtered (hdest : ethAccepts s p f.dest = false) : ethFrameRx p f s = ethCount p 10 1 s := by
  simp [ethFrameRx, hlink, hcode, Nat.not_lt.mpr hlo, Nat.not_lt.mpr hhi, hfcs, hdest]

variable (hdest : ethAccepts s p f.dest = true)
include hdest

theorem ethFrameRx_badVlan (hvlan : vlanOk s p f.vlan = false) : ethFrameRx p f s = ethCount p 11 1 s := by
  simp [ethFrameRx, hlink, hcode, Nat.not_lt.mpr hlo, Nat.not_lt.mpr hhi, hfcs, hdest, hvlan]

variable (hvlan : vlanOk s p f.vlan = true)
include hvlan

/-- A frame that passes every check, without room in the receive buffer (R299). -/
theorem ethFrameRx_noRoom (hroom : f.noRoom = true) : ethFrameRx p f s = ethCount p 13 f.length (ethCount p 12 1 s) := by
  simp [ethFrameRx, hlink, hcode, Nat.not_lt.mpr hlo, Nat.not_lt.mpr hhi, hfcs, hdest, hvlan, hroom]

/-- A frame accepted is counted, then given to its receiver. -/
theorem ethFrameRx_accepted (hroom : f.noRoom = false) : ethFrameRx p f s = ethPay p f.pay (ethTallied p f s) := by
  simp [ethFrameRx, hlink, hcode, Nat.not_lt.mpr hlo, Nat.not_lt.mpr hhi, hfcs, hdest, hvlan, hroom, ethTallied]

end

/-- Settles O8: each check by the frame it stops, and a counter by what counting stores. -/
theorem frameChecks : Obligations.FrameChecks := by
  unfold Obligations.FrameChecks
  refine ⟨fun p f s hlink => ⟨?code, ?runt, ?long, ?fcs, ?filtered, ?vlan⟩, fun p i n s hs hi => ⟨reg_ethCount_same hs p hi n, (ethCount_changes ..).same⟩⟩
  case code => exact fun hcode => congrArg Host.Outcome.next (ethFrameRx_codeErrs hlink hcode)
  case runt => exact fun hcode hshort => congrArg Host.Outcome.next (ethFrameRx_runt hlink hcode hshort)
  case long => exact fun hcode hlo hlong => congrArg Host.Outcome.next (ethFrameRx_tooLong hlink hcode hlo hlong)
  case fcs => exact fun hcode hlo hhi hfcs => congrArg Host.Outcome.next (ethFrameRx_badFcs hlink hcode hlo hhi hfcs)
  case filtered => exact fun hcode hlo hhi hfcs hdest => congrArg Host.Outcome.next (ethFrameRx_filtered hlink hcode hlo hhi hfcs hdest)
  case vlan => exact fun hcode hlo hhi hfcs hdest hvlan => congrArg Host.Outcome.next (ethFrameRx_badVlan hlink hcode hlo hhi hfcs hdest hvlan)

end Sys2Proof.Machine
end

section
/-!
SUPPORT. O51: leaving LPI, frames given to a port, LLDPDUs and links (R295, R301 to R303).
-/
namespace Sys2Proof.Machine

/-! ## Leaving LPI (R303) -/

/-- A port out of LPI; when it leaves it, frames wait until the raw time `wake`. -/
def EthState.awake (wake : Nat) (v : EthState) : EthState := { v with lpi := false, wakeAt := if v.lpi then wake else v.wakeAt }

section
variable {s : State} {p : Bool}

theorem leaveLpi_of_awake (hlpi : (ethOf s p).lpi = false) : leaveLpi p s = s := if_pos (by simp [hlpi])

theorem leaveLpi_of_lpi (hlpi : (ethOf s p).lpi = true) : leaveLpi p s =
    ethCount p 39 ((s.tim.raw - (ethOf s p).lpiAt) / 1000) (setEth p { ethOf s p with lpi := false, wakeAt := s.tim.raw + txWake s p * 1000 } s) :=
  if_neg (by simp [hlpi])

end

theorem leaveLpi_eq (p : Bool) (s : State) : leaveLpi p s = if (ethOf s p).lpi then ethCount p 39 ((s.tim.raw - (ethOf s p).lpiAt) / 1000)
    (setEth p { ethOf s p with lpi := false, wakeAt := s.tim.raw + txWake s p * 1000 } s) else s := by
  split
  case isTrue hlpi => exact leaveLpi_of_lpi hlpi
  case isFalse hlpi => exact leaveLpi_of_awake (by simpa using hlpi)

theorem EthState.awake_of_awake {v : EthState} (hlpi : v.lpi = false) (wake : Nat) : v.awake wake = v := by
  cases v
  cases hlpi
  rfl

theorem EthState.awake_of_lpi {v : EthState} (hlpi : v.lpi = true) (wake : Nat) : v.awake wake = { v with lpi := false, wakeAt := wake } := by
  unfold EthState.awake
  rw [hlpi]
  rfl

theorem ethOf_leaveLpi {s : State} (hs : s.MapsOk) (p : Bool) : ethOf (leaveLpi p s) p = (ethOf s p).awake (s.tim.raw + txWake s p * 1000) := by
  cases hlpi : (ethOf s p).lpi with
  | false => rw [leaveLpi_of_awake hlpi, EthState.awake_of_awake hlpi]
  | true => rw [leaveLpi_of_lpi hlpi, EthState.awake_of_lpi hlpi, ethOf_ethCount, ethOf_setEth_same hs]

theorem ethOf_leaveLpi_other {s : State} (hs : s.MapsOk) (p : Bool) : ethOf (leaveLpi p s) (!p) = ethOf s (!p) := by
  cases hlpi : (ethOf s p).lpi with
  | false => rw [leaveLpi_of_awake hlpi]
  | true => rw [leaveLpi_of_lpi hlpi, ethOf_ethCount, ethOf_setEth_other hs]

/-! ## Frames given to a port (R301) -/

theorem islInRun_of_ethLink {s : State} {p : Bool} (hlink : ethLink s p = true) : islInRun s (11 + b2n p) = true := (Bool.and_eq_true_iff.mp hlink).1

/-- With room for it and its tag a frame joins the transmit buffer, and the port leaves LPI. -/
theorem ethSend_buffers {s : State} {p : Bool} (hs : s.MapsOk) (hlink : ethLink s p = true) (hwait : (ethOf s p).wait = []) {bytes : Nat}
    (hroom : txUsed (ethOf s p) + (bytes + 4) ≤ 65536) (prio kind : Nat) (o : Out) :
    (∃ x : EthTx, x.out = o ∧ ethOf (ethSend p prio bytes kind o s) p =
      { (ethOf s p).awake (s.tim.raw + txWake s p * 1000) with tx := (ethOf s p).tx ++ [x] }) ∧
    ethOf (ethSend p prio bytes kind o s) (!p) = ethOf s (!p) := by
  have hmaps : (leaveLpi p s).MapsOk := (leaveLpi_changes p s).mapsOk hs
  have hleft := ethOf_leaveLpi hs p
  have hfits : txUsed ((ethOf s p).awake (s.tim.raw + txWake s p * 1000)) + (bytes + if vlanId (leaveLpi p s) p = 0 then 0 else 4) ≤ 65536 := by
    have hused : txUsed ((ethOf s p).awake (s.tim.raw + txWake s p * 1000)) = txUsed (ethOf s p) := rfl
    rw [hused]
    split <;> omega
  unfold ethSend
  rw [if_neg (by simp [islInRun_of_ethLink hlink]), if_neg (by simp [hlink])]
  dsimp only
  rw [hleft, if_pos (by simpa [EthState.awake, hwait] using hfits), ethOf_setEth_same hmaps, ethOf_setEth_other hmaps]
  exact ⟨⟨_, rfl, rfl⟩, ethOf_leaveLpi_other hs p⟩

/-! ## LLDPDUs (R302) -/

/-- The EEE TLV of an LLDPDU, in USXGMII mode: the receive wake time asked for and the partner's wish echoed. -/
def ethEeeTlv (s : State) (p : Bool) : Option (Nat × Nat) :=
  if (ethOf s p).mode = 0 then some (defaultWake (ethOf s p).speed + fieldOf s (ethBase p + 8) 7 0, (ethOf s p).tlv.getD 0) else none

/-- The transmit wake time does not depend on when the last LLDPDU left. -/
theorem txWake_setLldpAt {s : State} (hs : s.MapsOk) (p : Bool) (at_ : Nat) : txWake (setEth p { ethOf s p with lldpAt := at_ } s) p = txWake s p := by
  have hport := ethOf_setEth_same hs p { ethOf s p with lldpAt := at_ }
  have hlink : ethLink (setEth p { ethOf s p with lldpAt := at_ } s) p = ethLink s p := ethLink_congr rfl rfl (by rw [hport])
  unfold txWake eeeOn
  rw [hport, hlink]
  rfl

theorem lldpNow_buffers {s : State} {p : Bool} (hs : s.MapsOk) (hlink : ethLink s p = true) (hwait : (ethOf s p).wait = [])
    (hroom : txUsed (ethOf s p) + 82 ≤ 65536) :
    (∃ x : EthTx, x.out = .lldp p (ownMac s p) (ethEeeTlv s p) (4 * fieldOf s (ethBase p + 8) 23 16) ∧ ethOf (lldpNow p s) p =
      { (ethOf s p).awake (s.tim.raw + txWake s p * 1000) with tx := (ethOf s p).tx ++ [x], lldpAt := s.tim.raw }) ∧
    ethOf (lldpNow p s) (!p) = ethOf s (!p) := by
  have hmaps : (setEth p { ethOf s p with lldpAt := s.tim.raw } s).MapsOk := (setEth_changes ..).mapsOk hs
  have hport := ethOf_setEth_same hs p { ethOf s p with lldpAt := s.tim.raw }
  have hup : ethLink (setEth p { ethOf s p with lldpAt := s.tim.raw } s) p = true := by
    rw [← hlink]
    exact ethLink_congr rfl rfl (by rw [hport])
  have hbytes : (if (ethOf s p).mode = 0 then 78 else 64) ≤ 78 := by split <;> decide
  have hbuffers := ethSend_buffers (bytes := if (ethOf s p).mode = 0 then 78 else 64) hmaps hup (by rw [hport]; exact hwait)
    (by rw [hport]; exact Nat.le_trans (Nat.add_le_add_left (Nat.add_le_add_right hbytes 4) _) hroom) 5 1
    (.lldp p (ownMac s p) (ethEeeTlv s p) (4 * fieldOf s (ethBase p + 8) 23 16))
  rw [hport, txWake_setLldpAt hs, ethOf_setEth_other hs] at hbuffers
  obtain ⟨⟨x, hout, hx⟩, hother⟩ := hbuffers
  have hsent : lldpNow p s = ethSend p 5 (if (ethOf s p).mode = 0 then 78 else 64) 1 (.lldp p (ownMac s p) (ethEeeTlv s p)
      (4 * fieldOf s (ethBase p + 8) 23 16)) (setEth p { ethOf s p with lldpAt := s.tim.raw } s) := if_neg (by simp [hlink])
  rw [hsent]
  exact ⟨⟨x, hout, hx⟩, hother⟩

theorem lldpNow_down {s : State} {p : Bool} (hlink : ethLink s p = false) : lldpNow p s = s := if_pos (by simp [hlink])

theorem lldpSend_early {s : State} {p : Bool} (hearly : s.tim.raw < (ethOf s p).lldpAt + fieldOf s (ethBase p + 8) 23 16 * 1000000000) :
    lldpSend p s = s := if_pos hearly

theorem lldpSend_due {s : State} {p : Bool} (hdue : (ethOf s p).lldpAt + fieldOf s (ethBase p + 8) 23 16 * 1000000000 ≤ s.tim.raw) :
    lldpSend p s = lldpNow p s := if_neg (Nat.not_lt.mpr hdue)

theorem lldpSend_down {s : State} {p : Bool} (hlink : ethLink s p = false) : lldpSend p s = s := by
  rcases Nat.lt_or_ge s.tim.raw ((ethOf s p).lldpAt + fieldOf s (ethBase p + 8) 23 16 * 1000000000) with hearly | hdue
  · exact lldpSend_early hearly
  · exact (lldpSend_due hdue).trans (lldpNow_down hlink)

/-! ## Links (R294, R295, R301) -/

/-- The port as its link comes up, before the first LLDPDU. -/
def EthState.linked (speed : Nat) (eee : Bool) (now : Nat) (v : EthState) : EthState :=
  { ethEmpty with mode := v.mode, link := true, speed := speed, eee := eee, idleAt := now }

section
variable {p : Bool} {speed : Nat} {eee : Bool} {s : State}

theorem linkUp_refused (half : Bool) (hwhy : islRun s (11 + b2n p) = false ∨ fieldOf s (ethBase p) 31 31 = 0 ∨ (ethOf s p).link = true ∨
    speed ∉ modeSpeeds (ethOf s p).mode) : linkUp p speed half eee s = s := by
  refine if_pos ?_
  simp only [Bool.or_eq_true, Bool.not_eq_true', decide_eq_true_eq, List.contains_eq_mem, decide_eq_false_iff_not, or_assoc]
  exact hwhy

variable (hrun : islRun s (11 + b2n p) = true) (hen : fieldOf s (ethBase p) 31 31 = 1) (hdown : (ethOf s p).link = false)
  (hspeed : speed ∈ modeSpeeds (ethOf s p).mode)
include hrun hen hdown hspeed

theorem linkUp_half : linkUp p speed true eee s = event (11 + b2n p) 0x01 0 [] s := by
  simp [linkUp, hrun, hen, hdown, hspeed]

theorem linkUp_full : linkUp p speed false eee s = lldpNow p (setEth p ((ethOf s p).linked speed eee s.tim.raw) s) := by
  simp [linkUp, hrun, hen, hdown, hspeed, EthState.linked]

end

/-- With no batch and no entry of the relay under way the loss of a link discards the buffers and no path fails. -/
theorem linkDown_discards {p : Bool} {s : State} (hs : s.MapsOk) (hlink : ethLink s p = true) (hunacked : s.relay.unacked = [])
    (hopen : s.relay.open_ = []) : linkDown p s = ethCount p 33 1 (ethCount p 31 ((ethOf s p).tx.length + (ethOf s p).wait.length)
      (setEth p { ethEmpty with mode := (ethOf s p).mode } (leaveLpi p s))) := by
  have hrelay : (leaveLpi p s).relay = s.relay := (leaveLpi_changes p s).same .relay (by decide)
  unfold linkDown
  rw [if_neg (by simp [hlink])]
  simp [ethOf_leaveLpi hs, EthState.awake, hrelay, hunacked, hopen]

theorem linkDown_down {p : Bool} {s : State} (hlink : ethLink s p = false) : linkDown p s = s := if_pos (by simp [hlink])

/-! ## Frames that wait, LPI and the partner's TLV (R301, R303) -/

theorem ethOf_ethPay_lldp {s : State} (hs : s.MapsOk) (p : Bool) (w ttl : Nat) : ethOf (ethPay p (.lldp (some w) ttl) s) p =
    { ethOf s p with tlv := if ttl = 0 then none else some w, tlvUntil := s.tim.raw + ttl * 1000000000 } := by
  have hmaps : (ethCount p 15 1 s).MapsOk := (ethCount_changes ..).mapsOk hs
  unfold ethPay
  dsimp only
  rw [ethOf_setEth_same hmaps, ethOf_ethCount, ethCount_tim]

section
variable {p : Bool} {s : State}

theorem txWaitExpiry_due {x : EthTx} {rest : List EthTx} (hwait : (ethOf s p).wait = x :: rest) (hdue : x.since + 10000000 ≤ s.tim.raw) :
    txWaitExpiry p s = ethCount p 32 1 (setEth p { ethOf s p with wait := rest } s) := by
  unfold txWaitExpiry
  rw [hwait]
  exact if_neg (Nat.not_lt.mpr hdue)

theorem txWaitExpiry_early (hearly : ∀ x rest, (ethOf s p).wait = x :: rest → s.tim.raw < x.since + 10000000) : txWaitExpiry p s = s := by
  unfold txWaitExpiry
  cases hwait : (ethOf s p).wait with
  | nil => rfl
  | cons x rest => exact if_pos (hearly x rest hwait)

theorem lpiEntry_enters (heee : eeeOn s p = true) (htlv : (ethOf s p).tlv ≠ none) (htx : (ethOf s p).tx = []) (hlpi : (ethOf s p).lpi = false)
    (hidle : (ethOf s p).idleAt + fieldOf s (ethBase p + 8) 15 8 * 1000 ≤ s.tim.raw) :
    lpiEntry p s = ethCount p 37 1 (setEth p { ethOf s p with lpi := true, lpiAt := s.tim.raw } s) := by
  unfold lpiEntry
  simp [heee, htlv, htx, hlpi, Nat.not_lt.mpr hidle]

theorem lpiEntry_stays (hwhy : eeeOn s p = false ∨ (ethOf s p).tlv = none ∨ (ethOf s p).tx ≠ [] ∨ (ethOf s p).lpi = true ∨
    s.tim.raw < (ethOf s p).idleAt + fieldOf s (ethBase p + 8) 15 8 * 1000) : lpiEntry p s = s := by
  refine if_pos ?_
  simp only [Bool.or_eq_true, Bool.not_eq_true', Option.isNone_iff_eq_none, List.isEmpty_eq_false_iff, decide_eq_true_eq, or_assoc]
  exact hwhy

theorem eeeOn_down (hlink : ethLink s p = false) : eeeOn s p = false := by simp [eeeOn, hlink]

theorem tlvExpiry_early (hearly : s.tim.raw < (ethOf s p).tlvUntil) : tlvExpiry p s = s := if_pos hearly

theorem tlvExpiry_due (hdue : (ethOf s p).tlvUntil ≤ s.tim.raw) : tlvExpiry p s = setEth p { ethOf s p with tlv := none } s :=
  if_neg (Nat.not_lt.mpr hdue)

end

/-- Settles O51: each happening at a port by its law, the port it leaves by what is written last. -/
theorem ethernetPorts : Obligations.EthernetPorts := by
  unfold Obligations.EthernetPorts
  refine ⟨?accepted, ?noLink, ?linkUp, ?linkRefused, ?linkDown, fun p s _ => leaveLpi_eq p s, ?waitDue, ?waitEarly, ?lldpEarly, ?lldpDue, ?lpiEnters,
    ?lpiStays, ?tlvEarly, ?tlvDue⟩
  case accepted =>
    refine fun p f s hlink => ⟨_, rfl, fun hcode hlo hhi => ⟨fun hfcs hdest hvlan hroom => ethFrameRx_noRoom hlink hcode hlo hhi hfcs hdest hvlan hroom,
      fun hfcs hdest hvlan hroom => ⟨fun hpay => ?_, fun w ttl hs hpay => ?_⟩⟩⟩
    · rw [ethFrameRx_accepted hlink hcode hlo hhi hfcs hdest hvlan hroom, hpay]
      rfl
    · have hcounts := ethTallied_changes p f s
      rw [ethFrameRx_accepted hlink hcode hlo hhi hfcs hdest hvlan hroom, hpay, ethOf_ethPay_lldp (hcounts.mapsOk hs), ethOf_congr (hcounts.same .eth (by decide)),
        (hcounts.same .tim (by decide) : (ethTallied p f s).tim = s.tim)]
  case noLink =>
    exact fun p f s hlink => ⟨congrArg Host.Outcome.next (if_pos (by simp [hlink])), congrArg Host.Outcome.next (linkDown_down hlink),
      congrArg Host.Outcome.next (lldpSend_down hlink), congrArg Host.Outcome.next (lpiEntry_stays (.inl (eeeOn_down hlink)))⟩
  case linkUp =>
    intro p speed eee s hs hrun hen hdown hspeed
    have hport := ethOf_setEth_same hs p ((ethOf s p).linked speed eee s.tim.raw)
    have hup : ethLink (setEth p ((ethOf s p).linked speed eee s.tim.raw) s) p = true := by
      have hin : islInRun s (11 + b2n p) = true := (Bool.and_eq_true_iff.mp hrun).1
      exact Bool.and_eq_true_iff.mpr ⟨hin, by rw [hport]; rfl⟩
    obtain ⟨⟨x, hout, hx⟩, hother⟩ := lldpNow_buffers ((setEth_changes ..).mapsOk hs) hup (by rw [hport]; rfl)
      (by rw [hport]; simp [EthState.linked, ethEmpty, txUsed])
    refine ⟨⟨_, congrArg Host.Outcome.next (linkUp_half hrun hen hdown hspeed), rfl, (event_changes ..).same⟩,
      _, ethEeeTlv (setEth p ((ethOf s p).linked speed eee s.tim.raw) s) p, congrArg Host.Outcome.next (linkUp_full hrun hen hdown hspeed), ?_⟩
    have hlast := (ethLink_congr ((lldpNow_changes ..).same .isl (by decide)) ((lldpNow_changes ..).same .boot (by decide)) (by rw [hx]; rfl)).trans hup
    rw [hport] at hx
    rw [hx]
    exact ⟨hlast, rfl, rfl, rfl, rfl, rfl, rfl, congrArg (fun o => [o]) hout, hother.trans (ethOf_setEth_other hs ..)⟩
  case linkRefused => exact fun p speed half eee s hwhy => congrArg Host.Outcome.next (linkUp_refused half hwhy)
  case linkDown =>
    intro p s hs hlink hunacked hopen
    have hdown := linkDown_discards hs hlink hunacked hopen
    have hmaps : (leaveLpi p s).MapsOk := (leaveLpi_changes p s).mapsOk hs
    have hport : ethOf (linkDown p s) p = { ethEmpty with mode := (ethOf s p).mode } := by
      rw [hdown, ethOf_ethCount, ethOf_ethCount, ethOf_setEth_same hmaps]
    refine ⟨_, rfl, hport, ?_, ?_, hdown⟩
    · unfold ethLink
      rw [hport]
      exact Bool.and_false _
    · rw [hdown, ethOf_ethCount, ethOf_ethCount, ethOf_setEth_other hmaps, ethOf_leaveLpi_other hs]
  case waitDue =>
    intro p x rest s hs hwait hdue
    refine ⟨_, rfl, ?_, txWaitExpiry_due hwait hdue⟩
    rw [txWaitExpiry_due hwait hdue, ethOf_ethCount, ethOf_setEth_same hs]
  case waitEarly => exact fun p s hearly => congrArg Host.Outcome.next (txWaitExpiry_early hearly)
  case lldpEarly => exact fun p s hearly => congrArg Host.Outcome.next (lldpSend_early hearly)
  case lldpDue =>
    intro p s hs hlink hdue hwait hroom
    obtain ⟨⟨x, hout, hx⟩, -⟩ := lldpNow_buffers hs hlink hwait hroom
    exact ⟨_, x, congrArg Host.Outcome.next (lldpSend_due hdue), hx, (lldpNow_changes ..).same, hout⟩
  case lpiEnters =>
    intro p s hs heee htlv htx hlpi hidle
    refine ⟨_, rfl, ?_, lpiEntry_enters heee htlv htx hlpi hidle⟩
    rw [lpiEntry_enters heee htlv htx hlpi hidle, ethOf_ethCount, ethOf_setEth_same hs]
  case lpiStays => exact fun p s hwhy => congrArg Host.Outcome.next (lpiEntry_stays hwhy)
  case tlvEarly => exact fun p s hearly => congrArg Host.Outcome.next (tlvExpiry_early hearly)
  case tlvDue =>
    intro p s hs hdue
    have hport := ethOf_setEth_same hs p { ethOf s p with tlv := none }
    exact ⟨_, congrArg Host.Outcome.next (tlvExpiry_due hdue), hport, ethOf_setEth_other hs .., (setEth_changes ..).same,
      congrArg Host.Outcome.next (lpiEntry_stays (.inr (.inl (by rw [hport]))))⟩

end Sys2Proof.Machine
end

section
/-!
SUPPORT. O52: what a relay frame sent leaves, batches, freshness and the spool (R307, R309, R312 to R316).
-/
namespace Sys2Proof.Machine

/-! ## Radio queues -/

/-- What a radio queue takes depends on the queue, the settings and the time alone. -/
theorem rfQueue_rf_congr {s t : State} (hrf : t.rf = s.rf) (hregs : t.regs = s.regs) (htim : t.tim = s.tim) (n : Nat) (dest : Option Nat) (pay : AccessPay) :
    (rfQueue n dest pay t).rf = (rfQueue n dest pay s).rf := by
  have hframes : rfFrames t n pay = rfFrames s n pay := by
    unfold rfFrames fieldOf
    rw [reg_congr hregs]
  have hfold : ∀ (f : Nat → RfState → RfState) (l : List Nat) {a b : State}, a.rf = b.rf →
      (l.foldl (fun u i => setRf n (f i) u) a).rf = (l.foldl (fun u i => setRf n (f i) u) b).rf := by
    intro f l
    induction l with
    | nil => exact id
    | cons i l ih =>
      intro a b hab
      refine ih ?_
      show Kv.put n (f i (rfOf a n)) a.rf = Kv.put n (f i (rfOf b n)) b.rf
      rw [rfOf_congr hab, hab]
  unfold rfQueue
  rw [hframes, rfOf_congr hrf, htim]
  exact hfold _ _ hrf

/-! ## Relay frames sent (R306, R308) -/

/-- The frame a unit sends to a receiver. -/
def relayFrameOf (to_ : BitVec 12) (body : RelayBody) (s : State) : RelayFrame :=
  { version := 1, ftype := relayFtype body, nEntries := relayCountOf body, reservedZero := true, fits := true, sender := ownService s,
    receiver := if to_ = headUnit then none else some to_, session := s.relay.session, seq := BitVec.ofNat 32 (s.relay.nextSeq.getD to_.toNat 1),
    claim := s.pair.claim, keyVer := ((newestRelayKey s).getD (0, 0)).1, txTime := if timeValid s then rxTime s else 0,
    key := ((newestRelayKey s).getD (0, 0)).2, toPair := true, body := body }

/-- The SEQ to a receiver is used. -/
def numbered (to_ : BitVec 12) (s : State) : State :=
  setRelay (fun r => { r with nextSeq := Kv.put to_.toNat (s.relay.nextSeq.getD to_.toNat 1 + 1) r.nextSeq }) s

/-- A frame leaves on the path it goes by: an Ethernet port, or radio in its place. -/
def relayOut (src : RelaySrc) (f : RelayFrame) (s : State) : State :=
  match src with
  | .port p =>
    match overRadioPath s p with
    | some rf => rfQueue (b2n rf) (some 0) (.relay f) s
    | none => ethCount p 44 1 (ethSend p (match f.body with | .batch _ => 4 | _ => 3) (relayBytes f.body + 110) 0 (.relay p f) s)
  | .child rf short => rfQueue (b2n rf) (some short) (.relay f) s

theorem relayOut_changes (src : RelaySrc) (f : RelayFrame) (s : State) : Changes [.regs, .rf, .eth, .host, .out] s (relayOut src f s) := by
  unfold relayOut
  split
  · split
    · exact (rfQueue_changes ..).mono rfl
    · exact .step (ethCount_changes ..) ((ethSend_changes ..).mono rfl) rfl
  · exact (rfQueue_changes ..).mono rfl

section
variable {to_ : BitVec 12} {s : State} (hneed : s.relay.needSession = false) (hseq : s.relay.nextSeq.getD to_.toNat 1 < 0xFFFFFFFF)
include hneed hseq

/-- Within a session a frame takes the next SEQ, and leaves. -/
theorem sendFrame_eq (src : RelaySrc) (body : RelayBody) : sendFrame to_ src body s =
    (BitVec.ofNat 32 (s.relay.nextSeq.getD to_.toNat 1), relayOut src (relayFrameOf to_ body s) (numbered to_ s)) := by
  have hnumbered : setRelay (fun r => { r with
      nextSeq := Kv.put to_.toNat (s.relay.nextSeq.getD to_.toNat 1 + 1) r.nextSeq
      needSession := decide (s.relay.nextSeq.getD to_.toNat 1 = 0xFFFFFFFF) }) s = numbered to_ s := by
    rw [decide_eq_false (Nat.ne_of_lt hseq), ← hneed]
    rfl
  obtain ⟨t, ht⟩ : ∃ t, relayOut src (relayFrameOf to_ body s) (numbered to_ s) = t := ⟨_, rfl⟩
  have hstays : t.relay.needSession = false := by
    rw [← ht, (relayOut_changes ..).same .relay (by decide)]
    exact hneed
  have hsent : sendFrame to_ src body s = (BitVec.ofNat 32 (s.relay.nextSeq.getD to_.toNat 1),
      if t.relay.needSession && timeValid t then newSession t else t) := by
    unfold sendFrame
    simp only [hneed, Bool.false_eq_true, if_false]
    rw [← ht, ← hnumbered]
    rfl
  rw [hsent, hstays, ht]
  rfl

theorem relay_sendFrame (src : RelaySrc) (body : RelayBody) : (sendFrame to_ src body s).2.relay = { s.relay with
    nextSeq := Kv.put to_.toNat (s.relay.nextSeq.getD to_.toNat 1 + 1) s.relay.nextSeq } := by
  rw [sendFrame_eq hneed hseq]
  exact (relayOut_changes ..).same .relay (by decide)

theorem relay_sendBatch (id : Nat) (ents : List FrameEnt) (piece : Option Entry) (p : Bool) : (sendBatch to_ id ents piece p s).relay = { s.relay with
    nextSeq := Kv.put to_.toNat (s.relay.nextSeq.getD to_.toNat 1 + 1) s.relay.nextSeq
    unacked := s.relay.unacked ++ [⟨id, to_, p, [BitVec.ofNat 32 (s.relay.nextSeq.getD to_.toNat 1)], 0, ents, s.tim.raw, piece⟩] } := by
  have hrelay := relay_sendFrame hneed hseq (.port p) (.batch ents)
  have htim : (sendFrame to_ (.port p) (.batch ents) s).2.tim = s.tim := (sendFrame_changes ..).same .tim (by decide)
  have hnum : (sendFrame to_ (.port p) (.batch ents) s).1 = BitVec.ofNat 32 (s.relay.nextSeq.getD to_.toNat 1) := by rw [sendFrame_eq hneed hseq]
  unfold sendBatch setRelay
  simp only [hrelay, htim, hnum]

end

/-! ## Batches (R313, R315) -/

section
variable {to_ : BitVec 12} {p : Bool} {s : State}

theorem batchDue_iff {at_ : Nat} {e : Entry} {rest : List (Nat × Entry)} (hopen : s.relay.open_.getD (pathKey to_ p) [] = (at_, e) :: rest) :
    batchDue s to_ p = true ↔ at_ + fieldOf s 0x704 15 8 * 10000 ≤ s.tim.raw ∨ 255 ≤ rest.length + 1 ∨
      (takeFit 255 (datagramRoom s p) ((at_, e) :: rest)).length < rest.length + 1 := by
  unfold batchDue
  rw [hopen]
  simp only [Bool.or_eq_true, decide_eq_true_eq, or_assoc]

theorem closeBatch_of_due (hdue : batchDue s to_ p = true) : closeBatch to_ p s = sendOpen to_ p s := if_pos hdue

theorem closeBatch_of_notDue (hdue : ¬batchDue s to_ p = true) : closeBatch to_ p s = s := if_neg hdue

theorem closeBatch_of_waiting (hwait : sendOpen to_ p s = s) : closeBatch to_ p s = s := by
  unfold closeBatch
  rw [hwait, ite_self]

theorem sendOpen_of_none (hopen : s.relay.open_.getD (pathKey to_ p) [] = []) : sendOpen to_ p s = s := by
  unfold sendOpen
  dsimp only
  rw [hopen]

/-- Nothing goes out while the unit may not send, the path is down, a port is paused or its window is full. -/
theorem sendOpen_waits (hwhy : relayMaySend s = false ∨ pathUp s to_ p = false ∨
    ∃ q ∈ batchPorts s to_ p, isPaused s q = true ∨ fieldOf s 0x700 7 0 ≤ windowUsed s to_ q) : sendOpen to_ p s = s := by
  have hstop : (!relayMaySend s || !pathUp s to_ p ||
      (batchPorts s to_ p).any fun q => isPaused s q || decide (fieldOf s 0x700 7 0 ≤ windowUsed s to_ q)) = true := by
    simpa [List.any_eq_true, or_assoc] using hwhy
  unfold sendOpen
  dsimp only
  cases s.relay.open_.getD (pathKey to_ p) [] with
  | nil => rfl
  | cons x rest => exact if_pos hstop

/-- Whole entries leave the open batch of a path, under the next batch number. -/
def batchTaken (k n : Nat) (s : State) : State :=
  setRelay (fun r => { r with nextBatch := s.relay.nextBatch + 1, open_ := Kv.putOr [] k ((s.relay.open_.getD k []).drop n) r.open_ }) s

theorem sendOpen_sends {at_ : Nat} {e : Entry} {rest : List (Nat × Entry)} {ents : List Entry}
    (hopen : s.relay.open_.getD (pathKey to_ p) [] = (at_, e) :: rest) (hents : ents = takeFit 255 (datagramRoom s p) ((at_, e) :: rest))
    (hmay : relayMaySend s = true) (hup : pathUp s to_ p = true) (hpause : isPaused s p = false) (hwindow : windowUsed s to_ p < fieldOf s 0x700 7 0)
    (hports : batchPorts s to_ p = [p]) (hfits : entryLen e ≤ datagramRoom s p) :
    sendOpen to_ p s = sendBatch to_ s.relay.nextBatch (ents.map .whole) none p (batchTaken (pathKey to_ p) ents.length s) := by
  have hgo : (!relayMaySend s || !pathUp s to_ p ||
      (batchPorts s to_ p).any fun q => isPaused s q || decide (fieldOf s 0x700 7 0 ≤ windowUsed s to_ q)) = false := by
    simp [hmay, hup, hports, hpause, hwindow]
  unfold sendOpen batchTaken
  dsimp only
  rw [hopen]
  dsimp only
  rw [hgo, if_neg Bool.false_ne_true, if_neg (Nat.not_lt.mpr hfits), hports, ← hents]
  rfl

end

section
variable {id : Nat} {p : Bool} {s : State}

theorem ackTimeout_early (hearly : ∀ b, s.relay.unacked.find? (fun b => b.id == id && b.port == p) = some b →
    s.tim.raw < b.sentAt + fieldOf s 0x704 31 20 * 1000000) : ackTimeout id p s = s := by
  unfold ackTimeout
  cases hfound : s.relay.unacked.find? (fun b => b.id == id && b.port == p) with
  | none => rfl
  | some b => exact if_pos (by simp [hearly b hfound])

/-- A batch sent again under the SEQ `n`. -/
def Batch.resent (n : W32) (now : Nat) (b : Batch) : Batch := { b with seqs := n :: b.seqs, resends := b.resends + 1, sentAt := now }

/-- A batch whose acknowledgement stays away goes out again; below RETRIES the path stays up. -/
theorem relay_ackTimeout {b : Batch} (hfound : s.relay.unacked.find? (fun b => b.id == id && b.port == p) = some b) (hmay : relayMaySend s = true)
    (hpause : isPaused s p = false) (hdue : b.sentAt + fieldOf s 0x704 31 20 * 1000000 ≤ s.tim.raw) (hlink : ethLink s p = true)
    (hneed : s.relay.needSession = false) (hseq : s.relay.nextSeq.getD b.to_.toNat 1 < 0xFFFFFFFF)
    (hfails : max (s.relay.fails.getD (pathKey b.to_ p) 0) (b.resends + 1) < relayRetries s) (hs : s.RegsOk) :
    (ackTimeout id p s).relay = { s.relay with
      nextSeq := Kv.put b.to_.toNat (s.relay.nextSeq.getD b.to_.toNat 1 + 1) s.relay.nextSeq
      fails := Kv.put (pathKey b.to_ p) (max (s.relay.fails.getD (pathKey b.to_ p) 0) (b.resends + 1)) s.relay.fails
      unacked := s.relay.unacked.map fun x => if x.id == id && x.port == p then
        x.resent (BitVec.ofNat 32 (s.relay.nextSeq.getD b.to_.toNat 1)) s.tim.raw else x } := by
  have hcounted := ethCount_changes p 45 1 s
  have hneed' : (ethCount p 45 1 s).relay.needSession = false := by rw [ethCount_relay]; exact hneed
  have hseq' : (ethCount p 45 1 s).relay.nextSeq.getD b.to_.toNat 1 < 0xFFFFFFFF := by rw [ethCount_relay]; exact hseq
  obtain ⟨t, ht⟩ : ∃ t, sendFrame b.to_ (.port p) (.batch b.ents) (ethCount p 45 1 s) = (BitVec.ofNat 32 (s.relay.nextSeq.getD b.to_.toNat 1), t) :=
    ⟨_, (sendFrame_eq hneed' hseq' ..).trans (by rw [ethCount_relay])⟩
  have hsent : Changes [.regs, .rf, .eth, .relay, .host, .out, .draws] s t := .of_snd ht (.step (sendFrame_changes ..) (hcounted.mono rfl) rfl)
  have hrelay : t.relay = { s.relay with nextSeq := Kv.put b.to_.toNat (s.relay.nextSeq.getD b.to_.toNat 1 + 1) s.relay.nextSeq } := by
    have h := relay_sendFrame hneed' hseq' (.port p) (.batch b.ents)
    rwa [ht, ethCount_relay] at h
  have htim : t.tim = s.tim := hsent.same .tim (by decide)
  have hretries : ∀ g, relayRetries (setRelay g t) = relayRetries s := fun g => hsent.fieldOf_eq hs 19 16 (by decide)
  unfold ackTimeout
  rw [hfound]
  dsimp only
  rw [if_neg (by simp [hmay, hpause, hlink, hdue]), ht]
  dsimp only
  rw [hretries, hrelay, if_neg (Nat.not_le.mpr hfails)]
  unfold setRelay
  rw [hrelay, htim]
  rfl

end

/-! ## Results of a batch (R313) -/

/-- A batch whose results are complete is no longer held. -/
def batchForgotten (u : BitVec 12) (seq : W32) (s : State) : State :=
  setRelay (fun r => { r with accepted := r.accepted.filter fun x => !(x.sender == u && x.seq == seq) }) s

section
variable {u : BitVec 12} {seq : W32} {b : RxBatch} {s : State} (hfound : s.relay.accepted.find? (fun b => b.sender == u && b.seq == seq) = some b)
include hfound

theorem batchAck_waits (hwhy : b.results.any (·.isNone) = true ∨ relayMaySend s = false) : batchAck u seq s = s := by
  unfold batchAck
  rw [hfound]
  exact if_pos (by simpa using hwhy)

theorem batchAck_sends (hdone : b.results.any (·.isNone) = false) (hmay : relayMaySend s = true) :
    batchAck u seq s = (sendFrame u b.src (.ack seq (b.results.map (·.getD 4))) (batchForgotten u seq s)).2 := by
  unfold batchAck
  rw [hfound]
  exact if_neg (by simp [hdone, hmay])

end

/-! ## Freshness (R309) -/

/-- Does a session hold a SEQ as received: its highest, or one its map marks? -/
def RxSession.received (v : RxSession) (seq : W32) : Prop :=
  ¬v.high < seq ∧ ((v.high - seq).toNat = 0 ∨ v.map.getLsbD ((v.high - seq).toNat - 1) = true)

theorem freshness_older {s : State} {f : RelayFrame} {v : RxSession} (hheld : Kv.get? f.sender.toNat s.relay.rx = some v) (hclaim : f.claim < v.claim) :
    freshness s f = .stale := by
  unfold freshness
  rw [hheld]
  exact if_pos hclaim

theorem freshness_received {s : State} {f : RelayFrame} {v : RxSession} (hheld : Kv.get? f.sender.toNat s.relay.rx = some v)
    (hsession : v.session = f.session) (hclaim : v.claim = f.claim) (hrec : v.received f.seq) : freshness s f = .stale := by
  obtain ⟨hhigh, hmark⟩ := hrec
  unfold freshness
  rw [hheld]
  dsimp only
  rw [if_neg (by rw [hclaim]; exact BitVec.lt_irrefl _), if_neg (by simp [hsession]), if_neg hhigh]
  generalize (v.high - f.seq).toNat = d at hmark ⊢
  exact if_pos (by rcases hmark with h | h <;> simp [h])

/-- A SEQ just marked reads as received. -/
theorem getLsbD_marked (m : W64) {d : Nat} (hd : d < 64) : (m ||| (1#64 <<< d)).getLsbD d = true := by simp [hd]

/-- The session that an accepted frame leaves has the frame's session and claim, and holds its SEQ as received. -/
theorem session_of_fresh {s : State} {f : RelayFrame} {v : RxSession} (hfresh : freshness s f = .ok v) :
    v.session = f.session ∧ v.claim = f.claim ∧ v.received f.seq := by
  have hnew : ∀ (m : W64) (l : Kv W32) (q : Bool) (k : Kv Nat), (RxSession.mk f.session f.seq m f.claim l q k).received f.seq :=
    fun m l q k => ⟨BitVec.lt_irrefl _, .inl (by simp)⟩
  unfold freshness at hfresh
  dsimp only at hfresh
  split at hfresh
  case h_1 =>
    split at hfresh
    · cases hfresh
    · split at hfresh
      · cases hfresh
      · cases hfresh
        exact ⟨rfl, rfl, hnew ..⟩
  case h_2 w hheld =>
    split at hfresh
    · cases hfresh
    · split at hfresh
      · split at hfresh
        · cases hfresh
          exact ⟨rfl, rfl, hnew ..⟩
        · cases hfresh
      · next hsession =>
        have hsame : w.session = f.session := (by simpa using hsession : f.session = w.session).symm
        split at hfresh
        · cases hfresh
          exact ⟨hsame, rfl, BitVec.lt_irrefl _, .inl (by simp)⟩
        · next hhigh =>
          split at hfresh
          · cases hfresh
          · next hin =>
            cases hfresh
            simp only [Bool.or_eq_true, decide_eq_true_eq, not_or, Nat.not_le] at hin
            obtain ⟨⟨-, hnear⟩, -⟩ := hin
            exact ⟨hsame, rfl, hhigh, .inr (getLsbD_marked w.map (by omega))⟩

/-! ## Frames received (R298, R300, R307) -/

section
variable {p : Bool} {f : RelayFrame} {s : State} (hlink : ethLink s p = true)
include hlink

theorem relayFrameRx_noAddress (haddr : pairAddr s = false) : relayFrameRx (.port p) f s = ethCount p (if f.toPair then 10 else 47) 1 s := by
  simp [relayFrameRx, hlink, haddr]

theorem relayFrameRx_elsewhere (haddr : pairAddr s = true) (hto : f.toPair = false) : relayFrameRx (.port p) f s = ethCount p 47 1 s := by
  simp [relayFrameRx, hlink, haddr, hto]

theorem relayFrameRx_checked (haddr : pairAddr s = true) (hto : f.toPair = true) : relayFrameRx (.port p) f s = relayChecked (.port p) f s := by
  simp [relayFrameRx, hlink, haddr, hto]

end

section
variable {src : RelaySrc} {f : RelayFrame} {s : State}

theorem relayChecked_malformed (hform : f.formOk = false) : relayChecked src f s = relayCount src 43 s := if_pos (by simp [hform])

theorem relayChecked_forged (hform : f.formOk = true) (hkey : Kv.get? f.keyVer s.sec.relayKeys ≠ some f.key) :
    relayChecked src f s = relayCount src 41 s := by
  simp [relayChecked, frameAuthentic, hform, hkey]

/-- A unit that is no FIELD unit passes no frame on to a child: an authentic one is its own. -/
theorem relayChecked_authentic (hform : f.formOk = true) (hkey : Kv.get? f.keyVer s.sec.relayKeys = some f.key) (hfield : isField s = false) :
    relayChecked src f s = relayAccept src f s := by
  simp [relayChecked, frameAuthentic, hform, hkey, hfield]

theorem relayAccept_stale (hfresh : freshness s f = .stale) : relayAccept src f s = relayCount src 42 s := by
  unfold relayAccept
  rw [hfresh]

end

/-- A fresh RESUME of another unit, at a unit that is no FIELD unit: its session is kept, and the port is paused no more (R314). -/
theorem relayAccept_resume {p : Bool} {f : RelayFrame} {s : State} {v : RxSession} (hfresh : freshness s f = .ok v) (hsender : f.sender ≠ ownService s)
    (hbody : f.body = .resume) (hfield : isField s = false) : relayAccept (.port p) f s =
      setRelay (fun r => { r with paused := Kv.del (b2n p) r.paused }) (putRx f.sender v (ethCount p 40 1 s)) := by
  have hkept := (putRx_changes f.sender v (ethCount p 40 1 s)).step (ethCount_changes p 40 1 s |>.mono (W := [.regs, .relay, .jr, .host, .out]) rfl) rfl
  have hown : ownService (putRx f.sender v (ethCount p 40 1 s)) = ownService s := by
    unfold ownService
    rw [hkept.same .boot (by decide)]
  unfold relayAccept
  rw [hfresh]
  simp [hfield, relayCount, hown, hsender, relayBody, hbody]

theorem relay_putRx (u : BitVec 12) (v : RxSession) (s : State) : (putRx u v s).relay = { s.relay with rx := Kv.put u.toNat v s.relay.rx } :=
  journal_relay ..

/-! ## Pauses and the spool (R314, R316) -/

theorem pauseHoldExpiry_over {p : Bool} {s : State} {u : Nat} (hheld : Kv.get? (b2n p) s.relay.paused = some u) (hover : u ≤ s.tim.raw) :
    pauseHoldExpiry p s = setRelay (fun r => { r with paused := Kv.del (b2n p) r.paused }) s := by
  unfold pauseHoldExpiry
  rw [hheld]
  exact if_neg (Nat.not_lt.mpr hover)

theorem pauseHoldExpiry_early {p : Bool} {s : State} (hearly : ∀ u, Kv.get? (b2n p) s.relay.paused = some u → s.tim.raw < u) :
    pauseHoldExpiry p s = s := by
  unfold pauseHoldExpiry
  cases hheld : Kv.get? (b2n p) s.relay.paused with
  | none => rfl
  | some u => exact if_pos (hearly u hheld)

theorem spoolDrain_waits {s : State} (hwhy : isField s = false ∨ s.relay.spooling = false ∨ uplinkUp s = false ∨ archiveUp s = false ∨
    holdCap s * 16384 ≤ holdUsed s) : spoolDrain s = s := by
  refine if_pos ?_
  simp only [Bool.or_eq_true, Bool.not_eq_true', decide_eq_true_eq, or_assoc]
  exact hwhy

section
variable {s : State} (hfield : isField s = true) (hspool : s.relay.spooling = true) (hup : uplinkUp s = true) (harch : archiveUp s = true)
  (hroom : holdUsed s < holdCap s * 16384)
include hfield hspool hup harch hroom

theorem spoolDrain_ends (hnone : s.relay.spool = []) : spoolDrain s = setRelay (fun r => { r with spooling := false }) s := by
  simp [spoolDrain, hfield, hspool, hup, harch, Nat.not_le.mpr hroom, hnone]

/-- The oldest entry of the spool goes to the hold area. -/
theorem spoolDrain_holds {e : Entry} {rest : List Entry} (hsome : s.relay.spool = e :: rest) : spoolDrain s =
    holdEntry headUnit e (journal (.spool rest) (setRelay (fun r => { r with spool := rest, spooling := !rest.isEmpty }) s)) := by
  simp [spoolDrain, hfield, hspool, hup, harch, Nat.not_le.mpr hroom, hsome]

end

theorem spool_holdEntry (to_ : BitVec 12) (e : Entry) (s : State) :
    (holdEntry to_ e s).relay.spool = s.relay.spool ∧ (holdEntry to_ e s).relay.spooling = s.relay.spooling := by
  unfold holdEntry
  rw [journal_relay]
  exact ⟨rfl, rfl⟩

/-- Settles O52: received frames by the first check that stops them, what is sent by the next SEQ it takes, pauses and the spool by their cases. -/
theorem relayFrames : Obligations.RelayFrames := by
  unfold Obligations.RelayFrames
  refine ⟨?noLink, ?received, ?repeated, ?older, ?pauses, ?closes, ?staysOpen, ?resent, ?ackEarly, ?acks, ?drains, ?spoolStays⟩
  case noLink => exact fun p f s hlink => congrArg Host.Outcome.next (if_pos (by simp [hlink]))
  case received =>
    refine fun p f s hlink => ⟨fun haddr => congrArg Host.Outcome.next (relayFrameRx_noAddress hlink haddr),
      fun haddr hto => congrArg Host.Outcome.next (relayFrameRx_elsewhere hlink haddr hto),
      fun haddr hto hform => congrArg Host.Outcome.next ((relayFrameRx_checked hlink haddr hto).trans (relayChecked_malformed hform)),
      fun haddr hto hform hkey => congrArg Host.Outcome.next ((relayFrameRx_checked hlink haddr hto).trans (relayChecked_forged hform hkey)),
      fun haddr hto hform hkey hfield => ?_⟩
    have haccept := (relayFrameRx_checked hlink haddr hto).trans (relayChecked_authentic hform hkey hfield)
    refine ⟨fun hfresh => congrArg Host.Outcome.next (haccept.trans (relayAccept_stale hfresh)), fun v hfresh hsender hbody => ?_⟩
    refine ⟨_, congrArg Host.Outcome.next (haccept.trans (relayAccept_resume hfresh hsender hbody hfield)), ?_, ?_⟩
    · unfold setRelay
      simp only [relay_putRx, ethCount_relay]
    · exact (Changes.step (setRelay_changes ..) (.step (putRx_changes ..) ((ethCount_changes ..).mono rfl) rfl) rfl).same
  case repeated =>
    intro s t f v hfresh hheld
    obtain ⟨hsession, hclaim, hrec⟩ := session_of_fresh hfresh
    exact ⟨freshness_received hheld hsession hclaim hrec, hclaim⟩
  case older => exact fun s f v hheld hclaim => freshness_older hheld hclaim
  case pauses =>
    exact fun p s => ⟨fun u hheld hover => ⟨_, congrArg Host.Outcome.next (pauseHoldExpiry_over hheld hover), (setRelay_changes ..).same, rfl⟩,
      fun hearly => congrArg Host.Outcome.next (pauseHoldExpiry_early hearly)⟩
  case closes =>
    intro to_ p at_ e rest s hopen hdue hmay hup hpause hwindow hports hfits hneed hseq
    have hsends := (closeBatch_of_due ((batchDue_iff hopen).mpr hdue)).trans (sendOpen_sends hopen rfl hmay hup hpause hwindow hports hfits)
    refine ⟨_, _, congrArg Host.Outcome.next hsends, rfl, ?_⟩
    rw [relay_sendBatch (s := batchTaken (pathKey to_ p) _ s) hneed hseq, ← hopen]
    rfl
  case staysOpen =>
    intro to_ p s hwhy
    refine congrArg Host.Outcome.next ?_
    rcases hwhy with hnone | hmay | hup | hport | hnotDue
    · exact closeBatch_of_waiting (sendOpen_of_none hnone)
    · exact closeBatch_of_waiting (sendOpen_waits (.inl hmay))
    · exact closeBatch_of_waiting (sendOpen_waits (.inr (.inl hup)))
    · exact closeBatch_of_waiting (sendOpen_waits (.inr (.inr hport)))
    · cases hopen : s.relay.open_.getD (pathKey to_ p) [] with
      | nil => exact closeBatch_of_waiting (sendOpen_of_none hopen)
      | cons x rest =>
        obtain ⟨hearly, hfew, hfits⟩ := hnotDue x.1 x.2 rest hopen
        refine closeBatch_of_notDue ((not_congr (batchDue_iff hopen)).mpr ?_)
        rintro (hlate | hmany | hmore)
        · exact absurd hearly (Nat.not_lt.mpr hlate)
        · exact absurd hfew (Nat.not_lt.mpr hmany)
        · exact absurd hfits (Nat.not_le.mpr hmore)
  case resent =>
    exact fun id p b s hfound hmay hpause hdue hlink hneed hseq hfails hs =>
      ⟨_, rfl, relay_ackTimeout hfound hmay hpause hdue hlink hneed hseq hfails hs⟩
  case ackEarly => exact fun id p s hearly => congrArg Host.Outcome.next (ackTimeout_early hearly)
  case acks =>
    refine fun u seq b s hfound => ⟨fun hwhy => congrArg Host.Outcome.next (batchAck_waits hfound hwhy), fun hdone hmay hneed hseq => ?_⟩
    have hsends := batchAck_sends hfound hdone hmay
    refine ⟨_, congrArg Host.Outcome.next hsends, relay_sendFrame (s := batchForgotten u seq s) hneed hseq .., fun rf short hsrc => ?_⟩
    rw [sendFrame_eq (s := batchForgotten u seq s) hneed hseq, hsrc]
    have hqueued : ∀ f, (relayOut (.child rf short) f (numbered u (batchForgotten u seq s))).rf = (rfQueue (b2n rf) (some short) (.relay f) s).rf :=
      fun f => rfQueue_rf_congr (s := s) (t := numbered u (batchForgotten u seq s)) rfl rfl rfl ..
    exact ⟨_, hqueued _, rfl, rfl, rfl, rfl, rfl⟩
  case drains =>
    intro s hfield hspool hup harch hroom
    refine ⟨_, rfl, fun hnone => spoolDrain_ends hfield hspool hup harch hroom hnone, fun e rest hsome => ?_⟩
    rw [spoolDrain_holds hfield hspool hup harch hroom hsome]
    obtain ⟨hrest, hspooling⟩ := spool_holdEntry headUnit e (journal (.spool rest) (setRelay (fun r => { r with spool := rest, spooling := !rest.isEmpty }) s))
    rw [hrest, hspooling, journal_relay]
    exact ⟨rfl, rfl, (Changes.step (holdEntry_changes ..) (.step (journal_changes ..) ((setRelay_changes ..).mono rfl) rfl) rfl).same⟩
  case spoolStays => exact fun s hwhy => congrArg Host.Outcome.next (spoolDrain_waits hwhy)

end Sys2Proof.Machine
end

section
/-!
SUPPORT. O7: the latched words of the local clock (R326).
-/
namespace Sys2Proof.Machine

/-! ## The words that a read of TIM_NOW_NS latches -/

/-- The part of a latch that holds the local clock: seconds [31:0], seconds [47:32] and fraction. -/
def Latch.clock (l : Latch) : W32 × W32 × W32 := (l.nowLo, l.nowHi, l.nowFrac)

theorem latchOf_congr {s t : State} (h : t.lat = s.lat) (p : Path) : latchOf t p = latchOf s p := by
  rw [latchOf_eq, latchOf_eq, h]

/-- The latches of the other registers leave the local clock's words. -/
theorem clock_readLatch {p : Path} {off : Nat} {s : State} (hs : s.MapsOk) (hoff : off ≠ 0x10020) :
    (latchOf (readLatch p off s) p).clock = (latchOf s p).clock := by
  have hset : ∀ f : Latch → Latch, (f (latchOf s p)).clock = (latchOf s p).clock → (latchOf (setLatch p f s) p).clock = (latchOf s p).clock :=
    fun f hf => (congrArg Latch.clock (latchOf_setLatch_same hs p f)).trans hf
  unfold readLatch
  dsimp only
  rw [if_neg hoff]
  split
  · exact hset _ rfl
  split
  · exact hset _ rfl
  split
  · exact hset _ rfl
  split
  · exact hset _ rfl
  split
  · exact hset _ rfl
  · rfl

/-- Only a read of TIM_NOW_NS moves the local clock's words in the latch of its path. -/
theorem clock_readReg {p : Path} {off : Nat} {s : State} (hs : s.MapsOk) (hoff : off ≠ 0x10020) :
    (latchOf (readReg p off s).2 p).clock = (latchOf s p).clock := by
  by_cases habsent : blockDown off s = true ∨ regDef off = none
  · rw [readReg_of_absent habsent]
    exact congrArg Latch.clock (latchOf_congr (count_lat ..) p)
  · obtain ⟨hup, hdef⟩ := not_or.mp habsent
    obtain ⟨d, hd⟩ := Option.ne_none_iff_exists'.mp hdef
    have hread : (readReg p off s).2 = readLatch p off s := by
      unfold readReg
      rw [if_neg hup, hd]
    rw [hread]
    exact clock_readLatch hs hoff

/-- A register of a block that answers, and that latches nothing, reads as what it shows and changes nothing. -/
theorem readReg_of_shown {p : Path} {off : Nat} {w : W32} {u : State} (hup : blockDown off u = false) (hdef : (regDef off).isSome)
    (hlatch : readLatch p off u = u) (hw : shown (latchOf u p) off u = some w) : readReg p off u = (w, u) := by
  obtain ⟨d, hd⟩ := Option.isSome_iff_exists.mp hdef
  unfold readReg
  rw [hup, hd, if_neg Bool.false_ne_true]
  dsimp only
  rw [hlatch, hw, Option.getD_some]

/-- TIM_NOW_S_LO, TIM_NOW_S_HI and TIM_NOW_FRAC read as the latch of the path holds them, whatever the clock shows now. -/
theorem readReg_clock {p : Path} {u : State} {lo hi frac : W32} (hup : blockDown 0x10020 u = false) (hclock : (latchOf u p).clock = (lo, hi, frac)) :
    readReg p 0x10024 u = (lo, u) ∧ readReg p 0x10028 u = (hi, u) ∧ readReg p 0x1002C u = (frac, u) := by
  obtain ⟨hlo, hrest⟩ := Prod.mk.inj hclock
  obtain ⟨hhi, hfrac⟩ := Prod.mk.inj hrest
  exact ⟨readReg_of_shown hup rfl rfl (congrArg some hlo), readReg_of_shown hup rfl rfl (congrArg some hhi),
    readReg_of_shown hup rfl rfl (congrArg some hfrac)⟩

/-- Settles O7: the read of TIM_NOW_NS fills the latch (O13), the later reads show that latch, and no other read moves it. -/
theorem clockReads : Obligations.ClockReads := by
  unfold Obligations.ClockReads
  refine ⟨?latches, ?others⟩
  case latches =>
    intro p s hs hopen hup
    obtain ⟨hnow, -⟩ := latchingReads
    obtain ⟨t, ht, hsame, hout, hlo, hhi, hfrac, -⟩ := hnow p s hs hopen hup
    refine ⟨t, ht, hout, hsame .tim (by decide), fun u hlatch hanswers => readReg_clock hanswers ?_⟩
    rw [hlatch, Latch.clock, hlo, hhi, hfrac]
  case others =>
    intro p off s hs hoff
    obtain ⟨hlo, hrest⟩ := Prod.mk.inj (clock_readReg (p := p) hs hoff)
    obtain ⟨hhi, hfrac⟩ := Prod.mk.inj hrest
    exact ⟨hlo, hhi, hfrac⟩

end Sys2Proof.Machine
end

section
/-!
SUPPORT. O28: how the local clock moves, and what TIM_STEP leaves of TIM (R331, R333).
-/
namespace Sys2Proof.Machine

/-! ## The clock's own words -/

/-- The clock, in units of 2^-16 ns, after a move by some ns. -/
def clkMoved (d : Int) (clk : Nat) : Nat := ((clk : Int) + d * 65536).toNat

/-- A move by what is missing to `n` ns sets the clock to `n` ns and leaves its fraction. -/
theorem clkMoved_to (n clk : Nat) : clkMoved ((n : Int) - (clk / 65536 : Nat)) clk = n * 65536 + clk % 65536 := by
  unfold clkMoved
  omega

/-- An offset that the clock has reached is taken out of it in full. -/
theorem clkMoved_neg {off : Int} {clk : Nat} (h : off * 65536 ≤ clk) : (clkMoved (-off) clk : Int) = clk - off * 65536 := by
  unfold clkMoved
  omega

@[simp] theorem setTim_tim (f : TimState → TimState) (s : State) : (setTim f s).tim = f s.tim := rfl

@[simp] theorem putTimSt_tim (st : Nat) (s : State) : (putTimSt st s).tim = { s.tim with st := st } := by
  unfold putTimSt
  split
  next hst => rw [← hst]
  · rw [notice_tim, setTim_tim]

/-- What a move makes end and close has no part in TIM (R343, R467, R572). -/
@[simp] theorem moveClock_tim (d : Int) (s : State) : (moveClock d s).tim = { s.tim with clk := clkMoved d s.tim.clk } := by
  have hfollows : ∀ t, (intervalClose (meaStep (endWindows t))).tim = t.tim := fun t =>
    ((intervalClose_changes _).same .tim (by decide)).trans (((meaStep_changes _).same .tim (by decide)).trans ((endWindows_changes t).same .tim (by decide)))
  exact hfollows _

@[simp] theorem firstStep_tim (src : Nat) (d : Int) (s : State) : (firstStep src d s).tim =
    { s.tim with valid := true, stepped := true, lastGood := s.tim.raw, st := 2, clk := clkMoved d s.tim.clk } := by
  unfold firstStep
  simp

/-! ## TIM_STEP -/

/-- A step by `d` ns of a clock whose time is valid. -/
def stepValid (mode : Nat) (d : Int) (u : State) : State :=
  moveClock d (putTimSt 2 (count 0x10040 (event 16 0x02 mode [beI 8 d] (setTim (fun t => { t with jumpRefused := false, good := 0 }) u))))

/-- A step by `d` ns that is the first one: SOURCE 5 stands where no source does. -/
def stepFirst (d : Int) (u : State) : State :=
  firstStep 5 d (setTim (fun t => { t with source := if t.source = 0 then 5 else t.source, jumpRefused := false }) u)

theorem stepValid_tim (mode : Nat) (d : Int) (u : State) : (stepValid mode d u).tim =
    { u.tim with jumpRefused := false, good := 0, st := 2, clk := clkMoved d u.tim.clk } := by
  unfold stepValid
  simp

theorem stepFirst_tim (d : Int) (u : State) : (stepFirst d u).tim =
    { u.tim with
      source := if u.tim.source = 0 then 5 else u.tim.source, jumpRefused := false, valid := true, stepped := true, lastGood := u.tim.raw
      st := 2, clk := clkMoved d u.tim.clk } := by
  unfold stepFirst
  simp

/-- How far MODE 1 moves the clock. -/
def distanceTo (sec ns : Nat) (u : State) : Int := (sec % 2 ^ 48 * 1000000000 + ns : Nat) - (u.tim.clk / 65536 : Nat)

theorem clkMoved_distanceTo (sec ns : Nat) (u : State) :
    clkMoved (distanceTo sec ns u) u.tim.clk = (sec % 2 ^ 48 * 1000000000 + ns) * 65536 + u.tim.clk % 65536 := clkMoved_to ..

section
variable {mode sec ns : Nat} {u : State}

theorem timStep_sets (hrun : islInRun u 16 = true) (hns : ns < 1000000000) (hvalid : u.tim.valid = true) :
    timStep 1 sec ns u = (stepValid 1 (distanceTo sec ns u) u, .done) := by
  unfold timStep
  simp [hrun, hvalid, hns, distanceTo, stepValid]

theorem timStep_sets_first (hrun : islInRun u 16 = true) (hns : ns < 1000000000) (hvalid : u.tim.valid = false) :
    timStep 1 sec ns u = (stepFirst (distanceTo sec ns u) u, .done) := by
  unfold timStep
  simp [hrun, hvalid, hns, distanceTo, stepFirst]

/-- MODE 0 subtracts the last offset, where it is the one of the source in use and not older than 3 s (R333; log entry 59). -/
theorem timStep_takesOut {off : Int} {at_ : Nat} (hrun : islInRun u 16 = true) (hvalid : u.tim.valid = true)
    (hlast : u.tim.lastOff = some (u.tim.source, off, at_)) (hfresh : u.tim.raw ≤ at_ + 3000000000) :
    timStep 0 0 0 u = (stepValid 0 (-off) u, .done) := by
  unfold timStep
  simp [hrun, hvalid, hlast, hfresh, stepValid]

theorem timStep_refused (hwhy : islInRun u 16 = false ∨ 2 ≤ mode ∨ 1000000000 ≤ ns ∨ (mode = 0 ∧ (sec ≠ 0 ∨ ns ≠ 0 ∨ u.tim.lastOff = none))) :
    timStep mode sec ns u = (u, .bad) := by
  by_cases hnone : mode = 0 ∧ u.tim.lastOff = none
  · obtain ⟨rfl, hlast⟩ := hnone
    unfold timStep
    simp [hlast]
  · refine if_pos ?_
    simp only [Bool.or_eq_true, Bool.and_eq_true, Bool.not_eq_true', decide_eq_true_eq]
    rcases hwhy with hdown | hmode | hns | ⟨hmode, hsec | hns | hlast⟩
    · exact .inl (.inl (.inl hdown))
    · exact .inl (.inl (.inr hmode))
    · exact .inl (.inr hns)
    · exact .inr ⟨hmode, .inl hsec⟩
    · exact .inr ⟨hmode, .inr hns⟩
    · exact absurd ⟨hmode, hlast⟩ hnone

end

/-- Settles O28: each row is one of the two steps or the refusal, and the answer leaves TIM as the step left it. -/
theorem timeStep : Obligations.TimeStep := by
  unfold Obligations.TimeStep
  refine ⟨?sets, ?takesOut, ?first, fun h mode sec ns s u hu hwhy => exec_of_entered rfl hu (timStep_refused hwhy)⟩
  case sets =>
    intro h sec ns s u hu hrun hns hvalid
    refine ⟨_, exec_of_entered rfl hu (timStep_sets hrun hns hvalid), ?_⟩
    rw [answered_tim, stepValid_tim]
    exact ⟨clkMoved_distanceTo .., rfl, hvalid, rfl, rfl⟩
  case takesOut =>
    intro h off at_ s u hu hrun hvalid hlast hfresh hreach
    refine ⟨_, exec_of_entered rfl hu (timStep_takesOut hrun hvalid hlast hfresh), ?_⟩
    rw [answered_tim, stepValid_tim]
    exact ⟨clkMoved_neg hreach, rfl, rfl⟩
  case first =>
    intro h sec ns s u hu hrun hns hvalid
    refine ⟨_, exec_of_entered rfl hu (timStep_sets_first hrun hns hvalid), ?_⟩
    rw [answered_tim, stepFirst_tim]
    exact ⟨clkMoved_distanceTo .., rfl, rfl, rfl⟩

end Sys2Proof.Machine
end

section
/-!
SUPPORT. O1 and O5: what a step is, and that it leaves the queue but its front, what was sent and the draws (log entries 1, 2, 98, 101).
-/
namespace Sys2Proof.Machine

/-- Every command answers a next state: no row faults or refuses. -/
theorem exec_answers (c : Instr) (s : State) : ∃ t, exec c s = .next t := by
  cases c <;> exact ⟨_, rfl⟩

/-- Settles O1: a step is the match on the queue, no word spells a command, and each row answers a next state. -/
theorem stepRunsTheFront : Obligations.StepRunsTheFront := by
  unfold Obligations.StepRunsTheFront
  refine ⟨fun c rest s hp => ?front, fun s hp => ?idle, fun _ _ _ => ⟨rfl, rfl⟩, exec_answers⟩
  case front => rw [step, hp]
  case idle => rw [step, hp]

/-- No command touches the queue of commands. -/
theorem exec_pending {c : Instr} {s t : State} (e : exec c s = .next t) : t.pending = s.pending :=
  (exec_changes e).same .pending (by decide)

/-- A step takes the front of the queue and leaves the rest, whatever the command at the front does. -/
theorem step_pending {s t : State} (h : step s = .next t) : t.pending = s.pending.tail := by
  unfold step at h
  split at h
  case h_1 hp =>
    obtain rfl := Host.Outcome.next.inj h
    rw [hp]
    exact ((idle_changes s).same .pending (by decide)).trans hp
  case h_2 c rest hp =>
    rw [hp]
    exact exec_pending h

/-- Settles O5: what every command and every step may change keeps the queue's rest, what was sent and the draws made. -/
theorem nothingTakenBack : Obligations.NothingTakenBack := by
  unfold Obligations.NothingTakenBack
  exact ⟨fun _ _ _ e => ⟨exec_pending e, (exec_changes e).sent, (exec_changes e).fresh⟩,
    fun _ _ h => ⟨step_pending h, (step_changes h).sent, (step_changes h).fresh⟩⟩

end Sys2Proof.Machine
end

section
/-!
SUPPORT. O58, O59 and O60: the frame of each row is its law under Sys2Proof/Laws/ChangesRows.lean.
-/
namespace Sys2Proof.Machine

/-- Settles O58: each management command by the law of its row. -/
theorem commandFrames : Obligations.CommandFrames := by
  unfold Obligations.CommandFrames
  exact ⟨fun _ _ _ _ _ e => (execRegRead_changes (e := e)).same,
    fun _ _ _ _ _ _ e => (execKeyLoad_changes (e := e)).same,
    fun _ _ _ _ e => (execKeyClear_changes (e := e)).same,
    fun _ _ _ _ e => (execKeyRead_changes (e := e)).same,
    fun _ _ _ _ e => (execSecZeroise_changes (e := e)).same,
    fun _ _ _ _ e => (execTblRead_changes (e := e)).same,
    fun _ _ _ _ e => (execTblFind_changes (e := e)).same,
    fun _ _ _ _ _ e => (execTblDump_changes (e := e)).same,
    fun _ _ _ _ _ _ _ e => (execTblWrite_changes (e := e)).same,
    fun _ _ _ _ _ _ _ _ _ _ e => (execTblProvision_changes (e := e)).same,
    fun _ _ _ _ _ _ _ e => (execTblKeyStage_changes (e := e)).same,
    fun _ _ _ _ e => (execTblRetire_changes (e := e)).same,
    fun _ _ _ _ _ _ _ e => (execTblSet_changes (e := e)).same,
    fun _ _ _ _ _ _ e => (execKeySignerLoad_changes (e := e)).same,
    fun _ _ _ _ e => (execRuleLoad_changes (e := e)).same,
    fun _ _ _ _ e => (execRuleActivate_changes (e := e)).same,
    fun _ _ _ _ e => (execRuleRemove_changes (e := e)).same,
    fun _ _ _ _ e => (execRuleRead_changes (e := e)).same,
    fun _ _ _ _ e => (execTopoLoad_changes (e := e)).same,
    fun _ _ _ e => (execTopoActivate_changes (e := e)).same,
    fun _ _ _ _ _ _ e => (execTopoRead_changes (e := e)).same,
    fun _ _ _ _ e => (execBalNodeRead_changes (e := e)).same,
    fun _ _ _ _ e => (execBalMeterRead_changes (e := e)).same,
    fun _ _ _ _ _ e => (execBalResetScores_changes (e := e)).same,
    fun _ _ _ _ e => (execCampCreate_changes (e := e)).same,
    fun _ _ _ _ _ _ e => (execCampData_changes (e := e)).same,
    fun _ _ _ _ e => (execCampSeal_changes (e := e)).same,
    fun _ _ _ _ _ e => (execCampAddMembers_changes (e := e)).same,
    fun _ _ _ _ _ e => (execCampRemoveMembers_changes (e := e)).same,
    fun _ _ _ _ e => (execCampStart_changes (e := e)).same,
    fun _ _ _ _ e => (execCampPause_changes (e := e)).same,
    fun _ _ _ _ e => (execCampCancel_changes (e := e)).same,
    fun _ _ _ _ e => (execCampClose_changes (e := e)).same,
    fun _ _ _ _ _ e => (execCampActivate_changes (e := e)).same,
    fun _ _ _ _ _ e => (execCampRollback_changes (e := e)).same,
    fun _ _ _ _ e => (execCampRead_changes (e := e)).same,
    fun _ _ _ _ _ _ e => (execCampMemberRead_changes (e := e)).same,
    fun _ _ _ _ e => (execPlcGmkRotate_changes (e := e)).same,
    fun _ _ _ _ _ e => (execPlcKick_changes (e := e)).same,
    fun _ _ _ _ e => (execRfKeyRotate_changes (e := e)).same,
    fun _ _ _ _ _ _ e => (execTimStep_changes (e := e)).same,
    fun _ _ _ e => (execPairRead_changes (e := e)).same,
    fun _ _ _ e => (execPairSwap_changes (e := e)).same,
    fun _ _ _ e => (execPairClear_changes (e := e)).same,
    fun _ _ _ e => (execArchInfo_changes (e := e)).same,
    fun _ _ _ _ _ _ e => (execArchRead_changes (e := e)).same,
    fun _ _ _ _ e => (execArchFindTime_changes (e := e)).same,
    fun _ _ _ _ e => (execArchTrim_changes (e := e)).same,
    fun _ _ _ _ e => (execArchOvfRead_changes (e := e)).same,
    fun _ _ _ _ e => (execArchOvfRelease_changes (e := e)).same,
    fun _ _ _ _ _ e => (execArchHostWrite_changes (e := e)).same,
    fun _ _ _ _ _ _ e => (execArchHostRead_changes (e := e)).same,
    fun _ _ _ _ e => (execArchFormat_changes (e := e)).same,
    fun _ _ _ _ _ e => (execEvtRead_changes (e := e)).same,
    fun _ _ _ e => (execEvtClear_changes (e := e)).same,
    fun _ _ _ _ _ e => (execMonRead_changes (e := e)).same,
    fun _ _ _ _ _ e => (execMonReset_changes (e := e)).same,
    fun _ _ _ _ _ e => (execQRead_changes (e := e)).same⟩

/-- Settles O59: each of these events by the law of its row. -/
theorem eventFrames : Obligations.EventFrames := by
  unfold Obligations.EventFrames
  exact ⟨fun _ _ _ e => (execIdleItemWrite_changes (e := e)).same,
    fun _ _ e => (execReadingDispatch_changes (e := e)).same,
    fun _ _ _ e => (execReadingVerify_changes (e := e)).same,
    fun _ _ _ e => (execReadingPosting_changes (e := e)).same,
    fun _ _ e => (execTokenReturn_changes (e := e)).same,
    fun _ _ _ e => (execSessionExpiry_changes (e := e)).same,
    fun _ _ _ _ e => (execPollIssue_changes (e := e)).same,
    fun _ _ _ e => (execFetchRetry_changes (e := e)).same,
    fun _ _ e => (execMoveReleaseQueue_changes (e := e)).same,
    fun _ _ _ e => (execRetireHoldExpiry_changes (e := e)).same,
    fun _ _ e => (execAgeCheck_changes (e := e)).same,
    fun _ _ e => (execBalanceIntervalClose_changes (e := e)).same,
    fun _ _ e => (execBalanceRun_changes (e := e)).same,
    fun _ _ e => (execBalanceReportPost_changes (e := e)).same,
    fun _ _ _ e => (execCampaignFrameSend_changes (e := e)).same,
    fun _ _ _ _ e => (execRepairRound_changes (e := e)).same,
    fun _ _ _ _ e => (execActivationBroadcast_changes (e := e)).same,
    fun _ _ _ e => (execActTimeLateExpiry_changes (e := e)).same,
    fun _ _ e => (execCampaignCheckpoint_changes (e := e)).same,
    fun _ _ _ e => (execActivationMarkPass_changes (e := e)).same,
    fun _ _ _ e => (execProfileClusterSwitch_changes (e := e)).same,
    fun _ _ _ e => (execBucketRedistribute_changes (e := e)).same,
    fun _ _ _ _ e => (execPlcFrameRx_changes (e := e)).same,
    fun _ _ _ _ e => (execPlcAckTimeout_changes (e := e)).same,
    fun _ _ _ _ e => (execRouteTtlExpiry_changes (e := e)).same,
    fun _ _ _ _ e => (execRouteWaitExpiry_changes (e := e)).same,
    fun _ _ _ _ _ e => (execReassemblyTimeout_changes (e := e)).same,
    fun _ _ _ _ e => (execShortHoldExpiry_changes (e := e)).same,
    fun _ _ _ _ e => (execZcReportSend_changes (e := e)).same,
    fun _ _ _ _ e => (execFpReportSend_changes (e := e)).same,
    fun _ _ _ _ e => (execZcEdge_changes (e := e)).same,
    fun _ _ _ e => (execZcLost_changes (e := e)).same,
    fun _ _ _ e => (execLdFaultFall_changes (e := e)).same,
    fun _ _ _ e => (execLdFaultResume_changes (e := e)).same,
    fun _ _ _ e => (execRfTimeslot_changes (e := e)).same,
    fun _ _ _ _ e => (execRfFrameRx_changes (e := e)).same,
    fun _ _ _ _ e => (execRfScan_changes (e := e)).same,
    fun _ _ _ _ e => (execSleepyQueueExpiry_changes (e := e)).same,
    fun _ _ _ _ e => (execEthFrameRx_changes (e := e)).same,
    fun _ _ _ _ _ _ e => (execEthLinkUp_changes (e := e)).same,
    fun _ _ _ e => (execEthLinkDown_changes (e := e)).same,
    fun _ _ _ e => (execTxBufferWaitExpiry_changes (e := e)).same,
    fun _ _ _ e => (execLldpSend_changes (e := e)).same,
    fun _ _ _ e => (execLpiIdleEntry_changes (e := e)).same,
    fun _ _ _ _ e => (execRelayFrameRx_changes (e := e)).same,
    fun _ _ _ e => (execRelayPauseHoldExpiry_changes (e := e)).same,
    fun _ _ _ _ e => (execRelayBatchClose_changes (e := e)).same,
    fun _ _ _ _ e => (execRelayAckTimeout_changes (e := e)).same,
    fun _ _ _ _ e => (execRelayBatchAck_changes (e := e)).same,
    fun _ _ e => (execSpoolDrain_changes (e := e)).same,
    fun _ _ _ _ e => (execPtpMessageRx_changes (e := e)).same,
    fun _ _ _ _ e => (execPtpMessageSend_changes (e := e)).same,
    fun _ _ _ e => (execSourceTimeout_changes (e := e)).same,
    fun _ _ e => (execTimeWord_changes (e := e)).same,
    fun _ _ _ e => (execTimeWordLoss_changes (e := e)).same,
    fun _ _ e => (execRtcWrite_changes (e := e)).same,
    fun _ _ e => (execLeapSecond_changes (e := e)).same,
    fun _ _ _ e => (execLdFaultPinRise_changes (e := e)).same,
    fun _ _ _ e => (execPartnerEeeTlvExpiry_changes (e := e)).same⟩

/-- Settles O60: each of these events by the law of its row. -/
theorem unitFrames : Obligations.UnitFrames := by
  unfold Obligations.UnitFrames
  exact ⟨fun _ _ _ e => (execTimNowNsRead_changes (e := e)).same,
    fun _ _ _ _ e => (execSeqPairLoRead_changes (e := e)).same,
    fun _ _ _ _ e => (execMeaPqSecondRead_changes (e := e)).same,
    fun _ _ _ e => (execInstallComplete_changes (e := e)).same,
    fun _ _ e => (execAutoConfirmExpiry_changes (e := e)).same,
    fun _ _ _ e => (execDozeIdleGate_changes (e := e)).same,
    fun _ _ _ e => (execMsixCoalesceExpiry_changes (e := e)).same,
    fun _ _ _ e => (execMsixUnmask_changes (e := e)).same,
    fun _ _ _ e => (execIslandClockStable_changes (e := e)).same,
    fun _ _ _ e => (execIslandLockLoss_changes (e := e)).same,
    fun _ _ _ e => (execEccCorrected_changes (e := e)).same,
    fun _ _ _ _ e => (execStandbyTableCopy_changes (e := e)).same,
    fun _ _ e => (execCopyComplete_changes (e := e)).same,
    fun _ _ _ e => (execHeartbeatSend_changes (e := e)).same,
    fun _ _ e => (execActInQuiet_changes (e := e)).same,
    fun _ _ e => (execActInEdge_changes (e := e)).same,
    fun _ _ e => (execClaimFlashWritten_changes (e := e)).same,
    fun _ _ e => (execPairWatchdogExpiry_changes (e := e)).same,
    fun _ _ e => (execSeekWaitExpiry_changes (e := e)).same,
    fun _ _ e => (execFencedExpiry_changes (e := e)).same,
    fun _ _ e => (execJournalBatchClose_changes (e := e)).same,
    fun _ _ _ _ _ _ e => (execJournalBatchRx_changes (e := e)).same,
    fun _ _ e => (execSwapHandover_changes (e := e)).same,
    fun _ _ e => (execSwapDrainExpiry_changes (e := e)).same,
    fun _ _ e => (execScheduledSwapDue_changes (e := e)).same,
    fun _ _ _ e => (execProofExpiry_changes (e := e)).same,
    fun _ _ _ _ e => (execMeaSecondEnd_changes (e := e)).same,
    fun _ _ e => (execMeaMinuteEnd_changes (e := e)).same,
    fun _ _ _ _ _ e => (execMeaHalfCycleRms_changes (e := e)).same,
    fun _ _ _ e => (execModulePresenceHigh_changes (e := e)).same,
    fun _ _ _ _ e => (execModulePresenceDebounce_changes (e := e)).same,
    fun _ _ e => (execEventAccept_changes (e := e)).same,
    fun _ _ e => (execEventArchiveWrite_changes (e := e)).same,
    fun _ _ e => (execEvtBucketRefill_changes (e := e)).same,
    fun _ _ _ e => (execRateWindowBoundary_changes (e := e)).same,
    fun _ _ _ _ e => (execMonSample_changes (e := e)).same,
    fun _ _ e => (execArchiveFlushExpiry_changes (e := e)).same,
    fun _ _ e => (execPageProgramComplete_changes (e := e)).same,
    fun _ _ _ _ e => (execProgramEraseFail_changes (e := e)).same,
    fun _ _ e => (execBlockCollection_changes (e := e)).same,
    fun _ _ e => (execWearLevelMove_changes (e := e)).same,
    fun _ _ e => (execThermalAgeTick_changes (e := e)).same,
    fun _ _ e => (execRetentionScan_changes (e := e)).same,
    fun _ _ _ e => (execArchiveMount_changes (e := e)).same,
    fun _ _ e => (execOverflowWriteback_changes (e := e)).same,
    fun _ _ e => (execTamperFall_changes (e := e)).same,
    fun _ _ e => (execWakePinFall_changes (e := e)).same,
    fun _ _ e => (execBkpAlarm_changes (e := e)).same,
    fun _ _ _ e => (execVbatLow_changes (e := e)).same,
    fun _ _ e => (execBkpSecondTick_changes (e := e)).same,
    fun _ _ _ _ e => (execPcieLinkUp_changes (e := e)).same,
    fun _ _ _ e => (execModulePresenceLow_changes (e := e)).same,
    fun _ _ e => (execArchFormatComplete_changes (e := e)).same⟩

end Sys2Proof.Machine
end

section
/-!
SUPPORT. O29 and O54: what the pair logic's operations leave of the pair (R352 to R358), and the commands of the pair (R372, R383).
-/
namespace Sys2Proof.Machine

/-! ## States of the pair -/

@[simp] theorem setPair_pair (f : PairState → PairState) (s : State) : (setPair f s).pair = f s.pair := rfl

/-- The pair in a state entered at a time; one that is in it already stays as it is. -/
def PairState.inSt (st : PairSt) (now : Nat) (p : PairState) : PairState := if p.st = st then p else { p with st := st, stAt := now }

theorem setSt_pair (st : PairSt) (s : State) : (setSt st s).pair = s.pair.inSt st s.tim.raw := by
  unfold setSt PairState.inSt
  split
  · rfl
  · simp

/-- What the claim and the lines of the interlock show: ACT_OUT, ACT_IN, the claims and whether one waits for the flash. -/
def PairState.grant (p : PairState) : Bool × Bool × Bool × W32 × W32 := (p.actOut, p.actInLive, p.flashPending, p.claim, p.prevClaim)

@[simp] theorem inSt_st (st : PairSt) (now : Nat) (p : PairState) : (p.inSt st now).st = st := by
  unfold PairState.inSt
  split
  case isTrue h => exact h
  case isFalse => rfl

@[simp] theorem inSt_grant (st : PairSt) (now : Nat) (p : PairState) : (p.inSt st now).grant = p.grant := by
  unfold PairState.inSt
  split <;> rfl

@[simp] theorem inSt_actOut (st : PairSt) (now : Nat) (p : PairState) : (p.inSt st now).actOut = p.actOut := congrArg (·.1) (inSt_grant st now p)
@[simp] theorem inSt_actInLive (st : PairSt) (now : Nat) (p : PairState) : (p.inSt st now).actInLive = p.actInLive :=
  congrArg (·.2.1) (inSt_grant st now p)
@[simp] theorem inSt_flashPending (st : PairSt) (now : Nat) (p : PairState) : (p.inSt st now).flashPending = p.flashPending :=
  congrArg (·.2.2.1) (inSt_grant st now p)
@[simp] theorem inSt_claim (st : PairSt) (now : Nat) (p : PairState) : (p.inSt st now).claim = p.claim := congrArg (·.2.2.2.1) (inSt_grant st now p)

@[simp] theorem setSt_jr (st : PairSt) (s : State) : (setSt st s).jr = s.jr := (setSt_changes st s).same .jr (by decide)

@[simp] theorem inSt_handoff (st : PairSt) (now : Nat) (p : PairState) : (p.inSt st now).handoff = p.handoff := by
  unfold PairState.inSt
  split <;> rfl

/-- Without ACT_OUT there is no grant (R352). -/
theorem granted_of_silent {s : State} (h : s.pair.actOut = false) : granted s = false := by
  simp [granted, h]

/-- While ACT_IN is live there is no grant (R352). -/
theorem granted_of_live {s : State} (h : s.pair.actInLive = true) : granted s = false := by
  simp [granted, h]

/-! ## Decisions of a unit that waits (R357, R366) -/

theorem seekDecide_of_notSeeking {s : State} (h : s.pair.st ≠ .seeking) (w : Bool) : seekDecide w s = s := by
  unfold seekDecide
  exact if_pos (by simp [h])

/-- While ACT_IN is live and the partner is not heard, a unit that seeks waits. -/
theorem seekDecide_of_live {s : State} (hlive : s.pair.actInLive = true) (hnone : partnerHb s = none) (w : Bool) : seekDecide w s = s := by
  unfold seekDecide
  split
  · rfl
  · simp [hnone]

/-- A unit that seeks, has waited and hears nobody takes the grant (R357). -/
theorem seekDecide_waited {s : State} (hst : s.pair.st = .seeking) (hpow : s.boot.power ≠ .hold) (hlive : s.pair.actInLive = false)
    (hnone : partnerHb s = none) : seekDecide true s = takeGrant .start s := by
  unfold seekDecide
  rw [if_neg (by simp [hst, hpow]), if_neg (by simp [hlive]), hnone]
  exact if_pos rfl

theorem takeDecide_of_other {s : State} (h1 : s.pair.st ≠ .standby) (h2 : s.pair.st ≠ .copying) : takeDecide s = s := by
  unfold takeDecide
  exact if_pos (by simp [h1, h2])

/-- A unit that neither seeks nor stands by decides nothing. -/
theorem decide_of_other {s : State} (h1 : s.pair.st ≠ .seeking) (h2 : s.pair.st ≠ .standby) (h3 : s.pair.st ≠ .copying) : decide_ s = s := by
  unfold decide_
  rw [seekDecide_of_notSeeking h1, takeDecide_of_other h2 h3]

theorem holder_decides {s : State} (h : s.pair.st = .active ∨ s.pair.st = .activeAlone ∨ s.pair.st = .lone ∨ s.pair.st = .fenced) :
    decide_ s = s := by
  rcases h with h | h | h | h <;> exact decide_of_other (by simp [h]) (by simp [h]) (by simp [h])

/-- A unit without the grant that hears nobody, with ACT_IN quiet and the pair link without signal, takes it (R366). -/
theorem decide_fails_over {s : State} (hst : s.pair.st = .standby ∨ s.pair.st = .copying) (hlive : s.pair.actInLive = false)
    (hheard : s.pair.heard = heardReset) (hsig : s.pair.prlSignal = false) : decide_ s = takeGrant .failover s := by
  have hseek : s.pair.st ≠ .seeking := by rcases hst with h | h <;> simp [h]
  have hwaits : (s.pair.st != .standby && s.pair.st != .copying || s.pair.actInLive) = false := by
    rcases hst with h | h <;> simp [h, hlive]
  unfold decide_
  rw [seekDecide_of_notSeeking hseek]
  unfold takeDecide
  rw [if_neg (by simp [hwaits])]
  simp [hheard, heardReset, hsig]

/-! ## Taking the grant (R358, R369) -/

@[simp] theorem pairNotice_pair (kind : Nat) (prev : W32) (a b : W64) (s : State) : (pairNotice kind prev a b s).pair = s.pair :=
  (pairNotice_changes ..).same .pair (by decide)

@[simp] theorem splitNotice_st (s : State) : (splitNotice s).pair.st = s.pair.st := by
  unfold splitNotice
  split
  · simp
  · rfl

@[simp] theorem splitNotice_grant (s : State) : (splitNotice s).pair.grant = s.pair.grant := by
  unfold splitNotice
  split
  · simp [PairState.grant]
  · rfl

/-- The pair in the state of one that has just taken the grant with its new claim. -/
def PairState.tookGrant (claim : W32) (p : PairState) : Prop :=
  p.actOut = true ∧ p.actInLive = false ∧ p.flashPending = true ∧ p.claim = claim + 1 ∧ p.prevClaim = claim

theorem PairState.tookGrant_of_grant {claim : W32} {p : PairState} (h : p.grant = (true, false, true, claim + 1, claim)) : p.tookGrant claim := by
  simpa [PairState.grant, PairState.tookGrant, Prod.mk.injEq] using h

@[simp] theorem startProof_grant (s : State) : (startProof s).pair.grant = s.pair.grant := rfl
@[simp] theorem startProof_st (s : State) : (startProof s).pair.st = s.pair.st := rfl

@[simp] theorem sourceDown_pair (code : Nat) (s : State) : (sourceDown code s).pair = s.pair := (sourceDown_changes code s).same .pair (by decide)
@[simp] theorem takeRoles_pair (s : State) : (takeRoles s).pair = s.pair := (takeRoles_changes s).same .pair (by decide)
@[simp] theorem advertise_pair (s : State) : (advertise s).pair = s.pair := (advertise_changes s).same .pair (by decide)

theorem pair_of_eventIf (c : Prop) [Decidable c] (isl code data : Nat) (conts : List (List Byte)) (s : State) :
    (if c then event isl code data conts s else s).pair = s.pair := by split <;> rfl

/-- A unit with a role and with ACT_OUT and ACT_IN quiet takes the grant, as ACTIVE_ALONE where it is one of a pair (R357, R366). -/
theorem takeGrant_takes {s : State} (k : Taking) (hrole : roleOf s ≠ 0) (hlive : s.pair.actInLive = false) (hout : s.pair.actOut = false)
    (hpair : isLone s = false) : (takeGrant k s).pair.st = .activeAlone ∧ (takeGrant k s).pair.tookGrant (knownClaim s) := by
  suffices h : (takeGrant k s).pair.st = .activeAlone ∧
      (takeGrant k s).pair.grant = (true, false, true, knownClaim s + 1, knownClaim s) from
    ⟨h.1, PairState.tookGrant_of_grant h.2⟩
  unfold takeGrant
  rw [if_neg (by simpa [hlive, hout] using hrole)]
  constructor
  · cases k <;> simp [hpair, setSt_pair]
  · cases k <;> simp only [hpair, setSt_pair, splitNotice_grant, pairNotice_pair, sourceDown_pair, takeRoles_pair, advertise_pair,
      setBal_pair, setJr_pair, inSt_grant, event_pair, count_pair, startProof_grant, setPair_pair, setReg_pair, pair_of_eventIf,
      Bool.false_eq_true, if_false] <;> simp [PairState.grant, hlive]

/-! ## Losing the grant (R352, R353, R371) -/

theorem stopActOut_pair (s : State) : (stopActOut s).pair =
    { s.pair with actOut := false, startAt := none, flashPending := false, proving := false, copyGiving := false, inStep := s.pair.handoff } := rfl

@[simp] theorem abandonWork_pair (s : State) : (abandonWork s).pair = s.pair := (abandonWork_changes s).same .pair (by decide)

theorem dropQueued_of_none {s : State} (h : s.pair.swap = none) : dropQueued s = s := by
  unfold dropQueued
  rw [h]

/-- The commands a swap held back end; of the pair only the swap goes. -/
theorem dropQueued_pair (s : State) : (dropQueued s).pair = { s.pair with swap := none } := by
  unfold dropQueued
  split
  case h_1 h => rw [← h]
  case h_2 w h =>
    have hfold : Changes [.regs, .eth, .jr, .host, .out] (setPair (fun p => { p with swap := none }) s)
        (w.queued.foldl (fun t x => complete x.1 (cmdOpcode x.2) .notActive (startInFlight x.1 t)) (setPair (fun p => { p with swap := none }) s)) :=
      Changes.foldl (fun _ _ ht => .step (complete_changes ..) (.step (startInFlight_changes ..) ht rfl) rfl) .refl
    exact hfold.same .pair (by decide)

/-- Readings in flight end when the grant goes: the journal and the marks stay as they are. -/
theorem endFlights_changes (l : List Flight) (s : State) :
    Changes [.regs, .pipe] s (l.foldl (fun t f => if f.stage == .committed then endFlight f.id t else dropFlight f.id t) s) :=
  Changes.foldl (fun _ _ ht => .ite (.step (endFlight_changes ..) ht rfl) (.step (dropFlight_changes ..) ht rfl)) .refl

/-- Where no answer waits for the journal, the journal ends with nothing open, nothing sent and nothing to post. -/
theorem abandonWork_jr {s : State} (hreplies : s.jr.replies = []) (hmarks : s.rules.marks = []) :
    (abandonWork s).jr = { s.jr with open_ := [], unacked := [], replies := [], delayed := [] } := by
  have hends := endFlights_changes s.pipe.flight s
  unfold abandonWork
  generalize s.pipe.flight.foldl (fun t f => if f.stage == .committed then endFlight f.id t else dropFlight f.id t) s = w at hends ⊢
  have hjr : w.jr = s.jr := hends.same .jr (by decide)
  have hrules : w.rules = s.rules := hends.same .rules (by decide)
  simp only [hjr, hrules, hreplies, hmarks, List.map_nil, List.append_nil, List.foldl_nil]
  rfl

/-- A unit that is fenced has no ACT_OUT, and its claim stands (R353, R368). -/
theorem fence_pair (cause : Nat) (s : State) :
    (fence cause s).pair.st = .fenced ∧ (fence cause s).pair.actOut = false ∧ (fence cause s).pair.claim = s.pair.claim := by
  have hends : ∀ t : State, t.pair.claim = s.pair.claim →
      let u := setSt .fenced (event 13 0x02 cause [] (count 0xD06C (dropQueued (abandonWork (stopActOut t)))))
      u.pair.st = .fenced ∧ u.pair.actOut = false ∧ u.pair.claim = s.pair.claim := fun t ht => by
    simp [setSt_pair, dropQueued_pair, stopActOut_pair, ht]
  unfold fence
  split
  · exact hends s rfl
  · exact hends _ rfl

/-- Where nothing waits for the journal or a swap, a fenced unit has no batch open or sent. -/
theorem fence_jr (cause : Nat) {s : State} (hreplies : s.jr.replies = []) (hmarks : s.rules.marks = []) (hswap : s.pair.swap = none) :
    (fence cause s).jr.unacked = [] ∧ (fence cause s).jr.open_ = [] := by
  have hends : ∀ t : State, t.jr = s.jr → t.rules = s.rules → t.pair.swap = none →
      let u := setSt .fenced (event 13 0x02 cause [] (count 0xD06C (dropQueued (abandonWork (stopActOut t)))))
      u.jr.unacked = [] ∧ u.jr.open_ = [] := fun t hj hr hs => by
    have hnone : (abandonWork (stopActOut t)).pair.swap = none := by simpa [stopActOut_pair] using hs
    have hjr : (stopActOut t).jr = s.jr := ((stopActOut_changes t).same .jr (by decide)).trans hj
    have hrules : (stopActOut t).rules = s.rules := ((stopActOut_changes t).same .rules (by decide)).trans hr
    simp [dropQueued_of_none hnone, abandonWork_jr (hjr ▸ hreplies) (hrules ▸ hmarks)]
  unfold fence
  split
  · exact hends s rfl rfl hswap
  · exact hends _ rfl rfl hswap

/-! ## The interlock (R351, R354) -/

/-- A live edge of ACT_IN as every unit notes it. -/
def edgeNoted (s : State) : State :=
  setPair (fun p => { p with actInLive := true, edgeAt := s.tim.raw, heard := heardReset, handoff := false }) s

/-- ACT_IN gone quiet as every unit notes it. -/
def quietNoted (s : State) : State := setPair (fun p => { p with actInLive := false, heard := heardReset }) s

theorem actInQuiet_early {s : State} (hlive : s.pair.actInLive = true) (hearly : s.tim.raw < s.pair.edgeAt + fieldOf s 0xD004 7 0 * 10000) :
    actInQuiet s = s := by
  unfold actInQuiet
  rw [if_neg (by simp [hlive]), if_pos hearly]

theorem actInQuiet_due {s : State} (hlive : s.pair.actInLive = true) (hdue : s.pair.edgeAt + fieldOf s 0xD004 7 0 * 10000 ≤ s.tim.raw) :
    actInQuiet s = decide_ (quietNoted s) := by
  unfold actInQuiet
  rw [if_neg (by simp [hlive]), if_neg (by omega)]
  rfl

/-- A unit whose start was not just now, or that is in position A, keeps the grant's lines. -/
theorem actInEdge_kept {s : State} (hst : s.pair.st = .active ∨ s.pair.st = .activeAlone ∨ s.pair.st = .lone)
    (hkeep : posB s = false ∨ ∀ t, s.pair.startAt = some t → t + 20000 < s.tim.raw) : actInEdge s = edgeNoted s := by
  have hdecide : decide_ (edgeNoted s) = edgeNoted s := holder_decides (by rcases hst with h | h | h <;> simp [edgeNoted, h])
  unfold actInEdge
  dsimp only
  split
  case h_1 t0 hstart =>
    have hstart' : s.pair.startAt = some t0 := hstart
    split
    case isTrue hnow =>
      rcases hkeep with hA | hlate
      · exact if_neg (by simpa [posB] using hA)
      · exact absurd (of_decide_eq_true (Bool.and_eq_true _ _ ▸ hnow).2) (Nat.not_le.mpr (hlate t0 hstart'))
    case isFalse => rfl
  case h_2 => exact hdecide

/-- Within 20 µs of a start position B gives way, and goes back to the state it came from (R354). -/
theorem actInEdge_givesWay {s : State} {t0 : Nat} (hpos : posB s = true) (hstart : s.pair.startAt = some t0) (hout : s.pair.actOut = true)
    (hsoon : s.tim.raw ≤ t0 + 20000) (hback : s.pair.before = .standby) :
    (actInEdge s).pair.st = .standby ∧ (actInEdge s).pair.actOut = false ∧ (actInEdge s).pair.actInLive = true ∧
      (actInEdge s).pair.flashPending = false := by
  have heq : actInEdge s = setSt .standby (dropQueued (abandonWork (stopActOut (edgeNoted s)))) := by
    unfold actInEdge
    dsimp only
    rw [show (setPair (fun p => { p with actInLive := true, edgeAt := s.tim.raw, heard := heardReset, handoff := false }) s).pair.startAt =
      some t0 from hstart]
    dsimp only
    rw [if_pos (by simp [hout, hsoon]), if_pos (by simpa [posB] using hpos), setPair_pair, hback]
    exact seekDecide_of_notSeeking (by simp [setSt_pair]) false
  rw [heq]
  simp [setSt_pair, dropQueued_pair, stopActOut_pair, edgeNoted]

/-! ## Watchdog, fence and flash (R353, R355, R358) -/

theorem pairWatchdog_fences {s : State} (hout : s.pair.actOut = true) : pairWatchdog s = fence 0 (if s.pair.proving then proofFailed 2 s else s) := by
  unfold pairWatchdog
  exact if_neg (by simp [hout])

/-- A watchdog's expiry takes ACT_OUT away; what waited for no one goes with the journal. -/
theorem pairWatchdog_stops {s : State} (hout : s.pair.actOut = true) :
    (pairWatchdog s).pair.st = .fenced ∧ (pairWatchdog s).pair.actOut = false ∧ (pairWatchdog s).pair.claim = s.pair.claim ∧
      (s.jr.replies = [] → s.rules.marks = [] → s.pair.swap = none → (pairWatchdog s).jr.unacked = [] ∧ (pairWatchdog s).jr.open_ = []) := by
  rw [pairWatchdog_fences hout]
  split
  · obtain ⟨hst, hsilent, hclaim⟩ := fence_pair 0 (proofFailed 2 s)
    exact ⟨hst, hsilent, hclaim, fun hr hm hs => fence_jr 0 (s := proofFailed 2 s) hr hm hs⟩
  · obtain ⟨hst, hsilent, hclaim⟩ := fence_pair 0 s
    exact ⟨hst, hsilent, hclaim, fun hr hm hs => fence_jr 0 hr hm hs⟩

theorem seek_pair (s : State) :
    (seek s).pair = ({ s.pair with handoff := false, inStep := false, copyItem := 0 } : PairState).inSt .seeking s.tim.raw := by
  unfold seek
  rw [setSt_pair, setPair_pair, setPair_tim]

theorem partnerHb_congr {s t : State} (h1 : t.pair.hb1 = s.pair.hb1) (h2 : t.pair.hb2 = s.pair.hb2) : partnerHb t = partnerHb s := by
  unfold partnerHb
  rw [h1, h2]

@[simp] theorem inSt_hb1 (st : PairSt) (now : Nat) (p : PairState) : (p.inSt st now).hb1 = p.hb1 := by
  unfold PairState.inSt
  split <;> rfl
@[simp] theorem inSt_hb2 (st : PairSt) (now : Nat) (p : PairState) : (p.inSt st now).hb2 = p.hb2 := by
  unfold PairState.inSt
  split <;> rfl

/-- After its second a fenced unit that still hears ACT_IN seeks, with the claim it had (R355). -/
theorem fencedExpiry_seeks {s : State} (hst : s.pair.st = .fenced) (hisl : (islOf s 13).st ≠ .off) (hlive : s.pair.actInLive = true)
    (hnone : partnerHb s = none) (hdue : s.pair.stAt + 1000000000 ≤ s.tim.raw) : fencedExpiry s = seek s := by
  unfold fencedExpiry
  rw [if_neg (by simp [hst, hdue]), if_neg (by simpa using hisl)]
  refine seekDecide_of_live (by simp [seek_pair, hlive]) ?_ false
  rw [← hnone]
  exact partnerHb_congr (by simp [seek_pair]) (by simp [seek_pair])

theorem holdEntry_copy (to_ : BitVec 12) (e : Entry) (s : State) : (holdEntry to_ e s).relay.copy = s.relay.copy := by
  unfold holdEntry
  rw [journal_relay]
  rfl

theorem holdEntries_copy (l : List (BitVec 12 × Entry)) (s : State) :
    (l.foldl (fun t p => holdEntry p.1 p.2 t) s).relay.copy = s.relay.copy := by
  induction l generalizing s with
  | nil => rfl
  | cons x l ih => rw [List.foldl_cons, ih, holdEntry_copy]

/-- What a unit that holds its claim in the flash resends: the postings that waited, and the entries kept for their receivers. -/
def claimResent (s : State) : State :=
  let again := s.jr.delayed.filter (·.2.1)
  let copy := s.relay.copy
  let s := setRelay (fun r => { r with copy := [] }) (setJr (fun j => { j with delayed := j.delayed.filter (!·.2.1) }) s)
  let s := drainDelayed (again.foldl (fun t p => doPost p.1 true p.2.2 t) s)
  copy.foldl (fun t p => holdEntry p.1 p.2 t) s

theorem claimFlashWritten_eq {s : State} (hflash : s.pair.flashPending = true) : claimFlashWritten s =
    let t := claimResent (setPair (fun p => { p with flashPending := false, claimFlash := p.claim }) s)
    if t.pair.proving then resumeAll true (resumeAll false t) else t := by
  unfold claimFlashWritten
  rw [if_neg (by simp [hflash])]
  rfl

theorem claimReposts_changes (s : State) : Changes [.regs, .jr, .host, .out] (setRelay (fun r => { r with copy := [] }) s)
    (drainDelayed ((s.jr.delayed.filter (·.2.1)).foldl (fun t p => doPost p.1 true p.2.2 t)
      (setRelay (fun r => { r with copy := [] }) (setJr (fun j => { j with delayed := j.delayed.filter (!·.2.1) }) s)))) :=
  .step (drainDelayed_changes _) (Changes.foldl (fun _ _ ht => .step (doPost_changes ..) ht rfl) ((Changes.set_jr _ _).mono rfl)) rfl

theorem claimResent_changes (s : State) : Changes [.regs, .relay, .jr, .host, .out] s (claimResent s) :=
  Changes.foldl (fun _ _ ht => .step (holdEntry_changes ..) ht rfl)
    (.step (claimReposts_changes s) ((setRelay_changes _ s).mono rfl) rfl)

/-- The copy of the hold area is empty once its entries are held as the unit's own. -/
theorem claimResent_copy (s : State) : (claimResent s).relay.copy = [] := by
  refine (holdEntries_copy _ _).trans ?_
  exact congrArg RelayState.copy ((claimReposts_changes s).same .relay (by decide))

theorem claimFlashWritten_pair {s : State} (hflash : s.pair.flashPending = true) :
    (claimFlashWritten s).pair = { s.pair with flashPending := false, claimFlash := s.pair.claim } := by
  have hres := (claimResent_changes (setPair (fun p => { p with flashPending := false, claimFlash := p.claim }) s)).same .pair (by decide)
  rw [claimFlashWritten_eq hflash]
  dsimp only
  split
  · exact ((resumeAll_changes true _).same .pair (by decide)).trans (((resumeAll_changes false _).same .pair (by decide)).trans hres)
  · exact hres

/-! ## The copy and the heartbeats (R363, R364) -/

/-- The joiner's state once the last item has come. -/
theorem copyComplete_done {s : State} (hst : s.pair.st = .copying) (hitem : 5 < s.pair.copyItem) :
    copyComplete s = setSt .standby (setPair (fun p => { p with copyPct := 100, copyItem := 0, inStep := true }) (count 0xD070 s)) := by
  unfold copyComplete
  rw [if_neg (by simp [hst, hitem])]

/-- A heartbeat over the pair link, where its number does not come round to the start of the epoch. -/
theorem heartbeatNow_link {s : State} (hon : pairOn s = true) (hrun : islRun s 13 = true) (hround : s.pair.hb1.ownSeq + 1 ≠ s.pair.hb1.ownStart) :
    heartbeatNow 1 s = setPair (fun p => { p with hb1 := { s.pair.hb1 with ownSeq := s.pair.hb1.ownSeq + 1, sentAt := s.tim.raw } })
      (emit (.heartbeat 1 (heartbeatOf s s.pair.hb1 s.pair.hb1.ownSeq)) s) := by
  unfold heartbeatNow
  rw [if_neg (by simp [hon, hrun])]
  exact if_neg hround

/-- Settles O54: each row by the decision it comes to, and what the operations of that decision leave of the pair. -/
theorem grantMoves : Obligations.GrantMoves := by
  unfold Obligations.GrantMoves
  refine ⟨?seekTakes, ?seekWaits, ?quietTakes, ?quietHolds, ?edgeHolds, ?edgeGives, ?watchdog, ?watchdogNot, ?fencedSeeks, ?fencedWaits,
    ?quietEarly, ?flash, ?flashNot, ?copyGives, ?copyTakes, ?copyNot, ?copyEnds, ?copyGoesOn, ?hbSends, ?hbWaits⟩
  case seekTakes =>
    intro s hon hst hpow hlive hout hnone hrole hdue
    have heq : seekWaitExpiry s = takeGrant .start s := by
      unfold seekWaitExpiry
      rw [if_neg (by simp [hon, hdue])]
      exact seekDecide_waited hst hpow hlive hnone
    obtain ⟨hst', hact, -, hflash, hclaim, hprev⟩ := takeGrant_takes (k := .start) hrole hlive hout (by simp [isLone, hst])
    exact ⟨_, congrArg Host.Outcome.next heq, hst', hact, hflash, hclaim, hprev⟩
  case seekWaits =>
    intro s hnot
    refine congrArg Host.Outcome.next ?_
    unfold seekWaitExpiry
    dsimp only
    split
    · rfl
    · rename_i h
      simp only [Bool.or_eq_true, Bool.not_eq_true', decide_eq_true_eq, not_or] at h
      rcases hnot with hoff | hst | hearly
      · exact absurd hoff h.1
      · exact seekDecide_of_notSeeking hst true
      · exact absurd hearly h.2
  case quietTakes =>
    intro s hst hlive hout hsig hrole hdue
    have heq : actInQuiet s = takeGrant .failover (quietNoted s) :=
      (actInQuiet_due hlive hdue).trans (decide_fails_over hst rfl rfl hsig)
    obtain ⟨hst', hact, hquiet, -, hclaim, -⟩ := takeGrant_takes (s := quietNoted s) .failover hrole rfl hout
      (by rcases hst with h | h <;> simp [isLone, quietNoted, h])
    exact ⟨_, congrArg Host.Outcome.next heq, hst', hact, hquiet, hclaim⟩
  case quietHolds =>
    intro s hst hlive hdue
    exact ⟨_, congrArg Host.Outcome.next ((actInQuiet_due hlive hdue).trans (holder_decides hst)), rfl, (setPair_changes _ s).same⟩
  case edgeHolds =>
    intro s hst hkeep
    exact ⟨_, congrArg Host.Outcome.next (actInEdge_kept hst hkeep), rfl, (setPair_changes _ s).same, granted_of_live rfl⟩
  case edgeGives =>
    intro s t0 hpos hstart hout hsoon hback
    exact ⟨_, rfl, actInEdge_givesWay hpos hstart hout hsoon hback⟩
  case watchdog =>
    intro s hout
    obtain ⟨hst, hsilent, hclaim, hjr⟩ := pairWatchdog_stops hout
    exact ⟨_, rfl, hst, hsilent, granted_of_silent hsilent, hclaim, hjr⟩
  case watchdogNot =>
    intro s hout
    exact congrArg Host.Outcome.next (if_pos (by simp [hout]))
  case fencedSeeks =>
    intro s hst hisl hlive hnone hdue
    exact ⟨_, congrArg Host.Outcome.next (fencedExpiry_seeks hst hisl hlive hnone hdue), by simp [seek_pair], by simp [seek_pair], by simp [seek_pair]⟩
  case fencedWaits =>
    intro s hnot
    exact congrArg Host.Outcome.next (if_pos (by simpa using hnot))
  case quietEarly =>
    intro s hlive hearly
    exact congrArg Host.Outcome.next (actInQuiet_early hlive hearly)
  case flash =>
    intro s hflash
    have hpair := claimFlashWritten_pair hflash
    refine ⟨_, rfl, by rw [hpair], by rw [hpair], by rw [hpair], fun hproving => ?_⟩
    rw [claimFlashWritten_eq hflash]
    dsimp only
    rw [(claimResent_changes _).same .pair (by decide), if_neg (by simp [hproving])]
    exact claimResent_copy _
  case flashNot =>
    intro s hflash
    exact congrArg Host.Outcome.next (if_pos (by simp [hflash]))
  case copyGives =>
    intro item ents s hrun hgive hlo hhi
    have heq : standbyTableCopy item ents s =
        emit (.copyItem s.pair.copyItem (copyEntries s.pair.copyItem s)) (setPair (fun p => { p with copyItem := p.copyItem + 1 }) s) := by
      unfold standbyTableCopy
      rw [if_neg (by simp [hrun]), if_pos hgive, if_neg (by simp; omega)]
    exact ⟨_, congrArg Host.Outcome.next heq, rfl, rfl, (Changes.step (emit_changes ..) ((setPair_changes _ s).mono rfl) rfl).same⟩
  case copyTakes =>
    intro item ents s hrun hgive hst hitem hle
    refine congrArg Host.Outcome.next ?_
    unfold standbyTableCopy
    rw [if_neg (by simp [hrun]), if_neg (by simp [hgive]), if_pos (by simp [hst, hitem, hle])]
  case copyNot =>
    intro item ents s hnot
    refine congrArg Host.Outcome.next ?_
    unfold standbyTableCopy
    rcases hnot with hstop | ⟨hgive, hother⟩
    · exact if_pos (by simp [hstop])
    · split
      · rfl
      · rw [if_neg (by simp [hgive]), if_neg (by rcases hother with h | h <;> simp [h])]
  case copyEnds =>
    intro s hst hitem
    refine ⟨_, congrArg Host.Outcome.next (copyComplete_done hst hitem), ?_, ?_, ?_, ?_⟩
    · rw [setSt_pair, inSt_st]
    · simp [setSt_pair, PairState.inSt, hst]
    · simp [setSt_pair, PairState.inSt, hst]
    · exact (Changes.step (setSt_changes ..) (.step (setPair_changes ..) ((count_changes _ s (by decide)).mono rfl) rfl) rfl).same
  case copyGoesOn =>
    intro s hnot
    exact congrArg Host.Outcome.next (if_pos (by simpa using hnot))
  case hbSends =>
    intro s hon hrun hround hdue
    have heq : heartbeatSend 1 s = heartbeatNow 1 s := if_neg (Nat.not_lt.mpr hdue)
    exact ⟨_, congrArg Host.Outcome.next (heq.trans (heartbeatNow_link hon hrun hround)), rfl, rfl,
      (Changes.step (setPair_changes ..) ((emit_changes ..).mono rfl) rfl).same⟩
  case hbWaits =>
    intro path s hnot
    refine congrArg Host.Outcome.next ?_
    unfold heartbeatSend
    split
    · rfl
    · rcases hnot with hoff | hearly
      · unfold heartbeatNow
        exact if_pos (by simp [hoff])
      · exact absurd hearly ‹_›

/-! ## The commands of the pair (R372, R383) -/

/-- A swap begins: of the pair only the swap is noted. -/
theorem startSwap_pair (b : Bool) (s : State) : (startSwap b s).pair = { s.pair with swap := some ⟨b, [], s.tim.raw⟩ } :=
  ((pauseAll_changes true _).same .pair (by decide)).trans ((pauseAll_changes false _).same .pair (by decide))

theorem pairSwap_busy {s : State} (h : s.pair.st = .lone ∨ s.pair.swap ≠ none ∨ s.pair.copyGiving = true ∨ swapPartner s false = false) :
    pairSwap s = (s, .busy) := by
  refine if_pos ?_
  rcases h with h | h | h | h <;> simp [isLone, h, Option.isSome_iff_ne_none]

theorem pairSwap_starts {s : State} (hst : s.pair.st ≠ .lone) (hswap : s.pair.swap = none) (hgive : s.pair.copyGiving = false)
    (hpartner : swapPartner s false = true) : pairSwap s = (startSwap false s, .done) :=
  if_neg (by simp [isLone, hst, hswap, hgive, hpartner])

/-- Settles O29: each command by what it answers, in the state it enters. -/
theorem pairCommands : Obligations.PairCommands := by
  unfold Obligations.PairCommands
  refine ⟨fun h s u hu => ?read, fun h s u hu hst hswap hgive hpartner => ?swap, fun h s u hu hbusy => ?busy, fun h s u hu => ?clear⟩
  case read =>
    refine ⟨_, _, _, exec_of_entered rfl hu rfl, ?_, rfl, rfl⟩
    exact (take_padTo (by omega) (by simp)).trans (List.take_of_length_le (by simp))
  case swap =>
    refine ⟨_, exec_of_entered rfl hu (pairSwap_starts hst hswap hgive hpartner), ?_⟩
    rw [answered_pair, startSwap_pair]
  case busy => exact exec_of_entered rfl hu (pairSwap_busy hbusy)
  case clear => exact ⟨_, exec_of_entered rfl hu rfl, answered_pair ..⟩

end Sys2Proof.Machine
end

section
/-!
SUPPORT. O55: heartbeats, the loss of a path, the journal's batches and orderly swaps (R360 to R373, R378).
-/
namespace Sys2Proof.Machine

/-! ## Heartbeats received (R364, R365, R368) -/

theorem heartbeatRx_ignored {path : Nat} {hb : Heartbeat} {s : State} (h : pairOn s = false ∨ path = 0 ∨ 2 < path) : heartbeatRx path hb s = s :=
  if_pos (by rcases h with h | h | h <;> simp [h])

/-- A heartbeat whose tag fails is counted; a unit that has heard its partner decides nothing on it. -/
theorem heartbeatRx_foreign {path : Nat} {hb l : Heartbeat} {s : State} (hon : pairOn s = true) (hpath : path = 2 ∨ path = 1 ∧ islRun s 13 = true)
    (hkey : s.sec.pairKey ≠ some hb.key) (hlast : s.pair.hb1.last = some l) : heartbeatRx path hb s = count 0xD048 s := by
  have hopen : (!pairOn s || decide (2 < path) || decide (path = 0) || (decide (path = 1) && !islRun s 13)) = false := by
    rcases hpath with rfl | ⟨rfl, hrun⟩
    · simp [hon]
    · simp [hon, hrun]
  unfold heartbeatRx
  rw [if_neg (by simp [hopen]), if_pos (by simpa using hkey)]
  exact if_neg (by simp [hlast])

/-- What a heartbeat accepted on the Ethernet path is noted as: the path is not lost, and its claim and state are the partner's. -/
def hbNoted (hb : Heartbeat) (s : State) : State :=
  setPair (fun p => { p with partnerClaim := hb.claim, heard :=
      if p.actInLive then p.heard else { p.heard with p2 := some (hb.st == .active || hb.st == .activeAlone, hb.handoff) } })
    (setPath 2 { s.pair.hb2 with lost := false, last := some hb, at_ := s.tim.raw, rx := localTime s } s)

theorem heartbeatRx_ethernet {hb : Heartbeat} {s : State} (hon : pairOn s = true) (hkey : s.sec.pairKey = some hb.key) (hver : hb.version = 1)
    (hfresh : hbFresh s s.pair.hb2 hb = true) :
    heartbeatRx 2 hb s =
      let t := setFault (pairFault s hb) hb.saltFp (hbNoted hb s)
      if t.pair.actOut then holderHb hb t else standbyHb hb t := by
  unfold heartbeatRx
  rw [if_neg (by simp [hon]), if_neg (by simp [hkey])]
  exact if_neg (by simpa [hver, pathOf] using hfresh)

@[simp] theorem setFault_actOut (code : Nat) (fp : W32) (s : State) : (setFault code fp s).pair.actOut = s.pair.actOut := by
  unfold setFault
  split
  · rfl
  · by_cases h0 : code = 0 <;> by_cases h3 : code = 3 <;> simp [h0, h3]

@[simp] theorem setFault_claim (code : Nat) (fp : W32) (s : State) : (setFault code fp s).pair.claim = s.pair.claim := by
  unfold setFault
  split
  · rfl
  · by_cases h0 : code = 0 <;> by_cases h3 : code = 3 <;> simp [h0, h3]

/-- A unit that serves alone waits for a seeking partner to ask for the copy. -/
theorem holderHb_seeking {hb : Heartbeat} {s : State} (hfault : s.pair.fault = 0) (hst : s.pair.st = .activeAlone) (hstep : s.pair.inStep = false)
    (hswap : s.pair.swap = none) (hseek : hb.st = .seeking) : holderHb hb s = s := by
  unfold holderHb
  simp [hfault, hst, hstep, hswap, hseek, partnerOk]

theorem holderHb_defeated {hb : Heartbeat} {s : State} (hst : hb.st = .active) (hclaim : s.pair.claim < hb.claim) : holderHb hb s = fence 1 s :=
  if_pos (by simp [hst, hclaim])

/-! ## Lost paths (R364, R366, R367) -/

theorem heartbeatPathLost_ignored {path : Nat} {s : State} (h : pairOn s = false ∨ path = 0 ∨ 2 < path ∨ (pathOf s path).lost = true ∨
    s.tim.raw < (pathOf s path).at_ + fieldOf s 0xD004 19 16 * hbInterval path s) : heartbeatPathLost path s = s :=
  if_pos (by rcases h with h | h | h | h | h <;> simp [h])

/-- The Ethernet path as lost: the counter, and what was heard on it. -/
def ethPathLost (s : State) : State :=
  setPair (fun p => { p with heard := { p.heard with p2 := none } }) (setPath 2 { s.pair.hb2 with lost := true } (count 0xD050 s))

/-- The pair link's path as lost. -/
def linkPathLost (s : State) : State :=
  noteLost (setPair (fun p => { p with heard := { p.heard with p1 := none } }) (setPath 1 { s.pair.hb1 with lost := true } (count 0xD04C s)))

theorem heartbeatPathLost_ethernet {s : State} (hon : pairOn s = true) (hst : s.pair.st = .active) (h1 : s.pair.hb1.lost = false)
    (h2 : s.pair.hb2.lost = false) (hdue : s.pair.hb2.at_ + fieldOf s 0xD004 19 16 * hbInterval 2 s ≤ s.tim.raw) :
    heartbeatPathLost 2 s = ethPathLost s := by
  have hnote : noteLost (ethPathLost s) = ethPathLost s := if_neg (by simp [ethPathLost, setPath, h1])
  have hgone : pathGone (ethPathLost s) = ethPathLost s := by
    unfold pathGone
    rw [if_neg (by simp [ethPathLost, setPath, hst])]
    exact holder_decides (.inl (by simp [ethPathLost, setPath, hst]))
  unfold heartbeatPathLost
  rw [if_neg (by simp [hon, pathOf, h2, hdue])]
  exact (congrArg pathGone hnote).trans hgone

theorem heartbeatPathLost_link {s : State} (hon : pairOn s = true) (h1 : s.pair.hb1.lost = false) (hjr : journals (sourceDown 3 (linkPathLost s)) = true)
    (hdue : s.pair.hb1.at_ + fieldOf s 0xD004 19 16 * hbInterval 1 s ≤ s.tim.raw) :
    heartbeatPathLost 1 s = standbyLost 1 (sourceDown 3 (linkPathLost s)) := by
  unfold heartbeatPathLost
  rw [if_neg (by simp [hon, pathOf, h1, hdue])]
  exact if_pos hjr

theorem noteLost_pair (s : State) : ∃ w, (noteLost s).pair = { s.pair with lostAt := w } := by
  unfold noteLost
  split
  · exact ⟨_, rfl⟩
  · exact ⟨s.pair.lostAt, rfl⟩

@[simp] theorem releaseReplies_pair (s : State) : (releaseReplies s).pair = s.pair := (releaseReplies_changes s).same .pair (by decide)

/-- An active unit without a swap that loses its standby serves alone (R367). -/
theorem standbyLost_alone {s : State} (cause : Nat) (hst : s.pair.st = .active) (hswap : s.pair.swap = none) :
    (standbyLost cause s).pair = ({ s.pair with copyGiving := false, inStep := false } : PairState).inSt .activeAlone s.tim.raw := by
  have habort : ∀ t : State, t.pair.swap = none → abortSwap 1 t = t := fun t ht => by
    unfold abortSwap
    rw [ht]
  unfold standbyLost
  dsimp only
  rw [if_neg (by simp [journals, hst]), if_neg (by simp [hst]), habort _ (by simpa using hswap)]
  simp [setSt_pair]

/-! ## The journal (R360, R361) -/

theorem journalBatchClose_sends {s : State} (hopen : s.jr.open_ ≠ []) (hjr : journals s = true) (hrun : islRun s 13 = true) :
    journalBatchClose s = emit (.journalBatch s.jr.nextNum s.jr.mark s.jr.open_) (setJr (fun j => { j with
      open_ := [], nextNum := s.jr.nextNum + 1, unacked := j.unacked ++ [(s.jr.nextNum, false, j.open_)]
      sentAt := Kv.put s.jr.nextNum s.tim.raw j.sentAt }) s) :=
  if_neg (by simp [hopen, hjr, hrun])

/-- A unit that joins or stands by, and its pair link in service, take batches. -/
theorem journalBatchRx_open {s : State} (hst : s.pair.st = .standby ∨ s.pair.st = .copying) (hrun : islRun s 13 = true) :
    ((s.pair.st != .copying && s.pair.st != .standby) || !islRun s 13) = false := by
  rcases hst with h | h <;> simp [h, hrun]

/-- A batch that cannot be read ends the standby: while ACT_IN is live and nobody is heard it waits in SEEKING (R361). -/
theorem cannotApply_seeks {s : State} (num : Nat) (hlive : s.pair.actInLive = true) (hnone : partnerHb s = none) :
    cannotApply num s = seek (event 13 0x09 (num % 2 ^ 32) [] s) :=
  seekDecide_of_live (by simp [seek_pair, hlive]) ((partnerHb_congr (by simp [seek_pair]) (by simp [seek_pair])).trans hnone) false

theorem releaseReplies_of_none {s : State} (h : s.jr.replies = []) : releaseReplies s = s := by
  unfold releaseReplies
  simp [h]
  rw [← h]

theorem journalAckRx_frees {n : Nat} {s : State} (hjr : journals s = true) (hin : ∃ b ∈ s.jr.unacked, b.1 = n) (hreplies : s.jr.replies = []) :
    journalAckRx n s =
      count 0xD040 { s with jr := { s.jr with unacked := s.jr.unacked.filter (fun b => b.1 != n), sentAt := Kv.del n s.jr.sentAt } } := by
  have hany : s.jr.unacked.any (fun b => b.1 == n) = true := List.any_eq_true.mpr (hin.imp fun b hb => ⟨hb.1, beq_iff_eq.mpr hb.2⟩)
  unfold journalAckRx
  rw [if_neg (by simp [hjr, hany])]
  exact releaseReplies_of_none hreplies

theorem journalAckRx_unknown {n : Nat} {s : State} (h : journals s = false ∨ ∀ b ∈ s.jr.unacked, b.1 ≠ n) : journalAckRx n s = s := by
  refine if_pos ?_
  rcases h with h | h
  · simp [h]
  · rw [Bool.or_eq_true, List.any_eq_false.mpr fun b hb => by simpa using h b hb]
    exact .inr rfl

theorem jackTimeout_unknown {n : Nat} {s : State} (h : journals s = false ∨ ∀ b ∈ s.jr.unacked, b.1 ≠ n) : jackTimeout n s = s := by
  have hnone : (if journals s then s.jr.unacked.find? (fun b => b.1 == n) else none) = none := by
    rcases h with h | h
    · simp [h]
    · simpa using fun _ a b c hm => h (a, b, c) hm
  unfold jackTimeout
  rw [hnone]

theorem jackTimeout_early {n : Nat} {s : State} (h : s.tim.raw < s.jr.sentAt.getD n 0 + fieldOf s 0xD008 31 24 * 1000000) : jackTimeout n s = s := by
  unfold jackTimeout
  split
  · rfl
  · exact if_pos h

/-- The one batch that is out is not acknowledged in time: it is sent once more, and then the standby is lost (R360). -/
theorem jackTimeout_due {n : Nat} {again : Bool} {ents : List JEntry} {s : State} (hjr : journals s = true) (hout : s.jr.unacked = [(n, again, ents)])
    (hdue : s.jr.sentAt.getD n 0 + fieldOf s 0xD008 31 24 * 1000000 ≤ s.tim.raw) :
    jackTimeout n s = if again then standbyLost 0 s else
      emit (.journalBatch n s.jr.mark ents)
        (count 0xD044 { s with jr := { s.jr with unacked := [(n, true, ents)], sentAt := Kv.put n s.tim.raw s.jr.sentAt } }) := by
  unfold jackTimeout
  simp only [hjr, hout, if_true, List.find?_cons, beq_self_eq_true]
  rw [if_neg (Nat.not_lt.mpr hdue)]
  simp [setJr, hout]

/-! ## Orderly swaps (R371, R372, R378) -/

/-- A swap aborts: what it held back waits for its turn, and the journal stands. -/
theorem abortSwap_pair {cause : Nat} {w : Swap} {s : State} (hw : s.pair.swap = some w) : (abortSwap cause s).pair = { s.pair with swap := none } ∧
    (abortSwap cause s).deferred = s.deferred ++ w.queued ∧ (abortSwap cause s).jr = s.jr := by
  unfold abortSwap
  rw [hw]
  refine ⟨?_, ?_, ?_⟩
  · simpa using ((resumeAll_changes true _).same .pair (by decide)).trans ((resumeAll_changes false _).same .pair (by decide))
  · simpa using ((resumeAll_changes true _).same .deferred (by decide)).trans ((resumeAll_changes false _).same .deferred (by decide))
  · simpa using ((resumeAll_changes true _).same .jr (by decide)).trans ((resumeAll_changes false _).same .jr (by decide))

theorem swapHandover_waits {s : State} (h : s.pair.swap = none ∨ s.pair.actOut = false ∨ s.pipe.flight ≠ [] ∨ s.jr.open_ ≠ [] ∨ s.jr.unacked ≠ []) :
    swapHandover s = s :=
  if_pos (by rcases h with h | h | h | h | h <;> simp [h])

/-- The unit as it tells its partner that it hands over. -/
def handingOver (s : State) : State := setPair (fun p => { p with handoff := true, inStep := true, heard := heardReset }) s

/-- With all work done the grant is handed over: the unit stands by, and says HANDOFF (R371). -/
theorem swapHandover_hands {s : State} {w : Swap} (hw : s.pair.swap = some w) (hout : s.pair.actOut = true) (hiq : ∀ q < 8, s.pipe.iq.getD q [] = [])
    (hflight : s.pipe.flight = []) (hopen : s.jr.open_ = []) (hacked : s.jr.unacked = []) :
    swapHandover s = dropQueued (setJr (fun j => { j with nextApply := 1, held := [], delayed := [] })
      (setSt .standby (stopActOut (heartbeatNow 1 (handingOver s))))) := by
  unfold swapHandover
  refine if_neg ?_
  simp only [hw, hout, hflight, hopen, hacked, List.isEmpty_nil, Bool.not_true, Option.isNone_some, Bool.or_false, Bool.false_or, Bool.not_eq_true,
    List.any_eq_false, List.mem_range, Bool.not_eq_true', Bool.not_eq_false]
  intro q hq
  rw [hiq q hq]
  rfl

theorem swapDrainExpiry_waits {s : State} (h : s.pair.swap = none ∨ s.pair.actOut = false ∨
    ∀ w, s.pair.swap = some w → s.tim.raw < w.at_ + fieldOf s 0xD008 23 16 * 10000000) : swapDrainExpiry s = s := by
  unfold swapDrainExpiry
  split
  case h_1 w hw =>
    refine if_neg ?_
    rcases h with h | h | h
    · exact absurd (hw.symm.trans h) (by simp)
    · simp [h]
    · simp [Nat.not_le.mpr (h w hw)]
  case h_2 => rfl

theorem swapDrainExpiry_aborts {s : State} {w : Swap} (hw : s.pair.swap = some w) (hout : s.pair.actOut = true)
    (hdue : w.at_ + fieldOf s 0xD008 23 16 * 10000000 ≤ s.tim.raw) : swapDrainExpiry s = abortSwap 0 s := by
  unfold swapDrainExpiry
  rw [hw]
  exact if_pos (by simp [hout, hdue])

/-- The scheduled swap as tried now. -/
def swapTried (s : State) : State := setPair (fun p => { p with swapTriedAt := some s.tim.raw }) s

/-- A scheduled swap that is due is tried: it starts, or is noted once for its retries (R372). -/
theorem scheduledSwapDue_tries {n : Nat} {s : State} (hcfg : fieldOf s 0xD00C 31 16 ≠ 0) (hout : s.pair.actOut = true) (hst : s.pair.st = .active)
    (hswap : s.pair.swap = none) (hproving : s.pair.proving = false) (htimer : s.pair.swapTimer = some n)
    (hdue : fieldOf s 0xD00C 31 16 * 3600000000000 ≤ n) (hlate : ∀ t, s.pair.swapTriedAt = some t → t + 3600000000000 ≤ s.tim.raw) :
    scheduledSwapDue s = if swapPartner s true && !s.pair.copyGiving then startSwap true (setPair (fun p => { p with swapRetryEvent := false }) (swapTried s))
      else if s.pair.swapRetryEvent then swapTried s else event 13 0x0A 0x1FF [] (setPair (fun p => { p with swapRetryEvent := true }) (swapTried s)) := by
  unfold scheduledSwapDue
  rw [if_neg (by simp [hcfg, hout, isLone, hst, hswap, hproving]), htimer]
  refine (if_neg ?_).trans rfl
  cases htried : s.pair.swapTriedAt with
  | none => simpa using hdue
  | some t => simpa using ⟨hdue, hlate t htried⟩

theorem scheduledSwapDue_waits {s : State} (h : fieldOf s 0xD00C 31 16 = 0 ∨ s.pair.actOut = false ∨ s.pair.swapTimer = none ∨
    (∀ n, s.pair.swapTimer = some n → n < fieldOf s 0xD00C 31 16 * 3600000000000) ∨ ∃ t, s.pair.swapTriedAt = some t ∧ s.tim.raw < t + 3600000000000) :
    scheduledSwapDue s = s := by
  unfold scheduledSwapDue
  dsimp only
  split
  · rfl
  · rename_i hopen
    simp only [Bool.or_eq_true, not_or, decide_eq_true_eq, Bool.not_eq_true', Bool.not_eq_false] at hopen
    split
    case h_1 => rfl
    case h_2 n hn =>
      refine if_pos ?_
      rcases h with h | h | h | h | ⟨t, ht, hlt⟩
      · exact absurd h hopen.1.1.1.1
      · simp [h] at hopen
      · exact absurd (hn.symm.trans h) (by simp)
      · simp [h n hn]
      · simp [ht, hlt]

theorem proofGood_of_notDue {s : State} (h : proofDue s = false) : proofGood s = s := if_pos (by simp [h])

theorem proofGood_pair {s : State} (h : proofDue s = true) : (proofGood s).pair =
    { s.pair with proving := false, swapTimer := some 0, swapRetryEvent := false, swapTriedAt := none } := by
  unfold proofGood
  rw [if_neg (by simp [h]), (confirmTrial_changes _).same .pair (by decide)]
  simp [restartSwapTimer]

theorem proofExpiry_ended {s : State} (last : Bool) (hproving : s.pair.proving = true) (hdue : proofDue s = true) :
    proofExpiry last s = proofGood s := by
  unfold proofExpiry
  rw [if_neg (by simp [hproving])]
  exact if_neg (by simp [proofGood_pair hdue])

theorem proofExpiry_failed {s : State} (hproving : s.pair.proving = true) (hdue : proofDue s = false)
    (hfew : s.pair.proofReadings < fieldOf s 0xD010 31 16) (htime : s.pair.proofSince + fieldOf s 0xD010 15 0 * 1000000000 ≤ s.tim.raw) :
    proofExpiry true s = count 0xD064 (setPair (fun p => { p with proving := false }) s) := by
  unfold proofExpiry
  rw [if_neg (by simp [hproving]), proofGood_of_notDue hdue]
  exact if_pos (by simp [hproving, hfew, htime])

/-- Settles O55: each row by the law of what its happening finds, in the pair and in the journal. -/
theorem swapAndJournal : Obligations.SwapAndJournal := by
  unfold Obligations.SwapAndJournal
  refine ⟨?foreign, ?seekingPartner, ?higherClaim, ?hbNot, ?ethLost, ?linkLost, ?lostNot, ?signalLost, ?signalNot, ?batchSent, ?batchNot, ?batchRx,
    ?batchRxNot, ?acked, ?ackNot, ?resent, ?jackEarly, ?outOfStep, ?handover, ?handoverNot, ?drained, ?drainNot, ?scheduled, ?scheduledNot, ?proofNot,
    ?proofFails, ?proofGood⟩
  case foreign =>
    intro path hb l s hon hpath hkey hlast
    exact congrArg (Host.Outcome.next ∘ settleAll) (heartbeatRx_foreign hon hpath hkey hlast)
  case seekingPartner =>
    intro hb s hon hkey hver hfresh hfault hnofault hout hlive hst hstep hswap hseek
    have hset : setFault (pairFault s hb) hb.saltFp (hbNoted hb s) = hbNoted hb s := by
      rw [hnofault]
      exact if_pos hfault
    have heq : heartbeatRx 2 hb s = hbNoted hb s := by
      rw [heartbeatRx_ethernet hon hkey hver hfresh, hset]
      dsimp only
      rw [if_pos (by simpa [hbNoted, setPath] using hout)]
      exact holderHb_seeking hfault hst hstep hswap hseek
    refine ⟨_, congrArg (Host.Outcome.next ∘ settleAll) heq, (Changes.step (setPair_changes ..) (setPair_changes ..) rfl).same, ?_⟩
    simp [hbNoted, setPath, hlive, hseek]
  case higherClaim =>
    intro hb s hon hkey hver hfresh hout hst hclaim
    have heq : heartbeatRx 2 hb s = fence 1 (setFault (pairFault s hb) hb.saltFp (hbNoted hb s)) := by
      rw [heartbeatRx_ethernet hon hkey hver hfresh]
      dsimp only
      rw [if_pos (by simpa [hbNoted, setPath] using hout)]
      exact holderHb_defeated hst (by simpa [hbNoted, setPath] using hclaim)
    obtain ⟨hfenced, hsilent, -⟩ := fence_pair 1 (setFault (pairFault s hb) hb.saltFp (hbNoted hb s))
    exact ⟨_, congrArg (Host.Outcome.next ∘ settleAll) heq, hfenced, hsilent⟩
  case hbNot =>
    intro path hb s hnot
    exact congrArg (Host.Outcome.next ∘ settleAll) (heartbeatRx_ignored hnot)
  case ethLost =>
    intro s hregs hon hst h1 h2 hdue
    refine ⟨_, congrArg (Host.Outcome.next ∘ settleAll) (heartbeatPathLost_ethernet hon hst h1 h2 hdue),
      (Changes.step (setPair_changes ..) (.step (setPair_changes ..) ((count_changes _ s (by decide)).mono rfl) rfl) rfl).same,
      reg_count_same hregs 0xD050, rfl⟩
  case linkLost =>
    intro s hon hst h1 hswap hdue
    obtain ⟨w, hw⟩ := noteLost_pair (setPair (fun p => { p with heard := { p.heard with p1 := none } }) (setPath 1 { s.pair.hb1 with lost := true } (count 0xD04C s)))
    have hpair : (linkPathLost s).pair =
        { s.pair with hb1 := { s.pair.hb1 with lost := true }, heard := { s.pair.heard with p1 := none }, lostAt := w } := hw
    refine ⟨_, congrArg (Host.Outcome.next ∘ settleAll) (heartbeatPathLost_link hon h1 (by simp [journals, hpair, hst]) hdue), ?_⟩
    rw [standbyLost_alone 1 (by simp [hpair, hst]) (by simp [hpair, hswap]), sourceDown_pair, hpair]
    simp [PairState.inSt, hst]
  case lostNot =>
    intro path s hnot
    exact congrArg (Host.Outcome.next ∘ settleAll) (heartbeatPathLost_ignored hnot)
  case signalLost =>
    intro s hon hst hswap
    have heq : prlLossOfSignal s = standbyLost 1 (setPair (fun p => { p with prlSignal := false }) s) := by
      unfold prlLossOfSignal
      rw [if_neg (by simp [hon])]
      exact if_pos (by simp [journals, hst])
    refine ⟨_, congrArg (Host.Outcome.next ∘ settleAll) heq, ?_⟩
    rw [standbyLost_alone (s := setPair (fun p => { p with prlSignal := false }) s) 1 hst hswap]
    simp [PairState.inSt, hst]
  case signalNot =>
    intro s hoff
    exact congrArg (Host.Outcome.next ∘ settleAll) (if_pos (by simp [hoff]))
  case batchSent =>
    intro s hopen hjr hrun
    exact ⟨_, congrArg Host.Outcome.next (journalBatchClose_sends hopen hjr hrun),
      (Changes.step (emit_changes ..) ((Changes.set_jr s _).mono rfl) rfl).same, rfl, rfl⟩
  case batchNot =>
    intro s hnot
    exact congrArg Host.Outcome.next (if_pos (by rcases hnot with h | h | h <;> simp [h]))
  case batchRx =>
    intro num mark ents s hst hrun
    have hopen := journalBatchRx_open hst hrun
    refine ⟨fun hold => congrArg Host.Outcome.next ?old, fun hnext hheld hheld' => congrArg Host.Outcome.next ?next,
      fun hlater hnone hroom => congrArg Host.Outcome.next ?held, fun hlive hnone => ?broken⟩
    case old =>
      unfold journalBatchRx
      rw [if_neg (by simp [hopen]), if_neg (by simp), if_pos hold]
      rfl
    case next =>
      unfold journalBatchRx
      rw [if_neg (by simp [hopen]), if_neg (by simp), if_neg (by omega), if_pos hnext]
      have hend : ∀ t : State, t.jr.held = [] → applyHeldBatches t.jr.held.length t = t := fun t ht => by
        rw [ht]
        rfl
      exact hend _ hheld'
    case held =>
      unfold journalBatchRx
      rw [if_neg (by simp [hopen]), if_neg (by simp), if_neg (by omega), if_neg (by omega), if_neg (by simp [hnone]), if_neg (by omega)]
      rfl
    case broken =>
      have heq : journalBatchRx num mark false ents s = cannotApply num s := by
        unfold journalBatchRx
        rw [if_neg (by simp [hopen])]
        exact if_pos rfl
      refine ⟨_, congrArg Host.Outcome.next (heq.trans (cannotApply_seeks num hlive hnone)), by simp [seek_pair], ?_⟩
      unfold seek
      rw [setSt_jr]
      rfl
  case batchRxNot =>
    intro num mark formOk ents s hnot
    exact congrArg Host.Outcome.next (if_pos (by rcases hnot with h | ⟨h1, h2⟩ <;> simp [*]))
  case acked =>
    intro n s hjr hin hreplies
    exact congrArg (Host.Outcome.next ∘ settleAll) (journalAckRx_frees hjr hin hreplies)
  case ackNot =>
    intro n s hnot
    exact ⟨congrArg (Host.Outcome.next ∘ settleAll) (journalAckRx_unknown hnot), congrArg (Host.Outcome.next ∘ settleAll) (jackTimeout_unknown hnot)⟩
  case resent =>
    intro n ents s hjr hout hdue
    exact congrArg (Host.Outcome.next ∘ settleAll) (jackTimeout_due hjr hout hdue)
  case jackEarly =>
    intro n s hearly
    exact congrArg (Host.Outcome.next ∘ settleAll) (jackTimeout_early hearly)
  case outOfStep =>
    intro n ents s hst hswap hout hdue
    refine ⟨_, congrArg (Host.Outcome.next ∘ settleAll) (jackTimeout_due (by simp [journals, hst]) hout hdue), ?_⟩
    rw [if_pos rfl, standbyLost_alone 0 hst hswap]
    simp [PairState.inSt, hst]
  case handover =>
    intro b at_ s hswap hout hiq hflight hopen hacked hon hrun hround
    have hpair : (heartbeatNow 1 (handingOver s)).pair.handoff = true := by
      rw [heartbeatNow_link (s := handingOver s) hon hrun hround]
      rfl
    have hsilent : (swapHandover s).pair.actOut = false := by
      rw [swapHandover_hands hswap hout hiq hflight hopen hacked, dropQueued_pair]
      simp [setSt_pair, stopActOut_pair]
    refine ⟨_, rfl, ?_, hsilent, ?_, ?_, granted_of_silent hsilent⟩ <;>
      rw [swapHandover_hands hswap hout hiq hflight hopen hacked, dropQueued_pair]
    · simp [setSt_pair]
    · simp [setSt_pair, stopActOut_pair, hpair]
  case handoverNot =>
    intro s hnot
    exact congrArg Host.Outcome.next (swapHandover_waits hnot)
  case drained =>
    intro w s hw hout hdue
    exact ⟨_, congrArg Host.Outcome.next (swapDrainExpiry_aborts hw hout hdue), abortSwap_pair hw⟩
  case drainNot =>
    intro s hnot
    exact congrArg Host.Outcome.next (swapDrainExpiry_waits hnot)
  case scheduled =>
    intro n s hcfg hout hswap hproving htimer hdue hst hlate
    have htries := scheduledSwapDue_tries hcfg hout hst hswap hproving htimer hdue hlate
    refine ⟨fun hpartner hgive => ?_, fun hpartner hnoted => ?_, fun hpartner hnew => ?_⟩
    · rw [hpartner, hgive] at htries
      exact ⟨_, congrArg Host.Outcome.next htries, startSwap_pair ..⟩
    · rw [hpartner, hnoted] at htries
      exact congrArg Host.Outcome.next htries
    · rw [hpartner, hnew] at htries
      exact ⟨_, congrArg Host.Outcome.next htries, rfl,
        (Changes.step (event_changes ..) (.step (setPair_changes ..) ((setPair_changes ..).mono rfl) rfl) rfl).same⟩
  case scheduledNot =>
    intro s hnot
    exact congrArg Host.Outcome.next (scheduledSwapDue_waits hnot)
  case proofNot =>
    intro last s hproving
    exact congrArg Host.Outcome.next (if_pos (by simp [hproving]))
  case proofFails =>
    intro s hregs hproving hdue hfew htime
    exact ⟨_, congrArg Host.Outcome.next (proofExpiry_failed hproving hdue hfew htime), rfl,
      reg_count_same (s := setPair (fun p => { p with proving := false }) s) hregs 0xD064,
      (Changes.step (count_changes _ _ (by decide)) ((setPair_changes ..).mono rfl) rfl).same⟩
  case proofGood =>
    intro last s hproving hdue
    exact ⟨_, congrArg Host.Outcome.next (proofExpiry_ended last hproving hdue), proofGood_pair hdue⟩

end Sys2Proof.Machine
end

section
/-!
SUPPORT. O9: the authority key slots (R408, R409; log entry 16).
-/
namespace Sys2Proof.Machine

theorem ownSlot_of_held {h : Hdr} {a : Auth} {own : AuthSlot} {s : State} (ha : h.auth = some a) (hown : Kv.get? a.slot.toNat s.sec.slots = some own) :
    ownSlot h s = some (a.slot.toNat, own) := by
  simp [ownSlot, ha, hown]

/-- The slots that no command loads or clears: slot 0, a number that is none, and the commanding slot. -/
theorem slotRefused_of {h : Hdr} {slot : Byte} {s : State}
    (hwhy : slot.toNat = 0 ∨ 64 ≤ slot.toNat ∨ ∃ a, h.auth = some a ∧ a.slot = slot) : slotRefused h slot.toNat s = true := by
  unfold slotRefused
  rcases hwhy with hzero | hhigh | ⟨a, ha, rfl⟩
  · simp [hzero]
  · simp [hhigh]
  · cases hown : Kv.get? a.slot.toNat s.sec.slots with
    | none => simp [ownSlot, ha, hown]
    | some own => simp [ownSlot_of_held ha hown]

theorem slotRefused_eq_false {h : Hdr} {a : Auth} {own : AuthSlot} {slot : Byte} {s : State} (ha : h.auth = some a)
    (hown : Kv.get? a.slot.toNat s.sec.slots = some own) (hzero : slot.toNat ≠ 0) (hhigh : slot.toNat < 64) (hne : a.slot ≠ slot) :
    slotRefused h slot.toNat s = false := by
  have hne' : a.slot.toNat ≠ slot.toNat := fun e => hne (BitVec.eq_of_toNat_eq e)
  simp [slotRefused, ownSlot_of_held ha hown, hzero, hhigh, hne']

theorem permsLacking_iff {h : Hdr} {a : Auth} {own : AuthSlot} {s : State} (perms : BitVec 16) (ha : h.auth = some a)
    (hown : Kv.get? a.slot.toNat s.sec.slots = some own) : permsLacking h perms s = true ↔ perms &&& ~~~own.perms ≠ 0 := by
  simp [permsLacking, ownSlot_of_held ha hown]

theorem keyLoad_loads {h : Hdr} {slot : Byte} {perms : BitVec 16} {key : Wrapped} {k : Key} {s : State} (hslot : slotRefused h slot.toNat s = false)
    (hperms : ¬permsLacking h perms s = true) (hkey : unwrapCmd h s key = some k) :
    keyLoad h slot perms key s = (putKeySlot slot.toNat (some ⟨k, perms⟩) s, .done) := by
  unfold keyLoad
  rw [if_neg (by simp [hslot, hperms]), hkey]

theorem keyLoad_refused {h : Hdr} {slot : Byte} {perms : BitVec 16} {key : Wrapped} {s : State}
    (hwhy : slotRefused h slot.toNat s = true ∨ permsLacking h perms s = true ∨ unwrapCmd h s key = none) : keyLoad h slot perms key s = (s, .bad) := by
  unfold keyLoad
  rcases hwhy with hslot | hperms | hkey
  · exact if_pos (by simp [hslot])
  · exact if_pos (by simp [hperms])
  · split
    · rfl
    · rw [hkey]

/-- The permissions that a slot carries: none while it is empty. -/
def heldPerms (slot : Nat) (s : State) : BitVec 16 := match Kv.get? slot s.sec.slots with | some k => k.perms | none => 0

theorem keyClear_eq (h : Hdr) (slot : Byte) (s : State) : keyClear h slot s =
    if slotRefused h slot.toNat s || permsLacking h (heldPerms slot.toNat s) s then (s, .bad) else (putKeySlot slot.toNat none s, .done) := rfl

theorem putKeySlot_slots (n : Nat) (v : Option AuthSlot) (s : State) : (putKeySlot n v s).sec.slots = putOpt n v s.sec.slots := by
  unfold putKeySlot
  rw [journal_sec]

/-- Settles O9: each command by what its checks decide, and the slots by what a write of one slot leaves. -/
theorem keySlots : Obligations.KeySlots := by
  unfold Obligations.KeySlots
  refine ⟨?loads, ?loadRefused, ?clears, ?clearRefused, ?reads⟩
  case loads =>
    intro h slot perms key s u own k a hu ha hown hzero hhigh hne hcover hkey
    refine ⟨_, exec_of_entered rfl hu (keyLoad_loads (slotRefused_eq_false ha hown hzero hhigh hne)
      (fun hlack => (permsLacking_iff perms ha hown).mp hlack hcover) hkey), ?_, fun n hn => ?_⟩ <;> rw [answered_sec, putKeySlot_slots]
    · exact Kv.get?_put_same ..
    · exact Kv.get?_put_ne _ hn
  case loadRefused =>
    intro h slot perms key s u hu hwhy
    refine exec_of_entered rfl hu (keyLoad_refused ?_)
    rcases hwhy with hzero | hhigh | ⟨a, ha, hown | ⟨own, hown, hlack⟩⟩ | hkey
    · exact .inl (slotRefused_of (.inl hzero))
    · exact .inl (slotRefused_of (.inr (.inl hhigh)))
    · exact .inl (slotRefused_of (.inr (.inr ⟨a, ha, hown⟩)))
    · exact .inr (.inl ((permsLacking_iff perms ha hown).mpr hlack))
    · exact .inr (.inr hkey)
  case clears =>
    intro h slot s u own a hu hwf ha hown hzero hhigh hne hcover
    have hperms : ¬permsLacking h (heldPerms slot.toNat u) u = true := fun hlack => by
      refine (permsLacking_iff _ ha hown).mp hlack ?_
      unfold heldPerms
      split
      case h_1 k hk => exact hcover k hk
      case h_2 => exact BitVec.zero_and
    refine ⟨_, exec_of_entered rfl hu ((keyClear_eq h slot u).trans (if_neg ?_)), ?_, fun n hn => ?_⟩
    · simp [slotRefused_eq_false ha hown hzero hhigh hne, hperms]
    · rw [answered_sec, putKeySlot_slots]
      exact Kv.get?_del_same _ hwf
    · rw [answered_sec, putKeySlot_slots]
      exact Kv.get?_del_ne hn hwf
  case clearRefused =>
    intro h slot s u hu hwhy
    refine exec_of_entered rfl hu ((keyClear_eq h slot u).trans (if_pos ?_))
    rcases hwhy with hzero | hhigh | ⟨a, ha, hown | ⟨own, k, hown, hk, hlack⟩⟩
    · simp [slotRefused_of (.inl hzero)]
    · simp [slotRefused_of (.inr (.inl hhigh))]
    · simp [slotRefused_of (.inr (.inr ⟨a, ha, hown⟩))]
    · have hheld : heldPerms slot.toNat u = k.perms := by rw [heldPerms, hk]
      rw [hheld, (permsLacking_iff k.perms ha hown).mpr hlack, Bool.or_true]
  case reads =>
    intro h slot s u hu hhigh
    refine exec_of_entered rfl hu ?_
    unfold keyRead
    dsimp only
    rw [if_neg (by omega)]
    cases Kv.get? slot.toNat u.sec.slots <;> rfl

end Sys2Proof.Machine
end

section
/-!
SUPPORT. O27: SEC_ZEROISE (R415).
-/
namespace Sys2Proof.Machine

/-- A power-line link without its network keys. -/
def PlcState.keyless (q : PlcState) : PlcState := { q with gmk := none, gmkOld := none }

/-- A transceiver without its network keys. -/
def RfState.keyless (q : RfState) : RfState := { q with key := none, keyOld := none }

/-- Zeroised, no power-line link has a network key. -/
theorem zeroise_plc (level cause : Nat) (s : State) (n : Nat) :
    (plcOf (zeroise level cause s) n).gmk = none ∧ (plcOf (zeroise level cause s) n).gmkOld = none := by
  have hplc : (zeroise level cause s).plc = s.plc.map fun p => (p.1, p.2.keyless) := by
    unfold zeroise
    dsimp only
    split <;> rfl
  unfold plcOf Kv.getD
  rw [hplc, Kv.get?_mapVal PlcState.keyless]
  cases Kv.get? n s.plc <;> exact ⟨rfl, rfl⟩

/-- Zeroised, no transceiver has a network key. -/
theorem zeroise_rf (level cause : Nat) (s : State) (n : Nat) :
    (rfOf (zeroise level cause s) n).key = none ∧ (rfOf (zeroise level cause s) n).keyOld = none := by
  have hrf : (zeroise level cause s).rf = s.rf.map fun p => (p.1, p.2.keyless) := by
    unfold zeroise
    dsimp only
    split <;> rfl
  unfold rfOf Kv.getD
  rw [hrf, Kv.get?_mapVal RfState.keyless]
  cases Kv.get? n s.rf <;> exact ⟨rfl, rfl⟩

theorem zeroise_sessions (level cause : Nat) (s : State) : (zeroise level cause s).pipe.sessions = [] := by
  unfold zeroise
  dsimp only
  split <;> rfl

/-- Only level 2 programs OTP: the word that disables the device wrap key. -/
theorem zeroise_otp (level cause : Nat) (s : State) :
    (zeroise level cause s).boot.otp = if level = 2 then Kv.putOr 0 167 (s.boot.otp.getD 167 0 ||| 4#32) s.boot.otp else s.boot.otp := by
  unfold zeroise
  dsimp only
  split <;> rfl

/-- Settles O27: the state after the command is the state entered, zeroised, and the answer leaves each of these parts. -/
theorem zeroiseCommand : Obligations.Zeroise := by
  unfold Obligations.Zeroise
  refine ⟨fun h level s u hu hlevel => ?zeroises, fun h level s u hu h1 h2 => ?refused⟩
  case zeroises =>
    have hdone : secZeroise level u = (zeroise level 1 u, .done) := if_pos (by rcases hlevel with rfl | rfl <;> rfl)
    refine ⟨_, exec_of_entered rfl hu hdone, ?_⟩
    rw [answered_sec, answered_pipe, answered_boot, zeroise_sec, zeroise_otp]
    refine ⟨rfl, rfl, rfl, rfl, rfl, rfl, rfl, zeroise_sessions level 1 u, fun n => ?_, fun n => ?_,
      fun e => if_neg (by omega), fun e hwf => ?_⟩
    · rw [plcOf_answered]
      exact zeroise_plc level 1 u n
    · rw [rfOf_answered]
      exact zeroise_rf level 1 u n
    · rw [if_pos e]
      exact ⟨Kv.getD_putOr_same _ _ _ hwf, fun n hn => Kv.getD_putOr_ne _ _ _ hwf hn⟩
  case refused => exact exec_of_entered rfl hu (if_neg (by simp [h1, h2]))

end Sys2Proof.Machine
end

section
/-!
SUPPORT. O33: commands that arrive at MGMT_PORT (R413).
-/
namespace Sys2Proof.Machine

/-- A datagram's body is the row of its command, sent from the port that it came by. -/
theorem exec_mgmtDatagramRx {port : Bool} {h : Hdr} {c : Cmd} {i : Instr} (s : State) (hi : instrOf { h with origin := .eth port } c = some i) :
    exec (.mgmtDatagramRx port h c) s = exec i s := by
  cases c with
  | reserved => cases hi
  | _ =>
    obtain rfl := Option.some.inj hi
    rfl

/-- Above the rate of CTL_MGMT_CONFIG a datagram is dropped and counted. -/
theorem mgmtDatagram_dropped {port : Bool} {h : Hdr} {c : Cmd} {s : State} (hmanaged : managed s = true) (hswap : s.pair.swap = none)
    (hlink : ethLink s port = true) (hrate : bits (reg s 0x800) 11 0 ≤ s.win.mgmt) : mgmtDatagram port h c s = count 0x814 s := by
  have hnone : (if c == .pairSwap then none else s.pair.swap) = none := by rw [hswap, ite_self]
  have hadmit : ethAdmit { h with origin := .eth port } s = none := by
    unfold ethAdmit
    dsimp only
    rw [if_neg (by simp [hlink]), if_pos (show fieldOf s 0x800 11 0 ≤ s.win.mgmt from hrate)]
  unfold mgmtDatagram runCmd command
  rw [if_neg (by simp [hmanaged]), hnone]
  dsimp only
  rw [hadmit]
  exact if_pos hlink

/-- Settles O33: a datagram by the row of its command, and one above the rate by the counter of the dropped. -/
theorem managementDatagrams : Obligations.ManagementDatagrams := by
  unfold Obligations.ManagementDatagrams
  refine ⟨fun port h c i s hi => exec_mgmtDatagramRx s hi, fun port h s u hu => ?clear, fun port h c s hmanaged hswap hlink hrate hregs => ?dropped⟩
  case clear =>
    refine ⟨_, (exec_mgmtDatagramRx (i := .pairClear _) s rfl).trans (exec_of_entered rfl hu rfl), answered_pair ..⟩
  case dropped =>
    refine ⟨_, congrArg Host.Outcome.next (mgmtDatagram_dropped hmanaged hswap hlink hrate), (count_changes _ s (by decide)).same, ?_,
      fun o ho => reg_count_ne hregs ho⟩
    rw [reg_count_same hregs, toNat_satAdd_one]

end Sys2Proof.Machine
end

section
/-!
SUPPORT. O12 and O41: a plain write over BAR0 to a register that keeps its values to itself, bit by bit (R11, R12, R538).
-/
namespace Sys2Proof.Machine

/-! ## Bits of a stored word -/

theorem bit_eq_of_bits_eq {w u : W32} {hi lo i : Nat} (h : bits w hi lo = bits u hi lo) (hlo : lo ≤ i) (hhi : i ≤ hi) : bit w i = bit u i := by
  have hbit := congrArg (Nat.testBit · (i - lo)) h
  simp only [testBit_bits, Nat.add_sub_cancel' hlo, decide_eq_true (show i - lo < hi - lo + 1 by omega), Bool.true_and] at hbit
  exact hbit

/-- A field of one bit. -/
theorem bits_one (w : W32) (i : Nat) : bits w i i = b2n (bit w i) := by
  have hlt : bits w i i < 2 := by simpa using bits_lt w i i
  have hbit : (bits w i i).testBit 0 = bit w i := by simpa only [Nat.sub_self, Nat.zero_add, Nat.add_zero, Nat.zero_lt_one, decide_true, Bool.true_and] using testBit_bits w i i 0
  rw [Nat.testBit_zero] at hbit
  rw [← hbit]
  unfold b2n
  rcases Nat.lt_succ_iff_lt_or_eq.mp hlt with h | h
  · rw [Nat.lt_one_iff.mp h]
    rfl
  · rw [h]
    rfl

theorem merged_allOnes (v old : W32) : merged (BitVec.allOnes 32) v old = v := by
  unfold merged
  rw [BitVec.not_allOnes, BitVec.and_zero, BitVec.zero_or, BitVec.and_allOnes]

theorem fieldMask_and_allOnes {f : Fld} (hlo : f.lo ≤ f.hi) (hhi : f.hi < 32) : fieldMask f &&& BitVec.allOnes 32 ≠ 0 := fun h => by
  have hbit := congrArg (bit · f.lo) h
  rw [BitVec.and_allOnes] at hbit
  have hset : bit (fieldMask f) f.lo = true := (bit_rangeMask f.lo hlo).trans (decide_eq_true ⟨Nat.lt_of_le_of_lt hlo hhi, Nat.le_refl _, hlo⟩)
  rw [hset] at hbit
  simp [bit] at hbit

/-- A whole-word write reaches a field of a class that the writer may write. -/
theorem field_reached {f : Fld} {can : Acc → Bool} (hfits : f.fits = true) (hcan : can f.acc = true) (hro : f.acc ≠ .ro) (hwo : f.acc ≠ .wo) :
    ¬(fieldMask f &&& BitVec.allOnes 32 = 0 ∨ can f.acc = false ∨ f.acc = .ro ∨ f.acc = .wo) := by
  obtain ⟨hle, hlt, -⟩ := Fld.fits_iff.mp hfits
  rintro (h | h | h | h)
  · exact fieldMask_and_allOnes hle hlt h
  · rw [hcan] at h
    cases h
  · exact hro h
  · exact hwo h

/-- A whole-word write to a field that takes every value (R11, R12). -/
theorem bits_stored {off : Nat} {d : RegDef} {f : Fld} {can : Acc → Bool} {v old : W32} (hd : regDef off = some d) (hf : f ∈ d.flds)
    (hacc : f.acc = .rw ∨ f.acc = .lk) (hrule : f.rule = .full) (hcan : can f.acc = true) :
    bits (storeWord can d (BitVec.allOnes 32) v old) f.hi f.lo = bits v f.hi f.lo := by
  have hfits := (RegDef.formed_iff.mp (regDef_formed hd)).1 f hf
  have hkind : f.acc ≠ .ro ∧ f.acc ≠ .wo ∧ f.acc ≠ .w1c := by rcases hacc with h | h <;> simp [h]
  obtain ⟨hro, hwo, hw1c⟩ := hkind
  rw [(accessClasses off d hd can (BitVec.allOnes 32) v old).1 f hf, if_neg (field_reached hfits hcan hro hwo), if_neg hw1c, hrule, merged_allOnes]
  rfl

theorem bit_stored {off : Nat} {d : RegDef} {f : Fld} {can : Acc → Bool} {v old : W32} {i : Nat} (hd : regDef off = some d) (hf : f ∈ d.flds)
    (hacc : f.acc = .rw ∨ f.acc = .lk) (hrule : f.rule = .full) (hcan : can f.acc = true) (hlo : f.lo ≤ i) (hhi : i ≤ f.hi) :
    bit (storeWord can d (BitVec.allOnes 32) v old) i = bit v i := bit_eq_of_bits_eq (bits_stored hd hf hacc hrule hcan) hlo hhi

/-- A whole-word write to a field of which a 1 clears its bit (R12). -/
theorem bit_stored_w1c {off : Nat} {d : RegDef} {f : Fld} {can : Acc → Bool} {v old : W32} {i : Nat} (hd : regDef off = some d) (hf : f ∈ d.flds)
    (hacc : f.acc = .w1c) (hcan : can .w1c = true) (hlo : f.lo ≤ i) (hhi : i ≤ f.hi) :
    bit (storeWord can d (BitVec.allOnes 32) v old) i = (bit old i && !bit v i) := by
  have hfits := (RegDef.formed_iff.mp (regDef_formed hd)).1 f hf
  rw [← bit_andNot]
  refine bit_eq_of_bits_eq ?_ hlo hhi
  rw [(accessClasses off d hd can (BitVec.allOnes 32) v old).1 f hf,
    if_neg (field_reached hfits (by rwa [hacc]) (by simp [hacc]) (by simp [hacc])), hacc, if_pos rfl,
    BitVec.and_allOnes]

/-- A bit of no field takes nothing (R11). -/
theorem bit_stored_none {off : Nat} {d : RegDef} {can : Acc → Bool} {mask v old : W32} {i : Nat} (hd : regDef off = some d)
    (h : ∀ f ∈ d.flds, i < f.lo ∨ f.hi < i) : bit (storeWord can d mask v old) i = bit old i :=
  (accessClasses off d hd can mask v old).2 i h

/-! ## The write -/

/-- The registers whose words depend on other state, or whose fields act and read 0, are none of these. -/
def plainOff (off : Nat) : Prop := off ∉ [0x44, 0x308, 0xD00C, 0xD010, 0xE018, 0xF000, 0x17004, 0x17024, 0x17028, 0x1702C]

/-- Does the field refuse values (R37, R254, R289, R320)? -/
def Fld.refuses (f : Fld) : Bool := match f.rule with | .keep _ => true | _ => false

/-- Is the register mapped, and does no field of it refuse a value? -/
def takesAll (off : Nat) : Bool := match regDef off with | some d => d.flds.all fun f => !f.refuses | none => false

theorem takesAll_mapped {off : Nat} (h : takesAll off = true) : ∃ d, regDef off = some d := by
  cases hd : regDef off with
  | none => simp [takesAll, hd] at h
  | some d => exact ⟨d, rfl⟩

theorem refusedValue_of_takesAll {off : Nat} {d : RegDef} (hd : regDef off = some d) (h : takesAll off = true) (can : Acc → Bool)
    (mask v old : W32) : refusedValue can d mask v old = false := by
  unfold takesAll at h
  rw [hd] at h
  have hnone := List.all_eq_true.mp h
  unfold refusedValue
  rw [List.any_eq_false]
  intro f hf
  have hkeep := hnone f hf
  unfold Fld.refuses at hkeep
  cases hr : f.rule with
  | keep k => simp [hr] at hkeep
  | _ => simp

/-- The state in which the word is stored: a write that would change frozen bits is counted (R389). -/
def frozenCounted (off : Nat) (v : W32) (s : State) : State := if refusesWrite s off v then count 0xE050 s else s

/-- The value as it reaches the register: frozen bits stay. -/
def thawed (off : Nat) (v : W32) (s : State) : W32 :=
  let u := frozenCounted off v s
  (v &&& ~~~frozenMask u off) ||| (reg u off &&& frozenMask u off)

/-- A plain write that reaches a register, changes nothing that it may not and is refused in no field. -/
theorem barWrite_stores {off : Nat} {v : W32} {s : State} {d : RegDef} (hbar : s.barReaches off) (hd : regDef off = some d) (hoff : plainOff off)
    (hall : takesAll off = true) (hallowed : deniedWrite d off (thawed off v s) (frozenCounted off v s) = false) :
    barWrite off v true s =
      let u := frozenCounted off v s
      let w := thawed off v s
      let new := storeWord (plainCan u) d (BitVec.allOnes 32) w (reg u off)
      afterWrite off (reg u off) new w (setReg off new u) := by
  obtain ⟨hopen, hmode, hotp, hdown⟩ := hbar
  simp only [plainOff, List.mem_cons, List.not_mem_nil, or_false, not_or] at hoff
  obtain ⟨h44, h308, hD00C, hD010, hE018, hF000, h17004, h17024, h17028, h1702C⟩ := hoff
  have hwrite : barWrite off v true s = plainWrite d off v s := by
    unfold barWrite
    rcases hmode with hm | hm <;> simp [hopen, hm, hotp, hdown, hd]
  have hheld : ∀ t : State, heldWord t off = reg t off := fun t => by
    unfold heldWord
    rw [if_neg h44, if_neg h1702C]
  have hnew : ∀ can w (t : State), newWord can d off (BitVec.allOnes 32) w t = storeWord can d (BitVec.allOnes 32) w (reg t off) := fun can w t => by
    unfold newWord fixWord
    rw [hheld, if_neg h308, if_neg hE018, if_neg hF000, if_neg hD010]
  have hput : ∀ w (t : State), putWord off w t = setReg off w t := fun w t => by
    unfold putWord clearActs
    rw [if_neg h17004, if_neg h17024, if_neg h17028]
    exact if_neg hD00C
  have hlocked : lockedWrite d off (thawed off v s) (frozenCounted off v s) = frozenCounted off v s := lockedWrite_allowed hallowed
  have hcounted : (if refusesWrite s off v then count 0xE050 s else s) = frozenCounted off v s := rfl
  have hthawed : (v &&& ~~~frozenMask (frozenCounted off v s) off) ||| (reg (frozenCounted off v s) off &&& frozenMask (frozenCounted off v s) off) =
      thawed off v s := rfl
  rw [hwrite]
  unfold plainWrite
  simp only [hcounted, hthawed, hlocked, refusedValue_of_takesAll hd hall, Bool.false_eq_true, if_false, hheld, hnew, hput]

theorem frozenCounted_of_free {off : Nat} {s : State} (h : frozenMask s off = 0) (v : W32) : frozenCounted off v s = s :=
  if_neg (by simp [refusesWrite, h])

theorem thawed_of_free {off : Nat} {s : State} (h : frozenMask s off = 0) (v : W32) : thawed off v s = v := by
  unfold thawed
  dsimp only
  rw [frozenCounted_of_free h, h]
  simp only [BitVec.ofNat_eq_ofNat, BitVec.not_zero, BitVec.and_allOnes, BitVec.and_zero, BitVec.or_zero]

theorem denied_of_notSetup {off : Nat} {d : RegDef} (hd : regDef off = some d) (h : isSetup off = false) (v : W32) (s : State) :
    deniedWrite d off v s = false := by
  by_contra hden
  simp [isSetup_of_denied hd (by simpa using hden)] at h

/-- The same of a register that is not frozen. -/
theorem barWrite_allowed {off : Nat} {v : W32} {s : State} {d : RegDef} (hbar : s.barReaches off) (hd : regDef off = some d) (hoff : plainOff off)
    (hall : takesAll off = true) (hfree : frozenMask s off = 0) (hallowed : deniedWrite d off v s = false) :
    barWrite off v true s = afterWrite off (reg s off) (storeWord (plainCan s) d (BitVec.allOnes 32) v (reg s off)) v
      (setReg off (storeWord (plainCan s) d (BitVec.allOnes 32) v (reg s off)) s) := by
  have h := barWrite_stores (v := v) hbar hd hoff hall (by rwa [frozenCounted_of_free hfree, thawed_of_free hfree])
  rwa [frozenCounted_of_free hfree, thawed_of_free hfree] at h

/-- The same of one that holds no settings either. -/
theorem barWrite_free {off : Nat} {v : W32} {s : State} {d : RegDef} (hbar : s.barReaches off) (hd : regDef off = some d) (hoff : plainOff off)
    (hall : takesAll off = true) (hsetup : isSetup off = false) (hfree : frozenMask s off = 0) :
    barWrite off v true s = afterWrite off (reg s off) (storeWord (plainCan s) d (BitVec.allOnes 32) v (reg s off)) v
      (setReg off (storeWord (plainCan s) d (BitVec.allOnes 32) v (reg s off)) s) :=
  barWrite_allowed hbar hd hoff hall hfree (denied_of_notSetup hd hsetup v s)

end Sys2Proof.Machine
end

section
/-!
SUPPORT. O12: registers whose writes do one thing (R12, R480, R486, R540, R541, R543).
-/
namespace Sys2Proof.Machine

/-- The registers of happenings: a 1 clears its bit. -/
def happenings : List Nat := [0x20, 0xB010, 0xB014, 0xC010, 0xC014, 0x15008, 0x1500C]

/-- How many bits of such a register hold happenings. -/
def happeningBits (off : Nat) : Nat := if off = 0x20 then 7 else if off = 0xB014 ∨ off = 0xC014 then 16 else 32

/-- Are the fields of a register all of one class, without limits, and do they cover its lowest `n` bits and no more? -/
def coversLow (a : Acc) (off n : Nat) : Bool :=
  match regDef off with
  | some d => d.flds.all (fun f => f.acc == a && f.rule == .full) &&
      (List.range 32).all fun i => decide (i < n) == d.flds.any fun f => decide (f.lo ≤ i) && decide (i ≤ f.hi)
  | none => false

theorem happenings_clear : ∀ off ∈ happenings, coversLow .w1c off (happeningBits off) = true := by decide

theorem happenings_plain : ∀ off ∈ happenings, takesAll off = true ∧ isSetup off = false ∧ off / 0x1000 ≠ 0xE ∧ plainOff off ∧ storesOnly off := by
  unfold plainOff storesOnly
  decide

theorem frozenMask_outsidePci {off : Nat} (h : off / 0x1000 ≠ 0xE) (s : State) : frozenMask s off = 0 := if_pos h

theorem bit_of_ge {i : Nat} (w : W32) (h : 32 ≤ i) : bit w i = false := BitVec.getLsbD_of_ge w i h

section
variable {a : Acc} {off n : Nat} (h : coversLow a off n = true)
include h

theorem coversLow_mapped : ∃ d, regDef off = some d := by
  cases hd : regDef off with
  | none => simp [coversLow, hd] at h
  | some d => exact ⟨d, rfl⟩

theorem coversLow_field {d : RegDef} (hd : regDef off = some d) {f : Fld} (hf : f ∈ d.flds) : f.acc = a ∧ f.rule = .full := by
  unfold coversLow at h
  rw [hd] at h
  simp only [Bool.and_eq_true, List.all_eq_true, beq_iff_eq] at h
  exact h.1 f hf

theorem coversLow_at {d : RegDef} (hd : regDef off = some d) {i : Nat} (hi : i < 32) :
    decide (i < n) = d.flds.any fun f => decide (f.lo ≤ i) && decide (i ≤ f.hi) := by
  unfold coversLow at h
  rw [hd] at h
  simp only [Bool.and_eq_true, List.all_eq_true, beq_iff_eq, List.mem_range] at h
  exact h.2 i hi

theorem coversLow_inside {d : RegDef} (hd : regDef off = some d) {i : Nat} (hi : i < 32) (hn : i < n) : ∃ f ∈ d.flds, f.lo ≤ i ∧ i ≤ f.hi := by
  have hat := coversLow_at h hd hi
  rw [decide_eq_true hn, eq_comm, List.any_eq_true] at hat
  simpa only [Bool.and_eq_true, decide_eq_true_eq] using hat

theorem coversLow_outside {d : RegDef} (hd : regDef off = some d) {i : Nat} (hi : i < 32) (hn : ¬i < n) : ∀ f ∈ d.flds, i < f.lo ∨ f.hi < i := by
  have hat := coversLow_at h hd hi
  rw [decide_eq_false hn, eq_comm, List.any_eq_false] at hat
  intro f hf
  have hf := hat f hf
  simp only [Bool.and_eq_true, decide_eq_true_eq] at hf
  omega

end

/-- A write to a register of happenings clears the bits written 1, and nothing else. -/
theorem bit_storeWord_clears {off n i : Nat} {d : RegDef} {v old : W32} {can : Acc → Bool} (hcover : coversLow .w1c off n = true)
    (hd : regDef off = some d) (hcan : can .w1c = true) :
    bit (storeWord can d (BitVec.allOnes 32) v old) i = (bit old i && !(bit v i && decide (i < n))) := by
  by_cases hi : i < 32
  · by_cases hn : i < n
    · obtain ⟨f, hf, hlo, hhi⟩ := coversLow_inside hcover hd hi hn
      rw [bit_stored_w1c hd hf (coversLow_field hcover hd hf).1 hcan hlo hhi, decide_eq_true hn, Bool.and_true]
    · rw [bit_stored_none hd (coversLow_outside hcover hd hi hn), decide_eq_false hn, Bool.and_false, Bool.not_false, Bool.and_true]
  · rw [bit_of_ge _ (by omega), bit_of_ge _ (by omega), Bool.false_and]

/-- A write to a register of RW fields stores their bits, and no others. -/
theorem bit_storeWord_takes {off n i : Nat} {d : RegDef} {v old : W32} {can : Acc → Bool} (hcover : coversLow .rw off n = true)
    (hd : regDef off = some d) (hcan : can .rw = true) :
    bit (storeWord can d (BitVec.allOnes 32) v old) i = if i < n then bit v i else bit old i := by
  by_cases hi : i < 32
  · by_cases hn : i < n
    · obtain ⟨f, hf, hlo, hhi⟩ := coversLow_inside hcover hd hi hn
      obtain ⟨hacc, hrule⟩ := coversLow_field hcover hd hf
      rw [if_pos hn, bit_stored hd hf (.inl hacc) hrule (hacc ▸ hcan) hlo hhi]
    · rw [if_neg hn, bit_stored_none hd (coversLow_outside hcover hd hi hn)]
  · rw [bit_of_ge _ (by omega), bit_of_ge v (by omega), bit_of_ge old (by omega), ite_self]

/-- A W1C_WRITE of a register of happenings. -/
theorem w1cWrite_clears {off : Nat} {v : W32} {s : State} (hbar : s.barReaches off) (hoff : off ∈ happenings) :
    ∃ w, exec (.w1cWrite off v) s = .next (setReg off w s) ∧
      ∀ i, bit w i = (bit (reg s off) i && !(bit v i && decide (i < happeningBits off))) := by
  obtain ⟨hall, hsetup, hpci, hplain, hstores⟩ := happenings_plain off hoff
  have hcover := happenings_clear off hoff
  obtain ⟨d, hd⟩ := coversLow_mapped hcover
  refine ⟨_, congrArg Host.Outcome.next ((barWrite_free hbar hd hplain hall hsetup (frozenMask_outsidePci hpci s)).trans
    (afterWrite_storesOnly hstores ..)), fun i => bit_storeWord_clears hcover hd rfl⟩

/-- What stores a word of happenings leaves the rest of the state. -/
theorem w1cWrite_leaves {off : Nat} {v : W32} {s : State} (hregs : s.RegsOk) (hbar : s.barReaches off) (hoff : off ∈ happenings) :
    ∃ t, exec (.w1cWrite off v) s = .next t ∧ State.SameBut [.regs] s t ∧ (∀ o, o ≠ off → reg t o = reg s o) ∧
      ∀ i, bit (reg t off) i = (bit (reg s off) i && !(bit v i && decide (i < happeningBits off))) := by
  obtain ⟨-, hsetup, -⟩ := happenings_plain off hoff
  obtain ⟨w, hexec, hbits⟩ := w1cWrite_clears (v := v) hbar hoff
  refine ⟨_, hexec, (setReg_changes off w s hsetup).same, fun o ho => reg_setReg_ne hregs _ ho, fun i => ?_⟩
  rw [reg_setReg_same hregs]
  exact hbits i

/-! ## The setup lock (R541) -/

/-- Its one field. -/
def lockField : Fld := ⟨0, 0, .lk, .full⟩

theorem regDef_lock : ∃ d, regDef 0x10 = some d ∧ d.flds = [lockField] := ⟨_, rfl, rfl⟩

/-- A write of 1 is never one that the lock forbids: a locked register holds 1. -/
theorem deniedWrite_lock {d : RegDef} {s : State} (hd : regDef 0x10 = some d) (hflds : d.flds = [lockField]) : deniedWrite d 0x10 1 s = false := by
  have hwish : ∀ can : Acc → Bool, can .lk = true → bits (newWord can d 0x10 (BitVec.allOnes 32) 1 s) 0 0 = 1 := fun can hcan =>
    bits_stored (f := lockField) hd (by simp [hflds]) (.inr rfl) rfl hcan
  have hau : wouldChange .au d 0x10 1 s = false := by
    by_contra h
    obtain ⟨f, hf, hacc⟩ := wouldChange_class (by simpa using h)
    rw [hflds, List.mem_singleton] at hf
    rw [hf] at hacc
    cases hacc
  have hlk : locked s = true → wouldChange .lk d 0x10 1 s = false := fun hlocked => by
    have hold : bits (heldWord s 0x10) 0 0 = 1 := (bits_one _ 0).trans (congrArg b2n hlocked)
    unfold wouldChange
    rw [hflds]
    simp only [List.any_cons, List.any_nil, Bool.or_false, lockField]
    rw [hwish _ rfl, hold]
    rfl
  unfold deniedWrite
  cases hlocked : locked s with
  | false => rw [hau]; rfl
  | true => rw [hau, hlk hlocked]; rfl

/-- The register as a write of 1 leaves it. -/
theorem setupLockSet_locks {s : State} (hbar : s.barReaches 0x10) : ∃ w, exec .setupLockSet s = .next (setReg 0x10 w s) ∧ bit w 0 = true := by
  obtain ⟨d, hd, hflds⟩ := regDef_lock
  have hfree : frozenMask s 0x10 = 0 := frozenMask_outsidePci (by decide) s
  have hwrite := barWrite_allowed hbar hd (by unfold plainOff; decide) (by decide) hfree (deniedWrite_lock hd hflds)
  refine ⟨_, congrArg Host.Outcome.next (hwrite.trans (afterWrite_storesOnly (by unfold storesOnly; decide) ..)), ?_⟩
  cases hlocked : locked s with
  | false => exact bit_stored (f := lockField) hd (by simp [hflds]) (.inr rfl) rfl (by simp [plainCan, hlocked, lockField]) (Nat.le_refl 0) (Nat.le_refl 0)
  | true =>
    refine (bit_eq_of_bits_eq (hi := 0) (lo := 0) ?_ (Nat.le_refl 0) (Nat.le_refl 0)).trans hlocked
    have hstored := (accessClasses 0x10 d hd (plainCan s) (BitVec.allOnes 32) 1 (reg s 0x10)).1 lockField (by simp [hflds])
    rwa [if_pos (.inr (.inl (by simp [plainCan, hlocked, lockField])))] at hstored

/-! ## The notice enables (R543) -/

theorem noticeEnables_cover : coversLow .rw 0x24 7 = true := by decide

/-- A write that sets an enable bit whose notice is pending raises vector 32. -/
theorem afterWrite_noticeEnables (old new v : W32) (s : State) :
    afterWrite 0x24 old new v s = if v &&& reg s 0x20 &&& 0x7F#32 != 0 then msix 32 s else s := if_pos rfl

/-- The word as a write leaves it, and the notice of a pending bit that it enables. -/
theorem noticeEnableWrite_stores {v : W32} {s : State} (hbar : s.barReaches 0x24) :
    ∃ w, exec (.noticeEnableWrite v) s = .next (if v &&& reg (setReg 0x24 w s) 0x20 &&& 0x7F != 0 then msix 32 (setReg 0x24 w s) else setReg 0x24 w s) ∧
      ∀ i, bit w i = if i < 7 then bit v i else bit (reg s 0x24) i := by
  obtain ⟨d, hd⟩ := coversLow_mapped noticeEnables_cover
  have hwrite := barWrite_free (v := v) hbar hd (by unfold plainOff; decide) (by decide) (by decide) (frozenMask_outsidePci (by decide) s)
  rw [afterWrite_noticeEnables] at hwrite
  exact ⟨_, congrArg Host.Outcome.next hwrite, fun i => bit_storeWord_takes noticeEnables_cover hd rfl⟩

/-! ## The windows of queues and of the monitor (R480, R486) -/

theorem afterWrite_qSel (old new v : W32) (s : State) : afterWrite 0x900 old new v s = latchQueue .bar0 (bits new 7 0) s := rfl

/-- CTL_Q_SEL has one field. -/
def selField : Fld := ⟨7, 0, .rw, .full⟩

theorem regDef_qSel : ∃ d, regDef 0x900 = some d ∧ d.flds = [selField] := ⟨_, rfl, rfl⟩

theorem ctlQSelWrite_latches {v : W32} {s : State} (hbar : s.barReaches 0x900) :
    ∃ w, exec (.ctlQSelWrite v) s = .next (latchQueue .bar0 (bits v 7 0) (setReg 0x900 w s)) := by
  obtain ⟨d, hd, hflds⟩ := regDef_qSel
  have hsel : bits (storeWord (plainCan s) d (BitVec.allOnes 32) v (reg s 0x900)) 7 0 = bits v 7 0 :=
    bits_stored (f := selField) hd (by simp [hflds]) (.inl rfl) rfl rfl
  have hwrite := barWrite_free (v := v) hbar hd (by unfold plainOff; decide) (by decide) (by decide) (frozenMask_outsidePci (by decide) s)
  rw [afterWrite_qSel, hsel] at hwrite
  exact ⟨_, congrArg Host.Outcome.next hwrite⟩

theorem monSnapWrite_snaps {v : W32} {s : State} (hbar : s.barReaches 0x15000) :
    ∃ w, exec (.monSnapWrite v) s = .next (monSnap .bar0 v (setReg 0x15000 w s)) := by
  have hall : takesAll 0x15000 = true := by decide
  obtain ⟨d, hd⟩ := takesAll_mapped hall
  exact ⟨_, congrArg Host.Outcome.next (barWrite_free hbar hd (by unfold plainOff; decide) hall (by decide) (frozenMask_outsidePci (by decide) s))⟩

theorem monOf_monClear_same (n : Nat) (s : State) :
    monOf (monClear n s) n = { monEmpty with armed := (monOf s n).armed, at_ := (monOf s n).at_ } := by
  unfold monOf Kv.getD
  rw [show (monClear n s).mon = Kv.put n _ s.mon from rfl, Kv.get?_put_same]
  rfl

theorem monOf_monClear_ne {n k : Nat} (hne : k ≠ n) (s : State) : monOf (monClear n s) k = monOf s k := by
  unfold monOf Kv.getD
  rw [show (monClear n s).mon = Kv.put n _ s.mon from rfl, Kv.get?_put_ne _ hne]

/-- The latches of a path after a snap: the channel as it stood. -/
theorem latchOf_monSnap (p q : Path) (v : W32) (s : State) :
    latchOf (monSnap p v s) q = latchOf (setLatch p (fun l => { l with mon := monResults (monOf s (bits v 5 0)) }) s) q := by
  unfold monSnap
  dsimp only
  split
  · exact latchOf_congr rfl q
  · rfl

theorem monOf_monSnap_same (p : Path) (v : W32) (s : State) : monOf (monSnap p v s) (bits v 5 0) =
    if bit v 6 then { monEmpty with armed := (monOf s (bits v 5 0)).armed, at_ := (monOf s (bits v 5 0)).at_ } else monOf s (bits v 5 0) := by
  unfold monSnap
  dsimp only
  split
  · exact monOf_monClear_same _ _
  · rfl

theorem monOf_monSnap_ne (p : Path) {v : W32} {n : Nat} (hne : n ≠ bits v 5 0) (s : State) : monOf (monSnap p v s) n = monOf s n := by
  unfold monSnap
  dsimp only
  split
  · exact monOf_monClear_ne hne _
  · rfl

/-- Settles O12: each write is the store of one register and the one act it has. -/
theorem actingWrites : Obligations.ActingWrites := by
  unfold Obligations.ActingWrites
  refine ⟨?happenings, ?setupLock, ?noticeEnable, ?queueWindow, ?monWindow⟩
  case happenings => exact fun off v s hregs hbar hoff => w1cWrite_leaves hregs hbar hoff
  case setupLock =>
    intro s hregs hbar
    obtain ⟨w, hexec, hbit⟩ := setupLockSet_locks hbar
    refine ⟨_, hexec, (setReg_setup 0x10 w s).same, fun o ho => reg_setReg_ne hregs _ ho, ?_⟩
    unfold locked
    rw [reg_setReg_same hregs, hbit]
  case noticeEnable =>
    intro v s hregs hbar
    obtain ⟨w, hexec, hbits⟩ := noticeEnableWrite_stores (v := v) hbar
    refine ⟨_, setReg 0x24 w s, hexec, ?_, (setReg_changes 0x24 w s (by decide)).same, fun o ho => reg_setReg_ne hregs _ ho, fun i => ?_⟩
    · rw [reg_setReg_ne hregs _ (show (0x20 : Nat) ≠ 0x24 by decide)]
      by_cases hzero : v &&& reg s 0x20 &&& 0x7F = 0
      · rw [if_pos hzero, hzero]
        rfl
      · rw [if_neg hzero, if_pos (bne_iff_ne.mpr hzero)]
    · rw [reg_setReg_same hregs, hbits]
  case queueWindow =>
    intro v s hsound hbar
    obtain ⟨-, -, hmaps⟩ := hsound
    obtain ⟨w, hexec⟩ := ctlQSelWrite_latches (v := v) hbar
    have hmaps' : (setReg 0x900 w s).MapsOk := hmaps
    refine ⟨_, hexec, (Changes.step (latchQueue_changes ..) ((setReg_changes 0x900 w s (by decide)).mono rfl) rfl).same, ?_, ?_, ?_⟩
    · unfold latchQueue
      rw [latchOf_setLatch_same hmaps']
      rfl
    · exact (latchOf_setLatch_ne hmaps' _ (by decide)).trans (latchOf_congr rfl _)
    · exact (latchOf_setLatch_ne hmaps' _ (by decide)).trans (latchOf_congr rfl _)
  case monWindow =>
    intro v s hsound hbar
    obtain ⟨-, -, hmaps⟩ := hsound
    obtain ⟨w, hexec⟩ := monSnapWrite_snaps (v := v) hbar
    have hmaps' : (setReg 0x15000 w s).MapsOk := hmaps
    refine ⟨_, hexec, (Changes.step (monSnap_changes ..) ((setReg_changes 0x15000 w s (by decide)).mono rfl) rfl).same, ?_, ?_, ?_,
      monOf_monSnap_same .bar0 v _, fun n hne => monOf_monSnap_ne .bar0 hne _⟩
    · rw [latchOf_monSnap, latchOf_setLatch_same hmaps']
      rfl
    · rw [latchOf_monSnap, latchOf_setLatch_ne hmaps' _ (by decide)]
      exact latchOf_congr rfl _
    · rw [latchOf_monSnap, latchOf_setLatch_ne hmaps' _ (by decide)]
      exact latchOf_congr rfl _

end Sys2Proof.Machine
end

section
/-!
SUPPORT. O40 and O41: what work on the rings leaves (R386, R390, R392, R402, R416).
-/
namespace Sys2Proof.Machine

/-- Work on the rings: of the state it changes registers that count, posting marks, rings, recorded events and what is sent, and of the host
neither link, Bus Master Enable, configuration nor commands that wait for a FENCE; frames only end. The list names what counts. -/
structure RingWork (C : List Nat) (s t : State) : Prop where
  changes : Changes [.regs, .jr, .host, .evt, .out] s t
  link : t.host.link = s.host.link
  bme : t.host.bme = s.host.bme
  crsDone : t.host.crsDone = s.host.crsDone
  fenced : t.host.fenced = s.host.fenced
  frames : t.host.frames ⊆ s.host.frames
  delayed : t.jr.delayed = s.jr.delayed
  clears : t.evt.clears = s.evt.clears
  regs : s.RegsOk → ∀ o, o ∉ C → reg t o = reg s o

/-- The counters of entries skipped and of frames that ended. -/
def ringCounts : List Nat := [0xE040, 0xE044]

namespace RingWork

variable {C : List Nat}

theorem refl (s : State) : RingWork C s s := ⟨.refl, rfl, rfl, rfl, rfl, List.Subset.refl _, rfl, rfl, fun _ _ _ => rfl⟩

theorem step {s t u : State} (h₂ : RingWork C t u) (h₁ : RingWork C s t) : RingWork C s u where
  changes := .step h₂.changes h₁.changes rfl
  link := h₂.link.trans h₁.link
  bme := h₂.bme.trans h₁.bme
  crsDone := h₂.crsDone.trans h₁.crsDone
  fenced := h₂.fenced.trans h₁.fenced
  frames := List.Subset.trans h₂.frames h₁.frames
  delayed := h₂.delayed.trans h₁.delayed
  clears := h₂.clears.trans h₁.clears
  regs hregs o ho := (h₂.regs (h₁.changes.regsOk hregs) o ho).trans (h₁.regs hregs o ho)

theorem foldl {α : Type} {f : State → α → State} (hf : ∀ t a, RingWork C t (f t a)) : ∀ (l : List α) (s : State), RingWork C s (l.foldl f s)
  | [], s => refl s
  | a :: l, s => (foldl hf l _).step (hf s a)

/-- What has no more waiting after work on the rings than before. -/
theorem quiet {s t : State} (h : RingWork C s t) (hq : s.quiet) : t.quiet := by
  have hstalled : t.stalled = s.stalled := h.changes.same .stalled (by decide)
  have htable : t.table = s.table := h.changes.same .table (by decide)
  have hplc : t.plc = s.plc := h.changes.same .plc (by decide)
  have hrf : t.rf = s.rf := h.changes.same .rf (by decide)
  have htim : t.tim = s.tim := h.changes.same .tim (by decide)
  have hp : ∀ n, plcOf t n = plcOf s n := fun n => by unfold plcOf; rw [hplc]
  have hr : ∀ n, rfOf t n = rfOf s n := fun n => by unfold rfOf; rw [hrf]
  unfold State.quiet at hq ⊢
  simpa only [hstalled, h.fenced, h.delayed, h.clears, htable, hp, hr, htim] using hq

end RingWork

/-! ## The steps of it -/

section
variable {C : List Nat}

/-- A change of the host's rings alone. -/
theorem ringWork_setHost {f : HostState → HostState} {s : State} (hlink : (f s.host).link = s.host.link) (hbme : (f s.host).bme = s.host.bme)
    (hcrs : (f s.host).crsDone = s.host.crsDone) (hfenced : (f s.host).fenced = s.host.fenced) (hframes : (f s.host).frames ⊆ s.host.frames) :
    RingWork C s (setHost f s) := ⟨(setHost_changes f s).mono rfl, hlink, hbme, hcrs, hfenced, hframes, rfl, rfl, fun _ _ _ => rfl⟩

theorem ringWork_setSq (n : Nat) (v : SqState) (s : State) : RingWork C s (setSq n v s) :=
  ringWork_setHost rfl rfl rfl rfl (List.Subset.refl _)

theorem ringWork_setCq (n : Nat) (v : CqState) (s : State) : RingWork C s (setCq n v s) :=
  ringWork_setHost rfl rfl rfl rfl (List.Subset.refl _)

theorem ringWork_setFrames (n : Nat) (s : State) : RingWork C s (setFrames n [] s) :=
  ringWork_setHost rfl rfl rfl rfl fun _ hp => Kv.mem_del n (by simpa [Kv.putOr] using hp)

theorem ringWork_emit (o : Out) (s : State) : RingWork C s (emit o s) :=
  ⟨(emit_changes o s).mono rfl, rfl, rfl, rfl, rfl, List.Subset.refl _, rfl, rfl, fun _ _ _ => rfl⟩

theorem ringWork_count {off : Nat} (hoff : off ∈ C) (hsetup : isSetup off = false) (s : State) : RingWork C s (count off s) :=
  ⟨(count_changes off s hsetup).mono rfl, rfl, rfl, rfl, rfl, List.Subset.refl _, rfl, rfl,
    fun hregs _ ho => reg_count_ne hregs fun e => ho (e ▸ hoff)⟩

theorem ringWork_msix (v : Nat) (s : State) : RingWork C s (msix v s) := by
  unfold msix
  split
  · exact .refl s
  · split
    · exact ringWork_setHost (f := fun h => { h with msixPending := h.msixPending ||| (1#64 <<< v) }) rfl rfl rfl rfl (List.Subset.refl _)
    · split
      · exact ringWork_emit ..
      · exact .refl s

theorem ringWork_event (isl code data : Nat) (conts : List (List Byte)) (s : State) : RingWork C s (event isl code data conts s) :=
  ⟨(event_changes ..).mono rfl, rfl, rfl, rfl, rfl, List.Subset.refl _, rfl, rfl, fun _ _ _ => rfl⟩

theorem ringWork_markPosted (n : Nat) (s : State) : RingWork C s (markPosted n s) :=
  ⟨(markPosted_changes n s).mono rfl, rfl, rfl, rfl, rfl, List.Subset.refl _, rfl, rfl, fun _ _ _ => rfl⟩

theorem ringWork_entryDone (e : Cqe) (s : State) : RingWork C s (entryDone e s) := by
  unfold entryDone
  split
  · exact ringWork_setSq ..
  · exact .refl s

theorem ringWork_cqCoalesce (n : Nat) (s : State) : RingWork C s (cqCoalesce n s) := by
  unfold cqCoalesce
  split
  · exact .refl s
  · dsimp only
    split
    · exact (ringWork_msix ..).step (ringWork_setCq ..)
    · exact .refl s

theorem ringWork_cqWrite (n : Nat) (c : CqState) (e : Cqe) (s : State) : RingWork C s (cqWrite n c e s) := by
  have hentry : ∀ t, RingWork C t (entryDone e (match e.back with
      | some b => emit (.sqCons b ((sqOf t b).cons + 1)) (setSq b { sqOf t b with cons := (sqOf t b).cons + 1 } t)
      | none => t)) := fun t => by
    refine (ringWork_entryDone ..).step ?_
    split
    · exact (ringWork_emit ..).step (ringWork_setSq ..)
    · exact .refl t
  have hposted : ∀ t, RingWork C t (cqCoalesce n (if cqPosting e.body then markPosted e.seq.toNat t else t)) := fun t => by
    refine (ringWork_cqCoalesce ..).step ?_
    split
    · exact ringWork_markPosted ..
    · exact .refl t
  exact (hposted _).step ((hentry _).step ((ringWork_emit ..).step ((ringWork_emit ..).step (ringWork_setCq ..))))

theorem ringWork_cqPush (h40 : 0xE040 ∈ C) (n : Nat) (e : Cqe) (s : State) : RingWork C s (cqPush n e s) := by
  have hskip : ∀ t, RingWork C t (if cqPosting e.body then markPosted e.seq.toNat (count 0xE040 t) else t) := fun t => by
    split
    · exact (ringWork_markPosted ..).step (ringWork_count h40 (by decide) t)
    · exact .refl t
  unfold cqPush
  split
  · dsimp only
    refine (ringWork_entryDone ..).step ?_
    split
    · exact (ringWork_count h40 (by decide) _).step (hskip s)
    · exact hskip s
  · split
    · exact ringWork_setCq ..
    · exact ringWork_cqWrite ..

theorem ringWork_cmdDone (h40 : 0xE040 ∈ C) (h : Hdr) (st : Byte) (len items : Nat) (result : List Byte) (s : State) : RingWork C s (cmdDone h st len items result s) := by
  unfold cmdDone
  split
  · exact ringWork_cqPush h40 ..
  · exact .refl s

theorem ringWork_endFrame (h40 : 0xE040 ∈ C) (h44 : 0xE044 ∈ C) (b : Nat) (f : HeldFrame) (s : State) : RingWork C s (endFrame b f s) := by
  have hlast : RingWork C s (match f.last with | some (d, n, i) => rxData b f.hdr.tag .truncated d n i true true s | none => s) := by
    split
    · exact ringWork_cqPush h40 ..
    · exact .refl s
  exact (ringWork_event ..).step ((ringWork_count h44 (by decide) _).step ((ringWork_cmdDone h40 ..).step hlast))

theorem ringWork_endFrames (h40 : 0xE040 ∈ C) (h44 : 0xE044 ∈ C) (b : Nat) (s : State) : RingWork C s (endFrames b s) :=
  (RingWork.foldl (fun t f => ringWork_endFrame h40 h44 b f t) _ _).step (ringWork_setFrames b s)

/-- The rings of frames that end stop. -/
theorem ringWork_stopFrames (h40 : 0xE040 ∈ C) (h44 : 0xE044 ∈ C) (l : List Nat) (s : State) :
    RingWork C s (l.foldl (fun t b => setSq b { sqOf t b with run := false, bufs := [] } (endFrames b t)) s) :=
  RingWork.foldl (fun t b => (ringWork_setSq ..).step (ringWork_endFrames h40 h44 b t)) l s

theorem ringWork_cqStop (h40 : 0xE040 ∈ C) (n : Nat) (s : State) : RingWork C s (cqStop n s) := by
  unfold cqStop
  split
  · exact .refl s
  · exact (RingWork.foldl (fun t e => ringWork_cqPush h40 n e t) _ _).step (ringWork_setHost rfl rfl rfl rfl (List.Subset.refl _))

end

/-- With no frame on any ring, none ends. -/
theorem endFrames_of_noFrames {s : State} (h : s.host.frames = []) (b : Nat) : endFrames b s = s := by
  have hnone : framesOf s b = [] := by unfold framesOf; rw [h]; rfl
  have hput : Kv.putOr ([] : List HeldFrame) b [] s.host.frames = s.host.frames := by rw [h]; rfl
  have hset : setFrames b [] s = s := by
    change { s with host := { s.host with frames := Kv.putOr [] b [] s.host.frames } } = s
    rw [hput]
  unfold endFrames
  rw [hnone, hset]
  rfl

/-! ## Waiting for nothing in the rest of the state -/

/-- A quiet state stays so when its commands that wait for a FENCE do. -/
theorem quiet_setHost {f : HostState → HostState} {s : State} (h : (f s.host).fenced = s.host.fenced) (hq : s.quiet) : (setHost f s).quiet :=
  quiet_of_changes ((setHost_changes f s).mono rfl) h rfl hq

end Sys2Proof.Machine
end

section
/-!
SUPPORT. O40: the PCIe link and Bus Master Enable (R384 to R386, R404, R416, R417, R509).
-/
namespace Sys2Proof.Machine

/-- Does PCI answer requests? -/
theorem pciAnswers {s : State} (h : islUp s 14 = true) : (islInRun s 14 || (islOf s 14).st == .gated) = true := by
  unfold islUp at h
  unfold islInRun
  simp only [Bool.or_eq_true] at h ⊢
  tauto

/-- Bus Master Enable falls: the frames that are being written end after it. -/
def masterOff (s : State) : State := setHost (fun h => { h with bme := false }) s

theorem masterOff_quiet {s : State} (hq : s.quiet) : (masterOff s).quiet := quiet_setHost (f := fun h => { h with bme := false }) rfl hq

theorem bmeClear_of_set {s : State} (h : s.host.bme = true) : bmeClear s =
    (s.host.frames.map (·.1)).foldl (fun t b => setSq b { sqOf t b with run := false, bufs := [] } (endFrames b t)) (masterOff s) := by
  unfold bmeClear
  rw [h]
  rfl

theorem bmeClear_of_clear {s : State} (h : s.host.bme = false) : bmeClear s = s := by
  unfold bmeClear
  rw [h]
  rfl

/-- What it leaves. -/
theorem bmeClear_work {s : State} : RingWork ringCounts (masterOff s) (bmeClear s) := by
  cases h : s.host.bme with
  | false =>
    have hoff : masterOff s = s := by unfold masterOff setHost; rw [← h]
    rw [bmeClear_of_clear h, hoff]
    exact .refl s
  | true => rw [bmeClear_of_set h]; exact ringWork_stopFrames (by decide) (by decide) ..

theorem configIdentity_congr {s t : State} (h : t.boot = s.boot) : configIdentity t = configIdentity s := by
  unfold configIdentity
  rw [h]

theorem configRequest_retry (bme : Option Bool) {s : State} (hup : islUp s 14 = true) (hlink : s.host.link = true) (hcrs : s.host.crsDone = false) :
    configRequest bme s = emit .configRetry s := by
  unfold configRequest
  rw [pciAnswers hup, hlink, hcrs]
  rfl

/-- The state that a configuration write leaves. -/
def configured (bme : Option Bool) (s : State) : State :=
  match bme with
  | some true => setHost (fun h => { h with bme := true }) s
  | some false => bmeClear s
  | none => s

theorem configRequest_answers (bme : Option Bool) {s : State} (hup : islUp s 14 = true) (hlink : s.host.link = true) (hcrs : s.host.crsDone = true) :
    configRequest bme s = emit (configIdentity (configured bme s)) (configured bme s) := by
  unfold configRequest
  rw [pciAnswers hup, hlink, hcrs]
  rfl

/-! ## The link reset (R417) -/

/-- The link falls: commands in flight complete nowhere. -/
def linkFallen (s : State) : State := forgetRings (setHost (fun h => { h with link := false, bme := false }) s)

/-- The completion rings are discarded. -/
def ringsDropped (s : State) : State := (s.host.cq.map (·.1)).foldl (fun t n => cqStop n t) (linkFallen s)

/-- The host part returns to reset. -/
def hostForgotten (s : State) : State := { ringsDropped s with host := { hostReset with crsDone := (ringsDropped s).host.crsDone } }

theorem linkReset_of_up {s : State} (h : islUp s 14 = true) : linkReset s = clearRegs (fun o => o / 0x1000 != 0xE) (hostForgotten s) :=
  if_pos (pciAnswers h)

theorem ringsDropped_work (s : State) : RingWork ringCounts (linkFallen s) (ringsDropped s) := RingWork.foldl (fun t n => ringWork_cqStop (by decide) n t) _ _

/-- With nothing waiting, no command loses its way back. -/
theorem linkFallen_quiet {s : State} (hq : s.quiet) : (linkFallen s).quiet := by
  obtain ⟨hstalled, hfenced, hdelayed, hclears, hlate, hplc, hrf⟩ := hq
  refine ⟨?_, rfl, hdelayed, ?_, hlate, hplc, hrf⟩
  · change s.stalled.map _ = []
    rw [hstalled, List.map_nil]
  · change s.evt.clears.map _ = []
    rw [hclears, List.map_nil]

/-- A register of a block that a filter clears reads its reset word, any other as before. -/
theorem reg_clearRegs {s : State} (h : s.RegsOk) (keep : Nat → Bool) (o : Nat) : reg (clearRegs keep s) o = if keep o then reg s o else regReset o := by
  have hget := Kv.get?_filter_key keep o h.1
  have hregs : (clearRegs keep s).regs = s.regs.filter fun p => keep p.1 := rfl
  unfold reg Kv.getD
  rw [hregs, hget]
  split <;> rfl

/-! ## MSI-X (R404) -/

theorem getLsbD_unmask (m : W64) {v : Nat} (w : Nat) (hv : v < 64) : (m &&& ~~~(1#64 <<< v)).getLsbD w = (m.getLsbD w && decide (w ≠ v)) := by
  rw [BitVec.getLsbD_and, BitVec.getLsbD_not, BitVec.getLsbD_shiftLeft, BitVec.getLsbD_one]
  by_cases hw : w < 64
  · by_cases he : w = v
    · subst he
      simp [hw]
    · have : (w < v) ∨ w - v ≠ 0 := by omega
      rcases this with h | h <;> simp [hw, he, h]
  · rw [BitVec.getLsbD_of_ge _ _ (by omega)]
    simp

/-- The state in which a vector is unmasked. -/
def unmasked (v : Nat) (s : State) : State := setHost (fun h => { h with masked := h.masked &&& ~~~(1#64 <<< v) }) s

/-- Does the unmasked vector's message go out? -/
def sendsPending (v : Nat) (s : State) : Prop := s.host.msixPending.getLsbD v = true ∧ s.host.link = true ∧ s.host.bme = true

theorem msixUnmask_sends {v : Nat} {s : State} (hv : v < 64) (h : sendsPending v s) : msixUnmask v s =
    emit (.msix v) (setHost (fun h => { h with msixPending := h.msixPending &&& ~~~(1#64 <<< v) }) (unmasked v s)) := by
  obtain ⟨hpending, hlink, hbme⟩ := h
  unfold msixUnmask
  rw [if_neg (by omega)]
  refine if_pos ?_
  change (s.host.msixPending.getLsbD v && s.host.link && s.host.bme) = true
  rw [hpending, hlink, hbme]
  rfl

theorem msixUnmask_silent {v : Nat} {s : State} (hv : v < 64) (h : ¬sendsPending v s) : msixUnmask v s = unmasked v s := by
  unfold msixUnmask
  rw [if_neg (by omega)]
  refine if_neg fun hsend => h ?_
  change (s.host.msixPending.getLsbD v && s.host.link && s.host.bme) = true at hsend
  simpa [sendsPending, and_assoc] using hsend

/-- Settles O40: each act on the link by itself; frames that end without Bus Master Enable write nothing. -/
theorem pcieLink : Obligations.PcieLink := by
  unfold Obligations.PcieLink
  refine ⟨?linkUp, ?retry, ?answer, ?masterClear, fun s => rfl, ?clearNoFrames, ?clear, ?linkReset, ?clearTwice, ?unmask⟩
  case linkUp =>
    intro width speed s hrun hwidth hlow hhigh
    have hok : (!islRun s 14 || !(width = 1 || width = 2 || width = 4) || speed = 0 || 3 < speed) = false := by
      simp only [List.mem_cons, List.not_mem_nil, or_false] at hwidth
      simp [hrun]
      omega
    exact congrArg Host.Outcome.next (if_neg (by simpa using hok))
  case retry =>
    intro bme s hq hup hlink hcrs
    refine congrArg Host.Outcome.next ?_
    rw [configRequest_retry bme hup hlink hcrs]
    exact settleAll_of_quiet ((ringWork_emit (C := ringCounts) ..).quiet hq)
  case answer =>
    intro s hq hup hlink hcrs
    refine ⟨congrArg Host.Outcome.next ?_, congrArg Host.Outcome.next ?_⟩
    · rw [configRequest_answers none hup hlink hcrs]
      exact settleAll_of_quiet ((ringWork_emit (C := ringCounts) ..).quiet hq)
    · rw [configRequest_answers (some true) hup hlink hcrs]
      exact settleAll_of_quiet ((ringWork_emit (C := ringCounts) ..).quiet (quiet_setHost rfl hq))
  case masterClear =>
    intro a s hq hup hlink hcrs _
    have hwork : RingWork ringCounts (masterOff s) (bmeClear s) := bmeClear_work
    have hboot : (bmeClear s).boot = s.boot := hwork.changes.same .boot (by decide)
    have hsettled : settleAll (configRequest (some false) s) = emit (configIdentity (bmeClear s)) (bmeClear s) := by
      rw [configRequest_answers (some false) hup hlink hcrs]
      exact settleAll_of_quiet ((ringWork_emit (C := ringCounts) ..).quiet (hwork.quiet (masterOff_quiet hq)))
    exact ⟨_, congrArg Host.Outcome.next hsettled, hwork.bme, congrArg some (configIdentity_congr hboot)⟩
  case clearNoFrames =>
    intro s hq hbme hframes
    refine congrArg Host.Outcome.next ?_
    rw [bmeClear_of_set hbme, hframes]
    exact settleAll_of_quiet (masterOff_quiet hq)
  case clear =>
    intro s hq _
    have hwork : RingWork ringCounts (masterOff s) (bmeClear s) := bmeClear_work
    refine ⟨_, rfl, ?_⟩
    rw [settleAll_of_quiet (hwork.quiet (masterOff_quiet hq))]
    exact ⟨hwork.bme, hwork.link, hwork.changes.same .isl (by decide), hwork.changes.same .boot (by decide)⟩
  case linkReset =>
    intro s hq _ hsound hup
    obtain ⟨-, hregs, -⟩ := hsound
    have hwork := ringsDropped_work s
    have hquiet : (linkReset s).quiet := by
      obtain ⟨hstalled, -, hdelayed, hclears, hlate, hplc, hrf⟩ := hwork.quiet (linkFallen_quiet hq)
      rw [linkReset_of_up hup]
      exact ⟨hstalled, rfl, hdelayed, hclears, hlate, hplc, hrf⟩
    refine ⟨_, rfl, ?_⟩
    rw [settleAll_of_quiet hquiet, linkReset_of_up hup]
    refine ⟨?_, fun o ho => ?_, islOf_congr (hwork.changes.same .isl (by decide)) 14, hwork.changes.same .table (by decide)⟩
    · exact congrArg (fun c => { hostReset with crsDone := c }) hwork.crsDone
    · have hok : (hostForgotten s).RegsOk := hwork.changes.regsOk hregs
      rw [reg_clearRegs hok, if_neg (by simp [ho])]
  case clearTwice =>
    intro s hq hbme
    refine congrArg Host.Outcome.next ?_
    rw [bmeClear_of_clear hbme]
    exact settleAll_of_quiet hq
  case unmask =>
    intro v s hv
    have hmask : ∀ w, (unmasked v s).host.masked.getLsbD w = (s.host.masked.getLsbD w && decide (w ≠ v)) := fun w => getLsbD_unmask _ w hv
    by_cases hsend : sendsPending v s
    · refine ⟨_, congrArg Host.Outcome.next (msixUnmask_sends hv hsend), ?_, fun w hw => ?_, ?_, fun _ _ _ => ?_⟩
      · exact (hmask v).trans (by simp)
      · exact (hmask w).trans (by simp [hw])
      · exact (if_pos hsend).symm ▸ rfl
      · exact (getLsbD_unmask _ v hv).trans (by simp)
    · refine ⟨_, congrArg Host.Outcome.next (msixUnmask_silent hv hsend), ?_, fun w hw => ?_, ?_, fun hp hl hb => absurd ⟨hp, hl, hb⟩ hsend⟩
      · exact (hmask v).trans (by simp)
      · exact (hmask w).trans (by simp [hw])
      · exact (if_neg hsend).symm ▸ rfl

end Sys2Proof.Machine
end

section
/-!
SUPPORT. O41: rings start, poll, stop and fail (R386, R389 to R393, R402, R404).
-/
namespace Sys2Proof.Machine

/-! ## A write of an EN bit -/

/-- PCI_CTL and the configuration words of the rings. -/
def enRegs : List Nat := 0xE000 :: ((List.range 32).map sqCfg ++ (List.range 32).map cqCfg)

/-- The EN bit of each. -/
def enField : Fld := ⟨31, 31, .rw, .full⟩

/-- Has a register this field? -/
def hasField (off : Nat) (f : Fld) : Bool := match regDef off with | some d => d.flds.contains f | none => false

theorem enRegs_plain : ∀ off ∈ enRegs, takesAll off = true ∧ isSetup off = false ∧ hasField off enField = true ∧ off ≠ 0xE050 ∧
    (off % 16 = 8 ∨ off = 0xE000) := by decide

theorem enRegs_plainOff : ∀ off ∈ enRegs, plainOff off := by
  unfold plainOff
  decide

theorem sqCfg_mem {n : Nat} (h : n < 32) : sqCfg n ∈ enRegs :=
  List.mem_cons_of_mem _ (List.mem_append_left _ (List.mem_map_of_mem (List.mem_range.mpr h)))

theorem cqCfg_mem {n : Nat} (h : n < 32) : cqCfg n ∈ enRegs :=
  List.mem_cons_of_mem _ (List.mem_append_right _ (List.mem_map_of_mem (List.mem_range.mpr h)))

/-- EN itself is never frozen (R389). -/
theorem bit_frozenMask_en {off : Nat} (hoff : off ∈ enRegs) (s : State) : bit (frozenMask s off) 31 = false := by
  obtain ⟨-, -, -, -, hplace⟩ := enRegs_plain off hoff
  unfold frozenMask
  dsimp only
  split
  · rfl
  · split
    · rename_i hnum
      simp only [Bool.or_eq_true, decide_eq_true_eq] at hnum
      omega
    · split
      · split
        · rfl
        · split
          · split <;> decide
          · rename_i hring _ hcfg
            simp only [Bool.and_eq_true, decide_eq_true_eq] at hring
            omega
      · rfl

/-- The state in which the word of an EN register is stored. -/
def enStored (off : Nat) (v w : W32) (s : State) : State := setReg off w (frozenCounted off v s)

theorem frozenCounted_changes (off : Nat) (v : W32) (s : State) : Changes [.regs] s (frozenCounted off v s) :=
  .ite (count_changes 0xE050 s (by decide)) .refl

theorem enStored_changes {off : Nat} (hoff : off ∈ enRegs) (v w : W32) (s : State) : Changes [.regs] s (enStored off v w s) := by
  obtain ⟨-, hsetup, -⟩ := enRegs_plain off hoff
  exact .step (setReg_changes off w _ hsetup) (frozenCounted_changes off v s) rfl

section
variable {off : Nat} (v w : W32) {s : State}

theorem reg_enStored (hregs : s.RegsOk) : reg (enStored off v w s) off = w :=
  reg_setReg_same ((frozenCounted_changes off v s).regsOk hregs) off w

variable (hoff : off ∈ enRegs)
include hoff

theorem enStored_host : (enStored off v w s).host = s.host := (enStored_changes hoff v w s).same .host (by decide)

theorem enStored_out : (enStored off v w s).out = s.out := (enStored_changes hoff v w s).same .out (by decide)

theorem enStored_quiet (hq : s.quiet) : (enStored off v w s).quiet :=
  quiet_of_changes ((enStored_changes hoff v w s).mono rfl) (congrArg HostState.fenced (enStored_host v w hoff))
    (congrArg EvtState.clears ((enStored_changes hoff v w s).same .evt (by decide))) hq

/-- A write that reaches it stores the EN bit, whatever bits are frozen. -/
theorem barWrite_en {v : W32} (hregs : s.RegsOk) (hbar : s.barReaches off) :
    ∃ w x, barWrite off v true s = afterWrite off (reg s off) w x (enStored off v w s) ∧ bit w 31 = bit v 31 := by
  obtain ⟨hall, hsetup, hfield, hne, -⟩ := enRegs_plain off hoff
  obtain ⟨d, hd⟩ := takesAll_mapped hall
  have hmem : enField ∈ d.flds := by
    unfold hasField at hfield
    rw [hd] at hfield
    exact List.contains_iff_mem.mp hfield
  have hheld : reg (frozenCounted off v s) off = reg s off := by
    unfold frozenCounted
    split
    · exact reg_count_ne hregs hne
    · rfl
  have hthawed : bit (thawed off v s) 31 = bit v 31 := by
    unfold thawed
    simp only [bit, BitVec.getLsbD_or, BitVec.getLsbD_and, BitVec.getLsbD_not]
    rw [show (frozenMask (frozenCounted off v s) off).getLsbD 31 = false from bit_frozenMask_en hoff _]
    simp
  have hwrite := barWrite_stores (v := v) hbar hd (enRegs_plainOff off hoff) hall (denied_of_notSetup hd hsetup _ _)
  dsimp only at hwrite
  rw [hheld] at hwrite
  exact ⟨_, _, hwrite, (bit_stored hd hmem (.inl rfl) rfl rfl (Nat.le_refl 31) (Nat.le_refl 31)).trans hthawed⟩

end

theorem afterWrite_pciCtl (old new v : W32) (s : State) : afterWrite 0xE000 old new v s = pciEn old new s := rfl

theorem afterWrite_sqCfg {n : Nat} (hn : n < 32) (old new v : W32) (s : State) : afterWrite (sqCfg n) old new v s = ringEn false n old new s := by
  unfold afterWrite sqCfg
  rw [if_neg (by omega), if_neg (by omega), if_neg (by omega), if_neg (by omega), if_neg (by omega), if_pos (by simp; omega),
    show (0xE108 + 16 * n - 0xE100) / 16 = n by omega]

theorem afterWrite_cqCfg {n : Nat} (hn : n < 32) (old new v : W32) (s : State) : afterWrite (cqCfg n) old new v s = ringEn true n old new s := by
  unfold afterWrite cqCfg
  rw [if_neg (by omega), if_neg (by omega), if_neg (by omega), if_neg (by omega), if_neg (by omega), if_neg (by simp; omega), if_pos (by simp; omega),
    show (0xE308 + 16 * n - 0xE300) / 16 = n by omega]

theorem ringEn_rises {cq : Bool} {n : Nat} {old new : W32} (hold : bit old 31 = false) (hnew : bit new 31 = true) (s : State) :
    ringEn cq n old new s = ringStart cq n s := if_pos (by rw [hold, hnew]; rfl)

theorem ringEn_falls {cq : Bool} {n : Nat} {old new : W32} (hold : bit old 31 = true) (hnew : bit new 31 = false) (s : State) :
    ringEn cq n old new s = ringStop cq n s := by
  unfold ringEn
  rw [hold, hnew]
  rfl

theorem bit_setBits_top (v : W32) (b : Bool) : bit (setBits v 31 31 (b2n b)) 31 = b := by
  rw [bit_setBits v (b2n b) 31 (Nat.le_refl 31) (by decide), if_pos ⟨Nat.le_refl 31, Nat.le_refl 31⟩]
  cases b <;> rfl

/-! ## Submission and completion rings -/

theorem sqOf_congr {s t : State} (h : t.host.sq = s.host.sq) (n : Nat) : sqOf t n = sqOf s n := by unfold sqOf; rw [h]

theorem sqOf_setSq_same {s : State} (h : Kv.wf s.host.sq = true) (n : Nat) (v : SqState) : sqOf (setSq n v s) n = v := Kv.getD_putOr_same _ _ _ h

theorem sqOf_setSq_ne {s : State} (h : Kv.wf s.host.sq = true) {n m : Nat} (v : SqState) (hne : m ≠ n) : sqOf (setSq n v s) m = sqOf s m :=
  Kv.getD_putOr_ne _ _ _ h hne

theorem wf_setSq {s : State} (h : Kv.wf s.host.sq = true) (n : Nat) (v : SqState) : Kv.wf (setSq n v s).host.sq = true := Kv.wf_putOr _ _ _ h

/-- Entries that wait no longer pass buffers of a stopped ring back. -/
def backsDropped (n : Nat) (s : State) : State :=
  setHost (fun h => { h with cq := h.cq.map fun p =>
    (p.1, { p.2 with waiting := p.2.waiting.map fun e => if e.back = some n then { e with back := none } else e }) }) s

/-- A submission ring stopped without frames: every entry is given back. -/
def sqStopped (n : Nat) (s : State) : State :=
  setSq n { sqOf s n with run := false, cons := (sqOf s n).prod, bufs := [] } (backsDropped n (setSq n { sqOf s n with run := false } s))

theorem sqStop_of_noFrames {s : State} (hwf : Kv.wf s.host.sq = true) (hframes : s.host.frames = []) (n : Nat) : sqStop n s =
    if (sqOf s n).cons = (sqOf s n).prod then sqStopped n s else emit (.sqCons n (sqOf s n).prod) (sqStopped n s) := by
  have hnone : endFrames n (setSq n { sqOf s n with run := false } s) = setSq n { sqOf s n with run := false } s :=
    endFrames_of_noFrames (s := setSq n _ s) hframes n
  have hown := sqOf_setSq_same hwf n { sqOf s n with run := false }
  unfold sqStop
  dsimp only
  rw [hnone, hown]
  by_cases hgiven : (sqOf s n).cons = (sqOf s n).prod
  · rw [if_pos hgiven, if_pos (beq_iff_eq.mpr hgiven)]
    rfl
  · rw [if_neg hgiven, if_neg (mt beq_iff_eq.mp hgiven)]
    rfl

theorem sqOf_sqStopped_same {s : State} (hwf : Kv.wf s.host.sq = true) (n : Nat) :
    sqOf (sqStopped n s) n = { sqOf s n with run := false, cons := (sqOf s n).prod, bufs := [] } := sqOf_setSq_same (wf_setSq hwf n _) n _

theorem sqOf_sqStopped_ne {s : State} (hwf : Kv.wf s.host.sq = true) {n m : Nat} (hne : m ≠ n) : sqOf (sqStopped n s) m = sqOf s m :=
  (sqOf_setSq_ne (wf_setSq hwf n _) _ hne).trans (sqOf_setSq_ne hwf _ hne)

theorem ringWork_sqStopped (n : Nat) (s : State) : RingWork ringCounts s (sqStopped n s) :=
  (ringWork_setSq ..).step (.step (ringWork_setHost rfl rfl rfl rfl (List.Subset.refl _)) (ringWork_setSq ..))

theorem ringWork_sqStop {s : State} (hwf : Kv.wf s.host.sq = true) (hframes : s.host.frames = []) (n : Nat) : RingWork ringCounts s (sqStop n s) := by
  rw [sqStop_of_noFrames hwf hframes]
  split
  · exact ringWork_sqStopped n s
  · exact (ringWork_emit ..).step (ringWork_sqStopped n s)

theorem sqOf_sqStop {s : State} (hwf : Kv.wf s.host.sq = true) (hframes : s.host.frames = []) (n m : Nat) : sqOf (sqStop n s) m = sqOf (sqStopped n s) m := by
  rw [sqStop_of_noFrames hwf hframes]
  split
  · rfl
  · exact sqOf_congr rfl m

theorem sqStop_out {s : State} (hwf : Kv.wf s.host.sq = true) (hframes : s.host.frames = []) (n : Nat) :
    (sqStop n s).out = if (sqOf s n).cons = (sqOf s n).prod then s.out else .sqCons n (sqOf s n).prod :: s.out := by
  rw [sqStop_of_noFrames hwf hframes]
  split <;> rfl

/-! ## PCI_CTL.EN (R391) -/

theorem pciEn_rises {old new : W32} (hold : bit old 31 = false) (hnew : bit new 31 = true) (s : State) :
    pciEn old new s = setHost (fun h => { h with pollFast := true, changedAt := s.tim.raw }) s := if_pos (by rw [hold, hnew]; rfl)

/-- Polling at its fast rate ends. -/
def pollingSlow (s : State) : State := setHost (fun h => { h with pollFast := false }) s

theorem pciEn_falls {old new : W32} (hold : bit old 31 = true) (hnew : bit new 31 = false) (s : State) : pciEn old new s =
    (s.host.frames.map (·.1)).foldl (fun t b => setSq b { sqOf t b with run := false, bufs := [] } (endFrames b t)) (pollingSlow s) := by
  unfold pciEn
  rw [hold, hnew]
  rfl

/-! ## Polling (R391 to R393) -/

/-- A fold that acts at one element only. -/
theorem foldl_eq_of_one {σ α : Type} {f : σ → α → σ} {s : σ} {n : α} : ∀ {l : List α}, l.Nodup → n ∈ l → (∀ m ∈ l, m ≠ n → f s m = s) →
    (∀ m ∈ l, m ≠ n → f (f s n) m = f s n) → l.foldl f s = f s n
  | [], _, hn, _, _ => by cases hn
  | a :: l, hnodup, hn, hbefore, hafter => by
    obtain ⟨hnotin, hrest⟩ := List.nodup_cons.mp hnodup
    rw [List.foldl_cons]
    by_cases ha : a = n
    · rw [ha]
      exact foldl_eq_of_fixed fun m hm => hafter m (List.mem_cons_of_mem _ hm) fun e => hnotin (ha.trans e.symm ▸ hm)
    · rw [hbefore a List.mem_cons_self ha]
      exact foldl_eq_of_one hrest ((List.mem_cons.mp hn).resolve_left fun e => ha e.symm) (fun m hm => hbefore m (List.mem_cons_of_mem _ hm))
        fun m hm => hafter m (List.mem_cons_of_mem _ hm)

/-- What the poll changes of the host before it looks at the rings. -/
theorem pollRate_keeps (words : List (BitVec 16)) (s : State) : (pollRate words s).host.sq = s.host.sq ∧ (pollRate words s).host.cq = s.host.cq ∧
    (pollRate words s).regs = s.regs ∧ (pollRate words s).out = s.out ∧ pciUp (pollRate words s) = pciUp s ∧ (s.quiet → (pollRate words s).quiet) := by
  unfold pollRate
  split
  · exact ⟨rfl, rfl, rfl, rfl, rfl, quiet_setHost (f := fun h => { h with pollFast := true, changedAt := s.tim.raw, db := words }) rfl⟩
  · split
    · exact ⟨rfl, rfl, rfl, rfl, rfl, quiet_setHost (f := fun h => { h with pollFast := false }) rfl⟩
    · exact ⟨rfl, rfl, rfl, rfl, rfl, id⟩

theorem pollSq_stopped {n : Nat} {w : BitVec 16} {s : State} (h : (sqOf s n).run = false) : pollSq n w s = s := by
  unfold pollSq
  simp [h]

theorem pollCq_none {n : Nat} {w : BitVec 16} {s : State} (h : s.host.cq = []) : pollCq n w s = s := by
  unfold pollCq
  rw [h]
  rfl

theorem pollFetch_stopped {n : Nat} {w : BitVec 16} {cmds : List CmdDesc} {bufs : List BufDesc} {s : State} (h : (sqOf s n).run = false) :
    pollFetch n w cmds bufs s = s := by
  unfold pollFetch
  simp [h]

theorem pollSq_takes {n : Nat} {w : BitVec 16} {s : State} (hrun : (sqOf s n).run = true) (hroom : (w - (sqOf s n).cons).toNat ≤ ringSize (reg s (sqCfg n)))
    (hcmd : fieldOf s (sqCfg n) 30 30 = 0) : pollSq n w s = setSq n { sqOf s n with prod := w } s := by
  have hbuffer : bufferRing s n = false := by simp [bufferRing, hcmd]
  unfold pollSq
  dsimp only
  rw [hrun, if_neg (by decide), if_neg (Nat.not_lt.mpr hroom), hbuffer, if_neg (by decide)]

theorem pollFetch_empty {n : Nat} {w : BitVec 16} {bufs : List BufDesc} {s : State} (hcmd : fieldOf s (sqCfg n) 30 30 = 0) : pollFetch n w [] bufs s = s := by
  unfold pollFetch bufferRing
  simp [hcmd, fetchCmds]

/-- The three rounds of a poll. -/
def pollSqs (words : List (BitVec 16)) (s : State) : State := (List.range 32).foldl (fun t n => pollSq n (words.getD n 0) t) s
def pollCqs (words : List (BitVec 16)) (s : State) : State := (List.range 32).foldl (fun t n => pollCq n (words.getD (32 + n) 0) t) s
def pollFetches (words : List (BitVec 16)) (cmds : Kv (List CmdDesc)) (bufs : Kv (List BufDesc)) (s : State) : State :=
  (List.range 32).foldl (fun t n => pollFetch n (words.getD n 0) (cmds.getD n []) (bufs.getD n []) t) s

theorem doorbellPoll_of_up {words : List (BitVec 16)} {cmds : Kv (List CmdDesc)} {bufs : Kv (List BufDesc)} {s : State} (h : pciUp s = true) :
    doorbellPoll words cmds bufs s = settleAll (pollFetches words cmds bufs (pollCqs words (pollSqs words (pollRate words s)))) := by
  unfold doorbellPoll
  exact if_neg (by simp [h])

/-- Rings none of which runs take nothing from a poll. -/
theorem doorbellPoll_noRings {words : List (BitVec 16)} {cmds : Kv (List CmdDesc)} {bufs : Kv (List BufDesc)} {s : State} (hq : s.quiet)
    (h : pciUp s = true) (hsq : s.host.sq = []) (hcq : s.host.cq = []) : doorbellPoll words cmds bufs s = pollRate words s := by
  obtain ⟨hrsq, hrcq, -, -, -, hquiet⟩ := pollRate_keeps words s
  have hstopped : ∀ n, (sqOf (pollRate words s) n).run = false := fun n => by
    unfold sqOf
    rw [hrsq, hsq]
    rfl
  have hsqs : pollSqs words (pollRate words s) = pollRate words s := foldl_eq_of_fixed fun n _ => pollSq_stopped (hstopped n)
  have hcqs : pollCqs words (pollRate words s) = pollRate words s := foldl_eq_of_fixed fun n _ => pollCq_none (hrcq.trans hcq)
  have hfetches : pollFetches words cmds bufs (pollRate words s) = pollRate words s := foldl_eq_of_fixed fun n _ => pollFetch_stopped (hstopped n)
  rw [doorbellPoll_of_up h, hsqs, hcqs, hfetches, settleAll_of_quiet (hquiet hq)]

/-- One COMMAND ring takes its producer word. -/
theorem doorbellPoll_oneRing {n : Nat} {q : SqState} {words : List (BitVec 16)} {cmds : Kv (List CmdDesc)} {bufs : Kv (List BufDesc)} {s : State}
    (hq : s.quiet) (h : pciUp s = true) (hn : n < 32) (hsq : s.host.sq = [(n, q)]) (hcq : s.host.cq = []) (hrun : q.run = true)
    (hcmd : fieldOf s (sqCfg n) 30 30 = 0) (hroom : (words.getD n 0 - q.cons).toNat ≤ ringSize (reg s (sqCfg n))) (hnone : Kv.get? n cmds = none) :
    doorbellPoll words cmds bufs s = setSq n { q with prod := words.getD n 0 } (pollRate words s) := by
  obtain ⟨hrsq, hrcq, hregs, -, -, hquiet⟩ := pollRate_keeps words s
  rw [doorbellPoll_of_up h]
  generalize pollRate words s = u at hrsq hrcq hregs hquiet ⊢
  have hwf : Kv.wf u.host.sq = true := by rw [hrsq, hsq]; simp [Kv.wf, Kv.sortedFrom]
  have hown : sqOf u n = q := by simp [sqOf, hrsq, hsq, Kv.getD, Kv.get?]
  have hother : ∀ m, m ≠ n → (sqOf u m).run = false := fun m hm => by
    have hget : Kv.get? m [(n, q)] = none := by simp [Kv.get?, hm]
    unfold sqOf Kv.getD
    rw [hrsq, hsq, hget]
    rfl
  have hword : reg u (sqCfg n) = reg s (sqCfg n) := reg_congr hregs _
  have hkind : fieldOf u (sqCfg n) 30 30 = 0 := by unfold fieldOf at hcmd ⊢; rwa [hword]
  have htaken : pollSq n (words.getD n 0) u = setSq n { q with prod := words.getD n 0 } u := by
    rw [pollSq_takes (by rwa [hown]) (by rwa [hown, hword]) hkind, hown]
  have hafter : ∀ m, m ≠ n → (sqOf (setSq n { q with prod := words.getD n 0 } u) m).run = false := fun m hm => by
    rw [sqOf_setSq_ne hwf _ hm]
    exact hother m hm
  have hfetch : ∀ m, pollFetch m (words.getD m 0) (cmds.getD m []) (bufs.getD m []) (setSq n { q with prod := words.getD n 0 } u) =
      setSq n { q with prod := words.getD n 0 } u := fun m => by
    by_cases hm : m = n
    · rw [hm, show cmds.getD n [] = [] by unfold Kv.getD; rw [hnone]; rfl]
      exact pollFetch_empty hkind
    · exact pollFetch_stopped (hafter m hm)
  have hsqs : pollSqs words u = setSq n { q with prod := words.getD n 0 } u := by
    have hone := foldl_eq_of_one (f := fun t m => pollSq m (words.getD m 0) t) (s := u) (List.nodup_range (n := 32)) (List.mem_range.mpr hn)
      (fun m _ hm => pollSq_stopped (hother m hm)) fun m _ hm => pollSq_stopped (by rw [htaken]; exact hafter m hm)
    exact hone.trans htaken
  have hcqs : pollCqs words (setSq n { q with prod := words.getD n 0 } u) = setSq n { q with prod := words.getD n 0 } u :=
    foldl_eq_of_fixed fun m _ => pollCq_none (hrcq.trans hcq)
  have hfetches : pollFetches words cmds bufs (setSq n { q with prod := words.getD n 0 } u) = setSq n { q with prod := words.getD n 0 } u :=
    foldl_eq_of_fixed fun m _ => hfetch m
  rw [hsqs, hcqs, hfetches]
  exact settleAll_of_quiet ((ringWork_setSq (C := ringCounts) ..).quiet (hquiet hq))

/-! ## Ring faults (R393) -/

/-- The fault of a submission ring as a DMA error: the ring stops and ERR sets. -/
def sqFaulted (n : Nat) (s : State) : State := setField (sqCfg n) 1 1 1 (sqStop n s)

/-- It counts, and tells of it. -/
def dmaFaulted (n : Nat) (s : State) : State := msix 35 (event 14 0x01 (256 + n) [] (count 0xE04C (count 0xE048 (sqFaulted n s))))

theorem dmaFail_sq {n : Nat} {s : State} (hn : n < 32) (hup : pciUp s = true) (hrun : (sqOf s n).run = true) :
    dmaFail false n s = dmaFaulted n s := by
  have hon : (decide (32 ≤ n) || !pciUp s || !ringRuns false n s) = false := by simp [ringRuns, hup, hrun, hn]
  unfold dmaFail
  rw [if_neg (by rw [hon]; decide)]
  unfold ringFault
  rw [if_neg (Nat.not_le.mpr hn)]
  dsimp only
  rw [show b2n true * 256 + b2n false * 32 + n % 32 = 256 + n by rw [Nat.mod_eq_of_lt hn]; rfl]
  rfl

theorem sqFaulted_quiet {s : State} (hwf : Kv.wf s.host.sq = true) (hframes : s.host.frames = []) (n : Nat) (hq : s.quiet) : (sqFaulted n s).quiet :=
  quiet_of_changes ((setField_setup (sqCfg n) 1 1 1 _).mono rfl) rfl rfl ((ringWork_sqStop hwf hframes n).quiet hq)

theorem dmaFaulted_quiet {s : State} (hwf : Kv.wf s.host.sq = true) (hframes : s.host.frames = []) (n : Nat) (hq : s.quiet) : (dmaFaulted n s).quiet := by
  have hcounts : Changes [.regs] (sqFaulted n s) (count 0xE04C (count 0xE048 (sqFaulted n s))) :=
    .step (count_changes 0xE04C _ (by decide)) (count_changes 0xE048 _ (by decide)) rfl
  have hcounted := quiet_of_changes (hcounts.mono rfl) rfl rfl (sqFaulted_quiet hwf hframes n hq)
  exact (ringWork_msix (C := ringCounts) ..).quiet ((ringWork_event (C := ringCounts) ..).quiet hcounted)

/-- The registers after it: ERR of the ring and the two counters. -/
theorem reg_dmaFaulted {n : Nat} {s : State} (hregs : s.RegsOk) (hwf : Kv.wf s.host.sq = true) (hframes : s.host.frames = []) (hn : n < 32) :
    bits (reg (dmaFaulted n s) (sqCfg n)) 1 1 = 1 ∧ reg (dmaFaulted n s) 0xE048 = satAdd (reg s 0xE048) 1 ∧
      reg (dmaFaulted n s) 0xE04C = satAdd (reg s 0xE04C) 1 := by
  have hwork := ringWork_sqStop hwf hframes n
  have hok : (sqStop n s).RegsOk := hwork.changes.regsOk hregs
  have hok' : (sqFaulted n s).RegsOk := RegsOk_setReg hok _ _
  have hok'' : (count 0xE048 (sqFaulted n s)).RegsOk := RegsOk_setReg hok' _ _
  have hkept : ∀ o, o ≠ sqCfg n → o ∉ ringCounts → reg (sqFaulted n s) o = reg s o := fun o ho hc =>
    (reg_setField_ne hok 1 1 1 ho).trans (hwork.regs hregs o hc)
  have hplace : sqCfg n ≠ 0xE048 ∧ sqCfg n ≠ 0xE04C := by unfold sqCfg; omega
  have hend : ∀ o, reg (dmaFaulted n s) o = reg (count 0xE04C (count 0xE048 (sqFaulted n s))) o := reg_congr ((msix_regs ..).trans (event_regs ..))
  rw [hend, hend, hend]
  refine ⟨?_, ?_, ?_⟩
  · rw [reg_count_ne hok'' hplace.2, reg_count_ne hok' hplace.1]
    exact bits_reg_setField hok (sqCfg n) 1 (by decide) (by decide)
  · rw [reg_count_ne hok'' (by decide), reg_count_same hok', hkept 0xE048 hplace.1.symm (by decide)]
  · rw [reg_count_same hok'', reg_count_ne hok' (by decide), hkept 0xE04C hplace.2.symm (by decide)]

theorem dmaFail_off {cq : Bool} {n : Nat} {s : State} (h : ringRuns cq n s = false) : dmaFail cq n s = s := by
  unfold dmaFail
  exact if_pos (by simp [h])

/-! ## MSI-X messages of a ring (R404) -/

theorem pciUp_inRun {s : State} (h : pciUp s = true) : islInRun s 14 = true ∧ s.host.link = true ∧ s.host.bme = true := by
  unfold pciUp at h
  simp only [Bool.and_eq_true] at h
  exact ⟨h.1.1.1, h.1.1.2, h.1.2⟩

theorem msix_sends {v : Nat} {s : State} (hup : pciUp s = true) (hv : v < 64) (hmask : s.host.masked.getLsbD v = false) : msix v s = emit (.msix v) s := by
  obtain ⟨hrun, hlink, hbme⟩ := pciUp_inRun hup
  unfold msix
  rw [hrun, hmask, hlink, hbme, if_neg (by simpa using hv)]
  rfl

theorem coalesceExpiry_closed {n : Nat} {s : State} (h : cqOpen s n = none) : coalesceExpiry n s = s := by
  unfold coalesceExpiry
  rw [h]

theorem coalesceExpiry_due {n : Nat} {c : CqState} {s : State} (h : cqOpen s n = some c) (hon : bit (reg s (cqCfg n)) 30 = true) (hsome : c.sinceMsg ≠ 0)
    (hdue : c.firstAt + bits (reg s (cqCfg n)) 23 16 * 1000 ≤ s.tim.raw) : coalesceExpiry n s = msix n (setCq n { c with sinceMsg := 0 } s) := by
  unfold coalesceExpiry
  rw [h]
  exact if_pos (by simp [hon, hsome, hdue])

/-! ## Frames held too long (R402) -/

theorem holdExpiry_due {n at_ : Nat} {f : HeldFrame} {s : State} (hn : n < 32) (hframes : framesOf s n = [f]) (hhold : f.holding = some at_)
    (hdue : at_ + fieldOf s 0xE01C 15 0 * 1000 ≤ s.tim.raw) (hlast : framesOf (endFrame n f (setFrames n [] s)) n = []) :
    holdExpiry n s = endFrame n f (setFrames n [] s) := by
  unfold holdExpiry
  rw [hframes]
  dsimp only
  rw [hhold, if_neg (by simp [Nat.not_lt.mpr hdue, hn])]
  unfold frameFuel runFrames
  dsimp only
  rw [hlast]

/-- The frame that ends is counted once. -/
theorem reg_endFrame {s : State} (hregs : s.RegsOk) (b : Nat) (f : HeldFrame) : reg (endFrame b f s) 0xE044 = satAdd (reg s 0xE044) 1 := by
  have hlast : RingWork [0xE040] s (match f.last with | some (d, n, i) => rxData b f.hdr.tag .truncated d n i true true s | none => s) := by
    split
    · exact ringWork_cqPush (by decide) ..
    · exact .refl s
  have hdone := (ringWork_cmdDone (C := [0xE040]) (by decide) f.hdr 1 f.written (wholeItems f.written f.itemLen) f.result _).step hlast
  have hcount := (reg_count_same (hdone.changes.regsOk hregs) 0xE044).trans (congrArg (satAdd · 1) (hdone.regs hregs 0xE044 (by decide)))
  exact hcount

@[simp] theorem msix_sq (v : Nat) (s : State) : (msix v s).host.sq = s.host.sq := by
  unfold msix
  split
  · rfl
  · split
    · rfl
    · split <;> rfl

/-- PCI_CTL.EN falls: polling ends, and the rings of frames that end stop. -/
theorem pciEnableWrite_falls {v : W32} {s : State} (hregs : s.RegsOk) (hbar : s.barReaches 0xE000) (hq : s.quiet) (hold : bit (reg s 0xE000) 31 = true)
    (hnew : bit v 31 = false) : ∃ t, exec (.pciEnableWrite v) s = .next t ∧ bit (reg t 0xE000) 31 = false ∧ t.host.link = s.host.link ∧
      t.host.bme = s.host.bme ∧ (s.host.frames = [] → t.host = { s.host with pollFast := false }) := by
  have hoff : 0xE000 ∈ enRegs := List.mem_cons_self
  obtain ⟨w, x, hwrite, hen⟩ := barWrite_en (v := v) hoff hregs hbar
  have hhost := enStored_host (s := s) v w hoff
  have hok : (enStored 0xE000 v w s).RegsOk := (enStored_changes hoff v w s).regsOk hregs
  rw [afterWrite_pciCtl, pciEn_falls hold (hen.trans hnew)] at hwrite
  have hwork := ringWork_stopFrames (C := ringCounts) (by decide) (by decide) ((enStored 0xE000 v w s).host.frames.map (·.1)) (pollingSlow (enStored 0xE000 v w s))
  refine ⟨_, congrArg (Host.Outcome.next ∘ settleAll) hwrite, ?_⟩
  dsimp only [Function.comp_apply]
  rw [settleAll_of_quiet (hwork.quiet (quiet_setHost rfl (enStored_quiet v w hoff hq)))]
  refine ⟨?_, ?_, ?_, fun hframes => ?_⟩
  · rw [hwork.regs hok 0xE000 (by decide)]
    exact (congrArg (bit · 31) (reg_enStored v w hregs)).trans (hen.trans hnew)
  · rw [hwork.link]
    change (enStored 0xE000 v w s).host.link = _
    rw [hhost]
  · rw [hwork.bme]
    change (enStored 0xE000 v w s).host.bme = _
    rw [hhost]
  · have hnone : (enStored 0xE000 v w s).host.frames = [] := by rw [hhost, hframes]
    rw [hnone]
    change { (enStored 0xE000 v w s).host with pollFast := false } = _
    rw [hhost]

/-- EN of a submission ring falls: every entry is given back. -/
theorem ringDisable_sq {n : Nat} {v : W32} {s : State} (hregs : s.RegsOk) (hq : s.quiet) (hwf : Kv.wf s.host.sq = true) (hn : n < 32)
    (hbar : s.barReaches (sqCfg n)) (hold : bit (reg s (sqCfg n)) 31 = true) (hframes : s.host.frames = []) :
    ∃ t, exec (.ringDisable false n v) s = .next t ∧ bit (reg t (sqCfg n)) 31 = false ∧
      sqOf t n = { sqOf s n with run := false, cons := (sqOf s n).prod, bufs := [] } ∧ (∀ m, m ≠ n → sqOf t m = sqOf s m) ∧
      t.out = if (sqOf s n).cons = (sqOf s n).prod then s.out else .sqCons n (sqOf s n).prod :: s.out := by
  have hoff := sqCfg_mem hn
  obtain ⟨w, x, hwrite, hen⟩ := barWrite_en (v := setBits v 31 31 0) hoff hregs hbar
  have hnew : bit w 31 = false := hen.trans (bit_setBits_top v false)
  have hhost := enStored_host (s := s) (setBits v 31 31 0) w hoff
  have hstop := (afterWrite_sqCfg hn (reg s (sqCfg n)) w x _).trans (ringEn_falls (cq := false) (n := n) hold hnew (enStored (sqCfg n) (setBits v 31 31 0) w s))
  have hok : (enStored (sqCfg n) (setBits v 31 31 0) w s).RegsOk := (enStored_changes hoff _ w s).regsOk hregs
  have hout := enStored_out (s := s) (setBits v 31 31 0) w hoff
  have hquiet := enStored_quiet (setBits v 31 31 0) w hoff hq
  have hword := reg_enStored (off := sqCfg n) (setBits v 31 31 0) w hregs
  generalize enStored (sqCfg n) (setBits v 31 31 0) w s = u at hwrite hhost hstop hok hout hquiet hword
  have hsq : ∀ m, sqOf u m = sqOf s m := sqOf_congr (congrArg HostState.sq hhost)
  have hwf' : Kv.wf u.host.sq = true := by rwa [hhost]
  have hframes' : u.host.frames = [] := by rwa [hhost]
  have hwork := ringWork_sqStop hwf' hframes' n
  refine ⟨_, congrArg Host.Outcome.next (if_pos hn), ?_⟩
  rw [show barWrite (if false = true then cqCfg n else sqCfg n) (setBits v 31 31 0) true s = sqStop n u from hwrite.trans hstop,
    settleAll_of_quiet (hwork.quiet hquiet)]
  refine ⟨?_, ?_, fun m hm => ?_, ?_⟩
  · rw [hwork.regs hok (sqCfg n) (by unfold sqCfg ringCounts; simp; omega), hword, hnew]
  · rw [sqOf_sqStop hwf' hframes', sqOf_sqStopped_same hwf', hsq]
  · rw [sqOf_sqStop hwf' hframes', sqOf_sqStopped_ne hwf' hm, hsq]
  · rw [sqStop_out hwf' hframes', hsq, hout]

/-- EN of a completion ring falls: the unit forgets it. -/
theorem ringDisable_cq {n : Nat} {v : W32} {c : CqState} {s : State} (hregs : s.RegsOk) (hq : s.quiet) (hn : n < 32) (hbar : s.barReaches (cqCfg n))
    (hold : bit (reg s (cqCfg n)) 31 = true) (hget : Kv.get? n s.host.cq = some c) (hwaiting : c.waiting = []) :
    ∃ t, exec (.ringDisable true n v) s = .next t ∧ bit (reg t (cqCfg n)) 31 = false ∧ t.host = { s.host with cq := Kv.del n s.host.cq } ∧
      t.out = s.out := by
  have hoff := cqCfg_mem hn
  obtain ⟨w, x, hwrite, hen⟩ := barWrite_en (v := setBits v 31 31 0) hoff hregs hbar
  have hnew : bit w 31 = false := hen.trans (bit_setBits_top v false)
  have hhost := enStored_host (s := s) (setBits v 31 31 0) w hoff
  have hstop := (afterWrite_cqCfg hn (reg s (cqCfg n)) w x _).trans (ringEn_falls (cq := true) (n := n) hold hnew (enStored (cqCfg n) (setBits v 31 31 0) w s))
  have hout := enStored_out (s := s) (setBits v 31 31 0) w hoff
  have hquiet := enStored_quiet (setBits v 31 31 0) w hoff hq
  have hword := reg_enStored (off := cqCfg n) (setBits v 31 31 0) w hregs
  generalize enStored (cqCfg n) (setBits v 31 31 0) w s = u at hwrite hhost hstop hout hquiet hword
  have hdropped : cqStop n u = setHost (fun h => { h with cq := Kv.del n h.cq }) u := by
    unfold cqStop
    rw [hhost, hget]
    dsimp only
    rw [hwaiting]
    rfl
  refine ⟨_, congrArg Host.Outcome.next (if_pos hn), ?_⟩
  rw [show barWrite (if true = true then cqCfg n else sqCfg n) (setBits v 31 31 0) true s = _ from hwrite.trans (hstop.trans hdropped),
    settleAll_of_quiet (quiet_setHost rfl hquiet)]
  refine ⟨?_, ?_, hout⟩
  · exact (congrArg (bit · 31) hword).trans hnew
  · change { u.host with cq := Kv.del n u.host.cq } = _
    rw [hhost]

/-- A DMA error on a submission ring (R393). -/
theorem dmaError_sq {n : Nat} {s : State} (hregs : s.RegsOk) (hq : s.quiet) (hn : n < 32) (hup : pciUp s = true) (hrun : (sqOf s n).run = true)
    (hwf : Kv.wf s.host.sq = true) (hframes : s.host.frames = []) :
    ∃ t, exec (.dmaError false n) s = .next t ∧ (sqOf t n).run = false ∧ bits (reg t (sqCfg n)) 1 1 = 1 ∧
      reg t 0xE048 = satAdd (reg s 0xE048) 1 ∧ reg t 0xE04C = satAdd (reg s 0xE04C) 1 := by
  have hsettled : settleAll (dmaFail false n s) = dmaFaulted n s := by
    rw [dmaFail_sq hn hup hrun, settleAll_of_quiet (dmaFaulted_quiet hwf hframes n hq)]
  have hsq : (dmaFaulted n s).host.sq = (sqFaulted n s).host.sq := by
    unfold dmaFaulted
    rw [msix_sq, event_host]
    rfl
  have hstopped : sqOf (dmaFaulted n s) n = sqOf (sqStop n s) n := sqOf_congr (hsq.trans rfl) n
  refine ⟨_, congrArg Host.Outcome.next hsettled, ?_, reg_dmaFaulted hregs hwf hframes hn⟩
  rw [hstopped, sqOf_sqStop hwf hframes, sqOf_sqStopped_same hwf]

/-- Settles O41: an EN bit is stored whatever is frozen, and its ring starts or stops; a poll goes ring by ring. -/
theorem hostRings : Obligations.HostRings := by
  unfold Obligations.HostRings
  refine ⟨?pciOn, ?pciOff, ?sqOn, ?cqOn, ?sqOff, ?cqOff, ?pollDown, ?pollNoRings, ?pollOneRing, ?dmaError, ?dmaOff, ?hold, ?coalesce, ?coalesceClosed⟩
  case pciOn =>
    intro v s hregs hbar hq hold hnew
    have hoff : 0xE000 ∈ enRegs := List.mem_cons_self
    obtain ⟨w, x, hwrite, hen⟩ := barWrite_en (v := v) hoff hregs hbar
    have hhost := enStored_host (s := s) v w hoff
    have hraw : (enStored 0xE000 v w s).tim.raw = s.tim.raw := congrArg (·.raw) ((enStored_changes hoff v w s).same .tim (by decide))
    rw [afterWrite_pciCtl, pciEn_rises hold (hen.trans hnew)] at hwrite
    refine ⟨_, congrArg (Host.Outcome.next ∘ settleAll) hwrite, ?_⟩
    dsimp only [Function.comp_apply]
    rw [settleAll_of_quiet (quiet_setHost rfl (enStored_quiet v w hoff hq))]
    refine ⟨?_, ?_, (Changes.step (setHost_changes ..) ((enStored_changes hoff v w s).mono rfl) rfl).same⟩
    · exact (congrArg (bit · 31) (reg_enStored v w hregs)).trans (hen.trans hnew)
    · change { (enStored 0xE000 v w s).host with pollFast := true, changedAt := (enStored 0xE000 v w s).tim.raw } = _
      rw [hhost, hraw]
  case pciOff => exact fun v s hregs hbar hq hold hnew => pciEnableWrite_falls hregs hbar hq hold hnew
  case sqOn =>
    intro n v s hregs hwf hn hbar hold
    have hoff := sqCfg_mem hn
    obtain ⟨w, x, hwrite, hen⟩ := barWrite_en (v := setBits v 31 31 1) hoff hregs hbar
    have hnew : bit w 31 = true := hen.trans (bit_setBits_top v true)
    have hhost := enStored_host (s := s) (setBits v 31 31 1) w hoff
    have hstart := (afterWrite_sqCfg hn (reg s (sqCfg n)) w x _).trans (ringEn_rises (cq := false) (n := n) hold hnew (enStored (sqCfg n) (setBits v 31 31 1) w s))
    have hsq : ∀ m, sqOf (enStored (sqCfg n) (setBits v 31 31 1) w s) m = sqOf s m := sqOf_congr (congrArg HostState.sq hhost)
    have hwf' : Kv.wf (enStored (sqCfg n) (setBits v 31 31 1) w s).host.sq = true := by rwa [hhost]
    refine ⟨_, congrArg Host.Outcome.next ((if_pos hn).trans (hwrite.trans hstart)), ?_, ?_, fun m hm => ?_,
      (Changes.step (setSq_changes ..) ((enStored_changes hoff _ w s).mono rfl) rfl).same⟩
    · exact (congrArg (bit · 31) (reg_enStored _ w hregs)).trans hnew
    · exact (sqOf_setSq_same hwf' n _).trans (by rw [hsq])
    · exact (sqOf_setSq_ne hwf' _ hm).trans (hsq m)
  case cqOn =>
    intro n v s hregs hn hbar hold
    have hoff := cqCfg_mem hn
    obtain ⟨w, x, hwrite, hen⟩ := barWrite_en (v := setBits v 31 31 1) hoff hregs hbar
    have hnew : bit w 31 = true := hen.trans (bit_setBits_top v true)
    have hhost := enStored_host (s := s) (setBits v 31 31 1) w hoff
    have hstart := (afterWrite_cqCfg hn (reg s (cqCfg n)) w x _).trans (ringEn_rises (cq := true) (n := n) hold hnew (enStored (cqCfg n) (setBits v 31 31 1) w s))
    refine ⟨_, congrArg Host.Outcome.next ((if_pos hn).trans (hwrite.trans hstart)), ?_, Kv.get?_put_same _ _ _, fun m hm => ?_,
      (Changes.step (setCq_changes ..) ((enStored_changes hoff _ w s).mono rfl) rfl).same⟩
    · exact (congrArg (bit · 31) (reg_enStored _ w hregs)).trans hnew
    · exact (Kv.get?_put_ne _ hm).trans (by rw [hhost])
  case sqOff => exact fun n v s hregs hq hwf hn hbar hold hframes => ringDisable_sq hregs hq hwf hn hbar hold hframes
  case cqOff => exact fun n v c s hregs hq hn hbar hold _ hget hwaiting => ringDisable_cq hregs hq hn hbar hold hget hwaiting
  case pollDown => exact fun words cmds bufs s h => congrArg Host.Outcome.next (if_pos (by simp [h]))
  case pollNoRings =>
    intro words cmds bufs s hq hup hsq hcq hne
    exact congrArg Host.Outcome.next ((doorbellPoll_noRings hq hup hsq hcq).trans (if_pos (bne_iff_ne.mpr hne)))
  case pollOneRing =>
    intro n q words cmds bufs s hq hup hn hsq hcq hrun hcmd hroom hnone
    obtain ⟨hrsq, -, hregs, hout, -⟩ := pollRate_keeps words s
    have hwf : Kv.wf (pollRate words s).host.sq = true := by rw [hrsq, hsq]; simp [Kv.wf, Kv.sortedFrom]
    exact ⟨_, congrArg Host.Outcome.next (doorbellPoll_oneRing hq hup hn hsq hcq hrun hcmd hroom hnone), sqOf_setSq_same hwf n _, hregs, hout⟩
  case dmaError => exact fun n s hregs hq hn hup hrun hwf hframes => dmaError_sq hregs hq hn hup hrun hwf hframes
  case dmaOff =>
    intro cq n s hq hoff
    refine congrArg Host.Outcome.next ?_
    rw [dmaFail_off hoff]
    exact settleAll_of_quiet hq
  case hold =>
    intro n at_ f s hregs hq hn hframes hhold hdue
    have hnone : (setFrames n [] s).host.frames = [] := by
      change Kv.putOr [] n [] s.host.frames = []
      rw [hframes]
      simp [Kv.putOr, Kv.del]
    have hwork := ringWork_endFrame (C := ringCounts) (by decide) (by decide) n f (setFrames n [] s)
    have hended : (endFrame n f (setFrames n [] s)).host.frames = [] := List.eq_nil_of_subset_nil (hnone ▸ hwork.frames)
    have hone : framesOf s n = [f] := by simp [framesOf, hframes, Kv.getD, Kv.get?]
    refine ⟨_, congrArg (Host.Outcome.next ∘ settleAll) (holdExpiry_due hn hone hhold hdue (by unfold framesOf; rw [hended]; rfl)), ?_⟩
    rw [settleAll_of_quiet (hwork.quiet ((ringWork_setFrames (C := ringCounts) n s).quiet hq))]
    exact ⟨hended, reg_endFrame (s := setFrames n [] s) hregs n f⟩
  case coalesce =>
    intro n c s hopen hon hsome hdue hmask
    have hup : pciUp s = true ∧ n < 32 := by
      unfold cqOpen at hopen
      by_contra h
      rw [if_neg (by simpa using h)] at hopen
      cases hopen
    have hsend : msix n (setCq n { c with sinceMsg := 0 } s) = emit (.msix n) (setCq n { c with sinceMsg := 0 } s) :=
      msix_sends (s := setCq n { c with sinceMsg := 0 } s) hup.1 (by omega) hmask
    refine ⟨_, congrArg Host.Outcome.next ((coalesceExpiry_due hopen hon hsome hdue).trans hsend), Kv.get?_put_same _ _ _, rfl⟩
  case coalesceClosed => exact fun n s h => congrArg Host.Outcome.next (coalesceExpiry_closed h)

end Sys2Proof.Machine
end

section
/-!
SUPPORT. O39: attached modules come and go (R461 to R465).
-/
namespace Sys2Proof.Machine

/-! ## Module positions and heads -/

theorem modSlot_congr {s t : State} (h : t.mea.slots = s.mea.slots) (k : Nat) : modSlot t k = modSlot s k := by unfold modSlot; rw [h]

theorem modSlot_of_put {s : State} {k : Nat} {v : ModSlot} {m : Kv ModSlot} (h : s.mea.slots = Kv.put k v m) : modSlot s k = v := by
  unfold modSlot Kv.getD
  rw [h, Kv.get?_put_same, Option.getD_some]

theorem modSlot_putModSlot_same (k : Nat) (v : ModSlot) (s : State) : modSlot (putModSlot k v s) k = v :=
  modSlot_of_put (m := s.mea.slots) rfl

theorem modSlot_putModSlot_ne {k j : Nat} (v : ModSlot) (s : State) (hne : j ≠ k) : modSlot (putModSlot k v s) j = modSlot s j := by
  change ((Kv.put k v s.mea.slots).get? j).getD slotNone = _
  rw [Kv.get?_put_ne _ hne]
  rfl

theorem meaHead_setHead_same (h : Nat) (f : MeaHead → MeaHead) (s : State) : meaHead (setHead h f s) h = f (meaHead s h) := by
  change ((Kv.put h (f (meaHead s h)) s.mea.heads).get? h).getD meaHeadEmpty = _
  rw [Kv.get?_put_same]
  rfl

/-! ## The pin (R464) -/

theorem presenceHigh_of_slot {k : Nat} {s : State} (hk : k < 8) : presenceHigh k s =
    if k < 2 then setHead k (fun h => { h with rec_ := none, next := none, flags := h.flags ||| 0x40#8 })
      (putModSlot k { modSlot s k with presHigh := true, debounce := false, code := 0 } s)
    else putModSlot k { modSlot s k with presHigh := true, debounce := false, code := 0 } s := if_neg (by omega)

theorem presenceHigh_slots {k : Nat} {s : State} (hk : k < 8) (j : Nat) :
    modSlot (presenceHigh k s) j = modSlot (putModSlot k { modSlot s k with presHigh := true, debounce := false, code := 0 } s) j := by
  rw [presenceHigh_of_slot hk]
  split
  · exact modSlot_congr rfl j
  · rfl

theorem presenceLow_of_slot {k : Nat} {s : State} (hk : k < 8) :
    presenceLow k s = putModSlot k { modSlot s k with presHigh := false, debounce := true, lowAt := s.tim.raw } s := if_neg (by omega)

/-! ## The record (R463, R465) -/

/-- The CRC field of a record. -/
def recordCrc (r : List Byte) : W32 := BitVec.ofNat 32 (recFld r 252 4)

/-- An accepted record fills the position, -/
theorem acceptRecord_slots (k : Nat) (r : List Byte) (s : State) : (acceptRecord k r s).mea.slots =
    Kv.put k { modSlot s k with code := 1, rec_ := r, serial := some (BitVec.ofNat 64 (recFld r 8 8)) } s.mea.slots := by
  unfold acceptRecord
  dsimp only
  split_ifs <;> rfl

/-- its CRC is kept, -/
theorem acceptRecord_kept (k : Nat) (r : List Byte) (s : State) : (acceptRecord k r s).mea.kept = Kv.put k (recordCrc r) s.mea.kept := by
  unfold acceptRecord
  dsimp only
  split_ifs <;> rfl

/-- Is another module in the position than the one whose CRC was kept? -/
def recordChanged (k : Nat) (r : List Byte) (s : State) : Bool := s.mea.kept.getD k 0 != 0 && s.mea.kept.getD k 0 != recordCrc r

/-- and of the registers only the count of changed modules may rise. -/
theorem acceptRecord_regs (k : Nat) (r : List Byte) (s : State) :
    (acceptRecord k r s).regs = if recordChanged k r s then (count 0xF058 s).regs else s.regs := by
  unfold acceptRecord recordChanged recordCrc
  dsimp only
  split_ifs <;> rfl

/-- The position as its record is read. -/
def recordRead (k : Nat) (m : ModRecord) (s : State) : State :=
  count 0xF050 (putModSlot k { modSlot s k with presHigh := false, debounce := false, code := recordCode s k m } s)

theorem readModule_ok {k : Nat} {m : ModRecord} {s : State} (h : recordCode s k m = 1) : readModule k m s = acceptRecord k m.bytes (recordRead k m s) := if_pos h

theorem readModule_bad {k : Nat} {m : ModRecord} {s : State} (h : recordCode s k m ≠ 1) : readModule k m s =
    if slotEnabled (recordRead k m s) k then event 15 0x01 (k * 16 + recordCode s k m) [] (count 0xF054 (recordRead k m s)) else recordRead k m s := if_neg h

theorem modSlot_recordRead (k : Nat) (m : ModRecord) (s : State) :
    modSlot (recordRead k m s) k = { modSlot s k with presHigh := false, debounce := false, code := recordCode s k m } := by
  unfold recordRead
  generalize recordCode s k m = c
  exact modSlot_putModSlot_same k _ s

/-- The position after the read of a record that passes, -/
theorem modSlot_readModule_ok {k : Nat} {m : ModRecord} {s : State} (h : recordCode s k m = 1) : modSlot (readModule k m s) k =
    { modSlot (recordRead k m s) k with code := 1, rec_ := m.bytes, serial := some (BitVec.ofNat 64 (recFld m.bytes 8 8)) } := by
  rw [readModule_ok h]
  exact modSlot_of_put (acceptRecord_slots ..)

/-- and of one that does not. -/
theorem modSlot_readModule_bad {k : Nat} {m : ModRecord} {s : State} (h : recordCode s k m ≠ 1) :
    modSlot (readModule k m s) k = modSlot (recordRead k m s) k := by
  rw [readModule_bad h]
  split
  · exact modSlot_congr (congrArg MeaState.slots ((event_mea ..).trans (((count_changes _ _ (by decide)).same .mea (by decide))))) k
  · rfl

theorem readModule_slot (k : Nat) (m : ModRecord) (s : State) :
    (modSlot (readModule k m s) k).code = recordCode s k m ∧ (modSlot (readModule k m s) k).debounce = false ∧
      (recordCode s k m = 1 → (modSlot (readModule k m s) k).rec_ = m.bytes) := by
  have hread := modSlot_recordRead k m s
  by_cases hok : recordCode s k m = 1
  · rw [modSlot_readModule_ok hok]
    refine ⟨hok.symm, ?_, fun _ => rfl⟩
    exact congrArg ModSlot.debounce hread
  · rw [modSlot_readModule_bad hok]
    exact ⟨congrArg ModSlot.code hread, congrArg ModSlot.debounce hread, fun h => absurd h hok⟩

theorem readModule_kept {k : Nat} {m : ModRecord} {s : State} (h : recordCode s k m = 1) : (readModule k m s).mea.kept.getD k 0 = recordCrc m.bytes := by
  unfold Kv.getD
  rw [readModule_ok h, acceptRecord_kept, Kv.get?_put_same]
  rfl

/-- The read is counted. -/
theorem readModule_counts {s : State} (hregs : s.RegsOk) (k : Nat) (m : ModRecord) : reg (readModule k m s) 0xF050 = satAdd (reg s 0xF050) 1 := by
  have hok : (recordRead k m s).RegsOk := RegsOk_setReg (s := putModSlot k _ s) hregs _ _
  have hread : reg (recordRead k m s) 0xF050 = satAdd (reg s 0xF050) 1 := reg_count_same (s := putModSlot k _ s) hregs 0xF050
  rw [← hread]
  by_cases h : recordCode s k m = 1
  · rw [readModule_ok h]
    have hr := acceptRecord_regs k m.bytes (recordRead k m s)
    split at hr
    · rw [reg_congr hr, reg_count_ne hok (by decide)]
    · exact reg_congr hr _
  · rw [readModule_bad h]
    split
    · exact reg_count_ne hok (by decide)
    · rfl

/-- Its debounce is over: the record of a position that the role uses is read. -/
def debounced (k : Nat) (s : State) : Prop :=
  slotUsed s k = true ∧ (modSlot s k).presHigh = false ∧ (modSlot s k).debounce = true ∧ (modSlot s k).lowAt + 50000000 ≤ s.tim.raw

/-- Beside the read only links and transceivers of the position begin to wait. -/
theorem presenceDebounce_reads {k : Nat} {m : ModRecord} {s : State} (hk : k < 8) (h : debounced k s) :
    (presenceDebounce k m s).mea = (readModule k m s).mea ∧ (presenceDebounce k m s).regs = (readModule k m s).regs := by
  obtain ⟨hused, hlow, hdeb, hdue⟩ := h
  have hnot : ¬((decide (8 ≤ k) || !slotUsed s k || (modSlot s k).presHigh || !(modSlot s k).debounce || decide (s.tim.raw < (modSlot s k).lowAt + 50000000)) = true) := by
    simp [hk, hused, hlow, hdeb, hdue]
  unfold presenceDebounce
  rw [if_neg hnot]
  dsimp only
  split
  · exact ⟨rfl, rfl⟩
  · split <;> exact ⟨rfl, rfl⟩

/-- Settles O39: a pin changes its own position; the record read at the end of the debounce decides. -/
theorem modulePresence : Obligations.ModulePresence := by
  unfold Obligations.ModulePresence
  refine ⟨?high, ?low, ?debounce, ?early, ?noSlot⟩
  case high =>
    intro k s hk
    refine ⟨_, rfl, ?_, fun j hj => ?_, fun hhead => ?_, (presenceHigh_changes k s).same⟩
    · rw [presenceHigh_slots hk, modSlot_putModSlot_same]
    · rw [presenceHigh_slots hk, modSlot_putModSlot_ne _ _ hj]
    · rw [presenceHigh_of_slot hk, if_pos hhead, meaHead_setHead_same]
      exact ⟨rfl, rfl⟩
  case low =>
    intro k s hk
    refine ⟨_, rfl, ?_, fun j hj => ?_, ?_, (presenceLow_changes k s).same⟩
    · rw [presenceLow_of_slot hk, modSlot_putModSlot_same]
    · rw [presenceLow_of_slot hk, modSlot_putModSlot_ne _ _ hj]
    · rw [presenceLow_of_slot hk]
      rfl
  case debounce =>
    intro k m s hregs hk hused hlow hdeb hdue
    obtain ⟨hmea, hreg⟩ := presenceDebounce_reads (m := m) hk ⟨hused, hlow, hdeb, hdue⟩
    obtain ⟨hcode, hdone, hrec⟩ := readModule_slot k m s
    have hslot : modSlot (presenceDebounce k m s) k = modSlot (readModule k m s) k := modSlot_congr (congrArg MeaState.slots hmea) k
    refine ⟨_, rfl, ?_, ?_, fun hok => ⟨?_, ?_⟩, ?_, (presenceDebounce_changes k m s).same⟩
    · rw [hslot, hcode]
    · rw [hslot, hdone]
    · rw [hslot, hrec hok]
    · rw [hmea]
      exact readModule_kept hok
    · rw [reg_congr hreg, readModule_counts hregs]
  case early =>
    intro k m s h
    refine congrArg Host.Outcome.next (if_pos ?_)
    rcases h with h | h | h <;> simp [h]
  case noSlot =>
    intro k m s hk
    exact ⟨congrArg Host.Outcome.next (if_pos hk), congrArg Host.Outcome.next (if_pos hk), congrArg Host.Outcome.next (if_pos (by simp [hk]))⟩

end Sys2Proof.Machine
end

section
/-!
SUPPORT. O16: what each reset source leaves (R14, R502, R503, R505, R533, R554, R560).
-/
namespace Sys2Proof.Machine

/-! ## Registers after a reset (R14) -/

/-- Of a unit reset alone BKP and CTL fields of class P survive too; RST_UNIT keeps its mode by itself. -/
theorem reg_wipe_unit {s : State} (h : s.RegsOk) {o : Nat} (ho : o ≠ 0x17004) : reg (wipe .unit s) o = if keepsReg .unit o then reg s o else regReset o := by
  have hregs : (wipe .unit s).regs = Kv.putOr 0#32 0x17004 (setBits 0#32 17 16 (fieldOf s 0x17004 17 16)) (s.regs.filter fun p => keepsReg .unit p.1) := rfl
  have hwf : Kv.wf (s.regs.filter fun p => keepsReg .unit p.1) = true := Kv.wf_filter _ h.1
  have hget := Kv.get?_filter_key (keepsReg .unit) o h.1
  unfold reg
  rw [hregs, Kv.getD_putOr_ne _ _ _ hwf ho]
  unfold Kv.getD
  rw [hget]
  split <;> rfl

theorem reg_wipe {l : Loss} {s : State} (h : s.RegsOk) {o : Nat} (ho : o ≠ 0x17004) : reg (wipe l s) o = if keepsReg l o then reg s o else regReset o := by
  cases l with
  | unit => exact reg_wipe_unit h ho
  | main => exact reg_wipe_main h o
  | all => rw [reg_wipe_all, keepsReg_all]; rfl

/-! ## The reset (R502, R503) -/

/-- BKP_CAUSE as a reset writes it. -/
def causeWord (first backup detail cause : Nat) : W32 := BitVec.ofNat 32 (first * 2 ^ 17 + backup * 2 ^ 16 + detail % 256 * 256 + cause)

theorem bits_causeWord {first backup detail cause : Nat} (hf : first ≤ 1) (hb : backup ≤ 1) (hd : detail < 256) (hc : cause < 256) :
    bits (causeWord first backup detail cause) 7 0 = cause ∧ bits (causeWord first backup detail cause) 15 8 = detail := by
  unfold bits causeWord
  rw [BitVec.toNat_ofNat, Nat.mod_eq_of_lt (b := 2 ^ 32) (by omega), Nat.shiftRight_eq_div_pow, Nat.shiftRight_eq_div_pow]
  constructor <;> omega

/-- The unit wiped and in reset. -/
def wiped (l : Loss) (s : State) : State := setBoot (fun b => { b with phase := .inReset }) (wipe l s)

/-- A reset that the one in progress does not hide: a power-on, or any while the unit runs. -/
theorem beginReset_writes {cause detail : Nat} {l : Loss} {s : State} (h : cause = 1 ∨ s.boot.phase = .started) :
    beginReset cause detail l s =
      setReg 0x1004 (causeWord (1 - fieldOf (wiped l s) 0x1000 31 31) (b2n (cause = 1 && s.boot.power == .backup)) detail cause) (wiped l s) := by
  have hheld : (s.boot.phase == .trimHold && !(cause = 1 || cause = 2 || cause = 3)) = false := by
    rcases h with h | h <;> simp [h]
  have hhidden : ((s.boot.phase == .inReset || false) && causeRank (fieldOf s 0x1004 7 0) < causeRank cause &&
      b2n (cause = 1 && s.boot.power == .backup) = 0) = false := by
    rcases h with h | h
    · simp [h, causeRank]
    · simp [h]
  unfold beginReset
  dsimp only
  rw [hheld, hhidden]
  rfl

/-- What a reset of the running unit leaves. -/
theorem beginReset_leaves {cause detail : Nat} {l : Loss} {s : State} (hregs : s.RegsOk) (h : cause = 1 ∨ s.boot.phase = .started) (hc : cause < 256)
    (hd : detail < 256) : State.ResetBy cause detail l s (beginReset cause detail l s) := by
  have hok : (wiped l s).RegsOk := (wipe_changes l s).regsOk hregs
  obtain ⟨hcause, hdetail⟩ := bits_causeWord (first := 1 - fieldOf (wiped l s) 0x1000 31 31) (backup := b2n (cause = 1 && s.boot.power == .backup))
    (by omega) (by unfold b2n; split <;> omega) hd hc
  obtain ⟨hotp, hctl⟩ := keptBoot_keeps s
  rw [beginReset_writes h]
  refine ⟨rfl, ?_, ?_, fun o ho => ?_, rfl, rfl, rfl, rfl, rfl, hotp, hctl, rfl, rfl, ?_⟩
  · rw [reg_setReg_same hok, hcause]
  · rw [reg_setReg_same hok, hdetail]
  · simp only [List.mem_cons, List.not_mem_nil, or_false, not_or] at ho
    rw [reg_setReg_ne hok _ ho.1]
    exact reg_wipe hregs ho.2.2
  · cases l <;> rfl

/-- A reset from a state that differs only in RST_UNIT leaves the same. -/
theorem resetBy_congr {cause detail : Nat} {l : Loss} {s u t : State} (h : State.ResetBy cause detail l u t) (hreg : ∀ o, o ≠ 0x17004 → reg u o = reg s o)
    (hboot : u.boot = s.boot) (harch : u.arch = s.arch) (hevt : u.evt = s.evt) : State.ResetBy cause detail l s t := by
  obtain ⟨hphase, hcause, hdetail, hkept, hslots, htable, hpipe, hst, hact, hotp, hctl, hblocks, hzone, hring⟩ := h
  rw [hboot] at hotp hctl
  rw [harch] at hblocks
  rw [hevt] at hzone hring
  refine ⟨hphase, hcause, hdetail, fun o ho => ?_, hslots, htable, hpipe, hst, hact, hotp, hctl, hblocks, hzone, hring⟩
  have hne : o ≠ 0x17004 := fun e => ho (by simp [e])
  rw [hkept o ho, hreg o hne]

/-! ## The sources -/

theorem powerOnReset_leaves {s : State} (hregs : s.RegsOk) : State.ResetBy 1 0 .main s (powerOnReset s) ∧ reg (powerOnReset s) 0x1014 = satAdd (reg s 0x1014) 1 := by
  have hreset : State.ResetBy 1 0 .main s (beginReset 1 0 .main s) := beginReset_leaves hregs (.inl rfl) (by decide) (by decide)
  have hok : (beginReset 1 0 .main s).RegsOk := (beginReset_changes 1 0 .main s).regsOk hregs
  have hcount : ∀ o, o ≠ 0x1014 → reg (powerOnReset s) o = reg (beginReset 1 0 .main s) o := fun o ho =>
    reg_count_ne (s := setBoot _ (beginReset 1 0 .main s)) hok ho
  have hkeep : reg (beginReset 1 0 .main s) 0x1014 = reg s 0x1014 := by
    have hwiped : (wiped .main s).RegsOk := (wipe_changes .main s).regsOk hregs
    rw [beginReset_writes (.inl rfl), reg_setReg_ne hwiped _ (by decide)]
    exact (reg_wipe_main hregs 0x1014).trans (if_pos (by decide))
  obtain ⟨hphase, hcause, hdetail, hkept, hslots, htable, hpipe, hst, hact, hotp, hctl, hblocks, hzone, hring⟩ := hreset
  refine ⟨⟨hphase, ?_, ?_, fun o ho => ?_, hslots, htable, hpipe, hst, hact, hotp, hctl, hblocks, hzone, hring⟩, ?_⟩
  · rw [hcount _ (by decide), hcause]
  · rw [hcount _ (by decide), hdetail]
  · rw [hcount o fun e => ho (by simp [e]), hkept o ho]
  · exact (reg_count_same (s := setBoot _ (beginReset 1 0 .main s)) hok 0x1014).trans (congrArg (satAdd · 1) hkeep)

/-- The mask of RST_UNIT.UNIT covers that field alone. -/
theorem unitMask_ok : ∃ d, regDef 0x17004 = some d ∧ auMaskOk d 0xFFFF = true := ⟨_, rfl, by decide⟩

/-- The reset command resets the unit in its own state (R533). -/
theorem auWrite_reset {v : W32} {s : State} (hv : bits v 15 0 = 0x5253) (hup : blockDown 0x17004 s = false) : ∃ d, regDef 0x17004 = some d ∧
    auWrite .none 0x17004 0xFFFF v s = (beginReset 5 0 .unit (auStore d 0x17004 0xFFFF v s), .later) := by
  obtain ⟨d, hd, hm⟩ := unitMask_ok
  refine ⟨d, hd, ?_⟩
  have hunit : auUnit d 0xFFFF v s = (beginReset 5 0 .unit (auStore d 0x17004 0xFFFF v s), .later) := by
    unfold auUnit
    rw [if_neg (by decide), if_neg (by simp [hv])]
  unfold auWrite
  rw [hd]
  dsimp only
  rw [hm, hup, if_neg (by decide), if_neg Bool.false_ne_true, if_neg (by decide), if_pos rfl, hunit]

/-- After a reset nothing is journalled (R505). -/
theorem beginReset_journals (cause detail : Nat) (l : Loss) (s : State) : journals (beginReset cause detail l s) = false := by
  unfold beginReset
  dsimp only
  split <;> rfl

theorem auStore_unit (d : RegDef) (mask v : W32) (s : State) : auStore d 0x17004 mask v s = putWord 0x17004 (newWord auCan d 0x17004 mask v s) s := rfl

/-- A command without an answer leaves what its work leaves, when nothing is journalled any more. -/
theorem answered_later {h : Hdr} {c : Cmd} {u v : State} (hv : journals v = false) : State.answered h c .later u v = v := by
  have hcounter : journalCounter u h v = v := by
    unfold journalCounter
    split
    · split
      · rfl
      · exact if_neg (by simp [hv])
    · rfl
  have hlater : (Reply.later.status == Status.later) = true := by decide
  unfold State.answered replyAfter
  rw [if_pos hlater, hcounter]

/-- Settles O16: every source begins the one reset, with its cause and its loss. -/
theorem resetSources : Obligations.ResetSources := by
  unfold Obligations.ResetSources
  refine ⟨?powerOn, ?brownOut, ?pin, ?watchdog, ?watchdogStopped, ?thermal, ?clock, ?commanded⟩
  case powerOn =>
    intro s hregs
    obtain ⟨hreset, hcycles⟩ := powerOnReset_leaves hregs
    exact ⟨_, rfl, hreset, rfl, hcycles⟩
  case brownOut =>
    intro supply s hregs hmain hphase hsupply
    have hbegin : brownOut supply s = beginReset 2 supply .main s := if_neg (by simp [hmain, hsupply])
    exact ⟨_, congrArg Host.Outcome.next hbegin, beginReset_leaves hregs (.inr hphase) (by decide) (by omega)⟩
  case pin =>
    intro s hregs hmain hphase
    have hbegin : externalReset s = beginReset 3 0 .unit s := if_neg (by simp [hmain, hphase])
    exact ⟨_, congrArg Host.Outcome.next hbegin, beginReset_leaves hregs (.inr hphase) (by decide) (by decide)⟩
  case watchdog =>
    intro s hregs hrefreshed hrun hphase
    have hbegin : watchdogExpiry s = beginReset 4 0 .unit s := if_neg (by simp [hrefreshed, hrun, hphase])
    exact ⟨_, congrArg Host.Outcome.next hbegin, beginReset_leaves hregs (.inr hphase) (by decide) (by decide)⟩
  case watchdogStopped =>
    intro s h
    refine congrArg Host.Outcome.next (if_pos ?_)
    rcases h with h | h <;> simp [h]
  case thermal =>
    intro s hregs hmain hphase hhot
    have hbegin : thermalReset s = beginReset 6 0 .unit s := if_neg (by simp [hmain, hhot])
    exact ⟨_, congrArg Host.Outcome.next hbegin, beginReset_leaves hregs (.inr hphase) (by decide) (by decide)⟩
  case clock =>
    intro s hregs hmain hphase
    have hbegin : clockLoss s = beginReset 7 0 .unit s := if_neg (by simp [hmain])
    exact ⟨_, congrArg Host.Outcome.next hbegin, beginReset_leaves hregs (.inr hphase) (by decide) (by decide)⟩
  case commanded =>
    intro h v s u hregs hu hup hphase
    have hok : u.RegsOk := (entered_changes hu).regsOk hregs
    have hv : bits (setBits v 15 0 0x5253) 15 0 = 0x5253 := bits_setBits_same _ _ (by decide) (by decide)
    obtain ⟨d, hd, hwrite⟩ := auWrite_reset (s := u) hv hup
    have hstored := auStore_unit d 0xFFFF (setBits v 15 0 0x5253) u
    have hch : Changes [.regs, .setup] u (auStore d 0x17004 0xFFFF (setBits v 15 0 0x5253) u) := hstored ▸ putWord_changes ..
    have hreset := beginReset_leaves (cause := 5) (detail := 0) (l := .unit) (hch.regsOk hok)
      (.inr ((congrArg (fun b : Boot => b.phase) (hch.same .boot (by decide))).trans hphase)) (by decide) (by decide)
    refine ⟨_, (exec_of_entered rfl hu hwrite).trans (congrArg Host.Outcome.next (answered_later (beginReset_journals ..))),
      resetBy_congr hreset (fun o ho => ?_) (hch.same .boot (by decide)) (hch.same .arch (by decide)) (hch.same .evt (by decide))⟩
    rw [hstored]
    by_cases hp : o = 0xD010
    · exact reg_setReg_ne hok _ ho
    · exact reg_putWord_ne hok _ ho hp

end Sys2Proof.Machine
end

section
/-!
SUPPORT. O17 and O37: REG_WRITE_AU of a register whose AU fields are single bits (R414).
-/
namespace Sys2Proof.Machine

/-- An AU field of one bit. -/
def bitField (i : Nat) : Fld := ⟨i, i, .au, .full⟩

theorem eq_of_bit {w u : W32} (h : ∀ i, i < 32 → bit w i = bit u i) : w = u := BitVec.eq_of_getLsbD_eq h

theorem bit_or (w u : W32) (i : Nat) : bit (w ||| u) i = (bit w i || bit u i) := BitVec.getLsbD_or

theorem bit_zero (i : Nat) : bit 0 i = false := BitVec.getLsbD_zero

@[simp] theorem bit_zero_word (i : Nat) : bit 0#32 i = false := BitVec.getLsbD_zero

theorem bit_fieldMask_bitField {i : Nat} (hi : i < 32) (j : Nat) : bit (fieldMask (bitField i)) j = decide (j = i) :=
  (bit_rangeMask j (Nat.le_refl i)).trans (decide_eq_decide.mpr (by omega))

/-- A mask reaches the bit of such a field, or nothing of it. -/
theorem bitField_and_mask {i : Nat} (hi : i < 32) (mask : W32) : fieldMask (bitField i) &&& mask = if bit mask i then fieldMask (bitField i) else 0 := by
  refine eq_of_bit fun j _ => ?_
  rw [bit_and, bit_fieldMask_bitField hi]
  by_cases hj : j = i
  · subst hj
    cases hm : bit mask j
    · simp
    · simp [bit_fieldMask_bitField hi]
  · cases hm : bit mask i
    · simp [hj]
    · simp [bit_fieldMask_bitField hi, hj]

theorem fieldMask_bitField_ne {i : Nat} (hi : i < 32) : fieldMask (bitField i) ≠ 0 := fun h => by
  have hbit := congrArg (bit · i) h
  simp [bit_fieldMask_bitField hi] at hbit

section
variable {off : Nat} {d : RegDef} (hd : regDef off = some d)
include hd

theorem bitField_lt {f : Fld} (hf : f ∈ d.flds) : f.lo < 32 := by
  obtain ⟨hle, hlt, -⟩ := Fld.fits_iff.mp ((RegDef.formed_iff.mp (regDef_formed hd)).1 f hf)
  omega

variable (hflds : ∀ f ∈ d.flds, f = bitField f.lo)
include hflds

/-- A mask of nothing but its bits is one that REG_WRITE_AU takes. -/
theorem auMaskOk_of_bits {mask : W32} (hsome : mask ≠ 0)
    (hau : mask &&& ~~~((d.flds.filter fun f => f.acc == .au).foldl (fun a f => a ||| fieldMask f) 0) = 0) : auMaskOk d mask = true := by
  have hwhole : ∀ f ∈ d.flds, (fieldMask f &&& mask == 0 || fieldMask f &&& mask == fieldMask f) = true := fun f hf => by
    rw [hflds f hf, bitField_and_mask (bitField_lt hd hf)]
    split <;> simp
  unfold auMaskOk
  simp only [Bool.and_eq_true, List.all_eq_true, bne_iff_ne, beq_iff_eq]
  exact ⟨⟨hsome, hau⟩, fun f hf => hwhole f (List.mem_filter.mp hf).1⟩

/-- What such a write stores: the bits of the mask. -/
theorem bit_auStored {mask : W32} (hmask : ∀ i, bit mask i = true → bitField i ∈ d.flds) (v old : W32) (i : Nat) :
    bit (storeWord auCan d mask v old) i = if bit mask i then bit v i else bit old i := by
  by_cases hi : bitField i ∈ d.flds
  · have hlt : i < 32 := bitField_lt hd hi
    refine (bit_eq_of_bits_eq (hi := i) (lo := i) (u := if bit mask i then merged mask v old else old) ?_ (Nat.le_refl i) (Nat.le_refl i)).trans ?_
    · have hstored := (accessClasses off d hd auCan mask v old).1 (bitField i) hi
      rw [bitField_and_mask hlt] at hstored
      cases hm : bit mask i with
      | false =>
        rw [hm] at hstored
        exact hstored.trans (if_pos (.inl rfl))
      | true =>
        rw [hm] at hstored
        refine hstored.trans ((if_neg ?_).trans (if_neg fun h => by cases h))
        rintro (h | h | h | h)
        · exact fieldMask_bitField_ne hlt h
        all_goals cases h
    · cases hm : bit mask i with
      | false => rfl
      | true =>
        change bit (merged mask v old) i = bit v i
        unfold merged
        rw [bit_or, bit_andNot, bit_and, hm]
        simp
  · have hout : ∀ f ∈ d.flds, i < f.lo ∨ f.hi < i := fun f hf => by
      have hf' := hflds f hf
      by_contra h
      have hhi : f.hi = f.lo := congrArg Fld.hi hf'
      have hlo : f.lo = i := by omega
      exact hi (hlo ▸ hf' ▸ hf)
    rw [bit_stored_none hd hout, if_neg fun h => hi (hmask i h)]

end

end Sys2Proof.Machine
end

section
/-!
SUPPORT. O17: SW_BLOCK_RESET and SW_BLOCK_RELEASE (R505, R510, R524).
-/
namespace Sys2Proof.Machine

/-! ## RST_SW_RESET -/

/-- RST_SW_RESET has a bit for each of the blocks 2 to 23. -/
theorem regDef_swReset : ∃ d, regDef 0x17008 = some d ∧ d.flds = (List.range 22).map fun k => bitField (k + 2) := ⟨_, rfl, by decide⟩

section
variable {d : RegDef} (hflds : d.flds = (List.range 22).map fun k => bitField (k + 2))
include hflds

theorem swReset_bits : ∀ f ∈ d.flds, f = bitField f.lo := fun f hf => by
  rw [hflds, List.mem_map] at hf
  obtain ⟨k, -, rfl⟩ := hf
  rfl

theorem swReset_mem {i : Nat} (hlo : 2 ≤ i) (hhi : i < 24) : bitField i ∈ d.flds := by
  rw [hflds, List.mem_map]
  exact ⟨i - 2, List.mem_range.mpr (by omega), by rw [Nat.sub_add_cancel hlo]⟩

theorem swReset_au : (d.flds.filter fun f => f.acc == .au).foldl (fun a f => a ||| fieldMask f) 0 = 0xFFFFFC#32 := by
  rw [hflds]
  decide

end

theorem bit_blockMask {mask : W32} (h : mask &&& ~~~0xFFFFFC = 0) {i : Nat} (hi : bit mask i = true) : 2 ≤ i ∧ i < 24 := by
  have hbit := congrArg (bit · i) h
  simp only [bit_andNot, hi, Bool.true_and, bit_zero, Bool.not_eq_false'] at hbit
  have hlt : i < 32 := by
    by_contra hge
    rw [bit_of_ge _ (by omega)] at hi
    cases hi
  have hall : ∀ j < 32, bit 0xFFFFFC#32 j = true → 2 ≤ j ∧ j < 24 := by decide
  exact hall i hlt hbit

/-- A REG_WRITE_AU of RST_SW_RESET: its blocks go into reset or are released as its bits change. -/
theorem auWrite_swReset {mask v : W32} {s : State} (hsome : mask ≠ 0) (hmask : mask &&& ~~~0xFFFFFC = 0) (hup : blockDown 0x17008 s = false) :
    ∃ w, auWrite .none 0x17008 mask v s = (swReset (reg s 0x17008) w (setReg 0x17008 w s), .done) ∧
      ∀ i, bit w i = if bit mask i then bit v i else bit (reg s 0x17008) i := by
  obtain ⟨d, hd, hflds⟩ := regDef_swReset
  have hok : auMaskOk d mask = true := auMaskOk_of_bits hd (swReset_bits hflds) hsome (by rw [swReset_au hflds]; exact hmask)
  have hmem : ∀ i, bit mask i = true → bitField i ∈ d.flds := fun i hi => by
    obtain ⟨hlo, hhi⟩ := bit_blockMask hmask hi
    exact swReset_mem hflds hlo hhi
  refine ⟨storeWord auCan d mask v (reg s 0x17008), ?_, bit_auStored hd (swReset_bits hflds) hmem v _⟩
  unfold auWrite
  rw [hd]
  dsimp only
  rw [hok, hup, if_neg (by decide), if_neg Bool.false_ne_true, if_neg (by decide), if_neg (by decide), if_pos rfl]
  rfl

theorem auWrite_swReset_set {mask : W32} {s : State} (hsome : mask ≠ 0) (hmask : mask &&& ~~~0xFFFFFC = 0) (hup : blockDown 0x17008 s = false) :
    auWrite .none 0x17008 mask (BitVec.allOnes 32) s =
      (swReset (reg s 0x17008) (reg s 0x17008 ||| mask) (setReg 0x17008 (reg s 0x17008 ||| mask) s), .done) := by
  obtain ⟨w, hwrite, hbits⟩ := auWrite_swReset (v := BitVec.allOnes 32) hsome hmask hup
  have hw : w = reg s 0x17008 ||| mask := eq_of_bit fun i hi => by
    rw [hbits, bit_or, show bit (BitVec.allOnes 32) i = true from BitVec.getLsbD_allOnes.trans (decide_eq_true hi)]
    cases bit mask i <;> simp
  rw [hwrite, hw]

theorem auWrite_swReset_clear {mask : W32} {s : State} (hsome : mask ≠ 0) (hmask : mask &&& ~~~0xFFFFFC = 0) (hup : blockDown 0x17008 s = false) :
    auWrite .none 0x17008 mask 0 s =
      (swReset (reg s 0x17008) (reg s 0x17008 &&& ~~~mask) (setReg 0x17008 (reg s 0x17008 &&& ~~~mask) s), .done) := by
  obtain ⟨w, hwrite, hbits⟩ := auWrite_swReset (v := 0) hsome hmask hup
  have hw : w = reg s 0x17008 &&& ~~~mask := eq_of_bit fun i _ => by
    rw [hbits, bit_andNot, bit_zero]
    cases bit mask i <;> simp
  rw [hwrite, hw]

/-! ## One block -/

theorem bit_one_shift {n : Nat} (hn : n < 32) (i : Nat) : bit (1#32 <<< n) i = decide (i = n) := by
  unfold bit
  rw [BitVec.getLsbD_shiftLeft, BitVec.getLsbD_one]
  by_cases hi : i < 32
  · by_cases he : i = n
    · simp [he, hn]
    · have : i < n ∨ i - n ≠ 0 := by omega
      rcases this with h | h <;> simp [hi, he, h]
  · have : i ≠ n := by omega
    simp [hi, this]

theorem oneShift_block {n : Nat} (hlo : 2 ≤ n) (hhi : n ≤ 20) : 1#32 <<< n ≠ 0 ∧ (1#32 <<< n) &&& ~~~0xFFFFFC = 0 := by
  have hmask : ∀ j < 32, 2 ≤ j → j < 24 → bit 0xFFFFFC j = true := by decide
  refine ⟨fun h => ?_, eq_of_bit fun i _ => ?_⟩
  · have hbit := congrArg (bit · n) h
    simp [bit_one_shift (show n < 32 by omega)] at hbit
  · rw [bit_andNot, bit_one_shift (by omega), bit_zero]
    by_cases he : i = n
    · rw [he, hmask n (by omega) hlo (by omega)]
      simp
    · simp [he]

/-- What a change of one bit does. -/
def swStep (old new : W32) (t : State) (n : Nat) : State :=
  if !bit old n && bit new n then blockReset n t
  else if bit old n && !bit new n then blockRelease n t
  else t

theorem swStep_same {old new : W32} {n : Nat} (h : bit new n = bit old n) (t : State) : swStep old new t n = t := by
  unfold swStep
  rw [h]
  cases bit old n <;> rfl

theorem swReset_one {old new : W32} {n : Nat} (hlo : 2 ≤ n) (hhi : n ≤ 20) (h : ∀ i, i ≠ n → bit new i = bit old i) (s : State) :
    swReset old new s = swStep old new s n := by
  have hnodup : ((List.range 22).map (· + 2)).Nodup := List.Nodup.map (fun a b hab => Nat.add_right_cancel hab) List.nodup_range
  have hmem : n ∈ (List.range 22).map (· + 2) := List.mem_map.mpr ⟨n - 2, List.mem_range.mpr (by omega), Nat.sub_add_cancel hlo⟩
  exact foldl_eq_of_one (f := swStep old new) hnodup hmem (fun m _ hm => swStep_same (h m hm) s) fun m _ hm => swStep_same (h m hm) _

/-- A block's registers read their reset words. -/
theorem reg_clearBlock {n : Nat} {s : State} (h : s.RegsOk) {o : Nat} (ho : o / 0x1000 = n) : reg (clearBlock n s) o = regReset o := by
  have hregs : (clearBlock n s).regs = (clearRegs (fun o => o / 0x1000 != n) s).regs := rfl
  rw [reg_congr hregs, reg_clearRegs h, if_neg (by simp [ho])]

/-- The island stopped, before its registers return to reset. -/
def islandHeld (n : Nat) (s : State) : State := if n = 13 && islUp s n then prlGone 1 (islandStop n .reset 0 s) else islandStop n .reset 0 s

theorem resetIsland_eq (n : Nat) (s : State) : resetIsland n s = if n = 16 then event 16 0x04 0 [] (clearBlock n (islandHeld n s)) else clearBlock n (islandHeld n s) := rfl

theorem islandHeld_isl (n : Nat) (s : State) : (islandHeld n s).isl = (setIsl n ⟨.reset, 0, false⟩ s).isl := by
  unfold islandHeld
  split
  · rw [(prlGone_changes ..).isl_eq, islandStop_isl]
  · exact islandStop_isl ..

theorem resetIsland_isl (n : Nat) (s : State) : (resetIsland n s).isl = (setIsl n ⟨.reset, 0, false⟩ s).isl := by
  rw [resetIsland_eq]
  split
  · rw [event_isl, (clearBlock_changes ..).isl_eq, islandHeld_isl]
  · rw [(clearBlock_changes ..).isl_eq, islandHeld_isl]

theorem reg_resetIsland {n : Nat} {s : State} (h : s.RegsOk) {o : Nat} (ho : o / 0x1000 = n) : reg (resetIsland n s) o = regReset o := by
  have hok : (islandHeld n s).RegsOk := by
    have hstop := (islandStop_changes n .reset 0 s).regsOk h
    unfold islandHeld
    split
    · exact (prlGone_changes ..).regsOk hstop
    · exact hstop
  rw [resetIsland_eq]
  split
  · exact reg_clearBlock hok ho
  · exact reg_clearBlock hok ho

/-- The state of a released island (R510). -/
def releasedAs (n : Nat) (s : State) : Island := ⟨if s.boot.trims.contains n = false then .trimInvalid else if wanted s n then .pending else .off, 0, false⟩

theorem releaseBare_isl (n : Nat) (s : State) : (releaseBare n s).isl = (setIsl n (releasedAs n s) s).isl := by
  unfold releaseBare releasedAs
  cases hok : s.boot.trims.contains n with
  | false =>
    rw [if_pos (by decide), if_pos rfl, (proofFail_changes ..).isl_eq, (notice_changes ..).isl_eq]
  | true => rfl

/-- The settings that go with an island's release. -/
def settled (n : Nat) (s : State) : State := if s.boot.mode == .test then s else applySettings (fun o => o / 0x1000 == n) s

theorem settled_changes (n : Nat) (s : State) : Changes [.regs, .setup, .evt] s (settled n s) := .ite .refl (applySettings_changes ..)

/-- Settles O17: a mask changes the bits it names, and each bit that changes is one block's. -/
theorem blockResets : Obligations.BlockResets := by
  unfold Obligations.BlockResets
  refine ⟨?reset, ?release, ?resetOne, ?releaseOne⟩
  case reset => exact fun h mask s u hu hup hsome hmask => exec_of_entered rfl hu (auWrite_swReset_set hsome hmask hup)
  case release => exact fun h mask s u hu hup hsome hmask => exec_of_entered rfl hu (auWrite_swReset_clear hsome hmask hup)
  case resetOne =>
    intro h n s u hsound hlo hhi hu hup hbit
    obtain ⟨-, hregs, hmaps⟩ := hsound
    obtain ⟨hsome, hmask⟩ := oneShift_block hlo hhi
    have hnew : ∀ i, bit (reg u 0x17008 ||| 1#32 <<< n) i = (bit (reg u 0x17008) i || decide (i = n)) := fun i => by
      rw [bit_or, bit_one_shift (by omega)]
    generalize hw : reg u 0x17008 ||| 1#32 <<< n = w at hnew
    have hstep : swReset (reg u 0x17008) w (setReg 0x17008 w u) = resetIsland n (count 0x17068 (setReg 0x17008 w u)) := by
      rw [swReset_one hlo hhi fun i hi => by rw [hnew]; simp [hi]]
      unfold swStep blockReset
      rw [hnew, hbit]
      simp [hhi]
    have hok : (count 0x17068 (setReg 0x17008 w u)).RegsOk := RegsOk_setReg (RegsOk_setReg ((entered_changes hu).regsOk hregs) _ _) _ _
    have hwrite := auWrite_swReset_set (s := u) hsome hmask hup
    rw [hw, hstep] at hwrite
    obtain ⟨hown, hothers⟩ := islOf_of_set (s := count 0x17068 (setReg 0x17008 w u)) ((entered_changes hu).mapsOk hmaps)
      ((answered_isl ..).trans (resetIsland_isl n (count 0x17068 (setReg 0x17008 w u))))
    refine ⟨_, exec_of_entered rfl hu hwrite, hown, hothers, fun o hset ho => ?_⟩
    rw [reg_answered ((resetIsland_changes ..).regsOk hok) hset, reg_resetIsland hok ho]
  case releaseOne =>
    intro h n s u hsound hlo hhi hu hup hbit hheld
    obtain ⟨-, hregs, hmaps⟩ := hsound
    obtain ⟨hsome, hmask⟩ := oneShift_block hlo hhi
    have hnew : ∀ i, bit (reg u 0x17008 &&& ~~~(1#32 <<< n)) i = (bit (reg u 0x17008) i && !decide (i = n)) := fun i => by
      rw [bit_andNot, bit_one_shift (by omega)]
    have hwrite := auWrite_swReset_clear (s := u) hsome hmask hup
    generalize hw : reg u 0x17008 &&& ~~~(1#32 <<< n) = w at hnew hwrite ⊢
    have hstate : (islOf (setReg 0x17008 w u) n).st = .reset := hheld
    have hstep : swReset (reg u 0x17008) w (setReg 0x17008 w u) = releaseBare n (settled n (setReg 0x17008 w u)) := by
      rw [swReset_one hlo hhi fun i hi => by rw [hnew]; simp [hi]]
      unfold swStep blockRelease
      rw [hnew, hbit]
      simp only [hhi, hstate]
      rfl
    rw [hstep] at hwrite
    have hch := settled_changes n (setReg 0x17008 w u)
    have hboot : (settled n (setReg 0x17008 w u)).boot = u.boot := hch.same .boot (by decide)
    have hset : (setIsl n (releasedAs n (settled n (setReg 0x17008 w u))) (settled n (setReg 0x17008 w u))).isl =
        (setIsl n (releasedAs n (settled n (setReg 0x17008 w u))) u).isl := congrArg (Kv.putOr islandReset n _) hch.isl_eq
    obtain ⟨hown, hothers⟩ := islOf_of_set ((entered_changes hu).mapsOk hmaps) ((answered_isl h (.regWriteAu 0x17008 (1#32 <<< n) 0) .done u _).trans
      ((releaseBare_isl n (settled n (setReg 0x17008 w u))).trans hset))
    refine ⟨_, _, exec_of_entered rfl hu hwrite, rfl, hown.trans ?_, hothers⟩
    unfold releasedAs
    rw [hboot]
    rfl

end Sys2Proof.Machine
end

section
/-!
SUPPORT. O36: the start of the unit (R502, R508, R511 to R513).
-/
namespace Sys2Proof.Machine

/-! ## The end of a start -/

theorem startService_phase (env : StartEnv) (s : State) : (startService env s).boot.phase = .started := by
  have hstart : ∀ t, (archStart env.nandTargets (pairStart (startDone t))).boot = (startDone t).boot := fun t =>
    ((archStart_changes ..).same .boot (by decide)).trans ((pairStart_changes _).same .boot (by decide))
  unfold startService
  dsimp only
  rw [hstart]
  rfl

/-- The sequence ends with the unit started, in every mode. -/
theorem runStart_phase (env : StartEnv) (code : BitVec 6) (s : State) : (runStart env code s).boot.phase = .started := by
  unfold runStart
  dsimp only
  split
  · rfl
  · split
    · rfl
    · split
      · exact startService_phase ..
      · rfl

/-! ## The strap (R511, R512) -/

/-- In PROVISION the sequence ends once PCI answers. -/
theorem runStart_provision {env : StartEnv} {code : BitVec 6} {s : State} (hguard : guardCode code = false) (hmode : strapMode (code.toNat / 4) = .provision)
    (hnext : fieldOf s 0x17004 17 16 ≠ 1) : runStart env code s = startDone (crsEnd (startQuiet 14 (takeStrap code s))) ∧
      (startQuiet 14 (takeStrap code s)).boot.mode = .provision ∧ (startQuiet 14 (takeStrap code s)).boot.strapCode = code ∧
      (startQuiet 14 (takeStrap code s)).boot.strapValid = true := by
  have hboot : (startQuiet 14 (takeStrap code s)).boot = (takeStrap code s).boot := (startQuiet_changes ..).same .boot (by decide)
  have htaken : (takeStrap code s).boot.mode = .provision := by
    change (if fieldOf s 0x17004 17 16 = 1 then Mode.recovery else if !guardCode code then strapMode (code.toNat / 4) else .normal) = _
    rw [if_neg hnext, hguard]
    exact hmode
  refine ⟨?_, by rw [hboot, htaken], by rw [hboot]; rfl, ?_⟩
  · unfold runStart
    dsimp only
    rw [hboot, htaken]
    rfl
  · rw [hboot]
    change (!guardCode code) = true
    rw [hguard]
    rfl

theorem strapRetry_waits {code : BitVec 6} {k : Nat} {s : State} (hphase : s.boot.phase = .strapWait k) (henv : s.boot.env ≠ none) (hguard : guardCode code = true)
    (hk : k + 1 < 8) : strapRetry code s = { s with boot := { s.boot with phase := .strapWait (k + 1), strapCode := code } } := by
  obtain ⟨env, he⟩ := Option.ne_none_iff_exists'.mp henv
  unfold strapRetry
  rw [hphase, he]
  exact if_pos (by simp [hguard]; omega)

theorem strapRetry_starts {code : BitVec 6} {k : Nat} {s : State} (hphase : s.boot.phase = .strapWait k) (henv : s.boot.env ≠ none)
    (hend : guardCode code = false ∨ 8 ≤ k + 1) : ∃ env, strapRetry code s = runStart env code s := by
  obtain ⟨env, he⟩ := Option.ne_none_iff_exists'.mp henv
  refine ⟨env, ?_⟩
  unfold strapRetry
  rw [hphase, he]
  refine if_neg ?_
  rcases hend with h | h
  · simp [h]
  · simp only [Bool.and_eq_true, decide_eq_true_eq, not_and]
    omega

/-! ## The release (R508) -/

/-- The unit powered, with what it finds at its start. -/
def fitted (env : StartEnv) (s : State) : State := setBoot (fun b => { b with env := some env, testEn := env.testEn, power := .run, target := .run }) s

/-- BKP and CTL run, the OTP is loaded and the first event is recorded. -/
def firstRun (env : StartEnv) (s : State) : State :=
  let u := otpLoad (setIsl 1 ⟨.run, 0, false⟩ (setIsl 0 ⟨.run, 0, false⟩ (fitted env s)))
  event 1 0x00 (reg u 0x1004).toNat [] (evtStart u)

section
variable {env : StartEnv} {s : State} (hphase : s.boot.phase = .inReset) (hmain : s.boot.mainSupply = true) (hblank : env.preset = none)
include hphase hmain hblank

theorem resetRelease_of_held (hok : ctlTrimOk s = false) : resetRelease env s =
    setReg 0x1004 (BitVec.ofNat 32 ((1 - fieldOf s 0x1000 31 31) * 2 ^ 17 + 8)) (setBoot (fun b => { b with phase := .trimHold }) (fitted env s)) := by
  have htake : (fun b : Boot => { takeFitted env b with env := some env, testEn := env.testEn, power := .run, target := .run }) =
      fun b => { b with env := some env, testEn := env.testEn, power := .run, target := .run } := by
    funext b
    unfold takeFitted
    rw [hblank]
  have htrim : ctlTrimOk (fitted env s) = false := hok
  unfold resetRelease
  rw [if_neg (by simp [hphase, hmain]), htake]
  exact if_pos (by rw [show setBoot _ s = fitted env s from rfl, htrim]; rfl)

theorem resetRelease_of_ok (hok : ctlTrimOk s = true) : resetRelease env s =
    if guardCode env.strap then setBoot (fun b => { b with phase := .strapWait 0, strapCode := env.strap }) (firstRun env s)
    else runStart env env.strap (firstRun env s) := by
  have htake : (fun b : Boot => { takeFitted env b with env := some env, testEn := env.testEn, power := .run, target := .run }) =
      fun b => { b with env := some env, testEn := env.testEn, power := .run, target := .run } := by
    funext b
    unfold takeFitted
    rw [hblank]
  have htrim : ctlTrimOk (fitted env s) = true := hok
  unfold resetRelease
  rw [if_neg (by simp [hphase, hmain]), htake]
  exact if_neg (by rw [show setBoot _ s = fitted env s from rfl, htrim]; decide)

end

/-- The islands after the first steps: BKP and CTL in RUN, the others as they were. -/
theorem firstRun_isl (env : StartEnv) (s : State) : (firstRun env s).isl = (setIsl 1 ⟨.run, 0, false⟩ (setIsl 0 ⟨.run, 0, false⟩ s)).isl :=
  ((evtStart_changes _).same .isl (by decide))

theorem firstRun_boot (env : StartEnv) (s : State) : (firstRun env s).boot.env = some env ∧ (firstRun env s).boot.power = .run := by
  have hboot : (firstRun env s).boot = (otpLoad (setIsl 1 ⟨.run, 0, false⟩ (setIsl 0 ⟨.run, 0, false⟩ (fitted env s)))).boot :=
    (evtStart_changes _).same .boot (by decide)
  rw [hboot]
  exact ⟨rfl, rfl⟩

/-- Settles O36: the release holds, waits or starts; a wait reads the strap again. -/
theorem startUp : Obligations.StartUp := by
  unfold Obligations.StartUp
  refine ⟨?trimHold, ?guard, ?start, ?outside, ?again, ?retryStart, ?provision⟩
  case trimHold =>
    intro env s hregs hphase hmain hblank hok
    have hregs' : (setBoot (fun b => { b with phase := .trimHold }) (fitted env s)).RegsOk := hregs
    refine ⟨_, congrArg Host.Outcome.next (resetRelease_of_held hphase hmain hblank hok), rfl, ?_⟩
    have hword : BitVec.ofNat 32 ((1 - fieldOf s 0x1000 31 31) * 2 ^ 17 + 8) = causeWord (1 - fieldOf s 0x1000 31 31) 0 0 8 := by simp [causeWord]
    rw [reg_setReg_same hregs', hword]
    exact (bits_causeWord (by omega) (by decide) (by decide) (by decide)).1
  case guard =>
    intro env s hsound hphase hmain hblank hok hguard
    obtain ⟨-, -, hmaps⟩ := hsound
    obtain ⟨henv, hpower⟩ := firstRun_boot env s
    have hexec := (resetRelease_of_ok hphase hmain hblank hok).trans (if_pos hguard)
    obtain ⟨hctl, hrest⟩ := islOf_of_set (t := setBoot (fun b => { b with phase := .strapWait 0, strapCode := env.strap }) (firstRun env s))
      ((setIsl_changes 0 ⟨.run, 0, false⟩ s).mapsOk hmaps) (firstRun_isl env s)
    refine ⟨_, congrArg Host.Outcome.next hexec, rfl, henv, rfl, hpower, ?_, hctl, fun n hn => ?_⟩
    · rw [hrest 0 (by decide), islOf_setIsl_same hmaps]
    · rw [hrest n (by omega), islOf_setIsl_ne hmaps _ (by omega)]
  case start =>
    intro env s hphase hmain hblank hok hguard
    have hexec := (resetRelease_of_ok hphase hmain hblank hok).trans (if_neg (by simp [hguard]))
    exact ⟨_, congrArg Host.Outcome.next hexec, runStart_phase ..⟩
  case outside => exact fun env s hphase => congrArg Host.Outcome.next (if_pos (by simp [hphase]))
  case again => exact fun code k s hphase henv hguard hk => congrArg Host.Outcome.next (strapRetry_waits hphase henv hguard hk)
  case retryStart =>
    intro code k s hphase henv hend
    obtain ⟨env, hexec⟩ := strapRetry_starts hphase henv hend
    exact ⟨_, congrArg Host.Outcome.next hexec, runStart_phase ..⟩
  case provision =>
    intro code k s hphase henv hguard hmode hnext
    obtain ⟨env, hexec⟩ := strapRetry_starts hphase henv (.inl hguard)
    obtain ⟨hstart, hprovision, hcode, hvalid⟩ := runStart_provision (env := env) hguard hmode hnext
    exact ⟨_, congrArg Host.Outcome.next (hexec.trans hstart), rfl, hprovision, hcode, hvalid, rfl⟩

end Sys2Proof.Machine
end

section
/-!
SUPPORT. O37: installs, the boot control record and OTP programming (R522, R523, R529, R534).
-/
namespace Sys2Proof.Machine

/-! ## Words of AU bits -/

/-- A register whose lowest `n` bits are AU fields, each of one bit. -/
def auLow (off n : Nat) : Bool :=
  match regDef off with
  | some d => d.flds.all (fun f => f == bitField f.lo) && (List.range n).all fun i => d.flds.contains (bitField i)
  | none => false

theorem auLow_spec {off n : Nat} (h : auLow off n = true) :
    ∃ d, regDef off = some d ∧ (∀ f ∈ d.flds, f = bitField f.lo) ∧ ∀ i, i < n → bitField i ∈ d.flds := by
  unfold auLow at h
  cases hd : regDef off with
  | none => simp [hd] at h
  | some d =>
    rw [hd] at h
    simp only [Bool.and_eq_true, List.all_eq_true, beq_iff_eq, List.mem_range, List.contains_iff_mem] at h
    exact ⟨d, rfl, h.1, h.2⟩

/-- The masks of RST_BOOT_SEL and of RST_BOOT_INSTALL cover their bits. -/
theorem bit_selMask (i : Nat) : bit 0xF i = decide (i < 4) := by
  by_cases hi : i < 32
  · have hall : ∀ j < 32, bit 0xF j = decide (j < 4) := by decide
    exact hall i hi
  · rw [bit_of_ge _ (by omega), decide_eq_false (by omega)]

theorem bit_installMask (i : Nat) : bit 0x7 i = decide (i < 3) := by
  by_cases hi : i < 32
  · have hall : ∀ j < 32, bit 0x7 j = decide (j < 3) := by decide
    exact hall i hi
  · rw [bit_of_ge _ (by omega), decide_eq_false (by omega)]

/-! ## RST_BOOT_SEL (R523) -/

theorem regDef_bootSel : ∃ d, regDef 0x17024 = some d ∧ auMaskOk d 0xF = true ∧ ∀ (v old : W32) (i : Nat), i < 4 → bit (storeWord auCan d 0xF v old) i = bit v i := by
  obtain ⟨d, hd, hflds, hmem⟩ := auLow_spec (off := 0x17024) (n := 4) (by decide)
  have hok : ∃ d, regDef 0x17024 = some d ∧ auMaskOk d 0xF = true := ⟨_, rfl, by decide⟩
  obtain ⟨d', hd', hm⟩ := hok
  cases hd.symm.trans hd'
  refine ⟨d, hd, hm, fun v old i hi => ?_⟩
  rw [bit_auStored hd hflds (fun j hj => hmem j (by rw [bit_selMask] at hj; exact of_decide_eq_true hj)), bit_selMask, if_pos (decide_eq_true hi)]

/-- A store of AU bits changes registers alone. -/
theorem auStore_changes_low {off : Nat} (hoff : ¬(0x500 ≤ off ∧ off < 0x530)) (d : RegDef) (mask v : W32) (s : State) :
    Changes [.regs, .setup] s (auStore d off mask v s) := by
  have hstore : auStore d off mask v s = putWord off (newWord auCan d off mask v s) s := if_neg (by simpa using hoff)
  rw [hstore]
  exact putWord_changes ..

/-- A write of RST_BOOT_SEL acts on its four bits, with FLS in RUN. -/
theorem auWrite_bootSel {v : W32} {s : State} (hup : blockDown 0x17024 s = false) (hfls : islInRun s 4 = true) :
    ∃ w u, auWrite .none 0x17024 0xF v s = (bootSel w u, .done) ∧ (∀ i, i < 4 → bit w i = bit v i) ∧ u.boot = s.boot := by
  obtain ⟨d, hd, hm, hbits⟩ := regDef_bootSel
  refine ⟨newWord auCan d 0x17024 0xF v s, auStore d 0x17024 0xF v s, ?_, fun i hi => hbits v _ i hi, ?_⟩
  · have hsel : auBootSel d 0xF v s = (bootSel (newWord auCan d 0x17024 0xF v s) (auStore d 0x17024 0xF v s), .done) := by
      unfold auBootSel
      rw [hfls]
      rfl
    unfold auWrite
    rw [hd]
    dsimp only
    rw [hm, hup, if_neg (by decide), if_neg Bool.false_ne_true, if_neg (by decide), if_neg (by decide), if_neg (by decide), if_pos rfl, hsel]
  · exact (auStore_changes_low (by decide) ..).same .boot (by decide)

theorem auWrite_bootSel_media {v : W32} {s : State} (hup : blockDown 0x17024 s = false) (hfls : islInRun s 4 = false) :
    auWrite .none 0x17024 0xF v s = (s, .media) := by
  obtain ⟨d, hd, hm, -⟩ := regDef_bootSel
  have hsel : auBootSel d 0xF v s = (s, .media) := by
    unfold auBootSel
    rw [hfls]
    rfl
  unfold auWrite
  rw [hd]
  dsimp only
  rw [hm, hup, if_neg (by decide), if_neg Bool.false_ne_true, if_neg (by decide), if_neg (by decide), if_neg (by decide), if_pos rfl, hsel]

theorem bootSel_trial {v : W32} {s : State} (h3 : bit v 3 = false) (h2 : bit v 2 = true) : (bootSel v s).boot =
    { s.boot with ctl := { s.boot.ctl with seq := s.boot.ctl.seq + 1, trial := some (bit v 0, bit v 1, false) } } := by
  unfold bootSel
  rw [h3, h2]
  rfl

theorem bootSel_confirmed {v : W32} {s : State} (h3 : bit v 3 = false) (h2 : bit v 2 = false) :
    (bootSel v s).boot.ctl = ⟨s.boot.ctl.seq + 1, bit v 0, bit v 1, none⟩ := by
  unfold bootSel
  rw [h3, h2]
  rfl

theorem bootSel_confirm {v : W32} {s : State} (h3 : bit v 3 = true) (htrial : s.boot.trialRun = true) : (bootSel v s).boot =
    { s.boot with ctl := ⟨s.boot.ctl.seq + 1, s.boot.runImage, s.boot.runBundle, none⟩, trialRun := false } := by
  unfold bootSel confirmTrial
  rw [h3, htrial]
  rfl

/-! ## RST_BOOT_INSTALL (R522) -/

theorem regDef_install : ∃ d, regDef 0x17028 = some d ∧ auMaskOk d 0x7 = true ∧ ∀ (v old : W32) (i : Nat), i < 3 → bit (storeWord auCan d 0x7 v old) i = bit v i := by
  obtain ⟨d, hd, hflds, hmem⟩ := auLow_spec (off := 0x17028) (n := 3) (by decide)
  have hok : ∃ d, regDef 0x17028 = some d ∧ auMaskOk d 0x7 = true := ⟨_, rfl, by decide⟩
  obtain ⟨d', hd', hm⟩ := hok
  cases hd.symm.trans hd'
  refine ⟨d, hd, hm, fun v old i hi => ?_⟩
  rw [bit_auStored hd hflds (fun j hj => hmem j (by rw [bit_installMask] at hj; exact of_decide_eq_true hj)), bit_installMask, if_pos (decide_eq_true hi)]

/-- GO is the third bit; the kind and the slot are the other two. -/
theorem auWrite_install {v : W32} {obj : Staged} {s : State} (hregs : s.RegsOk) (hup : blockDown 0x17028 s = false) (hidle : s.boot.install = none)
    (hgo : bit v 2 = true) : ∃ u, auWrite obj 0x17028 0x7 v s = (installGo (bit v 1) (bit v 0) obj u, .done) ∧ Changes [.regs, .setup] s u := by
  obtain ⟨d, hd, hm, hbits⟩ := regDef_install
  have hstore : auStore d 0x17028 0x7 v s = setReg 0x17028 (clearActs 0x17028 (newWord auCan d 0x17028 0x7 v s)) s := rfl
  have hword : ∀ i, i < 2 → bit (reg (auStore d 0x17028 0x7 v s) 0x17028) i = bit v i := fun i hi => by
    have hacts : clearActs 0x17028 (newWord auCan d 0x17028 0x7 v s) = setBits (newWord auCan d 0x17028 0x7 v s) 2 2 0 := rfl
    rw [hstore, reg_setReg_same hregs, hacts, bit_setBits _ _ _ (Nat.le_refl 2) (by decide), if_neg (by omega)]
    exact hbits v _ i (by omega)
  have hon : bit (0x7 &&& v) 2 = true := by
    rw [bit_and, hgo, bit_installMask]
    rfl
  have hinstall : auInstall d 0x7 v obj s = (installGo (bit v 1) (bit v 0) obj (auStore d 0x17028 0x7 v s), .done) := by
    unfold auInstall
    dsimp only
    rw [hon, hidle, if_neg (by decide), if_pos rfl, hword 1 (by decide), hword 0 (by decide)]
  refine ⟨auStore d 0x17028 0x7 v s, ?_, auStore_changes_low (by decide) ..⟩
  unfold auWrite
  rw [hd]
  dsimp only
  rw [hm, hup, if_neg (by decide), if_neg Bool.false_ne_true, if_neg (by decide), if_neg (by decide), if_neg (by decide), if_neg (by decide),
    if_pos rfl, hinstall]

/-- What an install looks at: boot, archive and islands. -/
theorem installGo_congr {kind slot : Bool} {obj : Staged} {s u : State} (hboot : u.boot = s.boot) (harch : u.arch = s.arch) (hisl : u.isl = s.isl) :
    (installGo kind slot obj u).boot = (installGo kind slot obj s).boot := by
  have hrun : ∀ n, islInRun u n = islInRun s n := fun n => by unfold islInRun islOf; rw [hboot, hisl]
  have hwindow : window u = window s := by unfold window evtMounted; rw [hboot, harch, hrun]
  have hslot : slotRuns kind slot u = slotRuns kind slot s := by unfold slotRuns; rw [hboot]
  have hword : ∀ n, otpWord u n = otpWord s n := fun n => by unfold otpWord; rw [hboot]
  have himage : ∀ i, imageOk u i = imageOk s i := fun i => by unfold imageOk signerDigest; simp only [hword]
  have hbundle : ∀ b, bundleOk u b = bundleOk s b := fun b => by unfold bundleOk ownerDigest wrapDisabled; simp only [hword]
  unfold installGo
  dsimp only
  simp only [hboot, hwindow, hslot, himage, hbundle, hrun]
  split_ifs <;> simp only [setBoot, hboot]

/-- Is the staged object one that the kind names and that passes its checks? -/
def stagedOk (kind : Bool) (obj : Staged) (s : State) : Prop :=
  match obj with | .image i => kind = false ∧ imageOk s i = true | .bundle b => kind = true ∧ bundleOk s b = true | .none => False

theorem installGo_starts {kind slot : Bool} {obj : Staged} {s : State} (hidle : s.boot.install = none) (hwindow : window s = true)
    (hslot : slotRuns kind slot s = false) (hfls : islInRun s 4 = true) (hok : stagedOk kind obj s) :
    (installGo kind slot obj s).boot = { s.boot with installCode := 1, install := some (obj, slot) } := by
  unfold installGo
  dsimp only
  rw [if_neg (by simp [hidle]), if_neg (by simp [hwindow]), if_neg (by simp [hslot])]
  cases obj with
  | none => exact hok.elim
  | image i =>
    obtain ⟨hkind, hi⟩ := hok
    rw [if_neg (by simp [hkind, hi]), if_neg (by simp [hfls])]
    rfl
  | bundle b =>
    obtain ⟨hkind, hb⟩ := hok
    rw [if_neg (by simp [hkind, hb]), if_neg (by simp [hfls])]
    rfl

theorem installGo_noWindow {kind slot : Bool} {obj : Staged} {s : State} (hidle : s.boot.install = none) (hwindow : window s = false) :
    (installGo kind slot obj s).boot = { s.boot with installCode := 6 } := by
  unfold installGo
  dsimp only
  rw [if_neg (by simp [hidle]), if_pos (by simp [hwindow])]
  rfl

/-! ## The OTP (R534) -/

theorem otpGo_programs {v : W32} {s : State} (hgo : bit v 0 = true) : otpGo v s =
    setField 0x17048 1 1 (b2n (otpTakes s (fieldOf s 0x17040 7 0) (reg s 0x17044) != reg s 0x17044)) (setBoot (fun b => { b with
      otp := Kv.putOr 0 (fieldOf s 0x17040 7 0) (b.otp.getD (fieldOf s 0x17040 7 0) 0 ||| otpTakes s (fieldOf s 0x17040 7 0) (reg s 0x17044)) b.otp }) s) := by
  unfold otpGo
  rw [hgo]
  rfl

/-- In PROVISION a write of RST_OTP_CMD programs. -/
theorem barWrite_otp {v : W32} {s : State} (hopen : barOpen s = true) (hmode : s.boot.mode = .provision) : barWrite 0x17048 v true s = otpGo v s := by
  unfold barWrite
  simp [hopen, hmode]

theorem otpWord_put {s t : State} (hwf : s.boot.otp.wf = true) {w : Nat} {v : W32} (h : t.boot.otp = Kv.putOr 0 w v s.boot.otp) :
    otpWord t w = v ∧ ∀ n, n ≠ w → otpWord t n = otpWord s n := by
  unfold otpWord
  rw [h]
  exact ⟨Kv.getD_putOr_same _ _ _ hwf, fun n hn => Kv.getD_putOr_ne _ _ _ hwf hn⟩

/-- Settles O37: what an install, a selection and a programmed word each leave. -/
theorem bootControl : Obligations.BootControl := by
  unfold Obligations.BootControl
  refine ⟨?install, ?noWindow, ?trial, ?confirmed, ?confirm, ?media, ?written, ?failed, ?auto, ?otp⟩
  case install =>
    intro h v obj s u hu hregs hup hidle hwindow hslot hfls hobj
    have hgo : bit (setBits v 2 2 1) 2 = true := (bit_setBits v 1 2 (Nat.le_refl 2) (by decide)).trans (if_pos ⟨Nat.le_refl 2, Nat.le_refl 2⟩)
    have hrest : ∀ i, i < 2 → bit (setBits v 2 2 1) i = bit v i := fun i hi => (bit_setBits v 1 i (Nat.le_refl 2) (by decide)).trans (if_neg (by omega))
    obtain ⟨x, hwrite, hch⟩ := auWrite_install (obj := obj) hregs hup hidle hgo
    rw [hrest 1 (by decide), hrest 0 (by decide)] at hwrite
    have hok : stagedOk (bit v 1) obj u := by cases obj <;> exact hobj
    refine ⟨_, exec_of_entered rfl hu hwrite, ?_⟩
    rw [answered_boot, installGo_congr (hch.same .boot (by decide)) (hch.same .arch (by decide)) (hch.same .isl (by decide)),
      installGo_starts hidle hwindow hslot hfls hok]
  case noWindow =>
    intro h v obj s u hu hregs hup hidle hwindow
    have hgo : bit (setBits v 2 2 1) 2 = true := (bit_setBits v 1 2 (Nat.le_refl 2) (by decide)).trans (if_pos ⟨Nat.le_refl 2, Nat.le_refl 2⟩)
    obtain ⟨x, hwrite, hch⟩ := auWrite_install (obj := obj) hregs hup hidle hgo
    refine ⟨_, exec_of_entered rfl hu hwrite, ?_⟩
    rw [answered_boot, installGo_congr (hch.same .boot (by decide)) (hch.same .arch (by decide)) (hch.same .isl (by decide)),
      installGo_noWindow hidle hwindow]
  case trial =>
    intro h v s u hu hup hfls
    obtain ⟨w, x, hwrite, hbits, hboot⟩ := auWrite_bootSel (v := setBits v 3 2 1) hup hfls
    have hset : ∀ i, i < 4 → bit w i = if 2 ≤ i then Nat.testBit 1 (i - 2) else bit v i := fun i hi => by
      rw [hbits i hi, bit_setBits v 1 i (by decide) (by decide)]
      exact if_congr (by omega) rfl rfl
    refine ⟨_, exec_of_entered rfl hu hwrite, ?_⟩
    rw [answered_boot, bootSel_trial (hset 3 (by decide)) (hset 2 (by decide)), hboot, hset 0 (by decide), hset 1 (by decide)]
    rfl
  case confirmed =>
    intro h v s u hu hup hfls
    obtain ⟨w, x, hwrite, hbits, hboot⟩ := auWrite_bootSel (v := setBits v 3 2 0) hup hfls
    have hset : ∀ i, i < 4 → bit w i = if 2 ≤ i then Nat.testBit 0 (i - 2) else bit v i := fun i hi => by
      rw [hbits i hi, bit_setBits v 0 i (by decide) (by decide)]
      exact if_congr (by omega) rfl rfl
    refine ⟨_, exec_of_entered rfl hu hwrite, ?_⟩
    rw [answered_boot, bootSel_confirmed (hset 3 (by decide)) (hset 2 (by decide)), hboot, hset 0 (by decide), hset 1 (by decide)]
    rfl
  case confirm =>
    intro h v s u hu hup hfls htrial
    obtain ⟨w, x, hwrite, hbits, hboot⟩ := auWrite_bootSel (v := setBits v 3 3 1) hup hfls
    have h3 : bit w 3 = true := (hbits 3 (by decide)).trans ((bit_setBits v 1 3 (Nat.le_refl 3) (by decide)).trans (if_pos ⟨Nat.le_refl 3, Nat.le_refl 3⟩))
    refine ⟨_, exec_of_entered rfl hu hwrite, ?_⟩
    rw [answered_boot, bootSel_confirm h3 (by rw [hboot, htrial]), hboot]
  case media => exact fun h v s u hu hup hfls => exec_of_entered rfl hu (auWrite_bootSel_media hup hfls)
  case written =>
    intro i slot s hregs hinstall
    have hdone : installComplete true s = count 0x17060 (setBoot (fun b => { (if slot then { b with imageB := some i } else { b with imageA := some i }) with
        install := none, installCode := 2 }) s) := by
      unfold installComplete
      rw [hinstall]
      rfl
    refine ⟨_, congrArg Host.Outcome.next hdone, rfl, rfl, ?_, reg_count_same (s := setBoot _ s) hregs _⟩
    cases slot <;> rfl
  case failed =>
    intro b slot s hinstall
    have hspoilt : installComplete false s = setBoot (fun x => { flsDown.spoil (.bundle b) slot x with install := none, installCode := 5 }) s := by
      unfold installComplete
      rw [hinstall]
      rfl
    refine ⟨_, congrArg Host.Outcome.next hspoilt, rfl, rfl, ?_⟩
    cases slot <;> rfl
  case auto =>
    intro s hlone hphase hpower hrole hset hdue htrial
    have hconfirm : autoConfirm s = confirmTrial s := by
      unfold autoConfirm
      refine if_pos ?_
      simp only [hlone, hphase, hpower, hset, hdue, bne_iff_ne.mpr hrole, decide_true, Bool.and_true, ne_eq, not_false_eq_true]
      rfl
    refine congrArg Host.Outcome.next (hconfirm.trans ?_)
    unfold confirmTrial
    rw [htrial]
    rfl
  case otp =>
    intro v s hregs hopen hmode hgo hwf
    obtain ⟨hown, hothers⟩ := otpWord_put (t := otpGo v s) hwf (congrArg (fun u : State => u.boot.otp) (otpGo_programs hgo))
    refine ⟨_, _, congrArg Host.Outcome.next (barWrite_otp hopen hmode), rfl, hown, hothers, ?_⟩
    rw [otpGo_programs hgo, reg_setField_same (s := setBoot _ s) hregs, bit_setBits _ _ _ (Nat.le_refl 1) (by decide), if_pos ⟨Nat.le_refl 1, Nat.le_refl 1⟩]
    generalize otpTakes s (fieldOf s 0x17040 7 0) (reg s 0x17044) = d
    by_cases hd : d = reg s 0x17044
    · simp [hd, b2n]
    · simp [hd, b2n]

end Sys2Proof.Machine
end

section
/-!
SUPPORT. O32 and O56: the event recorder (R491 to R496).
-/
namespace Sys2Proof.Machine

/-! ## Storing an event (R491 to R493) -/

/-- The records of an event: its own and its continuations. -/
def recordsOf (e : Raised) (s : State) : List EvRec := headRec e s :: contRecs (headRec e s) 1 (e.conts.take 3)

theorem length_contRecs (base : EvRec) (k : Nat) (l : List (List Byte)) : (contRecs base k l).length = l.length := by
  induction l generalizing k with
  | nil => rfl
  | cons d l ih => exact congrArg (· + 1) (ih (k + 1))

theorem length_recordsOf (e : Raised) (s : State) : (recordsOf e s).length = 1 + min 3 e.conts.length := by
  unfold recordsOf
  rw [List.length_cons, length_contRecs, List.length_take, Nat.add_comm]

/-- A ring with room loses no event. -/
theorem trimRing_of_fits {s : State} (h : s.evt.ring.length ≤ 512) (fuel : Nat) : trimRing fuel s = s := by
  cases fuel with
  | zero => rfl
  | succ n => exact if_pos h

/-- The recorder with the records of an event in its ring. -/
def recorded (e : Raised) (s : State) : EvtState :=
  { s.evt with ring := s.evt.ring ++ recordsOf e s, lastSeq := some ((headRec e s).seq + BitVec.ofNat 64 (min 3 e.conts.length)), restart := false,
               suppressed := Kv.del (e.isl * 256 + e.code) s.evt.suppressed }

theorem storeEvent_evt {e : Raised} {s : State} (hroom : s.evt.ring.length + (1 + min 3 e.conts.length) ≤ 512) : (storeEvent e s).evt = recorded e s := by
  have hlen : (recordsOf e s).length - 1 = min 3 e.conts.length := by rw [length_recordsOf]; omega
  have hfits : (setEvt (fun _ => recorded e s) s).evt.ring.length ≤ 512 := by
    change (s.evt.ring ++ recordsOf e s).length ≤ 512
    rw [List.length_append, length_recordsOf]
    exact hroom
  have hstored : setEvt (fun v => { v with ring := v.ring ++ recordsOf e s, lastSeq := some ((headRec e s).seq + BitVec.ofNat 64 ((recordsOf e s).length - 1)), restart := false, suppressed := Kv.del (e.isl * 256 + e.code) v.suppressed }) s = setEvt (fun _ => recorded e s) s := by
    rw [hlen]
    rfl
  have hposts : ∀ (l : List EvRec) (t : State), (l.foldl postEvent t).evt = t.evt := fun l t =>
    (Changes.foldl (W := [.regs, .jr, .host, .out]) (fun u r hu => .step (postEvent_changes u r) hu rfl) .refl).same .evt (by decide)
  have hend : ∀ t : State, t.evt = recorded e s → (if e.critical || fieldOf t 0x16000 31 31 = 0 then (recordsOf e s).foldl postEvent t else t).evt = recorded e s := fun t ht => by
    split
    · rw [hposts, ht]
    · exact ht
  unfold storeEvent
  dsimp only
  rw [show headRec e s :: contRecs (headRec e s) 1 (e.conts.take 3) = recordsOf e s from rfl, hstored,
    trimRing_of_fits (s := countBy 0x16040 (recordsOf e s).length (setEvt (fun _ => recorded e s) s)) hfits]
  refine hend _ ?_
  split
  · rw [notice_evt]
    rfl
  · rfl

end Sys2Proof.Machine
end

section
/-!
SUPPORT. O32: EVT_READ, EVT_CLEAR, MON_READ, MON_RESET and Q_READ (R486, R496, R497, R499).
-/
namespace Sys2Proof.Machine

/-! ## Reading events (R496) -/

theorem mem_eventsOf {r : EvRec} : ∀ {fuel : Nat} {l : List EvRec} {e : List EvRec}, e ∈ eventsOf fuel l → r ∈ e → r ∈ l
  | 0, _, _, he, _ => by simp [eventsOf] at he
  | _ + 1, [], _, he, _ => by simp [eventsOf] at he
  | fuel + 1, x :: l, e, he, hr => by
    rw [show eventsOf (fuel + 1) (x :: l) = (x :: l.takeWhile fun y => y.part ≠ 0) :: eventsOf fuel (l.dropWhile fun y => y.part ≠ 0) from rfl,
      List.mem_cons] at he
    rcases he with rfl | he
    · rcases List.mem_cons.mp hr with rfl | hr
      · exact List.mem_cons_self
      · exact List.mem_cons_of_mem _ ((List.takeWhile_prefix _).subset hr)
    · exact List.mem_cons_of_mem _ ((List.dropWhile_suffix _).subset (mem_eventsOf he hr))

theorem mem_takeEvents {r : EvRec} : ∀ {evs : List (List EvRec)} {room : Nat} {first : Bool}, r ∈ takeEvents room first evs → ∃ e ∈ evs, r ∈ e
  | [], _, _, h => by simp [takeEvents] at h
  | e :: evs, room, first, h => by
    unfold takeEvents at h
    split at h
    · rcases List.mem_append.mp h with h | h
      · exact ⟨e, List.mem_cons_self, h⟩
      · obtain ⟨e', he', hr⟩ := mem_takeEvents h
        exact ⟨e', List.mem_cons_of_mem _ he', hr⟩
    · cases h

/-- What a read answers: whole records that the recorder holds, from its floor on. -/
theorem evtRead_answers {seq : W64} {n : Nat} {s : State} (hlo : 1 ≤ n) (hhi : n ≤ 1048576) :
    ∃ st l, evtRead seq n s = (s, ⟨st, padTo 40 (be 8 (evtOldest s) ++ be 8 (evtNext s - 1)), l⟩) ∧ (st = .ok ∨ st = .truncated) ∧
      (st = .truncated → engRuns s = false) ∧ ∀ b ∈ l, ∃ r, (r ∈ evtHeld s ∨ r ∈ s.evt.ring) ∧ b = evtBytes r ∧ s.evt.floor.toNat ≤ r.seq.toNat := by
  refine ⟨_, _, if_neg (by simp; omega), ?_, fun hshort => ?_, fun b hb => ?_⟩
  · split
    · exact .inr rfl
    · exact .inl rfl
  · split at hshort
    · rename_i hring
      simpa only [Bool.not_eq_true'] using (Bool.and_eq_true_iff.mp hring).1
    · cases hshort
  · obtain ⟨r, hr, rfl⟩ := List.mem_map.mp hb
    obtain ⟨e, he, hre⟩ := mem_takeEvents hr
    have hheld := mem_eventsOf (List.mem_filter.mp he).1 hre
    obtain ⟨hmem, hfloor⟩ := List.mem_filter.mp hheld
    refine ⟨r, ?_, rfl, of_decide_eq_true hfloor⟩
    split at hmem
    · exact .inr hmem
    · exact .inl hmem

/-! ## Clearing events (R497) -/

/-- The ring emptied, with nothing below the next number to be read any more. -/
def ringEmptied (s : State) : State := setEvt (fun v => { v with ring := [], floor := BitVec.ofNat 64 (evtNext s) }) s

/-- The event that says so. -/
def clearedEvent (h : Hdr) (s : State) : Raised :=
  ⟨1, 0x20, true, BitVec.ofNat 32 ((h.auth.map (·.slot.toNat)).getD 0 * 2 ^ 24),
    [padTo 20 (be 8 (evtOldest s) ++ be 8 (evtNext s - 1) ++ be 4 ((h.auth.map (·.counter.toNat)).getD 0 % 2 ^ 32))]⟩

theorem clearEvents_evt (h : Hdr) (s : State) : (clearEvents h s).evt = recorded (clearedEvent h s) (ringEmptied s) :=
  storeEvent_evt (e := clearedEvent h s) (s := ringEmptied s) (show 0 + (1 + min 3 1) ≤ 512 by decide)

/-- An event with one continuation fills two records. -/
theorem recordsOf_one {e : Raised} {d : List Byte} (h : e.conts = [d]) (s : State) :
    recordsOf e s = [headRec e s, { headRec e s with seq := (headRec e s).seq + BitVec.ofNat 64 1, part := 1, contData := d }] := by
  unfold recordsOf
  rw [h]
  rfl

theorem recorded_cleared_ring (h : Hdr) (s : State) : (recorded (clearedEvent h s) (ringEmptied s)).ring = recordsOf (clearedEvent h s) (ringEmptied s) :=
  List.nil_append _

/-! ## Resetting channels (R499) -/

/-- Does a mask of two words name a channel? -/
def monNamed (lo hi : W32) (n : Nat) : Bool := bit (if n < 32 then lo else hi) (n % 32)

/-- A channel cleared by name. -/
def monClearIf (lo hi : W32) (t : State) (n : Nat) : State := if monNamed lo hi n then monClear n t else t

theorem monOf_monClearIf_ne {lo hi : W32} {n k : Nat} (hne : k ≠ n) (s : State) : monOf (monClearIf lo hi s n) k = monOf s k := by
  unfold monClearIf
  split
  · exact monOf_monClear_ne hne s
  · rfl

theorem monOf_foldl_monClearIf (lo hi : W32) (k : Nat) : ∀ (l : List Nat) (s : State), l.Nodup →
    monOf (l.foldl (monClearIf lo hi) s) k = if k ∈ l ∧ monNamed lo hi k = true then { monEmpty with armed := (monOf s k).armed, at_ := (monOf s k).at_ } else monOf s k
  | [], s, _ => by simp
  | n :: l, s, hnodup => by
    obtain ⟨hnotin, hrest⟩ := List.nodup_cons.mp hnodup
    rw [List.foldl_cons, monOf_foldl_monClearIf lo hi k l _ hrest]
    by_cases hk : k = n
    · subst hk
      rw [if_neg (fun h => hnotin h.1)]
      unfold monClearIf
      cases hnamed : monNamed lo hi k with
      | false => simp
      | true => simpa using monOf_monClear_same k s
    · rw [monOf_monClearIf_ne hk]
      exact if_congr (by simp [hk]) rfl rfl

theorem monNamed_eq {lo hi : W32} {n : Nat} (hn : n < 64) : monNamed lo hi n = if n < 32 then lo.getLsbD n else hi.getLsbD (n - 32) := by
  unfold monNamed bit
  split
  · rw [Nat.mod_eq_of_lt ‹_›]
  · rw [show n % 32 = n - 32 by omega]

/-- Settles O32: reads answer from the state as it stands; a clear leaves the record of itself. -/
theorem eventAndMonitorCommands : Obligations.EventAndMonitorCommands := by
  unfold Obligations.EventAndMonitorCommands
  refine ⟨?evtRead, ?evtReadBad, ?clear, ?clearLater, ?monRead, ?monReset, ?qRead, ?bad⟩
  case evtRead =>
    intro h seq n s u hu hlo hhi
    obtain ⟨st, l, hread, hst, hshort, hrecs⟩ := evtRead_answers (seq := seq) (s := u) hlo hhi
    exact ⟨st, l, exec_of_entered rfl hu hread, hst, hshort, hrecs⟩
  case evtReadBad =>
    intro h seq n s u hu hn
    exact exec_of_entered rfl hu (if_pos (by simpa using hn))
  case clear =>
    intro h s u hu hreading
    have hclear : evtClear h u = (clearEvents h u, .done) := if_neg (by simp [hreading])
    have hevt : (State.answered h .evtClear .done u (clearEvents h u)).evt = recorded (clearedEvent h u) (ringEmptied u) := by
      rw [answered_evt, clearEvents_evt]
    have hring := (recorded_cleared_ring h u).trans (recordsOf_one (e := clearedEvent h u) rfl (ringEmptied u))
    refine ⟨_, _, _, exec_of_entered rfl hu hclear, (congrArg EvtState.ring hevt).trans hring, rfl, ?_, rfl, ?_, rfl, ?_, ?_, ?_⟩
    · change BitVec.ofNat 16 (1 * 256 + 0x20) = 0x0120
      decide
    · change min 3 1 = 1
      rfl
    · rw [hevt]
      rfl
    · rw [hevt]
      rfl
    · rw [hevt]
      rfl
  case clearLater =>
    intro h s u hu hreading
    have hlater : evtClear h u = (setEvt (fun v => { v with clears := v.clears ++ [h] }) u, .later) := if_pos hreading
    exact ⟨_, exec_of_entered rfl hu hlater, (answered_evt ..).trans rfl⟩
  case monRead =>
    intro h first n s u hu hlo hhi
    exact exec_of_entered rfl hu (if_neg (by simp; omega))
  case monReset =>
    intro h lo hi s u hu
    refine ⟨_, exec_of_entered (v := (monReset lo hi u).1) (r := .done) rfl hu rfl, fun n hn => ?_⟩
    have hmon : (State.answered h (.monReset lo hi) .done u (monReset lo hi u).1).mon = (monReset lo hi u).1.mon := answered_mon ..
    have hfold : (monReset lo hi u).1 = (List.range 64).foldl (monClearIf lo hi) u := rfl
    unfold monOf
    rw [hmon, hfold]
    change monOf ((List.range 64).foldl (monClearIf lo hi) u) n = _
    rw [monOf_foldl_monClearIf lo hi n _ u List.nodup_range, ← monNamed_eq hn]
    exact if_congr (by simp [hn]) rfl rfl
  case qRead =>
    intro h first n s u hu hlo hhi
    exact exec_of_entered rfl hu (if_neg (by simp; omega))
  case bad =>
    intro h first n s u
    exact ⟨fun hu hn => exec_of_entered rfl hu (if_pos (by simp; omega)), fun hu hn => exec_of_entered rfl hu (if_pos (by simp; omega))⟩

end Sys2Proof.Machine
end

section

/-! SUPPORT. The archive's commands (R441, R442, R444, R522). -/

namespace Sys2Proof.Machine

/-! ## The HOST zone and the staging window -/

/-- Sectors put one after the other stand each at its own number, and every other number is as it was. -/
theorem get?_foldl_put {V : Type} (base j : Nat) : ∀ (data : List V) (k : Nat) (m : Kv V),
    Kv.get? j ((data.zipIdx k).foldl (fun m p => Kv.put (base + p.2) p.1 m) m) =
      if base + k ≤ j ∧ j < base + k + data.length then data[j - (base + k)]? else Kv.get? j m
  | [], k, m => by
    rw [if_neg (fun h => by simp only [List.length_nil] at h; omega)]
    rfl
  | d :: data, k, m => by
    rw [List.zipIdx_cons, List.foldl_cons, get?_foldl_put base j data (k + 1)]
    rcases Nat.lt_trichotomy j (base + k) with hlt | heq | hgt
    · rw [if_neg (by omega), if_neg (by omega), Kv.get?_put_ne _ (by omega)]
    · subst heq
      rw [if_neg (by omega), if_pos ⟨Nat.le_refl _, by simp⟩, Kv.get?_put_same, Nat.sub_self]
      rfl
    · have hsub : j - (base + k) = (j - (base + (k + 1))) + 1 := by omega
      rw [Kv.get?_put_ne _ (by omega), hsub, List.getElem?_cons_succ]
      exact if_congr (by simp only [List.length_cons]; omega) rfl rfl

/-- Sectors never written read as zeros, and reading them changes nothing. -/
theorem readHost_of_unwritten (ms : List Media) (u : State) : ∀ (k n : Nat), (∀ i, i < k → hostSector u (n + i) = none) →
    readHost ms k n u = (List.replicate k (List.replicate 4096 0), false, u)
  | 0, _, _ => rfl
  | k + 1, n, hnone => by
    have hfirst : hostSector u n = none := hnone 0 (Nat.succ_pos k)
    have hrest : readHost ms k (n + 1) u = (List.replicate k (List.replicate 4096 0), false, u) :=
      readHost_of_unwritten ms u k (n + 1) (fun i hi => by rw [Nat.add_right_comm, Nat.add_assoc]; exact hnone (i + 1) (by omega))
    rw [readHost, hfirst]
    simp only [hrest]
    rfl

/-- One to three whole sectors pass the check of ARCH_HOST_WRITE. -/
theorem sectors_fit {data : List (List Byte)} (hlo : 1 ≤ data.length) (hhi : data.length ≤ 3) (hlen : ∀ d ∈ data, d.length = 4096) :
    ¬ ((data.length = 0 || 3 < data.length || data.any (fun d => d.length != 4096)) = true) := by
  have hany : data.any (fun d => d.length != 4096) = false := by simpa using hlen
  simp [hany]
  exact ⟨List.ne_nil_of_length_pos hlo, hhi⟩

theorem storeUp_not_mounting {u : State} (hup : storeUp u = true) : u.arch.st ≠ .mounting := by
  intro hst
  simp [storeUp, hst] at hup

/-- Settles O31: in RECOVERY the window serves; otherwise unwritten sectors read as zeros and a store that does not serve
refuses. -/
theorem hostSectorsServe : Obligations.HostSectors := by
  unfold Obligations.HostSectors
  refine ⟨?write, ?readWindow, ?readUnwritten, ?refused⟩
  case write =>
    intro h sector data s u hu hmode hlo hhi hlen hfit
    have hwrite : archHostWrite sector data u =
        (setArch (fun a => { a with staging := data.zipIdx.foldl (fun m p => Kv.put (sector + p.2) p.1 m) a.staging }) u, .done) := by
      unfold archHostWrite
      rw [if_neg (by simp [hmode]), if_neg (sectors_fit hlo hhi hlen), if_pos (by simp [hmode]), if_neg (by omega)]
    refine ⟨_, exec_of_entered rfl hu hwrite, fun i => ?_, fun n hn => ?_, ?_⟩
    · rw [answered_arch]
      refine (get?_foldl_put sector (sector + i) data 0 u.arch.staging).trans ?_
      rw [Nat.add_zero, Nat.add_sub_cancel_left]
      exact if_congr (by omega) rfl rfl
    · rw [answered_arch]
      exact (get?_foldl_put sector n data 0 u.arch.staging).trans (if_neg (by omega))
    · rw [answered_arch]
      rfl
  case readWindow =>
    intro h sector count media s u hu hmode hlo hfit
    refine exec_of_entered rfl hu ?_
    unfold archHostRead
    rw [if_neg (by simp [hmode]), if_neg (by omega), if_pos (by simp [hmode]), if_neg (by omega)]
  case readUnwritten =>
    intro h sector count media s u hu hmode hlo hup hfit hnone
    refine exec_of_entered rfl hu ?_
    unfold archHostRead
    rw [if_neg (by simp [storeUp_not_mounting hup]), if_neg (by omega), if_neg (by simp [hmode]), if_neg (by simp [hup]), if_neg (by omega),
      readHost_of_unwritten media u count sector hnone]
    rfl
  case refused =>
    intro h sector n data media s u
    refine ⟨fun hu hst hdata => ?_, fun hu hlo hhi hlen hmode hst => ?_, fun hu hn hmode hst hdown => ?_⟩
    · refine exec_of_entered rfl hu ?_
      unfold archHostWrite
      rw [if_neg (by simpa [imp_iff_not_or] using hst), if_pos (by simpa [List.length_eq_zero_iff, or_assoc] using hdata)]
    · refine exec_of_entered rfl hu ?_
      unfold archHostWrite
      rw [if_neg (by simp [hst]), if_neg (sectors_fit hlo hhi hlen), if_neg (by simp [hmode]), if_pos (by simp [hst])]
    · refine exec_of_entered rfl hu ?_
      unfold archHostRead
      rw [if_neg (by simp [hst]), if_neg (by omega), if_neg (by simp [hmode]), if_pos (by simp [hdown])]

/-! ## Records of the store -/

/-- At most `k` items, each headed by its number from `n` on. -/
def Numbered (n k : Nat) (l : List (List Byte)) : Prop :=
  l.length ≤ k ∧ ∀ i r, l[i]? = some r → r.take 8 = be 8 (n + i)

theorem numbered_nil (n k : Nat) : Numbered n k [] := ⟨Nat.zero_le k, fun i r h => by simp at h⟩

theorem numbered_cons {n k : Nat} {l : List (List Byte)} (r : List Byte) (hl : Numbered (n + 1) k l) : Numbered n (k + 1) ((be 8 n ++ r) :: l) := by
  obtain ⟨hlen, hnum⟩ := hl
  refine ⟨Nat.succ_le_succ hlen, fun i x hx => ?_⟩
  cases i with
  | zero =>
    rw [List.getElem?_cons_zero, Option.some.injEq] at hx
    rw [← hx, List.take_append_of_le_length (by simp), List.take_of_length_le (by simp)]
    rfl
  | succ i =>
    rw [hnum i x hx]
    exact congrArg (be 8) (by omega)

/-- ARCH_READ delivers records in order of their numbers from the one asked for. -/
theorem numbered_readRecords (ms : List Media) : ∀ (k n : Nat) (last : Option (Nat × Nat)) (s : State), Numbered n k (readRecords ms k n last s).1
  | 0, n, _, _ => numbered_nil n 0
  | k + 1, n, last, s => by
    have ih := numbered_readRecords ms k
    unfold readRecords
    split
    case isTrue => exact numbered_nil ..
    case isFalse =>
      dsimp only
      split
      case h_1 => exact numbered_cons _ (ih ..)
      case h_2 =>
        split
        case h_1 => exact numbered_nil ..
        case h_2 =>
          split
          all_goals
            split
            case isTrue => exact numbered_nil ..
            case isFalse => exact numbered_cons _ (ih ..)

theorem readRecords_of_next_le {ms : List Media} {k n : Nat} {last : Option (Nat × Nat)} {s : State} (hn : s.arch.next ≤ n) :
    readRecords ms k n last s = ([], false, s) := by
  cases k with
  | zero => rfl
  | succ k => exact if_pos hn

theorem foldl_min_le : ∀ (l : List Nat) (a : Nat), l.foldl min a ≤ a ∧ ∀ x ∈ l, l.foldl min a ≤ x
  | [], a => ⟨Nat.le_refl a, by simp⟩
  | y :: l, a => by
    obtain ⟨hacc, hrest⟩ := foldl_min_le l (min a y)
    refine ⟨Nat.le_trans hacc (Nat.min_le_left a y), fun x hx => ?_⟩
    rcases List.mem_cons.mp hx with rfl | hx
    · exact Nat.le_trans hacc (Nat.min_le_right a x)
    · exact hrest x hx

theorem foldl_min_mem : ∀ (l : List Nat) (a : Nat), l.foldl min a = a ∨ l.foldl min a ∈ l
  | [], _ => .inl rfl
  | y :: l, a => by
    rcases foldl_min_mem l (min a y) with hacc | hmem
    · rcases Nat.le_total a y with hle | hle
      · exact .inl (hacc.trans (Nat.min_eq_left hle))
      · exact .inr (List.mem_cons.mpr (.inl (hacc.trans (Nat.min_eq_right hle))))
    · exact .inr (List.mem_cons_of_mem y hmem)

theorem minD_le {d x : Nat} : ∀ {l : List Nat}, x ∈ l → minD d l ≤ x
  | y :: l, hx => by
    obtain ⟨hacc, hrest⟩ := foldl_min_le l y
    rcases List.mem_cons.mp hx with rfl | hx
    · exact hacc
    · exact hrest x hx

theorem minD_mem {d : Nat} : ∀ {l : List Nat}, l ≠ [] → minD d l ∈ l
  | y :: l, _ => by
    rcases foldl_min_mem l y with heq | hmem
    · exact List.mem_cons.mpr (.inl heq)
    · exact List.mem_cons_of_mem y hmem

/-- RX_TIME of a block's first record, as ARCH_FIND_TIME reads it. -/
def firstRxTime (s : State) (b : Nat) : Nat :=
  match (blockRecords (blockOf s b)).head? with
  | some r => beVal ((r.2.drop 28).take 8)
  | none => 0

theorem firstRxTime_eq (s : State) (b : Nat) :
    firstRxTime s b = beVal (((((blockRecords (blockOf s b)).head?.map (·.2)).getD []).drop 28).take 8) := by
  unfold firstRxTime
  cases (blockRecords (blockOf s b)).head? <;> rfl

/-- ARCH_FIND_TIME answers the least first number of the blocks that fit. -/
theorem archFindTime_answers {t : W64} {u : State} (hbusy : archBusy u = false) (hup : storeUp u = true)
    (hsome : ∃ b ∈ readingBlocks u, t.toNat ≤ firstRxTime u b.1) :
    ∃ v, archFindTime t u = (u, ⟨.ok, padTo 40 (be 8 v), []⟩) ∧
      (∀ b ∈ readingBlocks u, t.toNat ≤ firstRxTime u b.1 → v ≤ b.2) ∧ ∃ b ∈ readingBlocks u, b.2 = v ∧ t.toNat ≤ firstRxTime u b.1 := by
  have hmem : ∀ b, b ∈ (readingBlocks u).filter (fun p => decide (t.toNat ≤ firstRxTime u p.1)) ↔ b ∈ readingBlocks u ∧ t.toNat ≤ firstRxTime u b.1 :=
    fun b => by simp [List.mem_filter]
  have hfind : archFindTime t u = (u, ⟨.ok, padTo 40 (be 8 (match (readingBlocks u).filter (fun p => decide (t.toNat ≤ firstRxTime u p.1)) with
      | [] => (Config.unstated 13 t.toNat).toNat
      | x :: r => minD x.2 (r.map (·.2) ++ [x.2]))), []⟩) := by
    unfold archFindTime
    rw [if_neg (by simp [hbusy]), if_neg (by simp [archGone, hup])]
    rfl
  generalize (readingBlocks u).filter (fun p => decide (t.toNat ≤ firstRxTime u p.1)) = fits at hmem hfind
  cases fits with
  | nil =>
    obtain ⟨b, hb, hfit⟩ := hsome
    exact absurd ((hmem b).mpr ⟨hb, hfit⟩) (by simp)
  | cons x r =>
    refine ⟨_, hfind, fun b hb hfit => minD_le ?_, ?_⟩
    · rcases List.mem_cons.mp ((hmem b).mpr ⟨hb, hfit⟩) with rfl | hbr
      · simp
      · exact List.mem_append_left _ (List.mem_map_of_mem hbr)
    · have hleast : minD x.2 (r.map (·.2) ++ [x.2]) ∈ r.map (·.2) ++ [x.2] := minD_mem (by simp)
      have hof : ∃ b ∈ x :: r, b.2 = minD x.2 (r.map (·.2) ++ [x.2]) := by
        rcases List.mem_append.mp hleast with hin | hlast
        · obtain ⟨b, hb, heq⟩ := List.mem_map.mp hin
          exact ⟨b, List.mem_cons_of_mem x hb, heq⟩
        · exact ⟨x, List.mem_cons_self, (List.mem_singleton.mp hlast).symm⟩
      obtain ⟨b, hb, heq⟩ := hof
      exact ⟨b, ((hmem b).mp hb).1, heq, ((hmem b).mp hb).2⟩

/-! ## The trim -/

/-- A READINGS block that is full and lies whole below a number (R442). -/
def wholeBelow (upto : Nat) (v : Block) : Bool := v.zone == 5 && v.st == .data && (blockRecords v).all fun r => r.1 < upto

/-- The block after a trim. -/
def blockTrimmed (upto : Nat) (v : Block) : Block :=
  if wholeBelow upto v then { v with st := .stale, pages := v.pages.map fun p => p.map fun x => { x with mapped := false } } else v

theorem trimTo_blocks (upto : Nat) (s : State) : (trimTo upto s).arch.blocks = s.arch.blocks.map fun p => (p.1, blockTrimmed upto p.2) := rfl

/-- A block whose sectors are all unmapped holds no record. -/
theorem blockRecords_of_unmapped {v : Block} (h : ∀ p ∈ v.pages, ∀ x ∈ p, x.mapped = false) : blockRecords v = [] := by
  unfold blockRecords
  refine List.flatMap_eq_nil_iff.mpr fun p hp => List.flatMap_eq_nil_iff.mpr fun x hx => ?_
  rw [h p hp x hx]
  rfl

theorem blockTrimmed_of_wholeBelow {upto : Nat} {v : Block} (h : wholeBelow upto v = true) :
    (blockTrimmed upto v).st = .stale ∧ blockRecords (blockTrimmed upto v) = [] ∧ (blockTrimmed upto v).pages.length = v.pages.length := by
  have heq : blockTrimmed upto v = { v with st := .stale, pages := v.pages.map fun p => p.map fun x => { x with mapped := false } } := if_pos h
  rw [heq]
  refine ⟨rfl, blockRecords_of_unmapped fun p hp x hx => ?_, List.length_map _⟩
  obtain ⟨q, -, rfl⟩ := List.mem_map.mp hp
  obtain ⟨y, -, rfl⟩ := List.mem_map.mp hx
  rfl

theorem wholeBelow_iff {upto : Nat} {v : Block} : wholeBelow upto v = true ↔ v.zone = 5 ∧ v.st = .data ∧ ∀ r ∈ blockRecords v, r.1 < upto := by
  simp [wholeBelow, and_assoc]

/-! ## The obligation -/

/-- ARCH_INFO answers its status and, with the store in service, its three numbers. -/
theorem archInfo_answers (u : State) : ∃ r l, archInfo u = (u, ⟨.ok, r, l⟩) ∧ r.take 4 = be 4 (flsStatus u).toNat ∧
    (u.arch.st ≠ .mounting → u.arch.st ≠ .off → (r.drop 8).take 24 = be 8 u.arch.durable ++ be 8 (oldestSeq u) ++ be 8 u.arch.next) := by
  refine ⟨_, _, rfl, ?_, fun hmount hoff => ?_⟩
  · rw [take_padTo (by decide) (by simp), List.take_append_of_le_length (by simp), List.take_of_length_le (by simp)]
  · have hquiet : (u.arch.st == .mounting || u.arch.st == .off) = false := by simp [hmount, hoff]
    simp only [hquiet, padTo]
    simp [List.take_append, List.drop_append, List.take_of_length_le, List.drop_eq_nil_of_le]

/-- Settles O30: each command of the archive by its branch; a read by induction on the records, a search by the least of a
list. -/
theorem archiveCommands : Obligations.ArchiveCommands := by
  unfold Obligations.ArchiveCommands
  refine ⟨?info, ?read, ?find, ?trim, ?ovfRead, ?ovfRelease, ?format, ?formatWord, ?busy, ?media⟩
  case info =>
    intro h s u hu
    obtain ⟨r, l, hinfo, hstatus, hnumbers⟩ := archInfo_answers u
    exact ⟨r, l, exec_of_entered rfl hu hinfo, hstatus, hnumbers⟩
  case read =>
    intro h first count media s u hu hlo hhi hbusy hup
    obtain ⟨hlen, hnum⟩ := numbered_readRecords media count first.toNat none u
    refine ⟨(readRecords media count first.toNat none u).1, (readRecords media count first.toNat none u).2.1,
      (readRecords media count first.toNat none u).2.2, exec_of_entered rfl hu ?_, hlen, hnum, fun hnext => ?_⟩
    · unfold archRead
      rw [if_neg (by simp [hbusy]), if_neg (by simp; omega), if_neg (by simp [archGone, hup])]
    · rw [readRecords_of_next_le hnext]
      exact ⟨rfl, rfl, rfl⟩
  case find =>
    intro h t s u hu hbusy hup
    simp only [← firstRxTime_eq]
    intro hsome
    obtain ⟨v, hfind, hleast, hof⟩ := archFindTime_answers hbusy hup hsome
    exact ⟨v, exec_of_entered rfl hu hfind, hleast, hof⟩
  case trim =>
    intro h upto s u hu hbusy hup
    have htrim : archTrim upto u = (journal (.trim upto.toNat) (trimTo upto.toNat u), .done) := by
      unfold archTrim
      rw [if_neg (by simp [hbusy]), if_neg (by simp [archGone, hup])]
    refine ⟨_, exec_of_entered rfl hu htrim, ?_⟩
    rw [answered_arch, journal_arch, trimTo_blocks]
    refine ⟨by rw [List.map_map]; rfl, fun p hp => ?_⟩
    rw [← List.map_prod_left_eq_zip] at hp
    obtain ⟨⟨b, v⟩, -, rfl⟩ := List.mem_map.mp hp
    refine ⟨fun hzone hst hbelow => blockTrimmed_of_wholeBelow (wholeBelow_iff.mpr ⟨hzone, hst, hbelow⟩), fun hstays => ?_⟩
    have hnot : ¬ wholeBelow upto.toNat v = true := by
      rw [wholeBelow_iff]
      rintro ⟨hzone, hst, hbelow⟩
      rcases hstays with hz | hs | ⟨r, hr, hle⟩
      · exact hz hzone
      · exact hs hst
      · exact absurd (hbelow r hr) (Nat.not_lt.mpr hle)
    exact congrArg (Prod.mk b) (if_neg hnot)
  case ovfRead =>
    intro h count s u hu hbusy
    exact exec_of_entered rfl hu (if_neg (by simp [hbusy]))
  case ovfRelease =>
    intro h upto s u hu hbusy
    have hrel : archOvfRelease upto u = (setArch (fun a => { a with ovf := a.ovf.filter fun r => upto.toNat ≤ r.1 }) u, .done) :=
      if_neg (by simp [hbusy])
    exact ⟨_, exec_of_entered rfl hu hrel, (answered_arch ..).trans rfl⟩
  case format =>
    intro h s u hu hbusy htargets hrun
    have hformat : archFormat h 0x464D5421 u = (setArch (fun a => { a with st := .mounting, formatting := some h }) u, .later) := by
      unfold archFormat
      rw [if_neg (by simp [hbusy]), if_neg (by simp), if_neg (by simp [htargets, hrun])]
    exact ⟨_, exec_of_entered rfl hu hformat, (answered_arch ..).trans rfl⟩
  case formatWord =>
    intro h confirm s u hu hbusy hword
    refine exec_of_entered rfl hu ?_
    unfold archFormat
    rw [if_neg (by simp [hbusy]), if_pos (by simpa using hword)]
  case busy =>
    intro h first t upto count media s u hst hlo hhi
    have hbusy : archBusy u = true := by simp [archBusy, hst]
    exact ⟨fun hu => exec_of_entered rfl hu (if_pos hbusy), fun hu => exec_of_entered rfl hu (if_pos hbusy),
      fun hu => exec_of_entered rfl hu (if_pos hbusy), fun hu => exec_of_entered rfl hu (if_pos hbusy),
      fun hu => exec_of_entered rfl hu (if_pos hbusy), fun hu => exec_of_entered rfl hu (if_pos hbusy)⟩
  case media =>
    intro h first t upto count media s u hbusy hup hlo hhi
    have hgone : archGone u = true := by simp [archGone, hup]
    have hserves : ¬ archBusy u = true := by simp [hbusy]
    exact ⟨fun hu => exec_of_entered rfl hu ((if_neg hserves).trans ((if_neg (by simp; omega)).trans (if_pos hgone))),
      fun hu => exec_of_entered rfl hu ((if_neg hserves).trans (if_pos hgone)),
      fun hu => exec_of_entered rfl hu ((if_neg hserves).trans (if_pos hgone))⟩

end Sys2Proof.Machine
end

section

/-! SUPPORT. O56: the event recorder, the rate windows and the monitor channels (R484, R485, R487, R491 to R494, R572). -/

namespace Sys2Proof.Machine

/-! ## Accepting an event (R491, R494) -/

theorem eventAccept_of_idle {s : State} (h : s.evt.raised = [] ∨ s.boot.phase = .inReset ∨ s.boot.phase = .trimHold ∨ evtUp s = false) :
    eventAccept s = s := by
  unfold eventAccept
  cases hraised : s.evt.raised with
  | nil => rfl
  | cons e rest => exact if_pos (by simpa [hraised, or_assoc] using h)

/-- The recorder with its oldest raised event taken, and given buckets and records of the second. -/
def popped (rest : List Raised) (buckets : Kv Nat) (records : Nat) (s : State) : State :=
  setEvt (fun v => { v with raised := rest, buckets := buckets, secRecords := records }) s

theorem eventAccept_of_raised {e : Raised} {rest : List Raised} {s : State} (hraised : s.evt.raised = e :: rest) (hreset : s.boot.phase ≠ .inReset)
    (htrim : s.boot.phase ≠ .trimHold) (hup : evtUp s = true) :
    eventAccept s = if e.critical then storeEvent e (popped rest s.evt.buckets s.evt.secRecords s)
      else if min (fieldOf s 0x16000 7 0) (s.evt.buckets.getD (e.isl * 256 + e.code) (fieldOf s 0x16000 7 0)) = 0 ||
          fieldOf s 0x16000 27 16 < s.evt.secRecords + (1 + min 3 e.conts.length) then
        count 0x16044 (setEvt (fun v => { v with raised := rest, suppressed := Kv.put (e.isl * 256 + e.code) (min 65535 (v.suppressed.getD (e.isl * 256 + e.code) 0 + 1)) v.suppressed }) s)
      else storeEvent e (popped rest
        (Kv.put (e.isl * 256 + e.code) (min (fieldOf s 0x16000 7 0) (s.evt.buckets.getD (e.isl * 256 + e.code) (fieldOf s 0x16000 7 0)) - 1) s.evt.buckets)
        (s.evt.secRecords + (1 + min 3 e.conts.length)) s) := by
  unfold eventAccept
  rw [hraised]
  exact if_neg (by simp [hreset, htrim, hup])

/-- An accepted event stands in the ring with its continuations, numbered and stamped. -/
theorem eventAccept_records {e : Raised} {rest : List Raised} {buckets : Kv Nat} {k : Nat} {s : State}
    (haccept : eventAccept s = storeEvent e (popped rest buckets k s)) (hroom : s.evt.ring.length + (1 + min 3 e.conts.length) ≤ 512) :
    ∃ t r, exec .eventAccept s = .next t ∧ State.SameBut [.regs, .jr, .host, .evt, .out] s t ∧ t.evt.raised = rest ∧
      t.evt.ring = s.evt.ring ++ r :: contRecs r 1 (e.conts.take 3) ∧ t.evt.lastSeq = some (r.seq + BitVec.ofNat 64 (min 3 e.conts.length)) ∧
      t.evt.restart = false ∧ t.evt.suppressed = Kv.del (e.isl * 256 + e.code) s.evt.suppressed ∧ t.evt.buckets = buckets ∧
      r.seq.toNat = evtNext s % 2 ^ 64 ∧ r.part = 0 ∧ r.code = BitVec.ofNat 16 (e.isl * 256 + e.code) ∧ r.data = e.data ∧ r.critical = e.critical ∧
      r.restarted = s.evt.restart ∧ (timeValid s = true → r.time = clkTime s.tim.clk ∧ r.rawTime = false) := by
  have hevt : (storeEvent e (popped rest buckets k s)).evt = recorded e (popped rest buckets k s) := storeEvent_evt hroom
  refine ⟨storeEvent e (popped rest buckets k s), headRec e (popped rest buckets k s), congrArg Host.Outcome.next haccept, ?_, ?_, ?_, ?_, ?_, ?_, ?_,
    BitVec.toNat_ofNat _ _, rfl, rfl, rfl, rfl, rfl, fun hvalid => ?_⟩
  · exact (execEventAccept_changes s _ (congrArg Host.Outcome.next haccept)).same
  · rw [hevt]
    rfl
  · rw [hevt]
    rfl
  · rw [hevt]
    rfl
  · rw [hevt]
    rfl
  · rw [hevt]
    rfl
  · rw [hevt]
    rfl
  · have hvalid' : timeValid (popped rest buckets k s) = true := hvalid
    exact ⟨if_pos hvalid', congrArg not hvalid'⟩

/-! ## The EVENTS zone (R493) -/

/-- The zone has the record, or it is no event's first. -/
def inZone (s : State) (r : EvRec) : Bool := r.seq.toNat < s.evt.archNext.toNat || r.part ≠ 0

theorem inZone_iff {s : State} {r : EvRec} : inZone s r = true ↔ r.seq.toNat < s.evt.archNext.toNat ∨ r.part ≠ 0 := by
  simp [inZone]

theorem eventArchiveWrite_of_idle {s : State}
    (h : archiveWritable s = false ∨ evtUp s = false ∨ ∀ r ∈ s.evt.ring, r.seq.toNat < s.evt.archNext.toNat ∨ r.part ≠ 0) : eventArchiveWrite s = s := by
  unfold eventArchiveWrite
  by_cases hidle : (!archiveWritable s || !evtUp s) = true
  · exact if_pos hidle
  · have hall : ∀ r ∈ s.evt.ring, inZone s r = true := fun r hr => by
      rcases h with hw | hu | hall
      · simp [hw] at hidle
      · simp [hu] at hidle
      · exact inZone_iff.mpr (hall r hr)
    rw [if_neg hidle, show s.evt.ring.dropWhile (fun r => r.seq.toNat < s.evt.archNext.toNat || r.part ≠ 0) = [] from List.dropWhile_eq_nil_iff.mpr hall]
    rfl

/-- The oldest event of a list is its first record with the continuations that follow. -/
theorem splitEvent_cons {r : EvRec} {cont later : List EvRec} (hcont : ∀ x ∈ cont, x.part ≠ 0) (hlater : ∀ x ∈ later.head?, x.part = 0) :
    splitEvent (r :: (cont ++ later)) = (r :: cont, later) := by
  have htake : later.takeWhile (fun x => x.part ≠ 0) = [] := by
    cases later with
    | nil => rfl
    | cons x l => exact List.takeWhile_cons_of_neg (by simp [hlater x rfl])
  have hdrop : later.dropWhile (fun x => x.part ≠ 0) = later := by
    cases later with
    | nil => rfl
    | cons x l => exact List.dropWhile_cons_of_neg (by simp [hlater x rfl])
  rw [splitEvent, List.takeWhile_append_of_pos (by simpa using hcont), List.dropWhile_append_of_pos (by simpa using hcont), htake, hdrop, List.append_nil]

theorem eventArchiveWrite_of_event {old cont later : List EvRec} {r : EvRec} {s : State} (hwrite : archiveWritable s = true) (hup : evtUp s = true)
    (hring : s.evt.ring = old ++ r :: (cont ++ later)) (hold : ∀ x ∈ old, x.seq.toNat < s.evt.archNext.toNat ∨ x.part ≠ 0)
    (hnew : s.evt.archNext.toNat ≤ r.seq.toNat) (hfirst : r.part = 0) (hcont : ∀ x ∈ cont, x.part ≠ 0) (hlater : ∀ x ∈ later.head?, x.part = 0) :
    eventArchiveWrite s = setEvt (fun v =>
      { (if evtHalf s < v.zoneCur.length + (cont.length + 1) then { v with zoneOld := v.zoneCur, zoneCur := [] } else v) with
        zoneCur := (if evtHalf s < v.zoneCur.length + (cont.length + 1) then { v with zoneOld := v.zoneCur, zoneCur := [] } else v).zoneCur ++ r :: cont,
        archNext := r.seq + BitVec.ofNat 64 (cont.length + 1) }) s := by
  have hdrop : s.evt.ring.dropWhile (inZone s) = r :: (cont ++ later) := by
    rw [hring, List.dropWhile_append_of_pos (fun x hx => inZone_iff.mpr (hold x hx)), List.dropWhile_cons_of_neg]
    rw [inZone_iff]
    exact fun h => h.elim (fun hlt => absurd hlt (Nat.not_lt.mpr hnew)) (fun hp => hp hfirst)
  unfold eventArchiveWrite
  rw [if_neg (by simp [hwrite, hup]), show s.evt.ring.dropWhile (fun r => r.seq.toNat < s.evt.archNext.toNat || r.part ≠ 0) = r :: (cont ++ later) from hdrop]
  dsimp only
  rw [splitEvent_cons hcont hlater]
  rfl

/-! ## Buckets and windows (R494, R572) -/

theorem evtRefill_of_due {s : State} (h : unitSec s ≠ s.evt.refillAt) : evtRefill s = setEvt (fun v =>
    { v with refillAt := unitSec s, buckets := v.buckets.map fun p => (p.1, min (fieldOf s 0x16000 7 0) (p.2 + fieldOf s 0x16000 15 8)) }) s := if_neg h

theorem rateWindow_of_over {level : Nat} {s : State} (h : 3 ≤ level ∨ unitSec s / 3600 ≠ s.win.at_ / 3600) : rateWindow level s = endWindows s :=
  if_pos (by simpa [windowOver] using h)

theorem rateWindow_of_within {level : Nat} {s : State} (hlevel : level < 3) (hhour : unitSec s / 3600 = s.win.at_ / 3600) :
    rateWindow level s = if windowOver 1 s then setEvt (fun e => { e with secRecords := 0 })
      { s with win := { s.win with sec := [], min := if windowOver 60 s then [] else s.win.min, mgmt := 0, at_ := unitSec s } } else s :=
  if_neg (by simp [windowOver, hhour]; omega)

theorem rateWindow_of_second {level : Nat} {s : State} (hlevel : level < 3) (hhour : unitSec s / 3600 = s.win.at_ / 3600) (hsec : unitSec s ≠ s.win.at_) :
    rateWindow level s = { s with evt := { s.evt with secRecords := 0 },
                                  win := { s.win with sec := [], min := if unitSec s / 60 = s.win.at_ / 60 then s.win.min else [], mgmt := 0, at_ := unitSec s } } := by
  have hmin : (if windowOver 60 s then [] else s.win.min) = if unitSec s / 60 = s.win.at_ / 60 then s.win.min else [] := by
    by_cases h : unitSec s / 60 = s.win.at_ / 60
    · rw [if_pos h, if_neg (by simp [windowOver, h])]
    · rw [if_neg h, if_pos (by simp [windowOver, h])]
  rw [rateWindow_of_within hlevel hhour, if_pos (by simp [windowOver, hsec]), hmin]
  rfl

/-! ## Monitor channels (R484, R485, R487) -/

theorem monOf_congr {s t : State} (h : t.mon = s.mon) (n : Nat) : monOf t n = monOf s n := by unfold monOf; rw [h]

theorem monDue_iff {s : State} {n : Nat} : monDue s n = true ↔ ∀ u, (monOf s n).at_ = some u → u + monPeriod (monCfg s n) ≤ s.tim.raw := by
  unfold monDue
  cases (monOf s n).at_ <;> simp

theorem monSample_of_idle {n : Nat} {x : Int} {s : State} (h : 64 ≤ n ∨ monUp s = false ∨ bit (monCfg s n) 31 = false ∨
    monIsland (bits (monCfg s n) 30 24) = none ∨ ∃ u, (monOf s n).at_ = some u ∧ s.tim.raw < u + monPeriod (monCfg s n)) : monSample n x s = s := by
  unfold monSample
  dsimp only
  by_cases hskip : (64 ≤ n || !monUp s || !bit (monCfg s n) 31 || !monDue s n) = true
  · exact if_pos hskip
  · rw [if_neg hskip]
    have hisl : monIsland (bits (monCfg s n) 30 24) = none := by
      simp only [Bool.or_eq_true, decide_eq_true_eq, not_or, Bool.not_eq_true', Bool.not_eq_false] at hskip
      obtain ⟨⟨⟨hn, hup⟩, hen⟩, hdue⟩ := hskip
      rcases h with h | h | h | h | ⟨u, hat, hlt⟩
      · exact absurd h hn
      · simp [hup] at h
      · simp [hen] at h
      · exact h
      · exact absurd (monDue_iff.mp hdue u hat) (Nat.not_le.mpr hlt)
    rw [hisl]

/-- Does a value lie outside a channel's limits? -/
def monOut (s : State) (n : Nat) (v : Int) : Bool := decide ((reg s (0x15108 + 16 * n)).toInt < v) || decide (v < (reg s (0x1510C + 16 * n)).toInt)

/-- The channel after a sample. -/
def monNext (s : State) (n : Nat) (v : Int) : MonState :=
  { min := if (monOf s n).count = 0 then v else min (monOf s n).min v, max := if (monOf s n).count = 0 then v else max (monOf s n).max v, last := v,
    count := satAdd (monOf s n).count 1,
    bins := (monOf s n).bins.modify (monBin (reg s (0x15104 + 16 * n)).toInt v (bits (monCfg s n) 23 20)) (satAdd · 1),
    armed := !monOut s n v, at_ := some s.tim.raw }

/-- The unit with the sample in its channel. -/
def sampled (n : Nat) (v : Int) (s : State) : State := { s with mon := Kv.put n (monNext s n v) s.mon }

/-- The alarm of a channel: its bit, the notice and the event. -/
def monAlarm (n : Nat) (hi v : Int) (s : State) : State :=
  event 1 0x21 (b2n (decide (hi < v)) * 256 + n) [be 4 (wordI v).toNat] (notice 0 (setField (0x15008 + 4 * (n / 32)) (n % 32) (n % 32) 1 s))

theorem monSample_of_due {n i : Nat} {x : Int} {s : State} (hn : n < 64) (hup : monUp s = true) (hen : bit (monCfg s n) 31 = true)
    (hisl : monIsland (bits (monCfg s n) 30 24) = some i) (hdue : ∀ u, (monOf s n).at_ = some u → u + monPeriod (monCfg s n) ≤ s.tim.raw) :
    monSample n x s = if (islOf s i).st != .run then s else
      if monOut s n (satI32 (monValue s (bits (monCfg s n) 30 24) x)) && (monOf s n).armed then
        monAlarm n (reg s (0x15108 + 16 * n)).toInt (satI32 (monValue s (bits (monCfg s n) 30 24) x)) (sampled n (satI32 (monValue s (bits (monCfg s n) 30 24) x)) s)
      else sampled n (satI32 (monValue s (bits (monCfg s n) 30 24) x)) s := by
  unfold monSample
  dsimp only
  rw [if_neg (by simp [hup, hen, monDue_iff.mpr hdue]; omega), hisl]
  rfl

theorem monAlarm_offset {n : Nat} (hn : n < 64) : isSetup (0x15008 + 4 * (n / 32)) = false ∧ 0x15008 + 4 * (n / 32) ≠ 0x20 := by
  have : n / 32 = 0 ∨ n / 32 = 1 := by omega
  rcases this with h | h <;> rw [h] <;> decide

theorem monAlarm_changes (n : Nat) (hn : n < 64) (hi v : Int) (s : State) : Changes [.regs, .host, .out, .evt] s (monAlarm n hi v s) := by
  unfold monAlarm
  refine .step (event_changes ..) (.step (notice_changes ..) (.step (setField_changes _ _ _ _ _ (monAlarm_offset hn).1) .refl rfl) rfl) rfl

theorem monAlarm_raised (n : Nat) (hi v : Int) (s : State) : (monAlarm n hi v s).evt.raised =
    s.evt.raised ++ [⟨1, 0x21, criticalCode 1 0x21, BitVec.ofNat 32 (b2n (decide (hi < v)) * 256 + n), [padTo 20 (be 4 (wordI v).toNat)]⟩] := by
  have hevt : (notice 0 (setField (0x15008 + 4 * (n / 32)) (n % 32) (n % 32) 1 s)).evt = s.evt := by
    rw [notice_evt]
    rfl
  unfold monAlarm event
  rw [hevt]
  rfl

theorem bit_monAlarm {n : Nat} (hn : n < 64) (hi v : Int) {s : State} (hs : s.RegsOk) : bit (reg (monAlarm n hi v s) (0x15008 + 4 * (n / 32))) (n % 32) = true := by
  have hset : (setField (0x15008 + 4 * (n / 32)) (n % 32) (n % 32) 1 s).RegsOk := (setField_changes _ _ _ _ _ (monAlarm_offset hn).1).regsOk hs
  unfold monAlarm
  rw [reg_congr (event_regs ..), reg_notice_ne hset _ (monAlarm_offset hn).2, reg_setField_same hs,
    bit_setBits _ _ _ (Nat.le_refl _) (Nat.mod_lt n (by decide)), if_pos ⟨Nat.le_refl _, Nat.le_refl _⟩, Nat.sub_self]
  rfl

theorem monOf_sampled_same (n : Nat) (v : Int) (s : State) : monOf (sampled n v s) n = monNext s n v := by
  unfold monOf
  exact congrArg (Option.getD · monEmpty) (Kv.get?_put_same ..)

theorem monOf_sampled_ne {n k : Nat} (hne : k ≠ n) (v : Int) (s : State) : monOf (sampled n v s) k = monOf s k := by
  unfold monOf
  exact congrArg (Option.getD · monEmpty) (Kv.get?_put_ne _ hne)

theorem monOut_eq_false {s : State} {n : Nat} {v : Int} :
    monOut s n v = false ↔ (reg s (0x1510C + 16 * n)).toInt ≤ v ∧ v ≤ (reg s (0x15108 + 16 * n)).toInt := by
  simp [monOut, and_comm]

theorem monOut_eq_true {s : State} {n : Nat} {v : Int} :
    monOut s n v = true ↔ v < (reg s (0x1510C + 16 * n)).toInt ∨ (reg s (0x15108 + 16 * n)).toInt < v := by
  simp [monOut, or_comm]

end Sys2Proof.Machine
end

section

/-! SUPPORT. O56: the measurement second, minute and half-cycle (R453, R455, R456, R459). -/

namespace Sys2Proof.Machine

/-! ## Heads -/

theorem meaHead_congr {s t : State} (h : t.mea.heads = s.mea.heads) (k : Nat) : meaHead t k = meaHead s k := by unfold meaHead; rw [h]

theorem meaHead_setHead_ne {h k : Nat} (hne : k ≠ h) (f : MeaHead → MeaHead) (s : State) : meaHead (setHead h f s) k = meaHead s k := by
  unfold meaHead
  exact congrArg (Option.getD · meaHeadEmpty) (Kv.get?_put_ne _ hne)

/-- Whether a head runs depends on MEA's island, the boot state and the head's settings. -/
theorem headOn_congr {s t : State} (hisl : t.isl = s.isl) (hboot : t.boot = s.boot) (hreg : reg t 0xF000 = reg s 0xF000) (h : Nat) : headOn t h = headOn s h := by
  unfold headOn fieldOf
  rw [islRun_congr hisl hboot, hreg]

theorem Changes.headOn_eq {W : List Part} {s t : State} (h : Changes W s t) (hs : s.RegsOk) (k : Nat) (hisl : Part.isl ∉ W := by decide)
    (hboot : Part.boot ∉ W := by decide) (hsetup : Part.setup ∉ W := by decide) : headOn t k = headOn s k :=
  headOn_congr (h.same .isl hisl) (h.same .boot hboot) (h.keepsSettings hsetup hs 0xF000 (by decide)) k

theorem islRun_of_headOn {s : State} {h : Nat} (hon : headOn s h = true) : islRun s 15 = true ∧ fieldOf s 0xF000 31 31 = 1 := by
  unfold headOn at hon
  simp only [Bool.and_eq_true, decide_eq_true_eq] at hon
  exact hon.1

/-- MEA takes its seconds and minutes while it is timed and enabled. -/
theorem meaSecondEnd_of_timed {s : State} (x0 x1 : List (List Int)) (hon : headOn s 0 = true) (htimed : meaTimed s = true) :
    meaSecondEnd x0 x1 s = headSecond 1 (localSec s - 1) x1 (headSecond 0 (localSec s - 1) x0 s) := by
  obtain ⟨hrun, hen⟩ := islRun_of_headOn hon
  unfold meaSecondEnd
  rw [if_neg (by simp [hrun, hen]), if_neg (by simp [htimed])]

theorem meaMinuteEnd_of_timed {s : State} (hon : headOn s 0 = true) (htimed : meaTimed s = true) :
    meaMinuteEnd s = minuteOf 1 (localSec s / 60 * 60) (minuteOf 0 (localSec s / 60 * 60) s) := by
  obtain ⟨hrun, hen⟩ := islRun_of_headOn hon
  unfold meaMinuteEnd
  rw [if_neg (by simp [hrun, hen, htimed])]

/-! ## An untimed second (R453) -/

/-- A second that is missing in the minute of a head. -/
def missSecond (t : State) (h : Nat) : State := if headOn t h then setHead h (fun x => { x with missing := x.missing + 1 }) t else t

theorem missSecond_changes (t : State) (h : Nat) : Changes [.mea] t (missSecond t h) := .ite (setHead_changes ..) .refl

theorem headOn_missSecond (t : State) (h k : Nat) : headOn (missSecond t h) k = headOn t k := by
  have hc := missSecond_changes t h
  exact headOn_congr (hc.same .isl (by decide)) (hc.same .boot (by decide)) (reg_congr (by unfold missSecond; split <;> rfl) _) k

theorem meaHead_missSecond_same (t : State) (h : Nat) :
    meaHead (missSecond t h) h = { meaHead t h with missing := (meaHead t h).missing + b2n (headOn t h) } := by
  unfold missSecond
  cases headOn t h with
  | false => rfl
  | true =>
    rw [if_pos rfl, meaHead_setHead_same]
    rfl

theorem meaHead_missSecond_ne {h k : Nat} (hne : k ≠ h) (t : State) : meaHead (missSecond t h) k = meaHead t k := by
  unfold missSecond
  split
  · exact meaHead_setHead_ne hne _ t
  · rfl

theorem meaSecondEnd_of_untimed {s : State} (x0 x1 : List (List Int)) (hrun : islRun s 15 = true) (hen : fieldOf s 0xF000 31 31 = 1)
    (htimed : meaTimed s = false) : meaSecondEnd x0 x1 s = missSecond (missSecond (count 0xF04C s) 0) 1 := by
  unfold meaSecondEnd
  rw [if_neg (by simp [hrun, hen]), if_pos (by simp [htimed])]
  rfl

/-- An untimed second is counted and is missing in each head that runs. -/
theorem untimedSecond {s : State} (x0 x1 : List (List Int)) (hs : s.RegsOk) (hrun : islRun s 15 = true) (hen : fieldOf s 0xF000 31 31 = 1)
    (htimed : meaTimed s = false) : ∃ t, exec (.meaSecondEnd x0 x1) s = .next t ∧ State.SameBut [.regs, .mea] s t ∧ reg t 0xF04C = satAdd (reg s 0xF04C) 1 ∧
      ∀ h < 2, meaHead t h = { meaHead s h with missing := (meaHead s h).missing + b2n (headOn s h) } := by
  have hcount : Changes [.regs] s (count 0xF04C s) := count_changes _ _ (by decide)
  have h0 := missSecond_changes (count 0xF04C s) 0
  have h1 := missSecond_changes (missSecond (count 0xF04C s) 0) 1
  have hon : ∀ k, headOn (count 0xF04C s) k = headOn s k := hcount.headOn_eq hs
  refine ⟨_, congrArg Host.Outcome.next (meaSecondEnd_of_untimed x0 x1 hrun hen htimed), ?_, ?_, fun h hh => ?_⟩
  · have hall : Changes [.regs, .mea] s (missSecond (missSecond (count 0xF04C s) 0) 1) := .step h1 (.step h0 (.step hcount .refl rfl) rfl) rfl
    exact hall.same
  · have hregs : (missSecond (missSecond (count 0xF04C s) 0) 1).regs = (count 0xF04C s).regs := by
      unfold missSecond
      split <;> split <;> rfl
    rw [reg_congr hregs, reg_count_same hs]
  · have hcases : h = 0 ∨ h = 1 := by omega
    rcases hcases with rfl | rfl
    · rw [meaHead_missSecond_ne (by decide), meaHead_missSecond_same, hon]
      rfl
    · rw [meaHead_missSecond_same, headOn_missSecond, meaHead_missSecond_ne (by decide), hon]
      rfl

/-! ## Energy of a second (R455) -/

/-- A head with the energy of a phase added: imported where it is not negative, exported otherwise. -/
def withEnergy (e : Int) (p : Nat) (x : MeaHead) : MeaHead :=
  if 0 ≤ e then { x with imp := x.imp.set p ((x.imp.getD p 0 + e.toNat) % 2 ^ 96) }
  else { x with exp := x.exp.set p ((x.exp.getD p 0 + (-e).toNat) % 2 ^ 96) }

/-- One phase of a head's second. -/
def addEnergy (h : Nat) (r : List Byte) (xs : List (List Int)) (t : State) (p : Nat) : State :=
  setHead h (withEnergy (phaseEnergy r xs p t).1 p) (phaseEnergy r xs p t).2

/-- The quotient of a phase's energy, before its rounding. -/
def energyQuot (xs : List (List Int)) (p : Nat) : Int :=
  xs.foldl (fun a x => a + x.getD p 0 * x.getD (4 + p) 0) 0 * 8192 / (360000000 * calD * calD)

theorem roundFree_value (num den : Int) (s : State) : (roundFree num den s).1 = num / den ∨ (roundFree num den s).1 = num / den + 1 := by
  unfold roundFree
  dsimp only
  split
  · exact .inl rfl
  · rcases Nat.mod_two_eq_zero_or_one (draw s).1.toNat with h | h
    · exact .inl (by simp [h])
    · exact .inr (by simp [h])

theorem phaseEnergy_value {r : List Byte} {p : Nat} (hp : phased r p = false) (xs : List (List Int)) (s : State) :
    (phaseEnergy r xs p s).1 = energyQuot xs p ∨ (phaseEnergy r xs p s).1 = energyQuot xs p + 1 := by
  unfold phaseEnergy
  rw [if_neg (by simp [hp])]
  exact roundFree_value ..

/-- A phase's energy from `x` to `y` is the quotient, rounded either way, imported or exported. -/
def Charged (q : Int) (p : Nat) (x y : MeaHead) : Prop :=
  ∃ e : Int, (e = q ∨ e = q + 1) ∧
    (0 ≤ e → y.imp.getD p 0 = (x.imp.getD p 0 + e.toNat) % 2 ^ 96 ∧ y.exp.getD p 0 = x.exp.getD p 0) ∧
    (e < 0 → y.exp.getD p 0 = (x.exp.getD p 0 + (-e).toNat) % 2 ^ 96 ∧ y.imp.getD p 0 = x.imp.getD p 0)

theorem withEnergy_lengths (e : Int) (p : Nat) (x : MeaHead) :
    (withEnergy e p x).imp.length = x.imp.length ∧ (withEnergy e p x).exp.length = x.exp.length := by
  unfold withEnergy
  split
  · exact ⟨List.length_set, rfl⟩
  · exact ⟨rfl, List.length_set⟩

theorem withEnergy_ne {p k : Nat} (hne : k ≠ p) (e : Int) (x : MeaHead) :
    (withEnergy e p x).imp.getD k 0 = x.imp.getD k 0 ∧ (withEnergy e p x).exp.getD k 0 = x.exp.getD k 0 := by
  have hset : ∀ (l : List Nat) (v : Nat), (l.set p v).getD k 0 = l.getD k 0 := fun l v => by
    rw [List.getD_eq_getElem?_getD, List.getD_eq_getElem?_getD, List.getElem?_set_ne (Ne.symm hne)]
  unfold withEnergy
  split
  · exact ⟨hset _ _, rfl⟩
  · exact ⟨rfl, hset _ _⟩

theorem withEnergy_rest (e : Int) (p : Nat) (x : MeaHead) :
    (withEnergy e p x).flags = x.flags ∧ (withEnergy e p x).missing = x.missing ∧ (withEnergy e p x).cond = x.cond := by
  unfold withEnergy
  split <;> exact ⟨rfl, rfl, rfl⟩

theorem charged_withEnergy {q e : Int} {p : Nat} {x : MeaHead} (he : e = q ∨ e = q + 1) (himp : p < x.imp.length) (hexp : p < x.exp.length) :
    Charged q p x (withEnergy e p x) := by
  have hset : ∀ (l : List Nat) (v : Nat), p < l.length → (l.set p v).getD p 0 = v := fun l v hl => by
    rw [List.getD_eq_getElem?_getD, List.getElem?_set_self hl]
    rfl
  refine ⟨e, he, fun hpos => ?_, fun hneg => ?_⟩
  · rw [show withEnergy e p x = _ from if_pos hpos]
    exact ⟨hset _ _ himp, rfl⟩
  · rw [show withEnergy e p x = _ from if_neg (Int.not_le.mpr hneg)]
    exact ⟨hset _ _ hexp, rfl⟩

theorem addEnergy_changes (h : Nat) (r : List Byte) (xs : List (List Int)) (t : State) (p : Nat) : Changes [.mea, .draws] t (addEnergy h r xs t p) :=
  .step (setHead_changes ..) (.step (phaseEnergy_changes ..) .refl rfl) rfl

theorem meaHead_addEnergy (h : Nat) (r : List Byte) (xs : List (List Int)) (t : State) (p : Nat) :
    meaHead (addEnergy h r xs t p) h = withEnergy (phaseEnergy r xs p t).1 p (meaHead t h) := by
  unfold addEnergy
  rw [meaHead_setHead_same]
  exact congrArg _ (meaHead_congr (congrArg MeaState.heads ((phaseEnergy_changes r xs p t).same .mea (by decide))) h)

/-- What does not concern a phase's energy in a head. -/
def SamePhase (p : Nat) (x y : MeaHead) : Prop := y.imp.getD p 0 = x.imp.getD p 0 ∧ y.exp.getD p 0 = x.exp.getD p 0

theorem Charged.of_same_left {q : Int} {p : Nat} {x y z : MeaHead} (hxy : SamePhase p x y) (h : Charged q p y z) : Charged q p x z := by
  obtain ⟨himp, hexp⟩ := hxy
  unfold Charged at h ⊢
  rwa [himp, hexp] at h

theorem Charged.of_same_right {q : Int} {p : Nat} {x y z : MeaHead} (h : Charged q p x y) (hyz : SamePhase p y z) : Charged q p x z := by
  obtain ⟨himp, hexp⟩ := hyz
  unfold Charged at h ⊢
  rwa [← himp, ← hexp] at h

/-- The phases of a second: each is charged once, the others stay. -/
theorem foldl_addEnergy (h : Nat) (r : List Byte) (xs : List (List Int)) : ∀ (l : List Nat) (s : State), l.Nodup →
    (∀ p ∈ l, phased r p = false ∧ p < (meaHead s h).imp.length ∧ p < (meaHead s h).exp.length) →
    (∀ p ∈ l, Charged (energyQuot xs p) p (meaHead s h) (meaHead (l.foldl (addEnergy h r xs) s) h)) ∧
      ∀ p, p ∉ l → SamePhase p (meaHead s h) (meaHead (l.foldl (addEnergy h r xs) s) h)
  | [], _, _, _ => ⟨fun p hp => absurd hp (List.not_mem_nil), fun p _ => ⟨rfl, rfl⟩⟩
  | k :: l, s, hnodup, hl => by
    obtain ⟨hk, hrest⟩ := List.nodup_cons.mp hnodup
    have hhead := meaHead_addEnergy h r xs s k
    obtain ⟨hphase, himp, hexp⟩ := hl k List.mem_cons_self
    have hlen := withEnergy_lengths (phaseEnergy r xs k s).1 k (meaHead s h)
    obtain ⟨hin, hout⟩ := foldl_addEnergy h r xs l (addEnergy h r xs s k) hrest (fun p hp => by
      rw [hhead, hlen.1, hlen.2]
      exact hl p (List.mem_cons_of_mem k hp))
    have hstep : ∀ p, p ≠ k → SamePhase p (meaHead s h) (meaHead (addEnergy h r xs s k) h) := fun p hp => by
      rw [hhead]
      exact withEnergy_ne hp _ _
    refine ⟨fun p hp => ?_, fun p hp => ?_⟩
    · rcases List.mem_cons.mp hp with rfl | hp
      · have hcharge : Charged (energyQuot xs p) p (meaHead s h) (meaHead (addEnergy h r xs s p) h) := by
          rw [hhead]
          exact charged_withEnergy (phaseEnergy_value hphase xs s) himp hexp
        exact hcharge.of_same_right (hout p hk)
      · exact (hin p hp).of_same_left (hstep p (fun heq => hk (heq ▸ hp)))
    · obtain ⟨hpk, hpl⟩ := not_or.mp (fun hor => hp (List.mem_cons.mpr hor))
      obtain ⟨himp1, hexp1⟩ := hstep p hpk
      obtain ⟨himp2, hexp2⟩ := hout p hpl
      exact ⟨himp2.trans himp1, hexp2.trans hexp1⟩

theorem foldl_addEnergy_rest (h : Nat) (r : List Byte) (xs : List (List Int)) : ∀ (l : List Nat) (s : State),
    (meaHead (l.foldl (addEnergy h r xs) s) h).flags = (meaHead s h).flags ∧ (meaHead (l.foldl (addEnergy h r xs) s) h).missing = (meaHead s h).missing ∧
      (meaHead (l.foldl (addEnergy h r xs) s) h).cond = (meaHead s h).cond
  | [], _ => ⟨rfl, rfl, rfl⟩
  | k :: l, s => by
    obtain ⟨hf, hm, hc⟩ := foldl_addEnergy_rest h r xs l (addEnergy h r xs s k)
    rw [meaHead_addEnergy] at hf hm hc
    obtain ⟨hf', hm', hc'⟩ := withEnergy_rest (phaseEnergy r xs k s).1 k (meaHead s h)
    exact ⟨hf.trans hf', hm.trans hm', hc.trans hc'⟩

/-- The head at the end of a second: its power quality, and the record that waits. -/
def secondClosed (pq : List W32) (x : MeaHead) : MeaHead := { x with pq := pq, rec_ := match x.next with | some n => some n | none => x.rec_ }

theorem clips_zero : ∀ (raw : List (List Int)) (a : Nat), (∀ x ∈ raw, ∀ c ∈ x, clipped c = false) →
    raw.foldl (fun a x => a + (x.filter clipped).length) a = a
  | [], _, _ => rfl
  | x :: raw, a, h => by
    have hx : x.filter clipped = [] := List.filter_eq_nil_iff.mpr fun c hc => by simp [h x List.mem_cons_self c hc]
    rw [List.foldl_cons, hx]
    exact clips_zero raw a (fun y hy => h y (List.mem_cons_of_mem x hy))

/-- A whole second without clipping, at a unit that does not serve: energy and power quality. -/
theorem headSecond_of_clean {h sec : Nat} {raw : List (List Int)} {r : List Byte} {s : State} (hon : headOn s h = true) (hok : modOk s h = true)
    (hrec : (meaHead s h).rec_ = some r) (hlen : raw.length = 8000) (hclip : ∀ x ∈ raw, ∀ c ∈ x, clipped c = false) (hserve : serving s = false) :
    headSecond h sec raw s =
      setHead h (secondClosed (pqWords r (raw.map (calSample r)) sec ((List.range 3).foldl (addEnergy h r (raw.map (calSample r))) s)).1)
        (pqWords r (raw.map (calSample r)) sec ((List.range 3).foldl (addEnergy h r (raw.map (calSample r))) s)).2 := by
  have hclips : raw.foldl (fun a x => a + (x.filter clipped).length) 0 = 0 := clips_zero raw 0 hclip
  have hempty : (raw.map (calSample r)).isEmpty = false := by
    cases raw with
    | nil => cases hlen
    | cons x l => rfl
  have henergy : Changes [.mea, .draws] s ((List.range 3).foldl (addEnergy h r (raw.map (calSample r))) s) :=
    .foldl (W := [.mea, .draws]) (fun u p hu => .step (addEnergy_changes h r _ u p) hu rfl) .refl
  have hgive : ∀ m, giveRms m sec ((List.range 3).foldl (addEnergy h r (raw.map (calSample r))) s) = (List.range 3).foldl (addEnergy h r (raw.map (calSample r))) s :=
    fun m => if_pos (by rw [henergy.serving_eq, hserve]; rfl)
  unfold headSecond
  rw [if_neg (by simp [hon]), if_neg (by simp [hok, hrec]), hrec]
  dsimp only
  rw [hclips, if_pos rfl, hlen, if_neg (Nat.lt_irrefl 8000), hempty]
  exact congrArg (fun t => setHead h (secondClosed (pqWords r (raw.map (calSample r)) sec t).1) (pqWords r (raw.map (calSample r)) sec t).2) (hgive _)

theorem headSecond_of_off {h sec : Nat} {raw : List (List Int)} {s : State} (hoff : headOn s h = false) : headSecond h sec raw s = s :=
  if_pos (by simp [hoff])

end Sys2Proof.Machine
end

section

/-! SUPPORT. O56: the minute and the half-cycle of a head, and the obligation (R455, R456, R459). -/

namespace Sys2Proof.Machine

/-! ## The second of head 0 -/

/-- The second of head 0 alone, without a gap: each phase is charged, and nothing else but the head and the free draws changes. -/
theorem cleanSecond {x0 x1 : List (List Int)} {r : List Byte} {s : State} (htimed : meaTimed s = true) (hon0 : headOn s 0 = true)
    (hon1 : headOn s 1 = false) (hok : modOk s 0 = true) (hrec : (meaHead s 0).rec_ = some r) (himp : (meaHead s 0).imp.length = 3)
    (hexp : (meaHead s 0).exp.length = 3) (hlen : x0.length = 8000) (hclip : ∀ x ∈ x0, ∀ c ∈ x, clipped c = false)
    (hphase : ∀ p < 3, phased r p = false) (hserve : serving s = false) :
    ∃ t, exec (.meaSecondEnd x0 x1) s = .next t ∧ State.SameBut [.mea, .draws] s t ∧ (meaHead t 0).flags = (meaHead s 0).flags ∧
      (meaHead t 0).missing = (meaHead s 0).missing ∧ (meaHead t 0).cond = (meaHead s 0).cond ∧
      ∀ p < 3, Charged (energyQuot (x0.map (calSample r)) p) p (meaHead s 0) (meaHead t 0) := by
  let charged := (List.range 3).foldl (addEnergy 0 r (x0.map (calSample r))) s
  let pq := pqWords r (x0.map (calSample r)) (localSec s - 1) charged
  have hcharged : Changes [.mea, .draws] s charged := .foldl (W := [.mea, .draws]) (fun u p hu => .step (addEnergy_changes 0 r _ u p) hu rfl) .refl
  have hpq : Changes [.draws] charged pq.2 := pqWords_changes ..
  have hsecond : headSecond 0 (localSec s - 1) x0 s = setHead 0 (secondClosed pq.1) pq.2 := headSecond_of_clean hon0 hok hrec hlen hclip hserve
  have hall : Changes [.mea, .draws] s (setHead 0 (secondClosed pq.1) pq.2) := .step (setHead_changes ..) (.step hpq hcharged rfl) rfl
  have hoff : headOn (setHead 0 (secondClosed pq.1) pq.2) 1 = false :=
    (headOn_congr hall.isl_eq (hall.same .boot (by decide)) (reg_congr (hall.same .regs (by decide)) _) 1).trans hon1
  have hexec : meaSecondEnd x0 x1 s = setHead 0 (secondClosed pq.1) pq.2 := by
    rw [meaSecondEnd_of_timed x0 x1 hon0 htimed, hsecond, headSecond_of_off hoff]
  have hhead : meaHead (setHead 0 (secondClosed pq.1) pq.2) 0 = secondClosed pq.1 (meaHead charged 0) := by
    rw [meaHead_setHead_same, meaHead_congr (congrArg MeaState.heads (hpq.same .mea (by decide)))]
  obtain ⟨hflags, hmissing, hcond⟩ := foldl_addEnergy_rest 0 r (x0.map (calSample r)) (List.range 3) s
  obtain ⟨hcharge, -⟩ := foldl_addEnergy 0 r (x0.map (calSample r)) (List.range 3) s List.nodup_range
    (fun p hp => ⟨hphase p (List.mem_range.mp hp), himp ▸ List.mem_range.mp hp, hexp ▸ List.mem_range.mp hp⟩)
  refine ⟨_, congrArg Host.Outcome.next hexec, hall.same, ?_, ?_, ?_, fun p hp => ?_⟩
  · rw [hhead]
    exact hflags
  · rw [hhead]
    exact hmissing
  · rw [hhead]
    exact hcond
  · rw [hhead]
    exact hcharge p (List.mem_range.mpr hp)

/-! ## The minute (R455, R456) -/

/-- The unit with a head's minute counted and its record taken out. -/
def minuteTaken (h start : Nat) (flags : Byte) (s : State) : State :=
  let u := if (minuteRec s h).qflags == 0x80#8 then count 0xF040 s else count 0xF044 (count 0xF040 s)
  setHead h (fun x => { x with imp := x.imp.map (· % 65536), exp := x.exp.map (· % 65536), missing := 0, start := start,
                               flags := flags ||| (if modOk u h then 0#8 else 0x40#8) }) u

/-- The record of head `h` goes where the unit's role sends it. -/
def giveMinute (h : Nat) (m : MinuteRec) (u : State) : State :=
  if !serving u then u
  else if isHead u then storeMinute ⟨(ownService u).toNat * 2 + h, (m.start.toNat / 65536 : Nat), m.qflags == 0x80#8, m.net⟩ u
  else sendEntry headUnit (.meaInterval m) u

theorem headMinute_of_on {h start : Nat} {flags : Byte} {s : State} (hon : headOn s h = true) :
    headMinute h start flags s = giveMinute h (minuteRec s h) (minuteTaken h start flags s) := if_neg (by simp [hon])

theorem minuteCounts_changes (s : State) (ok : Bool) : Changes [.regs] s (if ok then count 0xF040 s else count 0xF044 (count 0xF040 s)) :=
  .ite (count_changes _ _ (by decide)) (.step (count_changes _ _ (by decide)) (.step (count_changes _ _ (by decide)) .refl rfl) rfl)

theorem minuteTaken_changes (h start : Nat) (flags : Byte) (s : State) : Changes [.regs, .mea] s (minuteTaken h start flags s) := by
  have hcounts := minuteCounts_changes s ((minuteRec s h).qflags == 0x80#8)
  unfold minuteTaken
  exact .step (setHead_changes ..) (.step hcounts .refl rfl) rfl

theorem modOk_congr {s t : State} (h : t.mea.slots = s.mea.slots) (k : Nat) : modOk t k = modOk s k := by
  unfold modOk
  rw [modSlot_congr h]

theorem meaHead_minuteTaken {h : Nat} (start : Nat) (flags : Byte) {s : State} (hok : modOk s h = true) : meaHead (minuteTaken h start flags s) h =
    { meaHead s h with imp := (meaHead s h).imp.map (· % 65536), exp := (meaHead s h).exp.map (· % 65536), missing := 0, start := start, flags := flags ||| 0#8 } := by
  have hcounts := (minuteCounts_changes s ((minuteRec s h).qflags == 0x80#8)).same .mea (by decide)
  have hmod : modOk (if (minuteRec s h).qflags == 0x80#8 then count 0xF040 s else count 0xF044 (count 0xF040 s)) h = true :=
    (modOk_congr (congrArg MeaState.slots hcounts) h).trans hok
  unfold minuteTaken
  dsimp only
  rw [meaHead_setHead_same, meaHead_congr (congrArg MeaState.heads hcounts), hmod]
  rfl

theorem reg_minuteTaken {h start : Nat} {flags : Byte} {s : State} (hs : s.RegsOk) :
    reg (minuteTaken h start flags s) 0xF040 = satAdd (reg s 0xF040) 1 ∧
      reg (minuteTaken h start flags s) 0xF044 = (if (minuteRec s h).qflags = 0x80#8 then reg s 0xF044 else satAdd (reg s 0xF044) 1) := by
  have hone : (count 0xF040 s).RegsOk := (count_changes 0xF040 s (by decide)).regsOk hs
  have hregs : (minuteTaken h start flags s).regs = (if (minuteRec s h).qflags == 0x80#8 then count 0xF040 s else count 0xF044 (count 0xF040 s)).regs := rfl
  rw [reg_congr hregs, reg_congr hregs]
  by_cases hq : (minuteRec s h).qflags = 0x80#8
  · rw [if_pos (beq_iff_eq.mpr hq), if_pos hq, reg_count_same hs, reg_count_ne hs (by decide)]
    exact ⟨rfl, rfl⟩
  · rw [if_neg (fun h => hq (beq_iff_eq.mp h)), if_neg hq, reg_count_ne hone (by decide), reg_count_same hs, reg_count_same hone, reg_count_ne hs (by decide)]
    exact ⟨rfl, rfl⟩

theorem giveMinute_changes (h : Nat) (m : MinuteRec) (u : State) : Changes [.regs, .win, .bal, .relay, .jr, .evt] u (giveMinute h m u) :=
  .ite .refl (.ite (.step (storeMinute_changes ..) .refl rfl) (.step (sendEntry_changes ..) .refl rfl))

/-- The state in which head 0's minute before `now` is taken out. -/
def minuteStarted (now : Nat) (s : State) : State := setHead 0 (fun x => { x with start := now - 60 }) s

/-- A due minute of head 0 alone. -/
theorem dueMinute {s : State} (hs : s.RegsOk) (htimed : meaTimed s = true) (hon0 : headOn s 0 = true) (hon1 : headOn s 1 = false)
    (hdue : (meaHead s 0).start < localSec s / 60 * 60) :
    meaMinuteEnd s = giveMinute 0 (minuteRec (minuteStarted (localSec s / 60 * 60) s) 0)
      (minuteTaken 0 (localSec s / 60 * 60) 0 (minuteStarted (localSec s / 60 * 60) s)) := by
  have hstart : Changes [.mea] s (minuteStarted (localSec s / 60 * 60) s) := setHead_changes ..
  have htaken := minuteTaken_changes 0 (localSec s / 60 * 60) 0 (minuteStarted (localSec s / 60 * 60) s)
  have hgiven := giveMinute_changes 0 (minuteRec (minuteStarted (localSec s / 60 * 60) s) 0) (minuteTaken 0 (localSec s / 60 * 60) 0 (minuteStarted (localSec s / 60 * 60) s))
  have hon : ∀ k, headOn (minuteStarted (localSec s / 60 * 60) s) k = headOn s k := hstart.headOn_eq hs
  have hoff : headOn (giveMinute 0 (minuteRec (minuteStarted (localSec s / 60 * 60) s) 0)
      (minuteTaken 0 (localSec s / 60 * 60) 0 (minuteStarted (localSec s / 60 * 60) s))) 1 = false := by
    rw [hgiven.headOn_eq (htaken.regsOk (hstart.regsOk hs)), htaken.headOn_eq (hstart.regsOk hs), hon, hon1]
  have hzero : minuteOf 0 (localSec s / 60 * 60) s = headMinute 0 (localSec s / 60 * 60) 0 (minuteStarted (localSec s / 60 * 60) s) :=
    if_neg (by simp [hon0]; omega)
  rw [meaMinuteEnd_of_timed hon0 htimed, hzero, headMinute_of_on ((hon 0).trans hon0)]
  exact if_pos (by rw [hoff]; rfl)

theorem minuteOf_of_early {h now : Nat} {s : State} (hnow : now ≤ (meaHead s h).start) : minuteOf h now s = s := if_pos (by simp [hnow])

theorem meaMinuteEnd_of_early {s : State} (h0 : localSec s / 60 * 60 ≤ (meaHead s 0).start) (h1 : localSec s / 60 * 60 ≤ (meaHead s 1).start) :
    meaMinuteEnd s = s := by
  unfold meaMinuteEnd
  split
  · rfl
  · dsimp only
    rw [minuteOf_of_early h0, minuteOf_of_early h1]

/-! ## The half-cycle (R459) -/

theorem halfCycle_of_idle {h p : Nat} {codes : List Int} {s : State}
    (hidle : 2 ≤ h ∨ 3 ≤ p ∨ headOn s h = false ∨ modOk s h = false ∨ codes = [] ∨ (meaHead s h).rec_ = none) : halfCycle h p codes s = s := by
  unfold halfCycle
  by_cases hskip : (2 ≤ h || 3 ≤ p || !headOn s h || !modOk s h || codes.isEmpty) = true
  · exact if_pos hskip
  · rw [if_neg hskip]
    have hrec : (meaHead s h).rec_ = none := by
      simp only [Bool.or_eq_true, decide_eq_true_eq, not_or, Bool.not_eq_true', List.isEmpty_iff] at hskip
      obtain ⟨⟨⟨⟨hh, hp⟩, hon⟩, hok⟩, hcodes⟩ := hskip
      rcases hidle with hi | hi | hi | hi | hi | hi
      · exact absurd hi hh
      · exact absurd hi hp
      · exact absurd hi hon
      · exact absurd hi hok
      · exact absurd hi hcodes
      · exact hi
    rw [hrec]

theorem sqrtFree_value (num den : Nat) (s : State) : (sqrtFree num den s).1 = isqrt (num / den) ∨ (sqrtFree num den s).1 = isqrt (num / den) + 1 := by
  unfold sqrtFree
  dsimp only
  split
  · exact .inl rfl
  · rcases Nat.mod_two_eq_zero_or_one (draw s).1.toNat with h | h
    · exact .inl (by simp [h])
    · exact .inr (by simp [h])

/-- Does a mean square lie below, or above, a share of the nominal in per cent? -/
def rmsBelow (sq nom den pct : Nat) : Bool := decide (sq * 10000 < pct * pct * nom * nom * den)
def rmsAbove (sq nom den pct : Nat) : Bool := decide (pct * pct * nom * nom * den < sq * 10000)

/-- The state after the root is drawn, where the end of a sag lets the next one start. -/
def rmsDrawn (h p sq den : Nat) (belowSag : Bool) (s : State) : State :=
  if belowSag then (sqrtFree sq den s).2 else setHead h (fun x => { x with noSag := x.noSag.filter (· != p) }) (sqrtFree sq den s).2

/-- A condition starts. -/
def condStart (h p kind v : Nat) (s : State) : State := setHead h (fun x => { x with cond := Kv.put p ⟨kind, s.tim.raw, v⟩ x.cond }) s

/-- Without a condition in progress, the value starts the one it meets. -/
def condFound (h p sq nom den v intr sag swell : Nat) (u : State) : State :=
  if rmsBelow sq nom den intr then condStart h p 5 v u
  else if rmsBelow sq nom den sag && !(meaHead u h).noSag.contains p then condStart h p 3 v u
  else if rmsAbove sq nom den swell then condStart h p 4 v u
  else u

theorem rmsDrawn_changes (h p sq den : Nat) (b : Bool) (s : State) : Changes [.mea, .draws] s (rmsDrawn h p sq den b s) :=
  .ite (.step (sqrtFree_changes ..) .refl rfl) (.step (setHead_changes ..) (.step (sqrtFree_changes ..) .refl rfl) rfl)

theorem condFound_changes (h p sq nom den v intr sag swell : Nat) (u : State) : Changes [.mea, .draws] u (condFound h p sq nom den v intr sag swell u) :=
  .ite (.step (setHead_changes ..) .refl rfl) (.ite (.step (setHead_changes ..) .refl rfl) (.ite (.step (setHead_changes ..) .refl rfl) .refl))

theorem meaHead_sqrtFree (h sq den : Nat) (s : State) : meaHead (sqrtFree sq den s).2 h = meaHead s h :=
  meaHead_congr (congrArg MeaState.heads ((sqrtFree_changes sq den s).same .mea (by decide))) h

theorem cond_rmsDrawn (h p sq den : Nat) (b : Bool) (s : State) : (meaHead (rmsDrawn h p sq den b s) h).cond = (meaHead s h).cond := by
  unfold rmsDrawn
  split
  · rw [meaHead_sqrtFree]
  · rw [meaHead_setHead_same, meaHead_sqrtFree]

theorem noSag_rmsDrawn (h p sq den : Nat) (s : State) : (meaHead (rmsDrawn h p sq den true s) h).noSag = (meaHead s h).noSag :=
  congrArg MeaHead.noSag (meaHead_sqrtFree h sq den s)

theorem raw_rmsDrawn (h p sq den : Nat) (b : Bool) (s : State) : (rmsDrawn h p sq den b s).tim = s.tim :=
  (rmsDrawn_changes h p sq den b s).same .tim (by decide)

theorem cond_condStart (h p kind v : Nat) (s : State) : (meaHead (condStart h p kind v s) h).cond = Kv.put p ⟨kind, s.tim.raw, v⟩ (meaHead s h).cond := by
  unfold condStart
  rw [meaHead_setHead_same]

/-- Sum of squares of a phase's codes, scaled. -/
def codeSquares (r : List Byte) (p : Nat) (codes : List Int) : Nat := (codes.foldl (fun a c => a + calNum r p c * calNum r p c) 0).toNat

theorem halfCycle_of_none {h p : Nat} {codes : List Int} {r : List Byte} {s : State} (hh : h < 2) (hp : p < 3) (hon : headOn s h = true)
    (hok : modOk s h = true) (hcodes : codes ≠ []) (hrec : (meaHead s h).rec_ = some r) (hcond : Kv.get? p (meaHead s h).cond = none) :
    halfCycle h p codes s =
      condFound h p (codeSquares r p codes) (recFld r 160 4) ((calD * calD).toNat * codes.length)
        (sqrtFree (codeSquares r p codes) ((calD * calD).toNat * codes.length) s).1
        (fieldOf s 0xF000 7 0) (fieldOf s 0xF000 23 16) (fieldOf s 0xF000 15 8)
        (rmsDrawn h p (codeSquares r p codes) ((calD * calD).toNat * codes.length)
          (rmsBelow (codeSquares r p codes) (recFld r 160 4) ((calD * calD).toNat * codes.length) (fieldOf s 0xF000 23 16)) s) := by
  have hnone : ∀ sq den b, Kv.get? p (meaHead (rmsDrawn h p sq den b s) h).cond = none := fun sq den b => by rw [cond_rmsDrawn, hcond]
  unfold halfCycle
  rw [if_neg (by simp [hon, hok, hcodes]; omega), hrec]
  have h := hnone (codeSquares r p codes) ((calD * calD).toNat * codes.length)
    (rmsBelow (codeSquares r p codes) (recFld r 160 4) ((calD * calD).toNat * codes.length) (fieldOf s 0xF000 23 16))
  dsimp only
  unfold rmsDrawn at h
  unfold rmsBelow codeSquares at h
  rw [h]
  rfl

end Sys2Proof.Machine
end

section

/-! O56 (R453, R455, R456, R459, R484, R485, R487, R491 to R494, R572). -/

namespace Sys2Proof.Machine

/-- The four outcomes of a half-cycle without a condition in progress. -/
theorem condFound_cond {h p sq nom den v intr sag swell : Nat} (u : State) :
    (rmsBelow sq nom den intr = true → (meaHead (condFound h p sq nom den v intr sag swell u) h).cond = Kv.put p ⟨5, u.tim.raw, v⟩ (meaHead u h).cond) ∧
    (rmsBelow sq nom den intr = false → rmsBelow sq nom den sag = true → p ∉ (meaHead u h).noSag →
      (meaHead (condFound h p sq nom den v intr sag swell u) h).cond = Kv.put p ⟨3, u.tim.raw, v⟩ (meaHead u h).cond) ∧
    (rmsBelow sq nom den intr = false → rmsBelow sq nom den sag = false → rmsAbove sq nom den swell = true →
      (meaHead (condFound h p sq nom den v intr sag swell u) h).cond = Kv.put p ⟨4, u.tim.raw, v⟩ (meaHead u h).cond) ∧
    (rmsBelow sq nom den intr = false → rmsBelow sq nom den sag = false → rmsAbove sq nom den swell = false →
      (meaHead (condFound h p sq nom den v intr sag swell u) h).cond = (meaHead u h).cond) := by
  unfold condFound
  refine ⟨fun hintr => ?_, fun hintr hsag hnoSag => ?_, fun hintr hsag hswell => ?_, fun hintr hsag hswell => ?_⟩
  · rw [if_pos hintr, cond_condStart]
  · rw [if_neg (by simp [hintr]), if_pos (by simp [hsag, hnoSag]), cond_condStart]
  · rw [if_neg (by simp [hintr]), if_neg (by simp [hsag]), if_pos hswell, cond_condStart]
  · rw [if_neg (by simp [hintr]), if_neg (by simp [hsag]), if_neg (by simp [hswell])]

theorem rmsBelow_eq_true {sq nom den pct : Nat} : rmsBelow sq nom den pct = true ↔ sq * 10000 < pct * pct * (nom * nom) * den := by
  rw [rmsBelow, decide_eq_true_eq, Nat.mul_assoc (pct * pct)]

theorem rmsBelow_eq_false {sq nom den pct : Nat} : rmsBelow sq nom den pct = false ↔ pct * pct * (nom * nom) * den ≤ sq * 10000 := by
  rw [rmsBelow, decide_eq_false_iff_not, Nat.mul_assoc (pct * pct), Nat.not_lt]

theorem rmsAbove_eq_true {sq nom den pct : Nat} : rmsAbove sq nom den pct = true ↔ pct * pct * (nom * nom) * den < sq * 10000 := by
  rw [rmsAbove, decide_eq_true_eq, Nat.mul_assoc (pct * pct)]

theorem rmsAbove_eq_false {sq nom den pct : Nat} : rmsAbove sq nom den pct = false ↔ sq * 10000 ≤ pct * pct * (nom * nom) * den := by
  rw [rmsAbove, decide_eq_false_iff_not, Nat.mul_assoc (pct * pct), Nat.not_lt]

/-- Ended windows let each meter move and each link ask for routes again. -/
theorem meter_endWindows (s : State) (k : Nat) : Kv.get? k (endWindows s).bal.meters = (Kv.get? k s.bal.meters).map fun m => { m with moves := 0 } := by
  have hmap := Kv.get?_mapVal (fun m : MeterWork => { m with moves := 0 }) k s.bal.meters
  exact hmap

theorem plc_endWindows (s : State) (k : Nat) : Kv.get? k (endWindows s).plc = (Kv.get? k s.plc).map fun q => { q with rreqs := 0 } := by
  have hmap := Kv.get?_mapVal (fun q : PlcState => { q with rreqs := 0 }) k s.plc
  exact hmap

theorem ownService_congr {s t : State} (h : t.boot = s.boot) : ownService t = ownService s := by unfold ownService; rw [h]

/-- The record of the minute before `now`. -/
theorem minuteRec_started (now : Nat) (s : State) : (minuteRec (minuteStarted now s) 0).start = BitVec.ofNat 64 ((now - 60) * 65536) ∧
    (minuteRec (minuteStarted now s) 0).imp = (meaHead s 0).imp.map (· / 65536) ∧ (minuteRec (minuteStarted now s) 0).exp = (meaHead s 0).exp.map (· / 65536) := by
  have hhead : meaHead (minuteStarted now s) 0 = { meaHead s 0 with start := now - 60 } := meaHead_setHead_same ..
  unfold minuteRec
  dsimp only
  rw [hhead]
  exact ⟨rfl, rfl, rfl⟩

/-- Settles O56: the recorder by its branches, a channel by its sample, a second by the fold over its phases. -/
theorem recorderAndMeasurement : Obligations.RecorderAndMeasurement := by
  unfold Obligations.RecorderAndMeasurement
  refine ⟨?acceptIdle, ?accept, ?zoneIdle, ?zone, ?refill, ?refillDone, ?windows, ?sampleIdle, ?sample, ?meaOff, ?untimed, ?second, ?minute, ?minuteEarly,
    ?halfIdle, ?half⟩
  case acceptIdle => exact fun s h => congrArg Host.Outcome.next (eventAccept_of_idle h)
  case accept =>
    intro e rest s hraised hreset htrim hup key burst tokens n hkey hburst htokens hn
    subst hkey hburst htokens hn
    have haccept := eventAccept_of_raised hraised hreset htrim hup
    refine ⟨fun hpass hroom => ?_, fun hcrit hheld => ?_⟩
    · cases hcrit : e.critical with
      | true =>
        rw [hcrit, if_pos rfl] at haccept
        simpa only [hcrit, if_true] using eventAccept_records haccept hroom
      | false =>
        obtain ⟨htoken, hrate⟩ := hpass.resolve_left (by simp [hcrit])
        rw [hcrit, if_neg (by decide), if_neg (by simp; omega)] at haccept
        simpa only [hcrit, Bool.false_eq_true, if_false] using eventAccept_records haccept hroom
    · rw [hcrit, if_neg (by decide), if_pos (by simpa using hheld)] at haccept
      exact congrArg Host.Outcome.next haccept
  case zoneIdle => exact fun s h => congrArg Host.Outcome.next (eventArchiveWrite_of_idle h)
  case zone =>
    intro old cont later r s hwrite hup hring hold hnew hfirst hcont hlater full hfull
    subst hfull
    refine ⟨_, congrArg Host.Outcome.next (eventArchiveWrite_of_event hwrite hup hring hold hnew hfirst hcont hlater), (setEvt_changes ..).same, ?_⟩
    unfold setEvt
    by_cases hover : evtHalf s < s.evt.zoneCur.length + (cont.length + 1)
    · simp only [hover, if_true, decide_true]
    · simp only [hover, if_false, decide_false, Bool.false_eq_true]
  case refill =>
    intro s hdue
    exact ⟨_, congrArg Host.Outcome.next (evtRefill_of_due hdue), (setEvt_changes ..).same, rfl,
      fun k => Kv.get?_mapVal (fun v => min (fieldOf s 0x16000 7 0) (v + fieldOf s 0x16000 15 8)) k s.evt.buckets⟩
  case refillDone => exact fun s hdone => congrArg Host.Outcome.next (if_pos hdone)
  case windows =>
    intro level s
    refine ⟨fun hover => ?_, fun hlevel hhour hsec => ?_, fun hlevel hsec => ?_⟩
    · exact ⟨endWindows s, congrArg Host.Outcome.next (rateWindow_of_over hover), (endWindows_changes s).same, rfl, rfl, rfl,
        meter_endWindows s, plc_endWindows s⟩
    · exact congrArg Host.Outcome.next (rateWindow_of_second hlevel hhour hsec)
    · refine congrArg Host.Outcome.next ((rateWindow_of_within hlevel (by rw [hsec])).trans (if_neg ?_))
      simp [windowOver, hsec]
  case sampleIdle => exact fun n x s h => congrArg Host.Outcome.next (monSample_of_idle h)
  case sample =>
    intro n i x s hn hup hen hisl hdue
    have hsample := monSample_of_due (x := x) hn hup hen hisl hdue
    refine ⟨fun hrun => ?_, fun hrun v lo hi m hv hhi hlo hm => ?_⟩
    · exact congrArg Host.Outcome.next (hsample.trans (if_pos (by simpa using hrun)))
    · subst hm hlo hhi
      rw [if_neg (by simp [hrun]), ← hv] at hsample
      have harmed : (!monOut s n v) = decide ((reg s (0x1510C + 16 * n)).toInt ≤ v ∧ v ≤ (reg s (0x15108 + 16 * n)).toInt) := by
        cases hout : monOut s n v with
        | false => exact (decide_eq_true (monOut_eq_false.mp hout)).symm
        | true => exact (decide_eq_false fun hin => by rw [monOut_eq_false.mpr hin] at hout; cases hout).symm
      have hnext : ∀ {t : State}, t.mon = (sampled n v s).mon → (∀ k, k ≠ n → monOf t k = monOf s k) ∧ monOf t n = { monNext s n v with
          armed := decide ((reg s (0x1510C + 16 * n)).toInt ≤ v ∧ v ≤ (reg s (0x15108 + 16 * n)).toInt) } := fun ht => by
        refine ⟨fun k hk => (monOf_congr ht k).trans (monOf_sampled_ne hk v s), ((monOf_congr ht n).trans (monOf_sampled_same n v s)).trans ?_⟩
        rw [← harmed]
        rfl
      have hsampled : Changes [.mon] s (sampled n v s) := .set_mon ..
      by_cases halarm : (monOut s n v && (monOf s n).armed) = true
      · rw [if_pos halarm] at hsample
        obtain ⟨hout, hwas⟩ := Bool.and_eq_true_iff.mp halarm
        have hchange := monAlarm_changes n hn (reg s (0x15108 + 16 * n)).toInt v (sampled n v s)
        obtain ⟨hothers, hself⟩ := hnext (hchange.same .mon (by decide))
        refine ⟨_, congrArg Host.Outcome.next hsample, hothers, hself, fun hquiet => ?_, fun _ _ => ⟨?_, monAlarm_raised n _ v (sampled n v s), fun hs => ?_⟩⟩
        · rcases hquiet with hin | hdis
          · rw [monOut_eq_false.mpr hin] at hout
            cases hout
          · rw [hwas] at hdis
            cases hdis
        · have hall : Changes [.mon, .regs, .host, .out, .evt] s (monAlarm n (reg s (0x15108 + 16 * n)).toInt v (sampled n v s)) :=
            .step hchange (.step hsampled .refl rfl) rfl
          exact hall.same
        · exact bit_monAlarm hn _ v (hsampled.regsOk hs)
      · rw [if_neg halarm] at hsample
        obtain ⟨hothers, hself⟩ := hnext (t := sampled n v s) rfl
        refine ⟨_, congrArg Host.Outcome.next hsample, hothers, hself, fun _ => hsampled.same, fun hout hwas => absurd ?_ halarm⟩
        rw [monOut_eq_true.mpr hout, hwas]
        rfl
  case meaOff =>
    intro x0 x1 s hoff
    have hskip : (!islRun s 15 || fieldOf s 0xF000 31 31 = 0) = true := by simpa using hoff
    exact ⟨congrArg Host.Outcome.next (if_pos hskip), congrArg Host.Outcome.next (if_pos (by rw [hskip]; rfl))⟩
  case untimed =>
    intro x0 x1 s hs hrun hen htimed
    exact ⟨congrArg Host.Outcome.next (if_pos (by simp [htimed])), untimedSecond x0 x1 hs hrun hen htimed⟩
  case second =>
    intro x0 x1 r s htimed hon0 hon1 hok hrec himp hexp hlen hclip hphase hserve
    obtain ⟨t, hexec, hsame, hflags, hmissing, hcond, hcharged⟩ := cleanSecond (x1 := x1) htimed hon0 hon1 hok hrec himp hexp hlen hclip hphase hserve
    refine ⟨t, hexec, hsame, hflags, hmissing, hcond, fun p hp => ?_⟩
    obtain ⟨e, he, hpos, hneg⟩ := hcharged p hp
    exact ⟨_, e, rfl, he, hpos, hneg⟩
  case minute =>
    intro s m hs hrun htimed hon0 hon1 hok hdue hm
    subst hm
    have hstart : Changes [.mea] s (minuteStarted (localSec s / 60 * 60) s) := setHead_changes ..
    have htaken := minuteTaken_changes 0 (localSec s / 60 * 60) 0 (minuteStarted (localSec s / 60 * 60) s)
    have hall : Changes [.regs, .mea] s (minuteTaken 0 (localSec s / 60 * 60) 0 (minuteStarted (localSec s / 60 * 60) s)) :=
      .step htaken (.step hstart .refl rfl) rfl
    obtain ⟨hminutes, hbad⟩ := reg_minuteTaken (h := 0) (start := localSec s / 60 * 60) (flags := 0) (hstart.regsOk hs)
    have hhead : meaHead (minuteStarted (localSec s / 60 * 60) s) 0 = { meaHead s 0 with start := localSec s / 60 * 60 - 60 } := meaHead_setHead_same ..
    obtain ⟨hfrom, himp, hexp⟩ := minuteRec_started (localSec s / 60 * 60) s
    refine ⟨_, _, congrArg Host.Outcome.next (dueMinute hs htimed hon0 hon1 hdue), hall.same, hminutes, hbad, ?_, hfrom, himp, hexp, ?_⟩
    · have hok' : modOk (minuteStarted (localSec s / 60 * 60) s) 0 = true := (modOk_congr rfl 0).trans hok
      rw [meaHead_minuteTaken _ _ hok', hhead, show (0 : Byte) ||| 0#8 = 0 from rfl]
    · unfold giveMinute
      rw [hall.serving_eq, show isHead (minuteTaken 0 (localSec s / 60 * 60) 0 (minuteStarted (localSec s / 60 * 60) s)) = isHead s from congrArg (· == 2#2) hall.roleOf_eq,
        show ownService (minuteTaken 0 (localSec s / 60 * 60) 0 (minuteStarted (localSec s / 60 * 60) s)) = ownService s from
          ownService_congr (hall.same .boot (by decide))]
      exact if_congr (by simp) rfl rfl
  case minuteEarly => exact fun s h0 h1 => congrArg Host.Outcome.next (meaMinuteEnd_of_early h0 h1)
  case halfIdle => exact fun h p codes s hidle => congrArg Host.Outcome.next (halfCycle_of_idle hidle)
  case half =>
    intro h p codes r s hh hp hon hok hcodes hrec hcond sq den nom2 hnom hsq hden
    subst hnom hsq hden
    have hcycle := halfCycle_of_none hh hp hon hok hcodes hrec hcond
    refine ⟨_, (sqrtFree (codeSquares r p codes) ((calD * calD).toNat * codes.length) s).1, congrArg Host.Outcome.next hcycle, ?_, sqrtFree_value .., ?_⟩
    · have hall := Changes.step (condFound_changes h p (codeSquares r p codes) (recFld r 160 4) ((calD * calD).toNat * codes.length)
        (sqrtFree (codeSquares r p codes) ((calD * calD).toNat * codes.length) s).1 (fieldOf s 0xF000 7 0) (fieldOf s 0xF000 23 16) (fieldOf s 0xF000 15 8) _)
        (rmsDrawn_changes h p (codeSquares r p codes) ((calD * calD).toNat * codes.length)
          (rmsBelow (codeSquares r p codes) (recFld r 160 4) ((calD * calD).toNat * codes.length) (fieldOf s 0xF000 23 16)) s) rfl
      exact hall.same
    · intro intr sag swell hintr hsag hswell
      subst hintr hsag hswell
      obtain ⟨hint, hsag, hswell, hnone⟩ := condFound_cond (h := h) (p := p) (sq := codeSquares r p codes) (nom := recFld r 160 4)
        (den := (calD * calD).toNat * codes.length) (v := (sqrtFree (codeSquares r p codes) ((calD * calD).toNat * codes.length) s).1)
        (intr := fieldOf s 0xF000 7 0) (sag := fieldOf s 0xF000 23 16) (swell := fieldOf s 0xF000 15 8)
        (rmsDrawn h p (codeSquares r p codes) ((calD * calD).toNat * codes.length)
          (rmsBelow (codeSquares r p codes) (recFld r 160 4) ((calD * calD).toNat * codes.length) (fieldOf s 0xF000 23 16)) s)
      rw [cond_rmsDrawn, raw_rmsDrawn] at hint hsag hswell
      rw [cond_rmsDrawn] at hnone
      refine ⟨fun hi => hint (rmsBelow_eq_true.mpr hi), fun hi hs hno => hsag (rmsBelow_eq_false.mpr hi) (rmsBelow_eq_true.mpr hs) ?_,
        fun hi hs hw => hswell (rmsBelow_eq_false.mpr hi) (rmsBelow_eq_false.mpr hs) (rmsAbove_eq_true.mpr hw),
        fun hi hs hw => hnone (rmsBelow_eq_false.mpr hi) (rmsBelow_eq_false.mpr hs) (rmsAbove_eq_false.mpr hw)⟩
      rw [show rmsBelow (codeSquares r p codes) (recFld r 160 4) ((calD * calD).toNat * codes.length) (fieldOf s 0xF000 23 16) = true from rmsBelow_eq_true.mpr hs,
        noSag_rmsDrawn]
      exact hno

end Sys2Proof.Machine
end

section

/-! SUPPORT. O57: the store's format, its mount and the write-back (R424, R425, R429, R438, R441, R444, R448). -/

namespace Sys2Proof.Machine

/-! ## The format (R424, R425, R444) -/

/-- Renumbering counts the queued records from its start and keeps their data and the padding. -/
theorem numbers_renumber : ∀ (l : List (Option (Nat × List Byte))) (n : Nat),
    ((renumber n l).filterMap id).map (·.1) = List.range' n (l.filterMap id).length
  | [], _ => rfl
  | none :: l, n => numbers_renumber l n
  | some _ :: l, n => congrArg (n :: ·) (numbers_renumber l (n + 1))

theorem data_renumber : ∀ (l : List (Option (Nat × List Byte))) (n : Nat), (renumber n l).map (fun x => x.map (·.2)) = l.map fun x => x.map (·.2)
  | [], _ => rfl
  | none :: l, n => congrArg (none :: ·) (data_renumber l n)
  | some r :: l, n => congrArg (some r.2 :: ·) (data_renumber l (n + 1))

theorem length_renumber (l : List (Option (Nat × List Byte))) (n : Nat) : ((renumber n l).filterMap id).length = (l.filterMap id).length := by
  have h := congrArg List.length (numbers_renumber l n)
  rwa [List.length_map, List.length_range'] at h

/-- A format lays out the zones and numbers the queue from 0, or fails below 64 READINGS blocks. -/
theorem formatStore_spec {m e : Nat} {l : Layout} {r : Int} {s u : State} {ok : Bool} (hz : zones s = (m, e, l, r)) (hformat : formatStore s = (ok, u)) :
    (ok = true ↔ 64 ≤ r) ∧
    (r < 64 → u.arch = { s.arch with st := .off, layout := none } ∧ u.evt.raised = s.evt.raised ++ [⟨4, 3, criticalCode 4 3, BitVec.ofNat 32 r.toNat, []⟩]) ∧
    (64 ≤ r → u.arch.st = .ready ∧ u.arch.layout = some l ∧ u.arch.blocks = layBlocks s m e l.spares ∧ u.arch.age = 0 ∧ u.arch.durable = 0 ∧ u.arch.missing = [] ∧
      u.arch.next = (s.arch.wq.filterMap id).length ∧ (u.arch.wq.filterMap id).map (·.1) = List.range u.arch.next ∧
      (u.arch.wq.map fun x => x.map (·.2)) = (s.arch.wq.map fun x => x.map (·.2))) := by
  unfold formatStore at hformat
  rw [hz] at hformat
  dsimp only at hformat
  split at hformat
  case isTrue hfail =>
    obtain ⟨rfl, rfl⟩ := Prod.mk.inj hformat
    have hnat : (if r < 0 then 0 else r.toNat) = r.toNat := by
      split
      · omega
      · rfl
    refine ⟨by simp; omega, fun _ => ⟨rfl, ?_⟩, fun hr => absurd hfail (Int.not_lt.mpr hr)⟩
    rw [hnat]
    rfl
  case isFalse hfits =>
    obtain ⟨rfl, rfl⟩ := Prod.mk.inj hformat
    refine ⟨by simp; omega, fun hr => absurd hr hfits, fun _ => ⟨rfl, rfl, rfl, rfl, rfl, rfl, length_renumber _ 0, ?_, data_renumber _ 0⟩⟩
    exact (numbers_renumber s.arch.wq 0).trans (by rw [← List.range_eq_range', ← length_renumber s.arch.wq 0]; rfl)

/-! ## READ_ONLY (R440) -/

/-- Has the store neither a spare nor its reserve of FREE blocks? -/
def starved (s : State) : Bool := blkCount s .spare == 0 && decide (blkCount s .free < (s.arch.layout.map (·.gcReserve)).getD 0)

theorem checkReadOnly_arch (s : State) : (checkReadOnly s).arch =
    { s.arch with st := if (s.arch.st == .ready || s.arch.st == .keepFull) && starved s then .readOnly else s.arch.st } := by
  unfold checkReadOnly starved
  dsimp only
  rw [← Bool.and_assoc]
  split <;> rfl

/-! ## The mount (R429, R438) -/

/-- The pages that a mount takes out. -/
def mountBad (scan : MountScan) (a : Archive) : List (Nat × Nat) := if a.cut then scan.torn ++ a.notDurable.map (fun p => (p.1, p.2.1)) else []

/-- A block without its bad pages. -/
def cleanBlock (bad : List (Nat × Nat)) (b : Nat) (v : Block) : Block :=
  { v with pages := v.pages.zipIdx.map fun x => if bad.contains (b, x.2) then x.1.map (fun y => { y with mapped := false }) else x.1 }

/-- The OPEN READINGS blocks by their targets. -/
def mountOpens (s : State) : Kv Nat := s.arch.blocks.foldl (fun m p => if p.2.st == .open_ && p.2.zone == 5 then Kv.put (targetOf s p.1) p.1 m else m) []

/-- The store with the scan's findings applied. -/
def mounted (scan : MountScan) (s : State) : State := countBy 0x4084 scan.dup (setArch (fun a =>
  { a with blocks := a.blocks.map (fun p => (p.1, cleanBlock (mountBad scan s.arch) p.1 p.2)), notDurable := if s.arch.cut then [] else a.notDurable,
           st := if a.ro then .readOnly else .ready, cut := false, openR := mountOpens s }) s)

/-- The records that a reset of the unit lost. -/
def mountLost (a : Archive) : Nat := if a.cut then a.resEnd - a.durable else 0

/-- The lost range is missing. -/
def mountMissing (a : Archive) (u : State) : State := if mountLost a = 0 then u else addMissing a.durable (a.resEnd - 1) u

/-- A lone unit names the lost range. -/
def mountNamed (a : Archive) (u : State) : State :=
  if mountLost a != 0 && isLone u then event 4 0x04 (min (mountLost a) 0xFFFFFFFF) [be 8 a.durable ++ be 8 (a.resEnd - 1)] u else u

theorem mounted_changes (scan : MountScan) (s : State) : Changes [.regs, .arch] s (mounted scan s) :=
  .step (countBy_changes _ _ _ (by decide)) (.step (setArch_changes ..) .refl rfl) rfl

theorem mountMissing_changes (a : Archive) (u : State) : Changes [.arch] u (mountMissing a u) := .ite .refl (addMissing_changes ..)

theorem mountNamed_changes (a : Archive) (u : State) : Changes [.evt] u (mountNamed a u) := .ite (event_changes ..) .refl

theorem archiveMount_of_idle {scan : MountScan} {s : State} (h : s.arch.st ≠ .mounting ∨ s.arch.formatting.isSome = true) : archiveMount scan s = s :=
  if_pos (by simpa using h)

theorem archiveMount_of_blank {scan : MountScan} {s : State} (hst : s.arch.st = .mounting) (hformat : s.arch.formatting = none) (hlayout : s.arch.layout = none) :
    archiveMount scan s = (formatStore s).2 := by
  unfold archiveMount
  rw [if_neg (by simp [hst, hformat]), hlayout]

theorem archiveMount_of_layout {scan : MountScan} {s : State} {l : Layout} (hst : s.arch.st = .mounting) (hformat : s.arch.formatting = none)
    (hlayout : s.arch.layout = some l) (hrestore : s.arch.cut = false ∨ s.camp.ckpt = none) :
    archiveMount scan s = checkReadOnly (mountNamed s.arch (mountMissing s.arch (mounted scan s))) := by
  have hcamp : (mountNamed s.arch (mountMissing s.arch (mounted scan s))).camp = s.camp := by
    have hchange : Changes [.regs, .arch, .evt] s (mountNamed s.arch (mountMissing s.arch (mounted scan s))) :=
      .step (mountNamed_changes ..) (.step (mountMissing_changes ..) (.step (mounted_changes scan s) .refl rfl) rfl) rfl
    exact hchange.same .camp (by decide)
  unfold archiveMount
  rw [if_neg (by simp [hst, hformat]), hlayout]
  refine congrArg checkReadOnly ?_
  change (if s.arch.cut && _ && _ then campaignRestore (mountNamed s.arch (mountMissing s.arch (mounted scan s))) else
    mountNamed s.arch (mountMissing s.arch (mounted scan s))) = _
  rcases hrestore with hcut | hckpt
  · exact if_neg (by simp [hcut])
  · have hnothing : campaignRestore (mountNamed s.arch (mountMissing s.arch (mounted scan s))) = mountNamed s.arch (mountMissing s.arch (mounted scan s)) := by
      unfold campaignRestore
      rw [hcamp, hckpt]
      exact ite_self _
    rw [hnothing]
    exact ite_self _

/-- Without a bad page a block stays. -/
theorem cleanBlock_nil (b : Nat) (v : Block) : cleanBlock [] b v = v := by
  unfold cleanBlock
  simp

theorem page_cleanBlock (bad : List (Nat × Nat)) (b : Nat) (v : Block) (p : Nat) : (cleanBlock bad b v).pages[p]? =
    (v.pages[p]?).map fun page => if (b, p) ∈ bad then page.map (fun y => { y with mapped := false }) else page := by
  unfold cleanBlock
  simp [List.getElem?_zipIdx]
  rfl

theorem blockOf_mounted (scan : MountScan) (s : State) (b : Nat) (p : Nat) : (blockOf (mounted scan s) b).pages[p]? =
    ((blockOf s b).pages[p]?).map fun page => if (b, p) ∈ mountBad scan s.arch then page.map (fun y => { y with mapped := false }) else page := by
  have hget : Kv.get? b (mounted scan s).arch.blocks = (Kv.get? b s.arch.blocks).map (cleanBlock (mountBad scan s.arch) b) :=
    Kv.get?_mapKey (fun k v => cleanBlock (mountBad scan s.arch) k v) b s.arch.blocks
  unfold blockOf Kv.getD
  rw [hget]
  cases Kv.get? b s.arch.blocks with
  | none => rfl
  | some v => exact page_cleanBlock ..

theorem mem_mountBad {scan : MountScan} {a : Archive} (hcut : a.cut = true) {b p : Nat} :
    (b, p) ∈ mountBad scan a ↔ (b, p) ∈ scan.torn ∨ ∃ n, (b, p, n) ∈ a.notDurable := by
  unfold mountBad
  rw [if_pos hcut, List.mem_append]
  refine or_congr Iff.rfl ⟨fun h => ?_, fun ⟨n, h⟩ => List.mem_map.mpr ⟨(b, p, n), h, rfl⟩⟩
  obtain ⟨⟨x, y, n⟩, hmem, heq⟩ := List.mem_map.mp h
  obtain ⟨rfl, rfl⟩ := Prod.mk.inj heq
  exact ⟨n, hmem⟩

/-! ## After a stop of FLS alone -/

theorem mountedOnly {scan : MountScan} {s : State} (hcut : s.arch.cut = false) : mountNamed s.arch (mountMissing s.arch (mounted scan s)) = mounted scan s := by
  have hlost : mountLost s.arch = 0 := if_neg (by simp [hcut])
  unfold mountNamed mountMissing
  rw [if_pos hlost]
  exact if_neg (by simp [hlost])

theorem mounted_blocks_of_kept {scan : MountScan} {s : State} (hcut : s.arch.cut = false) : (mounted scan s).arch.blocks = s.arch.blocks := by
  have hbad : mountBad scan s.arch = [] := if_neg (by simp [hcut])
  change s.arch.blocks.map (fun p => (p.1, cleanBlock (mountBad scan s.arch) p.1 p.2)) = _
  rw [hbad]
  simp [cleanBlock_nil]

/-- A mount after a stop of FLS keeps the store as it was. -/
theorem archiveMount_keeps {scan : MountScan} {l : Layout} {s : State} (hst : s.arch.st = .mounting) (hformat : s.arch.formatting = none)
    (hlayout : s.arch.layout = some l) (hcut : s.arch.cut = false) :
    ∃ t, exec (.archiveMount scan) s = .next t ∧ State.SameBut [.regs, .arch] s t ∧ (s.RegsOk → reg t 0x4084 = satAdd (reg s 0x4084) scan.dup) ∧
      t.arch.blocks = s.arch.blocks ∧ t.arch.next = s.arch.next ∧ t.arch.wq = s.arch.wq ∧ t.arch.missing = s.arch.missing ∧ t.arch.notDurable = s.arch.notDurable ∧
      (t.arch.st = if s.arch.ro ∨ blkCount s .spare = 0 ∧ blkCount s .free < l.gcReserve then .readOnly else .ready) := by
  have hmount : archiveMount scan s = checkReadOnly (mounted scan s) := by
    rw [archiveMount_of_layout hst hformat hlayout (.inl hcut), mountedOnly hcut]
  have hall : Changes [.regs, .arch] s (checkReadOnly (mounted scan s)) := .step (checkReadOnly_changes _) (mounted_changes scan s) rfl
  have hblocks := mounted_blocks_of_kept (scan := scan) hcut
  have harch := checkReadOnly_arch (mounted scan s)
  have hcount : ∀ k, blkCount (mounted scan s) k = blkCount s k := fun k => by unfold blkCount; rw [hblocks]
  refine ⟨_, congrArg Host.Outcome.next hmount, hall.same, fun hs => ?_, ?_, ?_, ?_, ?_, ?_, ?_⟩
  · rw [reg_congr ((checkReadOnly_changes _).same .regs (by decide))]
    exact reg_setReg_same ((setArch_changes _ s).regsOk hs) _ _
  · rw [harch]
    exact hblocks
  · rw [harch]
    rfl
  · rw [harch]
    rfl
  · rw [harch]
    rfl
  · rw [harch]
    exact if_neg (by simp [hcut])
  · have hstarved : starved (mounted scan s) = decide (blkCount s .spare = 0 ∧ blkCount s .free < l.gcReserve) := by
      unfold starved
      rw [hcount, hcount, show (mounted scan s).arch.layout = s.arch.layout from rfl, hlayout, Bool.decide_and]
      rfl
    rw [harch, hstarved]
    change (if ((if s.arch.ro then ArchSt.readOnly else .ready) == .ready || (if s.arch.ro then ArchSt.readOnly else .ready) == .keepFull) && _ then
      ArchSt.readOnly else (if s.arch.ro then .readOnly else .ready)) = _
    cases s.arch.ro <;> simp

/-! ## After a reset of the unit -/

theorem addMissing_arch {lo hi : Nat} {s : State} (hle : lo ≤ hi) (hlast : ∀ r ∈ s.arch.missing.getLast?, r.2 + 1 ≠ lo) :
    (addMissing lo hi s).arch = { s.arch with missing := s.arch.missing ++ [(lo, hi)] } := by
  unfold addMissing
  rw [if_neg (Nat.not_lt.mpr hle)]
  unfold setArch
  dsimp only
  split
  case h_1 x y hxy => rw [if_neg (hlast (x, y) hxy)]
  case h_2 hnone => rw [List.getLast?_eq_none_iff.mp hnone]; rfl

/-- What the lost range leaves of the mounted store. -/
theorem mountMissing_arch {scan : MountScan} {s : State} (hcut : s.arch.cut = true) (hlast : ∀ r ∈ s.arch.missing.getLast?, r.2 + 1 ≠ s.arch.durable) :
    (mountMissing s.arch (mounted scan s)).arch = { (mounted scan s).arch with
      missing := if s.arch.durable < s.arch.resEnd then s.arch.missing ++ [(s.arch.durable, s.arch.resEnd - 1)] else s.arch.missing } := by
  have hlost : mountLost s.arch = s.arch.resEnd - s.arch.durable := if_pos hcut
  unfold mountMissing
  rw [hlost]
  by_cases hrange : s.arch.durable < s.arch.resEnd
  · have hmissing := addMissing_arch (s := mounted scan s) (show s.arch.durable ≤ s.arch.resEnd - 1 by omega) hlast
    rw [if_neg (by omega), if_pos hrange, hmissing]
    rfl
  · rw [if_pos (by omega), if_neg hrange]
    rfl

/-- A lone unit's mount names the range that is lost. -/
theorem mountNamed_raised {a : Archive} (hcut : a.cut = true) (u : State) : (mountNamed a u).evt.raised =
    if a.durable < a.resEnd ∧ isLone u = true then u.evt.raised ++
      [⟨4, 4, criticalCode 4 4, BitVec.ofNat 32 (min (a.resEnd - a.durable) 0xFFFFFFFF), [padTo 20 (be 8 a.durable ++ be 8 (a.resEnd - 1))]⟩] else u.evt.raised := by
  have hlost : mountLost a = a.resEnd - a.durable := if_pos hcut
  have hiff : ((a.resEnd - a.durable != 0) && isLone u) = true ↔ a.durable < a.resEnd ∧ isLone u = true := by
    rw [Bool.and_eq_true, bne_iff_ne]
    exact and_congr (by omega) Iff.rfl
  unfold mountNamed
  rw [hlost]
  by_cases hnamed : a.durable < a.resEnd ∧ isLone u = true
  · rw [if_pos (hiff.mpr hnamed), if_pos hnamed]
    rfl
  · rw [if_neg (fun h => hnamed (hiff.mp h)), if_neg hnamed]

/-- A mount after a reset of the unit takes out the bad pages and the range that was not durable. -/
theorem archiveMount_cuts {scan : MountScan} {l : Layout} {s : State} (hst : s.arch.st = .mounting) (hformat : s.arch.formatting = none)
    (hlayout : s.arch.layout = some l) (hcut : s.arch.cut = true) (hckpt : s.camp.ckpt = none)
    (hlast : ∀ r ∈ s.arch.missing.getLast?, r.2 + 1 ≠ s.arch.durable) :
    ∃ t, exec (.archiveMount scan) s = .next t ∧ State.SameBut [.regs, .arch, .evt] s t ∧ t.arch.cut = false ∧ t.arch.notDurable = [] ∧
      (∀ (b p : Nat) (page : List Sector), ((b, p) ∈ scan.torn ∨ ∃ n, (b, p, n) ∈ s.arch.notDurable) → (blockOf t b).pages[p]? = some page → ∀ x ∈ page, x.mapped = false) ∧
      (∀ (b p : Nat), (b, p) ∉ scan.torn → (∀ n, (b, p, n) ∉ s.arch.notDurable) → (blockOf t b).pages[p]? = (blockOf s b).pages[p]?) ∧
      t.arch.missing = (if s.arch.durable < s.arch.resEnd then s.arch.missing ++ [(s.arch.durable, s.arch.resEnd - 1)] else s.arch.missing) ∧
      t.evt.raised = (if s.arch.durable < s.arch.resEnd ∧ isLone s = true then s.evt.raised ++
        [⟨4, 4, criticalCode 4 4, BitVec.ofNat 32 (min (s.arch.resEnd - s.arch.durable) 0xFFFFFFFF), [padTo 20 (be 8 s.arch.durable ++ be 8 (s.arch.resEnd - 1))]⟩] else s.evt.raised) := by
  have hmounted := mounted_changes scan s
  have hmissing := mountMissing_changes s.arch (mounted scan s)
  have hnamed := mountNamed_changes s.arch (mountMissing s.arch (mounted scan s))
  have hcheck := checkReadOnly_changes (mountNamed s.arch (mountMissing s.arch (mounted scan s)))
  have hall : Changes [.regs, .arch, .evt] s (checkReadOnly (mountNamed s.arch (mountMissing s.arch (mounted scan s)))) :=
    .step hcheck (.step hnamed (.step hmissing (.step hmounted .refl rfl) rfl) rfl) rfl
  have harch := checkReadOnly_arch (mountNamed s.arch (mountMissing s.arch (mounted scan s)))
  have hsame : (mountNamed s.arch (mountMissing s.arch (mounted scan s))).arch = (mountMissing s.arch (mounted scan s)).arch := hnamed.same .arch (by decide)
  rw [hsame, mountMissing_arch hcut hlast] at harch
  have hpage : ∀ b p : Nat, (blockOf (checkReadOnly (mountNamed s.arch (mountMissing s.arch (mounted scan s)))) b).pages[p]? = (blockOf (mounted scan s) b).pages[p]? :=
    fun b p => by unfold blockOf; rw [harch]
  refine ⟨_, congrArg Host.Outcome.next (archiveMount_of_layout hst hformat hlayout (.inr hckpt)), hall.same, ?_, ?_, fun b p page hbad hat => ?_,
    fun b p htorn hdur => ?_, ?_, ?_⟩
  · rw [harch]
    rfl
  · rw [harch]
    exact if_pos hcut
  · rw [hpage, blockOf_mounted, Option.map_eq_some_iff] at hat
    obtain ⟨old, -, rfl⟩ := hat
    rw [if_pos ((mem_mountBad hcut).mpr hbad)]
    intro x hx
    obtain ⟨y, -, rfl⟩ := List.mem_map.mp hx
    rfl
  · have hgood : (b, p) ∉ mountBad scan s.arch := fun hmem => ((mem_mountBad hcut).mp hmem).elim htorn fun ⟨n, hn⟩ => hdur n hn
    rw [hpage, blockOf_mounted]
    simp [hgood]
  · rw [harch]
  · have hlone : isLone (mountMissing s.arch (mounted scan s)) = isLone s :=
      congrArg (fun p : PairState => p.st == .lone) ((hmissing.same .pair (by decide)).trans (hmounted.same .pair (by decide)))
    have hevt : (mountMissing s.arch (mounted scan s)).evt = s.evt := (hmissing.same .evt (by decide)).trans (hmounted.same .evt (by decide))
    have hraised := mountNamed_raised hcut (mountMissing s.arch (mounted scan s))
    rw [hlone, hevt] at hraised
    exact (congrArg EvtState.raised (hcheck.same .evt (by decide))).trans hraised

/-! ## The write-back (R441) -/

theorem foldl_min_of_least (a : Nat) : ∀ {l : List Nat}, (∀ x ∈ l, a ≤ x) → l.foldl min a = a
  | [], _ => rfl
  | x :: l, h => by
    rw [List.foldl_cons, Nat.min_eq_left (h x List.mem_cons_self)]
    exact foldl_min_of_least a fun y hy => h y (List.mem_cons_of_mem x hy)

theorem overflowWriteback_of_ring {s : State} {r : Nat × List Byte} {l : List (Nat × List Byte)} (hdue : s.arch.writeback = true) (hring : s.arch.ovf = r :: l)
    (hleast : ∀ x ∈ l, r.1 ≤ x.1) : overflowWriteback s = { s with arch := { s.arch with
      writeback := false, ovf := [],
      wq := (s.arch.wq.filter fun x => x.all fun y => decide (y.1 < r.1)) ++ (r :: l).map some ++ (s.arch.wq.filter fun x => x.any fun y => decide (r.1 ≤ y.1)) } } := by
  have hlo : minD 0 (s.arch.ovf.map (·.1)) = r.1 := by
    rw [hring]
    refine foldl_min_of_least r.1 fun x hx => ?_
    obtain ⟨y, hy, rfl⟩ := List.mem_map.mp hx
    exact hleast y hy
  have hbefore : (fun x : Option (Nat × List Byte) => match x with | some y => decide (y.1 < r.1) | none => true) = fun x => x.all fun y => decide (y.1 < r.1) :=
    funext fun x => by cases x <;> rfl
  have hafter : (fun x : Option (Nat × List Byte) => match x with | some y => decide (r.1 ≤ y.1) | none => false) = fun x => x.any fun y => decide (r.1 ≤ y.1) :=
    funext fun x => by cases x <;> rfl
  rw [← hbefore, ← hafter]
  unfold overflowWriteback setArch
  rw [if_neg (by simp [hdue])]
  dsimp only
  rw [hlo, hring] <;> rfl

end Sys2Proof.Machine
end

section

/-! SUPPORT. O57: pages of the READINGS zone and the durable mark (R423, R427, R428). -/

namespace Sys2Proof.Machine

/-! ## Reads of blocks -/

theorem blockOf_of_put {s : State} {m : Kv Block} {b : Nat} {v : Block} (h : s.arch.blocks = Kv.put b v m) : blockOf s b = v := by
  unfold blockOf Kv.getD
  rw [h, Kv.get?_put_same]
  rfl

theorem blockOf_of_put_ne {s t : State} {b k : Nat} {v : Block} (h : t.arch.blocks = Kv.put b v s.arch.blocks) (hne : k ≠ b) : blockOf t k = blockOf s k := by
  unfold blockOf Kv.getD
  rw [h, Kv.get?_put_ne v hne]

theorem blockOf_congr {s t : State} (h : t.arch.blocks = s.arch.blocks) (k : Nat) : blockOf t k = blockOf s k := by unfold blockOf; rw [h]

theorem blockOf_of_get? {s : State} {b : Nat} {v : Block} (h : Kv.get? b s.arch.blocks = some v) : blockOf s b = v := by
  unfold blockOf Kv.getD
  rw [h]
  rfl

/-! ## One page (R423) -/

/-- The sectors of a page with its number in the log. -/
def pageOf (seq : Nat) (secs : List (Nat × Nat × Bool × SecData)) : List Sector := secs.map fun x => ⟨x.1, x.2.1, seq, x.2.2.1, x.2.2.2⟩

/-- A block with a page more. -/
def withPage (full : Nat) (page : List Sector) (v : Block) : Block :=
  { v with pages := v.pages ++ [page], st := if full ≤ v.pages.length + 1 then .data else v.st }

theorem programPage_arch (b : Nat) (secs : List (Nat × Nat × Bool × SecData)) (s : State) : (programPage b secs s).arch = { s.arch with
    pseq := s.arch.pseq + 1, blocks := Kv.put b (withPage (pagesPerBlock s) (pageOf (s.arch.pseq + 1) secs) (blockOf s b)) s.arch.blocks } := by
  have hfull : withPage (pagesPerBlock s) (pageOf (s.arch.pseq + 1) secs) (blockOf s b) =
      (if pagesPerBlock s ≤ ((blockOf s b).pages ++ [pageOf (s.arch.pseq + 1) secs]).length then
        { blockOf s b with pages := (blockOf s b).pages ++ [pageOf (s.arch.pseq + 1) secs], st := .data }
      else { blockOf s b with pages := (blockOf s b).pages ++ [pageOf (s.arch.pseq + 1) secs] }) := by
    unfold withPage
    rw [List.length_append, List.length_singleton]
    split <;> rfl
  rw [hfull]
  rfl

theorem blockOf_programPage_same (b : Nat) (secs : List (Nat × Nat × Bool × SecData)) (s : State) :
    blockOf (programPage b secs s) b = withPage (pagesPerBlock s) (pageOf (s.arch.pseq + 1) secs) (blockOf s b) :=
  blockOf_of_put (congrArg Archive.blocks (programPage_arch b secs s))

theorem blockOf_programPage_ne {b k : Nat} (hne : k ≠ b) (secs : List (Nat × Nat × Bool × SecData)) (s : State) :
    blockOf (programPage b secs s) k = blockOf s k :=
  blockOf_of_put_ne (congrArg Archive.blocks (programPage_arch b secs s)) hne

theorem reg_programPage {s : State} (hs : s.RegsOk) (b : Nat) (secs : List (Nat × Nat × Bool × SecData)) :
    reg (programPage b secs s) 0x4060 = satAdd (reg s 0x4060) 1 := by
  unfold programPage
  dsimp only
  rw [reg_count_same ((putBlock_changes ..).regsOk ((setArch_changes ..).regsOk hs))]
  rfl

/-! ## Records of a page (R423, R427) -/

theorem records_toSectors : ∀ (k : Nat) (l : List (Option (Nat × List Byte))), (toSectors k l).flatMap secRecords = (l.take (64 * k)).filterMap id
  | 0, _ => rfl
  | k + 1, l => by
    have ih := records_toSectors k (l.drop 64)
    rw [toSectors, List.flatMap_cons, ih, show 64 * (k + 1) = 64 + 64 * k by omega, List.take_add, List.filterMap_append]
    rfl

/-- The sectors of the next READINGS page: the block's write record first, then the records. -/
def readingsPage (b n : Nat) (s : State) : List (Nat × Nat × Bool × SecData) :=
  (if (blockOf s b).pages.isEmpty then [((5 : Nat), s.arch.logSec % 2 ^ 32, true, SecData.writeRec)] else []) ++
    (toSectors (n / 64) (s.arch.wq.take n)).zipIdx.map fun d => (5, (s.arch.logSec + d.2) % 2 ^ 32, true, d.1)

theorem records_zipIdx (f : SecData × Nat → Nat) : ∀ (l : List SecData) (k : Nat),
    ((l.zipIdx k).map fun d => ((5 : Nat), f d, true, d.1)).flatMap (fun x => secRecords x.2.2.2) = l.flatMap secRecords
  | [], _ => rfl
  | d :: l, k => by
    rw [List.zipIdx_cons, List.map_cons, List.flatMap_cons, List.flatMap_cons, records_zipIdx f l (k + 1)]

theorem records_readingsPage {b n : Nat} {s : State} (hn : n % 64 = 0) :
    (readingsPage b n s).flatMap (fun x => secRecords x.2.2.2) = (s.arch.wq.take n).filterMap id := by
  have hall : 64 * (n / 64) = n := by omega
  unfold readingsPage
  rw [List.flatMap_append, records_zipIdx (fun d => (s.arch.logSec + d.2) % 2 ^ 32), records_toSectors, hall, List.take_take, Nat.min_self]
  split <;> rfl

theorem records_pageOf (seq : Nat) (secs : List (Nat × Nat × Bool × SecData)) :
    (pageOf seq secs).flatMap (fun x => secRecords x.data) = secs.flatMap fun x => secRecords x.2.2.2 := by
  unfold pageOf
  rw [List.flatMap_map]

theorem mem_readingsPage {b n : Nat} {s : State} {x : Nat × Nat × Bool × SecData} (hx : x ∈ readingsPage b n s) : x.1 = 5 ∧ x.2.2.1 = true := by
  unfold readingsPage at hx
  rcases List.mem_append.mp hx with hfirst | hsec
  · split at hfirst
    · rw [List.mem_singleton.mp hfirst]
      exact ⟨rfl, rfl⟩
    · cases hfirst
  · obtain ⟨d, -, rfl⟩ := List.mem_map.mp hsec
    exact ⟨rfl, rfl⟩

/-! ## The durable mark (R428) -/

/-- What settling leaves: the mark does not fall, and without paired pages it passes every page. -/
theorem settle_spec : ∀ (l : List (Nat × Nat × Nat)) (s : State), ∃ d r, (settle s l).arch = { s.arch with durable := d, notDurable := r } ∧ s.arch.durable ≤ d ∧
    ((s.arch.prof.map (·.paired)).getD [] = [] → r = [] ∧ ∀ x ∈ l, x.2.2 ≤ d)
  | [], s => ⟨s.arch.durable, [], rfl, Nat.le_refl _, fun _ => ⟨rfl, fun x hx => absurd hx List.not_mem_nil⟩⟩
  | (b, p, e) :: l, s => by
    unfold settle
    split
    case isTrue =>
      obtain ⟨d, r, harch, hle, hall⟩ := settle_spec l (setArch (fun a => { a with durable := max a.durable e }) s)
      refine ⟨d, r, harch, Nat.le_trans (Nat.le_max_left _ e) hle, fun hpm => ?_⟩
      obtain ⟨hr, hmem⟩ := hall hpm
      refine ⟨hr, fun x hx => ?_⟩
      rcases List.mem_cons.mp hx with rfl | hx
      · exact Nat.le_trans (Nat.le_max_right _ _) hle
      · exact hmem x hx
    case isFalse hpair =>
      refine ⟨s.arch.durable, (b, p, e) :: l, rfl, Nat.le_refl _, fun hpm => absurd ?_ hpair⟩
      unfold pairedDone
      rw [hpm]
      rfl

/-! ## The next page -/

/-- One past the greatest number among records. -/
def topOf (recs : List (Option (Nat × List Byte))) : Nat := (recs.filterMap id).foldl (fun m r => max m (r.1 + 1)) 0

theorem lt_foldl_top {r : Nat × List Byte} : ∀ (l : List (Nat × List Byte)) (m : Nat), m ≤ l.foldl (fun m r => max m (r.1 + 1)) m ∧
    (r ∈ l → r.1 < l.foldl (fun m r => max m (r.1 + 1)) m)
  | [], m => ⟨Nat.le_refl m, fun h => absurd h List.not_mem_nil⟩
  | x :: l, m => by
    obtain ⟨hle, hin⟩ := lt_foldl_top (r := r) l (max m (x.1 + 1))
    refine ⟨Nat.le_trans (Nat.le_max_left ..) hle, fun h => ?_⟩
    rcases List.mem_cons.mp h with rfl | h
    · exact Nat.lt_of_succ_le (Nat.le_trans (Nat.le_max_right ..) hle)
    · exact hin h

theorem lt_topOf {recs : List (Option (Nat × List Byte))} {r : Nat × List Byte} (h : r ∈ recs.filterMap id) : r.1 < topOf recs := (lt_foldl_top _ 0).2 h

/-- The store with the next page of block `b` programmed. -/
def pageWritten (b n : Nat) (s : State) : State :=
  programPage b (readingsPage b n s) (setArch (fun a => { a with wq := a.wq.drop n, logSec := s.arch.logSec + (toSectors (n / 64) (s.arch.wq.take n)).length }) s)

/-- A full block is no longer the open one of its target. -/
def pageFilled (b n : Nat) (s : State) : State :=
  if (blockOf (pageWritten b n s) b).st == .data then setArch (fun a => { a with openR := a.openR.filter (fun p => p.2 != b) }) (pageWritten b n s)
  else pageWritten b n s

/-- The page waits for its pairs, and the next target has its turn. -/
def pageLogged (b n : Nat) (s : State) : State :=
  setArch (fun a => { a with turn := a.turn + 1, notDurable := a.notDurable ++ [(b, (blockOf s b).pages.length, topOf (s.arch.wq.take n))] }) (pageFilled b n s)

theorem readingsTarget_of_open {s : State} {b : Nat} (h : Kv.get? (s.arch.turn % max 1 s.arch.targets.length) s.arch.openR = some b) :
    readingsTarget s = some (b, s) := by
  unfold readingsTarget
  dsimp only
  rw [h]

theorem programReadings_of_stopped {s : State} (h : islRun s 4 = false ∨ s.arch.st ≠ .ready ∨ s.arch.writeback = true) : programReadings s = s :=
  if_pos (by simpa [or_assoc] using h)

theorem programReadings_of_open {s : State} {b : Nat} (hrun : islRun s 4 = true) (hst : s.arch.st = .ready) (hwb : s.arch.writeback = false)
    (hopen : Kv.get? (s.arch.turn % max 1 s.arch.targets.length) s.arch.openR = some b) : programReadings s =
      if s.arch.wq.length < pageRecords s b then s else settle (pageLogged b (pageRecords s b) s) (pageLogged b (pageRecords s b) s).arch.notDurable := by
  unfold programReadings
  rw [if_neg (by simp [hrun, hst, hwb]), readingsTarget_of_open hopen]
  rfl

theorem programReadings_of_none {s : State} (hrun : islRun s 4 = true) (hst : s.arch.st = .ready) (hwb : s.arch.writeback = false)
    (hnone : readingsTarget s = none) : programReadings s = { s with arch := { s.arch with
      st := if (pickFree false s.arch.blocks).isNone ∧ readingsUsed s < (s.arch.layout.map (·.readings)).getD 0 then .readOnly else .keepFull } } := by
  unfold programReadings
  rw [if_neg (by simp [hrun, hst, hwb]), hnone]
  dsimp only
  by_cases hshort : (pickFree false s.arch.blocks).isNone ∧ readingsUsed s < (s.arch.layout.map (·.readings)).getD 0
  · rw [if_pos (by simpa using hshort), if_pos hshort]
    rfl
  · rw [if_neg (by simpa using hshort), if_neg hshort]
    rfl

theorem pageFilled_arch (b n : Nat) (s : State) : ∃ o, (pageFilled b n s).arch = { (pageWritten b n s).arch with openR := o } := by
  unfold pageFilled
  split
  · exact ⟨_, rfl⟩
  · exact ⟨_, rfl⟩

/-- What the next page leaves of the store, when the queue holds one. -/
theorem page_programmed {s : State} {b n : Nat} (hn : n = pageRecords s b) :
    ∃ page, (s.RegsOk → reg (settle (pageLogged b n s) (pageLogged b n s).arch.notDurable) 0x4060 = satAdd (reg s 0x4060) 1) ∧
      (settle (pageLogged b n s) (pageLogged b n s).arch.notDurable).arch.wq = s.arch.wq.drop n ∧
      (blockOf (settle (pageLogged b n s) (pageLogged b n s).arch.notDurable) b).pages = (blockOf s b).pages ++ [page] ∧
      (page.flatMap fun x => secRecords x.data) = (s.arch.wq.take n).filterMap id ∧ (∀ x ∈ page, x.zone = 5 ∧ x.mapped = true) ∧
      (blockOf (settle (pageLogged b n s) (pageLogged b n s).arch.notDurable) b).st =
        (if pagesPerBlock s ≤ (blockOf s b).pages.length + 1 then .data else (blockOf s b).st) ∧
      s.arch.durable ≤ (settle (pageLogged b n s) (pageLogged b n s).arch.notDurable).arch.durable ∧
      ((s.arch.prof.map (·.paired)).getD [] = [] → (settle (pageLogged b n s) (pageLogged b n s).arch.notDurable).arch.notDurable = [] ∧
        ∀ r ∈ (s.arch.wq.take n).filterMap id, r.1 < (settle (pageLogged b n s) (pageLogged b n s).arch.notDurable).arch.durable) := by
  have hqueue : Changes [.arch] s (setArch (fun a => { a with wq := a.wq.drop n, logSec := s.arch.logSec + (toSectors (n / 64) (s.arch.wq.take n)).length }) s) :=
    setArch_changes ..
  have hfilled : Changes [.arch] (pageWritten b n s) (pageFilled b n s) := .ite (setArch_changes ..) .refl
  have hlogged : Changes [.arch] (pageFilled b n s) (pageLogged b n s) := setArch_changes ..
  have hsettled := settle_changes (pageLogged b n s).arch.notDurable (pageLogged b n s)
  have harch : (pageWritten b n s).arch = _ := programPage_arch ..
  obtain ⟨o, hopen⟩ := pageFilled_arch b n s
  obtain ⟨d, r, hend, hmark, hpaired⟩ := settle_spec (pageLogged b n s).arch.notDurable (pageLogged b n s)
  have hlog : (pageLogged b n s).arch = { (pageFilled b n s).arch with
      turn := (pageFilled b n s).arch.turn + 1,
      notDurable := (pageFilled b n s).arch.notDurable ++ [(b, (blockOf s b).pages.length, topOf (s.arch.wq.take n))] } := rfl
  rw [hopen, harch] at hlog
  have hblock : blockOf (settle (pageLogged b n s) (pageLogged b n s).arch.notDurable) b =
      withPage (pagesPerBlock s) (pageOf (s.arch.pseq + 1) (readingsPage b n s)) (blockOf s b) := by
    refine blockOf_of_put (m := s.arch.blocks) ?_
    rw [hend, hlog]
    rfl
  refine ⟨pageOf (s.arch.pseq + 1) (readingsPage b n s), fun hs => ?_, ?_, ?_, ?_, fun x hx => ?_, ?_, ?_, fun hpm => ?_⟩
  · have hregs : (settle (pageLogged b n s) (pageLogged b n s).arch.notDurable).regs = (pageWritten b n s).regs :=
      (hsettled.same .regs (by decide)).trans ((hlogged.same .regs (by decide)).trans (hfilled.same .regs (by decide)))
    rw [reg_congr hregs]
    exact reg_programPage (hqueue.regsOk hs) _ _
  · rw [hend, hlog]
    rfl
  · rw [hblock]
    rfl
  · rw [records_pageOf]
    exact records_readingsPage (by rw [hn, pageRecords]; omega)
  · obtain ⟨y, hy, rfl⟩ := List.mem_map.mp hx
    exact mem_readingsPage hy
  · rw [hblock]
    rfl
  · rw [hend]
    rw [hlog] at hmark
    exact hmark
  · have hprof : ((pageLogged b n s).arch.prof.map (·.paired)).getD [] = [] := by
      rw [hlog]
      exact hpm
    obtain ⟨hr, hpast⟩ := hpaired hprof
    rw [hend]
    refine ⟨hr, fun x hx => Nat.lt_of_lt_of_le (lt_topOf hx) (hpast (b, (blockOf s b).pages.length, topOf (s.arch.wq.take n)) ?_)⟩
    rw [hlog]
    exact List.mem_append_right _ List.mem_cons_self

/-! ## The queue with its padding (R427) -/

/-- The store with another write queue. -/
def queued (q : List (Option (Nat × List Byte))) (s : State) : State := setArch (fun a => { a with wq := q }) s

theorem padQueue_of_open {s : State} {b : Nat} (hopen : Kv.get? (s.arch.turn % max 1 s.arch.targets.length) s.arch.openR = some b)
    (hn : 0 < pageRecords s b) : padQueue s =
      queued (s.arch.wq ++ List.replicate ((pageRecords s b - s.arch.wq.length % pageRecords s b) % pageRecords s b) none) s := by
  have hlt := Nat.mod_lt s.arch.wq.length hn
  unfold padQueue
  rw [readingsTarget_of_open hopen]
  dsimp only
  by_cases hk : s.arch.wq.length % pageRecords s b = 0
  · rw [if_pos hk, hk, Nat.sub_zero, Nat.mod_self, List.replicate_zero, List.append_nil]
    rfl
  · rw [if_neg hk, Nat.mod_eq_of_lt (show pageRecords s b - s.arch.wq.length % pageRecords s b < pageRecords s b by omega)]
    rfl

/-- A padded queue shorter than a page is empty, and was. -/
theorem eq_of_padded_short {α : Type} {l : List α} {n : Nat} {x : α} (h : (l ++ List.replicate ((n - l.length % n) % n) x).length < n) :
    l ++ List.replicate ((n - l.length % n) % n) x = l := by
  have hn : 0 < n := by omega
  have hlt := Nat.mod_lt l.length hn
  rw [List.length_append, List.length_replicate] at h
  have hlen : l.length % n = l.length := Nat.mod_eq_of_lt (by omega)
  rw [hlen] at h ⊢
  by_cases hzero : l.length = 0
  · rw [hzero, Nat.sub_zero, Nat.mod_self, List.replicate_zero, List.append_nil]
  · rw [Nat.mod_eq_of_lt (show n - l.length < n by omega)] at h
    omega

end Sys2Proof.Machine
end

section

/-! SUPPORT. O57: blocks that are retired, erased and moved (R433 to R437). -/

namespace Sys2Proof.Machine

/-! ## Searches among the blocks -/

/-- A write that the search passes over, before and after, does not change what it finds. -/
theorem find?_put_of_skipped {α : Type} {f : Nat × α → Bool} {b : Nat} {v w : α} : ∀ {m : Kv α}, Kv.get? b m = some v → f (b, v) = false → f (b, w) = false →
    (Kv.put b w m).find? f = m.find? f
  | (j, x) :: m, hget, hv, hw => by
    unfold Kv.get? at hget
    unfold Kv.put
    by_cases heq : b = j
    · subst heq
      rw [if_pos rfl, Option.some.injEq] at hget
      rw [if_neg (Nat.lt_irrefl b), if_pos rfl, List.find?_cons_of_neg (by simp [hw]), List.find?_cons_of_neg (by simp [hget, hv])]
    · rw [if_neg heq] at hget
      by_cases hlt : b < j
      · rw [if_pos hlt] at hget
        cases hget
      · rw [if_neg hlt] at hget
        rw [if_neg hlt, if_neg heq, List.find?_cons, List.find?_cons, find?_put_of_skipped hget hv hw]

theorem get?_of_mem_wf {α : Type} {m : Kv α} (hwf : Kv.wf m = true) {k : Nat} {v : α} (h : (k, v) ∈ m) : Kv.get? k m = some v :=
  Kv.get?_of_mem (Kv.pairwise_of_sortedFrom hwf).2 h

theorem mem_of_get? {α : Type} {k : Nat} {v : α} : ∀ {m : Kv α}, Kv.get? k m = some v → (k, v) ∈ m
  | (j, w) :: m, h => by
    unfold Kv.get? at h
    split at h
    case isTrue heq =>
      cases h
      rw [heq]
      exact List.mem_cons_self
    case isFalse =>
      split at h
      · cases h
      · exact List.mem_cons_of_mem _ (mem_of_get? h)

/-- The block taken for a fresh one is FREE, with its own PE count. -/
theorem pickFree_mem {worn : Bool} {d pe : Nat} : ∀ {m : Kv Block}, pickFree worn m = some (d, pe) → ∃ w, (d, w) ∈ m ∧ w.st = .free ∧ w.pe = pe
  | (j, x) :: m, h => by
    have hrest : pickFree worn m = some (d, pe) → ∃ w, (d, w) ∈ (j, x) :: m ∧ w.st = .free ∧ w.pe = pe := fun hm => by
      obtain ⟨w, hw, hfree⟩ := pickFree_mem hm
      exact ⟨w, List.mem_cons_of_mem _ hw, hfree⟩
    have hhere : x.st = .free → some (j, x.pe) = some (d, pe) → ∃ w, (d, w) ∈ (j, x) :: m ∧ w.st = .free ∧ w.pe = pe := fun hst heq => by
      cases heq
      exact ⟨x, List.mem_cons_self, hst, rfl⟩
    unfold pickFree at h
    split at h
    case isTrue => exact hrest h
    case isFalse hst =>
      have hfree : x.st = .free := by simpa using hst
      split at h
      case h_1 c q hm =>
        split at h
        · exact hrest (hm.trans h)
        · exact hhere hfree h
      case h_2 => exact hhere hfree h

/-! ## The journal and the spares (R434, R437) -/

theorem mapJournal_arch (s : State) : ∃ j a c, (mapJournal s).arch = { s.arch with jrecs := j, area := a, ageCkpt := c } := by
  unfold mapJournal setArch
  dsimp only
  split
  · exact ⟨_, s.arch.area, s.arch.ageCkpt, rfl⟩
  · exact ⟨_, _, _, rfl⟩

theorem mapJournal_blocks (s : State) : (mapJournal s).arch.blocks = s.arch.blocks := by
  obtain ⟨j, a, c, h⟩ := mapJournal_arch s
  rw [h]

theorem mapJournal_layout (s : State) : (mapJournal s).arch.layout = s.arch.layout := by
  obtain ⟨j, a, c, h⟩ := mapJournal_arch s
  rw [h]

theorem mapJournal_prof (s : State) : (mapJournal s).arch.prof = s.arch.prof := by
  obtain ⟨j, a, c, h⟩ := mapJournal_arch s
  rw [h]

theorem replaceBlock_of_spare {st : BlkSt} {zone c : Nat} {w : Block} {s : State} (h : s.arch.blocks.find? (fun p => p.2.st == .spare) = some (c, w)) :
    (replaceBlock st zone s).arch.blocks = Kv.put c { w with st := st, zone := zone } s.arch.blocks ∧ (replaceBlock st zone s).arch.layout = s.arch.layout := by
  unfold replaceBlock
  rw [h]
  dsimp only
  rw [checkReadOnly_arch]
  exact ⟨rfl, rfl⟩

theorem replaceBlock_of_none {st : BlkSt} {zone : Nat} {s : State} (h : s.arch.blocks.find? (fun p => p.2.st == .spare) = none) :
    (replaceBlock st zone s).arch.blocks = s.arch.blocks ∧
      (replaceBlock st zone s).arch.layout = s.arch.layout.map (fun l => { l with readings := l.readings - 1 }) := by
  unfold replaceBlock
  rw [h]
  dsimp only
  rw [checkReadOnly_arch]
  exact ⟨rfl, rfl⟩

/-! ## A failed block without a page (R434) -/

/-- The store with a block out of use. -/
def blockRetired (b : Nat) (v : Block) (s : State) : State :=
  putBlock b { v with st := .retired } (mapJournal (if v.zone = 5 then s else putBlock b { v with st := .stale } s))

/-- A block without a page moves nothing: it is retired and replaced. -/
theorem retireBlock_of_empty {b : Nat} {v : Block} {s : State} (hblock : blockOf s b = v) (hempty : v.pages = []) :
    retireBlock b [] s = replaceBlock (if v.st = .metaBlk then .metaBlk else .free) (if v.st = .metaBlk then v.zone else 0) (blockRetired b v s) := by
  obtain ⟨st, zone, pe, reads, hint, wr, pages⟩ := v
  cases hempty
  unfold retireBlock collectTo blockRetired
  rw [hblock]
  by_cases hzone : zone = 5
  · by_cases hst : st = .metaBlk
    · simp [hzone, hst]
    · simp [hzone, hst]
  · by_cases hst : st = .metaBlk
    · simp [hzone, hst, programSectors]
    · simp [hzone, hst, programSectors]

theorem blockRetired_spec {b : Nat} {v : Block} {s : State} (hget : Kv.get? b s.arch.blocks = some v) (hspare : v.st ≠ .spare) :
    blockOf (blockRetired b v s) b = { v with st := .retired } ∧ (∀ k, k ≠ b → blockOf (blockRetired b v s) k = blockOf s k) ∧
      (blockRetired b v s).arch.layout = s.arch.layout ∧
      (blockRetired b v s).arch.blocks.find? (fun p => p.2.st == .spare) = s.arch.blocks.find? (fun p => p.2.st == .spare) := by
  have hput : (blockRetired b v s).arch.blocks = Kv.put b { v with st := .retired } (if v.zone = 5 then s else putBlock b { v with st := .stale } s).arch.blocks :=
    congrArg (fun m => Kv.put b ({ v with st := .retired } : Block) m) (mapJournal_blocks (if v.zone = 5 then s else putBlock b { v with st := .stale } s))
  have hlayout : (blockRetired b v s).arch.layout = (if v.zone = 5 then s else putBlock b { v with st := .stale } s).arch.layout := mapJournal_layout _
  have hv : ((b, v).2.st == BlkSt.spare) = false := by simpa using hspare
  by_cases hzone : v.zone = 5
  · rw [if_pos hzone] at hput hlayout
    exact ⟨blockOf_of_put hput, fun k hk => blockOf_of_put_ne hput hk, hlayout, by rw [hput]; exact find?_put_of_skipped hget hv rfl⟩
  · rw [if_neg hzone] at hput hlayout
    refine ⟨blockOf_of_put hput, fun k hk => (blockOf_of_put_ne hput hk).trans (blockOf_of_put_ne (s := s) rfl hk), hlayout, ?_⟩
    have hstale : (Kv.put b { v with st := .stale } s.arch.blocks).find? (fun p => p.2.st == .spare) = s.arch.blocks.find? (fun p => p.2.st == .spare) :=
      find?_put_of_skipped hget hv rfl
    have hretired : (Kv.put b { v with st := .retired } (Kv.put b { v with st := .stale } s.arch.blocks)).find? (fun p => p.2.st == .spare) =
        (Kv.put b { v with st := .stale } s.arch.blocks).find? (fun p => p.2.st == .spare) := find?_put_of_skipped (Kv.get?_put_same ..) rfl rfl
    rw [hput]
    exact hretired.trans hstale

/-- A failed block without a page is retired, and a spare takes its place, or the zone shrinks. -/
theorem retireBlock_empty_spec {b : Nat} {v : Block} {s : State} (hwf : Kv.wf s.arch.blocks = true) (hget : Kv.get? b s.arch.blocks = some v)
    (hempty : v.pages = []) (hspare : v.st ≠ .spare) :
    blockOf (retireBlock b [] s) b = { v with st := .retired } ∧
      (∀ (c : Nat) (w : Block), s.arch.blocks.find? (fun p => p.2.st == .spare) = some (c, w) → (retireBlock b [] s).arch.layout = s.arch.layout ∧
        blockOf (retireBlock b [] s) c = { w with st := if v.st = .metaBlk then .metaBlk else .free, zone := if v.st = .metaBlk then v.zone else 0 } ∧
        ∀ k, k ≠ b → k ≠ c → blockOf (retireBlock b [] s) k = blockOf s k) ∧
      ((∀ p ∈ s.arch.blocks, p.2.st ≠ .spare) → (retireBlock b [] s).arch.layout = s.arch.layout.map (fun l => { l with readings := l.readings - 1 }) ∧
        ∀ k, k ≠ b → blockOf (retireBlock b [] s) k = blockOf s k) := by
  obtain ⟨hown, hothers, hlayout, hfind⟩ := blockRetired_spec hget hspare
  rw [retireBlock_of_empty (blockOf_of_get? hget) hempty]
  have hwith : ∀ (c : Nat) (w : Block), s.arch.blocks.find? (fun p => p.2.st == .spare) = some (c, w) → c ≠ b := fun c w hcw hcb => by
    subst hcb
    have hw := get?_of_mem_wf hwf (List.mem_of_find?_eq_some hcw)
    rw [hget, Option.some.injEq] at hw
    subst hw
    exact hspare (by simpa using List.find?_some hcw)
  refine ⟨?_, fun c w hcw => ?_, fun hnone => ?_⟩
  · cases hcw : s.arch.blocks.find? (fun p => p.2.st == .spare) with
    | none => rw [blockOf_congr (replaceBlock_of_none (hfind.trans hcw)).1, hown]
    | some x => rw [blockOf_of_put_ne (replaceBlock_of_spare (hfind.trans hcw)).1 (hwith x.1 x.2 hcw).symm, hown]
  · obtain ⟨hput, hlay⟩ := replaceBlock_of_spare (st := if v.st = .metaBlk then .metaBlk else .free) (zone := if v.st = .metaBlk then v.zone else 0) (hfind.trans hcw)
    exact ⟨hlay.trans hlayout, blockOf_of_put hput, fun k hkb hkc => (blockOf_of_put_ne hput hkc).trans (hothers k hkb)⟩
  · have hcw : s.arch.blocks.find? (fun p => p.2.st == .spare) = none := List.find?_eq_none.mpr fun p hp => by simpa using hnone p hp
    obtain ⟨hkeep, hlay⟩ := replaceBlock_of_none (st := if v.st = .metaBlk then .metaBlk else .free) (zone := if v.st = .metaBlk then v.zone else 0) (hfind.trans hcw)
    exact ⟨by rw [hlay, hlayout], fun k hk => (blockOf_congr hkeep k).trans (hothers k hk)⟩

/-! ## Erasing (R434, R437) -/

/-- A block below its PE limit is FREE after its erase. -/
theorem eraseBlock_of_below {b : Nat} {s : State}
    (h : (s.arch.prof.map (·.peLimit)).getD 0 = 0 ∨ (blockOf s b).pe + 1 < (s.arch.prof.map (·.peLimit)).getD 0) :
    eraseBlock b s = putBlock b { blockEmpty with st := .free, pe := (blockOf s b).pe + 1 } s := by
  have hst : ((s.arch.prof.map (·.peLimit)).getD 0 != 0 && decide ((s.arch.prof.map (·.peLimit)).getD 0 ≤ (blockOf s b).pe + 1)) = false := by
    rcases h with h | h
    · simp [h]
    · simp; omega
  unfold eraseBlock
  dsimp only
  rw [hst]
  rfl

/-! ## Moving a whole block (R433, R435, R437) -/

/-- A sector without its number in the log. -/
def stripped (x : Sector) : Nat × Nat × Bool × SecData := (x.zone, x.lsn, x.mapped, x.data)

theorem stripped_pageOf (seq : Nat) (secs : List (Nat × Nat × Bool × SecData)) : (pageOf seq secs).map stripped = secs := by
  unfold pageOf
  rw [List.map_map]
  exact List.map_id secs

/-- Pages programmed one after another into a block. -/
def copyPages (d : Nat) (l : List (List Sector)) (s : State) : State := l.foldl (fun t p => programPage d (p.map stripped) t) s

theorem copyPages_spec (d : Nat) : ∀ (l : List (List Sector)) (s : State),
    ((blockOf (copyPages d l s) d).pages.map fun p => p.map stripped) = ((blockOf s d).pages.map fun p => p.map stripped) ++ l.map (fun p => p.map stripped) ∧
      (blockOf (copyPages d l s) d).zone = (blockOf s d).zone ∧ (blockOf (copyPages d l s) d).pe = (blockOf s d).pe ∧
      (blockOf (copyPages d l s) d).wr = (blockOf s d).wr ∧ (∀ k, k ≠ d → blockOf (copyPages d l s) k = blockOf s k) ∧
      (copyPages d l s).arch.prof = s.arch.prof
  | [], s => ⟨(List.append_nil _).symm, rfl, rfl, rfl, fun _ _ => rfl, rfl⟩
  | p :: l, s => by
    have hstep : copyPages d (p :: l) s = copyPages d l (programPage d (p.map stripped) s) := rfl
    obtain ⟨hpages, hzone, hpe, hwr, hothers, hprof⟩ := copyPages_spec d l (programPage d (p.map stripped) s)
    rw [blockOf_programPage_same] at hpages hzone hpe hwr
    rw [hstep]
    refine ⟨hpages.trans ?_, hzone, hpe, hwr, fun k hk => (hothers k hk).trans (blockOf_programPage_ne hk _ s), hprof.trans ?_⟩
    · rw [withPage, List.map_append, List.map_singleton, stripped_pageOf, List.map_cons, List.append_assoc]
      rfl
    · rw [programPage_arch]

/-- The content of a block stands in a block opened for it, and the block itself is FREE. -/
def BlockMoved (b d pe : Nat) (wr : WriteRec) (v : Block) (s t : State) : Prop :=
  blockOf t b = { blockEmpty with st := .free, pe := v.pe + 1 } ∧ (blockOf t d).st = .data ∧ (blockOf t d).zone = v.zone ∧ (blockOf t d).pe = pe ∧
    (blockOf t d).wr = wr ∧ ((blockOf t d).pages.map fun p => p.map stripped) = (v.pages.map fun p => p.map stripped) ∧ d ≠ b ∧
    ∀ k, k ≠ b → k ≠ d → blockOf t k = blockOf s k

/-- The block opened for a move. -/
def blockOpened (d zone pe : Nat) (s : State) : State := mapJournal (putBlock d ⟨.open_, zone, pe, 0, none, writeRecNow s pe, []⟩ s)

/-- The content copied into block `d`. -/
def blockCopied (b d pe : Nat) (v : Block) (s : State) : State :=
  let t := copyPages d v.pages (blockOpened d v.zone pe s)
  setArch (fun a => { a with notDurable := a.notDurable.map fun p => if p.1 = b then (d, p.2) else p }) (putBlock d { blockOf t d with st := .data } t)

theorem openBlock_of_pick {zone d pe : Nat} {worn : Bool} {s : State} (h : pickFree worn s.arch.blocks = some (d, pe)) :
    openBlock zone worn s = some (d, blockOpened d zone pe s) := by
  unfold openBlock
  rw [h]
  rfl

theorem kept_pages (pages : List (List Sector)) :
    (pages.zipIdx.map fun x : List Sector × Nat => if ([] : List Nat).contains x.2 then x.1.map (fun y => { y with mapped := false }) else x.1) = pages := by
  simp

theorem lost_records (pages : List (List Sector)) : (pages.zipIdx.flatMap fun x : List Sector × Nat =>
    if ([] : List Nat).contains x.2 then x.1.flatMap (fun y => if y.mapped then secRecords y.data else []) else []) = [] := by
  simp

/-- A DATA block with valid content moves whole. -/
theorem collectTo_of_data {b d pe : Nat} {worn : Bool} {v : Block} {s : State} (hblock : blockOf s b = v) (hst : v.st = .data)
    (hmapped : ∃ p ∈ v.pages, ∃ x ∈ p, x.mapped = true) (hrecords : v.zone = 5 → blockRecords v ≠ []) (hwhole : v.zone = 5 ∨ worn = true)
    (hpick : pickFree worn s.arch.blocks = some (d, pe)) :
    collectTo b [] worn false s = eraseBlock b (count 0x4078 (mapJournal (blockCopied b d pe v s))) := by
  have hkeep : ¬ ((v.pages.all (fun p => p.all fun x => !x.mapped) || v.st == .free || (v.zone = 5 && (blockRecords v).isEmpty)) = true) := by
    obtain ⟨p, hp, x, hx, hm⟩ := hmapped
    have hall : v.pages.all (fun p => p.all fun x => !x.mapped) = false := by
      refine List.all_eq_false.mpr ⟨p, hp, ?_⟩
      rw [List.all_eq_true]
      intro hnone
      have hno := hnone x hx
      rw [hm] at hno
      cases hno
    rw [hall, hst]
    simpa using hrecords
  unfold collectTo
  dsimp only
  rw [hblock, kept_pages, lost_records, List.foldl_nil, if_pos (by simpa using hwhole), if_neg hkeep, openBlock_of_pick hpick]
  dsimp only
  have hclosed : (v.st != .open_) = true := by simp [hst]
  simp only [hclosed, if_true, Bool.false_eq_true, if_false]
  rfl

theorem collectTo_moves {b d pe : Nat} {worn : Bool} {v : Block} {s : State} (hwf : Kv.wf s.arch.blocks = true) (hget : Kv.get? b s.arch.blocks = some v)
    (hst : v.st = .data) (hmapped : ∃ p ∈ v.pages, ∃ x ∈ p, x.mapped = true) (hrecords : v.zone = 5 → blockRecords v ≠ []) (hwhole : v.zone = 5 ∨ worn = true)
    (hlimit : (s.arch.prof.map (·.peLimit)).getD 0 = 0 ∨ v.pe + 1 < (s.arch.prof.map (·.peLimit)).getD 0)
    (hpick : pickFree worn s.arch.blocks = some (d, pe)) : BlockMoved b d pe (writeRecNow s pe) v s (collectTo b [] worn false s) := by
  have hne : d ≠ b := fun heq => by
    obtain ⟨w, hw, hfree, -⟩ := pickFree_mem hpick
    have hw' := get?_of_mem_wf hwf hw
    rw [heq, hget, Option.some.injEq] at hw'
    rw [← hw', hst] at hfree
    cases hfree
  have hblock := blockOf_of_get? hget
  have hopened : (blockOpened d v.zone pe s).arch.blocks = Kv.put d ⟨.open_, v.zone, pe, 0, none, writeRecNow s pe, []⟩ s.arch.blocks := mapJournal_blocks _
  obtain ⟨hpages, hzone, hpe, hwr, hothers, hprof⟩ := copyPages_spec d v.pages (blockOpened d v.zone pe s)
  rw [blockOf_of_put hopened] at hpages hzone hpe hwr
  have hcopied : (mapJournal (blockCopied b d pe v s)).arch.blocks =
      Kv.put d { blockOf (copyPages d v.pages (blockOpened d v.zone pe s)) d with st := .data } (copyPages d v.pages (blockOpened d v.zone pe s)).arch.blocks :=
    mapJournal_blocks _
  have hrest : ∀ k, k ≠ d → blockOf (mapJournal (blockCopied b d pe v s)) k = blockOf s k := fun k hk =>
    (blockOf_of_put_ne hcopied hk).trans ((hothers k hk).trans (blockOf_of_put_ne hopened hk))
  have hlim : (count 0x4078 (mapJournal (blockCopied b d pe v s))).arch.prof = s.arch.prof :=
    (mapJournal_prof _).trans (hprof.trans (mapJournal_prof _))
  have hown : blockOf (count 0x4078 (mapJournal (blockCopied b d pe v s))) b = v := (hrest b hne.symm).trans hblock
  rw [collectTo_of_data hblock hst hmapped hrecords hwhole hpick, eraseBlock_of_below (by rw [hlim, hown]; exact hlimit), hown]
  have hafter : ∀ k, k ≠ b → blockOf (putBlock b { blockEmpty with st := .free, pe := v.pe + 1 } (count 0x4078 (mapJournal (blockCopied b d pe v s)))) k =
      blockOf (mapJournal (blockCopied b d pe v s)) k := fun k hk => blockOf_of_put_ne rfl hk
  have hd := (hafter d hne).trans (blockOf_of_put hcopied)
  refine ⟨blockOf_of_put (m := (count 0x4078 (mapJournal (blockCopied b d pe v s))).arch.blocks) rfl, ?_, ?_, ?_, ?_, ?_, hne, fun k hkb hkd => (hafter k hkb).trans (hrest k hkd)⟩
  · rw [hd]
  · rw [hd]
    exact hzone
  · rw [hd]
    exact hpe
  · rw [hd]
    exact hwr
  · rw [hd]
    exact hpages

end Sys2Proof.Machine
end

section

/-! O57 (R424, R425, R427 to R430, R433 to R435, R437, R438, R440, R441, R444, R448). -/

namespace Sys2Proof.Machine

/-! ## Nothing to do -/

theorem programEraseFail_of_idle {b : Nat} {s : State} (erase : Bool)
    (h : storeUp s = false ∨ (blockOf s b).st = .retired ∨ (blockOf s b).st = .bad ∨ Kv.get? b s.arch.blocks = none) : programEraseFail b erase s = s :=
  if_pos (by simpa [or_assoc] using h)

theorem blockCollection_of_idle {s : State} (h : ∀ p ∈ s.arch.blocks, p.2.zone = 5 ∧ p.2.st ≠ .stale ∨ p.2.zone ≠ 5 ∧ p.2.st ≠ .data) :
    blockCollection s = s := by
  have hstale : s.arch.blocks.find? (fun p => p.2.zone == 5 && p.2.st == .stale) = none := List.find?_eq_none.mpr fun p hp => by
    rcases h p hp with ⟨-, hst⟩ | ⟨hzone, -⟩
    · simp [hst]
    · simp [hzone]
  have hdata : s.arch.blocks.filter (fun p => p.2.st == .data && p.2.zone != 5) = [] := List.filter_eq_nil_iff.mpr fun p hp => by
    rcases h p hp with ⟨hzone, -⟩ | ⟨-, hst⟩
    · simp [hzone]
    · simp [hst]
  unfold blockCollection
  rw [hstale, hdata]
  exact ite_self _

theorem wearLevelMove_of_idle {s : State}
    (h : peMax s ≤ minD 0 ((s.arch.blocks.filter fun p => p.2.st == .data || p.2.st == .free).map (·.2.pe)) + fieldOf s 0x400C 31 16 ∨
      s.win.min.contains (8, 0) = true) : wearLevelMove s = s := by
  unfold wearLevelMove
  dsimp only
  split
  case isTrue => rfl
  case isFalse hspread =>
    have hdone : s.win.min.contains (8, 0) = true := h.resolve_left fun hle => hspread (by simp [hle])
    split
    · exact if_pos hdone
    · rfl

theorem retentionScan_of_idle {s : State} (h : ∀ p ∈ s.arch.blocks, p.2.st = .data → s.arch.age - p.2.wr.age ≤ fieldOf s 0x4008 7 0 * 7 * 24 * 60 * 1024) :
    retentionScan s = s := by
  unfold retentionScan
  dsimp only
  split
  · rfl
  · refine foldl_eq_of_fixed fun p hp => if_neg fun hold => ?_
    simp only [Bool.and_eq_true, beq_iff_eq, decide_eq_true_eq] at hold
    exact absurd (h p hp hold.1) (Nat.not_le.mpr hold.2)

/-- Retiring a block without a page counts nothing of its own. -/
theorem regs_retireBlock_of_empty {b : Nat} {v : Block} {s : State} (hblock : blockOf s b = v) (hempty : v.pages = []) :
    (retireBlock b [] s).regs = s.regs := by
  have hretired : Changes [.arch] s (blockRetired b v s) :=
    .step (putBlock_changes ..) (.step (mapJournal_changes _) (.ite .refl (putBlock_changes ..)) rfl) rfl
  rw [retireBlock_of_empty hblock hempty]
  exact ((replaceBlock_changes ..).same .regs (by decide)).trans (hretired.same .regs (by decide))

/-! ## The next page of the queue -/

/-- The command that programs the next page, and the queue it programs from. -/
def PagesFrom (c : Instr) (n : Nat) (s : State) (q : List (Option (Nat × List Byte))) : Prop :=
  c = .pageProgramComplete ∧ q = s.arch.wq ∨ c = .archiveFlushExpiry ∧ s.arch.fillAt + fieldOf s 0x4000 27 24 * 1000000000 ≤ s.tim.raw ∧
    q = s.arch.wq ++ List.replicate ((n - s.arch.wq.length % n) % n) none

/-- FLUSH_S does not show in the grade; PAGE_PROGRAM_COMPLETE tells the unit of a new one. -/
theorem exec_of_pagesFrom {c : Instr} {b : Nat} {q : List (Option (Nat × List Byte))} {s t : State}
    (hopen : Kv.get? (s.arch.turn % max 1 s.arch.targets.length) s.arch.openR = some b) (hn : 0 < pageRecords s b)
    (hc : PagesFrom c (pageRecords s b) s q) (ht : programReadings (queued q s) = t) :
    exec c s = .next (if c = .archiveFlushExpiry ∨ archGrade t = archGrade s then t else notice 4 t) := by
  rcases hc with ⟨rfl, rfl⟩ | ⟨rfl, hdue, rfl⟩
  · have hrun : runPageProgram s = if archGrade t = archGrade s then t else notice 4 t := by
      rw [← ht]
      rfl
    exact (congrArg Host.Outcome.next hrun).trans (congrArg Host.Outcome.next (if_congr (by simp) rfl rfl))
  · have hflush : archiveFlush s = t := by
      unfold archiveFlush
      rw [if_neg (Nat.not_lt.mpr hdue), padQueue_of_open hopen hn, ht]
    exact congrArg Host.Outcome.next (hflush.trans (if_pos (.inl rfl)).symm)

theorem eq_of_pagesFrom_short {c : Instr} {n : Nat} {q : List (Option (Nat × List Byte))} {s : State} (hc : PagesFrom c n s q) (hshort : q.length < n) :
    q = s.arch.wq := by
  rcases hc with ⟨-, rfl⟩ | ⟨-, -, rfl⟩
  · rfl
  · exact eq_of_padded_short hshort

/-! ## The moves -/

theorem wearLevelMove_of_due {b : Nat} {s : State} (hup : storeUp s = true)
    (hspread : minD 0 ((s.arch.blocks.filter fun p => p.2.st == .data || p.2.st == .free).map (·.2.pe)) + fieldOf s 0x400C 31 16 < peMax s)
    (hfirst : s.win.min.contains (8, 0) = false) (hleast : (leastBlock (·.pe) (s.arch.blocks.filter fun p => p.2.st == .data)).map (·.1) = some b) :
    wearLevelMove s = collectTo b [] true false { s with win := { s.win with min := s.win.min ++ [(8, 0)] } } := by
  obtain ⟨⟨c, m⟩, hfound, rfl⟩ := Option.map_eq_some_iff.mp hleast
  unfold wearLevelMove
  dsimp only
  rw [if_neg (by simp [hup]; omega), hfound]
  exact if_neg (by rw [hfirst]; exact Bool.false_ne_true)

/-- The scan refreshes the one block that is too old. -/
theorem retentionScan_of_one {b : Nat} {v : Block} {s : State} (hup : storeUp s = true) (hwf : Kv.wf s.arch.blocks = true)
    (hget : Kv.get? b s.arch.blocks = some v) (hst : v.st = .data)
    (hold : ∀ p ∈ s.arch.blocks, p.2.st = .data → (fieldOf s 0x4008 7 0 * 7 * 24 * 60 * 1024 < s.arch.age - p.2.wr.age ↔ p.1 = b)) :
    retentionScan s = refresh b s := by
  have hmem : (b, v) ∈ s.arch.blocks := mem_of_get? hget
  have hnodup : s.arch.blocks.Nodup := (Kv.pairwise_of_sortedFrom hwf).2.imp fun hlt heq => absurd (congrArg Prod.fst heq) (Nat.ne_of_lt hlt)
  have hother : ∀ p ∈ s.arch.blocks, p ≠ (b, v) → ¬ ((p.2.st == .data && decide (fieldOf s 0x4008 7 0 * 7 * 24 * 60 * 1024 < s.arch.age - p.2.wr.age)) = true) :=
    fun p hp hne hp' => by
      simp only [Bool.and_eq_true, beq_iff_eq, decide_eq_true_eq] at hp'
      obtain ⟨hdata, hage⟩ := hp'
      have hkey := (hold p hp hdata).mp hage
      have hsame := get?_of_mem_wf hwf (k := p.1) (v := p.2) hp
      rw [hkey, hget, Option.some.injEq] at hsame
      exact hne (Prod.ext hkey hsame.symm)
  have hscan : retentionScan s = s.arch.blocks.foldl
      (fun t p => if p.2.st == .data && decide (fieldOf s 0x4008 7 0 * 7 * 24 * 60 * 1024 < s.arch.age - p.2.wr.age) then refresh p.1 t else t) s :=
    if_neg (by simp [hup])
  rw [hscan, foldl_eq_of_one hnodup hmem (fun p hp hne => if_neg (hother p hp hne)) (fun p hp hne => if_neg (hother p hp hne))]
  exact if_pos (by simp [hst, (hold (b, v) hmem hst).mpr rfl])

theorem refresh_of_data {b : Nat} {s : State} (h : (blockOf s b).st = .data) : refresh b s = count 0x4074 (collectTo b [] false false s) :=
  if_pos (by simp [h])

/-- Settles O57: the store's events by their branches; a page by its sectors, a move by the pages copied, a mount by the pages it
takes out. -/
theorem storeEvents : Obligations.StoreEvents := by
  unfold Obligations.StoreEvents
  refine ⟨⟨?down, ?flushEarly, ?pageStopped, ?pageNone, ?page, ?failIdle, ?failEmpty, ?collectStale, ?collectIdle, ?wearIdle, ?scanIdle, ?move, ?ageEarly, ?age⟩,
    ?mountIdle, ?formatIdle, ?formatAnswer, ?mountBlank, ?format, ?mountKeeps, ?mountCuts, ?writebackIdle, ?writeback⟩
  case down =>
    intro b erase s hdown
    have hskip : (!storeUp s) = true := by rw [hdown]; rfl
    refine ⟨congrArg Host.Outcome.next (programEraseFail_of_idle erase (.inl hdown)), congrArg Host.Outcome.next (if_pos hskip),
      congrArg Host.Outcome.next (if_pos ?_), congrArg Host.Outcome.next (if_pos ?_), congrArg Host.Outcome.next (if_pos hskip)⟩
    · rw [hskip]
      rfl
    · rw [hskip]
      rfl
  case flushEarly => exact fun s hearly => congrArg Host.Outcome.next (if_pos hearly)
  case pageStopped =>
    intro s hstopped
    have hsame : runPageProgram s = s := by
      unfold runPageProgram withGrade
      rw [programReadings_of_stopped hstopped]
      exact if_pos rfl
    exact congrArg Host.Outcome.next hsame
  case pageNone =>
    intro s hrun hst hwb hnone
    exact ⟨programReadings s, rfl, programReadings_of_none hrun hst hwb hnone⟩
  case page =>
    intro c q b n s hrun hst hwb hopen hn hpos hc
    subst hn
    have hpages := programReadings_of_open (s := queued q s) hrun hst hwb hopen
    refine ⟨fun hshort => ?_, fun hfull => ?_⟩
    · obtain rfl := eq_of_pagesFrom_short hc hshort
      have hsame : programReadings (queued s.arch.wq s) = s := hpages.trans (if_pos hshort)
      rw [exec_of_pagesFrom hopen hpos hc hsame, if_pos (.inr rfl)]
    · have hpage : programReadings (queued q s) = settle (pageLogged b (pageRecords s b) (queued q s)) (pageLogged b (pageRecords s b) (queued q s)).arch.notDurable :=
        hpages.trans (if_neg (Nat.not_lt.mpr hfull))
      have hall : Changes [.regs, .arch] s (programReadings (queued q s)) := .step (programReadings_changes _) (.step (setArch_changes ..) .refl rfl) rfl
      obtain ⟨page, hcount, hqueue, hblock, hrecords, hzone, hstate, hmark, hdurable⟩ := page_programmed (s := queued q s) (b := b) rfl
      rw [hpage] at hall
      exact ⟨_, page, exec_of_pagesFrom hopen hpos hc hpage, hall.same, hcount, hqueue, hblock, hrecords, hzone, hstate, hmark, hdurable⟩
  case failIdle => exact fun b erase s hidle => congrArg Host.Outcome.next (programEraseFail_of_idle erase (.inr hidle))
  case failEmpty =>
    intro b erase v s hup hwf hget hempty hretired hbad hspare
    have hoff : isSetup (if erase then 0x4080 else 0x407C) = false := by cases erase <;> decide
    have hcount : Changes [.regs] s (count (if erase then 0x4080 else 0x407C) s) := count_changes _ _ hoff
    have hfail : programEraseFail b erase s = retireBlock b [] (count (if erase then 0x4080 else 0x407C) s) :=
      if_neg (by simp [hup, blockOf_of_get? hget, hretired, hbad, hget])
    obtain ⟨hown, hwith, hwithout⟩ := retireBlock_empty_spec (s := count (if erase then 0x4080 else 0x407C) s) hwf hget hempty hspare
    have hregs := regs_retireBlock_of_empty (s := count (if erase then 0x4080 else 0x407C) s) (blockOf_of_get? hget) hempty
    have hall : Changes [.regs, .arch] s (retireBlock b [] (count (if erase then 0x4080 else 0x407C) s)) := .step (collectTo_changes ..) (.step hcount .refl rfl) rfl
    refine ⟨_, congrArg Host.Outcome.next hfail, hall.same, fun hs => ?_, hown, hwith, hwithout⟩
    rw [reg_congr hregs, reg_count_same hs]
  case collectStale =>
    intro b v s hup hfind hbelow
    have herase : blockCollection s = putBlock b { blockEmpty with st := .free, pe := (blockOf s b).pe + 1 } (count 0x4078 s) := by
      unfold blockCollection
      rw [if_neg (by simp [hup]), hfind]
      exact eraseBlock_of_below hbelow
    have hall : Changes [.regs, .arch] s (putBlock b { blockEmpty with st := .free, pe := (blockOf s b).pe + 1 } (count 0x4078 s)) :=
      .step (putBlock_changes ..) (.step (count_changes _ _ (by decide)) .refl rfl) rfl
    exact ⟨_, congrArg Host.Outcome.next herase, hall.same, fun hs => reg_count_same hs _, rfl⟩
  case collectIdle => exact fun s h => congrArg Host.Outcome.next (blockCollection_of_idle h)
  case wearIdle => exact fun s h => congrArg Host.Outcome.next (wearLevelMove_of_idle h)
  case scanIdle => exact fun s h => congrArg Host.Outcome.next (retentionScan_of_idle h)
  case move =>
    intro c b d pe v s hup hwf hget hst hmapped hrecords hlimit hc
    rcases hc with ⟨rfl, hspread, hfirst, hleast, hpick⟩ | ⟨rfl, hzone, hold, hpick⟩
    · have hmove := wearLevelMove_of_due hup hspread hfirst hleast
      have hall : Changes [.regs, .win, .arch] s (collectTo b [] true false { s with win := { s.win with min := s.win.min ++ [(8, 0)] } }) :=
        .step (collectTo_changes ..) (.step (Changes.set_win ..) .refl rfl) rfl
      exact ⟨_, congrArg Host.Outcome.next hmove, hall.same,
        collectTo_moves (s := { s with win := { s.win with min := s.win.min ++ [(8, 0)] } }) hwf hget hst hmapped hrecords (.inr rfl) hlimit hpick⟩
    · have hmove : retentionScan s = count 0x4074 (collectTo b [] false false s) :=
        (retentionScan_of_one hup hwf hget hst hold).trans (refresh_of_data (by rw [blockOf_of_get? hget, hst]))
      have hall : Changes [.regs, .win, .arch] s (count 0x4074 (collectTo b [] false false s)) :=
        .step (count_changes _ _ (by decide)) (.step (collectTo_changes ..) .refl rfl) rfl
      exact ⟨_, congrArg Host.Outcome.next hmove, hall.same, collectTo_moves hwf hget hst hmapped hrecords (.inl hzone) hlimit hpick⟩
  case ageEarly => exact fun s hearly => congrArg Host.Outcome.next (if_pos (by simp [hearly]))
  case age => exact fun s hup hdue => congrArg Host.Outcome.next (if_neg (by simp [hup]; omega))
  case mountIdle => exact fun scan s h => congrArg Host.Outcome.next (archiveMount_of_idle h)
  case formatIdle =>
    intro s hnone
    refine congrArg Host.Outcome.next ?_
    unfold formatComplete
    rw [hnone]
  case formatAnswer =>
    intro h s w hformat hw
    subst hw
    refine congrArg Host.Outcome.next ?_
    unfold formatComplete
    rw [hformat]
    rfl
  case mountBlank => exact fun scan s hst hformat hlayout => congrArg Host.Outcome.next (archiveMount_of_blank hst hformat hlayout)
  case format =>
    intro m e l r s u ok hz hformat
    have hchange := formatStore_changes s
    rw [hformat] at hchange
    exact ⟨hchange.same, formatStore_spec hz hformat⟩
  case mountKeeps => exact fun scan l s hst hformat hlayout hcut => archiveMount_keeps hst hformat hlayout hcut
  case mountCuts => exact fun scan l s hst hformat hlayout hcut hckpt hlast => archiveMount_cuts hst hformat hlayout hcut hckpt hlast
  case writebackIdle =>
    intro s hidle
    exact congrArg Host.Outcome.next (if_pos (by simp [hidle]))
  case writeback => exact fun s r l hdue hring hleast => congrArg Host.Outcome.next (overflowWriteback_of_ring hdue hring hleast)

end Sys2Proof.Machine
end
